-- ==== Sys2Proof/Word.lean ====
section
/-!
DEFINITION. The words of the block: bytes, 32-bit register words, 64-bit Tally values and stamps, 40-bit Q8.32
registers of the microcode, 72-bit accumulators, 176-bit microwords.
-/

namespace Sys2Proof

/-- A byte of memory. -/
abbrev Byte := BitVec 8

/-- A 32-bit register or memory word. -/
abbrev Word := BitVec 32

/-- A Tally value or stamp: 64 bits of 2^-32 s (00_scope.md R3, 02_tally_time.md R33). -/
abbrev Stamp := BitVec 64

/-- A 24-bit address of the Kamyn address space (03_loop_engines.md R64). -/
abbrev Addr := BitVec 24

/-- An engine accumulator (04_kamyn_instruction_set.md R97). -/
abbrev Acc72 := BitVec 72

/-- A microword of 176 bits (06_microcode.md R154). -/
abbrev UWord := BitVec 176

/-- Bits [lo + len - 1 : lo] of a natural number. -/
def bitsOf (n lo len : Nat) : Nat := n / 2 ^ lo % 2 ^ len

/-- `n` with bits [lo + len - 1 : lo] replaced by the low `len` bits of `v`. -/
def withBits (n lo len v : Nat) : Nat :=
  n - bitsOf n lo len * 2 ^ lo + v % 2 ^ len * 2 ^ lo

/-- One bit of a natural number. -/
def bitOf (n i : Nat) : Bool := n / 2 ^ i % 2 == 1

/-- 1 for true, 0 for false. -/
def b2n (b : Bool) : Nat := if b then 1 else 0

end Sys2Proof
end

