-- ==== Sys2Proof/Syntax.lean ====
section
/-!
DEFINITION. The commands of the block: one constructor per row of spec/opcode_table.json, with the operands that the
rule named at each constructor gives it, and the small types those operands use.
-/

namespace Sys2Proof

/-- The masters of R26 and the ports of R376: who makes a register access. The Shepherd's authority is that of its
world, the debug access master's that of the debug level; `hup f` is an access of HUP through PG_UDATA of page f, `urp p`
the unit-register path of physical engine p. -/
inductive Port
  | shepherd | dam | hpp | hup (f : Fin 16) | urp (p : Fin 72)
deriving DecidableEq, Repr

/-- A patch image (06_microcode.md R188): its bytes as they lie in chip flash from the offset that the boot directory names, and the engines
whose read-back does not match. -/
structure PatchImage where
  bytes : List Byte := []
  badReadback : List Nat := []
deriving DecidableEq, Repr

/-- What the boot ROM finds (19_reset_power_startup.md R480, R481): the cause of a failure or 0, the directory used, the
patch image, and whether the images of the Fold store pass their CRC. -/
structure BootImage where
  fail : Fin 5 := 0
  dir : Bool := false
  patch : Option PatchImage := none
  remapOk : Bool := true
  reserveOk : Bool := true
deriving DecidableEq, Repr

/-- The core that executes a Kamyn instruction: a physical engine, or the Shepherd. -/
inductive Core
  | eng (p : Fin 72) | shep
deriving DecidableEq, Repr

/-- A frame as a Tally Link port receives it (02_tally_time.md R47): its type is the command's; source, destination, hop
byte, payload, the CRC received, and whether a code violation was received within it. -/
structure Frame where
  port : Fin 2
  src : BitVec 8
  dst : BitVec 8
  hop : BitVec 8
  payload : List Byte
  crc : BitVec 16
  viol : Bool
deriving DecidableEq, Repr

/-- A 10-bit symbol as a Tally Link port receives it (02_tally_time.md R45, R46; 21_integration_ports.md R532): the running disparity it
meets (true for +1), the level of TLx_RXVALID, and how many symbols after the last code violation or disparity error it comes. -/
structure RxSymbol where
  sym : BitVec 10
  rd : Bool
  valid : Bool
  gap : Nat
deriving DecidableEq, Repr

/-- An edge of a window pin of a Chanter, `k` tk before the next fc edge (11_chanters.md R303). -/
structure PinEdge where
  pin : Fin 4
  k : Nat
deriving DecidableEq, Repr

/-- SEL of a framed channel takes a level, `k` tk before the next fc edge (R312). -/
structure SelEdge where
  level : Bool
  k : Nat
deriving DecidableEq, Repr

/-- SEL of a framed channel takes a level (R313). -/
structure SelChange where
  ch : Fin 16
  level : Bool
deriving DecidableEq, Repr

/-- How a start-up goes on: what the boot ROM finds, and the stage up to which this command carries it out, or 0 for its end. -/
structure Release where
  image : BootImage
  upto : Fin 8
deriving DecidableEq, Repr

/-- An edge that sets a wake latch (13_events_and_journal.md R354): of a WAKE pin, or of DCK or TCK. -/
inductive WakeEdge
  | pin (i : Fin 8) (rising : Bool) | debug
deriving DecidableEq, Repr

/-- The commands, one per row of the table. -/
inductive Instr where
  /-- REGISTER_WRITE (R26). A write through HPP, HUP, the Shepherd, the debug access master or the unit-register path to a register that has no row of its own; the view, width, lock and R544 refusal checks apply. -/
  | registerWrite (p : Port) (off : Nat) (size : Fin 4) (be : BitVec 8) (data : BitVec 64)
  /-- TALLY_ADVANCE (R33). On each fc, the Tally accumulator adds TB_INCR plus TB_TRIM, and Tally A and B are compared. -/
  | tallyAdvance
  /-- SET (R34). TB_CTRL.SET loads TB_SET into Tally A and B on the next edge, clears the sub-tick fraction and journals the set; it is refused on a slave. -/
  | setCmd (p : Port)
  /-- RESYNC (R44). TB_CTRL.RESYNC copies the served Tally counter into the other on the next edge. -/
  | resync (p : Port)
  /-- SEL (R44). A write that changes TB_CTRL.SEL switches the served counter on the next edge and is journalled with both values. -/
  | sel (p : Port) (b : Bool)
  /-- TL_CODE_VIOLATION (R46). A received code violation or disparity error is counted and may drive the port DOWN. -/
  | tlCodeViolation (port : Fin 2) (e : RxSymbol)
  /-- TL_COMMA_RECEIVED (R46). A K28.5 on an enabled DOWN port moves it to ALIGN and raises the link event. -/
  | tlCommaReceived (port : Fin 2)
  /-- TL_ALIGN_COMPLETE (R46). After 64 consecutive valid symbols in ALIGN, the port enters UP and raises the link event. -/
  | tlAlignComplete (port : Fin 2)
  /-- SYNC_REQ_SEND (R53). Every 1 ms of Tally time, a device sends SYNC_REQ with departure stamp t1 on each downstream port. -/
  | syncReqSend (k : Nat × Nat)
  /-- TIME_SEND (R51). The master sends a TIME frame on both ports carrying its Tally at departure. -/
  | timeSend (k : Nat × Nat)
  /-- SYNC_REQ (R53). A slave receives SYNC_REQ, stamps t2, replies with SYNC_RESP and completes the previous exchange with the t4 it carries. -/
  | syncReq (f : Frame) (k : Nat) (dt : Nat)
  /-- SYNC_RESP (R53). A requester receives SYNC_RESP and stamps its arrival as t4 for the next SYNC_REQ. -/
  | syncResp (f : Frame) (k : Nat)
  /-- SYNC_EXCHANGE_TIMEOUT (R53). A slave abandons an exchange when no SYNC_REQ reaches it within 1.5 ms of its SYNC_RESP, counting it as missed. -/
  | syncExchangeTimeout
  /-- TIME (R50). A TIME frame is received: a slave in ACQUIRE may step Tally, a forwarding device rewrites and forwards it, and a master flags a second master. -/
  | time (f : Frame) (k : Nat) (dt : Nat)
  /-- BCAST (R57). A BCAST frame writes TL_BTIME[k] and raises EV6, and EV7 with a late count when the apply-time is within TL_BMARGIN. -/
  | bcast (f : Frame)
  /-- MBOX (R58). An MBOX fragment addressed to the device starts or continues a peer message in MB20 to MB27, or is answered busy. -/
  | mbox (f : Frame)
  /-- MBOX_ACK (R58). The peer agent receives MBOX_ACK; a busy status schedules a retry. -/
  | mboxAck (f : Frame)
  /-- MBOX_RETRY (R58). The peer agent resends a refused fragment 100 µs after a busy acknowledgement. -/
  | mboxRetry
  /-- TALLY_TIME_TRIGGER (R77). A slot's Tally-time trigger fires at T, making the slot READY or pending, and advances T by the period. -/
  | tallyTimeTrigger (pe : Fin 72) (slot : Fin 8)
  /-- TASK_DISPATCH (R78). The engine selects a slot by priority, state and stamp, selects its bank and loads PC, A0 and the trigger stamp, or resumes from LE_UCONT. -/
  | taskDispatch (pe : Fin 72)
  /-- PREEMPTION (R80). At the next safe point after a higher-priority slot becomes READY, the running task's continuation is saved and it is marked PREEMPTED. -/
  | preemption (pe : Fin 72)
  /-- DEADLINE_MISS (R83). An activation whose deadline is reached records a miss, raises the deadline event, journals it and, with DLACT, is abandoned. -/
  | deadlineMiss (pe : Fin 72) (slot : Fin 8)
  /-- CLEAR (R88). LE_CMD CLEAR clears VALID, DOUBLE, CAUSE and CAUSE2 of LE_FAULT. -/
  | clear (p : Port) (pe : Fin 72)
  /-- RESUME (R88). LE_CMD RESUME returns a FAULTED slot to WAITING, or DISABLED if its EN was cleared, abandoning its activation. -/
  | resume (p : Port) (pe : Fin 72) (slot : Fin 8)
  /-- UNPARK (R88). LE_CMD UNPARK returns a PARKED engine with VALID = 0 to dispatching. -/
  | unpark (p : Port) (pe : Fin 72)
  /-- TRIGGER (R81). LE_CMD TRIGGER fires a software trigger of a slot as an edge trigger stamped at the write. -/
  | trigger (p : Port) (pe : Fin 72) (slot : Fin 8)
  /-- LE_CTRL_EN (R79). A write of LE_CTRL.EN enables dispatch, acting as a trigger, or lets a running activation finish and dispatches nothing further. -/
  | leCtrlEn (p : Port) (pe : Fin 72) (en : Bool)
  /-- LE_TASK_CFG_EN (R81). A write of a slot's EN enables it, disables it or defers the disable to WAIT, as its state gives. -/
  | leTaskCfgEn (p : Port) (pe : Fin 72) (slot : Fin 8) (data : Word)
  /-- LE_TASK_TIME (R77). A write of LE_TASK_TIME to a WAITING slot arms its Tally-time trigger, firing on the next fc when past. -/
  | leTaskTime (p : Port) (pe : Fin 72) (slot : Fin 8) (hi : Bool) (data : Word)
  /-- UNIT_REGISTER_STORE_ACCEPT (R75). A posted store through the unit-register path is accepted by its register block, releasing any PWD that waits for it. -/
  | unitRegisterStoreAccept (p : Fin 72)
  /-- LATE_STORE_ERROR (R85). An error response to a buffered system-memory store of an engine raises the fault event as a late-store error. -/
  | lateStoreError (p : Fin 72)
  /-- RANK_COMPLETION (R91). The Rank unit finishes a request, writes the ranked entries and puts an 8-byte completion with status and busy time in the issuer's inbox. -/
  | rankCompletion (cl : Fin 8)
  /-- NOP (R114). The 16-bit NOP does nothing for 1 fc. -/
  | nop (c : Core) (w : Word)
  /-- WAIT (R131). WAIT ends the activation, applies pending LE_MODE changes and writes out the code-store buffer; on the Shepherd it sleeps until an interrupt. -/
  | wait (c : Core) (w : Word)
  /-- ISYNC (R131). ISYNC writes out the code-store buffer and refetches the next instruction. -/
  | isync (c : Core) (w : Word)
  /-- RET (R114). RET sets PC to A7. -/
  | ret (c : Core) (w : Word)
  /-- BRK (R131). BRK raises a debug event of the engine under DB_POLICY.EBRK, or completes as NOP. -/
  | brk (c : Core) (w : Word)
  /-- SIGNAL (R130). SIGNAL raises EV(67 + 4p) carrying CODE and the value of DS. -/
  | signal (c : Core) (w : Word)
  /-- SHLI (R114). The 16-bit SHLI shifts Dd left by IMM6. -/
  | shli (c : Core) (w : Word)
  /-- SHRI (R114). The 16-bit SHRI shifts Dd right logically by IMM6. -/
  | shri (c : Core) (w : Word)
  /-- SARI (R114). The 16-bit SARI shifts Dd right arithmetically by IMM6. -/
  | sari (c : Core) (w : Word)
  /-- CEQI (R114). The 16-bit CEQI compares Dd with a sign-extended IMM6 for equality. -/
  | ceqi (c : Core) (w : Word)
  /-- CLTI (R114). The 16-bit CLTI compares Dd signed less than a sign-extended IMM6. -/
  | clti (c : Core) (w : Word)
  /-- ANDI (R114). The 16-bit ANDI ands Dd with a sign-extended IMM6. -/
  | andi (c : Core) (w : Word)
  /-- BRA (R114). The 16-bit BRA branches by a 12-bit offset. -/
  | bra (c : Core) (w : Word)
  /-- BG (R114). BG branches when the named guard is nonzero, or zero with NEG. -/
  | bg (c : Core) (w : Word)
  /-- BDEC (R114). BDEC decrements Dn and branches while it is nonzero. -/
  | bdec (c : Core) (w : Word)
  /-- MOV (R122). MOV copies between register classes as the move table gives. -/
  | mov (c : Core) (w : Word)
  /-- ADD (R117). ADD adds two D registers under SAT/OV. -/
  | add (c : Core) (w : Word)
  /-- SUB (R117). SUB subtracts two D registers under SAT/OV. -/
  | sub (c : Core) (w : Word)
  /-- NEG (R117). NEG negates a D register under SAT/OV. -/
  | neg (c : Core) (w : Word)
  /-- ABS (R117). ABS takes the absolute value of a D register under SAT/OV. -/
  | abs (c : Core) (w : Word)
  /-- MUL (R117). MUL gives the rounded Q1.31 product of two D registers. -/
  | mul (c : Core) (w : Word)
  /-- MULL (R117). MULL gives the low 32 bits of the signed 64-bit product. -/
  | mull (c : Core) (w : Word)
  /-- MULH (R117). MULH gives the high 32 bits of the signed 64-bit product. -/
  | mulh (c : Core) (w : Word)
  /-- ADD2 (R117). ADD2 adds two dual Q1.15 values per half. -/
  | add2 (c : Core) (w : Word)
  /-- SUB2 (R117). SUB2 subtracts two dual Q1.15 values per half. -/
  | sub2 (c : Core) (w : Word)
  /-- MUL2 (R117). MUL2 multiplies two dual Q1.15 values per half with rounding. -/
  | mul2 (c : Core) (w : Word)
  /-- MIN (R117). MIN gives the signed smaller of two D registers. -/
  | min (c : Core) (w : Word)
  /-- MAX (R117). MAX gives the signed larger of two D registers. -/
  | max (c : Core) (w : Word)
  /-- CLIP (R117). CLIP limits a D value, or a rounded accumulator, to the limits in RB and RB+1. -/
  | clip (c : Core) (w : Word)
  /-- NORM (R117). NORM counts the leading sign bits of a D register. -/
  | norm (c : Core) (w : Word)
  /-- AND (R117). AND gives the bitwise and of two D registers. -/
  | and (c : Core) (w : Word)
  /-- OR (R117). OR gives the bitwise or of two D registers. -/
  | or (c : Core) (w : Word)
  /-- XOR (R117). XOR gives the bitwise exclusive or of two D registers. -/
  | xor (c : Core) (w : Word)
  /-- ANDN (R117). ANDN gives RA and not RB. -/
  | andn (c : Core) (w : Word)
  /-- NOT (R117). NOT gives the complement of RB. -/
  | not (c : Core) (w : Word)
  /-- SHL (R117). SHL shifts RA left by RB[5:0] under SAT/OV. -/
  | shl (c : Core) (w : Word)
  /-- SHR (R117). SHR shifts RA right logically by RB[5:0]. -/
  | shr (c : Core) (w : Word)
  /-- SAR (R117). SAR shifts RA right arithmetically by RB[5:0]. -/
  | sar (c : Core) (w : Word)
  /-- CEQ (R117). CEQ writes 1 when RA equals RB. -/
  | ceq (c : Core) (w : Word)
  /-- CNE (R117). CNE writes 1 when RA differs from RB. -/
  | cne (c : Core) (w : Word)
  /-- CLT (R117). CLT writes 1 when RA is signed less than RB. -/
  | clt (c : Core) (w : Word)
  /-- CLE (R117). CLE writes 1 when RA is signed at most RB. -/
  | cle (c : Core) (w : Word)
  /-- CLTU (R117). CLTU writes 1 when RA is unsigned less than RB. -/
  | cltu (c : Core) (w : Word)
  /-- CLEU (R117). CLEU writes 1 when RA is unsigned at most RB. -/
  | cleu (c : Core) (w : Word)
  /-- CTST (R117). CTST writes 1 when RA and RB share a set bit. -/
  | ctst (c : Core) (w : Word)
  /-- MAC_F (R118). MAC.F adds the fractional product to an accumulator. -/
  | macF (c : Core) (w : Word)
  /-- MAC_I (R118). MAC.I adds the integer product to an accumulator. -/
  | macI (c : Core) (w : Word)
  /-- MAC_D (R118). MAC.D adds the dual Q1.15 product sum to an accumulator. -/
  | macD (c : Core) (w : Word)
  /-- MSU_F (R118). MSU.F subtracts the fractional product from an accumulator. -/
  | msuF (c : Core) (w : Word)
  /-- MSU_I (R118). MSU.I subtracts the integer product from an accumulator. -/
  | msuI (c : Core) (w : Word)
  /-- MSU_D (R118). MSU.D subtracts the dual product sum from an accumulator. -/
  | msuD (c : Core) (w : Word)
  /-- MPY_F (R118). MPY.F loads an accumulator with the fractional product. -/
  | mpyF (c : Core) (w : Word)
  /-- MPY_I (R118). MPY.I loads an accumulator with the integer product. -/
  | mpyI (c : Core) (w : Word)
  /-- MPY_D (R118). MPY.D loads an accumulator with the dual product sum. -/
  | mpyD (c : Core) (w : Word)
  /-- ACLR (R118). ACLR clears an accumulator. -/
  | aclr (c : Core) (w : Word)
  /-- ACADD (R118). ACADD adds two accumulators. -/
  | acadd (c : Core) (w : Word)
  /-- ACSUB (R118). ACSUB subtracts two accumulators. -/
  | acsub (c : Core) (w : Word)
  /-- ACNEG (R118). ACNEG negates an accumulator. -/
  | acneg (c : Core) (w : Word)
  /-- ACSH (R118). ACSH shifts an accumulator by a signed amount. -/
  | acsh (c : Core) (w : Word)
  /-- SAC (R118). SAC stores a shifted, rounded and saturated accumulator to a D register. -/
  | sac (c : Core) (w : Word)
  /-- LDAC (R118). LDAC loads an accumulator from a D register. -/
  | ldac (c : Core) (w : Word)
  /-- ACRD (R118). ACRD reads one part of an accumulator into a D register. -/
  | acrd (c : Core) (w : Word)
  /-- ACWR (R118). ACWR writes one part of an accumulator from a D register. -/
  | acwr (c : Core) (w : Word)
  /-- ADDA (R120). ADDA adds Db[23:0] to an address register. -/
  | adda (c : Core) (w : Word)
  /-- SUBA (R120). SUBA subtracts Db[23:0] from an address register. -/
  | suba (c : Core) (w : Word)
  /-- ADDAA (R120). ADDAA adds two address registers. -/
  | addaa (c : Core) (w : Word)
  /-- MODA (R120). MODA applies the modify function of R119 to an address register. -/
  | moda (c : Core) (w : Word)
  /-- MOVI (R121). MOVI loads a register with a sign-extended immediate. -/
  | movi (c : Core) (w : Word)
  /-- MOVHI (R121). MOVHI loads the high half of a register with IMM16. -/
  | movhi (c : Core) (w : Word)
  /-- ADDI (R121). ADDI adds a sign-extended immediate to a register. -/
  | addi (c : Core) (w : Word)
  /-- ORI (R121). ORI ors a zero-extended immediate into a register. -/
  | ori (c : Core) (w : Word)
  /-- LD (R123). LD loads a byte, halfword, word or doubleword from An plus an offset, in the 32-bit or 16-bit form. -/
  | ld (c : Core) (w : Word)
  /-- ST (R123). ST stores a byte, halfword, word or doubleword to An plus an offset, in the 32-bit or 16-bit form. -/
  | st (c : Core) (w : Word)
  /-- LD_POST_MODIFY (R123). The post-modify load reads at An and then applies modify with Mn. -/
  | ldPostModify (c : Core) (w : Word)
  /-- ST_POST_MODIFY (R123). The post-modify store writes at An and then applies modify with Mn. -/
  | stPostModify (c : Core) (w : Word)
  /-- BR (R124). BR branches by a 21-bit offset when its guard holds. -/
  | br (c : Core) (w : Word)
  /-- CALL (R124). CALL saves the return address in A7 and branches. -/
  | call (c : Core) (w : Word)
  /-- JR (R124). JR jumps to the address in An. -/
  | jr (c : Core) (w : Word)
  /-- CALLR (R124). CALLR saves the return address in A7 and jumps to An. -/
  | callr (c : Core) (w : Word)
  /-- QGET (R126). QGET removes the head entry of a queue into registers, or finds it empty or refused. -/
  | qget (c : Core) (w : Word)
  /-- QPUT (R126). QPUT appends an entry from registers to a queue, or finds it full or refused. -/
  | qput (c : Core) (w : Word)
  /-- QGETM (R126). QGETM removes the head entry of a queue to memory. -/
  | qgetm (c : Core) (w : Word)
  /-- QPUTM (R126). QPUTM appends an entry read from memory to a queue. -/
  | qputm (c : Core) (w : Word)
  /-- QLVL (R126). QLVL reads the live level of a queue. -/
  | qlvl (c : Core) (w : Word)
  /-- PWD (R128). PWD sends a duty write to a logical generator with its apply mode, incarnations and issue stamp, after earlier path stores are accepted. -/
  | pwd (c : Core) (w : Word)
  /-- STAMP (R130). STAMP writes Tally, the trigger stamp or TL_BTIME[K] into a register pair. -/
  | stamp (c : Core) (w : Word)
  /-- RANK (R132). RANK issues a descriptor to the cluster Rank unit, waiting while the previous request is outstanding. -/
  | rank (c : Core) (w : Word)
  /-- UCALL (R133). UCALL enters a WCS micro-routine with ENTRY and RX and returns after it. -/
  | ucall (c : Core) (w : Word)
  /-- MODE (R110). MODE writes LE_MODE, with flags at once and RND and SAT for the third instruction after. -/
  | mode (c : Core) (w : Word)
  /-- RDMODE (R110). RDMODE reads the most recent LE_MODE written with the present flags. -/
  | rdmode (c : Core) (w : Word)
  /-- PIS (R135). PIS runs one PI step with clamping and anti-windup on a parameter block, writing back I and STAT. -/
  | pis (c : Core) (w : Word)
  /-- XFORM_CL (R136). XFORM.CL computes the Clarke transform. -/
  | xformCl (c : Core) (w : Word)
  /-- XFORM_ICL (R136). XFORM.ICL computes the inverse Clarke transform. -/
  | xformIcl (c : Core) (w : Word)
  /-- XFORM_PK (R136). XFORM.PK computes the Park transform. -/
  | xformPk (c : Core) (w : Word)
  /-- XFORM_IPK (R136). XFORM.IPK computes the inverse Park transform. -/
  | xformIpk (c : Core) (w : Word)
  /-- SINCOS (R137). SINCOS computes sine and cosine of a binary angle by CORDIC. -/
  | sincos (c : Core) (w : Word)
  /-- DIV (R138). DIV divides two integers, truncating toward zero. -/
  | div (c : Core) (w : Word)
  /-- DIVQ (R138). DIVQ divides to a rounded Q1.31 quotient. -/
  | divq (c : Core) (w : Word)
  /-- SQRT (R138). SQRT takes the square root in Q1.31 or unsigned integer form. -/
  | sqrt (c : Core) (w : Word)
  /-- FIRK (R139). FIRK accumulates an N-tap FIR sum into an accumulator. -/
  | firk (c : Core) (w : Word)
  /-- GATE (R399). GATE makes a checked system call through a gate descriptor, or a cross gate from Outer to Inner. -/
  | gate (c : Core) (w : Word)
  /-- RETX (R397). RETX returns from an exception, double fault or gate, restoring the saved state. -/
  | retx (c : Core) (w : Word)
  /-- MPUR (R407). MPUR reads a word of an MPU region of the current world. -/
  | mpur (c : Core) (w : Word)
  /-- MPUW (R407). MPUW writes a word of an MPU region of the current world. -/
  | mpuw (c : Core) (w : Word)
  /-- SYSR (R409). SYSR reads a Shepherd system register. -/
  | sysr (c : Core) (w : Word)
  /-- SYSW (R409). SYSW writes a Shepherd system register. -/
  | sysw (c : Core) (w : Word)
  /-- WORLD (R392). WORLD transfers the Shepherd between contexts as permitted. -/
  | world (c : Core) (w : Word)
  /-- CS_WADDR_GO (R185). CS_WADDR.GO writes CS_WDATA into WCS or patch RAM, or is refused by engine state, address or LOCK. -/
  | csWaddrGo (p : Port) (pe : Fin 72) (data : Word)
  /-- CS_RADDR_GO (R193). CS_RADDR.GO reads a control-store word into CS_RDATA and reports its parity. -/
  | csRaddrGo (p : Port) (pe : Fin 72) (data : Word)
  /-- SAMPLE (R196). A sample port registers a sample, stamps, scales and window-tests it, pairs it with SOC and writes its entry to the routed queue. -/
  | sample (n : Fin 64) (d : BitVec 24) (tag : BitVec 8)
  /-- SI_SOC_FIRE (R200). A write to SI_SOC_FIRE fires SOCm by software. -/
  | siSocFire (p : Port) (m : Fin 64)
  /-- SOC_PULSE_END (R201). SOCm falls after WIDTH + 1 fc. -/
  | socPulseEnd (m : Fin 64)
  /-- TRIP_EDGE (R205). An active edge on TRIPn sets the asynchronous latch, is stamped and counted. -/
  | tripEdge (n : Fin 64) (k : Nat)
  /-- TRIP_GLITCH (R207). A pin that leaves its active level within the filter time clears the latch as a glitch. -/
  | tripGlitch (n : Fin 64)
  /-- QUAL (R207). After 3 + FLT fc with the pin held, QUAL sets and raises EV(432 + n). -/
  | qual (n : Fin 64)
  /-- LATCH_CLEAR (R205). A W1C of TR_STAT.LATCH clears the latch, which sets again at once if the pin is still active. -/
  | latchClear (p : Port) (n : Fin 64)
  /-- PREPARE (R215). TR_ARM PREPARE opens a 256-fc window for one ARM or DISARM of an entry. -/
  | prepare (p : Port) (entry : Fin 32) (key : BitVec 8)
  /-- ARM (R215). TR_ARM ARM arms an entry within its open window. -/
  | arm (p : Port) (entry : Fin 32) (key : BitVec 8)
  /-- DISARM (R215). TR_ARM DISARM disarms an unengaged entry within its open window. -/
  | disarm (p : Port) (entry : Fin 32) (key : BitVec 8)
  /-- RELEASE (R215). TR_ARM RELEASE releases an engaged entry whose group is deasserted. -/
  | release (p : Port) (entry : Fin 32) (key : BitVec 8)
  /-- PREPARE_WINDOW_EXPIRY (R215). A PREPARE window closes after 256 fc. -/
  | prepareWindowExpiry
  /-- TR_INJ (R219). TR_INJ.GO injects a pulse at the active level into a trip input, unless refused. -/
  | trInj (p : Port) (n : Fin 64) (width : BitVec 8)
  /-- INJECTION_END (R219). An injected pulse ends after WIDTH + 1 fc. -/
  | injectionEnd (n : Fin 64)
  /-- ZRO (R228). A generator counter takes 0, applying its ZRO actions, reloads and syncs. -/
  | zro (g : Fin 52)
  /-- PRD (R228). A generator counter takes PERIOD, applying its PRD actions and reloads. -/
  | prd (g : Fin 52)
  /-- COMPARE_MATCH (R230). A generator position reaches a compare value, applying the output actions of the match. -/
  | compareMatch (g : Fin 52) (cmp : Fin 4) (up : Bool)
  /-- DEAD_TIME_EXPIRY (R234). A delayed change of r appears after its dead time and reaches the PWMOUT boundary. -/
  | deadTimeExpiry (g : Fin 52) (out : Fin 2)
  /-- DUTY_WRITE_ACCEPT (R239). A generator accepts a waiting duty write, converts FMT 1 and applies it under its immediate, next-reload or absolute mode. -/
  | dutyWriteAccept (g : Fin 52)
  /-- TIMED_TRANSFER (R245). At apply-time T, a pending slot loads the shadow and active compare and clears. -/
  | timedTransfer (g : Fin 52) (cmp : Fin 4)
  /-- PW_CMP (R238). A write to PW_CMP[i] sends a next-reload FMT 0 duty write. -/
  | pwCmp (p : Port) (g : Fin 52) (cmp : Fin 4) (data : Word)
  /-- PW_DW_CTRL_GO (R238). PW_DW_CTRL.GO sends a register duty write with PW_DW_VAL and PW_DW_TIME. -/
  | pwDwCtrlGo (p : Port) (g : Fin 52) (data : Word)
  /-- GENERATOR_START (R251). PW_CTRL START starts the counter at its initial position with a reload. -/
  | generatorStart (p : Port) (g : Fin 52)
  /-- GENERATOR_START_AT_TIME (R251). PW_CTRL START at time schedules a start at PW_START_TIME, or starts late. -/
  | generatorStartAtTime (p : Port) (g : Fin 52)
  /-- TIMED_START (R251). PW_START_TIME is reached and the generator starts. -/
  | timedStart (g : Fin 52)
  /-- GENERATOR_STOP (R251). PW_CTRL STOP holds the counter and takes outputs to their stopped levels. -/
  | generatorStop (p : Port) (g : Fin 52)
  /-- PHG_TIME (R248). PHG_TIME is reached, giving a group sync and advancing by PHG_TPER. -/
  | phgTime (j : Fin 16)
  /-- XBAR_WRITE (R235). A write to PW_XBAR[m] switches the source, inversion and enable of PWMOUTm at the end of the fc. -/
  | xbarWrite (p : Port) (m : Fin 96) (data : Word)
  /-- TIMER_MATCH (R261). A timer compare matches, recording, counting, firing SOC, raising its event, stepping or disarming and setting any wake latch. -/
  | timerMatch (t : Fin 36) (cmp : Fin 4)
  /-- TIMER_CAPTURE (R262). A selected edge captures TM_CNT and a stamp, raising EV(641 + 2t). -/
  | timerCapture (t : Fin 36) (j : Fin 2) (k : Nat) (rising : Bool)
  /-- TM_CAP_SW (R262). A write to TM_CAP_SW captures by software. -/
  | tmCapSw (p : Port) (t : Fin 36) (caps : Fin 4)
  /-- TM_CMP (R260). A write to TM_CMP[i] arms the compare from the next fc. -/
  | tmCmp (p : Port) (t : Fin 36) (cmp : Fin 4) (data : Word)
  /-- TIMER_START (R266). TM_CTRL START sets RUN. -/
  | timerStart (p : Port) (t : Fin 36)
  /-- TIMER_STOP (R266). TM_CTRL STOP clears RUN. -/
  | timerStop (p : Port) (t : Fin 36)
  /-- TIMER_LOAD (R266). TM_CTRL LOAD loads TM_CNT from TM_LOAD and clears the fraction. -/
  | timerLoad (p : Port) (t : Fin 36)
  /-- GROUP_START (R267). TMG_CTRL GO 1 starts a timer group with staggered counts. -/
  | groupStart (p : Port) (j : Fin 8)
  /-- GROUP_START_AT_TIME (R267). TMG_CTRL GO 2 schedules a group start at TMG_TIME, or starts late. -/
  | groupStartAtTime (p : Port) (j : Fin 8)
  /-- TMG_TIME (R267). TMG_TIME is reached and the timer group starts. -/
  | tmgTime (j : Fin 8)
  /-- PULSE_EDGE (R274). A feedback input edge is stamped and a pulse shorter than PF_FLT is discarded as a glitch. -/
  | pulseEdge (j : Fin 8) (k : Nat) (rising : Bool)
  /-- TOOTH_EVENT (R275). A tooth registers, classifying direction and updating PF_POS, period, width and tooth index. -/
  | toothEvent (x : Fin 10)
  /-- AUX_INDEX_EDGE (R279). A rising edge of the auxiliary line is an external reference mark in REFMODE 3. -/
  | auxIndexEdge (j : Fin 8) (k : Nat)
  /-- OBSERVER_STEP (R282). Every PF_OBS_DIV fc, each running observer predicts and corrects with the latest measurement, or bounds its prediction. -/
  | observerStep
  /-- PF_MEAS_ANG (R284). A write to PF_MEAS_ANG commits an angle measurement, or is refused. -/
  | pfMeasAng (p : Port) (x : Fin 10) (data : Word)
  /-- FEEDBACK_START (R286). PF_CTRL START sets RUN, clears AVGOK and REFOK and performs INIT. -/
  | feedbackStart (p : Port) (x : Fin 10)
  /-- FEEDBACK_STOP (R286). PF_CTRL STOP clears RUN. -/
  | feedbackStop (p : Port) (x : Fin 10)
  /-- INIT (R286). PF_CTRL INIT resets the observer to PF_POS with zero speed and acceleration. -/
  | init (p : Port) (x : Fin 10)
  /-- ROUND (R292). A divider beat starts a Chanter round in which each running channel executes one chant word. -/
  | round (n : Fin 36) (pio : BitVec 192)
  /-- CAPTURED_EDGE (R303). An armed edge on the capture pin is edge-stamped into CH_STAMP. -/
  | capturedEdge (n : Fin 36) (ch : Fin 16) (e : PinEdge) (rising : Bool)
  /-- FEEDER (R307). The feeder moves the head entry of a fabric queue into a TX queue with room. -/
  | feeder (n : Fin 36) (ch : Fin 16)
  /-- DRAIN (R307). The drain appends the head RX entry to a fabric queue, holding it while the queue is full. -/
  | drain (n : Fin 36) (ch : Fin 16)
  /-- SCATTER (R309). The scatter agent routes one ranked pair per fc to a channel TX queue, or skips it. -/
  | scatter
  /-- CH_TXDATA (R307). A write to CH_TXDATA pushes a TX word, or is lost while full. -/
  | chTxdata (p : Port) (n : Fin 36) (ch : Fin 16) (data : Word)
  /-- CH_RXDATA (R307). A read of CH_RXDATA pops the RX head and loads CH_RXTAG. -/
  | chRxdata (p : Port) (n : Fin 36) (ch : Fin 16)
  /-- CHANTER_START (R310). CH_CTRL START sets RUN, restarts the divider and every enabled channel at its START. -/
  | chanterStart (p : Port) (n : Fin 36)
  /-- CHANTER_STOP (R310). CH_CTRL STOP clears RUN, sending pins to SLVL. -/
  | chanterStop (p : Port) (n : Fin 36)
  /-- CHANNEL_RESTART (R314). CH_CCTL RESTART clears a channel's fault and hold and restarts it. -/
  | channelRestart (p : Port) (n : Fin 36) (ch : Fin 16)
  /-- CHANNEL_HALT (R314). CH_CCTL HALT holds a channel. -/
  | channelHalt (p : Port) (n : Fin 36) (ch : Fin 16)
  /-- SYNC_START (R310). CH_SYNC_CTRL OP 1 schedules a synchronous START of the named Chanters. -/
  | syncStart (p : Port) (data : Word)
  /-- SYNC_RESTART (R310). CH_SYNC_CTRL OP 2 schedules a synchronous divider restart. -/
  | syncRestart (p : Port) (data : Word)
  /-- SYNC_CANCEL (R310). CH_SYNC_CTRL OP 0 cancels future syncs. -/
  | syncCancel (p : Port) (data : Word)
  /-- CHANTER_SYNC (R310). A Chanter sync arrives by time, SOC rise or write and acts on every named Chanter at one edge. -/
  | chanterSync
  /-- CH_CMEM_WRITE (R294). A write to control memory while RUN = 0 stores a chant word, or is refused. -/
  | chCmemWrite (p : Port) (n : Fin 36) (a : Fin 256) (hi : Bool) (data : Word)
  /-- FRAME_START (R312). Assertion of SEL in framed mode starts a frame, stamps it and loads SDO. -/
  | frameStart (n : Fin 36) (ch : Fin 16) (e : SelEdge)
  /-- FRAMED_WORD (R312). After WLEN + 1 sampled bits, the framed word is pushed and SDO loads the next TX word. -/
  | framedWord (n : Fin 36) (ch : Fin 16)
  /-- FRAME_END (R313). Release of SEL ends a frame, pushing or discarding partial bits and flagging short frames. -/
  | frameEnd (n : Fin 36) (e : SelChange)
  /-- QUEUE_ENABLE (R322). A write setting QF_QCFG.EN claims storage cells and enables the queue, or is refused. -/
  | queueEnable (p : Port) (n : Fin 4096) (data : Word)
  /-- QUEUE_DISABLE (R323). A write clearing QF_QCFG.EN discards entries and frees cells, unless pinned. -/
  | queueDisable (p : Port) (n : Fin 4096) (data : Word)
  /-- CL_QPIN (R329). A write to CL_QPIN pins or unpins a queue, starting its copy, or is refused. -/
  | clQpin (p : Port) (cl : Fin 8) (e : Fin 64) (data : Word)
  /-- PIN_COPY_END (R330). A pin or unpin copy ends and the held operations are applied. -/
  | pinCopyEnd (n : Fin 4096)
  /-- CLRCNT (R333). A write of QF_WMN_STAT.CLRCNT clears both watermark counts. -/
  | clrcnt (p : Port) (n : Fin 4096)
  /-- SEED (R336). QF_SEED.GO starts seeding a pool queue with UNASSIGNED cells, one per fc. -/
  | seed (p : Port) (data : Word)
  /-- SEED_END (R336). A seed finishes its cell range and clears BUSY. -/
  | seedEnd
  /-- HOP_PUT (R345). QF_HOP PUT appends QF_HPUT to a queue. -/
  | hopPut (p : Port) (m : Fin 2) (n : Fin 4096)
  /-- HOP_GET (R345). QF_HOP GET removes the head entry into QF_HGET. -/
  | hopGet (p : Port) (m : Fin 2) (n : Fin 4096)
  /-- HOP_LVL (R345). QF_HOP LVL reports the level of a queue. -/
  | hopLvl (p : Port) (m : Fin 2) (n : Fin 4096)
  /-- RECLAIM_WALK_END (R339). The reclaim walk of a reset flock ends after 4,096 fc and clears QF_RECL.BUSY. -/
  | reclaimWalkEnd (f : Fin 16)
  /-- INBOX_MOVE_END (R340). The move of re-homed inbox entries ends and held gets proceed. -/
  | inboxMoveEnd (src : Fin 72) (dst : Fin 72)
  /-- EVENT_DELIVERY (R349). Each group out of hold-off delivers its earliest eligible source, setting ACTIVE and starting hold-off. -/
  | eventDelivery
  /-- EC_EOI (R351). A write to EC_EOI completes an ACTIVE source, or counts a spurious completion. -/
  | ecEoi (p : Port) (data : Word)
  /-- PG_EOI (R380). A write to PG_EOI completes a source of the flock through HUP. -/
  | pgEoi (f : Fin 16) (data : Word)
  /-- EC_SW_RAISE (R353). A write to EC_SW_RAISE raises a software source with EC_SW_PAY. -/
  | ecSwRaise (p : Port) (data : Word)
  /-- EC_TARGET_WRITE (R352). A write to EC_TARGET changes a source's target, refused while ACTIVE. -/
  | ecTargetWrite (p : Port) (n : Fin 1024) (data : Word)
  /-- WAKE_LATCH_SET (R355). A wake latch sets, stamping and raising EV(32 + i) or returning the block from Rest or Fold. -/
  | wakeLatchSet (edge : WakeEdge) (k : Nat)
  /-- EC_WAKE_TIME (R354). Tally reaches EC_WAKE_TIME and sets WL14. -/
  | ecWakeTime
  /-- JOURNAL_WRITE (R360). The writer moves an entry into the ring, overwriting the oldest when full. -/
  | journalWrite
  /-- JOURNAL_REFRESH (R361). The gain-cell array refreshes its rows. -/
  | journalRefresh (row : Fin 32768) (errs : List (Nat × BitVec 48))
  /-- DRAIN_PERIOD (R363). JN_DRAIN_PER elapses and a drain burst starts. -/
  | drainPeriod
  /-- DKICK (R363). JN_CTRL.DKICK starts a drain burst. -/
  | dkick (p : Port)
  /-- DRESTART (R364). JN_CTRL.DRESTART clears DERR and starts a burst when enabled. -/
  | drestart (p : Port)
  /-- BURST_END (R363). A drain burst ends, writing JN_HHEAD back. -/
  | burstEnd
  /-- DERR (R364). A BMP error response stops the drain with DERR and raises EV17. -/
  | derr (entries : Nat) (byte : Fin 32)
  /-- FLOCK_RESET (R373). A flock reset advances the incarnation, clears CLEAN and resets every unit of the flock. -/
  | flockReset (p : Port) (f : Fin 16)
  /-- CLEAN (R374). CLEAN sets once the reclaim walk, Rank requests and store buffers of the flock are done, raising EV(880 + f). -/
  | clean (f : Fin 16)
  /-- PG_UDATA (R378). A HUP access to PG_UDATA reads or writes a unit register through the flock view. -/
  | pgUdata (f : Fin 16) (wr : Option Word)
  /-- INTERRUPT_ENTRY (R402). A Shepherd level is taken at an interrupt point through its descriptor. -/
  | interruptEntry
  /-- ATOMIC (R398). A handler's ATOMIC budget expires before RETX and takes fault ATOMIC. -/
  | atomic
  /-- SHEPHERD_LATE_STORE_ERROR (R406). An error response to a buffered Shepherd store is recorded, raises EV50 and is journalled. -/
  | shepherdLateStoreError
  /-- WATCHDOG_WARNING (R412). The watchdog count reaches WARN, raising EV51 and optionally exception 0x14. -/
  | watchdogWarning
  /-- WATCHDOG_TIMEOUT (R412). The watchdog count reaches TIMEOUT and asserts reset source WDG. -/
  | watchdogTimeout
  /-- KICK (R412). A write to SH_WDG_KICK forms part of the two-write kick, clearing the count or counting an error. -/
  | kick (p : Port) (key : BitVec 8)
  /-- LBINV (R414). SH_CTRL.LBINV invalidates the line buffer. -/
  | lbinv (p : Port)
  /-- BTBINV (R414). SH_CTRL.BTBINV invalidates the branch-target buffer. -/
  | btbinv (p : Port)
  /-- RING (R418). MB_DOORBELL.RING sets BUSY, or is rejected while BUSY. -/
  | ring (p : Port) (m : Fin 32)
  /-- IDENT (R427). The IDENT command returns identity and flock number. -/
  | ident (m : Fin 32)
  /-- EVT_ROUTE (R427). EVT_ROUTE sets an event source's target and journal bit. -/
  | evtRoute (m : Fin 32)
  /-- EVT_HOLDOFF (R427). EVT_HOLDOFF sets a group's hold-off. -/
  | evtHoldoff (m : Fin 32)
  /-- PEER_EVENT (R427). PEER_EVENT raises a permitted software event for a peer. -/
  | peerEvent (m : Fin 32)
  /-- FLK_ENABLE (R427). FLK_ENABLE enables or disables a flock. -/
  | flkEnable (m : Fin 32)
  /-- FLK_RESET (R427). FLK_RESET requests a flock reset and waits for CLEAN. -/
  | flkReset (m : Fin 32)
  /-- FLK_ASSIGN (R427). FLK_ASSIGN assigns a range of resources to a flock. -/
  | flkAssign (m : Fin 32)
  /-- FLK_STATUS (R427). FLK_STATUS returns a flock's status and counters. -/
  | flkStatus (m : Fin 32)
  /-- UNIT_MAP (R427). UNIT_MAP writes LOGICAL and LVALID of a physical unit. -/
  | unitMap (m : Fin 32)
  /-- MB_SETCFG (R427). MB_SETCFG writes MB_CFG of a mailbox. -/
  | mbSetcfg (m : Fin 32)
  /-- ENG_LOAD (R428). ENG_LOAD loads a buffer into an engine memory region. -/
  | engLoad (m : Fin 32) (bmp : Option (List Byte))
  /-- TASK_SET (R428). TASK_SET configures a disabled task slot. -/
  | taskSet (m : Fin 32)
  /-- ENG_CTRL (R428). ENG_CTRL sets or clears LE_CTRL.EN or issues an LE_CMD. -/
  | engCtrl (m : Fin 32)
  /-- WCS_LOAD (R428). WCS_LOAD writes microwords into an engine's WCS. -/
  | wcsLoad (m : Fin 32) (bmp : Option (List Byte))
  /-- PARAM_WRITE (R428). PARAM_WRITE writes words into an engine's local data RAM. -/
  | paramWrite (m : Fin 32)
  /-- PARAM_SWAP (R429). PARAM_SWAP writes a parameter block and schedules its swap at T through a swap descriptor. -/
  | paramSwap (m : Fin 32)
  /-- PARAM_READ (R428). PARAM_READ returns bytes of an engine's local data RAM. -/
  | paramRead (m : Fin 32)
  /-- PW_CONFIG (R431). PW_CONFIG writes a generator's configuration registers. -/
  | pwConfig (m : Fin 32)
  /-- PW_XBAR (R431). PW_XBAR writes an output crossbar entry. -/
  | pwXbar (m : Fin 32)
  /-- PW_START (R431). PW_START starts or stops a range of generators. -/
  | pwStart (m : Fin 32)
  /-- PW_DUTY (R431). PW_DUTY sends a duty write through PW_DW_CTRL. -/
  | pwDuty (m : Fin 32)
  /-- TRIP_CONFIG (R431). TRIP_CONFIG writes TR_CFG of a trip input. -/
  | tripConfig (m : Fin 32)
  /-- AR_WRITE (R431). AR_WRITE writes an armed-response entry and its trip group. -/
  | arWrite (m : Fin 32)
  /-- AR_ARM (R431). AR_ARM arms an entry by PREPARE and ARM. -/
  | arArm (m : Fin 32)
  /-- AR_DISARM (R431). AR_DISARM disarms an entry by PREPARE and DISARM. -/
  | arDisarm (m : Fin 32)
  /-- AR_RELEASE (R431). AR_RELEASE releases an engaged entry. -/
  | arRelease (m : Fin 32)
  /-- Q_CONFIG (R431). Q_CONFIG writes a queue descriptor. -/
  | qConfig (m : Fin 32)
  /-- Q_PIN (R431). Q_PIN writes a CL_QPIN entry. -/
  | qPin (m : Fin 32)
  /-- Q_SEED (R431). Q_SEED seeds a pool queue and waits for it to finish. -/
  | qSeed (m : Fin 32)
  /-- Q_WM (R431). Q_WM writes a queue's watermarks. -/
  | qWm (m : Fin 32)
  /-- Q_NOTICE (R431). Q_NOTICE returns a watermark notice and optionally clears it. -/
  | qNotice (m : Fin 32)
  /-- JN_CONFIG (R432). JN_CONFIG configures the journal drain. -/
  | jnConfig (m : Fin 32)
  /-- JN_READ (R432). JN_READ returns recent journal entries. -/
  | jnRead (m : Fin 32)
  /-- RS_DROVE (R432). RS_DROVE moves a logical unit to a reserve unit at a boundary T. -/
  | rsDrove (m : Fin 32)
  /-- RS_RETIRE (R462). RS_RETIRE retires a SPARE unit behind its Hurdle. -/
  | rsRetire (m : Fin 32)
  /-- RS_READMIT (R462). RS_READMIT self-tests a RETIRED unit and returns it to SPARE on a pass. -/
  | rsReadmit (m : Fin 32)
  /-- RS_TEST (R464). RS_TEST self-tests a SPARE or RETIRED unit. -/
  | rsTest (m : Fin 32)
  /-- HEALTH (R455). HEALTH returns reserve, wear and error data by selector. -/
  | health (m : Fin 32) (bmpOk : Bool)
  /-- PM_REST (R484). PM_REST sets wake enables and enters Rest. -/
  | pmRest (m : Fin 32)
  /-- PM_FOLD (R486). PM_FOLD saves images and enters Fold. -/
  | pmFold (m : Fin 32)
  /-- TIME_SET (R432). TIME_SET sets Tally through TB_SET. -/
  | timeSet (m : Fin 32)
  /-- TL_CONFIG (R432). TL_CONFIG writes Tally Link configuration. -/
  | tlConfig (m : Fin 32)
  /-- TL_BCAST (R432). TL_BCAST sends an apply-time broadcast. -/
  | tlBcast (m : Fin 32)
  /-- TL_STATUS (R432). TL_STATUS returns Tally Link status. -/
  | tlStatus (m : Fin 32)
  /-- PATCH_INFO (R432). PATCH_INFO returns patch load outcome and versions. -/
  | patchInfo (m : Fin 32)
  /-- PATCH_COMMIT (R190). PATCH_COMMIT raises the anti-rollback fuse count to the running SVN. -/
  | patchCommit (m : Fin 32)
  /-- DBG_POLICY (R432). DBG_POLICY writes the debug policy. -/
  | dbgPolicy (m : Fin 32)
  /-- SCRUB_READ (R440). Every 16 × SPACE fc the scrubber reads one word of each instance. -/
  | scrubRead (g : Fin 10) (errs : List (Nat × BitVec 48))
  /-- MI_REMAP (R443). A write enabling or moving a remap entry starts a row copy, or is refused. -/
  | miRemap (p : Port) (g : Fin 10) (j : Fin 8) (data : Word)
  /-- REMAP_SWITCH (R444). The row copy ends and accesses switch to the spare row, raising EV906. -/
  | remapSwitch (g : Fin 10)
  /-- MI_SWEEP (R447). MI_SWEEP.GO sweeps one instance of a reserve unit's memory. -/
  | miSweep (p : Port) (g : Fin 10) (inst : Fin 128)
  /-- SWEEP_END (R447). An instance sweep ends, raising EV907. -/
  | sweepEnd (g : Fin 10) (inst : Fin 128)
  /-- CLRLOG (R449). MI_GCTL.CLRLOG clears a group's row log. -/
  | clrlog (p : Port) (g : Fin 10)
  /-- DROVE_GO (R456). RS_DV_CTRL.GO starts a Drove in PRELOAD. -/
  | droveGo (p : Port) (data : Word)
  /-- PRELOADED (R456). The preload completes and the Drove becomes ARMED. -/
  | preloaded
  /-- DROVE_BOUNDARY (R457). The Drove boundary is met at or after T and the hold and transfer begin. -/
  | droveBoundary
  /-- DROVE_SWITCH (R456). At the switch edge the logical unit moves to the target, the source is fenced and EV912 is raised. -/
  | droveSwitch
  /-- CANCEL (R456). RS_DV_CTRL.CANCEL cancels a Drove before SWITCHED. -/
  | cancel (p : Port)
  /-- SHADOW_PAIRING (R460). A write enabling RS_SC_CTRL pairs a reserve generator with an active one from its next ZRO. -/
  | shadowPairing (p : Port) (data : Word)
  /-- RING_OSCILLATOR_MEASURE (R453). RS_RO_CTRL.GO starts a ring-oscillator measurement. -/
  | ringOscillatorMeasure (p : Port) (data : Word)
  /-- RING_OSCILLATOR_END (R453). The measurement window ends, writing counts and raising EV916. -/
  | ringOscillatorEnd (stress : Vector Word 8) (ref : Vector Word 8)
  /-- RCO_MEASUREMENT (R463). Each 32 CLK_SLOW cycles the RC oscillators are counted and out-of-range counts raise EV917. -/
  | rcoMeasurement (a : BitVec 32) (b : BitVec 32)
  /-- STRESS_HOUR (R454). Once per hour Crook accrues stress-hours and busy counts and rewrites the reserve image. -/
  | stressHour
  /-- POWER_ON_RESET (R470). POR_N low resets the block at POR level. -/
  | powerOnReset
  /-- PIN_RESET (R468). RST_N low asserts reset source PIN. -/
  | pinReset
  /-- RC_SWRST (R473). A keyed write to RC_SWRST asserts HCMD or DCMD. -/
  | rcSwrst (p : Port) (data : Word)
  /-- TLCMD (R473). An armed Tally Link reset asserts at its apply-time. -/
  | tlcmd
  /-- RESET_RELEASE (R478). After the reset hold and PLL lock, start-up runs its stages to READY. -/
  | resetRelease (c0 : Fin 16) (c1 : Fin 16) (c2 : Fin 16) (c3 : Fin 16) (marginal : Bool) (r : Release)
  /-- HOSTGO (R480). RC_BOOT.HOSTGO ends the host-load wait. -/
  | hostgo (p : Port) (im : BootImage)
  /-- REST_ENTRY (R484). On quiescence after PM_CTRL GO, the block enters Rest. -/
  | restEntry
  /-- FOLD_ENTRY (R486). On quiescence after PM_CTRL GO, the block powers down into Fold. -/
  | foldEntry
  /-- ENTRY_TIMEOUT (R484). Quiescence is not reached within 1 ms and the entry is abandoned. -/
  | entryTimeout
  /-- GRAZE_RETURN (R485). After PLL_LOCK rises, the fast domain runs and the block returns to Graze. -/
  | grazeReturn
  /-- DOMAIN_ACK (R520). A power-domain acknowledgement arrives and the controller continues its sequence. -/
  | domainAck (d : Fin 4) (level : Bool)
  /-- LOCKLOSS (R488). PLL_LOCK falls in Graze and the fast domain stops as in a halt. -/
  | lockloss
  /-- POWER_FAIL (R490). PWRFAIL_N falls, engaging AR16, stamping S and starting the last gasp. -/
  | powerFail (k : Nat)
  /-- SNAPSHOT (R492). When Tally reaches C, the snapshot is read into the last-gasp buffer. -/
  | snapshot
  /-- LAST_GASP_SCAN (R491). 4,096 fc after C, the ring closes and the scan of saved entries begins. -/
  | lastGaspScan
  /-- LAST_GASP_END (R490). The Fold store writes complete, the header is written and EV945 is raised. -/
  | lastGaspEnd (us : BitVec 8) (written : Bool)
  /-- PWRF (R493). PWRFAIL_N rises after a last gasp and asserts PWRF. -/
  | pwrf
  /-- PM_FSDATA (R498). An access to PM_FSDATA reads or writes a Fold store word. -/
  | pmFsdata (p : Port) (wr : Option Word)
  /-- FIPPLE_IDENT (R504). The Fipple IDENT command returns UID, IDCODE and DB_STAT. -/
  | fippleIdent (pl : List Byte)
  /-- STATUS (R504). The Fipple STATUS command returns DB_STAT. -/
  | status (pl : List Byte)
  /-- CHALLENGE (R500). CHALLENGE creates an ephemeral key pair and nonce. -/
  | challenge (pl : List Byte)
  /-- CERT (R500). CERT submits an owner debug certificate. -/
  | cert (pl : List Byte)
  /-- PROVE (R500). PROVE submits the proof that completes an unlock. -/
  | prove (pl : List Byte)
  /-- UNLOCK_COMPLETE (R500). The certificate unit finishes verification and sets or refuses the level. -/
  | unlockComplete
  /-- LOCK (R501). LOCK returns the debug level to locked. -/
  | lock (pl : List Byte)
  /-- READ (R504). The Fipple READ command reads through the debug access master. -/
  | read (pl : List Byte) (sys : List (Nat × BitVec 64))
  /-- WRITE (R504). The Fipple WRITE command writes through the debug access master. -/
  | write (pl : List Byte) (sys : List (Nat × BitVec 64))
  /-- FIPPLE_RESET (R504). The Fipple RESET command asserts DCMD. -/
  | fippleReset (pl : List Byte)
  /-- LINE_RESET (R503). 64 DCK cycles with DIO low abandon the Fipple request or response. -/
  | lineReset
  /-- CRCERR (R503). A Fipple request with a bad CRC is answered CRCERR. -/
  | crcerr
  /-- TAP_RESET (R506). A TAP reset selects IDCODE. -/
  | tapReset
  /-- EXTEST (R506). EXTEST connects the integrator's boundary register. -/
  | extest
  /-- SAMPLE_PRELOAD (R506). SAMPLE/PRELOAD connects the boundary register for sampling. -/
  | samplePreload
  /-- IDCODE (R506). IDCODE selects the 32-bit identity register. -/
  | idcode
  /-- CLAMP (R506). CLAMP holds outputs with bypass selected. -/
  | clamp
  /-- HIGHZ (R506). HIGHZ disables outputs with bypass selected. -/
  | highz
  /-- FIPPLE (R506). The TAP FIPPLE instruction passes Fipple request and response bytes. -/
  | fipple (dr : BitVec 9) (sys : List (Nat × BitVec 64))
  /-- SCANCTL (R506). SCANCTL enters or leaves scan mode, ending with an L3 reset. -/
  | scanctl (enter : Bool)
  /-- BISTCTL (R506). BISTCTL runs memory BIST, ending with an L3 reset. -/
  | bistctl (enter : Bool)
  /-- BYPASS (R506). BYPASS selects the 1-bit bypass register. -/
  | bypass
  /-- HALT (R508). DB_ECMD HALT requests an engine halt at its next safe point. -/
  | halt (p : Port) (pe : Fin 128)
  /-- HALT_TAKEN (R508). An engine reaches a safe point and halts, raising EV960 and journalling. -/
  | haltTaken (pe : Fin 72)
  /-- ENGINE_RESUME (R508). DB_ECMD RESUME lets a halted engine dispatch again. -/
  | engineResume (p : Port) (pe : Fin 128)
  /-- STEP (R508). DB_ECMD STEP runs a halted engine to its next safe point. -/
  | step (p : Port) (pe : Fin 128)
  /-- DB_FREEZE (R509). A write of DB_FREEZE.REQ freezes or unfreezes the selected units. -/
  | dbFreeze (p : Port) (data : Word)
  /-- BLOCK_HALT (R509). DB_BHALT.REQ = 1 stops CLK_FAST at the block boundary. -/
  | blockHalt (p : Port)
  /-- BLOCK_HALT_RELEASE (R509). DB_BHALT.REQ = 0 resumes the fast domain and raises EV963. -/
  | blockHaltRelease (p : Port)
  /-- HOLDREL (R509). DB_BHALT.HOLDREL ends the boot hold. -/
  | holdrel (p : Port) (im : BootImage)
  /-- REGISTER_READ (R26). A read through HPP, HUP or the Shepherd of a register or memory window, with its DECODE, ACCESS, BUS or POISON response, its counts and its latching side effects. -/
  | registerRead (p : Port) (off : Nat) (size : Fin 4)
  /-- MEMORY_WINDOW_WRITE (R22). A write through HPP, the Shepherd or the debug access master into an engine memory, shared RAM, code RAM, TCM or buffer cell, replacing words and their poison marks. -/
  | memoryWindowWrite (p : Port) (off : Nat) (size : Fin 4) (be : BitVec 8) (data : BitVec 64)
  /-- LOAD_RESPONSE (R66). Data, or an error response, arrives for a load from the unit-register window or system memory, ending the engine's or Shepherd's wait or taking fault BUSERR. -/
  | loadResponse (c : Core) (bank : Fin 4) (code : Fin 4) (data : BitVec 64)
  /-- BUFFERED_STORE_COMPLETE (R524). BMP answers OKAY to a buffered engine or Shepherd store to system memory and the store-buffer entry is freed. -/
  | bufferedStoreComplete (c : Core)
  /-- FLASH_LINE_ARRIVAL (R393). An FFP line arrives within F fc of its request, ending the Shepherd's fetch stall or taking fault BUSERR on a nonzero response. -/
  | flashLineArrival (bytes : Vector Byte 32) (ok : Bool)
  /-- SLOW_CLOCK_EDGE (R40). A rising CLK_SLOW edge adds 2^17 tk to Tally and TM_SLOW_INC to each running timer in slow advance, samples slow gates and captures, and serves as the Tally handover edge. -/
  | slowClockEdge
  /-- DELAY_LINE_LOCK (R542). The edge-stamp delay line locks within 64 fc of PLL_LOCK rising and TB_STAT.COARSE clears. -/
  | delayLineLock
  /-- GATE_LEVEL_CHANGE (R259). A timer gate source changes level and decides TM_STAT.GATE and the count from fc e + latency. -/
  | gateLevelChange (t : Fin 36) (level : Bool)
  /-- SCLK_EDGE (R312). In framed mode, an SCLK edge while SEL is asserted shifts one bit into the framing register or changes SDO, and counts excess bits. -/
  | sclkEdge (n : Fin 36) (ch : Fin 16) (rising : Bool) (sdi : Bool)
  /-- ILLEGAL (R99). Execution of an unassigned or ILLEGAL encoding, or of a supervisor-group encoding on an engine, takes fault ILLEGAL or SUPER before any microword runs. -/
  | illegal (c : Core) (w : Word)
  /-- BADOP (R422). Crook takes a rung command whose OP is unassigned and completes it with status BADOP. -/
  | badop (m : Fin 32)
  /-- BADCMD (R504). A Fipple request whose CMD is unassigned or whose LEN or fields are out of range is answered BADCMD with no effect. -/
  | badcmd (cmd : Byte) (pl : List Byte)
  /-- SELF_TEST_END (R464). A self-test of RS_TEST or RS_READMIT ends within 2 ms, raises EV918, journals record 0x076 and completes the waiting command. -/
  | selfTestEnd (kind : Fin 5) (unit : Fin 72) (step : Fin 8)
  /-- FUSE_BLOW_COMPLETE (R534). The fuse macro answers a blow request with FUSE_PACK, advancing the anti-rollback count, or with FUSE_PERR, ending the commit with HWREFUSED. -/
  | fuseBlowComplete (ok : Bool)
deriving DecidableEq, Repr

end Sys2Proof
end

