-- ==== Sys2Proof/Decode.lean ====
section
/-!
DEFINITION. The rows of spec/opcode_table.json give no bits to any command: no word spells one. (The words of the Kamyn
instruction set, which its commands carry, are decoded by `Machine.kOp` of Machine/Operands.lean.)
-/

namespace Sys2Proof

/-- The command that a word spells by the bits of the table: none, for the table gives no row any bits. -/
def decodeTableWord (_nbits _w : Nat) : Option Instr := none

end Sys2Proof
end

