-- ==== Sys2Proof/Config.lean ====
section
/-!
DEFINITION. What an implementation fixes and what the spec leaves open: opaque constants without a body, so that no
proof can see a value. Log entry 1.
-/

namespace Sys2Proof

/-- The free value of index n: the result the spec leaves open at the n-th such point of a run (log entry 1). -/
opaque Config.free : Nat → BitVec 128

/-- The payloads of the control-store ROM (06_microcode.md R154): addresses 0 to 0x0FFF; the spec does not give them. -/
opaque Config.csRom : Nat → BitVec 168

/-- The payload P1:P0 of an event source whose contents the spec names without a layout (13_events_and_journal.md R347): a fixed function
of the source and of what is named, in the order named. -/
opaque Config.payload : Nat → List Nat → BitVec 64

/-- The age in steps that R282 divides by a PF_STEP_TK of 0, from the age in tk. -/
opaque Config.ageOpen : Int → Int

/-- Where the entry of an instruction lies in its range of the ROM, where the spec lists the range only (R178). -/
opaque Config.csEntry : Nat → Nat

/-- The bytes of the Shepherd's boot ROM (15_shepherd_core.md R393): the spec does not give them. -/
opaque Config.bootRom : Nat → Byte

/-- The verdict of the certificate and image checks on a list of bytes: the spec names the algorithms (ECDSA, HMAC,
GCM), the model leaves their verdict open. The first argument says which check. -/
opaque Config.verdict : Nat → List Byte → Bool

/-- A cryptographic value derived from bytes (a digest, a key, a tag), left open in the same way. -/
opaque Config.digest : Nat → List Byte → BitVec 256

/-- What the cipher unit makes of a patch image (06_microcode.md R188): key, IV, header, ciphertext and tag; none where the tag does not verify.
The spec names AES-256-GCM, the model leaves its result open. -/
opaque Config.gcmOpen : BitVec 256 → List Byte → List Byte → List Byte → List Byte → Option (List Byte)

end Sys2Proof
end

