-- ==== Sys2Proof/Machine/RegTable.lean ====
section
/-!
DEFINITION. The register map of the block: every register of the spec's register tables, its offset in the HPP
window (01_architecture.md R18 to R21), its fields, their access codes (00_scope.md R6), reset values and reset
levels (R9). Fields are given as in the table of the rule named over each block.
-/

namespace Sys2Proof.Machine

/-- The access codes of R6. -/
inductive Acc | RW | RO | WO | W1C | W1S | RWL | RWI
deriving DecidableEq, Repr

/-- The reset levels of R9 (`POR` fields survive every other reset). -/
inductive Lvl | L0 | L1 | L2 | L3 | POR
deriving DecidableEq, Repr

/-- One row of a register table: bits [hi:lo], access, reset value, level. -/
structure FieldDesc where
  hi : Nat
  lo : Nat
  acc : Acc
  rst : Nat
  lvl : Lvl
deriving DecidableEq, Repr

/-- A register of a block: offset in the instance, array count and stride, the write restrictions that its table states
(`inner`: writes from the Inner world only; `flockW`: writable in the flock view; `dam`: debug access master only). -/
structure RegDesc where
  off : Nat
  count : Nat
  stride : Nat
  inner : Bool
  flockW : Bool
  dam : Bool
  fields : List FieldDesc
deriving DecidableEq, Repr

/-- A per-instance block of R19 and R21: instance i stands at base + (i div grp) * gstride + (i mod grp) * stride. -/
structure BlockDesc where
  base : Nat
  count : Nat
  stride : Nat
  grp : Nat
  gstride : Nat
  regs : List RegDesc
deriving DecidableEq, Repr

/-- A field of a register: its low bit and its length. -/
structure Fld where
  lo : Nat
  len : Nat
deriving DecidableEq, Repr

/-! ### ID (R23, 01_architecture.md) -/

def ID_PART : Nat := 0x0
def fID_PART_VENDOR : Fld := ⟨16, 16⟩
def fID_PART_PART : Fld := ⟨0, 16⟩
def ID_REVISION : Nat := 0x4
def fID_REVISION_MAJOR : Fld := ⟨24, 8⟩
def fID_REVISION_MINOR : Fld := ⟨16, 8⟩
def fID_REVISION_MAPVER : Fld := ⟨0, 16⟩
def ID_ROMCODE : Nat := 0x8
def fID_ROMCODE_ROMVER : Fld := ⟨0, 32⟩

def blkID : BlockDesc := ⟨0x0, 1, 0xC, 0, 0x0,
  [
  ⟨0x0, 1, 0x4, false, false, false, [⟨31, 16, .RO, 0xd7a1, .L3⟩, ⟨15, 0, .RO, 0x64, .L3⟩]⟩,
  ⟨0x4, 1, 0x4, false, false, false, [⟨31, 24, .RO, 1, .L3⟩, ⟨23, 16, .RO, 0, .L3⟩, ⟨15, 0, .RO, 1, .L3⟩]⟩,
  ⟨0x8, 1, 0x4, false, false, false, [⟨31, 0, .RO, 0x10000, .L3⟩]⟩]⟩

/-! ### RC (R497, 19_reset_power_startup.md) -/

def RC_RST_CAUSE : Nat := 0x100
def fRC_RST_CAUSE_MAPPED : Fld := ⟨28, 4⟩
def fRC_RST_CAUSE_SERVED : Fld := ⟨24, 2⟩
def fRC_RST_CAUSE_SRC : Fld := ⟨16, 4⟩
def fRC_RST_CAUSE_ASSERTED : Fld := ⟨0, 9⟩
def RC_RST_STAMP_LO : Nat := 0x104
def fRC_RST_STAMP_LO_VALUE : Fld := ⟨0, 32⟩
def RC_RST_STAMP_HI : Nat := 0x108
def fRC_RST_STAMP_HI_VALUE : Fld := ⟨0, 32⟩
def RC_OPTLOAD_RESTARTS : Nat := 0x10C
def fRC_OPTLOAD_RESTARTS_COUNT : Fld := ⟨0, 32⟩
def RC_RST_DROPPED : Nat := 0x110
def fRC_RST_DROPPED_COUNT : Fld := ⟨0, 32⟩
def RC_DECODE_ERRS : Nat := 0x114
def fRC_DECODE_ERRS_COUNT : Fld := ⟨0, 32⟩
def RC_RSVD_WRITES : Nat := 0x118
def fRC_RSVD_WRITES_COUNT : Fld := ⟨0, 32⟩
def RC_SWRST : Nat := 0x120
def fRC_SWRST_KEY : Fld := ⟨16, 16⟩
def RC_TLRST : Nat := 0x124
def fRC_TLRST_EN : Fld := ⟨31, 1⟩
def fRC_TLRST_TAG : Fld := ⟨0, 4⟩
def RC_OPT : Nat := 0x130
def fRC_OPT_STRAP : Fld := ⟨12, 4⟩
def fRC_OPT_BOOT : Fld := ⟨10, 2⟩
def fRC_OPT_ROLE : Fld := ⟨9, 1⟩
def fRC_OPT_HOLD : Fld := ⟨8, 1⟩
def fRC_OPT_SUNST : Fld := ⟨4, 1⟩
def fRC_OPT_SMARG : Fld := ⟨3, 1⟩
def fRC_OPT_STRAPLOCK : Fld := ⟨0, 1⟩
def RC_RSTMAP0 : Nat := 0x134
def fRC_RSTMAP0_LVL : Fld := ⟨0, 32⟩
def RC_RSTMAP1 : Nat := 0x138
def fRC_RSTMAP1_ERR : Fld := ⟨16, 16⟩
def fRC_RSTMAP1_LVL8 : Fld := ⟨0, 4⟩
def RC_BOOT : Nat := 0x140
def fRC_BOOT_HOSTGO : Fld := ⟨31, 1⟩
def fRC_BOOT_HOSTWAIT : Fld := ⟨30, 1⟩
def fRC_BOOT_STAGE : Fld := ⟨24, 4⟩
def fRC_BOOT_FAIL : Fld := ⟨16, 8⟩
def fRC_BOOT_DIR : Fld := ⟨0, 1⟩
def RC_RSTCNT (j : Nat) : Nat := 0x150 + j * 0x4
def fRC_RSTCNT_ODD : Fld := ⟨16, 16⟩
def fRC_RSTCNT_EVEN : Fld := ⟨0, 16⟩

def blkRC : BlockDesc := ⟨0x100, 1, 0x64, 0, 0x0,
  [
  ⟨0x0, 1, 0x4, false, false, false, [⟨31, 28, .RO, 4, .POR⟩, ⟨25, 24, .RO, 3, .POR⟩, ⟨19, 16, .RO, 0, .POR⟩, ⟨8, 0, .RO, 1, .POR⟩]⟩,
  ⟨0x4, 1, 0x4, false, false, false, [⟨31, 0, .RO, 0, .POR⟩]⟩,
  ⟨0x8, 1, 0x4, false, false, false, [⟨31, 0, .RO, 0, .POR⟩]⟩,
  ⟨0xC, 1, 0x4, false, false, false, [⟨31, 0, .RO, 0, .POR⟩]⟩,
  ⟨0x10, 1, 0x4, false, false, false, [⟨31, 0, .RO, 0, .POR⟩]⟩,
  ⟨0x14, 1, 0x4, false, false, false, [⟨31, 0, .RO, 0, .L2⟩]⟩,
  ⟨0x18, 1, 0x4, false, false, false, [⟨31, 0, .RO, 0, .L2⟩]⟩,
  ⟨0x20, 1, 0x4, false, false, false, [⟨31, 16, .WO, 0, .L2⟩]⟩,
  ⟨0x24, 1, 0x4, false, false, false, [⟨31, 31, .RWI, 0, .L2⟩, ⟨3, 0, .RWI, 0, .L2⟩]⟩,
  ⟨0x30, 1, 0x4, false, false, false, [⟨15, 12, .RO, 0, .L3⟩, ⟨11, 10, .RO, 0, .L3⟩, ⟨9, 9, .RO, 0, .L3⟩, ⟨8, 8, .RO, 0, .L3⟩, ⟨4, 4, .RO, 0, .L3⟩, ⟨3, 3, .RO, 0, .L3⟩, ⟨0, 0, .RO, 0, .L3⟩]⟩,
  ⟨0x34, 1, 0x4, false, false, false, [⟨31, 0, .RO, 0x43333344, .L3⟩]⟩,
  ⟨0x38, 1, 0x4, false, false, false, [⟨31, 16, .RO, 0, .L3⟩, ⟨3, 0, .RO, 3, .L3⟩]⟩,
  ⟨0x40, 1, 0x4, false, false, false, [⟨31, 31, .WO, 0, .L2⟩, ⟨30, 30, .RO, 0, .L2⟩, ⟨27, 24, .RO, 0, .L2⟩, ⟨23, 16, .RO, 0, .L2⟩, ⟨0, 0, .RO, 0, .L2⟩]⟩,
  ⟨0x50, 5, 0x4, false, false, false, [⟨31, 16, .RO, 0, .POR⟩, ⟨15, 0, .RO, 0, .POR⟩]⟩]⟩

/-! ### PM (R498, 19_reset_power_startup.md) -/

def PM_CTRL : Nat := 0x8000
def fPM_CTRL_GO : Fld := ⟨31, 1⟩
def fPM_CTRL_MODE : Fld := ⟨0, 2⟩
def PM_STAT : Nat := 0x8004
def fPM_STAT_PDWAIT : Fld := ⟨16, 4⟩
def fPM_STAT_ABCAUSE : Fld := ⟨12, 3⟩
def fPM_STAT_ABORT : Fld := ⟨11, 1⟩
def fPM_STAT_LOCKLOSS : Fld := ⟨10, 1⟩
def fPM_STAT_LGBUSY : Fld := ⟨9, 1⟩
def fPM_STAT_PFAIL : Fld := ⟨8, 1⟩
def fPM_STAT_STATE : Fld := ⟨0, 3⟩
def PM_WAKE_LAST : Nat := 0x8008
def fPM_WAKE_LAST_VALID : Fld := ⟨31, 1⟩
def fPM_WAKE_LAST_LATCH : Fld := ⟨0, 4⟩
def PM_REST_CNT : Nat := 0x8010
def fPM_REST_CNT_COUNT : Fld := ⟨0, 32⟩
def PM_FOLD_CNT : Nat := 0x8014
def fPM_FOLD_CNT_COUNT : Fld := ⟨0, 32⟩
def PM_ABORT_CNT : Nat := 0x8018
def fPM_ABORT_CNT_COUNT : Fld := ⟨0, 32⟩
def PM_LOCKLOSS_CNT : Nat := 0x801C
def fPM_LOCKLOSS_CNT_COUNT : Fld := ⟨0, 32⟩
def PM_LG : Nat := 0x8020
def fPM_LG_LASTOK : Fld := ⟨31, 1⟩
def fPM_LG_NEXT : Fld := ⟨30, 1⟩
def fPM_LG_COUNT : Fld := ⟨16, 9⟩
def fPM_LG_US : Fld := ⟨0, 16⟩
def PM_LG_STAMP_LO : Nat := 0x8024
def fPM_LG_STAMP_LO_VALUE : Fld := ⟨0, 32⟩
def PM_LG_STAMP_HI : Nat := 0x8028
def fPM_LG_STAMP_HI_VALUE : Fld := ⟨0, 32⟩
def PM_LG_SKIP : Nat := 0x802C
def fPM_LG_SKIP_COUNT : Fld := ⟨0, 32⟩
def PM_FSADDR : Nat := 0x8030
def fPM_FSADDR_WORD : Fld := ⟨2, 16⟩
def PM_FSDATA : Nat := 0x8034
def fPM_FSDATA_DATA : Fld := ⟨0, 32⟩

def blkPM : BlockDesc := ⟨0x8000, 1, 0x38, 0, 0x0,
  [
  ⟨0x0, 1, 0x4, true, false, false, [⟨31, 31, .WO, 0, .L2⟩, ⟨1, 0, .WO, 0, .L2⟩]⟩,
  ⟨0x4, 1, 0x4, false, false, false, [⟨19, 16, .RO, 0, .L2⟩, ⟨14, 12, .RO, 0, .L2⟩, ⟨11, 11, .W1C, 0, .L2⟩, ⟨10, 10, .W1C, 0, .L2⟩, ⟨9, 9, .RO, 0, .L2⟩, ⟨8, 8, .RO, 0, .L2⟩, ⟨2, 0, .RO, 0, .L2⟩]⟩,
  ⟨0x8, 1, 0x4, false, false, false, [⟨31, 31, .RO, 0, .POR⟩, ⟨3, 0, .RO, 0, .POR⟩]⟩,
  ⟨0x10, 1, 0x4, false, false, false, [⟨31, 0, .RO, 0, .POR⟩]⟩,
  ⟨0x14, 1, 0x4, false, false, false, [⟨31, 0, .RO, 0, .POR⟩]⟩,
  ⟨0x18, 1, 0x4, false, false, false, [⟨31, 0, .RO, 0, .POR⟩]⟩,
  ⟨0x1C, 1, 0x4, false, false, false, [⟨31, 0, .RO, 0, .POR⟩]⟩,
  ⟨0x20, 1, 0x4, false, false, false, [⟨31, 31, .RO, 0, .POR⟩, ⟨30, 30, .RO, 0, .POR⟩, ⟨24, 16, .RO, 0, .POR⟩, ⟨15, 0, .RO, 0, .POR⟩]⟩,
  ⟨0x24, 1, 0x4, false, false, false, [⟨31, 0, .RO, 0, .POR⟩]⟩,
  ⟨0x28, 1, 0x4, false, false, false, [⟨31, 0, .RO, 0, .POR⟩]⟩,
  ⟨0x2C, 1, 0x4, false, false, false, [⟨31, 0, .RO, 0, .POR⟩]⟩,
  ⟨0x30, 1, 0x4, false, false, false, [⟨17, 2, .RW, 0, .L2⟩]⟩,
  ⟨0x34, 1, 0x4, false, false, false, [⟨31, 0, .RWI, 0, .L2⟩]⟩]⟩

/-! ### TB (R60, 02_tally_time.md) -/

def TB_NOW_LO : Nat := 0x10000
def fTB_NOW_LO_VALUE : Fld := ⟨0, 32⟩
def TB_NOW_HI : Nat := 0x10004
def fTB_NOW_HI_VALUE : Fld := ⟨0, 32⟩
def TB_INCR_FRAC : Nat := 0x10008
def fTB_INCR_FRAC_FRAC : Fld := ⟨0, 32⟩
def TB_INCR_INT : Nat := 0x1000C
def fTB_INCR_INT_INT : Fld := ⟨0, 8⟩
def TB_SET_LO : Nat := 0x10010
def fTB_SET_LO_VALUE : Fld := ⟨0, 32⟩
def TB_SET_HI : Nat := 0x10014
def fTB_SET_HI_VALUE : Fld := ⟨0, 32⟩
def TB_CTRL : Nat := 0x10018
def fTB_CTRL_SEL : Fld := ⟨3, 1⟩
def fTB_CTRL_RESYNC : Fld := ⟨2, 1⟩
def fTB_CTRL_SET : Fld := ⟨1, 1⟩
def TB_STAT : Nat := 0x1001C
def fTB_STAT_COARSE : Fld := ⟨2, 1⟩
def fTB_STAT_SRC : Fld := ⟨1, 1⟩
def fTB_STAT_ABMIS : Fld := ⟨0, 1⟩
def TB_TRIM : Nat := 0x10020
def fTB_TRIM_TRIM : Fld := ⟨0, 32⟩
def TB_ABMIS_CNT : Nat := 0x10024
def fTB_ABMIS_CNT_COUNT : Fld := ⟨0, 16⟩
def TB_ABMIS_STAMP_LO : Nat := 0x10028
def fTB_ABMIS_STAMP_LO_VALUE : Fld := ⟨0, 32⟩
def TB_ABMIS_STAMP_HI : Nat := 0x1002C
def fTB_ABMIS_STAMP_HI_VALUE : Fld := ⟨0, 32⟩
def TB_OTHER_LO : Nat := 0x10030
def fTB_OTHER_LO_VALUE : Fld := ⟨0, 32⟩
def TB_OTHER_HI : Nat := 0x10034
def fTB_OTHER_HI_VALUE : Fld := ⟨0, 32⟩
def TB_SET_REFUSED : Nat := 0x10038
def fTB_SET_REFUSED_COUNT : Fld := ⟨0, 32⟩

def blkTB : BlockDesc := ⟨0x10000, 1, 0x3C, 0, 0x0,
  [
  ⟨0x0, 1, 0x4, false, false, false, [⟨31, 0, .RO, 0, .POR⟩]⟩,
  ⟨0x4, 1, 0x4, false, false, false, [⟨31, 0, .RO, 0, .POR⟩]⟩,
  ⟨0x8, 1, 0x4, false, false, false, [⟨31, 0, .RWI, 0x4b82fa0a, .L3⟩]⟩,
  ⟨0xC, 1, 0x4, false, false, false, [⟨7, 0, .RWI, 4, .L3⟩]⟩,
  ⟨0x10, 1, 0x4, false, false, false, [⟨31, 0, .RWI, 0, .L2⟩]⟩,
  ⟨0x14, 1, 0x4, false, false, false, [⟨31, 0, .RWI, 0, .L2⟩]⟩,
  ⟨0x18, 1, 0x4, false, false, false, [⟨3, 3, .RWI, 0, .POR⟩, ⟨2, 2, .WO, 0, .L2⟩, ⟨1, 1, .WO, 0, .L2⟩]⟩,
  ⟨0x1C, 1, 0x4, false, false, false, [⟨2, 2, .RO, 0, .L3⟩, ⟨1, 1, .RO, 0, .L3⟩, ⟨0, 0, .W1C, 0, .POR⟩]⟩,
  ⟨0x20, 1, 0x4, false, false, false, [⟨31, 0, .RO, 0, .L2⟩]⟩,
  ⟨0x24, 1, 0x4, false, false, false, [⟨15, 0, .W1C, 0, .POR⟩]⟩,
  ⟨0x28, 1, 0x4, false, false, false, [⟨31, 0, .RO, 0, .POR⟩]⟩,
  ⟨0x2C, 1, 0x4, false, false, false, [⟨31, 0, .RO, 0, .POR⟩]⟩,
  ⟨0x30, 1, 0x4, false, false, false, [⟨31, 0, .RO, 0, .POR⟩]⟩,
  ⟨0x34, 1, 0x4, false, false, false, [⟨31, 0, .RO, 0, .POR⟩]⟩,
  ⟨0x38, 1, 0x4, false, false, false, [⟨31, 0, .RO, 0, .L2⟩]⟩]⟩

/-! ### TL (R61, 02_tally_time.md) -/

def TL_CTRL : Nat := 0x18000
def fTL_CTRL_TL_ID : Fld := ⟨16, 5⟩
def fTL_CTRL_FGAIN : Fld := ⟨12, 4⟩
def fTL_CTRL_FAILOVER : Fld := ⟨3, 1⟩
def fTL_CTRL_UPPORT : Fld := ⟨2, 1⟩
def fTL_CTRL_ROLE : Fld := ⟨1, 1⟩
def fTL_CTRL_EN : Fld := ⟨0, 1⟩
def TL_STAT : Nat := 0x18004
def fTL_STAT_HOPS : Fld := ⟨5, 5⟩
def fTL_STAT_SERVO : Fld := ⟨3, 2⟩
def fTL_STAT_BLATE : Fld := ⟨1, 1⟩
def fTL_STAT_DUALMASTER : Fld := ⟨0, 1⟩
def TL_STEPTHR : Nat := 0x18008
def fTL_STEPTHR_VALUE : Fld := ⟨0, 32⟩
def TL_BMARGIN : Nat := 0x1800C
def fTL_BMARGIN_VALUE : Fld := ⟨0, 32⟩
def TL_BLATE_CNT : Nat := 0x18010
def fTL_BLATE_CNT_COUNT : Fld := ⟨0, 32⟩
def TL_SYNC_MISSED : Nat := 0x18014
def fTL_SYNC_MISSED_COUNT : Fld := ⟨0, 32⟩
def TL_MBOX_BUSY : Nat := 0x18018
def fTL_MBOX_BUSY_COUNT : Fld := ⟨0, 32⟩
def TL_PSTAT (j : Nat) : Nat := 0x18100 + j * 0x40
def fTL_PSTAT_STATE : Fld := ⟨0, 2⟩
def TL_ASYM (j : Nat) : Nat := 0x18104 + j * 0x40
def fTL_ASYM_ASYM : Fld := ⟨0, 32⟩
def TL_DELAY (j : Nat) : Nat := 0x18108 + j * 0x40
def fTL_DELAY_VALUE : Fld := ⟨0, 32⟩
def TL_OFFSET (j : Nat) : Nat := 0x1810C + j * 0x40
def fTL_OFFSET_VALUE : Fld := ⟨0, 32⟩
def TL_CRC_ERRS (j : Nat) : Nat := 0x18110 + j * 0x40
def fTL_CRC_ERRS_COUNT : Fld := ⟨0, 32⟩
def TL_CV_ERRS (j : Nat) : Nat := 0x18114 + j * 0x40
def fTL_CV_ERRS_COUNT : Fld := ⟨0, 32⟩
def TL_BTIME_LO (j : Nat) : Nat := 0x18200 + j * 0x8
def fTL_BTIME_LO_VALUE : Fld := ⟨0, 32⟩
def TL_BTIME_HI (j : Nat) : Nat := 0x18204 + j * 0x8
def fTL_BTIME_HI_VALUE : Fld := ⟨0, 32⟩

def blkTL : BlockDesc := ⟨0x18000, 1, 0x280, 0, 0x0,
  [
  ⟨0x0, 1, 0x4, false, false, false, [⟨20, 16, .RWI, 0, .L3⟩, ⟨15, 12, .RWI, 8, .L3⟩, ⟨3, 3, .RWI, 0, .L3⟩, ⟨2, 2, .RWI, 0, .L3⟩, ⟨1, 1, .RWI, 0, .L3⟩, ⟨0, 0, .RWI, 0, .L3⟩]⟩,
  ⟨0x4, 1, 0x4, false, false, false, [⟨9, 5, .RO, 0, .L2⟩, ⟨4, 3, .RO, 0, .L2⟩, ⟨1, 1, .W1C, 0, .L2⟩, ⟨0, 0, .W1C, 0, .L2⟩]⟩,
  ⟨0x8, 1, 0x4, false, false, false, [⟨31, 0, .RWI, 0x1000, .L3⟩]⟩,
  ⟨0xC, 1, 0x4, false, false, false, [⟨31, 0, .RWI, 0x218e, .L3⟩]⟩,
  ⟨0x10, 1, 0x4, false, false, false, [⟨31, 0, .RO, 0, .L2⟩]⟩,
  ⟨0x14, 1, 0x4, false, false, false, [⟨31, 0, .RO, 0, .L2⟩]⟩,
  ⟨0x18, 1, 0x4, false, false, false, [⟨31, 0, .RO, 0, .L2⟩]⟩,
  ⟨0x100, 2, 0x40, false, false, false, [⟨1, 0, .RO, 0, .L2⟩]⟩,
  ⟨0x104, 2, 0x40, false, false, false, [⟨31, 0, .RWI, 0, .L3⟩]⟩,
  ⟨0x108, 2, 0x40, false, false, false, [⟨31, 0, .RO, 0, .L2⟩]⟩,
  ⟨0x10C, 2, 0x40, false, false, false, [⟨31, 0, .RO, 0, .L2⟩]⟩,
  ⟨0x110, 2, 0x40, false, false, false, [⟨31, 0, .RO, 0, .L2⟩]⟩,
  ⟨0x114, 2, 0x40, false, false, false, [⟨31, 0, .RO, 0, .L2⟩]⟩,
  ⟨0x200, 16, 0x8, false, false, false, [⟨31, 0, .RO, 0, .L2⟩]⟩,
  ⟨0x204, 16, 0x8, false, false, false, [⟨31, 0, .RO, 0, .L2⟩]⟩]⟩

/-! ### EV (R366, 13_events_and_journal.md) -/

def EC_TARGET (i : Nat) : Nat := 0x20000 + i * 0x10
def fEC_TARGET_JRN : Fld := ⟨31, 1⟩
def fEC_TARGET_FLOCK : Fld := ⟨24, 4⟩
def fEC_TARGET_TARGET : Fld := ⟨0, 5⟩
def EC_SSTAT (i : Nat) : Nat := 0x20004 + i * 0x10
def fEC_SSTAT_MERGED : Fld := ⟨24, 8⟩
def fEC_SSTAT_RCNT : Fld := ⟨8, 16⟩
def fEC_SSTAT_OVR : Fld := ⟨2, 1⟩
def fEC_SSTAT_ACTIVE : Fld := ⟨1, 1⟩
def fEC_SSTAT_PENDING : Fld := ⟨0, 1⟩
def EC_STAMP_LO (i : Nat) : Nat := 0x20008 + i * 0x10
def fEC_STAMP_LO_VALUE : Fld := ⟨0, 32⟩
def EC_STAMP_HI (i : Nat) : Nat := 0x2000C + i * 0x10
def fEC_STAMP_HI_VALUE : Fld := ⟨0, 32⟩

def blkEV : BlockDesc := ⟨0x20000, 1024, 0x10, 0, 0x0,
  [
  ⟨0x0, 1, 0x4, false, false, false, [⟨31, 31, .RWI, 0, .L2⟩, ⟨27, 24, .RWI, 0, .L3⟩, ⟨4, 0, .RWI, 0x15, .L2⟩]⟩,
  ⟨0x4, 1, 0x4, false, true, false, [⟨31, 24, .RO, 0, .L2⟩, ⟨23, 8, .RO, 0, .L2⟩, ⟨2, 2, .W1C, 0, .L2⟩, ⟨1, 1, .RO, 0, .L2⟩, ⟨0, 0, .RO, 0, .L2⟩]⟩,
  ⟨0x8, 1, 0x4, false, false, false, [⟨31, 0, .RO, 0, .L2⟩]⟩,
  ⟨0xC, 1, 0x4, false, false, false, [⟨31, 0, .RO, 0, .L2⟩]⟩]⟩

/-! ### EG (R367, 13_events_and_journal.md) -/

def EG_HOLDOFF (i : Nat) : Nat := 0x28000 + i * 0x20
def fEG_HOLDOFF_HOLD : Fld := ⟨0, 16⟩
def EG_STAT (i : Nat) : Nat := 0x28004 + i * 0x20
def fEG_STAT_ACT : Fld := ⟨16, 16⟩
def fEG_STAT_PEND : Fld := ⟨0, 16⟩
def EG_DELIV_CNT (i : Nat) : Nat := 0x28008 + i * 0x20
def fEG_DELIV_CNT_COUNT : Fld := ⟨0, 32⟩

def blkEG : BlockDesc := ⟨0x28000, 64, 0x20, 0, 0x0,
  [
  ⟨0x0, 1, 0x4, false, false, false, [⟨15, 0, .RWI, 0, .L2⟩]⟩,
  ⟨0x4, 1, 0x4, false, false, false, [⟨31, 16, .RO, 0, .L2⟩, ⟨15, 0, .RO, 0, .L2⟩]⟩,
  ⟨0x8, 1, 0x4, false, false, false, [⟨31, 0, .RO, 0, .L2⟩]⟩]⟩

/-! ### EC (R368, 13_events_and_journal.md) -/

def EC_EOI : Nat := 0x2C000
def fEC_EOI_SOURCE : Fld := ⟨0, 10⟩
def EC_SPURIOUS_EOI : Nat := 0x2C004
def fEC_SPURIOUS_EOI_COUNT : Fld := ⟨0, 32⟩
def EC_CFG_REFUSED : Nat := 0x2C008
def fEC_CFG_REFUSED_COUNT : Fld := ⟨0, 32⟩
def EC_SW_RAISE : Nat := 0x2C010
def fEC_SW_RAISE_SOURCE : Fld := ⟨0, 10⟩
def EC_SW_PAY (j : Nat) : Nat := 0x2C014 + j * 0x4
def fEC_SW_PAY_VALUE : Fld := ⟨0, 32⟩
def EC_NEXT (j : Nat) : Nat := 0x2C040 + j * 0x4
def fEC_NEXT_VALID : Fld := ⟨31, 1⟩
def fEC_NEXT_SOURCE : Fld := ⟨0, 10⟩
def EC_SNEXT (j : Nat) : Nat := 0x2C080 + j * 0x4
def fEC_SNEXT_VALID : Fld := ⟨31, 1⟩
def fEC_SNEXT_SOURCE : Fld := ⟨0, 10⟩
def EC_PEEK_SEL : Nat := 0x2C090
def fEC_PEEK_SEL_SOURCE : Fld := ⟨0, 10⟩
def EC_PEEK_PAY (j : Nat) : Nat := 0x2C094 + j * 0x4
def fEC_PEEK_PAY_VALUE : Fld := ⟨0, 32⟩
def EC_WAKE_EN : Nat := 0x2C100
def fEC_WAKE_EN_EN : Fld := ⟨0, 16⟩
def EC_WAKE_LATCH : Nat := 0x2C104
def fEC_WAKE_LATCH_LATCH : Fld := ⟨0, 16⟩
def EC_WAKE_POL : Nat := 0x2C108
def fEC_WAKE_POL_POL : Fld := ⟨0, 8⟩
def EC_WAKE_TIME_LO : Nat := 0x2C110
def fEC_WAKE_TIME_LO_VALUE : Fld := ⟨0, 32⟩
def EC_WAKE_TIME_HI : Nat := 0x2C114
def fEC_WAKE_TIME_HI_VALUE : Fld := ⟨0, 32⟩
def EC_WAKE_STAMP_LO (j : Nat) : Nat := 0x2C120 + j * 0x8
def fEC_WAKE_STAMP_LO_VALUE : Fld := ⟨0, 32⟩
def EC_WAKE_STAMP_HI (j : Nat) : Nat := 0x2C124 + j * 0x8
def fEC_WAKE_STAMP_HI_VALUE : Fld := ⟨0, 32⟩

def blkEC : BlockDesc := ⟨0x2C000, 1, 0x1A0, 0, 0x0,
  [
  ⟨0x0, 1, 0x4, false, false, false, [⟨9, 0, .WO, 0, .L2⟩]⟩,
  ⟨0x4, 1, 0x4, false, false, false, [⟨31, 0, .RO, 0, .L2⟩]⟩,
  ⟨0x8, 1, 0x4, false, false, false, [⟨31, 0, .RO, 0, .L2⟩]⟩,
  ⟨0x10, 1, 0x4, true, false, false, [⟨9, 0, .WO, 0, .L2⟩]⟩,
  ⟨0x14, 2, 0x4, false, false, false, [⟨31, 0, .RWI, 0, .L2⟩]⟩,
  ⟨0x40, 16, 0x4, false, false, false, [⟨31, 31, .RO, 0, .L2⟩, ⟨9, 0, .RO, 0, .L2⟩]⟩,
  ⟨0x80, 4, 0x4, false, false, false, [⟨31, 31, .RO, 0, .L2⟩, ⟨9, 0, .RO, 0, .L2⟩]⟩,
  ⟨0x90, 1, 0x4, false, false, false, [⟨9, 0, .RW, 0, .L2⟩]⟩,
  ⟨0x94, 2, 0x4, false, false, false, [⟨31, 0, .RO, 0, .L2⟩]⟩,
  ⟨0x100, 1, 0x4, false, false, false, [⟨15, 0, .RWI, 0, .POR⟩]⟩,
  ⟨0x104, 1, 0x4, false, false, false, [⟨15, 0, .W1C, 0, .POR⟩]⟩,
  ⟨0x108, 1, 0x4, false, false, false, [⟨7, 0, .RWI, 0, .POR⟩]⟩,
  ⟨0x110, 1, 0x4, false, false, false, [⟨31, 0, .RWI, 0, .POR⟩]⟩,
  ⟨0x114, 1, 0x4, false, false, false, [⟨31, 0, .RWI, 0, .POR⟩]⟩,
  ⟨0x120, 16, 0x8, false, false, false, [⟨31, 0, .RO, 0, .POR⟩]⟩,
  ⟨0x124, 16, 0x8, false, false, false, [⟨31, 0, .RO, 0, .POR⟩]⟩]⟩

/-! ### JN (R369, 13_events_and_journal.md) -/

def JN_CTRL : Nat := 0x30000
def fJN_CTRL_DRESTART : Fld := ⟨2, 1⟩
def fJN_CTRL_DKICK : Fld := ⟨1, 1⟩
def fJN_CTRL_DEN : Fld := ⟨0, 1⟩
def JN_STAT : Nat := 0x30004
def fJN_STAT_ILOST : Fld := ⟨4, 1⟩
def fJN_STAT_HFULL : Fld := ⟨3, 1⟩
def fJN_STAT_LOSS : Fld := ⟨2, 1⟩
def fJN_STAT_DBUSY : Fld := ⟨1, 1⟩
def fJN_STAT_DERR : Fld := ⟨0, 1⟩
def JN_WIDX : Nat := 0x30008
def fJN_WIDX_INDEX : Fld := ⟨0, 18⟩
def JN_DIDX : Nat := 0x3000C
def fJN_DIDX_INDEX : Fld := ⟨0, 18⟩
def JN_BACKLOG : Nat := 0x30010
def fJN_BACKLOG_COUNT : Fld := ⟨0, 19⟩
def JN_DRAIN_PER : Nat := 0x30014
def fJN_DRAIN_PER_TK : Fld := ⟨0, 32⟩
def JN_DRAIN_THR : Nat := 0x30018
def fJN_DRAIN_THR_COUNT : Fld := ⟨0, 19⟩
def JN_HBASE_LO : Nat := 0x30020
def fJN_HBASE_LO_ADDR : Fld := ⟨5, 27⟩
def JN_HBASE_HI : Nat := 0x30024
def fJN_HBASE_HI_ADDR : Fld := ⟨0, 32⟩
def JN_HSIZE : Nat := 0x30028
def fJN_HSIZE_LOG2 : Fld := ⟨0, 5⟩
def JN_HHEAD : Nat := 0x3002C
def fJN_HHEAD_INDEX : Fld := ⟨0, 24⟩
def JN_HTAIL : Nat := 0x30030
def fJN_HTAIL_INDEX : Fld := ⟨0, 24⟩
def JN_HWB_LO : Nat := 0x30038
def fJN_HWB_LO_ADDR : Fld := ⟨2, 30⟩
def JN_HWB_HI : Nat := 0x3003C
def fJN_HWB_HI_ADDR : Fld := ⟨0, 32⟩
def JN_OVERWRITE_CNT : Nat := 0x30040
def fJN_OVERWRITE_CNT_COUNT : Fld := ⟨0, 32⟩
def JN_INPUT_LOST : Nat := 0x30044
def fJN_INPUT_LOST_COUNT : Fld := ⟨0, 32⟩
def JN_POISON_CNT : Nat := 0x30048
def fJN_POISON_CNT_COUNT : Fld := ⟨0, 32⟩
def JN_DRAINED_CNT : Nat := 0x3004C
def fJN_DRAINED_CNT_COUNT : Fld := ⟨0, 32⟩
def JN_DERR_ADDR_LO : Nat := 0x30050
def fJN_DERR_ADDR_LO_ADDR : Fld := ⟨0, 32⟩
def JN_DERR_ADDR_HI : Nat := 0x30054
def fJN_DERR_ADDR_HI_ADDR : Fld := ⟨0, 32⟩
def JN_WBUF_MAX : Nat := 0x30058
def fJN_WBUF_MAX_LEVEL : Fld := ⟨0, 5⟩

def blkJN : BlockDesc := ⟨0x30000, 1, 0x5C, 0, 0x0,
  [
  ⟨0x0, 1, 0x4, false, false, false, [⟨2, 2, .WO, 0, .L2⟩, ⟨1, 1, .WO, 0, .L2⟩, ⟨0, 0, .RWI, 0, .L2⟩]⟩,
  ⟨0x4, 1, 0x4, false, false, false, [⟨4, 4, .W1C, 0, .L2⟩, ⟨3, 3, .RO, 0, .L2⟩, ⟨2, 2, .W1C, 0, .L2⟩, ⟨1, 1, .RO, 0, .L2⟩, ⟨0, 0, .W1C, 0, .L2⟩]⟩,
  ⟨0x8, 1, 0x4, false, false, false, [⟨17, 0, .RO, 0, .L3⟩]⟩,
  ⟨0xC, 1, 0x4, false, false, false, [⟨17, 0, .RO, 0, .L3⟩]⟩,
  ⟨0x10, 1, 0x4, false, false, false, [⟨18, 0, .RO, 0, .L3⟩]⟩,
  ⟨0x14, 1, 0x4, false, false, false, [⟨31, 0, .RWI, 0x28f5c29, .L3⟩]⟩,
  ⟨0x18, 1, 0x4, false, false, false, [⟨18, 0, .RWI, 0x10000, .L3⟩]⟩,
  ⟨0x20, 1, 0x4, false, false, false, [⟨31, 5, .RWI, 0, .L3⟩]⟩,
  ⟨0x24, 1, 0x4, false, false, false, [⟨31, 0, .RWI, 0, .L3⟩]⟩,
  ⟨0x28, 1, 0x4, false, false, false, [⟨4, 0, .RWI, 0xa, .L3⟩]⟩,
  ⟨0x2C, 1, 0x4, false, false, false, [⟨23, 0, .RO, 0, .L3⟩]⟩,
  ⟨0x30, 1, 0x4, false, false, false, [⟨23, 0, .RW, 0, .L3⟩]⟩,
  ⟨0x38, 1, 0x4, false, false, false, [⟨31, 2, .RWI, 0, .L3⟩]⟩,
  ⟨0x3C, 1, 0x4, false, false, false, [⟨31, 0, .RWI, 0, .L3⟩]⟩,
  ⟨0x40, 1, 0x4, false, false, false, [⟨31, 0, .RO, 0, .L3⟩]⟩,
  ⟨0x44, 1, 0x4, false, false, false, [⟨31, 0, .RO, 0, .L3⟩]⟩,
  ⟨0x48, 1, 0x4, false, false, false, [⟨31, 0, .RO, 0, .L3⟩]⟩,
  ⟨0x4C, 1, 0x4, false, false, false, [⟨31, 0, .RO, 0, .L3⟩]⟩,
  ⟨0x50, 1, 0x4, false, false, false, [⟨31, 0, .RO, 0, .L2⟩]⟩,
  ⟨0x54, 1, 0x4, false, false, false, [⟨31, 0, .RO, 0, .L2⟩]⟩,
  ⟨0x58, 1, 0x4, false, false, false, [⟨4, 0, .RW, 0, .L2⟩]⟩]⟩

/-! ### MB (R434, 16_mailbox_commands.md) -/

def MB_DOORBELL (i : Nat) : Nat := 0x40000 + i * 0x800
def fMB_DOORBELL_RING : Fld := ⟨0, 1⟩
def MB_STAT (i : Nat) : Nat := 0x40004 + i * 0x800
def fMB_STAT_LASTSEQ : Fld := ⟨16, 16⟩
def fMB_STAT_SEQV : Fld := ⟨4, 1⟩
def fMB_STAT_AUTH : Fld := ⟨2, 2⟩
def fMB_STAT_STATE : Fld := ⟨0, 2⟩
def MB_CFG (i : Nat) : Nat := 0x40008 + i * 0x800
def fMB_CFG_VALUE : Fld := ⟨0, 32⟩
def MB_CMD_CNT (i : Nat) : Nat := 0x40010 + i * 0x800
def fMB_CMD_CNT_COUNT : Fld := ⟨0, 32⟩
def MB_REJ_CNT (i : Nat) : Nat := 0x40014 + i * 0x800
def fMB_REJ_CNT_COUNT : Fld := ⟨0, 32⟩
def MB_DUP_CNT (i : Nat) : Nat := 0x40018 + i * 0x800
def fMB_DUP_CNT_COUNT : Fld := ⟨0, 32⟩
def MB_REQ (i j : Nat) : Nat := 0x40040 + i * 0x800 + j * 0x4
def fMB_REQ_DATA : Fld := ⟨0, 32⟩
def MB_RPL (i j : Nat) : Nat := 0x40400 + i * 0x800 + j * 0x4
def fMB_RPL_DATA : Fld := ⟨0, 32⟩

def blkMB : BlockDesc := ⟨0x40000, 32, 0x800, 0, 0x0,
  [
  ⟨0x0, 1, 0x4, false, false, false, [⟨0, 0, .WO, 0, .L2⟩]⟩,
  ⟨0x4, 1, 0x4, false, false, false, [⟨31, 16, .RO, 0, .L2⟩, ⟨4, 4, .RO, 0, .L2⟩, ⟨3, 2, .RO, 0, .L2⟩, ⟨1, 0, .RO, 0, .L2⟩]⟩,
  ⟨0x8, 1, 0x4, false, false, false, [⟨31, 0, .RWI, 0, .L2⟩]⟩,
  ⟨0x10, 1, 0x4, false, false, false, [⟨31, 0, .RO, 0, .L2⟩]⟩,
  ⟨0x14, 1, 0x4, false, false, false, [⟨31, 0, .RO, 0, .L2⟩]⟩,
  ⟨0x18, 1, 0x4, false, false, false, [⟨31, 0, .RO, 0, .L2⟩]⟩,
  ⟨0x40, 240, 0x4, false, false, false, [⟨31, 0, .RW, 0, .L2⟩]⟩,
  ⟨0x400, 256, 0x4, false, false, false, [⟨31, 0, .RO, 0, .L2⟩]⟩]⟩

/-! ### FL (R385, 14_flocks_and_register_views.md) -/

def FLK_CTRL (i : Nat) : Nat := 0x50000 + i * 0x400
def fFLK_CTRL_RESET : Fld := ⟨1, 1⟩
def fFLK_CTRL_EN : Fld := ⟨0, 1⟩
def FLK_STAT (i : Nat) : Nat := 0x50004 + i * 0x400
def fFLK_STAT_INC : Fld := ⟨16, 8⟩
def fFLK_STAT_WAITS : Fld := ⟨4, 3⟩
def fFLK_STAT_DENIED : Fld := ⟨2, 1⟩
def fFLK_STAT_RESETTING : Fld := ⟨1, 1⟩
def fFLK_STAT_CLEAN : Fld := ⟨0, 1⟩
def FLK_JFILT (i : Nat) : Nat := 0x50008 + i * 0x400
def fFLK_JFILT_CLASSES : Fld := ⟨0, 5⟩
def FLK_DENIED_CNT (i : Nat) : Nat := 0x50010 + i * 0x400
def fFLK_DENIED_CNT_COUNT : Fld := ⟨0, 32⟩
def FLK_STALE_CNT (i : Nat) : Nat := 0x50014 + i * 0x400
def fFLK_STALE_CNT_COUNT : Fld := ⟨0, 32⟩
def FLK_RESET_CNT (i : Nat) : Nat := 0x50018 + i * 0x400
def fFLK_RESET_CNT_COUNT : Fld := ⟨0, 32⟩
def FLK_RESET_REFUSED (i : Nat) : Nat := 0x5001C + i * 0x400
def fFLK_RESET_REFUSED_COUNT : Fld := ⟨0, 32⟩
def FLK_RESET_STAMP_LO (i : Nat) : Nat := 0x50020 + i * 0x400
def fFLK_RESET_STAMP_LO_VALUE : Fld := ⟨0, 32⟩
def FLK_RESET_STAMP_HI (i : Nat) : Nat := 0x50024 + i * 0x400
def fFLK_RESET_STAMP_HI_VALUE : Fld := ⟨0, 32⟩
def FLK_CLEAN_STAMP_LO (i : Nat) : Nat := 0x50028 + i * 0x400
def fFLK_CLEAN_STAMP_LO_VALUE : Fld := ⟨0, 32⟩
def FLK_CLEAN_STAMP_HI (i : Nat) : Nat := 0x5002C + i * 0x400
def fFLK_CLEAN_STAMP_HI_VALUE : Fld := ⟨0, 32⟩
def FLK_DENY_LAST (i : Nat) : Nat := 0x50030 + i * 0x400
def fFLK_DENY_LAST_CAUSE : Fld := ⟨28, 4⟩
def fFLK_DENY_LAST_OFFSET : Fld := ⟨0, 16⟩
def FLK_CMIR (i j : Nat) : Nat := 0x50100 + i * 0x400 + j * 0x4
def fFLK_CMIR_VALID : Fld := ⟨31, 1⟩
def fFLK_CMIR_KIND : Fld := ⟨28, 3⟩
def fFLK_CMIR_INDEX : Fld := ⟨22, 6⟩
def fFLK_CMIR_OFFSET : Fld := ⟨0, 13⟩
def FLK_QMIR (i j : Nat) : Nat := 0x50200 + i * 0x400 + j * 0x4
def fFLK_QMIR_VALID : Fld := ⟨31, 1⟩
def fFLK_QMIR_QUEUE : Fld := ⟨0, 12⟩

def blkFL : BlockDesc := ⟨0x50000, 16, 0x400, 0, 0x0,
  [
  ⟨0x0, 1, 0x4, false, false, false, [⟨1, 1, .WO, 0, .L2⟩, ⟨0, 0, .RWI, 0, .L2⟩]⟩,
  ⟨0x4, 1, 0x4, false, false, false, [⟨23, 16, .RO, 0, .L3⟩, ⟨6, 4, .RO, 0, .L2⟩, ⟨2, 2, .W1C, 0, .L2⟩, ⟨1, 1, .RO, 0, .L2⟩, ⟨0, 0, .RO, 1, .L2⟩]⟩,
  ⟨0x8, 1, 0x4, false, false, false, [⟨4, 0, .RWI, 0x1f, .L2⟩]⟩,
  ⟨0x10, 1, 0x4, false, false, false, [⟨31, 0, .RO, 0, .L2⟩]⟩,
  ⟨0x14, 1, 0x4, false, false, false, [⟨31, 0, .RO, 0, .L2⟩]⟩,
  ⟨0x18, 1, 0x4, false, false, false, [⟨31, 0, .RO, 0, .L2⟩]⟩,
  ⟨0x1C, 1, 0x4, false, false, false, [⟨31, 0, .RO, 0, .L2⟩]⟩,
  ⟨0x20, 1, 0x4, false, false, false, [⟨31, 0, .RO, 0, .L2⟩]⟩,
  ⟨0x24, 1, 0x4, false, false, false, [⟨31, 0, .RO, 0, .L2⟩]⟩,
  ⟨0x28, 1, 0x4, false, false, false, [⟨31, 0, .RO, 0, .L2⟩]⟩,
  ⟨0x2C, 1, 0x4, false, false, false, [⟨31, 0, .RO, 0, .L2⟩]⟩,
  ⟨0x30, 1, 0x4, false, false, false, [⟨31, 28, .RO, 0, .L2⟩, ⟨15, 0, .RO, 0, .L2⟩]⟩,
  ⟨0x100, 64, 0x4, false, false, false, [⟨31, 31, .RWI, 0, .L2⟩, ⟨30, 28, .RWI, 0, .L2⟩, ⟨27, 22, .RWI, 0, .L2⟩, ⟨12, 0, .RWI, 0, .L2⟩]⟩,
  ⟨0x200, 128, 0x4, false, false, false, [⟨31, 31, .RWI, 0, .L2⟩, ⟨11, 0, .RWI, 0, .L2⟩]⟩]⟩

/-! ### FLG (R386, 14_flocks_and_register_views.md) -/

def FLK_GCFG : Nat := 0x54000
def fFLK_GCFG_LOCK : Fld := ⟨31, 1⟩
def fFLK_GCFG_HPPW : Fld := ⟨16, 1⟩
def fFLK_GCFG_L0MASK : Fld := ⟨0, 16⟩
def FLK_PARTIAL_REJ : Nat := 0x54010
def fFLK_PARTIAL_REJ_COUNT : Fld := ⟨0, 32⟩
def FLK_UNALIGNED : Nat := 0x54014
def fFLK_UNALIGNED_COUNT : Fld := ⟨0, 32⟩
def FLK_HPP_IGNORED : Nat := 0x54018
def fFLK_HPP_IGNORED_COUNT : Fld := ⟨0, 32⟩
def FLK_HPP_MEMW : Nat := 0x5401C
def fFLK_HPP_MEMW_COUNT : Fld := ⟨0, 32⟩
def FLK_CFG_REFUSED : Nat := 0x54020
def fFLK_CFG_REFUSED_COUNT : Fld := ⟨0, 32⟩
def FLK_SPOWN (j : Nat) : Nat := 0x54040 + j * 0x4
def fFLK_SPOWN_OWNERS : Fld := ⟨0, 32⟩

def blkFLG : BlockDesc := ⟨0x54000, 1, 0x60, 0, 0x0,
  [
  ⟨0x0, 1, 0x4, false, false, false, [⟨31, 31, .W1S, 0, .L2⟩, ⟨16, 16, .RWL, 1, .L2⟩, ⟨15, 0, .RWL, 0, .L2⟩]⟩,
  ⟨0x10, 1, 0x4, false, false, false, [⟨31, 0, .RO, 0, .L2⟩]⟩,
  ⟨0x14, 1, 0x4, false, false, false, [⟨31, 0, .RO, 0, .L2⟩]⟩,
  ⟨0x18, 1, 0x4, false, false, false, [⟨31, 0, .RO, 0, .L2⟩]⟩,
  ⟨0x1C, 1, 0x4, false, false, false, [⟨31, 0, .RO, 0, .L2⟩]⟩,
  ⟨0x20, 1, 0x4, false, false, false, [⟨31, 0, .RO, 0, .L2⟩]⟩,
  ⟨0x40, 8, 0x4, false, false, false, [⟨31, 0, .RWI, 0, .L2⟩]⟩]⟩

/-! ### RS (R467, 18_reserve_and_service_life.md) -/

def RS_GSTAT : Nat := 0x60000
def fRS_GSTAT_IMGBAD : Fld := ⟨31, 1⟩
def fRS_GSTAT_HSEEN : Fld := ⟨2, 1⟩
def fRS_GSTAT_SCMIS : Fld := ⟨1, 1⟩
def fRS_GSTAT_DVBUSY : Fld := ⟨0, 1⟩
def RS_CFG_REFUSED : Nat := 0x60004
def fRS_CFG_REFUSED_COUNT : Fld := ⟨0, 32⟩
def RS_DV_CTRL : Nat := 0x60010
def fRS_DV_CTRL_GO : Fld := ⟨31, 1⟩
def fRS_DV_CTRL_CANCEL : Fld := ⟨30, 1⟩
def fRS_DV_CTRL_KIND : Fld := ⟨24, 3⟩
def fRS_DV_CTRL_DST : Fld := ⟨16, 7⟩
def fRS_DV_CTRL_SRC : Fld := ⟨0, 7⟩
def RS_DV_TIME_LO : Nat := 0x60014
def fRS_DV_TIME_LO_VALUE : Fld := ⟨0, 32⟩
def RS_DV_TIME_HI : Nat := 0x60018
def fRS_DV_TIME_HI_VALUE : Fld := ⟨0, 32⟩
def RS_DV_STAT : Nat := 0x6001C
def fRS_DV_STAT_PRELOADED : Fld := ⟨4, 1⟩
def fRS_DV_STAT_PHASE : Fld := ⟨0, 4⟩
def RS_DV_SWSTAMP_LO : Nat := 0x60020
def fRS_DV_SWSTAMP_LO_VALUE : Fld := ⟨0, 32⟩
def RS_DV_SWSTAMP_HI : Nat := 0x60024
def fRS_DV_SWSTAMP_HI_VALUE : Fld := ⟨0, 32⟩
def RS_DV_CNT : Nat := 0x60028
def fRS_DV_CNT_COUNT : Fld := ⟨0, 32⟩
def RS_DV_ABANDON : Nat := 0x6002C
def fRS_DV_ABANDON_COUNT : Fld := ⟨0, 32⟩
def RS_SC_CTRL : Nat := 0x60040
def fRS_SC_CTRL_EN : Fld := ⟨31, 1⟩
def fRS_SC_CTRL_SHADOW : Fld := ⟨16, 6⟩
def fRS_SC_CTRL_ACTIVE : Fld := ⟨0, 6⟩
def RS_SC_STAT : Nat := 0x60044
def fRS_SC_STAT_SYNCED : Fld := ⟨0, 1⟩
def RS_SC_MISMATCH : Nat := 0x60048
def fRS_SC_MISMATCH_COUNT : Fld := ⟨0, 32⟩
def RS_SC_STAMP_LO : Nat := 0x6004C
def fRS_SC_STAMP_LO_VALUE : Fld := ⟨0, 32⟩
def RS_SC_STAMP_HI : Nat := 0x60050
def fRS_SC_STAMP_HI_VALUE : Fld := ⟨0, 32⟩
def RS_RO_CTRL : Nat := 0x60060
def fRS_RO_CTRL_GO : Fld := ⟨31, 1⟩
def fRS_RO_CTRL_BUSY : Fld := ⟨8, 1⟩
def fRS_RO_CTRL_WIN : Fld := ⟨0, 8⟩
def RS_RO_STRESS (j : Nat) : Nat := 0x60080 + j * 0x8
def fRS_RO_STRESS_COUNT : Fld := ⟨0, 32⟩
def RS_RO_REF (j : Nat) : Nat := 0x60084 + j * 0x8
def fRS_RO_REF_COUNT : Fld := ⟨0, 32⟩
def RS_RCO : Nat := 0x600C0
def fRS_RCO_AFAIL : Fld := ⟨31, 1⟩
def fRS_RCO_SEL : Fld := ⟨0, 1⟩
def RS_RCO_A : Nat := 0x600C4
def fRS_RCO_A_COUNT : Fld := ⟨0, 16⟩
def RS_RCO_B : Nat := 0x600C8
def fRS_RCO_B_COUNT : Fld := ⟨0, 16⟩
def RS_HURDLE_E (j : Nat) : Nat := 0x60400 + j * 0x8
def fRS_HURDLE_E_FENCE : Fld := ⟨31, 1⟩
def fRS_HURDLE_E_TEST : Fld := ⟨30, 1⟩
def fRS_HURDLE_E_RET : Fld := ⟨29, 1⟩
def fRS_HURDLE_E_DVALID : Fld := ⟨24, 1⟩
def fRS_HURDLE_E_DINC : Fld := ⟨16, 8⟩
def RS_HURDLE_CNT_E (j : Nat) : Nat := 0x60404 + j * 0x8
def fRS_HURDLE_CNT_E_COUNT : Fld := ⟨0, 32⟩
def RS_HURDLE_W (j : Nat) : Nat := 0x60800 + j * 0x8
def fRS_HURDLE_W_FENCE : Fld := ⟨31, 1⟩
def fRS_HURDLE_W_TEST : Fld := ⟨30, 1⟩
def fRS_HURDLE_W_RET : Fld := ⟨29, 1⟩
def fRS_HURDLE_W_DVALID : Fld := ⟨24, 1⟩
def fRS_HURDLE_W_DINC : Fld := ⟨16, 8⟩
def RS_HURDLE_CNT_W (j : Nat) : Nat := 0x60804 + j * 0x8
def fRS_HURDLE_CNT_W_COUNT : Fld := ⟨0, 32⟩
def RS_HURDLE_T (j : Nat) : Nat := 0x60C00 + j * 0x8
def fRS_HURDLE_T_FENCE : Fld := ⟨31, 1⟩
def fRS_HURDLE_T_TEST : Fld := ⟨30, 1⟩
def fRS_HURDLE_T_RET : Fld := ⟨29, 1⟩
def fRS_HURDLE_T_DVALID : Fld := ⟨24, 1⟩
def fRS_HURDLE_T_DINC : Fld := ⟨16, 8⟩
def RS_HURDLE_CNT_T (j : Nat) : Nat := 0x60C04 + j * 0x8
def fRS_HURDLE_CNT_T_COUNT : Fld := ⟨0, 32⟩
def RS_HURDLE_F (j : Nat) : Nat := 0x61000 + j * 0x8
def fRS_HURDLE_F_FENCE : Fld := ⟨31, 1⟩
def fRS_HURDLE_F_TEST : Fld := ⟨30, 1⟩
def fRS_HURDLE_F_RET : Fld := ⟨29, 1⟩
def fRS_HURDLE_F_DVALID : Fld := ⟨24, 1⟩
def fRS_HURDLE_F_DINC : Fld := ⟨16, 8⟩
def RS_HURDLE_CNT_F (j : Nat) : Nat := 0x61004 + j * 0x8
def fRS_HURDLE_CNT_F_COUNT : Fld := ⟨0, 32⟩
def RS_HURDLE_C (j : Nat) : Nat := 0x61400 + j * 0x8
def fRS_HURDLE_C_FENCE : Fld := ⟨31, 1⟩
def fRS_HURDLE_C_TEST : Fld := ⟨30, 1⟩
def fRS_HURDLE_C_RET : Fld := ⟨29, 1⟩
def fRS_HURDLE_C_DVALID : Fld := ⟨24, 1⟩
def fRS_HURDLE_C_DINC : Fld := ⟨16, 8⟩
def RS_HURDLE_CNT_C (j : Nat) : Nat := 0x61404 + j * 0x8
def fRS_HURDLE_CNT_C_COUNT : Fld := ⟨0, 32⟩

def blkRS : BlockDesc := ⟨0x60000, 1, 0x1520, 0, 0x0,
  [
  ⟨0x0, 1, 0x4, false, false, false, [⟨31, 31, .W1C, 0, .L2⟩, ⟨2, 2, .W1C, 0, .L2⟩, ⟨1, 1, .W1C, 0, .L2⟩, ⟨0, 0, .RO, 0, .L2⟩]⟩,
  ⟨0x4, 1, 0x4, false, false, false, [⟨31, 0, .RO, 0, .L2⟩]⟩,
  ⟨0x10, 1, 0x4, false, false, false, [⟨31, 31, .WO, 0, .L2⟩, ⟨30, 30, .WO, 0, .L2⟩, ⟨26, 24, .RWI, 0, .L2⟩, ⟨22, 16, .RWI, 0, .L2⟩, ⟨6, 0, .RWI, 0, .L2⟩]⟩,
  ⟨0x14, 1, 0x4, false, false, false, [⟨31, 0, .RWI, 0, .L2⟩]⟩,
  ⟨0x18, 1, 0x4, false, false, false, [⟨31, 0, .RWI, 0, .L2⟩]⟩,
  ⟨0x1C, 1, 0x4, false, false, false, [⟨4, 4, .RO, 0, .L2⟩, ⟨3, 0, .RO, 0, .L2⟩]⟩,
  ⟨0x20, 1, 0x4, false, false, false, [⟨31, 0, .RO, 0, .L2⟩]⟩,
  ⟨0x24, 1, 0x4, false, false, false, [⟨31, 0, .RO, 0, .L2⟩]⟩,
  ⟨0x28, 1, 0x4, false, false, false, [⟨31, 0, .RO, 0, .L2⟩]⟩,
  ⟨0x2C, 1, 0x4, false, false, false, [⟨31, 0, .RO, 0, .L2⟩]⟩,
  ⟨0x40, 1, 0x4, false, false, false, [⟨31, 31, .RWI, 0, .L2⟩, ⟨21, 16, .RWI, 0, .L2⟩, ⟨5, 0, .RWI, 0, .L2⟩]⟩,
  ⟨0x44, 1, 0x4, false, false, false, [⟨0, 0, .RO, 0, .L2⟩]⟩,
  ⟨0x48, 1, 0x4, false, false, false, [⟨31, 0, .RO, 0, .L2⟩]⟩,
  ⟨0x4C, 1, 0x4, false, false, false, [⟨31, 0, .RO, 0, .L2⟩]⟩,
  ⟨0x50, 1, 0x4, false, false, false, [⟨31, 0, .RO, 0, .L2⟩]⟩,
  ⟨0x60, 1, 0x4, false, false, false, [⟨31, 31, .WO, 0, .L2⟩, ⟨8, 8, .RO, 0, .L2⟩, ⟨7, 0, .RWI, 0x20, .L2⟩]⟩,
  ⟨0x80, 8, 0x8, false, false, false, [⟨31, 0, .RO, 0, .L2⟩]⟩,
  ⟨0x84, 8, 0x8, false, false, false, [⟨31, 0, .RO, 0, .L2⟩]⟩,
  ⟨0xC0, 1, 0x4, false, false, false, [⟨31, 31, .RWI, 0, .POR⟩, ⟨0, 0, .RO, 0, .POR⟩]⟩,
  ⟨0xC4, 1, 0x4, false, false, false, [⟨15, 0, .RO, 0, .L2⟩]⟩,
  ⟨0xC8, 1, 0x4, false, false, false, [⟨15, 0, .RO, 0, .L2⟩]⟩,
  ⟨0x400, 72, 0x8, false, false, false, [⟨31, 31, .RWI, 0, .L3⟩, ⟨30, 30, .RWI, 0, .L3⟩, ⟨29, 29, .RWI, 0, .L3⟩, ⟨24, 24, .RWI, 0, .L3⟩, ⟨23, 16, .RWI, 0, .L3⟩]⟩,
  ⟨0x404, 72, 0x8, false, false, false, [⟨31, 0, .RO, 0, .L2⟩]⟩,
  ⟨0x800, 52, 0x8, false, false, false, [⟨31, 31, .RWI, 0, .L3⟩, ⟨30, 30, .RWI, 0, .L3⟩, ⟨29, 29, .RWI, 0, .L3⟩, ⟨24, 24, .RWI, 0, .L3⟩, ⟨23, 16, .RWI, 0, .L3⟩]⟩,
  ⟨0x804, 52, 0x8, false, false, false, [⟨31, 0, .RO, 0, .L2⟩]⟩,
  ⟨0xC00, 36, 0x8, false, false, false, [⟨31, 31, .RWI, 0, .L3⟩, ⟨30, 30, .RWI, 0, .L3⟩, ⟨29, 29, .RWI, 0, .L3⟩, ⟨24, 24, .RWI, 0, .L3⟩, ⟨23, 16, .RWI, 0, .L3⟩]⟩,
  ⟨0xC04, 36, 0x8, false, false, false, [⟨31, 0, .RO, 0, .L2⟩]⟩,
  ⟨0x1000, 10, 0x8, false, false, false, [⟨31, 31, .RWI, 0, .L3⟩, ⟨30, 30, .RWI, 0, .L3⟩, ⟨29, 29, .RWI, 0, .L3⟩, ⟨24, 24, .RWI, 0, .L3⟩, ⟨23, 16, .RWI, 0, .L3⟩]⟩,
  ⟨0x1004, 10, 0x8, false, false, false, [⟨31, 0, .RO, 0, .L2⟩]⟩,
  ⟨0x1400, 36, 0x8, false, false, false, [⟨31, 31, .RWI, 0, .L3⟩, ⟨30, 30, .RWI, 0, .L3⟩, ⟨29, 29, .RWI, 0, .L3⟩, ⟨24, 24, .RWI, 0, .L3⟩, ⟨23, 16, .RWI, 0, .L3⟩]⟩,
  ⟨0x1404, 36, 0x8, false, false, false, [⟨31, 0, .RO, 0, .L2⟩]⟩]⟩

/-! ### MIG (R450, 17_memory_integrity.md) -/

def MI_GSUM : Nat := 0x70000
def fMI_GSUM_IMGBAD : Fld := ⟨31, 1⟩
def fMI_GSUM_CE : Fld := ⟨16, 10⟩
def fMI_GSUM_UE : Fld := ⟨0, 10⟩
def MI_CFG_REFUSED : Nat := 0x70004
def fMI_CFG_REFUSED_COUNT : Fld := ⟨0, 32⟩
def MI_FOLD_SEQ : Nat := 0x70008
def fMI_FOLD_SEQ_VALUE : Fld := ⟨0, 32⟩

def blkMIG : BlockDesc := ⟨0x70000, 1, 0xC, 0, 0x0,
  [
  ⟨0x0, 1, 0x4, false, false, false, [⟨31, 31, .W1C, 0, .L2⟩, ⟨25, 16, .RO, 0, .L2⟩, ⟨9, 0, .RO, 0, .L2⟩]⟩,
  ⟨0x4, 1, 0x4, false, false, false, [⟨31, 0, .RO, 0, .L2⟩]⟩,
  ⟨0x8, 1, 0x4, false, false, false, [⟨31, 0, .RWI, 0, .L3⟩]⟩]⟩

/-! ### MI (R449, 17_memory_integrity.md) -/

def MI_GCFG (i : Nat) : Nat := 0x71000 + i * 0x100
def fMI_GCFG_ROWTHR : Fld := ⟨24, 8⟩
def fMI_GCFG_SCRUBEN : Fld := ⟨16, 1⟩
def fMI_GCFG_SPACE : Fld := ⟨0, 16⟩
def MI_GSTAT (i : Nat) : Nat := 0x71004 + i * 0x100
def fMI_GSTAT_SWEEP : Fld := ⟨3, 1⟩
def fMI_GSTAT_UE : Fld := ⟨2, 1⟩
def fMI_GSTAT_CE : Fld := ⟨1, 1⟩
def fMI_GSTAT_ROWLIM : Fld := ⟨0, 1⟩
def MI_GCTL (i : Nat) : Nat := 0x71008 + i * 0x100
def fMI_GCTL_CLRLOG : Fld := ⟨0, 1⟩
def MI_CE_CNT (i : Nat) : Nat := 0x7100C + i * 0x100
def fMI_CE_CNT_COUNT : Fld := ⟨0, 32⟩
def MI_UE_CNT (i : Nat) : Nat := 0x71010 + i * 0x100
def fMI_UE_CNT_COUNT : Fld := ⟨0, 32⟩
def MI_LAST (i : Nat) : Nat := 0x71014 + i * 0x100
def fMI_LAST_UE : Fld := ⟨31, 1⟩
def fMI_LAST_INST : Fld := ⟨24, 7⟩
def fMI_LAST_MACRO : Fld := ⟨17, 7⟩
def fMI_LAST_WORD : Fld := ⟨0, 14⟩
def MI_LAST_SYN (i : Nat) : Nat := 0x71018 + i * 0x100
def fMI_LAST_SYN_SYN : Fld := ⟨0, 7⟩
def MI_LAST_STAMP_LO (i : Nat) : Nat := 0x7101C + i * 0x100
def fMI_LAST_STAMP_LO_VALUE : Fld := ⟨0, 32⟩
def MI_LAST_STAMP_HI (i : Nat) : Nat := 0x71020 + i * 0x100
def fMI_LAST_STAMP_HI_VALUE : Fld := ⟨0, 32⟩
def MI_ROWLOG (i j : Nat) : Nat := 0x71030 + i * 0x100 + j * 0x4
def fMI_ROWLOG_VALID : Fld := ⟨31, 1⟩
def fMI_ROWLOG_INST : Fld := ⟨24, 7⟩
def fMI_ROWLOG_MACRO : Fld := ⟨17, 7⟩
def fMI_ROWLOG_ROW : Fld := ⟨8, 8⟩
def fMI_ROWLOG_COUNT : Fld := ⟨0, 8⟩
def MI_REMAP (i j : Nat) : Nat := 0x71040 + i * 0x100 + j * 0x4
def fMI_REMAP_EN : Fld := ⟨31, 1⟩
def fMI_REMAP_INST : Fld := ⟨24, 7⟩
def fMI_REMAP_MACRO : Fld := ⟨17, 7⟩
def fMI_REMAP_ROW : Fld := ⟨8, 8⟩
def fMI_REMAP_SPARE : Fld := ⟨0, 2⟩
def MI_REMAP_STAT (i : Nat) : Nat := 0x71060 + i * 0x100
def fMI_REMAP_STAT_BUSY : Fld := ⟨0, 1⟩
def MI_SWEEP (i : Nat) : Nat := 0x71064 + i * 0x100
def fMI_SWEEP_GO : Fld := ⟨31, 1⟩
def fMI_SWEEP_INST : Fld := ⟨0, 7⟩

def blkMI : BlockDesc := ⟨0x71000, 10, 0x100, 0, 0x0,
  [
  ⟨0x0, 1, 0x4, false, false, false, [⟨31, 24, .RWI, 3, .L3⟩, ⟨16, 16, .RWI, 1, .L2⟩, ⟨15, 0, .RWI, 0x40, .L2⟩]⟩,
  ⟨0x4, 1, 0x4, false, false, false, [⟨3, 3, .RO, 1, .L3⟩, ⟨2, 2, .W1C, 0, .L2⟩, ⟨1, 1, .W1C, 0, .L2⟩, ⟨0, 0, .W1C, 0, .L2⟩]⟩,
  ⟨0x8, 1, 0x4, false, false, false, [⟨0, 0, .WO, 0, .L2⟩]⟩,
  ⟨0xC, 1, 0x4, false, false, false, [⟨31, 0, .RO, 0, .L2⟩]⟩,
  ⟨0x10, 1, 0x4, false, false, false, [⟨31, 0, .RO, 0, .L2⟩]⟩,
  ⟨0x14, 1, 0x4, false, false, false, [⟨31, 31, .RO, 0, .L2⟩, ⟨30, 24, .RO, 0, .L2⟩, ⟨23, 17, .RO, 0, .L2⟩, ⟨13, 0, .RO, 0, .L2⟩]⟩,
  ⟨0x18, 1, 0x4, false, false, false, [⟨6, 0, .RO, 0, .L2⟩]⟩,
  ⟨0x1C, 1, 0x4, false, false, false, [⟨31, 0, .RO, 0, .L2⟩]⟩,
  ⟨0x20, 1, 0x4, false, false, false, [⟨31, 0, .RO, 0, .L2⟩]⟩,
  ⟨0x30, 4, 0x4, false, false, false, [⟨31, 31, .RO, 0, .L2⟩, ⟨30, 24, .RO, 0, .L2⟩, ⟨23, 17, .RO, 0, .L2⟩, ⟨15, 8, .RO, 0, .L2⟩, ⟨7, 0, .RO, 0, .L2⟩]⟩,
  ⟨0x40, 8, 0x4, false, false, false, [⟨31, 31, .RWI, 0, .L3⟩, ⟨30, 24, .RWI, 0, .L3⟩, ⟨23, 17, .RWI, 0, .L3⟩, ⟨15, 8, .RWI, 0, .L3⟩, ⟨1, 0, .RWI, 0, .L3⟩]⟩,
  ⟨0x60, 1, 0x4, false, false, false, [⟨0, 0, .RO, 0, .L2⟩]⟩,
  ⟨0x64, 1, 0x4, false, false, false, [⟨31, 31, .WO, 0, .L2⟩, ⟨6, 0, .RWI, 0, .L2⟩]⟩]⟩

/-! ### DB (R514, 20_debug.md) -/

def DB_STAT : Nat := 0x80000
def fDB_STAT_MODE : Fld := ⟨16, 2⟩
def fDB_STAT_IFACE : Fld := ⟨8, 2⟩
def fDB_STAT_TLOST : Fld := ⟨6, 1⟩
def fDB_STAT_LOCKOUT : Fld := ⟨5, 1⟩
def fDB_STAT_FROZEN : Fld := ⟨4, 1⟩
def fDB_STAT_BHALT : Fld := ⟨3, 1⟩
def fDB_STAT_LEVEL : Fld := ⟨0, 2⟩
def DB_CTRL : Nat := 0x80004
def fDB_CTRL_FRZONHALT : Fld := ⟨1, 1⟩
def fDB_CTRL_ATTACH : Fld := ⟨0, 1⟩
def DB_POLICY : Nat := 0x80008
def fDB_POLICY_EMU : Fld := ⟨5, 1⟩
def fDB_POLICY_BLKHALT : Fld := ⟨4, 1⟩
def fDB_POLICY_OUTERHALT : Fld := ⟨3, 1⟩
def fDB_POLICY_SEV : Fld := ⟨2, 1⟩
def fDB_POLICY_EBRK : Fld := ⟨0, 2⟩
def DB_ECMD : Nat := 0x80010
def fDB_ECMD_OP : Fld := ⟨30, 2⟩
def fDB_ECMD_PE : Fld := ⟨0, 7⟩
def DB_EHALTED (j : Nat) : Nat := 0x80014 + j * 0x4
def fDB_EHALTED_MASK : Fld := ⟨0, 32⟩
def DB_FREEZE : Nat := 0x80020
def fDB_FREEZE_FLOCKS : Fld := ⟨16, 16⟩
def fDB_FREEZE_REQ : Fld := ⟨8, 1⟩
def fDB_FREEZE_KIND : Fld := ⟨0, 3⟩
def DB_BHALT : Nat := 0x80024
def fDB_BHALT_HOLDREL : Fld := ⟨1, 1⟩
def fDB_BHALT_REQ : Fld := ⟨0, 1⟩
def DB_EMU : Nat := 0x80028
def fDB_EMU_STATE : Fld := ⟨0, 2⟩
def DB_UID_LO : Nat := 0x80030
def fDB_UID_LO_UID : Fld := ⟨0, 32⟩
def DB_UID_HI : Nat := 0x80034
def fDB_UID_HI_UID : Fld := ⟨0, 32⟩
def DB_UNLOCK_FAIL : Nat := 0x80038
def fDB_UNLOCK_FAIL_COUNT : Fld := ⟨0, 32⟩
def DB_REFUSED : Nat := 0x8003C
def fDB_REFUSED_COUNT : Fld := ⟨0, 32⟩
def DB_SHEV_IGN : Nat := 0x80040
def fDB_SHEV_IGN_COUNT : Fld := ⟨0, 32⟩
def DB_TRACE_EN (j : Nat) : Nat := 0x80100 + j * 0x4
def fDB_TRACE_EN_EN : Fld := ⟨0, 32⟩
def DB_TRACE_WIDX : Nat := 0x80110
def fDB_TRACE_WIDX_INDEX : Fld := ⟨0, 10⟩
def DB_TRACE_LOST : Nat := 0x80114
def fDB_TRACE_LOST_COUNT : Fld := ⟨0, 32⟩
def DB_TRACE_RIDX : Nat := 0x80118
def fDB_TRACE_RIDX_INDEX : Fld := ⟨0, 10⟩
def DB_TRACE_DATA (j : Nat) : Nat := 0x80120 + j * 0x4
def fDB_TRACE_DATA_DATA : Fld := ⟨0, 32⟩

def blkDB : BlockDesc := ⟨0x80000, 1, 0x130, 0, 0x0,
  [
  ⟨0x0, 1, 0x4, false, false, false, [⟨17, 16, .RO, 0, .L3⟩, ⟨9, 8, .RO, 0, .POR⟩, ⟨6, 6, .W1C, 0, .L2⟩, ⟨5, 5, .RO, 0, .POR⟩, ⟨4, 4, .RO, 0, .L2⟩, ⟨3, 3, .RO, 0, .L2⟩, ⟨1, 0, .RO, 2, .POR⟩]⟩,
  ⟨0x4, 1, 0x4, false, false, true, [⟨1, 1, .RW, 0, .POR⟩, ⟨0, 0, .RW, 0, .POR⟩]⟩,
  ⟨0x8, 1, 0x4, false, false, false, [⟨5, 5, .RWI, 1, .L2⟩, ⟨4, 4, .RWI, 0, .L2⟩, ⟨3, 3, .RWI, 0, .L2⟩, ⟨2, 2, .RWI, 0, .L2⟩, ⟨1, 0, .RWI, 0, .L2⟩]⟩,
  ⟨0x10, 1, 0x4, false, false, true, [⟨31, 30, .WO, 0, .L2⟩, ⟨6, 0, .WO, 0, .L2⟩]⟩,
  ⟨0x14, 3, 0x4, false, false, false, [⟨31, 0, .RO, 0, .L2⟩]⟩,
  ⟨0x20, 1, 0x4, false, false, true, [⟨31, 16, .RW, 0, .L2⟩, ⟨8, 8, .RW, 0, .L2⟩, ⟨2, 0, .RW, 0, .L2⟩]⟩,
  ⟨0x24, 1, 0x4, false, false, true, [⟨1, 1, .WO, 0, .L2⟩, ⟨0, 0, .RW, 0, .L2⟩]⟩,
  ⟨0x28, 1, 0x4, false, false, false, [⟨1, 0, .RO, 0, .L2⟩]⟩,
  ⟨0x30, 1, 0x4, false, false, false, [⟨31, 0, .RO, 0, .L3⟩]⟩,
  ⟨0x34, 1, 0x4, false, false, false, [⟨31, 0, .RO, 0, .L3⟩]⟩,
  ⟨0x38, 1, 0x4, false, false, false, [⟨31, 0, .RO, 0, .POR⟩]⟩,
  ⟨0x3C, 1, 0x4, false, false, false, [⟨31, 0, .RO, 0, .L2⟩]⟩,
  ⟨0x40, 1, 0x4, false, false, false, [⟨31, 0, .RO, 0, .L2⟩]⟩,
  ⟨0x100, 3, 0x4, false, false, true, [⟨31, 0, .RW, 0, .L2⟩]⟩,
  ⟨0x110, 1, 0x4, false, false, false, [⟨9, 0, .RO, 0, .L2⟩]⟩,
  ⟨0x114, 1, 0x4, false, false, false, [⟨31, 0, .RO, 0, .L2⟩]⟩,
  ⟨0x118, 1, 0x4, false, false, true, [⟨9, 0, .RW, 0, .L2⟩]⟩,
  ⟨0x120, 4, 0x4, false, false, false, [⟨31, 0, .RO, 0, .L2⟩]⟩]⟩

/-! ### SH (R414, 15_shepherd_core.md) -/

def SH_CTRL : Nat := 0x90000
def fSH_CTRL_LOCK : Fld := ⟨31, 1⟩
def fSH_CTRL_LBINV : Fld := ⟨4, 1⟩
def fSH_CTRL_BTBINV : Fld := ⟨3, 1⟩
def fSH_CTRL_OENA : Fld := ⟨1, 1⟩
def fSH_CTRL_MPUEN_I : Fld := ⟨0, 1⟩
def SH_STAT : Nat := 0x90004
def fSH_STAT_MDEN : Fld := ⟨8, 1⟩
def fSH_STAT_BANK : Fld := ⟨5, 2⟩
def fSH_STAT_WORLD : Fld := ⟨4, 1⟩
def fSH_STAT_LEVEL : Fld := ⟨3, 1⟩
def fSH_STAT_SLEEP : Fld := ⟨2, 1⟩
def fSH_STAT_ATOM : Fld := ⟨0, 1⟩
def SH_EDTB_I : Nat := 0x90010
def fSH_EDTB_I_BASE : Fld := ⟨12, 8⟩
def SH_EDTB_O : Nat := 0x90014
def fSH_EDTB_O_BASE : Fld := ⟨12, 8⟩
def SH_LVLW : Nat := 0x90018
def fSH_LVLW_WORLD : Fld := ⟨0, 4⟩
def SH_OBUDGET : Nat := 0x9001C
def fSH_OBUDGET_MAX : Fld := ⟨0, 11⟩
def SH_XGATE : Nat := 0x90020
def fSH_XGATE_EN : Fld := ⟨0, 16⟩
def SH_FLASH_BASE : Nat := 0x90024
def fSH_FLASH_BASE_BASE : Fld := ⟨5, 27⟩
def SH_WIN0 : Nat := 0x90030
def fSH_WIN0_TGT : Fld := ⟨31, 1⟩
def fSH_WIN0_BASE : Fld := ⟨0, 26⟩
def SH_WIN1 : Nat := 0x90034
def fSH_WIN1_TGT : Fld := ⟨31, 1⟩
def fSH_WIN1_BASE : Fld := ⟨0, 26⟩
def SH_LAST_CAUSE : Nat := 0x90040
def fSH_LAST_CAUSE_CAUSE : Fld := ⟨0, 8⟩
def SH_LAST_PC : Nat := 0x90044
def fSH_LAST_PC_VALUE : Fld := ⟨0, 24⟩
def SH_LAST_ADDR : Nat := 0x90048
def fSH_LAST_ADDR_VALUE : Fld := ⟨0, 24⟩
def SH_FAULT_CNT : Nat := 0x90060
def fSH_FAULT_CNT_COUNT : Fld := ⟨0, 32⟩
def SH_DF_CNT : Nat := 0x90064
def fSH_DF_CNT_COUNT : Fld := ⟨0, 32⟩
def SH_LSE_CNT : Nat := 0x90068
def fSH_LSE_CNT_COUNT : Fld := ⟨0, 32⟩
def SH_MPU_DENY_CNT : Nat := 0x9006C
def fSH_MPU_DENY_CNT_COUNT : Fld := ⟨0, 32⟩
def SH_LB_PERR : Nat := 0x90070
def fSH_LB_PERR_COUNT : Fld := ⟨0, 32⟩
def SH_BTB_PERR : Nat := 0x90074
def fSH_BTB_PERR_COUNT : Fld := ⟨0, 32⟩
def SH_CFG_REFUSED : Nat := 0x90078
def fSH_CFG_REFUSED_COUNT : Fld := ⟨0, 32⟩
def SH_LSE_ADDR_LO : Nat := 0x90080
def fSH_LSE_ADDR_LO_ADDR : Fld := ⟨0, 32⟩
def SH_LSE_ADDR_HI : Nat := 0x90084
def fSH_LSE_ADDR_HI_ADDR : Fld := ⟨0, 32⟩
def SH_LSE_STAMP_LO : Nat := 0x90088
def fSH_LSE_STAMP_LO_VALUE : Fld := ⟨0, 32⟩
def SH_LSE_STAMP_HI : Nat := 0x9008C
def fSH_LSE_STAMP_HI_VALUE : Fld := ⟨0, 32⟩
def SH_TFLT : Nat := 0x90090
def fSH_TFLT_VALID : Fld := ⟨31, 1⟩
def fSH_TFLT_CAUSE : Fld := ⟨0, 8⟩
def SH_TFLT_PC : Nat := 0x90094
def fSH_TFLT_PC_PC : Fld := ⟨0, 24⟩
def SH_WDG_CTRL : Nat := 0x900A0
def fSH_WDG_CTRL_LOCK : Fld := ⟨31, 1⟩
def fSH_WDG_CTRL_WARNV : Fld := ⟨16, 1⟩
def fSH_WDG_CTRL_EN : Fld := ⟨0, 1⟩
def SH_WDG_TIME : Nat := 0x900A4
def fSH_WDG_TIME_TIMEOUT : Fld := ⟨16, 16⟩
def fSH_WDG_TIME_WARN : Fld := ⟨0, 16⟩
def SH_WDG_KICK : Nat := 0x900A8
def fSH_WDG_KICK_KEY : Fld := ⟨0, 8⟩
def SH_WDG_CNT : Nat := 0x900AC
def fSH_WDG_CNT_COUNT : Fld := ⟨0, 16⟩
def SH_WDG_KICKERR : Nat := 0x900B0
def fSH_WDG_KICKERR_COUNT : Fld := ⟨0, 32⟩
def SH_PU (j : Nat) : Nat := 0x90100 + j * 0x8
def fSH_PU_EN : Fld := ⟨31, 1⟩
def fSH_PU_MODE : Fld := ⟨28, 2⟩
def fSH_PU_ADDR : Fld := ⟨0, 24⟩
def SH_PU_X (j : Nat) : Nat := 0x90104 + j * 0x8
def fSH_PU_X_LOCK : Fld := ⟨31, 1⟩
def fSH_PU_X_PWORD : Fld := ⟨0, 7⟩
def SH_DW_LO (j : Nat) : Nat := 0x90200 + j * 0x20
def fSH_DW_LO_ADDR : Fld := ⟨0, 24⟩
def SH_DW_HI (j : Nat) : Nat := 0x90204 + j * 0x20
def fSH_DW_HI_ADDR : Fld := ⟨0, 24⟩
def SH_DW_DATA (j : Nat) : Nat := 0x90208 + j * 0x20
def fSH_DW_DATA_VALUE : Fld := ⟨0, 32⟩
def SH_DW_MASK (j : Nat) : Nat := 0x9020C + j * 0x20
def fSH_DW_MASK_VALUE : Fld := ⟨0, 32⟩
def SH_DW_CFG (j : Nat) : Nat := 0x90210 + j * 0x20
def fSH_DW_CFG_CTX : Fld := ⟨8, 4⟩
def fSH_DW_CFG_DMATCH : Fld := ⟨4, 1⟩
def fSH_DW_CFG_ACT : Fld := ⟨2, 2⟩
def fSH_DW_CFG_W : Fld := ⟨1, 1⟩
def fSH_DW_CFG_R : Fld := ⟨0, 1⟩
def SH_DW_CNT (j : Nat) : Nat := 0x90214 + j * 0x20
def fSH_DW_CNT_COUNT : Fld := ⟨0, 32⟩
def SH_MPU_O0 (j : Nat) : Nat := 0x90400 + j * 0x10
def fSH_MPU_O0_BASE : Fld := ⟨5, 19⟩
def SH_MPU_O1 (j : Nat) : Nat := 0x90404 + j * 0x10
def fSH_MPU_O1_LIMIT : Fld := ⟨5, 19⟩
def SH_MPU_O2 (j : Nat) : Nat := 0x90408 + j * 0x10
def fSH_MPU_O2_PERM : Fld := ⟨0, 8⟩
def SH_MPU_O3 (j : Nat) : Nat := 0x9040C + j * 0x10
def fSH_MPU_O3_DENY : Fld := ⟨0, 16⟩
def SH_MPU_I0 (j : Nat) : Nat := 0x90500 + j * 0x10
def fSH_MPU_I0_BASE : Fld := ⟨5, 19⟩
def SH_MPU_I1 (j : Nat) : Nat := 0x90504 + j * 0x10
def fSH_MPU_I1_LIMIT : Fld := ⟨5, 19⟩
def SH_MPU_I2 (j : Nat) : Nat := 0x90508 + j * 0x10
def fSH_MPU_I2_PERM : Fld := ⟨0, 8⟩
def SH_MPU_I3 (j : Nat) : Nat := 0x9050C + j * 0x10
def fSH_MPU_I3_DENY : Fld := ⟨0, 16⟩

def blkSH : BlockDesc := ⟨0x90000, 1, 0x600, 0, 0x0,
  [
  ⟨0x0, 1, 0x4, false, false, false, [⟨31, 31, .W1S, 0, .L2⟩, ⟨4, 4, .WO, 0, .L2⟩, ⟨3, 3, .WO, 0, .L2⟩, ⟨1, 1, .RWL, 0, .L2⟩, ⟨0, 0, .RWL, 0, .L2⟩]⟩,
  ⟨0x4, 1, 0x4, false, false, false, [⟨8, 8, .W1C, 0, .L2⟩, ⟨6, 5, .RO, 0, .L2⟩, ⟨4, 4, .RO, 0, .L2⟩, ⟨3, 3, .RO, 1, .L2⟩, ⟨2, 2, .RO, 0, .L2⟩, ⟨0, 0, .RO, 0, .L2⟩]⟩,
  ⟨0x10, 1, 0x4, false, false, false, [⟨19, 12, .RWI, 0, .L2⟩]⟩,
  ⟨0x14, 1, 0x4, false, false, false, [⟨19, 12, .RWI, 0, .L2⟩]⟩,
  ⟨0x18, 1, 0x4, false, false, false, [⟨3, 0, .RWI, 0, .L2⟩]⟩,
  ⟨0x1C, 1, 0x4, false, false, false, [⟨10, 0, .RWI, 0x400, .L2⟩]⟩,
  ⟨0x20, 1, 0x4, false, false, false, [⟨15, 0, .RWI, 0, .L2⟩]⟩,
  ⟨0x24, 1, 0x4, false, false, false, [⟨31, 5, .RWI, 0, .L3⟩]⟩,
  ⟨0x30, 1, 0x4, false, false, false, [⟨31, 31, .RWI, 0, .L2⟩, ⟨25, 0, .RWI, 0, .L2⟩]⟩,
  ⟨0x34, 1, 0x4, false, false, false, [⟨31, 31, .RWI, 0, .L2⟩, ⟨25, 0, .RWI, 1, .L2⟩]⟩,
  ⟨0x40, 1, 0x4, false, false, false, [⟨7, 0, .RO, 0, .L2⟩]⟩,
  ⟨0x44, 1, 0x4, false, false, false, [⟨23, 0, .RO, 0, .L2⟩]⟩,
  ⟨0x48, 1, 0x4, false, false, false, [⟨23, 0, .RO, 0, .L2⟩]⟩,
  ⟨0x60, 1, 0x4, false, false, false, [⟨31, 0, .RO, 0, .L2⟩]⟩,
  ⟨0x64, 1, 0x4, false, false, false, [⟨31, 0, .RO, 0, .L2⟩]⟩,
  ⟨0x68, 1, 0x4, false, false, false, [⟨31, 0, .RO, 0, .L2⟩]⟩,
  ⟨0x6C, 1, 0x4, false, false, false, [⟨31, 0, .RO, 0, .L2⟩]⟩,
  ⟨0x70, 1, 0x4, false, false, false, [⟨31, 0, .RO, 0, .L2⟩]⟩,
  ⟨0x74, 1, 0x4, false, false, false, [⟨31, 0, .RO, 0, .L2⟩]⟩,
  ⟨0x78, 1, 0x4, false, false, false, [⟨31, 0, .RO, 0, .L2⟩]⟩,
  ⟨0x80, 1, 0x4, false, false, false, [⟨31, 0, .RO, 0, .L2⟩]⟩,
  ⟨0x84, 1, 0x4, false, false, false, [⟨31, 0, .RO, 0, .L2⟩]⟩,
  ⟨0x88, 1, 0x4, false, false, false, [⟨31, 0, .RO, 0, .L2⟩]⟩,
  ⟨0x8C, 1, 0x4, false, false, false, [⟨31, 0, .RO, 0, .L2⟩]⟩,
  ⟨0x90, 1, 0x4, false, false, false, [⟨31, 31, .W1C, 0, .POR⟩, ⟨7, 0, .RO, 0, .POR⟩]⟩,
  ⟨0x94, 1, 0x4, false, false, false, [⟨23, 0, .RO, 0, .POR⟩]⟩,
  ⟨0xA0, 1, 0x4, false, false, false, [⟨31, 31, .W1S, 0, .L2⟩, ⟨16, 16, .RWL, 0, .L2⟩, ⟨0, 0, .RWL, 0, .L3⟩]⟩,
  ⟨0xA4, 1, 0x4, false, false, false, [⟨31, 16, .RWL, 0xffff, .L3⟩, ⟨15, 0, .RWL, 0xc000, .L3⟩]⟩,
  ⟨0xA8, 1, 0x4, false, false, false, [⟨7, 0, .WO, 0, .L2⟩]⟩,
  ⟨0xAC, 1, 0x4, false, false, false, [⟨15, 0, .RO, 0, .L2⟩]⟩,
  ⟨0xB0, 1, 0x4, false, false, false, [⟨31, 0, .RO, 0, .L2⟩]⟩,
  ⟨0x100, 16, 0x8, false, false, false, [⟨31, 31, .RWI, 0, .L2⟩, ⟨29, 28, .RWI, 0, .L2⟩, ⟨23, 0, .RWI, 0, .L2⟩]⟩,
  ⟨0x104, 16, 0x8, false, false, false, [⟨31, 31, .W1S, 0, .L2⟩, ⟨6, 0, .RWI, 0, .L2⟩]⟩,
  ⟨0x200, 4, 0x20, false, false, false, [⟨23, 0, .RWI, 0, .L2⟩]⟩,
  ⟨0x204, 4, 0x20, false, false, false, [⟨23, 0, .RWI, 0, .L2⟩]⟩,
  ⟨0x208, 4, 0x20, false, false, false, [⟨31, 0, .RWI, 0, .L2⟩]⟩,
  ⟨0x20C, 4, 0x20, false, false, false, [⟨31, 0, .RWI, 0, .L2⟩]⟩,
  ⟨0x210, 4, 0x20, false, false, false, [⟨11, 8, .RWI, 0, .L2⟩, ⟨4, 4, .RWI, 0, .L2⟩, ⟨3, 2, .RWI, 0, .L2⟩, ⟨1, 1, .RWI, 0, .L2⟩, ⟨0, 0, .RWI, 0, .L2⟩]⟩,
  ⟨0x214, 4, 0x20, false, false, false, [⟨31, 0, .RO, 0, .L2⟩]⟩,
  ⟨0x400, 16, 0x10, false, false, false, [⟨23, 5, .RWI, 0, .L2⟩]⟩,
  ⟨0x404, 16, 0x10, false, false, false, [⟨23, 5, .RWI, 0, .L2⟩]⟩,
  ⟨0x408, 16, 0x10, false, false, false, [⟨7, 0, .RWI, 0, .L2⟩]⟩,
  ⟨0x40C, 16, 0x10, false, false, false, [⟨15, 0, .RWI, 0, .L2⟩]⟩,
  ⟨0x500, 16, 0x10, false, false, true, [⟨23, 5, .RWI, 0, .L2⟩]⟩,
  ⟨0x504, 16, 0x10, false, false, true, [⟨23, 5, .RWI, 0, .L2⟩]⟩,
  ⟨0x508, 16, 0x10, false, false, true, [⟨7, 0, .RWI, 0, .L2⟩]⟩,
  ⟨0x50C, 16, 0x10, false, false, true, [⟨15, 0, .RWI, 0, .L2⟩]⟩]⟩

/-! ### QD (R342, 12_queue_fabric.md) -/

def QF_QCFG (i : Nat) : Nat := 0x100000 + i * 0x40
def fQF_QCFG_EN : Fld := ⟨31, 1⟩
def fQF_QCFG_POOL : Fld := ⟨30, 1⟩
def fQF_QCFG_ESIZE : Fld := ⟨28, 2⟩
def fQF_QCFG_FLOCK : Fld := ⟨24, 4⟩
def fQF_QCFG_WMEV : Fld := ⟨20, 4⟩
def fQF_QCFG_DEPTH : Fld := ⟨0, 13⟩
def QF_QBASE (i : Nat) : Nat := 0x100004 + i * 0x40
def fQF_QBASE_BASE : Fld := ⟨0, 14⟩
def QF_QLVL (i : Nat) : Nat := 0x100008 + i * 0x40
def fQF_QLVL_PEAK : Fld := ⟨16, 13⟩
def fQF_QLVL_LEVEL : Fld := ⟨0, 13⟩
def QF_QWM (i : Nat) : Nat := 0x10000C + i * 0x40
def fQF_QWM_HI : Fld := ⟨16, 13⟩
def fQF_QWM_LO : Fld := ⟨0, 13⟩
def QF_QPTR (i : Nat) : Nat := 0x100010 + i * 0x40
def fQF_QPTR_TAIL : Fld := ⟨16, 12⟩
def fQF_QPTR_HEAD : Fld := ⟨0, 12⟩
def QF_QPIN (i : Nat) : Nat := 0x100014 + i * 0x40
def fQF_QPIN_PINNED : Fld := ⟨3, 1⟩
def fQF_QPIN_CLUSTER : Fld := ⟨0, 3⟩
def QF_QPUT_CNT (i : Nat) : Nat := 0x100018 + i * 0x40
def fQF_QPUT_CNT_COUNT : Fld := ⟨0, 32⟩
def QF_QGET_CNT (i : Nat) : Nat := 0x10001C + i * 0x40
def fQF_QGET_CNT_COUNT : Fld := ⟨0, 32⟩
def QF_QFULL_CNT (i : Nat) : Nat := 0x100020 + i * 0x40
def fQF_QFULL_CNT_COUNT : Fld := ⟨0, 32⟩
def QF_QEMPTY_CNT (i : Nat) : Nat := 0x100024 + i * 0x40
def fQF_QEMPTY_CNT_COUNT : Fld := ⟨0, 32⟩
def QF_QSTALE_CNT (i : Nat) : Nat := 0x100028 + i * 0x40
def fQF_QSTALE_CNT_COUNT : Fld := ⟨0, 32⟩
def QF_QDENIED_CNT (i : Nat) : Nat := 0x10002C + i * 0x40
def fQF_QDENIED_CNT_COUNT : Fld := ⟨0, 32⟩

def blkQD : BlockDesc := ⟨0x100000, 4096, 0x40, 0, 0x0,
  [
  ⟨0x0, 1, 0x4, false, false, false, [⟨31, 31, .RWI, 0, .L2⟩, ⟨30, 30, .RWI, 0, .L2⟩, ⟨29, 28, .RWI, 0, .L2⟩, ⟨27, 24, .RWI, 0, .L2⟩, ⟨23, 20, .RWI, 0, .L2⟩, ⟨12, 0, .RWI, 0x1000, .L2⟩]⟩,
  ⟨0x4, 1, 0x4, false, false, false, [⟨13, 0, .RWI, 0, .L2⟩]⟩,
  ⟨0x8, 1, 0x4, false, true, false, [⟨28, 16, .RW, 0, .L2⟩, ⟨12, 0, .RO, 0, .L2⟩]⟩,
  ⟨0xC, 1, 0x4, false, true, false, [⟨28, 16, .RW, 0x1fff, .L2⟩, ⟨12, 0, .RW, 0, .L2⟩]⟩,
  ⟨0x10, 1, 0x4, false, false, false, [⟨27, 16, .RO, 0, .L2⟩, ⟨11, 0, .RO, 0, .L2⟩]⟩,
  ⟨0x14, 1, 0x4, false, false, false, [⟨3, 3, .RO, 0, .L2⟩, ⟨2, 0, .RO, 0, .L2⟩]⟩,
  ⟨0x18, 1, 0x4, false, false, false, [⟨31, 0, .RO, 0, .L2⟩]⟩,
  ⟨0x1C, 1, 0x4, false, false, false, [⟨31, 0, .RO, 0, .L2⟩]⟩,
  ⟨0x20, 1, 0x4, false, false, false, [⟨31, 0, .RO, 0, .L2⟩]⟩,
  ⟨0x24, 1, 0x4, false, false, false, [⟨31, 0, .RO, 0, .L2⟩]⟩,
  ⟨0x28, 1, 0x4, false, false, false, [⟨31, 0, .RO, 0, .L2⟩]⟩,
  ⟨0x2C, 1, 0x4, false, false, false, [⟨31, 0, .RO, 0, .L2⟩]⟩]⟩

/-! ### QW (R343, 12_queue_fabric.md) -/

def QF_WMN_STAT (i : Nat) : Nat := 0x140000 + i * 0x10
def fQF_WMN_STAT_CLRCNT : Fld := ⟨31, 1⟩
def fQF_WMN_STAT_LEVEL : Fld := ⟨16, 13⟩
def fQF_WMN_STAT_FKIND : Fld := ⟨2, 1⟩
def fQF_WMN_STAT_SEEN_LO : Fld := ⟨1, 1⟩
def fQF_WMN_STAT_SEEN_HI : Fld := ⟨0, 1⟩
def QF_WMN_CNT (i : Nat) : Nat := 0x140004 + i * 0x10
def fQF_WMN_CNT_LO : Fld := ⟨16, 16⟩
def fQF_WMN_CNT_HI : Fld := ⟨0, 16⟩
def QF_WMN_STAMP_LO (i : Nat) : Nat := 0x140008 + i * 0x10
def fQF_WMN_STAMP_LO_VALUE : Fld := ⟨0, 32⟩
def QF_WMN_STAMP_HI (i : Nat) : Nat := 0x14000C + i * 0x10
def fQF_WMN_STAMP_HI_VALUE : Fld := ⟨0, 32⟩

def blkQW : BlockDesc := ⟨0x140000, 4096, 0x10, 0, 0x0,
  [
  ⟨0x0, 1, 0x4, false, true, false, [⟨31, 31, .WO, 0, .L2⟩, ⟨28, 16, .RO, 0, .L2⟩, ⟨2, 2, .RO, 0, .L2⟩, ⟨1, 1, .W1C, 0, .L2⟩, ⟨0, 0, .W1C, 0, .L2⟩]⟩,
  ⟨0x4, 1, 0x4, false, false, false, [⟨31, 16, .RO, 0, .L2⟩, ⟨15, 0, .RO, 0, .L2⟩]⟩,
  ⟨0x8, 1, 0x4, false, false, false, [⟨31, 0, .RO, 0, .L2⟩]⟩,
  ⟨0xC, 1, 0x4, false, false, false, [⟨31, 0, .RO, 0, .L2⟩]⟩]⟩

/-! ### BC (R344, 12_queue_fabric.md) -/

def QF_BCTAG (i : Nat) : Nat := 0x150000 + i * 0x4
def fQF_BCTAG_STATE : Fld := ⟨30, 2⟩
def fQF_BCTAG_FLOCK : Fld := ⟨24, 4⟩
def fQF_BCTAG_INC : Fld := ⟨16, 8⟩
def fQF_BCTAG_HOLDER : Fld := ⟨0, 13⟩

def blkBC : BlockDesc := ⟨0x150000, 16384, 0x4, 0, 0x0,
  [
  ⟨0x0, 1, 0x4, false, false, false, [⟨31, 30, .RO, 0, .L2⟩, ⟨27, 24, .RO, 0, .L2⟩, ⟨23, 16, .RO, 0, .L2⟩, ⟨12, 0, .RO, 0, .L2⟩]⟩]⟩

/-! ### QG (R345, 12_queue_fabric.md) -/

def QF_FPOOL (j : Nat) : Nat := 0x180000 + j * 0x4
def fQF_FPOOL_VALID : Fld := ⟨31, 1⟩
def fQF_FPOOL_QUEUE : Fld := ⟨0, 12⟩
def QF_SEED : Nat := 0x180040
def fQF_SEED_GO : Fld := ⟨31, 1⟩
def fQF_SEED_COUNT : Fld := ⟨16, 13⟩
def fQF_SEED_CELL : Fld := ⟨0, 14⟩
def QF_SEED_Q : Nat := 0x180044
def fQF_SEED_Q_QUEUE : Fld := ⟨0, 12⟩
def QF_SEED_STAT : Nat := 0x180048
def fQF_SEED_STAT_BUSY : Fld := ⟨0, 1⟩
def QF_RECL : Nat := 0x180050
def fQF_RECL_BUSY : Fld := ⟨0, 16⟩
def QF_STAT : Nat := 0x180054
def fQF_STAT_STALE : Fld := ⟨1, 1⟩
def fQF_STAT_OWNERR : Fld := ⟨0, 1⟩
def QF_FOREIGN_FREES : Nat := 0x180060
def fQF_FOREIGN_FREES_COUNT : Fld := ⟨0, 32⟩
def QF_DOUBLE_FREES : Nat := 0x180064
def fQF_DOUBLE_FREES_COUNT : Fld := ⟨0, 32⟩
def QF_STALE_CNT : Nat := 0x180068
def fQF_STALE_CNT_COUNT : Fld := ⟨0, 32⟩
def QF_DISC_CNT : Nat := 0x18006C
def fQF_DISC_CNT_COUNT : Fld := ⟨0, 32⟩
def QF_SEED_SKIP : Nat := 0x180070
def fQF_SEED_SKIP_COUNT : Fld := ⟨0, 32⟩
def QF_CFG_REFUSED : Nat := 0x180074
def fQF_CFG_REFUSED_COUNT : Fld := ⟨0, 32⟩
def QF_CELLS_FREE : Nat := 0x180078
def fQF_CELLS_FREE_COUNT : Fld := ⟨0, 15⟩
def QF_CELLS_HELD : Nat := 0x18007C
def fQF_CELLS_HELD_COUNT : Fld := ⟨0, 15⟩
def QF_LASTOWN : Nat := 0x180090
def fQF_LASTOWN_REASON : Fld := ⟨30, 2⟩
def fQF_LASTOWN_CELL : Fld := ⟨16, 14⟩
def fQF_LASTOWN_FREER : Fld := ⟨0, 13⟩
def QF_LASTOWN_TAG : Nat := 0x180094
def fQF_LASTOWN_TAG_TAG : Fld := ⟨0, 32⟩
def QF_LASTOWN_STAMP_LO : Nat := 0x180098
def fQF_LASTOWN_STAMP_LO_VALUE : Fld := ⟨0, 32⟩
def QF_LASTOWN_STAMP_HI : Nat := 0x18009C
def fQF_LASTOWN_STAMP_HI_VALUE : Fld := ⟨0, 32⟩

def blkQG : BlockDesc := ⟨0x180000, 1, 0xA0, 0, 0x0,
  [
  ⟨0x0, 16, 0x4, false, false, false, [⟨31, 31, .RWI, 0, .L2⟩, ⟨11, 0, .RWI, 0, .L2⟩]⟩,
  ⟨0x40, 1, 0x4, false, false, false, [⟨31, 31, .WO, 0, .L2⟩, ⟨28, 16, .RWI, 0, .L2⟩, ⟨13, 0, .RWI, 0, .L2⟩]⟩,
  ⟨0x44, 1, 0x4, false, false, false, [⟨11, 0, .RWI, 0, .L2⟩]⟩,
  ⟨0x48, 1, 0x4, false, false, false, [⟨0, 0, .RO, 0, .L2⟩]⟩,
  ⟨0x50, 1, 0x4, false, false, false, [⟨15, 0, .RO, 0, .L2⟩]⟩,
  ⟨0x54, 1, 0x4, false, false, false, [⟨1, 1, .W1C, 0, .L2⟩, ⟨0, 0, .W1C, 0, .L2⟩]⟩,
  ⟨0x60, 1, 0x4, false, false, false, [⟨31, 0, .RO, 0, .L2⟩]⟩,
  ⟨0x64, 1, 0x4, false, false, false, [⟨31, 0, .RO, 0, .L2⟩]⟩,
  ⟨0x68, 1, 0x4, false, false, false, [⟨31, 0, .RO, 0, .L2⟩]⟩,
  ⟨0x6C, 1, 0x4, false, false, false, [⟨31, 0, .RO, 0, .L2⟩]⟩,
  ⟨0x70, 1, 0x4, false, false, false, [⟨31, 0, .RO, 0, .L2⟩]⟩,
  ⟨0x74, 1, 0x4, false, false, false, [⟨31, 0, .RO, 0, .L2⟩]⟩,
  ⟨0x78, 1, 0x4, false, false, false, [⟨14, 0, .RO, 0, .L2⟩]⟩,
  ⟨0x7C, 1, 0x4, false, false, false, [⟨14, 0, .RO, 0, .L2⟩]⟩,
  ⟨0x90, 1, 0x4, false, false, false, [⟨31, 30, .RO, 0, .L2⟩, ⟨29, 16, .RO, 0, .L2⟩, ⟨12, 0, .RO, 0, .L2⟩]⟩,
  ⟨0x94, 1, 0x4, false, false, false, [⟨31, 0, .RO, 0, .L2⟩]⟩,
  ⟨0x98, 1, 0x4, false, false, false, [⟨31, 0, .RO, 0, .L2⟩]⟩,
  ⟨0x9C, 1, 0x4, false, false, false, [⟨31, 0, .RO, 0, .L2⟩]⟩]⟩

/-! ### QH (R345, 12_queue_fabric.md) -/

def QF_HPUT (i j : Nat) : Nat := 0x180100 + i * 0x100 + j * 0x4
def fQF_HPUT_DATA : Fld := ⟨0, 32⟩
def QF_HOP (i : Nat) : Nat := 0x180140 + i * 0x100
def fQF_HOP_OP : Fld := ⟨30, 2⟩
def fQF_HOP_QUEUE : Fld := ⟨0, 12⟩
def QF_HSTAT (i : Nat) : Nat := 0x180144 + i * 0x100
def fQF_HSTAT_LEVEL : Fld := ⟨16, 16⟩
def fQF_HSTAT_RES : Fld := ⟨0, 2⟩
def QF_HGET (i j : Nat) : Nat := 0x180180 + i * 0x100 + j * 0x4
def fQF_HGET_DATA : Fld := ⟨0, 32⟩

def blkQH : BlockDesc := ⟨0x180100, 2, 0x100, 0, 0x0,
  [
  ⟨0x0, 16, 0x4, false, false, false, [⟨31, 0, .RW, 0, .L2⟩]⟩,
  ⟨0x40, 1, 0x4, false, false, false, [⟨31, 30, .WO, 0, .L2⟩, ⟨11, 0, .WO, 0, .L2⟩]⟩,
  ⟨0x44, 1, 0x4, false, false, false, [⟨31, 16, .RO, 0, .L2⟩, ⟨1, 0, .RO, 0, .L2⟩]⟩,
  ⟨0x80, 16, 0x4, false, false, false, [⟨31, 0, .RO, 0, .L2⟩]⟩]⟩

/-! ### SP (R221, 07_sample_ingress_and_trips.md) -/

def SI_CFG (i : Nat) : Nat := 0x200000 + i * 0x100
def fSI_CFG_WEV : Fld := ⟨10, 3⟩
def fSI_CFG_SOCSEL : Fld := ⟨4, 6⟩
def fSI_CFG_RAW : Fld := ⟨3, 1⟩
def fSI_CFG_SOCST : Fld := ⟨2, 1⟩
def fSI_CFG_SIGNED : Fld := ⟨1, 1⟩
def fSI_CFG_EN : Fld := ⟨0, 1⟩
def SI_OFFSET (i : Nat) : Nat := 0x200004 + i * 0x100
def fSI_OFFSET_VALUE : Fld := ⟨0, 32⟩
def SI_GAIN (i : Nat) : Nat := 0x200008 + i * 0x100
def fSI_GAIN_VALUE : Fld := ⟨0, 32⟩
def SI_WHI (i : Nat) : Nat := 0x20000C + i * 0x100
def fSI_WHI_VALUE : Fld := ⟨0, 32⟩
def SI_WLO (i : Nat) : Nat := 0x200010 + i * 0x100
def fSI_WLO_VALUE : Fld := ⟨0, 32⟩
def SI_ROUTE (i : Nat) : Nat := 0x200014 + i * 0x100
def fSI_ROUTE_KIND : Fld := ⟨30, 2⟩
def fSI_ROUTE_TAGQ : Fld := ⟨27, 3⟩
def fSI_ROUTE_ENGINE : Fld := ⟨20, 6⟩
def fSI_ROUTE_INBOX : Fld := ⟨18, 2⟩
def fSI_ROUTE_QUEUE : Fld := ⟨0, 12⟩
def SI_STAT (i : Nat) : Nat := 0x200018 + i * 0x100
def fSI_STAT_SOCOVR : Fld := ⟨5, 1⟩
def fSI_STAT_SATD : Fld := ⟨4, 1⟩
def fSI_STAT_NOSOC : Fld := ⟨3, 1⟩
def fSI_STAT_DROP : Fld := ⟨2, 1⟩
def fSI_STAT_WSTATE : Fld := ⟨0, 2⟩
def SI_LAST_VAL (i : Nat) : Nat := 0x20001C + i * 0x100
def fSI_LAST_VAL_VALUE : Fld := ⟨0, 32⟩
def SI_LAST_STAMP_LO (i : Nat) : Nat := 0x200020 + i * 0x100
def fSI_LAST_STAMP_LO_VALUE : Fld := ⟨0, 32⟩
def SI_LAST_STAMP_HI (i : Nat) : Nat := 0x200024 + i * 0x100
def fSI_LAST_STAMP_HI_VALUE : Fld := ⟨0, 32⟩
def SI_ACCEPT_CNT (i : Nat) : Nat := 0x200028 + i * 0x100
def fSI_ACCEPT_CNT_COUNT : Fld := ⟨0, 32⟩
def SI_DROP_CNT (i : Nat) : Nat := 0x20002C + i * 0x100
def fSI_DROP_CNT_COUNT : Fld := ⟨0, 32⟩
def SI_NOSOC_CNT (i : Nat) : Nat := 0x200030 + i * 0x100
def fSI_NOSOC_CNT_COUNT : Fld := ⟨0, 32⟩
def SI_WIN_CNT (i : Nat) : Nat := 0x200034 + i * 0x100
def fSI_WIN_CNT_COUNT : Fld := ⟨0, 32⟩
def SI_SAT_CNT (i : Nat) : Nat := 0x200038 + i * 0x100
def fSI_SAT_CNT_COUNT : Fld := ⟨0, 32⟩

def blkSP : BlockDesc := ⟨0x200000, 64, 0x100, 0, 0x0,
  [
  ⟨0x0, 1, 0x4, false, false, false, [⟨12, 10, .RW, 0, .L2⟩, ⟨9, 4, .RW, 0, .L2⟩, ⟨3, 3, .RW, 0, .L2⟩, ⟨2, 2, .RW, 0, .L2⟩, ⟨1, 1, .RW, 0, .L2⟩, ⟨0, 0, .RW, 0, .L0⟩]⟩,
  ⟨0x4, 1, 0x4, false, true, false, [⟨31, 0, .RW, 0, .L2⟩]⟩,
  ⟨0x8, 1, 0x4, false, true, false, [⟨31, 0, .RW, 0x20000000, .L2⟩]⟩,
  ⟨0xC, 1, 0x4, false, true, false, [⟨31, 0, .RW, 0x7fffffff, .L2⟩]⟩,
  ⟨0x10, 1, 0x4, false, true, false, [⟨31, 0, .RW, 0x80000000, .L2⟩]⟩,
  ⟨0x14, 1, 0x4, false, false, false, [⟨31, 30, .RW, 0, .L2⟩, ⟨29, 27, .RW, 0, .L2⟩, ⟨25, 20, .RW, 0, .L2⟩, ⟨19, 18, .RW, 0, .L2⟩, ⟨11, 0, .RW, 0, .L2⟩]⟩,
  ⟨0x18, 1, 0x4, false, true, false, [⟨5, 5, .W1C, 0, .L2⟩, ⟨4, 4, .W1C, 0, .L2⟩, ⟨3, 3, .W1C, 0, .L2⟩, ⟨2, 2, .W1C, 0, .L2⟩, ⟨1, 0, .RO, 0, .L2⟩]⟩,
  ⟨0x1C, 1, 0x4, false, false, false, [⟨31, 0, .RO, 0, .L2⟩]⟩,
  ⟨0x20, 1, 0x4, false, false, false, [⟨31, 0, .RO, 0, .L2⟩]⟩,
  ⟨0x24, 1, 0x4, false, false, false, [⟨31, 0, .RO, 0, .L2⟩]⟩,
  ⟨0x28, 1, 0x4, false, false, false, [⟨31, 0, .RO, 0, .L2⟩]⟩,
  ⟨0x2C, 1, 0x4, false, false, false, [⟨31, 0, .RO, 0, .L2⟩]⟩,
  ⟨0x30, 1, 0x4, false, false, false, [⟨31, 0, .RO, 0, .L2⟩]⟩,
  ⟨0x34, 1, 0x4, false, false, false, [⟨31, 0, .RO, 0, .L2⟩]⟩,
  ⟨0x38, 1, 0x4, false, false, false, [⟨31, 0, .RO, 0, .L2⟩]⟩]⟩

/-! ### SOC (R222, 07_sample_ingress_and_trips.md) -/

def SI_SOC_SRC (j : Nat) : Nat := 0x208000 + j * 0x8
def fSI_SOC_SRC_KIND : Fld := ⟨28, 2⟩
def fSI_SOC_SRC_UNIT : Fld := ⟨16, 6⟩
def fSI_SOC_SRC_WIDTH : Fld := ⟨8, 8⟩
def fSI_SOC_SRC_EVSEL : Fld := ⟨0, 3⟩
def SI_SOC_STAMP_LO (j : Nat) : Nat := 0x208200 + j * 0x8
def fSI_SOC_STAMP_LO_VALUE : Fld := ⟨0, 32⟩
def SI_SOC_STAMP_HI (j : Nat) : Nat := 0x208204 + j * 0x8
def fSI_SOC_STAMP_HI_VALUE : Fld := ⟨0, 32⟩
def SI_SOC_FIRE : Nat := 0x208400
def fSI_SOC_FIRE_M : Fld := ⟨0, 6⟩
def SI_SOC_CNT (j : Nat) : Nat := 0x208500 + j * 0x4
def fSI_SOC_CNT_COUNT : Fld := ⟨0, 32⟩

def blkSOC : BlockDesc := ⟨0x208000, 1, 0x600, 0, 0x0,
  [
  ⟨0x0, 64, 0x8, false, false, false, [⟨29, 28, .RWI, 0, .L2⟩, ⟨21, 16, .RWI, 0, .L2⟩, ⟨15, 8, .RWI, 0, .L2⟩, ⟨2, 0, .RWI, 0, .L2⟩]⟩,
  ⟨0x200, 64, 0x8, false, false, false, [⟨31, 0, .RO, 0, .L2⟩]⟩,
  ⟨0x204, 64, 0x8, false, false, false, [⟨31, 0, .RO, 0, .L2⟩]⟩,
  ⟨0x400, 1, 0x4, true, false, false, [⟨5, 0, .WO, 0, .L2⟩]⟩,
  ⟨0x500, 64, 0x4, false, false, false, [⟨31, 0, .RO, 0, .L2⟩]⟩]⟩

/-! ### TI (R223, 07_sample_ingress_and_trips.md) -/

def TR_CFG (i : Nat) : Nat := 0x210000 + i * 0x40
def fTR_CFG_FLT : Fld := ⟨8, 8⟩
def fTR_CFG_POL : Fld := ⟨1, 1⟩
def fTR_CFG_EN : Fld := ⟨0, 1⟩
def TR_STAT (i : Nat) : Nat := 0x210004 + i * 0x40
def fTR_STAT_INJ : Fld := ⟨4, 1⟩
def fTR_STAT_STOPPED : Fld := ⟨3, 1⟩
def fTR_STAT_PIN : Fld := ⟨2, 1⟩
def fTR_STAT_QUAL : Fld := ⟨1, 1⟩
def fTR_STAT_LATCH : Fld := ⟨0, 1⟩
def TR_STAMP_LO (i : Nat) : Nat := 0x210008 + i * 0x40
def fTR_STAMP_LO_VALUE : Fld := ⟨0, 32⟩
def TR_STAMP_HI (i : Nat) : Nat := 0x21000C + i * 0x40
def fTR_STAMP_HI_VALUE : Fld := ⟨0, 32⟩
def TR_EDGE_CNT (i : Nat) : Nat := 0x210010 + i * 0x40
def fTR_EDGE_CNT_VALUE : Fld := ⟨0, 32⟩
def TR_GLITCH_CNT (i : Nat) : Nat := 0x210014 + i * 0x40
def fTR_GLITCH_CNT_VALUE : Fld := ⟨0, 32⟩
def TR_INJ (i : Nat) : Nat := 0x210018 + i * 0x40
def fTR_INJ_GO : Fld := ⟨31, 1⟩
def fTR_INJ_WIDTH : Fld := ⟨0, 8⟩

def blkTI : BlockDesc := ⟨0x210000, 64, 0x40, 0, 0x0,
  [
  ⟨0x0, 1, 0x4, false, false, false, [⟨15, 8, .RWI, 0, .L2⟩, ⟨1, 1, .RWI, 0, .L2⟩, ⟨0, 0, .RWI, 0, .L2⟩]⟩,
  ⟨0x4, 1, 0x4, false, false, false, [⟨4, 4, .W1C, 0, .L2⟩, ⟨3, 3, .W1C, 0, .L2⟩, ⟨2, 2, .RO, 0, .L2⟩, ⟨1, 1, .RO, 0, .L2⟩, ⟨0, 0, .W1C, 0, .L2⟩]⟩,
  ⟨0x8, 1, 0x4, false, false, false, [⟨31, 0, .RO, 0, .L2⟩]⟩,
  ⟨0xC, 1, 0x4, false, false, false, [⟨31, 0, .RO, 0, .L2⟩]⟩,
  ⟨0x10, 1, 0x4, false, false, false, [⟨31, 0, .RO, 0, .L2⟩]⟩,
  ⟨0x14, 1, 0x4, false, false, false, [⟨31, 0, .RO, 0, .L2⟩]⟩,
  ⟨0x18, 1, 0x4, false, false, false, [⟨31, 31, .WO, 0, .L2⟩, ⟨7, 0, .RWI, 0, .L2⟩]⟩]⟩

/-! ### TG (R224, 07_sample_ingress_and_trips.md) -/

def TG_MASK_LO (i : Nat) : Nat := 0x212000 + i * 0x100
def fTG_MASK_LO_MASK : Fld := ⟨0, 32⟩
def TG_MASK_HI (i : Nat) : Nat := 0x212004 + i * 0x100
def fTG_MASK_HI_MASK : Fld := ⟨0, 32⟩
def TG_CFG (i : Nat) : Nat := 0x212008 + i * 0x100
def fTG_CFG_TERM : Fld := ⟨1, 1⟩
def fTG_CFG_FN : Fld := ⟨0, 1⟩
def TG_STAT (i : Nat) : Nat := 0x21200C + i * 0x100
def fTG_STAT_SEEN : Fld := ⟨1, 1⟩
def fTG_STAT_ACT : Fld := ⟨0, 1⟩
def TG_STAMP_LO (i : Nat) : Nat := 0x212010 + i * 0x100
def fTG_STAMP_LO_VALUE : Fld := ⟨0, 32⟩
def TG_STAMP_HI (i : Nat) : Nat := 0x212014 + i * 0x100
def fTG_STAMP_HI_VALUE : Fld := ⟨0, 32⟩
def TG_ASSERT_CNT (i : Nat) : Nat := 0x212018 + i * 0x100
def fTG_ASSERT_CNT_COUNT : Fld := ⟨0, 32⟩

def blkTG : BlockDesc := ⟨0x212000, 16, 0x100, 0, 0x0,
  [
  ⟨0x0, 1, 0x4, false, false, false, [⟨31, 0, .RWI, 0, .L2⟩]⟩,
  ⟨0x4, 1, 0x4, false, false, false, [⟨31, 0, .RWI, 0, .L2⟩]⟩,
  ⟨0x8, 1, 0x4, false, false, false, [⟨1, 1, .RWI, 0, .L2⟩, ⟨0, 0, .RWI, 0, .L2⟩]⟩,
  ⟨0xC, 1, 0x4, false, false, false, [⟨1, 1, .W1C, 0, .L2⟩, ⟨0, 0, .RO, 0, .L2⟩]⟩,
  ⟨0x10, 1, 0x4, false, false, false, [⟨31, 0, .RO, 0, .L2⟩]⟩,
  ⟨0x14, 1, 0x4, false, false, false, [⟨31, 0, .RO, 0, .L2⟩]⟩,
  ⟨0x18, 1, 0x4, false, false, false, [⟨31, 0, .RO, 0, .L2⟩]⟩]⟩

/-! ### AR (R225, 07_sample_ingress_and_trips.md) -/

def AR_OUT (i j : Nat) : Nat := 0x214000 + i * 0x40 + j * 0x4
def fAR_OUT_MASK : Fld := ⟨0, 32⟩
def AR_LVL (i j : Nat) : Nat := 0x21400C + i * 0x40 + j * 0x4
def fAR_LVL_LEVEL : Fld := ⟨0, 32⟩
def AR_CFG (i : Nat) : Nat := 0x214018 + i * 0x40
def fAR_CFG_OEOFF : Fld := ⟨0, 1⟩
def AR_STAT (i : Nat) : Nat := 0x21401C + i * 0x40
def fAR_STAT_PREP : Fld := ⟨2, 1⟩
def fAR_STAT_ENGAGED : Fld := ⟨1, 1⟩
def fAR_STAT_ARMED : Fld := ⟨0, 1⟩
def AR_ENG_STAMP_LO (i : Nat) : Nat := 0x214020 + i * 0x40
def fAR_ENG_STAMP_LO_VALUE : Fld := ⟨0, 32⟩
def AR_ENG_STAMP_HI (i : Nat) : Nat := 0x214024 + i * 0x40
def fAR_ENG_STAMP_HI_VALUE : Fld := ⟨0, 32⟩
def AR_ENG_CNT (i : Nat) : Nat := 0x214028 + i * 0x40
def fAR_ENG_CNT_COUNT : Fld := ⟨0, 32⟩

def blkAR : BlockDesc := ⟨0x214000, 17, 0x40, 0, 0x0,
  [
  ⟨0x0, 3, 0x4, false, false, false, [⟨31, 0, .RWI, 0, .L2⟩]⟩,
  ⟨0xC, 3, 0x4, false, false, false, [⟨31, 0, .RWI, 0, .L2⟩]⟩,
  ⟨0x18, 1, 0x4, false, false, false, [⟨0, 0, .RWI, 0, .L2⟩]⟩,
  ⟨0x1C, 1, 0x4, false, false, false, [⟨2, 2, .RO, 0, .L2⟩, ⟨1, 1, .RO, 0, .L2⟩, ⟨0, 0, .RO, 0, .L2⟩]⟩,
  ⟨0x20, 1, 0x4, false, false, false, [⟨31, 0, .RO, 0, .L2⟩]⟩,
  ⟨0x24, 1, 0x4, false, false, false, [⟨31, 0, .RO, 0, .L2⟩]⟩,
  ⟨0x28, 1, 0x4, false, false, false, [⟨31, 0, .RO, 0, .L2⟩]⟩]⟩

/-! ### TRG (R226, 07_sample_ingress_and_trips.md) -/

def TR_ARM : Nat := 0x218000
def fTR_ARM_KEY : Fld := ⟨24, 8⟩
def fTR_ARM_ENTRY : Fld := ⟨16, 5⟩
def fTR_ARM_OP : Fld := ⟨0, 3⟩
def TR_ARM_REFUSED : Nat := 0x218004
def fTR_ARM_REFUSED_COUNT : Fld := ⟨0, 32⟩
def TR_INJ_REFUSED : Nat := 0x218008
def fTR_INJ_REFUSED_COUNT : Fld := ⟨0, 32⟩

def blkTRG : BlockDesc := ⟨0x218000, 1, 0xC, 0, 0x0,
  [
  ⟨0x0, 1, 0x4, true, false, false, [⟨31, 24, .WO, 0, .L2⟩, ⟨20, 16, .WO, 0, .L2⟩, ⟨2, 0, .WO, 0, .L2⟩]⟩,
  ⟨0x4, 1, 0x4, false, false, false, [⟨31, 0, .RO, 0, .L2⟩]⟩,
  ⟨0x8, 1, 0x4, false, false, false, [⟨31, 0, .RO, 0, .L2⟩]⟩]⟩

/-! ### PG (R255, 08_waveform_generators.md) -/

def PW_MAP (i : Nat) : Nat := 0x220000 + i * 0x800
def fPW_MAP_INC : Fld := ⟨16, 8⟩
def fPW_MAP_FLOCK : Fld := ⟨8, 4⟩
def fPW_MAP_LVALID : Fld := ⟨6, 1⟩
def fPW_MAP_LOGICAL : Fld := ⟨0, 6⟩
def PW_CFG (i : Nat) : Nat := 0x220004 + i * 0x800
def fPW_CFG_PHIDX : Fld := ⟨24, 6⟩
def fPW_CFG_PHGRP : Fld := ⟨20, 4⟩
def fPW_CFG_PHEN : Fld := ⟨19, 1⟩
def fPW_CFG_RLEV : Fld := ⟨16, 1⟩
def fPW_CFG_FRZ : Fld := ⟨12, 2⟩
def fPW_CFG_RSTB : Fld := ⟨9, 1⟩
def fPW_CFG_RSTA : Fld := ⟨8, 1⟩
def fPW_CFG_BCOMP : Fld := ⟨4, 1⟩
def fPW_CFG_RLDP : Fld := ⟨3, 1⟩
def fPW_CFG_RLDZ : Fld := ⟨2, 1⟩
def fPW_CFG_MODE : Fld := ⟨0, 2⟩
def PW_CTRL (i : Nat) : Nat := 0x220008 + i * 0x800
def fPW_CTRL_CMD : Fld := ⟨0, 2⟩
def PW_PERIOD (i : Nat) : Nat := 0x22000C + i * 0x800
def fPW_PERIOD_VALUE : Fld := ⟨0, 28⟩
def PW_PERIOD_ACT (i : Nat) : Nat := 0x220010 + i * 0x800
def fPW_PERIOD_ACT_VALUE : Fld := ⟨0, 28⟩
def PW_CNT (i : Nat) : Nat := 0x220014 + i * 0x800
def fPW_CNT_VALUE : Fld := ⟨0, 32⟩
def PW_STAT (i : Nat) : Nat := 0x220018 + i * 0x800
def fPW_STAT_TPEND : Fld := ⟨8, 4⟩
def fPW_STAT_STALE : Fld := ⟨7, 1⟩
def fPW_STAT_CLAMP : Fld := ⟨6, 1⟩
def fPW_STAT_POIS : Fld := ⟨5, 1⟩
def fPW_STAT_LATE : Fld := ⟨4, 1⟩
def fPW_STAT_TSTART : Fld := ⟨3, 1⟩
def fPW_STAT_FROZEN : Fld := ⟨2, 1⟩
def fPW_STAT_DIR : Fld := ⟨1, 1⟩
def fPW_STAT_RUN : Fld := ⟨0, 1⟩
def PW_CMP (i j : Nat) : Nat := 0x220020 + i * 0x800 + j * 0x4
def fPW_CMP_VALUE : Fld := ⟨0, 32⟩
def PW_CMP_ACT (i j : Nat) : Nat := 0x220030 + i * 0x800 + j * 0x4
def fPW_CMP_ACT_VALUE : Fld := ⟨0, 32⟩
def PW_TPEND_VAL (i j : Nat) : Nat := 0x220040 + i * 0x800 + j * 0x10
def fPW_TPEND_VAL_VALUE : Fld := ⟨0, 32⟩
def PW_TPEND_TIME_LO (i j : Nat) : Nat := 0x220044 + i * 0x800 + j * 0x10
def fPW_TPEND_TIME_LO_VALUE : Fld := ⟨0, 32⟩
def PW_TPEND_TIME_HI (i j : Nat) : Nat := 0x220048 + i * 0x800 + j * 0x10
def fPW_TPEND_TIME_HI_VALUE : Fld := ⟨0, 32⟩
def PW_DW_VAL (i : Nat) : Nat := 0x220080 + i * 0x800
def fPW_DW_VAL_VALUE : Fld := ⟨0, 32⟩
def PW_DW_TIME_LO (i : Nat) : Nat := 0x220084 + i * 0x800
def fPW_DW_TIME_LO_VALUE : Fld := ⟨0, 32⟩
def PW_DW_TIME_HI (i : Nat) : Nat := 0x220088 + i * 0x800
def fPW_DW_TIME_HI_VALUE : Fld := ⟨0, 32⟩
def PW_DW_CTRL (i : Nat) : Nat := 0x22008C + i * 0x800
def fPW_DW_CTRL_GO : Fld := ⟨31, 1⟩
def fPW_DW_CTRL_FMT : Fld := ⟨5, 1⟩
def fPW_DW_CTRL_MODE : Fld := ⟨3, 2⟩
def fPW_DW_CTRL_CMP : Fld := ⟨0, 2⟩
def PW_ACT_A (i : Nat) : Nat := 0x220090 + i * 0x800
def fPW_ACT_A_CDD : Fld := ⟨18, 2⟩
def fPW_ACT_A_CDU : Fld := ⟨16, 2⟩
def fPW_ACT_A_CCD : Fld := ⟨14, 2⟩
def fPW_ACT_A_CCU : Fld := ⟨12, 2⟩
def fPW_ACT_A_CBD : Fld := ⟨10, 2⟩
def fPW_ACT_A_CBU : Fld := ⟨8, 2⟩
def fPW_ACT_A_CAD : Fld := ⟨6, 2⟩
def fPW_ACT_A_CAU : Fld := ⟨4, 2⟩
def fPW_ACT_A_PRD : Fld := ⟨2, 2⟩
def fPW_ACT_A_ZRO : Fld := ⟨0, 2⟩
def PW_ACT_B (i : Nat) : Nat := 0x220094 + i * 0x800
def fPW_ACT_B_CDD : Fld := ⟨18, 2⟩
def fPW_ACT_B_CDU : Fld := ⟨16, 2⟩
def fPW_ACT_B_CCD : Fld := ⟨14, 2⟩
def fPW_ACT_B_CCU : Fld := ⟨12, 2⟩
def fPW_ACT_B_CBD : Fld := ⟨10, 2⟩
def fPW_ACT_B_CBU : Fld := ⟨8, 2⟩
def fPW_ACT_B_CAD : Fld := ⟨6, 2⟩
def fPW_ACT_B_CAU : Fld := ⟨4, 2⟩
def fPW_ACT_B_PRD : Fld := ⟨2, 2⟩
def fPW_ACT_B_ZRO : Fld := ⟨0, 2⟩
def PW_DT_A (i : Nat) : Nat := 0x220098 + i * 0x800
def fPW_DT_A_DTR : Fld := ⟨16, 16⟩
def fPW_DT_A_DTF : Fld := ⟨0, 16⟩
def PW_DT_B (i : Nat) : Nat := 0x22009C + i * 0x800
def fPW_DT_B_DTR : Fld := ⟨16, 16⟩
def fPW_DT_B_DTF : Fld := ⟨0, 16⟩
def PW_START_TIME_LO (i : Nat) : Nat := 0x2200A0 + i * 0x800
def fPW_START_TIME_LO_VALUE : Fld := ⟨0, 32⟩
def PW_START_TIME_HI (i : Nat) : Nat := 0x2200A4 + i * 0x800
def fPW_START_TIME_HI_VALUE : Fld := ⟨0, 32⟩
def PW_ACCEPT_CNT (i : Nat) : Nat := 0x2200C0 + i * 0x800
def fPW_ACCEPT_CNT_COUNT : Fld := ⟨0, 32⟩
def PW_LATE_CNT (i : Nat) : Nat := 0x2200C4 + i * 0x800
def fPW_LATE_CNT_COUNT : Fld := ⟨0, 32⟩
def PW_POISON_CNT (i : Nat) : Nat := 0x2200C8 + i * 0x800
def fPW_POISON_CNT_COUNT : Fld := ⟨0, 32⟩
def PW_STALE_CNT (i : Nat) : Nat := 0x2200CC + i * 0x800
def fPW_STALE_CNT_COUNT : Fld := ⟨0, 32⟩
def PW_CLAMP_CNT (i : Nat) : Nat := 0x2200D0 + i * 0x800
def fPW_CLAMP_CNT_COUNT : Fld := ⟨0, 32⟩
def PW_REPLACE_CNT (i : Nat) : Nat := 0x2200D4 + i * 0x800
def fPW_REPLACE_CNT_COUNT : Fld := ⟨0, 32⟩
def PW_CFG_REFUSED (i : Nat) : Nat := 0x2200D8 + i * 0x800
def fPW_CFG_REFUSED_COUNT : Fld := ⟨0, 32⟩
def PW_SYNC_ADJ_CNT (i : Nat) : Nat := 0x2200DC + i * 0x800
def fPW_SYNC_ADJ_CNT_COUNT : Fld := ⟨0, 32⟩
def PW_LAST_STAMP_LO (i : Nat) : Nat := 0x2200E0 + i * 0x800
def fPW_LAST_STAMP_LO_VALUE : Fld := ⟨0, 32⟩
def PW_LAST_STAMP_HI (i : Nat) : Nat := 0x2200E4 + i * 0x800
def fPW_LAST_STAMP_HI_VALUE : Fld := ⟨0, 32⟩
def PW_SYNC_LAST (i : Nat) : Nat := 0x2200E8 + i * 0x800
def fPW_SYNC_LAST_VALUE : Fld := ⟨0, 32⟩

def blkPG : BlockDesc := ⟨0x220000, 52, 0x800, 0, 0x0,
  [
  ⟨0x0, 1, 0x4, false, false, false, [⟨23, 16, .RWI, 0, .L3⟩, ⟨11, 8, .RWI, 0, .L3⟩, ⟨6, 6, .RWI, 0, .L3⟩, ⟨5, 0, .RWI, 0, .L3⟩]⟩,
  ⟨0x4, 1, 0x4, false, false, false, [⟨29, 24, .RWI, 0, .L2⟩, ⟨23, 20, .RWI, 0, .L2⟩, ⟨19, 19, .RWI, 0, .L2⟩, ⟨16, 16, .RWI, 0, .L2⟩, ⟨13, 12, .RWI, 0, .L2⟩, ⟨9, 9, .RWI, 0, .L2⟩, ⟨8, 8, .RWI, 0, .L2⟩, ⟨4, 4, .RWI, 0, .L2⟩, ⟨3, 3, .RWI, 0, .L2⟩, ⟨2, 2, .RWI, 0, .L2⟩, ⟨1, 0, .RWI, 0, .L2⟩]⟩,
  ⟨0x8, 1, 0x4, false, true, false, [⟨1, 0, .WO, 0, .L2⟩]⟩,
  ⟨0xC, 1, 0x4, false, true, false, [⟨27, 0, .RW, 0xffff, .L2⟩]⟩,
  ⟨0x10, 1, 0x4, false, false, false, [⟨27, 0, .RO, 0xffff, .L2⟩]⟩,
  ⟨0x14, 1, 0x4, false, false, false, [⟨31, 0, .RO, 0, .L2⟩]⟩,
  ⟨0x18, 1, 0x4, false, true, false, [⟨11, 8, .RO, 0, .L0⟩, ⟨7, 7, .W1C, 0, .L2⟩, ⟨6, 6, .W1C, 0, .L2⟩, ⟨5, 5, .W1C, 0, .L2⟩, ⟨4, 4, .W1C, 0, .L2⟩, ⟨3, 3, .RO, 0, .L0⟩, ⟨2, 2, .RO, 0, .L2⟩, ⟨1, 1, .RO, 0, .L2⟩, ⟨0, 0, .RO, 0, .L0⟩]⟩,
  ⟨0x20, 4, 0x4, false, true, false, [⟨31, 0, .RW, 0, .L2⟩]⟩,
  ⟨0x30, 4, 0x4, false, false, false, [⟨31, 0, .RO, 0, .L2⟩]⟩,
  ⟨0x40, 4, 0x10, false, false, false, [⟨31, 0, .RO, 0, .L2⟩]⟩,
  ⟨0x44, 4, 0x10, false, false, false, [⟨31, 0, .RO, 0, .L2⟩]⟩,
  ⟨0x48, 4, 0x10, false, false, false, [⟨31, 0, .RO, 0, .L2⟩]⟩,
  ⟨0x80, 1, 0x4, false, true, false, [⟨31, 0, .RW, 0, .L2⟩]⟩,
  ⟨0x84, 1, 0x4, false, true, false, [⟨31, 0, .RW, 0, .L2⟩]⟩,
  ⟨0x88, 1, 0x4, false, true, false, [⟨31, 0, .RW, 0, .L2⟩]⟩,
  ⟨0x8C, 1, 0x4, false, true, false, [⟨31, 31, .WO, 0, .L2⟩, ⟨5, 5, .RW, 0, .L2⟩, ⟨4, 3, .RW, 0, .L2⟩, ⟨1, 0, .RW, 0, .L2⟩]⟩,
  ⟨0x90, 1, 0x4, false, false, false, [⟨19, 18, .RWI, 0, .L2⟩, ⟨17, 16, .RWI, 0, .L2⟩, ⟨15, 14, .RWI, 0, .L2⟩, ⟨13, 12, .RWI, 0, .L2⟩, ⟨11, 10, .RWI, 0, .L2⟩, ⟨9, 8, .RWI, 0, .L2⟩, ⟨7, 6, .RWI, 0, .L2⟩, ⟨5, 4, .RWI, 0, .L2⟩, ⟨3, 2, .RWI, 0, .L2⟩, ⟨1, 0, .RWI, 0, .L2⟩]⟩,
  ⟨0x94, 1, 0x4, false, false, false, [⟨19, 18, .RWI, 0, .L2⟩, ⟨17, 16, .RWI, 0, .L2⟩, ⟨15, 14, .RWI, 0, .L2⟩, ⟨13, 12, .RWI, 0, .L2⟩, ⟨11, 10, .RWI, 0, .L2⟩, ⟨9, 8, .RWI, 0, .L2⟩, ⟨7, 6, .RWI, 0, .L2⟩, ⟨5, 4, .RWI, 0, .L2⟩, ⟨3, 2, .RWI, 0, .L2⟩, ⟨1, 0, .RWI, 0, .L2⟩]⟩,
  ⟨0x98, 1, 0x4, false, false, false, [⟨31, 16, .RWI, 0, .L2⟩, ⟨15, 0, .RWI, 0, .L2⟩]⟩,
  ⟨0x9C, 1, 0x4, false, false, false, [⟨31, 16, .RWI, 0, .L2⟩, ⟨15, 0, .RWI, 0, .L2⟩]⟩,
  ⟨0xA0, 1, 0x4, false, true, false, [⟨31, 0, .RW, 0, .L2⟩]⟩,
  ⟨0xA4, 1, 0x4, false, true, false, [⟨31, 0, .RW, 0, .L2⟩]⟩,
  ⟨0xC0, 1, 0x4, false, false, false, [⟨31, 0, .RO, 0, .L2⟩]⟩,
  ⟨0xC4, 1, 0x4, false, false, false, [⟨31, 0, .RO, 0, .L2⟩]⟩,
  ⟨0xC8, 1, 0x4, false, false, false, [⟨31, 0, .RO, 0, .L2⟩]⟩,
  ⟨0xCC, 1, 0x4, false, false, false, [⟨31, 0, .RO, 0, .L2⟩]⟩,
  ⟨0xD0, 1, 0x4, false, false, false, [⟨31, 0, .RO, 0, .L2⟩]⟩,
  ⟨0xD4, 1, 0x4, false, false, false, [⟨31, 0, .RO, 0, .L2⟩]⟩,
  ⟨0xD8, 1, 0x4, false, false, false, [⟨31, 0, .RO, 0, .L2⟩]⟩,
  ⟨0xDC, 1, 0x4, false, false, false, [⟨31, 0, .RO, 0, .L2⟩]⟩,
  ⟨0xE0, 1, 0x4, false, false, false, [⟨31, 0, .RO, 0, .L2⟩]⟩,
  ⟨0xE4, 1, 0x4, false, false, false, [⟨31, 0, .RO, 0, .L2⟩]⟩,
  ⟨0xE8, 1, 0x4, false, false, false, [⟨31, 0, .RO, 0, .L2⟩]⟩]⟩

/-! ### XB (R256, 08_waveform_generators.md) -/

def PW_XBAR (j : Nat) : Nat := 0x23C000 + j * 0x4
def fPW_XBAR_FOE : Fld := ⟨17, 1⟩
def fPW_XBAR_OE : Fld := ⟨16, 1⟩
def fPW_XBAR_INV : Fld := ⟨9, 1⟩
def fPW_XBAR_SEL : Fld := ⟨8, 1⟩
def fPW_XBAR_SRC : Fld := ⟨0, 6⟩

def blkXB : BlockDesc := ⟨0x23C000, 1, 0x180, 0, 0x0,
  [
  ⟨0x0, 96, 0x4, false, false, false, [⟨17, 17, .RWI, 0, .L2⟩, ⟨16, 16, .RWI, 0, .L2⟩, ⟨9, 9, .RWI, 0, .L2⟩, ⟨8, 8, .RWI, 0, .L2⟩, ⟨5, 0, .RWI, 0, .L2⟩]⟩]⟩

/-! ### PH (R257, 08_waveform_generators.md) -/

def PHG_CFG (i : Nat) : Nat := 0x23C400 + i * 0x20
def fPHG_CFG_SRC : Fld := ⟨8, 2⟩
def fPHG_CFG_EN : Fld := ⟨7, 1⟩
def fPHG_CFG_N : Fld := ⟨0, 6⟩
def PHG_PERIOD (i : Nat) : Nat := 0x23C404 + i * 0x20
def fPHG_PERIOD_VALUE : Fld := ⟨0, 28⟩
def PHG_TIME_LO (i : Nat) : Nat := 0x23C408 + i * 0x20
def fPHG_TIME_LO_VALUE : Fld := ⟨0, 32⟩
def PHG_TIME_HI (i : Nat) : Nat := 0x23C40C + i * 0x20
def fPHG_TIME_HI_VALUE : Fld := ⟨0, 32⟩
def PHG_TPER (i : Nat) : Nat := 0x23C410 + i * 0x20
def fPHG_TPER_VALUE : Fld := ⟨0, 32⟩
def PHG_SYNC_CNT (i : Nat) : Nat := 0x23C414 + i * 0x20
def fPHG_SYNC_CNT_COUNT : Fld := ⟨0, 32⟩

def blkPH : BlockDesc := ⟨0x23C400, 16, 0x20, 0, 0x0,
  [
  ⟨0x0, 1, 0x4, false, false, false, [⟨9, 8, .RWI, 0, .L2⟩, ⟨7, 7, .RWI, 0, .L2⟩, ⟨5, 0, .RWI, 1, .L2⟩]⟩,
  ⟨0x4, 1, 0x4, false, false, false, [⟨27, 0, .RWI, 0xffff, .L2⟩]⟩,
  ⟨0x8, 1, 0x4, false, false, false, [⟨31, 0, .RWI, 0, .L2⟩]⟩,
  ⟨0xC, 1, 0x4, false, false, false, [⟨31, 0, .RWI, 0, .L2⟩]⟩,
  ⟨0x10, 1, 0x4, false, false, false, [⟨31, 0, .RWI, 0, .L2⟩]⟩,
  ⟨0x14, 1, 0x4, false, false, false, [⟨31, 0, .RO, 0, .L2⟩]⟩]⟩

/-! ### TM (R271, 09_gated_timers.md) -/

def TM_MAP (i : Nat) : Nat := 0x240000 + i * 0x100
def fTM_MAP_INC : Fld := ⟨16, 8⟩
def fTM_MAP_FLOCK : Fld := ⟨8, 4⟩
def fTM_MAP_LVALID : Fld := ⟨6, 1⟩
def fTM_MAP_LOGICAL : Fld := ⟨0, 5⟩
def TM_CFG (i : Nat) : Nat := 0x240004 + i * 0x100
def fTM_CFG_MIDX : Fld := ⟨24, 6⟩
def fTM_CFG_GRP : Fld := ⟨20, 3⟩
def fTM_CFG_GREN : Fld := ⟨19, 1⟩
def fTM_CFG_GIDX : Fld := ⟨8, 8⟩
def fTM_CFG_GPOL : Fld := ⟨3, 1⟩
def fTM_CFG_GKIND : Fld := ⟨0, 3⟩
def TM_CTRL (i : Nat) : Nat := 0x240008 + i * 0x100
def fTM_CTRL_SWG : Fld := ⟨8, 1⟩
def fTM_CTRL_CMD : Fld := ⟨0, 2⟩
def TM_STAT (i : Nat) : Nat := 0x24000C + i * 0x100
def fTM_STAT_TSTART : Fld := ⟨16, 1⟩
def fTM_STAT_COVR : Fld := ⟨14, 2⟩
def fTM_STAT_CFULL : Fld := ⟨12, 2⟩
def fTM_STAT_MATCH : Fld := ⟨8, 4⟩
def fTM_STAT_ARMED : Fld := ⟨4, 4⟩
def fTM_STAT_GATE : Fld := ⟨2, 1⟩
def fTM_STAT_SLOW : Fld := ⟨1, 1⟩
def fTM_STAT_RUN : Fld := ⟨0, 1⟩
def TM_CNT (i : Nat) : Nat := 0x240010 + i * 0x100
def fTM_CNT_VALUE : Fld := ⟨0, 32⟩
def TM_CNT_FRAC (i : Nat) : Nat := 0x240014 + i * 0x100
def fTM_CNT_FRAC_FRAC : Fld := ⟨0, 16⟩
def TM_LOAD (i : Nat) : Nat := 0x240018 + i * 0x100
def fTM_LOAD_VALUE : Fld := ⟨0, 32⟩
def TM_CMP (i j : Nat) : Nat := 0x240020 + i * 0x100 + j * 0x8
def fTM_CMP_VALUE : Fld := ⟨0, 32⟩
def TM_CMP_STEP (i j : Nat) : Nat := 0x240024 + i * 0x100 + j * 0x8
def fTM_CMP_STEP_VALUE : Fld := ⟨0, 32⟩
def TM_CMP_CFG (i : Nat) : Nat := 0x240040 + i * 0x100
def fTM_CMP_CFG_WAKE : Fld := ⟨4, 4⟩
def fTM_CMP_CFG_EVEN : Fld := ⟨0, 4⟩
def TM_CAP_CFG (i j : Nat) : Nat := 0x240048 + i * 0x100 + j * 0x4
def fTM_CAP_CFG_EDGE : Fld := ⟨16, 2⟩
def fTM_CAP_CFG_IDX : Fld := ⟨8, 8⟩
def fTM_CAP_CFG_KIND : Fld := ⟨0, 3⟩
def TM_CAP_VAL (i j : Nat) : Nat := 0x240050 + i * 0x100 + j * 0x10
def fTM_CAP_VAL_VALUE : Fld := ⟨0, 32⟩
def TM_CAP_STAMP_LO (i j : Nat) : Nat := 0x240054 + i * 0x100 + j * 0x10
def fTM_CAP_STAMP_LO_VALUE : Fld := ⟨0, 32⟩
def TM_CAP_STAMP_HI (i j : Nat) : Nat := 0x240058 + i * 0x100 + j * 0x10
def fTM_CAP_STAMP_HI_VALUE : Fld := ⟨0, 32⟩
def TM_CAP_SW (i : Nat) : Nat := 0x240070 + i * 0x100
def fTM_CAP_SW_GO : Fld := ⟨0, 2⟩
def TM_MATCH_STAMP_LO (i j : Nat) : Nat := 0x240080 + i * 0x100 + j * 0x8
def fTM_MATCH_STAMP_LO_VALUE : Fld := ⟨0, 32⟩
def TM_MATCH_STAMP_HI (i j : Nat) : Nat := 0x240084 + i * 0x100 + j * 0x8
def fTM_MATCH_STAMP_HI_VALUE : Fld := ⟨0, 32⟩
def TM_MATCH_CNT (i : Nat) : Nat := 0x2400A0 + i * 0x100
def fTM_MATCH_CNT_COUNT : Fld := ⟨0, 32⟩
def TM_CAP_OVR_CNT (i : Nat) : Nat := 0x2400A4 + i * 0x100
def fTM_CAP_OVR_CNT_COUNT : Fld := ⟨0, 32⟩
def TM_SOC_SKIP (i : Nat) : Nat := 0x2400A8 + i * 0x100
def fTM_SOC_SKIP_COUNT : Fld := ⟨0, 32⟩
def TM_CFG_REFUSED (i : Nat) : Nat := 0x2400AC + i * 0x100
def fTM_CFG_REFUSED_COUNT : Fld := ⟨0, 32⟩

def blkTM : BlockDesc := ⟨0x240000, 36, 0x100, 0, 0x0,
  [
  ⟨0x0, 1, 0x4, false, false, false, [⟨23, 16, .RWI, 0, .L3⟩, ⟨11, 8, .RWI, 0, .L3⟩, ⟨6, 6, .RWI, 0, .L3⟩, ⟨4, 0, .RWI, 0, .L3⟩]⟩,
  ⟨0x4, 1, 0x4, false, false, false, [⟨29, 24, .RWI, 0, .L2⟩, ⟨22, 20, .RWI, 0, .L2⟩, ⟨19, 19, .RWI, 0, .L2⟩, ⟨15, 8, .RWI, 0, .L2⟩, ⟨3, 3, .RWI, 0, .L2⟩, ⟨2, 0, .RWI, 0, .L2⟩]⟩,
  ⟨0x8, 1, 0x4, false, true, false, [⟨8, 8, .RW, 0, .L2⟩, ⟨1, 0, .WO, 0, .L2⟩]⟩,
  ⟨0xC, 1, 0x4, false, true, false, [⟨16, 16, .RO, 0, .L0⟩, ⟨15, 14, .W1C, 0, .L2⟩, ⟨13, 12, .W1C, 0, .L2⟩, ⟨11, 8, .W1C, 0, .L2⟩, ⟨7, 4, .RO, 0, .L0⟩, ⟨2, 2, .RO, 0, .L2⟩, ⟨1, 1, .RO, 0, .L2⟩, ⟨0, 0, .RO, 0, .L0⟩]⟩,
  ⟨0x10, 1, 0x4, false, false, false, [⟨31, 0, .RO, 0, .L2⟩]⟩,
  ⟨0x14, 1, 0x4, false, false, false, [⟨15, 0, .RO, 0, .L2⟩]⟩,
  ⟨0x18, 1, 0x4, false, true, false, [⟨31, 0, .RW, 0, .L2⟩]⟩,
  ⟨0x20, 4, 0x8, false, true, false, [⟨31, 0, .RW, 0, .L2⟩]⟩,
  ⟨0x24, 4, 0x8, false, true, false, [⟨31, 0, .RW, 0, .L2⟩]⟩,
  ⟨0x40, 1, 0x4, false, true, false, [⟨7, 4, .RWI, 0, .L2⟩, ⟨3, 0, .RW, 0, .L2⟩]⟩,
  ⟨0x48, 2, 0x4, false, true, false, [⟨17, 16, .RW, 0, .L2⟩, ⟨15, 8, .RWI, 0, .L2⟩, ⟨2, 0, .RWI, 0, .L2⟩]⟩,
  ⟨0x50, 2, 0x10, false, false, false, [⟨31, 0, .RO, 0, .L2⟩]⟩,
  ⟨0x54, 2, 0x10, false, false, false, [⟨31, 0, .RO, 0, .L2⟩]⟩,
  ⟨0x58, 2, 0x10, false, false, false, [⟨31, 0, .RO, 0, .L2⟩]⟩,
  ⟨0x70, 1, 0x4, false, true, false, [⟨1, 0, .WO, 0, .L2⟩]⟩,
  ⟨0x80, 4, 0x8, false, false, false, [⟨31, 0, .RO, 0, .L2⟩]⟩,
  ⟨0x84, 4, 0x8, false, false, false, [⟨31, 0, .RO, 0, .L2⟩]⟩,
  ⟨0xA0, 1, 0x4, false, false, false, [⟨31, 0, .RO, 0, .L2⟩]⟩,
  ⟨0xA4, 1, 0x4, false, false, false, [⟨31, 0, .RO, 0, .L2⟩]⟩,
  ⟨0xA8, 1, 0x4, false, false, false, [⟨31, 0, .RO, 0, .L2⟩]⟩,
  ⟨0xAC, 1, 0x4, false, false, false, [⟨31, 0, .RO, 0, .L2⟩]⟩]⟩

/-! ### TMG (R272, 09_gated_timers.md) -/

def TM_SLOW_INC_LO : Nat := 0x248000
def fTM_SLOW_INC_LO_INC : Fld := ⟨0, 32⟩
def TM_SLOW_INC_HI : Nat := 0x248004
def fTM_SLOW_INC_HI_INC : Fld := ⟨0, 8⟩
def TMG_CFG (j : Nat) : Nat := 0x248100 + j * 0x20
def fTMG_CFG_EN : Fld := ⟨7, 1⟩
def fTMG_CFG_N : Fld := ⟨0, 6⟩
def TMG_SPAN (j : Nat) : Nat := 0x248104 + j * 0x20
def fTMG_SPAN_VALUE : Fld := ⟨0, 32⟩
def TMG_BASE (j : Nat) : Nat := 0x248108 + j * 0x20
def fTMG_BASE_VALUE : Fld := ⟨0, 32⟩
def TMG_TIME_LO (j : Nat) : Nat := 0x24810C + j * 0x20
def fTMG_TIME_LO_VALUE : Fld := ⟨0, 32⟩
def TMG_TIME_HI (j : Nat) : Nat := 0x248110 + j * 0x20
def fTMG_TIME_HI_VALUE : Fld := ⟨0, 32⟩
def TMG_CTRL (j : Nat) : Nat := 0x248114 + j * 0x20
def fTMG_CTRL_GO : Fld := ⟨0, 2⟩
def TMG_STAT (j : Nat) : Nat := 0x248118 + j * 0x20
def fTMG_STAT_LATE : Fld := ⟨0, 1⟩
def TMG_LATE_CNT (j : Nat) : Nat := 0x24811C + j * 0x20
def fTMG_LATE_CNT_COUNT : Fld := ⟨0, 32⟩

def blkTMG : BlockDesc := ⟨0x248000, 1, 0x200, 0, 0x0,
  [
  ⟨0x0, 1, 0x4, false, false, false, [⟨31, 0, .RWI, 0x77359400, .L3⟩]⟩,
  ⟨0x4, 1, 0x4, false, false, false, [⟨7, 0, .RWI, 0, .L3⟩]⟩,
  ⟨0x100, 8, 0x20, false, false, false, [⟨7, 7, .RWI, 0, .L2⟩, ⟨5, 0, .RWI, 1, .L2⟩]⟩,
  ⟨0x104, 8, 0x20, false, false, false, [⟨31, 0, .RWI, 0, .L2⟩]⟩,
  ⟨0x108, 8, 0x20, false, false, false, [⟨31, 0, .RWI, 0, .L2⟩]⟩,
  ⟨0x10C, 8, 0x20, false, false, false, [⟨31, 0, .RWI, 0, .L2⟩]⟩,
  ⟨0x110, 8, 0x20, false, false, false, [⟨31, 0, .RWI, 0, .L2⟩]⟩,
  ⟨0x114, 8, 0x20, false, false, false, [⟨1, 0, .WO, 0, .L2⟩]⟩,
  ⟨0x118, 8, 0x20, false, false, false, [⟨0, 0, .W1C, 0, .L2⟩]⟩,
  ⟨0x11C, 8, 0x20, false, false, false, [⟨31, 0, .RO, 0, .L2⟩]⟩]⟩

/-! ### PF (R289, 10_position_feedback.md) -/

def PF_MAP (i : Nat) : Nat := 0x250000 + i * 0x400
def fPF_MAP_INC : Fld := ⟨16, 8⟩
def fPF_MAP_FLOCK : Fld := ⟨8, 4⟩
def fPF_MAP_LVALID : Fld := ⟨6, 1⟩
def fPF_MAP_LOGICAL : Fld := ⟨0, 3⟩
def PF_CFG (i : Nat) : Nat := 0x250004 + i * 0x400
def fPF_CFG_TEETH : Fld := ⟨16, 11⟩
def fPF_CFG_FRZ : Fld := ⟨12, 2⟩
def fPF_CFG_MSRC : Fld := ⟨11, 1⟩
def fPF_CFG_DIRMODE : Fld := ⟨10, 1⟩
def fPF_CFG_REFACT : Fld := ⟨8, 2⟩
def fPF_CFG_MISS : Fld := ⟨6, 1⟩
def fPF_CFG_REFMODE : Fld := ⟨4, 2⟩
def fPF_CFG_EDGE : Fld := ⟨3, 1⟩
def fPF_CFG_INSEL : Fld := ⟨0, 3⟩
def PF_CTRL (i : Nat) : Nat := 0x250008 + i * 0x400
def fPF_CTRL_CMD : Fld := ⟨0, 2⟩
def PF_STAT (i : Nat) : Nat := 0x25000C + i * 0x400
def fPF_STAT_MREF : Fld := ⟨8, 1⟩
def fPF_STAT_DIRCHG : Fld := ⟨7, 1⟩
def fPF_STAT_REFSEEN : Fld := ⟨6, 1⟩
def fPF_STAT_UNOBS : Fld := ⟨5, 1⟩
def fPF_STAT_FROZEN : Fld := ⟨4, 1⟩
def fPF_STAT_DIR : Fld := ⟨3, 1⟩
def fPF_STAT_REFOK : Fld := ⟨2, 1⟩
def fPF_STAT_AVGOK : Fld := ⟨1, 1⟩
def fPF_STAT_RUN : Fld := ⟨0, 1⟩
def PF_REFTHR (i : Nat) : Nat := 0x250010 + i * 0x400
def fPF_REFTHR_THR : Fld := ⟨0, 16⟩
def PF_FLT (i : Nat) : Nat := 0x250014 + i * 0x400
def fPF_FLT_FC : Fld := ⟨0, 16⟩
def PF_WFWD_MIN (i : Nat) : Nat := 0x250018 + i * 0x400
def fPF_WFWD_MIN_VALUE : Fld := ⟨0, 32⟩
def PF_WFWD_MAX (i : Nat) : Nat := 0x25001C + i * 0x400
def fPF_WFWD_MAX_VALUE : Fld := ⟨0, 32⟩
def PF_WREV_MIN (i : Nat) : Nat := 0x250020 + i * 0x400
def fPF_WREV_MIN_VALUE : Fld := ⟨0, 32⟩
def PF_WREV_MAX (i : Nat) : Nat := 0x250024 + i * 0x400
def fPF_WREV_MAX_VALUE : Fld := ⟨0, 32⟩
def PF_REFVAL (i : Nat) : Nat := 0x250028 + i * 0x400
def fPF_REFVAL_VALUE : Fld := ⟨0, 32⟩
def PF_L (i j : Nat) : Nat := 0x25002C + i * 0x400 + j * 0x4
def fPF_L_GAIN : Fld := ⟨0, 32⟩
def PF_MEAS_MAXAGE (i : Nat) : Nat := 0x250038 + i * 0x400
def fPF_MEAS_MAXAGE_STEPS : Fld := ⟨0, 16⟩
def PF_POS (i : Nat) : Nat := 0x250040 + i * 0x400
def fPF_POS_VALUE : Fld := ⟨0, 32⟩
def PF_TOOTH_IDX (i : Nat) : Nat := 0x250044 + i * 0x400
def fPF_TOOTH_IDX_IDX : Fld := ⟨0, 11⟩
def PF_PERIOD (i : Nat) : Nat := 0x250048 + i * 0x400
def fPF_PERIOD_VALUE : Fld := ⟨0, 32⟩
def PF_AVG (i : Nat) : Nat := 0x25004C + i * 0x400
def fPF_AVG_VALUE : Fld := ⟨0, 32⟩
def PF_WIDTH (i : Nat) : Nat := 0x250050 + i * 0x400
def fPF_WIDTH_VALUE : Fld := ⟨0, 32⟩
def PF_EDGE_STAMP_LO (i : Nat) : Nat := 0x250058 + i * 0x400
def fPF_EDGE_STAMP_LO_VALUE : Fld := ⟨0, 32⟩
def PF_EDGE_STAMP_HI (i : Nat) : Nat := 0x25005C + i * 0x400
def fPF_EDGE_STAMP_HI_VALUE : Fld := ⟨0, 32⟩
def PF_REF_STAMP_LO (i : Nat) : Nat := 0x250060 + i * 0x400
def fPF_REF_STAMP_LO_VALUE : Fld := ⟨0, 32⟩
def PF_REF_STAMP_HI (i : Nat) : Nat := 0x250064 + i * 0x400
def fPF_REF_STAMP_HI_VALUE : Fld := ⟨0, 32⟩
def PF_REF_POS (i : Nat) : Nat := 0x250068 + i * 0x400
def fPF_REF_POS_VALUE : Fld := ⟨0, 32⟩
def PF_REF_TEETH (i : Nat) : Nat := 0x25006C + i * 0x400
def fPF_REF_TEETH_VALUE : Fld := ⟨0, 32⟩
def PF_OPOS (i : Nat) : Nat := 0x250070 + i * 0x400
def fPF_OPOS_VALUE : Fld := ⟨0, 32⟩
def PF_OPOS_FRAC (i : Nat) : Nat := 0x250074 + i * 0x400
def fPF_OPOS_FRAC_FRAC : Fld := ⟨0, 16⟩
def PF_OSPD (i : Nat) : Nat := 0x250078 + i * 0x400
def fPF_OSPD_VALUE : Fld := ⟨0, 32⟩
def PF_OACC (i : Nat) : Nat := 0x25007C + i * 0x400
def fPF_OACC_VALUE : Fld := ⟨0, 32⟩
def PF_OSTAMP_LO (i : Nat) : Nat := 0x250080 + i * 0x400
def fPF_OSTAMP_LO_VALUE : Fld := ⟨0, 32⟩
def PF_OSTAMP_HI (i : Nat) : Nat := 0x250084 + i * 0x400
def fPF_OSTAMP_HI_VALUE : Fld := ⟨0, 32⟩
def PF_MEAS_STAMP_LO (i : Nat) : Nat := 0x250090 + i * 0x400
def fPF_MEAS_STAMP_LO_VALUE : Fld := ⟨0, 32⟩
def PF_MEAS_STAMP_HI (i : Nat) : Nat := 0x250094 + i * 0x400
def fPF_MEAS_STAMP_HI_VALUE : Fld := ⟨0, 32⟩
def PF_MEAS_ANG (i : Nat) : Nat := 0x250098 + i * 0x400
def fPF_MEAS_ANG_ANGLE : Fld := ⟨0, 32⟩
def PF_TOOTH_CNT (i : Nat) : Nat := 0x2500C0 + i * 0x400
def fPF_TOOTH_CNT_COUNT : Fld := ⟨0, 32⟩
def PF_GLITCH_CNT (i : Nat) : Nat := 0x2500C4 + i * 0x400
def fPF_GLITCH_CNT_COUNT : Fld := ⟨0, 32⟩
def PF_WUNCL_CNT (i : Nat) : Nat := 0x2500C8 + i * 0x400
def fPF_WUNCL_CNT_COUNT : Fld := ⟨0, 32⟩
def PF_REF_CNT (i : Nat) : Nat := 0x2500CC + i * 0x400
def fPF_REF_CNT_COUNT : Fld := ⟨0, 32⟩
def PF_DIRCHG_CNT (i : Nat) : Nat := 0x2500D0 + i * 0x400
def fPF_DIRCHG_CNT_COUNT : Fld := ⟨0, 32⟩
def PF_MEAS_CNT (i : Nat) : Nat := 0x2500D4 + i * 0x400
def fPF_MEAS_CNT_COUNT : Fld := ⟨0, 32⟩
def PF_MEAS_OVR (i : Nat) : Nat := 0x2500D8 + i * 0x400
def fPF_MEAS_OVR_COUNT : Fld := ⟨0, 32⟩
def PF_MEAS_REFUSED (i : Nat) : Nat := 0x2500DC + i * 0x400
def fPF_MEAS_REFUSED_COUNT : Fld := ⟨0, 32⟩
def PF_OLD_CNT (i : Nat) : Nat := 0x2500E0 + i * 0x400
def fPF_OLD_CNT_COUNT : Fld := ⟨0, 32⟩
def PF_FRZ_LOST (i : Nat) : Nat := 0x2500E4 + i * 0x400
def fPF_FRZ_LOST_COUNT : Fld := ⟨0, 32⟩
def PF_CFG_REFUSED (i : Nat) : Nat := 0x2500E8 + i * 0x400
def fPF_CFG_REFUSED_COUNT : Fld := ⟨0, 32⟩

def blkPF : BlockDesc := ⟨0x250000, 10, 0x400, 0, 0x0,
  [
  ⟨0x0, 1, 0x4, false, false, false, [⟨23, 16, .RWI, 0, .L3⟩, ⟨11, 8, .RWI, 0, .L3⟩, ⟨6, 6, .RWI, 0, .L3⟩, ⟨2, 0, .RWI, 0, .L3⟩]⟩,
  ⟨0x4, 1, 0x4, false, true, false, [⟨26, 16, .RWI, 8, .L2⟩, ⟨13, 12, .RWI, 0, .L2⟩, ⟨11, 11, .RWI, 0, .L2⟩, ⟨10, 10, .RWI, 0, .L2⟩, ⟨9, 8, .RW, 0, .L2⟩, ⟨6, 6, .RWI, 0, .L2⟩, ⟨5, 4, .RWI, 0, .L2⟩, ⟨3, 3, .RWI, 0, .L2⟩, ⟨2, 0, .RWI, 0, .L2⟩]⟩,
  ⟨0x8, 1, 0x4, false, true, false, [⟨1, 0, .WO, 0, .L2⟩]⟩,
  ⟨0xC, 1, 0x4, false, true, false, [⟨8, 8, .W1C, 0, .L2⟩, ⟨7, 7, .W1C, 0, .L2⟩, ⟨6, 6, .W1C, 0, .L2⟩, ⟨5, 5, .W1C, 0, .L2⟩, ⟨4, 4, .RO, 0, .L2⟩, ⟨3, 3, .RO, 0, .L2⟩, ⟨2, 2, .RO, 0, .L2⟩, ⟨1, 1, .RO, 0, .L2⟩, ⟨0, 0, .RO, 0, .L0⟩]⟩,
  ⟨0x10, 1, 0x4, false, false, false, [⟨15, 0, .RWI, 0x180, .L2⟩]⟩,
  ⟨0x14, 1, 0x4, false, false, false, [⟨15, 0, .RWI, 0, .L2⟩]⟩,
  ⟨0x18, 1, 0x4, false, false, false, [⟨31, 0, .RWI, 0, .L2⟩]⟩,
  ⟨0x1C, 1, 0x4, false, false, false, [⟨31, 0, .RWI, 0, .L2⟩]⟩,
  ⟨0x20, 1, 0x4, false, false, false, [⟨31, 0, .RWI, 0, .L2⟩]⟩,
  ⟨0x24, 1, 0x4, false, false, false, [⟨31, 0, .RWI, 0, .L2⟩]⟩,
  ⟨0x28, 1, 0x4, false, true, false, [⟨31, 0, .RW, 0, .L2⟩]⟩,
  ⟨0x2C, 3, 0x4, false, true, false, [⟨31, 0, .RW, 0, .L2⟩]⟩,
  ⟨0x38, 1, 0x4, false, true, false, [⟨15, 0, .RW, 0x3e8, .L2⟩]⟩,
  ⟨0x40, 1, 0x4, false, true, false, [⟨31, 0, .RW, 0, .L2⟩]⟩,
  ⟨0x44, 1, 0x4, false, false, false, [⟨10, 0, .RO, 0, .L2⟩]⟩,
  ⟨0x48, 1, 0x4, false, false, false, [⟨31, 0, .RO, 0, .L2⟩]⟩,
  ⟨0x4C, 1, 0x4, false, false, false, [⟨31, 0, .RO, 0, .L2⟩]⟩,
  ⟨0x50, 1, 0x4, false, false, false, [⟨31, 0, .RO, 0, .L2⟩]⟩,
  ⟨0x58, 1, 0x4, false, false, false, [⟨31, 0, .RO, 0, .L2⟩]⟩,
  ⟨0x5C, 1, 0x4, false, false, false, [⟨31, 0, .RO, 0, .L2⟩]⟩,
  ⟨0x60, 1, 0x4, false, false, false, [⟨31, 0, .RO, 0, .L2⟩]⟩,
  ⟨0x64, 1, 0x4, false, false, false, [⟨31, 0, .RO, 0, .L2⟩]⟩,
  ⟨0x68, 1, 0x4, false, false, false, [⟨31, 0, .RO, 0, .L2⟩]⟩,
  ⟨0x6C, 1, 0x4, false, false, false, [⟨31, 0, .RO, 0, .L2⟩]⟩,
  ⟨0x70, 1, 0x4, false, false, false, [⟨31, 0, .RO, 0, .L2⟩]⟩,
  ⟨0x74, 1, 0x4, false, false, false, [⟨15, 0, .RO, 0, .L2⟩]⟩,
  ⟨0x78, 1, 0x4, false, false, false, [⟨31, 0, .RO, 0, .L2⟩]⟩,
  ⟨0x7C, 1, 0x4, false, false, false, [⟨31, 0, .RO, 0, .L2⟩]⟩,
  ⟨0x80, 1, 0x4, false, false, false, [⟨31, 0, .RO, 0, .L2⟩]⟩,
  ⟨0x84, 1, 0x4, false, false, false, [⟨31, 0, .RO, 0, .L2⟩]⟩,
  ⟨0x90, 1, 0x4, false, true, false, [⟨31, 0, .RW, 0, .L2⟩]⟩,
  ⟨0x94, 1, 0x4, false, true, false, [⟨31, 0, .RW, 0, .L2⟩]⟩,
  ⟨0x98, 1, 0x4, false, true, false, [⟨31, 0, .WO, 0, .L2⟩]⟩,
  ⟨0xC0, 1, 0x4, false, false, false, [⟨31, 0, .RO, 0, .L2⟩]⟩,
  ⟨0xC4, 1, 0x4, false, false, false, [⟨31, 0, .RO, 0, .L2⟩]⟩,
  ⟨0xC8, 1, 0x4, false, false, false, [⟨31, 0, .RO, 0, .L2⟩]⟩,
  ⟨0xCC, 1, 0x4, false, false, false, [⟨31, 0, .RO, 0, .L2⟩]⟩,
  ⟨0xD0, 1, 0x4, false, false, false, [⟨31, 0, .RO, 0, .L2⟩]⟩,
  ⟨0xD4, 1, 0x4, false, false, false, [⟨31, 0, .RO, 0, .L2⟩]⟩,
  ⟨0xD8, 1, 0x4, false, false, false, [⟨31, 0, .RO, 0, .L2⟩]⟩,
  ⟨0xDC, 1, 0x4, false, false, false, [⟨31, 0, .RO, 0, .L2⟩]⟩,
  ⟨0xE0, 1, 0x4, false, false, false, [⟨31, 0, .RO, 0, .L2⟩]⟩,
  ⟨0xE4, 1, 0x4, false, false, false, [⟨31, 0, .RO, 0, .L2⟩]⟩,
  ⟨0xE8, 1, 0x4, false, false, false, [⟨31, 0, .RO, 0, .L2⟩]⟩]⟩

/-! ### PFG (R290, 10_position_feedback.md) -/

def PF_OBS_DIV : Nat := 0x258000
def fPF_OBS_DIV_FC : Fld := ⟨0, 16⟩
def PF_STEP_TK : Nat := 0x258004
def fPF_STEP_TK_TK : Fld := ⟨0, 32⟩

def blkPFG : BlockDesc := ⟨0x258000, 1, 0x8, 0, 0x0,
  [
  ⟨0x0, 1, 0x4, false, false, false, [⟨15, 0, .RWI, 0x3e8, .L3⟩]⟩,
  ⟨0x4, 1, 0x4, false, false, false, [⟨31, 0, .RWI, 0x10c7, .L3⟩]⟩]⟩

/-! ### CP (R316, 11_chanters.md) -/

def CH_MAP (i : Nat) : Nat := 0x260000 + i * 0x1000
def fCH_MAP_INC : Fld := ⟨16, 8⟩
def fCH_MAP_LVALID : Fld := ⟨6, 1⟩
def fCH_MAP_LOGICAL : Fld := ⟨0, 5⟩
def CH_CTRL (i : Nat) : Nat := 0x260004 + i * 0x1000
def fCH_CTRL_CMD : Fld := ⟨0, 2⟩
def CH_CFG (i : Nat) : Nat := 0x260008 + i * 0x1000
def fCH_CFG_FRZ : Fld := ⟨4, 2⟩
def fCH_CFG_NCHM1 : Fld := ⟨0, 4⟩
def CH_DIV (i : Nat) : Nat := 0x26000C + i * 0x1000
def fCH_DIV_DIV : Fld := ⟨0, 24⟩
def CH_DIVPH (i : Nat) : Nat := 0x260010 + i * 0x1000
def fCH_DIVPH_PH : Fld := ⟨0, 24⟩
def CH_STAT (i : Nat) : Nat := 0x260014 + i * 0x1000
def fCH_STAT_FAULTED : Fld := ⟨16, 16⟩
def fCH_STAT_PRIV : Fld := ⟨2, 1⟩
def fCH_STAT_FROZEN : Fld := ⟨1, 1⟩
def fCH_STAT_RUN : Fld := ⟨0, 1⟩
def CH_CFG_REFUSED (i : Nat) : Nat := 0x260018 + i * 0x1000
def fCH_CFG_REFUSED_COUNT : Fld := ⟨0, 32⟩
def CH_FAULT_CNT (i : Nat) : Nat := 0x26001C + i * 0x1000
def fCH_FAULT_CNT_COUNT : Fld := ⟨0, 32⟩
def CH_CCFG (i j : Nat) : Nat := 0x260100 + i * 0x1000 + j * 0x40
def fCH_CCFG_EN : Fld := ⟨31, 1⟩
def fCH_CCFG_FLOCK : Fld := ⟨27, 4⟩
def fCH_CCFG_PFEN : Fld := ⟨26, 1⟩
def fCH_CCFG_PFU : Fld := ⟨23, 3⟩
def fCH_CCFG_FILL : Fld := ⟨22, 1⟩
def fCH_CCFG_EPIN : Fld := ⟨20, 2⟩
def fCH_CCFG_FRM : Fld := ⟨19, 1⟩
def fCH_CCFG_CHAIN : Fld := ⟨18, 1⟩
def fCH_CCFG_JOIN : Fld := ⟨16, 2⟩
def fCH_CCFG_PDIR : Fld := ⟨8, 4⟩
def fCH_CCFG_START : Fld := ⟨0, 8⟩
def CH_CCTL (i j : Nat) : Nat := 0x260104 + i * 0x1000 + j * 0x40
def fCH_CCTL_CMD : Fld := ⟨0, 2⟩
def CH_CSTAT (i j : Nat) : Nat := 0x260108 + i * 0x1000 + j * 0x40
def fCH_CSTAT_PC : Fld := ⟨24, 8⟩
def fCH_CSTAT_CNT : Fld := ⟨16, 8⟩
def fCH_CSTAT_FAULT : Fld := ⟨12, 3⟩
def fCH_CSTAT_SHORT : Fld := ⟨10, 1⟩
def fCH_CSTAT_PDROP : Fld := ⟨9, 1⟩
def fCH_CSTAT_EXCESS : Fld := ⟨8, 1⟩
def fCH_CSTAT_RUND : Fld := ⟨7, 1⟩
def fCH_CSTAT_TOVR : Fld := ⟨6, 1⟩
def fCH_CSTAT_TUND : Fld := ⟨5, 1⟩
def fCH_CSTAT_ROVR : Fld := ⟨4, 1⟩
def fCH_CSTAT_HOLD : Fld := ⟨1, 1⟩
def fCH_CSTAT_RUN : Fld := ⟨0, 1⟩
def CH_CNTLD (i j : Nat) : Nat := 0x26010C + i * 0x1000 + j * 0x40
def fCH_CNTLD_VALUE : Fld := ⟨0, 8⟩
def CH_TXIDLE (i j : Nat) : Nat := 0x260110 + i * 0x1000 + j * 0x40
def fCH_TXIDLE_VALUE : Fld := ⟨0, 32⟩
def CH_TXDATA (i j : Nat) : Nat := 0x260114 + i * 0x1000 + j * 0x40
def fCH_TXDATA_DATA : Fld := ⟨0, 32⟩
def CH_RXDATA (i j : Nat) : Nat := 0x260118 + i * 0x1000 + j * 0x40
def fCH_RXDATA_DATA : Fld := ⟨0, 32⟩
def CH_RXTAG (i j : Nat) : Nat := 0x26011C + i * 0x1000 + j * 0x40
def fCH_RXTAG_TAG : Fld := ⟨0, 6⟩
def CH_QLVL (i j : Nat) : Nat := 0x260120 + i * 0x1000 + j * 0x40
def fCH_QLVL_RXL : Fld := ⟨8, 8⟩
def fCH_QLVL_TXL : Fld := ⟨0, 8⟩
def CH_TXSRC (i j : Nat) : Nat := 0x260124 + i * 0x1000 + j * 0x40
def fCH_TXSRC_EN : Fld := ⟨31, 1⟩
def fCH_TXSRC_NW : Fld := ⟨16, 2⟩
def fCH_TXSRC_QUEUE : Fld := ⟨0, 12⟩
def CH_RXDST (i j : Nat) : Nat := 0x260128 + i * 0x1000 + j * 0x40
def fCH_RXDST_EN : Fld := ⟨31, 1⟩
def fCH_RXDST_FMT : Fld := ⟨29, 2⟩
def fCH_RXDST_CELL : Fld := ⟨20, 9⟩
def fCH_RXDST_QUEUE : Fld := ⟨0, 12⟩
def CH_FRM (i j : Nat) : Nat := 0x26012C + i * 0x1000 + j * 0x40
def fCH_FRM_FDIR : Fld := ⟨24, 1⟩
def fCH_FRM_SELPOL : Fld := ⟨23, 1⟩
def fCH_FRM_SEDGE : Fld := ⟨22, 1⟩
def fCH_FRM_EXC : Fld := ⟨21, 1⟩
def fCH_FRM_PART : Fld := ⟨20, 1⟩
def fCH_FRM_FBITS : Fld := ⟨8, 10⟩
def fCH_FRM_WLEN : Fld := ⟨0, 5⟩
def CH_STAMP_LO (i j : Nat) : Nat := 0x260130 + i * 0x1000 + j * 0x40
def fCH_STAMP_LO_VALUE : Fld := ⟨0, 32⟩
def CH_STAMP_HI (i j : Nat) : Nat := 0x260134 + i * 0x1000 + j * 0x40
def fCH_STAMP_HI_VALUE : Fld := ⟨0, 32⟩
def CH_CNT_A (i j : Nat) : Nat := 0x260138 + i * 0x1000 + j * 0x40
def fCH_CNT_A_ROVR : Fld := ⟨16, 16⟩
def fCH_CNT_A_TUND : Fld := ⟨0, 16⟩
def CH_CNT_B (i j : Nat) : Nat := 0x26013C + i * 0x1000 + j * 0x40
def fCH_CNT_B_PDROP : Fld := ⟨16, 16⟩
def fCH_CNT_B_XBITS : Fld := ⟨0, 16⟩
def CH_CMEM_LO (i j : Nat) : Nat := 0x260800 + i * 0x1000 + j * 0x8
def fCH_CMEM_LO_DATA : Fld := ⟨0, 32⟩
def CH_CMEM_HI (i j : Nat) : Nat := 0x260804 + i * 0x1000 + j * 0x8
def fCH_CMEM_HI_DATA : Fld := ⟨0, 8⟩

def blkCP : BlockDesc := ⟨0x260000, 36, 0x1000, 0, 0x0,
  [
  ⟨0x0, 1, 0x4, false, false, false, [⟨23, 16, .RWI, 0, .L3⟩, ⟨6, 6, .RWI, 0, .L3⟩, ⟨4, 0, .RWI, 0, .L3⟩]⟩,
  ⟨0x4, 1, 0x4, false, false, false, [⟨1, 0, .WO, 0, .L2⟩]⟩,
  ⟨0x8, 1, 0x4, false, false, false, [⟨5, 4, .RWI, 0, .L2⟩, ⟨3, 0, .RWI, 0, .L2⟩]⟩,
  ⟨0xC, 1, 0x4, false, false, false, [⟨23, 0, .RWI, 0x400, .L2⟩]⟩,
  ⟨0x10, 1, 0x4, false, false, false, [⟨23, 0, .RWI, 0, .L2⟩]⟩,
  ⟨0x14, 1, 0x4, false, false, false, [⟨31, 16, .RO, 0, .L2⟩, ⟨2, 2, .RO, 0, .L2⟩, ⟨1, 1, .RO, 0, .L2⟩, ⟨0, 0, .RO, 0, .L2⟩]⟩,
  ⟨0x18, 1, 0x4, false, false, false, [⟨31, 0, .RO, 0, .L2⟩]⟩,
  ⟨0x1C, 1, 0x4, false, false, false, [⟨31, 0, .RO, 0, .L2⟩]⟩,
  ⟨0x100, 16, 0x40, false, false, false, [⟨31, 31, .RWI, 0, .L0⟩, ⟨30, 27, .RWI, 0, .L3⟩, ⟨26, 26, .RWI, 0, .L2⟩, ⟨25, 23, .RWI, 0, .L2⟩, ⟨22, 22, .RWI, 0, .L2⟩, ⟨21, 20, .RWI, 0, .L2⟩, ⟨19, 19, .RWI, 0, .L2⟩, ⟨18, 18, .RWI, 0, .L2⟩, ⟨17, 16, .RWI, 0, .L2⟩, ⟨11, 8, .RWI, 0, .L2⟩, ⟨7, 0, .RWI, 0, .L2⟩]⟩,
  ⟨0x104, 16, 0x40, false, true, false, [⟨1, 0, .WO, 0, .L2⟩]⟩,
  ⟨0x108, 16, 0x40, false, true, false, [⟨31, 24, .RO, 0, .L2⟩, ⟨23, 16, .RO, 0, .L2⟩, ⟨14, 12, .RO, 0, .L2⟩, ⟨10, 10, .W1C, 0, .L2⟩, ⟨9, 9, .W1C, 0, .L2⟩, ⟨8, 8, .W1C, 0, .L2⟩, ⟨7, 7, .W1C, 0, .L2⟩, ⟨6, 6, .W1C, 0, .L2⟩, ⟨5, 5, .W1C, 0, .L2⟩, ⟨4, 4, .W1C, 0, .L2⟩, ⟨1, 1, .RO, 0, .L2⟩, ⟨0, 0, .RO, 0, .L2⟩]⟩,
  ⟨0x10C, 16, 0x40, false, true, false, [⟨7, 0, .RW, 0, .L2⟩]⟩,
  ⟨0x110, 16, 0x40, false, true, false, [⟨31, 0, .RW, 0, .L2⟩]⟩,
  ⟨0x114, 16, 0x40, false, true, false, [⟨31, 0, .WO, 0, .L2⟩]⟩,
  ⟨0x118, 16, 0x40, false, false, false, [⟨31, 0, .RO, 0, .L2⟩]⟩,
  ⟨0x11C, 16, 0x40, false, false, false, [⟨5, 0, .RO, 0, .L2⟩]⟩,
  ⟨0x120, 16, 0x40, false, false, false, [⟨15, 8, .RO, 0, .L2⟩, ⟨7, 0, .RO, 0, .L2⟩]⟩,
  ⟨0x124, 16, 0x40, false, false, false, [⟨31, 31, .RWI, 0, .L2⟩, ⟨17, 16, .RWI, 0, .L2⟩, ⟨11, 0, .RWI, 0, .L2⟩]⟩,
  ⟨0x128, 16, 0x40, false, false, false, [⟨31, 31, .RWI, 0, .L2⟩, ⟨30, 29, .RWI, 0, .L2⟩, ⟨28, 20, .RWI, 0, .L2⟩, ⟨11, 0, .RWI, 0, .L2⟩]⟩,
  ⟨0x12C, 16, 0x40, false, false, false, [⟨24, 24, .RWI, 0, .L2⟩, ⟨23, 23, .RWI, 0, .L2⟩, ⟨22, 22, .RWI, 0, .L2⟩, ⟨21, 21, .RWI, 0, .L2⟩, ⟨20, 20, .RWI, 0, .L2⟩, ⟨17, 8, .RWI, 0, .L2⟩, ⟨4, 0, .RWI, 0x1f, .L2⟩]⟩,
  ⟨0x130, 16, 0x40, false, false, false, [⟨31, 0, .RO, 0, .L2⟩]⟩,
  ⟨0x134, 16, 0x40, false, false, false, [⟨31, 0, .RO, 0, .L2⟩]⟩,
  ⟨0x138, 16, 0x40, false, false, false, [⟨31, 16, .RO, 0, .L2⟩, ⟨15, 0, .RO, 0, .L2⟩]⟩,
  ⟨0x13C, 16, 0x40, false, false, false, [⟨31, 16, .RO, 0, .L2⟩, ⟨15, 0, .RO, 0, .L2⟩]⟩,
  ⟨0x800, 256, 0x8, false, false, false, [⟨31, 0, .RWI, 0, .L3⟩]⟩,
  ⟨0x804, 256, 0x8, false, false, false, [⟨7, 0, .RWI, 0, .L3⟩]⟩]⟩

/-! ### CHG (R319, 11_chanters.md) -/

def CH_PIN (j : Nat) : Nat := 0x288000 + j * 0x4
def fCH_PIN_EN : Fld := ⟨31, 1⟩
def fCH_PIN_CP : Fld := ⟨24, 6⟩
def fCH_PIN_CH : Fld := ⟨16, 4⟩
def fCH_PIN_WP : Fld := ⟨12, 2⟩
def fCH_PIN_SOE : Fld := ⟨5, 1⟩
def fCH_PIN_SLVL : Fld := ⟨4, 1⟩
def CH_SYNC_MASK : Nat := 0x288400
def fCH_SYNC_MASK_MASK : Fld := ⟨0, 32⟩
def CH_SYNC_CTRL : Nat := 0x288404
def fCH_SYNC_CTRL_SOCSEL : Fld := ⟨8, 6⟩
def fCH_SYNC_CTRL_SRC : Fld := ⟨4, 2⟩
def fCH_SYNC_CTRL_OP : Fld := ⟨0, 2⟩
def CH_SYNC_TIME_LO : Nat := 0x288408
def fCH_SYNC_TIME_LO_VALUE : Fld := ⟨0, 32⟩
def CH_SYNC_TIME_HI : Nat := 0x28840C
def fCH_SYNC_TIME_HI_VALUE : Fld := ⟨0, 32⟩
def CH_SYNC_TPER : Nat := 0x288410
def fCH_SYNC_TPER_VALUE : Fld := ⟨0, 32⟩
def CH_SYNC_CNT : Nat := 0x288414
def fCH_SYNC_CNT_VALUE : Fld := ⟨0, 32⟩
def CH_PRIV (j : Nat) : Nat := 0x288420 + j * 0x4
def fCH_PRIV_VALID : Fld := ⟨7, 1⟩
def fCH_PRIV_LOGICAL : Fld := ⟨0, 5⟩
def CH_FLAGS : Nat := 0x288430
def fCH_FLAGS_F : Fld := ⟨0, 16⟩
def CH_SCAT_CFG : Nat := 0x288440
def fCH_SCAT_CFG_EN : Fld := ⟨31, 1⟩
def fCH_SCAT_CFG_BATCH : Fld := ⟨24, 4⟩
def fCH_SCAT_CFG_WFMT : Fld := ⟨20, 1⟩
def fCH_SCAT_CFG_QUEUE : Fld := ⟨0, 12⟩
def CH_SCAT_SKIP : Nat := 0x288444
def fCH_SCAT_SKIP_COUNT : Fld := ⟨0, 32⟩
def CH_SCAT_DROP : Nat := 0x288448
def fCH_SCAT_DROP_COUNT : Fld := ⟨0, 32⟩
def CH_SMAP (j : Nat) : Nat := 0x288800 + j * 0x4
def fCH_SMAP_VALID : Fld := ⟨31, 1⟩
def fCH_SMAP_LOGICAL : Fld := ⟨4, 5⟩
def fCH_SMAP_CHANNEL : Fld := ⟨0, 4⟩

def blkCHG : BlockDesc := ⟨0x288000, 1, 0x1000, 0, 0x0,
  [
  ⟨0x0, 192, 0x4, false, false, false, [⟨31, 31, .RWI, 0, .L2⟩, ⟨29, 24, .RWI, 0, .L2⟩, ⟨19, 16, .RWI, 0, .L2⟩, ⟨13, 12, .RWI, 0, .L2⟩, ⟨5, 5, .RWI, 0, .L2⟩, ⟨4, 4, .RWI, 0, .L2⟩]⟩,
  ⟨0x400, 1, 0x4, false, false, false, [⟨31, 0, .RWI, 0, .L2⟩]⟩,
  ⟨0x404, 1, 0x4, false, false, false, [⟨13, 8, .RWI, 0, .L2⟩, ⟨5, 4, .RWI, 0, .L2⟩, ⟨1, 0, .RWI, 0, .L2⟩]⟩,
  ⟨0x408, 1, 0x4, false, false, false, [⟨31, 0, .RWI, 0, .L2⟩]⟩,
  ⟨0x40C, 1, 0x4, false, false, false, [⟨31, 0, .RWI, 0, .L2⟩]⟩,
  ⟨0x410, 1, 0x4, false, false, false, [⟨31, 0, .RWI, 0, .L2⟩]⟩,
  ⟨0x414, 1, 0x4, false, false, false, [⟨31, 0, .RO, 0, .L2⟩]⟩,
  ⟨0x420, 4, 0x4, false, false, false, [⟨7, 7, .RWI, 0, .L3⟩, ⟨4, 0, .RWI, 0, .L3⟩]⟩,
  ⟨0x430, 1, 0x4, false, false, false, [⟨15, 0, .RWI, 0, .L2⟩]⟩,
  ⟨0x440, 1, 0x4, false, false, false, [⟨31, 31, .RWI, 0, .L2⟩, ⟨27, 24, .RWI, 0, .L2⟩, ⟨20, 20, .RWI, 0, .L2⟩, ⟨11, 0, .RWI, 0, .L2⟩]⟩,
  ⟨0x444, 1, 0x4, false, false, false, [⟨31, 0, .RO, 0, .L2⟩]⟩,
  ⟨0x448, 1, 0x4, false, false, false, [⟨31, 0, .RO, 0, .L2⟩]⟩,
  ⟨0x800, 512, 0x4, false, false, false, [⟨31, 31, .RWI, 0, .L2⟩, ⟨8, 4, .RWI, 0, .L2⟩, ⟨3, 0, .RWI, 0, .L2⟩]⟩]⟩

/-! ### CL (R94, 03_loop_engines.md) -/

def CL_STAT (i : Nat) : Nat := 0x400000 + i * 0x80000
def fCL_STAT_RANKQ : Fld := ⟨16, 4⟩
def fCL_STAT_RANKBUSY : Fld := ⟨8, 1⟩
def fCL_STAT_PHASE : Fld := ⟨0, 4⟩
def CL_RANK_REQS (i : Nat) : Nat := 0x400010 + i * 0x80000
def fCL_RANK_REQS_VALUE : Fld := ⟨0, 32⟩
def CL_RANK_ERRS (i : Nat) : Nat := 0x400014 + i * 0x80000
def fCL_RANK_ERRS_VALUE : Fld := ⟨0, 32⟩
def CL_RANK_LASTCYC (i : Nat) : Nat := 0x400018 + i * 0x80000
def fCL_RANK_LASTCYC_VALUE : Fld := ⟨0, 32⟩
def CL_EXT_WAIT_MAX (i : Nat) : Nat := 0x400020 + i * 0x80000
def fCL_EXT_WAIT_MAX_FC : Fld := ⟨0, 16⟩
def CL_QPIN (i j : Nat) : Nat := 0x400100 + i * 0x80000 + j * 0x4
def fCL_QPIN_VALID : Fld := ⟨31, 1⟩
def fCL_QPIN_QUEUE : Fld := ⟨0, 12⟩

def blkCL : BlockDesc := ⟨0x400000, 8, 0x80000, 0, 0x0,
  [
  ⟨0x0, 1, 0x4, true, false, false, [⟨19, 16, .RO, 0, .L1⟩, ⟨8, 8, .RO, 0, .L1⟩, ⟨3, 0, .RO, 0, .L2⟩]⟩,
  ⟨0x10, 1, 0x4, true, false, false, [⟨31, 0, .RO, 0, .L2⟩]⟩,
  ⟨0x14, 1, 0x4, true, false, false, [⟨31, 0, .RO, 0, .L2⟩]⟩,
  ⟨0x18, 1, 0x4, true, false, false, [⟨31, 0, .RO, 0, .L2⟩]⟩,
  ⟨0x20, 1, 0x4, true, false, false, [⟨15, 0, .RW, 0, .L2⟩]⟩,
  ⟨0x100, 64, 0x4, true, false, false, [⟨31, 31, .RW, 0, .L2⟩, ⟨11, 0, .RW, 0, .L2⟩]⟩]⟩

/-! ### LE (R95, 03_loop_engines.md) -/

def LE_MAP (i : Nat) : Nat := 0x410000 + i / 9 * 0x80000 + i % 9 * 0x4000
def fLE_MAP_INC : Fld := ⟨16, 8⟩
def fLE_MAP_FLOCK : Fld := ⟨8, 4⟩
def fLE_MAP_LVALID : Fld := ⟨6, 1⟩
def fLE_MAP_LOGICAL : Fld := ⟨0, 6⟩
def LE_CTRL (i : Nat) : Nat := 0x410004 + i / 9 * 0x80000 + i % 9 * 0x4000
def fLE_CTRL_EN : Fld := ⟨0, 1⟩
def LE_STAT (i : Nat) : Nat := 0x410008 + i / 9 * 0x80000 + i % 9 * 0x4000
def fLE_STAT_READY : Fld := ⟨16, 8⟩
def fLE_STAT_CURTASK : Fld := ⟨8, 3⟩
def fLE_STAT_CURPRI : Fld := ⟨4, 2⟩
def fLE_STAT_STATE : Fld := ⟨0, 3⟩
def LE_CMD (i : Nat) : Nat := 0x41000C + i / 9 * 0x80000 + i % 9 * 0x4000
def fLE_CMD_OP : Fld := ⟨4, 4⟩
def fLE_CMD_SLOT : Fld := ⟨0, 3⟩
def LE_BMP_BASE (i : Nat) : Nat := 0x410010 + i / 9 * 0x80000 + i % 9 * 0x4000
def fLE_BMP_BASE_BASE : Fld := ⟨0, 25⟩
def LE_URP_DENIED (i : Nat) : Nat := 0x410014 + i / 9 * 0x80000 + i % 9 * 0x4000
def fLE_URP_DENIED_COUNT : Fld := ⟨0, 32⟩
def LE_BUSY_FC (i : Nat) : Nat := 0x410018 + i / 9 * 0x80000 + i % 9 * 0x4000
def fLE_BUSY_FC_COUNT : Fld := ⟨0, 32⟩
def LE_PREEMPT_MAX (i : Nat) : Nat := 0x41001C + i / 9 * 0x80000 + i % 9 * 0x4000
def fLE_PREEMPT_MAX_FC : Fld := ⟨0, 16⟩
def LE_CFG_REFUSED (i : Nat) : Nat := 0x410020 + i / 9 * 0x80000 + i % 9 * 0x4000
def fLE_CFG_REFUSED_COUNT : Fld := ⟨0, 32⟩
def LE_BUSY_FC_HI (i : Nat) : Nat := 0x410024 + i / 9 * 0x80000 + i % 9 * 0x4000
def fLE_BUSY_FC_HI_COUNT : Fld := ⟨0, 32⟩
def LE_TASK_CFG (i j : Nat) : Nat := 0x410100 + i / 9 * 0x80000 + i % 9 * 0x4000 + j * 0x20
def fLE_TASK_CFG_TARG : Fld := ⟨8, 12⟩
def fLE_TASK_CFG_DLACT : Fld := ⟨6, 1⟩
def fLE_TASK_CFG_TRIG : Fld := ⟨4, 2⟩
def fLE_TASK_CFG_PRI : Fld := ⟨1, 2⟩
def fLE_TASK_CFG_EN : Fld := ⟨0, 1⟩
def LE_TASK_ENTRY (i j : Nat) : Nat := 0x410104 + i / 9 * 0x80000 + i % 9 * 0x4000 + j * 0x20
def fLE_TASK_ENTRY_VALUE : Fld := ⟨0, 24⟩
def LE_TASK_ARG (i j : Nat) : Nat := 0x410108 + i / 9 * 0x80000 + i % 9 * 0x4000 + j * 0x20
def fLE_TASK_ARG_VALUE : Fld := ⟨0, 24⟩
def LE_TASK_DL (i j : Nat) : Nat := 0x41010C + i / 9 * 0x80000 + i % 9 * 0x4000 + j * 0x20
def fLE_TASK_DL_VALUE : Fld := ⟨0, 32⟩
def LE_TASK_TIME_LO (i j : Nat) : Nat := 0x410110 + i / 9 * 0x80000 + i % 9 * 0x4000 + j * 0x20
def fLE_TASK_TIME_LO_VALUE : Fld := ⟨0, 32⟩
def LE_TASK_TIME_HI (i j : Nat) : Nat := 0x410114 + i / 9 * 0x80000 + i % 9 * 0x4000 + j * 0x20
def fLE_TASK_TIME_HI_VALUE : Fld := ⟨0, 32⟩
def LE_TASK_PERIOD (i j : Nat) : Nat := 0x410118 + i / 9 * 0x80000 + i % 9 * 0x4000 + j * 0x20
def fLE_TASK_PERIOD_VALUE : Fld := ⟨0, 32⟩
def LE_TASK_STAT (i j : Nat) : Nat := 0x41011C + i / 9 * 0x80000 + i % 9 * 0x4000 + j * 0x20
def fLE_TASK_STAT_OVR : Fld := ⟨9, 1⟩
def fLE_TASK_STAT_DLMISS : Fld := ⟨8, 1⟩
def fLE_TASK_STAT_STATE : Fld := ⟨0, 3⟩
def LE_DLMISS_CNT (i j : Nat) : Nat := 0x410200 + i / 9 * 0x80000 + i % 9 * 0x4000 + j * 0x4
def fLE_DLMISS_CNT_COUNT : Fld := ⟨0, 32⟩
def LE_OVR_CNT (i j : Nat) : Nat := 0x410220 + i / 9 * 0x80000 + i % 9 * 0x4000 + j * 0x4
def fLE_OVR_CNT_COUNT : Fld := ⟨0, 32⟩
def LE_TRIG_STAMP_LO (i j : Nat) : Nat := 0x410240 + i / 9 * 0x80000 + i % 9 * 0x4000 + j * 0x8
def fLE_TRIG_STAMP_LO_VALUE : Fld := ⟨0, 32⟩
def LE_TRIG_STAMP_HI (i j : Nat) : Nat := 0x410244 + i / 9 * 0x80000 + i % 9 * 0x4000 + j * 0x8
def fLE_TRIG_STAMP_HI_VALUE : Fld := ⟨0, 32⟩
def LE_FAULT (i : Nat) : Nat := 0x410300 + i / 9 * 0x80000 + i % 9 * 0x4000
def fLE_FAULT_TASK : Fld := ⟨12, 3⟩
def fLE_FAULT_CAUSE2 : Fld := ⟨8, 4⟩
def fLE_FAULT_CAUSE : Fld := ⟨4, 4⟩
def fLE_FAULT_DOUBLE : Fld := ⟨1, 1⟩
def fLE_FAULT_VALID : Fld := ⟨0, 1⟩
def LE_FAULT_PC (i : Nat) : Nat := 0x410304 + i / 9 * 0x80000 + i % 9 * 0x4000
def fLE_FAULT_PC_VALUE : Fld := ⟨0, 32⟩
def LE_FAULT_ADDR (i : Nat) : Nat := 0x410308 + i / 9 * 0x80000 + i % 9 * 0x4000
def fLE_FAULT_ADDR_VALUE : Fld := ⟨0, 32⟩
def LE_FAULT_STAMP_LO (i : Nat) : Nat := 0x410310 + i / 9 * 0x80000 + i % 9 * 0x4000
def fLE_FAULT_STAMP_LO_VALUE : Fld := ⟨0, 32⟩
def LE_FAULT_STAMP_HI (i : Nat) : Nat := 0x410314 + i / 9 * 0x80000 + i % 9 * 0x4000
def fLE_FAULT_STAMP_HI_VALUE : Fld := ⟨0, 32⟩
def LE_FAULT_CNT (i : Nat) : Nat := 0x410318 + i / 9 * 0x80000 + i % 9 * 0x4000
def fLE_FAULT_CNT_COUNT : Fld := ⟨0, 32⟩

def blkLE : BlockDesc := ⟨0x410000, 72, 0x4000, 9, 0x80000,
  [
  ⟨0x0, 1, 0x4, false, false, false, [⟨23, 16, .RWI, 0, .L3⟩, ⟨11, 8, .RWI, 0, .L3⟩, ⟨6, 6, .RWI, 0, .L3⟩, ⟨5, 0, .RWI, 0, .L3⟩]⟩,
  ⟨0x4, 1, 0x4, false, false, false, [⟨0, 0, .RWI, 0, .L1⟩]⟩,
  ⟨0x8, 1, 0x4, false, false, false, [⟨23, 16, .RO, 0, .L1⟩, ⟨10, 8, .RO, 0, .L1⟩, ⟨5, 4, .RO, 0, .L1⟩, ⟨2, 0, .RO, 0, .L1⟩]⟩,
  ⟨0xC, 1, 0x4, true, false, false, [⟨7, 4, .WO, 0, .L2⟩, ⟨2, 0, .WO, 0, .L2⟩]⟩,
  ⟨0x10, 1, 0x4, false, false, false, [⟨24, 0, .RWI, 0, .L2⟩]⟩,
  ⟨0x14, 1, 0x4, false, false, false, [⟨31, 0, .RO, 0, .L2⟩]⟩,
  ⟨0x18, 1, 0x4, false, false, false, [⟨31, 0, .RO, 0, .L2⟩]⟩,
  ⟨0x1C, 1, 0x4, false, false, false, [⟨15, 0, .RW, 0, .L2⟩]⟩,
  ⟨0x20, 1, 0x4, false, false, false, [⟨31, 0, .RO, 0, .L2⟩]⟩,
  ⟨0x24, 1, 0x4, false, false, false, [⟨31, 0, .RO, 0, .L2⟩]⟩,
  ⟨0x100, 8, 0x20, false, false, false, [⟨19, 8, .RW, 0, .L2⟩, ⟨6, 6, .RW, 0, .L2⟩, ⟨5, 4, .RW, 0, .L2⟩, ⟨2, 1, .RW, 0, .L2⟩, ⟨0, 0, .RW, 0, .L1⟩]⟩,
  ⟨0x104, 8, 0x20, false, false, false, [⟨23, 0, .RW, 0, .L2⟩]⟩,
  ⟨0x108, 8, 0x20, false, false, false, [⟨23, 0, .RW, 0, .L2⟩]⟩,
  ⟨0x10C, 8, 0x20, false, false, false, [⟨31, 0, .RW, 0, .L2⟩]⟩,
  ⟨0x110, 8, 0x20, false, false, false, [⟨31, 0, .RW, 0, .L2⟩]⟩,
  ⟨0x114, 8, 0x20, false, false, false, [⟨31, 0, .RW, 0, .L2⟩]⟩,
  ⟨0x118, 8, 0x20, false, false, false, [⟨31, 0, .RW, 0, .L2⟩]⟩,
  ⟨0x11C, 8, 0x20, false, false, false, [⟨9, 9, .W1C, 0, .L2⟩, ⟨8, 8, .W1C, 0, .L2⟩, ⟨2, 0, .RO, 0, .L1⟩]⟩,
  ⟨0x200, 8, 0x4, false, false, false, [⟨31, 0, .RO, 0, .L2⟩]⟩,
  ⟨0x220, 8, 0x4, false, false, false, [⟨31, 0, .RO, 0, .L2⟩]⟩,
  ⟨0x240, 8, 0x8, false, false, false, [⟨31, 0, .RO, 0, .L2⟩]⟩,
  ⟨0x244, 8, 0x8, false, false, false, [⟨31, 0, .RO, 0, .L2⟩]⟩,
  ⟨0x300, 1, 0x4, false, false, false, [⟨14, 12, .RO, 0, .L1⟩, ⟨11, 8, .RO, 0, .L1⟩, ⟨7, 4, .RO, 0, .L1⟩, ⟨1, 1, .RO, 0, .L1⟩, ⟨0, 0, .RO, 0, .L1⟩]⟩,
  ⟨0x304, 1, 0x4, false, false, false, [⟨31, 0, .RO, 0, .L1⟩]⟩,
  ⟨0x308, 1, 0x4, false, false, false, [⟨31, 0, .RO, 0, .L1⟩]⟩,
  ⟨0x310, 1, 0x4, false, false, false, [⟨31, 0, .RO, 0, .L1⟩]⟩,
  ⟨0x314, 1, 0x4, false, false, false, [⟨31, 0, .RO, 0, .L1⟩]⟩,
  ⟨0x318, 1, 0x4, false, false, false, [⟨31, 0, .RO, 0, .L2⟩]⟩]⟩

/-! ### CS (R193, 06_microcode.md) -/

def CS_CTRL (i : Nat) : Nat := 0x412000 + i / 9 * 0x80000 + i % 9 * 0x4000
def fCS_CTRL_LOCK : Fld := ⟨31, 1⟩
def fCS_CTRL_MATCHEN : Fld := ⟨0, 1⟩
def CS_STAT (i : Nat) : Nat := 0x412004 + i / 9 * 0x80000 + i % 9 * 0x4000
def fCS_STAT_PWORDS : Fld := ⟨8, 8⟩
def fCS_STAT_PFAIL : Fld := ⟨1, 1⟩
def fCS_STAT_PLOADED : Fld := ⟨0, 1⟩
def CS_WADDR (i : Nat) : Nat := 0x412010 + i / 9 * 0x80000 + i % 9 * 0x4000
def fCS_WADDR_GO : Fld := ⟨31, 1⟩
def fCS_WADDR_GENPAR : Fld := ⟨16, 1⟩
def fCS_WADDR_ADDR : Fld := ⟨0, 13⟩
def CS_WDATA (i j : Nat) : Nat := 0x412020 + i / 9 * 0x80000 + i % 9 * 0x4000 + j * 0x4
def fCS_WDATA_DATA : Fld := ⟨0, 32⟩
def CS_WDATA5 (i : Nat) : Nat := 0x412034 + i / 9 * 0x80000 + i % 9 * 0x4000
def fCS_WDATA5_DATA : Fld := ⟨0, 16⟩
def CS_RADDR (i : Nat) : Nat := 0x412040 + i / 9 * 0x80000 + i % 9 * 0x4000
def fCS_RADDR_GO : Fld := ⟨31, 1⟩
def fCS_RADDR_ADDR : Fld := ⟨0, 13⟩
def CS_RDATA (i j : Nat) : Nat := 0x412050 + i / 9 * 0x80000 + i % 9 * 0x4000 + j * 0x4
def fCS_RDATA_DATA : Fld := ⟨0, 32⟩
def CS_RDATA5 (i : Nat) : Nat := 0x412064 + i / 9 * 0x80000 + i % 9 * 0x4000
def fCS_RDATA5_DATA : Fld := ⟨0, 16⟩
def CS_RSTAT (i : Nat) : Nat := 0x412068 + i / 9 * 0x80000 + i % 9 * 0x4000
def fCS_RSTAT_PARERR : Fld := ⟨0, 1⟩
def CS_UFAULT (i : Nat) : Nat := 0x412080 + i / 9 * 0x80000 + i % 9 * 0x4000
def fCS_UFAULT_VALID : Fld := ⟨31, 1⟩
def fCS_UFAULT_REASON : Fld := ⟨16, 4⟩
def fCS_UFAULT_UADDR : Fld := ⟨0, 13⟩
def CS_DIST_MAX (i : Nat) : Nat := 0x412084 + i / 9 * 0x80000 + i % 9 * 0x4000
def fCS_DIST_MAX_MAX : Fld := ⟨0, 5⟩
def CS_STRETCH (i : Nat) : Nat := 0x412088 + i / 9 * 0x80000 + i % 9 * 0x4000
def fCS_STRETCH_COUNT : Fld := ⟨0, 32⟩
def CS_WREFUSED (i : Nat) : Nat := 0x41208C + i / 9 * 0x80000 + i % 9 * 0x4000
def fCS_WREFUSED_COUNT : Fld := ⟨0, 32⟩
def CS_MCHK_CNT (i : Nat) : Nat := 0x412090 + i / 9 * 0x80000 + i % 9 * 0x4000
def fCS_MCHK_CNT_COUNT : Fld := ⟨0, 32⟩
def CS_MATCH (i j : Nat) : Nat := 0x412100 + i / 9 * 0x80000 + i % 9 * 0x4000 + j * 0x4
def fCS_MATCH_EN : Fld := ⟨31, 1⟩
def fCS_MATCH_PADDR : Fld := ⟨16, 7⟩
def fCS_MATCH_RADDR : Fld := ⟨0, 12⟩

def blkCS : BlockDesc := ⟨0x412000, 72, 0x4000, 9, 0x80000,
  [
  ⟨0x0, 1, 0x4, true, false, false, [⟨31, 31, .W1S, 0, .L2⟩, ⟨0, 0, .RWL, 0, .L2⟩]⟩,
  ⟨0x4, 1, 0x4, true, false, false, [⟨15, 8, .RO, 0, .L2⟩, ⟨1, 1, .RO, 0, .L2⟩, ⟨0, 0, .RO, 0, .L2⟩]⟩,
  ⟨0x10, 1, 0x4, true, false, false, [⟨31, 31, .WO, 0, .L2⟩, ⟨16, 16, .RW, 1, .L2⟩, ⟨12, 0, .RW, 0, .L2⟩]⟩,
  ⟨0x20, 5, 0x4, true, false, false, [⟨31, 0, .RW, 0, .L2⟩]⟩,
  ⟨0x34, 1, 0x4, true, false, false, [⟨15, 0, .RW, 0, .L2⟩]⟩,
  ⟨0x40, 1, 0x4, true, false, false, [⟨31, 31, .WO, 0, .L2⟩, ⟨12, 0, .RW, 0, .L2⟩]⟩,
  ⟨0x50, 5, 0x4, true, false, false, [⟨31, 0, .RO, 0, .L2⟩]⟩,
  ⟨0x64, 1, 0x4, true, false, false, [⟨15, 0, .RO, 0, .L2⟩]⟩,
  ⟨0x68, 1, 0x4, true, false, false, [⟨0, 0, .RO, 0, .L2⟩]⟩,
  ⟨0x80, 1, 0x4, true, false, false, [⟨31, 31, .W1C, 0, .L1⟩, ⟨19, 16, .RO, 0, .L1⟩, ⟨12, 0, .RO, 0, .L1⟩]⟩,
  ⟨0x84, 1, 0x4, true, false, false, [⟨4, 0, .RW, 0, .L2⟩]⟩,
  ⟨0x88, 1, 0x4, true, false, false, [⟨31, 0, .RO, 0, .L2⟩]⟩,
  ⟨0x8C, 1, 0x4, true, false, false, [⟨31, 0, .RO, 0, .L2⟩]⟩,
  ⟨0x90, 1, 0x4, true, false, false, [⟨31, 0, .RO, 0, .L2⟩]⟩,
  ⟨0x100, 32, 0x4, true, false, false, [⟨31, 31, .RWL, 0, .L2⟩, ⟨22, 16, .RWL, 0, .L2⟩, ⟨11, 0, .RWL, 0, .L2⟩]⟩]⟩

/-! ### PAGE (R380, 14_flocks_and_register_views.md) -/

def PG_UADDR (i : Nat) : Nat := 0x4000110 + i * 0x10000
def fPG_UADDR_ADDR : Fld := ⟨0, 22⟩

def blkPAGE : BlockDesc := ⟨0x4000000, 16, 0x10000, 0, 0x0,
  [
  ⟨0x110, 1, 0x4, false, true, false, [⟨21, 0, .RW, 0, .L2⟩]⟩]⟩

/-- Every register block of the map. -/
def regBlocks : List BlockDesc :=
  [blkID, blkRC, blkPM, blkTB, blkTL, blkEV, blkEG, blkEC, blkJN, blkMB, blkFL, blkFLG, blkRS, blkMIG, blkMI, blkDB, blkSH, blkQD, blkQW, blkBC, blkQG, blkQH, blkSP, blkSOC, blkTI, blkTG, blkAR, blkTRG, blkPG, blkXB, blkPH, blkTM, blkTMG, blkPF, blkPFG, blkCP, blkCHG, blkCL, blkLE, blkCS, blkPAGE]

end Sys2Proof.Machine
end

