-- ==== Sys2Proof/Machine/State.lean ====
section
/-!
DEFINITION. The state of the block, as plain data: every register, memory, queue, counter, mode and pin the spec gives
it, and the queue of the commands that wait.
-/

namespace Sys2Proof.Machine

/-- A journal entry of 32 bytes (13_events_and_journal.md R356). `seq` is set when the entry takes its number. -/
structure JEntry where
  stamp : Stamp := 0
  source : Nat := 0
  cls : Nat := 0
  code : Nat := 0
  seq : Word := 0
  w0 : Word := 0
  w1 : Word := 0
  w2 : Word := 0
  w3 : Word := 0
deriving DecidableEq, Repr

/-- A raise held until CLK_FAST runs (R355). -/
structure HeldRaise where
  source : Nat := 0
  stamp : Stamp := 0
  p0 : Word := 0
  p1 : Word := 0
deriving DecidableEq, Repr

/-- The event concentrator beside its registers (13_events_and_journal.md). -/
structure EvState where
  /-- P1:P0 of the raise that last set PENDING, per source (R348). -/
  pay : List (Nat × BitVec 64) := []
  /-- Completions, deliveries and raises of the present fc, which act at the edge that ends it in this order (R348). -/
  eois : List Nat := []
  delivs : List Nat := []
  raises : List HeldRaise := []
  /-- The pins HIRQ0 to HIRQ15 (21_integration_ports.md R531). -/
  hirqs : Nat := 0
  /-- The first fc in which a group may deliver again (R349). -/
  next : List (Nat × Nat) := []
  /-- Raises held in Rest, Fold and halts (R355). -/
  held : List HeldRaise := []
  /-- Raises made by trigger overruns of the present fc, whose own event triggers fire at the next edge (R76). -/
  trigQ : List (Nat × Stamp) := []
deriving DecidableEq, Repr

/-- The journal beside its registers and its ring (R356 to R364). -/
structure JnState where
  /-- Entries made in the present fc, in the order of R359. -/
  fresh : List JEntry := []
  /-- The input queue of 64 entries, oldest first. -/
  input : List JEntry := []
  /-- The write buffer of 16 entries, oldest first. -/
  wbuf : List JEntry := []
  /-- The next SEQ of each SOURCE (R358). -/
  seq : List (Nat × Word) := []
  /-- Entries that the burst in progress still has to copy (R363). -/
  burst : Nat := 0
  /-- The Tally from which JN_DRAIN_PER is counted (R363). -/
  per : Stamp := 0
  /-- The ring is closed by a last gasp (R359, R491). -/
  closed : Bool := false
deriving DecidableEq, Repr

/-- The Tally counters (02_tally_time.md R33, R43): 64-bit Tally over a 32-bit sub-tick fraction, and what the next
edge does to them. -/
structure TbState where
  a : BitVec 96 := 0
  b : BitVec 96 := 0
  /-- A SET waits for the next edge (R34). -/
  setPend : Bool := false
  /-- A RESYNC waits for the next edge (R44). -/
  resyncPend : Bool := false
  /-- A change of SEL waits for the next edge (R44). -/
  selPend : Bool := false
  /-- The counters differed on the last edge: an episode is open (R44). -/
  episode : Bool := false
  /-- The fast clock was released: the first CLK_SLOW edge keeps Tally and the timer counts (R40). -/
  hold : Bool := false
deriving DecidableEq, Repr

/-- A Tally Link port beside its registers. -/
structure TlPort where
  /-- Distances in symbols between the last code violations, newest first (R46: 4 within 256 symbols). -/
  viol : List Nat := []
  /-- A violation was received since the port came UP: the next distance is counted from it. -/
  violSeen : Bool := false
  /-- The t4 to carry in the next SYNC_REQ, zero when there is none (R53). -/
  t4 : Stamp := 0
  /-- A SYNC_RESP is awaited. -/
  awaiting : Bool := false
  /-- TIME frames are being received on this port (R55). -/
  timeSeen : Bool := false
deriving DecidableEq, Repr

/-- A frame handed to a port's serialiser (R47). -/
structure TlFrame where
  port : Nat := 0
  kind : Nat := 0
  src : Nat := 0
  dst : Nat := 0
  hop : Nat := 0
  payload : List Byte := []
  crc : BitVec 16 := 0
  /-- A code violation was received within the frame. -/
  viol : Bool := false
deriving DecidableEq, Repr

/-- A peer-mailbox fragment that awaits its retry (R58). -/
structure TlRetry where
  frame : TlFrame := {}
  due : Stamp := 0
deriving DecidableEq, Repr

/-- Tally Link beside its registers. -/
structure TlState where
  ports : List (Nat × TlPort) := []
  /-- The exchange to complete: t1, t2, t3 (R53). -/
  exch : Option (Stamp × Stamp × Stamp) := none
  /-- Valid measurements since ACQUIRE was entered, and consecutive missed ones. -/
  valid : Nat := 0
  missed : Nat := 0
  /-- Slew still to be made, in tk (R54). -/
  slew : Int := 0
  /-- A valid delay measurement is held for the UPPORT (R50). -/
  measured : Bool := false
  /-- The Tally at which a measurement counts as missed (R53, R55). -/
  due : Option Stamp := none
  /-- Frames sent, oldest first. -/
  tx : List TlFrame := []
  /-- Fragments waiting for MBOX_ACK, and those waiting to be sent again (R58). -/
  inFlight : List TlFrame := []
  retry : List TlRetry := []
deriving DecidableEq, Repr

/-- A response of R383 with its data. -/
structure Resp where
  code : Nat := 0
  data : BitVec 64 := 0
deriving DecidableEq, Repr


/-- A task slot of an engine beside its registers (03_loop_engines.md R76 to R84). -/
structure Slot where
  /-- The trigger stamp of a READY slot, and the fc in which the trigger registered. -/
  stamp : Stamp := 0
  regFc : Nat := 0
  /-- READY by an edge or software trigger, so that a level that ceases does not withdraw it. -/
  edge : Bool := false
  /-- The pending trigger of R81. -/
  pend : Option Stamp := none
  /-- A Tally-time trigger is armed (R77). -/
  armed : Bool := false
  /-- The deadline miss of this activation is recorded (R83). -/
  missed : Bool := false
deriving DecidableEq, Repr

/-- A load that waits for its response (R66): where the data go, and what was asked. -/
structure LoadWait where
  /-- 0 unit-register window or HPP register, 1 system memory, 2 flash. -/
  kind : Nat := 0
  /-- The load is one of a micro-routine, which takes the response itself. -/
  micro : Bool := false
  /-- Address as the code gives it, width in bytes, destination register. -/
  addr : Addr := 0
  width : Nat := 4
  dst : Nat := 0
  /-- Offset in the HPP window, or system-memory or flash address. -/
  target : Nat := 0
  /-- The post-modify result to write to An: register, value and poison (R123). -/
  post : Option (Nat × Addr × Bool) := none
  /-- The addresses of the load and of the next instruction. -/
  pc : Addr := 0
  nextPc : Addr := 0
  /-- The response, once it has come: its code and data (R150). -/
  resp : Option (Nat × BitVec 64) := none
deriving DecidableEq, Repr

/-- A store buffered towards system memory (R66, R389: 8 entries), with the slot, program counter and stamp of its issue. -/
structure BufStore where
  addr : Nat := 0
  eaddr : Addr := 0
  bytes : List Byte := []
  slot : Nat := 0
  pc : Addr := 0
  stamp : Stamp := 0
deriving DecidableEq, Repr

/-- A store in flight on the unit-register path (R75): posted, with the flock incarnation it carries. -/
structure PathStore where
  data : Word := 0
  flock : Nat := 0
  inc : Nat := 0
  eaddr : Addr := 0
  slot : Nat := 0
  pc : Addr := 0
deriving DecidableEq, Repr

/-- What a complex instruction keeps at a safe point inside it (04_kamyn_instruction_set.md R140). -/
inductive Partial
  /-- SINCOS after iteration 15: the quarter turn, x, y and z, the mark. -/
  | cordic (q : Nat) (x y z : Int) (p : Bool)
  /-- DIV, DIVQ and SQRT at half their iterations: the operands and their mark. -/
  | half (a b : Word) (p : Bool)
  /-- FIRK after a tap: the taps to come, the addresses of the next coefficient and sample, the sum, its flags and mark. -/
  | taps (n a b : Nat) (acc : Int) (flags : Nat) (p : Bool)
  /-- A library subroutine past its safe point (06_microcode.md R178). -/
  | lib
deriving DecidableEq, Repr

/-- The micro state of a bank (06_microcode.md R174) and what its routine in progress needs. -/
structure Micro where
  u : List (Nat × BitVec 40) := []
  uac : Acc72 := 0
  mdr : BitVec 64 := 0
  extd : BitVec 64 := 0
  mar : Addr := 0
  ucnt : Nat := 0
  qb : List (Nat × (Word × Bool)) := []
  /-- The micro-stack, newest first. -/
  stack : List Nat := []
  /-- Staged writes in order: register number of R100, or 32 for the PC; value; poison. -/
  staged : List (Nat × BitVec 72 × Bool) := []
  /-- The routine poison latch. -/
  latch : Bool := false
  /-- Poison bits: U0 to U7 in [7:0], UAC in [8], MDR in [9], EXTD in [10], MAR in [11]. -/
  pois : Nat := 0
  /-- LE_UCONT as it was last written (R180, R181). -/
  ucont : Word := 0
  /-- What the previous word left for the P conditions of R162: bit c - 1 for conditions 1 to 7, bits 7 to 9 for 35 to 37. -/
  prev : Nat := 0
  /-- The macro-instruction in progress stands: 0 nowhere, 1 at a safe point, 2 in a wait that is none (the model's own field). -/
  mid : Nat := 0
  /-- It is to be issued again from its first word (R150). -/
  again : Bool := false
  /-- The micro-address it goes on from, where the spec gives one, and whether its word has been counted already (R184). -/
  upc : Option Nat := none
  counted : Bool := false
  /-- Partial results of an instruction whose words the spec does not give (R140). -/
  part : Option Partial := none
  /-- WAIT (1) and ISYNC (2) that take effect at commit (R175). -/
  atEnd : Nat := 0
  /-- The routine was resumed from LE_UCONT in this activation (R162). -/
  resumed : Bool := false
  /-- The macro latch (R177): the instruction's word and address. -/
  word : Word := 0
  ucaller : Addr := 0
deriving DecidableEq, Repr

/-- A register bank (R71): D, A, M, AC by number, the program counter, LE_MODE, the micro state, and the poison bits by
the register number of R100. -/
structure Bank where
  d : List (Nat × Word) := []
  a : List (Nat × Addr) := []
  m : List (Nat × Word) := []
  ac : List (Nat × Acc72) := []
  pc : Addr := 0
  mode : Word := 0
  /-- RND and SAT written by MODE and not yet in force, with the number of instructions still to go (R110), oldest first. -/
  modeWait : List (Nat × Word) := []
  poison : BitVec 32 := 0
  micro : Micro := {}
  /-- The load outstanding. -/
  wait : Option LoadWait := none
deriving DecidableEq, Repr

/-- A physical engine beside its registers and memories. -/
structure Eng where
  banks : List (Nat × Bank) := []
  /-- The WCS distance counter (06_microcode.md R184); the number of the fc in which it changed last, less one, and how that fc found it. -/
  dist : Nat := 0
  distFc : Nat := 0
  distOld : Nat := 0
  slots : List (Nat × Slot) := []
  parked : Bool := false
  halted : Bool := false
  /-- A debug halt is requested; the engine runs to its next safe point under STEP (R508). -/
  haltReq : Bool := false
  step : Bool := false
  /-- The Drove holds dispatch (R457). -/
  held : Bool := false
  /-- The system-memory store buffer, oldest first. -/
  stores : List BufStore := []
  /-- Stores in flight on the unit-register path, oldest first. -/
  path : List PathStore := []
  /-- The code-store buffer: address, bytes and the marks of their words, oldest first (R112). -/
  codeBuf : List (Nat × List Byte × List Bool) := []
  /-- A RANK of this engine is outstanding (R89). -/
  rankOut : Bool := false
  /-- Banks written in the fc numbered `prevFc` - 1, as that fc found them (R96). -/
  prevFc : Nat := 0
  prev : List (Nat × Bank) := []
deriving DecidableEq, Repr

/-- An entry of the branch-target buffer: the branch, its target, and the line of the target once it has come (R394). -/
structure BtbEntry where
  branch : Addr := 0
  target : Addr := 0
  line : List Byte := []
deriving DecidableEq, Repr

/-- The Shepherd beside its registers (15_shepherd_core.md): banks 0 base, 1 exception, 2 double-fault, and the system
registers of R409. -/
structure Shep where
  banks : List (Nat × Bank) := []
  /-- IMASK of the Inner and of the Outer world. -/
  imaskI : Nat := 0
  imaskO : Nat := 0
  epc : Word := 0
  epsr : Word := 0
  ecause : Word := 0
  eaddr : Word := 0
  estamp : Stamp := 0
  depc : Word := 0
  depsr : Word := 0
  dcause : Word := 0
  daddr : Word := 0
  /-- The context and IMASK of the bank left, which RETX restores. -/
  dbank : Nat := 0
  /-- The ATOMIC budget left, and whether it counts: 0 none, 1 a handler, 2 a gate window. -/
  abudget : Nat := 0
  aopen : Nat := 0
  /-- The Outer world executed WAIT; Crook executed WAIT after it wrote PM_CTRL.GO (R484). -/
  outerSleep : Bool := false
  crookWait : Bool := false
  stores : List BufStore := []
  /-- Flash lines held: line address and bytes, most recently used first (R393). -/
  lines : List (Nat × List Byte) := []
  /-- Lines requested and not yet arrived. -/
  lineReq : List Nat := []
  /-- The line for which a fetch or a load stalls. -/
  demand : Option Nat := none
  /-- The branch-target buffer, by index (R394). -/
  btb : List (Nat × BtbEntry) := []
  /-- The fc of the first write of a kick (R412). -/
  kick : Option Nat := none
  /-- tk counted toward the next watchdog unit; the warning has been given; exception 0x14 waits. -/
  wdgAcc : Nat := 0
  warned : Bool := false
  warnPend : Bool := false
  /-- The watchdog has reached TIMEOUT and its count has stopped. -/
  bitten : Bool := false
deriving DecidableEq, Repr

/-- The Shepherd as a reset leaves it (15_shepherd_core.md R390): its program counter at 0x10_0000. -/
def Shep.atReset : Shep := { banks := [(0, ({ pc := 0x100000 } : Bank))] }

/-- A decoded Rank descriptor (R89): `reserved` when a reserved bit is set, `poison` when a word of it carries the mark. -/
structure RankDesc where
  src : Nat := 0
  dst : Nat := 0
  n : Nat := 0
  k : Nat := 0
  inbox : Nat := 0
  desc : Bool := false
  tag : Nat := 0
  reserved : Bool := false
  poison : Bool := false
deriving DecidableEq, Repr

/-- A request of a Rank unit (R89). -/
structure RankReq where
  eng : Nat := 0
  desc : Nat := 0
  /-- Flock incarnation of the issuer's flock when issued. -/
  flock : Nat := 0
  inc : Nat := 0
  /-- The fc of its issue. -/
  fc : Nat := 0
  /-- What its read phase has read so far: the descriptor, then entries, and whether one carried the poison mark (R90, R91). -/
  got : Option RankDesc := none
  entries : List (Word × Word) := []
  pois : Bool := false
deriving DecidableEq, Repr

/-- A write of the present fc in a lane of the shared RAM (R68): with the marks of its words, or with byte enables. -/
structure LaneWrite where
  lane : Nat := 0
  addr : Nat := 0
  bytes : List Byte := []
  be : Nat := 0
  marks : Option (List Bool) := none
deriving DecidableEq, Repr

/-- A word of a queue entry with its poison mark (17_memory_integrity.md R438). -/
abbrev QWord := Word × Bool

/-- The agents of the queue fabric (12_queue_fabric.md R325). -/
inductive QAgent
  | eng (p : Nat) | port (n : Nat) | rank (p : Nat) | chan (cp ch : Nat) | scatter (f : Nat) | shep | hpp | dam
deriving DecidableEq, Repr

/-- What a held operation was. -/
inductive QOp | put | get | lvl
deriving DecidableEq, Repr

/-- An operation held during a copy or a move (R330, R340). -/
structure HeldOp where
  queue : Nat
  op : QOp
  agent : QAgent
  inc : Nat
  entry : List QWord
deriving DecidableEq, Repr

/-- The watermark crossings of a queue in one fc (12_queue_fabric.md R332, R333): the SEEN bits before them, their kinds in order, and
the kinds that have raised their event. -/
structure CrossFc where
  before : Nat := 0
  kinds : List Nat := []
  raised : List Nat := []
deriving DecidableEq, Repr

/-- The queue fabric beside its registers. -/
structure QfState where
  /-- Queues whose entries stand in the queue cache of a cluster (R329). -/
  cached : List (Nat × Bool) := []
  /-- Copies in progress: queue, and 1 for a pin or 2 for an unpin (R330). -/
  copying : List (Nat × Nat) := []
  held : List HeldOp := []
  /-- The seed in progress: next cell and cells left (R336). -/
  seedCell : Nat := 0
  seedLeft : Nat := 0
  /-- Moves of re-homed inbox entries in progress: from engine p to engine q (R340). -/
  moves : List (Nat × Nat) := []
  /-- Per queue, the entries put in the present fc, which its gets and level reads do not see (R326). -/
  fresh : List (Nat × Nat) := []
  /-- The crossings of the present fc, by queue (R333). -/
  cross : List (Nat × CrossFc) := []
  /-- Watermarks written in the present fc, as it found them (R334). -/
  wmOld : List (Nat × Word) := []
  /-- Reclaim walks in progress: per flock, the next owner tag (R339). -/
  walk : List (Nat × Nat) := []
deriving DecidableEq, Repr

/-- A host request held unaccepted in Rest (01_architecture.md R29): an access of a port, or of a named register. -/
structure HostReq where
  port : Port
  named : Bool
  write : Bool
  off : Nat
  size : Nat := 4
  be : Nat := 15
  data : BitVec 64 := 0
deriving DecidableEq, Repr

/-- A debug request that waits for the return from Rest (20_debug.md R505): its interface (1 Fipple, 2 TAP), the status of one that
is answered without being served (BADCMD, CRCERR, BUSY), and what it asks. -/
structure DbReq where
  iface : Nat
  status : Option Nat := none
  cmd : Nat := 0
  payload : List Byte := []
  sys : List (Nat × BitVec 64) := []
deriving DecidableEq, Repr

/-- Where the block stands between reset and its power states (19_reset_power_startup.md R470, R483). -/
inductive PMode
  | reset | startup | graze | rest | fold
deriving DecidableEq, Repr

/-- A last gasp (19_reset_power_startup.md R490 to R493): 0 none, 1 waiting for C, 2 snapshot read, 3 scan running. -/
structure LastGasp where
  phase : Nat := 0
  /-- S and C. -/
  s : Stamp := 0
  c : Stamp := 0
  /-- The fc in which the snapshot began. -/
  snapFc : Nat := 0
  /-- The snapshot body, 2,032 words, and the entries saved, oldest first. -/
  snap : List (Nat × Word) := []
  entries : List (List Byte) := []
  /-- PWRFAIL_N rose during the last gasp; a completed last gasp waits for the rise. -/
  rose : Bool := false
  done : Bool := false
deriving DecidableEq, Repr

/-- Clocks, power and the pins of reset and power. -/
structure PwState where
  mode : PMode := .reset
  /-- CLK_FAST clocks the fast domain. -/
  fast : Bool := false
  /-- The PLL_LOCK pin, and PLL_REQ. -/
  pll : Bool := false
  pllReq : Bool := false
  /-- The PWRFAIL_N, POR_N and RST_N pins are low. -/
  failLow : Bool := false
  porLow : Bool := true
  rstLow : Bool := false
  /-- The handshakes of R520: request levels PD_CORE_ON, PD_MEM_ON, PD_JRN_ON, PD_MEM_RET and their acknowledgements. -/
  coreReq : Bool := true
  memReq : Bool := true
  jrnReq : Bool := true
  retReq : Bool := false
  coreAck : Bool := true
  memAck : Bool := true
  jrnAck : Bool := true
  retAck : Bool := false
  iso : Bool := false
  /-- An entry in progress: 0 none, 1 Rest, 2 Fold; the Tally of its GO; whether it is emulated (R510). -/
  entry : Nat := 0
  goAt : Stamp := 0
  emu : Bool := false
  /-- The entry has passed quiescence and its handshakes run; a return from Rest or Fold is in progress. -/
  down : Bool := false
  up : Bool := false
  /-- The source a Fold exit serves (R487). -/
  foldSrc : Nat := 7
  /-- The reset in progress: level served and source; start-up goes on from the stage in RC_BOOT. -/
  level : Nat := 4
  source : Nat := 0
  /-- Sources held during a last gasp or in Rest (R472). -/
  heldRst : List Nat := []
  /-- An L1 reset ends 16 fc after its source asserted: the fc and the source (R470). -/
  l1End : Option (Nat × Nat) := none
  /-- The apply-time of an armed Tally Link reset (R473). -/
  tlcmd : Option Stamp := none
  /-- What the sample of the strap gave (R476). -/
  strap : Nat := 0
  /-- The outcome of the last patch load (R191): R426 D3, the version, its SVN; a load has been made. -/
  patch : Nat := 0
  patchVer : BitVec 64 := 0
  svn : Nat := 0
  /-- The CLK_FAST domain is stopped by a whole-block halt (R509), or by a fall of PLL_LOCK (R488). -/
  bhalt : Bool := false
  lockLost : Bool := false
  /-- What the boot ROM or the host load has to read: an input of the start-up, named by RESET_RELEASE, HOSTGO or HOLDREL. -/
  image : BootImage := {}
  /-- The images in use were loaded by the host (R480). -/
  hostBoot : Bool := false
  /-- Host requests that wait for Graze (R29), oldest first. -/
  hostHeld : List HostReq := []
  lg : LastGasp := {}
deriving DecidableEq, Repr

/-- Memory integrity beside its registers (17_memory_integrity.md). -/
structure MiState where
  /-- The word of an instance that a group's scrubber reads next (R440). -/
  scrub : List (Nat × Nat) := []
  /-- The fc of a group's last scrub read, plus 1 (R440). -/
  scrubFc : List (Nat × Nat) := []
  /-- Row copies in progress: entry, and the fc of the write plus 1 (R444). -/
  copies : List (Nat × (Nat × Nat)) := []
  /-- Instance sweeps in progress, by group * 128 + instance (R447). -/
  sweeps : List (Nat × Bool) := []
deriving DecidableEq, Repr

/-- A self-test in progress: the mailbox that waits, and whether it is a re-admission (R464). -/
structure TestRun where
  kind : Nat := 0
  unit : Nat := 0
  mbox : Nat := 0
  readmit : Bool := false
deriving DecidableEq, Repr

/-- The reserve beside its registers (18_reserve_and_service_life.md). -/
structure RsState where
  /-- The fc of RS_DV_CTRL.GO, plus 1, and a switch that the edge ending the present fc makes (R456, R457). -/
  goFc : Nat := 0
  swNow : Bool := false
  /-- CLK_SLOW edges that the ring-oscillator measurement in progress still waits for (R453). -/
  roLeft : Nat := 0
  /-- The fc w in which the boundary was met, plus 1 (R457). -/
  holdFc : Nat := 0
  /-- The first fc of pairing in which no mismatch has been seen, plus 1 (R457, R460). -/
  pairFc : Nat := 0
  /-- Stress-hours of the 206 units in the order of R455, and the busy counts of the engines (R454). -/
  hours : List (Nat × Word) := []
  busy : List (Nat × Word) := []
  /-- Units that did not carry a logical unit for the whole of the present hour. -/
  idle : List (Nat × Bool) := []
  /-- LE_BUSY_FC_HI, MI_CE_CNT and MI_UE_CNT at the last hourly reading, and the errors of the last hour. -/
  busyHi : List (Nat × Word) := []
  ceAt : List (Nat × Word) := []
  ueAt : List (Nat × Word) := []
  ceHour : List (Nat × Word) := []
  ueHour : List (Nat × Word) := []
  /-- Oscillators whose count has been out of range since L2 (R463): bit 0 A, bit 1 B. -/
  rco : Nat := 0
  tests : List TestRun := []
deriving DecidableEq, Repr

/-- The images that Crook keeps in the Fold store (R445, R452). -/
structure RemapImage where
  entries : List (Nat × Word) := []
  seq : Word := 0
deriving DecidableEq, Repr

structure ReserveImage where
  maps : List (Nat × Word) := []
  hurdles : List (Nat × Word) := []
  hours : List (Nat × Word) := []
  busy : List (Nat × Word) := []
deriving DecidableEq, Repr

/-- The Fold store (R495): its words, and the images in it. -/
structure FoldStore where
  words : List (Nat × Word) := []
  /-- Crook has started once on this store. -/
  started : Bool := false
  remap : Option RemapImage := none
  reserve : Option ReserveImage := none
deriving DecidableEq, Repr

/-- A command that waits (16_mailbox_commands.md R421): its mailbox, OP and stamp of acceptance, and what it needs to complete. -/
structure MbWait where
  m : Nat := 0
  op : Nat := 0
  a : Nat := 0
  b : Nat := 0
  c : Nat := 0
  astamp : Stamp := 0
  inc : Nat := 0
deriving DecidableEq, Repr

/-- The mailboxes beside their registers. -/
structure MbState where
  waits : List MbWait := []
  /-- The ring of a BUSY mailbox found STATE = DONE (R420). -/
  done : List (Nat × Bool) := []
  /-- Rings that come before READY are held (R479). -/
  ready : Bool := false
  /-- Per peer mailbox (R58, R433): the bytes gathered, the sender's TL_ID and port (256 * port + TL_ID), the sequence
  numbers of the first and of the next fragment, and the sequence numbers of reply fragments not yet accepted. -/
  peerLen : List (Nat × Nat) := []
  peerSrc : List (Nat × Nat) := []
  peerFirst : List (Nat × Nat) := []
  peerNext : List (Nat × Nat) := []
  peerOut : List (Nat × List Nat) := []
deriving DecidableEq, Repr

/-- The debug fabric beside its registers (20_debug.md). -/
structure DbState where
  /-- A challenge stands; the certificate and the proof submitted (R500); the interface they came on. -/
  chal : Bool := false
  /-- The ephemeral public key and the nonce returned by the challenge. -/
  eph : List Byte := []
  cert : List Byte := []
  proof : Option (List Byte) := none
  iface : Nat := 0
  /-- Failed unlocks in a row since POR (R501). -/
  fails : Nat := 0
  /-- The last response: STATUS, none when there is none, and payload (R504). -/
  status : Option Nat := none
  payload : List Byte := []
  /-- The requests that wait for the return from Rest, oldest first (R505). -/
  held : List DbReq := []
  /-- The TAP's instruction register, the bytes of a request passed through it, and the response bytes still to be read (R506). -/
  ir : Nat := 2
  tapReq : List Byte := []
  tapRsp : List Byte := []
  /-- What the last Capture-DR loaded. -/
  dr : BitVec 32 := 0
  /-- The fc of the last trace entry and the entries of that fc (R512). -/
  traceFc : Nat := 0
  traceN : Nat := 0
  /-- Scan mode or BIST is on. -/
  scan : Bool := false
  bist : Bool := false
  /-- The boot hold of R482 holds. -/
  hold : Bool := false
deriving DecidableEq, Repr

/-- A firing of a SOC output on its way (R201, R202): the output, and the fc in which it is taken. -/
structure SocFire where
  m : Nat
  fc : Nat
deriving DecidableEq, Repr

/-- A sample in a port (R196): its fc 1, what it registered with, the SI_ values of that fc, and its entry from fc 2 on. -/
structure SampleFly where
  port : Nat
  fc : Nat
  data : BitVec 24
  tag : Nat
  /-- The stamp of words 2 and 3, whether it paired, whether it found no fresh mark (R202). -/
  stamp : Stamp
  paired : Bool
  nosoc : Bool
  /-- The incarnation of the port's flock. -/
  inc : Nat
  cfg : Word
  off : Word
  gain : Word
  hi : Word
  lo : Word
  route : Word
  entry : List QWord := []
deriving DecidableEq, Repr

/-- A trip input beside its registers (07_sample_ingress_and_trips.md R205 to R207, R219). -/
structure TripIn where
  /-- The level of the TRIPn pin. -/
  pin : Bool := false
  /-- The fc e of the edge whose filter runs. -/
  edge : Option Nat := none
  /-- The fc in which the pin left its active level within the filter time (R207). -/
  left : Option Nat := none
  /-- An injection in progress: the fc that its pulse no longer covers (R219). -/
  inj : Option Nat := none
  /-- The fc in which the latch, and QUAL, set last, plus 1 (R210). -/
  latchFc : Nat := 0
  qualFc : Nat := 0
deriving DecidableEq, Repr

/-- Sample ingress and trips beside their registers. -/
structure SiState where
  fires : List SocFire := []
  /-- SOC outputs that are high: the fc that the pulse no longer covers. -/
  high : List (Nat × Nat) := []
  /-- The fresh mark of each port, and the SOC stamp of each output, as the present fc found them (R202). -/
  mark : List (Nat × Bool) := []
  socStamp : List (Nat × Stamp) := []
  /-- Samples in the ports, by fc 1 and port. -/
  fly : List SampleFly := []
  /-- SI_ registers written in the present fc, as it found them (R196). -/
  old : List (Nat × Word) := []
  /-- Ports whose next sample is the first since EN was set (R199). -/
  first : List (Nat × Bool) := []
  trips : List (Nat × TripIn) := []
  /-- Groups that are asserted; QUAL groups that asserted in the present fc, with the stamp of the input that did it (R210). -/
  gOn : List (Nat × Bool) := []
  gPend : List (Nat × Stamp) := []
  /-- Entries that have engaged and whose engagement is not yet stamped and journalled (R213). -/
  engNew : List (Nat × Bool) := []
  /-- The open PREPARE window: entry and fc (R215). -/
  prep : Option (Nat × Nat) := none
deriving DecidableEq, Repr

/-- A duty write (08_waveform_generators.md R238). -/
structure DutyWrite where
  cmp : Nat := 0
  value : Word := 0
  poison : Bool := false
  fmt1 : Bool := false
  /-- 0 immediate, 1 next reload, 2 absolute. -/
  mode : Nat := 1
  time : Stamp := 0
  inc : Nat := 0
  /-- LE_MAP.INC of the engine (04_kamyn_instruction_set.md R128). -/
  mapInc : Nat := 0
  logical : Nat := 0
  stamp : Stamp := 0
  /-- 0 PWD, 1 unit-register path, 2 HPP, Shepherd, debug access master or command (R546). -/
  src : Nat := 2
  pe : Nat := 0
  /-- The fc of receipt (R239). -/
  rcv : Nat := 0
deriving DecidableEq, Repr

/-- One compare of a generator beside its registers: the shadow as it stood before the write accepted in `oldFc`, what
that write was, and the fc of the last timed transfer (R242 to R246). -/
structure GenCmp where
  old : Word := 0
  oldFc : Nat := 0
  /-- The write accepted in `oldFc` is a next-reload write not yet counted late. -/
  nextRld : Bool := false
  src : Nat := 0
  logical : Nat := 0
  pe : Nat := 0
  /-- The fc of the last timed transfer plus 1, or 0. -/
  timed : Nat := 0
deriving DecidableEq, Repr

/-- An edge in the dead-time stage, or on its way to the boundary: due in 1/16 fc, output 0 A or 1 B, level (R232, R234). -/
structure GenEdge where
  due : Nat
  out : Nat
  level : Bool
deriving DecidableEq, Repr

/-- A value that an active compare takes at the edge that ends fc `fc` (R243, R245). -/
structure GenTransfer where
  fc : Nat
  cmp : Nat
  value : Word
deriving DecidableEq, Repr

/-- One output as the instant `at_` - 1 found it: its raw level, its level behind the dead-time stage, its change in delay, and
the changes that leave the stage at that instant (R231). -/
structure GenSnap where
  at_ : Nat := 0
  r : Bool := false
  st : Bool := false
  delay : List GenEdge := []
  bound : List GenEdge := []
deriving DecidableEq, Repr

/-- A physical generator beside its registers (08_waveform_generators.md). -/
structure Gen where
  /-- Raw levels r of A and B, and the levels behind the dead-time stage and at the boundary. -/
  rA : Bool := false
  rB : Bool := false
  stA : Bool := false
  stB : Bool := false
  outA : Bool := false
  outB : Bool := false
  /-- Changes in their dead time, and changes on the 4 fc to the boundary. -/
  delay : List GenEdge := []
  bound : List GenEdge := []
  snapA : GenSnap := {}
  snapB : GenSnap := {}
  /-- PWD writes on their way, writes received and waiting, and the fc of the last acceptance plus 1. -/
  sent : List DutyWrite := []
  waiting : List DutyWrite := []
  accepted : Nat := 0
  cmps : List (Nat × GenCmp) := []
  transfers : List GenTransfer := []
  /-- The shadow period before the write of `perFc` - 1, and that write's source (R242, R546). -/
  perOld : Word := 0
  perFc : Nat := 0
  perSrc : Nat := 0
  /-- A start takes place at the edge that ends this fc; -/
  startAt : Option Nat := none
  /-- a start waits for the group's next sync (R251). -/
  groupStart : Bool := false
  /-- The counter took 0, or PERIOD, at the edge that began the fc: ZRO or PRD is due; the edge is a START edge, or a sync's, at which period and
  compares were already taken. -/
  zroDue : Bool := false
  prdDue : Bool := false
  startEdge : Bool := false
  /-- Matches already taken in the present fc: compare, up. -/
  matched : List (Nat × Bool) := []
  /-- The actions of the instant `instAt` - 1, by their place in the order of R231 and field, and the raw levels that it found. -/
  instAt : Nat := 0
  baseA : Bool := false
  baseB : Bool := false
  acts : List (Nat × Nat) := []
  /-- A STOP takes place at the edge that ends this fc (R251). -/
  stopAt : Option Nat := none
  /-- The dead times of A and B as the fc `dtFc` - 1 found them (R234). -/
  dtFc : Nat := 0
  dtOld : List Word := []
  /-- A freeze is requested (R252). -/
  freeze : Bool := false
deriving DecidableEq, Repr

/-- A compare of a timer as it stood before the write made in fc `wrFc` - 1 (R268), and the fc of its last match plus 1. -/
structure TimCmp where
  wrFc : Nat := 0
  oldVal : Word := 0
  oldArmed : Bool := false
  matchFc : Nat := 0
deriving DecidableEq, Repr

/-- A change of a source line on its way: the fc in which it registers, the level, and the stamp of the edge for captures
(R259, R262). -/
structure LineEv where
  due : Nat
  level : Bool
  cap : Option Stamp
deriving DecidableEq, Repr

/-- A source line of timer gates and captures: its level behind the latency, the changes on their way, and for slow advance its
level at the last CLK_SLOW edge and the edges since (R264). -/
structure Line where
  level : Bool := false
  queue : List LineEv := []
  prev : Bool := false
  rose : Bool := false
  fell : Bool := false
deriving DecidableEq, Repr

/-- A physical timer beside its registers (09_gated_timers.md). -/
structure Tim where
  cmps : List (Nat × TimCmp) := []
  /-- Commands of TM_CTRL that act at the edge that ends the fc named, in order (R266). -/
  cmds : List (Nat × Nat) := []
  /-- A group start at the edge that ends this fc (R267). -/
  startAt : Option Nat := none
deriving DecidableEq, Repr

/-- A tooth that has been decided and not yet registered: its stamp, its width where that decided it (DIRMODE 1) and the fc of the
decision (R275). -/
structure Tooth where
  stamp : Stamp
  width : Option Nat
  fc : Nat
deriving DecidableEq, Repr

/-- A measurement not yet applied by the observer: y, sm and the fc of its registration (R282). -/
structure PfMeas where
  y : Word
  stamp : Stamp
  fc : Nat
deriving DecidableEq, Repr

/-- A physical feedback unit beside its registers (10_position_feedback.md). -/
structure Pfu where
  /-- The active edge of the pulse in progress: stamp and fc. -/
  act : Option (Stamp × Nat) := none
  /-- That edge is already a tooth. -/
  taken : Bool := false
  teeth : List Tooth := []
  /-- The teeth that register at the edge that ends this fc. -/
  reg : List Tooth := []
  /-- Edges of the auxiliary line on their way: stamp and fc (R279). -/
  marks : List (Stamp × Nat) := []
  /-- The last intervals, newest first, and how many since AVGOK was cleared. -/
  ivals : List Nat := []
  since : Nat := 0
  /-- The stamp of the last counted tooth. -/
  last : Option Stamp := none
  /-- Intervals counted since the last mark, and a mark since START. -/
  sinceMark : Nat := 0
  marked : Bool := false
  p : BitVec 48 := 0
  w : Int := 0
  a : Int := 0
  meas : Option PfMeas := none
  /-- The measurement that a commit of this fc would replace, which a step of this fc still uses (R281). -/
  measOld : Option PfMeas := none
  /-- Commands that act at the edge that ends this fc (R286). -/
  cmds : List Nat := []
  /-- The fc plus 1 of an INIT, whose step is skipped (R287). -/
  initFc : Nat := 0
  /-- The gains before the writes of fc `gainFc` - 1. -/
  gainFc : Nat := 0
  gains : List Word := []
deriving DecidableEq, Repr

/-- An entry of a channel's RX queue: data, tag of R306, CH_STAMP at the push. -/
structure RxEntry where
  data : Word := 0
  tag : Nat := 0
  stamp : Stamp := 0
deriving DecidableEq, Repr

/-- A channel of a Chanter beside its registers (11_chanters.md R292 to R313). -/
structure Chan where
  osr : Word := 0
  osrN : Nat := 0
  isr : Word := 0
  isrN : Nat := 0
  /-- Beats still to wait (DLY). -/
  delay : Nat := 0
  /-- Driven levels and enables of the window pins, a bit each. -/
  lvl : Nat := 0
  oe : Nat := 0
  /-- An armed stamp capture: some true for a rising edge (R303). -/
  cap : Option Bool := none
  /-- SEL is asserted (framed mode), the framing register, its bits, the sampled bits of the frame (R312). -/
  sel : Bool := false
  frm : Word := 0
  frmN : Nat := 0
  frmBits : Nat := 0
  /-- The word SDO shifts, and the level of SDO. -/
  sdo : Word := 0
  sdoBit : Bool := false
  tx : List QWord := []
  rx : List RxEntry := []
  /-- Pushes of the present fc into the TX queue, with their place in its order: feeder 0, scatter 1, register 2 (R307). -/
  txNext : List (Nat × QWord) := []
  /-- Framed pushes of the present fc: word and tag (R307). -/
  frmPush : List (Word × Nat) := []
  /-- SEL releases in the present fc (R312). -/
  release : Bool := false
  /-- The fc plus 1 of the last operation of its feeder and of its drain (R325). -/
  fed : Nat := 0
  drained : Nat := 0
deriving DecidableEq, Repr

/-- A change of a channel's pins on its way to the PIO boundary (R292): due at the edge that begins this fc. -/
structure PinChange where
  due : Nat
  ch : Nat
  lvl : Nat
  oe : Nat
deriving DecidableEq, Repr

/-- A round in progress: the fc b it began in, Tally in it, the synchronised PIO levels (R292). -/
structure Round where
  fc : Nat
  stamp : Stamp
  pio : BitVec 192
deriving DecidableEq, Repr

/-- What acts on a Chanter at the edge that ends the present fc: CH_CTRL START and STOP, a restart of its divider, the start of a channel
that is enabled, CH_CCTL RESTART and HALT (R310, R314). -/
inductive ChCmd
  | start | stop | divide
  | begin (k : Nat)
  | restart (k : Nat)
  | halt (k : Nat)
deriving DecidableEq, Repr

/-- A physical Chanter beside its registers. -/
structure Chanter where
  chans : List (Nat × Chan) := []
  /-- The fc that the divider restart begins, and the number of the next beat (R293). -/
  origin : Nat := 0
  beat : Nat := 0
  /-- The fc in which a freeze began. -/
  frozenAt : Option Nat := none
  /-- Levels and enables at the PIO boundary per channel (level + 16 * enable), and changes on their way there. -/
  pins : List (Nat × Nat) := []
  bound : List PinChange := []
  rounds : List Round := []
  cmds : List ChCmd := []
deriving DecidableEq, Repr

/-- What the Chanters share (R309, R310). -/
structure ChState where
  /-- The fc of the write that armed CH_SYNC_CTRL, while a sync is still to come; the fc of the last sync plus 1. -/
  sync : Option Nat := none
  syncFc : Nat := 0
  /-- What is left of the entry the scatter agent took, and the number of its next pair. -/
  scat : List QWord := []
  scatPos : Nat := 0
  /-- The fc plus 1 of its last pair. -/
  scatFc : Nat := 0
  /-- Entries of the pin crossbar written in the present fc, as it found them (R305). -/
  pinOld : List (Nat × Word) := []
deriving DecidableEq, Repr

/-- What takes place at the edge that ends a later fc. -/
inductive Act
  /-- An enabled slot sees its level trigger (03_loop_engines.md R81). -/
  | levelEval (p k : Nat)
  /-- A RAW trip group, asserted in fc e, sets its synchronous copy (07_sample_ingress_and_trips.md R210). -/
  | groupAct (g e : Nat) (st : Stamp)
  /-- A glitch of a trip input that left its active level in fc d clears the latch (R207). -/
  | tripGlitch (n d : Nat)
  /-- The slots that watch a queue see a threshold written in the fc before (12_queue_fabric.md R334). -/
  | levelQueue (n : Nat)
  /-- The width of a pulse that is not classified by it (10_position_feedback.md R275). -/
  | pfWidth (x w : Nat)
deriving DecidableEq, Repr

/-- Why the machine stops. -/
inductive Fault
  /-- Raised by no meaning of this model: no command of the block ends the machine. -/
  | stuck
deriving DecidableEq, Repr

/-- Why a command has no meaning. -/
inductive Refusal
  /-- Raised by Dispatch for a row without a meaning yet. Safe: the model stops. -/
  | notModelled (mnemonic : String)
deriving DecidableEq, Repr

/-- The whole state. -/
structure State where
  /-- The commands that wait, first in first out. -/
  pending : List Instr := []
  /-- CLK_FAST cycles since reset (the model's own measure of fc). -/
  fc : Nat := 0
  /-- The index of the next free value (the model's own field; log entry 1). -/
  free : Nat := 0
  /-- The registers, by HPP offset; an unlisted one holds its reset value of the register tables. -/
  regs : List (Nat × Word) := []
  /-- The memories, by byte; an unlisted byte reads 0 (17_memory_integrity.md R446). -/
  mem : List Host.Cell := []
  /-- Word numbers (address / 4) of `mem` that carry the poison mark (R438), rising. -/
  marks : List (Nat × Bool) := []
  /-- Bytes written through BMP to system memory. -/
  sysMem : List Host.Cell := []
  /-- The last response on each port. -/
  resp : List (Nat × Resp) := []
  /-- _HI registers latched by a read of _LO, per master (02_tally_time.md R60). -/
  hiLatch : List (Nat × Word) := []
  /-- What units set or counted in the present fc: the bits set, by register; a count shows as bit 0 (00_scope.md R7). -/
  hot : List (Nat × Word) := []
  ev : EvState := {}
  jn : JnState := {}
  tb : TbState := {}
  tl : TlState := {}
  /-- The engines, by physical number. -/
  engs : List (Nat × Eng) := []
  /-- The requests of each cluster's Rank unit, oldest first: the first is in service (R89). -/
  ranks : List (Nat × List RankReq) := []
  /-- Per cluster, the first fc in which lane 9 (even numbers) and the external line slot (odd) are free again (R94). -/
  clExt : List (Nat × Nat) := []
  /-- The writes of the present fc to the shared RAMs, in lane order (R68). -/
  lanes : List LaneWrite := []
  /-- What the words written in the present fc held before, by word number, with their marks (R68). -/
  laneOld : List (Nat × Word × Bool) := []
  /-- What takes place at the edge that ends the fc named, in order. -/
  due : List (Nat × Act) := []
  qf : QfState := {}
  pw : PwState := {}
  si : SiState := {}
  /-- The waveform generators, by physical number. -/
  gens : List (Nat × Gen) := []
  /-- Per phase group: the shadow period before the write made in the fc numbered one less (R249). -/
  phOld : List (Nat × (Nat × Word)) := []
  /-- Per phase group: the one sync of PHG_TPER = 0 has been given (R248). -/
  phDone : List (Nat × Bool) := []
  /-- Phase groups whose PHG_PERIOD was written and not yet taken by a sync (R249). -/
  phNew : List (Nat × Bool) := []
  /-- Crossbar entries written in the present fc, as it found them (R235). -/
  xbarOld : List (Nat × Word) := []
  /-- Phase groups that sync at the edge that ends the fc (08_waveform_generators.md R248). -/
  phDue : List Nat := []
  /-- The gated timers and the feedback units, by physical number. -/
  tims : List (Nat × Tim) := []
  /-- The source lines of timer gates and captures, by 256 times GKIND plus index. -/
  lines : List (Nat × Line) := []
  pfus : List (Nat × Pfu) := []
  /-- The fc since the last observer step, and a step in this fc (R281). -/
  pfPhase : Nat := 0
  pfStep : Bool := false
  /-- Timer groups whose start at TMG_TIME is pending (R267). -/
  tmgPend : List (Nat × Bool) := []
  /-- Control-store words that are not swept, by engine * 0x2000 + micro-address (R154, R156). -/
  cs : List (Nat × UWord) := []
  sh : Shep := {}
  /-- The Chanters, by physical number, and what they share. -/
  chs : List (Nat × Chanter) := []
  ch : ChState := {}
  mi : MiState := {}
  /-- Flock resets in progress: the fc r plus 1 (R373). -/
  flkFc : List (Nat × Nat) := []
  /-- Flock resets requested in the present fc, with the request that names them, and flocks whose CLEAN may set at its end (R372 to R374). -/
  flkReq : List (Nat × Nat) := []
  flkClean : List Nat := []
  rs : RsState := {}
  fold : FoldStore := {}
  /-- Fuse bits that are blown (R469, R477, R499); none is in a blank macro. -/
  fuses : List (Nat × Bool) := []
  mb : MbState := {}
  db : DbState := {}
deriving DecidableEq, Repr

/-- The block right after a power-on reset: every register at the value of its table, memories swept, nothing pending. -/
def State.reset : State := { sh := Shep.atReset }

end Sys2Proof.Machine
end

