-- ==== Sys2Proof/Machine/Table.lean ====
section
/-!
DEFINITION. Sparse tables: lists of (key, value) pairs in one canonical form, keys strictly rising and no value equal
to what an unlisted key reads as. Every table of the state (registers, memory bytes, per-unit structures) is one.
-/

namespace Sys2Proof.Machine

/-- The value at a key: the listed one, else the default. -/
def tget {α : Type} (d : Nat → α) : List (Nat × α) → Nat → α
  | [], k => d k
  | (k', v) :: t, k => if k' = k then v else tget d t k

/-- Insert or replace, keeping the keys rising. -/
def tins {α : Type} : List (Nat × α) → Nat → α → List (Nat × α)
  | [], k, v => [(k, v)]
  | (k', w) :: t, k, v =>
    if k < k' then (k, v) :: (k', w) :: t
    else if k' = k then (k, v) :: t
    else (k', w) :: tins t k v

/-- Remove a key. -/
def tdel {α : Type} : List (Nat × α) → Nat → List (Nat × α)
  | [], _ => []
  | (k', w) :: t, k => if k' = k then tdel t k else (k', w) :: tdel t k

/-- Write a key, keeping the canonical form. -/
def tset {α : Type} [DecidableEq α] (d : Nat → α) (t : List (Nat × α)) (k : Nat) (v : α) : List (Nat × α) :=
  if v = d k then tdel t k else tins t k v

/-- Every key above `lo`, the keys strictly rising, no listed value the default. -/
def twfFrom {α : Type} [DecidableEq α] (d : Nat → α) : Option Nat → List (Nat × α) → Bool
  | _, [] => true
  | lo, (k, v) :: t =>
    (match lo with | none => true | some l => decide (l < k)) && decide (v ≠ d k) && twfFrom d (some k) t

/-- The canonical form of a table. -/
def twf {α : Type} [DecidableEq α] (d : Nat → α) (t : List (Nat × α)) : Bool := twfFrom d none t

/-- Apply `f` to every listed value, dropping what becomes the default. -/
def tmap {α : Type} [DecidableEq α] (d : Nat → α) (f : Nat → α → α) : List (Nat × α) → List (Nat × α)
  | [] => []
  | (k, v) :: t => if f k v = d k then tmap d f t else (k, f k v) :: tmap d f t

end Sys2Proof.Machine
end

