-- ==== Sys2Proof/Machine/Ops.lean ====
section
/-!
DEFINITION. The named operations over registers and memory: reads and writes by offset and field, counters, bytes and
words with their poison marks, free values.
-/

namespace Sys2Proof.Machine

/-- What a command answers. -/
abbrev Out := Host.Outcome State Fault Refusal

/-! ### Finding a register of the map -/

/-- The element of a register array that an instance offset names. -/
def RegDesc.elem (r : RegDesc) (d : Nat) : Option Nat :=
  if d < r.off then none
  else
    let k := (d - r.off) / r.stride
    if (d - r.off) % r.stride = 0 ∧ k < r.count then some k else none

/-- The register of a block's list that an instance offset names, with its element. -/
def findElem (d : Nat) : List RegDesc → Option (RegDesc × Nat)
  | [] => none
  | r :: t => match r.elem d with
    | some k => some (r, k)
    | none => findElem d t

/-- The instance of a block and the offset in it (R19, R21). -/
def BlockDesc.locate (b : BlockDesc) (off : Nat) : Option (Nat × Nat) :=
  if off < b.base then none
  else
    let d := off - b.base
    if b.gstride = 0 then
      if d / b.stride < b.count then some (d / b.stride, d % b.stride) else none
    else
      let c := d / b.gstride
      let e := d % b.gstride / b.stride
      if e < b.grp ∧ c * b.grp + e < b.count then some (c * b.grp + e, d % b.gstride % b.stride) else none

/-- A register found: its instance, its description and its element. -/
structure RegAt where
  inst : Nat
  desc : RegDesc
  elem : Nat
deriving DecidableEq, Repr

/-- The register at an offset, if one is assigned there. -/
def findReg (off : Nat) : List BlockDesc → Option RegAt
  | [] => none
  | b :: t => match b.locate off with
    | some (i, d) => match findElem d b.regs with
      | some (r, k) => some ⟨i, r, k⟩
      | none => findReg off t
    | none => findReg off t

/-- The value of a register right after the widest reset: the reset values of its fields (R9). -/
def regReset (off : Nat) : Word :=
  match findReg off regBlocks with
  | some r => BitVec.ofNat 32 (r.desc.fields.foldl (fun a f => a + f.rst * 2 ^ f.lo) 0)
  | none => 0

/-- Does a reset at level `l` (0 flock, 1, 2, 3, 4 for POR) restore a field of level `f` (R9)? -/
def Lvl.restoredBy (f : Lvl) (l : Nat) : Bool :=
  match f with
  | .L0 => l == 0 || l ≥ 2
  | .L1 => l ≥ 1
  | .L2 => l ≥ 2
  | .L3 => l ≥ 3
  | .POR => l ≥ 4

/-- The mask of a field. -/
def fieldMask (hi lo : Nat) : Nat := (2 ^ (hi - lo + 1) - 1) * 2 ^ lo

/-- The bits of a register that a reset at level `l` restores. -/
def resetMask (l : Nat) (off : Nat) : Word :=
  match findReg off regBlocks with
  | some r => BitVec.ofNat 32 (r.desc.fields.foldl (fun a f => if f.lvl.restoredBy l then a + fieldMask f.hi f.lo else a) 0)
  | none => 0

/-! ### Registers -/

/-- A register as stored. -/
def State.reg (s : State) (off : Nat) : Word := tget regReset s.regs off

/-- Store a register whole. -/
def State.setReg (s : State) (off : Nat) (v : Word) : State := { s with regs := tset regReset s.regs off v }

/-- A field of a stored register. -/
def State.fld (s : State) (off : Nat) (f : Fld) : Nat := bitsOf (s.reg off).toNat f.lo f.len

/-- A field of a value. -/
def Fld.of (f : Fld) (v : Nat) : Nat := bitsOf v f.lo f.len

/-- A one-bit field. -/
def State.flag (s : State) (off : Nat) (f : Fld) : Bool := s.fld off f == 1

/-- Store a field, keeping the register's other bits. -/
def State.setFld (s : State) (off : Nat) (f : Fld) (v : Nat) : State :=
  s.setReg off (BitVec.ofNat 32 (withBits (s.reg off).toNat f.lo f.len v))

/-- What a unit set in a register in the present fc, so that a clear of the same fc leaves it (00_scope.md R7). -/
def State.hotBits (s : State) (off : Nat) : Word := tget (fun _ => 0) s.hot off

/-- Remember bits of a register as set in the present fc. -/
def State.hotSet (s : State) (off : Nat) (m : Word) : List (Nat × Word) := tset (fun _ => 0) s.hot off (s.hotBits off ||| m)

/-- Store a one-bit field; a bit set is remembered for the fc. -/
def State.setFlag (s : State) (off : Nat) (f : Fld) (b : Bool) : State :=
  { s.setFld off f (b2n b) with
    hot := if b then s.hotSet off (BitVec.ofNat 32 (2 ^ f.lo))
      else tset (fun _ => 0) s.hot off (s.hotBits off &&& ~~~(BitVec.ofNat 32 (2 ^ f.lo))) }

/-- Count in a field, wrapping. -/
def State.incFld (s : State) (off : Nat) (f : Fld) : State := s.setFld off f (s.fld off f + 1)

/-- Count in a field, stopping at its largest value. -/
def State.incSat (s : State) (off : Nat) (f : Fld) : State :=
  { (if s.fld off f + 1 < 2 ^ f.len then s.setFld off f (s.fld off f + 1) else s) with hot := s.hotSet off (BitVec.ofNat 32 (2 ^ f.lo)) }

/-- Count in a whole 32-bit register, wrapping; the count is remembered for the fc. -/
def State.inc (s : State) (off : Nat) : State := { s.setReg off (s.reg off + 1) with hot := s.hotSet off 1 }

/-- Add to a whole 32-bit register, wrapping. -/
def State.incBy (s : State) (off n : Nat) : State := s.setReg off (s.reg off + BitVec.ofNat 32 n)

/-- A 64-bit value in a _LO, _HI pair. -/
def State.reg64 (s : State) (lo hi : Nat) : Stamp := (s.reg hi) ++ (s.reg lo)

/-- Store a 64-bit value in a _LO, _HI pair. -/
def State.setReg64 (s : State) (lo hi : Nat) (v : Stamp) : State :=
  (s.setReg lo (v.extractLsb' 0 32)).setReg hi (v.extractLsb' 32 32)

/-- Store a natural number in a whole register. -/
def State.setNat (s : State) (off n : Nat) : State := s.setReg off (BitVec.ofNat 32 n)

/-- A register as a natural number. -/
def State.nat (s : State) (off : Nat) : Nat := (s.reg off).toNat

/-- CLK_FAST clocks the block: it runs and no Rest or Fold, emulated ones included, holds the units (R484, R510). -/
def State.live (s : State) : Bool := s.pw.fast && s.pw.mode != .rest && s.pw.mode != .fold

/-- Something takes place at the edge that ends fc `fc`. -/
def State.later (s : State) (fc : Nat) (a : Act) : State := { s with due := s.due ++ [(fc, a)] }

/-! ### Free values -/

/-- The next free value (log entry 1). -/
def State.freeVal (s : State) : BitVec 128 := Config.free s.free

/-- The free value taken. -/
def State.tookFree (s : State) : State := { s with free := s.free + 1 }

/-! ### Memory -/

/-- An unlisted byte of memory reads 0: the start-up sweep writes zeros (R446). -/
def memReset (_ : Nat) : Byte := 0

/-- The canonical form of a memory. -/
def Memory.wf (m : List Host.Cell) : Bool := twf memReset m

/-- A byte. -/
def State.byte (s : State) (a : Nat) : Byte := tget memReset s.mem a

/-- Write a byte. -/
def State.setByte (s : State) (a : Nat) (b : Byte) : State := { s with mem := tset memReset s.mem a b }

/-- Read `n` bytes, little-endian (R5). -/
def State.bytesNat (s : State) (a : Nat) : Nat → Nat
  | 0 => 0
  | n + 1 => (s.byte a).toNat + 256 * State.bytesNat s (a + 1) n

/-- Write `n` bytes, little-endian (R5). -/
def State.setBytes (s : State) (a : Nat) : Nat → Nat → State
  | 0, _ => s
  | n + 1, v => State.setBytes (s.setByte a (BitVec.ofNat 8 v)) (a + 1) n (v / 256)

/-- Write a list of bytes. -/
def State.setByteList (s : State) (a : Nat) : List Byte → State
  | [] => s
  | b :: t => State.setByteList (s.setByte a b) (a + 1) t

/-- Read a list of `n` bytes. -/
def State.byteList (s : State) (a : Nat) : Nat → List Byte
  | 0 => []
  | n + 1 => s.byte a :: State.byteList s (a + 1) n

/-- An unlisted word carries no poison mark. -/
def markReset (_ : Nat) : Bool := false

/-- Does the word that holds an address carry the poison mark (17_memory_integrity.md R438)? -/
def State.poisoned (s : State) (a : Nat) : Bool := tget markReset s.marks (a / 4)

/-- Set or clear the mark of the word that holds an address. -/
def State.setMark (s : State) (a : Nat) (b : Bool) : State := { s with marks := tset markReset s.marks (a / 4) b }

/-- Does any of the words of `n` bytes at `a` carry the mark? -/
def State.poisonedIn (s : State) (a n : Nat) : Bool :=
  s.poisoned a || (n > 4 && s.poisoned (a + 4))

/-- Clear or set the marks of the `k` words from `a`. -/
def State.setMarks (s : State) (a : Nat) (b : Bool) : Nat → State
  | 0 => s
  | k + 1 => State.setMarks (s.setMark a b) (a + 4) b k

/-- Read a 32-bit word of memory. -/
def State.mword (s : State) (a : Nat) : Word := BitVec.ofNat 32 (s.bytesNat a 4)

/-- Write a whole 32-bit word: its mark is replaced too (R28, R438). -/
def State.setMword (s : State) (a : Nat) (v : Word) : State := (s.setBytes a 4 v.toNat).setMark a false

/-- Bytes the block writes to system memory through BMP. -/
def State.sysWrite (s : State) (a : Nat) : List Byte → State
  | [] => s
  | b :: t => State.sysWrite { s with sysMem := tset memReset s.sysMem a b } (a + 1) t

/-- A byte of system memory as the block last wrote it. -/
def State.sysByte (s : State) (a : Nat) : Byte := tget memReset s.sysMem a

/-- A natural number as `n` little-endian bytes. -/
def natBytes : Nat → Nat → List Byte
  | 0, _ => []
  | n + 1, v => BitVec.ofNat 8 v :: natBytes n (v / 256)

/-- Little-endian bytes as a natural number. -/
def bytesNatOf : List Byte → Nat
  | [] => 0
  | b :: t => b.toNat + 256 * bytesNatOf t

/-! ### Responses -/

/-- A number for each port. -/
def portKey : Port → Nat
  | .shepherd => 0 | .dam => 1 | .hpp => 2 | .hup f => 80 + f.val | .urp p => 4 + p.val

/-- Record the response of an access on its port (R383). -/
def State.respond (s : State) (p : Port) (code : Nat) (data : BitVec 64) : State :=
  { s with resp := tset (fun _ => ({} : Resp)) s.resp (portKey p) ⟨code, data⟩ }

/-- The last response on a port. -/
def State.lastResp (s : State) (p : Port) : Resp := tget (fun _ => ({} : Resp)) s.resp (portKey p)

/-- The natural number of a signed 32-bit word, as an integer. -/
def sInt (w : Word) : Int := w.toInt

/-- The low 32 bits of an integer. -/
def intWord (i : Int) : Word := BitVec.ofInt 32 i

/-- Signed difference of two Tally values (R36). -/
def stampDiff (a b : Stamp) : Int := (a - b).toInt

/-- Has Tally time `t` come at Tally `now` (R36)? -/
def reached (t now : Stamp) : Bool := stampDiff t now ≤ 0

/-- Clamp an integer to a range. -/
def clampI (lo hi v : Int) : Int := if v < lo then lo else if hi < v then hi else v

/-- Fold a function of the indices below `n`, in rising order. -/
def forN {α : Type} (f : Nat → α → α) : Nat → α → α
  | 0, a => a
  | n + 1, a => f n (forN f n a)

/-- The first index from `i` upward, `k` tries, that satisfies `p`. -/
def firstFrom (p : Nat → Bool) : Nat → Nat → Option Nat
  | _, 0 => none
  | i, k + 1 => if p i then some i else firstFrom p (i + 1) k

/-- The lowest index below `n` that satisfies `p`. -/
def firstIdx (p : Nat → Bool) (n : Nat) : Option Nat := firstFrom p 0 n

/-- How many indices below `n` satisfy `p`. -/
def countIdx (p : Nat → Bool) (n : Nat) : Nat := forN (fun i a => if p i then a + 1 else a) n 0

/-- A number whose bit i is p i, for i below n. -/
def maskOf (p : Nat → Bool) (n : Nat) : Nat := forN (fun i a => if p i then a + 2 ^ i else a) n 0

end Sys2Proof.Machine
end

