-- ==== Sys2Proof/Machine/Lanes.lean ====
section
/-!
DEFINITION. Writes to the memories with their poison marks (17_memory_integrity.md R438), the lanes of the cluster shared RAM
(03_loop_engines.md R67, R68) and the waits of external accesses (R69, R94).
-/

namespace Sys2Proof.Machine

/-- Set the marks of consecutive words. -/
def State.putMarks (s : State) (a : Nat) : List Bool → State
  | [] => s
  | m :: t => State.putMarks (s.setMark a m) (a + 4) t

/-- Write bytes and marks (R438): a whole word takes the mark of the value, a narrow store ORs it. -/
def State.storeBytes (s : State) (a : Nat) (bs : List Byte) (ms : List Bool) : State :=
  if bs.length < 4 then
    let m := s.poisoned a || ms.headD false
    (s.setByteList a bs).setMark a m
  else (s.setByteList a bs).putMarks a ms

/-- Write the enabled bytes. -/
def State.putBytes (s : State) (off data be : Nat) : Nat → State
  | 0 => s
  | n + 1 =>
    let s := State.putBytes s off data be n
    if bitOf be n then s.setByte (off + n) (BitVec.ofNat 8 (data / 256 ^ n)) else s

/-- A write of `n` bytes by a master: a word written whole loses its mark, a narrow write keeps it. -/
def State.memWrite (s : State) (off n data be : Nat) : State :=
  let s := s.putBytes off data be n
  let s := if off % 4 = 0 ∧ 4 ≤ n ∧ be % 16 = 15 then s.setMark off false else s
  if n = 8 ∧ be / 16 % 16 = 15 then s.setMark (off + 4) false else s

/-! ### The lanes of the shared RAM (R67, R68) -/

/-- One write in a lane: of a core, with marks, or of a master, with byte enables. -/
def State.laneDo (s : State) (w : LaneWrite) : State :=
  match w.marks with
  | some ms => s.storeBytes w.addr w.bytes ms
  | none => s.memWrite w.addr w.bytes.length (bytesNatOf w.bytes) w.be

/-- The shared RAM as the writes of earlier fc left it. -/
def State.laneUndo (s : State) : State :=
  s.laneOld.foldl (fun s e => (s.setByteList (4 * e.1) (natBytes 4 e.2.1.toNat)).setMark (4 * e.1) e.2.2) s

/-- Writes of one fc stand in lane order, those of one lane in the order they came. -/
def laneInsert (w : LaneWrite) : List LaneWrite → List LaneWrite
  | [] => [w]
  | x :: t => if w.lane < x.lane then w :: x :: t else x :: laneInsert w t

/-- The words that a write of `n` bytes touches. -/
def laneWords (a n : Nat) : List Nat := if n ≤ 4 - a % 4 then [a / 4] else [a / 4, a / 4 + 1]

/-- What a word held at the end of the previous fc is remembered at its first write. -/
def State.laneKeep (s : State) (a n : Nat) : State :=
  (laneWords a n).foldl (fun s i =>
    if s.laneOld.any (fun e => e.1 == i) then s
    else { s with laneOld := (i, s.mword (4 * i), s.poisoned (4 * i)) :: s.laneOld }) s

/-- A write in a lane: the writes of one fc take effect in lane order, so each byte holds the data of the highest lane (R68). -/
def State.laneWrite (s : State) (w : LaneWrite) : State :=
  let s := s.laneKeep w.addr w.bytes.length
  let ws := laneInsert w s.lanes
  { ws.foldl State.laneDo s.laneUndo with lanes := ws }

/-- The shared RAM as a read in a lane sees it: the writes of earlier fc (R68). A lane takes one access in every fc (R67), so that a
read after a write of its own lane stands in a later fc, and sees it (DEDUCED, log entry 53). -/
def State.laneView (s : State) (lane : Nat) : State :=
  if s.lanes = [] then s else (s.lanes.filter (fun w => w.lane == lane)).foldl State.laneDo s.laneUndo

/-- The fc ends, or a copy of whole memories takes their place: every write stands. -/
def State.lanesDone (s : State) : State := { s with lanes := [], laneOld := [] }

/-- Is the address in the shared RAM of a cluster (R22)? -/
def inShared (a : Nat) : Bool := decide (0x1500000 ≤ a) && decide (a < 0x1900000)

/-- A store of a core at a byte address of the HPP window. -/
def State.storeAt (s : State) (lane a : Nat) (bs : List Byte) (ms : List Bool) : State :=
  if inShared a then s.laneWrite { lane := lane, addr := a, bytes := bs, marks := some ms } else s.storeBytes a bs ms

/-- A write of a master at an offset of the HPP window: the shared RAM is reached in lane 9. -/
def State.extWrite (s : State) (a n data be : Nat) : State :=
  if inShared a then s.laneWrite { lane := 9, addr := a, bytes := natBytes n data, be := be } else s.memWrite a n data be

/-- The memory as a reader of a lane sees it at an address. -/
def State.seenAt (s : State) (lane a : Nat) : State := if inShared a then s.laneView lane else s

/-! ### External accesses (R69, R94) -/

/-- An external access waits for lane 9 of its cluster, which takes one access in every fc, or for the external slot of the line
schedule, which PHASE = 9 gives; the longest wait is kept. How long each one of several waits follows the order of the commands
(DESIGN CHOICE, log entry 54). -/
def State.extWait (s : State) (a : Nat) : State :=
  let go (c key step first : Nat) : State :=
    let wait := first - s.fc
    { (if s.fld (CL_EXT_WAIT_MAX c) fCL_EXT_WAIT_MAX_FC < min wait 65535 then s.setFld (CL_EXT_WAIT_MAX c) fCL_EXT_WAIT_MAX_FC (min wait 65535)
       else s) with clExt := tset (fun _ => 0) s.clExt key (first + step) }
  if inShared a then
    let c := (a - 0x1500000) / 0x80000
    go c (2 * c) 1 (max s.fc (tget (fun _ => 0) s.clExt (2 * c)))
  else if 0x1A00000 ≤ a ∧ a < 0x1C00000 then
    let c := (a - 0x1A00000) / 0x40000
    go c (2 * c + 1) 10 (max (s.fc + (9 - s.fld (CL_STAT c) fCL_STAT_PHASE)) (tget (fun _ => 0) s.clExt (2 * c + 1)))
  else s

end Sys2Proof.Machine
end

