-- ==== Sys2Proof/Machine/EventsBase.lean ====
section
/-!
DEFINITION. The served Tally, journal entries of the present fc and the raise of an event source
(13_events_and_journal.md R346 to R359).
-/

namespace Sys2Proof.Machine

/-- The Tally value of a 96-bit accumulator. -/
def tallyOf (x : BitVec 96) : Stamp := x.extractLsb' 32 64

/-- The served Tally (R43): the synchronous stamp of the present fc (R37). -/
def State.now (s : State) : Stamp := if s.flag TB_CTRL fTB_CTRL_SEL then tallyOf s.tb.b else tallyOf s.tb.a

/-! ### Journal entries -/

/-- The stamp of a wake-latch or trip edge: while CLK_FAST is stopped, Tally at the CLK_SLOW edge that follows (R41); the first
such edge keeps Tally (R40). -/
def State.wakeStamp (s : State) : Stamp := if s.pw.fast || s.tb.hold then s.now else s.now + 131072

/-- Does entry `e` stand before `f` among the entries of one fc (R359): rising SOURCE, and within one source a RAISE
ahead of its records? -/
def JEntry.before (e f : JEntry) : Bool :=
  e.source < f.source || (e.source == f.source && e.cls == 0 && f.cls != 0)

/-- Insert an entry in the order of R359, behind its equals. -/
def jInsert (e : JEntry) : List JEntry → List JEntry
  | [] => [e]
  | f :: t => if e.before f then e :: f :: t else f :: jInsert e t

/-- An entry made in the present fc. -/
def State.jAdd (s : State) (e : JEntry) : State := { s with jn.fresh := jInsert e s.jn.fresh }

/-- A record of CLASS 1 with the given stamp (R357). -/
def State.recordAt (s : State) (st : Stamp) (src code w0 w1 w2 w3 : Nat) : State :=
  s.jAdd ⟨st, src, 1, code, 0, .ofNat 32 w0, .ofNat 32 w1, .ofNat 32 w2, .ofNat 32 w3⟩

/-- A record of CLASS 1 stamped now. -/
def State.record (s : State) (src code w0 w1 w2 w3 : Nat) : State := s.recordAt s.now src code w0 w1 w2 w3

/-- The low and high words of a 64-bit value. -/
def lo32 (x : Stamp) : Nat := x.toNat % 2 ^ 32
def hi32 (x : Stamp) : Nat := x.toNat / 2 ^ 32

/-! ### Raising (R347, R348) -/

/-- The journal entry of class RAISE (R357); W2[9], ACTIVE after every action of the edge, is filled in when it enters the input queue. -/
def raiseEntry (s : State) (n : Nat) (st : Stamp) (p0 p1 : Nat) (merged : Bool) : JEntry :=
  ⟨st, n, 0, 0, 0, .ofNat 32 p0, .ofNat 32 p1,
    .ofNat 32 (s.fld (EC_TARGET n) fEC_TARGET_TARGET + b2n merged * 256 + s.fld (EC_TARGET n) fEC_TARGET_FLOCK * 65536), 0⟩

/-- The raise finds PENDING set: it merges (R348). -/
def State.mergeRaise (s : State) (n : Nat) : State :=
  let s := s.incSat (EC_SSTAT n) fEC_SSTAT_MERGED
  if s.flag (EC_SSTAT n) fEC_SSTAT_ACTIVE then s.setFlag (EC_SSTAT n) fEC_SSTAT_OVR true else s

/-- The raise sets PENDING: stamp and payload are loaded (R348). -/
def State.pendRaise (s : State) (n : Nat) (st : Stamp) (p0 p1 : Nat) : State :=
  let s := s.setFlag (EC_SSTAT n) fEC_SSTAT_PENDING true
  let s := s.setReg64 (EC_STAMP_LO n) (EC_STAMP_HI n) st
  { s with ev := { s.ev with
      pay := tset (fun _ => 0) s.ev.pay n (BitVec.ofNat 64 (p0 % 2 ^ 32 + p1 * 2 ^ 32)) } }

/-- What a raise of EVn does in the concentrator at the edge that ends its fc (R348). -/
def State.raiseAct (s : State) (n : Nat) (st : Stamp) (p0 p1 : Nat) : State :=
  let tgt := s.fld (EC_TARGET n) fEC_TARGET_TARGET
  let pend := s.flag (EC_SSTAT n) fEC_SSTAT_PENDING
  let line := 1 ≤ tgt ∧ tgt ≤ 20
  let s1 := s.incFld (EC_SSTAT n) fEC_SSTAT_RCNT
  let s2 := if line then (if pend then s1.mergeRaise n else s1.pendRaise n st p0 p1) else s1
  if tgt = 21 ∨ s.flag (EC_TARGET n) fEC_TARGET_JRN = true then
    s2.jAdd (raiseEntry s n st p0 p1 (decide line && pend))
  else s2

/-- A raise of EVn in the present fc: it acts at the edge that ends it, behind those made before (R348); the event triggers of R76 are
fired by `raiseAt`. -/
def State.raiseBase (s : State) (n : Nat) (st : Stamp) (p0 p1 : Nat) : State :=
  { s with ev.raises := s.ev.raises ++ [⟨n, st, .ofNat 32 p0, .ofNat 32 p1⟩] }

end Sys2Proof.Machine
end

