-- ==== Sys2Proof/Machine/Hurdle.lean ====
section
/-!
DEFINITION. Hurdles (18_reserve_and_service_life.md R461): what a fenced, tested or retired unit would do outside itself
is dropped or captured.
-/

namespace Sys2Proof.Machine

/-- The Hurdle entry of physical unit i of kind k: 0 engine, 1 generator, 2 timer, 3 feedback unit, 4 Chanter (R467). -/
def hurdleReg (k i : Nat) : Nat := RS_HURDLE_E i + 0x400 * k
def hurdleCnt (k i : Nat) : Nat := RS_HURDLE_CNT_E i + 0x400 * k

/-- The MAP register of a unit (R63, R227, R258, R273, R291). -/
def mapReg (k i : Nat) : Nat :=
  match k with
  | 0 => LE_MAP i
  | 1 => PW_MAP i
  | 2 => TM_MAP i
  | 3 => PF_MAP i
  | _ => CH_MAP i

/-- MAP.INC of a unit, the incarnation that its actions carry. -/
def State.unitInc (s : State) (k i : Nat) : Nat := bitsOf (s.nat (mapReg k i)) 16 8

def State.fenced (s : State) (k i : Nat) : Bool := s.flag (hurdleReg k i) fRS_HURDLE_E_FENCE
def State.underTest (s : State) (k i : Nat) : Bool := s.flag (hurdleReg k i) fRS_HURDLE_E_TEST

/-- Does the Hurdle drop an action the unit issues now? -/
def State.hurdleDrops (s : State) (k i : Nat) : Bool :=
  s.fenced k i || (s.flag (hurdleReg k i) fRS_HURDLE_E_DVALID && s.unitInc k i == s.fld (hurdleReg k i) fRS_HURDLE_E_DINC)

/-- A raise whose own event triggers (R76) fire at the next edge. -/
def State.raiseLater (s : State) (n p0 p1 : Nat) : State :=
  let st := s.now
  let s := s.raiseBase n st p0 p1
  { s with ev.trigQ := s.ev.trigQ ++ [(n, st)] }

/-- A dropped action: counted; the first one after HSEEN was clear raises EV914 and is journalled (R461). -/
def State.hurdleCount (s : State) (k i : Nat) : State :=
  let s := s.inc (hurdleCnt k i)
  if s.flag RS_GSTAT fRS_GSTAT_HSEEN then s
  else
    let s := s.setFlag RS_GSTAT fRS_GSTAT_HSEEN true
    (s.raiseLater 914 0 0).record 914 0x74 k i (s.unitInc k i) 0

/-- An action of a unit outside itself, through its Hurdle: captured under TEST (R464), dropped, or done. -/
def State.hurdle (s : State) (k i : Nat) (act : State → State) : State :=
  if s.underTest k i then s else if s.hurdleDrops k i then s.hurdleCount k i else act s

end Sys2Proof.Machine
end

