-- ==== Sys2Proof/Machine/Triggers.lean ====
section
/-!
DEFINITION. Task slots and their triggers (03_loop_engines.md R76 to R81): edge and level triggers, pending triggers,
overruns.
-/

namespace Sys2Proof.Machine

/-- The structures of an engine, a slot and a bank. -/
def State.eng (s : State) (p : Nat) : Eng := tget (fun _ => ({} : Eng)) s.engs p
def State.setEng (s : State) (p : Nat) (e : Eng) : State := { s with engs := tset (fun _ => ({} : Eng)) s.engs p e }
def State.slot (s : State) (p k : Nat) : Slot := tget (fun _ => ({} : Slot)) (s.eng p).slots k
def State.setSlot (s : State) (p k : Nat) (x : Slot) : State :=
  s.setEng p { s.eng p with slots := tset (fun _ => ({} : Slot)) (s.eng p).slots k x }

/-- LE_TASK_STAT.STATE: 0 DISABLED, 1 WAITING, 2 READY, 3 RUNNING, 4 PREEMPTED, 5 FAULTED (R78). -/
def State.slotState (s : State) (p k : Nat) : Nat := s.fld (LE_TASK_STAT p k) fLE_TASK_STAT_STATE
def State.setSlotState (s : State) (p k st : Nat) : State := s.setFld (LE_TASK_STAT p k) fLE_TASK_STAT_STATE st

/-- The slot that is RUNNING, if one is. -/
def State.running (s : State) (p : Nat) : Option Nat := firstIdx (fun k => s.slotState p k == 3) 8

/-- A trigger overrun (R81): OVR, LE_OVR_CNT and the overrun event EV(66 + 4p), whose own triggers fire at the next edge. -/
def State.overrun (s : State) (p k : Nat) : State :=
  let s := (s.setFlag (LE_TASK_STAT p k) fLE_TASK_STAT_OVR true).inc (LE_OVR_CNT p k)
  s.hurdle 0 p (fun s => s.raiseLater (66 + 4 * p) 0 0)

/-- A slot becomes READY with a trigger stamp. -/
def State.makeReady (s : State) (p k : Nat) (st : Stamp) (edge : Bool) : State :=
  (s.setSlotState p k 2).setSlot p k { s.slot p k with stamp := st, regFc := s.fc, edge := edge, missed := false }

/-- An edge trigger fires for a slot (R81). -/
def State.fireEdge (s : State) (p k : Nat) (st : Stamp) : State :=
  match s.slotState p k with
  | 1 => s.makeReady p k st true
  | 2 => s.overrun p k
  | 3 | 4 => match (s.slot p k).pend with
    | none => s.setSlot p k { s.slot p k with pend := some st, regFc := s.fc }
    | some _ => s.overrun p k
  | 5 => s.overrun p k
  | _ => s

/-- The engine and slot that an offset names, if it is an LE_TASK_CFG. -/
def taskAt (off : Nat) : Option (Nat × Nat) :=
  if off < 0x400000 ∨ 0x800000 ≤ off then none
  else
    let c := (off - 0x400000) / 0x80000
    let d := (off - 0x400000) % 0x80000
    if d < 0x10000 ∨ 0x34000 ≤ d then none
    else
      let e := (d - 0x10000) / 0x4000
      let r := d % 0x4000
      if 0x100 ≤ r ∧ r < 0x200 ∧ r % 32 = 0 then some (9 * c + e, (r - 0x100) / 32) else none

/-- The slots whose LE_TASK_CFG is not zero, in rising order: no other slot is enabled or has a trigger but inbox 0. -/
def State.listedTasks (s : State) : List (Nat × Nat) := s.regs.filterMap (fun e => taskAt e.1)

def State.trig (s : State) (p k : Nat) : Nat := s.fld (LE_TASK_CFG p k) fLE_TASK_CFG_TRIG
def State.targ (s : State) (p k : Nat) : Nat := s.fld (LE_TASK_CFG p k) fLE_TASK_CFG_TARG
def State.taskEn (s : State) (p k : Nat) : Bool := s.flag (LE_TASK_CFG p k) fLE_TASK_CFG_EN

/-- The slots with TRIG 1 whose TARG names EVn fire on each raise of it, whatever EC_TARGET[n] holds (R76). -/
def State.fireEvent (s : State) (n : Nat) (st : Stamp) : State :=
  (s.listedTasks.filter (fun x => s.trig x.1 x.2 == 1 && s.targ x.1 x.2 % 1024 == n)).foldl
    (fun s x => s.fireEdge x.1 x.2 st) s

/-- The live level of a queue (R321). -/
def State.qLevel (s : State) (n : Nat) : Nat := s.fld (QF_QLVL n) fQF_QLVL_LEVEL

/-- The watermarks that the present fc sees: a write takes effect for the next (12_queue_fabric.md R334). -/
def State.qwmShown (s : State) (n : Nat) : Nat :=
  match s.qf.wmOld.find? (fun e => e.1 == n) with
  | some e => e.2.toNat
  | none => s.nat (QF_QWM n)

/-- The queue that a level trigger watches, and whether its level holds (R76, TRIG 0 and 3). -/
def State.levelQueue (s : State) (p k : Nat) : Nat :=
  if s.trig p k = 0 then 4 * p + s.targ p k % 4 else s.targ p k
def State.levelHolds (s : State) (p k : Nat) : Bool :=
  let q := s.levelQueue p k
  if s.trig p k = 0 then decide (0 < s.qLevel q)
  else if s.trig p k = 3 then decide (fQF_QWM_HI.of (s.qwmShown q) ≤ s.qLevel q)
  else false

/-- A level trigger seen by one slot (R76): it makes a WAITING slot READY, and withdraws a READY slot whose level ceased
unless a software trigger made it READY. A slot enabled in the present fc sees it in the next (R81). -/
def State.levelEval (s : State) (p k : Nat) : State :=
  if s.due.any (fun e => e.2 == .levelEval p k) then s
  else if s.slotState p k = 1 ∧ s.levelHolds p k = true then s.makeReady p k s.now false
  else if s.slotState p k = 2 ∧ (s.slot p k).edge = false ∧ s.levelHolds p k = false ∧ (s.trig p k = 0 ∨ s.trig p k = 3) then
    s.setSlotState p k 1
  else s

/-- The slots that watch queue n see its level (R326: in the same fc). -/
def State.levelChanged (s : State) (n : Nat) : State :=
  (s.listedTasks.filter (fun x => (s.trig x.1 x.2 == 0 || s.trig x.1 x.2 == 3) && s.levelQueue x.1 x.2 == n)).foldl
    (fun s x => s.levelEval x.1 x.2) s

/-- An enabled slot whose activation has ended: its pending trigger makes it READY, else it is WAITING and sees its
level; a slot whose EN was cleared becomes DISABLED (R81). -/
def State.slotIdle (s : State) (p k : Nat) : State :=
  let x := s.slot p k
  if !s.taskEn p k then (s.setSlotState p k 0).setSlot p k {}
  else match x.pend with
    | some st => (s.setSlot p k { x with pend := none }).makeReady p k st true
    | none => State.levelEval ((s.setSlotState p k 1).setSlot p k { x with edge := false, missed := false }) p k

/-- Enabling a DISABLED slot (R81): WAITING; a level that holds makes it READY in the next fc, a Tally-time trigger is armed. -/
def State.slotEnable (s : State) (p k : Nat) : State :=
  let s := (s.setSlotState p k 1).setSlot p k { armed := s.trig p k == 2 }
  if s.due.contains (s.fc, .levelEval p k) then s else s.later s.fc (.levelEval p k)

/-- The Tally-time trigger of a slot fires when its T is reached (R77): T advances by the period. -/
def State.tallyTrigger (s : State) (p k : Nat) : State :=
  let t := s.reg64 (LE_TASK_TIME_LO p k) (LE_TASK_TIME_HI p k)
  if s.trig p k = 2 ∧ (s.slot p k).armed = true ∧ s.slotState p k ≠ 0 ∧ reached t s.now = true then
    let per := s.nat (LE_TASK_PERIOD p k)
    let s := if per = 0 then s.setSlot p k { s.slot p k with armed := false }
      else s.setReg64 (LE_TASK_TIME_LO p k) (LE_TASK_TIME_HI p k) (t + BitVec.ofNat 64 per)
    s.fireEdge p k t
  else s

end Sys2Proof.Machine
end

