-- ==== Sys2Proof/Machine/Events.lean ====
section
/-!
DEFINITION. The event concentrator and the journal (13_events_and_journal.md R346 to R369): raises with their event
triggers, delivery, completion, the ring and the drain.
-/

namespace Sys2Proof.Machine

/-- A raise of EVn with a stamp and the payload P1:P0 (R348), which also fires the engine slots that EVn triggers (R76). -/
def State.raiseAt (s : State) (n : Nat) (st : Stamp) (p0 p1 : Nat) : State :=
  (s.raiseBase n st p0 p1).fireEvent n st

/-- A raise stamped with the fc of the raise. -/
def State.raise (s : State) (n p0 p1 : Nat) : State := s.raiseAt n s.now p0 p1

/-- A raise made while CLK_FAST does not clock the concentrator is held until it does (R355). -/
def State.raiseLive (s : State) (n : Nat) (st : Stamp) (p0 p1 : Nat) : State :=
  if s.live then s.raiseAt n st p0 p1 else { s with ev.held := s.ev.held ++ [⟨n, st, .ofNat 32 p0, .ofNat 32 p1⟩] }

/-- A raise whose payload names what is listed, in a layout that the spec does not give: a value that depends on nothing else
(R347; log entry 1). -/
def State.raiseNamedAt (s : State) (n : Nat) (st : Stamp) (named : List Nat) : State :=
  let v := Config.payload n named
  s.raiseLive n st (v.extractLsb' 0 32).toNat (v.extractLsb' 32 32).toNat
def State.raiseNamed (s : State) (n : Nat) (named : List Nat) : State := s.raiseNamedAt n s.now named

/-! ### Delivery (R349) -/

/-- Is EVn eligible for delivery in the present fc? -/
def State.eligible (s : State) (n : Nat) : Bool :=
  s.flag (EC_SSTAT n) fEC_SSTAT_PENDING && !s.flag (EC_SSTAT n) fEC_SSTAT_ACTIVE

/-- The eligible source of group g with the earliest EC_STAMP, the lowest-numbered among equals. -/
def State.bestSource (s : State) (g : Nat) : Option Nat :=
  forN (fun i best =>
    let n := 16 * g + i
    if s.eligible n then
      match best with
      | none => some n
      | some m =>
        if (s.reg64 (EC_STAMP_LO n) (EC_STAMP_HI n)).toNat < (s.reg64 (EC_STAMP_LO m) (EC_STAMP_HI m)).toNat
        then some n else some m
    else best) 16 none

/-- Delivery of one source at the edge that ends fc d: PENDING and MERGED clear, ACTIVE sets, the hold-off starts (R349). -/
def State.deliver (s : State) (n : Nat) : State :=
  if !s.flag (EC_SSTAT n) fEC_SSTAT_PENDING then s else
  let g := n / 16
  let s := s.setFlag (EC_SSTAT n) fEC_SSTAT_PENDING false
  let s := s.setFld (EC_SSTAT n) fEC_SSTAT_MERGED 0
  let s := s.setFlag (EC_SSTAT n) fEC_SSTAT_ACTIVE true
  let s := s.inc (EG_DELIV_CNT g)
  { s with ev.next := tset (fun _ => 0) s.ev.next g (s.fc + 1 + 64 * s.fld (EG_HOLDOFF g) fEG_HOLDOFF_HOLD) }

/-- A group out of hold-off delivers its earliest eligible source, one in each fc. -/
def State.deliverGroup (s : State) (g : Nat) : State :=
  if s.fc < tget (fun _ => 0) s.ev.next g || s.ev.delivs.any (fun n => n / 16 == g) then s
  else match s.bestSource g with
    | none => s
    | some n => { s with ev.delivs := s.ev.delivs ++ [n] }

/-- A completion of EVn is written. -/
def State.eoi (s : State) (n : Nat) : State := { s with ev.eois := s.ev.eois ++ [n] }

/-- Completion of EVn at the edge that ends the fc of the write (R351). -/
def State.complete (s : State) (n : Nat) : State :=
  if s.flag (EC_SSTAT n) fEC_SSTAT_ACTIVE then s.setFlag (EC_SSTAT n) fEC_SSTAT_ACTIVE false
  else s.inc EC_SPURIOUS_EOI

/-- The concentrator at the edge that ends the fc: completions, deliveries, raises (R348). -/
def State.evEnd (s : State) : State :=
  let e := s.ev
  let s := { s with ev := { e with eois := [], delivs := [], raises := [] } }
  let s := e.delivs.foldl State.deliver (e.eois.foldl State.complete s)
  e.raises.foldl (fun s r => s.raiseAct r.source r.stamp r.p0.toNat r.p1.toNat) s

/-- The sources whose EC_SSTAT is listed, lowest first: every other source is neither PENDING nor ACTIVE. -/
def State.listedSources (s : State) : List Nat :=
  s.regs.filterMap (fun e => if 0x20000 ≤ e.1 ∧ e.1 < 0x24000 ∧ e.1 % 16 = 4 then some ((e.1 - 0x20000) / 16) else none)

/-- The lowest-numbered ACTIVE source with a target (R350). -/
def State.activeWith (s : State) (tgt : Nat) : Option Nat :=
  (s.listedSources.filter (fun n =>
    s.flag (EC_SSTAT n) fEC_SSTAT_ACTIVE && s.fld (EC_TARGET n) fEC_TARGET_TARGET == tgt)).head?

/-- Is HIRQk due to be high: an ACTIVE source has its target (R350)? -/
def State.hirq (s : State) (k : Nat) : Bool := (s.activeWith (k + 1)).isSome

/-- The flops of HIRQ0 to HIRQ15 at the edge that ends an fc: a line follows its ACTIVE sources one fc later (21_integration_ports.md
R531). -/
def State.hirqEdge (s : State) : State := { s with ev.hirqs := maskOf (fun k => s.hirq k) 16 }

/-- The pin HIRQk; ISO drives it low in Fold (R536). -/
def State.hirqPin (s : State) (k : Nat) : Bool := !s.pw.iso && bitOf s.ev.hirqs k

/-- Is Shepherd level l asserted (R350)? -/
def State.shLevel (s : State) (l : Nat) : Bool := (s.activeWith (17 + l)).isSome

/-- A software raise (R353). -/
def State.swRaise (s : State) (n : Nat) : State :=
  if 992 ≤ n then s.raise n (s.nat (EC_SW_PAY 0)) (s.nat (EC_SW_PAY 1)) else s.inc EC_CFG_REFUSED

/-- A flock reset clears PENDING, MERGED and ACTIVE of the sources of the flock (R353). -/
def State.evFlockReset (s : State) (f : Nat) : State :=
  s.listedSources.foldl (fun s n =>
    if s.fld (EC_TARGET n) fEC_TARGET_FLOCK = f then
      let s := s.setFlag (EC_SSTAT n) fEC_SSTAT_PENDING false
      let s := s.setFld (EC_SSTAT n) fEC_SSTAT_MERGED 0
      s.setFlag (EC_SSTAT n) fEC_SSTAT_ACTIVE false
    else s) s

/-! ### The journal: numbering, input queue, write buffer, ring (R358 to R362) -/

/-- The base of the journal ring in the byte space (R22). -/
def ringBase : Nat := 0x2000000

/-- The bytes of an entry (R356). -/
def JEntry.bytes (e : JEntry) : List Byte :=
  natBytes 8 e.stamp.toNat ++ natBytes 2 e.source ++ natBytes 2 (e.cls * 4096 + e.code) ++ natBytes 4 e.seq.toNat
    ++ natBytes 4 e.w0.toNat ++ natBytes 4 e.w1.toNat ++ natBytes 4 e.w2.toNat ++ natBytes 4 e.w3.toNat

/-- Take the next SEQ of a source (R358). -/
def State.takeSeq (s : State) (src : Nat) : Word × State :=
  let q := tget (fun _ => (0 : Word)) s.jn.seq src
  (q, { s with jn.seq := tset (fun _ => (0 : Word)) s.jn.seq src (q + 1) })

/-- An entry that finds the input queue full is lost (R359). -/
def State.jLose (s : State) : State :=
  let s1 := (s.inc JN_INPUT_LOST).setFlag JN_STAT fJN_STAT_ILOST true
  if s.flag JN_STAT fJN_STAT_ILOST then s1 else s1.raise 19 0 0

/-- One entry enters the input queue: it takes its SEQ and, for a RAISE, the ACTIVE bit as it now stands (R357). -/
def State.jEnter (s : State) (e : JEntry) : State :=
  let (q, s) := s.takeSeq e.source
  let e := { e with seq := q }
  let e := if e.cls = 0 ∧ s.flag (EC_SSTAT e.source) fEC_SSTAT_ACTIVE = true then { e with w2 := e.w2 ||| 512#32 } else e
  if s.jn.input.length < 64 then { s with jn.input := s.jn.input ++ [e] } else s.jLose

/-- The entries of the fc enter the input queue at the edge that ends it (R359). -/
def State.jCommit (s : State) : State :=
  let es := s.jn.fresh
  es.foldl State.jEnter { s with jn.fresh := [] }

/-- The write buffer's highest level (R361). -/
def State.jLevel (s : State) : State :=
  if s.fld JN_WBUF_MAX fJN_WBUF_MAX_LEVEL < s.jn.wbuf.length then s.setFld JN_WBUF_MAX fJN_WBUF_MAX_LEVEL s.jn.wbuf.length
  else s

/-- The writer takes one entry from the input queue into the write buffer (R359), unless the ring is closed. -/
def State.jTake (s : State) : State :=
  match s.jn.input with
  | [] => s
  | e :: t =>
    if s.jn.closed = false ∧ s.jn.wbuf.length < 16 then
      State.jLevel { s with jn.input := t, jn.wbuf := s.jn.wbuf ++ [e] }
    else s

/-- The first overwrite after LOSS was clear raises EV16 (R360). -/
def State.jOverwrite (s : State) : State :=
  let s1 := (s.inc JN_OVERWRITE_CNT).setFlag JN_STAT fJN_STAT_LOSS true
  let s1 := s1.setNat JN_DIDX ((s1.nat JN_DIDX + 1) % 262144)
  if s.flag JN_STAT fJN_STAT_LOSS then s1 else s1.raise 16 0 0

/-- The backlog rises by one; EV18 is raised when it reaches JN_DRAIN_THR (R363). -/
def State.jGrow (s : State) : State :=
  let s := s.inc JN_BACKLOG
  if s.nat JN_BACKLOG = s.fld JN_DRAIN_THR fJN_DRAIN_THR_COUNT then s.raise 18 0 0 else s

/-- Write one entry into the ring at JN_WIDX (R360). -/
def State.jPut (s : State) (e : JEntry) : State :=
  let w := s.nat JN_WIDX
  let full := s.nat JN_BACKLOG = 262144
  let s := (s.setByteList (ringBase + 32 * w) e.bytes).setMarks (ringBase + 32 * w) false 8
  let s := s.setNat JN_WIDX ((w + 1) % 262144)
  if full then s.jOverwrite else s.jGrow

/-- A drain burst starts when DEN = 1, DERR = 0 and none is in progress (R363). -/
def State.burstStart (s : State) : State :=
  if s.flag JN_CTRL fJN_CTRL_DEN && !s.flag JN_STAT fJN_STAT_DERR && !s.flag JN_STAT fJN_STAT_DBUSY then
    { s.setFlag JN_STAT fJN_STAT_DBUSY true with jn := { s.jn with burst := s.nat JN_BACKLOG, per := s.now } }
  else s

/-- A burst starts when the backlog reaches JN_DRAIN_THR (R363). -/
def State.burstOnLevel (s : State) : State :=
  if s.fld JN_DRAIN_THR fJN_DRAIN_THR_COUNT ≤ s.nat JN_BACKLOG then s.burstStart else s

/-- The writer moves the oldest entry into the ring (R359, R360). -/
def State.jWrite (s : State) : State :=
  let s := if s.jn.wbuf = [] then s.jTake else s
  if s.jn.closed then s
  else match s.jn.wbuf with
    | [] => s
    | e :: t =>
      let below := s.nat JN_BACKLOG < s.fld JN_DRAIN_THR fJN_DRAIN_THR_COUNT
      let s := State.jPut { s with jn.wbuf := t } e
      if below then s.burstOnLevel else s

/-! ### The drain (R363, R364) -/

/-- The slots of the host ring. -/
def State.hostSlots (s : State) : Nat := 2 ^ s.fld JN_HSIZE fJN_HSIZE_LOG2

/-- Is the host ring full? -/
def State.hostFull (s : State) : Bool := (s.nat JN_HHEAD + 1) % s.hostSlots == s.nat JN_HTAIL

/-- The host address of the entry being written. -/
def State.hostAddr (s : State) : Nat :=
  (s.reg64 JN_HBASE_LO JN_HBASE_HI).toNat + 32 * s.nat JN_HHEAD

/-- Any of the eight words of a ring entry poisoned? -/
def State.ringPoisoned (s : State) (i : Nat) : Bool :=
  (firstIdx (fun k => s.poisoned (ringBase + 32 * i + 4 * k)) 8).isSome

/-- The POISONED record that takes the place of an entry read with an uncorrectable error (R364). -/
def State.poisonedRecord (s : State) (i : Nat) : JEntry × State :=
  let (q, s) := s.takeSeq 0x400
  (⟨s.now, 0x400, 3, 2, q, .ofNat 32 i, 0, 0, 0⟩, s.inc JN_POISON_CNT)

/-- Copy one entry to the host ring (R363). -/
def State.copyEntry (s : State) : State :=
  let i := s.nat JN_DIDX
  let (bs, s) :=
    if s.ringPoisoned i then
      let (e, s) := s.poisonedRecord i
      (e.bytes, s)
    else (s.byteList (ringBase + 32 * i) 32, s)
  let s := s.sysWrite s.hostAddr bs
  let s := s.setNat JN_DIDX ((i + 1) % 262144)
  let s := s.setNat JN_BACKLOG (s.nat JN_BACKLOG - 1)
  let s := s.setNat JN_HHEAD ((s.nat JN_HHEAD + 1) % s.hostSlots)
  s.inc JN_DRAINED_CNT

/-- Copy up to `n` entries, stopping early when the host ring is full or nothing is left. -/
def State.copyEntries (s : State) : Nat → State
  | 0 => s
  | n + 1 => if s.hostFull || s.nat JN_BACKLOG == 0 then s else State.copyEntries s.copyEntry n

/-- The end of a burst: the entries present at its start are copied and JN_HHEAD is written back (R363). -/
def State.burstEnd (s : State) : State :=
  if s.flag JN_STAT fJN_STAT_DBUSY then
    let s := s.copyEntries s.jn.burst
    let wb := (s.reg64 JN_HWB_LO JN_HWB_HI).toNat
    let s := if wb = 0 then s else s.sysWrite wb (natBytes 4 (s.nat JN_HHEAD))
    { s.setFlag JN_STAT fJN_STAT_DBUSY false with jn := { s.jn with burst := 0 } }
  else s

/-- A BMP error response after `k` entries of the burst, at byte `d` of the next one (R364). -/
def State.drainError (s : State) (k d : Nat) : State :=
  if s.flag JN_STAT fJN_STAT_DBUSY then
    let s := s.copyEntries (min k s.jn.burst)
    let s := s.setReg64 JN_DERR_ADDR_LO JN_DERR_ADDR_HI (.ofNat 64 (s.hostAddr + d))
    let s := (s.setFlag JN_STAT fJN_STAT_DBUSY false).setFlag JN_STAT fJN_STAT_DERR true
    State.raise { s with jn := { s.jn with burst := 0 } } 17 0 0
  else s

/-- JN_CTRL.DRESTART: DERR clears and, with DEN = 1, a burst starts (R364). -/
def State.drainRestart (s : State) : State :=
  State.burstStart (s.setFlag JN_STAT fJN_STAT_DERR false)

/-- An L2 reset loses the entries that have not reached the ring (R362). -/
def State.jLoseAll (s : State) : State :=
  let s := s.jCommit
  let s := s.incBy JN_INPUT_LOST (s.jn.input.length + s.jn.wbuf.length)
  { s with jn := { s.jn with fresh := [], input := [], wbuf := [], burst := 0 } }

/-! ### Wake latches (R354, R355) -/

/-- A wake latch sets, stamped, when its enable is 1 and it is clear; in Graze it raises EV(32 + i). An edge that finds it set is
not recorded, but wins over a clear of the same fc (R7). -/
def State.wakeSet (s : State) (i : Nat) (st : Stamp) (raises : Bool) : State :=
  if bitOf (s.nat EC_WAKE_EN) i then
    let was := bitOf (s.nat EC_WAKE_LATCH) i
    let s := s.setFlag EC_WAKE_LATCH ⟨i, 1⟩ true
    if was then s else
    let s := s.setReg64 (EC_WAKE_STAMP_LO i) (EC_WAKE_STAMP_HI i) st
    if raises then s.raiseAt (32 + i) st 0 0
    else { s with ev.held := s.ev.held ++ [⟨32 + i, st, 0, 0⟩] }
  else s

/-- Insert a held raise by stamp. -/
def heldInsert (h : HeldRaise) : List HeldRaise → List HeldRaise
  | [] => [h]
  | k :: t => if h.stamp.toNat < k.stamp.toNat then h :: k :: t else k :: heldInsert h t

/-- The held raises are made in the order of their stamps when CLK_FAST runs (R355). -/
def State.releaseHeld (s : State) : State :=
  let hs := s.ev.held.foldr heldInsert []
  hs.foldl (fun s h => s.raiseAt h.source h.stamp h.p0.toNat h.p1.toNat) { s with ev.held := [] }

end Sys2Proof.Machine
end

