-- ==== Sys2Proof/Machine/Tally.lean ====
section
/-!
DEFINITION. Tally time (02_tally_time.md R32 to R44): the accumulators, sets, resyncs, the comparison of A and B,
stamps, the slow clock.
-/

namespace Sys2Proof.Machine

/-- TB_INCR plus the sign-extended TB_TRIM, in units of 2^-32 tk, plus one tk of slew where one is being made (R33, R34). -/
def State.tallyInc (s : State) : BitVec 96 :=
  let inc : Nat := s.fld TB_INCR_INT fTB_INCR_INT_INT * 2 ^ 32 + s.nat TB_INCR_FRAC
  let slew : Int := if 0 < s.tl.slew then 1 else if s.tl.slew < 0 then -1 else 0
  BitVec.ofInt 96 (Int.ofNat inc + sInt (s.reg TB_TRIM) + slew * 4294967296)

/-- Tally at the next rising CLK_FAST edge: a set, or a change of SEL, that waits for that edge counts (R34, R44, R60); in slow
advance the edge leaves Tally (R40). -/
def State.nextTally (s : State) : Stamp :=
  if !s.flag TB_STAT fTB_STAT_SRC then s.now
  else if s.tb.setPend then s.reg64 TB_SET_LO TB_SET_HI
  else tallyOf ((if s.flag TB_CTRL fTB_CTRL_SEL != s.tb.selPend then s.tb.b else s.tb.a) + s.tallyInc)

/-- The edge stamp of an edge that the delay line measures `k` tk before the next rising CLK_FAST edge (R38); the synchronous
stamp when TB_STAT.COARSE reads 1 (R39), and in slow advance (19_reset_power_startup.md R485). -/
def State.lineStamp (s : State) (k : Nat) : Stamp :=
  if s.flag TB_STAT fTB_STAT_COARSE || !s.flag TB_STAT fTB_STAT_SRC then s.now else s.nextTally - BitVec.ofNat 64 k

/-- The fixed pad-to-latch delay that R38 subtracts: 1 tk (21_integration_ports.md R529). -/
def padDelay : Nat := 1

/-- The edge stamp of an edge at a pad, measured `k` tk before the next rising CLK_FAST edge (R38). -/
def State.edgeStamp (s : State) (k : Nat) : Stamp :=
  if s.flag TB_STAT fTB_STAT_COARSE || !s.flag TB_STAT fTB_STAT_SRC then s.now else s.lineStamp k - BitVec.ofNat 64 padDelay

/-- The decode latency of a Tally Link port, 3 cycles of the 125 MHz TLx_RXCLK: 24 ns, to the nearest tk (21_integration_ports.md
R532; DEDUCED, log entry 35). -/
def decodeLatency : Nat := 103

/-- The arrival stamp of a symbol decoded `k` tk before the next rising CLK_FAST edge, less the decode latency (R48). -/
def State.arrivalStamp (s : State) (k : Nat) : Stamp := s.lineStamp k - BitVec.ofNat 64 decodeLatency

/-- A Tally value with its sub-tick fraction cleared (R34). -/
def tallyAt (t : Stamp) : BitVec 96 := t ++ (0 : BitVec 32)

/-- Record 0x007: a set, step, switch or failover, with the old and the new value (R34, R44; its SOURCE is EV1, log
entry 12). -/
def State.record7 (s : State) (old new : Stamp) : State :=
  s.record 1 7 (lo32 old) (hi32 old) (lo32 new) (hi32 new)

/-- Tally A and B are set to a value: the fraction is cleared, EV1 is raised and the change is journalled (R34, R59). -/
def State.setTally (s : State) (t : Stamp) : State :=
  let old := s.now
  let s := { s with tb := { s.tb with a := tallyAt t, b := tallyAt t } }
  (s.raise 1 0 0).record7 old t

/-- A mismatch of the counters opens an episode on its first edge (R44). -/
def State.tallyCompare (s : State) : State :=
  if s.tb.a = s.tb.b then { s with tb.episode := false }
  else if s.tb.episode then s
  else
    let s := { s with tb.episode := true }
    let s := s.setFlag TB_STAT fTB_STAT_ABMIS true
    let s := s.setReg64 TB_ABMIS_STAMP_LO TB_ABMIS_STAMP_HI s.now
    let s := s.incSat TB_ABMIS_CNT fTB_ABMIS_CNT_COUNT
    s.raise 0 0 0

/-- What a SEL change, a SET or a RESYNC does on the edge it waited for (R34, R44, R60): SET wins over RESYNC, and a
RESYNC copies the counter served after the edge. -/
def State.tallyPending (s : State) : State :=
  let sel := s.tb.selPend
  let old := s.now
  let s := if sel then s.setFlag TB_CTRL fTB_CTRL_SEL (!s.flag TB_CTRL fTB_CTRL_SEL) else s
  let s := if sel then s.record7 old s.now else s
  let s :=
    if s.tb.setPend then s.setTally (s.reg64 TB_SET_LO TB_SET_HI)
    else if s.tb.resyncPend then
      if s.flag TB_CTRL fTB_CTRL_SEL then { s with tb := { s.tb with a := s.tb.b } }
      else { s with tb := { s.tb with b := s.tb.a } }
    else s
  { s with tb := { s.tb with setPend := false, resyncPend := false, selPend := false } }

/-- One rising CLK_FAST edge of the accumulators (R33): both advance, a slew moves by one tk, what waits takes effect,
the counters are compared. -/
def State.tallyEdge (s : State) : State :=
  let i := s.tallyInc
  let slew : Int := if 0 < s.tl.slew then s.tl.slew - 1 else if s.tl.slew < 0 then s.tl.slew + 1 else 0
  let s := { s with tb := { s.tb with a := s.tb.a + i, b := s.tb.b + i }, tl := { s.tl with slew := slew } }
  s.tallyPending.tallyCompare

/-- One rising CLK_SLOW edge of Tally in slow advance: exactly 2^17 tk, no trim (R40). -/
def State.tallySlowEdge (s : State) : State :=
  let i : BitVec 96 := BitVec.ofNat 96 (2 ^ 49)
  let s := { s with tb := { s.tb with a := s.tb.a + i, b := s.tb.b + i } }
  s.tallyPending.tallyCompare

/-- The handover to the accumulator: Tally continues from its slow-clock value, the fraction cleared (R42). -/
def State.tallyHandover (s : State) : State :=
  let s := { s with tb := { s.tb with a := tallyAt (tallyOf s.tb.a), b := tallyAt (tallyOf s.tb.b) } }
  s.setFlag TB_STAT fTB_STAT_SRC true

/-- A write of TB_CTRL (R60): SEL, RESYNC and SET wait for the next edge; a set on a slave is refused. -/
def State.tbCtrlWrite (s : State) (sel : Option Bool) (resync set : Bool) : State :=
  let slave := !s.flag TL_CTRL fTL_CTRL_ROLE
  let s := if set && slave then s.inc TB_SET_REFUSED else s
  let now := s.flag TB_CTRL fTB_CTRL_SEL
  { s with tb := { s.tb with
      selPend := match sel with | some b => b != now | none => s.tb.selPend
      setPend := s.tb.setPend || (set && !slave)
      resyncPend := s.tb.resyncPend || (resync && !set) } }

end Sys2Proof.Machine
end

