-- ==== Sys2Proof/Machine/Lines.lean ====
section
/-!
DEFINITION. The source lines of timer gates and captures (09_gated_timers.md R259, R262 to R264): PIO inputs, TRIP levels, raw
generator levels, feedback inputs, each behind the latency of its kind.
-/

namespace Sys2Proof.Machine

/-- The number of a line: its GKIND and index. -/
def lineKey (kind idx : Nat) : Nat := 256 * kind + idx

def State.line (s : State) (key : Nat) : Line := tget (fun _ => ({} : Line)) s.lines key
def State.setLine (s : State) (key : Nat) (l : Line) : State := { s with lines := tset (fun _ => ({} : Line)) s.lines key l }

/-- The level at the source. -/
def Line.raw (l : Line) : Bool :=
  match l.queue.getLast? with
  | some e => e.level
  | none => l.level

/-- The fc from the source to the count or capture (R259). -/
def lineLatency (kind : Nat) : Nat := if kind = 3 then 1 else 3

/-- A line takes a level; `cap` is the stamp of an edge that captures see. The two commands that may tell of one edge, of one line and
level in one fc, are one edge. In slow advance the line is sampled at the CLK_SLOW edges (R264). -/
def State.lineSet (s : State) (kind idx : Nat) (level : Bool) (cap : Option Stamp) : State :=
  let key := lineKey kind idx
  let l := s.line key
  let change := cap.isSome || level != l.raw
  let due := s.fc + lineLatency kind
  if !change then s
  else if !s.flag TB_STAT fTB_STAT_SRC then
    s.setLine key { l with level := level, queue := [], rose := l.rose || level, fell := l.fell || !level }
  else match l.queue.getLast? with
    | some e =>
      if e.due = due ∧ e.level = level then
        s.setLine key { l with queue := l.queue.dropLast ++ [{ e with cap := e.cap.orElse (fun _ => cap) }] }
      else s.setLine key { l with queue := l.queue ++ [⟨due, level, cap⟩] }
    | none => s.setLine key { l with queue := [⟨due, level, cap⟩] }

/-- The changes that have come through their latency. -/
def State.linesDue (s : State) : List (Nat × LineEv) :=
  s.lines.flatMap (fun e => (e.2.queue.filter (fun v => decide (v.due ≤ s.fc))).map (fun v => (e.1, v)))

/-- A line behind its latency at fc `fc`. -/
def Line.advance (l : Line) (fc : Nat) : Line :=
  match (l.queue.filter (fun v => decide (v.due ≤ fc))).getLast? with
  | some e => { l with level := e.level, queue := l.queue.filter (fun v => !decide (v.due ≤ fc)) }
  | none => l

def State.linesAdvance (s : State) : State := { s with lines := tmap (fun _ => ({} : Line)) (fun _ l => l.advance s.fc) s.lines }

/-- A line as a CLK_SLOW edge leaves it: sampled, its edges seen. -/
def Line.sampled (l : Line) : Line := { level := l.raw, prev := l.raw }

def State.linesSample (s : State) : State := { s with lines := tmap (fun _ => ({} : Line)) (fun _ l => l.sampled) s.lines }

/-- The lines as a reset leaves them: they stand at the pins' levels; a TRIP line at the level of the pin, which POL 0 leaves as it is. -/
def linesReset (trips : List (Nat × TripIn)) (ls : List (Nat × Line)) : List (Nat × Line) :=
  tmap (fun _ => ({} : Line)) (fun k l =>
    if k / 256 = 2 then
      let p := (tget (fun _ => ({} : TripIn)) trips (k % 256)).pin
      { level := p, prev := p }
    else l.sampled) ls

end Sys2Proof.Machine
end

