-- ==== Sys2Proof/Machine/Queues.lean ====
section
/-!
DEFINITION. The queue fabric (12_queue_fabric.md R320 to R345): queues and their storage, the operations, watermark
notices, buffer cells and owner tags, pins, seeds, the reclaim walk, register operations.
-/

namespace Sys2Proof.Machine

/-- The incarnation of a flock (14_flocks_and_register_views.md R372). -/
def State.flockInc (s : State) (f : Nat) : Nat := s.fld (FLK_STAT f) fFLK_STAT_INC

/-! ### Storage (R321) -/

def State.qEn (s : State) (n : Nat) : Bool := s.flag (QF_QCFG n) fQF_QCFG_EN
def State.qPool (s : State) (n : Nat) : Bool := s.flag (QF_QCFG n) fQF_QCFG_POOL
def State.qFlock (s : State) (n : Nat) : Nat := s.fld (QF_QCFG n) fQF_QCFG_FLOCK
def State.qDepth (s : State) (n : Nat) : Nat := s.fld (QF_QCFG n) fQF_QCFG_DEPTH
def State.qHead (s : State) (n : Nat) : Nat := s.fld (QF_QPTR n) fQF_QPTR_HEAD
def State.qTail (s : State) (n : Nat) : Nat := s.fld (QF_QPTR n) fQF_QPTR_TAIL

/-- Words of an entry: S / 4 = 2 * 2^ESIZE. -/
def State.qWords (s : State) (n : Nat) : Nat := 2 * 2 ^ s.fld (QF_QCFG n) fQF_QCFG_ESIZE

/-- Storage cells of a queue: the ceiling of DEPTH * S / 256. -/
def State.qCells (s : State) (n : Nat) : Nat := (s.qDepth n * (4 * s.qWords n) + 255) / 256

/-- The queue cache's own addresses, above the HPP window: queue n at 2^32 + n * 2^18. -/
def cacheBase (n : Nat) : Nat := 2 ^ 32 + n * 2 ^ 18

/-- The byte address of storage slot j of queue n in its storage cells. -/
def State.cellSlot (s : State) (n j : Nat) : Nat :=
  0x1C00000 + 256 * s.fld (QF_QBASE n) fQF_QBASE_BASE + 4 * s.qWords n * j

/-- Where slot j of queue n stands: the cache while its entries are there (R330), else the storage cells. -/
def State.slotAddr (s : State) (n j : Nat) : Nat :=
  if tget (fun _ => false) s.qf.cached n then cacheBase n + 4 * s.qWords n * j else s.cellSlot n j

/-- Read the `k` words at an address, each with its mark (R438). -/
def State.readWords (s : State) (a : Nat) : Nat → List QWord
  | 0 => []
  | k + 1 => (s.mword a, s.poisoned a) :: State.readWords s (a + 4) k

/-- Write words, each with its mark (R438). -/
def State.writeWords (s : State) (a : Nat) : List QWord → State
  | [] => s
  | (w, m) :: t => State.writeWords ((s.setMword a w).setMark a m) (a + 4) t

/-- Cut or pad a list of words to `k`. -/
def padWords : Nat → List QWord → List QWord
  | 0, _ => []
  | k + 1, [] => (0, false) :: padWords k []
  | k + 1, w :: t => w :: padWords k t

/-! ### Watermark notices (R331 to R334) -/

def State.setCross (s : State) (n : Nat) (x : CrossFc) : State :=
  { s with qf.cross := tset (fun _ => ({} : CrossFc)) s.qf.cross n x }

/-- What a crossing finds in the SEEN bits `seen` and does beside the counts: the stamp and FKIND when both were 0, the event when its
own was. -/
def State.crossSeen (s : State) (n seen kind : Nat) : State :=
  let wmev := s.fld (QF_QCFG n) fQF_QCFG_WMEV
  let x := tget (fun _ => ({} : CrossFc)) s.qf.cross n
  let s := if seen = 0 then
      (s.setReg64 (QF_WMN_STAMP_LO n) (QF_WMN_STAMP_HI n) s.now).setFld (QF_WMN_STAT n) fQF_WMN_STAT_FKIND kind
    else s
  if !bitOf seen kind && wmev != 0 && !x.raised.contains kind then
    (s.raiseNamed (835 + wmev) [n, kind]).setCross n { x with raised := x.raised ++ [kind] }
  else s

/-- A crossing of a kind, 0 high, 1 low. -/
def State.crossing (s : State) (n kind : Nat) : State :=
  let seen := s.nat (QF_WMN_STAT n) % 4
  let x := tget (fun _ => ({} : CrossFc)) s.qf.cross n
  let s := s.setCross n { x with before := if x.kinds = [] then seen else x.before, kinds := x.kinds ++ [kind] }
  let s := if kind = 0 then s.setFlag (QF_WMN_STAT n) fQF_WMN_STAT_SEEN_HI true
    else s.setFlag (QF_WMN_STAT n) fQF_WMN_STAT_SEEN_LO true
  let s := if kind = 0 then s.incSat (QF_WMN_CNT n) fQF_WMN_CNT_HI else s.incSat (QF_WMN_CNT n) fQF_WMN_CNT_LO
  s.crossSeen n seen kind

/-- A W1C of the SEEN bits `w1c`, which leaves the word `st` (R333): the crossings of the fc count as though they followed it. -/
def State.wmnClear (s : State) (n : Nat) (st : Word) (w1c : Nat) : State :=
  let x := tget (fun _ => ({} : CrossFc)) s.qf.cross n
  let b := (if bitOf w1c 0 then 0 else x.before % 2) + (if bitOf w1c 1 then 0 else x.before / 2 * 2)
  let s := (s.setReg (QF_WMN_STAT n) st).setCross n { x with before := b }
  if x.kinds = [] then s
  else (x.kinds.foldl (fun (r : State × Nat) k => (r.1.crossSeen n r.2 k, r.2 ||| 2 ^ k)) (s, b)).1

/-- The crossings between two levels of one operation (R331). -/
def State.crossings (s : State) (n old new : Nat) : State :=
  let hi := fQF_QWM_HI.of (s.qwmShown n)
  let lo := fQF_QWM_LO.of (s.qwmShown n)
  let s := if old < hi ∧ hi ≤ new then s.crossing n 0 else s
  if lo ≤ old ∧ new < lo then s.crossing n 1 else s

/-- A level stored, without any crossing; the level triggers of R76 see it. -/
def State.setLevel (s : State) (n v : Nat) : State :=
  let s := s.setFld (QF_QLVL n) fQF_QLVL_LEVEL v
  let s := if s.fld (QF_QLVL n) fQF_QLVL_PEAK < v then s.setFld (QF_QLVL n) fQF_QLVL_PEAK v else s
  s.levelChanged n

/-- A level changed by an operation: PEAK, triggers, crossings. -/
def State.moveLevel (s : State) (n v : Nat) : State :=
  let old := s.qLevel n
  (s.setLevel n v).crossings n old v

/-- Append an entry at the tail. -/
def State.qAppend (s : State) (n : Nat) (e : List QWord) : State :=
  let s := s.writeWords (s.slotAddr n (s.qTail n)) (padWords (s.qWords n) e)
  let s := s.setFld (QF_QPTR n) fQF_QPTR_TAIL ((s.qTail n + 1) % s.qDepth n)
  s.moveLevel n (s.qLevel n + 1)

/-- The head entry. -/
def State.qPeek (s : State) (n : Nat) : List QWord := s.readWords (s.slotAddr n (s.qHead n)) (s.qWords n)

/-- Remove the head entry. -/
def State.qRemove (s : State) (n : Nat) : State :=
  let s := s.setFld (QF_QPTR n) fQF_QPTR_HEAD ((s.qHead n + 1) % s.qDepth n)
  s.moveLevel n (s.qLevel n - 1)

/-! ### Buffer cells and owner tags (R335 to R337) -/

def State.tagState (s : State) (c : Nat) : Nat := s.fld (QF_BCTAG c) fQF_BCTAG_STATE
def State.tagFlock (s : State) (c : Nat) : Nat := s.fld (QF_BCTAG c) fQF_BCTAG_FLOCK
def State.tagInc (s : State) (c : Nat) : Nat := s.fld (QF_BCTAG c) fQF_BCTAG_INC

/-- Store an owner tag. -/
def State.setTag (s : State) (c st flock inc holder : Nat) : State :=
  s.setNat (QF_BCTAG c) (st * 2 ^ 30 + flock * 2 ^ 24 + inc * 2 ^ 16 + holder)

/-- The handle of a cell with an incarnation (R324). -/
def handleOf (c inc : Nat) : List QWord :=
  [(.ofNat 32 (c + inc * 65536), false), (.ofNat 32 (0x1C00000 + 256 * c), false)]

/-- The holder code of an agent (R335); for agents the rule gives no code, a free value. -/
def State.holderCode (s : State) (a : QAgent) : Nat :=
  match a with
  | .eng p | .rank p => 0x1000 + s.fld (LE_MAP p) fLE_MAP_LOGICAL
  | .shep => 0x1100
  | .hpp => 0x1101
  | .dam => 0x1102
  | _ => s.freeVal.toNat % 8192

/-- A refused free (R337): reason 1 double, 2 foreign, 3 malformed. -/
def State.refuseFree (s : State) (a : QAgent) (reason cell : Nat) : State :=
  let tag := s.nat (QF_BCTAG cell)
  let freer := s.holderCode a
  let seen := s.flag QF_STAT fQF_STAT_OWNERR
  let s := if reason = 1 then s.inc QF_DOUBLE_FREES else s.inc QF_FOREIGN_FREES
  let s := s.setNat QF_LASTOWN (reason * 2 ^ 30 + cell * 2 ^ 16 + freer)
  let s := (s.setNat QF_LASTOWN_TAG tag).setReg64 QF_LASTOWN_STAMP_LO QF_LASTOWN_STAMP_HI s.now
  let s := s.record 832 6 tag freer reason 0
  let s := s.setFlag QF_STAT fQF_STAT_OWNERR true
  if seen then s else s.raise 832 0 0

/-- The outcome of a queue operation, as its agent sees it (R327, R337). -/
inductive QRes | done | full | empty | refused | stale | badFree
deriving DecidableEq, Repr

/-- The entries of a queue that gets and level reads of the present fc see: puts of the fc come after them (R326). -/
def State.qShown (s : State) (n : Nat) : Nat := s.qLevel n - tget (fun _ => 0) s.qf.fresh n

/-- One more entry put in the present fc. -/
def State.qFresh (s : State) (n : Nat) : State :=
  { s with qf.fresh := tset (fun _ => 0) s.qf.fresh n (tget (fun _ => 0) s.qf.fresh n + 1) }

/-- A put to a pool queue is a free (R337). -/
def State.qFree (s : State) (n : Nat) (a : QAgent) (e : List QWord) : QRes × State :=
  let w := (padWords 2 e).headD (0, false)
  let v := w.1.toNat
  let cell := v % 16384
  let inc := bitsOf v 16 8
  let f := s.qFlock n
  if w.2 = true ∨ bitsOf v 14 2 ≠ 0 ∨ bitsOf v 24 8 ≠ 0 then (.badFree, s.refuseFree a 3 cell)
  else if s.tagState cell = 0 ∨ s.tagState cell = 1 then (.badFree, s.refuseFree a 1 cell)
  else if s.tagState cell = 3 ∨ s.tagFlock cell ≠ f ∨ s.tagInc cell ≠ inc then (.badFree, s.refuseFree a 2 cell)
  else if s.qLevel n = s.qDepth n then (.full, s.inc (QF_QFULL_CNT n))
  else
    let i := s.flockInc f
    let s := s.qAppend n (handleOf cell i)
    (.done, ((s.setTag cell 1 f i n).inc (QF_QPUT_CNT n)).qFresh n)

/-! ### Operations (R325 to R327) -/

/-- The Shepherd, HPP and the debug access master pass the flock check. -/
def QAgent.passes : QAgent → Bool
  | .shep | .hpp | .dam => true
  | _ => false

/-- The flock of an agent, for agents that do not pass the check. -/
def State.agentFlock (s : State) (a : QAgent) : Nat :=
  match a with
  | .eng p | .rank p => s.fld (LE_MAP p) fLE_MAP_FLOCK
  | .port n => bitsOf (s.nat (FLK_SPOWN (n / 8))) (4 * (n % 8)) 4
  | .chan cp ch => s.fld (CH_CCFG cp ch) fCH_CCFG_FLOCK
  | .scatter f => f
  | _ => 0

/-- The incarnation an operation issued now carries (R325). -/
def State.carriedInc (s : State) (n : Nat) (a : QAgent) : Nat :=
  if a.passes then s.flockInc (s.qFlock n) else s.flockInc (s.agentFlock a)

/-- Does a descriptor word carry the poison mark? -/
def State.descPoisoned (s : State) (n : Nat) : Bool :=
  (firstIdx (fun k => s.poisoned (QF_QCFG n + 4 * k)) 6).isSome

/-- The first three cases of R327: `none` when the operation goes on. -/
def State.qCheck (s : State) (n : Nat) (a : QAgent) (inc : Nat) : Option QRes × State :=
  if !s.qEn n || s.descPoisoned n then (some .refused, s.inc (QF_QDENIED_CNT n))
  else if !a.passes && s.agentFlock a != s.qFlock n then (some .refused, s.inc (QF_QDENIED_CNT n))
  else if inc ≠ s.flockInc (s.qFlock n) then
    let seen := s.flag QF_STAT fQF_STAT_STALE
    let s := (s.inc (QF_QSTALE_CNT n)).inc QF_STALE_CNT
    let s := (s.inc (FLK_STALE_CNT (s.qFlock n))).setFlag QF_STAT fQF_STAT_STALE true
    (some .stale, if seen then s else s.raise 833 0 0)
  else (none, s)

/-- One put with the incarnation it carries (R327). -/
def State.qPutOne (s : State) (n : Nat) (a : QAgent) (inc : Nat) (e : List QWord) : QRes × State :=
  let (r, s) := s.qCheck n a inc
  match r with
  | some r => (r, s)
  | none =>
    if s.qPool n then s.qFree n a e
    else if s.qDepth n ≤ s.qLevel n then (.full, s.inc (QF_QFULL_CNT n))
    else (.done, ((s.qAppend n e).inc (QF_QPUT_CNT n)).qFresh n)

/-- The cell of an allocated handle becomes HELD (R337). -/
def State.allocate (s : State) (n : Nat) (a : QAgent) (e : List QWord) : State :=
  let cell := (e.headD (0, false)).1.toNat % 16384
  let f := s.qFlock n
  s.setTag cell 2 f (s.flockInc f) (s.holderCode a)

/-- A get with the incarnation it carries (R327): the entry removed. -/
def State.qGet (s : State) (n : Nat) (a : QAgent) (inc : Nat) : QRes × List QWord × State :=
  let (r, s) := s.qCheck n a inc
  match r with
  | some r => (r, [], s)
  | none =>
    if s.qShown n = 0 then (.empty, [], s.inc (QF_QEMPTY_CNT n))
    else
      let e := s.qPeek n
      let s := (s.qRemove n).inc (QF_QGET_CNT n)
      (.done, e, if s.qPool n then s.allocate n a e else s)

/-- Is the queue in a copy or a move, so that operations are held (R330, R340)? -/
def State.qBusy (s : State) (n : Nat) : Bool := tget (fun _ => 0) s.qf.copying n != 0

/-- Hold an operation. -/
def State.qHold (s : State) (h : HeldOp) : State := { s with qf.held := s.qf.held ++ [h] }

/-! ### The entries of sample ports (07_sample_ingress_and_trips.md R196, R203, R204) -/

/-- The physical engine that carries a logical engine (R62). -/
def State.findEng (s : State) (e : Nat) : Option Nat :=
  firstIdx (fun p => s.flag (LE_MAP p) fLE_MAP_LVALID && s.fld (LE_MAP p) fLE_MAP_LOGICAL == e) 72

/-- The destination queue of a sample, or none when no physical engine carries the logical engine, or the number passes Q4095. -/
def State.routeQueue (s : State) (x : SampleFly) : Option Nat :=
  let r := x.route.toNat
  if bitsOf r 30 2 = 1 then (s.findEng (bitsOf r 20 6)).map (fun p => 4 * p + bitsOf r 18 2)
  else
    let q := bitsOf r 0 12 + x.tag % 2 ^ bitsOf r 27 3
    if q < 4096 then some q else none

/-- An entry of port n is discarded (R204): DROP, its count, and the event on the first drop after DROP was clear. `w1` is word 1
of the entry. -/
def State.sampleDrop (s : State) (n w1 : Nat) : State :=
  let seen := s.flag (SI_STAT n) fSI_STAT_DROP
  let s := (s.setFlag (SI_STAT n) fSI_STAT_DROP true).inc (SI_DROP_CNT n)
  if seen then s else s.raise (368 + n) (2 + bitsOf w1 16 2 * 4 + n * 256) (s.nat (SI_ROUTE n))

/-- Record 0x004 ROUTE_DENIED (R547). -/
def State.routeDenied (s : State) (n w1 : Nat) (q : Option Nat) : State :=
  s.record (368 + n) 4 n (s.nat (SI_ROUTE n)) (q.getD 0xFFFFFFFF) (w1 % 256)

/-- The put of an entry of port n (R204): a stale one is the fabric's to count. -/
def State.portPut (s : State) (q n inc : Nat) (e : List QWord) : State :=
  let w1 := ((padWords 2 e).getD 1 (0, false)).1.toNat
  let (r, s) := s.qPutOne q (.port n) inc e
  match r with
  | .done => s.inc (SI_ACCEPT_CNT n)
  | .full | .badFree | .empty => s.sampleDrop n w1
  | .refused => (s.sampleDrop n w1).routeDenied n w1 (some q)
  | .stale => s

/-- A sample leaves its port in its fc 3 (R203): KIND 0 discards and counts it; a queue in a copy holds it (R330). -/
def State.sampleRoute (s : State) (x : SampleFly) : State :=
  if bitsOf x.route.toNat 30 2 = 0 then s.inc (SI_DROP_CNT x.port)
  else match s.routeQueue x with
    | none =>
      let w1 := ((padWords 2 x.entry).getD 1 (0, false)).1.toNat
      (s.sampleDrop x.port w1).routeDenied x.port w1 none
    | some q =>
      if s.qBusy q then s.qHold ⟨q, .put, .port x.port, x.inc, x.entry⟩ else s.portPut q x.port x.inc x.entry

/-- The samples whose fc 3 is the present fc and that `p` selects leave their ports, in ascending port order (R203, R326). -/
def State.samplesLeave (s : State) (p : SampleFly → Bool) : State :=
  let go := s.si.fly.filter (fun x => x.fc + 2 == s.fc && p x)
  go.foldl State.sampleRoute { s with si.fly := s.si.fly.filter (fun x => !(x.fc + 2 == s.fc && p x)) }

/-- A put with the incarnation it carries: the puts of the sample ports in the same fc come first (R326). -/
def State.qPut (s : State) (n : Nat) (a : QAgent) (inc : Nat) (e : List QWord) : QRes × State :=
  (s.samplesLeave (fun x => s.routeQueue x == some n)).qPutOne n a inc e

/-! ### Enabling and disabling (R322, R323) -/

/-- Every storage cell lies in the pool and is UNASSIGNED. -/
def State.cellsFree (s : State) (n : Nat) : Bool :=
  let b := s.fld (QF_QBASE n) fQF_QBASE_BASE
  decide (b + s.qCells n ≤ 16384) && (firstFrom (fun c => s.tagState c != 0) b (s.qCells n)).isNone

/-- Set the tags of `k` cells from `c`. -/
def State.setTags (s : State) (c : Nat) (f : Nat → Nat × Nat × Nat × Nat) : Nat → State
  | 0 => s
  | k + 1 =>
    let (st, fl, inc, h) := f c
    State.setTags (s.setTag c st fl inc h) (c + 1) f k

/-- The new descriptor word is stored and the queue enabled, or the write is refused (R322). -/
def State.queueEnable (s : State) (n : Nat) (v : Word) : State :=
  let s1 := s.setReg (QF_QCFG n) v
  let bad := s1.qPool n && s1.fld (QF_QCFG n) fQF_QCFG_ESIZE != 0
  if s1.cellsFree n && !bad then
    let b := s1.fld (QF_QBASE n) fQF_QBASE_BASE
    let s2 := s1.setTags b (fun _ => (3, s1.qFlock n, 0, n)) (s1.qCells n)
    (s2.setNat (QF_QPTR n) 0).setLevel n 0
  else s.inc QF_CFG_REFUSED

/-- Every cell named by a held entry of a pool queue becomes UNASSIGNED. -/
def State.freeEntries (s : State) (n : Nat) : Nat → State
  | 0 => s
  | k + 1 =>
    let j := (s.qHead n + k) % s.qDepth n
    let cell := (s.mword (s.slotAddr n j)).toNat % 16384
    State.freeEntries (s.setTag cell 0 0 0 0) n k

/-- Disabling (R323). -/
def State.queueDisable (s : State) (n : Nat) (v : Word) : State :=
  if s.flag (QF_QPIN n) fQF_QPIN_PINNED then s.inc QF_CFG_REFUSED
  else
    let lvl := s.qLevel n
    let s := s.incBy QF_DISC_CNT lvl
    let s := if s.qPool n then s.freeEntries n lvl else s
    let s := s.setTags (s.fld (QF_QBASE n) fQF_QBASE_BASE) (fun _ => (0, 0, 0, 0)) (s.qCells n)
    (s.setReg (QF_QCFG n) v).setLevel n 0

/-- A write of QF_QCFG (R321, R322, R323, R544): `v` is the word it would leave. -/
def State.qcfgWrite (s : State) (n : Nat) (v : Word) : State :=
  let d := bitsOf v.toNat 0 13
  let bad := d = 0 ∨ 4096 < d
  let v := if bad then BitVec.ofNat 32 (withBits v.toNat 0 13 4096) else v
  let badEv := 8 < bitsOf v.toNat 20 4
  let s := if bad ∨ badEv then s.inc RC_RSVD_WRITES else s
  let v := if badEv then BitVec.ofNat 32 (withBits v.toNat 20 4 0) else v
  let en := bitOf v.toNat 31
  if s.qEn n then
    if bitsOf v.toNat 0 31 ≠ bitsOf (s.nat (QF_QCFG n)) 0 31 then s.inc QF_CFG_REFUSED
    else if en then s
    else s.queueDisable n v
  else if en then s.queueEnable n v
  else s.setReg (QF_QCFG n) v

/-- A write of QF_QBASE (R322). -/
def State.qbaseWrite (s : State) (n : Nat) (v : Word) : State :=
  if s.qEn n ∧ v ≠ s.reg (QF_QBASE n) then s.inc QF_CFG_REFUSED else s.setReg (QF_QBASE n) v

/-! ### Pins (R329, R330) -/

/-- May queue n be pinned? -/
def State.pinOk (s : State) (n : Nat) : Bool :=
  s.qEn n && decide (s.qDepth n * (4 * s.qWords n) ≤ 1024) && !s.flag (QF_QPIN n) fQF_QPIN_PINNED

/-- Copy the `k` entries from slot j between the storage cells and the cache. -/
def State.copySlots (s : State) (n j : Nat) (toCache : Bool) : Nat → State
  | 0 => s
  | k + 1 =>
    let cell := s.cellSlot n j
    let cache := cacheBase n + 4 * s.qWords n * j
    let s := if toCache then s.writeWords cache (s.readWords cell (s.qWords n))
      else s.writeWords cell (s.readWords cache (s.qWords n))
    State.copySlots s n ((j + 1) % s.qDepth n) toCache k

/-- The copy in progress has moved its entries. -/
def State.copyDone (s : State) (n : Nat) : State :=
  let d := tget (fun _ => 0) s.qf.copying n
  if d = 1 ∨ d = 2 then
    let s := s.copySlots n (s.qHead n) (d == 1) (s.qLevel n)
    { s with qf.cached := tset (fun _ => false) s.qf.cached n (d == 1) }
  else s

/-- A copy starts, behind the one in progress. -/
def State.startCopy (s : State) (n dir : Nat) : State :=
  let s := s.copyDone n
  { s with qf.copying := tset (fun _ => 0) s.qf.copying n dir }

/-- Pin queue n in cluster c: the copy starts. -/
def State.pin (s : State) (c n : Nat) : State :=
  (s.setNat (QF_QPIN n) (8 + c)).startCopy n 1

/-- Unpin queue n: the copy back starts. -/
def State.unpin (s : State) (n : Nat) : State := (s.setNat (QF_QPIN n) 0).startCopy n 2

/-- A write of CL_QPIN[i] of cluster c (R329). -/
def State.qpinWrite (s : State) (c i : Nat) (v : Word) : State :=
  let was := s.flag (CL_QPIN c i) fCL_QPIN_VALID
  let old := s.fld (CL_QPIN c i) fCL_QPIN_QUEUE
  let q := bitsOf v.toNat 0 12
  let valid := bitOf v.toNat 31
  if was then
    if !valid then (s.unpin old).setReg (CL_QPIN c i) v
    else if q = old then s
    else if s.pinOk q then ((s.unpin old).pin c q).setReg (CL_QPIN c i) v
    else s.inc QF_CFG_REFUSED
  else if valid then
    if s.pinOk q then (s.pin c q).setReg (CL_QPIN c i) v
    else (s.setNat (CL_QPIN c i) q).inc QF_CFG_REFUSED
  else s.setReg (CL_QPIN c i) v

/-- The register result of a QF_HOP operation (R345): RES, the level, the entry's words with their marks. -/
def State.hopResult (s : State) (m lvl : Nat) (r : QRes) (e : Option (List QWord)) : State :=
  let res := match r with | .done => 0 | .full => 1 | .empty => 1 | .refused => 2 | .badFree => 2 | .stale => 3
  let s := s.setNat (QF_HSTAT m) (lvl * 65536 + res)
  match e with
  | none => s
  | some e => forN (fun i s =>
      let w := (padWords 16 e).getD i (0, false)
      (s.setReg (QF_HGET m i) w.1).setMark (QF_HGET m i) w.2) 16 s

/-- The agent of a register-operation set. -/
def hopAgent (m : Nat) : QAgent := if m = 0 then .hpp else .dam

/-- The entry words of QF_HPUT. -/
def State.hputWords (s : State) (m : Nat) : List QWord :=
  (List.range 16).map (fun i => (s.reg (QF_HPUT m i), false))

/-- A register operation applied (R345); a get and a level read see nothing that the fc has put (R326). -/
def State.hopApply (s : State) (m n : Nat) (op : QOp) (inc : Nat) (e : List QWord) : State :=
  match op with
  | .put => let (r, s) := s.qPut n (hopAgent m) inc e; s.hopResult m (s.qLevel n) r none
  | .get => let (r, e, s) := s.qGet n (hopAgent m) inc
            if r = .done then s.hopResult m (s.qShown n) r (some e) else s.hopResult m (s.qShown n) r none
  | .lvl => let (r, s) := s.qCheck n (hopAgent m) inc
            s.hopResult m (s.qShown n) (r.getD .done) none

/-- A register operation written to QF_HOP: held while the queue is in a copy (R330). -/
def State.hop (s : State) (m n : Nat) (op : QOp) : State :=
  let inc := s.carriedInc n (hopAgent m)
  if s.qBusy n then s.qHold ⟨n, op, hopAgent m, inc, s.hputWords m⟩
  else s.hopApply m n op inc (s.hputWords m)

/-- A held operation applied when the copy ends. -/
def State.applyHeld (s : State) (h : HeldOp) : State :=
  match h.agent with
  | .hpp => s.hopApply 0 h.queue h.op h.inc h.entry
  | .dam => s.hopApply 1 h.queue h.op h.inc h.entry
  | .port n => s.portPut h.queue n h.inc h.entry
  | a => (s.qPut h.queue a h.inc h.entry).2

/-- Apply the operations held for queue n, in order of arrival. -/
def State.releaseOps (s : State) (n : Nat) : State :=
  let mine := s.qf.held.filter (fun h => h.queue == n)
  let s := { s with qf.held := s.qf.held.filter (fun h => h.queue != n) }
  mine.foldl State.applyHeld s

/-- A pin or unpin copy ends (R330). -/
def State.copyEnd (s : State) (n : Nat) : State :=
  let d := tget (fun _ => 0) s.qf.copying n
  if d = 1 ∨ d = 2 then
    let s := s.copyDone n
    State.releaseOps { s with qf.copying := tset (fun _ => 0) s.qf.copying n 0 } n
  else s

/-! ### Seeds (R336) -/

/-- QF_SEED.GO: refused without an enabled pool queue, and while a seed runs. -/
def State.seedGo (s : State) : State :=
  let q := s.fld QF_SEED_Q fQF_SEED_Q_QUEUE
  if s.flag QF_SEED_STAT fQF_SEED_STAT_BUSY || !s.qEn q || !s.qPool q then s.inc QF_CFG_REFUSED
  else
    { s.setFlag QF_SEED_STAT fQF_SEED_STAT_BUSY true with qf := { s.qf with
      seedCell := s.fld QF_SEED fQF_SEED_CELL, seedLeft := s.fld QF_SEED fQF_SEED_COUNT + 1 } }

/-- Seed `k` cells from `c`: each UNASSIGNED one is appended, the others are skipped and counted. -/
def State.seedCells (s : State) (q c : Nat) : Nat → State
  | 0 => s
  | k + 1 =>
    let f := s.qFlock q
    let i := s.flockInc f
    let s := if s.tagState c = 0 ∧ c < 16384 ∧ s.qEn q = true ∧ s.qPool q = true ∧ s.qLevel q < s.qDepth q then (s.qAppend q (handleOf c i)).setTag c 1 f i q
      else s.inc QF_SEED_SKIP
    State.seedCells s q (c + 1) k

/-- One cell of the seed in each fc. -/
def State.seedStep (s : State) : State :=
  if s.qf.seedLeft = 0 then s
  else
    let c := s.qf.seedCell
    let s := s.seedCells (s.fld QF_SEED_Q fQF_SEED_Q_QUEUE) c 1
    { s with qf := { s.qf with seedCell := c + 1, seedLeft := s.qf.seedLeft - 1 } }

/-- The seed ends: what is left of its range is done. -/
def State.seedEnd (s : State) : State :=
  if s.flag QF_SEED_STAT fQF_SEED_STAT_BUSY then
    let s := s.seedCells (s.fld QF_SEED_Q fQF_SEED_Q_QUEUE) s.qf.seedCell s.qf.seedLeft
    { s.setFlag QF_SEED_STAT fQF_SEED_STAT_BUSY false with qf := { s.qf with seedCell := 0, seedLeft := 0 } }
  else s

/-! ### Flock reset and the reclaim walk (R339) -/

/-- The queues whose QF_QLVL is listed: every other queue is empty. -/
def State.listedQueues (s : State) : List Nat :=
  s.regs.filterMap (fun e => if 0x100000 ≤ e.1 ∧ e.1 < 0x140000 ∧ e.1 % 64 = 8 then some ((e.1 - 0x100000) / 64) else none)

/-- The cells whose owner tag is listed: every other cell is UNASSIGNED. -/
def State.listedCells (s : State) : List Nat :=
  s.regs.filterMap (fun e => if 0x150000 ≤ e.1 ∧ e.1 < 0x160000 then some ((e.1 - 0x150000) / 4) else none)

/-- Every queue of flock f drops its entries; the walk of the owner tags starts. -/
def State.qfFlockReset (s : State) (f : Nat) : State :=
  let s := s.listedQueues.foldl (fun s n =>
    if s.qFlock n = f ∧ s.qLevel n ≠ 0 then
      let s := s.incBy QF_DISC_CNT (s.qLevel n)
      (s.setFld (QF_QPTR n) fQF_QPTR_HEAD (s.qTail n)).setLevel n 0
    else s) s
  let s := s.setNat QF_RECL (s.nat QF_RECL ||| 2 ^ f)
  { s with qf.walk := tset (fun _ => 0) s.qf.walk f 0 }

/-- One cell of the walk: FREE or HELD of the flock becomes FREE with the new incarnation in the flock's pool, or
UNASSIGNED when the pool is full or not named. -/
def State.reclaimCell (s : State) (f c : Nat) : State :=
  if (s.tagState c = 1 ∨ s.tagState c = 2) ∧ s.tagFlock c = f then
    let q := s.fld (QF_FPOOL f) fQF_FPOOL_QUEUE
    if s.flag (QF_FPOOL f) fQF_FPOOL_VALID && s.qEn q && s.qPool q && decide (s.qLevel q < s.qDepth q) then
      let i := s.flockInc f
      (s.qAppend q (handleOf c i)).setTag c 1 f i q
    else (s.setTag c 0 0 0 0).inc QF_SEED_SKIP
  else s

/-- The walks in progress: four owner tags in each fc. -/
def State.walkStep (s : State) : State :=
  if s.nat QF_RECL = 0 then s
  else forN (fun f s =>
    if bitOf (s.nat QF_RECL) f then
      let c := tget (fun _ => 0) s.qf.walk f
      let s := if c < 16384 then forN (fun i s => s.reclaimCell f (c + i)) 4 s else s
      { s with qf.walk := tset (fun _ => 0) s.qf.walk f (c + 4) }
    else s) 16 s

/-- The walk of flock f ends: what is left of it is done and BUSY[f] clears. -/
def State.reclaimEnd (s : State) (f : Nat) : State :=
  if bitOf (s.nat QF_RECL) f then
    let w := tget (fun _ => 0) s.qf.walk f
    let s := (s.listedCells.filter (fun c => decide (w ≤ c))).foldl (fun s c => s.reclaimCell f c) s
    let s := { s with qf.walk := tset (fun _ => 0) s.qf.walk f 0 }
    s.setNat QF_RECL (s.nat QF_RECL - 2 ^ f)
  else s

/-! ### Re-homing (R340) -/

/-- The registers of a queue descriptor, by offset. -/
def descOffsets : List Nat := [0, 4, 8, 0xC, 0x10, 0x14, 0x18, 0x1C, 0x20, 0x24, 0x28, 0x2C]

/-- Exchange two registers. -/
def State.swapRegs (s : State) (a b : Nat) : State :=
  let x := s.reg a
  let y := s.reg b
  (s.setReg a y).setReg b x

/-- Exchange the descriptors of queues a and b, their storage tags' holders and what stands in the cache. -/
def State.swapQueues (s : State) (a b : Nat) : State :=
  let s := descOffsets.foldl (fun s o => s.swapRegs (QF_QCFG a + o) (QF_QCFG b + o)) s
  let ca := tget (fun _ => false) s.qf.cached a
  let cb := tget (fun _ => false) s.qf.cached b
  let ea := s.readWords (cacheBase a) 256
  let eb := s.readWords (cacheBase b) 256
  let s := (s.writeWords (cacheBase a) eb).writeWords (cacheBase b) ea
  let s := s.setTags (s.fld (QF_QBASE a) fQF_QBASE_BASE) (fun c => (s.tagState c, s.tagFlock c, s.tagInc c, a))
    (if s.qEn a then s.qCells a else 0)
  let s := s.setTags (s.fld (QF_QBASE b) fQF_QBASE_BASE) (fun c => (s.tagState c, s.tagFlock c, s.tagInc c, b))
    (if s.qEn b then s.qCells b else 0)
  let s := { s with qf.cached := tset (fun _ => false) (tset (fun _ => false) s.qf.cached a cb) b ca }
  (s.levelChanged a).levelChanged b

/-- The CL_QPIN entry that pins queue n: cluster and entry. -/
def State.pinAt (s : State) (n : Nat) : Option (Nat × Nat) :=
  (firstIdx (fun x => s.flag (CL_QPIN (x / 64) (x % 64)) fCL_QPIN_VALID && s.fld (CL_QPIN (x / 64) (x % 64)) fCL_QPIN_QUEUE == n) 512).map
    (fun x => (x / 64, x % 64))

/-- The pin of queue a passes to queue b in the cluster of b's engine (R340); a cluster without a free entry leaves it where it was, and
a pin of b passes to a (log entry 70). -/
def State.rehomePins (s : State) (a b : Nat) : State :=
  let cb := b / 4 / 9
  let pb := s.pinAt b
  let s := match s.pinAt a with
    | none => s
    | some (c, i) =>
      match (if c = cb then none else firstIdx (fun j => !s.flag (CL_QPIN cb j) fCL_QPIN_VALID) 64) with
      | some j => ((s.setNat (CL_QPIN c i) 0).setNat (CL_QPIN cb j) (2 ^ 31 + b)).setNat (QF_QPIN b) (8 + cb)
      | none => s.setNat (CL_QPIN c i) (2 ^ 31 + b)
  match pb with
  | none => s
  | some (c, i) => s.setNat (CL_QPIN c i) (2 ^ 31 + a)

/-- The start of the move: descriptors, pins and entries of the four inboxes of p pass to q; gets at q are held until
the move ends. -/
def State.rehome (s : State) (p q : Nat) : State :=
  let s := forN (fun i s => ((s.swapQueues (4 * p + i) (4 * q + i)).rehomePins (4 * p + i) (4 * q + i)).startCopy (4 * q + i) 3) 4 s
  { s with qf.moves := s.qf.moves ++ [(p, q)] }

/-- Entries that reached Q(4p + i) by number since the switch follow the moved ones (R340). -/
def State.followEntries (s : State) (a b : Nat) : Nat → State
  | 0 => s
  | k + 1 =>
    if s.qLevel a = 0 ∨ s.qDepth b ≤ s.qLevel b then s
    else
      let e := s.qPeek a
      let s := s.setFld (QF_QPTR a) fQF_QPTR_HEAD ((s.qHead a + 1) % s.qDepth a)
      State.followEntries ((s.setLevel a (s.qLevel a - 1)).qAppend b e) a b k

/-- The move from p to q ends and the held operations proceed. -/
def State.moveEnd (s : State) (p q : Nat) : State :=
  if s.qf.moves.contains (p, q) then
    let s := { s with qf.moves := s.qf.moves.erase (p, q) }
    forN (fun i s =>
      let s := s.followEntries (4 * p + i) (4 * q + i) (s.qLevel (4 * p + i))
      let s := { s with qf.copying := tset (fun _ => 0) s.qf.copying (4 * q + i) 0 }
      s.releaseOps (4 * q + i)) 4 s
  else s

/-- A write of QF_WMN_STAT: CLRCNT clears both counts; one incremented in the fc reads 1 (R333). -/
def State.clrCnt (s : State) (n : Nat) : State := s.setReg (QF_WMN_CNT n) (s.hotBits (QF_WMN_CNT n) &&& 0x10001#32)

/-- A write of QF_QWM: the operations of the next fc see it; the change is no crossing (R334). -/
def State.qwmWrite (s : State) (n : Nat) (v : Word) : State :=
  let s := if s.qf.wmOld.any (fun e => e.1 == n) then s
    else State.later { s with qf.wmOld := s.qf.wmOld ++ [(n, s.reg (QF_QWM n))] } s.fc (.levelQueue n)
  s.setReg (QF_QWM n) v

/-- Is queue n pinned in the cluster of an engine (R328)? -/
def State.pinnedBy (s : State) (c : Core) (n : Nat) : Bool :=
  match c with
  | .eng p => s.flag (QF_QPIN n) fQF_QPIN_PINNED && s.fld (QF_QPIN n) fQF_QPIN_CLUSTER == p.val / 9
  | .shep => false

end Sys2Proof.Machine
end

