-- ==== Sys2Proof/Machine/Ingress.lean ====
section
/-!
DEFINITION. Sample ports and SOC outputs (07_sample_ingress_and_trips.md R195 to R204, R221, R222).
-/

namespace Sys2Proof.Machine

/-- Tally `k` fc from now. -/
def State.tallyAfter (s : State) (k : Nat) : Stamp :=
  tallyOf ((if s.flag TB_CTRL fTB_CTRL_SEL then s.tb.b else s.tb.a) + BitVec.ofNat 96 k * s.tallyInc)

/-! ### Scaling and window (R197, R199) -/

/-- The 24-bit sample as v. -/
def sampleV (signed : Bool) (d : BitVec 24) : Int :=
  if signed then d.toInt * 256 else ((d.toNat : Int) - 8388608) * 256

/-- y before saturation: the exact product rounded half up once. -/
def scaleY (v off gain : Int) : Int := ((v - off) * gain + 268435456) / 536870912

/-- Saturation to Q1.31. -/
def sat32 (x : Int) : Int := clampI (-2147483648) 2147483647 x

/-- The class of R199: 2 ABOVE, 1 BELOW, 0 INSIDE; the test for ABOVE is made first. -/
def windowClass (y hi lo : Int) : Nat := if hi < y then 2 else if y < lo then 1 else 0

/-- A window transition of a sample (R199): counted and raised when WEV enables it. -/
def State.windowEvent (s : State) (x : SampleFly) (old new : Nat) (y : Word) : State :=
  let bit := if new = 2 then 0 else if new = 1 then 1 else 2
  if old ≠ new ∧ bitOf (bitsOf x.cfg.toNat 10 3) bit = true then
    (s.inc (SI_WIN_CNT x.port)).raise (368 + x.port) (1 + new * 4 + x.port * 256) y.toNat
  else s

/-! ### The three fc of a sample (R195, R196) -/

/-- An SI_ register as the present fc found it: what a sample that registers in the fc uses. -/
def State.siShown (s : State) (off : Nat) : Word :=
  match s.si.old.find? (fun e => e.1 == off) with
  | some e => e.2
  | none => s.reg off

/-- Remember an SI_ register before its first write of the fc. -/
def State.siKeep (s : State) (off : Nat) : State :=
  if s.si.old.any (fun e => e.1 == off) then s else { s with si.old := s.si.old ++ [(off, s.reg off)] }

/-- The stamp of a sample, whether it paired, whether it found no fresh mark (R202): the mark is taken. -/
def State.samplePair (s : State) (n : Nat) (cfg : Word) : Stamp × Bool × Bool × State :=
  if bitOf cfg.toNat 2 then
    if tget (fun _ => false) s.si.mark n then
      (tget (fun _ => (0 : Stamp)) s.si.socStamp (bitsOf cfg.toNat 4 6), true, false,
        { s with si.mark := tset (fun _ => false) s.si.mark n false })
    else (s.now, false, true, s)
  else (s.now, false, false, s)

/-- A sample in its place among those of its fc: by port. -/
def flyInsert (x : SampleFly) : List SampleFly → List SampleFly
  | [] => [x]
  | y :: t => if y.fc = x.fc ∧ x.port < y.port then x :: y :: t else y :: flyInsert x t

/-- A sample registers in a port that is enabled (R195): its fc 1. -/
def State.sample (s : State) (n : Nat) (d : BitVec 24) (tag : Nat) : State :=
  let cfg := s.siShown (SI_CFG n)
  if bitOf cfg.toNat 0 then
    let (st, paired, nosoc, s) := s.samplePair n cfg
    let x : SampleFly := { port := n, fc := s.fc, data := d, tag := tag, stamp := st, paired := paired, nosoc := nosoc
                           inc := s.carriedInc 0 (.port n), cfg := cfg, off := s.siShown (SI_OFFSET n), gain := s.siShown (SI_GAIN n)
                           hi := s.siShown (SI_WHI n), lo := s.siShown (SI_WLO n), route := s.siShown (SI_ROUTE n) }
    { s with si.fly := flyInsert x s.si.fly }
  else s

/-- y of a sample and whether it saturated (R197). -/
def SampleFly.scaled (x : SampleFly) : Int × Bool :=
  let v := sampleV (bitOf x.cfg.toNat 1) x.data
  let z := scaleY v (sInt x.off) (sInt x.gain)
  if bitOf x.cfg.toNat 3 then (v, false) else (sat32 z, sat32 z != z)

/-- Its entry (R198). -/
def SampleFly.words (x : SampleFly) (y : Word) (satd : Bool) (cls : Nat) : List QWord :=
  let w1 := x.tag + x.port * 256 + b2n x.paired * 2 ^ 14 + b2n x.nosoc * 2 ^ 15 + cls * 2 ^ 16 + b2n satd * 2 ^ 18
  [(y, false), (.ofNat 32 w1, false), (.ofNat 32 (lo32 x.stamp), false), (.ofNat 32 (hi32 x.stamp), false)]

/-- fc 2 of a sample: scaling, window comparison and what pairing found (R196 to R199, R202). -/
def State.sampleScale (s : State) (x : SampleFly) : SampleFly × State :=
  let n := x.port
  let (y, satd) := x.scaled
  let s := if satd then (s.setFlag (SI_STAT n) fSI_STAT_SATD true).inc (SI_SAT_CNT n) else s
  let s := if x.nosoc then (s.setFlag (SI_STAT n) fSI_STAT_NOSOC true).inc (SI_NOSOC_CNT n) else s
  let cls := windowClass y (sInt x.hi) (sInt x.lo)
  let old := if tget (fun _ => false) s.si.first n then 0 else s.fld (SI_STAT n) fSI_STAT_WSTATE
  let s := State.setFld { s with si.first := tset (fun _ => false) s.si.first n false } (SI_STAT n) fSI_STAT_WSTATE cls
  let s := s.windowEvent x old cls (intWord y)
  let s := (s.setReg (SI_LAST_VAL n) (intWord y)).setReg64 (SI_LAST_STAMP_LO n) (SI_LAST_STAMP_HI n) x.stamp
  ({ x with entry := x.words (intWord y) satd cls }, s)

/-- The samples that registered in fc `c` go through their fc 2, which is the present one. -/
def State.samplesScale (s : State) (c : Nat) : State :=
  (s.si.fly.filter (fun x => x.fc == c)).foldl
    (fun s x => let (x, s) := s.sampleScale x; { s with si.fly := s.si.fly ++ [x] })
    { s with si.fly := s.si.fly.filter (fun x => x.fc != c) }

/-! ### SOC outputs (R200 to R202) -/

/-- A source event of SOCm in the present fc: the firing is taken in the next one; two in one fc count once. -/
def State.socFire (s : State) (m : Nat) : State :=
  if (s.si.fires.any (fun f => f.m == m && f.fc == s.fc + 1)) then s
  else { s with si.fires := s.si.fires ++ [⟨m, s.fc + 1⟩] }

/-- Does logical unit `u` of a kind exist: PW0 to PW47, TM0 to TM31 (R200)? -/
def socUnitOk (kind u : Nat) : Bool := if kind = 1 then u < 48 else u < 32

/-- Does SI_SOC_SRC of SOCm name event `sel` of logical unit `u` of a kind? -/
def State.socNames (s : State) (kind u sel m : Nat) : Bool :=
  socUnitOk kind u && s.fld (SI_SOC_SRC m) fSI_SOC_SRC_KIND == kind && s.fld (SI_SOC_SRC m) fSI_SOC_SRC_UNIT == u
    && s.fld (SI_SOC_SRC m) fSI_SOC_SRC_EVSEL == sel

/-- Does any SOC output name event `sel` of logical unit `u` of a kind? -/
def State.socUses (s : State) (kind u sel : Nat) : Bool := (firstIdx (fun m => s.socNames kind u sel m) 64).isSome

/-- The SOC outputs whose source is event `sel` of logical unit `u` of a kind fire (R200). -/
def State.socSource (s : State) (kind u sel : Nat) : State :=
  (s.regs.filterMap (fun e => if 0x208000 ≤ e.1 ∧ e.1 < 0x208200 ∧ e.1 % 8 = 0 then some ((e.1 - 0x208000) / 8) else none)).foldl
    (fun s m => if s.socNames kind u sel m then s.socFire m else s) s

/-- A firing at the edge that begins its fc (R201): the output rises for the WIDTH that it finds; the stamp is the Tally of the fc. -/
def State.socRise (s : State) (f : SocFire) : State :=
  let s := (s.setReg64 (SI_SOC_STAMP_LO f.m) (SI_SOC_STAMP_HI f.m) s.now).inc (SI_SOC_CNT f.m)
  { s with si.high := tset (fun _ => 0) s.si.high f.m (f.fc + s.fld (SI_SOC_SRC f.m) fSI_SOC_SRC_WIDTH + 1) }

/-- A firing at the edge that ends its fc: the next samples of the ports paired with the output find its mark and stamp (R202). -/
def State.socMark (s : State) (f : SocFire) : State :=
  let s := { s with si.socStamp := tset (fun _ => (0 : Stamp)) s.si.socStamp f.m (s.reg64 (SI_SOC_STAMP_LO f.m) (SI_SOC_STAMP_HI f.m)) }
  forN (fun n s =>
    if s.flag (SI_CFG n) fSI_CFG_SOCST && s.fld (SI_CFG n) fSI_CFG_SOCSEL == f.m then
      let s := if tget (fun _ => false) s.si.mark n then s.setFlag (SI_STAT n) fSI_STAT_SOCOVR true else s
      { s with si.mark := tset (fun _ => false) s.si.mark n true }
    else s) 64 s

/-- The end of fc `c` in the sample ports: the puts that are left of it, and the marks of the firings taken in it. -/
def State.samplesEnd (s : State) (c : Nat) : State :=
  let s := s.samplesLeave (fun _ => true)
  let s := (s.si.fires.filter (fun f => f.fc == c)).foldl State.socMark s
  { s with si.fires := s.si.fires.filter (fun f => f.fc != c), si.old := [] }

/-- The edge that ends fc `c`, in the fc that it begins: the samples' fc 2, and the firings taken in the fc. -/
def State.samplesEdge (s : State) (c : Nat) : State :=
  let s := s.samplesScale c
  (s.si.fires.filter (fun f => f.fc == c + 1)).foldl State.socRise s

/-- SOCm falls WIDTH + 1 fc after its rise (R201). -/
def State.socEnd (s : State) (m : Nat) : State :=
  let e := tget (fun _ => 0) s.si.high m
  if e ≠ 0 ∧ e ≤ s.fc then { s with si.high := tset (fun _ => 0) s.si.high m 0 } else s

/-- A write to SI_SOC_FIRE fires SOCm for any KIND other than 0 (R200). -/
def State.socSoftware (s : State) (m : Nat) : State :=
  if s.fld (SI_SOC_SRC m) fSI_SOC_SRC_KIND = 0 then s else s.socFire m

/-- A write of SI_CFG: after EN is set, the first sample compares against INSIDE (R199); ownership and cleanliness are checked by
the write path. -/
def State.siCfgWrite (s : State) (n : Nat) (v : Word) : State :=
  let s := if !s.flag (SI_CFG n) fSI_CFG_EN && bitOf v.toNat 0 then { s with si.first := tset (fun _ => false) s.si.first n true } else s
  (s.siKeep (SI_CFG n)).setReg (SI_CFG n) v

/-- A write of SI_ROUTE: KIND 3 stores 0 and is counted (R203). -/
def State.siRouteWrite (s : State) (n : Nat) (v : Word) : State :=
  let s := s.siKeep (SI_ROUTE n)
  if bitsOf v.toNat 30 2 = 3 then (s.setNat (SI_ROUTE n) (withBits v.toNat 30 2 0)).inc RC_RSVD_WRITES
  else s.setReg (SI_ROUTE n) v

/-- A flock reset clears SI_CFG.EN of the flock's ports at once (R204). -/
def State.siFlockReset (s : State) (f : Nat) : State :=
  forN (fun n s =>
    if bitsOf (s.nat (FLK_SPOWN (n / 8))) (4 * (n % 8)) 4 = f then
      State.setFlag { s with si.old := s.si.old.filter (fun e => e.1 != SI_CFG n) } (SI_CFG n) fSI_CFG_EN false
    else s) 64 s

end Sys2Proof.Machine
end

