-- ==== Sys2Proof/Machine/Trips.lean ====
section
/-!
DEFINITION. Trip inputs, trip groups and armed responses (07_sample_ingress_and_trips.md R205 to R219, R223 to R226).
-/

namespace Sys2Proof.Machine

def State.tripIn (s : State) (n : Nat) : TripIn := tget (fun _ => ({} : TripIn)) s.si.trips n
def State.setTripIn (s : State) (n : Nat) (x : TripIn) : State :=
  { s with si.trips := tset (fun _ => ({} : TripIn)) s.si.trips n x }

def State.tripEn (s : State) (n : Nat) : Bool := s.flag (TR_CFG n) fTR_CFG_EN
def State.tripLatch (s : State) (n : Nat) : Bool := s.flag (TR_STAT n) fTR_STAT_LATCH
def State.tripQual (s : State) (n : Nat) : Bool := s.flag (TR_STAT n) fTR_STAT_QUAL

/-- The pin, or the injected pulse, at the active sense (R205, R219). -/
def State.tripActive (s : State) (n : Nat) : Bool :=
  (s.tripIn n).inj.isSome || ((s.tripIn n).pin != s.flag (TR_CFG n) fTR_CFG_POL)

/-- TR_STAT.PIN follows, and with it the gate and capture line of the timers (R219, R259); `cap` is the stamp of an edge. -/
def State.tripPin (s : State) (n : Nat) (cap : Option Stamp) : State :=
  let l := s.tripActive n
  let was := s.flag (TR_STAT n) fTR_STAT_PIN
  (s.setFlag (TR_STAT n) fTR_STAT_PIN l).lineSet 2 n l (if l = was then none else cap)

/-! ### Groups and engagement (R209 to R213) -/

/-- Input n is in the mask of group g. -/
def State.inGroup (s : State) (g n : Nat) : Bool :=
  if n < 32 then bitOf (s.nat (TG_MASK_LO g)) n else bitOf (s.nat (TG_MASK_HI g)) (n - 32)

/-- The term of input n in group g (R209): a disabled input contributes 0. -/
def State.tripTerm (s : State) (g n : Nat) : Bool :=
  s.tripEn n && (if s.flag (TG_CFG g) fTG_CFG_TERM then s.tripLatch n else s.tripQual n)

/-- Is the group asserted? A group whose mask is zero never is. -/
def State.groupOn (s : State) (g : Nat) : Bool :=
  let inputs := (List.range 64).filter (fun n => s.inGroup g n)
  if inputs.isEmpty then false
  else if s.flag (TG_CFG g) fTG_CFG_FN then inputs.all (fun n => s.tripTerm g n)
  else inputs.any (fun n => s.tripTerm g n)

def State.armed (s : State) (r : Nat) : Bool := s.flag (AR_STAT r) fAR_STAT_ARMED
def State.engaged (s : State) (r : Nat) : Bool := s.flag (AR_STAT r) fAR_STAT_ENGAGED

/-- The event source of an entry: EV(496 + g), or EV512 for AR16 and above (R547). -/
def arSource (r : Nat) : Nat := if r < 16 then 496 + r else 512

/-- An armed entry engages (R213): its outputs are forced at once. -/
def State.engageForce (s : State) (r : Nat) : State :=
  if s.armed r && !s.engaged r then
    State.setFlag { s with si.engNew := tset (fun _ => false) s.si.engNew r true } (AR_STAT r) fAR_STAT_ENGAGED true
  else s

/-- What an engagement leaves once its stamp is there: AR_ENG_STAMP, the count, EV512 of AR16, record 0x009 (R213). -/
def State.engageRecord (s : State) (r : Nat) (st : Stamp) : State :=
  if tget (fun _ => false) s.si.engNew r then
    let s := { s with si.engNew := tset (fun _ => false) s.si.engNew r false }
    let s := (s.setReg64 (AR_ENG_STAMP_LO r) (AR_ENG_STAMP_HI r) st).inc (AR_ENG_CNT r)
    let s := if r = 16 then s.raiseLive 512 st 0 0 else s
    s.recordAt st (arSource r) 9 r (lo32 st) (hi32 st) (s.nat (AR_ENG_CNT r))
  else s

/-- Engagement of an entry whose stamp is known. -/
def State.engage (s : State) (r : Nat) (st : Stamp) : State := (s.engageForce r).engageRecord r st

/-- The lowest-numbered input whose term completed the assertion of group g in fc `e` (R210). -/
def State.completer (s : State) (g e : Nat) : Option Nat :=
  let raw := s.flag (TG_CFG g) fTG_CFG_TERM
  firstIdx (fun n => s.inGroup g n && s.tripEn n && (if raw then (s.tripIn n).latchFc else (s.tripIn n).qualFc) == e + 1) 64

/-- ACT sets (R210): `e` is the fc in which the group asserted, `st` the stamp where no input completed it in that fc. The payload of
EV(496 + g) states whether an armed response engaged. -/
def State.groupAct (s : State) (g e : Nat) (st : Stamp) : State :=
  let st := match s.completer g e with
    | some n => s.reg64 (TR_STAMP_LO n) (TR_STAMP_HI n)
    | none => st
  let s := (s.setFlag (TG_STAT g) fTG_STAT_ACT (s.groupOn g)).setFlag (TG_STAT g) fTG_STAT_SEEN true
  let s := (s.setReg64 (TG_STAMP_LO g) (TG_STAMP_HI g) st).inc (TG_ASSERT_CNT g)
  let s := s.raiseNamedAt (496 + g) st [b2n (tget (fun _ => false) s.si.engNew g)]
  s.engageRecord g st

/-- A group asserts (R210, R213): its armed entry engages; ACT of a QUAL group follows at the end of the fc, of a RAW group three fc
after the edge that asserted it; at once where no edge did, or no clock runs. -/
def State.groupRise (s : State) (g : Nat) (st : Stamp) (edge : Bool) : State :=
  let s := s.engageForce g
  let s := if s.pw.mode = .rest then s.wakeSet 13 s.wakeStamp false else s
  if !s.live || !edge then s.groupAct g s.fc st
  else if s.flag (TG_CFG g) fTG_CFG_TERM then s.later (s.fc + 2) (.groupAct g s.fc st)
  else { s with si.gPend := s.si.gPend ++ [(g, st)] }

/-- A group sees its terms (R209): `st` is the stamp of the input that changed, `edge` tells a change of an input from one of the
configuration. -/
def State.groupFollow (s : State) (g : Nat) (st : Stamp) (edge : Bool) : State :=
  let on := s.groupOn g
  let was := tget (fun _ => false) s.si.gOn g
  let s := { s with si.gOn := tset (fun _ => false) s.si.gOn g on }
  if on && !was then s.groupRise g st edge
  else if !on && was then s.setFlag (TG_STAT g) fTG_STAT_ACT false
  else s

/-- Every group sees a change of an input's terms, or of the configuration. -/
def State.groupsFollow (s : State) (st : Stamp) (edge : Bool) : State := forN (fun g s => s.groupFollow g st edge) 16 s

/-- The QUAL groups that asserted in the present fc (R210). -/
def State.groupsSettle (s : State) : State :=
  s.si.gPend.foldl (fun s e => s.groupAct e.1 s.fc e.2) { s with si.gPend := [] }

/-! ### Inputs (R205 to R208) -/

/-- The payload of EV(432 + n) (R546). -/
def State.qualPayload (s : State) (n : Nat) : Nat :=
  b2n (s.flag (TR_STAT n) fTR_STAT_STOPPED) + 2 * b2n (s.flag (TR_STAT n) fTR_STAT_INJ) + n * 256

/-- QUAL sets and raises EV(432 + n) (R207, R208). -/
def State.qualRise (s : State) (n : Nat) (st : Stamp) : State :=
  let s := s.setFlag (TR_STAT n) fTR_STAT_QUAL true
  let s := s.setTripIn n { s.tripIn n with edge := none, left := none, qualFc := s.fc + 1 }
  let s := s.raiseLive (432 + n) st (s.qualPayload n) 0
  s.groupsFollow (s.reg64 (TR_STAMP_LO n) (TR_STAMP_HI n)) true

/-- An active edge on an enabled input (R205, R206): the latch sets if it is clear, and every edge is counted. While CLK_FAST is
stopped QUAL follows (R207). -/
def State.tripSet (s : State) (n : Nat) (st : Stamp) (inj : Bool) : State :=
  let s := s.inc (TR_EDGE_CNT n)
  if s.tripLatch n then s
  else
    let s := (s.setFlag (TR_STAT n) fTR_STAT_LATCH true).setReg64 (TR_STAMP_LO n) (TR_STAMP_HI n) st
    let s := if inj then s.setFlag (TR_STAT n) fTR_STAT_INJ true else s
    let s := s.setTripIn n { s.tripIn n with edge := some s.fc, left := none, latchFc := s.fc + 1 }
    let s := s.groupsFollow st true
    if s.pw.fast then s else (s.setFlag (TR_STAT n) fTR_STAT_STOPPED true).qualRise n st

/-- The pin takes its active level, `k` tk before the next CLK_FAST edge; the stamp is the slow one while CLK_FAST is
stopped (R38, R41, R206). -/
def State.tripEdge (s : State) (n k : Nat) : State :=
  let st := if s.pw.fast then s.edgeStamp k else s.wakeStamp
  let s := s.setTripIn n { s.tripIn n with pin := !s.flag (TR_CFG n) fTR_CFG_POL }
  if (s.tripIn n).inj.isSome then s
  else
    let s := s.tripPin n (some st)
    if s.tripEn n then s.tripSet n st false else s

/-- The latch clears (R205): it sets again at once where the input is still active. -/
def State.latchOff (s : State) (n : Nat) : State :=
  let s := (s.setFlag (TR_STAT n) fTR_STAT_LATCH false).setFlag (TR_STAT n) fTR_STAT_QUAL false
  let s := (s.setTripIn n { s.tripIn n with edge := none, left := none }).groupsFollow s.now true
  if s.tripEn n && s.tripActive n then s.tripSet n s.now false else s

/-- The input has left its active level (R207): within the filter time the edge is a glitch, which acts three fc later. -/
def State.tripLeave (s : State) (n : Nat) : State :=
  match (s.tripIn n).edge with
  | none => s
  | some e =>
    if s.tripLatch n && !s.tripQual n && (s.tripIn n).left.isNone && decide (s.fc < e + s.fld (TR_CFG n) fTR_CFG_FLT) then
      (s.setTripIn n { s.tripIn n with left := some s.fc }).later (s.fc + 2) (.tripGlitch n s.fc)
    else s

/-- The glitch acts: the latch clears, and no event is raised (R207). -/
def State.glitchAct (s : State) (n d : Nat) : State :=
  if (s.tripIn n).left = some d ∧ s.tripLatch n = true then (s.inc (TR_GLITCH_CNT n)).latchOff n else s

/-- The pin leaves its active level. -/
def State.tripGlitch (s : State) (n : Nat) : State :=
  let s := s.setTripIn n { s.tripIn n with pin := s.flag (TR_CFG n) fTR_CFG_POL }
  if (s.tripIn n).inj.isSome then s else (s.tripPin n none).tripLeave n

/-- QUAL sets 3 + FLT fc after the edge (R207). -/
def State.qualSet (s : State) (n : Nat) : State :=
  match (s.tripIn n).edge with
  | none => s
  | some e =>
    if s.tripLatch n && (s.tripIn n).left.isNone && decide (e + 3 + s.fld (TR_CFG n) fTR_CFG_FLT ≤ s.fc) then s.qualRise n s.now
    else s

/-- A W1C of LATCH (R205); a latch that set in the same fc stays (00_scope.md R7). -/
def State.latchClear (s : State) (n : Nat) : State :=
  if s.tripLatch n && !bitOf (s.hotBits (TR_STAT n)).toNat fTR_STAT_LATCH.lo then s.latchOff n else s

/-- CLK_FAST stops: QUAL follows the latches, and groups on their way set their ACT (R207, R210). -/
def State.tripsStop (s : State) : State :=
  let s := forN (fun n s => if s.tripEn n && s.tripLatch n && !s.tripQual n then s.qualRise n s.now else s) 64 s.groupsSettle
  let trips := s.due.filter (fun e => match e.2 with | .groupAct _ _ _ => true | .tripGlitch _ _ => true | _ => false)
  let s := { s with due := s.due.filter (fun e => match e.2 with | .groupAct _ _ _ => false | .tripGlitch _ _ => false | _ => true) }
  trips.foldl (fun s e => match e.2 with | .groupAct g x st => s.groupAct g x st | _ => s) s

/-! ### Injection (R219) -/

/-- Does the group of any armed entry have input n in its mask? -/
def State.inArmedGroup (s : State) (n : Nat) : Bool :=
  (firstIdx (fun g => s.armed g && s.inGroup g n) 16).isSome

/-- TR_INJ.GO. -/
def State.inject (s : State) (n : Nat) : State :=
  if s.inArmedGroup n || (s.tripIn n).inj.isSome then s.inc TR_INJ_REFUSED
  else
    let was := s.tripActive n
    let s := (s.setTripIn n { s.tripIn n with inj := some (s.fc + s.fld (TR_INJ n) fTR_INJ_WIDTH + 1) }).tripPin n (some s.now)
    if s.tripEn n && !was then s.tripSet n s.now true else s

/-- The injected pulse ends after WIDTH + 1 fc. -/
def State.injectEnd (s : State) (n : Nat) : State :=
  match (s.tripIn n).inj with
  | none => s
  | some e =>
    if e ≤ s.fc then
      let s := (s.setTripIn n { s.tripIn n with inj := none }).tripPin n (some s.now)
      if s.tripActive n then s else s.tripLeave n
    else s

/-! ### Arming (R215, R216) -/

/-- Is a PREPARE window open for an entry? -/
def State.windowOpen (s : State) (r : Nat) : Bool :=
  match s.si.prep with
  | none => false
  | some (e, c) => e == r && decide (s.fc < c + 256)

/-- Close the window. -/
def State.closeWindow (s : State) : State :=
  match s.si.prep with
  | none => s
  | some (e, _) => { s.setFlag (AR_STAT e) fAR_STAT_PREP false with si.prep := none }

/-- Record 0x008 (R547). `dam` tells the debug access master from the Shepherd. -/
def State.armRecord (s : State) (op r key reason : Nat) (dam : Bool) : State :=
  s.record (arSource r) 8 (op + r * 256 + key * 65536 + (if reason = 0 then 2 ^ 31 else 0)) reason (b2n dam) 0

/-- A refused arming operation. -/
def State.armRefuse (s : State) (op r key reason : Nat) (dam : Bool) : State :=
  (s.inc TR_ARM_REFUSED).armRecord op r key reason dam

/-- Is the trigger of an entry asserted: its group, or PWRFAIL_N low for AR16? -/
def State.arAsserted (s : State) (r : Nat) : Bool :=
  if r = 16 then s.pw.failLow else s.groupOn r

/-- Does the group of an entry name an input with an injection in progress? -/
def State.arInjecting (s : State) (r : Nat) : Bool :=
  r < 16 && (firstIdx (fun n => s.inGroup r n && (s.tripIn n).inj.isSome) 64).isSome

/-- The reason a TR_ARM write is refused, 0 when it is accepted (R215, R547); OP, ENTRY and KEY are judged first. -/
def State.armReason (s : State) (op r key : Nat) : Nat :=
  if op = 0 ∨ 4 < op then 2
  else if 16 < r then 3
  else if key ≠ (if op = 1 then 0x5A else if op = 4 then 0x3C else 0xA5) then 1
  else if op = 1 then 0
  else if op = 4 then (if !s.engaged r then 7 else if s.arAsserted r then 6 else 0)
  else if !s.windowOpen r then 4
  else if op = 3 then (if s.engaged r then 5 else 0)
  else if s.arInjecting r then 8
  else 0

/-- ARM accepted: an entry whose trigger is already asserted engages at once (R213); while the group's ACT is on its way, the stamp
comes with it. -/
def State.arArm (s : State) (r : Nat) : State :=
  let s := s.setFlag (AR_STAT r) fAR_STAT_ARMED true
  if !s.arAsserted r then s
  else if r = 16 then s.engage r s.now
  else if s.flag (TG_STAT r) fTG_STAT_ACT then s.engage r (s.reg64 (TG_STAMP_LO r) (TG_STAMP_HI r))
  else s.engageForce r

/-- A write of TR_ARM (R215). -/
def State.trArm (s : State) (op r key : Nat) (dam : Bool) : State :=
  let reason := s.armReason op r key
  let s := s.closeWindow
  if reason ≠ 0 then s.armRefuse op r key reason dam
  else if op = 1 then { s.setFlag (AR_STAT r) fAR_STAT_PREP true with si.prep := some (r, s.fc) }
  else if op = 2 then (s.armRecord op r key 0 dam).arArm r
  else if op = 3 then (s.armRecord op r key 0 dam).setFlag (AR_STAT r) fAR_STAT_ARMED false
  else (s.armRecord op r key 0 dam).setFlag (AR_STAT r) fAR_STAT_ENGAGED false

/-- The window closes 256 fc after its PREPARE. -/
def State.prepExpiry (s : State) : State :=
  match s.si.prep with
  | none => s
  | some (_, c) => if c + 256 ≤ s.fc then s.closeWindow else s

/-- Is a write to an AR_, TG_ or TR_CFG register locked by an armed entry (R216)? -/
def State.arLocked (s : State) (off : Nat) : Bool :=
  if 0x214000 ≤ off ∧ off < 0x214000 + 17 * 0x40 ∧ (off - 0x214000) % 0x40 < 0x1C then s.armed ((off - 0x214000) / 0x40)
  else if 0x212000 ≤ off ∧ off < 0x213000 ∧ (off - 0x212000) % 0x100 < 0xC then s.armed ((off - 0x212000) / 0x100)
  else if 0x210000 ≤ off ∧ off < 0x211000 ∧ off % 0x40 = 0 then s.inArmedGroup ((off - 0x210000) / 0x40)
  else false

/-- PWRFAIL_N falls: AR16 engages if it is armed (R212, R213). -/
def State.ar16 (s : State) : State := s.engage 16 s.now

end Sys2Proof.Machine
end

