-- ==== Sys2Proof/Machine/Gens.lean ====
section
/-!
DEFINITION. Waveform generators, the output crossbar and phase groups (08_waveform_generators.md R227 to R257).
-/

namespace Sys2Proof.Machine

def State.gen (s : State) (g : Nat) : Gen := tget (fun _ => ({} : Gen)) s.gens g
def State.setGen (s : State) (g : Nat) (x : Gen) : State := { s with gens := tset (fun _ => ({} : Gen)) s.gens g x }
def Gen.cmpOf (x : Gen) (i : Nat) : GenCmp := tget (fun _ => ({} : GenCmp)) x.cmps i
def State.setGenCmp (s : State) (g i : Nat) (c : GenCmp) : State :=
  s.setGen g { s.gen g with cmps := tset (fun _ => ({} : GenCmp)) (s.gen g).cmps i c }

/-- The physical generator that carries a logical one (R227). -/
def State.findGen (s : State) (l : Nat) : Option Nat :=
  firstIdx (fun g => s.flag (PW_MAP g) fPW_MAP_LVALID && s.fld (PW_MAP g) fPW_MAP_LOGICAL == l) 52

def State.genMode (s : State) (g : Nat) : Nat := s.fld (PW_CFG g) fPW_CFG_MODE
def State.genRun (s : State) (g : Nat) : Bool := s.flag (PW_STAT g) fPW_STAT_RUN
def State.genDown (s : State) (g : Nat) : Bool := s.flag (PW_STAT g) fPW_STAT_DIR
def State.genCnt (s : State) (g : Nat) : Nat := s.nat (PW_CNT g)
def State.genPer (s : State) (g : Nat) : Nat := s.nat (PW_PERIOD_ACT g)
def State.phen (s : State) (g : Nat) : Bool := s.flag (PW_CFG g) fPW_CFG_PHEN
def State.phgrp (s : State) (g : Nat) : Nat := s.fld (PW_CFG g) fPW_CFG_PHGRP
def State.phidx (s : State) (g : Nat) : Nat := s.fld (PW_CFG g) fPW_CFG_PHIDX

/-- The shadow period: PHG_PERIOD for a group member (R247). -/
def State.shadowPer (s : State) (g : Nat) : Nat :=
  if s.phen g then s.nat (PHG_PERIOD (s.phgrp g)) else s.nat (PW_PERIOD g)

/-- The event sources of a generator, with the payload of R546. -/
def State.genPayload (cause cmp src logical pe : Nat) : Nat × Nat :=
  (cause + cmp * 16 + src * 64 + logical * 65536, if src = 0 then pe else 0)

/-- A raise of a generator's own source, through its Hurdle (R461). -/
def State.genRaise (s : State) (g n p0 p1 : Nat) : State := s.hurdle 1 g (fun s => s.raise n p0 p1)

/-- LATE, PW_LATE_CNT and the event on the first one after LATE was clear (R244). -/
def State.genLate (s : State) (g cause cmp src logical pe : Nat) : State :=
  let seen := s.flag (PW_STAT g) fPW_STAT_LATE
  let s := (s.setFlag (PW_STAT g) fPW_STAT_LATE true).inc (PW_LATE_CNT g)
  let (p0, p1) := State.genPayload cause cmp src logical pe
  if seen then s else s.genRaise g (528 + 2 * g) p0 p1

/-- The SOC outputs driven by an event of the logical generator that g carries (R200). -/
def State.genSoc (s : State) (g sel : Nat) : State :=
  if s.flag (PW_MAP g) fPW_MAP_LVALID && s.socUses 1 (s.fld (PW_MAP g) fPW_MAP_LOGICAL) sel then
    s.hurdle 1 g (fun s => s.socSource 1 (s.fld (PW_MAP g) fPW_MAP_LOGICAL) sel)
  else s

/-! ### Outputs and dead time (R232, R234, R236) -/

/-- The dead times that a change of r at the instant t takes: those that its fc found (R234). -/
def State.deadTimes (s : State) (g out t : Nat) : Word :=
  let x := s.gen g
  if x.dtFc = s.fc + 1 ∧ t < 16 * (s.fc + 1) then x.dtOld.getD out 0 else s.reg (if out = 0 then PW_DT_A g else PW_DT_B g)

/-- A write of PW_DT_A or PW_DT_B: the fc's earlier values are kept. -/
def State.deadTimeWrite (s : State) (g off : Nat) (v : Word) : State :=
  let x := s.gen g
  let s := if x.dtFc = s.fc + 1 then s else s.setGen g { x with dtFc := s.fc + 1, dtOld := [s.reg (PW_DT_A g), s.reg (PW_DT_B g)] }
  s.setReg off v

/-- A change of r of one output appears behind its dead time: at once with a zero delay. -/
def State.stageEdge (s : State) (g out t : Nat) (v : Bool) : State :=
  let x := s.gen g
  if x.delay.any (fun e => e.out == out) then s.setGen g { x with delay := x.delay.filter (fun e => e.out != out) }
  else
    let st := if out = 0 then x.stA else x.stB
    if st = v then s
    else
      let w := s.deadTimes g out t
      let d := if v then bitsOf w.toNat 16 16 else bitsOf w.toNat 0 16
      if d = 0 then
        let x : Gen := if out = 0 then { x with stA := v } else { x with stB := v }
        s.setGen g { x with bound := x.bound ++ [⟨t + 64, out, v⟩] }
      else s.setGen g { x with delay := x.delay ++ [⟨t + d, out, v⟩] }

/-- A delayed change of an output whose dead time has passed by the instant t has left the stage. -/
def Gen.appear (x : Gen) (out t : Nat) : Gen :=
  match x.delay.find? (fun e => e.out == out && decide (e.due ≤ t)) with
  | none => x
  | some e =>
    let x : Gen := { x with delay := x.delay.filter (fun d => d.out != out), bound := x.bound ++ [⟨e.due + 64, out, e.level⟩] }
    if out = 0 then { x with stA := e.level } else { x with stB := e.level }

/-- The output as the instant t found it, kept when the instant's first change comes: of several actions at one instant only
the level that results leaves the stage (R231). -/
def Gen.atInstant (x : Gen) (out t : Nat) : Gen :=
  let p := if out = 0 then x.snapA else x.snapB
  if p.at_ = t + 1 then
    let x : Gen := { x with delay := x.delay.filter (fun e => e.out != out) ++ p.delay,
                            bound := x.bound.filter (fun e => e.out != out || e.due != t + 64) ++ p.bound }
    if out = 0 then { x with rA := p.r, stA := p.st } else { x with rB := p.r, stB := p.st }
  else
    let x := x.appear out t
    let p : GenSnap := ⟨t + 1, if out = 0 then x.rA else x.rB, if out = 0 then x.stA else x.stB,
      x.delay.filter (fun e => e.out == out), x.bound.filter (fun e => e.out == out && e.due == t + 64)⟩
    if out = 0 then { x with snapA := p } else { x with snapB := p }

/-- Set the raw level of an output at an instant. -/
def State.setRaw (s : State) (g out t : Nat) (v : Bool) : State :=
  if (if out = 0 then (s.gen g).rA else (s.gen g).rB) = v then s
  else
    let x := (s.gen g).atInstant out t
    let was := if out = 0 then x.rA else x.rB
    let s := s.setGen g (if out = 0 then { x with rA := v } else { x with rB := v })
    if was = v then s else s.stageEdge g out t v

/-- An action code on a level (R231). -/
def actLevel (code : Nat) (r : Bool) : Bool :=
  if code = 1 then false else if code = 2 then true else if code = 3 then !r else r

/-- Actions of one instant stand in the order of R231: matches of the direction that ends (CMPA to CMPD, 0 to 3), ZRO or PRD (4), matches
of the direction that begins (5 to 8). -/
def actInsert (a : Nat × Nat) : List (Nat × Nat) → List (Nat × Nat)
  | [] => [a]
  | b :: t => if a.1 < b.1 then a :: b :: t else b :: actInsert a t

/-- One more action of the instant t on both outputs: all of them apply anew, in order, to the levels that the instant found; with
BCOMP, B is the complement of A (R231, R234). `lo` is the action's field in PW_ACT_A and PW_ACT_B. -/
def State.genAction (s : State) (g key lo t : Nat) : State :=
  let x := s.gen g
  let x : Gen := if x.instAt = t + 1 then x else { x with instAt := t + 1, baseA := x.rA, baseB := x.rB, acts := [] }
  let x := { x with acts := actInsert (key, lo) x.acts }
  let level := fun (reg : Nat) (r : Bool) => x.acts.foldl (fun r e => actLevel (bitsOf (s.nat reg) e.2 2) r) r
  let a := level (PW_ACT_A g) x.baseA
  let b := if s.flag (PW_CFG g) fPW_CFG_BCOMP then !a else level (PW_ACT_B g) x.baseB
  ((s.setGen g x).setRaw g 0 t a).setRaw g 1 t b

/-- While a generator runs, BCOMP holds r of B at the complement of r of A (R234). -/
def State.genComp (s : State) (g t : Nat) : State :=
  if s.genRun g && s.flag (PW_CFG g) fPW_CFG_BCOMP && !(s.flag (PW_STAT g) fPW_STAT_FROZEN && s.fld (PW_CFG g) fPW_CFG_FRZ == 1) then
    s.setRaw g 1 t (!(s.gen g).rA)
  else s

/-- The levels of a stopped generator (R236). -/
def State.genStopLevels (s : State) (g t : Nat) : State :=
  (s.setRaw g 0 t (s.flag (PW_CFG g) fPW_CFG_RSTA)).setRaw g 1 t (s.flag (PW_CFG g) fPW_CFG_RSTB)

/-- A delayed change appears when its dead time has passed, and is on its way to the boundary (R232, R234). -/
def State.deadTime (s : State) (g out : Nat) : State :=
  let x := s.gen g
  match x.delay.find? (fun e => e.out == out && decide (e.due < 16 * (s.fc + 1))) with
  | none => s
  | some e =>
    let x : Gen := { x with delay := x.delay.filter (fun d => d.out != out), bound := x.bound ++ [⟨e.due + 64, out, e.level⟩] }
    s.setGen g (if out = 0 then { x with stA := e.level } else { x with stB := e.level })

/-- Changes reach the boundary 4 fc after the dead-time stage: those that fall before the end of fc `c`. -/
def Gen.boundary (x : Gen) (c : Nat) : Gen :=
  let due := x.bound.filter (fun e => decide (e.due < 16 * (c + 1)))
  let x := { x with bound := x.bound.filter (fun e => !decide (e.due < 16 * (c + 1))) }
  due.foldl (fun x e => if e.out = 0 then { x with outA := e.level } else { x with outB := e.level }) x

/-- Entry m of the crossbar as the present fc found it: a write takes effect at the edge that ends the fc (R235). -/
def State.xbarShown (s : State) (m : Nat) : Nat :=
  match s.xbarOld.find? (fun e => e.1 == m) with
  | some e => e.2.toNat
  | none => s.nat (PW_XBAR m)

/-- A write of a crossbar entry. -/
def State.xbarWrite (s : State) (off m : Nat) (v : Word) : State :=
  let s := if s.xbarOld.any (fun e => e.1 == m) then s else { s with xbarOld := s.xbarOld ++ [(m, s.reg (PW_XBAR m))] }
  s.setReg off v

/-- The level of PWMOUTm and its enable behind the crossbar (R235, R236); a fenced generator drives low, disabled (R461). -/
def State.xbarOut (s : State) (m : Nat) : Bool × Bool :=
  let x := s.xbarShown m
  let src := fPW_XBAR_SRC.of x
  let off := decide (51 < src) || s.fenced 1 src || s.underTest 1 src
  let lvl := if off then false
    else (if fPW_XBAR_SEL.of x = 1 then (s.gen src).outB else (s.gen src).outA) != (fPW_XBAR_INV.of x == 1)
  (lvl && !off, fPW_XBAR_OE.of x == 1 && !(decide (src < 52) && off))

/-- Does entry r name PWMOUTm? -/
def State.arNames (s : State) (r m : Nat) : Bool := bitOf (s.nat (AR_OUT r (m / 32))) (m % 32)

/-- The pin PWMOUTm: its level and its enable, after the armed responses (R212, R217, R236, R237); ISO drives it low in Fold
(21_integration_ports.md R536). -/
def State.pwmOut (s : State) (m : Nat) : Bool × Bool :=
  if s.pw.iso = true then (false, false) else
  let hits := (List.range 17).filter (fun r => s.engaged r && s.arNames r m)
  if hits.any (fun r => s.flag (AR_CFG r) fAR_CFG_OEOFF) then (false, false)
  else match hits.head? with
    | some r => (bitOf (s.nat (AR_LVL r (m / 32))) (m % 32), true)
    | none =>
      let (l, oe) := s.xbarOut m
      (l && oe, oe)

/-! ### Reloads (R242 to R246) -/

/-- The shadow that a reload at the edge that ended fc r takes: the writes accepted up to fc r - 1. -/
def State.reloadValue (s : State) (g i r : Nat) : Word :=
  let c := (s.gen g).cmpOf i
  if c.oldFc = r + 1 then c.old else s.reg (PW_CMP g i)

/-- One compare at a reload edge that ended fc r: the timed transfer of that fc keeps its value (R246), a next-reload write
accepted in it is late (R244). -/
def State.reloadCmp (s : State) (g r i : Nat) : State :=
  let c := (s.gen g).cmpOf i
  let s := if c.timed = r + 1 then s else s.setReg (PW_CMP_ACT g i) (s.reloadValue g i r)
  if c.oldFc = r + 1 ∧ c.nextRld = true then
    (s.setGenCmp g i { c with nextRld := false }).genLate g 2 i c.src c.logical c.pe
  else s

/-- The reload of the compares, its event and its SOC instant (R242, R254). -/
def State.genReload (s : State) (g r : Nat) : State :=
  let s := s.reloadCmp g r 0 |>.reloadCmp g r 1 |>.reloadCmp g r 2 |>.reloadCmp g r 3
  let s := s.genSoc g 1
  if s.flag (PW_CFG g) fPW_CFG_RLEV then s.genRaise g (529 + 2 * g) 0 0 else s

/-- The active period takes its shadow as of fc r - 1; a write of the fc r is late (R242, R244). -/
def State.loadPeriod (s : State) (g r : Nat) : State :=
  if s.phen g then s
  else
    let x := s.gen g
    if x.perFc = r + 1 then (s.setReg (PW_PERIOD_ACT g) x.perOld).genLate g 2 0 x.perSrc (s.fld (PW_MAP g) fPW_MAP_LOGICAL) 0
    else s.setReg (PW_PERIOD_ACT g) (s.reg (PW_PERIOD g))

/-- Is ZRO, or PRD, a reload point of the mode (R228)? -/
def State.reloadsAtZro (s : State) (g : Nat) : Bool :=
  s.genMode g == 0 || (s.genMode g == 2 &&
    (s.flag (PW_CFG g) fPW_CFG_RLDZ || !s.flag (PW_CFG g) fPW_CFG_RLDP))
def State.reloadsAtPrd (s : State) (g : Nat) : Bool :=
  s.genMode g == 1 || (s.genMode g == 2 && s.flag (PW_CFG g) fPW_CFG_RLDP)

/-! ### Phase groups (R247 to R250) -/

/-- The carrier period in fc (R228). -/
def carrier (mode per : Nat) : Nat := if mode = 2 then 2 * per else per + 1

/-- The counter and direction `o` fc after the carrier's start. -/
def positionAt (mode per o : Nat) : Nat × Bool :=
  if mode = 0 then (o, false)
  else if mode = 1 then (per - o, true)
  else if o < per then (o, false) else (2 * per - o, true)

/-- The fc since the carrier's start of a counter and direction. -/
def phaseOf (mode per cnt : Nat) (down : Bool) : Nat :=
  if mode = 0 then cnt else if mode = 1 then per - cnt else if down then 2 * per - cnt else cnt

/-- The signed move between two phases, the shorter way round the carrier (log entry 18). -/
def phaseMove (p was now : Nat) : Int :=
  let d : Int := (now : Int) - (was : Int)
  if (p : Int) < 2 * d then d - p else if 2 * d < -(p : Int) then d + p else d

/-! The shadow pair of 18_reserve_and_service_life.md R460 -/

def State.scOn (s : State) : Bool := s.flag RS_SC_CTRL fRS_SC_CTRL_EN
def State.scActive (s : State) : Nat := s.fld RS_SC_CTRL fRS_SC_CTRL_ACTIVE
def State.scShadow (s : State) : Nat := s.fld RS_SC_CTRL fRS_SC_CTRL_SHADOW

/-- The generator paired with g as its shadow, once it has taken g's state. -/
def State.shadowOf (s : State) (g : Nat) : Option Nat :=
  if s.scOn && s.flag RS_SC_STAT fRS_SC_STAT_SYNCED && s.scActive == g then some s.scShadow else none

/-- An action delivered to generator g is delivered to its shadow in the same fc. -/
def State.toGen (s : State) (g : Nat) (act : Nat → State → State) : State :=
  let s := act g s
  match s.shadowOf g with
  | some h => act h s
  | none => s

/-- One running member at a sync: it takes the sync position of index `idx`, and the group's period where one is to be taken (R248, R249);
one whose start waits for the sync starts there (R251). A member that lands on 0 or PERIOD has its ZRO or PRD edge there. -/
def State.syncMember (s : State) (j : Nat) (newPer : Word) (taken : Bool) (idx g : Nat) : State :=
  let mode := s.genMode g
  let start := (s.gen g).groupStart
  let was := phaseOf mode (s.genPer g) (s.genCnt g) (s.genDown g)
  let changed := start || taken || s.reg (PW_PERIOD_ACT g) != newPer
  let s := if start then
      let s := s.setGen g { s.gen g with groupStart := false }
      (s.setFlag (PW_STAT g) fPW_STAT_TSTART false).setFlag (PW_STAT g) fPW_STAT_RUN true
    else s
  let s := if changed then (s.setReg (PW_PERIOD_ACT g) newPer).genReload g (s.fc - 1) else s
  let per := s.genPer g
  let p := carrier mode per
  let o := p * idx / (s.fld (PHG_CFG j) fPHG_CFG_N)
  let mv := phaseMove p was o
  let (cnt, down) := positionAt mode per o
  let s := (s.setNat (PW_CNT g) cnt).setFlag (PW_STAT g) fPW_STAT_DIR down
  let x := s.gen g
  if start then
    (s.setGen g { x with zroDue := cnt == 0, prdDue := cnt == per, startEdge := cnt == 0 || cnt == per }).genComp g (16 * s.fc)
  else
    let s := s.setReg (PW_SYNC_LAST g) (intWord mv)
    if mv = 0 then (if changed then s.setGen g { x with startEdge := x.zroDue || x.prdDue } else s)
    else (s.inc (PW_SYNC_ADJ_CNT g)).setGen g
      { x with zroDue := cnt == 0, prdDue := cnt == per, startEdge := changed && (cnt == 0 || cnt == per) }

/-- A sync of group j delivered to generator g, with the index of the member it goes to; `src` says of the source member whether its edge
has reloaded already, and is none for the others (R248). With a PHG_PERIOD to be taken every member, a stopped or frozen one too,
takes the period and reloads its compares (R249). -/
def State.memberSync (s : State) (j : Nat) (newPer : Word) (late taken : Bool) (src : Option Bool) (idx g : Nat) : State :=
  let s := if late then s.genLate g 2 0 2 (s.fld (PW_MAP g) fPW_MAP_LOGICAL) 0 else s
  match src with
  | some reloaded =>
    let s := s.setReg (PW_PERIOD_ACT g) newPer
    if taken && !reloaded then s.genReload g (s.fc - 1) else s
  | none =>
    if (s.genRun g && !s.flag (PW_STAT g) fPW_STAT_FROZEN) || (s.gen g).groupStart then s.syncMember j newPer taken idx g
    else if taken then (s.setReg (PW_PERIOD_ACT g) newPer).genReload g (s.fc - 1)
    else s

/-- The group's period as the edge that ended fc `c` finds it: a write of that fc misses the edge (R249). -/
def State.phgPer (s : State) (j c : Nat) : Word :=
  let (ph, pold) := tget (fun _ => (0, (0 : Word))) s.phOld j
  if ph = c + 1 then pold else s.reg (PHG_PERIOD j)

def State.inPhase (s : State) (j g : Nat) : Bool := s.phen g && s.phgrp g == j

/-- A sync of group j from source member `src` (52 for a timed sync), whose own edge has reloaded its compares if `reloaded` (R248); a
member's shadow gets it too (R460). -/
def State.groupSync (s : State) (j src : Nat) (reloaded : Bool) : State :=
  let s := s.inc (PHG_SYNC_CNT j)
  let late := (tget (fun _ => (0, (0 : Word))) s.phOld j).1 == s.fc
  let newPer := s.phgPer j (s.fc - 1)
  let taken := tget (fun _ => false) s.phNew j && !late
  let s := if taken then { s with phNew := tset (fun _ => false) s.phNew j false } else s
  let role := fun g => if g = src then some reloaded else none
  forN (fun g s =>
    if s.inPhase j g then
      let s := s.memberSync j newPer late taken (role g) (s.phidx g) g
      match s.shadowOf g with
      | some h => if s.inPhase j h then s else s.memberSync j newPer late taken (role g) (s.phidx g) h
      | none => s
    else s) 52 s

/-- PHG_TIME is reached: a sync at the edge that ends the fc, and the time advances by PHG_TPER (R248). -/
def State.phgTime (s : State) (j : Nat) : State :=
  let t := s.reg64 (PHG_TIME_LO j) (PHG_TIME_HI j)
  if s.flag (PHG_CFG j) fPHG_CFG_EN && s.fld (PHG_CFG j) fPHG_CFG_SRC == 1 && reached t s.now
      && (tget (fun _ => false) s.phDone j == false) then
    let per := s.nat (PHG_TPER j)
    let s := if per = 0 then { s with phDone := tset (fun _ => false) s.phDone j true }
      else s.setReg64 (PHG_TIME_LO j) (PHG_TIME_HI j) (t + BitVec.ofNat 64 per)
    { s with phDue := s.phDue ++ [j] }
  else s

/-! ### ZRO, PRD and matches (R228 to R233) -/

/-- The counter has taken 0: period and compares reload where the mode says so, the ZRO actions apply, an option-1 freeze
takes hold, a group synchronised by this member syncs. -/
def State.zro (s : State) (g : Nat) : State :=
  let x := s.gen g
  if s.genRun g && x.zroDue then
    let start := x.startEdge
    let s := s.setGen g { x with zroDue := false, startEdge := false }
    let r := s.fc - 1
    let s := if start then s
      else
        let s := if s.genMode g = 1 then s else s.loadPeriod g r
        if s.reloadsAtZro g then s.genReload g r else s
    let s := s.genSoc g 0
    let s := s.genAction g 4 fPW_ACT_A_ZRO.lo (16 * s.fc)
    let s := if (s.gen g).freeze && s.fld (PW_CFG g) fPW_CFG_FRZ == 1 then
        (s.setFlag (PW_STAT g) fPW_STAT_FROZEN true).genStopLevels g (16 * s.fc)
      else s
    if s.phen g && s.flag (PHG_CFG (s.phgrp g)) fPHG_CFG_EN && s.fld (PHG_CFG (s.phgrp g)) fPHG_CFG_SRC == 0
        && s.phidx g == 0 then s.groupSync (s.phgrp g) g (start || s.reloadsAtZro g) else s
  else s

/-- The counter has taken PERIOD: in DOWN the period loads here and the counter takes it. -/
def State.prd (s : State) (g : Nat) : State :=
  let x := s.gen g
  if s.genRun g && x.prdDue then
    let start := x.startEdge
    let s := s.setGen g { x with prdDue := false, startEdge := false }
    let r := s.fc - 1
    let s := if start then s
      else
        let s := if s.genMode g = 1 then
            let s := s.loadPeriod g r
            s.setReg (PW_CNT g) (s.reg (PW_PERIOD_ACT g))
          else s
        if s.reloadsAtPrd g then s.genReload g r else s
    s.genAction g 4 fPW_ACT_A_PRD.lo (16 * s.fc)
  else s

/-- The match fields of the action registers. -/
def matchFld (i : Nat) (up : Bool) : Fld := ⟨4 + 4 * i + (if up then 0 else 2), 2⟩

/-- Does the position take the compare's value in the present fc, in that direction (R230)? In sixteenths from the fc's
start when it does. -/
def State.matchAt (s : State) (g i : Nat) (up : Bool) : Option Nat :=
  let c := s.nat (PW_CMP_ACT g i)
  let n := 16 * s.genCnt g
  let turn := s.genMode g == 2
  if s.genDown g then
    if up then (if turn && c == n && s.genCnt g == s.genPer g then some 0 else none)
    else if c ≤ n ∧ n < c + 16 then some (n - c) else none
  else if up then (if n ≤ c ∧ c < n + 16 then some (c - n) else none)
  else if turn && c == n && s.genCnt g == 0 then some 0 else none

/-- The place of a match of compare i among the actions of its instant (R231): at a turn of UPDOWN, a match of the direction that ends
comes before ZRO or PRD. -/
def State.matchKey (s : State) (g i d : Nat) (up : Bool) : Nat :=
  let n := s.genCnt g
  if s.genMode g = 2 ∧ d = 0 ∧ ((n = 0 ∧ up = false) ∨ (n = s.genPer g ∧ up = true)) then i else 5 + i

/-- A compare match and its output actions. -/
def State.cmpMatch (s : State) (g i : Nat) (up : Bool) : State :=
  let x := s.gen g
  if s.genRun g && !s.flag (PW_STAT g) fPW_STAT_FROZEN && !x.matched.contains (i, up) then
    match s.matchAt g i up with
    | none => s
    | some d =>
      let s := s.setGen g { x with matched := (i, up) :: x.matched }
      let s := s.genSoc g (2 + i)
      s.genAction g (s.matchKey g i d up) (matchFld i up).lo (16 * s.fc + d)
  else s

/-! ### Duty writes (R238 to R246) -/

/-- A write received (R240): discarded as stale (one of an old incarnation counts with its flock, R373), refused as poisoned, or left to wait for its acceptance. -/
def State.dutyReceive (s : State) (g : Nat) (w : DutyWrite) : State :=
  let src := (State.genPayload 0 w.cmp w.src w.logical w.pe)
  if w.inc ≠ s.flockInc (s.fld (PW_MAP g) fPW_MAP_FLOCK) ∨ w.logical ≠ s.fld (PW_MAP g) fPW_MAP_LOGICAL
      ∨ s.flag (PW_MAP g) fPW_MAP_LVALID = false then
    let seen := s.flag (PW_STAT g) fPW_STAT_STALE
    let s := (s.setFlag (PW_STAT g) fPW_STAT_STALE true).inc (PW_STALE_CNT g)
    let s := if w.inc = s.flockInc (s.fld (PW_MAP g) fPW_MAP_FLOCK) then s else s.inc (FLK_STALE_CNT (s.fld (PW_MAP g) fPW_MAP_FLOCK))
    if seen then s else s.genRaise g (528 + 2 * g) (4 + src.1) src.2
  else if w.poison then
    let s := (s.setFlag (PW_STAT g) fPW_STAT_POIS true).inc (PW_POISON_CNT g)
    let s := s.genRaise g (528 + 2 * g) (1 + src.1) src.2
    s.record (528 + 2 * g) 5 (lo32 w.stamp) (hi32 w.stamp)
      (w.cmp + w.mode * 16 + w.src * 64 + (if w.src = 0 then w.pe else 0) * 256) w.logical
  else s.setGen g { s.gen g with waiting := (s.gen g).waiting ++ [{ w with rcv := s.fc }] }

/-- The conversion of R241: the value, and whether it was clamped. -/
def fmt1Convert (f : Int) (span : Nat) : Nat × Bool :=
  if f < 0 then (0, true) else ((f.toNat * span * 16 * 2 + 2 ^ 31) / 2 ^ 32, false)

/-- The compare value of a write at acceptance (R241). -/
def State.dutyValue (s : State) (g : Nat) (w : DutyWrite) : Word × State :=
  if w.fmt1 then
    let per := if w.mode = 0 then s.genPer g else s.shadowPer g
    let span := if s.genMode g = 2 then per else per + 1
    let (v, cl) := fmt1Convert (sInt w.value) span
    (.ofNat 32 v, if cl then (s.setFlag (PW_STAT g) fPW_STAT_CLAMP true).inc (PW_CLAMP_CNT g) else s)
  else (w.value, s)

/-- The shadow takes a write accepted in the present fc. -/
def State.shadowWrite (s : State) (g : Nat) (w : DutyWrite) (v : Word) (nx : Bool) : State :=
  let c := (s.gen g).cmpOf w.cmp
  let s := s.setGenCmp g w.cmp { c with old := s.reg (PW_CMP g w.cmp), oldFc := s.fc + 1, nextRld := nx, src := w.src, logical := w.logical, pe := w.pe }
  s.setReg (PW_CMP g w.cmp) v

/-- An accepted write under its apply mode (R243 to R245). -/
def State.dutyApply (s : State) (g : Nat) (w : DutyWrite) (v : Word) : State :=
  if w.mode = 0 then
    let s := s.shadowWrite g w v false
    s.setGen g { s.gen g with transfers := (s.gen g).transfers ++ [⟨s.fc + 2, w.cmp, v⟩] }
  else if w.mode = 1 then s.shadowWrite g w v true
  else if reached w.time s.now then (s.shadowWrite g w v false).genLate g 2 w.cmp w.src w.logical w.pe
  else
    let t := s.fld (PW_STAT g) fPW_STAT_TPEND
    let s := if bitOf t w.cmp then s.inc (PW_REPLACE_CNT g) else s
    let s := s.setFld (PW_STAT g) fPW_STAT_TPEND (t ||| 2 ^ w.cmp)
    (s.setReg (PW_TPEND_VAL g w.cmp) v).setReg64 (PW_TPEND_TIME_LO g w.cmp) (PW_TPEND_TIME_HI g w.cmp) w.time

/-- A generator accepts one waiting write per fc, in the fc after its receipt (R239). -/
def State.dutyAccept (s : State) (g : Nat) : State :=
  match (s.gen g).waiting with
  | [] => s
  | w :: t =>
    if w.rcv < s.fc ∧ (s.gen g).accepted ≠ s.fc + 1 then
      let s := s.setGen g { s.gen g with waiting := t, accepted := s.fc + 1 }
      let s := (s.inc (PW_ACCEPT_CNT g)).setReg64 (PW_LAST_STAMP_LO g) (PW_LAST_STAMP_HI g) w.stamp
      let (v, s) := s.dutyValue g w
      s.dutyApply g w v
    else s

/-- The apply-time of a pending slot is reached: shadow and active take the value at the edge that ends the fc (R245); the
shadow keeps a write accepted in the same fc (R246). -/
def State.timedTransfer (s : State) (g i : Nat) : State :=
  let t := s.fld (PW_STAT g) fPW_STAT_TPEND
  if bitOf t i && reached (s.reg64 (PW_TPEND_TIME_LO g i) (PW_TPEND_TIME_HI g i)) s.now then
    let v := s.reg (PW_TPEND_VAL g i)
    let c := (s.gen g).cmpOf i
    let s := if c.oldFc = s.fc + 1 then s else s.setReg (PW_CMP g i) v
    let s := s.setGenCmp g i { (s.gen g).cmpOf i with timed := s.fc + 1 }
    let s := s.setGen g { s.gen g with transfers := (s.gen g).transfers ++ [⟨s.fc, i, v⟩] }
    s.setFld (PW_STAT g) fPW_STAT_TPEND (t - 2 ^ i)
  else s

/-- A register duty write (R238): it carries the generator's flock incarnation, or the engine's. -/
def State.regDuty (s : State) (g cmp : Nat) (v : Word) (fmt1 : Bool) (mode : Nat) (t : Stamp) (src pe : Nat) (inc : Nat) : State :=
  s.dutyReceive g { cmp := cmp, value := v, fmt1 := fmt1, mode := mode, time := t, inc := inc, logical := s.fld (PW_MAP g) fPW_MAP_LOGICAL, stamp := s.now, src := src, pe := pe }

/-- PW_DW_CTRL.GO (R238): MODE 3 sends nothing and is counted. -/
def State.dwGo (s : State) (g src pe inc : Nat) : State :=
  let mode := s.fld (PW_DW_CTRL g) fPW_DW_CTRL_MODE
  if mode = 3 then s.inc (PW_CFG_REFUSED g)
  else s.regDuty g (s.fld (PW_DW_CTRL g) fPW_DW_CTRL_CMP) (s.reg (PW_DW_VAL g)) (s.flag (PW_DW_CTRL g) fPW_DW_CTRL_FMT) mode
    (s.reg64 (PW_DW_TIME_LO g) (PW_DW_TIME_HI g)) src pe inc

/-- A PWD write on its way: it is received in the next fc (R239), in the order of physical engines. -/
def insertSent (w : DutyWrite) : List DutyWrite → List DutyWrite
  | [] => [w]
  | x :: t => if w.rcv = x.rcv ∧ w.pe < x.pe then w :: x :: t else x :: insertSent w t
def State.pwdSend (s : State) (g : Nat) (w : DutyWrite) : State :=
  s.setGen g { s.gen g with sent := insertSent { w with rcv := s.fc + 1 } (s.gen g).sent }

/-! ### Start, stop, freeze (R251 to R253) -/

/-- The start edge, which ended fc `c`: initial position, period and compares from their shadows, a reload. -/
def State.genStart (s : State) (g c : Nat) : State :=
  let s := s.setGen g { s.gen g with startAt := none, startEdge := true }
  let s := (s.setFlag (PW_STAT g) fPW_STAT_RUN true).setFlag (PW_STAT g) fPW_STAT_TSTART false
  let s := if s.phen g then s.setReg (PW_PERIOD_ACT g) (s.phgPer (s.phgrp g) c) else s.loadPeriod g c
  let per := s.reg (PW_PERIOD_ACT g)
  let s := s.genReload g c
  if s.genMode g = 1 then
    let s := (s.setReg (PW_CNT g) per).setFlag (PW_STAT g) fPW_STAT_DIR true
    s.setGen g { s.gen g with prdDue := true, zroDue := false }
  else
    let s := (s.setNat (PW_CNT g) 0).setFlag (PW_STAT g) fPW_STAT_DIR false
    s.setGen g { s.gen g with zroDue := true, prdDue := false }

/-- Does the flock of a unit lack CLEAN, so that a start or enable is refused (R375)? -/
def State.notClean (s : State) (f : Nat) : Bool := !s.flag (FLK_STAT f) fFLK_STAT_CLEAN

/-- PW_CTRL START: at the edge that ends the fc after the write; a group member with k not 0 waits for the next sync. -/
def State.genStartCmd (s : State) (g : Nat) : State :=
  if s.notClean (s.fld (PW_MAP g) fPW_MAP_FLOCK) then s.inc (PW_CFG_REFUSED g)
  else if s.phen g && s.phidx g != 0 then
    (s.setFlag (PW_STAT g) fPW_STAT_TSTART true).setGen g { s.gen g with groupStart := true }
  else s.setGen g { s.gen g with startAt := some (s.fc + 1) }

/-- PW_CTRL START at PW_START_TIME: a time already reached starts late. -/
def State.genStartTime (s : State) (g : Nat) : State :=
  if s.notClean (s.fld (PW_MAP g) fPW_MAP_FLOCK) then s.inc (PW_CFG_REFUSED g)
  else if reached (s.reg64 (PW_START_TIME_LO g) (PW_START_TIME_HI g)) s.now then
    (s.genStartCmd g).genLate g 3 0 0 (s.fld (PW_MAP g) fPW_MAP_LOGICAL) 0
  else s.setFlag (PW_STAT g) fPW_STAT_TSTART true

/-- PW_START_TIME is reached: the start takes place at the edge that ends this fc. -/
def State.genTimedStart (s : State) (g : Nat) : State :=
  if s.flag (PW_STAT g) fPW_STAT_TSTART && !(s.gen g).groupStart
      && reached (s.reg64 (PW_START_TIME_LO g) (PW_START_TIME_HI g)) s.now then
    if s.phen g && s.phidx g != 0 then s.setGen g { s.gen g with groupStart := true }
    else s.setGen g { s.gen g with startAt := some s.fc }
  else s

/-- Starts that are pending are cancelled. -/
def State.cancelStart (s : State) (g : Nat) : State :=
  (s.setFlag (PW_STAT g) fPW_STAT_TSTART false).setGen g { s.gen g with startAt := none, groupStart := false }

/-- The generator stops: the counter holds, the outputs take their levels at the instant t; pending slots are kept. -/
def State.genHold (s : State) (g t : Nat) : State :=
  let s := s.setFlag (PW_STAT g) fPW_STAT_RUN false
  (s.setGen g { s.gen g with stopAt := none, zroDue := false, prdDue := false, startEdge := false }).genStopLevels g t

/-- The generator stops at once. -/
def State.genHalt (s : State) (g : Nat) : State := (s.cancelStart g).genHold g (16 * (s.fc + 1))

/-- PW_CTRL STOP: at the edge that ends the fc (R251). -/
def State.genStop (s : State) (g : Nat) : State :=
  let s := s.cancelStart g
  s.setGen g { s.gen g with stopAt := some s.fc }

/-- A freeze request (R252). -/
def State.genFreeze (s : State) (g : Nat) : State :=
  let f := s.fld (PW_CFG g) fPW_CFG_FRZ
  if f = 0 then s
  else
    let s := s.setGen g { s.gen g with freeze := true }
    if f = 2 then s.setFlag (PW_STAT g) fPW_STAT_FROZEN true else s

/-- The freeze ends. -/
def State.genUnfreeze (s : State) (g : Nat) : State :=
  ((s.setGen g { s.gen g with freeze := false }).setFlag (PW_STAT g) fPW_STAT_FROZEN false).genComp g (16 * (s.fc + 1))

/-- A flock reset of the generators and the crossbar entries they drive (R253). -/
def State.genFlockReset (s : State) (f : Nat) : State :=
  let s := forN (fun g s =>
    if s.fld (PW_MAP g) fPW_MAP_FLOCK = f then
      (s.genHalt g).setFld (PW_STAT g) fPW_STAT_TPEND 0
    else s) 52 s
  (s.regs.filterMap (fun e => if 0x23C000 ≤ e.1 ∧ e.1 < 0x23C180 then some ((e.1 - 0x23C000) / 4) else none)).foldl
    (fun s m =>
      let src := s.fld (PW_XBAR m) fPW_XBAR_SRC
      if src < 52 ∧ s.fld (PW_MAP src) fPW_MAP_FLOCK = f then
        State.setFld { s with xbarOld := s.xbarOld.filter (fun e => e.1 != m) } (PW_XBAR m) fPW_XBAR_OE (s.fld (PW_XBAR m) fPW_XBAR_FOE)
      else s) s

/-! ### Register writes -/

/-- Would another physical generator hold the same logical number (R227)? -/
def State.genDup (s : State) (g : Nat) (v : Word) : Bool :=
  bitOf v.toNat 6 && (firstIdx (fun h => h != g && s.flag (PW_MAP h) fPW_MAP_LVALID
    && s.fld (PW_MAP h) fPW_MAP_LOGICAL == bitsOf v.toNat 0 6) 52).isSome

/-- A write of PW_MAP: refused for a duplicate, and while the unit runs when it changes the flock (R227, R371). -/
def State.pwMapWrite (s : State) (g : Nat) (v : Word) : State :=
  if s.genDup g v || (s.genRun g && bitsOf v.toNat 8 4 != s.fld (PW_MAP g) fPW_MAP_FLOCK) then s.inc (PW_CFG_REFUSED g)
  else s.setReg (PW_MAP g) v

/-- Does a configuration break the rule of an enabled group (R247)? -/
def State.groupBroken (s : State) (g : Nat) (v : Word) : Bool :=
  let j := bitsOf v.toNat 20 4
  let k := bitsOf v.toNat 24 6
  bitOf v.toNat 19 && s.flag (PHG_CFG j) fPHG_CFG_EN &&
    (decide (s.fld (PHG_CFG j) fPHG_CFG_N ≤ k) ||
     (firstIdx (fun h => h != g && s.phen h && s.phgrp h == j &&
       (s.phidx h == k || s.genMode h != bitsOf v.toNat 0 2)) 52).isSome)

/-- A write of PW_CFG (R228, R247, R252, R255); a stopped generator takes its levels from it (R236). -/
def State.pwCfgWrite (s : State) (g : Nat) (v : Word) : State :=
  let old := s.nat (PW_CFG g)
  let prot := fun n => (bitsOf n 0 2, bitsOf n 19 5, bitsOf n 24 6)
  let v := if bitsOf v.toNat 12 2 = 3 then BitVec.ofNat 32 (withBits v.toNat 12 2 2) else v
  if bitsOf v.toNat 0 2 = 3 then s.inc (PW_CFG_REFUSED g)
  else if prot old ≠ prot v.toNat ∧ (s.genRun g = true ∨ s.groupBroken g v = true) then s.inc (PW_CFG_REFUSED g)
  else
    let s := s.setReg (PW_CFG g) v
    if s.genRun g then s.genComp g (16 * (s.fc + 1)) else s.genStopLevels g (16 * (s.fc + 1))

/-- A write of PW_PERIOD (R229): below 4 stores 4; the old shadow is kept for the late rule, with the write's source (R546). -/
def State.pwPeriodWrite (s : State) (g src : Nat) (v : Word) : State :=
  let low := v.toNat < 4
  let s := if low then s.inc RC_RSVD_WRITES else s
  let s := s.setGen g { s.gen g with perOld := if (s.gen g).perFc = s.fc + 1 then (s.gen g).perOld else s.reg (PW_PERIOD g), perFc := s.fc + 1, perSrc := src }
  s.setReg (PW_PERIOD g) (if low then 4 else v)

/-- A write of PHG_CFG (R257). -/
def State.phgCfgWrite (s : State) (j : Nat) (v : Word) : State :=
  let badSrc := 2 ≤ bitsOf v.toNat 8 2
  let badN := bitsOf v.toNat 0 6 = 0 ∨ 48 < bitsOf v.toNat 0 6
  let n := if badSrc then withBits v.toNat 8 2 0 else v.toNat
  let n := if badN then withBits n 0 6 1 else n
  let s := if badSrc ∨ badN then s.inc RC_RSVD_WRITES else s
  s.setNat (PHG_CFG j) n

/-- A write of PHG_PERIOD (R229, R249). -/
def State.phgPeriodWrite (s : State) (j : Nat) (v : Word) : State :=
  let low := v.toNat < 4
  let s := if low then s.inc RC_RSVD_WRITES else s
  let (ph, pold) := tget (fun _ => (0, (0 : Word))) s.phOld j
  let old := if ph = s.fc + 1 then pold else s.reg (PHG_PERIOD j)
  let s := { s with phOld := tset (fun _ => (0, (0 : Word))) s.phOld j (s.fc + 1, old), phNew := tset (fun _ => false) s.phNew j true }
  s.setReg (PHG_PERIOD j) (if low then 4 else v)

/-- A write of PHG_TIME arms a one-sync group again. -/
def State.phgTimeWrite (s : State) (off j : Nat) (v : Word) : State :=
  { s.setReg off v with phDone := tset (fun _ => false) s.phDone j false }

/-! ### The fc edge -/

/-- The counter of a running generator at a rising CLK_FAST edge (R228). -/
def State.genCount (s : State) (g : Nat) : State :=
  let n := s.genCnt g
  let per := s.genPer g
  let mode := s.genMode g
  let x : Gen := { s.gen g with startEdge := false }
  if mode = 0 then
    let n' := if per ≤ n then 0 else n + 1
    (s.setNat (PW_CNT g) n').setGen g { x with zroDue := n' == 0, prdDue := n' == per }
  else if mode = 1 then
    let n' := if n = 0 then per else n - 1
    (s.setNat (PW_CNT g) n').setGen g { x with zroDue := n' == 0, prdDue := n == 0 }
  else if s.genDown g then
    let n' := n - 1
    ((s.setNat (PW_CNT g) n').setFlag (PW_STAT g) fPW_STAT_DIR (n' != 0)).setGen g { x with zroDue := n' == 0 }
  else
    let n' := n + 1
    ((s.setNat (PW_CNT g) n').setFlag (PW_STAT g) fPW_STAT_DIR (decide (per ≤ n'))).setGen g { x with prdDue := decide (per ≤ n') }

/-- The edge that ends fc `c` for one generator: values that active compares take, the counter, a start, PWD writes received,
changes that reach the boundary. `s.fc` is already c + 1. -/
def State.genEdge (s : State) (c g : Nat) : State :=
  let ts := (s.gen g).transfers.filter (fun t => t.fc == c)
  let s := ts.foldl (fun s t => s.setReg (PW_CMP_ACT g t.cmp) t.value) s
  let s := s.setGen g { s.gen g with transfers := (s.gen g).transfers.filter (fun t => t.fc != c), matched := [] }
  let s := if (s.gen g).stopAt = some c then s.genHold g (16 * s.fc) else s
  let s := if s.genRun g && !s.flag (PW_STAT g) fPW_STAT_FROZEN then s.genCount g else s
  let s := if (s.gen g).startAt = some c then s.genStart g c else s
  let ws := (s.gen g).sent.filter (fun w => w.rcv == s.fc)
  let s := s.setGen g { s.gen g with sent := (s.gen g).sent.filter (fun w => w.rcv != s.fc) }
  let s := ws.foldl (fun s w => s.dutyReceive g w) s
  s.setGen g ((s.gen g).boundary s.fc)

/-- The generators that are running or hold something: the others do not change at an edge. -/
def State.listedGens (s : State) : List Nat :=
  (List.range 52).filter (fun g => s.genRun g || !decide (s.gen g = {}))

/-- Every generator at the edge that ends fc `c`, and the groups whose sync time was reached in it (R248). -/
def State.gensEdge (s : State) (c : Nat) : State :=
  let s := s.listedGens.foldl (fun s g => s.genEdge c g) s
  let due := s.phDue
  due.foldl (fun s j => s.groupSync j 52 false) { s with phDue := [], xbarOld := [] }

end Sys2Proof.Machine
end

