-- ==== Sys2Proof/Machine/Timers.lean ====
section
/-!
DEFINITION. Gated timers (09_gated_timers.md R258 to R272): gates, compares, captures, groups, slow advance.
-/

namespace Sys2Proof.Machine

def State.tim (s : State) (t : Nat) : Tim := tget (fun _ => ({} : Tim)) s.tims t
def State.setTim (s : State) (t : Nat) (x : Tim) : State := { s with tims := tset (fun _ => ({} : Tim)) s.tims t x }
def State.timCmp (s : State) (t i : Nat) : TimCmp := tget (fun _ => ({} : TimCmp)) (s.tim t).cmps i
def State.setTimCmp (s : State) (t i : Nat) (c : TimCmp) : State :=
  s.setTim t { s.tim t with cmps := tset (fun _ => ({} : TimCmp)) (s.tim t).cmps i c }

def State.timRun (s : State) (t : Nat) : Bool := s.flag (TM_STAT t) fTM_STAT_RUN
def State.timSlow (s : State) (t : Nat) : Bool := s.flag (TM_STAT t) fTM_STAT_SLOW
def State.timArmed (s : State) (t i : Nat) : Bool := bitOf (s.fld (TM_STAT t) fTM_STAT_ARMED) i
def State.setTimArmed (s : State) (t i : Nat) (b : Bool) : State :=
  s.setFld (TM_STAT t) fTM_STAT_ARMED (withBits (s.fld (TM_STAT t) fTM_STAT_ARMED) i 1 (b2n b))

/-! ### Gates (R259) -/

/-- Does a source of a kind and index exist? -/
def gateIndexOk (kind idx : Nat) : Bool :=
  match kind with
  | 1 => idx < 192
  | 2 => idx < 64
  | 3 => idx % 64 < 48 && idx < 128
  | 4 => idx < 16
  | _ => true

/-- The raw level of the logical generator output that a GKIND 3 index names, at the present time. -/
def State.rawLevel (s : State) (idx : Nat) : Option Bool :=
  (s.findGen (idx % 64)).map (fun g => if bitOf idx 6 then (s.gen g).rB else (s.gen g).rA)

/-- The gate that the source lines give (R259); a GIDX that names no source gives an inactive one. -/
def State.gateNow (s : State) (t : Nat) : Bool :=
  let kind := s.fld (TM_CFG t) fTM_CFG_GKIND
  let idx := s.fld (TM_CFG t) fTM_CFG_GIDX
  let active (l : Bool) : Bool := l != s.flag (TM_CFG t) fTM_CFG_GPOL
  if kind = 0 then true
  else if !gateIndexOk kind idx then false
  else if kind = 3 then (match s.rawLevel idx with | some l => active l | none => false)
  else if kind = 5 then active (s.flag (TM_CTRL t) fTM_CTRL_SWG)
  else active (s.line (lineKey kind idx)).level

/-- TM_STAT.GATE takes it. -/
def State.gateEdge (s : State) (t : Nat) : State :=
  let g := s.gateNow t
  if s.flag (TM_STAT t) fTM_STAT_GATE = g then s else s.setFlag (TM_STAT t) fTM_STAT_GATE g

/-- The source that a gate names changes level. -/
def State.gateChange (s : State) (t : Nat) (level : Bool) : State :=
  let kind := s.fld (TM_CFG t) fTM_CFG_GKIND
  let idx := s.fld (TM_CFG t) fTM_CFG_GIDX
  if (kind = 1 ∨ kind = 2 ∨ kind = 4) ∧ gateIndexOk kind idx = true ∧ ¬ (kind = 2 ∧ (s.tripIn idx).inj.isSome = true) then
    s.lineSet kind idx level none
  else s

/-! ### Compares (R260, R261, R268) -/

/-- Is a compare value reached? -/
def cmpReached (cnt cmp : Word) : Bool := 0 ≤ (cnt - cmp).toInt

/-- A SOC output driven by compare i of the logical timer that t carries; in slow advance it is skipped and counted (R264). -/
def State.timSoc (s : State) (t i : Nat) : State :=
  if s.flag (TM_MAP t) fTM_MAP_LVALID then
    let l := s.fld (TM_MAP t) fTM_MAP_LOGICAL
    if s.timSlow t then
      s.incBy (TM_SOC_SKIP t) (countIdx (fun m => s.fld (SI_SOC_SRC m) fSI_SOC_SRC_KIND == 2
        && s.fld (SI_SOC_SRC m) fSI_SOC_SRC_UNIT == l && s.fld (SI_SOC_SRC m) fSI_SOC_SRC_EVSEL == i) 64)
    else if s.socUses 2 l i then s.hurdle 2 t (fun s => s.socSource 2 l i) else s
  else s

/-- What a match does besides its STEP (R261). -/
def State.matchRecord (s : State) (t i : Nat) : State :=
  let s := s.setFlag (TM_STAT t) ⟨fTM_STAT_MATCH.lo + i, 1⟩ true
  let s := s.setReg64 (TM_MATCH_STAMP_LO t i) (TM_MATCH_STAMP_HI t i) s.now
  let s := (s.inc (TM_MATCH_CNT t)).timSoc t i
  let s := if bitOf (s.fld (TM_CMP_CFG t) fTM_CMP_CFG_EVEN) i then s.hurdle 2 t (fun s => s.raiseNamed (640 + 2 * t) [i]) else s
  if s.timSlow t && bitOf (s.fld (TM_CMP_CFG t) fTM_CMP_CFG_WAKE) i then s.hurdle 2 t (fun s => s.wakeSet 9 s.wakeStamp false) else s

/-- The compare after a match: it disarms, or advances by STEP (R261). -/
def State.matchStep (s : State) (t i : Nat) : State :=
  if s.reg (TM_CMP_STEP t i) = 0 then s.setTimArmed t i false
  else s.setReg (TM_CMP t i) (s.reg (TM_CMP t i) + s.reg (TM_CMP_STEP t i))

/-- An evaluation of compare i in the present fc: it matches at most once per fc, on the value and armed state before a write
of the same fc. -/
def State.timMatch (s : State) (t i : Nat) : State :=
  let c := s.timCmp t i
  let written := c.wrFc = s.fc + 1
  let v := if written then c.oldVal else s.reg (TM_CMP t i)
  let armed := if written then c.oldArmed else s.timArmed t i
  if s.timRun t && armed && cmpReached (s.reg (TM_CNT t)) v && c.matchFc != s.fc + 1 then
    let s := s.setTimCmp t i { c with matchFc := s.fc + 1 }
    let s := s.matchRecord t i
    if written then s else s.matchStep t i
  else s

/-- A write of TM_CMP[i] arms it from the next fc (R260, R268). -/
def State.tmCmpWrite (s : State) (t i : Nat) (v : Word) : State :=
  let c := s.timCmp t i
  let s := if c.wrFc = s.fc + 1 then s
    else s.setTimCmp t i { c with wrFc := s.fc + 1, oldVal := s.reg (TM_CMP t i), oldArmed := s.timArmed t i }
  (s.setReg (TM_CMP t i) v).setTimArmed t i true

/-! ### Captures (R262, R264) -/

/-- A capture with its stamp; the payload of its event names the capture and whether it overran. -/
def State.capture (s : State) (t j : Nat) (st : Stamp) : State :=
  let full := bitOf (s.fld (TM_STAT t) fTM_STAT_CFULL) j
  let s := (s.setReg (TM_CAP_VAL t j) (s.reg (TM_CNT t))).setReg64 (TM_CAP_STAMP_LO t j) (TM_CAP_STAMP_HI t j) st
  let s := s.setFlag (TM_STAT t) ⟨fTM_STAT_CFULL.lo + j, 1⟩ true
  let s := if full then
      (s.setFlag (TM_STAT t) ⟨fTM_STAT_COVR.lo + j, 1⟩ true).inc (TM_CAP_OVR_CNT t)
    else s
  s.hurdle 2 t (fun s => s.raiseNamed (641 + 2 * t) [j, b2n full])

/-- The source line that capture j takes its edges from. -/
def State.capLine (s : State) (t j : Nat) : Option Nat :=
  let kind := s.fld (TM_CAP_CFG t j) fTM_CAP_CFG_KIND
  let idx := s.fld (TM_CAP_CFG t j) fTM_CAP_CFG_IDX
  if 1 ≤ kind ∧ kind ≤ 4 ∧ gateIndexOk kind idx = true then some (lineKey kind idx) else none

/-- An edge of a capture's source, `k` tk before the next CLK_FAST edge: it registers after the latency of the source. During an
injection the TRIP pin takes no part (07_sample_ingress_and_trips.md R219). -/
def State.captureEdge (s : State) (t j k : Nat) (rising : Bool) : State :=
  match s.capLine t j with
  | none => s
  | some key =>
    if key / 256 = 2 ∧ (s.tripIn (key % 256)).inj.isSome = true then s
    else s.lineSet (key / 256) (key % 256) rising (some (s.edgeStamp k))

/-- A registered edge of a line: KIND 2 and 4 take its edge stamp, the others the synchronous stamp. -/
def State.captureOf (s : State) (t j : Nat) (e : Nat × LineEv) : State :=
  match e.2.cap with
  | none => s
  | some st =>
    let edge := s.fld (TM_CAP_CFG t j) fTM_CAP_CFG_EDGE
    if s.capLine t j = some e.1 ∧ bitOf edge (if e.2.level then 0 else 1) = true then
      s.capture t j (if e.1 / 256 = 2 ∨ e.1 / 256 = 4 then st else s.now)
    else s

/-- The edges that register, for both captures of a timer. -/
def State.captures (s : State) (t : Nat) (es : List (Nat × LineEv)) : State :=
  es.foldl (fun s e => (s.captureOf t 0 e).captureOf t 1 e) s

/-- A capture at a CLK_SLOW edge (R264): the levels of this edge and the one before are compared; with both edges selected, edges
within one slow cycle make one capture (R268). -/
def State.captureSlow (s : State) (t j : Nat) : State :=
  match s.capLine t j with
  | none => s
  | some key =>
    let l := s.line key
    let edge := s.fld (TM_CAP_CFG t j) fTM_CAP_CFG_EDGE
    let up := !l.prev && l.raw
    let down := l.prev && !l.raw
    if (edge = 1 ∧ up = true) ∨ (edge = 2 ∧ down = true) ∨ (edge = 3 ∧ (up || down || (l.rose && l.fell)) = true) then s.capture t j s.now
    else s

/-- A write of TM_CAP_SW: the captures with KIND 5 whose bit is 1. -/
def State.capSw (s : State) (t v : Nat) : State :=
  forN (fun j s => if bitOf v j && s.fld (TM_CAP_CFG t j) fTM_CAP_CFG_KIND == 5 then s.capture t j s.now else s) 2 s

/-! ### Start, stop, load, groups (R266, R267) -/

/-- A command of TM_CTRL in the present fc: it acts at the edge that ends the fc. -/
def State.timCmd (s : State) (t cmd : Nat) : State := s.setTim t { s.tim t with cmds := (s.tim t).cmds ++ [(s.fc, cmd)] }

/-- START: refused while the flock is not CLEAN (14_flocks_and_register_views.md R375). -/
def State.timStart (s : State) (t : Nat) : State :=
  if s.notClean (s.fld (TM_MAP t) fTM_MAP_FLOCK) then s.inc (TM_CFG_REFUSED t) else s.timCmd t 1

/-- What a command does at its edge: 1 START, 2 STOP, 3 LOAD. -/
def State.timDo (s : State) (t cmd : Nat) : State :=
  if cmd = 1 then s.setFlag (TM_STAT t) fTM_STAT_RUN true
  else if cmd = 2 then s.setFlag (TM_STAT t) fTM_STAT_RUN false
  else (s.setReg (TM_CNT t) (s.reg (TM_LOAD t))).setNat (TM_CNT_FRAC t) 0

/-- The timer stops at once. -/
def State.timHalt (s : State) (t : Nat) : State :=
  let s := (s.setFlag (TM_STAT t) fTM_STAT_RUN false).setFlag (TM_STAT t) fTM_STAT_TSTART false
  s.setTim t { s.tim t with startAt := none, cmds := [] }

/-- The members of a timer group. -/
def State.tmgMember (s : State) (j t : Nat) : Bool :=
  s.flag (TM_CFG t) fTM_CFG_GREN && s.fld (TM_CFG t) fTM_CFG_GRP == j

/-- The group start for one member. -/
def State.groupLoad (s : State) (j t : Nat) : State :=
  let k := s.fld (TM_CFG t) fTM_CFG_MIDX
  let off := s.nat (TMG_SPAN j) * k / s.fld (TMG_CFG j) fTMG_CFG_N
  let s := (s.setReg (TM_CNT t) (s.reg (TMG_BASE j) - BitVec.ofNat 32 off)).setNat (TM_CNT_FRAC t) 0
  let s := (s.setFlag (TM_STAT t) fTM_STAT_RUN true).setFlag (TM_STAT t) fTM_STAT_TSTART false
  s.setTim t { s.tim t with startAt := none }

/-- The group starts at the edge that ends fc `c`. A member whose flock is not CLEAN refuses its start (R375). -/
def State.tmgStart (s : State) (j c : Nat) : State :=
  if s.flag (TMG_CFG j) fTMG_CFG_EN then
    forN (fun t s =>
      if s.tmgMember j t then
        if s.notClean (s.fld (TM_MAP t) fTM_MAP_FLOCK) then s.inc (TM_CFG_REFUSED t)
        else s.setTim t { s.tim t with startAt := some c }
      else s) 36 s
  else s

/-- TMG_CTRL.GO = 1: at the edge that ends the fc after the write. -/
def State.tmgGo (s : State) (j : Nat) : State := s.tmgStart j (s.fc + 1)

/-- TMG_CTRL.GO = 2: at TMG_TIME; where it is already reached, at once, which is the edge that ends the fc, and late. -/
def State.tmgGoTime (s : State) (j : Nat) : State :=
  if s.flag (TMG_CFG j) fTMG_CFG_EN then
    if reached (s.reg64 (TMG_TIME_LO j) (TMG_TIME_HI j)) s.now then
      ((s.tmgStart j s.fc).setFlag (TMG_STAT j) fTMG_STAT_LATE true).inc (TMG_LATE_CNT j)
    else
      let s := { s with tmgPend := tset (fun _ => false) s.tmgPend j true }
      forN (fun t s =>
        if s.tmgMember j t then
          if s.notClean (s.fld (TM_MAP t) fTM_MAP_FLOCK) then s.inc (TM_CFG_REFUSED t)
          else s.setFlag (TM_STAT t) fTM_STAT_TSTART true
        else s) 36 s
  else s

/-- TMG_TIME is reached: the members whose start is pending start at the edge that ends this fc. -/
def State.tmgTime (s : State) (j : Nat) : State :=
  if tget (fun _ => false) s.tmgPend j && reached (s.reg64 (TMG_TIME_LO j) (TMG_TIME_HI j)) s.now then
    let s := { s with tmgPend := tset (fun _ => false) s.tmgPend j false }
    forN (fun t s =>
      if s.tmgMember j t && s.flag (TM_STAT t) fTM_STAT_TSTART then s.setTim t { s.tim t with startAt := some s.fc } else s) 36 s
  else s

/-- TMG_CTRL.GO = 3 has no effect and is counted in each member. -/
def State.tmgBad (s : State) (j : Nat) : State :=
  forN (fun t s => if s.tmgMember j t then s.inc (TM_CFG_REFUSED t) else s) 36 s

/-! ### Edges -/

/-- The edge that ends fc `c` for one timer; `s.fc` is already c + 1, and `es` are the edges that register in it (R259, R262, R266 to
R268). -/
def State.timEdge (s : State) (c : Nat) (es : List (Nat × LineEv)) (t : Nat) : State :=
  let x := s.tim t
  let cmds := x.cmds.filter (fun e => e.1 == c)
  let group := x.startAt == some c
  let counts := s.timRun t && s.flag (TM_STAT t) fTM_STAT_GATE && !s.timSlow t && !group && !cmds.any (fun e => e.2 == 3)
  let s := if counts then s.setReg (TM_CNT t) (s.reg (TM_CNT t) + 1) else s
  let s := if cmds.isEmpty then s else s.setTim t { x with cmds := x.cmds.filter (fun e => e.1 != c) }
  let s := cmds.foldl (fun s e => s.timDo t e.2) s
  let s := if group then s.groupLoad (s.fld (TM_CFG t) fTM_CFG_GRP) t else s
  let s := if s.flag TB_STAT fTB_STAT_SRC then s.gateEdge t else s
  s.captures t es

def State.timsEdge (s : State) (c : Nat) : State :=
  let es := s.linesDue
  forN (fun t s => s.timEdge c es t) 36 s.linesAdvance

/-- CLK_FAST stops: edges on their way to a capture register, and the lines stand (log entry 60). -/
def State.timsStop (s : State) : State :=
  let es := s.lines.flatMap (fun e => e.2.queue.map (fun v => (e.1, v)))
  State.linesSample (forN (fun t s => s.captures t es) 36 s)

/-- One CLK_SLOW edge of a timer in slow advance (R263, R264): the gate is sampled, a running timer adds TM_SLOW_INC to the 48-bit value of
TM_CNT and its fraction, the captures compare levels, and the compares are evaluated anew. The changeover edge keeps the count. -/
def State.timSlowEdge (s : State) (hold : Bool) (t : Nat) : State :=
  let fresh (_ : Nat) (c : TimCmp) : TimCmp := { c with wrFc := 0, matchFc := 0 }
  let s := if s.timSlow t then s.setTim t { s.tim t with cmps := tmap (fun _ => ({} : TimCmp)) fresh (s.tim t).cmps } else s
  let s := s.gateEdge t
  let s :=
    if s.timRun t && s.timSlow t && s.flag (TM_STAT t) fTM_STAT_GATE && !hold then
      let inc := s.fld TM_SLOW_INC_HI fTM_SLOW_INC_HI_INC * 2 ^ 32 + s.nat TM_SLOW_INC_LO
      let v := (s.nat (TM_CNT t) * 65536 + s.nat (TM_CNT_FRAC t) + inc) % 2 ^ 48
      (s.setNat (TM_CNT t) (v / 65536)).setNat (TM_CNT_FRAC t) (v % 65536)
    else s
  (s.captureSlow t 0).captureSlow t 1

/-- Enter or leave slow advance (R263). -/
def State.timsSlow (s : State) (slow : Bool) : State :=
  forN (fun t s => if s.timRun t && s.timSlow t != slow then s.setFlag (TM_STAT t) fTM_STAT_SLOW slow
    else if slow || !s.timSlow t then s else s.setFlag (TM_STAT t) fTM_STAT_SLOW false) 36 s

/-- A CLK_SLOW edge while Tally advances slowly; `hold` at the one that is the changeover (R40, R263). -/
def State.timsSlowEdge (s : State) (hold : Bool) : State :=
  let s := if hold then s.timsSlow true else s
  State.linesSample (forN (fun t s => s.timSlowEdge hold t) 36 s)

/-- A flock reset (R269): timers stop, compares disarm, pending group starts are cancelled. -/
def State.timFlockReset (s : State) (f : Nat) : State :=
  forN (fun t s =>
    if s.fld (TM_MAP t) fTM_MAP_FLOCK = f then (s.timHalt t).setFld (TM_STAT t) fTM_STAT_ARMED 0 else s) 36 s

/-! ### Register writes -/

/-- A write of TM_MAP (R258, R371). -/
def State.tmMapWrite (s : State) (t : Nat) (v : Word) : State :=
  let dup := bitOf v.toNat 6 && (firstIdx (fun h => h != t && s.flag (TM_MAP h) fTM_MAP_LVALID
    && s.fld (TM_MAP h) fTM_MAP_LOGICAL == bitsOf v.toNat 0 5) 36).isSome
  if dup || (s.timRun t && bitsOf v.toNat 8 4 != s.fld (TM_MAP t) fTM_MAP_FLOCK) then s.inc (TM_CFG_REFUSED t)
  else s.setReg (TM_MAP t) v

/-- A write of TM_CFG (R259, R267, R268). -/
def State.tmCfgWrite (s : State) (t : Nat) (v : Word) : State :=
  let badKind := 6 ≤ bitsOf v.toNat 0 3
  let n := if badKind then withBits v.toNat 0 3 0 else v.toNat
  let s := if badKind then s.inc RC_RSVD_WRITES else s
  let grp := fun n => (bitsOf n 19 4, bitsOf n 24 6)
  let j := bitsOf n 20 3
  let k := bitsOf n 24 6
  let broken := bitOf n 19 && s.flag (TMG_CFG j) fTMG_CFG_EN &&
    (decide (s.fld (TMG_CFG j) fTMG_CFG_N ≤ k) || (firstIdx (fun h => h != t && s.tmgMember j h
      && s.fld (TM_CFG h) fTM_CFG_MIDX == k) 36).isSome)
  if grp n ≠ grp (s.nat (TM_CFG t)) ∧ (s.timRun t = true ∨ broken = true) then s.inc (TM_CFG_REFUSED t)
  else s.setNat (TM_CFG t) n

/-- A write of TM_CAP_CFG[j]: KIND 6 and 7 store 0. -/
def State.tmCapCfgWrite (s : State) (t j : Nat) (v : Word) : State :=
  if 6 ≤ bitsOf v.toNat 0 3 then (s.setNat (TM_CAP_CFG t j) (withBits v.toNat 0 3 0)).inc RC_RSVD_WRITES
  else s.setReg (TM_CAP_CFG t j) v

/-- A write of TM_CTRL: SWG gates from the fc after the write; CMD acts at the edge that ends the fc (R259, R266). -/
def State.tmCtrlWrite (s : State) (t : Nat) (v : Word) (cmd : Nat) : State :=
  let s := s.setReg (TM_CTRL t) v
  if cmd = 0 then s else if cmd = 1 then s.timStart t else s.timCmd t cmd

/-- Do the members of group j break the rule of an enabled group of n (R267)? -/
def State.tmgBroken (s : State) (j n : Nat) : Bool :=
  (firstIdx (fun t => s.tmgMember j t && (decide (n ≤ s.fld (TM_CFG t) fTM_CFG_MIDX)
    || (firstIdx (fun h => s.tmgMember j h && s.fld (TM_CFG h) fTM_CFG_MIDX == s.fld (TM_CFG t) fTM_CFG_MIDX) t).isSome)) 36).isSome

/-- A write of TMG_CFG: N of 0 or above 32 stores 1. One that leaves the group enabled with members that break its rule is refused, and
counted in each member (R267; which counter, log entry 61). -/
def State.tmgCfgWrite (s : State) (j : Nat) (v : Word) : State :=
  let n := bitsOf v.toNat 0 6
  let bad := n = 0 ∨ 32 < n
  let v := if bad then BitVec.ofNat 32 (withBits v.toNat 0 6 1) else v
  let s := if bad then s.inc RC_RSVD_WRITES else s
  if bitOf v.toNat 7 && v != s.reg (TMG_CFG j) && s.tmgBroken j (bitsOf v.toNat 0 6) then s.tmgBad j else s.setReg (TMG_CFG j) v

end Sys2Proof.Machine
end

