-- ==== Sys2Proof/Machine/Feedback.lean ====
section
/-!
DEFINITION. Position and speed feedback (10_position_feedback.md R273 to R290): teeth, reference marks, the tracking
observer, measurements.
-/

namespace Sys2Proof.Machine

def State.pfu (s : State) (x : Nat) : Pfu := tget (fun _ => ({} : Pfu)) s.pfus x
def State.setPfu (s : State) (x : Nat) (u : Pfu) : State := { s with pfus := tset (fun _ => ({} : Pfu)) s.pfus x u }

def State.pfRun (s : State) (x : Nat) : Bool := s.flag (PF_STAT x) fPF_STAT_RUN
def State.pfRev (s : State) (x : Nat) : Bool := s.flag (PF_STAT x) fPF_STAT_DIR
def State.pfN (s : State) (x : Nat) : Nat := s.fld (PF_CFG x) fPF_CFG_TEETH
def State.pfM (s : State) (x : Nat) : Nat := s.fld (PF_CFG x) fPF_CFG_MISS + 1
def State.refMode (s : State) (x : Nat) : Nat := s.fld (PF_CFG x) fPF_CFG_REFMODE

/-- The physical unit that carries a logical one (R273). -/
def State.findPf (s : State) (l : Nat) : Option Nat :=
  firstIdx (fun x => s.flag (PF_MAP x) fPF_MAP_LVALID && s.fld (PF_MAP x) fPF_MAP_LOGICAL == l) 10

/-- Frozen with option 2: the unit ignores its input (R286). -/
def State.pfDeaf (s : State) (x : Nat) : Bool :=
  s.flag (PF_STAT x) fPF_STAT_FROZEN && s.fld (PF_CFG x) fPF_CFG_FRZ == 2

/-! ### Pulses (R274, R275) -/

/-- The active edge of a pulse: with DIRMODE 0 and no filter it is already a tooth (R275). -/
def State.pulseStart (s : State) (x : Nat) (st : Stamp) : State :=
  let u := s.pfu x
  let now := s.flag (PF_CFG x) fPF_CFG_DIRMODE == false && s.fld (PF_FLT x) fPF_FLT_FC == 0
  let u := { u with act := some (st, s.fc), taken := now }
  s.setPfu x (if now then { u with teeth := u.teeth ++ [⟨st, none, s.fc⟩] } else u)

/-- The opposite edge: a pulse shorter than PF_FLT is a glitch, both of whose edges are counted (log entry 20); otherwise the
width is known: with DIRMODE 1 this edge decides the tooth, else the width follows its tooth behind the same latency (log entry 63). -/
def State.pulseEnd (s : State) (x : Nat) (st : Stamp) : State :=
  let u := s.pfu x
  match u.act with
  | none => s
  | some (a, f) =>
    if s.fc - f < s.fld (PF_FLT x) fPF_FLT_FC then
      (s.setPfu x { u with act := none, taken := false }).incBy (PF_GLITCH_CNT x) 2
    else
      let w := min (st - a).toNat 0xFFFFFFFF
      let dirmode := s.flag (PF_CFG x) fPF_CFG_DIRMODE
      let teeth := if dirmode then u.teeth ++ [⟨a, some w, s.fc⟩]
        else if u.taken then u.teeth else u.teeth ++ [⟨a, none, f + s.fld (PF_FLT x) fPF_FLT_FC⟩]
      let s := if dirmode then s else s.later (s.fc + 3) (.pfWidth x w)
      s.setPfu x { u with act := none, taken := false, teeth := teeth }

/-- An edge of the input that unit x reads. -/
def State.pulseUnit (s : State) (x : Nat) (rising : Bool) (st : Stamp) : State :=
  let active := rising != s.flag (PF_CFG x) fPF_CFG_EDGE
  if s.pfRun x && !s.flag (PF_CFG x) fPF_CFG_MSRC then
    if s.pfDeaf x then (if active then s.inc (PF_FRZ_LOST x) else s)
    else if active then s.pulseStart x st else s.pulseEnd x st
  else s

/-- What an edge of PFINi, or of its auxiliary line, does in every unit that reads the input (R273). -/
def State.onInput (s : State) (i : Nat) (f : Nat → State → State) : State :=
  forN (fun x s => if s.fld (PF_CFG x) fPF_CFG_INSEL = i then f x s else s) 10 s

/-- An edge of PFINi, `k` tk before the next CLK_FAST edge: timers may watch the line too (09_gated_timers.md R259); edges during
a halt or Rest are neither seen nor counted (R286). -/
def State.pulseEdge (s : State) (i k : Nat) (rising : Bool) : State :=
  let st := s.edgeStamp k
  let s := s.lineSet 4 i rising (some st)
  if s.live then s.onInput i (fun x s => s.pulseUnit x rising st) else s

/-! ### Teeth (R276 to R280) -/

/-- The class of a width (R276): some true for reverse, none in neither class; forward is tested first. -/
def State.widthClass (s : State) (x w : Nat) : Option Bool :=
  if s.nat (PF_WFWD_MIN x) ≤ w ∧ w ≤ s.nat (PF_WFWD_MAX x) then some false
  else if s.nat (PF_WREV_MIN x) ≤ w ∧ w ≤ s.nat (PF_WREV_MAX x) then some true
  else none

/-- Clear AVGOK. -/
def State.clearAvg (s : State) (x : Nat) : State :=
  (s.setFlag (PF_STAT x) fPF_STAT_AVGOK false).setPfu x { s.pfu x with since := 0 }

/-- A raise of a feedback unit's own source with what its payload gives (R288), through its Hurdle (R461). -/
def State.pfRaise (s : State) (x n : Nat) (named : List Nat) : State := s.hurdle 3 x (fun s => s.raiseNamed n named)

/-- A change of direction (R276). -/
def State.dirChange (s : State) (x : Nat) (rev : Bool) : State :=
  let s := (s.setFlag (PF_STAT x) fPF_STAT_DIR rev).setFlag (PF_STAT x) fPF_STAT_DIRCHG true
  let s := (s.inc (PF_DIRCHG_CNT x)).pfRaise x (721 + 2 * x) [1]
  s.clearAvg x

/-- Classification of a tooth's direction. -/
def State.classify (s : State) (x w : Nat) : State :=
  if s.flag (PF_CFG x) fPF_CFG_DIRMODE then
    match s.widthClass x w with
    | none => s.inc (PF_WUNCL_CNT x)
    | some rev => if rev ≠ s.pfRev x then s.dirChange x rev else s
  else if s.pfRev x then s.dirChange x false
  else s

/-- A measurement moved by `d` counts. -/
def PfMeas.shift (m : PfMeas) (d : Word) : PfMeas := { m with y := m.y + d }

/-- Move PF_POS, the observer's position and the tooth reference, which is PF_POS with the measurement taken from it, by a load
(R280). -/
def State.loadPos (s : State) (x : Nat) (v : Word) : State :=
  let d := v - s.reg (PF_POS x)
  let u := s.pfu x
  (s.setReg (PF_POS x) v).setPfu x
    { u with p := u.p + BitVec.ofInt 48 (d.toInt * 65536), meas := u.meas.map (·.shift d), measOld := u.measOld.map (·.shift d) }

/-- The teeth per revolution that PF_TOOTH_IDX counts. -/
def State.idxMod (s : State) (x : Nat) : Nat := if s.refMode x = 1 then s.pfN x - s.pfM x else s.pfN x

/-- A reference mark (R280) with its stamp and the intervals since the previous one. -/
def State.mark (s : State) (x : Nat) (st : Stamp) (teeth : Nat) : State :=
  let u := s.pfu x
  let s := (s.setReg64 (PF_REF_STAMP_LO x) (PF_REF_STAMP_HI x) st).setNat (PF_REF_TEETH x) teeth
  let s := (s.setFlag (PF_STAT x) fPF_STAT_REFSEEN true).setFlag (PF_STAT x) fPF_STAT_REFOK true
  let s := s.inc (PF_REF_CNT x)
  let gap := (s.pfN x - s.pfM x - 1)
  let rev1 := s.refMode x == 1 && s.pfRev x
  let s := s.setNat (PF_TOOTH_IDX x) (if rev1 then gap else 0)
  let act := s.fld (PF_CFG x) fPF_CFG_REFACT
  let load := act = 2 ∨ (act = 1 ∧ u.marked = false)
  let v := s.reg (PF_REFVAL x) + (if rev1 then BitVec.ofNat 32 (gap * 256) else 0)
  let s := if load then s.loadPos x v else s
  let s := s.setReg (PF_REF_POS x) (s.reg (PF_POS x))
  let s := s.setPfu x { s.pfu x with sinceMark := 0, marked := true }
  s.pfRaise x (720 + 2 * x) [teeth, b2n (s.pfRev x)]

/-- Enter an interval in the average (R278). -/
def State.addInterval (s : State) (x i : Nat) : State :=
  let u := s.pfu x
  let iv := i :: u.ivals.take 3
  let s := s.setPfu x { u with ivals := iv, since := u.since + 1 }
  let s := s.setNat (PF_AVG x) (iv.sum / 4)
  if 4 ≤ u.since + 1 then s.setFlag (PF_STAT x) fPF_STAT_AVGOK true else s

/-- Step PF_TOOTH_IDX with the direction. -/
def State.stepIdx (s : State) (x : Nat) : State :=
  let n := s.idxMod x
  let i := s.fld (PF_TOOTH_IDX x) fPF_TOOTH_IDX_IDX
  s.setNat (PF_TOOTH_IDX x) (if s.pfRev x then (if i = 0 then n - 1 else i - 1) else (i + 1) % n)

/-- Move PF_POS by `k` counts in the direction of travel. -/
def State.movePos (s : State) (x k : Nat) : State :=
  s.setReg (PF_POS x) (if s.pfRev x then s.reg (PF_POS x) - BitVec.ofNat 32 k else s.reg (PF_POS x) + BitVec.ofNat 32 k)

/-- A counted tooth that is no mark. -/
def State.plainTooth (s : State) (x : Nat) (i : Option Nat) : State :=
  let s := (s.movePos x 256).stepIdx x
  match i with
  | none => s
  | some i => (s.addInterval x i).setPfu x { (s.addInterval x i).pfu x with sinceMark := (s.pfu x).sinceMark + 1 }

/-- A tooth registers (R275 to R280). -/
def State.toothCount (s : State) (x : Nat) (t : Tooth) : State :=
  let s := s.classify x (t.width.getD 0)
  let u := s.pfu x
  let i : Option Nat := u.last.map (fun l => min (t.stamp - l).toNat 0xFFFFFFFF)
  let iv := i.getD 0
  let ok := s.flag (PF_STAT x) fPF_STAT_AVGOK && i.isSome
  let thr := s.fld (PF_REFTHR x) fPF_REFTHR_THR
  let avg := s.nat (PF_AVG x)
  let s := s.setReg64 (PF_EDGE_STAMP_LO x) (PF_EDGE_STAMP_HI x) t.stamp
  let s := match t.width with
    | some w => s.setNat (PF_WIDTH x) w
    | none => s
  if s.refMode x = 2 ∧ ok = true ∧ iv * thr < avg * 256 then s.mark x t.stamp (u.sinceMark + 1)
  else
    let s := s.inc (PF_TOOTH_CNT x)
    let s := if i.isSome then s.setNat (PF_PERIOD x) iv else s
    let s := s.setPfu x { s.pfu x with last := some t.stamp }
    let s :=
      if s.refMode x = 1 ∧ ok = true ∧ thr * avg < iv * 256 then
        (s.movePos x ((s.pfM x + 1) * 256)).mark x t.stamp (u.sinceMark + 1)
      else s.plainTooth x i
    s.setPfu x { s.pfu x with meas := some ⟨s.reg (PF_POS x), t.stamp, s.fc⟩ }

/-- The tooth that registers in this fc: decided 3 fc ago; with DIRMODE 0 and a filter, an active pulse that has outlasted it. The
unit takes it in at the edge that ends the fc (R275). -/
def State.toothEvent (s : State) (x : Nat) : State :=
  let u := s.pfu x
  match u.teeth with
  | t :: rest => if t.fc + 3 ≤ s.fc then s.setPfu x { u with teeth := rest, reg := u.reg ++ [t] } else s
  | [] =>
    match u.act with
    | some (st, f) =>
      if u.taken = false ∧ s.flag (PF_CFG x) fPF_CFG_DIRMODE = false ∧ f + s.fld (PF_FLT x) fPF_FLT_FC + 3 ≤ s.fc then
        s.setPfu x { u with taken := true, reg := u.reg ++ [⟨st, none, f + s.fld (PF_FLT x) fPF_FLT_FC⟩] }
      else s
    | none => s

/-- A rising edge of the auxiliary line of the input that unit x reads: the mark of REFMODE 3 (R279), behind the latency of a tooth
(log entry 64). -/
def State.auxUnit (s : State) (x : Nat) (st : Stamp) : State :=
  if s.pfRun x && s.refMode x == 3 && !s.pfDeaf x then
    s.setPfu x { s.pfu x with marks := (s.pfu x).marks ++ [(st, s.fc)] }
  else s

/-- A rising edge of the auxiliary line of PFINi, `k` tk before the next CLK_FAST edge. -/
def State.auxEdge (s : State) (i k : Nat) : State :=
  let st := s.edgeStamp k
  let s := s.lineSet 4 (8 + i) true (some st)
  if s.live then s.onInput i (fun x s => s.auxUnit x st) else s

/-! ### The observer (R281 to R285) -/

/-- Round half up of a division by 2^31, saturation to 32 bits. -/
def round31 (x : Int) : Int := (x + 1073741824) / 2147483648

/-- Signed difference modulo 2^48. -/
def sdiff48 (a : Int) (p : BitVec 48) : Int := (BitVec.ofInt 48 a - p).toInt

/-- The gains of a step: the old ones in the fc of a write (R287). -/
def State.gain (s : State) (x i : Nat) : Int :=
  let u := s.pfu x
  if u.gainFc = s.fc + 1 then ((u.gains.getD i 0).toNat : Int) else (s.nat (PF_L x i) : Int)

/-- correct(e) of R282. -/
def State.correct (s : State) (x : Nat) (u : Pfu) (e : Int) : Pfu :=
  { u with p := u.p + BitVec.ofInt 48 (round31 (s.gain x 0 * e)), w := sat32 (u.w + round31 (s.gain x 1 * e)), a := sat32 (u.a + round31 (s.gain x 2 * e * 256)) }

/-- bound() of R283. -/
def State.boundStep (s : State) (x : Nat) (u : Pfu) : Pfu :=
  let rev := s.pfRev x
  let idx := s.fld (PF_TOOTH_IDX x) fPF_TOOTH_IDX_IDX
  let gapNext := if rev then idx == 0 else idx == s.pfN x - s.pfM x - 1
  let d : Int := if s.refMode x == 1 && (!s.flag (PF_STAT x) fPF_STAT_REFOK || gapNext) then ((s.pfM x + 1) * 256 : Nat) else 256
  let y := sInt (s.reg (PF_POS x))
  let b := if rev then y - d else y + d
  let e := sdiff48 (b * 65536) u.p
  if (rev = false ∧ e < 0) ∨ (rev = true ∧ 0 < e) then s.correct x u e else u

/-- The measurement that a step of this fc applies, the latest registered in an earlier fc (R281), and the unit without it. -/
def Pfu.takeMeas (u : Pfu) (fc : Nat) : Option PfMeas × Pfu :=
  match u.measOld, u.meas with
  | some m, _ => (some m, { u with measOld := none })
  | none, some m => if m.fc < fc then (some m, { u with meas := none }) else (none, u)
  | none, none => (none, u)

/-- The age of a stamp in steps of PF_STEP_TK, with 16 fraction bits (R282); a step length of 0 leaves it open (log entry 1). -/
def State.stepAge (s : State) (sm : Stamp) : Int :=
  let d := stampDiff s.now sm
  if s.nat PF_STEP_TK = 0 then Config.ageOpen d else d * 65536 / (s.nat PF_STEP_TK : Int)

/-- One step of one observer, with ts the Tally of this fc (R282, R283). -/
def State.obsUnit (s : State) (x : Nat) : State :=
  let (m?, u) := (s.pfu x).takeMeas s.fc
  let u := { u with p := u.p + BitVec.ofInt 48 (u.w + u.a / 512), w := sat32 (u.w + u.a / 256) }
  let (u, old) :=
    match m? with
    | some m =>
      let dt := s.stepAge m.stamp
      if (s.fld (PF_MEAS_MAXAGE x) fPF_MEAS_MAXAGE_STEPS : Int) * 65536 < dt then (u, true)
      else (s.correct x u (sdiff48 (sInt m.y * 65536 + u.w * dt / 65536) u.p), false)
    | none => (if s.flag (PF_CFG x) fPF_CFG_MSRC then u else s.boundStep x u, false)
  let s := if old then s.inc (PF_OLD_CNT x) else s
  let s := s.setPfu x u
  let s := (s.setNat (PF_OPOS x) (u.p.toNat / 65536)).setNat (PF_OPOS_FRAC x) (u.p.toNat % 65536)
  let s := (s.setReg (PF_OSPD x) (intWord u.w)).setReg (PF_OACC x) (intWord u.a)
  s.setReg64 (PF_OSTAMP_LO x) (PF_OSTAMP_HI x) s.now

/-- The fc is one of a step, PF_OBS_DIV fc after the last: all running units step at the edge that ends it, from which the results
are readable (R281; log entry 62). -/
def State.obsStep (s : State) : State :=
  if s.fld PF_OBS_DIV fPF_OBS_DIV_FC ≤ s.pfPhase + 1 then { s with pfStep := true } else s

/-- Does unit x step in this fc? One whose INIT or START falls in the fc, or whose observer a freeze holds, does not (R286, R287). -/
def State.pfSteps (s : State) (x : Nat) : Bool :=
  s.pfStep && s.pfRun x && !(s.flag (PF_STAT x) fPF_STAT_FROZEN && s.fld (PF_CFG x) fPF_CFG_FRZ == 1)
    && (s.pfu x).initFc != s.fc + 1 && !(s.pfu x).cmds.any (fun c => c == 1 || c == 3)

/-- A refused commit (R284). -/
def State.measRefuse (s : State) (x : Nat) : State :=
  let seen := s.flag (PF_STAT x) fPF_STAT_MREF
  let s := (s.setFlag (PF_STAT x) fPF_STAT_MREF true).inc (PF_MEAS_REFUSED x)
  if seen then s else s.pfRaise x (721 + 2 * x) [2]

/-- A refused commit of an old incarnation counts with its flock too (14_flocks_and_register_views.md R373). -/
def State.staleCommit (s : State) (f inc : Nat) : State :=
  if inc = s.flockInc f then s else s.inc (FLK_STALE_CNT f)

/-- A commit of an angle with its stamp (R284). A measurement of an earlier fc stays until the step of this fc, if there is one, has
applied it (R281). -/
def State.measCommit (s : State) (x : Nat) (ang : Word) (st : Stamp) (poison : Bool) (inc : Nat) : State :=
  if !s.flag (PF_CFG x) fPF_CFG_MSRC || poison || inc != s.flockInc (s.fld (PF_MAP x) fPF_MAP_FLOCK)
      || decide (0 < stampDiff st s.now) then
    s.measRefuse x |>.staleCommit (s.fld (PF_MAP x) fPF_MAP_FLOCK) inc
  else
    let u := s.pfu x
    let r : Int := (s.pfN x * 256 : Nat)
    let v := (ang.toNat : Int) * r / 4294967296
    let p : Int := (u.p.toNat / 65536 : Nat)
    let d := (v - p) % r
    let d := if r ≤ 2 * d then d - r else d
    let y := intWord (p + d)
    let early := u.meas.filter (fun m => decide (m.fc < s.fc))
    let s := if u.meas.isSome && early.isNone then s.inc (PF_MEAS_OVR x) else s
    let s := (s.inc (PF_MEAS_CNT x)).setReg (PF_POS x) y
    s.setPfu x { s.pfu x with meas := some ⟨y, st, s.fc⟩, measOld := early.orElse (fun _ => u.measOld) }

/-- At the edge that ends the fc, after its step: a measurement of an earlier fc that a commit replaced is counted (R284). -/
def State.measSettle (s : State) (x : Nat) : State :=
  if (s.pfu x).measOld.isSome then (s.inc (PF_MEAS_OVR x)).setPfu x { s.pfu x with measOld := none } else s

/-! ### Commands, freeze, interruption (R286) -/

def State.pfInit (s : State) (x : Nat) : State :=
  s.setPfu x { s.pfu x with p := BitVec.ofNat 48 (s.nat (PF_POS x) * 65536), w := 0, a := 0, initFc := s.fc + 1 }

/-- START: the stamp of the previous counted tooth, the intervals and the decided teeth stay (R278). -/
def State.pfStart (s : State) (x : Nat) : State :=
  let s := (s.setFlag (PF_STAT x) fPF_STAT_RUN true).setFlag (PF_STAT x) fPF_STAT_REFOK false
  let s := s.clearAvg x
  (s.setPfu x { s.pfu x with marked := false }).pfInit x

/-- A pulse in progress when the input is no longer watched is not followed (log entry 65). -/
def State.pfDrop (s : State) (x : Nat) : State := s.setPfu x { s.pfu x with act := none, taken := false }

def State.pfStop (s : State) (x : Nat) : State := (s.setFlag (PF_STAT x) fPF_STAT_RUN false).pfDrop x

/-- The end of an interruption: UNOBS, AVGOK and REFOK, INIT. -/
def State.pfInterrupt (s : State) (x : Nat) : State :=
  let s := (s.setFlag (PF_STAT x) fPF_STAT_UNOBS true).setFlag (PF_STAT x) fPF_STAT_REFOK false
  ((s.clearAvg x).pfDrop x).pfInit x

/-- A command of PF_CTRL. -/
def State.pfCmd (s : State) (x c : Nat) : State :=
  match c with
  | 1 => s.pfStart x
  | 2 => s.pfStop x
  | 3 => s.pfInit x
  | _ => s

/-- A write of PF_CTRL.CMD: it acts at the edge that ends the fc; a start for a flock that is not clean is refused (R375). -/
def State.pfCtrlWrite (s : State) (x c : Nat) : State :=
  if c = 1 ∧ s.notClean (s.fld (PF_MAP x) fPF_MAP_FLOCK) = true then s.inc (PF_CFG_REFUSED x)
  else if c = 0 then s
  else s.setPfu x { s.pfu x with cmds := (s.pfu x).cmds ++ [c] }

/-- What a unit does at the edge that ends fc c (R275, R281, R286, R287): the step, which uses nothing of this fc, the teeth, the
marks of the auxiliary line, the commands. -/
def State.pfUnitEnd (s : State) (x : Nat) : State :=
  let s := (if s.pfSteps x then s.obsUnit x else s).measSettle x
  let u := s.pfu x
  let s := u.reg.foldl (fun s t => s.toothCount x t) (s.setPfu x { u with reg := [] })
  let u := s.pfu x
  let s := (u.marks.filter (fun e => decide (e.2 + 3 ≤ s.fc))).foldl (fun s e => s.mark x e.1 (s.pfu x).sinceMark)
    (s.setPfu x { u with marks := u.marks.filter (fun e => !decide (e.2 + 3 ≤ s.fc)) })
  let u := s.pfu x
  u.cmds.foldl (fun s c => s.pfCmd x c) (s.setPfu x { u with cmds := [] })

/-- The feedback units at the edge that ends the fc; the phase of the steps goes on. -/
def State.pfsEnd (s : State) : State :=
  let s := forN (fun x s => s.pfUnitEnd x) 10 s
  { s with pfStep := false, pfPhase := if s.pfStep then 0 else s.pfPhase + 1 }

def State.pfInterruptAll (s : State) : State := forN (fun x s => s.pfInterrupt x) 10 s

/-- A freeze takes hold: with option 2 a pulse that is not yet a tooth is lost (log entry 65). -/
def State.pfFreeze (s : State) (x : Nat) : State :=
  let frz := s.fld (PF_CFG x) fPF_CFG_FRZ
  if frz = 0 ∨ s.flag (PF_STAT x) fPF_STAT_FROZEN = true then s
  else
    let s := s.setFlag (PF_STAT x) fPF_STAT_FROZEN true
    let u := s.pfu x
    if frz = 2 then (if u.act.isSome && !u.taken then s.inc (PF_FRZ_LOST x) else s).pfDrop x else s

def State.pfUnfreeze (s : State) (x : Nat) : State :=
  if s.flag (PF_STAT x) fPF_STAT_FROZEN then
    let two := s.fld (PF_CFG x) fPF_CFG_FRZ = 2
    let s := s.setFlag (PF_STAT x) fPF_STAT_FROZEN false
    if two then s.pfInterrupt x else s.pfInit x
  else s

/-- A flock reset clears RUN (R286). -/
def State.pfFlockReset (s : State) (f : Nat) : State :=
  forN (fun x s => if s.fld (PF_MAP x) fPF_MAP_FLOCK = f then
    (s.setPfu x { s.pfu x with cmds := [] }).pfStop x else s) 10 s

/-! ### Register writes -/

/-- A write of PF_MAP (R273, R371). -/
def State.pfMapWrite (s : State) (x : Nat) (v : Word) : State :=
  let dup := bitOf v.toNat 6 && (firstIdx (fun h => h != x && s.flag (PF_MAP h) fPF_MAP_LVALID
    && s.fld (PF_MAP h) fPF_MAP_LOGICAL == bitsOf v.toNat 0 3) 10).isSome
  if dup || (s.pfRun x && bitsOf v.toNat 8 4 != s.fld (PF_MAP x) fPF_MAP_FLOCK) then s.inc (PF_CFG_REFUSED x)
  else s.setReg (PF_MAP x) v

/-- A write of PF_CFG: out-of-range TEETH, REFACT and FRZ store their substitutes; RWI fields are fixed while the unit runs. -/
def State.pfCfgWrite (s : State) (x : Nat) (v : Word) : State :=
  let n := v.toNat
  let badT := bitsOf n 16 11 < 8 ∨ 1024 < bitsOf n 16 11
  let n := if badT then withBits n 16 11 8 else n
  let badR := bitsOf n 8 2 = 3
  let n := if badR then withBits n 8 2 0 else n
  let n := if bitsOf n 12 2 = 3 then withBits n 12 2 2 else n
  let s := if badT ∨ badR then s.inc RC_RSVD_WRITES else s
  if s.pfRun x ∧ withBits n 8 2 0 ≠ withBits (s.nat (PF_CFG x)) 8 2 0 then s.inc (PF_CFG_REFUSED x)
  else s.setNat (PF_CFG x) n

/-- A write of PF_POS: fixed while the unit runs. -/
def State.pfPosWrite (s : State) (x : Nat) (v : Word) : State :=
  if s.pfRun x ∧ v ≠ s.reg (PF_POS x) then s.inc (PF_CFG_REFUSED x) else s.setReg (PF_POS x) v

/-- A write of PF_REFTHR: below 0x0108 stores 0x0108. -/
def State.pfThrWrite (s : State) (x : Nat) (v : Word) : State :=
  if v.toNat % 65536 < 0x108 then (s.setNat (PF_REFTHR x) 0x108).inc RC_RSVD_WRITES else s.setReg (PF_REFTHR x) v

/-- A write of a gain takes effect from the next step (R282, R287). -/
def State.pfGainWrite (s : State) (x i : Nat) (v : Word) : State :=
  let u := s.pfu x
  let s := if u.gainFc = s.fc + 1 then s
    else s.setPfu x { u with gainFc := s.fc + 1, gains := [s.reg (PF_L x 0), s.reg (PF_L x 1), s.reg (PF_L x 2)] }
  s.setReg (PF_L x i) v

/-- A write of PF_OBS_DIV: below 100 stores 100 (R281). -/
def State.obsDivWrite (s : State) (v : Word) : State := s.setNat PF_OBS_DIV (max 100 (v.toNat % 65536))

end Sys2Proof.Machine
end

