-- ==== Sys2Proof/Machine/Chanters.lean ====
section
/-!
DEFINITION. Chanters (11_chanters.md R291 to R319): rounds and chant words, pins, channel queues and their agents, framed
mode, synchronous starts.
-/

namespace Sys2Proof.Machine

def State.chanter (s : State) (n : Nat) : Chanter := tget (fun _ => ({} : Chanter)) s.chs n
def State.setChanter (s : State) (n : Nat) (x : Chanter) : State :=
  { s with chs := tset (fun _ => ({} : Chanter)) s.chs n x }
def State.chan (s : State) (n k : Nat) : Chan := tget (fun _ => ({} : Chan)) (s.chanter n).chans k
def State.setChan (s : State) (n k : Nat) (c : Chan) : State :=
  s.setChanter n { s.chanter n with chans := tset (fun _ => ({} : Chan)) (s.chanter n).chans k c }

/-- The physical Chanter that carries a logical one (R291). -/
def State.findCh (s : State) (l : Nat) : Option Nat :=
  firstIdx (fun n => s.flag (CH_MAP n) fCH_MAP_LVALID && s.fld (CH_MAP n) fCH_MAP_LOGICAL == l) 36

def State.chRun (s : State) (n : Nat) : Bool := s.flag (CH_STAT n) fCH_STAT_RUN
def State.chFrozen (s : State) (n : Nat) : Bool := s.flag (CH_STAT n) fCH_STAT_FROZEN
def State.chFramed (s : State) (n k : Nat) : Bool := s.flag (CH_CCFG n k) fCH_CCFG_FRM
def State.chEn (s : State) (n k : Nat) : Bool := s.flag (CH_CCFG n k) fCH_CCFG_EN
def State.chOk (s : State) (n k : Nat) : Bool :=
  s.fld (CH_CSTAT n k) fCH_CSTAT_FAULT == 0 && !s.flag (CH_CSTAT n k) fCH_CSTAT_HOLD

/-- Does channel k run (R314)? -/
def State.chanRuns (s : State) (n k : Nat) : Bool :=
  s.chRun n && s.chEn n k && decide (k ≤ s.fld (CH_CFG n) fCH_CFG_NCHM1) && s.chOk n k

/-- Is the logical Chanter that n carries privileged (R311)? -/
def State.chPriv (s : State) (n : Nat) : Bool :=
  s.flag (CH_MAP n) fCH_MAP_LVALID && (firstIdx (fun i => s.flag (CH_PRIV i) fCH_PRIV_VALID
    && s.fld (CH_PRIV i) fCH_PRIV_LOGICAL == s.fld (CH_MAP n) fCH_MAP_LOGICAL) 4).isSome

/-- The output pins of a channel: PDIR, or W3 alone in framed mode (R297, R312). -/
def State.chOutputs (s : State) (n k : Nat) : Nat :=
  if s.chFramed n k then 8 else s.fld (CH_CCFG n k) fCH_CCFG_PDIR

/-! ### The pin crossbar (R305) -/

/-- Entry m as the present fc found it: a write takes effect at the edge that ends the fc (R305). -/
def State.pinShown (s : State) (m : Nat) : Nat :=
  match s.ch.pinOld.find? (fun e => e.1 == m) with
  | some e => e.2.toNat
  | none => s.nat (CH_PIN m)

/-- A write of an entry. -/
def State.pinWrite (s : State) (off m : Nat) (v : Word) : State :=
  let s := if s.ch.pinOld.any (fun e => e.1 == m) then s else { s with ch.pinOld := s.ch.pinOld ++ [(m, s.reg (CH_PIN m))] }
  s.setReg off v

/-- The lowest-numbered enabled entry that names a window pin. -/
def State.pinEntry (s : State) (n k w : Nat) : Option Nat :=
  firstIdx (fun m =>
    let x := s.pinShown m
    fCH_PIN_EN.of x == 1 && fCH_PIN_CP.of x == n && fCH_PIN_CH.of x == k && fCH_PIN_WP.of x == w) 192

/-- The level a window pin reads from the synchronised PIO levels; an unnamed pin reads 0. -/
def State.winIn (s : State) (n k : Nat) (pio : BitVec 192) (w : Nat) : Bool :=
  match s.pinEntry n k w with
  | none => false
  | some m => bitOf pio.toNat m

/-- The level a stopped channel's window pin holds. -/
def State.stoppedLevel (s : State) (n k w : Nat) : Bool :=
  match s.pinEntry n k w with
  | none => false
  | some m => fCH_PIN_SLVL.of (s.pinShown m) == 1

/-- Level and enable of PIOm at the boundary; a fenced Chanter's entries drive SLVL and SOE (R461). -/
def State.pioOut (s : State) (m : Nat) : Bool × Bool :=
  let x := s.pinShown m
  if s.pw.iso = true ∨ fCH_PIN_EN.of x = 0 then (false, false)
  else
    let n := fCH_PIN_CP.of x
    let k := fCH_PIN_CH.of x
    let w := fCH_PIN_WP.of x
    if s.chanRuns n k && !s.fenced 4 n && !s.underTest 4 n then
      let p := tget (fun _ => 0) (s.chanter n).pins k
      if bitOf (s.chOutputs n k) w then (bitOf p w, bitOf p (4 + w)) else (false, false)
    else (fCH_PIN_SLVL.of x == 1, fCH_PIN_SOE.of x == 1)

/-- The pins of a channel change: they reach the boundary at the edge that begins fc `due`. -/
def State.drivePins (s : State) (n k due lvl oe : Nat) : State :=
  let c := s.chan n k
  if c.lvl = lvl ∧ c.oe = oe then s
  else
    let s := s.setChan n k { c with lvl := lvl, oe := oe }
    s.setChanter n { s.chanter n with bound := (s.chanter n).bound ++ [⟨due, k, lvl, oe⟩] }

/-- The pin changes of one Chanter that are due at the edge that begins the present fc. -/
def State.chEdge (s : State) (n : Nat) : State :=
  let x := s.chanter n
  let due := x.bound.filter (fun b => decide (b.due ≤ s.fc))
  let pins := due.foldl (fun t b => tset (fun _ => 0) t b.ch (b.lvl + 16 * b.oe)) x.pins
  s.setChanter n { x with pins := pins, bound := x.bound.filter (fun b => !decide (b.due ≤ s.fc)) }

/-- All Chanters at a rising CLK_FAST edge; what was written to the crossbar is in effect from here. -/
def State.chsEdge (s : State) : State :=
  let s := { s with ch.pinOld := [] }
  (s.chs.filterMap (fun e => if e.2.bound = [] then none else some e.1)).foldl State.chEdge s

/-! ### Flags, faults, events (R304, R308, R315) -/

/-- A raise of a Chanter's own source with what its payload carries (R301, R315), through its Hurdle. -/
def State.chRaise (s : State) (n src : Nat) (st : Stamp) (named : List Nat) : State :=
  s.hurdle 4 n (fun s => s.raiseNamedAt (752 + 2 * n + src) st named)

/-- The sticky queue flags of CH_CSTAT, bits [10:4]. -/
def State.chFlags (s : State) (n k : Nat) : Nat := bitsOf (s.nat (CH_CSTAT n k)) 4 7

/-- Set a sticky flag, by its bit in CH_CSTAT; the first one of a channel raises EV(752 + 2n), whose cause is the flag. -/
def State.chFlag (s : State) (n k bit : Nat) (st : Stamp) : State :=
  let none := s.chFlags n k = 0
  let s := s.setFlag (CH_CSTAT n k) ⟨bit, 1⟩ true
  if none then s.chRaise n 0 st [k, 0, bit] else s

/-- A channel fault (R304): it stops, is counted, raises EV(752 + 2n) and is journalled. -/
def State.chFault (s : State) (n k cause : Nat) (st : Stamp) : State :=
  let s := s.setFld (CH_CSTAT n k) fCH_CSTAT_FAULT cause
  let s := s.setFld (CH_STAT n) fCH_STAT_FAULTED (s.fld (CH_STAT n) fCH_STAT_FAULTED ||| 2 ^ k)
  let s := (s.inc (CH_FAULT_CNT n)).chRaise n 0 st [k, 1, cause]
  s.recordAt st (752 + 2 * n) 0xA (k + cause * 16) (s.fld (CH_CSTAT n k) fCH_CSTAT_PC) 0 0

/-! ### Channel queues (R306 to R308) -/

/-- The storage of one channel in a direction, by its JOIN. -/
def State.chBase (s : State) (n k : Nat) (rx : Bool) : Nat :=
  match s.fld (CH_CCFG n k) fCH_CCFG_JOIN with
  | 1 => if rx then 8 else 0
  | 2 => if rx then 0 else 8
  | _ => 4

/-- The storage of channel k and of the channels chained to it. -/
def State.chCap (s : State) (n k : Nat) (rx : Bool) : Nat → Nat
  | 0 => 0
  | d + 1 => s.chBase n k rx + (if s.flag (CH_CCFG n k) fCH_CCFG_CHAIN && decide (k < 15) then State.chCap s n (k + 1) rx d else 0)

/-- The depth of a channel's queue: none of its own when the channel before chains it (R306). -/
def State.chDepth (s : State) (n k : Nat) (rx : Bool) : Nat :=
  if 0 < k ∧ s.flag (CH_CCFG n (k - 1)) fCH_CCFG_CHAIN = true then 0 else s.chCap n k rx 16

/-- Pushes into the TX queue: those of one fc are taken at its end, in the order feeder 0, scatter agent 1, register write 2 (R307). -/
def State.txQueue (s : State) (n k rank : Nat) (ws : List QWord) : State :=
  s.setChan n k { s.chan n k with txNext := (s.chan n k).txNext ++ ws.map (fun w => (rank, w)) }

/-- Room for `w` words of the feeder in the TX queue, behind those it has already brought in this fc? -/
def State.txRoom (s : State) (n k w : Nat) : Bool :=
  decide ((s.chan n k).tx.length + ((s.chan n k).txNext.filter (fun e => e.1 == 0)).length + w ≤ s.chDepth n k false)

/-- A push is taken; into a full queue its word is lost (R308). -/
def State.txTake (s : State) (n k rank : Nat) (w : QWord) : State :=
  if (s.chan n k).tx.length < s.chDepth n k false then s.setChan n k { s.chan n k with tx := (s.chan n k).tx ++ [w] }
  else (if rank = 1 then s.inc CH_SCAT_DROP else s).chFlag n k 6 s.now

/-- The pushes of the fc. -/
def State.txTakeAll (s : State) (n k : Nat) : State :=
  let es := (s.chan n k).txNext
  [0, 1, 2].foldl (fun s r => (es.filter (fun e => e.1 == r)).foldl (fun s e => s.txTake n k r e.2) s)
    (s.setChan n k { s.chan n k with txNext := [] })

/-- A push into the RX queue; into a full one the word is lost (R308). -/
def State.rxPush (s : State) (n k : Nat) (e : RxEntry) (st : Stamp) : State :=
  if (s.chan n k).rx.length < s.chDepth n k true then
    s.setChan n k { s.chan n k with rx := (s.chan n k).rx ++ [e] }
  else (s.incSat (CH_CNT_A n k) fCH_CNT_A_ROVR).chFlag n k 4 st

/-- A read of CH_RXDATA: the head word, its tag in CH_RXTAG; 0 and RUND when empty (R307, R308). -/
def State.rxRead (s : State) (n k : Nat) : Word × State :=
  match (s.chan n k).rx with
  | [] => (0, (s.setNat (CH_RXTAG n k) 0).chFlag n k 7 s.now)
  | e :: t => (e.data, (s.setNat (CH_RXTAG n k) e.tag).setChan n k { s.chan n k with rx := t })

/-- Empty every queue of a Chanter. -/
def State.chEmpty (s : State) (n : Nat) : State :=
  forN (fun k s => s.setChan n k { s.chan n k with tx := [], rx := [], txNext := [], frmPush := [] }) 16 s

/-- The feeder (R307): it removes the head entry of its fabric queue when there is room for NW + 1 words. -/
def State.feeder (s : State) (n k : Nat) : State :=
  let q := s.fld (CH_TXSRC n k) fCH_TXSRC_QUEUE
  let nw := s.fld (CH_TXSRC n k) fCH_TXSRC_NW + 1
  if s.flag (CH_TXSRC n k) fCH_TXSRC_EN && s.txRoom n k nw && s.live && (s.chan n k).fed != s.fc + 1 && !s.qBusy q
      && !(s.qEn q && s.qShown q == 0) then
    (s.setChan n k { s.chan n k with fed := s.fc + 1 }).hurdle 4 n (fun s =>
      let (r, e, s) := s.qGet q (.chan n k) (s.carriedInc q (.chan n k))
      if r = .done then s.txQueue n k 0 (e.take nw) else s)
  else s

/-- The fabric entry of an RX word (R307). -/
def State.drainEntry (s : State) (n k : Nat) (e : RxEntry) : List QWord :=
  let cell := s.fld (CH_RXDST n k) fCH_RXDST_CELL
  let w1 := e.tag + k * 256 + s.fld (CH_MAP n) fCH_MAP_LOGICAL * 4096 + cell * 2 ^ 20
  match s.fld (CH_RXDST n k) fCH_RXDST_FMT with
  | 0 => [(e.data, false), (.ofNat 32 cell, false)]
  | 1 => [(e.data, false), (.ofNat 32 w1, false)]
  | _ => [(e.data, false), (.ofNat 32 w1, false), (.ofNat 32 (lo32 e.stamp), false), (.ofNat 32 (hi32 e.stamp), false)]

/-- The drain (R307): the entry leaves the RX queue only when the fabric takes it; a stale one goes into the sink (R327). -/
def State.drain (s : State) (n k : Nat) : State :=
  let q := s.fld (CH_RXDST n k) fCH_RXDST_QUEUE
  match (s.chan n k).rx with
  | [] => s
  | e :: t =>
    if s.flag (CH_RXDST n k) fCH_RXDST_EN && s.live && (s.chan n k).drained != s.fc + 1 && !s.qBusy q then
      (s.setChan n k { s.chan n k with drained := s.fc + 1 }).hurdle 4 n (fun s =>
        let (r, s) := s.qPut q (.chan n k) (s.carriedInc q (.chan n k)) (s.drainEntry n k e)
        if r = .done ∨ r = .stale then s.setChan n k { s.chan n k with rx := t } else s)
    else s

/-- One pair of the scatter agent (R309). -/
def State.scatPair (s : State) (key idx : QWord) : State :=
  let p := s.ch.scatPos
  let s := { s with ch.scatPos := (p + 1) % (8 * (s.fld CH_SCAT_CFG fCH_SCAT_CFG_BATCH + 1)) }
  let i := idx.1.toNat
  if 512 ≤ i ∨ s.flag (CH_SMAP i) fCH_SMAP_VALID = false then s.inc CH_SCAT_SKIP
  else match s.findCh (s.fld (CH_SMAP i) fCH_SMAP_LOGICAL) with
    | none => s.inc CH_SCAT_SKIP
    | some n =>
      let k := s.fld (CH_SMAP i) fCH_SMAP_CHANNEL
      let w : QWord := if s.flag CH_SCAT_CFG fCH_SCAT_CFG_WFMT then (.ofNat 32 (p * 2 ^ 24 + i), idx.2) else key
      s.txQueue n k 1 [w]

/-- The scatter agent: one pair per fc, from the entry in hand or the next entry of its queue (R309). -/
def State.scatter (s : State) : State :=
  let q := s.fld CH_SCAT_CFG fCH_SCAT_CFG_QUEUE
  if !s.flag CH_SCAT_CFG fCH_SCAT_CFG_EN || !s.live || s.ch.scatFc == s.fc + 1 then s
  else
    let s :=
      if s.ch.scat = [] ∧ s.qBusy q = false ∧ ¬ (s.qEn q = true ∧ s.qShown q = 0) then
        let (r, e, s) := s.qGet q (.scatter (s.qFlock q)) (s.flockInc (s.qFlock q))
        if r = .done then { s with ch.scat := e } else s
      else s
    match s.ch.scat with
    | key :: idx :: t => State.scatPair { s with ch.scat := t, ch.scatFc := s.fc + 1 } key idx
    | _ => s

/-! ### Chant words (R294 to R303) -/

/-- The word at an address of control memory. -/
def State.chantWord (s : State) (n a : Nat) : Nat := s.nat (CH_CMEM_LO n a) + bitsOf (s.nat (CH_CMEM_HI n a)) 0 8 * 2 ^ 32

/-- Does a word hold an unassigned PACT, QACT, FLOW or CNT? -/
def wordBad (w : Nat) : Bool :=
  decide (6 ≤ bitsOf w 37 3) || bitsOf w 25 3 == 7 || bitsOf w 19 2 == 3 || decide (6 ≤ bitsOf w 8 3)

/-- The condition of R300. -/
def State.chCond (s : State) (n k w : Nat) (pio : BitVec 192) : Bool :=
  let c := bitsOf w 21 4
  let cnt := s.fld (CH_CSTAT n k) fCH_CSTAT_CNT
  if c = 0 then true
  else if c < 5 then s.winIn n k pio (c - 1)
  else if c < 9 then !s.winIn n k pio (c - 5)
  else match c with
    | 9 => cnt == 0
    | 10 => cnt != 0
    | 11 => !(s.chan n k).tx.isEmpty
    | 12 => (s.chan n k).tx.isEmpty
    | 13 => bitOf (s.nat CH_FLAGS) (bitsOf w 33 4)
    | 14 => s.chFramed n k && (s.chan n k).sel
    | _ => false

/-- The masked window pins, in ascending order. -/
def maskedPins (m : Nat) : List Nat := (List.range 4).filter (fun w => bitOf m w)

/-- Shift one bit into a register: at bit 0 for SDIR 0, at bit 31 for SDIR 1. -/
def shiftIn (r : Word) (dir b : Bool) : Word :=
  if dir then (r >>> 1) ||| (if b then 0x80000000#32 else 0) else (r <<< 1) ||| (if b then 1#32 else 0)

/-- In-shift (R298). -/
def State.inShift (s : State) (n k w : Nat) (pio : BitVec 192) : State :=
  if bitOf w 32 then
    let pins := (maskedPins (bitsOf w 33 4)).take (bitsOf w 29 2 + 1)
    let c := s.chan n k
    let isr := pins.foldl (fun r p => shiftIn r (bitOf w 28) (s.winIn n k pio p)) c.isr
    s.setChan n k { c with isr := isr, isrN := min 32 (c.isrN + pins.length) }
  else s

/-- Pin action on the masked output pins (R295, R297): levels and enables. -/
def pinAction (act mask lvl oe : Nat) : Nat × Nat :=
  match act with
  | 1 => (lvl - (lvl &&& mask), oe)
  | 2 => (lvl ||| mask, oe)
  | 3 => (lvl ^^^ mask, oe)
  | 4 => (lvl, oe ||| mask)
  | 5 => (lvl, oe - (oe &&& mask))
  | _ => (lvl, oe)

/-- One bit out of the output shift register. -/
def Chan.outBit (c : Chan) (dir fill : Bool) : Bool × Chan :=
  let b := if c.osrN = 0 then fill else if dir then c.osr.getLsbD 0 else c.osr.getLsbD 31
  (b, { c with osr := if dir then c.osr >>> 1 else c.osr <<< 1, osrN := c.osrN - 1 })

/-- Out-shift of `d` bits onto the pins that remain (R298): levels. -/
def outShift (dir fill : Bool) (outs : Nat) : Nat → List Nat → Chan → Nat → Nat × Chan
  | 0, _, c, lvl => (lvl, c)
  | d + 1, pins, c, lvl =>
    let (b, c) := c.outBit dir fill
    match pins with
    | [] => outShift dir fill outs d [] c lvl
    | p :: t => outShift dir fill outs d t c (if bitOf outs p then withBits lvl p 1 (b2n b) else lvl)

/-- Pin action, then out-shift; the changes of the round of fc b reach the boundary at the edge that ends fc b + 5 (R292, R296). -/
def State.pinsAndOut (s : State) (n k w b : Nat) : State :=
  let framed := s.chFramed n k
  let outs := if framed then 0 else s.chOutputs n k
  let mask := bitsOf w 33 4
  let c := s.chan n k
  let (lvl, oe) := pinAction (bitsOf w 37 3) (mask &&& outs) c.lvl c.oe
  let (lvl, c) := if bitOf w 31 then
      outShift (bitOf w 28) (s.flag (CH_CCFG n k) fCH_CCFG_FILL) outs (bitsOf w 29 2 + 1)
        ((maskedPins mask).filter (fun p => bitOf outs p)) c lvl
    else (lvl, c)
  (s.setChan n k c).drivePins n k (b + 6) lvl oe

/-- OSR := CH_TXIDLE. -/
def State.chIdle (s : State) (n k : Nat) : State :=
  s.setChan n k { s.chan n k with osr := s.reg (CH_TXIDLE n k), osrN := 32 }

/-- PULL (R299): the poison mark is tested before the word takes effect. -/
def State.chPull (s : State) (n k : Nat) (st : Stamp) : State :=
  match (s.chan n k).tx with
  | [] => ((s.chIdle n k).incSat (CH_CNT_A n k) fCH_CNT_A_TUND).chFlag n k 5 st
  | w :: t => s.setChan n k { s.chan n k with osr := w.1, osrN := 32, tx := t }

/-- The held bits of the ISR, right-justified. -/
def Chan.held (c : Chan) (dir : Bool) : Nat :=
  if dir then c.isr.toNat / 2 ^ (32 - c.isrN) else c.isr.toNat % 2 ^ c.isrN

/-- PUSH (R299). -/
def State.chPush (s : State) (n k : Nat) (dir : Bool) (st : Stamp) : State :=
  let c := s.chan n k
  if c.isrN = 0 then s
  else
    let e : RxEntry := ⟨.ofNat 32 (c.held dir), c.isrN - 1, s.reg64 (CH_STAMP_LO n k) (CH_STAMP_HI n k)⟩
    (s.setChan n k { c with isrN := 0 }).rxPush n k e st

/-- PFM (R299): an angle for the logical feedback unit CH_CCFG.PFU. -/
def State.chPfm (s : State) (n k : Nat) (dir : Bool) : State :=
  let c := s.chan n k
  let ang := BitVec.ofNat 32 (c.held dir * 2 ^ (32 - c.isrN))
  let s := s.setChan n k { c with isrN := 0 }
  match s.findPf (s.fld (CH_CCFG n k) fCH_CCFG_PFU) with
  | none => s
  | some x => s.hurdle 4 n (fun s =>
      s.measCommit x ang (s.reg64 (CH_STAMP_LO n k) (CH_STAMP_HI n k)) false (s.flockInc (s.fld (CH_CCFG n k) fCH_CCFG_FLOCK)))

/-- The queue action of a word that takes effect. -/
def State.chQact (s : State) (n k w : Nat) (st : Stamp) : State :=
  let dir := bitOf w 28
  let f := bitsOf w 33 4
  match bitsOf w 25 3 with
  | 1 => s.chPull n k st
  | 2 => s.chPush n k dir st
  | 3 => s.chIdle n k
  | 4 => s.chPfm n k dir
  | 5 => s.hurdle 4 n (fun s => s.setNat CH_FLAGS (s.nat CH_FLAGS ||| 2 ^ f))
  | 6 => s.hurdle 4 n (fun s => s.setNat CH_FLAGS (withBits (s.nat CH_FLAGS) f 1 0))
  | _ => s

/-- The counter operation (R302). -/
def State.chCnt (s : State) (n k w : Nat) : State :=
  let c := s.fld (CH_CSTAT n k) fCH_CSTAT_CNT
  let set := fun v => s.setFld (CH_CSTAT n k) fCH_CSTAT_CNT v
  match bitsOf w 8 3 with
  | 1 => set (s.fld (CH_CNTLD n k) fCH_CNTLD_VALUE)
  | 2 => set (c + 255)
  | 3 => set (c + 1)
  | 4 => set 0
  | 5 => set ((s.chan n k).isr.toNat % 256)
  | _ => s

/-- The stamp request (R303): 1 takes the stamp of fc b of the round. -/
def State.chStmp (s : State) (n k w : Nat) (st : Stamp) : State :=
  match bitsOf w 0 2 with
  | 1 => s.setReg64 (CH_STAMP_LO n k) (CH_STAMP_HI n k) st
  | 2 => s.setChan n k { s.chan n k with cap := some false }
  | 3 => s.setChan n k { s.chan n k with cap := some true }
  | _ => s

/-- The cause for which a word that would take effect faults instead, 0 for none (R304). -/
def State.wordFault (s : State) (n k w : Nat) : Nat :=
  let q := bitsOf w 25 3
  if (q = 5 ∨ q = 6) ∧ s.chPriv n = false then 3
  else if q = 4 ∧ s.flag (CH_CCFG n k) fCH_CCFG_PFEN = false then 4
  else if q = 1 ∧ ((s.chan n k).tx.headD (0, false)).2 = true then 2
  else 0

/-- Does the word hold: a HOLD whose condition fails, or an FACQ that does not win (R301, R311)? -/
def State.wordHolds (s : State) (n k w : Nat) (pio : BitVec 192) : Bool :=
  (bitsOf w 19 2 == 1 && !s.chCond n k w pio)

/-- Does an FACQ fail to win its flag? A fenced or tested unit's request does not reach the flag. -/
def State.facqHolds (s : State) (n w : Nat) : Bool :=
  bitsOf w 25 3 == 5 && (bitOf (s.nat CH_FLAGS) (bitsOf w 33 4) || s.hurdleDrops 4 n || s.underTest 4 n)

/-- The word takes effect, in the order of R296. -/
def State.chEffect (s : State) (n k w : Nat) (r : Round) : State :=
  let pc := s.fld (CH_CSTAT n k) fCH_CSTAT_PC
  let s := s.inShift n k w r.pio
  let s := s.pinsAndOut n k w r.fc
  let s := s.chQact n k w s.now
  let s := s.chCnt n k w
  let s := s.chStmp n k w r.stamp
  let flow := bitsOf w 19 2
  let c := flow == 1 || s.chCond n k w r.pio
  let s := if flow == 2 && c then s.chRaise n 1 s.now [k, pc, (s.chan n k).isr.toNat % 65536] else s
  let s := s.setFld (CH_CSTAT n k) fCH_CSTAT_PC (if c then bitsOf w 11 8 else pc + 1)
  s.setChan n k { s.chan n k with delay := bitsOf w 2 6 }

/-- One channel in its fc of a round (R292). -/
def State.chanStep (s : State) (n k : Nat) (r : Round) : State :=
  if !s.chanRuns n k || (s.chanter n).cmds.contains (.begin k) then s
  else
    let c := s.chan n k
    if c.delay ≠ 0 then s.setChan n k { c with delay := c.delay - 1 }
    else
      let st := s.now
      let a := s.fld (CH_CSTAT n k) fCH_CSTAT_PC
      let w := s.chantWord n a
      if s.poisoned (CH_CMEM_LO n a) || s.poisoned (CH_CMEM_HI n a) then s.chFault n k 2 st
      else if wordBad w then s.chFault n k 1 st
      else if s.wordHolds n k w r.pio then s
      else if s.wordFault n k w ≠ 0 then s.chFault n k (s.wordFault n k w) st
      else if s.facqHolds n w then s
      else s.chEffect n k w r

/-- The fc in which the next beat falls (R293). -/
def State.beatFc (s : State) (n : Nat) : Nat :=
  (s.chanter n).origin
    + ((s.chanter n).beat * s.fld (CH_DIV n) fCH_DIV_DIV + s.fld (CH_DIVPH n) fCH_DIVPH_PH) / 256

/-- A round begins in this fc, when its beat has come (R292). -/
def State.round (s : State) (n : Nat) (pio : BitVec 192) : State :=
  if s.chRun n && !s.chFrozen n && s.live && decide (s.beatFc n ≤ s.fc) then
    s.setChanter n { s.chanter n with beat := (s.chanter n).beat + 1, rounds := (s.chanter n).rounds ++ [⟨s.fc, s.now, pio⟩] }
  else s

/-- The channels of Chanter n that execute in this fc, 4i to 4i + 3 in fc b + i, in ascending order (R292, R311). -/
def State.chExec (s : State) (n : Nat) : State :=
  let rs := (s.chanter n).rounds
  let s := rs.foldl (fun s r =>
    let i := s.fc - r.fc
    if i < 4 then [4 * i, 4 * i + 1, 4 * i + 2, 4 * i + 3].foldl (fun s k => s.chanStep n k r) s else s) s
  s.setChanter n { s.chanter n with rounds := rs.filter (fun r => decide (s.fc < r.fc + 3)) }

/-- An edge of window pin `w`, the capture pin of a channel when EPIN names it, `t` tk before the next CLK_FAST edge (R303). -/
def State.chCapture (s : State) (n k w t : Nat) (rising : Bool) : State :=
  let c := s.chan n k
  if c.cap = some rising ∧ w = s.fld (CH_CCFG n k) fCH_CCFG_EPIN ∧ s.live = true then
    (s.setReg64 (CH_STAMP_LO n k) (CH_STAMP_HI n k) (s.edgeStamp t)).setChan n k { c with cap := none }
  else s

/-! ### Start, stop, restart, halt, sync (R310, R314) -/

/-- Restart one channel at its START. -/
def State.chanRestart (s : State) (n k : Nat) : State :=
  if s.chEn n k && s.chOk n k then
    let outs := s.chOutputs n k
    let lvl := maskOf (fun w => bitOf outs w && s.stoppedLevel n k w) 4
    let c := s.chan n k
    let s := s.setFld (CH_CSTAT n k) fCH_CSTAT_PC (s.fld (CH_CCFG n k) fCH_CCFG_START)
    let s := s.setFld (CH_CSTAT n k) fCH_CSTAT_CNT 0
    let s := s.setChan n k { c with osrN := 0, isrN := 0, delay := 0, cap := none, frm := 0, frmN := 0, lvl := lvl, oe := outs }
    let x := s.chanter n
    s.setChanter n { x with bound := x.bound.filter (fun b => b.ch != k), pins := tset (fun _ => 0) x.pins k (lvl + 16 * outs) }
  else s

/-- Restart the divider at the edge that begins fc `e`. -/
def State.divRestart (s : State) (n e : Nat) : State :=
  s.setChanter n { s.chanter n with origin := e, beat := 0, frozenAt := (s.chanter n).frozenAt.map (fun _ => e) }

/-- CH_CTRL START (R310), at the edge that begins fc `e`: words in progress are abandoned. -/
def State.chStart (s : State) (n e : Nat) : State :=
  let s := (s.setFlag (CH_STAT n) fCH_STAT_RUN true).divRestart n e
  let s := s.setChanter n { s.chanter n with rounds := [] }
  forN (fun k s => s.chanRestart n k) 16 s

def State.chStop (s : State) (n : Nat) : State := s.setFlag (CH_STAT n) fCH_STAT_RUN false

/-- CH_CCTL RESTART (R314). -/
def State.chanRestartCmd (s : State) (n k : Nat) : State :=
  let s := (s.setFld (CH_CSTAT n k) fCH_CSTAT_FAULT 0).setFlag (CH_CSTAT n k) fCH_CSTAT_HOLD false
  let s := s.setFld (CH_STAT n) fCH_STAT_FAULTED (withBits (s.fld (CH_STAT n) fCH_STAT_FAULTED) k 1 0)
  s.chanRestart n k

/-- CH_CCTL HALT. -/
def State.chanHalt (s : State) (n k : Nat) : State := s.setFlag (CH_CSTAT n k) fCH_CSTAT_HOLD true

/-- What acts at the edge that ends the present fc. -/
def State.chCmd (s : State) (n : Nat) (c : ChCmd) : State :=
  s.setChanter n { s.chanter n with cmds := (s.chanter n).cmds ++ [c] }

def State.chDo (s : State) (n : Nat) (c : ChCmd) : State :=
  match c with
  | .start => s.chStart n (s.fc + 1)
  | .stop => s.chStop n
  | .divide => if s.chRun n then s.divRestart n (s.fc + 1) else s
  | .begin k => if s.chRun n then s.chanRestart n k else s
  | .restart k => s.chanRestartCmd n k
  | .halt k => s.chanHalt n k

/-- A write of CH_SYNC_CTRL (R310): OP 0 cancels, else syncs are to come. SRC 3 and OP 3 store 0 and are counted. -/
def State.syncCtrlWrite (s : State) (v : Word) : State :=
  let badS := bitsOf v.toNat 4 2 = 3
  let badO := bitsOf v.toNat 0 2 = 3
  let n := if badS then withBits v.toNat 4 2 0 else v.toNat
  let n := if badO then withBits n 0 2 0 else n
  let s := if badS ∨ badO then s.inc RC_RSVD_WRITES else s
  let s := s.setNat CH_SYNC_CTRL n
  { s with ch.sync := if bitsOf n 0 2 = 0 then none else some s.fc }

/-- The fc that a sync edge begins, if a sync is due in the present fc (R310). -/
def State.syncDue (s : State) : Option Nat :=
  match s.ch.sync with
  | none => none
  | some w =>
    match s.fld CH_SYNC_CTRL fCH_SYNC_CTRL_SRC with
    | 0 => if w < s.fc then some (s.fc + 1) else none
    | 1 => if reached (s.reg64 CH_SYNC_TIME_LO CH_SYNC_TIME_HI) s.now then some (s.fc + 1) else none
    | _ =>
      if s.si.fires.any (fun f => f.fc == s.fc && f.m == s.fld CH_SYNC_CTRL fCH_SYNC_CTRL_SOCSEL) = true ∧ s.ch.syncFc ≠ s.fc + 1 then some s.fc
      else none

/-- After a sync: it is counted; SRC 0 is over, SRC 1 advances its time or is over. -/
def State.syncDone (s : State) : State :=
  let s := { s.inc CH_SYNC_CNT with ch.syncFc := s.fc + 1 }
  match s.fld CH_SYNC_CTRL fCH_SYNC_CTRL_SRC with
  | 0 => { s with ch.sync := none }
  | 1 =>
    let per := s.nat CH_SYNC_TPER
    if per = 0 then { s with ch.sync := none }
    else s.setReg64 CH_SYNC_TIME_LO CH_SYNC_TIME_HI (s.reg64 CH_SYNC_TIME_LO CH_SYNC_TIME_HI + BitVec.ofNat 64 per)
  | _ => s

/-- A sync at the edge that begins fc `e`, the present one or the next: every named Chanter acts at it. -/
def State.chSyncAt (s : State) (e : Nat) : State :=
  let op := s.fld CH_SYNC_CTRL fCH_SYNC_CTRL_OP
  let s := forN (fun l s =>
    if bitOf (s.nat CH_SYNC_MASK) l then
      match s.findCh l with
      | none => s
      | some n =>
        if e ≠ s.fc then s.chCmd n (if op = 1 then .start else .divide)
        else if op = 1 then s.chStart n e
        else if s.chRun n then s.divRestart n e
        else s
    else s) 32 s
  s.syncDone

/-! ### Framed mode (R312, R313) -/

/-- SDO loads the next TX word; a poisoned one faults the channel. -/
def State.sdoLoad (s : State) (n k : Nat) : State :=
  match (s.chan n k).tx with
  | [] =>
    let s := s.setChan n k { s.chan n k with sdo := s.reg (CH_TXIDLE n k) }
    (s.incSat (CH_CNT_A n k) fCH_CNT_A_TUND).chFlag n k 5 s.now
  | w :: t =>
    if w.2 then s.chFault n k 2 s.now else s.setChan n k { s.chan n k with sdo := w.1, tx := t }

/-- Drive SDO with bit `i` of its word, counted from the end FDIR names; it appears at the boundary like any pin. -/
def State.sdoDrive (s : State) (n k i : Nat) : State :=
  let c := s.chan n k
  let b := if s.flag (CH_FRM n k) fCH_FRM_FDIR then c.sdo.getLsbD i else c.sdo.getLsbD (31 - i)
  let s := s.setChan n k { c with sdoBit := b }
  s.drivePins n k (s.fc + 1) (withBits c.lvl 3 1 (b2n b)) c.oe

/-- A framed push, taken at the end of the fc: the channel's own PUSH precedes it (R307). -/
def State.framedPush (s : State) (n k : Nat) (v : Word) (tag : Nat) : State :=
  s.setChan n k { s.chan n k with frmPush := (s.chan n k).frmPush ++ [(v, tag)] }

/-- WLEN + 1 bits are sampled: the word is pushed and SDO loads the next one. -/
def State.framedWord (s : State) (n k : Nat) : State :=
  let c := s.chan n k
  let wlen := s.fld (CH_FRM n k) fCH_FRM_WLEN
  if s.chFramed n k && s.chanRuns n k && c.sel && decide (wlen + 1 ≤ c.frmN) then
    let v := if s.flag (CH_FRM n k) fCH_FRM_FDIR then c.frm.toNat / 2 ^ (31 - wlen) else c.frm.toNat % 2 ^ (wlen + 1)
    ((s.setChan n k { c with frm := 0, frmN := 0 }).framedPush n k (.ofNat 32 v) wlen).sdoLoad n k
  else s

/-- SEL takes a level, `t` tk before the next CLK_FAST edge; at the level of SELPOL it asserts. -/
def State.frameStart (s : State) (n k t : Nat) (level : Bool) : State :=
  if s.chFramed n k && s.live && !(s.chan n k).sel && level == s.flag (CH_FRM n k) fCH_FRM_SELPOL then
    let s := s.setChan n k { s.chan n k with sel := true, frm := 0, frmN := 0, frmBits := 0 }
    if s.chanRuns n k then
      let s := s.setReg64 (CH_STAMP_LO n k) (CH_STAMP_HI n k) (s.edgeStamp t)
      let s := s.sdoLoad n k
      if s.chanRuns n k then s.sdoDrive n k 0 else s
    else s
  else s

/-- Does EXC stop the shifting at FBITS bits? -/
def State.frameFull (s : State) (n k : Nat) : Bool :=
  s.flag (CH_FRM n k) fCH_FRM_EXC && s.fld (CH_FRM n k) fCH_FRM_FBITS != 0
    && decide (s.fld (CH_FRM n k) fCH_FRM_FBITS ≤ (s.chan n k).frmBits)

/-- An SCLK edge while SEL is asserted: a sampling edge adds one bit of SDI, the other edge changes SDO. A word that stands
complete is pushed first. -/
def State.sclkEdge (s : State) (n k : Nat) (rising sdi : Bool) : State :=
  let s := s.framedWord n k
  let c := s.chan n k
  if s.chFramed n k && s.chanRuns n k && c.sel && s.live then
    if rising != s.flag (CH_FRM n k) fCH_FRM_SEDGE then
      if s.frameFull n k then (s.incSat (CH_CNT_B n k) fCH_CNT_B_XBITS).chFlag n k 8 s.now
      else s.setChan n k { c with frm := shiftIn c.frm (s.flag (CH_FRM n k) fCH_FRM_FDIR) sdi, frmN := c.frmN + 1, frmBits := c.frmBits + 1 }
    else if s.frameFull n k then s else s.sdoDrive n k c.frmN
  else s

/-- SEL takes a level; at the other level it releases. A sampling edge of the same fc comes first (R312). -/
def State.frameEnd (s : State) (n k : Nat) (level : Bool) : State :=
  if s.chFramed n k && s.live && level != s.flag (CH_FRM n k) fCH_FRM_SELPOL then
    s.setChan n k { s.chan n k with release := true }
  else s

/-- SEL has released (R313). -/
def State.frameRelease (s : State) (n k : Nat) : State :=
  let s := s.framedWord n k
  let c := s.chan n k
  let run := s.chanRuns n k
  let s := s.setChan n k { c with sel := false, release := false }
  if s.chFramed n k && run && c.sel then
    let s :=
      if c.frmN = 0 then s
      else if s.flag (CH_FRM n k) fCH_FRM_PART then
        let v := if s.flag (CH_FRM n k) fCH_FRM_FDIR then c.frm.toNat / 2 ^ (32 - c.frmN) else c.frm.toNat % 2 ^ c.frmN
        s.framedPush n k (.ofNat 32 v) (c.frmN - 1 + 32)
      else (s.incSat (CH_CNT_B n k) fCH_CNT_B_PDROP).chFlag n k 9 s.now
    let s := s.setChan n k { s.chan n k with frm := 0, frmN := 0 }
    if c.frmBits < s.fld (CH_FRM n k) fCH_FRM_FBITS then s.chFlag n k 10 s.now else s
  else s

/-! ### The end of an fc -/

/-- A channel at the edge that ends the fc, after the words that executed in it: a release of SEL, framed pushes, pushes into the TX
queue (R307, R312). -/
def State.chanEnd (s : State) (n k : Nat) : State :=
  let c := s.chan n k
  let s := if c.release then s.frameRelease n k else s
  let ps := (s.chan n k).frmPush
  let s := if ps = [] then s else
    ps.foldl (fun s e => s.rxPush n k ⟨e.1, e.2, s.reg64 (CH_STAMP_LO n k) (CH_STAMP_HI n k)⟩ s.now)
      (s.setChan n k { s.chan n k with frmPush := [] })
  if (s.chan n k).txNext = [] then s else s.txTakeAll n k

/-- A Chanter there, after its channels: the commands of the fc. -/
def State.chEnd (s : State) (n : Nat) : State :=
  let s := ((s.chanter n).chans.map (·.1)).foldl (fun s k => s.chanEnd n k) s
  let cs := (s.chanter n).cmds
  if cs = [] then s else cs.foldl (fun s c => s.chDo n c) (s.setChanter n { s.chanter n with cmds := [] })

/-- The Chanters at the edge that ends the fc: all words of the fc, in ascending order of Chanter and channel (R311), then the rest. -/
def State.chsEnd (s : State) : State :=
  let s := ((List.range 36).filter (fun n => (s.chanter n).rounds != [])).foldl State.chExec s
  (s.chs.map (·.1)).foldl State.chEnd s

/-! ### Freeze, flock reset, register writes (R314, R306, R293, R294) -/

def State.chFreeze (s : State) (n : Nat) : State :=
  if s.fld (CH_CFG n) fCH_CFG_FRZ = 0 ∨ s.chFrozen n = true then s
  else (s.setFlag (CH_STAT n) fCH_STAT_FROZEN true).setChanter n { s.chanter n with frozenAt := some s.fc }

/-- The freeze ends: the beats go on as they stood. -/
def State.chUnfreeze (s : State) (n : Nat) : State :=
  match (s.chanter n).frozenAt with
  | none => s
  | some f => (s.setFlag (CH_STAT n) fCH_STAT_FROZEN false).setChanter n { s.chanter n with frozenAt := none, origin := (s.chanter n).origin + (s.fc - f) }

/-- A flock reset of the channels of flock f. -/
def State.chFlockReset (s : State) (f : Nat) : State :=
  forN (fun n s => forN (fun k s =>
    if s.fld (CH_CCFG n k) fCH_CCFG_FLOCK = f ∧ (s.chEn n k = true ∨ s.chan n k ≠ {}) then
      (s.setFlag (CH_CCFG n k) fCH_CCFG_EN false).setChan n k { s.chan n k with tx := [], rx := [], txNext := [], frmPush := [], cap := none }
    else s) 16 s) 36 s

/-- A write of CH_MAP (R291). -/
def State.chMapWrite (s : State) (n : Nat) (v : Word) : State :=
  let dup := bitOf v.toNat 6 && (firstIdx (fun h => h != n && s.flag (CH_MAP h) fCH_MAP_LVALID
    && s.fld (CH_MAP h) fCH_MAP_LOGICAL == bitsOf v.toNat 0 5) 36).isSome
  if dup then s.inc (CH_CFG_REFUSED n) else s.setReg (CH_MAP n) v

/-- A write of CH_CFG: NCHM1 changes only while RUN = 0 and empties the queues; FRZ 2 and 3 store 1 (R306, R314). -/
def State.chCfgWrite (s : State) (n : Nat) (v : Word) : State :=
  let v := if 2 ≤ bitsOf v.toNat 4 2 then BitVec.ofNat 32 (withBits v.toNat 4 2 1) else v
  let change := bitsOf v.toNat 0 4 ≠ s.fld (CH_CFG n) fCH_CFG_NCHM1
  if change ∧ s.chRun n = true then s.inc (CH_CFG_REFUSED n)
  else
    let s := s.setReg (CH_CFG n) v
    if change then s.chEmpty n else s

/-- A write of CH_DIV (R293). -/
def State.chDivWrite (s : State) (n : Nat) (v : Word) : State :=
  if v.toNat < 0x400 then (s.setNat (CH_DIV n) 0x400).inc RC_RSVD_WRITES else s.setReg (CH_DIV n) v

/-- A write of CH_DIVPH (R293). -/
def State.chDivphWrite (s : State) (n : Nat) (v : Word) : State :=
  if s.fld (CH_DIV n) fCH_DIV_DIV ≤ v.toNat then (s.setNat (CH_DIVPH n) 0).inc RC_RSVD_WRITES else s.setReg (CH_DIVPH n) v

/-- A write of CH_CCFG (R306, R314): all but EN is fixed while the channel runs, JOIN and CHAIN while the Chanter runs;
an enable waits for CLEAN (R375), and starts the channel when the Chanter runs (R294, R297). -/
def State.ccfgWrite (s : State) (n k : Nat) (v : Word) : State :=
  let badJ := bitsOf v.toNat 16 2 = 3
  let badC := k = 15 ∧ bitOf v.toNat 18 = true
  let x := if badJ then withBits v.toNat 16 2 0 else v.toNat
  let x := if badC then withBits x 18 1 0 else x
  let s := if badJ ∨ badC then s.inc RC_RSVD_WRITES else s
  let old := s.nat (CH_CCFG n k)
  let jc := bitsOf x 16 3 ≠ bitsOf old 16 3
  let other := bitsOf x 0 31 ≠ bitsOf old 0 31
  let enable := bitOf x 31 = true ∧ bitOf old 31 = false
  if (other ∧ s.chanRuns n k = true) ∨ (jc ∧ s.chRun n = true) ∨ (enable ∧ s.notClean (bitsOf x 27 4) = true) then
    s.inc (CH_CFG_REFUSED n)
  else
    let s := s.setNat (CH_CCFG n k) x
    let s := if enable ∧ s.chRun n = true then s.chCmd n (.begin k) else s
    if jc then s.chEmpty n else s

/-- A write of CH_FRM. -/
def State.chFrmWrite (s : State) (n k : Nat) (v : Word) : State :=
  if s.chanRuns n k ∧ v ≠ s.reg (CH_FRM n k) then s.inc (CH_CFG_REFUSED n) else s.setReg (CH_FRM n k) v

/-- A write of CH_RXDST: FMT 3 stores 0 and is counted (R307). -/
def State.rxdstWrite (s : State) (n k : Nat) (v : Word) : State :=
  if bitsOf v.toNat 29 2 = 3 then (s.setNat (CH_RXDST n k) (withBits v.toNat 29 2 0)).inc RC_RSVD_WRITES
  else s.setReg (CH_RXDST n k) v

/-- A write to control memory (R294). -/
def State.cmemWrite (s : State) (n off : Nat) (v : Word) : State :=
  if s.chRun n && v != s.reg off then s.inc (CH_CFG_REFUSED n)
  else if s.chRun n then s
  else s.setReg off v

end Sys2Proof.Machine
end

