-- ==== Sys2Proof/Machine/Engines.lean ====
section
/-!
DEFINITION. Loop Engine tasks, deadlines, faults, commands and configuration writes (03_loop_engines.md R62 to R88), and
the Rank units (R89 to R92).
-/

namespace Sys2Proof.Machine

def State.leEn (s : State) (p : Nat) : Bool := s.flag (LE_CTRL p) fLE_CTRL_EN
def State.leFlock (s : State) (p : Nat) : Nat := s.fld (LE_MAP p) fLE_MAP_FLOCK
def State.leLogical (s : State) (p : Nat) : Nat := s.fld (LE_MAP p) fLE_MAP_LOGICAL
def State.slotPri (s : State) (p k : Nat) : Nat := s.fld (LE_TASK_CFG p k) fLE_TASK_CFG_PRI

/-- The bank of priority b of an engine. -/
def State.bank (s : State) (p b : Nat) : Bank := tget (fun _ => ({} : Bank)) (s.eng p).banks b

/-- Place a bank; how the present fc found it is kept for the bank window (R96). -/
def State.setBank (s : State) (p b : Nat) (x : Bank) : State :=
  let e := s.eng p
  let kept := if e.prevFc = s.fc + 1 then e.prev else []
  s.setEng p { e with
    banks := tset (fun _ => ({} : Bank)) e.banks b x
    prevFc := s.fc + 1
    prev := if kept.any (fun z => z.1 == b) then kept else (b, s.bank p b) :: kept }

/-- What the bank window shows of bank b: of the bank in use, the values held at the end of the previous fc (R96). -/
def State.bankShown (s : State) (p b : Nat) : Bank :=
  let e := s.eng p
  let inUse := !e.halted && (s.running p).any (fun k => s.slotPri p k == b)
  match if inUse && e.prevFc == s.fc + 1 then e.prev.find? (fun z => z.1 == b) else none with
  | some z => z.2
  | none => s.bank p b

/-! ### The macro-instruction in progress (06_microcode.md R180, R181, R184) -/

/-- LE_UCONT.VALID. -/
def Micro.suspended (m : Micro) : Bool := bitOf m.ucont.toNat 31

/-- LE_UCONT.VALID is cleared. -/
def Micro.unvalid (m : Micro) : Micro := { m with ucont := m.ucont &&& 0x7FFFFFFF }

/-- Nothing is in progress: what an activation or an instruction ends with, or what is abandoned; LE_UCONT is kept. -/
def Micro.cleared (m : Micro) : Micro :=
  { m with mid := 0, again := false, counted := false, part := none, staged := [], latch := false, atEnd := 0 }

/-- The end of a macro-instruction: DISP writes LE_UCONT.VALID = 0 (R180). -/
def Micro.ended (m : Micro) : Micro := { m.cleared.unvalid with stack := [], resumed := false }

/-- Does the instruction stand where the spec does not give the words of its routine? -/
def Micro.blind (m : Micro) : Bool := m.upc.isNone || m.part.isSome

/-- LE_UCONT at a safe point inside a macro-instruction. Where the spec does not give the words of its routine, all but VALID is a
free value (log entry 1). -/
def Micro.contWord (m : Micro) (free : Nat) : Word :=
  .ofNat 32 (2 ^ 31 + (if m.blind then bitsOf free 29 2 * 2 ^ 29 + bitsOf free 0 27
    else b2n (!m.staged.isEmpty) * 2 ^ 30 + b2n m.latch * 2 ^ 29 + m.ucnt % 2048 * 2 ^ 16 + min 4 m.stack.length * 2 ^ 13
      + m.upc.getD 0 % 8192))

/-- Set the WCS distance counter of an engine. -/
def State.setDist (s : State) (p n : Nat) : State :=
  let e := s.eng p
  s.setEng p { e with dist := n, distFc := s.fc + 1, distOld := if e.distFc = s.fc + 1 then e.distOld else e.dist }

/-- The counter as the micro-state window of bank b shows it: of the bank in use, the value at the end of the previous fc (R194). -/
def State.distShown (s : State) (p b : Nat) : Nat :=
  let e := s.eng p
  if !e.halted && (s.running p).any (fun k => s.slotPri p k == b) && e.distFc == s.fc + 1 then e.distOld else e.dist

/-! ### LE_MODE (R109, R110) -/

/-- RND and SAT of a value written: a RND of 3 stores 2. -/
def modeLow (v : Word) : Nat := if bitsOf v.toNat 0 2 = 3 then bitsOf v.toNat 2 1 * 4 + 2 else bitsOf v.toNat 0 3

/-- RND and SAT of `v` come into force, the flags stay. -/
def Bank.applyMode (x : Bank) (v : Word) : Bank :=
  { x with mode := .ofNat 32 (withBits x.mode.toNat 0 3 v.toNat) }

/-- One instruction has completed: changes that are due come into force. -/
def Bank.modeTick (x : Bank) : Bank :=
  let ws := x.modeWait.map (fun e => (e.1 - 1, e.2))
  let x := (ws.filter (fun e => e.1 == 0)).foldl (fun x e => x.applyMode e.2) x
  { x with modeWait := ws.filter (fun e => e.1 != 0) }

/-- The end of an activation applies every pending change (R131). -/
def Bank.modeEnd (x : Bank) : Bank :=
  let x := x.modeWait.foldl (fun x e => x.applyMode e.2) x
  { x with modeWait := [] }

/-! ### Engine memories (R64, R22) -/

/-- The regions of the engine address space. -/
inductive Region
  | localRam | loopBuf | shared | code | window | sys | none
deriving DecidableEq, Repr

def engRegion (a : Nat) : Region :=
  if a < 0x10000 then .localRam
  else if a < 0x11000 then .loopBuf
  else if 0x80000 ≤ a ∧ a < 0x100000 then .shared
  else if 0x100000 ≤ a ∧ a < 0x140000 then .code
  else if 0x400000 ≤ a ∧ a < 0x800000 then .window
  else if 0x800000 ≤ a ∧ a < 0x1000000 then .sys
  else .none

/-- The byte address in the HPP window of an engine address of its memories. -/
def engPhys (p a : Nat) : Nat :=
  match engRegion a with
  | .localRam => 0x1000000 + p * 0x10000 + a
  | .loopBuf => 0x1480000 + p * 0x1000 + (a - 0x10000)
  | .shared => 0x1500000 + p / 9 * 0x80000 + (a - 0x80000)
  | _ => 0x1A00000 + p / 9 * 0x40000 + (a - 0x100000)

/-! ### The Drove's registers (R456, R457): what a store of an engine needs to know -/

def State.dvPhase (s : State) : Nat := s.fld RS_DV_STAT fRS_DV_STAT_PHASE
def State.dvKind (s : State) : Nat := s.fld RS_DV_CTRL fRS_DV_CTRL_KIND
def State.dvSrc (s : State) : Nat := s.fld RS_DV_CTRL fRS_DV_CTRL_SRC
def State.dvDst (s : State) : Nat := s.fld RS_DV_CTRL fRS_DV_CTRL_DST

/-- PRELOAD, ARMED or HOLD. -/
def State.dvBusy (s : State) : Bool := decide (1 ≤ s.dvPhase) && decide (s.dvPhase ≤ 3)

/-- The engine into whose memories the stores of engine p are mirrored (R457). -/
def State.mirrorOf (s : State) (p : Nat) : Option Nat :=
  if s.dvBusy && s.dvKind == 0 && s.dvSrc == p then some s.dvDst else none

/-- A store of an engine to its memories: mirrored into the target of a Drove (R457). -/
def State.engStore (s : State) (p a : Nat) (bs : List Byte) (ms : List Bool) : State :=
  let s := s.storeAt (p % 9) (engPhys p a) bs ms
  match s.mirrorOf p with
  | some q => if a < 0x11000 then s.storeBytes (engPhys q a) bs ms else s
  | none => s

/-- The line of code RAM that an address lies in; none for the loop buffer. -/
def codeLine (a : Nat) : Option Nat := if engRegion a == .code then some (a / 32) else none

/-- One step of the write-out of the code-store buffer (R112): every entry bound for the loop buffer and one line of code RAM
(05_cycle_timing.md R149). Are lines left? The interval before the next one is a safe point (R150). -/
def State.codeStep (s : State) (p : Nat) : Bool × State :=
  let es := (s.eng p).codeBuf
  let line := (es.filterMap (fun e => codeLine e.1)).head?
  let now (e : Nat × List Byte × List Bool) : Bool := (codeLine e.1).isNone || codeLine e.1 == line
  let rest := es.filter (fun e => !now e)
  let s := s.setEng p { s.eng p with codeBuf := rest }
  (!rest.isEmpty, (es.filter now).foldl (fun s e => s.engStore p e.1 e.2.1 e.2.2) s)

/-- The code-store buffer is written to memory, oldest first (R112). -/
def State.codeWriteOut (s : State) (p : Nat) : State :=
  let es := (s.eng p).codeBuf
  let s := s.setEng p { s.eng p with codeBuf := [] }
  es.foldl (fun s e => s.engStore p e.1 e.2.1 e.2.2) s

/-! ### Events and records of an engine (R546, R547) -/

/-- A raise of an engine's own source through its Hurdle (R461). -/
def State.leRaise (s : State) (p src p0 p1 : Nat) : State := s.hurdle 0 p (fun s => s.raise (64 + 4 * p + src) p0 p1)

/-- The fault event and its record 0x001: kind 1 fault, 2 double fault, 3 machine check, 4 late-store error. -/
def State.faultEvent (s : State) (p kind cause cause2 slot pc addr : Nat) : State :=
  let l := s.leLogical p
  let c := if kind = 2 then cause2 else if kind = 4 then 0 else cause
  let s := s.leRaise p 0 (kind + c * 16 + slot * 256 + l * 65536) addr
  s.record (64 + 4 * p) 1 (kind + cause * 16 + cause2 * 256 + slot * 4096) (if kind = 4 then 0 else pc) addr l

/-- A denial of the engine (R74, R127, R129): counted, raised and journalled with kind 5, 6 or 7. -/
def State.urpDenied (s : State) (p kind slot pc what : Nat) : State :=
  let s := (s.inc (LE_URP_DENIED p)).leRaise p 0 (kind + slot * 256 + s.leLogical p * 65536) what
  s.record (64 + 4 * p) 3 (kind + slot * 256) what pc 0

/-! ### Activations (R78 to R81) -/

/-- The end of an activation, by WAIT or by a missed deadline (R84, R131). -/
def State.endActivation (s : State) (p k : Nat) : State :=
  let b := s.slotPri p k
  let s := s.codeWriteOut p
  let x := (s.bank p b).modeEnd
  let s := s.setBank p b { x with wait := none, micro := x.micro.ended }
  s.slotIdle p k

/-- Is slot j chosen before slot k (R78)? Priority, PREEMPTED before READY, earliest stamp, lowest number. -/
def State.dispatchBefore (s : State) (p j k : Nat) : Bool :=
  let pj := s.slotPri p j
  let pk := s.slotPri p k
  let ej := s.slotState p j == 4
  let ek := s.slotState p k == 4
  if pj ≠ pk then decide (pk < pj)
  else if ej ≠ ek then ej
  else if (s.slot p j).stamp ≠ (s.slot p k).stamp then decide ((s.slot p j).stamp.toNat < (s.slot p k).stamp.toNat)
  else decide (j < k)

/-- The slot that a dispatch selects. -/
def State.nextSlot (s : State) (p : Nat) : Option Nat :=
  forN (fun k best =>
    if s.slotState p k == 2 || s.slotState p k == 4 then
      match best with
      | none => some k
      | some j => if s.dispatchBefore p k j then some k else some j
    else best) 8 none

/-- May the engine dispatch now? -/
def State.mayDispatch (s : State) (p : Nat) : Bool :=
  s.live && s.leEn p && !(s.eng p).parked && !(s.eng p).halted && !(s.eng p).held && (s.running p).isNone

/-- A new activation of slot k. The program counter is always even (R98): bit 0 of LE_TASK_ENTRY is not taken (DESIGN CHOICE, log
entry 45). -/
def State.activate (s : State) (p k : Nat) : State :=
  let b := s.slotPri p k
  let x := s.bank p b
  let arg := s.fld (LE_TASK_ARG p k) fLE_TASK_ARG_VALUE
  let x := { x with
    pc := .ofNat 24 (s.fld (LE_TASK_ENTRY p k) fLE_TASK_ENTRY_VALUE / 2 * 2)
    a := tset (fun _ => 0) x.a 0 (.ofNat 24 arg)
    poison := x.poison &&& ~~~(1#32 <<< 16)
    wait := none
    micro := x.micro.ended }
  let s := s.setBank p b x
  s.setReg64 (LE_TRIG_STAMP_LO p k) (LE_TRIG_STAMP_HI p k) (s.slot p k).stamp

/-- A slot goes on: a suspended routine continues from LE_UCONT, which condition 60 of R162 shows. -/
def State.resumeMark (s : State) (p k : Nat) : State :=
  let b := s.slotPri p k
  let x := s.bank p b
  s.setBank p b { x with micro := { x.micro with resumed := x.micro.suspended } }

/-- A dispatch (R78). -/
def State.taskDispatch (s : State) (p : Nat) : State :=
  if s.mayDispatch p then
    match s.nextSlot p with
    | none => s
    | some k =>
      let s := if s.slotState p k = 2 then s.activate p k
        else s.resumeMark p k
      s.setSlotState p k 3
  else s

/-- LE_UCONT of a slot that a halt or a preemption leaves at a safe point (R180). -/
def State.suspend (s : State) (p k : Nat) : State :=
  let b := s.slotPri p k
  let x := s.bank p b
  if x.micro.mid = 0 then s.setBank p b { x with micro := x.micro.unvalid }
  else
    let t := s.setBank p b { x with micro := { x.micro with ucont := x.micro.contWord s.freeVal.toNat } }
    if x.micro.blind then t.tookFree else t

/-- The running task is preempted at a safe point when a slot of higher priority is READY (R80); a halt that is due comes first
(R180). -/
def State.preempt (s : State) (p : Nat) : State :=
  match s.running p, s.nextSlot p with
  | some r, some k =>
    if s.live && s.leEn p && !(s.eng p).parked && !(s.eng p).halted && !(s.eng p).haltReq
        && s.slotState p k == 2 && decide (s.slotPri p r < s.slotPri p k)
        && (s.bank p (s.slotPri p r)).micro.mid != 2 then
      let s := s.suspend p r
      let s := s.setSlotState p r 4
      let lat := min 65535 (s.fc + 1 - (s.slot p k).regFc)
      if s.fld (LE_PREEMPT_MAX p) fLE_PREEMPT_MAX_FC < lat then s.setNat (LE_PREEMPT_MAX p) lat else s
    else s
  | _, _ => s

/-! ### Deadlines (R83, R84) -/

def State.deadline (s : State) (p k : Nat) : Stamp := (s.slot p k).stamp + BitVec.ofNat 64 (s.nat (LE_TASK_DL p k))

/-- A missed activation is abandoned (R84): one of a halted engine at its resumption (R508), a RUNNING one of a parked engine when it
is unparked, one inside a routine at the next safe point (R182). -/
def State.abandon (s : State) (p k : Nat) : State :=
  let st := s.slotState p k
  if st = 2 then s.slotIdle p k
  else if (s.eng p).halted || (st == 3 && (s.eng p).parked) || (st == 3 && (s.bank p (s.slotPri p k)).micro.mid == 2) then s
  else s.endActivation p k

/-- A deadline that passed where the activation could not end abandons it now (R84, R182). -/
def State.lateAbandon (s : State) (p : Nat) : State :=
  match s.running p with
  | some k => if (s.slot p k).missed && s.flag (LE_TASK_CFG p k) fLE_TASK_CFG_DLACT then s.abandon p k else s
  | none => s

/-- The deadline of slot k is reached: the miss is recorded once for the activation (R83). -/
def State.deadlineMiss (s : State) (p k : Nat) : State :=
  let st := s.slotState p k
  if s.nat (LE_TASK_DL p k) ≠ 0 ∧ (st = 2 ∨ st = 3 ∨ st = 4) ∧ (s.slot p k).missed = false ∧ reached (s.deadline p k) s.now = true then
    let x := s.slot p k
    let pc := (s.bank p (s.slotPri p k)).pc.toNat
    let s := s.setSlot p k { x with missed := true }
    let s := (s.setFlag (LE_TASK_STAT p k) fLE_TASK_STAT_DLMISS true).inc (LE_DLMISS_CNT p k)
    let s := s.leRaise p 1 0 0
    let s := s.record (65 + 4 * p) 2 k (lo32 x.stamp) (hi32 x.stamp) pc
    if s.flag (LE_TASK_CFG p k) fLE_TASK_CFG_DLACT then s.abandon p k else s
  else s

/-! ### Faults (R85 to R88) -/

/-- LE_FAULT.VALID. -/
def State.leFaulted (s : State) (p : Nat) : Bool := s.flag (LE_FAULT p) fLE_FAULT_VALID

/-- The engine parks (R87). -/
def State.park (s : State) (p : Nat) : State := s.setEng p { s.eng p with parked := true, haltReq := false, step := false }

/-- Fill LE_FAULT and its companions. -/
def State.faultRecord (s : State) (p k cause pc addr : Nat) : State :=
  let s := s.setNat (LE_FAULT p) (1 + cause * 16 + k * 4096)
  let s := (s.setNat (LE_FAULT_PC p) pc).setNat (LE_FAULT_ADDR p) addr
  s.setReg64 (LE_FAULT_STAMP_LO p) (LE_FAULT_STAMP_HI p) s.now

/-- A fault with LE_FAULT.VALID = 0 (R86). -/
def State.firstFault (s : State) (p k cause pc addr : Nat) : State :=
  let s := (s.faultRecord p k cause pc addr).inc (LE_FAULT_CNT p)
  let had := (s.slot p k).pend.isSome
  let s := s.setSlotState p k 5
  let s := s.setSlot p k { s.slot p k with pend := none }
  let b := s.slotPri p k
  let x := s.bank p b
  let s := s.setBank p b { x with micro := { x.micro.cleared with resumed := false }, wait := none }
  let s := if had then s.overrun p k else s
  s.faultEvent p 1 cause 0 k pc addr

/-- A fault of the running task (R86, R87). -/
def State.engineFault (s : State) (p cause addr : Nat) : State :=
  let k := (s.running p).getD 0
  let pc := (s.bank p (s.slotPri p k)).pc.toNat
  if s.leFaulted p then
    let s := (s.setFlag (LE_FAULT p) fLE_FAULT_DOUBLE true).setFld (LE_FAULT p) fLE_FAULT_CAUSE2 cause
    let b := s.slotPri p k
    let x := s.bank p b
    let s := s.setBank p b { x with micro := { x.micro with staged := [], latch := false } }
    (s.park p).faultEvent p 2 (s.fld (LE_FAULT p) fLE_FAULT_CAUSE) cause k pc (s.nat (LE_FAULT_ADDR p))
  else s.firstFault p k cause pc addr

/-- A machine check at a micro-address (R87, R192): the engine parks whatever VALID holds. -/
def State.machineCheck (s : State) (p ua : Nat) : State :=
  let k := (s.running p).getD 0
  let pc := (s.bank p (s.slotPri p k)).pc.toNat
  let s := (s.inc (CS_MCHK_CNT p)).inc (LE_FAULT_CNT p)
  let s := if s.leFaulted p then (s.setFld (LE_FAULT p) fLE_FAULT_CAUSE2 8).setNat (LE_FAULT_ADDR p) ua
    else s.faultRecord p k 8 pc ua
  (s.park p).faultEvent p 3 (s.fld (LE_FAULT p) fLE_FAULT_CAUSE) (s.fld (LE_FAULT p) fLE_FAULT_CAUSE2) k pc ua

/-- An error response to the oldest buffered system-memory store (R85). -/
def State.lateStoreError (s : State) (p : Nat) : State :=
  match (s.eng p).stores with
  | [] => s
  | e :: t =>
    let s := s.setEng p { s.eng p with stores := t }
    s.faultEvent p 4 0 0 e.slot 0 e.eaddr.toNat

/-- The oldest buffered store has reached system memory (R524). -/
def State.storeDone (s : State) (p : Nat) : State :=
  match (s.eng p).stores with
  | [] => s
  | e :: t => (s.setEng p { s.eng p with stores := t }).sysWrite e.addr e.bytes

/-- LE_CMD (R88): CLEAR, RESUME, UNPARK, TRIGGER; other values are counted. -/
def State.leClear (s : State) (p : Nat) : State :=
  s.setNat (LE_FAULT p) (withBits (withBits (s.nat (LE_FAULT p)) 0 2 0) 4 8 0)

def State.leResume (s : State) (p k : Nat) : State :=
  if s.slotState p k ≠ 5 then s.inc (LE_CFG_REFUSED p)
  else s.slotIdle p k

def State.leUnpark (s : State) (p : Nat) : State :=
  if s.leFaulted p || !(s.eng p).parked then s.inc (LE_CFG_REFUSED p)
  else
    let s := s.setEng p { s.eng p with parked := false }
    match s.running p with
    | some k => (s.resumeMark p k).lateAbandon p
    | none => s

/-- A software trigger: an edge trigger stamped at the write, whatever TRIG holds (R81). -/
def State.leTrigger (s : State) (p k : Nat) : State := s.fireEdge p k s.now

def State.leCmd (s : State) (p op k : Nat) : State :=
  match op with
  | 1 => s.leClear p
  | 2 => s.leResume p k
  | 3 => s.leUnpark p
  | 4 => s.leTrigger p k
  | _ => s.inc (LE_CFG_REFUSED p)

/-! ### Configuration writes (R63, R77, R81, R371) -/

/-- A write of LE_MAP: refused for a duplicate, and when it changes the flock of an engine in use (R63, R371). -/
def State.leMapWrite (s : State) (p : Nat) (v : Word) : State :=
  let dup := bitOf v.toNat 6 && (firstIdx (fun q => q != p && s.flag (LE_MAP q) fLE_MAP_LVALID
    && s.fld (LE_MAP q) fLE_MAP_LOGICAL == bitsOf v.toNat 0 6) 72).isSome
  if dup || (s.leEn p && bitsOf v.toNat 8 4 != s.leFlock p) then s.inc (LE_CFG_REFUSED p)
  else s.setReg (LE_MAP p) v

/-- A write of LE_CTRL.EN (R78, R79): an enable waits for CLEAN (R375). -/
def State.leCtrlWrite (s : State) (p : Nat) (v : Word) : State :=
  if bitOf v.toNat 0 && !s.leEn p && s.notClean (s.leFlock p) then s.inc (LE_CFG_REFUSED p)
  else s.setNat (LE_CTRL p) (v.toNat % 2)

/-- A write of LE_TASK_CFG[k] (R81, R544). -/
def State.taskCfgWrite (s : State) (p k : Nat) (v : Word) : State :=
  let st := s.slotState p k
  let old := s.nat (LE_TASK_CFG p k)
  let en := bitOf v.toNat 0
  if st = 0 then
    let s := s.setReg (LE_TASK_CFG p k) v
    if en then s.slotEnable p k else s
  else if old / 2 ≠ v.toNat / 2 then s.inc (LE_CFG_REFUSED p)
  else
    let s := s.setReg (LE_TASK_CFG p k) v
    if !en ∧ (st = 1 ∨ st = 2) then (s.setSlotState p k 0).setSlot p k {} else s

/-- A write of LE_TASK_ENTRY, _ARG, _DL or _PERIOD (R81). -/
def State.taskFieldWrite (s : State) (p k off : Nat) (v : Word) : State :=
  if s.slotState p k ≠ 0 ∧ v ≠ s.reg off then s.inc (LE_CFG_REFUSED p) else s.setReg off v

/-- A write of LE_TASK_TIME_LO or _HI (R77, R81): also while the slot is WAITING, where it arms the trigger. -/
def State.taskTimeWrite (s : State) (p k off : Nat) (v : Word) : State :=
  let st := s.slotState p k
  if st ≠ 0 ∧ st ≠ 1 ∧ v ≠ s.reg off then s.inc (LE_CFG_REFUSED p)
  else
    let s := s.setReg off v
    if st = 1 then s.setSlot p k { s.slot p k with armed := s.trig p k == 2 } else s

/-- The banks of an engine whose activations a reset abandons: their registers are kept (R82, R109). -/
def Eng.keptBanks (e : Eng) : List (Nat × Bank) :=
  e.banks.map (fun z => (z.1, { z.2 with wait := none, modeWait := [], micro := z.2.micro.cleared }))

/-- An engine of a flock in reset (R82): every slot DISABLED, EN cleared, activations and pending triggers abandoned. -/
def State.leReset (s : State) (p : Nat) : State :=
  let s := forN (fun k s => ((s.setFlag (LE_TASK_CFG p k) fLE_TASK_CFG_EN false).setSlotState p k 0).setSlot p k {}) 8 s
  let s := s.setNat (LE_CTRL p) 0
  s.setEng p { s.eng p with banks := (s.eng p).keptBanks, codeBuf := [] }

def State.leFlockReset (s : State) (f : Nat) : State :=
  forN (fun p s => if s.leFlock p = f then s.leReset p else s) 72 s

/-! ### LE_STAT (R95, R79) -/

def State.anySlot (s : State) (p st : Nat) : Bool := (firstIdx (fun k => s.slotState p k == st) 8).isSome

/-- 0 OFF, 1 IDLE, 2 RUN, 3 PARKED, 4 HALTED. -/
def State.leState (s : State) (p : Nat) : Nat :=
  if (s.eng p).parked then 3
  else if (s.eng p).halted then 4
  else if s.anySlot p 3 then 2
  else if s.leEn p then (if s.anySlot p 2 || s.anySlot p 4 then 2 else 1)
  else if s.anySlot p 4 then 1
  else 0

/-- LE_STAT; CURTASK and CURPRI read 0 while no slot runs (log entry 33). -/
def State.leStat (s : State) (p : Nat) : Word :=
  let k := (s.running p).getD 0
  let pri := if (s.running p).isSome then s.slotPri p k else 0
  .ofNat 32 (maskOf (fun k => s.slotState p k == 2) 8 * 65536 + k * 256 + pri * 16 + s.leState p)

/-- The engine's clock runs in the present fc (R79). -/
def State.leClocked (s : State) (p : Nat) : Bool := !(s.eng p).parked && !(s.eng p).halted && s.leState p == 2

/-! ### The Rank unit (R89 to R92) -/

/-- Requests stand in the order of their issue, those of one fc lowest slot first (R89). -/
def rankQueue (r : RankReq) : List RankReq → List RankReq
  | [] => [r]
  | x :: t => if x.fc = r.fc ∧ r.eng < x.eng then r :: x :: t else x :: rankQueue r t

/-- A request is issued (R89). -/
def State.rankIssue (s : State) (p desc : Nat) : State :=
  let c := p / 9
  let q : List RankReq := tget (fun _ => []) s.ranks c
  let f := s.leFlock p
  let r : RankReq := { eng := p, desc := desc, flock := f, inc := s.flockInc f, fc := s.fc }
  let s := { s with ranks := tset (fun _ => []) s.ranks c (rankQueue r q) }
  s.setEng p { s.eng p with rankOut := true }

/-- Read a descriptor at a byte address of the HPP window. SRC or DST that is not 8-byte aligned counts as a reserved bit that is
set (DESIGN CHOICE, log entry 46). -/
def State.rankDesc (s : State) (a : Nat) : RankDesc :=
  let w0 := (s.mword a).toNat
  let w1 := (s.mword (a + 4)).toNat
  let w2 := (s.mword (a + 8)).toNat
  { src := bitsOf w0 0 19, dst := bitsOf w1 0 19, n := bitsOf w2 0 10, k := bitsOf w2 16 10, inbox := bitsOf w2 28 2
    desc := bitOf w2 31, tag := (s.mword (a + 12)).toNat
    reserved := bitsOf w0 19 13 != 0 || bitsOf w1 19 13 != 0 || bitsOf w2 10 6 != 0 || bitsOf w2 26 2 != 0 || bitOf w2 30
      || w0 % 8 != 0 || w1 % 8 != 0
    poison := (firstIdx (fun i => s.poisoned (a + 4 * i)) 4).isSome }

/-- Insert an entry in rank order: by key, equal keys by ascending index in both directions (R90); the index is compared as
unsigned (DESIGN CHOICE, log entry 47). -/
def rankInsert (desc : Bool) (e : Word × Word) : List (Word × Word) → List (Word × Word)
  | [] => [e]
  | f :: t =>
    let less := if desc then f.1.toInt < e.1.toInt else e.1.toInt < f.1.toInt
    if less ∨ (e.1 = f.1 ∧ e.2.toNat < f.2.toNat) then e :: f :: t else f :: rankInsert desc e t

/-- The entries in rank order. -/
def rankSort (desc : Bool) (es : List (Word × Word)) : List (Word × Word) := es.foldr (rankInsert desc) []

/-- The `n` entries at an address. -/
def State.rankRead (s : State) (a : Nat) : Nat → List (Word × Word)
  | 0 => []
  | n + 1 => (s.mword a, s.mword (a + 4)) :: State.rankRead s (a + 8) n

/-- Write entries at an address. -/
def State.rankWrite (s : State) (a : Nat) : List (Word × Word) → State
  | [] => s
  | e :: t => State.rankWrite (s.storeAt 10 a (natBytes 4 e.1.toNat ++ natBytes 4 e.2.toNat) [false, false]) (a + 8) t

/-- The busy time (R92). -/
def rankBusy (n k : Nat) : Nat :=
  let m := if k = 0 then n else k
  let l := Nat.log2 (2 * max n 16 - 1)
  24 + (n + 3) / 4 + (m + 3) / 4 + l * (l + 1) / 2 * (2 ^ l / 16 + 4)

/-- STATUS of a request from its descriptor and the marks read (R91). The spec orders no statuses that apply together: BADDESC, then
RANGE, then POISON; a poisoned word of the descriptor gives POISON too (DESIGN CHOICE, log entry 48). -/
def rankStatus (d : RankDesc) (pois : Bool) : Nat :=
  if d.n = 0 ∨ 512 < d.n ∨ d.n < d.k ∨ d.reserved = true then 1
  else if 0x80000 < d.src + 8 * d.n ∨ 0x80000 < d.dst + 8 * (if d.k = 0 then d.n else d.k) then 3
  else if d.poison ∨ pois = true then 2
  else 0

/-- One fc of a request's read phase (R90): the descriptor, then four entries, a line of lane 10. How the read phase divides is the
model's (DESIGN CHOICE, log entry 49). -/
def State.rankReadStep (s : State) (c : Nat) (r : RankReq) : RankReq :=
  let s := s.laneView 10
  let base := 0x1500000 + c * 0x80000
  match r.got with
  | none => { r with got := some (s.rankDesc (base + r.desc)) }
  | some d =>
    let i := r.entries.length
    let n := min 4 (d.n - i)
    let a := base + d.src + 8 * i
    if rankStatus d false ≠ 0 ∨ n = 0 then r
    else { r with
      entries := r.entries ++ s.rankRead a n
      pois := r.pois || (firstIdx (fun j => s.poisoned (a + 4 * j)) (2 * n)).isSome }

/-- The requests in service read one fc further. -/
def State.rankEdge (s : State) : State :=
  forN (fun c s => match tget (fun _ => ([] : List RankReq)) s.ranks c with
    | [] => s
    | r :: t => { s with ranks := tset (fun _ => []) s.ranks c (s.rankReadStep c r :: t) }) 8 s

/-- A request whose read phase is brought to its end. -/
def State.rankReadAll (s : State) (c : Nat) (r : RankReq) : RankReq := forN (fun _ r => s.rankReadStep c r) 130 r

/-- The completion put in the issuer's inbox, and the counts. A BADDESC reports the busy time of R92 for the N and K that it holds
(DESIGN CHOICE, log entry 50). -/
def State.rankFinish (s : State) (c : Nat) (r : RankReq) (d : RankDesc) (st : Nat) : State :=
  let busy := rankBusy d.n d.k
  let s := (s.inc (CL_RANK_REQS c)).setNat (CL_RANK_LASTCYC c) busy
  let s := if st = 0 then s else s.inc (CL_RANK_ERRS c)
  let s := if st = 2 then s.raise (352 + c) d.tag r.eng else s
  let s := s.setEng r.eng { s.eng r.eng with rankOut := false }
  let s := { s with ranks := tset (fun _ => []) s.ranks c ((tget (fun _ => []) s.ranks c).drop 1) }
  (s.qPut (4 * r.eng + d.inbox) (.rank r.eng) r.inc [(.ofNat 32 d.tag, false), (.ofNat 32 (st + busy * 65536), false)]).2

/-- The request in service finishes: the ranked entries are written and the completion is put in the inbox. While the inbox
is full the completion is held (R91), and the entries with it (DESIGN CHOICE, log entry 51). -/
def State.rankCompletion (s : State) (c : Nat) : State :=
  match tget (fun _ => []) s.ranks c with
  | [] => s
  | r :: _ =>
    let base := 0x1500000 + c * 0x80000
    let r := s.rankReadAll c r
    let d := r.got.getD {}
    let q := 4 * r.eng + d.inbox
    let s := s.samplesLeave (fun x => s.routeQueue x == some q)
    if !s.live || s.qBusy q || (s.qEn q && decide (s.qDepth q ≤ s.qLevel q)) then s
    else
      let st := rankStatus d r.pois
      let m := if d.k = 0 then d.n else d.k
      let s := if st = 0 then s.rankWrite (base + d.dst) ((rankSort d.desc r.entries).take m) else s
      s.rankFinish c r d st

/-- CL_STAT.RANKQ and RANKBUSY. -/
def State.rankStat (s : State) (c : Nat) : Nat × Bool :=
  let n := (tget (fun _ => []) s.ranks c).length
  (n - 1, n != 0)

end Sys2Proof.Machine
end

