-- ==== Sys2Proof/Machine/MemInt.lean ====
section
/-!
DEFINITION. Memory integrity (17_memory_integrity.md R435 to R450): the code and its syndrome, scrubbing, the row log,
remapping, sweeps.
-/

namespace Sys2Proof.Machine

/-! ### The ECC groups (R435) -/

/-- Instances, macros per instance and rows of each a group. -/
def miShape (g : Nat) : Nat × Nat × Nat :=
  match g with
  | 0 => (72, 1, 256)
  | 1 => (72, 1, 16)
  | 2 => (8, 8, 256)
  | 3 => (8, 4, 256)
  | 4 => (1, 4, 256)
  | 5 => (8, 1, 256)
  | 6 => (1, 64, 256)
  | 7 => (1, 128, 256)
  | 8 => (1, 16, 256)
  | _ => (36, 1, 4)

/-- Words of an instance. -/
def miWords (g : Nat) : Nat := (miShape g).2.1 * (miShape g).2.2 * 64

/-- Where a word of an ECC memory stands in the state. -/
inductive MiLoc
  | mem (a : Nat) | reg (off : Nat) | chant (n a : Nat) | absent
deriving DecidableEq, Repr

/-- Word w of an instance. In the queue cache, entry i of CL_QPIN has the KiB i of its cluster's instance (log entry 21). -/
def State.miLoc (s : State) (g inst w : Nat) : MiLoc :=
  match g with
  | 0 => .mem (0x1000000 + inst * 0x10000 + 4 * w)
  | 1 => .mem (0x1480000 + inst * 0x1000 + 4 * w)
  | 2 => .mem (0x1500000 + inst * 0x80000 + 4 * w)
  | 3 => .mem (0x1A00000 + inst * 0x40000 + 4 * w)
  | 4 => .reg (QF_QCFG 0 + 4 * w)
  | 5 =>
    let e := CL_QPIN inst (w / 256)
    let q := s.fld e fCL_QPIN_QUEUE
    if s.flag e fCL_QPIN_VALID && tget (fun _ => false) s.qf.cached q then .mem (cacheBase q + 4 * (w % 256)) else .absent
  | 6 => .mem (0x1C00000 + 4 * w)
  | 7 => .mem (ringBase + 4 * w)
  | 8 => .mem (0x1900000 + 4 * w)
  | _ => .chant inst w

/-! ### The code (R545) -/

/-- The positions of the data bits, ascending: from 3 upward, powers of two left out. -/
def dataPositions : List Nat := (List.range 48).filter (fun p => 3 ≤ p && p != 4 && p != 8 && p != 16 && p != 32)

/-- How many data bits a codeword of the group has, poison bit included; its last position. -/
def dataBits (g : Nat) : Nat := if g = 9 then 41 else 33
def lastPosition (g : Nat) : Nat := if g = 9 then 47 else 39

/-- The data bits that a set of flipped positions flips. -/
def dataFlips (g fl : Nat) : Nat :=
  ((dataPositions.take (dataBits g)).zipIdx).foldl (fun a e => if bitOf fl e.1 then a + 2 ^ e.2 else a) 0

/-- SYN[5:0] of a codeword that reads flipped at the positions `fl`: the XOR of the flipped positions. -/
def synLow (g fl : Nat) : Nat :=
  (List.range (lastPosition g + 1)).foldl (fun a p => if bitOf fl p then a ^^^ p else a) 0

/-- SYN[6]: the parity of the flips. -/
def synHigh (g fl : Nat) : Nat :=
  (List.range (lastPosition g + 1)).foldl (fun a p => if bitOf fl p then (a + 1) % 2 else a) 0

/-- The syndrome. -/
def syndrome (g fl : Nat) : Nat := synHigh g fl * 64 + synLow g fl

/-- What a syndrome says: no error, a single error corrected at a position, uncorrectable. -/
inductive EccRead
  | clean | corrected (pos : Nat) | uncorrectable
deriving DecidableEq, Repr

def eccRead (g syn : Nat) : EccRead :=
  if syn = 0 then .clean
  else if 64 ≤ syn ∧ syn % 64 ≤ lastPosition g then .corrected (syn % 64)
  else .uncorrectable

/-! ### Reads (R436, R437) -/

/-- The data bits of a word, its poison bit above them. -/
def State.miRead (s : State) : MiLoc → Nat
  | .mem a => (s.mword a).toNat + b2n (s.poisoned a) * 2 ^ 32
  | .reg off => s.nat off + b2n (s.poisoned off) * 2 ^ 32
  | .chant n a => s.chantWord n a + b2n (s.poisoned (CH_CMEM_LO n a) || s.poisoned (CH_CMEM_HI n a)) * 2 ^ 40
  | .absent => 0

/-- The scrubber's rewrite of a word. -/
def State.miWrite (s : State) (v : Nat) : MiLoc → State
  | .mem a => (s.setMword a (.ofNat 32 v)).setMark a (bitOf v 32)
  | .reg off => (s.setNat off (v % 2 ^ 32)).setMark off (bitOf v 32)
  | .chant n a =>
    let s := (s.setNat (CH_CMEM_LO n a) (v % 2 ^ 32)).setNat (CH_CMEM_HI n a) (v / 2 ^ 32 % 256)
    (s.setMark (CH_CMEM_LO n a) (bitOf v 40)).setMark (CH_CMEM_HI n a) false
  | .absent => s

/-- MI_LAST, its syndrome and its stamp. -/
def State.miLast (s : State) (g inst mac word syn : Nat) (ue : Bool) : State :=
  let s := s.setNat (MI_LAST g) (b2n ue * 2 ^ 31 + inst * 2 ^ 24 + mac * 2 ^ 17 + word)
  (s.setNat (MI_LAST_SYN g) syn).setReg64 (MI_LAST_STAMP_LO g) (MI_LAST_STAMP_HI g) s.now

/-- The row-log entry an error at a row takes (R442): its own, an unused one, the one of lowest COUNT. -/
def State.rowEntry (s : State) (g key : Nat) : Nat × Bool :=
  match firstIdx (fun i => s.flag (MI_ROWLOG g i) fMI_ROWLOG_VALID && s.nat (MI_ROWLOG g i) / 256 == key) 4 with
  | some i => (i, true)
  | none => match firstIdx (fun i => !s.flag (MI_ROWLOG g i) fMI_ROWLOG_VALID) 4 with
    | some i => (i, false)
    | none => (forN (fun i b => if s.fld (MI_ROWLOG g i) fMI_ROWLOG_COUNT < s.fld (MI_ROWLOG g b) fMI_ROWLOG_COUNT then i else b) 4 0, false)

/-- A correctable error in the row log (R442). -/
def State.rowLog (s : State) (g inst mac row : Nat) : State :=
  let key := 2 ^ 23 + inst * 2 ^ 16 + mac * 2 ^ 9 + row
  let (i, known) := s.rowEntry g key
  let old := s.fld (MI_ROWLOG g i) fMI_ROWLOG_COUNT
  let new := if known then min 255 (old + 1) else 1
  let s := s.setNat (MI_ROWLOG g i) (key * 256 + new)
  if new = s.fld (MI_GCFG g) fMI_GCFG_ROWTHR ∧ (known = false ∨ old ≠ new) then
    let seen := s.flag (MI_GSTAT g) fMI_GSTAT_ROWLIM
    let s := s.setFlag (MI_GSTAT g) fMI_GSTAT_ROWLIM true
    if seen then s else s.raiseNamed (896 + g) [fMI_GSTAT_ROWLIM.lo]
  else s

/-- A read of word w of an instance whose codeword reads flipped at the positions `fl`, decided and rewritten (R436, R437). -/
def State.eccError (s : State) (g inst w fl : Nat) : State :=
  let mac := w / 64 / (miShape g).2.2
  let word := w % ((miShape g).2.2 * 64)
  let loc := s.miLoc g inst w
  let syn := syndrome g fl
  let v := s.miRead loc
  match eccRead g syn with
  | .clean => s
  | .corrected p =>
    let s := s.miWrite (v ^^^ dataFlips g (fl ^^^ 2 ^ p)) loc
    let s := ((s.inc (MI_CE_CNT g)).setFlag (MI_GSTAT g) fMI_GSTAT_CE true).miLast g inst mac word syn false
    s.rowLog g inst mac (word / 64)
  | .uncorrectable =>
    let n := dataBits g - 1
    let s := s.miWrite ((v ^^^ dataFlips g fl) % 2 ^ n + 2 ^ n) loc
    let s := (s.inc (MI_UE_CNT g)).miLast g inst mac word syn true
    let seen := s.flag (MI_GSTAT g) fMI_GSTAT_UE
    let s := s.setFlag (MI_GSTAT g) fMI_GSTAT_UE true
    let s := if seen then s else s.raiseNamed (896 + g) [fMI_GSTAT_UE.lo]
    s.record (896 + g) 0x60 g (s.nat (MI_LAST g)) syn 0

/-- Insert by instance, highest first: MI_LAST is to hold the lowest of one fc, and one word is read once (R441). -/
def errInsert (e : Nat × Nat) : List (Nat × Nat) → List (Nat × Nat)
  | [] => [e]
  | f :: t => if f.1 = e.1 then e :: t else if f.1 < e.1 then e :: f :: t else f :: errInsert e t

/-- Is a scrub read due: 16 × SPACE fc have passed since the last? The first is due at once (DESIGN CHOICE, log entry 71: the spec gives
no phase); one that is not given yet stays due, as one that finds its route busy. -/
def State.scrubDue (s : State) (g : Nat) : Bool :=
  let last := tget (fun _ => 0) s.mi.scrubFc g
  last == 0 || decide (last - 1 + 16 * s.fld (MI_GCFG g) fMI_GCFG_SPACE ≤ s.fc)

/-- One scrub read of every instance of a group (R440): `errs` names the instances whose word reads with flipped bits. -/
def State.scrub (s : State) (g : Nat) (errs : List (Nat × BitVec 48)) : State :=
  if s.pw.fast && g != 7 && s.flag (MI_GCFG g) fMI_GCFG_SCRUBEN && s.scrubDue g then
    let w := tget (fun _ => 0) s.mi.scrub g
    let es := (errs.filter (fun e => decide (e.1 < (miShape g).1))).map (fun e => (e.1, e.2.toNat))
    let s := (es.foldr errInsert []).foldl (fun s e => s.eccError g e.1 w e.2) s
    { s with mi := { s.mi with
        scrub := tset (fun _ => 0) s.mi.scrub g ((w + 1) % miWords g)
        scrubFc := tset (fun _ => 0) s.mi.scrubFc g (s.fc + 1) } }
  else s

/-- The refresh of a journal row corrects its words (R361, R440): `errs` names words of the row that read flipped. -/
def State.journalRefresh (s : State) (row : Nat) (errs : List (Nat × BitVec 48)) : State :=
  let es := (errs.filter (fun e => decide (e.1 < 64))).map (fun e => (e.1, e.2.toNat))
  (es.foldr errInsert []).foldl (fun s e => s.eccError 7 0 (64 * row + e.1) e.2) s

/-! ### Remapping (R443, R444) -/

/-- The entry of a group whose copy runs, and the fc of the write. -/
def State.remapCopy (s : State) (g : Nat) : Option (Nat × Nat) :=
  let x := tget (fun _ => (0, 0)) s.mi.copies g
  if x.2 = 0 then none else some (x.1, x.2 - 1)

/-- Does another enabled entry name the same spare of the same mac, or the same row? -/
def State.remapClash (s : State) (g j v : Nat) : Bool :=
  (firstIdx (fun i =>
    let e := s.nat (MI_REMAP g i)
    i != j && bitOf e 31 && bitsOf e 17 14 == bitsOf v 17 14
      && (bitsOf e 0 2 == bitsOf v 0 2 || bitsOf e 8 8 == bitsOf v 8 8)) 8).isSome

/-- A write of MI_REMAP[j] (R443). -/
def State.remapWrite (s : State) (g j : Nat) (v : Word) : State :=
  let n := v.toNat
  let old := s.nat (MI_REMAP g j)
  let refuse := (s.inc MI_CFG_REFUSED).record (896 + g) 0x62 0 0 0 0
  if n = old then s
  else if bitOf old 31 && (!bitOf n 31 || n / 4 != old / 4) then refuse
  else if !bitOf n 31 then s.setReg (MI_REMAP g j) v
  else if (miShape g).1 ≤ bitsOf n 24 7 ∨ (miShape g).2.1 ≤ bitsOf n 17 7 ∨ (miShape g).2.2 ≤ bitsOf n 8 8
      ∨ s.remapClash g j n = true ∨ (s.remapCopy g).isSome = true then refuse
  else
    let s := (s.setReg (MI_REMAP g j) v).setFlag (MI_REMAP_STAT g) fMI_REMAP_STAT_BUSY true
    { s with mi.copies := tset (fun _ => (0, 0)) s.mi.copies g (j, s.fc + 1) }

/-- Crook rewrites the remap image in the Fold store: the entries of every group, and MI_FOLD_SEQ counted (R445). -/
def State.saveRemap (s : State) : State :=
  let es : List (Nat × Word) := ((List.range 80).map (fun i => (i, s.reg (MI_REMAP (i / 8) (i % 8))))).filter (fun e => e.2 != 0)
  let s := s.inc MI_FOLD_SEQ
  { s with fold.remap := some { entries := es, seq := s.reg MI_FOLD_SEQ } }

/-- The copy ends, at the earliest 257 fc after the write, and accesses switch to the spare (R444). -/
def State.remapSwitch (s : State) (g : Nat) : State :=
  match s.remapCopy g with
  | none => s
  | some (j, f) =>
    if s.fc < f + 257 ∨ s.pw.fast = false then s
    else
      let s := { s with mi.copies := tset (fun _ => (0, 0)) s.mi.copies g (0, 0) }
      (((s.setFlag (MI_REMAP_STAT g) fMI_REMAP_STAT_BUSY false).raise 906 0 0).record 906 0x61 g j (s.fc - f) 0).saveRemap

/-! ### Sweeps (R446, R447) -/

/-- Drop every table entry whose key lies in [lo, lo + n). -/
def dropRange {α : Type} (lo n : Nat) (t : List (Nat × α)) : List (Nat × α) :=
  t.filter (fun e => decide (e.1 < lo) || decide (lo + n ≤ e.1))

/-- Bytes [lo, lo + n) read zero and clean. -/
def State.wipe (s : State) (lo n : Nat) : State :=
  { s with
    lanes := [], laneOld := []
    mem := dropRange lo n s.mem
    marks := dropRange (lo / 4) (n / 4) s.marks }

/-- An instance of group 0, 1 or 9 is swept. -/
def State.wipeInstance (s : State) (g i : Nat) : State :=
  match g with
  | 0 => s.wipe (0x1000000 + i * 0x10000) 0x10000
  | 1 => s.wipe (0x1480000 + i * 0x1000) 0x1000
  | _ =>
    let lo := CH_CMEM_LO i 0
    { s with
      regs := dropRange lo 2048 s.regs
      marks := dropRange (lo / 4) 512 s.marks }

/-- Is the instance being swept, so that accesses are refused (R27)? -/
def State.sweeping (s : State) (g i : Nat) : Bool := tget (fun _ => false) s.mi.sweeps (g * 128 + i)

/-- Is the unit that owns the instance out of the map and OFF or stopped? -/
def State.sweepOk (s : State) (g i : Nat) : Bool :=
  if g = 9 then decide (i < 36) && !s.flag (CH_MAP i) fCH_MAP_LVALID && !s.chRun i
  else decide (g < 2) && decide (i < 72) && !s.flag (LE_MAP i) fLE_MAP_LVALID && s.leState i == 0

/-- A sweep of an instance (R447). -/
def State.sweepInst (s : State) (g i : Nat) : State :=
  if s.sweepOk g i then
    let s := s.setFlag (MI_GSTAT g) fMI_GSTAT_SWEEP true
    { s with mi.sweeps := tset (fun _ => false) s.mi.sweeps (g * 128 + i) true }
  else s.inc MI_CFG_REFUSED

def State.sweepGo (s : State) (g : Nat) : State := s.sweepInst g (s.fld (MI_SWEEP g) fMI_SWEEP_INST)

/-- An instance sweep ends. -/
def State.sweepEnd (s : State) (g i : Nat) : State :=
  if s.sweeping g i && s.pw.fast then
    let s := s.wipeInstance g i
    let s := { s with mi.sweeps := tset (fun _ => false) s.mi.sweeps (g * 128 + i) false }
    let more := s.mi.sweeps.any (fun e => e.1 / 128 == g)
    let s := s.setFlag (MI_GSTAT g) fMI_GSTAT_SWEEP more
    (s.raise 907 0 0).record 907 0x63 g i 0 0
  else s

/-- MI_GCTL.CLRLOG (R449). -/
def State.clearRowLog (s : State) (g : Nat) : State := forN (fun i s => s.setNat (MI_ROWLOG g i) 0) 4 s

/-- A write of MI_GCFG: ROWTHR 0 stores 1 and is counted, SPACE 0 stores 1 (R449). -/
def State.miGcfgWrite (s : State) (g : Nat) (v : Word) : State :=
  let n := v.toNat
  let s := if bitsOf n 24 8 = 0 then s.inc RC_RSVD_WRITES else s
  let n := if bitsOf n 24 8 = 0 then withBits n 24 8 1 else n
  let n := if bitsOf n 0 16 = 0 then withBits n 0 16 1 else n
  s.setNat (MI_GCFG g) n

/-- The start-up sweep begins: MI_GSTAT.SWEEP of every group (R446). -/
def State.sweepBegin (s : State) : State := forN (fun g s => s.setFlag (MI_GSTAT g) fMI_GSTAT_SWEEP true) 10 s

/-- Every word of every ECC memory reads zero and clean (R446): the start-up sweep has ended. -/
def State.sweepAll (s : State) : State :=
  let s := { s with mem := [], marks := [], mi := { s.mi with sweeps := [] } }
  let s := { s with regs := dropRange (QF_QCFG 0) 0x40000 s.regs }
  let s := forN (fun i s => { s with regs := dropRange (CH_CMEM_LO i 0) 2048 s.regs }) 36 s
  forN (fun g s => s.setFlag (MI_GSTAT g) fMI_GSTAT_SWEEP false) 10 s

end Sys2Proof.Machine
end

