-- ==== Sys2Proof/Machine/TallySymbols.lean ====
section
/-!
DEFINITION. The 10-bit symbols of Tally Link (02_tally_time.md R45, R47): the 8b/10b code with its running disparity, what a
receiver takes for a code violation, and the symbols of a frame. The 5b/6b and 3b/4b tables are those of the 8b/10b code itself,
which the spec names and does not print (PRESUMED, log entry 36).
-/

namespace Sys2Proof.Machine

/-- A block of the code: its bits, the first on the line highest, at running disparity -1; and at +1, where that differs. -/
structure CodeBlock where
  neg : Nat
  pos : Nat
deriving DecidableEq, Repr

/-- The 5b/6b block abcdei of D.x. -/
def block6 (x : Nat) : CodeBlock :=
  match x with
  | 0 => ⟨0b100111, 0b011000⟩ | 1 => ⟨0b011101, 0b100010⟩ | 2 => ⟨0b101101, 0b010010⟩ | 3 => ⟨0b110001, 0b110001⟩
  | 4 => ⟨0b110101, 0b001010⟩ | 5 => ⟨0b101001, 0b101001⟩ | 6 => ⟨0b011001, 0b011001⟩ | 7 => ⟨0b111000, 0b000111⟩
  | 8 => ⟨0b111001, 0b000110⟩ | 9 => ⟨0b100101, 0b100101⟩ | 10 => ⟨0b010101, 0b010101⟩ | 11 => ⟨0b110100, 0b110100⟩
  | 12 => ⟨0b001101, 0b001101⟩ | 13 => ⟨0b101100, 0b101100⟩ | 14 => ⟨0b011100, 0b011100⟩ | 15 => ⟨0b010111, 0b101000⟩
  | 16 => ⟨0b011011, 0b100100⟩ | 17 => ⟨0b100011, 0b100011⟩ | 18 => ⟨0b010011, 0b010011⟩ | 19 => ⟨0b110010, 0b110010⟩
  | 20 => ⟨0b001011, 0b001011⟩ | 21 => ⟨0b101010, 0b101010⟩ | 22 => ⟨0b011010, 0b011010⟩ | 23 => ⟨0b111010, 0b000101⟩
  | 24 => ⟨0b110011, 0b001100⟩ | 25 => ⟨0b100110, 0b100110⟩ | 26 => ⟨0b010110, 0b010110⟩ | 27 => ⟨0b110110, 0b001001⟩
  | 28 => ⟨0b001110, 0b001110⟩ | 29 => ⟨0b101110, 0b010001⟩ | 30 => ⟨0b011110, 0b100001⟩ | _ => ⟨0b101011, 0b010100⟩

/-- The 3b/4b block fghj of D.x.y; `rd` is the disparity before it (true for +1), which chooses the alternate form of y = 7. -/
def block4 (x y : Nat) (rd : Bool) : CodeBlock :=
  match y with
  | 0 => ⟨0b1011, 0b0100⟩ | 1 => ⟨0b1001, 0b1001⟩ | 2 => ⟨0b0101, 0b0101⟩ | 3 => ⟨0b1100, 0b0011⟩
  | 4 => ⟨0b1101, 0b0010⟩ | 5 => ⟨0b1010, 0b1010⟩ | 6 => ⟨0b0110, 0b0110⟩
  | _ =>
    if (rd = false ∧ (x = 17 ∨ x = 18 ∨ x = 20)) ∨ (rd = true ∧ (x = 11 ∨ x = 13 ∨ x = 14)) then ⟨0b0111, 0b1000⟩
    else ⟨0b1110, 0b0001⟩

/-- The running disparity after a block of `n` bits: it changes when the block holds an unequal number of ones and zeros. -/
def rdAfter (n v : Nat) (rd : Bool) : Bool :=
  let ones := (List.range n).countP (fun i => v.testBit i)
  if 2 * ones = n then rd else !rd

/-- The symbol as the serialiser takes it: bit 0 is the first on the line (21_integration_ports.md R532). -/
def lineOrder (v : Nat) : BitVec 10 := .ofNat 10 ((List.range 10).foldl (fun a i => if v.testBit (9 - i) then a + 2 ^ i else a) 0)

/-- A data symbol at a running disparity, and the disparity after it. -/
def encData (b : Byte) (rd : Bool) : BitVec 10 × Bool :=
  let x := b.toNat % 32
  let six := if rd then (block6 x).pos else (block6 x).neg
  let r := rdAfter 6 six rd
  let f := block4 x (b.toNat / 32) r
  let four := if r then f.pos else f.neg
  (lineOrder (six * 16 + four), rdAfter 4 four r)

/-- The control symbols of R45. -/
inductive Ctl | k28_5 | k27_7 | k29_7 | k28_1
deriving DecidableEq, Repr

/-- A control symbol at disparity -1; at +1 it is complemented. -/
def Ctl.code : Ctl → Nat
  | .k28_5 => 0b0011111010 | .k27_7 => 0b1101101000 | .k29_7 => 0b1011101000 | .k28_1 => 0b0011111001

/-- A control symbol at a running disparity, and the disparity after it. -/
def encCtl (c : Ctl) (rd : Bool) : BitVec 10 × Bool :=
  let v := if rd then 1023 - c.code else c.code
  (lineOrder v, rdAfter 10 v rd)

/-- Is a received symbol a code violation or a disparity error at the receiver's running disparity (R45)? Only the data symbols
and the four control symbols are none; a symbol received while TLx_RXVALID is low is one (21_integration_ports.md R532). -/
def codeViolation (sym : BitVec 10) (rd valid : Bool) : Bool :=
  !valid || !((List.range 256).any (fun b => (encData (.ofNat 8 b) rd).1 == sym)
    || [Ctl.k28_5, .k27_7, .k29_7, .k28_1].any (fun c => (encCtl c rd).1 == sym))

/-- Data symbols of a list of bytes. -/
def encBytes : List Byte → Bool → List (BitVec 10) × Bool
  | [], rd => ([], rd)
  | b :: t, rd =>
    let (x, r) := encData b rd
    let (xs, r) := encBytes t r
    (x :: xs, r)

/-- What a port sends between frames: K28.5 and D16.2 (R47). -/
def idleSymbols (rd : Bool) : List (BitVec 10) × Bool :=
  let (a, r) := encCtl .k28_5 rd
  let (b, r) := encData 0x50 r
  ([a, b], r)

/-- The symbols of a frame (R47): K27.7, the type byte to the end of the payload, the CRC with its low byte first, K29.7. -/
def TlFrame.symbols (f : TlFrame) (rd : Bool) : List (BitVec 10) × Bool :=
  let (a, r) := encCtl .k27_7 rd
  let (bs, r) := encBytes ([.ofNat 8 f.kind, .ofNat 8 f.src, .ofNat 8 f.dst, .ofNat 8 f.hop] ++ f.payload
    ++ [f.crc.extractLsb' 0 8, f.crc.extractLsb' 8 8]) r
  let (z, r) := encCtl .k29_7 r
  (a :: bs ++ [z], r)

end Sys2Proof.Machine
end

