-- ==== Sys2Proof/Machine/TallyLink.lean ====
section
/-!
DEFINITION. Tally Link (02_tally_time.md R45 to R59): link states, frames, delay measurement, servo, broadcasts.
-/

namespace Sys2Proof.Machine

/-- The bookkeeping of a port. -/
def State.tlp (s : State) (p : Nat) : TlPort := tget (fun _ => ({} : TlPort)) s.tl.ports p

def State.setTlp (s : State) (p : Nat) (x : TlPort) : State :=
  { s with tl.ports := tset (fun _ => ({} : TlPort)) s.tl.ports p x }

def State.tlState (s : State) (p : Nat) : Nat := s.fld (TL_PSTAT p) fTL_PSTAT_STATE
def State.tlEn (s : State) : Bool := s.flag TL_CTRL fTL_CTRL_EN
def State.tlMaster (s : State) : Bool := s.flag TL_CTRL fTL_CTRL_ROLE
def State.upport (s : State) : Nat := s.fld TL_CTRL fTL_CTRL_UPPORT
def State.tlId (s : State) : Nat := s.fld TL_CTRL fTL_CTRL_TL_ID
def State.servo (s : State) : Nat := s.fld TL_STAT fTL_STAT_SERVO

/-- One byte of the CRC-16 of R47: polynomial 0x1021, initial value 0xFFFF. -/
def crc16Bits : Nat → Nat → Nat
  | 0, c => c
  | n + 1, c => crc16Bits n (if 0x8000 ≤ c then (2 * c % 0x10000) ^^^ 0x1021 else 2 * c % 0x10000)

def crc16Step (c : Nat) (b : Byte) : Nat := crc16Bits 8 (c ^^^ (b.toNat * 256))

/-- The CRC of a byte list. -/
def crc16 (bs : List Byte) : Nat := bs.foldl crc16Step 0xFFFF

/-- The bytes that a frame's CRC covers: the type byte to the end of the payload (R47). -/
def frameBytes (kind src dst hop : Nat) (pl : List Byte) : List Byte :=
  [.ofNat 8 kind, .ofNat 8 src, .ofNat 8 dst, .ofNat 8 hop] ++ pl

/-- A frame with its CRC. -/
def mkFrame (port kind src dst hop : Nat) (pl : List Byte) : TlFrame :=
  { port := port, kind := kind, src := src, dst := dst, hop := hop, payload := pl
    crc := .ofNat 16 (crc16 (frameBytes kind src dst hop pl)) }

/-- Hand a frame to a port's serialiser: only an enabled port that is UP sends. -/
def State.tlSend (s : State) (f : TlFrame) : State :=
  if s.tlEn && s.tlState f.port == 2 then { s with tl.tx := s.tl.tx ++ [f] } else s

/-! ### Servo state (R54, R55) -/

/-- The Tally at which a measurement that is to follow Tally `t` counts as missed: 1.5 ms (6,442,451 tk) later (R53). -/
def missedAt (t : Stamp) : Stamp := t + 6442451

/-- Enter ACQUIRE: no lock, no valid measurement yet. On an UPPORT that is UP the wait for a measurement begins. -/
def State.acquire (s : State) : State :=
  let s := s.setFld TL_STAT fTL_STAT_SERVO 0
  let due := if s.tlState s.upport = 2 then some (missedAt s.now) else none
  { s with tl := { s.tl with valid := 0, missed := 0, slew := 0, measured := false, exch := none, due := due } }

/-- In HOLDOVER with FAILOVER, and with the other port UP and receiving TIME frames, the slave exchanges TL_CTRL.UPPORT,
journals that, and enters ACQUIRE on that port (R55). -/
def State.failover (s : State) : State :=
  let o := 1 - s.upport
  if !s.tlMaster && s.servo == 2 && s.flag TL_CTRL fTL_CTRL_FAILOVER && s.tlState o == 2 && (s.tlp o).timeSeen then
    let old := s.upport
    let s := s.setFld TL_CTRL fTL_CTRL_UPPORT o
    State.acquire (s.record 1 7 old 0 o 0)
  else s

/-- Enter HOLDOVER (R55): TB_TRIM is kept and EV5 is raised. -/
def State.holdover (s : State) : State :=
  if s.tlMaster || s.servo == 2 then s
  else State.failover ((s.setFld TL_STAT fTL_STAT_SERVO 2).raise 5 0 0)

/-- A missed exchange (R53, R55): three in a row bring HOLDOVER. -/
def State.tlMissed (s : State) : State :=
  let s := s.inc TL_SYNC_MISSED
  let s := { s with tl := { s.tl with missed := s.tl.missed + 1, exch := none } }
  if 3 ≤ s.tl.missed then s.holdover else s

/-! ### Link state (R46) -/

/-- A change of link state: EV2 for TLA, EV3 for TLB. -/
def State.tlSetState (s : State) (p st : Nat) : State :=
  if s.tlState p = st then s
  else
    let s := (s.setFld (TL_PSTAT p) fTL_PSTAT_STATE st).raise (2 + p) 0 0
    if st = 0 then
      let s := s.setTlp p { s.tlp p with timeSeen := false, viol := [], violSeen := false, awaiting := false }
      if p = s.upport then State.holdover { s with tl.due := none } else s
    else if st = 2 ∧ p = s.upport ∧ s.tlMaster = false then { s with tl.due := some (missedAt s.now) }
    else s

/-- A received code violation or disparity error, `gap` symbols after the previous one. In UP, four within 256 symbols, counted
from the first since the port came UP, take the port DOWN (R46; DEDUCED, log entry 37). -/
def State.tlViolation (s : State) (p gap : Nat) : State :=
  if s.tlEn then
    let s := s.inc (TL_CV_ERRS p)
    let x := s.tlp p
    let v := if x.violSeen then gap :: x.viol.take 2 else []
    let s := s.setTlp p { x with viol := v, violSeen := true }
    if s.tlState p = 1 then s.tlSetState p 0
    else if s.tlState p = 2 ∧ v.length = 3 ∧ v.sum < 256 then s.tlSetState p 0
    else s
  else s

/-- A K28.5 on an enabled port (R46). -/
def State.tlComma (s : State) (p : Nat) : State :=
  if s.tlEn && s.tlState p == 0 then s.tlSetState p 1 else s

/-- 64 consecutive valid symbols in ALIGN (R46). -/
def State.tlAligned (s : State) (p : Nat) : State :=
  if s.tlEn && s.tlState p == 1 then (s.setTlp p { s.tlp p with viol := [], violSeen := false }).tlSetState p 2 else s

/-! ### Frames received -/

/-- Has the payload the length of the frame's type (R47)? -/
def TlFrame.sized (f : TlFrame) : Bool :=
  let n := f.payload.length
  match f.kind with
  | 1 => n == 16
  | 2 => n == 16
  | 3 => n == 9
  | 0x10 => n == 9
  | 0x20 => decide (3 ≤ n) && decide (n ≤ 66)
  | 0x21 => n == 3
  | _ => true

/-- Is a received frame valid on an enabled port that is UP? One with a CRC error or a code violation is dropped and counted
(R47); so is one whose payload is not that of its type (DESIGN CHOICE, log entry 38). -/
def State.tlCheck (s : State) (f : TlFrame) : Bool × State :=
  if s.tlEn && s.tlState f.port == 2 then
    if f.viol = false ∧ f.sized = true ∧ crc16 (frameBytes f.kind f.src f.dst f.hop f.payload) = f.crc.toNat then (true, s)
    else (false, s.inc (TL_CRC_ERRS f.port))
  else (false, s)

/-- Is the frame for this device: addressed to it, or a broadcast (R47, R49)? A frame of its own source is removed. -/
def State.tlForMe (s : State) (f : TlFrame) : Bool :=
  f.src != s.tlId && (f.dst == 0xFF || f.dst == s.tlId)

/-- Forwarding out of the other port (R49): not the own frames, not at hop 32, not what is addressed to this device. -/
def State.tlForward (s : State) (f : TlFrame) : State :=
  if f.src = s.tlId ∨ 32 ≤ f.hop + 1 ∨ (f.dst = s.tlId ∧ f.dst ≠ 0xFF) then s
  else s.tlSend (mkFrame (1 - f.port) f.kind f.src f.dst (f.hop + 1) f.payload)

/-- The path delay d in 1/16 tk and the offset o in 1/16 tk of an exchange (R53); a/32 tk is a/2 sixteenths, rounded
down (log entry 14). -/
def syncDelay16 (t1 t2 t3 t4 : Stamp) : Int := 8 * (stampDiff t4 t1 - stampDiff t3 t2)
def syncOffset16 (t1 t2 : Stamp) (d16 asym : Int) : Int := 16 * stampDiff t2 t1 - d16 - asym / 2

/-- Sixteenths of a tk rounded to the nearest tk, halves upward (log entry 14). -/
def round16 (x : Int) : Int := (x + 8) / 16

/-- The change of TB_TRIM on a measurement: -o * 2^-FGAIN tk per fc in units of 2^-32, saturating at 2^24 units (R54). -/
def State.trimBy (s : State) (o : Int) : State :=
  let d := -o * 2 ^ (32 - s.fld TL_CTRL fTL_CTRL_FGAIN)
  s.setReg TB_TRIM (intWord (clampI (-16777216) 16777216 (sInt (s.reg TB_TRIM) + d)))

/-- A completed measurement (R53, R54): the registers, then the servo. The UPPORT of a slave in HOLDOVER has recovered with its
first completed measurement, and the slave enters ACQUIRE with it (DESIGN CHOICE, log entry 39). -/
def State.tlMeasured (s : State) (d o : Int) : State :=
  let u := s.upport
  let s := (s.setReg (TL_DELAY u) (intWord d)).setReg (TL_OFFSET u) (intWord o)
  let s := { s with tl := { s.tl with valid := s.tl.valid + 1, missed := 0, measured := true } }
  if s.servo = 1 then
    let s := s.trimBy o
    if (s.nat TL_STEPTHR : Int) < |o| then State.setTally { s with tl.slew := 0 } (s.now - BitVec.ofInt 64 o)
    else { s with tl.slew := -o }
  else if s.servo = 2 then
    { s.setFld TL_STAT fTL_STAT_SERVO 0 with tl.valid := 1 }
  else s

/-- Completion of the previous exchange by the t4 that a SYNC_REQ carries (R53). -/
def State.tlComplete (s : State) (t4 : Stamp) : State :=
  match s.tl.exch with
  | none => s
  | some (t1, t2, t3) =>
    if t4 = 0 then s.tlMissed
    else
      let d16 := syncDelay16 t1 t2 t3 t4
      let o16 := syncOffset16 t1 t2 d16 (sInt (s.reg (TL_ASYM s.upport)))
      State.tlMeasured { s with tl.exch := none } (round16 d16) (round16 o16)

/-- SYNC_REQ received on the UPPORT of a slave, arrival t2, reply departure t3 (R51, R53); forwarded under R49. One whose
destination is neither broadcast nor this device is forwarded unanswered (DESIGN CHOICE, log entry 40). -/
def State.tlSyncReq (s : State) (f : TlFrame) (t2 t3 : Stamp) : State :=
  let (ok, s) := s.tlCheck f
  if !ok then s
  else
    let s := s.tlForward f
    if !s.tlMaster && f.port == s.upport && s.tlForMe f then
      let t1 : Stamp := .ofNat 64 (bytesNatOf (f.payload.take 8))
      let t4 : Stamp := .ofNat 64 (bytesNatOf (f.payload.drop 8))
      let s := s.tlComplete t4
      let s := s.tlSend (mkFrame f.port 2 s.tlId f.src 0 (natBytes 8 t2.toNat ++ natBytes 8 t3.toNat))
      { s with tl := { s.tl with exch := some (t1, t2, t3), due := some (missedAt t3) } }
    else s

/-- The port faces downstream: both for the master, the port other than the UPPORT for a slave (R53). -/
def State.downstream (s : State) (p : Nat) : Bool := s.tlMaster || p != s.upport

/-- SYNC_REQ sent on one port with departure stamp t1 (R53). The spec does not state its destination byte: a free value
(log entry 1). -/
def State.tlSendReq (s : State) (p : Nat) (t1 : Stamp) : State :=
  if s.tlEn && s.downstream p && s.tlState p == 2 then
    let x := s.tlp p
    let t4 : Stamp := if x.awaiting then 0 else x.t4
    let dst := (s.freeVal.extractLsb' 0 8).toNat
    let s := s.tookFree.tlSend (mkFrame p 1 s.tlId dst 0 (natBytes 8 t1.toNat ++ natBytes 8 t4.toNat))
    s.setTlp p { x with t4 := 0, awaiting := true }
  else s

/-- SYNC_RESP received by a requester: its arrival is t4 of the next SYNC_REQ on the port (R53); forwarded under R49. -/
def State.tlSyncResp (s : State) (f : TlFrame) (t4 : Stamp) : State :=
  let (ok, s) := s.tlCheck f
  if !ok then s
  else
    let s := s.tlForward f
    let x := s.tlp f.port
    if s.downstream f.port && s.tlForMe f && x.awaiting then s.setTlp f.port { x with t4 := t4, awaiting := false }
    else s

/-- No SYNC_REQ came within 1.5 ms of the SYNC_RESP: the exchange is abandoned (R53). Without one, each further 1 ms
(4,294,967 tk) misses another measurement (R55; DEDUCED, log entry 41). -/
def State.tlTimeout (s : State) : State :=
  match s.tl.due with
  | none => s
  | some t =>
    if !s.tlMaster && reached t s.now then State.tlMissed { s with tl.due := some (t + 4294967) } else s

/-- The master's TIME frame on one port, with the departure stamp as its time (R51). The spec states neither its destination
byte nor its hop byte and hops field: broadcast and 0 (DESIGN CHOICE, log entry 42). -/
def State.tlSendTime (s : State) (p : Nat) (dep : Stamp) : State :=
  if s.tlMaster then s.tlSend (mkFrame p 3 s.tlId 0xFF 0 (natBytes 8 dep.toNat ++ [0])) else s

/-- A TIME frame forwarded with its time and hop fields rewritten (R50). -/
def State.tlForwardTime (s : State) (f : TlFrame) (tin : Stamp) (hops : Nat) (arr dep : Stamp) : State :=
  if f.src ≠ s.tlId ∧ f.hop + 1 < 32 then
    let t := tin + BitVec.ofNat 64 (s.nat (TL_DELAY f.port)) + (dep - arr)
    s.tlSend (mkFrame (1 - f.port) 3 f.src f.dst (f.hop + 1) (natBytes 8 t.toNat ++ [.ofNat 8 (hops + 1)]))
  else s

/-- A slave in ACQUIRE steps to the carried time plus d after two valid measurements and enters TRACK (R54). -/
def State.tlAcquireStep (s : State) (f : TlFrame) (tin : Stamp) : State :=
  if s.servo = 0 ∧ 2 ≤ s.tl.valid then
    (s.setTally (tin + BitVec.ofNat 64 (s.nat (TL_DELAY f.port)))).setFld TL_STAT fTL_STAT_SERVO 1
  else s

/-- A TIME frame received, arrival stamp `arr`, departure `dep` of the forwarded frame (R50, R52, R54, R55). One on the other
port, or before a measurement, serves R55 only. -/
def State.tlTime (s : State) (f : TlFrame) (arr dep : Stamp) : State :=
  let (ok, s) := s.tlCheck f
  if ok && f.src != s.tlId then
    if s.tlMaster then (s.setFlag TL_STAT fTL_STAT_DUALMASTER true).raise 4 0 0
    else
      let tin : Stamp := .ofNat 64 (bytesNatOf (f.payload.take 8))
      let hops := bytesNatOf (f.payload.drop 8)
      let s := s.setTlp f.port { s.tlp f.port with timeSeen := true }
      if f.port = s.upport then
        if s.tl.measured then State.tlAcquireStep ((s.setFld TL_STAT fTL_STAT_HOPS hops).tlForwardTime f tin hops arr dep) f tin
        else s
      else s.failover
  else s

/-- A broadcast apply-time on this device (R57): TL_BTIME[k], EV6, and EV7 when late. -/
def State.btime (s : State) (k : Nat) (t : Stamp) : State :=
  let s := (s.setReg64 (TL_BTIME_LO k) (TL_BTIME_HI k) t).raise 6 0 0
  if stampDiff t s.now < (s.nat TL_BMARGIN : Int) then
    ((s.setFlag TL_STAT fTL_STAT_BLATE true).inc TL_BLATE_CNT).raise 7 0 0
  else s

/-- A BCAST frame received (R57), forwarded out of the other port (R49). A tag byte above 15 is taken modulo 16 (DESIGN CHOICE,
log entry 43). -/
def State.tlBcastRx (s : State) (f : TlFrame) : State :=
  let (ok, s) := s.tlCheck f
  if ok && f.src != s.tlId then
    let k := bytesNatOf (f.payload.take 1) % 16
    let t : Stamp := .ofNat 64 (bytesNatOf (f.payload.drop 1))
    (s.tlForward f).btime k t
  else s

/-- The sender's broadcast: on both ports, and on the sender itself (R57). -/
def State.tlBcastTx (s : State) (k : Nat) (t : Stamp) : State :=
  let pl := [BitVec.ofNat 8 k] ++ natBytes 8 t.toNat
  let s := s.tlSend (mkFrame 0 0x10 s.tlId 0xFF 0 pl)
  let s := s.tlSend (mkFrame 1 0x10 s.tlId 0xFF 0 pl)
  s.btime k t

/-- A write of TL_CTRL: clearing EN takes both ports DOWN (R46); a new UPPORT or role starts from ACQUIRE (DESIGN CHOICE, log
entry 39); FAILOVER may exchange the UPPORT of a slave in HOLDOVER (R55). -/
def State.tlCtrlWrite (s : State) (v : Word) : State :=
  let old := s.reg TL_CTRL
  let s := s.setReg TL_CTRL v
  let s := if s.tlEn then s else (s.tlSetState 0 0).tlSetState 1 0
  if bitsOf old.toNat 1 2 = bitsOf v.toNat 1 2 then s.failover else s.acquire

end Sys2Proof.Machine
end

