-- ==== Sys2Proof/Machine/MailBase.lean ====
section
/-!
DEFINITION. Mailboxes (16_mailbox_commands.md R415 to R426, R433): rings, the order in which Crook takes commands,
replies, and the peer mailboxes of Tally Link (02_tally_time.md R58).
-/

namespace Sys2Proof.Machine

/-- MB_STAT.STATE: 0 IDLE, 1 BUSY, 2 DONE. -/
def State.mbState (s : State) (m : Nat) : Nat := s.fld (MB_STAT m) fMB_STAT_STATE

/-- Request header words 0 to 2 and request data word i (R417). -/
def State.mbHdr (s : State) (m i : Nat) : Nat := s.nat (MB_REQ m i)
def State.mbOp (s : State) (m : Nat) : Nat := bitsOf (s.mbHdr m 0) 0 12
def State.mbBuf (s : State) (m : Nat) : Bool := bitOf (s.mbHdr m 0) 16
def State.mbSeq (s : State) (m : Nat) : Nat := bitsOf (s.mbHdr m 1) 0 16
def State.mbLen (s : State) (m : Nat) : Nat := bitsOf (s.mbHdr m 2) 0 10
def State.mbD (s : State) (m i : Nat) : Nat := s.nat (MB_REQ m (4 + i))

/-- A doubleword of request data, low word first. -/
def State.mbD64 (s : State) (m i : Nat) : Stamp := BitVec.ofNat 64 (s.mbD m i + s.mbD m (i + 1) * 2 ^ 32)

/-- The kinds of mailbox (R415). -/
inductive MbKind
  | privileged | flock (f : Nat) | peer | debug
deriving DecidableEq, Repr

def mbKind (m : Nat) : MbKind :=
  if m < 4 then .privileged else if m < 20 then .flock (m - 4) else if m < 28 then .peer else .debug

/-- A ring of the doorbell (R418). AUTH is the authority of a debug ring: 1 Outer, 2 Inner. In Rest it sets WL10. -/
def State.mbRing (s : State) (m auth : Nat) : State :=
  let s := if s.pw.mode = .rest then s.wakeSet 10 s.wakeStamp false else s
  if s.mbState m = 1 then s.inc (MB_REJ_CNT m)
  else
    let s := { s with mb.done := tset (fun _ => false) s.mb.done m (s.mbState m == 2) }
    ((s.setFld (MB_STAT m) fMB_STAT_STATE 1).setFld (MB_STAT m) fMB_STAT_AUTH auth).inc (MB_CMD_CNT m)

/-- The mailboxes in the order in which Crook looks for a ring (R421). -/
def mbOrder : List Nat := [0, 1, 2, 3, 28, 29, 30, 31] ++ (List.range 24).map (fun i => i + 4)

/-- The mailbox whose command Crook takes next: BUSY and not in a wait. None before READY (R479), none while CLK_FAST
does not run, none while Crook stays with a Q_PIN until its copy ends. -/
def State.mbNext (s : State) : Option Nat :=
  if s.mb.ready && s.live && !s.mb.waits.any (fun w => w.op == 0x601) then
    mbOrder.find? (fun m => s.mbState m == 1 && !s.mb.waits.any (fun w => w.m == m))
  else none

/-! ### Replies (R418, R419, R424) -/

/-- Write reply data words from word i. -/
def State.mbPut (s : State) (m : Nat) : Nat → List Word → State
  | _, [] => s
  | i, w :: t => State.mbPut (s.setReg (MB_RPL m (8 + i)) w) m (i + 1) t

/-- The eight words of the reply header (R419). -/
def State.mbPutHeader (s : State) (m w0 seq len inc : Nat) (ast cst : Stamp) : State :=
  let s := ((s.setNat (MB_RPL m 0) w0).setNat (MB_RPL m 1) seq).setNat (MB_RPL m 2) len
  let s := (s.setNat (MB_RPL m 3) inc).setReg64 (MB_RPL m 4) (MB_RPL m 5) ast
  s.setReg64 (MB_RPL m 6) (MB_RPL m 7) cst

/-- The bytes of the reply of a mailbox: header and data. -/
def State.mbReplyBytes (s : State) (m : Nat) : Nat → List Byte
  | 0 => []
  | n + 1 => State.mbReplyBytes s m n ++ natBytes 4 (s.nat (MB_RPL m n))

/-- Cut a list into pieces of 64 bytes; the fuel is its length. -/
def fragments : Nat → List Byte → List (List Byte)
  | 0, _ => []
  | n + 1, bs => if bs = [] then [] else bs.take 64 :: fragments n (bs.drop 64)

/-- The peer agent returns the reply of a peer mailbox (R433). -/
def State.peerReply (s : State) (m : Nat) : State :=
  let src := tget (fun _ => 0) s.mb.peerSrc m
  let first := tget (fun _ => 0) s.mb.peerFirst m
  let bs := s.mbReplyBytes m (8 + (s.nat (MB_RPL m 2) + 3) / 4)
  let frs := (fragments bs.length bs).zipIdx
  let fs : List TlFrame := frs.map (fun e => mkFrame (src / 256) 0x20 s.tlId (src % 256) 0 (natBytes 2 (first + e.2) ++ e.1))
  let s := fs.foldl State.tlSend s
  { s with
    tl := { s.tl with inFlight := s.tl.inFlight ++ fs }
    mb := { s.mb with peerOut := tset (fun _ => []) s.mb.peerOut m (frs.map (fun e => (first + e.2) % 65536)) } }

/-- The commands marked † (R424). -/
def opReads (op : Nat) : Bool := [0x001, 0x103, 0x302, 0x701, 0x900, 0xB03, 0xC00].contains op

/-- The completion of a command (R418, R420, R424): STATUS, DETAIL, and `len` bytes of reply data. -/
def State.mbFinish (s : State) (w : MbWait) (status detail : Nat) (data : List Word) (len : Nat := 4 * data.length) : State :=
  let m := w.m
  let seq := s.mbSeq m
  let w0 := w.op + status * 2 ^ 16 + detail * 2 ^ 24
  let s := s.mbPut m 0 data
  let s := s.mbPutHeader m w0 seq len w.inc w.astamp s.now
  let s := { s with mb := { s.mb with waits := s.mb.waits.filter (fun x => x.m != m) } }
  let s := ((s.setFld (MB_STAT m) fMB_STAT_STATE 2).setFlag (MB_STAT m) fMB_STAT_SEQV true).setFld (MB_STAT m) fMB_STAT_LASTSEQ seq
  let s := s.raise (848 + m) w0 seq
  let s := if opReads w.op && status == 0 then s
    else s.jAdd ⟨s.now, 848 + m, 4, w.op, 0, .ofNat 32 (seq + status * 2 ^ 16 + detail * 2 ^ 24), .ofNat 32 (s.mbD m 0),
      w.astamp.extractLsb' 0 32, w.astamp.extractLsb' 32 32⟩
  if mbKind m = .peer then s.peerReply m else s

/-- A duplicate (R420): the stored reply with a new CSTAMP, counted. -/
def State.mbDuplicate (s : State) (m : Nat) : State :=
  let s := (s.setReg64 (MB_RPL m 6) (MB_RPL m 7) s.now).inc (MB_DUP_CNT m)
  let s := (s.setFld (MB_STAT m) fMB_STAT_STATE 2).raise (848 + m) (s.nat (MB_RPL m 0)) (s.nat (MB_RPL m 1))
  if mbKind m = .peer then s.peerReply m else s

/-- The command of a mailbox as Crook accepts it (R418, R419). -/
def State.mbAccept (s : State) (m : Nat) : MbWait × State :=
  let inc := match mbKind m with
    | .flock f => s.flockInc f
    | _ => 0
  ({ m := m, op := s.mbOp m, astamp := s.now, inc := inc }, forN (fun i s => s.setNat (MB_RPL m i) 0) 8 s)

/-- The wait of a mailbox, if its command waits. -/
def State.mbWaiting (s : State) (op : Nat) : Option MbWait := s.mb.waits.find? (fun w => w.op == op)

/-! ### Peer mailboxes (02_tally_time.md R58, R433) -/

/-- The peer mailbox in which the message of a source is gathered. -/
def State.peerOf (s : State) (src : Nat) : Option Nat :=
  (firstIdx (fun i => tget (fun _ => 0) s.mb.peerLen (20 + i) != 0 && s.mbState (20 + i) == 0
    && tget (fun _ => 0) s.mb.peerSrc (20 + i) % 256 == src) 8).map (fun i => i + 20)

/-- A free peer mailbox: IDLE, nothing gathered. -/
def State.peerFree (s : State) : Option Nat :=
  (firstIdx (fun i => s.mbState (20 + i) == 0 && tget (fun _ => 0) s.mb.peerLen (20 + i) == 0) 8).map (fun i => i + 20)

/-- Store bytes of a message in the request area, from byte k. -/
def State.peerStore (s : State) (m k : Nat) : List Byte → State
  | [] => s
  | b :: t =>
    let r := MB_REQ m (k / 4)
    let s := if k < 960 then s.setNat r (withBits (s.nat r) (8 * (k % 4)) 8 b.toNat) else s
    State.peerStore s m (k + 1) t

/-- An MBOX_ACK to the sender of a fragment. -/
def State.peerAck (s : State) (f : TlFrame) (seq status : Nat) : State :=
  s.tlSend (mkFrame f.port 0x21 s.tlId f.src 0 (natBytes 2 seq ++ natBytes 1 status))

/-- A fragment taken into mailbox m; a complete message acts as a ring (R433). -/
def State.peerTake (s : State) (f : TlFrame) (m seq : Nat) (bs : List Byte) : State :=
  let n := tget (fun _ => 0) s.mb.peerLen m
  let s := s.peerStore m n bs
  let n := n + bs.length
  let s := { s with mb := { s.mb with
      peerLen := tset (fun _ => 0) s.mb.peerLen m n
      peerSrc := tset (fun _ => 0) s.mb.peerSrc m (f.src + 256 * f.port)
      peerNext := tset (fun _ => 0) s.mb.peerNext m ((seq + 1) % 65536) } }
  let s := s.peerAck f seq 0
  if 16 ≤ n ∧ (64 < s.mbLen m ∨ 16 + s.mbLen m ≤ n) then
    State.mbRing { s with mb.peerLen := tset (fun _ => 0) s.mb.peerLen m 0 } m 0
  else s

/-- An MBOX frame received (R58): it continues the message of its source when it is next in sequence, starts a message in a
free mailbox, or is answered busy. A fragment out of sequence is not taken (log entry 22). -/
def State.mboxRx (s : State) (f : TlFrame) : State :=
  let (ok, s) := s.tlCheck f
  if !ok then s
  else if !s.tlForMe f then s.tlForward f
  else
    let s := s.tlForward f
    let seq := bytesNatOf (f.payload.take 2)
    let bs := f.payload.drop 2
    match s.peerOf f.src with
    | some m => if tget (fun _ => 0) s.mb.peerNext m = seq then s.peerTake f m seq bs else s
    | none => match s.peerFree with
      | some m => State.peerTake { s with mb.peerFirst := tset (fun _ => 0) s.mb.peerFirst m seq } f m seq bs
      | none => (s.inc TL_MBOX_BUSY).peerAck f seq 1

/-- The fragment in flight to a device with a sequence number. -/
def State.flightOf (s : State) (dst seq : Nat) : Option TlFrame :=
  s.tl.inFlight.find? (fun g => g.dst == dst && bytesNatOf (g.payload.take 2) == seq)

/-- A reply fragment was accepted: the mailbox returns to IDLE with the last one (R433). -/
def State.peerAccepted (s : State) (dst seq : Nat) : State :=
  let hit := firstIdx (fun i => tget (fun _ => 0) s.mb.peerSrc (20 + i) % 256 == dst
    && (tget (fun _ => []) s.mb.peerOut (20 + i)).contains seq) 8
  match hit with
  | none => s
  | some i =>
    let m := 20 + i
    let left := (tget (fun _ => []) s.mb.peerOut m).filter (fun x => x != seq)
    let s := { s with mb.peerOut := tset (fun _ => []) s.mb.peerOut m left }
    if left = [] then s.setFld (MB_STAT m) fMB_STAT_STATE 0 else s

/-- MBOX_ACK received (R58): accepted, or busy so that the fragment is sent again 100 µs later (429,497 tk). -/
def State.mboxAck (s : State) (f : TlFrame) : State :=
  let (ok, s) := s.tlCheck f
  if !ok then s
  else if !s.tlForMe f then s.tlForward f
  else
    let s := s.tlForward f
    let seq := bytesNatOf (f.payload.take 2)
    let status := bytesNatOf ((f.payload.drop 2).take 1)
    match s.flightOf f.src seq with
    | none => s
    | some g =>
      let s := { s with tl.inFlight := s.tl.inFlight.erase g }
      if status = 0 then s.peerAccepted f.src seq
      else { s with tl.retry := s.tl.retry ++ [({ frame := g, due := s.now + 429497 } : TlRetry)] }

/-- The fragments whose 100 µs have passed are sent again (R58). -/
def State.mboxRetry (s : State) : State :=
  let due := s.tl.retry.filter (fun r => reached r.due s.now)
  let fs := due.map (fun r => r.frame)
  let s := { s with tl := { s.tl with
      retry := s.tl.retry.filter (fun r => !reached r.due s.now)
      inFlight := s.tl.inFlight ++ fs } }
  fs.foldl State.tlSend s

end Sys2Proof.Machine
end

