-- ==== Sys2Proof/Machine/Reserve.lean ====
section
/-!
DEFINITION. The reserve (18_reserve_and_service_life.md R451 to R467): unit maps, the Drove, shadow-compare, Hurdles and
service states, wear monitors, self-tests.
-/

namespace Sys2Proof.Machine

/-! ### Kinds of unit (R451, R467): 0 engine, 1 generator, 2 timer, 3 feedback unit, 4 Chanter -/

/-- Physical and active units of a kind, and where the kind begins in the order of R455. -/
def physCount (k : Nat) : Nat := match k with | 0 => 72 | 1 => 52 | 2 => 36 | 3 => 10 | _ => 36
def activeCount (k : Nat) : Nat := match k with | 0 => 64 | 1 => 48 | 2 => 32 | 3 => 8 | _ => 32
def unitBase (k : Nat) : Nat := match k with | 0 => 0 | 1 => 72 | 2 => 124 | 3 => 160 | _ => 170

/-- The kind and number of unit u of the 206 in the order of R455. -/
def unitOf (u : Nat) : Nat × Nat :=
  if u < 72 then (0, u) else if u < 124 then (1, u - 72) else if u < 160 then (2, u - 124)
  else if u < 170 then (3, u - 160) else (4, u - 170)

/-- The default map of R451: the logical unit of a physical one, if it is active. -/
def defaultLogical (k i : Nat) : Option Nat :=
  if k = 0 then (if i % 9 < 8 then some (8 * (i / 9) + i % 9) else none)
  else if i < activeCount k then some i else none

def State.unitValid (s : State) (k i : Nat) : Bool := bitOf (s.nat (mapReg k i)) 6
def State.unitLogical (s : State) (k i : Nat) : Nat := bitsOf (s.nat (mapReg k i)) 0 6
def State.unitFlock (s : State) (k i : Nat) : Nat := bitsOf (s.nat (mapReg k i)) 8 4
def State.unitRetired (s : State) (k i : Nat) : Bool := s.flag (hurdleReg k i) fRS_HURDLE_E_RET
def State.unitSpare (s : State) (k i : Nat) : Bool := !s.unitValid k i && !s.unitRetired k i

/-- The physical unit that carries a logical one. -/
def State.findUnit (s : State) (k l : Nat) : Option Nat :=
  firstIdx (fun i => s.unitValid k i && s.unitLogical k i == l) (physCount k)

/-- OFF or stopped (R371, R462). -/
def State.unitStopped (s : State) (k i : Nat) : Bool :=
  match k with
  | 0 => s.leState i == 0
  | 1 => !s.genRun i
  | 2 => !s.timRun i
  | 3 => !s.pfRun i
  | _ => !s.chRun i

/-- Take a unit OFF or stop it. -/
def State.unitStop (s : State) (k i : Nat) : State :=
  match k with
  | 0 =>
    let s := s.leReset i
    s.setEng i { s.eng i with parked := false, held := false, halted := false, haltReq := false, step := false }
  | 1 => s.genHalt i
  | 2 => s.timHalt i
  | 3 => s.pfStop i
  | _ => s.chStop i

/-- A unit whose map changed did not carry one logical unit for the whole hour (R454). -/
def State.markIdle (s : State) (k i : Nat) : State :=
  { s with rs.idle := tset (fun _ => false) s.rs.idle (unitBase k + i) true }

/-- Store LVALID and LOGICAL of a unit. -/
def State.setUnitMap (s : State) (k i : Nat) (valid : Bool) (l : Nat) : State :=
  let v := s.nat (mapReg k i)
  (s.setNat (mapReg k i) (withBits (withBits v 0 6 l) 6 1 (b2n valid))).markIdle k i

def State.setFence (s : State) (k i : Nat) (b : Bool) : State := s.setFlag (hurdleReg k i) fRS_HURDLE_E_FENCE b

/-! ### The reserve image (R452) and the maps at start-up -/

/-- The n values f 0 to f (n - 1) as a table without its zeros. -/
def wordTable (f : Nat → Word) (n : Nat) : List (Nat × Word) :=
  ((List.range n).map (fun i => (i, f i))).filter (fun e => e.2 != 0)

/-- Crook rewrites the reserve image. -/
def State.saveReserve (s : State) : State :=
  let im : ReserveImage := {
    maps := wordTable (fun u => s.reg (mapReg (unitOf u).1 (unitOf u).2)) 206
    hurdles := wordTable (fun u => s.reg (hurdleReg (unitOf u).1 (unitOf u).2)) 206
    hours := s.rs.hours
    busy := s.rs.busy }
  { s with fold.reserve := some im }

/-- Fence every unit without a logical one (R467). -/
def State.fenceSpares (s : State) : State :=
  forN (fun u s => if s.unitValid (unitOf u).1 (unitOf u).2 then s else s.setFence (unitOf u).1 (unitOf u).2 true) 206 s

/-- The default map (R451). -/
def State.defaultMap (s : State) : State :=
  forN (fun u s =>
    let k := (unitOf u).1
    let i := (unitOf u).2
    match defaultLogical k i with
    | some l => s.setUnitMap k i true l
    | none => s.setUnitMap k i false 0) 206 s

/-- The map fields and Hurdle entries of the image; a unit's flock and the other fields keep their reset values (R452). -/
def State.restoreMap (s : State) (im : ReserveImage) : State :=
  let s := forN (fun u s =>
    let k := (unitOf u).1
    let i := (unitOf u).2
    let m := (tget (fun _ => (0 : Word)) im.maps u).toNat
    let s := s.setUnitMap k i (bitOf m 6) (bitsOf m 0 6)
    let s := s.setNat (mapReg k i) (withBits (s.nat (mapReg k i)) 16 8 (bitsOf m 16 8))
    s.setReg (hurdleReg k i) (tget (fun _ => (0 : Word)) im.hurdles u)) 206 s
  { s with rs := { s.rs with hours := im.hours, busy := im.busy } }

/-! ### The Drove (R456 to R459) -/

def State.dvTime (s : State) : Stamp := s.reg64 RS_DV_TIME_LO RS_DV_TIME_HI

def State.setPhase (s : State) (p : Nat) : State :=
  (s.setFld RS_DV_STAT fRS_DV_STAT_PHASE p).setFlag RS_GSTAT fRS_GSTAT_DVBUSY (decide (1 ≤ p) && decide (p ≤ 3))

/-- RS_DV_CTRL.GO (R456). A kind or a unit that does not exist starts nothing and is counted (log entry 24). -/
def State.dvGo (s : State) : State :=
  if s.dvBusy ∨ 4 < s.dvKind ∨ physCount s.dvKind ≤ s.dvSrc ∨ physCount s.dvKind ≤ s.dvDst then s.inc RS_CFG_REFUSED
  else State.setPhase { s.setFlag RS_DV_STAT fRS_DV_STAT_PRELOADED false with rs.goFc := s.fc + 1 } 1

/-- Copy `n` words with their marks. -/
def State.copyWords (s : State) (src dst : Nat) : Nat → State
  | 0 => s
  | n + 1 => State.copyWords ((s.setMword dst (s.mword src)).setMark dst (s.poisoned src)) (src + 4) (dst + 4) n

/-- Copy the listed bytes and marks of a memory range: the target's range reads as the source's. -/
def State.copyRange (s : State) (src dst n : Nat) : State :=
  let bs := s.mem.filter (fun e => decide (src ≤ e.1) && decide (e.1 < src + n))
  let ms := s.marks.filter (fun e => decide (src / 4 ≤ e.1) && decide (e.1 < (src + n) / 4))
  let mem := dropRange dst n s.mem
  let marks := dropRange (dst / 4) (n / 4) s.marks
  { s with
    mem := bs.foldl (fun t e => tset memReset t (e.1 - src + dst) e.2) mem
    marks := ms.foldl (fun t e => tset markReset t (e.1 - src / 4 + dst / 4) e.2) marks }

/-- The copier's result: local data RAM and loop buffer of the target read as the source's. -/
def State.copyEngineMem (s : State) (p q : Nat) : State :=
  (s.copyRange (0x1000000 + p * 0x10000) (0x1000000 + q * 0x10000) 0x10000).copyRange
    (0x1480000 + p * 0x1000) (0x1480000 + q * 0x1000) 0x1000

/-- The preload completes and the Drove is ARMED: of an engine, after the 8,192 fc of the copier. -/
def State.preloaded (s : State) : State :=
  if s.dvPhase = 1 ∧ (s.dvKind ≠ 0 ∨ s.rs.goFc + 8191 ≤ s.fc) then
    let s := if s.dvKind = 0 then s.copyEngineMem s.dvSrc s.dvDst else s
    (s.setFlag RS_DV_STAT fRS_DV_STAT_PRELOADED true).setPhase 2
  else s

/-! Configuration copied by Crook in PRELOAD -/

def blockOfKind (k : Nat) : BlockDesc :=
  match k with | 0 => blkLE | 1 => blkPG | 2 => blkTM | 3 => blkPF | _ => blkCP

/-- The base of an element of a block. -/
def BlockDesc.instBase (b : BlockDesc) (i : Nat) : Nat :=
  if b.gstride = 0 then b.base + i * b.stride else b.base + i / b.grp * b.gstride + i % b.grp * b.stride

/-- The bits of a register that are configuration: RW, RWL or RWI. -/
def RegDesc.cfgMask (r : RegDesc) : Nat :=
  r.fields.foldl (fun a f => match f.acc with
    | .RW | .RWL | .RWI => a + fieldMask f.hi f.lo
    | _ => a) 0

/-- Copy the configuration registers of a unit, its map apart. -/
def State.copyConfig (s : State) (k src dst : Nat) : State :=
  let b := blockOfKind k
  (b.regs.drop 1).foldl (fun s r =>
    let m := r.cfgMask
    if m = 0 then s
    else forN (fun e s =>
      let o := r.off + e * r.stride
      let v := s.reg (b.instBase src + o) &&& BitVec.ofNat 32 m
      let w := s.reg (b.instBase dst + o) &&& ~~~(BitVec.ofNat 32 m)
      s.setReg (b.instBase dst + o) (v ||| w)) r.count s) s

/-- The ownership field of the target, and for a feedback unit its run (R456, R457). -/
def State.preloadConfig (s : State) (k src dst : Nat) : State :=
  let s := if k = 0 then
      let s := s.setReg (LE_BMP_BASE dst) (s.reg (LE_BMP_BASE src))
      forN (fun j s =>
        let s := s.setNat (LE_TASK_CFG dst j) (withBits (s.nat (LE_TASK_CFG src j)) 0 1 0)
        let s := (s.setReg (LE_TASK_ENTRY dst j) (s.reg (LE_TASK_ENTRY src j))).setReg (LE_TASK_ARG dst j) (s.reg (LE_TASK_ARG src j))
        (s.setReg (LE_TASK_DL dst j) (s.reg (LE_TASK_DL src j))).setReg (LE_TASK_PERIOD dst j) (s.reg (LE_TASK_PERIOD src j))) 8 s
    else s.copyConfig k src dst
  let s := if k = 4 then s else s.setNat (mapReg k dst) (withBits (s.nat (mapReg k dst)) 8 4 (s.unitFlock k src))
  if k = 3 then s.pfStart dst else s

/-! The boundary -/

/-- Is the boundary of an engine met (R457, R458)? -/
def State.engBoundary (s : State) (p : Nat) : Bool :=
  let e := s.eng p
  (s.leState p == 3 || (s.leState p == 1 && !s.anySlot p 3 && !s.anySlot p 4))
    && !e.rankOut && e.stores.isEmpty && e.path.isEmpty

/-- Is a reload edge of the generator due in the present fc? -/
def State.genReloadNow (s : State) (g : Nat) : Bool :=
  ((s.gen g).zroDue && s.reloadsAtZro g) || ((s.gen g).prdDue && s.reloadsAtPrd g)

/-- One full carrier period of pairing with no mismatch? -/
def State.pairedPeriod (s : State) (src dst : Nat) : Bool :=
  s.flag RS_SC_CTRL fRS_SC_CTRL_EN && s.flag RS_SC_STAT fRS_SC_STAT_SYNCED
    && s.fld RS_SC_CTRL fRS_SC_CTRL_ACTIVE == src && s.fld RS_SC_CTRL fRS_SC_CTRL_SHADOW == dst
    && s.rs.pairFc != 0 && decide (s.rs.pairFc + carrier (s.genMode src) (s.genPer src) ≤ s.fc + 1)

/-- Is the boundary of R457 met in the present fc? A Chanter's is its sync. -/
def State.boundaryMet (s : State) : Bool :=
  reached s.dvTime s.now && match s.dvKind with
    | 0 => s.engBoundary s.dvSrc
    | 1 => s.genReloadNow s.dvSrc && s.pairedPeriod s.dvSrc s.dvDst
    | 2 => true
    | 3 => s.flag (PF_STAT s.dvDst) fPF_STAT_AVGOK
    | _ => false

/-- The boundary is met: HOLD (R457). -/
def State.dvBoundary (s : State) : State :=
  if s.dvPhase = 2 ∧ s.live = true ∧ s.boundaryMet = true then
    let s := { s.setPhase 3 with rs.holdFc := s.fc + 1 }
    if s.dvKind = 0 then s.setEng s.dvSrc { s.eng s.dvSrc with held := true } else s
  else s

/-! The transfer -/

/-- A slot of the source passes to the target (R457, R458). -/
def State.moveSlot (s : State) (p q j : Nat) : State :=
  let st := s.slotState p j
  let restart := st = 3 ∨ st = 4
  let st' := if restart then 2 else if st = 5 then 1 else st
  let s := s.setReg (LE_TASK_STAT q j) (s.reg (LE_TASK_STAT p j))
  let s := (s.setSlotState q j st').setSlot q j (s.slot p j)
  let s := s.setReg (LE_TASK_CFG q j) (s.reg (LE_TASK_CFG p j))
  let s := s.setReg64 (LE_TASK_TIME_LO q j) (LE_TASK_TIME_HI q j) (s.reg64 (LE_TASK_TIME_LO p j) (LE_TASK_TIME_HI p j))
  let s := s.setReg64 (LE_TRIG_STAMP_LO q j) (LE_TRIG_STAMP_HI q j) (s.reg64 (LE_TRIG_STAMP_LO p j) (LE_TRIG_STAMP_HI p j))
  if restart then s.inc RS_DV_ABANDON else s

/-- The engine's transfer at the switch edge. -/
def State.moveEngine (s : State) (p q : Nat) : State :=
  let s := s.setEng q { s.eng q with banks := (s.eng p).banks }
  let s := forN (fun j s => s.moveSlot p q j) 8 s
  let s := s.setReg (LE_CTRL q) (s.reg (LE_CTRL p))
  let s := s.unitStop 0 p
  let s := s.rehome p q
  forN (fun j s => s.levelEval q j) 8 s

/-- The crossbar entries of a generator take the target. -/
def State.moveGen (s : State) (src dst : Nat) : State :=
  let s := forN (fun m s => if s.fld (PW_XBAR m) fPW_XBAR_SRC = src then s.setFld (PW_XBAR m) fPW_XBAR_SRC dst else s) 96 s
  let s := (s.setFlag RS_SC_CTRL fRS_SC_CTRL_EN false).setFlag RS_SC_STAT fRS_SC_STAT_SYNCED false
  s.unitStop 1 src

/-- The timer's count, run, armed compares with their steps, captures. -/
def State.moveTimer (s : State) (a b : Nat) : State :=
  let s := (s.setReg (TM_CNT b) (s.reg (TM_CNT a))).setReg (TM_CNT_FRAC b) (s.reg (TM_CNT_FRAC a))
  let s := (s.setReg (TM_STAT b) (s.reg (TM_STAT a))).setTim b (s.tim a)
  let s := forN (fun i s => (s.setReg (TM_CMP b i) (s.reg (TM_CMP a i))).setReg (TM_CMP_STEP b i) (s.reg (TM_CMP_STEP a i))) 4 s
  let s := forN (fun j s => (s.setReg (TM_CAP_VAL b j) (s.reg (TM_CAP_VAL a j))).setReg64 (TM_CAP_STAMP_LO b j) (TM_CAP_STAMP_HI b j)
    (s.reg64 (TM_CAP_STAMP_LO a j) (TM_CAP_STAMP_HI a j))) 2 s
  s.unitStop 2 a

/-- PF_POS, P, W, A, PF_TOOTH_IDX, DIR, REFOK. -/
def State.movePfu (s : State) (a b : Nat) : State :=
  let u := s.pfu a
  let s := s.setPfu b { s.pfu b with p := u.p, w := u.w, a := u.a }
  let s := (s.setReg (PF_POS b) (s.reg (PF_POS a))).setReg (PF_TOOTH_IDX b) (s.reg (PF_TOOTH_IDX a))
  let s := (s.setFlag (PF_STAT b) fPF_STAT_DIR (s.pfRev a)).setFlag (PF_STAT b) fPF_STAT_REFOK (s.flag (PF_STAT a) fPF_STAT_REFOK)
  s.unitStop 3 a

/-- Channel queues, counters, CH_STAMP and the pin entries of a Chanter. -/
def State.moveChanter (s : State) (a b : Nat) : State :=
  let s := forN (fun k s =>
    let s := s.setChan b k { s.chan b k with tx := (s.chan a k).tx, rx := (s.chan a k).rx, txNext := (s.chan a k).txNext, frmPush := (s.chan a k).frmPush }
    let s := (s.setReg (CH_CNT_A b k) (s.reg (CH_CNT_A a k))).setReg (CH_CNT_B b k) (s.reg (CH_CNT_B a k))
    s.setReg64 (CH_STAMP_LO b k) (CH_STAMP_HI b k) (s.reg64 (CH_STAMP_LO a k) (CH_STAMP_HI a k))) 16 s
  let s := forN (fun m s => if s.fld (CH_PIN m) fCH_PIN_CP = a then s.setFld (CH_PIN m) fCH_PIN_CP b else s) 192 s
  s.unitStop 4 a

def State.moveUnit (s : State) (k a b : Nat) : State :=
  match k with
  | 0 => s.moveEngine a b
  | 1 => s.moveGen a b
  | 2 => s.moveTimer a b
  | 3 => s.movePfu a b
  | _ => s.moveChanter a b

/-- The switch (R456): LOGICAL and LVALID are exchanged in one fc, the source is fenced, the target's fence drops, EV912 and
record 0x070; the RS_DROVE that waits completes. -/
def State.dvSwitchNow (s : State) : State :=
  let k := s.dvKind
  let a := s.dvSrc
  let b := s.dvDst
  let la := s.unitLogical k a
  let lb := s.unitLogical k b
  let va := s.unitValid k a
  let vb := s.unitValid k b
  let s := s.moveUnit k a b
  let s := (s.setUnitMap k a vb lb).setUnitMap k b va la
  let s := (s.setFence k a true).setFence k b false
  let s := (s.setPhase 4).inc RS_DV_CNT
  let s := s.setReg64 RS_DV_SWSTAMP_LO RS_DV_SWSTAMP_HI s.now
  let s := { s with rs.holdFc := 0 }
  let s := (s.raiseNamed 912 [k, la, a, b]).record 912 0x70 0 0 0 0
  let s := s.saveReserve
  match s.mbWaiting 0x800 with
  | none => s
  | some w => s.mbFinish w 0 0 [.ofNat 32 a, .ofNat 32 b, s.now.extractLsb' 0 32, s.now.extractLsb' 32 32]

/-- The edge that ends the present fc is the switch edge: for an engine, of fc w + 40. -/
def State.dvSwitch (s : State) : State :=
  if s.dvPhase = 3 ∧ s.live = true ∧ (s.dvKind ≠ 0 ∨ s.rs.holdFc + 39 ≤ s.fc) then { s with rs.swNow := true } else s

/-- The Drove at the edge that ends the fc: a trigger that registered in the fc is part of what it transfers (R459). -/
def State.dvEnd (s : State) : State :=
  let t := { s with rs.swNow := false }
  if s.rs.swNow = true ∧ s.dvPhase = 3 then t.dvSwitchNow else t

/-- Cancellation before SWITCHED (R456, R458), with the status that a waiting RS_DROVE completes with. -/
def State.dvCancel (s : State) (status : Nat) : State :=
  if s.dvBusy then
    let s := if s.dvKind = 0 then s.setEng s.dvSrc { s.eng s.dvSrc with held := false } else s
    let s := if s.dvKind = 1 then (s.setFlag RS_SC_CTRL fRS_SC_CTRL_EN false).setFlag RS_SC_STAT fRS_SC_STAT_SYNCED false else s
    let s := (s.unitStop s.dvKind s.dvDst).setFence s.dvKind s.dvDst true
    let s := { s.setPhase 5 with rs := { s.rs with holdFc := 0, swNow := false } }
    let s := (s.raise 913 0 0).record 913 0x71 0 0 0 0
    match s.mbWaiting 0x800 with
    | none => s
    | some w => s.mbFinish w status 0 []
  else s

/-- A write of RS_DV_CTRL: the fields, then GO or CANCEL. The fields keep their values while a Drove is in progress (log
entry 24). -/
def State.dvCtrlWrite (s : State) (v : Word) : State :=
  let s := if s.dvBusy then s
    else ((s.setFld RS_DV_CTRL fRS_DV_CTRL_KIND (bitsOf v.toNat 24 3)).setFld RS_DV_CTRL fRS_DV_CTRL_DST (bitsOf v.toNat 16 7)).setFld
      RS_DV_CTRL fRS_DV_CTRL_SRC (bitsOf v.toNat 0 7)
  let s := if bitOf v.toNat 30 then s.dvCancel 7 else s
  if bitOf v.toNat 31 then s.dvGo else s

/-- A Chanter's Drove at a sync (R457): ARMED, T reached, the mask names the logical Chanter. -/
def State.dvChanterSync (s : State) : State :=
  if s.dvPhase = 2 ∧ s.dvKind = 4 ∧ reached s.dvTime s.now = true ∧ bitOf (s.nat CH_SYNC_MASK) (s.unitLogical 4 s.dvSrc) = true then
    s.dvSwitchNow
  else s

/-- A flock reset cancels a Drove of a unit of the flock (R458). -/
def State.dvFlockReset (s : State) (f : Nat) : State :=
  if s.dvKind ≠ 4 ∧ s.unitFlock s.dvKind s.dvSrc = f then s.dvCancel 12 else s

/-! ### Shadow-compare (R460) -/

/-- A write of RS_SC_CTRL: EN = 0 ends the pairing; any other write while EN = 1, and every write while a generator Drove
is in progress, is refused (log entry 25). -/
def State.scCtrlWrite (s : State) (v : Word) : State :=
  let en := bitOf v.toNat 31
  if v = s.reg RS_SC_CTRL then s
  else if (s.dvBusy && s.dvKind == 1) || (s.scOn && en) then s.inc RS_CFG_REFUSED
  else { (s.setReg RS_SC_CTRL v).setFlag RS_SC_STAT fRS_SC_STAT_SYNCED false with rs.pairFc := 0 }

/-- The registers that the shadow takes. -/
def shadowRegs : List Nat :=
  [0xC, 0x10, 0x14, 0x20, 0x24, 0x28, 0x2C, 0x30, 0x34, 0x38, 0x3C, 0x40, 0x44, 0x48, 0x50, 0x54, 0x58, 0x60, 0x64, 0x68, 0x70, 0x74, 0x78]

/-- At the next ZRO edge of ACTIVE the shadow takes its state and runs. -/
def State.scSync (s : State) (g : Nat) : State :=
  if s.scOn && !s.flag RS_SC_STAT fRS_SC_STAT_SYNCED && s.scActive == g && decide (s.scShadow < 52) then
    let h := s.scShadow
    let s := shadowRegs.foldl (fun s o => s.setReg (PW_MAP h + o) (s.reg (PW_MAP g + o))) s
    let s := s.setFld (PW_STAT h) fPW_STAT_TPEND (s.fld (PW_STAT g) fPW_STAT_TPEND)
    let s := (s.setFlag (PW_STAT h) fPW_STAT_RUN true).setFlag (PW_STAT h) fPW_STAT_DIR (s.genDown g)
    let s := s.setGen h (s.gen g)
    { s.setFlag RS_SC_STAT fRS_SC_STAT_SYNCED true with rs.pairFc := s.fc + 1 }
  else s

/-- The comparison of each fc: counter, raw levels, dead-time outputs. -/
def State.scCompare (s : State) : State :=
  if s.scOn && s.flag RS_SC_STAT fRS_SC_STAT_SYNCED then
    let g := s.scActive
    let h := s.scShadow
    let a := s.gen g
    let b := s.gen h
    if s.genCnt g = s.genCnt h ∧ a.rA = b.rA ∧ a.rB = b.rB ∧ a.stA = b.stA ∧ a.stB = b.stB then s
    else
      let s := { s.inc RS_SC_MISMATCH with rs.pairFc := s.fc + 2 }
      if s.flag RS_GSTAT fRS_GSTAT_SCMIS then s
      else
        let s := s.setReg64 RS_SC_STAMP_LO RS_SC_STAMP_HI s.now
        let s := s.setFlag RS_GSTAT fRS_GSTAT_SCMIS true
        (s.raise 915 0 0).record 915 0x75 g h (s.genCnt g) 0
  else s

/-! ### Service states and self-tests (R462 to R464) -/

/-- RS_RETIRE of a SPARE unit. -/
def State.retire (s : State) (k i : Nat) : State :=
  let inc := s.unitInc k i
  let s := s.setNat (hurdleReg k i) (2 ^ 31 + 2 ^ 29 + 2 ^ 24 + inc * 2 ^ 16 + b2n (s.underTest k i) * 2 ^ 30)
  let s := s.unitStop k i
  (s.record 914 0x72 0 0 0 0).saveReserve

/-- The memory groups of a unit of a kind. -/
def testGroups (k : Nat) : List Nat :=
  match k with
  | 0 => [0, 1]
  | 4 => [9]
  | _ => []

/-- The test begins with a sweep of the unit's memories under R447. -/
def State.testStart (s : State) (t : TestRun) : State :=
  let s := { s.setFlag (hurdleReg t.kind t.unit) fRS_HURDLE_E_TEST true with rs.tests := s.rs.tests ++ [t] }
  (testGroups t.kind).foldl (fun s g => s.sweepInst g t.unit) s

/-- Is a sweep of the unit's memories in progress? -/
def State.testSweeps (s : State) (k i : Nat) : Bool := (testGroups k).any (fun g => s.sweeping g i)

/-- What the steps of the test wrote is gone: the unit's memories read zero after it (DESIGN CHOICE, log entry 73). -/
def State.testWipe (s : State) (k i : Nat) : State := (testGroups k).foldl (fun s g => s.wipeInstance g i) s

/-- The end of a self-test whose sweeps have ended, `step` the first failing step or 0 (R462, R464): EV918, record 0x076, and the
command that waits completes. -/
def State.testEnd (s : State) (k i step : Nat) : State :=
  match s.rs.tests.find? (fun t => t.kind == k && t.unit == i && !s.testSweeps k i) with
  | none => s
  | some t =>
    let res := if step = 0 then 0 else 1
    let s := { s.setFlag (hurdleReg k i) fRS_HURDLE_E_TEST false with rs.tests := s.rs.tests.erase t }
    let s := s.testWipe k i
    let s := (s.raise 918 0 0).record 918 0x76 k i res step
    let inc := (s.fld (hurdleReg k i) fRS_HURDLE_E_DINC + 1) % 256
    let s := if t.readmit && step == 0 then
        (s.setNat (mapReg k i) (withBits (s.nat (mapReg k i)) 16 8 inc)).setFlag (hurdleReg k i) fRS_HURDLE_E_RET false
      else s
    let s := if t.readmit then (s.record 918 0x73 0 0 0 0).saveReserve else s
    match s.mb.waits.find? (fun w => w.m == t.mbox && (w.op == 0x802 || w.op == 0x803)) with
    | none => s
    | some w => s.mbFinish w 0 0 [.ofNat 32 res, .ofNat 32 (if t.readmit then s.unitInc k i else step)]

/-! ### Wear monitors (R453, R454, R463) -/

/-- A write of RS_RO_CTRL: WIN (0 stores 1), then GO. -/
def State.roCtrlWrite (s : State) (v : Word) : State :=
  let busy := s.flag RS_RO_CTRL fRS_RO_CTRL_BUSY
  let s := s.setFld RS_RO_CTRL fRS_RO_CTRL_WIN (max 1 (bitsOf v.toNat 0 8))
  if bitOf v.toNat 31 then
    (if busy then s.inc RS_CFG_REFUSED
     else { s.setFlag RS_RO_CTRL fRS_RO_CTRL_BUSY true with rs.roLeft := s.fld RS_RO_CTRL fRS_RO_CTRL_WIN })
  else s

/-- A CLK_SLOW edge of the measurement window; in Rest it holds. -/
def State.roTick (s : State) : State := if s.live then { s with rs.roLeft := s.rs.roLeft - 1 } else s

/-- The measurement window, WIN cycles of CLK_SLOW, ends with the counts of the eight clusters. -/
def State.roEnd (s : State) (stress ref : Fin 8 → Word) : State :=
  if s.flag RS_RO_CTRL fRS_RO_CTRL_BUSY && s.live && s.rs.roLeft == 0 then
    let s := (List.finRange 8).foldl (fun s c => (s.setReg (RS_RO_STRESS c.val) (stress c)).setReg (RS_RO_REF c.val) (ref c)) s
    (s.setFlag RS_RO_CTRL fRS_RO_CTRL_BUSY false).raise 916 0 0
  else s

/-- Is a count of an RC oscillator out of range? -/
def rcoBad (n : Nat) : Bool := decide (n < 14648) || decide (24414 < n)

/-- The counts of 32 CLK_SLOW cycles (R463). -/
def State.rcoMeasure (s : State) (a b : Nat) : State :=
  let s := (s.setNat RS_RCO_A (a % 65536)).setNat RS_RCO_B (b % 65536)
  let new (bit n : Nat) (s : State) : State :=
    if rcoBad n && !bitOf s.rs.rco bit then
      State.raise { s with rs.rco := s.rs.rco + 2 ^ bit } 917 0 0
    else s
  new 1 (b % 65536) (new 0 (a % 65536) s)

/-- A count that stops at its largest value. -/
def satAdd (a b : Word) : Word := if a.toNat + b.toNat < 2 ^ 32 then a + b else 0xFFFFFFFF

/-- The hourly accrual of Crook (R454), the memory error counts of the hour (R455), and the reserve image. -/
def State.stressHour (s : State) : State :=
  let z : Nat → Word := fun _ => 0
  let s := forN (fun u s =>
    let k := (unitOf u).1
    let i := (unitOf u).2
    if s.unitValid k i && !tget (fun _ => false) s.rs.idle u then
      { s with rs.hours := tset z s.rs.hours u (satAdd (tget z s.rs.hours u) 1) }
    else s) 206 s
  let s := forN (fun p s =>
    let hi := s.reg (LE_BUSY_FC_HI p)
    { s with rs := { s.rs with
        busy := tset z s.rs.busy p (satAdd (tget z s.rs.busy p) (hi - tget z s.rs.busyHi p))
        busyHi := tset z s.rs.busyHi p hi } }) 72 s
  let s := forN (fun g s =>
    let c := s.reg (MI_CE_CNT g)
    let u := s.reg (MI_UE_CNT g)
    { s with rs := { s.rs with
        ceHour := tset z s.rs.ceHour g (c - tget z s.rs.ceAt g)
        ueHour := tset z s.rs.ueHour g (u - tget z s.rs.ueAt g)
        ceAt := tset z s.rs.ceAt g c
        ueAt := tset z s.rs.ueAt g u } }) 10 s
  let s := { s with rs.idle := [] }
  let s := forN (fun u s => if s.unitValid (unitOf u).1 (unitOf u).2 then s else s.markIdle (unitOf u).1 (unitOf u).2) 206 s
  s.saveReserve

/-- A write of RS_HURDLE: the pair LVALID = 1 with RET = 1 never occurs (R462), so a write that would make it is ignored
and counted (log entry 26). -/
def State.hurdleWrite (s : State) (k i : Nat) (v : Word) : State :=
  if bitOf v.toNat 29 && s.unitValid k i then s.inc RS_CFG_REFUSED else s.setReg (hurdleReg k i) v

end Sys2Proof.Machine
end

