-- ==== Sys2Proof/Machine/Flocks.lean ====
section
/-!
DEFINITION. Flocks (14_flocks_and_register_views.md R370 to R375): incarnations, flock resets, CLEAN.
-/

namespace Sys2Proof.Machine

/-- The fc r of the reset in progress. -/
def State.resetFc (s : State) (f : Nat) : Nat := tget (fun _ => 0) s.flkFc f - 1

/-- WAITS (R374): bit 0 the reclaim walk, bit 1 Rank requests of the flock's engines, bit 2 their store buffers. -/
def State.flkWaits (s : State) (f : Nat) : Nat :=
  b2n (bitOf (s.fld QF_RECL fQF_RECL_BUSY) f)
    + 2 * b2n (s.ranks.any (fun e => e.2.any (fun r => r.flock == f)))
    + 4 * b2n (s.engs.any (fun e => s.leFlock e.1 == f && !e.2.stores.isEmpty))

/-- FLK_STAT as it reads. -/
def State.flkStat (s : State) (f : Nat) : Word :=
  .ofNat 32 (withBits (s.nat (FLK_STAT f)) 4 3 (if s.flag (FLK_STAT f) fFLK_STAT_RESETTING then s.flkWaits f else 0))

/-- Every unit of the flock acts under its own rule (R373). -/
def State.flockUnits (s : State) (f : Nat) : State :=
  let s := s.leFlockReset f
  let s := s.genFlockReset f
  let s := s.timFlockReset f
  let s := s.pfFlockReset f
  let s := s.chFlockReset f
  let s := s.siFlockReset f
  let s := s.qfFlockReset f
  s.evFlockReset f

/-- A reset of flock f is requested by `who` as record 0x040 codes it (R372); of several requests of one fc, one reset, the lowest kind
names it (R373, R375). -/
def State.flockReset (s : State) (f who : Nat) : State :=
  let had := tget (fun _ => 0) s.flkReq f
  if had = 0 ∧ s.notClean f = true then (s.inc (FLK_RESET_REFUSED f)).record (880 + f) 0x43 f (s.flockInc f) who 0
  else if had = 0 ∨ who % 16 < had % 16 then { s with flkReq := tset (fun _ => 0) s.flkReq f who }
  else s

/-- The reset at the edge that ends fc r (R373): checks made in fc r have used the old incarnation. -/
def State.flockResetNow (s : State) (f who : Nat) : State :=
    let inc := s.flockInc f
    let s := (s.setFld (FLK_STAT f) fFLK_STAT_INC (inc + 1)).setFlag (FLK_STAT f) fFLK_STAT_CLEAN false
    let s := (s.setFlag (FLK_STAT f) fFLK_STAT_RESETTING true).inc (FLK_RESET_CNT f)
    let s := s.setReg64 (FLK_RESET_STAMP_LO f) (FLK_RESET_STAMP_HI f) s.now
    let s := { s with flkFc := tset (fun _ => 0) s.flkFc f (s.fc + 1) }
    let s := s.record (880 + f) 0x40 f inc who 0
    (s.dvFlockReset f).flockUnits f

/-- CLEAN sets at the edge that ends the first fc after r in which nothing holds it back (R374): EV(880 + f), record 0x041, and the FLK_RESET
command that waits completes (R427). -/
def State.flockClean (s : State) (f : Nat) : State :=
  if s.live = true ∧ s.flag (FLK_STAT f) fFLK_STAT_RESETTING = true ∧ s.resetFc f < s.fc ∧ s.flkWaits f = 0 then
    let n := s.fc - s.resetFc f
    let s := (s.setFlag (FLK_STAT f) fFLK_STAT_CLEAN true).setFlag (FLK_STAT f) fFLK_STAT_RESETTING false
    let s := s.setReg64 (FLK_CLEAN_STAMP_LO f) (FLK_CLEAN_STAMP_HI f) s.now
    let s := { s with flkFc := tset (fun _ => 0) s.flkFc f 0 }
    let s := (s.raise (880 + f) (1 + s.flockInc f * 256) n).record (880 + f) 0x41 f n 0 0
    (s.mb.waits.filter (fun w => w.op == 0x101 && w.a == f)).foldl
      (fun s w => s.mbFinish w 0 0 [.ofNat 32 w.b, .ofNat 32 (s.flockInc f), .ofNat 32 n]) s
  else s

/-- The flocks at the edge that ends the fc. -/
def State.flkEnd (s : State) : State :=
  let rs := s.flkReq
  let cs := s.flkClean
  cs.foldl State.flockClean (rs.foldl (fun s e => s.flockResetNow e.1 e.2) { s with flkReq := [], flkClean := [] })

/-- A write of FLK_CTRL by master `who` (0 the Shepherd, 1 the debug access master, 2 HPP): clearing EN resets the flock,
setting it waits for CLEAN, RESET resets it (R372, R375, R385). `en` is none where the view does not write EN. -/
def State.flkCtrlWrite (s : State) (f who : Nat) (en : Option Bool) (reset : Bool) : State :=
  let old := s.flag (FLK_CTRL f) fFLK_CTRL_EN
  let kind2 := en == some false && old
  let s := match en with
    | none => s
    | some true => if !old && s.notClean f then s.inc FLK_CFG_REFUSED else s.setFlag (FLK_CTRL f) fFLK_CTRL_EN true
    | some false => s.setFlag (FLK_CTRL f) fFLK_CTRL_EN false
  if reset then s.flockReset f (1 + who * 256) else if kind2 then s.flockReset f (2 + who * 256) else s

end Sys2Proof.Machine
end

