-- ==== Sys2Proof/Machine/ControlStore.lean ====
section
/-!
DEFINITION. The control store beside its execution (06_microcode.md R154 to R158, R185 to R193): words and parity, writes
and reads through the CS_ registers, match registers, patch load.
-/

namespace Sys2Proof.Machine

/-- The word that a sweep writes: a zero payload with valid parity (R156). -/
def sweptWord : UWord := BitVec.ofNat 176 (0xFF * 2 ^ 168)

/-- Unlisted words of the control store are swept. -/
def csReset (_ : Nat) : UWord := sweptWord

def isRom (a : Nat) : Bool := decide (a < 0x1000)
def isPatch (a : Nat) : Bool := decide (0x1000 ≤ a) && decide (a < 0x1080)
def isWcs (a : Nat) : Bool := decide (0x1800 ≤ a) && decide (a < 0x1A00)

/-- The parity bit that makes a number odd (R158): 1 when it holds an even number of ones. -/
def oddBit (n len : Nat) : Nat := (List.range len).foldl (fun a i => if bitOf n i then 1 - a else a) 1

/-- P0 to P7 of a payload. -/
def parityOf (n : Nat) : Nat := (List.range 8).foldl (fun a g => a + oddBit (bitsOf n (21 * g) 21) 21 * 2 ^ g) 0

/-- Does a word pass the parity check of all eight groups? -/
def parityOk (w : UWord) : Bool := bitsOf w.toNat 168 8 == parityOf w.toNat

/-- A word with its parity computed. -/
def withParity (n : Nat) : UWord := BitVec.ofNat 176 (n % 2 ^ 168 + parityOf n * 2 ^ 168)

/-- The word at a micro-address of engine p (R154, R155). The words of the mask ROM hold valid parity (DESIGN CHOICE, log entry 58). -/
def State.csWord (s : State) (p a : Nat) : UWord :=
  if isRom a then withParity (Config.csRom a).toNat
  else if isPatch a || isWcs a then tget csReset s.cs (p * 0x2000 + a)
  else 0

/-- Store a word of patch RAM or WCS. -/
def State.setCsWord (s : State) (p a : Nat) (w : UWord) : State :=
  { s with cs := tset csReset s.cs (p * 0x2000 + a) w }

/-! ### CS_WADDR and CS_RADDR (R185, R193) -/

/-- The word in CS_WDATA. -/
def State.wdata (s : State) (p : Nat) : Nat :=
  forN (fun i a => a + s.nat (CS_WDATA p i) * 2 ^ (32 * i)) 5 0 + s.nat (CS_WDATA5 p) % 65536 * 2 ^ 160

/-- May the word at an address be written now? -/
def State.csWritable (s : State) (p a : Nat) : Bool :=
  if isWcs a then s.leState p == 0 || s.leState p == 3 || s.leState p == 4
  else isPatch a && !s.flag (CS_CTRL p) fCS_CTRL_LOCK

/-- CS_WADDR.GO. -/
def State.csWrite (s : State) (p : Nat) : State :=
  let a := s.fld (CS_WADDR p) fCS_WADDR_ADDR
  if s.csWritable p a then
    s.setCsWord p a (if s.flag (CS_WADDR p) fCS_WADDR_GENPAR then withParity (s.wdata p) else .ofNat 176 (s.wdata p))
  else s.inc (CS_WREFUSED p)

/-- CS_RADDR.GO: the word and its parity check. -/
def State.csRead (s : State) (p : Nat) : State :=
  let w := s.csWord p (s.fld (CS_RADDR p) fCS_RADDR_ADDR)
  let s := forN (fun i s => s.setNat (CS_RDATA p i) (bitsOf w.toNat (32 * i) 32)) 5 s
  let s := s.setNat (CS_RDATA5 p) (bitsOf w.toNat 160 16)
  s.setFlag (CS_RSTAT p) fCS_RSTAT_PARERR (!parityOk w)

/-- A write of CS_WADDR or CS_RADDR: the fields, then GO. -/
def State.csWaddrWrite (s : State) (p : Nat) (v : Word) : State :=
  let s := s.setNat (CS_WADDR p) (bitsOf v.toNat 0 13 + bitsOf v.toNat 16 1 * 2 ^ 16)
  if bitOf v.toNat 31 then s.csWrite p else s

def State.csRaddrWrite (s : State) (p : Nat) (v : Word) : State :=
  let s := s.setNat (CS_RADDR p) (bitsOf v.toNat 0 13)
  if bitOf v.toNat 31 then s.csRead p else s

/-- The micro-address actually read for a fetch of `a` (R186): a matched ROM address reads its patch word. -/
def State.csFetchAddr (s : State) (p a : Nat) : Nat :=
  if isRom a && s.flag (CS_CTRL p) fCS_CTRL_MATCHEN then
    match firstIdx (fun i => s.flag (CS_MATCH p i) fCS_MATCH_EN && s.fld (CS_MATCH p i) fCS_MATCH_RADDR == a) 32 with
    | some i => 0x1000 + s.fld (CS_MATCH p i) fCS_MATCH_PADDR
    | none => a
  else a

/-! ### Patch load (R188 to R191) -/

/-- A field of the fuse macro. -/
def State.fuse (s : State) (lo n : Nat) : Nat := maskOf (fun i => tget (fun _ => false) s.fuses (lo + i)) n

/-- The anti-rollback count: blown fuses of bits [127:64] (R190, 19_reset_power_startup.md R477). -/
def State.rollback (s : State) : Nat := (s.fuses.filter (fun e => decide (64 ≤ e.1) && decide (e.1 < 128))).length

/-- The number of `n` bytes at an offset, little-endian. -/
def leAt (bs : List Byte) (off n : Nat) : Nat := bytesNatOf ((bs.drop off).take n)

/-! The header fields of an image (R188). -/

/-- ROMVER, SVN, PATCH_VERSION, NWORDS, NMATCH and BODYLEN. -/
def imRomver (im : PatchImage) : Nat := leAt im.bytes 8 4
def imSvn (im : PatchImage) : Nat := leAt im.bytes 0xC 4
def imVersion (im : PatchImage) : BitVec 64 := .ofNat 64 (leAt im.bytes 0x10 8)
def imWords (im : PatchImage) : Nat := leAt im.bytes 0x18 4
def imMatches (im : PatchImage) : Nat := leAt im.bytes 0x1C 4
def imBody (im : PatchImage) : Nat := leAt im.bytes 0x2C 4

/-- MAGIC, FORMAT, HDRLEN, the zero field, the limits of NWORDS and NMATCH and BODYLEN (R189, step 1). -/
def imHeaderOk (im : PatchImage) : Bool :=
  decide (0x40 ≤ im.bytes.length) && leAt im.bytes 0 4 == 0x5034364B && leAt im.bytes 4 2 == 1 && leAt im.bytes 6 2 == 0x40
    && leAt im.bytes 0x30 16 == 0 && decide (imWords im ≤ 128) && decide (imMatches im ≤ 32)
    && imBody im == 24 * imWords im + 4 * imMatches im

/-- The plaintext of the body, none where the GCM tag does not verify (step 5): the key is a fuse field, the header the additional data. -/
def State.patchBody (s : State) (im : PatchImage) : Option (List Byte) :=
  Config.gcmOpen (.ofNat 256 (s.fuse 128 256)) ((im.bytes.drop 0x20).take 12) (im.bytes.take 0x40) ((im.bytes.drop 0x40).take (imBody im))
    ((im.bytes.drop (0x40 + imBody im)).take 16)

/-- The patch words and the match words of a body. -/
def bodyWords (im : PatchImage) (body : List Byte) : List UWord :=
  (List.range (imWords im)).map (fun i => .ofNat 176 (leAt body (24 * i) 22))

def bodyMatches (im : PatchImage) (body : List Byte) : List Word :=
  (List.range (imMatches im)).map (fun i => .ofNat 32 (leAt body (24 * imWords im + 4 * i) 4))

/-- The first step of R189 that fails, 0 when steps 1 to 6 pass. The verdict of ECDSA over header, ciphertext, tag and signature is left
open (log entry 1). -/
def State.patchStep (s : State) (im : PatchImage) : Nat :=
  if imHeaderOk im = false then 1
  else if Config.verdict 2 (im.bytes.take (0xB0 + imBody im)) = false then 2
  else if imRomver im ≠ s.nat ID_ROMCODE then 3
  else if imSvn im < s.rollback then 4
  else match s.patchBody im with
    | none => 5
    | some body =>
      if (bodyWords im body).any (fun w => !parityOk w || bitsOf w.toNat 152 16 != 0)
          ∨ (bodyMatches im body).any (fun m => bitsOf m.toNat 23 8 != 0 || bitsOf m.toNat 12 4 != 0
              || decide (imWords im ≤ bitsOf m.toNat 16 7)) = true then 6
      else 0

/-- Write a list of words from an index. -/
def State.patchWords (s : State) (p i : Nat) : List UWord → State
  | [] => s
  | w :: t => State.patchWords (s.setCsWord p (0x1000 + i) w) p (i + 1) t

def State.patchMatches (s : State) (p i : Nat) : List Word → State
  | [] => s
  | m :: t => State.patchMatches (s.setReg (CS_MATCH p i) m) p (i + 1) t

/-- Steps 7 and 8 for one engine; `bad` says that its read-back does not match. -/
def State.patchEngine (s : State) (im : PatchImage) (p : Nat) (bad : Bool) : State :=
  let body := (s.patchBody im).getD []
  let s := s.setFlag (CS_CTRL p) fCS_CTRL_MATCHEN false
  let s := s.patchWords p 0 (bodyWords im body ++ List.replicate (128 - imWords im) sweptWord)
  let s := s.patchMatches p 0 (bodyMatches im body)
  if bad then
    let s := forN (fun i s => s.setFlag (CS_MATCH p i) fCS_MATCH_EN false) 32 s
    s.setFlag (CS_STAT p) fCS_STAT_PFAIL true
  else
    let s := (s.setFlag (CS_CTRL p) fCS_CTRL_MATCHEN true).setFlag (CS_STAT p) fCS_STAT_PLOADED true
    s.setFld (CS_STAT p) fCS_STAT_PWORDS (imWords im)

/-- The patch load at a start (R189, R191); `none` is PATCH_LEN = 0, no image. -/
def State.patchLoad (s : State) (im : Option PatchImage) : State :=
  let s := match im with
    | none => { s with pw := { s.pw with patch := 0, patchVer := 0, svn := 0 } }
    | some im =>
      let st := s.patchStep im
      if st ≠ 0 then { s with pw := { s.pw with patch := st, patchVer := 0, svn := 0 } }
      else
        let s := forN (fun p s => s.patchEngine im p (im.badReadback.contains p)) 72 s
        let bad := im.badReadback.any (fun p => decide (p < 72))
        { s with pw := { s.pw with patch := if bad then 7 else 0, patchVer := imVersion im, svn := imSvn im } }
  forN (fun p s => s.setFlag (CS_CTRL p) fCS_CTRL_LOCK true) 72 s

end Sys2Proof.Machine
end

