-- ==== Sys2Proof/Machine/Power.lean ====
section
/-!
DEFINITION. Reset, start-up and power states (19_reset_power_startup.md R468 to R498): reset sources and levels, option
loading and start-up, Rest and Fold, the last gasp, the Fold store.
-/

namespace Sys2Proof.Machine

/-! ### Levels (R469) -/

/-- The default level of a source, coded as R469 codes levels: 4 is L3, 3 is L2. -/
def sourceDefault (src : Nat) : Nat := if src = 0 ∨ src = 1 ∨ src = 7 then 4 else 3

/-- The code in effect for a source whose fuse entry holds `e`. -/
def mapCode (src e : Nat) : Nat :=
  if src = 0 ∨ src = 7 then 4
  else
    let c := if 1 ≤ e ∧ e ≤ 5 then e else sourceDefault src
    if src = 3 ∧ (c = 1 ∨ c = 2 ∨ c = 5) then 3 else c

/-- The code in effect for a source: RC_RSTMAP, or the default before the first option loading. -/
def State.levelCode (s : State) (src : Nat) : Nat :=
  let c := if src < 8 then bitsOf (s.nat RC_RSTMAP0) (4 * src) 4 else s.fld RC_RSTMAP1 fRC_RSTMAP1_LVL8
  if c = 0 then mapCode src 0 else c

/-- RC_RSTCNT of a source, saturating. -/
def State.countSource (s : State) (src : Nat) : State :=
  s.incSat (RC_RSTCNT (src / 2)) (if src % 2 = 1 then fRC_RSTCNT_ODD else fRC_RSTCNT_EVEN)

/-- RC_RST_CAUSE at a reset that is served: its level, its source, the sources that asserted. -/
def State.loadCause (s : State) (code level src asserted : Nat) : State :=
  s.setNat RC_RST_CAUSE (code * 2 ^ 28 + min level 3 * 2 ^ 24 + src * 2 ^ 16 + asserted)

/-- The RESET record (R357). -/
def State.resetRecord (s : State) (src level : Nat) : State :=
  s.jAdd ⟨s.now, 0x400, 3, 1, 0, .ofNat 32 src, .ofNat 32 (min level 3), 0, 0⟩

/-- Every stored register field that a reset of level `l` restores takes its reset value (R9). -/
def State.restoreRegs (s : State) (l : Nat) : State :=
  { s with regs := tmap regReset (fun off v => (v &&& ~~~(resetMask l off)) ||| (regReset off &&& resetMask l off)) s.regs }

/-! ### Serving a reset (R470 to R474) -/

/-- An L0 reset: the flocks of FLK_GCFG.L0MASK; with none it is counted as dropped. -/
def State.serveL0 (s : State) (code src : Nat) : State :=
  let mask := s.fld FLK_GCFG fFLK_GCFG_L0MASK
  if mask = 0 then s.inc RC_RST_DROPPED
  else
    let s := (s.loadCause code 0 src (2 ^ src)).setReg64 RC_RST_STAMP_LO RC_RST_STAMP_HI s.now
    forN (fun f s => if bitOf mask f then s.flockReset f (4 + src * 256) else s) 16 s

/-- An L1 reset: every engine under R82, the Rank requests, the (L1) fields, LE_STAT.STATE among them; EV950 comes 16 fc later. A halt
that it ends leaves DB_EHALTED too (DESIGN CHOICE, log entry 52). -/
def State.serveL1 (s : State) (code src : Nat) : State :=
  let s := (s.loadCause code 1 src (2 ^ src)).setReg64 RC_RST_STAMP_LO RC_RST_STAMP_HI s.now
  let s := forN (fun p s => (s.leReset p).setEng p { (s.leReset p).eng p with
    rankOut := false, parked := false, halted := false, haltReq := false, step := false }) 72 s
  let s := forN (fun i s => s.setNat (DB_EHALTED i) 0) 3 s
  let s := State.restoreRegs { s with ranks := [] } 1
  State.resetRecord { s with pw.l1End := some (s.fc + 16, src) } src 1

/-- The fast domain stops: Tally and the timers change to slow advance at the first CLK_SLOW edge from here, which keeps them (R40,
R263). -/
def State.stopFast (s : State) : State :=
  let hold := s.flag TB_STAT fTB_STAT_SRC || s.tb.hold
  let s := State.tripsStop { s.timsStop with pw.fast := false, tb.hold := hold }
  s.setFlag TB_STAT fTB_STAT_SRC false

/-- The fast domain stops at a CLK_SLOW edge, the changeover (R40, R484). -/
def State.stopNow (s : State) : State :=
  State.timsSlow { s.stopFast with tb.hold := false } true

/-- The fast side as an L2 or L3 reset leaves it, beside its registers; Tally, the pins, the register banks of the engines
(03_loop_engines.md R82, 04_kamyn_instruction_set.md R109) and what lies in the AON domain stay. Held raises of wake latches stay held (R355). -/
def State.clearCore (s : State) : State :=
  { s with
    engs := s.engs.map (fun e => (e.1, { banks := e.2.keptBanks }))
    ranks := [], clExt := [], lanes := [], laneOld := [], due := [], qf := {}, gens := [], phOld := [], phDone := [], phNew := [], xbarOld := [], phDue := [], lines := linesReset s.si.trips s.lines, tims := [], pfus := [], pfPhase := 0, pfStep := false, tmgPend := []
    chs := [], ch := {}, sh := Shep.atReset, flkFc := [], flkReq := [], flkClean := [], hiLatch := [], hot := []
    tl := {}, mi := {}, mb := {}
    ev := { held := s.ev.held.filter (fun h => decide (32 ≤ h.source) && decide (h.source < 48)) }
    tb := { s.tb with setPend := false, resyncPend := false, selPend := false, episode := false }
    si := { trips := tmap (fun _ => ({} : TripIn)) (fun _ t => { pin := t.pin }) s.si.trips }
    rs := { hours := s.rs.hours, busy := s.rs.busy }
    db := { s.db with hold := false, scan := false, bist := false } }

/-- Option loading runs (R475): start-up stands in stage 1. -/
def State.optLoading (s : State) : Bool := s.pw.mode == .startup && s.fld RC_BOOT fRC_BOOT_STAGE == 1

/-- An L2, L3 or POR-level reset takes hold (R471): the fast domain stands in reset until its release. A reset that finds an
earlier one in force or in start-up is served at the higher level (R472); one that finds it in force counts among the
sources that asserted (log entry 27). -/
def State.serveReset (s : State) (code src l : Nat) : State :=
  let hold := s.flag TB_STAT fTB_STAT_SRC || s.tb.hold
  let inReset := s.pw.mode = .reset
  let busy := inReset ∨ s.pw.mode = .startup
  let lv := if busy then max s.pw.level l else l
  let first := if inReset ∧ (l < s.pw.level ∨ (l = s.pw.level ∧ s.pw.source < src)) then s.pw.source else src
  let prev := if inReset then s.fld RC_RST_CAUSE fRC_RST_CAUSE_ASSERTED else 0
  let prevCode := s.fld RC_RST_CAUSE fRC_RST_CAUSE_MAPPED
  let s := if s.optLoading then s.inc RC_OPTLOAD_RESTARTS else s
  let s := s.jCommit
  let s := s.restoreRegs (min lv 3)
  let s := s.jLoseAll.clearCore
  let s := s.setFlag PM_STAT fPM_STAT_PFAIL s.pw.failLow
  let s := s.setFlag TB_STAT fTB_STAT_SRC false
  let s := s.setFlag RS_RCO fRS_RCO_SEL (s.flag RS_RCO fRS_RCO_AFAIL)
  let s := s.loadCause (if first = src then code else prevCode) lv first (if bitOf prev src then prev else prev + 2 ^ src)
  { s with tb.hold := hold, db.held := [], pw := { s.pw with
      mode := .reset, level := lv, source := first, fast := false, pllReq := s.pw.pllReq || decide (lv < 3)
      coreReq := true, memReq := true, jrnReq := true, retReq := false, iso := false
      entry := 0, emu := false, down := false, up := false, bhalt := false, lockLost := false
      heldRst := [], l1End := none, tlcmd := none, hostHeld := [] } }

/-- An enabled wake latch that is set. -/
def State.wakeLatch (s : State) : Option Nat := firstIdx (fun i => bitOf (s.nat EC_WAKE_LATCH) i && bitOf (s.nat EC_WAKE_EN) i) 16

/-- What ends a Fold is served (R487): at L3, as FOLDX or PIN. The CORE domain was off, so the banks of the engines read zero
(04_kamyn_instruction_set.md R109). -/
def State.foldExit (s : State) : State :=
  let s := s.inc PM_FOLD_CNT
  let s := match s.wakeLatch with
    | some i => if s.pw.foldSrc = 7 then s.setNat PM_WAKE_LAST (2 ^ 31 + i) else s
    | none => s
  let s := if s.pw.emu then s else { s with engs := [] }
  let src := s.pw.foldSrc
  let s := if src = 7 then s.countSource 7 else s
  (s.setFld DB_EMU fDB_EMU_STATE 0).serveReset 4 src 3

/-- The return from Rest begins (R485): MEM leaves retention, then PLL_REQ rises. -/
def State.returnBegin (s : State) : State :=
  State.setFld { s with pw := { s.pw with up := true, retReq := false, pllReq := s.pw.pllReq || s.pw.emu || !s.pw.retAck } }
    PM_STAT fPM_STAT_STATE 2

/-- A source is served at its level (R470, R472). `code` is the level as R469 codes it. -/
def State.takeReset (s : State) (src code : Nat) : State :=
  if code = 5 then s.record 950 0x80 src 0 0 0
  else
    let l := code - 1
    match s.pw.mode with
    | .graze =>
      if l = 0 then s.serveL0 code src else if l = 1 then s.serveL1 code src else s.serveReset code src l
    | .rest =>
      if l < 2 then State.returnBegin { s with pw.heldRst := s.pw.heldRst ++ [src] }
      else s.serveReset code src l
    | .fold =>
      if 1 < src then s
      else if s.pw.emu then State.foldExit { s with pw.foldSrc := 1 }
      else { s with pw := { s.pw with up := true, foldSrc := 1, coreReq := true } }
    | _ => if l < 2 then s.inc RC_RST_DROPPED else s.serveReset code src l

/-- A source asserts: counted, and held during a last gasp (R472). `code` overrides the map where the spec fixes the level. -/
def State.assertReset (s : State) (src : Nat) (code : Option Nat) : State :=
  let s := s.countSource src
  let c := match code with
    | some c => c
    | none => s.levelCode src
  if s.pw.lg.phase ≠ 0 then { s with pw.heldRst := s.pw.heldRst ++ [src + 16 * c] }
  else s.takeReset src c

/-- The resets held during a last gasp, or in Rest, are served. -/
def State.takeHeld (s : State) : State :=
  let hs := s.pw.heldRst
  hs.foldl (fun s h => s.takeReset (h % 16) (if h < 16 then s.levelCode h else h / 16)) { s with pw.heldRst := [] }

/-- POR_N falls (R470): everything takes its power-on value; the fuses, the Fold store, system memory and the pins are
outside what it resets. -/
def State.powerOn (s : State) : State :=
  { State.reset with
    pending := s.pending, lines := linesReset s.si.trips s.lines, fc := s.fc, free := s.free, fuses := s.fuses, fold := s.fold, sysMem := s.sysMem
    si := { trips := tmap (fun _ => ({} : TripIn)) (fun _ t => { pin := t.pin }) s.si.trips }
    pw := { failLow := s.pw.failLow, rstLow := s.pw.rstLow } }

/-- The armed Tally Link reset (R473): a BCAST on UPPORT, or of the device itself, with RC_TLRST.TAG. -/
def State.armTlcmd (s : State) (tag : Nat) (t : Stamp) : State :=
  if s.flag RC_TLRST fRC_TLRST_EN && s.fld RC_TLRST fRC_TLRST_TAG == tag then { s with pw.tlcmd := some t } else s

/-- Its apply-time is reached. -/
def State.tlcmdDue (s : State) : State :=
  match s.pw.tlcmd with
  | none => s
  | some t => if reached t s.now then State.assertReset { s with pw.tlcmd := none } 6 none else s

/-! ### Option loading (R475 to R477) -/

/-- RC_RSTMAP0 and RC_RSTMAP1 from the fuses. -/
def State.loadMap (s : State) : State :=
  let e (i : Nat) : Nat := s.fuse (4 * i) 4
  let m0 := forN (fun i a => a + mapCode i (e i) * 2 ^ (4 * i)) 8 0
  let err := maskOf (fun i => i != 0 && i != 7 && decide (5 < e i)) 9
  (s.setNat RC_RSTMAP0 m0).setNat RC_RSTMAP1 (err * 2 ^ 16 + mapCode 8 (e 8))

/-- RC_OPT and TL_CTRL.ROLE from the strap or, under STRAPLOCK, from the fuses. `codes` are the four conversions. -/
def State.loadOptions (s : State) (codes : List Nat) (marginal : Bool) : State :=
  let code := codes.getLastD 0 % 16
  let unst := codes.any (fun c => c % 16 != code)
  let lock := s.fuse 1025 1 == 1
  let boot := if lock then s.fuse 1026 2 else code / 4
  let role := if lock then s.fuse 1028 1 else code / 2 % 2
  let hold := if lock then s.fuse 1029 1 else code % 2
  let s := s.setNat RC_OPT (code * 2 ^ 12 + boot * 2 ^ 10 + role * 2 ^ 9 + hold * 2 ^ 8 + b2n unst * 2 ^ 4 + b2n marginal * 2 ^ 3 + b2n lock)
  let s := s.setFld TL_CTRL fTL_CTRL_ROLE role
  { s with pw.strap := code }

/-- The fields marked fuse (L3). -/
def State.loadFuses (s : State) : State :=
  let mode := s.fuse 640 2
  let s := s.loadMap.setFld DB_STAT fDB_STAT_MODE mode
  let s := if s.pw.level = 4 then s.setFld DB_STAT fDB_STAT_LEVEL (if mode = 0 then 2 else 0) else s
  let s := (s.setNat DB_UID_LO (s.fuse 706 32)).setNat DB_UID_HI (s.fuse 738 32)
  s.setFld SH_WDG_CTRL fSH_WDG_CTRL_EN (s.fuse 1024 1)

/-! ### Start-up (R478 to R482) -/

def State.setStage (s : State) (n : Nat) : State := s.setFld RC_BOOT fRC_BOOT_STAGE n

/-- The remap image (R445): its entries are enabled one at a time; the copies move zero words. -/
def State.loadRemap (s : State) (ok : Bool) : State :=
  match s.fold.remap with
  | none => s
  | some im =>
    if !ok then s.setFlag MI_GSUM fMI_GSUM_IMGBAD true
    else
      let s := im.entries.foldl (fun s e =>
        let s := s.setReg (MI_REMAP (e.1 / 8) (e.1 % 8)) e.2
        if bitOf e.2.toNat 31 then (s.raise 906 0 0).record 906 0x61 (e.1 / 8) (e.1 % 8) 257 0 else s) s
      s.setReg MI_FOLD_SEQ im.seq

/-- The reserve image (R452, R467): the first start sets the default map and fences the spares; a bad image leaves the
default map and is reported. -/
def State.loadReserve (s : State) (ok : Bool) : State :=
  match s.fold.reserve with
  | some im => if ok then (s.restoreMap im).fenceSpares else s.defaultMap.setFlag RS_GSTAT fRS_GSTAT_IMGBAD true
  | none =>
    if s.fold.started then s.defaultMap.setFlag RS_GSTAT fRS_GSTAT_IMGBAD true
    else State.saveReserve { s.defaultMap.fenceSpares with fold.started := true }

/-- A reply of OP 0x000 with eight data words in MB0 to MB3 and MB28 to MB31 (R426, R481). -/
def State.bootReply (s : State) (status detail : Nat) (data : List Word) : State :=
  let w0 := status * 2 ^ 16 + detail * 2 ^ 24
  [0, 1, 2, 3, 28, 29, 30, 31].foldl (fun s m =>
    let s := (s.mbPut m 0 data).mbPutHeader m w0 0 (4 * data.length) 0 s.now s.now
    (s.setFld (MB_STAT m) fMB_STAT_STATE 2).raise (848 + m) w0 0) s

/-- D0 and D4 to D7 of READY. -/
def State.readyWords (s : State) (ver : BitVec 64) (out : Nat) : List Word :=
  [s.reg ID_ROMCODE, ver.extractLsb' 0 32, ver.extractLsb' 32 32, .ofNat 32 out, .ofNat 32 s.pw.source, .ofNat 32 (min s.pw.level 3),
    s.reg RC_RST_STAMP_LO, s.reg RC_RST_STAMP_HI]

/-- The boot ROM waits for a host load. -/
def State.hostWait (s : State) : State := (s.setFlag RC_BOOT fRC_BOOT_HOSTWAIT true).setStage 8

/-- The stage at which start-up stands. -/
def State.stage (s : State) : Nat := if s.pw.mode = .startup then s.fld RC_BOOT fRC_BOOT_STAGE else 0

/-- Stage 4 ends with what the boot ROM found (R478, R481). -/
def State.bootVerify (s : State) : State :=
  let im := s.pw.image
  let host := s.pw.hostBoot
  let boot := s.fld RC_OPT fRC_OPT_BOOT
  if im.fail ≠ 0 then
    let cause := if host then 4 else im.fail.val
    State.hostWait ((s.setFld RC_BOOT fRC_BOOT_FAIL cause).bootReply 7 cause (s.readyWords 0 0))
  else
    let dir := boot = 1 ∨ (boot = 2 ∧ im.dir = true)
    let s := s.setFlag RC_BOOT fRC_BOOT_DIR (decide dir && !host)
    let s := if 3 ≤ s.pw.level then s.loadRemap im.remapOk else s
    s.setStage 5

/-- Stage 5 ends: the patch load of R189. -/
def State.bootPatch (s : State) : State := State.setStage (s.patchLoad s.pw.image.patch) 6

/-- Stage 6 ends: after an L3 reset the reserve image (R452), then READY. -/
def State.bootReserve (s : State) : State :=
  let s := if 3 ≤ s.pw.level then s.loadReserve s.pw.image.reserveOk else s
  let s := (s.setStage 7).bootReply 0 0 (s.readyWords s.pw.patchVer s.pw.patch)
  { s with mb.ready := true, pw.mode := .graze }

/-- Stages 4 to 6, up to the one in which start-up is left standing; a whole-block halt stands over them (20_debug.md R509). -/
def State.bootRun (s : State) (upto : Nat) : State :=
  if s.pw.bhalt = true then s else
  let s := if s.stage = 4 ∧ upto ≠ 4 then s.bootVerify else s
  let s := if s.stage = 5 ∧ upto ≠ 5 then s.bootPatch else s
  if s.stage = 6 ∧ upto ≠ 6 then s.bootReserve else s

/-- Stage 4 begins. -/
def State.bootGo (s : State) : State :=
  if s.fld RC_OPT fRC_OPT_BOOT = 3 then s.hostWait else State.setStage { s with pw.hostBoot := false } 4

/-- The hold of an L2 or L3 reset has ended (R471, R478): the pins are high again. At L3 option loading begins, on RCO, and PLL_REQ
rises (R475). -/
def State.releaseHold (s : State) : State :=
  let l3 := decide (3 ≤ s.pw.level)
  let s := { s with pw := { s.pw with porLow := false, rstLow := false, pllReq := true, pll := !l3, fast := !l3, mode := .startup } }
  let s := s.setReg64 RC_RST_STAMP_LO RC_RST_STAMP_HI s.now
  let s := s.setFlag TB_STAT fTB_STAT_COARSE true
  s.setStage (b2n l3)

/-- Option loading has ended with PLL_LOCK high (R475 to R477), and the sweep of R446 begins. -/
def State.optionsDone (s : State) (codes : List Nat) (marginal : Bool) : State :=
  let s := { s with pw := { s.pw with pll := true, fast := !s.pw.bhalt } }
  State.setStage (s.sweepBegin.loadFuses.loadOptions codes marginal) 2

/-- The sweep has ended (R446, R479); the RESET record is the first entry (R474). Then the hold or the boot. -/
def State.sweepDone (s : State) : State :=
  let l3 := decide (3 ≤ s.pw.level)
  let s := if l3 then { s.sweepAll with cs := [], jn := {} } else s
  let s := s.resetRecord s.pw.source s.pw.level
  let s := s.releaseHeld
  let s := if l3 && s.flag RC_OPT fRC_OPT_SUNST then s.raise 949 0 0 else s
  if s.flag RC_OPT fRC_OPT_HOLD then State.setStage { s with db.hold := true } 3
  else s.bootGo

/-- The release of an L2 or L3 reset, and the stages of start-up up to the hold, the host wait or READY (R471, R478). `upto` is the
stage in which start-up is left standing: 1, 2, 4, 5 or 6, any other number none; a later release goes on from there. A release
that finds neither a reset in force nor such a stage does nothing. -/
def State.release (s : State) (codes : List Nat) (marginal : Bool) (im : BootImage) (upto : Nat) : State :=
  if s.pw.mode = .reset ∨ (s.pw.mode = .startup ∧ s.db.hold = false ∧ s.flag RC_BOOT fRC_BOOT_HOSTWAIT = false) then
    let l2 := s.pw.mode == .reset && decide (s.pw.level < 3)
    let s := { s with pw.image := im }
    let s := if s.pw.mode = .reset then s.releaseHold else s
    let s := if s.stage = 1 ∧ upto ≠ 1 then s.optionsDone codes marginal else s
    let s := if (s.stage = 2 ∧ upto ≠ 2 ∧ s.pw.bhalt = false) ∨ l2 = true then s.sweepDone else s
    s.bootRun upto
  else s

/-- RC_BOOT.HOSTGO ends the host wait (R480). -/
def State.hostGo (s : State) (im : BootImage) : State :=
  if s.pw.mode = .startup ∧ s.flag RC_BOOT fRC_BOOT_HOSTWAIT = true then
    State.bootRun (State.setStage (State.setFlag { s with pw := { s.pw with image := im, hostBoot := true } } RC_BOOT fRC_BOOT_HOSTWAIT false) 4) 0
  else s

/-- The debugger releases the boot hold (R482, R509). -/
def State.holdRelease (s : State) (im : BootImage) : State :=
  if s.pw.mode = .startup ∧ s.db.hold = true then (State.bootGo { s with db.hold := false, pw.image := im }).bootRun 0 else s

/-- An L1 reset ends: EV950, whose payload holds the source. -/
def State.l1Done (s : State) : State :=
  match s.pw.l1End with
  | some (f, x) => if f ≤ s.fc then State.raiseNamed { s with pw.l1End := none } 950 [x] else s
  | none => s

/-! ### Rest and Fold (R483 to R489) -/

/-- PM_STAT.PDWAIT names the domain whose acknowledgement is awaited: CORE, MEM, JRN. -/
def State.setPdwait (s : State) : State :=
  let p := s.pw
  s.setFld PM_STAT fPM_STAT_PDWAIT (b2n (p.coreReq != p.coreAck) + 2 * b2n (p.memReq != p.memAck || p.retReq != p.retAck)
    + 4 * b2n (p.jrnReq != p.jrnAck))

/-- A bad GO is ignored and counted (R489). -/
def State.badGo (s : State) : State := (s.inc PM_ABORT_CNT).setFld PM_STAT fPM_STAT_ABCAUSE 3

/-- A write of PM_CTRL. -/
def State.pmCtrlWrite (s : State) (v : Word) : State :=
  let m := bitsOf v.toNat 0 2
  if !bitOf v.toNat 31 then s
  else if s.pw.mode ≠ .graze ∨ s.pw.entry ≠ 0 ∨ m = 0 ∨ m = 3 then s.badGo
  else State.setFld { s with pw := { s.pw with entry := m, goAt := s.now } } PM_STAT fPM_STAT_STATE (if m = 1 then 1 else 3)

/-- An entry is abandoned (R484): counted, EV946, the block stays in Graze. -/
def State.abortEntry (s : State) (cause : Nat) : State :=
  let s := (s.inc PM_ABORT_CNT).setFld PM_STAT fPM_STAT_ABCAUSE cause
  let s := (s.setFlag PM_STAT fPM_STAT_ABORT true).setFld PM_STAT fPM_STAT_STATE 0
  State.raiseNamed { s with pw := { s.pw with entry := 0, down := false }, sh.crookWait := false } 946 [cause]

/-- Quiescence (R484). -/
def State.quiescent (s : State) : Bool :=
  (s.flag SH_STAT fSH_STAT_SLEEP || s.sh.crookWait)
    && !s.listedTasks.any (fun e => s.slotState e.1 e.2 == 2 || s.slotState e.1 e.2 == 3 || s.slotState e.1 e.2 == 4)
    && s.ranks.all (fun e => e.2.isEmpty) && s.jn.input.isEmpty && s.jn.wbuf.isEmpty && s.jn.fresh.isEmpty
    && !s.flag JN_STAT fJN_STAT_DBUSY && s.sh.lineReq.isEmpty && s.sh.stores.isEmpty && s.engs.all (fun e => e.2.stores.isEmpty)
    && !s.dvBusy

/-- May the debugger's attachment turn an entry into an emulated one (20_debug.md R510)? -/
def State.emulates (s : State) : Bool := s.flag DB_CTRL fDB_CTRL_ATTACH && s.flag DB_POLICY fDB_POLICY_EMU

/-- Rest is entered, at the CLK_SLOW edge that keeps Tally (R484). An emulated Rest keeps the clocks and the domains. -/
def State.restEntry (s : State) : State :=
  if s.pw.entry = 1 ∧ s.pw.down = false ∧ s.pw.mode = .graze ∧ s.quiescent = true then
    if s.emulates then
      State.setFld { s with pw := { s.pw with mode := .rest, emu := true, down := true } } DB_EMU fDB_EMU_STATE 1
    else
      State.setPdwait (State.stopNow { s with pw := { s.pw with mode := .rest, down := true, retReq := true } })
  else s

/-- The Fold is entered: isolation, then JRN, MEM and CORE go off, each after the acknowledgement before it (R486, R520). -/
def State.foldEntry (s : State) : State :=
  if s.pw.entry = 2 ∧ s.pw.down = false ∧ s.pw.mode = .graze ∧ s.quiescent = true then
    if s.emulates then
      State.setFld { s with pw := { s.pw with mode := .fold, emu := true } } DB_EMU fDB_EMU_STATE 2
    else
      State.setPdwait
        (State.stopNow { s with pw := { s.pw with mode := .fold, down := true, iso := true, jrnReq := false } })
  else s

/-- A wake latch ends Rest or Fold, or abandons an entry (R484 to R487). -/
def State.wakeCheck (s : State) : State :=
  match s.pw.mode, s.wakeLatch with
  | .graze, some _ => if s.pw.entry ≠ 0 ∧ s.pw.down = false then s.abortEntry 2 else s
  | .rest, some _ =>
    if s.pw.up then s else s.returnBegin.setPdwait
  | .fold, some _ =>
    if s.pw.emu then s.foldExit
    else if s.pw.up || s.pw.down then s
    else State.setPdwait { s with pw := { s.pw with up := true, foldSrc := 7, coreReq := true } }
  | _, _ => s

/-- What the controller does once an acknowledgement has come (R520). -/
def State.powerSeq (s : State) : State :=
  let p := s.pw
  match p.mode with
  | .rest =>
    if p.up then (if p.retAck then s else { s with pw.pllReq := true })
    else if p.retReq && p.retAck then { s with pw.pllReq := false } else s
  | .fold =>
    if p.up then
      if !p.coreAck then s
      else if !p.memReq then { s with pw.memReq := true }
      else if !p.memAck then s
      else if !p.jrnReq then { s with pw.jrnReq := true }
      else if !p.jrnAck then s
      else State.foldExit { s with pw.iso := false }
    else if p.down then
      if p.jrnAck then s
      else if p.memReq then { s with pw.memReq := false }
      else if p.memAck then s
      else if p.coreReq then { s with pw.coreReq := false }
      else if p.coreAck then s
      else State.wakeCheck { s with pw := { s.pw with down := false, pllReq := false } }
    else s
  | _ => s

/-- An acknowledgement arrives: 0 CORE, 1 MEM, 2 JRN, 3 MEM retention. -/
def State.domainAck (s : State) (d : Nat) (level : Bool) : State :=
  let p := s.pw
  let p := match d with
    | 0 => { p with coreAck := level }
    | 1 => { p with memAck := level }
    | 2 => { p with jrnAck := level }
    | _ => { p with retAck := level }
  State.setPdwait (State.powerSeq { s with pw := p })

/-- Quiescence was not reached within 1 ms of Tally (4,294,967 tk) after GO. -/
def State.entryTimeout (s : State) : State :=
  if s.pw.entry ≠ 0 ∧ s.pw.down = false ∧ s.pw.mode = .graze ∧ reached (s.pw.goAt + 4294967) s.now = true ∧ s.quiescent = false then
    s.abortEntry 1
  else s

/-- The fast domain runs again (R485, R488): held raises first, then EV947 for a lost lock and EV948; PM_WAKE_LAST; Tally
Link and the feedback units start anew. In start-up, and in an emulated Rest or Fold, the clock of a lock that had fallen
resumes. -/
def State.grazeReturn (s : State) : State :=
  let fromRest := s.pw.mode = .rest ∧ s.pw.up = true ∧ s.pw.pllReq = true
  let lost := s.pw.mode = .graze ∧ s.pw.lockLost = true
  if fromRest ∨ lost then
    let wasLost := s.pw.lockLost
    let emu := s.pw.emu
    let s := { s with pw := { s.pw with
      mode := .graze, fast := !s.pw.bhalt, pll := true, up := false, down := false, entry := 0, emu := false, lockLost := false } }
    let s := { s with sh.crookWait := false }
    let s := if wasLost then s else s.inc PM_REST_CNT
    let s := s.setFld PM_STAT fPM_STAT_STATE 0
    let s := if emu then s.setFld DB_EMU fDB_EMU_STATE 0 else s.setFlag TB_STAT fTB_STAT_COARSE true
    let s := s.releaseHeld
    let s := if wasLost then s.raise 947 0 0 else s
    let s := match s.wakeLatch with
      | some i => s.setNat PM_WAKE_LAST (2 ^ 31 + i)
      | none => s
    let s := s.raiseNamed 948 [s.nat PM_WAKE_LAST]
    let s := if emu then s else
      let s := if s.tlMaster then s else s.acquire
      s.pfInterruptAll
    s.takeHeld
  else if s.pw.pll = false ∧ (s.pw.mode = .startup ∨ s.pw.emu = true) then
    State.setFlag { s with pw := { s.pw with pll := true, fast := !s.pw.bhalt } } TB_STAT fTB_STAT_COARSE true
  else s

/-- PLL_LOCK falls: CLK_FAST is ignored and Tally changes to slow advance (R35, R40); in Graze the loss is reported too (R488). -/
def State.lockLoss (s : State) : State :=
  let s := { s with pw.pll := false }
  let s := if s.pw.fast then s.stopFast else s
  if s.pw.mode = .graze ∧ s.pw.lockLost = false then
    let s := (s.setFlag PM_STAT fPM_STAT_LOCKLOSS true).inc PM_LOCKLOSS_CNT
    { s with pw.lockLost := true }
  else s

/-! ### Whole-block halt (20_debug.md R509) -/

/-- The halt ends: the fast domain resumes, the feedback units are interrupted, held raises follow, EV963 and record 0x092. -/
def State.blockRelease (s : State) : State :=
  if s.pw.bhalt then
    let s := State.setFlag { s with pw := { s.pw with bhalt := false, fast := s.pw.pll } } DB_STAT fDB_STAT_BHALT false
    let s := s.setFlag DB_BHALT fDB_BHALT_REQ false
    let s := s.releaseHeld.pfInterruptAll
    (s.raise 963 0 0).record 963 0x92 0 0 0 0
  else s

/-! ### The last gasp (R490 to R493) -/

/-- PWRFAIL_N falls, `k` tk before the next CLK_FAST edge. -/
def State.powerFail (s : State) (k : Nat) : State :=
  if s.pw.failLow ∨ s.pw.mode = .fold then { s with pw.failLow := true }
  else
    let s := { s with pw.failLow := true }
    let s := s.blockRelease
    let s := s.ar16.setFlag PM_STAT fPM_STAT_PFAIL true
    match s.pw.mode with
    | .reset => s.inc PM_LG_SKIP
    | .startup => s.inc PM_LG_SKIP
    | _ =>
      if s.pw.lg.phase ≠ 0 ∨ s.pw.lg.done = true then s
      else
        let st := if s.pw.fast then s.edgeStamp k else s.wakeStamp
        let s := if s.pw.entry ≠ 0 ∧ s.pw.mode = .graze then s.abortEntry 4 else s
        let s := s.setReg64 PM_LG_STAMP_LO PM_LG_STAMP_HI st
        let s := s.setFlag PM_STAT fPM_STAT_LGBUSY true
        let s := if s.pw.fast then s.raiseAt 944 st 0 0 else { s with ev.held := s.ev.held ++ [⟨944, st, 0, 0⟩] }
        let s := if s.pw.mode = .rest then s.returnBegin else s
        { s with pw.lg := { phase := 1, s := st, c := st + 8590 } }

/-- Word i of the 16 of engine p in the snapshot (R492). -/
def State.snapEngine (s : State) (p i : Nat) : Word :=
  match i with
  | 0 => s.leStat p
  | 1 => s.reg (LE_FAULT p)
  | 2 => s.reg (LE_FAULT_PC p)
  | 3 => s.reg (LE_FAULT_ADDR p)
  | 4 => .ofNat 32 (forN (fun k a => a + s.slotState p k * 2 ^ (3 * k)) 8 0)
  | 5 => .ofNat 32 (maskOf (fun k => s.flag (LE_TASK_STAT p k) fLE_TASK_STAT_DLMISS) 8
      + 256 * maskOf (fun k => s.flag (LE_TASK_STAT p k) fLE_TASK_STAT_OVR) 8)
  | 6 => s.reg (LE_BUSY_FC p)
  | 7 => 0
  | k + 8 => s.reg (LE_TRIG_STAMP_LO p k)

/-- The counters that end the snapshot. -/
def snapCounters : List Nat :=
  (List.range 10).map (fun g => MI_CE_CNT g) ++ (List.range 10).map (fun g => MI_UE_CNT g)
    ++ [QF_FOREIGN_FREES, QF_DOUBLE_FREES, QF_STALE_CNT, JN_OVERWRITE_CNT, JN_INPUT_LOST, SH_FAULT_CNT, SH_DF_CNT, SH_LSE_CNT,
      TB_ABMIS_CNT, TL_SYNC_MISSED, RC_RSVD_WRITES, RC_DECODE_ERRS]

/-- The register of generator g that word i of its four shows. -/
def snapGen (g i : Nat) : Nat :=
  match i with
  | 0 => PW_STAT g
  | 1 => PW_LATE_CNT g
  | 2 => PW_POISON_CNT g
  | _ => PW_STALE_CNT g

/-- Word i of the snapshot body, 2,032 words from +0x40 of the snapshot. -/
def State.snapWord (s : State) (i : Nat) : Word :=
  if i < 16 then s.flkStat i
  else if i < 222 then s.reg (mapReg (unitOf (i - 16)).1 (unitOf (i - 16)).2)
  else if i < 428 then s.reg (hurdleReg (unitOf (i - 222)).1 (unitOf (i - 222)).2)
  else if i < 528 then 0
  else if i < 1680 then s.snapEngine ((i - 528) / 16) ((i - 528) % 16)
  else if i < 1888 then s.reg (snapGen ((i - 1680) / 4) ((i - 1680) % 4))
  else match snapCounters[i - 1888]? with
    | some o => s.reg o
    | none => 0

/-- Tally reaches C: the snapshot begins (R490). -/
def State.snapshot (s : State) : State :=
  if s.pw.lg.phase = 1 ∧ s.pw.fast = true ∧ reached s.pw.lg.c s.now = true then
    { s with pw.lg := { s.pw.lg with phase := 2, snapFc := s.fc, snap := [] } }
  else s

/-- The snapshot at the end of an fc: it reads one word per fc, each with the value of its own fc. -/
def State.snapEdge (s : State) : State :=
  let i := s.fc - s.pw.lg.snapFc
  if s.pw.lg.phase = 2 ∧ i < 2032 then
    { s with pw.lg := { s.pw.lg with snap := tset (fun _ => (0 : Word)) s.pw.lg.snap i (s.snapWord i) } }
  else s

/-- The backward scan (R491): up to `fuel` ring slots from the one before `i`, until `left` entries not later than C are
taken; the result is oldest first. A slot never written reads zero, with a stamp not later than C (log entry 28). -/
def State.scanRing (s : State) (c : Stamp) : Nat → Nat → Nat → List (List Byte) → List (List Byte)
  | 0, _, _, acc => acc
  | fuel + 1, i, left, acc =>
    if left = 0 then acc
    else
      let j := (i + 262143) % 262144
      let bs := s.byteList (ringBase + 32 * j) 32
      if reached (.ofNat 64 (bytesNatOf (bs.take 8))) c then State.scanRing s c fuel j (left - 1) (bs :: acc)
      else State.scanRing s c fuel j left acc

/-- 4,096 fc after C the ring closes and the scan takes its entries. -/
def State.lgScan (s : State) : State :=
  if s.pw.lg.phase = 2 ∧ s.pw.fast = true ∧ s.pw.lg.snapFc + 4096 ≤ s.fc then
    let es := s.scanRing s.pw.lg.c 262144 (s.nat JN_WIDX) 256 []
    { s with jn.closed := true, pw.lg := { s.pw.lg with phase := 3, entries := es } }
  else s

/-- Words into a Fold store image. -/
def foldWrite (t : List (Nat × Word)) (i : Nat) : List Word → List (Nat × Word)
  | [] => t
  | w :: r => foldWrite (tset (fun _ => (0 : Word)) t i w) (i + 1) r

/-- Little-endian words of a list of bytes. -/
def wordsOf : List Byte → List Word
  | a :: b :: c :: d :: t => (d ++ c ++ b ++ a : BitVec 32) :: wordsOf t
  | _ => []

/-- The header of a save of cause 1 (PWRF) or 2 (FOLD): its items in the order of R491, VALID in the last word (DESIGN CHOICE, log
entry 175). `none` is a word that the spec leaves open: the CRC, S and C of a Fold, what R491 does not name. -/
def State.lgHeader (s : State) (cause : Nat) : List (Option Word) :=
  let lg := s.pw.lg
  let both (t : Stamp) : List (Option Word) := [some (t.extractLsb' 0 32), some (t.extractLsb' 32 32)]
  [some 0x4C475331, some (.ofNat 32 cause), some (.ofNat 32 lg.entries.length)]
    ++ (if cause = 1 then both lg.s ++ both lg.c else [none, none, none, none]) ++ both s.now
    ++ [some (s.reg JN_WIDX), some (s.reg JN_DIDX), some (s.reg JN_OVERWRITE_CNT), none, none, none, some 1]

/-- A header into a Fold store image from word i on. -/
def State.writeHeader (s : State) (i : Nat) : List (Option Word) → State
  | [] => s
  | some w :: r => State.writeHeader { s with fold.words := tset (fun _ => (0 : Word)) s.fold.words i w } (i + 1) r
  | none :: r =>
    State.writeHeader { s.tookFree with fold.words := tset (fun _ => (0 : Word)) s.fold.words i (s.freeVal.extractLsb' 0 32) } (i + 1) r

/-- The last gasp in its area: saved entries at +0x0000, snapshot body at +0x2040 and, when the writes completed in time, the
header at +0x2000. -/
def State.writeArea (s : State) (cause : Nat) (ok : Bool) : State :=
  let base := 0x1000 + 0x1000 * s.fld PM_LG fPM_LG_NEXT
  let w := foldWrite s.fold.words base (s.pw.lg.entries.flatMap wordsOf)
  let w := foldWrite w (base + 0x810) ((List.range 2032).map (fun i => tget (fun _ => (0 : Word)) s.pw.lg.snap i))
  let s := { s with fold.words := w }
  if ok then s.writeHeader (base + 0x800) (s.lgHeader cause) else s

/-- A power fail asserts PWRF at its rise (R493). -/
def State.pwrfAssert (s : State) : State := s.assertReset 8 none

/-- The last gasp ends after `us` µs; `ok` when the header was written. -/
def State.lgEnd (s : State) (us : Nat) (ok : Bool) : State :=
  if s.pw.lg.phase = 3 then
    let n := s.pw.lg.entries.length
    let area := s.fld PM_LG fPM_LG_NEXT
    let s := s.writeArea 1 ok
    let s := s.setNat PM_LG (b2n ok * 2 ^ 31 + (if ok then 1 - area else area) * 2 ^ 30 + n * 2 ^ 16 + us % 65536)
    let s := s.setFlag PM_STAT fPM_STAT_LGBUSY false
    let rose := s.pw.lg.rose
    let s := { s with jn.closed := false, pw.lg := { done := !rose } }
    let s := (s.raiseNamed 945 [b2n ok, us]).record 945 0x81 area n us 0
    let s := if rose then s.pwrfAssert else s
    s.takeHeld
  else s

/-- PWRFAIL_N rises (R493): during a last gasp it is remembered, after one it asserts PWRF. -/
def State.failRise (s : State) : State :=
  if !s.pw.failLow then s
  else
    let s := State.setFlag { s with pw.failLow := false } PM_STAT fPM_STAT_PFAIL false
    if s.pw.lg.phase ≠ 0 then { s with pw.lg := { s.pw.lg with rose := true } }
    else if s.pw.lg.done then State.pwrfAssert { s with pw.lg := {} }
    else s

/-! ### The Fold store (R495, R498) -/

/-- Word i of the Fold store: words of an image that Crook keeps have a layout that is open. -/
def State.foldOpen (s : State) (i : Nat) : Bool :=
  (decide (0x400 ≤ i) && decide (i < 0x800) && s.fold.remap.isSome) || (decide (0x800 ≤ i) && decide (i < 0x1000) && s.fold.reserve.isSome)
    || (decide (i < 0x400) && s.fold.started)

/-- PM_FSDATA read. -/
def State.fsRead (s : State) : Word × State :=
  let i := s.fld PM_FSADDR fPM_FSADDR_WORD
  if s.foldOpen i then (s.freeVal.extractLsb' 0 32, s.tookFree) else (tget (fun _ => (0 : Word)) s.fold.words i, s)

/-- PM_FSDATA written by the Inner world: an image that it overwrites no longer passes its CRC. -/
def State.fsWrite (s : State) (v : Word) : State :=
  let i := s.fld PM_FSADDR fPM_FSADDR_WORD
  let s := { s with fold.words := tset (fun _ => (0 : Word)) s.fold.words i v }
  if 0x400 ≤ i ∧ i < 0x800 then { s with fold.remap := none }
  else if 0x800 ≤ i ∧ i < 0x1000 then { s with fold.reserve := none }
  else s

end Sys2Proof.Machine
end

