-- ==== Sys2Proof/Machine/Shepherd.lean ====
section
/-!
DEFINITION. The Shepherd beside its instructions (15_shepherd_core.md R387 to R414): banks and contexts, the address map,
line buffer and branch-target buffer, the MPU, data watch, patch units, exceptions, interrupts, the watchdog.
-/

namespace Sys2Proof.Machine

/-! ### Banks and contexts (R390, R391) -/

def State.shBankNo (s : State) : Nat := s.fld SH_STAT fSH_STAT_BANK
def State.shBankAt (s : State) (b : Nat) : Bank := tget (fun _ => ({} : Bank)) s.sh.banks b
def State.setShBankAt (s : State) (b : Nat) (x : Bank) : State :=
  { s with sh.banks := tset (fun _ => ({} : Bank)) s.sh.banks b x }
def State.shBank (s : State) : Bank := s.shBankAt s.shBankNo
def State.setShBank (s : State) (x : Bank) : State := s.setShBankAt s.shBankNo x
def State.shOuter (s : State) : Bool := s.flag SH_STAT fSH_STAT_WORLD
def State.shSup (s : State) : Bool := s.flag SH_STAT fSH_STAT_LEVEL
def State.setContext (s : State) (outer sup : Bool) : State :=
  (s.setFlag SH_STAT fSH_STAT_WORLD outer).setFlag SH_STAT fSH_STAT_LEVEL sup

/-- PSR (R409). -/
def State.psr (s : State) : Word :=
  .ofNat 32 (b2n s.shSup + 2 * b2n s.shOuter + 16 * (if s.shOuter then s.sh.imaskO else s.sh.imaskI))

def State.setImask (s : State) (outer : Bool) (v : Nat) : State :=
  if outer then { s with sh.imaskO := v % 16 } else { s with sh.imaskI := v % 16 }

/-- PSR restored whole: level, world, IMASK of that world. -/
def State.setPsr (s : State) (v : Word) : State :=
  let outer := bitOf v.toNat 1
  (s.setContext outer (bitOf v.toNat 0)).setImask outer (bitsOf v.toNat 4 4)

/-! ### The address map (R387, R388) -/

inductive ShRegion
  | tcm (off : Nat) | rom (off : Nat) | patch (off : Nat) | window (w off : Nat) | flash (off : Nat) | none
deriving DecidableEq, Repr

def shRegion (a : Nat) : ShRegion :=
  if a < 0x100000 then .tcm a
  else if a < 0x110000 then .rom (a - 0x100000)
  else if a < 0x110200 then .patch (a - 0x110000)
  else if a < 0x400000 then .none
  else if a < 0x800000 then .window 0 (a - 0x400000)
  else if a < 0xC00000 then .window 1 (a - 0x800000)
  else .flash (a - 0xC00000)

/-- Where TCM and the patch RAM stand in the memory of the state. -/
def tcmBase : Nat := 0x1900000
def patchRam : Nat := 2 ^ 33

/-- SH_WIN[w]: TGT and BASE. -/
def State.winTgt (s : State) (w : Nat) : Bool := if w = 0 then s.flag SH_WIN0 fSH_WIN0_TGT else s.flag SH_WIN1 fSH_WIN1_TGT
def State.winBase (s : State) (w : Nat) : Nat := if w = 0 then s.fld SH_WIN0 fSH_WIN0_BASE else s.fld SH_WIN1 fSH_WIN1_BASE

/-! ### Patch units (R410), line buffer and branch-target buffer (R393, R394) -/

/-- The patch unit that acts on an address, for a fetch or a load: its number and mode. MODE 1 matches a line, MODE 2 a word, MODE 3 a
parcel that is fetched. -/
def State.patchUnit (s : State) (fetch : Bool) (a : Nat) : Option (Nat × Nat) :=
  let hit (i : Nat) : Bool :=
    let v := s.fld (SH_PU i) fSH_PU_ADDR
    s.flag (SH_PU i) fSH_PU_EN && match s.fld (SH_PU i) fSH_PU_MODE with
      | 1 => a / 32 == v / 32
      | 2 => a / 4 == v / 4
      | 3 => fetch && a / 2 == v / 2
      | _ => false
  (firstIdx hit 16).map (fun i => (i, s.fld (SH_PU i) fSH_PU_MODE))

/-- The patch-RAM byte that replaces a byte of boot ROM or flash, if a unit remaps it. -/
def State.remapped (s : State) (fetch : Bool) (a : Nat) : Option Nat :=
  match s.patchUnit fetch a with
  | some (i, 1) => some (patchRam + 32 * i + a % 32)
  | some (i, 2) => some (patchRam + 4 * s.fld (SH_PU_X i) fSH_PU_X_PWORD + a % 4)
  | _ => none

/-- The FFP line of an address of the flash window. -/
def State.flashLine (s : State) (off : Nat) : Nat := (s.fld SH_FLASH_BASE fSH_FLASH_BASE_BASE * 32 + off) / 32 % 2 ^ 27

def State.lineHeld (s : State) (l : Nat) : Bool := s.sh.lines.any (fun e => e.1 == l)

/-- A line is used: it becomes the most recently used. -/
def State.lineUse (s : State) (l : Nat) : State :=
  match s.sh.lines.find? (fun e => e.1 == l) with
  | none => s
  | some e => { s with sh.lines := e :: s.sh.lines.filter (fun x => x.1 != l) }

/-- Keep the first `n` lines of a set. -/
def keepWays (set : Nat) : Nat → List (Nat × List Byte) → List (Nat × List Byte)
  | _, [] => []
  | n, e :: t => if e.1 % 32 = set then (match n with | 0 => keepWays set 0 t | k + 1 => e :: keepWays set k t) else e :: keepWays set n t

/-- A line is installed: 4 ways of 32 sets, least recently used first out. -/
def State.lineInstall (s : State) (l : Nat) (bs : List Byte) : State :=
  { s with sh.lines := keepWays (l % 32) 4 ((l, bs) :: s.sh.lines.filter (fun x => x.1 != l)) }

/-- A request for a line that is neither held nor requested. -/
def State.lineRequest (s : State) (l : Nat) : State :=
  if s.lineHeld l || s.sh.lineReq.contains l then s else { s with sh.lineReq := s.sh.lineReq ++ [l] }

/-- Execution or a load needs the line of a flash offset: true when it is held; else it is requested and stalls. The next
line is requested too. -/
def State.needLine (s : State) (a off : Nat) (fetch : Bool) : Bool × State :=
  if (s.remapped fetch a).isSome then (true, s)
  else
    let l := s.flashLine off
    let ok := s.lineHeld l
    let s := if ok then s.lineUse l else { s.lineRequest l with sh.demand := some l }
    (ok, if fetch then s.lineRequest ((l + 1) % 2 ^ 27) else s)

/-- A taken branch on the Shepherd (R394). -/
def State.btbBranch (s : State) (pc target : Addr) : State :=
  match shRegion target.toNat with
  | .flash off =>
    let i := pc.toNat / 2 % 64
    let e := tget (fun _ => ({} : BtbEntry)) s.sh.btb i
    let l := s.flashLine off
    if e.branch = pc ∧ e.target = target ∧ e.line ≠ [] then s.lineInstall l e.line
    else
      let bs := match s.sh.lines.find? (fun x => x.1 == l) with
        | some x => x.2
        | none => []
      { s with sh.btb := tset (fun _ => ({} : BtbEntry)) s.sh.btb i { branch := pc, target := target, line := bs } }
  | _ => s

/-- Entries whose target lies in an arrived line take it. -/
def State.btbFill (s : State) (l : Nat) (bs : List Byte) : State :=
  { s with sh.btb := tmap (fun _ => ({} : BtbEntry)) (fun _ e =>
      match shRegion e.target.toNat with
      | .flash off => if e.line = [] ∧ s.flashLine off = l then { e with line := bs } else e
      | _ => e) s.sh.btb }

/-! ### The MPU (R407, R408) -/

inductive ShAcc | read | write | exec
deriving DecidableEq, Repr

/-- Word j of region r of a world. -/
def State.mpuWord (s : State) (outer : Bool) (r j : Nat) : Nat :=
  s.nat ((if outer then SH_MPU_O0 r else SH_MPU_I0 r) + 4 * j)

/-- Does the enabled region contain [a, a + n)? -/
def State.mpuHolds (s : State) (outer : Bool) (r a n : Nat) : Bool :=
  bitOf (s.mpuWord outer r 2) 0 && decide (bitsOf (s.mpuWord outer r 0) 5 19 * 32 ≤ a)
    && decide (a + n ≤ bitsOf (s.mpuWord outer r 1) 5 19 * 32 + 32)

/-- Does its permission word grant the access at the level? -/
def State.mpuGrants (s : State) (outer sup : Bool) (r : Nat) (k : ShAcc) : Bool :=
  let i := match k with | .read => 1 | .write => 2 | .exec => 3
  bitOf (s.mpuWord outer r 2) (i + (if sup then 3 else 0))

/-- Is an access permitted in a context? -/
def State.mpuOk (s : State) (outer sup : Bool) (a n : Nat) (k : ShAcc) : Bool :=
  if !outer && !s.flag SH_CTRL fSH_CTRL_MPUEN_I then sup
  else
    (firstIdx (fun r => s.mpuHolds outer r a n && s.mpuGrants outer sup r k) 16).isSome
      && (!outer || (firstIdx (fun r => s.mpuHolds false r a n && bitOf (s.mpuWord false r 2) 7) 16).isSome)

/-- A denial: counted, also in the enabled regions of the world that contain the access; EV55 on the first one. -/
def State.mpuDeny (s : State) (a n : Nat) : State :=
  let outer := s.shOuter
  let s := forN (fun r s =>
    if s.mpuHolds outer r a n then
      let o := (if outer then SH_MPU_O0 r else SH_MPU_I0 r) + 12
      s.setNat o (min 65535 (s.nat o % 65536 + 1))
    else s) 16 s
  let first := !s.flag SH_STAT fSH_STAT_MDEN
  let s := (s.inc SH_MPU_DENY_CNT).setFlag SH_STAT fSH_STAT_MDEN true
  if first then s.raise 55 0 0 else s

/-! ### Debug events of the Shepherd and data watch (R411, R507) -/

/-- A debug event of a patch unit (2) or the data watch (3). -/
def State.shDebugEvent (s : State) (cause : Nat) : State :=
  if s.flag DB_POLICY fDB_POLICY_SEV then s.raise 960 cause s.shBank.pc.toNat else s.inc DB_SHEV_IGN

/-- Does comparator k match an access of the current context? -/
def State.watchHit (s : State) (k a n : Nat) (write : Bool) (data : Nat) : Bool :=
  let ctx := (if s.shOuter then 2 else 0) + (if s.shSup then 0 else 1)
  let m := s.nat (SH_DW_MASK k)
  bitOf (s.fld (SH_DW_CFG k) fSH_DW_CFG_CTX) ctx
    && (if write then s.flag (SH_DW_CFG k) fSH_DW_CFG_W else s.flag (SH_DW_CFG k) fSH_DW_CFG_R)
    && decide (a ≤ s.nat (SH_DW_HI k)) && decide (s.nat (SH_DW_LO k) < a + n)
    && (!s.flag (SH_DW_CFG k) fSH_DW_CFG_DMATCH || data % 2 ^ 32 &&& m == s.nat (SH_DW_DATA k) &&& m)

/-- The data watch on one access: every match is counted and acts; true when a comparator with ACT 3 faults it. -/
def State.watch (s : State) (a n : Nat) (write : Bool) (data : Nat) : Bool × State :=
  forN (fun k r =>
    let s := r.2
    if s.watchHit k a n write data then
      let s := s.inc (SH_DW_CNT k)
      match s.fld (SH_DW_CFG k) fSH_DW_CFG_ACT with
      | 0 => (r.1, s)
      | 1 => (r.1, s.raise 53 0 0)
      | 2 => (r.1, s.shDebugEvent 3)
      | _ => (true, s)
    else (r.1, s)) 4 (false, s)

/-! ### Exceptions (R396 to R405) -/

/-- A descriptor of R396. -/
structure Desc where
  valid : Bool := false
  handler : Addr := 0
  type : Nat := 0
  sup : Bool := false
  stack : Addr := 0
  atomic : Nat := 0
  w3 : Nat := 0
deriving DecidableEq, Repr

/-- Entry x of a world's table. A nonzero reserved bit, an odd handler, an ATOMIC above 1,024, a type above 3, or a cross gate
in the Outer table makes it invalid. -/
def State.descriptor (s : State) (outer : Bool) (x : Nat) : Desc :=
  let base := tcmBase + 0x1000 * (if outer then s.fld SH_EDTB_O fSH_EDTB_O_BASE else s.fld SH_EDTB_I fSH_EDTB_I_BASE) + 16 * x
  let w (i : Nat) : Nat := s.bytesNat (base + 4 * i) 4
  let type := bitsOf (w 0) 24 4
  { valid := decide (1 ≤ type ∧ type ≤ (if outer then 2 else 3)) && !bitOf (w 0) 0 && w 0 / 2 ^ 29 == 0 && w 1 / 2 ^ 24 == 0
      && decide (w 2 ≤ 1024) && w 3 / 2 ^ 23 == 0
    handler := .ofNat 24 (w 0)
    type := type
    sup := bitOf (w 0) 28
    stack := .ofNat 24 (w 1)
    atomic := bitsOf (w 2) 0 11
    w3 := w 3 }

/-- An ATOMIC window opens with a budget: 1 a handler's, 2 a gate's. -/
def State.openAtomic (s : State) (kind budget : Nat) : State :=
  State.setFlag { s with sh := { s.sh with abudget := budget, aopen := kind } } SH_STAT fSH_STAT_ATOM true

def State.closeAtomic (s : State) : State :=
  State.setFlag { s with sh := { s.sh with abudget := 0, aopen := 0 } } SH_STAT fSH_STAT_ATOM false

/-- The third fault (R404): SH_TFLT, then reset source TFLT. -/
def State.thirdFault (s : State) (cause : Nat) : State :=
  let s := s.setNat SH_TFLT_PC s.shBank.pc.toNat
  (s.setNat SH_TFLT (2 ^ 31 + cause % 256)).assertReset 3 none

/-- The program counter of a bank, with A6 loaded from a nonzero STACK. -/
def State.vector (s : State) (b : Nat) (d : Desc) : State :=
  let x := s.shBankAt b
  let x := { x with pc := d.handler, wait := none, micro := {} }
  let x := if d.stack = 0 then x
    else { x with a := tset (fun _ => (0 : Addr)) x.a 6 d.stack, poison := x.poison &&& ~~~(1#32 <<< 22) }
  let s := s.setShBankAt b x
  { s.setFld SH_STAT fSH_STAT_BANK b with sh.demand := none }

/-- A double fault (R403). A fault on the double-fault bank, or during double-fault entry, is a third fault. -/
def State.doubleFault (s : State) (cause addr : Nat) : State :=
  let b := s.shBankNo
  let pc := s.shBank.pc
  if 2 ≤ b then s.thirdFault cause
  else
    let s := { s with sh := { s.sh with
      dcause := .ofNat 32 cause
      daddr := .ofNat 32 addr
      dbank := b
      depc := if b = 1 then s.sh.epc else .ofNat 32 pc.toNat
      depsr := if b = 1 then s.sh.epsr else s.psr } }
    let s := ((s.inc SH_DF_CNT).raise 52 0 0).record 52 0x50 cause b pc.toNat addr
    let d := s.descriptor false 0x0F
    if d.valid && d.type == 1 && d.sup then
      let s := s.closeAtomic.setFlag SH_STAT fSH_STAT_SLEEP false
      (s.vector 2 d).setContext false true
    else s.thirdFault cause

/-- Entry through index x of a world's table (R397): an invalid descriptor makes it a double fault. `epc` is the program
counter saved. -/
def State.exceptionEntry (s : State) (outer : Bool) (x : Nat) (epc : Addr) (addr : Nat) : State :=
  if s.shBankNo ≠ 0 then s.doubleFault x addr
  else
    let d := s.descriptor outer x
    if d.valid && d.type == 1 && (x != 0x14 || d.sup) then
      let s := { s with sh := { s.sh with
        epc := .ofNat 32 epc.toNat
        epsr := s.psr
        ecause := .ofNat 32 x
        eaddr := .ofNat 32 addr
        estamp := s.now } }
      let s := s.setFlag SH_STAT fSH_STAT_SLEEP false
      let s := (s.vector 1 d).setContext outer d.sup
      s.openAtomic 1 (if outer then min d.atomic (s.fld SH_OBUDGET fSH_OBUDGET_MAX) else d.atomic)
    else s.doubleFault x addr

/-- A precise fault of the instruction at the program counter (R401, R405). -/
def State.shFault (s : State) (cause addr : Nat) : State :=
  let pc := s.shBank.pc
  let s := (s.inc SH_FAULT_CNT).setNat SH_LAST_CAUSE cause
  let s := (s.setNat SH_LAST_PC pc.toNat).setNat SH_LAST_ADDR (addr % 2 ^ 24)
  s.exceptionEntry s.shOuter cause pc addr

/-! ### Interrupts (R402) -/

/-- The world that takes level l. -/
def State.levelOuter (s : State) (l : Nat) : Bool := bitOf (s.fld SH_LVLW fSH_LVLW_WORLD) l

/-- May level l be taken? -/
def State.canTake (s : State) (l : Nat) : Bool :=
  let outer := s.levelOuter l
  s.shLevel l && bitOf (if outer then s.sh.imaskO else s.sh.imaskI) l && (!outer || s.shOuter)

/-- The index and world of the exception that an interrupt point takes: the watchdog warning, else the highest level. -/
def State.interruptDue (s : State) : Option (Nat × Bool) :=
  if s.shBankNo ≠ 0 ∨ s.sh.aopen = 2 ∨ s.live = false then none
  else if s.sh.warnPend then some (0x14, false)
  else if s.canTake 3 then some (0x13, s.levelOuter 3)
  else if s.canTake 2 then some (0x12, s.levelOuter 2)
  else if s.canTake 1 then some (0x11, s.levelOuter 1)
  else if s.canTake 0 then some (0x10, s.levelOuter 0)
  else none

/-- A level is taken at an interrupt point; the wait of a load is one (R150). An Outer WAIT ends with an Outer level only.
EADDR takes a free value: the spec gives an interrupt no address. -/
def State.interruptEntry (s : State) : State :=
  match s.interruptDue with
  | none => s
  | some (x, outer) =>
    let s := if outer then { s with sh.outerSleep := false } else s
    let s := if x = 0x14 then { s with sh.warnPend := false } else s
    s.tookFree.exceptionEntry outer x s.shBank.pc (s.freeVal.toNat % 2 ^ 24)

/-- A handler's budget has run out before its RETX (R398). -/
def State.atomicExpired (s : State) : State :=
  if s.sh.aopen = 1 ∧ s.sh.abudget = 0 ∧ s.live = true then s.tookFree.shFault 11 (s.freeVal.toNat % 2 ^ 24) else s

/-- One fc of the ATOMIC counter: a gate's window closes at zero. -/
def State.atomicEdge (s : State) : State :=
  if s.sh.aopen = 0 then s
  else
    let b := s.sh.abudget - 1
    if s.sh.aopen = 2 ∧ b = 0 then s.closeAtomic else { s with sh.abudget := b }

/-- RETX on the exception or the double-fault bank (R397, R403). An Outer WAIT goes on (R402). -/
def State.retxBank (s : State) : State :=
  let two := s.shBankNo = 2
  let pc := if two then s.sh.depc else s.sh.epc
  let psr := if two then s.sh.depsr else s.sh.epsr
  let s := s.closeAtomic.setFld SH_STAT fSH_STAT_BANK 0
  let x := s.shBankAt 0
  let s := (s.setShBankAt 0 { x with pc := .ofNat 24 pc.toNat }).setPsr psr
  if s.shOuter && s.sh.outerSleep then s.setFlag SH_STAT fSH_STAT_SLEEP true else s

/-! ### Buffered stores, flash lines (R393, R406, R524) -/

/-- An error response to the oldest buffered store. -/
def State.shLateStore (s : State) : State :=
  match s.sh.stores with
  | [] => s
  | e :: t =>
    let s := { s with sh.stores := t }
    let a : Stamp := .ofNat 64 e.addr
    let s := (s.setReg64 SH_LSE_ADDR_LO SH_LSE_ADDR_HI a).setReg64 SH_LSE_STAMP_LO SH_LSE_STAMP_HI e.stamp
    ((s.inc SH_LSE_CNT).raise 50 0 0).record 50 0x51 (lo32 a) (hi32 a) (lo32 e.stamp) (hi32 e.stamp)

/-- The oldest buffered store has reached system memory. -/
def State.shStoreDone (s : State) : State :=
  match s.sh.stores with
  | [] => s
  | e :: t => State.sysWrite { s with sh.stores := t } e.addr e.bytes

/-- The oldest line requested arrives, or comes with an error: fault BUSERR when a fetch or a load stalls for it. -/
def State.lineArrival (s : State) (bs : List Byte) (ok : Bool) : State :=
  match s.sh.lineReq with
  | [] => s
  | l :: t =>
    let hit := s.sh.demand == some l
    let s := { s with sh.lineReq := t }
    let s := if hit then { s with sh.demand := none } else s
    if ok then (s.lineInstall l bs).btbFill l bs
    else if hit then s.shFault 6 (l * 32 % 2 ^ 24) else s

/-! ### The watchdog (R412) -/

def State.wdgOn (s : State) : Bool := s.flag SH_WDG_CTRL fSH_WDG_CTRL_EN

/-- One fc of the watchdog: `d` tk have passed. -/
def State.wdgTick (s : State) (d : Nat) : State :=
  if s.wdgOn && !s.sh.bitten then
    let a := s.sh.wdgAcc + d
    let s := { s with sh.wdgAcc := a % 65536 }
    s.setNat SH_WDG_CNT (min 65535 (s.nat SH_WDG_CNT + a / 65536))
  else s

/-- The count reaches WARN: once, EV51, record 0x052 and, with WARNV, exception 0x14. -/
def State.wdgWarning (s : State) : State :=
  if s.wdgOn && !s.sh.warned && decide (s.fld SH_WDG_TIME fSH_WDG_TIME_WARN ≤ s.nat SH_WDG_CNT) && s.live then
    let s := { s with sh := { s.sh with warned := true, warnPend := s.flag SH_WDG_CTRL fSH_WDG_CTRL_WARNV } }
    (s.raise 51 0 0).record 51 0x52 0 0 0 0
  else s

/-- The count reaches TIMEOUT: reset source WDG. -/
def State.wdgTimeout (s : State) : State :=
  if s.wdgOn && !s.sh.bitten && decide (s.fld SH_WDG_TIME fSH_WDG_TIME_TIMEOUT ≤ s.nat SH_WDG_CNT) && s.live then
    State.assertReset { s with sh.bitten := true } 2 none
  else s

/-- A write of SH_WDG_KICK: 0x6E, then 0x91 within 256 fc, clears the count. -/
def State.wdgKick (s : State) (v : Nat) : State :=
  match s.sh.kick with
  | some f =>
    let s := { s with sh.kick := none }
    if v = 0x91 ∧ s.fc ≤ f + 256 then
      State.setNat { s with sh := { s.sh with wdgAcc := 0, warned := false, warnPend := false, bitten := false } } SH_WDG_CNT 0
    else s.inc SH_WDG_KICKERR
  | none => if v = 0x6E then { s with sh.kick := some s.fc } else s.inc SH_WDG_KICKERR

/-- SH_CTRL written: LBINV and BTBINV invalidate; OENA and MPUEN_I are kept under LOCK. -/
def State.lbInvalidate (s : State) : State := { s with sh.lines := [] }
def State.btbInvalidate (s : State) : State := { s with sh.btb := [] }

end Sys2Proof.Machine
end

