-- ==== Sys2Proof/Machine/Debug.lean ====
section
/-!
DEFINITION. Debug and run control beside the interfaces (20_debug.md R499 to R514): access levels and unlock, engine halt,
freeze, whole-block halt, trace.
-/

namespace Sys2Proof.Machine

/-- DB_STAT.LEVEL: 0 locked, 1 Outer, 2 Inner; DB_STAT.MODE. -/
def State.dbLevel (s : State) : Nat := s.fld DB_STAT fDB_STAT_LEVEL
def State.dbMode (s : State) : Nat := s.fld DB_STAT fDB_STAT_MODE
def State.dbRefuse (s : State) : State := s.inc DB_REFUSED

/-- May engines be halted and units frozen at this level (R502)? -/
def State.mayHalt (s : State) : Bool := s.dbLevel == 2 || (s.dbLevel == 1 && s.flag DB_POLICY fDB_POLICY_OUTERHALT)

/-! ### Freeze (R509) -/

/-- Does the freeze request hold? -/
def State.freezeOn (s : State) : Bool :=
  s.flag DB_FREEZE fDB_FREEZE_REQ || (s.flag DB_CTRL fDB_CTRL_FRZONHALT && s.engs.any (fun e => e.2.halted))

/-- Does the request name kind `k` and flock `f`? -/
def State.freezeNames (s : State) (k f : Nat) : Bool :=
  bitOf (s.fld DB_FREEZE fDB_FREEZE_KIND) k && bitOf (s.fld DB_FREEZE fDB_FREEZE_FLOCKS) f

/-- A Chanter is named by the flock of any enabled channel of it (log entry 29). -/
def State.freezeChanter (s : State) (n : Nat) : Bool :=
  (firstIdx (fun k => s.flag (CH_CCFG n k) fCH_CCFG_EN && s.freezeNames 1 (s.fld (CH_CCFG n k) fCH_CCFG_FLOCK)) 16).isSome

/-- The units follow the freeze request. -/
def State.freezeSync (s : State) : State :=
  let on := s.freezeOn
  let s := s.setFlag DB_STAT fDB_STAT_FROZEN on
  let s := forN (fun g s =>
    if on && s.freezeNames 0 (s.fld (PW_MAP g) fPW_MAP_FLOCK) then s.genFreeze g
    else if (s.gen g).freeze || s.flag (PW_STAT g) fPW_STAT_FROZEN then s.genUnfreeze g else s) 52 s
  let s := forN (fun n s => if on && s.freezeChanter n then s.chFreeze n else s.chUnfreeze n) 36 s
  forN (fun x s => if on && s.freezeNames 2 (s.fld (PF_MAP x) fPF_MAP_FLOCK) then s.pfFreeze x else s.pfUnfreeze x) 10 s

/-! ### Engine halt (R508) -/

/-- The program counter of the task an engine runs, zero when it runs none. -/
def State.engPc (s : State) (p : Nat) : Nat :=
  match s.running p with
  | some k => (s.bank p (s.slotPri p k)).pc.toNat
  | none => 0

/-- The engine's bit in DB_EHALTED. -/
def State.setHalted (s : State) (p : Nat) (b : Bool) : State :=
  s.setNat (DB_EHALTED (p / 32)) (withBits (s.nat (DB_EHALTED (p / 32))) (p % 32) 1 (b2n b))

/-- The engine halts: EV960 with cause 4 and record 0x093. -/
def State.haltNow (s : State) (p op : Nat) : State :=
  let pc := s.engPc p
  let s := s.setEng p { s.eng p with halted := true, haltReq := false, step := false }
  let s := (s.setHalted p true).raise 960 (4 + p * 256) pc
  (s.record 960 0x93 p op pc 0).freezeSync

/-- Is the engine in a Drove past PRELOAD? -/
def State.inDrove (s : State) (p : Nat) : Bool :=
  s.dvKind == 0 && (s.dvPhase == 2 || s.dvPhase == 3) && (s.dvSrc == p || s.dvDst == p)

/-- DB_ECMD HALT. -/
def State.engHalt (s : State) (p : Nat) : State :=
  let st := s.leState p
  if 72 ≤ p ∨ st = 0 ∨ st = 3 ∨ s.inDrove p = true then s.dbRefuse
  else if (s.eng p).halted then s
  else if (s.running p).isNone then s.haltNow p 1
  else s.setEng p { s.eng p with haltReq := true }

/-- The halt is taken at a safe point: an instruction boundary, a wait of R150, or a safe point of a suspended routine. -/
def State.haltTaken (s : State) (p : Nat) : State :=
  if (s.eng p).haltReq ∧ s.live = true then
    match s.running p with
    | none => s.haltNow p (if (s.eng p).step then 3 else 1)
    | some k =>
      if (s.bank p (s.slotPri p k)).micro.mid = 2 then s else (s.suspend p k).haltNow p (if (s.eng p).step then 3 else 1)
  else s

/-- DB_ECMD RESUME: the DLACT abandonments that waited take effect. -/
def State.engResume (s : State) (p : Nat) : State :=
  if 72 ≤ p ∨ (s.eng p).halted = false then s.dbRefuse
  else
    let pc := s.engPc p
    let s := (s.setEng p { s.eng p with halted := false, haltReq := false, step := false }).setHalted p false
    let s := s.record 960 0x93 p 2 pc 0
    let s := forN (fun k s =>
      if (s.slot p k).missed && s.flag (LE_TASK_CFG p k) fLE_TASK_CFG_DLACT && (s.slotState p k == 3 || s.slotState p k == 4)
      then s.abandon p k else s) 8 s
    let s := match s.running p with
      | some k => s.resumeMark p k
      | none => s
    s.freezeSync

/-- DB_ECMD STEP: the engine runs to its next safe point. -/
def State.engStep (s : State) (p : Nat) : State :=
  if 72 ≤ p ∨ (s.eng p).halted = false then s.dbRefuse
  else
    let s := (s.setEng p { s.eng p with halted := false, haltReq := false, step := true }).setHalted p false
    let s := match s.running p with
      | some k => s.resumeMark p k
      | none => s
    s.freezeSync

/-- An instruction of a stepped engine has ended: a halt is due at this safe point. -/
def State.stepped (s : State) (p : Nat) : State :=
  if (s.eng p).step then s.setEng p { s.eng p with haltReq := true } else s

/-- A write of DB_ECMD. -/
def State.ecmdWrite (s : State) (v : Word) : State :=
  let p := bitsOf v.toNat 0 7
  if !s.mayHalt then s.dbRefuse
  else match bitsOf v.toNat 30 2 with
    | 1 => s.engHalt p
    | 2 => s.engResume p
    | 3 => s.engStep p
    | _ => s

/-- BRK on an engine (R507): a NOP, EV960, or EV960 and a halt at its end. -/
def State.engBrk (s : State) (p pc : Nat) : State :=
  match s.fld DB_POLICY fDB_POLICY_EBRK with
  | 0 => s
  | 1 => s.raise 960 (1 + p * 256) pc
  | 2 => (s.raise 960 (1 + p * 256) pc).setEng p { (s.raise 960 (1 + p * 256) pc).eng p with haltReq := true }
  | _ => s

/-! ### Whole-block halt (R509) -/

/-- A write of DB_BHALT.REQ = 1. -/
def State.blockHalt (s : State) : State :=
  let st := s.fld RC_BOOT fRC_BOOT_STAGE
  let ok := (s.dbLevel == 2 || s.dbMode == 0)
    && (s.db.hold || s.flag DB_POLICY fDB_POLICY_BLKHALT || (decide (1 ≤ st) && decide (st ≤ 8) && st != 7))
  if !ok || s.pw.bhalt then s.dbRefuse
  else
    let s := (s.setFlag DB_STAT fDB_STAT_BHALT true).setFlag DB_BHALT fDB_BHALT_REQ true
    let s := s.record 963 0x92 0 0 0 0
    let s := { s with pw.bhalt := true }
    if s.pw.fast then s.stopFast else s

/-! ### Access levels (R499 to R501) -/

/-- LOCK. -/
def State.dbLock (s : State) : State :=
  if s.dbLevel = 0 then s else (s.setFld DB_STAT fDB_STAT_LEVEL 0).raise 961 0 0

/-- Are unlocks closed: DBG_MODE 2 or 3, or the lockout? -/
def State.dbClosed (s : State) : Bool := decide (2 ≤ s.dbMode) || s.flag DB_STAT fDB_STAT_LOCKOUT

/-- CHALLENGE: an ephemeral public key and a nonce, 80 bytes of free values. -/
def State.dbChallenge (s : State) : List Byte × State :=
  let bs := (List.range 5).flatMap (fun i => natBytes 16 (Config.free (s.free + i)).toNat)
  (bs, { s with free := s.free + 5, db := { s.db with chal := true, eph := bs, cert := [], proof := none } })

/-- Four bytes of a certificate, and eight. -/
def certNat (c : List Byte) (off n : Nat) : Nat := bytesNatOf ((c.drop off).take n)

/-- The first failing check in the order of R500, 0 when all hold. The digest and the verdicts of ECDSA and HMAC are left
open (log entry 1). -/
def State.unlockCheck (s : State) : Nat :=
  let c := s.db.cert
  let m := s.db.proof.getD []
  if (Config.digest 0 ((c.drop 0x54).take 64)).toNat ≠ s.fuse 384 256 then 1
  else if Config.verdict 0 c = false then 2
  else if certNat c 8 4 < (s.fuses.filter (fun e => decide (642 ≤ e.1) && decide (e.1 < 706))).length then 3
  else if certNat c 0xC 8 ≠ s.fuse 706 64 ∧ certNat c 0xC 8 ≠ 2 ^ 64 - 1 then 4
  else if certNat c 4 1 ≠ 1 ∧ certNat c 4 1 ≠ 2 then 5
  else if s.db.chal = false ∨ Config.verdict 1 (s.db.eph ++ c ++ m) = false then 6
  else 0

/-- The certificate unit finishes: the level is set, or the failure is counted; 16 failures in a row lock out. -/
def State.unlockComplete (s : State) : State :=
  if s.db.proof.isNone then s
  else
    let k := s.unlockCheck
    let c := s.db.cert
    if k = 0 then
      let l := certNat c 4 1
      let s := (s.setFld DB_STAT fDB_STAT_LEVEL l).setFld DB_STAT fDB_STAT_IFACE s.db.iface
      let s := (s.raise 961 0 0).record 961 0x90 l s.db.iface (certNat c 8 4) 0
      { s with db := { s.db with chal := false, eph := [], cert := [], proof := none, fails := 0 } }
    else
      let s := ((s.inc DB_UNLOCK_FAIL).raise 962 0 0).record 962 0x91 k 0 0 0
      let n := s.db.fails + 1
      let s := { s with db := { s.db with proof := none, fails := n } }
      if n = 16 then s.setFlag DB_STAT fDB_STAT_LOCKOUT true else s

/-! ### Trace (R512) -/

/-- Where the trace ring stands in the memory of the state. -/
def traceBase : Nat := 2 ^ 34

/-- A microword with TRACE 1 or 2 executed by engine p; at most 4 entries of one fc. -/
def State.trace (s : State) (p ua code res : Nat) : State :=
  if bitOf (s.nat (DB_TRACE_EN (p / 32))) (p % 32) then
    let n := if s.db.traceFc = s.fc then s.db.traceN else 0
    if 4 ≤ n then
      let s1 := (s.inc DB_TRACE_LOST).setFlag DB_STAT fDB_STAT_TLOST true
      if s.flag DB_STAT fDB_STAT_TLOST then s1 else s1.raise 964 0 0
    else
      let i := s.fld DB_TRACE_WIDX fDB_TRACE_WIDX_INDEX
      let s := s.setBytes (traceBase + 16 * i) 8 s.now.toNat
      let s := s.setBytes (traceBase + 16 * i + 8) 4 (ua % 2 ^ 13 + p * 2 ^ 16 + code * 2 ^ 24)
      let s := s.setBytes (traceBase + 16 * i + 12) 4 (if code = 2 then res else 0)
      let s := s.setFld DB_TRACE_WIDX fDB_TRACE_WIDX_INDEX (i + 1)
      { s with db := { s.db with traceFc := s.fc, traceN := n + 1 } }
  else s

end Sys2Proof.Machine
end

