-- ==== Sys2Proof/Machine/RegWrite.lean ====
section
/-!
DEFINITION. Register writes (00_scope.md R6 to R8 and R544, 01_architecture.md R24 to R26, 14_flocks_and_register_views.md
R376 to R384): who may write which field, the merge of the written fields, and what each register does with a write.
-/

namespace Sys2Proof.Machine

/-! ### Masters (R26, R376) -/

/-- A master of an access: its view (0 none, 1 flock view, 2 privileged view, 3 Inner authority), its code in record 0x040
(R373; 3 for the HUP position), the flock of the flock view, the incarnation carried, and for the unit-register path the engine. -/
structure Master where
  lvl : Nat
  who : Nat
  flock : Nat := 0
  inc : Nat := 0
  pe : Option Nat := none
deriving DecidableEq, Repr

/-- The master that a port stands for in a state. -/
def State.master (s : State) : Port → Master
  | .shepherd => { lvl := if s.shOuter then 2 else 3, who := 0 }
  | .dam => { lvl := if s.dbLevel = 0 then 0 else s.dbLevel + 1, who := 1 }
  | .hpp => { lvl := 2, who := 2 }
  | .hup f => { lvl := 1, who := 3, flock := f.val, inc := s.flockInc f.val }
  | .urp p => { lvl := 1, who := 3, flock := s.leFlock p.val, inc := s.flockInc (s.leFlock p.val), pe := some p.val }

/-- The source code and engine of R546 that a duty write of this master carries. -/
def Master.dutySrc (m : Master) : Nat := if m.pe.isSome then 1 else 2
def Master.dutyPe (m : Master) : Nat := m.pe.getD 0

/-- The incarnation that a write of this master carries to a unit of flock f: the engine's for the unit-register path, the
present one otherwise (R238, R284). -/
def State.incOf (s : State) (m : Master) (f : Nat) : Nat := if m.pe.isSome then m.inc else s.flockInc f

/-! ### Which fields a write reaches (R6, R376 to R378) -/

/-- The bytes of a 32-bit word that byte enables name. -/
def beMask (be : Nat) : Word := BitVec.ofNat 32
  (b2n (bitOf be 0) * 0xFF + b2n (bitOf be 1) * 0xFF00 + b2n (bitOf be 2) * 0xFF0000 + b2n (bitOf be 3) * 0xFF000000)

def FieldDesc.mask (f : FieldDesc) : Word := BitVec.ofNat 32 (fieldMask f.hi f.lo)

/-- Is the field writable by this master? `eng` for a register of an LE_ block (R95); `locked` when its LOCK bit held 1. -/
def FieldDesc.writable (f : FieldDesc) (r : RegDesc) (m : Master) (eng locked : Bool) : Bool :=
  match f.acc with
  | .RO => false
  | .RWI => m.lvl == 3 && (!r.dam || m.who == 1)
  | .RWL => decide (2 ≤ m.lvl) && (!r.inner || m.lvl == 3) && !locked
  | _ =>
    if r.dam then m.who == 1 && decide (2 ≤ m.lvl)
    else if r.inner then m.lvl == 3
    else if m.lvl == 1 then r.flockW
    else decide (2 ≤ m.lvl) && (!eng || m.lvl == 3 || m.who == 2)

/-- The LOCK that stands over a register: its own, or the one that its table names (R193, R414). -/
def State.lockOf (s : State) (off : Nat) (t : RegAt) : Bool :=
  if off = FLK_GCFG then s.flag FLK_GCFG fFLK_GCFG_LOCK
  else if off = SH_CTRL then s.flag SH_CTRL fSH_CTRL_LOCK
  else if off = SH_WDG_CTRL ∨ off = SH_WDG_TIME then s.flag SH_WDG_CTRL fSH_WDG_CTRL_LOCK
  else if SH_PU 0 ≤ off ∧ off < SH_PU 16 then s.flag (SH_PU_X t.elem) fSH_PU_X_LOCK
  else if 0x400000 ≤ off ∧ off < 0x800000 then s.flag (CS_CTRL t.inst) fCS_CTRL_LOCK
  else false

/-- Is the register in a mailbox, and which part (R415, R416): 0 no, 1 registers of R434, 2 the request area, 3 the rest. -/
def mboxPart (off : Nat) : Nat :=
  if 0x40000 ≤ off ∧ off < 0x50000 then
    (let d := off % 0x800
     if d = 0 then 1 else if d < 0x40 then 3 else if d < 0x400 then 2 else 3)
  else 0

/-- Does the mailbox at an offset belong to this master (R415)? -/
def mboxOwner (m : Master) (off : Nat) : Bool :=
  match mbKind ((off - 0x40000) / 0x800) with
  | .privileged => m.who == 2
  | .flock f => m.who == 3 && m.flock == f && m.pe.isNone
  | .peer => false
  | .debug => m.who == 1 && decide (2 ≤ m.lvl)

/-- The fields that a write of master `m` reaches. -/
def State.writableFields (s : State) (m : Master) (off : Nat) (t : RegAt) : List FieldDesc :=
  let part := mboxPart off
  if part = 1 ∨ part = 2 then
    (if mboxOwner m off && (part == 1 || s.mbState ((off - 0x40000) / 0x800) != 1) then t.desc.fields else [])
  else
    let locked := s.lockOf off t
    let shut := locked && decide (SH_PU 0 ≤ off) && decide (off < SH_PU 16)
    let eng := decide (0x410000 ≤ off) && decide (off < 0x800000) && decide (off % 0x80000 ≥ 0x10000)
    t.desc.fields.filter (fun f => f.writable t.desc m eng locked && !(shut && f.acc == .RWI))

/-- Does the privileged view write here (R377)? With HPPW = 0 only the mailboxes MB0 to MB3. What R473 and R502 grant the debug
access master at Outer authority (RC_SWRST, its mailboxes, the registers that it alone writes) does not depend on HPPW. -/
def State.viewOpen (s : State) (m : Master) (off : Nat) (dam : Bool) : Bool :=
  m.lvl != 2 || s.flag FLK_GCFG fFLK_GCFG_HPPW || (decide (0x40000 ≤ off) && decide (off < 0x42000))
    || (m.who == 1 && (off == RC_SWRST || dam || (decide (0x4E000 ≤ off) && decide (off < 0x50000))))

/-- Merge the written fields into the old value: RW fields take the enabled bytes, W1C and W1S bits clear and set. A W1C bit
that a unit set in the same fc stays, and a count made in it reads 1: `hot` (R7). -/
def mergeFields (fs : List FieldDesc) (hot old d mask : Word) : Word :=
  fs.foldl (fun v f =>
    let k := f.mask &&& mask
    match f.acc with
    | .W1C => (v &&& ~~~(d &&& k)) ||| (d &&& k &&& hot)
    | .W1S => v ||| (d &&& k)
    | _ => (v &&& ~~~k) ||| (d &&& k)) old

/-- The bits of a register's WO fields, which it does not keep. -/
def woBits (r : RegDesc) : Word := r.fields.foldl (fun a f => if f.acc = .WO then a ||| f.mask else a) 0

/-- The bits of a register that some field has. -/
def fieldBits (r : RegDesc) : Word := r.fields.foldl (fun a f => a ||| f.mask) 0

/-! ### What a register does with a write

`v` is the merged value, WO fields included; `st` is what the register keeps; `i` and `k` are the instance and the element;
`d` is the offset of the register in its block. -/

/-- A bit, and a field, of the merged value. -/
def vbit (v : Word) (i : Nat) : Bool := bitOf v.toNat i
def vfld (v : Word) (lo n : Nat) : Nat := bitsOf v.toNat lo n

/-- RC_ (R473, R480). -/
def State.rcWrite (s : State) (m : Master) (off : Nat) (v st : Word) : State :=
  if off = RC_SWRST then
    (if vfld v 16 16 = 0xA5C3 ∧ m.who = 2 then s.assertReset 4 none
     else if vfld v 16 16 = 0xA5C3 ∧ m.who = 1 then s.assertReset 5 none
     else s.inc RC_RSVD_WRITES)
  else if off = RC_BOOT then (if vbit v 31 then s.hostGo s.pw.image else s)
  else s.setReg off st

/-- EC_TARGET (R352, R366, R371): refused while ACTIVE, and while PENDING when the flock changes. A new target of 0 or 21
clears PENDING. -/
def State.ecTargetWrite (s : State) (n : Nat) (v : Word) : State :=
  let bad := decide (22 ≤ vfld v 0 5)
  let v := if bad then BitVec.ofNat 32 (withBits v.toNat 0 5 21) else v
  let s := if bad then s.inc RC_RSVD_WRITES else s
  let pend := s.flag (EC_SSTAT n) fEC_SSTAT_PENDING
  if v = s.reg (EC_TARGET n) then s
  else if s.flag (EC_SSTAT n) fEC_SSTAT_ACTIVE || (pend && vfld v 24 4 != s.fld (EC_TARGET n) fEC_TARGET_FLOCK) then
    s.inc EC_CFG_REFUSED
  else
    let s := s.setReg (EC_TARGET n) v
    if pend && (vfld v 0 5 == 0 || vfld v 0 5 == 21) then
      (s.setFlag (EC_SSTAT n) fEC_SSTAT_PENDING false).setFld (EC_SSTAT n) fEC_SSTAT_MERGED 0
    else s

/-- TB_INCR_INT: a value below 3 is stored as 3 and counted (R60). -/
def State.incrIntWrite (s : State) (v : Word) : State :=
  if vfld v 0 8 < 3 then (s.setNat TB_INCR_INT 3).inc RC_RSVD_WRITES else s.setNat TB_INCR_INT (vfld v 0 8)

/-- JN_HSIZE: 10 to 24; another value stores 10 and is counted (the JN_ registers of 13_events_and_journal.md). -/
def State.hsizeWrite (s : State) (v : Word) : State :=
  if 10 ≤ vfld v 0 5 ∧ vfld v 0 5 ≤ 24 then s.setNat JN_HSIZE (vfld v 0 5) else (s.setNat JN_HSIZE 10).inc RC_RSVD_WRITES

/-- JN_CTRL (R363, R364). -/
def State.jnCtrlWrite (s : State) (v : Word) : State :=
  let s := if vbit v 0 && !s.flag JN_CTRL fJN_CTRL_DEN then { s with jn.per := s.now } else s
  let s := s.setFlag JN_CTRL fJN_CTRL_DEN (vbit v 0)
  let s := if vbit v 2 then s.drainRestart else s
  if vbit v 1 then s.burstStart else s

/-- FLK_SPOWN (R371): a change of the owner of an enabled port is refused. -/
def State.spownWrite (s : State) (i : Nat) (v : Word) : State :=
  let busy := (firstIdx (fun j => s.flag (SI_CFG (8 * i + j)) fSI_CFG_EN
    && vfld v (4 * j) 4 != bitsOf (s.nat (FLK_SPOWN i)) (4 * j) 4) 8).isSome
  if busy then s.inc FLK_CFG_REFUSED else s.setReg (FLK_SPOWN i) v

/-- The kind of unit and its number that an RS_HURDLE register names. -/
def hurdleUnit (off : Nat) : Nat × Nat :=
  if off < RS_HURDLE_W 0 then (0, (off - RS_HURDLE_E 0) / 8)
  else if off < RS_HURDLE_T 0 then (1, (off - RS_HURDLE_W 0) / 8)
  else if off < RS_HURDLE_F 0 then (2, (off - RS_HURDLE_T 0) / 8)
  else if off < RS_HURDLE_C 0 then (3, (off - RS_HURDLE_F 0) / 8)
  else (4, (off - RS_HURDLE_C 0) / 8)

/-- RS_ (R453, R456, R460, R462). -/
def State.rsWrite (s : State) (off : Nat) (v st : Word) : State :=
  if off = RS_DV_CTRL then s.dvCtrlWrite v
  else if off = RS_SC_CTRL then s.scCtrlWrite v
  else if off = RS_RO_CTRL then s.roCtrlWrite v
  else if RS_HURDLE_E 0 ≤ off then s.hurdleWrite (hurdleUnit off).1 (hurdleUnit off).2 v
  else s.setReg off st

/-- MI_ of a group (R443, R447, R449). -/
def State.miGroupWrite (s : State) (g d k off : Nat) (v st : Word) : State :=
  match d with
  | 0x0 => s.miGcfgWrite g v
  | 0x8 => if vbit v 0 then s.clearRowLog g else s
  | 0x40 => s.remapWrite g k v
  | 0x64 => let s := s.setReg off st
            if vbit v 31 then s.sweepGo g else s
  | _ => s.setReg off st

/-- DB_ (R502, R507 to R510, R514). -/
def State.dbWrite (s : State) (off : Nat) (v st : Word) : State :=
  if off = DB_POLICY then
    (if vfld v 0 2 = 3 then (s.setNat off (withBits v.toNat 0 2 0)).inc RC_RSVD_WRITES else s.setReg off st)
  else if off = DB_CTRL then (s.setReg off st).freezeSync
  else if off = DB_ECMD then s.ecmdWrite v
  else if off = DB_FREEZE then (if s.mayHalt then (s.setReg off st).freezeSync else s.dbRefuse)
  else if off = DB_BHALT then
    let s := if vbit v 1 then (if s.dbLevel = 2 then s.holdRelease s.pw.image else s.dbRefuse) else s
    if vbit v 0 && !s.flag DB_STAT fDB_STAT_BHALT then s.blockHalt
    else if !vbit v 0 && s.flag DB_STAT fDB_STAT_BHALT then
      (if s.dbLevel == 2 || s.dbMode == 0 then s.blockRelease else s.dbRefuse)
    else s
  else s.setReg off st

/-- SH_ (R410 to R414). -/
def State.shWrite (s : State) (off : Nat) (v st : Word) : State :=
  if off = SH_CTRL then
    let s := s.setReg off st
    let s := if vbit v 4 then s.lbInvalidate else s
    if vbit v 3 then s.btbInvalidate else s
  else if off = SH_OBUDGET then s.setNat off (min 1024 (vfld v 0 11))
  else if off = SH_WDG_KICK then s.wdgKick (vfld v 0 8)
  else s.setReg off st

/-- QF_ of a queue (R322, R342). -/
def State.qdWrite (s : State) (n d off : Nat) (v st : Word) : State :=
  match d with
  | 0x0 => s.qcfgWrite n v
  | 0x4 => s.qbaseWrite n v
  | 0xC => s.qwmWrite n st
  | _ => s.setReg off st

/-- QF_ globals and the register operations (R336, R345). -/
def State.qgWrite (s : State) (off : Nat) (v st : Word) : State :=
  if off = QF_SEED then
    (if vbit v 31 then
       (if s.flag QF_SEED_STAT fQF_SEED_STAT_BUSY then s.inc QF_CFG_REFUSED else (s.setReg off st).seedGo)
     else s.setReg off st)
  else s.setReg off st

/-- The master of a set of queue registers: set 0 is HPP's, set 1 the debug access master's. -/
def State.qhWrite (s : State) (i d off : Nat) (v st : Word) : State :=
  if d = 0x40 then
    (match vfld v 30 2 with
     | 1 => s.hop i (vfld v 0 12) .put
     | 2 => s.hop i (vfld v 0 12) .get
     | 3 => s.hop i (vfld v 0 12) .lvl
     | _ => s)
  else s.setReg off st

/-- The flock that owns a sample port. -/
def State.portOwner (s : State) (n : Nat) : Nat := bitsOf (s.nat (FLK_SPOWN (n / 8))) (4 * (n % 8)) 4

/-- SI_ of a port (R199, R203, R375). -/
def State.spWrite (s : State) (n d off : Nat) (v st : Word) : State :=
  match d with
  | 0x0 =>
    if vbit v 0 && !s.flag (SI_CFG n) fSI_CFG_EN && s.notClean (s.portOwner n) then s.inc FLK_CFG_REFUSED
    else s.siCfgWrite n v
  | 0x14 => s.siRouteWrite n v
  | _ => (s.siKeep off).setReg off st

/-- TR_ of an input (R205, R216, R219). -/
def State.tiWrite (s : State) (n d off : Nat) (v st d0 : Word) : State :=
  match d with
  | 0x4 =>
    let s := s.setReg off (BitVec.ofNat 32 (withBits st.toNat 0 1 (b2n (s.tripLatch n))))
    if vbit d0 0 then s.latchClear n else s
  | 0x18 => let s := s.setReg off st
            if vbit v 31 then s.inject n else s
  | _ => ((s.setReg off st).tripPin n none).groupsFollow s.now false

/-- TR_ARM (R215). -/
def State.trgWrite (s : State) (m : Master) (off : Nat) (v st : Word) : State :=
  if off = TR_ARM then s.trArm (vfld v 0 3) (vfld v 16 5) (vfld v 24 8) (m.who == 1) else s.setReg off st

/-- PW_ of a generator (R227 to R254). -/
def State.pwWrite (s : State) (m : Master) (g d k off : Nat) (v st : Word) : State :=
  let inc := s.incOf m (s.fld (PW_MAP g) fPW_MAP_FLOCK)
  match d with
  | 0x0 => s.pwMapWrite g v
  | 0x4 => s.pwCfgWrite g v
  | 0x8 => (match vfld v 0 2 with
            | 1 => s.genStartCmd g
            | 2 => s.genStartTime g
            | 3 => s.genStop g
            | _ => s)
  | 0xC => s.pwPeriodWrite g m.dutySrc v
  | 0x20 => s.regDuty g k v false 1 0 m.dutySrc m.dutyPe inc
  | 0x98 => s.deadTimeWrite g off st
  | 0x9C => s.deadTimeWrite g off st
  | 0x8C => let s := s.setReg off st
            if vbit v 31 then s.dwGo g m.dutySrc m.dutyPe inc else s
  | _ => s.setReg off st

/-- A PW_ register write, delivered to a shadow as well; PW_MAP names the one physical generator (R460). -/
def State.pwPair (s : State) (m : Master) (g d k off : Nat) (v st : Word) : State :=
  if d = 0 then s.pwWrite m g d k off v st
  else s.toGen g (fun h s => s.pwWrite m h d k (off - PW_MAP g + PW_MAP h) v st)

/-- PHG_ of a phase group (R248, R257). -/
def State.phWrite (s : State) (j d off : Nat) (v st : Word) : State :=
  match d with
  | 0x0 => s.phgCfgWrite j v
  | 0x4 => s.phgPeriodWrite j v
  | 0x8 => s.phgTimeWrite off j v
  | 0xC => s.phgTimeWrite off j v
  | _ => s.setReg off st

/-- TM_ of a timer (R258 to R269). -/
def State.tmWrite (s : State) (t d k off : Nat) (v st : Word) : State :=
  match d with
  | 0x0 => s.tmMapWrite t v
  | 0x4 => s.tmCfgWrite t v
  | 0x8 => s.tmCtrlWrite t st (vfld v 0 2)
  | 0x20 => s.tmCmpWrite t k v
  | 0x48 => s.tmCapCfgWrite t k v
  | 0x70 => s.capSw t (vfld v 0 2)
  | _ => s.setReg off st

/-- TMG_CTRL.GO = 3: refused in every member (R272). -/
def State.tmgWrite (s : State) (d k off : Nat) (v st : Word) : State :=
  match d with
  | 0x100 => s.tmgCfgWrite k v
  | 0x114 => (match vfld v 0 2 with
              | 1 => s.tmgGo k
              | 2 => s.tmgGoTime k
              | 3 => s.tmgBad k
              | _ => s)
  | _ => s.setReg off st

/-- PF_ of a feedback unit (R273 to R289). -/
def State.pfWrite (s : State) (m : Master) (x d k off : Nat) (v st : Word) : State :=
  match d with
  | 0x0 => s.pfMapWrite x v
  | 0x4 => s.pfCfgWrite x v
  | 0x8 => s.pfCtrlWrite x (vfld v 0 2)
  | 0x10 => s.pfThrWrite x v
  | 0x2C => s.pfGainWrite x k v
  | 0x40 => s.pfPosWrite x v
  | 0x98 => s.measCommit x v (s.reg64 (PF_MEAS_STAMP_LO x) (PF_MEAS_STAMP_HI x)) false
              (s.incOf m (s.fld (PF_MAP x) fPF_MAP_FLOCK))
  | _ => s.setReg off st

/-- CH_ of a Chanter (R291 to R316). -/
def State.cpWrite (s : State) (n d k off : Nat) (v st : Word) : State :=
  match d with
  | 0x0 => s.chMapWrite n v
  | 0x4 => (match vfld v 0 2 with
            | 1 => s.chCmd n .start
            | 2 => s.chCmd n .stop
            | 3 => s.inc (CH_CFG_REFUSED n)
            | _ => s)
  | 0x8 => s.chCfgWrite n v
  | 0xC => s.chDivWrite n v
  | 0x10 => s.chDivphWrite n v
  | 0x100 => s.ccfgWrite n k v
  | 0x104 => (match vfld v 0 2 with
              | 1 => s.chCmd n (.restart k)
              | 2 => s.chCmd n (.halt k)
              | _ => s)
  | 0x114 => s.txQueue n k 2 [(v, false)]
  | 0x128 => s.rxdstWrite n k v
  | 0x12C => s.chFrmWrite n k v
  | 0x800 => s.cmemWrite n off v
  | 0x804 => s.cmemWrite n off v
  | _ => s.setReg off st

/-- CH_ shared registers (R310, R319). -/
def State.chgWrite (s : State) (off : Nat) (v st : Word) : State :=
  if off = CH_SYNC_CTRL then s.syncCtrlWrite v
  else if CH_PIN 0 ≤ off ∧ off < CH_PIN 192 then s.pinWrite off ((off - CH_PIN 0) / 4) st
  else s.setReg off st

/-- CL_ of a cluster. -/
def State.clWrite (s : State) (c d k off : Nat) (v st : Word) : State :=
  if d = 0x100 then s.qpinWrite c k v else s.setReg off st

/-- LE_ of an engine (R62 to R95). `d0` holds the bits written. -/
def State.leWrite (s : State) (p d k off : Nat) (v st : Word) : State :=
  match d with
  | 0x0 => s.leMapWrite p v
  | 0x4 => s.leCtrlWrite p v
  | 0xC => s.leCmd p (vfld v 4 4) (vfld v 0 3)
  | 0x100 => s.taskCfgWrite p k v
  | 0x104 => s.taskFieldWrite p k off v
  | 0x108 => s.taskFieldWrite p k off v
  | 0x10C => s.taskFieldWrite p k off v
  | 0x110 => s.taskTimeWrite p k off v
  | 0x114 => s.taskTimeWrite p k off v
  | 0x118 => s.taskFieldWrite p k off v
  | _ => s.setReg off st

/-- CS_ of an engine (R185, R193). -/
def State.csRegWrite (s : State) (p d off : Nat) (v st : Word) : State :=
  match d with
  | 0x10 => s.csWaddrWrite p v
  | 0x40 => s.csRaddrWrite p v
  | _ => s.setReg off st

/-- The effect of a write of the merged value `v` at the register `t`; `d0` is the data written. -/
def State.regEffect (s : State) (m : Master) (off : Nat) (t : RegAt) (v st d0 : Word) : State :=
  let d := t.desc.off
  let i := t.inst
  let k := t.elem
  if off < 0x100 then s
  else if off < 0x8000 then s.rcWrite m off v st
  else if off < 0x10000 then
    (if off = PM_CTRL then (s.pmCtrlWrite v).wakeCheck else if off = PM_FSDATA then s.fsWrite v else s.setReg off st)
  else if off < 0x18000 then
    (
      if off = TB_CTRL then s.tbCtrlWrite (if m.lvl = 3 then some (vbit v 3) else none) (vbit v 2) (vbit v 1)
      else if off = TB_INCR_INT then s.incrIntWrite v
      else s.setReg off st)
  else if off < 0x20000 then (if off = TL_CTRL then s.tlCtrlWrite v else s.setReg off st)
  else if off < 0x24000 then (if d = 0 then s.ecTargetWrite i v else s.setReg off st)
  else if off < 0x2C000 then s.setReg off st
  else if off < 0x30000 then
    (if off = EC_EOI then s.eoi (vfld v 0 10)
     else if off = EC_SW_RAISE then s.swRaise (vfld v 0 10)
     else if off = EC_WAKE_EN then (s.setReg off st).wakeCheck
     else s.setReg off st)
  else if off < 0x40000 then (
      if off = JN_CTRL then s.jnCtrlWrite v
      else if off = JN_HSIZE then s.hsizeWrite v
      else s.setReg off st)
  else if off < 0x50000 then
    (if d = 0 then (if vbit v 0 then s.mbRing i (if m.who = 1 then m.lvl - 1 else 0) else s) else s.setReg off st)
  else if off < 0x54000 then
    (if d = 0 then s.flkCtrlWrite i m.who (if m.lvl = 3 then some (vbit v 0) else none) (vbit v 1) else s.setReg off st)
  else if off < 0x60000 then (if d = 0x40 then s.spownWrite k v else s.setReg off st)
  else if off < 0x70000 then s.rsWrite off v st
  else if off < 0x71000 then s.setReg off st
  else if off < 0x80000 then s.miGroupWrite i d k off v st
  else if off < 0x90000 then s.dbWrite off v st
  else if off < 0x100000 then s.shWrite off v st
  else if off < 0x140000 then s.qdWrite i d off v st
  else if off < 0x150000 then
    (if d = 0 then
       (let s := s.wmnClear i st (vfld d0 0 2)
        if vbit v 31 = true then s.clrCnt i else s)
     else s.setReg off st)
  else if off < 0x180100 then s.qgWrite off v st
  else if off < 0x200000 then s.qhWrite i d off v st
  else if off < 0x208000 then s.spWrite i d off v st
  else if off < 0x210000 then (if off = SI_SOC_FIRE then s.socSoftware (vfld v 0 6) else s.setReg off st)
  else if s.arLocked off && (off < 0x218000) then (if st = s.reg off then s else s.inc TR_ARM_REFUSED)
  else if off < 0x212000 then s.tiWrite i d off v st d0
  else if off < 0x214000 then (s.setReg off st).groupsFollow s.now false
  else if off < 0x218000 then s.setReg off st
  else if off < 0x220000 then s.trgWrite m off v st
  else if off < 0x23C000 then s.pwPair m i d k off v st
  else if off < 0x23C400 then s.xbarWrite off k st
  else if off < 0x240000 then s.phWrite i d off v st
  else if off < 0x248000 then s.tmWrite i d k off v st
  else if off < 0x250000 then s.tmgWrite d k off v st
  else if off < 0x258000 then s.pfWrite m i d k off v st
  else if off < 0x260000 then (if off = PF_OBS_DIV then s.obsDivWrite v else s.setReg off st)
  else if off < 0x288000 then s.cpWrite i d k off v st
  else if off < 0x400000 then s.chgWrite off v st
  else if off < 0x800000 then
    (if off % 0x80000 < 0x10000 then s.clWrite i d k off v st
     else if off % 0x4000 < 0x2000 then s.leWrite i d k off v st
     else s.csRegWrite i d off v st)
  else s.setReg off st

/-! ### The bank window of a halted engine (R96, R508) -/

/-- Write 32 bits of an accumulator. -/
def accPart (a : Acc72) (j : Nat) (v : Word) : Acc72 :=
  BitVec.ofNat 72 (match j with
    | 0 => withBits a.toNat 0 32 v.toNat
    | 1 => withBits a.toNat 32 32 v.toNat
    | _ => withBits a.toNat 64 8 v.toNat)

/-- A word written in the bank window of a halted engine; none where nothing may be written. The program counter stays even (R98), a
RND of 3 stores 2 and reserved bits of LE_MODE stay zero (R109). -/
def Bank.poke (x : Bank) (d : Nat) (v : Word) : Option Bank :=
  if d % 4 ≠ 0 then none
  else if d < 0x40 then some { x with d := tset (fun _ => 0) x.d (d / 4) v }
  else if d < 0x60 then some { x with a := tset (fun _ => 0) x.a (d / 4 - 16) (v.extractLsb' 0 24) }
  else if d < 0x70 then some { x with m := tset (fun _ => 0) x.m (d / 4 - 24) v }
  else if d < 0xB0 then
    (let n := (d - 0x70) / 16
     let j := d % 16 / 4
     if j = 3 then none
     else some { x with ac := tset (fun _ => 0) x.ac n (accPart (tget (fun _ => 0) x.ac n) j v) })
  else if d = 0xB0 then
    some { x with pc := .ofNat 24 (v.toNat % 2 ^ 24 / 2 * 2), micro := if x.micro.suspended then x.micro.ended else x.micro }
  else if d = 0xB4 then some { x with mode := .ofNat 32 (modeLow v + bitsOf v.toNat 8 5 * 2 ^ 8), modeWait := [] }
  else if d = 0xBC then some { x with poison := v }
  else none

/-- A write into a bank window: Inner authority, of a halted engine. -/
def State.bankWrite (s : State) (m : Master) (off : Nat) (v : Word) : Option State :=
  if 0x400000 ≤ off ∧ off < 0x800000 ∧ off % 0x80000 ≥ 0x10000 ∧ m.lvl = 3 then
    let c := (off - 0x400000) / 0x80000
    let e := off % 0x80000 - 0x10000
    let p := 9 * c + e / 0x4000
    let w := e % 0x4000
    if e / 0x4000 < 9 ∧ 0x1000 ≤ w ∧ w < 0x1400 ∧ (s.eng p).halted = true then
      let b := (w - 0x1000) / 0x100
      ((s.bank p b).poke (w % 0x100) v).map (fun x => s.setBank p b x)
    else none
  else none

/-! ### A 32-bit register write -/

/-- The outcome of a register write: was any field written, and the state. -/
structure Wr where
  any : Bool
  st : State

/-- A write counted in RC_RSVD_WRITES for its reserved bits is not counted again for a field value that is out of range (R8, log
entry 32); RC_SWRST and TR_ARM count what they refuse besides (R215, R473). `s` is the state before its effect, `u` the state after it. -/
def State.countedOnce (s : State) (off : Nat) (u : State) : State :=
  if off ≠ RC_SWRST ∧ u.reg RC_RSVD_WRITES = s.reg RC_RSVD_WRITES + 1 then u.setReg RC_RSVD_WRITES (s.reg RC_RSVD_WRITES) else u

/-- Is the write one of present values to locked fields alone? It is not refused, and counts nowhere (R544). -/
def State.keepsLocked (s : State) (m : Master) (off : Nat) (t : RegAt) (data mask : Word) : Bool :=
  s.lockOf off t && decide (2 ≤ m.lvl)
    && t.desc.fields.any (fun f => f.acc == .RWL && decide (f.mask &&& mask ≠ 0))
    && t.desc.fields.all (fun f => f.acc != .RWL || decide ((data ^^^ s.reg off) &&& f.mask &&& mask = 0))

/-- Does a write replace the poison mark of the word with a clean one? A whole word of a queue descriptor or of chant memory does, a narrow
store does not (17_memory_integrity.md R438). -/
def State.clearsMark (s : State) (off be : Nat) : Bool :=
  be == 15 && ((decide (0x100000 ≤ off) && decide (off < 0x140000))
    || (decide (0x260000 ≤ off) && decide (off < 0x284000) && decide (0x800 ≤ off % 0x1000) && !s.chRun ((off - 0x260000) / 0x1000)))

/-- A write of the word `data` under byte enables `be` to the register at `off` (a multiple of 4). Writes of TR_ARM from a
source that it does not accept are ignored and counted (R215). DESIGN CHOICE (log entry 34): with FLK_GCFG.HPPW = 0 a nonzero
write to an unassigned offset, or to reserved bits, counts in FLK_HPP_IGNORED only. -/
def State.regWrite32 (s : State) (m : Master) (off : Nat) (data : Word) (be : Nat) : Wr :=
  let mask := beMask be
  match findReg off regBlocks with
  | none =>
    match (if be = 15 then s.bankWrite m off data else none) with
    | some t => ⟨true, t⟩
    | none => ⟨false, if data &&& mask ≠ 0 ∧ s.viewOpen m off false = true then s.inc RC_RSVD_WRITES else s⟩
  | some t =>
    if !s.viewOpen m off t.desc.dam then ⟨false, if off = TR_ARM ∨ off = RC_SWRST then s.inc RC_RSVD_WRITES else s⟩
    else
      let fs := (s.writableFields m off t).filter (fun f => f.mask &&& mask ≠ 0)
      let old := s.reg off
      let v := mergeFields fs (s.hotBits off) old data mask
      let rsvd := data &&& mask &&& ~~~(fieldBits t.desc) ≠ 0
      let s := if rsvd then s.inc RC_RSVD_WRITES else s
      let s := if t.desc.dam && m.who != 1 && decide (0x80000 ≤ off) && decide (off < 0x90000) then s.dbRefuse else s
      let held := s.lockOf off t && decide (0x90000 ≤ off) && decide (off < 0xA0000)
        && t.desc.fields.any (fun f => (f.acc == .RWL || f.acc == .RWI) && decide ((data ^^^ old) &&& f.mask &&& mask ≠ 0))
        && decide (2 ≤ m.lvl)
      let s := if held then s.inc SH_CFG_REFUSED else s
      if fs = [] then ⟨s.keepsLocked m off t data mask, if off = TR_ARM ∧ m.lvl ≠ 3 then s.inc RC_RSVD_WRITES else s⟩
      else
        let u := s.regEffect m off t v (v &&& ~~~(woBits t.desc)) (data &&& mask)
        let s := if rsvd then s.countedOnce off u else u
        ⟨true, if s.clearsMark off be then s.setMark off false else s⟩

end Sys2Proof.Machine
end

