-- ==== Sys2Proof/Machine/RegRead.lean ====
section
/-!
DEFINITION. Register reads (01_architecture.md R25, R28; 02_tally_time.md R60): the value of every register as it reads,
and what a read does.
-/

namespace Sys2Proof.Machine

/-! ### Values that are formed when they are read -/

/-- EG_STAT (R367). -/
def State.egStat (s : State) (g : Nat) : Nat :=
  maskOf (fun j => s.flag (EC_SSTAT (16 * g + j)) fEC_SSTAT_PENDING) 16
    + maskOf (fun j => s.flag (EC_SSTAT (16 * g + j)) fEC_SSTAT_ACTIVE) 16 * 65536

/-- EC_NEXT and EC_SNEXT (R350): the lowest ACTIVE source with target `tgt`. -/
def State.ecNext (s : State) (tgt : Nat) : Nat :=
  match s.activeWith tgt with
  | some n => 2 ^ 31 + n
  | none => 0

/-- The cells in a state of R335; an unlisted tag is UNASSIGNED. -/
def State.cellsIn (s : State) (st : Nat) : Nat :=
  (s.regs.filter (fun e => decide (0x150000 ≤ e.1) && decide (e.1 < 0x160000) && e.2.toNat / 2 ^ 30 == st)).length

/-- A word of the bank window (R96). -/
def Bank.peek (x : Bank) (d : Nat) : Nat :=
  if d < 0x40 then (tget (fun _ => 0) x.d (d / 4)).toNat
  else if d < 0x60 then (tget (fun _ => 0) x.a (d / 4 - 16)).toNat
  else if d < 0x70 then (tget (fun _ => 0) x.m (d / 4 - 24)).toNat
  else if d < 0xB0 then
    (let a := (tget (fun _ => 0) x.ac ((d - 0x70) / 16)).toNat
     match d % 16 / 4 with
     | 0 => bitsOf a 0 32
     | 1 => bitsOf a 32 32
     | 2 => bitsOf a 64 8
     | _ => 0)
  else if d = 0xB0 then x.pc.toNat
  else if d = 0xB4 then x.mode.toNat
  else if d = 0xB8 then x.micro.ucont.toNat
  else if d = 0xBC then x.poison.toNat
  else 0

/-- A word of the micro-state window (06_microcode.md R194); `dist` is the engine's distance counter. -/
def Micro.peek (x : Micro) (dist d : Nat) : Nat :=
  if d < 0x40 then
    (let u := (tget (fun _ => 0) x.u (d / 8)).toNat
     if d % 8 = 0 then bitsOf u 0 32 else bitsOf u 32 8)
  else match d with
    | 0x40 => bitsOf x.uac.toNat 0 32
    | 0x44 => bitsOf x.uac.toNat 32 32
    | 0x48 => bitsOf x.uac.toNat 64 8
    | 0x4C => bitsOf x.mdr.toNat 0 32
    | 0x50 => bitsOf x.mdr.toNat 32 32
    | 0x54 => x.mar.toNat
    | 0x58 => x.stack.getD (x.stack.length - 1) 0
    | 0x5C => if 2 ≤ x.stack.length then x.stack.getD (x.stack.length - 2) 0 else 0
    | 0x60 => if 3 ≤ x.stack.length then x.stack.getD (x.stack.length - 3) 0 else 0
    | 0x64 => if 4 ≤ x.stack.length then x.stack.getD (x.stack.length - 4) 0 else 0
    | 0x68 => x.pois % 256 + (x.pois / 256 % 4) * 256
    | 0x6C => dist % 32
    | _ => 0

/-- An unassigned register offset: the windows of an engine's banks and micro state, else zero (R25, R96, R194). -/
def State.windowValue (s : State) (off : Nat) : Nat :=
  if 0x400000 ≤ off ∧ off < 0x800000 ∧ off % 0x80000 ≥ 0x10000 ∧ (off % 0x80000 - 0x10000) / 0x4000 < 9 then
    let p := 9 * ((off - 0x400000) / 0x80000) + (off % 0x80000 - 0x10000) / 0x4000
    let w := (off % 0x80000 - 0x10000) % 0x4000
    if 0x1000 ≤ w ∧ w < 0x1400 then (s.bankShown p ((w - 0x1000) / 0x100)).peek (w % 0x100)
    else if 0x2400 ≤ w ∧ w < 0x2600 then (s.bankShown p ((w - 0x2400) / 0x80)).micro.peek (s.distShown p ((w - 0x2400) / 0x80)) (w % 0x80)
    else 0
  else 0

/-- The value of a register, formed where no register holds it; what a read does besides is not in it. -/
def State.regValue (s : State) (off : Nat) : Word :=
  match findReg off regBlocks with
  | none => BitVec.ofNat 32 (s.windowValue off)
  | some t =>
    let i := t.inst
    let k := t.elem
    let d := t.desc.off
    let st := s.reg off
    if off = TB_NOW_LO then BitVec.ofNat 32 (lo32 s.now)
    else if off = TB_NOW_HI then BitVec.ofNat 32 (hi32 s.now)
    else if off = TB_OTHER_LO then BitVec.ofNat 32 (lo32 (if s.flag TB_CTRL fTB_CTRL_SEL then tallyOf s.tb.a else tallyOf s.tb.b))
    else if off = TB_OTHER_HI then BitVec.ofNat 32 (hi32 (if s.flag TB_CTRL fTB_CTRL_SEL then tallyOf s.tb.a else tallyOf s.tb.b))
    else if 0x28000 ≤ off ∧ off < 0x2C000 then (if d = 4 then BitVec.ofNat 32 (s.egStat i) else st)
    else if 0x2C000 ≤ off ∧ off < 0x30000 then
      (if d = 0x40 then BitVec.ofNat 32 (s.ecNext (k + 1))
       else if d = 0x80 then BitVec.ofNat 32 (s.ecNext (17 + k))
       else if d = 0x94 then
         BitVec.ofNat 32 ((tget (fun _ => 0) s.ev.pay (s.fld EC_PEEK_SEL fEC_PEEK_SEL_SOURCE)).toNat / 2 ^ (32 * k))
       else st)
    else if off = JN_STAT then BitVec.ofNat 32 (withBits st.toNat 3 1 (b2n s.hostFull))
    else if 0x50000 ≤ off ∧ off < 0x54000 then (if d = 4 then s.flkStat i else st)
    else if off = RS_GSTAT then BitVec.ofNat 32 (withBits st.toNat 0 1 (b2n s.dvBusy))
    else if off = MI_GSUM then
      BitVec.ofNat 32 (withBits (withBits st.toNat 0 10 (maskOf (fun g => s.flag (MI_GSTAT g) fMI_GSTAT_UE) 10)) 16 10
        (maskOf (fun g => s.flag (MI_GSTAT g) fMI_GSTAT_CE) 10))
    else if 0x80120 ≤ off ∧ off < 0x80130 then
      s.mword (traceBase + s.fld DB_TRACE_RIDX fDB_TRACE_RIDX_INDEX * 16 + 4 * k)
    else if 0x140000 ≤ off ∧ off < 0x150000 then
      (if d = 0 then BitVec.ofNat 32 (withBits st.toNat 16 13 (s.qLevel i)) else st)
    else if off = QF_CELLS_FREE then BitVec.ofNat 32 (s.cellsIn 1)
    else if off = QF_CELLS_HELD then BitVec.ofNat 32 (s.cellsIn 2)
    else if 0x260000 ≤ off ∧ off < 0x288000 then
      (if d = 0x14 then BitVec.ofNat 32 (withBits st.toNat 2 1 (b2n (s.chPriv i)))
       else if d = 0x108 then BitVec.ofNat 32 (withBits st.toNat 0 1 (b2n (s.chanRuns i k)))
       else if d = 0x120 then BitVec.ofNat 32 ((s.chan i k).tx.length + (s.chan i k).rx.length * 256)
       else if d = 0x118 then (match (s.chan i k).rx with
                               | [] => 0
                               | e :: _ => e.data)
       else st)
    else if 0x400000 ≤ off ∧ off < 0x800000 then
      (if off % 0x80000 < 0x10000 then
         (if d = 0 then BitVec.ofNat 32 (withBits (withBits st.toNat 16 4 (s.rankStat i).1) 8 1 (b2n (s.rankStat i).2)) else st)
       else if off % 0x4000 < 0x2000 ∧ d = 8 then s.leStat i
       else st)
    else st

/-! ### Latches of a read (R60, R95, R285) -/

/-- The registers that a read of a register latches for the next read of each by the same master. -/
def latchedBy (off : Nat) : List Nat :=
  if off = TB_NOW_LO ∨ off = TB_SET_LO ∨ off = TB_ABMIS_STAMP_LO ∨ off = TB_OTHER_LO then [off + 4]
  else if 0x250000 ≤ off ∧ off < 0x250000 + 10 * 0x400 ∧ off % 0x400 = 0x70 then [off + 4, off + 8, off + 12, off + 16, off + 20]
  else if 0x410000 ≤ off ∧ off < 0x800000 ∧ off % 0x80000 ≥ 0x10000 ∧ off % 0x4000 = 0x18 then [off + 12]
  else []

/-- The key of a latched register of a master. -/
def latchKey (off who : Nat) : Nat := off * 4 + who

/-- Latch the registers. -/
def State.latchAll (s : State) (who : Nat) : List Nat → State
  | [] => s
  | o :: t => State.latchAll { s with hiLatch := tins s.hiLatch (latchKey o who) (s.regValue o) } who t

/-- A 32-bit register read with its effects: the value, and the state. `single` is false for a half of a 64-bit read, which
needs no latch (R60, R95); the latch of a feedback unit serves every read (R285). -/
def State.regRead32 (s : State) (m : Master) (off : Nat) (single : Bool) : Word × State :=
  let single := single || (0x250000 ≤ off && decide (off < 0x252800))
  let key := latchKey off m.who
  let held := s.hiLatch.find? (fun e => e.1 == key)
  let s' := if single then { s with hiLatch := tdel s.hiLatch key } else s
  let v := match held with
    | some e => if single then e.2 else s.regValue off
    | none => s.regValue off
  let s' := if single then s'.latchAll m.who (latchedBy off) else s'
  if off = PM_FSDATA then s'.fsRead
  else if 0x90500 ≤ off ∧ off < 0x90600 then (if m.lvl = 3 ∧ m.who = 1 then (v, s') else (0, s'))
  else if 0x260000 ≤ off ∧ off < 0x260000 + 36 * 0x1000 ∧ 0x100 ≤ off % 0x1000 ∧ off % 0x1000 < 0x500 ∧ off % 0x40 = 0x18 then
    s'.rxRead ((off - 0x260000) / 0x1000) ((off % 0x1000 - 0x100) / 0x40)
  else (v, s')

end Sys2Proof.Machine
end

