-- ==== Sys2Proof/Machine/Access.lean ====
section
/-!
DEFINITION. Accesses by the masters of R26: the HPP window and its memories (01_architecture.md R22 to R29), the flock pages of
HUP (R30, R31; 14_flocks_and_register_views.md R380 to R382), the flock view of the unit-register path (03_loop_engines.md R73
to R75), widths and responses (R383, R384; 21_integration_ports.md R521 to R523).
-/

namespace Sys2Proof.Machine

/-! ### The window of HPP (R18, R22, R24) -/

/-- What stands at an offset of the HPP window. -/
inductive HppRegion | reg | mem | journal | hole
deriving DecidableEq, Repr

def hppRegion (off : Nat) : HppRegion :=
  if off < 0xA0000 then .reg
  else if off < 0x100000 then .hole
  else if off < 0x290000 then .reg
  else if off < 0x400000 then .hole
  else if off < 0x800000 then .reg
  else if off < 0x1000000 then .hole
  else if off < 0x14C8000 then .mem
  else if off < 0x1500000 then .hole
  else if off < 0x2000000 then .mem
  else if off < 0x2800000 then .journal
  else .hole

/-- Has the start-up sweep of the memories not ended (R27, R446)? -/
def State.unswept (s : State) : Bool :=
  s.pw.mode == .startup && (s.fld RC_BOOT fRC_BOOT_STAGE == 1 || s.fld RC_BOOT fRC_BOOT_STAGE == 2)

/-- Is the memory at an offset still to be swept (R27, R446, R447)? Memories stand in the windows and the journal, in the queue
descriptors and in the chant memories. -/
def State.swept (s : State) (off : Nat) : Bool :=
  if s.unswept ∧ (0x1000000 ≤ off ∨ (QF_QCFG 0 ≤ off ∧ off < QF_QCFG 0 + 0x40000)
      ∨ (0x260000 ≤ off ∧ off < 0x284000 ∧ 0x800 ≤ off % 0x1000)) then true
  else if 0x1000000 ≤ off ∧ off < 0x1480000 then s.sweeping 0 ((off - 0x1000000) / 0x10000)
  else if 0x1480000 ≤ off ∧ off < 0x14C8000 then s.sweeping 1 ((off - 0x1480000) / 0x1000)
  else if 0x260000 ≤ off ∧ off < 0x284000 ∧ 0x800 ≤ off % 0x1000 then s.sweeping 9 ((off - 0x260000) / 0x1000)
  else false

/-! ### The flock view (R73, R74, R378) -/

/-- The strides and blocks of the kinds of the unit-register window (R73): block base, stride, logical units. -/
def urpKind (k : Nat) : Nat × Nat × Nat :=
  match k with
  | 0 => (0x220000, 0x800, 48)
  | 1 => (0x240000, 0x100, 32)
  | 2 => (0x250000, 0x400, 8)
  | 3 => (0x260000, 0x1000, 32)
  | 4 => (0x200000, 0x100, 64)
  | _ => (0, 1, 0)

/-- The register that an offset in the unit-register window names, translated from the logical to the physical unit. -/
def State.urpTarget (s : State) (w : Nat) : Option Nat :=
  let k := w / 0x40000
  let (base, stride, n) := urpKind k
  let l := w % 0x40000 / stride
  if l < n then
    (if k = 4 then some (base + l * stride + w % 0x40000 % stride)
     else (s.findUnit (k + 1) l).map (fun p => base + p * stride + w % 0x40000 % stride))
  else none

/-- Does flock f own the register at an offset of the unit blocks? A Chanter's channels are owned one by one, what it shares by
the flock of any of its channels. -/
def State.flockOwns (s : State) (f off : Nat) : Bool :=
  if 0x200000 ≤ off ∧ off < 0x204000 then s.portOwner ((off - 0x200000) / 0x100) == f
  else if 0x220000 ≤ off ∧ off < 0x23A000 then
    s.unitValid 1 ((off - 0x220000) / 0x800) && s.unitFlock 1 ((off - 0x220000) / 0x800) == f
  else if 0x240000 ≤ off ∧ off < 0x242400 then
    s.unitValid 2 ((off - 0x240000) / 0x100) && s.unitFlock 2 ((off - 0x240000) / 0x100) == f
  else if 0x250000 ≤ off ∧ off < 0x252800 then
    s.unitValid 3 ((off - 0x250000) / 0x400) && s.unitFlock 3 ((off - 0x250000) / 0x400) == f
  else if 0x260000 ≤ off ∧ off < 0x284000 then
    (let n := (off - 0x260000) / 0x1000
     let d := off % 0x1000
     s.unitValid 4 n &&
      (if 0x100 ≤ d ∧ d < 0x500 then s.fld (CH_CCFG n ((d - 0x100) / 0x40)) fCH_CCFG_FLOCK == f
       else (firstIdx (fun k => s.fld (CH_CCFG n k) fCH_CCFG_FLOCK == f) 16).isSome))
  else false

/-- Is a write through the flock view denied (R74)? The register is not the flock's, or none of its fields is writable there. -/
def State.viewDenied (s : State) (m : Master) (off : Nat) : Bool :=
  !s.flockOwns m.flock off ||
    (match findReg off regBlocks with
     | some t => (s.writableFields m off t).isEmpty
     | none => false)

/-- A store through the unit-register path, at its register block (R74, R75). The denial names the window address, the slot and
the program counter of the issue. -/
def State.urpStore (s : State) (p : Nat) (m : Master) (off : Option Nat) (addr slot pc : Nat) (data : Word) : State :=
  match off with
  | some o =>
    if o % 4 != 0 || s.viewDenied m o then s.urpDenied p 5 slot pc addr
    else if s.swept o then s
    else (s.regWrite32 m o data 15).st
  | none => s.urpDenied p 5 slot pc addr

/-- A load through the unit-register path: a denied one returns zero. -/
def State.urpLoad (s : State) (p : Nat) (m : Master) (off : Option Nat) (addr slot pc : Nat) : Word × State :=
  match off with
  | some o =>
    if o % 4 != 0 || !s.flockOwns m.flock o then (0, s.urpDenied p 5 slot pc addr)
    else s.regRead32 m o true
  | none => (0, s.urpDenied p 5 slot pc addr)

/-- The window address of a register of the unit blocks, with the logical number that its unit carries. -/
def State.urpAddr (s : State) (off : Nat) : Nat :=
  let f (k base stride : Nat) : Nat :=
    0x400000 + k * 0x40000 + s.unitLogical (k + 1) ((off - base) / stride) * stride + (off - base) % stride
  if off < 0x220000 then 0x500000 + (off - 0x200000)
  else if off < 0x240000 then f 0 0x220000 0x800
  else if off < 0x250000 then f 1 0x240000 0x100
  else if off < 0x260000 then f 2 0x250000 0x400
  else f 3 0x260000 0x1000

/-! ### The flock pages of HUP (R380 to R382) -/

/-- The store behind the runtime parameter blocks of page f (R381). -/
def pageBase (f : Nat) : Nat := 2 ^ 35 + f * 0x10000

/-- A refused access of HUP (R382). -/
def State.hupDeny (s : State) (f off cause : Nat) : State :=
  let first := !s.flag (FLK_STAT f) fFLK_STAT_DENIED
  let s := (s.inc (FLK_DENIED_CNT f)).setNat (FLK_DENY_LAST f) (cause * 2 ^ 28 + off % 65536)
  if first then
    let s := s.setFlag (FLK_STAT f) fFLK_STAT_DENIED true
    (s.raise (880 + f) (2 + cause * 16 + s.flockInc f * 256) off).record (880 + f) 0x42 f off cause 0
  else s

/-- The logical units of a kind that flock f owns, from unit l0, n of them. -/
def State.ownedMask (s : State) (f k l0 n : Nat) : Nat :=
  maskOf (fun i => match s.findUnit k (l0 + i) with
    | some p => s.unitFlock k p == f
    | none => false) n

/-- The identity and status area of a page (R380). -/
def State.pageIdent (s : State) (f off : Nat) : Nat :=
  if 0x40 ≤ off ∧ off < 0xC0 then
    (match s.findUnit 4 ((off - 0x40) / 4) with
     | some n => maskOf (fun k => s.fld (CH_CCFG n k) fCH_CCFG_FLOCK == f) 16
     | none => 0)
  else match off with
    | 0x0 => f * 65536 + s.flockInc f * 256 + b2n (s.flag (FLK_STAT f) fFLK_STAT_CLEAN) * 2 + b2n (s.flag (FLK_CTRL f) fFLK_CTRL_EN)
    | 0x10 => s.ownedMask f 0 0 32
    | 0x14 => s.ownedMask f 0 32 32
    | 0x18 => s.ownedMask f 1 0 32
    | 0x1C => s.ownedMask f 1 32 16
    | 0x20 => s.ownedMask f 2 0 32
    | 0x24 => s.ownedMask f 3 0 8
    | 0x28 => maskOf (fun n => s.portOwner n == f) 32
    | 0x2C => maskOf (fun n => s.portOwner (32 + n) == f) 32
    | 0x110 => s.nat (PG_UADDR f)
    | _ => 0

/-- The queue that notice-mirror entry j shows, when it belongs to the flock (R381). -/
def State.noticeQueue (s : State) (f j : Nat) : Option Nat :=
  let q := s.fld (FLK_QMIR f j) fFLK_QMIR_QUEUE
  if s.flag (FLK_QMIR f j) fFLK_QMIR_VALID && s.qFlock q == f then some q else none

/-- The register of a unit of the kinds of R73 that the unit mirror shows. -/
def State.urpMirror (s : State) (f k l o : Nat) : Option Nat :=
  let (_, stride, n) := urpKind k
  if l < n ∧ o < stride then
    (s.urpTarget (k * 0x40000 + l * stride + o)).bind (fun a => if s.flockOwns f a then some a else none)
  else none

/-- The register that unit-mirror entry j shows (R381). -/
def State.unitMirror (s : State) (f j : Nat) : Option Nat :=
  let e := FLK_CMIR f j
  let l := s.fld e fFLK_CMIR_INDEX
  let o := s.fld e fFLK_CMIR_OFFSET / 4 * 4
  if !s.flag e fFLK_CMIR_VALID then none
  else match s.fld e fFLK_CMIR_KIND with
    | 0 => (s.findUnit 0 l).bind (fun p => if o < 0x2000 && s.unitFlock 0 p == f then some (LE_MAP p + o) else none)
    | 5 => if o < 0x100 && s.portOwner l == f then some (0x200000 + l * 0x100 + o) else none
    | 1 => s.urpMirror f 0 l o
    | 2 => s.urpMirror f 1 l o
    | 3 => s.urpMirror f 2 l o
    | 4 => s.urpMirror f 3 l o
    | _ => none

/-- What a part of a page access ended in: refused with a cause, refused because the memory is being swept (R27), or done with
a word. -/
inductive PageRes
  | deny (cause : Nat) (off : Nat)
  | bus
  | ok (v : Word) (s : State)

/-- A read of the word at a page offset. -/
def State.pageRead (s : State) (f : Fin 16) (off : Nat) (single : Bool) : PageRes :=
  let m := s.master (.hup f)
  if off = 0x114 then
    (match s.urpTarget (s.nat (PG_UADDR f)) with
     | some o => if o % 4 != 0 || !s.flockOwns f o then .deny 4 off
                 else if s.swept o then .bus
                 else (let (v, t) := s.regRead32 m o single; .ok v t)
     | none => .deny 4 off)
  else if off < 0x800 then .ok (BitVec.ofNat 32 (s.pageIdent f off)) s
  else if off < 0x1000 then .ok (s.regValue (0x40000 + (4 + f) * 0x800 + (off - 0x800))) s
  else if off < 0x8000 then (if s.unswept then .bus else .ok (s.mword (pageBase f + off)) s)
  else if off < 0x8800 then
    (match s.noticeQueue f ((off - 0x8000) / 16) with
     | some q => .ok (s.regValue (QF_WMN_STAT q + off % 16)) s
     | none => .ok 0 s)
  else if off < 0x8900 then
    (match s.unitMirror f ((off - 0x8800) / 4) with
     | some a => .ok (s.regValue a) s
     | none => .ok 0 s)
  else .ok 0 s

/-- A write to an unassigned offset of a page (R8, R25). -/
def State.pageUnassigned (s : State) (data mask : Word) : PageRes :=
  .ok 0 (if data &&& mask ≠ 0 then s.inc RC_RSVD_WRITES else s)

/-- A write of the word at a page offset. -/
def State.pageWrite (s : State) (f : Fin 16) (off : Nat) (data : Word) (be : Nat) : PageRes :=
  let m := s.master (.hup f)
  let mask := beMask be
  if off = 0x100 then
    (let n := data.toNat % 1024
     if s.fld (EC_TARGET n) fEC_TARGET_FLOCK ≠ f then .deny 3 off
     else .ok 0 ((if data.toNat / 1024 = 0 then s else s.inc RC_RSVD_WRITES).eoi n))
  else if off = 0x110 then
    (let v := (s.reg (PG_UADDR f) &&& ~~~mask) ||| (data &&& mask)
     let s := if v.toNat / 2 ^ 22 = 0 then s else s.inc RC_RSVD_WRITES
     .ok 0 (s.setNat (PG_UADDR f) (v.toNat % 2 ^ 22)))
  else if off = 0x114 then
    (match s.urpTarget (s.nat (PG_UADDR f)) with
     | some o =>
       if o % 4 != 0 || s.viewDenied m o then .deny 4 off
       else if s.swept o then .bus
       else .ok 0 (s.regWrite32 m o data be).st
     | none => .deny 4 off)
  else if off = 0 ∨ (0x10 ≤ off ∧ off < 0x30) ∨ (0x40 ≤ off ∧ off < 0xC0) then .deny 2 off
  else if off < 0x800 then s.pageUnassigned data mask
  else if off < 0x1000 then
    (let o := 0x40000 + (4 + f.val) * 0x800 + (off - 0x800)
     match findReg o regBlocks with
     | some t => if (s.writableFields m o t).isEmpty then .deny 2 off else .ok 0 (s.regWrite32 m o data be).st
     | none => s.pageUnassigned data mask)
  else if off < 0x8000 then (if s.unswept then .bus else .ok 0 (s.memWrite (pageBase f + off) 4 data.toNat be))
  else if off < 0x8800 then
    (match s.noticeQueue f ((off - 0x8000) / 16) with
     | some q => if off % 16 = 0 then .ok 0 (s.regWrite32 m (QF_WMN_STAT q) data be).st else .deny 2 off
     | none => .deny 2 off)
  else if off < 0x8900 then .deny 2 off
  else s.pageUnassigned data mask

/-! ### Widths (R384, R521) -/

/-- The parts of an access: word offset, data, byte enables. -/
structure Part where
  off : Nat
  data : Word
  be : Nat

def accessParts (off n : Nat) (data : BitVec 64) (be : Nat) : List Part :=
  if n = 8 then [⟨off, data.extractLsb' 0 32, be % 16⟩, ⟨off + 4, data.extractLsb' 32 32, be / 16 % 16⟩]
  else [⟨off - off % 4, BitVec.ofNat 32 (data.toNat % 2 ^ (8 * n) * 2 ^ (8 * (off % 4))), be % 16 * 2 ^ (off % 4) % 16⟩]

/-- Is the access misaligned, or does it enable a byte outside those addressed? -/
def badShape (off n be : Nat) : Bool := off % n != 0 || be / 2 ^ n != 0

/-- Does a narrow write enable a bit of a W1C, W1S or WO field? -/
def partialBad (x : Part) : Bool :=
  x.be != 0 && x.be != 15 &&
    (match findReg x.off regBlocks with
     | some t => t.desc.fields.any (fun f => (f.acc == .W1C || f.acc == .W1S || f.acc == .WO) && decide (f.mask &&& beMask x.be ≠ 0))
     | none => false)

/-- A word of a narrow read, brought down to the bytes asked for. -/
def narrow (off n : Nat) (v : Word) : BitVec 64 := BitVec.ofNat 64 (v.toNat / 2 ^ (8 * (off % 4)) % 2 ^ (8 * n))

/-! ### When a port's request is performed (R29, R510, R523) -/

/-- The pin HOST_RST: high until the hold of an L2 or L3 reset ends (R523). A request performed at once leaves no response
outstanding, so it rises with the reset. -/
def State.hostRst (s : State) : Bool := s.pw.mode == .reset

/-- Does the access go ahead? In Rest and Fold it is not performed, and wakes the block where it may. -/
def State.portOpen (s : State) (p : Port) : Bool :=
  match p with
  | .dam => (s.pw.fast || s.pw.bhalt || s.pw.emu) && s.pw.mode != .reset
  | _ => s.pw.fast && s.pw.mode != .reset && s.pw.mode != .rest && s.pw.mode != .fold

/-- A host request that waits until CLK_FAST runs in Graze or start-up (R29). -/
def State.hostHold (s : State) (q : HostReq) : State := { s with pw.hostHeld := s.pw.hostHeld ++ [q] }

/-- What a request that does not go ahead does: while a reset is in force or options load it is answered with BUS (R523); in Rest
a host request sets WL8 and is held unaccepted (R29), as it is while a halt or a lost lock stops CLK_FAST (20_debug.md R509,
19_reset_power_startup.md R488). -/
def State.portShut (s : State) (p : Port) (q : HostReq) : State :=
  let host : Bool := match p with
    | .hpp => true
    | .hup _ => true
    | _ => false
  match s.pw.mode with
  | .reset => if host || p = .dam then s.respond p 4 0 else s
  | .startup =>
    if !(host || p = .dam) then s
    else if s.optLoading then s.respond p 4 0
    else if host then s.hostHold q else s
  | .graze => if host then s.hostHold q else s
  | .rest =>
    if host then ((s.hostHold q).wakeSet 8 s.wakeStamp false).wakeCheck
    else if p = .dam then (s.wakeSet 15 s.wakeStamp false).wakeCheck else s
  | .fold => if p = .dam then (s.wakeSet 15 s.wakeStamp false).wakeCheck else s

/-! ### Accesses of the HPP window -/

/-- The REGWRITE entry of an HPP write (R379). -/
def State.regwriteEntry (s : State) (off data be code : Nat) : State :=
  s.jAdd { stamp := s.now, source := 0x401, cls := 2, w0 := .ofNat 32 off, w1 := .ofNat 32 data, w2 := .ofNat 32 (be + code * 256) }

/-- The entries of a write: one, or one for each half. -/
def State.regwriteEntries (s : State) (p : Port) (off n : Nat) (data : BitVec 64) (be code : Nat) : State :=
  if p ≠ .hpp ∨ 0x1000000 ≤ off then s
  else if n = 8 then
    (s.regwriteEntry off (data.toNat % 2 ^ 32) (be % 16) code).regwriteEntry (off + 4) (data.toNat / 2 ^ 32) (be / 16 % 16) code
  else s.regwriteEntry off (data.toNat % 2 ^ (8 * n)) (be * 2 ^ (off % 8) % 256) code

/-- The parts of a register write, in order. -/
def State.writeParts (s : State) (m : Master) : List Part → Wr
  | [] => ⟨false, s⟩
  | x :: t =>
    let r := if x.be = 0 then ⟨false, s⟩ else s.regWrite32 m x.off x.data x.be
    let q := State.writeParts r.st m t
    ⟨r.any || q.any, q.st⟩

/-- A write of HPP, the Shepherd or the debug access master, once its request is served. -/
def State.windowWrite (s : State) (p : Port) (off n : Nat) (be : Nat) (data : BitVec 64) : State :=
  let m := s.master p
  let log (s : State) (code : Nat) : State := s.regwriteEntries p off n data be code
  if badShape off n be then ((log s 2).inc FLK_UNALIGNED).respond p 2 0
  else if m.lvl = 0 then s.respond p 2 0
  else match hppRegion off with
    | .hole => ((log s 2).inc RC_DECODE_ERRS).respond p 1 0
    | .journal => (if m.who = 1 then s else s.inc RC_DECODE_ERRS).respond p 2 0
    | .mem =>
      if s.swept off then s.respond p 4 0
      else if !s.viewOpen m off false then (if m.who = 2 then s.inc FLK_HPP_IGNORED else s).respond p 0 0
      else (((if m.who = 2 then s.inc FLK_HPP_MEMW else s).extWait off).extWrite off n data.toNat be).respond p 0 0
    | .reg =>
      let ps := accessParts off n data be
      if s.swept off then (log s 2).respond p 4 0
      else if ps.any partialBad then ((log s 2).inc FLK_PARTIAL_REJ).respond p 2 0
      else if (s.writeParts m ps).any then ((log s 0).writeParts m ps).st.respond p 0 0
      else
        let s := ((log s 1).writeParts m ps).st
        (if m.who = 2 then s.inc FLK_HPP_IGNORED else s).respond p 0 0

/-- A read of HPP, the Shepherd or the debug access master: response, data, state. R22 states the response to the journal window
for HPP; the Shepherd's is taken to be the same, ACCESS and a count in RC_DECODE_ERRS (DESIGN CHOICE, log entry 44). -/
def State.windowRead (s : State) (p : Port) (off n : Nat) : Nat × BitVec 64 × State :=
  let m := s.master p
  if off % n ≠ 0 then (2, 0, s.inc FLK_UNALIGNED)
  else if m.lvl = 0 then (2, 0, s)
  else match hppRegion off with
    | .hole => (1, 0, s.inc RC_DECODE_ERRS)
    | .journal =>
      if m.who ≠ 1 then (2, 0, s.inc RC_DECODE_ERRS)
      else if s.poisonedIn off n then (3, 0, s)
      else (0, BitVec.ofNat 64 (s.bytesNat off n), s)
    | .mem =>
      if s.swept off then (4, 0, s)
      else
        let v := s.seenAt 9 off
        let s := s.extWait off
        if v.poisonedIn off n then (3, 0, s) else (0, BitVec.ofNat 64 (v.bytesNat off n), s)
    | .reg =>
      if s.swept off then (4, 0, s)
      else if n = 8 then
        (if s.poisoned off || s.poisoned (off + 4) then (3, 0, s)
         else
          let (a, s) := s.regRead32 m off false
          let (b, s) := s.regRead32 m (off + 4) false
          (0, b ++ a, s))
      else if s.poisoned (off - off % 4) then (3, 0, s)
      else
        let (v, s) := s.regRead32 m (off - off % 4) true
        (0, narrow off n v, s)

/-! ### HUP -/

/-- A partial write in a page that R384 refuses: of PG_EOI, of a register of the mailbox, of the notice that a mirror entry shows,
of the register that PG_UDATA reaches. -/
def State.pagePartial (s : State) (f : Fin 16) (x : Part) : Bool :=
  x.be != 15 &&
  (if x.off = 0x100 then true
   else if x.off = 0x114 then
    (match s.urpTarget (s.nat (PG_UADDR f)) with
     | some o => o % 4 == 0 && !s.viewDenied (s.master (.hup f)) o && partialBad { x with off := o }
     | none => false)
   else if 0x800 ≤ x.off ∧ x.off < 0x1000 then partialBad { x with off := 0x40000 + (4 + f.val) * 0x800 + (x.off - 0x800) }
   else if 0x8000 ≤ x.off ∧ x.off < 0x8800 then
    (match s.noticeQueue f ((x.off - 0x8000) / 16) with
     | some q => x.off % 16 == 0 && partialBad { x with off := QF_WMN_STAT q }
     | none => false)
   else false)

/-- A write of HUP: `off` is counted from the base of page f (R31: beyond the 16 pages it is a decode error). -/
def State.hupWrite (s : State) (f : Fin 16) (off n be : Nat) (data : BitVec 64) : State :=
  let p : Port := .hup f
  let o := off % 0x10000
  if badShape off n be then (s.inc FLK_UNALIGNED).respond p 2 0
  else if h : f.val + off / 0x10000 < 16 then
    let f' : Fin 16 := ⟨f.val + off / 0x10000, h⟩
    if !s.flag (FLK_CTRL f') fFLK_CTRL_EN then (s.hupDeny f' o 1).respond p 2 0
    else
      let ps := (accessParts o n data be).filter (fun x => x.be != 0)
      if ps.any (s.pagePartial f') then
        (s.inc FLK_PARTIAL_REJ).respond p 2 0
      else match ps with
        | [] => s.respond p 0 0
        | [x] => (match s.pageWrite f' x.off x.data x.be with
                  | .deny c w => (s.hupDeny f' w c).respond p 2 0
                  | .bus => s.respond p 4 0
                  | .ok _ t => t.respond p 0 0)
        | x :: y :: _ => (match s.pageWrite f' x.off x.data x.be with
                  | .deny c w => (s.hupDeny f' w c).respond p 2 0
                  | .bus => s.respond p 4 0
                  | .ok _ t => (match t.pageWrite f' y.off y.data y.be with
                      | .deny c w => (s.hupDeny f' w c).respond p 2 0
                      | .bus => s.respond p 4 0
                      | .ok _ u => u.respond p 0 0))
  else (s.inc RC_DECODE_ERRS).respond p 1 0

/-- A read of HUP. -/
def State.hupRead (s : State) (f : Fin 16) (off n : Nat) : State :=
  let p : Port := .hup f
  let o := off % 0x10000
  if off % n ≠ 0 then (s.inc FLK_UNALIGNED).respond p 2 0
  else if h : f.val + off / 0x10000 < 16 then
    let f' : Fin 16 := ⟨f.val + off / 0x10000, h⟩
    if !s.flag (FLK_CTRL f') fFLK_CTRL_EN then (s.hupDeny f' o 1).respond p 2 0
    else match s.pageRead f' (o - o % 4) (n != 8) with
      | .deny c w => (s.hupDeny f' w c).respond p 2 0
      | .bus => s.respond p 4 0
      | .ok v t =>
        if n = 8 then
          (match t.pageRead f' (o + 4) false with
           | .deny c w => (s.hupDeny f' w c).respond p 2 0
           | .bus => s.respond p 4 0
           | .ok w u => u.respond p 0 (w ++ v))
        else t.respond p 0 (narrow o n v)
  else (s.inc RC_DECODE_ERRS).respond p 1 0

/-! ### One access of any port -/

/-- A write: `off` is an HPP offset, for HUP an offset from the base of its page, for the unit-register path the offset of the
physical unit's register. `be` has a bit for each byte from `off` up. -/
def State.portWrite (s : State) (p : Port) (off n be : Nat) (data : BitVec 64) : State :=
  if !s.portOpen p then s.portShut p { port := p, named := false, write := true, off := off, size := n, be := be, data := data }
  else match p with
    | .hup f => s.hupWrite f off n be data
    | .urp e =>
      let pe := e.val
      (s.urpStore pe (s.master p) (some off) (s.urpAddr off) ((s.running pe).getD 0) (s.engPc pe)
        (data.extractLsb' 0 32)).respond p 0 0
    | _ => s.windowWrite p off n be data

/-- A read. -/
def State.portRead (s : State) (p : Port) (off n : Nat) : State :=
  if !s.portOpen p then s.portShut p { port := p, named := false, write := false, off := off, size := n }
  else match p with
    | .hup f => s.hupRead f off n
    | .urp e =>
      let pe := e.val
      if s.swept off then s.respond p 4 0 else
      let (v, t) := s.urpLoad pe (s.master p) (some off) (s.urpAddr off) ((s.running pe).getD 0) (s.engPc pe)
      t.respond p 0 (v.setWidth 64)
    | _ =>
      let (code, v, t) := s.windowRead p off n
      t.respond p code v

/-- A 32-bit write of a named register: through HUP by way of PG_UDATA, PG_EOI or the page's mailbox. -/
def State.cmdWrite (s : State) (p : Port) (off : Nat) (data : Word) : State :=
  match p with
  | .hup f =>
    if !s.portOpen p then s.portShut p { port := p, named := true, write := true, off := off, data := data.setWidth 64 }
    else if !s.flag (FLK_CTRL f) fFLK_CTRL_EN then (s.hupDeny f 0x114 1).respond p 2 0
    else if off = EC_EOI then s.hupWrite f 0x100 4 15 (data.setWidth 64)
    else if 0x40000 + (4 + f.val) * 0x800 ≤ off ∧ off < 0x40000 + (5 + f.val) * 0x800 then
      s.hupWrite f (0x800 + off % 0x800) 4 15 (data.setWidth 64)
    else if s.viewDenied (s.master p) off then (s.hupDeny f 0x114 4).respond p 2 0
    else if s.swept off then s.respond p 4 0
    else (s.regWrite32 (s.master p) off data 15).st.respond p 0 0
  | _ => s.portWrite p off 4 15 (data.setWidth 64)

/-- A 32-bit read of a named register. -/
def State.cmdRead (s : State) (p : Port) (off : Nat) : State :=
  match p with
  | .hup f =>
    if !s.portOpen p then s.portShut p { port := p, named := true, write := false, off := off }
    else if !s.flag (FLK_CTRL f) fFLK_CTRL_EN then (s.hupDeny f 0x114 1).respond p 2 0
    else if !s.flockOwns f off then (s.hupDeny f 0x114 4).respond p 2 0
    else if s.swept off then s.respond p 4 0
    else
      let (v, t) := s.regRead32 (s.master p) off true
      t.respond p 0 (v.setWidth 64)
  | _ => s.portRead p off 4

/-- One host request that was held. -/
def State.hostDo (s : State) (q : HostReq) : State :=
  if q.named then (if q.write then s.cmdWrite q.port q.off (q.data.setWidth 32) else s.cmdRead q.port q.off)
  else if q.write then s.portWrite q.port q.off q.size q.be q.data
  else s.portRead q.port q.off q.size

/-- What follows a command: an enabled wake latch acts, and host requests held until CLK_FAST runs are completed in their order
(R29). -/
def State.settle (s : State) : State :=
  let s := s.wakeCheck
  if s.pw.hostHeld ≠ [] ∧ s.portOpen .hpp = true then s.pw.hostHeld.foldl State.hostDo { s with pw.hostHeld := [] } else s

end Sys2Proof.Machine
end

