-- ==== Sys2Proof/Machine/Crook.lean ====
section
/-!
DEFINITION. How Crook takes, checks, executes and completes one command (16_mailbox_commands.md R415, R417, R420 to R424, R433).
-/

namespace Sys2Proof.Machine

/-! ### A command being executed -/

/-- The authorities of the command tables (R415). -/
inductive CkAuth | P | F | L | H | I
deriving DecidableEq, Repr

/-- The command of a mailbox: its acceptance, and where its own words begin: at D0, or at D4 with a buffer (R423). -/
structure Ck where
  m : Nat
  b : Nat
  w : MbWait
  deriving DecidableEq, Repr

/-- How the execution of a command ends: with a reply; with a wait, which keeps two numbers; or with a reply and what Crook
does after it. -/
inductive CkOut
  | reply (status detail : Nat) (data : List Word) (s : State)
  | bytes (data : List Word) (len : Nat) (s : State)
  | wait (a b : Nat) (s : State)
  | last (s : State) (next : State → State)

/-- Word i of the command. -/
def Ck.d (k : Ck) (s : State) (i : Nat) : Nat := s.mbD k.m (k.b + i)
def Ck.d64 (k : Ck) (s : State) (i : Nat) : Stamp := s.mbD64 k.m (k.b + i)

/-- The flock of a flock mailbox. -/
def Ck.flock (k : Ck) : Option Nat :=
  match mbKind k.m with
  | .flock f => some f
  | _ => none

/-- Does the mailbox have one of the authorities (R415)? A debug mailbox has I when it was rung with Inner authority. -/
def State.ckAuth (s : State) (m : Nat) (as : List CkAuth) : Bool :=
  match mbKind m with
  | .privileged => as.contains .P || as.contains .H
  | .flock _ => as.contains .F
  | .peer => as.contains .L
  | .debug => as.contains .P || (as.contains .I && s.fld (MB_STAT m) fMB_STAT_AUTH == 2)

/-- Does a resource of flock f belong to another flock than the mailbox's? -/
def Ck.foreign (k : Ck) (f : Nat) : Bool :=
  match k.flock with
  | some g => g != f
  | none => false

/-! ### Checks (R417, R422, R423) -/

/-- BADHDR: a reserved header bit, a length beyond the limit, a buffer on a command that takes none. -/
def State.ckBadHdr (s : State) (m : Nat) (takesBuf : Bool) : Bool :=
  let w0 := s.mbHdr m 0
  bitsOf w0 12 4 != 0 || bitsOf w0 17 15 != 0 || bitsOf (s.mbHdr m 1) 16 16 != 0 || bitsOf (s.mbHdr m 2) 10 22 != 0
    || s.mbHdr m 3 != 0 || decide (944 < s.mbLen m) || (mbKind m == .peer && decide (64 < s.mbLen m))
    || (s.mbBuf m && !takesBuf && mbKind m != .peer)

/-- The first word of the request data that has a bit outside the fields its command names: `named i` is the mask of word i. -/
def State.ckUnnamed (s : State) (k : Ck) (named : Nat → Nat) : Option Nat :=
  firstIdx (fun j =>
    let mask := if j < k.b then (if j < 3 then 2 ^ 32 - 1 else 0) else named (j - k.b)
    decide (4 * j < s.mbLen k.m) && decide (s.mbD k.m j &&& (2 ^ 32 - 1 - mask) ≠ 0)) 236

/-- A mask for each word of a list, and one for the words after it. -/
def masks (l : List Nat) (rest : Nat) (i : Nat) : Nat := l.getD i rest

/-- A whole word; n words. -/
def whole : Nat := 2 ^ 32 - 1
def words (n : Nat) : List Nat := List.replicate n whole

/-- The buffer that a request names: its length (BADARG), its range (BUFERR). -/
def State.ckBuffer (s : State) (k : Ck) : Option (Nat × Nat) :=
  let a := (s.mbD64 k.m 0).toNat
  let n := s.mbD k.m 2
  if k.b = 0 then none
  else if n = 0 ∨ n % 4 ≠ 0 then some (3, 2)
  else match k.flock with
    | some _ => if a < 0x1000 ∨ 0x8000 < a + n then some (10, 0) else none
    | none => if 2 ^ 64 < a + n then some (10, 0) else none

/-- The first check that fails: its status and the word at fault. -/
def ckFirst : List (Bool × Nat × Nat) → Option (Nat × Nat)
  | [] => none
  | (bad, st, d) :: t => if bad then some (st, d) else ckFirst t

/-- Checks, in order, then the execution. -/
def State.ckDo (s : State) (cs : List (Bool × Nat × Nat)) (act : State → CkOut) : CkOut :=
  match ckFirst cs with
  | some (st, d) => .reply st d [] s
  | none => act s

/-! ### Crook's register writes -/

/-- Crook acts with Inner authority. -/
def crookMaster : Master := { lvl := 3, who := 0 }

/-- Crook's write of a register: was it refused, so that one of the counters moved (R422 HWREFUSED)? -/
def State.ckWrite (s : State) (cnts : List Nat) (off : Nat) (v : Word) : Bool × State :=
  let t := (s.regWrite32 crookMaster off v 15).st
  (cnts.any (fun c => t.reg c != s.reg c), t)

/-- Registers written in order until one is refused: the word at fault, if any. -/
def State.ckWrites (s : State) (cnts : List Nat) : List (Nat × Nat × Word) → Option Nat × State
  | [] => (none, s)
  | (d, off, v) :: t =>
    let (bad, s) := s.ckWrite cnts off v
    if bad then (some d, s) else State.ckWrites s cnts t

/-- Registers written, and the reply: OK, or HWREFUSED naming the word. -/
def State.ckSet (s : State) (cnts : List Nat) (ws : List (Nat × Nat × Word)) : CkOut :=
  match s.ckWrites cnts ws with
  | (some d, s) => .reply 8 d [] s
  | (none, s) => .reply 0 0 [] s

/-- A register write whose refusal no counter of the command's shows. -/
def State.ckPoke (s : State) (off : Nat) (v : Word) : State := (s.ckWrite [] off v).2

def ckWord (n : Nat) : Word := BitVec.ofNat 32 n

/-! ### Taking a command (R420 to R422) -/

/-- Is the ring a duplicate? -/
def State.mbIsDup (s : State) (m : Nat) : Bool :=
  tget (fun _ => false) s.mb.done m && s.flag (MB_STAT m) fMB_STAT_SEQV && s.fld (MB_STAT m) fMB_STAT_LASTSEQ == s.mbSeq m

/-- The end of an execution. -/
def CkOut.finish (o : CkOut) (w : MbWait) : State :=
  match o with
  | .reply st d data s => s.mbFinish w st d data
  | .bytes data len s => s.mbFinish w 0 0 data len
  | .wait a b s => { s with mb.waits := s.mb.waits ++ [{ w with a := a, b := b }] }
  | .last s next => next (s.mbFinish w 0 0 [])

/-- Crook takes the command `op` of mailbox m: nothing happens unless it is the one that Crook takes next. -/
def State.crook (s : State) (m : Fin 32) (op : Nat) (auth : List CkAuth) (takesBuf : Bool) (named : Nat → Nat)
    (body : Ck → State → CkOut) : State :=
  if s.mbNext ≠ some m.val ∨ s.mbOp m ≠ op then s
  else if s.mbIsDup m then s.mbDuplicate m
  else
    let (w, s) := s.mbAccept m
    if s.ckBadHdr m takesBuf then s.mbFinish w 2 0 []
    else if !s.ckAuth m auth || (s.mbBuf m && mbKind m == .peer) then s.mbFinish w 4 0 []
    else
      let k : Ck := { m := m, b := if s.mbBuf m then 4 else 0, w := w }
      match s.ckUnnamed k named with
      | some i => s.mbFinish w 3 i []
      | none => match s.ckBuffer k with
        | some (st, d) => s.mbFinish w st d []
        | none => (body k s).finish w

/-- The assigned command codes (R427 to R432). -/
def assignedOps : List Nat :=
  [0x001, 0x002, 0x003, 0x004, 0x100, 0x101, 0x102, 0x103, 0x104, 0x105, 0x200, 0x201, 0x202, 0x203, 0x300, 0x301, 0x302,
    0x400, 0x401, 0x402, 0x403, 0x500, 0x501, 0x502, 0x503, 0x504, 0x600, 0x601, 0x602, 0x603, 0x604, 0x700, 0x701,
    0x800, 0x801, 0x802, 0x803, 0x900, 0xA00, 0xA01, 0xB00, 0xB01, 0xB02, 0xB03, 0xC00, 0xC01, 0xD00]

/-- A command of an unassigned code (R422): BADOP. -/
def State.crookBadOp (s : State) (m : Fin 32) : State :=
  if s.mbNext ≠ some m.val ∨ assignedOps.contains (s.mbOp m) = true then s
  else if s.mbIsDup m then s.mbDuplicate m
  else
    let (w, s) := s.mbAccept m
    s.mbFinish w 1 0 []

end Sys2Proof.Machine
end

