-- ==== Sys2Proof/Machine/CrookUnits.lean ====
section
/-!
DEFINITION. The Crook commands on identity, events and flocks, engines, tasks and law parameters (16_mailbox_commands.md
R427 to R429).
-/

namespace Sys2Proof.Machine

/-! ### Identity, events and flocks (R427) -/

/-- IDENT: the identity, TL_ID, and the flock number or 0xFF. -/
def State.ckIdent (k : Ck) (s : State) : CkOut :=
  .reply 0 0 [s.reg ID_PART, s.reg ID_REVISION, s.reg ID_ROMCODE, ckWord s.tlId, ckWord (k.flock.getD 0xFF)] s

def execIdent (m : Fin 32) (s : State) : Out :=
  .next (s.crook m 0x001 [.P, .F, .L] false (masks [] 0) State.ckIdent)

/-- EVT_ROUTE: from a flock mailbox the source must be the flock's, the target 0, 21 or a line that MB_CFG permits. -/
def State.ckEvtRoute (k : Ck) (s : State) : CkOut :=
  let n := bitsOf (k.d s 0) 0 10
  let t := bitsOf (k.d s 0) 16 5
  let allowed := t == 0 || t == 21 || (decide (t ≤ 16) && bitOf (s.nat (MB_CFG k.m)) (t - 1))
  s.ckDo [(k.flock.isSome && !allowed, 4, 0), (decide (22 ≤ t), 3, 0), (k.foreign (s.fld (EC_TARGET n) fEC_TARGET_FLOCK), 5, 0)]
    (fun s => s.ckSet [EC_CFG_REFUSED]
      [(0, EC_TARGET n, ckWord (withBits (withBits (s.nat (EC_TARGET n)) 0 5 t) 31 1 (bitsOf (k.d s 0) 31 1)))])

def execEvtRoute (m : Fin 32) (s : State) : Out :=
  .next (s.crook m 0x002 [.P, .F] false (masks [0x801F03FF] 0) State.ckEvtRoute)

/-- EVT_HOLDOFF: D0 names one of the 64 groups. -/
def State.ckEvtHoldoff (k : Ck) (s : State) : CkOut :=
  s.ckDo [(decide (64 ≤ k.d s 0), 3, 0), (decide (65536 ≤ k.d s 1), 3, 1)]
    (fun s => s.ckSet [] [(1, EG_HOLDOFF (k.d s 0), ckWord (k.d s 1))])

def execEvtHoldoff (m : Fin 32) (s : State) : Out :=
  .next (s.crook m 0x003 [.P] false (masks (words 2) 0) State.ckEvtHoldoff)

/-- PEER_EVENT: through EC_SW_RAISE, when bit i of MB_CFG of the peer mailbox is set. -/
def State.ckPeerEvent (k : Ck) (s : State) : CkOut :=
  let i := bitsOf (k.d s 0) 0 5
  s.ckDo [(!bitOf (s.nat (MB_CFG k.m)) i, 4, 0)]
    (fun s =>
      let src := tget (fun _ => 0) s.mb.peerSrc k.m % 256
      s.ckSet [] [(1, EC_SW_PAY 0, ckWord (k.d s 1)), (0, EC_SW_PAY 1, ckWord src), (0, EC_SW_RAISE, ckWord (992 + i))])

def execPeerEvent (m : Fin 32) (s : State) : Out :=
  .next (s.crook m 0x004 [.L] false (masks [0x1F, whole] 0) State.ckPeerEvent)

/-- FLK_ENABLE: an enable waits for CLEAN. -/
def State.ckFlkEnable (k : Ck) (s : State) : CkOut :=
  let f := bitsOf (k.d s 0) 0 4
  let en := bitOf (k.d s 0) 8
  s.ckDo [(en && s.notClean f, 6, 0)] (fun s => s.ckSet [FLK_CFG_REFUSED] [(0, FLK_CTRL f, ckWord (b2n en))])

def execFlkEnable (m : Fin 32) (s : State) : Out :=
  .next (s.crook m 0x100 [.P] false (masks [0x10F] 0) State.ckFlkEnable)

/-- FLK_RESET: the request of R372, which a flock without CLEAN refuses; the command waits for CLEAN. -/
def State.ckFlkReset (k : Ck) (s : State) : CkOut :=
  let f := k.flock.getD (k.d s 0)
  s.ckDo [(decide (16 ≤ f), 3, 0)]
    (fun s =>
      let t := s.flockReset f (3 + k.m * 256)
      if s.notClean f && tget (fun _ => 0) s.flkReq f == 0 then .reply 6 0 [] t else .wait f (s.flockInc f) t)

def execFlkReset (m : Fin 32) (s : State) : Out :=
  .next (s.crook m 0x101 [.P, .F] false (masks [whole] 0) State.ckFlkReset)

/-- How many resources a kind of FLK_ASSIGN has. -/
def assignCount (kind : Nat) : Nat :=
  match kind with
  | 0 => 72 | 1 => 52 | 2 => 36 | 3 => 10 | 4 => 576 | 5 => 4096 | 6 => 1024 | _ => 64

/-- The ownership field of resource i of a kind: its register, where the field begins, and the unit's refusal counter (R370, R371). -/
def assignField (kind i : Nat) : Nat × Nat × Nat :=
  match kind with
  | 0 => (LE_MAP i, 8, LE_CFG_REFUSED i)
  | 1 => (PW_MAP i, 8, PW_CFG_REFUSED i)
  | 2 => (TM_MAP i, 8, TM_CFG_REFUSED i)
  | 3 => (PF_MAP i, 8, PF_CFG_REFUSED i)
  | 4 => (CH_CCFG (i / 16) (i % 16), fCH_CCFG_FLOCK.lo, CH_CFG_REFUSED (i / 16))
  | 5 => (QF_QCFG i, 24, QF_CFG_REFUSED)
  | 6 => (EC_TARGET i, 24, EC_CFG_REFUSED)
  | _ => (FLK_SPOWN (i / 8), 4 * (i % 8), FLK_CFG_REFUSED)

/-- Assign n resources from index i; stop at the first that is in use. `j` counts those assigned. -/
def State.assignFrom (s : State) (f kind i j : Nat) : Nat → CkOut
  | 0 => .reply 0 0 [ckWord j] s
  | n + 1 =>
    let (off, lo, cnt) := assignField kind i
    let (bad, s) := s.ckWrite [cnt] off (ckWord (withBits (s.nat off) lo 4 f))
    if bad then .reply 7 1 [ckWord j] s else State.assignFrom s f kind (i + 1) (j + 1) n

def State.ckFlkAssign (k : Ck) (s : State) : CkOut :=
  let kind := bitsOf (k.d s 0) 8 4
  let n := assignCount kind
  s.ckDo [(decide (8 ≤ kind), 3, 0), (decide (n ≤ k.d s 1), 3, 1), (decide (n < k.d s 1 + k.d s 2), 3, 2)]
    (fun s => s.assignFrom (bitsOf (k.d s 0) 0 4) kind (k.d s 1) 0 (k.d s 2))

def execFlkAssign (m : Fin 32) (s : State) : Out :=
  .next (s.crook m 0x102 [.P] false (masks [0xF0F, whole, whole] 0) State.ckFlkAssign)

/-- FLK_STATUS: FLK_STAT, the counters of R385, MB_CFG of the flock mailbox. -/
def State.ckFlkStatus (k : Ck) (s : State) : CkOut :=
  let f := k.flock.getD (k.d s 0)
  s.ckDo [(decide (16 ≤ f), 3, 0)]
    (fun s => .reply 0 0 [s.flkStat f, s.reg (FLK_DENIED_CNT f), s.reg (FLK_STALE_CNT f), s.reg (FLK_RESET_CNT f),
      s.reg (FLK_RESET_REFUSED f), s.reg (MB_CFG (4 + f))] s)

def execFlkStatus (m : Fin 32) (s : State) : Out :=
  .next (s.crook m 0x103 [.P, .F] false (masks [whole] 0) State.ckFlkStatus)

/-- The refusal counter of a unit. -/
def unitRefused (k i : Nat) : Nat :=
  match k with
  | 0 => LE_CFG_REFUSED i | 1 => PW_CFG_REFUSED i | 2 => TM_CFG_REFUSED i | 3 => PF_CFG_REFUSED i | _ => CH_CFG_REFUSED i

/-- UNIT_MAP: LOGICAL and LVALID of a physical unit that is OFF or stopped; the fence follows LVALID, as R462 has it. -/
def State.ckUnitMap (k : Ck) (s : State) : CkOut :=
  let kind := bitsOf (k.d s 0) 0 3
  let u := k.d s 1
  let valid := bitOf (k.d s 2) 6
  s.ckDo [(decide (5 ≤ kind), 3, 0), (decide (physCount kind ≤ u), 3, 1), (valid && decide (activeCount kind ≤ bitsOf (k.d s 2) 0 6), 3, 2),
      (!s.unitStopped kind u, 7, 0), (valid && s.unitRetired kind u, 7, 0)]
    (fun s =>
      let (bad, s) := s.ckWrite [unitRefused kind u] (mapReg kind u) (ckWord (withBits (s.nat (mapReg kind u)) 0 7 (bitsOf (k.d s 2) 0 7)))
      if bad then .reply 8 2 [] s else .reply 0 0 [] ((s.setFence kind u (!valid)).markIdle kind u))

def execUnitMap (m : Fin 32) (s : State) : Out :=
  .next (s.crook m 0x104 [.P] false (masks [7, whole, 0x7F] 0) State.ckUnitMap)

/-- MB_SETCFG. -/
def State.ckMbSetcfg (k : Ck) (s : State) : CkOut :=
  s.ckDo [(decide (32 ≤ k.d s 0), 3, 0)] (fun s => s.ckSet [] [(1, MB_CFG (k.d s 0), ckWord (k.d s 1))])

def execMbSetcfg (m : Fin 32) (s : State) : Out :=
  .next (s.crook m 0x105 [.H, .I] false (masks (words 2) 0) State.ckMbSetcfg)

/-! ### Engines and tasks (R428) -/

/-- The physical engine that carries the logical engine of a command. -/
def State.ckEng (s : State) (l : Nat) : Nat := (s.findUnit 0 l).getD 0

/-- The checks of a command that names a logical unit in word i: it exists, and it is the flock's. -/
def State.unitArg (s : State) (kind l i : Nat) : List (Bool × Nat × Nat) := [((s.findUnit kind l).isNone, 3, i)]
def Ck.unitOwn (k : Ck) (s : State) (kind l : Nat) : List (Bool × Nat × Nat) :=
  [(k.foreign (s.unitFlock kind ((s.findUnit kind l).getD 0)), 5, 0)]

/-- Store bytes in an engine memory: a word written whole loses its mark. -/
def State.ckStore (s : State) (a : Nat) (bs : List Byte) : State :=
  let s := s.setByteList a bs
  let lo := (a + 3) / 4 * 4
  s.setMarks lo false ((a + bs.length - lo) / 4)

/-- The memory of a region of ENG_LOAD, and its size: local data RAM, loop buffer, cluster code RAM. -/
def loadRegion (p r : Nat) : Nat × Nat :=
  match r with
  | 0 => (0x1000000 + p * 0x10000, 0x10000)
  | 1 => (0x1480000 + p * 0x1000, 0x1000)
  | _ => (0x1A00000 + p / 9 * 0x40000, 0x40000)

/-- Bytes that a memory outside the block gives: those of the operand, then those the block last wrote there. -/
def State.outside (s : State) (a n : Nat) (bs : List Byte) : List Byte :=
  bs.take n ++ (List.range (n - bs.length)).map (fun i => s.sysByte (a + bs.length + i))

/-- What a request buffer gives: a status and the word at fault, or its bytes. A flock mailbox's lies in the runtime parameter
blocks of its page, any other's is what BMP answers, none an error response (R423). -/
def State.ckRead (s : State) (k : Ck) (bmp : Option (List Byte)) : (Nat × Nat) ⊕ List Byte :=
  let n := s.mbD k.m 2
  match k.flock with
  | some f =>
    let a := pageBase f + (s.mbD64 k.m 0).toNat
    if (List.range n).any (fun i => s.poisoned (a + i)) then .inl (9, 0) else .inr (s.byteList a n)
  | none => match bmp with
    | none => .inl (10, 0)
    | some bs => .inr (s.outside (s.mbD64 k.m 0).toNat n bs)

def State.ckEngLoad (bmp : Option (List Byte)) (k : Ck) (s : State) : CkOut :=
  let l := bitsOf (k.d s 0) 0 6
  let r := bitsOf (k.d s 0) 8 2
  let p := s.ckEng l
  let off := k.d s 1
  s.ckDo ([(k.b == 0, 2, 0), (k.flock.isSome && r == 2, 4, 0), (r == 3, 3, 4)] ++ s.unitArg 0 l 4
      ++ [(decide ((loadRegion p r).2 < off + s.mbD k.m 2), 3, 5)] ++ k.unitOwn s 0 l
      ++ [(s.leState p != 0 && s.leState p != 3, 7, 0)])
    (fun s => match s.ckRead k bmp with
      | .inl (st, d) => .reply st d [] s
      | .inr bs => .reply 0 0 [] (s.ckStore ((loadRegion p r).1 + off) bs))

/-- ENG_LOAD; `bmp` is what BMP answers to the read of a system-memory buffer, none an error response. -/
def execEngLoad (m : Fin 32) (bmp : Option (List Byte)) (s : State) : Out :=
  .next (s.crook m 0x200 [.P, .F] true (masks [0x33F, whole] 0) (State.ckEngLoad bmp))

/-- TASK_SET: the slot must be DISABLED; LE_TASK_CFG, which may enable it, is written last. -/
def State.ckTaskSet (k : Ck) (s : State) : CkOut :=
  let l := bitsOf (k.d s 0) 0 6
  let j := bitsOf (k.d s 0) 8 3
  let p := s.ckEng l
  s.ckDo (s.unitArg 0 l 0 ++ k.unitOwn s 0 l ++ [(s.slotState p j != 0, 7, 0), (bitOf (k.d s 1) 0 && s.notClean (s.leFlock p), 6, 0)])
    (fun s => s.ckSet [LE_CFG_REFUSED p]
      [(2, LE_TASK_ENTRY p j, ckWord (k.d s 2)), (3, LE_TASK_ARG p j, ckWord (k.d s 3)), (4, LE_TASK_DL p j, ckWord (k.d s 4)),
        (5, LE_TASK_PERIOD p j, ckWord (k.d s 5)), (6, LE_TASK_TIME_LO p j, ckWord (k.d s 6)), (7, LE_TASK_TIME_HI p j, ckWord (k.d s 7)),
        (1, LE_TASK_CFG p j, ckWord (k.d s 1))])

def execTaskSet (m : Fin 32) (s : State) : Out :=
  .next (s.crook m 0x201 [.P, .F] false (masks (0x73F :: words 7) 0) State.ckTaskSet)

/-- ENG_CTRL: LE_CTRL.EN, or an LE_CMD. -/
def State.ckEngCtrl (k : Ck) (s : State) : CkOut :=
  let l := bitsOf (k.d s 0) 0 6
  let p := s.ckEng l
  let op := k.d s 1
  let j := k.d s 2
  s.ckDo (s.unitArg 0 l 0 ++ [(op == 0 || decide (7 ≤ op), 3, 1), (decide (8 ≤ j), 3, 2)] ++ k.unitOwn s 0 l
      ++ [(op == 1 && s.notClean (s.leFlock p), 6, 0)])
    (fun s =>
      if op ≤ 2 then s.ckSet [LE_CFG_REFUSED p] [(1, LE_CTRL p, ckWord (2 - op))]
      else s.ckSet [LE_CFG_REFUSED p] [(1, LE_CMD p, ckWord ((op - 2) * 16 + j))])

def execEngCtrl (m : Fin 32) (s : State) : Out :=
  .next (s.crook m 0x202 [.P, .F] false (masks [0x3F, whole, whole] 0) State.ckEngCtrl)

/-- One microword of 24 bytes through CS_WDATA and CS_WADDR, with GENPAR = 1 (R188, R193). -/
def State.wcsWord (s : State) (p a : Nat) (bs : List Byte) : Bool × State :=
  let w := bytesNatOf bs
  let s := forN (fun i s => s.ckPoke (CS_WDATA p i) (ckWord (bitsOf w (32 * i) 32))) 5 s
  let s := s.ckPoke (CS_WDATA5 p) (ckWord (bitsOf w 160 16))
  s.ckWrite [CS_WREFUSED p] (CS_WADDR p) (ckWord (2 ^ 31 + 2 ^ 16 + (0x1800 + a)))

/-- Words from WCS word a; `j` counts those written. -/
def State.wcsWords (s : State) (p a j : Nat) (bs : List Byte) : Nat → CkOut
  | 0 => .reply 0 0 [ckWord j] s
  | n + 1 =>
    let (bad, s) := s.wcsWord p a (bs.take 24)
    if bad then .reply 8 5 [ckWord j] s else State.wcsWords s p (a + 1) (j + 1) (bs.drop 24) n

def State.ckWcsLoad (bmp : Option (List Byte)) (k : Ck) (s : State) : CkOut :=
  let l := bitsOf (k.d s 0) 0 6
  let p := s.ckEng l
  let n := s.mbD k.m 2
  s.ckDo ([(k.b == 0, 2, 0), (n % 24 != 0, 3, 2)] ++ s.unitArg 0 l 4 ++ [(decide (512 < k.d s 1 + n / 24), 3, 5)]
      ++ [(!s.csWritable p 0x1800, 7, 0)])
    (fun s => match s.ckRead k bmp with
      | .inl (st, d) => .reply st d [] s
      | .inr bs => s.wcsWords p (k.d s 1) 0 bs (n / 24))

/-- WCS_LOAD; `bmp` as for ENG_LOAD. -/
def execWcsLoad (m : Fin 32) (bmp : Option (List Byte)) (s : State) : Out :=
  .next (s.crook m 0x203 [.P] true (masks [0x3F, whole] 0) (State.ckWcsLoad bmp))

/-! ### Law parameters (R428 to R430) -/

/-- Words of the request data. -/
def State.reqBytes (s : State) (m i n : Nat) : List Byte := (List.range n).flatMap (fun j => natBytes 4 (s.mbD m (i + j)))

/-- PARAM_WRITE: word by word into local data RAM. -/
def State.ckParamWrite (k : Ck) (s : State) : CkOut :=
  let l := k.d s 0
  let a := k.d s 1
  let n := k.d s 2
  s.ckDo (s.unitArg 0 l 0 ++ [(a % 4 != 0 || decide (0x10000 < a + n), 3, 1), (n % 4 != 0 || decide (n < 4) || decide (912 < n), 3, 2)]
      ++ k.unitOwn s 0 l)
    (fun s => .reply 0 0 [] (s.ckStore (0x1000000 + s.ckEng l * 0x10000 + a) (s.reqBytes k.m (k.b + 8) (n / 4))))

def execParamWrite (m : Fin 32) (s : State) : Out :=
  .next (s.crook m 0x300 [.P, .F] false (masks (words 3 ++ [0, 0, 0, 0, 0]) whole) State.ckParamWrite)

/-- PARAM_SWAP: the descriptor of R429, the block into the copy that CUR does not name, T, then NEXT. -/
def State.ckParamSwap (k : Ck) (s : State) : CkOut :=
  let l := bitsOf (k.d s 0) 0 6
  let wh := bitsOf (k.d s 0) 12 2
  let d := k.d s 1
  let n := k.d s 2
  let p := s.ckEng l
  let ram := 0x1000000 + p * 0x10000
  let w (i : Nat) : Nat := (s.mword (ram + d + 4 * i)).toNat
  let cur := w 0
  let fits (b : Nat) : Bool := decide (b + n ≤ 0x10000)
  s.ckDo ([(wh == 3, 3, 0)] ++ s.unitArg 0 l 0 ++ [(d % 32 != 0 || decide (0x10000 < d + 32), 3, 1),
      (n % 4 != 0 || decide (n < 4) || decide (912 < n), 3, 2)] ++ k.unitOwn s 0 l
      ++ [(s.dvBusy && s.dvKind == 0 && s.dvSrc == p, 6, 0), (w 1 != cur, 6, 0),
        ((cur != w 4 && cur != w 5) || !fits (w 4) || !fits (w 5), 3, 1), ((List.range 8).any (fun i => s.poisoned (ram + d + 4 * i)), 9, 1)])
    (fun s =>
      let nxt := if cur = w 4 then w 5 else w 4
      let t : Stamp := if wh = 0 then k.d64 s 4
        else if wh = 1 then s.reg64 (TL_BTIME_LO (bitsOf (k.d s 0) 8 4)) (TL_BTIME_HI (bitsOf (k.d s 0) 8 4)) else s.now
      let s := s.ckStore (ram + nxt) (s.reqBytes k.m (k.b + 8) (n / 4))
      let s := s.ckStore (ram + d + 8) (natBytes 8 t.toNat)
      let s := s.ckStore (ram + d + 4) (natBytes 4 nxt)
      .reply 0 0 [ckWord cur, ckWord nxt] s)

def execParamSwap (m : Fin 32) (s : State) : Out :=
  .next (s.crook m 0x301 [.P, .F] false (masks [0x3F3F, whole, whole, 0, whole, whole, 0, 0] whole) State.ckParamSwap)

/-- PARAM_READ: bytes of local data RAM; a marked word gives POISON. -/
def State.ckParamRead (k : Ck) (s : State) : CkOut :=
  let l := k.d s 0
  let a := k.d s 1
  let n := k.d s 2
  let ram := 0x1000000 + s.ckEng l * 0x10000
  s.ckDo (s.unitArg 0 l 0 ++ [(decide (0x10000 < a + n), 3, 1), (decide (n < 4) || decide (992 < n), 3, 2)] ++ k.unitOwn s 0 l
      ++ [((List.range n).any (fun i => s.poisoned (ram + a + i)), 9, 1)])
    (fun s => .bytes ((List.range ((n + 3) / 4)).map (fun i => ckWord (s.bytesNat (ram + a + 4 * i) (min 4 (n - 4 * i))))) n s)

def execParamRead (m : Fin 32) (s : State) : Out :=
  .next (s.crook m 0x302 [.P, .F] false (masks (words 3) 0) State.ckParamRead)

end Sys2Proof.Machine
end

