-- ==== Sys2Proof/Machine/CrookFabric.lean ====
section
/-!
DEFINITION. The Crook commands on generators, armed responses and queues (16_mailbox_commands.md R431).
-/

namespace Sys2Proof.Machine

/-! ### Generators -/

/-- The physical generator that carries a logical one. -/
def State.ckGen (s : State) (l : Nat) : Nat := (s.findUnit 1 l).getD 0

/-- PW_CONFIG: the registers in the order listed. -/
def State.ckPwConfig (k : Ck) (s : State) : CkOut :=
  let g := s.ckGen (k.d s 0)
  s.ckDo (s.unitArg 1 (k.d s 0) 0)
    (fun s => s.ckSet [PW_CFG_REFUSED g]
      [(1, PW_CFG g, ckWord (k.d s 1)), (2, PW_PERIOD g, ckWord (k.d s 2)), (3, PW_ACT_A g, ckWord (k.d s 3)),
        (4, PW_ACT_B g, ckWord (k.d s 4)), (5, PW_DT_A g, ckWord (k.d s 5)), (6, PW_DT_B g, ckWord (k.d s 6))])

def execPwConfig (m : Fin 32) (s : State) : Out :=
  .next (s.crook m 0x400 [.P] false (masks (words 7) 0) State.ckPwConfig)

/-- PW_XBAR: SRC of the word names a logical generator. -/
def State.ckPwXbar (k : Ck) (s : State) : CkOut :=
  let j := k.d s 0
  let l := bitsOf (k.d s 1) 0 6
  s.ckDo ([(decide (96 ≤ j), 3, 0)] ++ s.unitArg 1 l 1)
    (fun s => s.ckSet [TR_ARM_REFUSED] [(1, PW_XBAR j, ckWord (withBits (k.d s 1) 0 6 (s.ckGen l)))])

def execPwXbar (m : Fin 32) (s : State) : Out :=
  .next (s.crook m 0x401 [.P] false (masks (words 2) 0) State.ckPwXbar)

/-- The writes of PW_START on generators from logical l: CMD 2 writes PW_START_TIME first. -/
def State.startFrom (s : State) (l cmd : Nat) (t : Stamp) : Nat → CkOut
  | 0 => .reply 0 0 [] s
  | n + 1 =>
    let g := s.ckGen l
    let s := if cmd = 2 then (s.ckPoke (PW_START_TIME_LO g) (t.extractLsb' 0 32)).ckPoke (PW_START_TIME_HI g) (t.extractLsb' 32 32) else s
    let (bad, s) := s.ckWrite [PW_CFG_REFUSED g] (PW_CTRL g) (ckWord cmd)
    if bad then .reply 8 2 [] s else State.startFrom s (l + 1) cmd t n

def State.ckPwStart (k : Ck) (s : State) : CkOut :=
  let l := k.d s 0
  let n := k.d s 1
  let cmd := k.d s 2
  let any (p : Nat → Bool) : Bool := (List.range (min n 64)).any (fun i => p (l + i))
  s.ckDo [(decide (48 ≤ l) || any (fun j => (s.findUnit 1 j).isNone), 3, if 48 ≤ l then 0 else 1), (decide (48 < l + n), 3, 1),
      (cmd == 0 || decide (4 ≤ cmd), 3, 2), (any (fun j => k.foreign (s.unitFlock 1 (s.ckGen j))), 5, 0),
      (cmd != 3 && any (fun j => s.notClean (s.unitFlock 1 (s.ckGen j))), 6, 0)]
    (fun s => s.startFrom l cmd (k.d64 s 3) n)

def execPwStart (m : Fin 32) (s : State) : Out :=
  .next (s.crook m 0x402 [.P, .F] false (masks (words 5) 0) State.ckPwStart)

/-- PW_DUTY: a duty write through PW_DW_CTRL. -/
def State.ckPwDuty (k : Ck) (s : State) : CkOut :=
  let x := k.d s 0
  let l := bitsOf x 0 6
  let g := s.ckGen l
  s.ckDo (s.unitArg 1 l 0 ++ [(bitsOf x 10 2 == 3, 3, 0)] ++ k.unitOwn s 1 l)
    (fun s =>
      let s := s.ckPoke (PW_DW_VAL g) (ckWord (k.d s 1))
      let s := (s.ckPoke (PW_DW_TIME_LO g) (ckWord (k.d s 2))).ckPoke (PW_DW_TIME_HI g) (ckWord (k.d s 3))
      s.ckSet [PW_CFG_REFUSED g]
        [(0, PW_DW_CTRL g, ckWord (2 ^ 31 + bitsOf x 12 1 * 2 ^ 5 + bitsOf x 10 2 * 2 ^ 3 + bitsOf x 8 2))])

def execPwDuty (m : Fin 32) (s : State) : Out :=
  .next (s.crook m 0x403 [.P, .F] false (masks (0x1F3F :: words 3) 0) State.ckPwDuty)

/-! ### Trips and armed responses -/

/-- TRIP_CONFIG. -/
def State.ckTripConfig (k : Ck) (s : State) : CkOut :=
  s.ckDo [(decide (64 ≤ k.d s 0), 3, 0)] (fun s => s.ckSet [TR_ARM_REFUSED] [(1, TR_CFG (k.d s 0), ckWord (k.d s 1))])

def execTripConfig (m : Fin 32) (s : State) : Out :=
  .next (s.crook m 0x500 [.H, .I] false (masks (words 2) 0) State.ckTripConfig)

/-- AR_WRITE: the entry's registers and, for entries 0 to 15, its trip group. -/
def State.ckArWrite (k : Ck) (s : State) : CkOut :=
  let r := k.d s 0
  s.ckDo [(decide (17 ≤ r), 3, 0)]
    (fun s => s.ckSet [TR_ARM_REFUSED]
      ([(1, AR_OUT r 0, ckWord (k.d s 1)), (2, AR_OUT r 1, ckWord (k.d s 2)), (3, AR_OUT r 2, ckWord (k.d s 3)),
        (4, AR_LVL r 0, ckWord (k.d s 4)), (5, AR_LVL r 1, ckWord (k.d s 5)), (6, AR_LVL r 2, ckWord (k.d s 6)),
        (7, AR_CFG r, ckWord (k.d s 7))]
        ++ (if r = 16 then [] else [(8, TG_MASK_LO r, ckWord (k.d s 8)), (9, TG_MASK_HI r, ckWord (k.d s 9)),
          (10, TG_CFG r, ckWord (k.d s 10))])))

def execArWrite (m : Fin 32) (s : State) : Out :=
  .next (s.crook m 0x501 [.H, .I] false (masks (words 11) 0) State.ckArWrite)

/-- An arming operation: PREPARE where it needs one, then the operation (R215). -/
def State.ckArm (op : Nat) (k : Ck) (s : State) : CkOut :=
  let r := k.d s 0
  let key := if op = 4 then 0x3C else 0xA5
  s.ckDo [(decide (17 ≤ r), 3, 0)]
    (fun s =>
      let s := if op = 4 then s else s.ckPoke TR_ARM (ckWord (1 + r * 2 ^ 16 + 0x5A * 2 ^ 24))
      s.ckSet [TR_ARM_REFUSED] [(0, TR_ARM, ckWord (op + r * 2 ^ 16 + key * 2 ^ 24))])

def execArArm (m : Fin 32) (s : State) : Out :=
  .next (s.crook m 0x502 [.H, .I] false (masks [whole] 0) (State.ckArm 2))

def execArDisarm (m : Fin 32) (s : State) : Out :=
  .next (s.crook m 0x503 [.H, .I] false (masks [whole] 0) (State.ckArm 3))

def execArRelease (m : Fin 32) (s : State) : Out :=
  .next (s.crook m 0x504 [.H, .I] false (masks [whole] 0) (State.ckArm 4))

/-! ### Queues -/

/-- Q_CONFIG: QF_QCFG with EN = 0, QF_QBASE, QF_QWM, QF_QCFG as given. -/
def State.ckQConfig (k : Ck) (s : State) : CkOut :=
  let q := k.d s 0
  let v := k.d s 1
  s.ckDo [(decide (4096 ≤ q), 3, 0)]
    (fun s => s.ckSet [QF_CFG_REFUSED]
      [(1, QF_QCFG q, ckWord (withBits v 31 1 0)), (2, QF_QBASE q, ckWord (k.d s 2)), (3, QF_QWM q, ckWord (k.d s 3)), (1, QF_QCFG q, ckWord v)])

def execQConfig (m : Fin 32) (s : State) : Out :=
  .next (s.crook m 0x600 [.P] false (masks (words 4) 0) State.ckQConfig)

/-- Is a copy of R330 in progress that an entry of CL_QPIN started: of the queue it named, or of the one it names? -/
def State.pinCopies (s : State) (q q' : Nat) : Bool := s.qBusy q || s.qBusy q'

/-- Q_PIN: the command ends when the copy of R330 has ended. -/
def State.ckQPin (k : Ck) (s : State) : CkOut :=
  let c := k.d s 0
  let i := k.d s 1
  s.ckDo [(decide (8 ≤ c), 3, 0), (decide (64 ≤ i), 3, 1)]
    (fun s =>
      let q := s.fld (CL_QPIN c i) fCL_QPIN_QUEUE
      let q' := bitsOf (k.d s 2) 0 12
      let (bad, s) := s.ckWrite [QF_CFG_REFUSED] (CL_QPIN c i) (ckWord (k.d s 2))
      if bad then .reply 8 2 [] s else if s.pinCopies q q' then .wait q q' s else .reply 0 0 [] s)

def execQPin (m : Fin 32) (s : State) : Out :=
  .next (s.crook m 0x601 [.P] false (masks (words 3) 0) State.ckQPin)

/-- The Q_PIN that stays for its copy completes with it. -/
def State.pinDone (s : State) : State :=
  match s.mbWaiting 0x601 with
  | none => s
  | some w => if s.pinCopies w.a w.b then s else s.mbFinish w 0 0 []

/-- Q_SEED: the command waits for QF_SEED_STAT.BUSY to clear. -/
def State.ckQSeed (k : Ck) (s : State) : CkOut :=
  let q := k.d s 0
  let c := k.d s 1
  let n := k.d s 2
  s.ckDo [(decide (4096 ≤ q), 3, 0), (decide (16384 ≤ c), 3, 1), (n == 0 || decide (8192 < n), 3, 2),
      (s.flag QF_SEED_STAT fQF_SEED_STAT_BUSY, 6, 0)]
    (fun s =>
      let old := s.nat QF_SEED_SKIP
      let s := s.ckPoke QF_SEED_Q (ckWord q)
      let (bad, s) := s.ckWrite [QF_CFG_REFUSED] QF_SEED (ckWord (2 ^ 31 + (n - 1) * 2 ^ 16 + c))
      if bad then .reply 8 0 [] s else .wait old 0 s)

def execQSeed (m : Fin 32) (s : State) : Out :=
  .next (s.crook m 0x602 [.P] false (masks (words 3) 0) State.ckQSeed)

/-- The Q_SEED that waits completes with the cells skipped. -/
def State.seedDone (s : State) : State :=
  match s.mbWaiting 0x602 with
  | none => s
  | some w => if s.flag QF_SEED_STAT fQF_SEED_STAT_BUSY then s else s.mbFinish w 0 0 [s.reg QF_SEED_SKIP - ckWord w.a]

/-- Q_WM. -/
def State.ckQWm (k : Ck) (s : State) : CkOut :=
  let q := k.d s 0
  s.ckDo [(decide (4096 ≤ q), 3, 0), (k.foreign (s.qFlock q), 5, 0)] (fun s => s.ckSet [] [(1, QF_QWM q, ckWord (k.d s 1))])

def execQWm (m : Fin 32) (s : State) : Out :=
  .next (s.crook m 0x603 [.P, .F] false (masks (words 2) 0) State.ckQWm)

/-- Q_NOTICE: the four words of the notice, then both SEEN bits and both counts cleared when D1 asks for it. -/
def State.ckQNotice (k : Ck) (s : State) : CkOut :=
  let q := k.d s 0
  s.ckDo [(decide (4096 ≤ q), 3, 0), (k.foreign (s.qFlock q), 5, 0)]
    (fun s =>
      let ws := [s.regValue (QF_WMN_STAT q), s.regValue (QF_WMN_CNT q), s.regValue (QF_WMN_STAMP_LO q), s.regValue (QF_WMN_STAMP_HI q)]
      .reply 0 0 ws (if bitOf (k.d s 1) 0 then s.ckPoke (QF_WMN_STAT q) (ckWord (2 ^ 31 + 3)) else s))

def execQNotice (m : Fin 32) (s : State) : Out :=
  .next (s.crook m 0x604 [.P, .F] false (masks [whole, 1] 0) State.ckQNotice)

end Sys2Proof.Machine
end

