-- ==== Sys2Proof/Machine/CrookService.lean ====
section
/-!
DEFINITION. The Crook commands on the journal, the reserve, health, power, time, patches and debug (16_mailbox_commands.md R432;
18_reserve_and_service_life.md R455 to R464; 19_reset_power_startup.md R484, R486; 06_microcode.md R190).
-/

namespace Sys2Proof.Machine

/-! ### Journal -/

/-- JN_CONFIG: the drain's registers, then DEN. -/
def State.ckJnConfig (k : Ck) (s : State) : CkOut :=
  s.ckDo [(decide (2 ≤ k.d s 7), 3, 7)]
    (fun s => s.ckSet []
      [(0, JN_HBASE_LO, ckWord (k.d s 0)), (1, JN_HBASE_HI, ckWord (k.d s 1)), (2, JN_HSIZE, ckWord (k.d s 2)),
        (3, JN_HWB_LO, ckWord (k.d s 3)), (4, JN_HWB_HI, ckWord (k.d s 4)), (5, JN_DRAIN_PER, ckWord (k.d s 5)),
        (6, JN_DRAIN_THR, ckWord (k.d s 6)), (7, JN_CTRL, ckWord (k.d s 7))])

def execJnConfig (m : Fin 32) (s : State) : Out :=
  .next (s.crook m 0x700 [.P] false (masks (words 8) 0) State.ckJnConfig)

/-- May the mailbox see an entry: a flock mailbox, the entries of its sources whose CLASS is in FLK_JFILT? -/
def State.jnSees (s : State) (k : Ck) (bs : List Byte) : Bool :=
  match k.flock with
  | none => true
  | some f =>
    let src := bytesNatOf ((bs.drop 8).take 2)
    let cls := bytesNatOf ((bs.drop 10).take 2) / 4096
    decide (src < 1024) && s.fld (EC_TARGET src) fEC_TARGET_FLOCK == f && decide (cls < 5) && bitOf (s.nat (FLK_JFILT f)) cls

/-- The newest entries, from the slot before i backward: `skip` are passed over, `left` taken, oldest first; a slot never
written ends the walk. False when a slot read carries a poison mark. -/
def State.jnWalk (s : State) (k : Ck) : Nat → Nat → Nat → Nat → List (List Byte) → Bool × List (List Byte)
  | 0, _, _, _, acc => (true, acc)
  | fuel + 1, i, skip, left, acc =>
    if left = 0 then (true, acc)
    else
      let j := (i + 262143) % 262144
      let bs := s.byteList (ringBase + 32 * j) 32
      if s.ringPoisoned j then (if skip = 0 then (false, acc) else State.jnWalk s k fuel j skip left acc)
      else if bs.all (fun b => b == 0) then (true, acc)
      else if !s.jnSees k bs then State.jnWalk s k fuel j skip left acc
      else if skip = 0 then State.jnWalk s k fuel j 0 (left - 1) (bs :: acc)
      else State.jnWalk s k fuel j (skip - 1) left acc

/-- JN_READ: entries of the ring, oldest first. -/
def State.ckJnRead (k : Ck) (s : State) : CkOut :=
  let n := k.d s 0
  s.ckDo [(n == 0 || decide (32 ≤ n), 3, 0), (decide (262144 ≤ k.d s 1), 3, 1)]
    (fun s =>
      let (ok, es) := s.jnWalk k 262144 (s.nat JN_WIDX) (k.d s 1) n []
      if ok then .reply 0 0 (es.flatMap wordsOf) s else .reply 9 0 [] s)

def execJnRead (m : Fin 32) (s : State) : Out :=
  .next (s.crook m 0x701 [.P, .F] false (masks (words 2) 0) State.ckJnRead)

/-! ### The reserve -/

/-- The longest period of the Tally-time tasks that an engine has enabled (R432). -/
def State.taskPeriod (s : State) (p : Nat) : Nat :=
  forN (fun j a => if s.taskEn p j && s.trig p j == 2 then max a (s.nat (LE_TASK_PERIOD p j)) else a) 8 0

/-- Does a periodic sync name the logical Chanter (R310, R457)? -/
def State.syncNames (s : State) (l : Nat) : Bool :=
  s.fld CH_SYNC_CTRL fCH_SYNC_CTRL_OP != 0 && bitOf (s.nat CH_SYNC_MASK) l
    && ((s.fld CH_SYNC_CTRL fCH_SYNC_CTRL_SRC == 1 && s.nat CH_SYNC_TPER != 0) || s.fld CH_SYNC_CTRL fCH_SYNC_CTRL_SRC == 2)

/-- RS_DROVE: the target, the lead time, then the registers of R466 and the target's configuration (R456). -/
def State.ckRsDrove (k : Ck) (s : State) : CkOut :=
  let kind := k.d s 0
  let l := k.d s 1
  let want := k.d s 2
  let t := k.d64 s 3
  let src := (s.findUnit kind l).getD 0
  let spare := firstIdx (fun i => s.unitSpare kind i) (physCount kind)
  let dst := if want = 0xFF then spare.getD 0 else want
  let lead := if kind = 0 then max 8590 (s.taskPeriod src) else 8590
  s.ckDo [(decide (5 ≤ kind), 3, 0), ((s.findUnit kind l).isNone, 3, 1), (want != 0xFF && decide (physCount kind ≤ want), 3, 2),
      (s.dvBusy, 6, 0), (kind != 4 && s.notClean (s.unitFlock kind src), 6, 0), (want == 0xFF && spare.isNone, 11, 0),
      (!s.unitSpare kind dst, 7, 0), (kind == 4 && !s.syncNames l, 7, 0), (decide (stampDiff t s.now < lead), 13, 0)]
    (fun s =>
      let (bad, s) := if kind = 1 then s.ckWrite [RS_CFG_REFUSED] RS_SC_CTRL (ckWord (2 ^ 31 + dst * 2 ^ fRS_SC_CTRL_SHADOW.lo + src * 2 ^ fRS_SC_CTRL_ACTIVE.lo)) else (false, s)
      if bad then .reply 8 0 [] s
      else
        let s := (s.ckPoke RS_DV_TIME_LO (t.extractLsb' 0 32)).ckPoke RS_DV_TIME_HI (t.extractLsb' 32 32)
        let (bad, s) := s.ckWrite [RS_CFG_REFUSED] RS_DV_CTRL (ckWord (2 ^ 31 + kind * 2 ^ 24 + dst * 2 ^ 16 + src))
        if bad then .reply 8 0 [] s else .wait src dst (s.preloadConfig kind src dst))

def execRsDrove (m : Fin 32) (s : State) : Out :=
  .next (s.crook m 0x800 [.P] false (masks (words 5) 0) State.ckRsDrove)

/-- Crook cancels a Drove of RS_DROVE whose boundary is not met by T + 100 µs, 429,497 tk (R458). -/
def State.dvTimeout (s : State) : State :=
  if (s.dvPhase = 1 ∨ s.dvPhase = 2) ∧ (s.mbWaiting 0x800).isSome = true ∧ reached (s.dvTime + 429497) s.now = true then s.dvCancel 7 else s

/-- The checks of a command on a physical unit of a kind: it exists, no test of it runs, and its state. -/
def State.physArg (s : State) (kind u : Nat) (ok : Bool) : List (Bool × Nat × Nat) :=
  [(decide (5 ≤ kind), 3, 0), (decide (physCount kind ≤ u), 3, 1), (s.underTest kind u, 6, 0), (!ok, 7, 0)]

/-- RS_RETIRE of a SPARE unit. -/
def State.ckRsRetire (k : Ck) (s : State) : CkOut :=
  let kind := k.d s 0
  let u := k.d s 1
  s.ckDo (s.physArg kind u (s.unitSpare kind u && !(s.dvBusy && s.dvKind == kind && s.dvDst == u)))
    (fun s => .reply 0 0 [ckWord (s.unitInc kind u)] (s.retire kind u))

def execRsRetire (m : Fin 32) (s : State) : Out :=
  .next (s.crook m 0x801 [.P] false (masks (words 2) 0) State.ckRsRetire)

/-- RS_READMIT of a RETIRED unit: the self-test runs. -/
def State.ckRsReadmit (k : Ck) (s : State) : CkOut :=
  let kind := k.d s 0
  let u := k.d s 1
  s.ckDo (s.physArg kind u (!s.unitValid kind u && s.unitRetired kind u))
    (fun s => .wait kind u (s.testStart { kind := kind, unit := u, mbox := k.m, readmit := true }))

def execRsReadmit (m : Fin 32) (s : State) : Out :=
  .next (s.crook m 0x802 [.P] false (masks (words 2) 0) State.ckRsReadmit)

/-- RS_TEST of a SPARE or RETIRED unit. -/
def State.ckRsTest (k : Ck) (s : State) : CkOut :=
  let kind := k.d s 0
  let u := k.d s 1
  s.ckDo (s.physArg kind u (!s.unitValid kind u && !(s.dvBusy && s.dvKind == kind && s.dvDst == u)))
    (fun s => .wait kind u (s.testStart { kind := kind, unit := u, mbox := k.m, readmit := false }))

def execRsTest (m : Fin 32) (s : State) : Out :=
  .next (s.crook m 0x803 [.P] false (masks (words 2) 0) State.ckRsTest)

/-! ### HEALTH (R455) -/

/-- How many units of a kind satisfy p. -/
def unitsThat (p : Nat → Nat → Bool) (kind : Nat) : Nat := countIdx (fun i => p kind i) (physCount kind)

/-- Counts of four kinds, a byte each. -/
def packed (p : Nat → Nat → Bool) : Word :=
  ckWord (unitsThat p 0 + unitsThat p 1 * 2 ^ 8 + unitsThat p 2 * 2 ^ 16 + unitsThat p 3 * 2 ^ 24)

/-- The byte of a unit in selector 4. -/
def State.healthByte (s : State) (u : Nat) : Byte :=
  let k := (unitOf u).1
  let i := (unitOf u).2
  .ofNat 8 (s.unitLogical k i + b2n (s.unitValid k i) * 64 + b2n (s.fenced k i) * 128)

/-- The reply data of a selector, and its length in bytes. -/
def State.healthData (s : State) (sel : Nat) : List Word × Nat :=
  match sel with
  | 0 => ([packed (fun k i => s.unitSpare k i), ckWord (unitsThat (fun k i => s.unitSpare k i) 4),
      packed (fun k i => !s.unitValid k i && s.unitRetired k i), s.regValue RS_GSTAT], 16)
  | 1 => ((List.range 8).flatMap (fun c => [s.reg (RS_RO_STRESS c), s.reg (RS_RO_REF c)]), 64)
  | 2 => ((List.range 206).map (fun u => tget (fun _ => (0 : Word)) s.rs.hours u)
      ++ (List.range 72).map (fun p => tget (fun _ => (0 : Word)) s.rs.busy p), 1112)
  | 3 => ((List.range 10).map (fun g => tget (fun _ => (0 : Word)) s.rs.ceHour g)
      ++ (List.range 10).map (fun g => tget (fun _ => (0 : Word)) s.rs.ueHour g), 80)
  | _ => (wordsOf ((List.range 206).map s.healthByte ++ [0, 0]), 206)

def State.ckHealth (bmpOk : Bool) (k : Ck) (s : State) : CkOut :=
  let sel := k.d s 0
  let (ws, n) := s.healthData sel
  s.ckDo [(k.b == 0 && sel == 2, 2, 0), (decide (5 ≤ sel), 3, k.b), (k.b != 0 && decide (s.mbD k.m 2 < n), 10, 0), (k.b != 0 && !bmpOk, 10, 0)]
    (fun s =>
      if k.b = 0 then .bytes ws n s
      else .reply 0 0 [ckWord n] (s.sysWrite (s.mbD64 k.m 0).toNat ((ws.flatMap (fun w => natBytes 4 w.toNat)).take n)))

/-- HEALTH; `bmpOk` is whether BMP accepts the writes of a reply buffer. -/
def execHealth (m : Fin 32) (bmpOk : Bool) (s : State) : Out :=
  .next (s.crook m 0x900 [.P] true (masks [whole] 0) (State.ckHealth bmpOk))

/-! ### Power (R484, R486) -/

/-- PM_CTRL with GO, and Crook's WAIT. -/
def State.pmGo (mode : Nat) (s : State) : State :=
  let s := s.ckPoke PM_CTRL (ckWord (2 ^ 31 + mode))
  { s with sh.crookWait := s.pw.entry != 0 }

/-- The save of Fold: the remap image, the reserve image, and the journal's newest entries and the snapshot in the area that
PM_LG.NEXT names, which then alternates. -/
def State.foldSave (s : State) : State :=
  let s := s.saveRemap.saveReserve
  if s.pw.lg.phase ≠ 0 then s
  else
    let lg := s.pw.lg
    let es := s.scanRing s.now 262144 (s.nat JN_WIDX) 256 []
    let ws := wordTable s.snapWord 2032
    let s := State.writeArea { s with pw.lg := { lg with entries := es, snap := ws } } 2 true
    let s := s.setFld PM_LG fPM_LG_NEXT (1 - s.fld PM_LG fPM_LG_NEXT)
    { s with pw.lg := lg }

/-- What an entry to a power state waits for: no command in wait, no Drove, every flock CLEAN. -/
def State.pmBusy (s : State) : Bool :=
  !s.mb.waits.isEmpty || s.dvBusy || (firstIdx s.notClean 16).isSome

def State.ckPmRest (k : Ck) (s : State) : CkOut :=
  s.ckDo [(s.pmBusy, 6, 0)] (fun s => .last (s.ckPoke EC_WAKE_EN (ckWord (k.d s 0))) (State.pmGo 1))

def execPmRest (m : Fin 32) (s : State) : Out :=
  .next (s.crook m 0xA00 [.P] false (masks [0xFFFF] 0) State.ckPmRest)

def State.ckPmFold (k : Ck) (s : State) : CkOut :=
  s.ckDo [(s.pmBusy, 6, 0)] (fun s => .last (s.ckPoke EC_WAKE_EN (ckWord (k.d s 0))) (fun s => State.pmGo 2 s.foldSave))

def execPmFold (m : Fin 32) (s : State) : Out :=
  .next (s.crook m 0xA01 [.P] false (masks [0xFFFF] 0) State.ckPmFold)

/-! ### Time -/

/-- TIME_SET: TB_SET, then TB_CTRL.SET with SEL as it stands. -/
def State.ckTimeSet (k : Ck) (s : State) : CkOut :=
  s.ckSet [TB_SET_REFUSED] [(0, TB_SET_LO, ckWord (k.d s 0)), (1, TB_SET_HI, ckWord (k.d s 1)),
    (0, TB_CTRL, ckWord (withBits (s.nat TB_CTRL) fTB_CTRL_SET.lo 1 1))]

def execTimeSet (m : Fin 32) (s : State) : Out :=
  .next (s.crook m 0xB00 [.H, .I] false (masks (words 2) 0) State.ckTimeSet)

/-- TL_CONFIG. -/
def State.ckTlConfig (k : Ck) (s : State) : CkOut :=
  s.ckSet [] [(0, TL_CTRL, ckWord (k.d s 0)), (1, TL_STEPTHR, ckWord (k.d s 1)), (2, TL_BMARGIN, ckWord (k.d s 2)),
    (3, TL_ASYM 0, ckWord (k.d s 3)), (4, TL_ASYM 1, ckWord (k.d s 4))]

def execTlConfig (m : Fin 32) (s : State) : Out :=
  .next (s.crook m 0xB01 [.H, .I] false (masks (words 5) 0) State.ckTlConfig)

/-- TL_BCAST: an apply-time too near is sent all the same, and the reply says LATE. -/
def State.ckTlBcast (k : Ck) (s : State) : CkOut :=
  let t := k.d64 s 1
  s.ckDo [(decide (16 ≤ k.d s 0), 3, 0)]
    (fun s =>
      let late := decide (stampDiff t s.now < (s.nat TL_BMARGIN : Int))
      .reply (if late then 13 else 0) 0 [] ((s.tlBcastTx (k.d s 0) t).armTlcmd (k.d s 0) t).tlcmdDue)

def execTlBcast (m : Fin 32) (s : State) : Out :=
  .next (s.crook m 0xB02 [.P] false (masks (words 3) 0) State.ckTlBcast)

/-- TL_STATUS. -/
def State.ckTlStatus (_ : Ck) (s : State) : CkOut :=
  .reply 0 0 [s.regValue TL_STAT, s.regValue (TL_PSTAT 0), s.regValue (TL_PSTAT 1), s.regValue (TL_OFFSET 0), s.regValue (TL_OFFSET 1)] s

def execTlStatus (m : Fin 32) (s : State) : Out :=
  .next (s.crook m 0xB03 [.P, .F, .L] false (masks [] 0) State.ckTlStatus)

/-! ### Patches and debug -/

/-- A bit of every engine's CS_STAT, 32 engines a word. -/
def State.csMask (s : State) (f : Fld) : List Word :=
  (List.range 3).map (fun i => ckWord (maskOf (fun j => decide (32 * i + j < 72) && s.flag (CS_STAT (32 * i + j)) f) 32))

/-- PATCH_INFO. -/
def State.ckPatchInfo (_ : Ck) (s : State) : CkOut :=
  .reply 0 0 ((s.readyWords s.pw.patchVer s.pw.patch).take 4 ++ [ckWord s.pw.svn, ckWord s.rollback]
    ++ s.csMask fCS_STAT_PLOADED ++ s.csMask fCS_STAT_PFAIL) s

def execPatchInfo (m : Fin 32) (s : State) : Out :=
  .next (s.crook m 0xC00 [.P, .F] false (masks [] 0) State.ckPatchInfo)

/-- PATCH_COMMIT: the anti-rollback count rises to the running image's SVN, one fuse at a time. -/
def State.ckPatchCommit (_ : Ck) (s : State) : CkOut :=
  let n := s.rollback
  s.ckDo [(s.pw.patch != 0 && s.pw.patch != 7, 7, 0), ((s.mbWaiting 0xC01).isSome, 6, 0)]
    (fun s => if s.pw.svn ≤ n then .reply 0 0 [ckWord n, ckWord n] s else .wait n s.pw.svn s)

def execPatchCommit (m : Fin 32) (s : State) : Out :=
  .next (s.crook m 0xC01 [.H] false (masks [] 0) State.ckPatchCommit)

/-- The fuse macro's answer to the blow in progress (R534): done, or failed. -/
def State.fuseBlow (s : State) (ok : Bool) : State :=
  match s.mbWaiting 0xC01 with
  | none => s
  | some w =>
    if !s.live then s
    else if !ok then s.mbFinish w 8 0 [ckWord w.a, ckWord s.rollback]
    else
      match firstIdx (fun i => !tget (fun _ => false) s.fuses (64 + i)) 64 with
      | none => s.mbFinish w 0 0 [ckWord w.a, ckWord s.rollback]
      | some i =>
        let s := { s with fuses := tset (fun _ => false) s.fuses (64 + i) true }
        if w.b ≤ s.rollback then s.mbFinish w 0 0 [ckWord w.a, ckWord s.rollback] else s

/-- FUSE_BLOW_COMPLETE. -/
def execFuseBlowComplete (ok : Bool) (s : State) : Out := .next (s.fuseBlow ok)

/-- DBG_POLICY. -/
def State.ckDbgPolicy (k : Ck) (s : State) : CkOut := s.ckSet [] [(0, DB_POLICY, ckWord (k.d s 0))]

def execDbgPolicy (m : Fin 32) (s : State) : Out :=
  .next (s.crook m 0xD00 [.H, .I] false (masks [whole] 0) State.ckDbgPolicy)

/-- BADOP. -/
def execBadop (m : Fin 32) (s : State) : Out := .next (s.crookBadOp m)

end Sys2Proof.Machine
end

