-- ==== Sys2Proof/Machine/Fipple.lean ====
section
/-!
DEFINITION. The debug interfaces (20_debug.md R499 to R506): the Fipple commands and the TAP.
-/

namespace Sys2Proof.Machine

/-! ### Requests (R503 to R505) -/

/-- CRC-8 with polynomial 0x07, initial 0. -/
def crc8Bits : Nat → Nat → Nat
  | 0, c => c
  | n + 1, c => crc8Bits n (if 128 ≤ c then (c * 2 ^^^ 0x07) % 256 else c * 2)

def crc8 (bs : List Byte) : Nat := bs.foldl (fun c b => crc8Bits 8 (c ^^^ b.toNat)) 0

/-- What the DAM port answers to an access of system memory: a response code of R383, and the data of a read. -/
abbrev SysAnswer := Nat × BitVec 64

/-- IDCODE (R506). -/
def State.idcode (s : State) : Nat :=
  s.fld ID_REVISION fID_REVISION_MAJOR % 16 * 2 ^ 28 + 0x0064 * 2 ^ 12 + s.fuse 770 11 * 2 + 1

/-- UID (8); IDCODE (4); DB_STAT (4). -/
def State.identBytes (s : State) : List Byte :=
  natBytes 4 (s.nat DB_UID_LO) ++ natBytes 4 (s.nat DB_UID_HI) ++ natBytes 4 s.idcode ++ natBytes 4 (s.nat DB_STAT)

/-- Is an unlock in progress? -/
def State.dbPending (s : State) : Bool := s.db.proof.isSome

/-- The response of a request. -/
def State.dbReply (s : State) (status : Nat) (payload : List Byte) : State :=
  { s with db := { s.db with status := some status, payload := payload } }

/-- The answer of system memory to an access: the next of the command's operand; beyond them OKAY, with what the block last
wrote there. -/
def State.sysAnswer (s : State) (a n : Nat) (sys : List SysAnswer) : SysAnswer × List SysAnswer :=
  match sys with
  | x :: t => (x, t)
  | [] => ((0, .ofNat 64 (bytesNatOf ((List.range n).map (fun i => s.sysByte (a + i))))), [])

/-- The accesses of a READ: data so far, the first response other than OKAY. -/
def State.damReads (s : State) (space a n : Nat) (sys : List SysAnswer) : Nat → List Byte → Nat × List Byte × State
  | 0, acc => (0, acc, s)
  | k + 1, acc =>
    if space = 0 then
      let (code, v, t) := s.windowRead .dam a n
      if code = 0 then State.damReads t space (a + n) n sys k (acc ++ natBytes n v.toNat) else (code, acc, t)
    else
      let ((code, v), rest) := s.sysAnswer a n sys
      if code = 0 then State.damReads s space (a + n) n rest k (acc ++ natBytes n v.toNat) else (code, acc, s)

/-- The accesses of a WRITE. -/
def State.damWrites (s : State) (space a n : Nat) (sys : List SysAnswer) (bs : List Byte) : Nat → Nat × State
  | 0 => (0, s)
  | k + 1 =>
    if space = 0 then
      let t := s.windowWrite .dam a n (2 ^ n - 1) (.ofNat 64 (bytesNatOf (bs.take n)))
      let code := (t.lastResp .dam).code
      if code = 0 then State.damWrites t space (a + n) n sys (bs.drop n) k else (code, t)
    else
      let ((code, _), rest) := s.sysAnswer a n sys
      if code = 0 then State.damWrites (s.sysWrite a (bs.take n)) space (a + n) n rest (bs.drop n) k else (code, s)

/-- The fields of a READ or WRITE: SPACE, ADDR, SIZE, how many bytes. None where one is out of range. -/
def damFields (write : Bool) (pl : List Byte) : Option (Nat × Nat × Nat × Nat) :=
  let space := bytesNatOf (pl.take 1)
  let size := bytesNatOf ((pl.drop 9).take 1)
  let n := if write then pl.length - 10 else bytesNatOf ((pl.drop 10).take 1)
  let len := if write then decide (10 ≤ pl.length) else pl.length == 11
  if len && decide (space < 2) && decide (size < 4) && decide (n ≤ 128) && n % 2 ^ size == 0 then
    some (space, bytesNatOf ((pl.drop 1).take 8), 2 ^ size, n)
  else none

/-- Is a request one of R504's: its CMD assigned, its LEN and fields in range? -/
def goodRequest (cmd : Nat) (pl : List Byte) : Bool :=
  match cmd with
  | 0x01 | 0x02 | 0x10 | 0x13 | 0x30 => pl.isEmpty
  | 0x11 => pl.length == 212
  | 0x12 => pl.length == 32
  | 0x20 => (damFields false pl).isSome
  | 0x21 => (damFields true pl).isSome
  | _ => false

/-- READ and WRITE: the response of the first access that is not OKAY is named by one payload byte. It is BUS while a reset is in
force or the options load. -/
def State.dbAccess (s : State) (write : Bool) (pl : List Byte) (sys : List SysAnswer) : State :=
  match damFields write pl with
  | none => s.dbReply 2 []
  | some (space, a, n, k) =>
    if s.dbLevel = 0 then s.dbReply 3 []
    else if !s.portOpen .dam then s.dbReply 6 [4]
    else if write then
      let (code, t) := s.damWrites space a n sys (pl.drop 10) (k / n)
      if code = 0 then t.dbReply 0 [] else t.dbReply 6 [.ofNat 8 code]
    else
      let (code, bs, t) := s.damReads space a n sys (k / n) []
      if code = 0 then t.dbReply 0 bs else t.dbReply 6 [.ofNat 8 code]

/-- One request served on an interface: 1 Fipple, 2 TAP. -/
def State.dbRequest (s : State) (iface cmd : Nat) (pl : List Byte) (sys : List SysAnswer) : State :=
  if !goodRequest cmd pl then s.dbReply 2 []
  else match cmd with
    | 0x01 => s.dbReply 0 s.identBytes
    | 0x02 => if s.dbPending then s.dbReply 5 [] else s.dbReply 0 (natBytes 4 (s.nat DB_STAT))
    | 0x10 =>
      if s.dbClosed then s.dbReply 3 []
      else if s.dbPending then s.dbReply 5 []
      else
        let (bs, t) := s.dbChallenge
        t.dbReply 0 bs
    | 0x11 =>
      if 2 ≤ s.dbMode then s.dbReply 3 []
      else if s.dbPending then s.dbReply 5 []
      else State.dbReply { s with db.cert := pl } 0 []
    | 0x12 =>
      if 2 ≤ s.dbMode then s.dbReply 3 []
      else if s.dbPending then s.dbReply 5 []
      else State.dbReply { s with db := { s.db with proof := some pl, iface := iface } } 5 []
    | 0x13 => s.dbLock.dbReply 0 []
    | 0x20 => s.dbAccess false pl sys
    | 0x21 => s.dbAccess true pl sys
    | _ => if s.dbLevel = 0 then s.dbReply 3 [] else State.assertReset (s.dbReply 0 []) 5 none

/-- May the front ends serve a request? In Rest it waits for the return to Graze; in Fold it is lost. -/
def State.dbAwake (s : State) : Bool := s.pw.emu || (s.pw.mode != .rest && s.pw.mode != .fold)

/-- An edge on DCK or TCK sets WL15 in Rest and Fold (13_events_and_journal.md R354). -/
def State.dbEdge (s : State) : State := if s.dbAwake then s else (s.wakeSet 15 s.wakeStamp false).wakeCheck

/-- The response of the last request as the bytes of R503, for the TAP. -/
def State.tapAnswer (s : State) : State :=
  match s.db.status with
  | none => s
  | some st =>
    let body := [BitVec.ofNat 8 st, BitVec.ofNat 8 s.db.payload.length] ++ s.db.payload
    { s with db.tapRsp := [0x5C] ++ body ++ [BitVec.ofNat 8 (crc8 body)] }

/-- A request is served, and answered on its interface. -/
def State.dbServe (s : State) (q : DbReq) : State :=
  let s := match q.status with
    | some st => s.dbReply st []
    | none => s.dbRequest q.iface q.cmd q.payload q.sys
  if q.iface = 2 then s.tapAnswer else s

/-- Is a request of the other interface in progress (R505)? -/
def State.dbBusy (s : State) (iface : Nat) : Bool :=
  (iface == 1 && !s.db.tapReq.isEmpty) || s.db.held.any (fun q => q.iface != iface)

/-- Must an access wait, since CLK_FAST has stopped with a lost lock (19_reset_power_startup.md R488)? -/
def State.dbStopped (s : State) (q : DbReq) : Bool :=
  q.status == none && (q.cmd == 0x20 || q.cmd == 0x21) && goodRequest q.cmd q.payload && s.dbLevel != 0 && !s.portOpen .dam
    && s.pw.mode != .reset && !s.optLoading

/-- A request arrives: one that finds a request of the other interface is BUSY; in Rest it is held, as an access is while a lost
lock stops CLK_FAST, and in Fold it is lost (R505). -/
def State.dbArrive (s : State) (q : DbReq) : State :=
  let q := if s.dbBusy q.iface then { q with status := some 4 } else q
  if s.dbAwake then (if s.dbStopped q then { s with db.held := s.db.held ++ [q] } else s.dbServe q)
  else if s.pw.mode = .fold then s.dbEdge
  else State.dbEdge { s with db.held := s.db.held ++ [q] }

/-- When CLK_FAST runs again the held requests are served in their order (R505). -/
def State.dbResume (s : State) : State :=
  if s.dbAwake && s.portOpen .dam then s.db.held.foldl State.dbServe { s with db.held := [] } else s

/-- A request on the Fipple port. -/
def State.fippleRequest (s : State) (cmd : Nat) (pl : List Byte) (sys : List SysAnswer) : State :=
  s.dbArrive { iface := 1, cmd := cmd, payload := pl, sys := sys }

/-- A Fipple command of its row; `sys` answers its accesses of system memory. -/
def State.fippleRow (s : State) (cmd : Nat) (pl : List Byte) (sys : List SysAnswer) : Out := .next (s.fippleRequest cmd pl sys).settle

def execFippleIdent (pl : List Byte) (s : State) : Out := s.fippleRow 0x01 pl []
def execStatus (pl : List Byte) (s : State) : Out := s.fippleRow 0x02 pl []
def execChallenge (pl : List Byte) (s : State) : Out := s.fippleRow 0x10 pl []
def execCert (pl : List Byte) (s : State) : Out := s.fippleRow 0x11 pl []
def execProve (pl : List Byte) (s : State) : Out := s.fippleRow 0x12 pl []
def execLock (pl : List Byte) (s : State) : Out := s.fippleRow 0x13 pl []
def execRead (pl : List Byte) (sys : List SysAnswer) (s : State) : Out := s.fippleRow 0x20 pl sys
def execWrite (pl : List Byte) (sys : List SysAnswer) (s : State) : Out := s.fippleRow 0x21 pl sys
def execFippleReset (pl : List Byte) (s : State) : Out := s.fippleRow 0x30 pl []

/-- BADCMD: a request that is none of R504's; a good one is not this row's. -/
def execBadcmd (cmd : Byte) (pl : List Byte) (s : State) : Out :=
  if goodRequest cmd.toNat pl then .next s else .next (s.fippleRequest cmd.toNat pl [])

/-- CRCERR: a request with a bad CRC has no effect. -/
def execCrcerr (s : State) : Out := .next (s.dbArrive { iface := 1, status := some 1 })

/-- LINE_RESET: a Fipple request or response in progress is abandoned (R503); in Fold the front end is off. -/
def execLineReset (s : State) : Out :=
  .next (if !s.dbAwake && s.pw.mode == .fold then s.dbEdge
    else State.dbEdge { s with db := { s.db with status := none, payload := [], held := s.db.held.filter (fun q => q.iface != 1) } })

/-- UNLOCK_COMPLETE. -/
def execUnlockComplete (s : State) : Out := .next s.unlockComplete

/-! ### The TAP (R506) -/

/-- An instruction is loaded; its data register captures a value. -/
def State.tapSelect (s : State) (ir dr : Nat) : State := { s with db := { s.db with ir := ir, dr := .ofNat 32 dr } }

/-- A byte of a request passed through the TAP; a request that is complete is served. While none is gathered, bytes other than
SYNC are hunted over. -/
def State.tapByte (s : State) (b : Byte) (sys : List SysAnswer) : State :=
  let req := if s.db.tapReq.isEmpty && b != 0xA7 then [] else s.db.tapReq ++ [b]
  let len := bytesNatOf ((req.drop 2).take 1)
  if req.length < 3 then { s with db.tapReq := req }
  else if 240 < len then State.dbArrive { s with db.tapReq := [] } { iface := 2, status := some 2 }
  else if req.length < len + 4 then { s with db.tapReq := req }
  else
    let body := (req.drop 1).take (len + 2)
    let st := if crc8 body ≠ bytesNatOf (req.drop (len + 3)) then some 1 else none
    State.dbArrive { s with db.tapReq := [] }
      { iface := 2, status := st, cmd := bytesNatOf (body.take 1), payload := body.drop 2, sys := sys }

/-- Are the instructions 0x10 to 0x12 BYPASS (R499)? -/
def State.tapClosed (s : State) : Bool := decide (2 ≤ s.dbMode)

/-- The 9-bit data register of FIPPLE: Capture loads the next response byte, Update passes one of a request. -/
def State.tapFipple (s : State) (dr : BitVec 9) (sys : List SysAnswer) : State :=
  if s.tapClosed then s.tapSelect 0x10 0
  else
    let s := match s.db.tapRsp with
      | [] => s.tapSelect 0x10 0
      | b :: t => State.tapSelect { s with db.tapRsp := t } 0x10 (256 + b.toNat)
    if bitOf dr.toNat 8 then s.tapByte (dr.extractLsb' 0 8) sys else s

/-- SCANCTL and BISTCTL: Inner or Development only; entry takes the clocks, leaving ends with an L3 reset, source DCMD. -/
def State.tapMode (s : State) (scan enter : Bool) : State :=
  let s := s.tapSelect (if scan then 0x11 else 0x12) 0
  if s.tapClosed then s
  else if s.dbLevel ≠ 2 ∧ s.dbMode ≠ 0 then s.dbReply 3 []
  else if enter then
    let s := { s with pw.fast := false }
    if scan then { s with db.scan := true } else { s with db.bist := true }
  else if (if scan then s.db.scan else s.db.bist) then State.assertReset { s with db := { s.db with scan := false, bist := false } } 5 (some 4)
  else s

/-- A TAP reset selects IDCODE. -/
def execTapReset (s : State) : Out := .next (s.tapSelect 0x02 s.idcode)
def execExtest (s : State) : Out := .next (s.tapSelect 0x00 0).dbEdge
def execSamplePreload (s : State) : Out := .next (s.tapSelect 0x01 0).dbEdge
def execIdcode (s : State) : Out := .next (s.tapSelect 0x02 s.idcode).dbEdge
def execClamp (s : State) : Out := .next (s.tapSelect 0x03 0).dbEdge
def execHighz (s : State) : Out := .next (s.tapSelect 0x04 0).dbEdge
def execBypass (s : State) : Out := .next (s.tapSelect 0x1F 0).dbEdge

/-- FIPPLE: `sys` answers the accesses of system memory that a request completed by this byte makes. -/
def execFipple (dr : BitVec 9) (sys : List SysAnswer) (s : State) : Out :=
  .next (s.dbEdge.tapFipple dr sys).settle

def execScanctl (enter : Bool) (s : State) : Out := .next (s.dbEdge.tapMode true enter)
def execBistctl (enter : Bool) (s : State) : Out := .next (s.dbEdge.tapMode false enter)

end Sys2Proof.Machine
end

