-- ==== Sys2Proof/Machine/Fc.lean ====
section
/-!
DEFINITION. The clocks: a rising edge of CLK_FAST (02_tally_time.md R33, the row TALLY_ADVANCE), which ends one fc and
begins the next, and a rising edge of CLK_SLOW (R40, R42, R263).
-/

namespace Sys2Proof.Machine

/-- The triggers of raises that overruns of the last fc made (R76). -/
def State.fireQueued (s : State) : State :=
  s.ev.trigQ.foldl (fun s e => s.fireEvent e.1 e.2) { s with ev.trigQ := [] }

/-- CL_STAT.PHASE of all eight clusters advances from 0 to 9 and round (R69). -/
def State.phaseEdge (s : State) : State :=
  forN (fun c s => s.setFld (CL_STAT c) fCL_STAT_PHASE ((s.fld (CL_STAT c) fCL_STAT_PHASE + 1) % 10)) 8 s

/-- One more fc in LE_BUSY_FC_HI:LE_BUSY_FC of an engine. -/
def State.busyEdge (s : State) (p : Nat) : State :=
  if s.leClocked p then s.setReg64 (LE_BUSY_FC p) (LE_BUSY_FC_HI p) (s.reg64 (LE_BUSY_FC p) (LE_BUSY_FC_HI p) + 1) else s

/-- Tally, where the accumulator serves it: what it adds on this edge in tk, a set apart, and the state after. -/
def State.tallyStep (s : State) : Nat × State :=
  if s.flag TB_STAT fTB_STAT_SRC then
    ((tallyOf ((if s.flag TB_CTRL fTB_CTRL_SEL then s.tb.b else s.tb.a) + s.tallyInc) - s.now).toNat, s.tallyEdge)
  else (0, s)

/-- What was put off to the edge that ends fc `c` takes place, oldest first. -/
def State.doAct (s : State) : Act → State
  | .levelEval p k => s.levelEval p k
  | .groupAct g e st => s.groupAct g e st
  | .tripGlitch n d => s.glitchAct n d
  | .levelQueue n => s.levelChanged n
  | .pfWidth x w => s.setNat (PF_WIDTH x) w

def State.doDue (s : State) (c : Nat) : State :=
  let now := s.due.filter (fun e => decide (e.1 ≤ c))
  now.foldl (fun s e => s.doAct e.2) { s with due := s.due.filter (fun e => !decide (e.1 ≤ c)) }

/-- What the units of the fast domain do at the edge that ends fc `c`, beside Tally and the timers. -/
def State.unitsEdge (s : State) (c d : Nat) : State :=
  let s := ((s.fireQueued.samplesEdge c).gensEdge c).chsEdge.seedStep.walkStep
  let s := (forN (fun p s => s.busyEdge p) 72 s.phaseEdge).rankEdge.wdgTick d
  s.atomicEdge.l1Done.dvTimeout.doDue c

/-- A rising CLK_FAST edge: journal entries of the fc enter the input queue, Tally advances, the next fc begins. In an
emulated Rest or Fold only Tally and the timers advance (20_debug.md R510). -/
def State.fastEdge (s : State) : State :=
  let c := s.fc
  let live := s.live
  let s := if live then s.snapEdge.hirqEdge else s.snapEdge
  let s := if live then ((s.groupsSettle.samplesEnd c).chsEnd.pfsEnd.scCompare).dvEnd.flkEnd.evEnd.jCommit.jTake else s.evEnd.jCommit
  let x := s.tallyStep
  let s := State.lanesDone { x.2 with fc := c + 1, hot := [], qf := { x.2.qf with fresh := [], cross := [], wmOld := [] } }
  let s := s.timsEdge c
  if live then s.unitsEdge c x.1 else s

/-- A rising CLK_SLOW edge: in slow advance Tally and the timers step, but for the first edge after the fast clock was released,
which keeps them (R40, R263); the edge is the handover edge of R42 when CLK_FAST runs with PLL_LOCK high. -/
def State.slowEdge (s : State) : State :=
  let slow := !s.flag TB_STAT fTB_STAT_SRC
  let hold := slow && s.tb.hold
  let s := { s with tb.hold := false }
  let s := if slow && !hold then s.tallySlowEdge else s
  let s := if slow then s.timsSlowEdge hold else s
  let s := if s.live && slow && !hold then s.wdgTick 131072 else s
  let s := s.roTick
  let s := if s.pw.fast then s else { s.lanesDone with hot := [] }
  if s.pw.fast && s.pw.pll && slow then s.tallyHandover.timsSlow false else s

/-! ### The commands -/

/-- TALLY_ADVANCE: the edge has no effect while CLK_FAST is stopped or PLL_LOCK is low. -/
def execTallyAdvance (s : State) : Out := .next (if s.pw.fast && s.pw.pll then s.fastEdge else s)

def execSlowClockEdge (s : State) : Out := .next s.slowEdge

/-- The delay line locks (22_characteristics.md R542). -/
def execDelayLineLock (s : State) : Out := .next (if s.pw.fast && s.pw.pll then s.setFlag TB_STAT fTB_STAT_COARSE false else s)

end Sys2Proof.Machine
end

