-- ==== Sys2Proof/Machine/Operands.lean ====
section
/-!
DEFINITION. The operands of Kamyn (04_kamyn_instruction_set.md R97 to R104, R113 to R142): the decoder of instruction words with
every ILLEGAL encoding of R99, the registers of a bank with their poison bits, guards, and the modify function of R119.
-/

namespace Sys2Proof.Machine

/-! ### Instruction words (R97, R113, R115) -/

/-- How a load or store updates its address register. -/
inductive KPost
  | keep | plus4 | modM (m : Nat)
deriving DecidableEq, Repr

/-- A decoded instruction. Registers have the numbers of R100, offsets of branches are in bytes. -/
inductive KOp
  | nop | wait | isync | ret | brk
  | signal (ds : Option Nat) (code : Nat)
  | alu (f rd ra rb : Nat) (x : Bool)
  | alui (op rd imm : Nat)
  | acc (f rd ra rb : Nat) (x : Bool)
  | addr (f rd ra rb : Nat)
  | imm (op rd v : Nat)
  | mov (rd rs : Nat)
  | mem (store post32 : Bool) (rd w an : Nat) (off : Int) (post : KPost)
  | bra (off : Int) | bg (neg : Bool) (g : Nat) (off : Int) | bdec (dn : Nat) (off : Int)
  | br (off : Int) | call (off : Int) | jr (an : Nat) | callr (an : Nat)
  | queue (op n qsel dr st qv : Nat)
  | pwd (pw ds cmp mode tp : Nat) (fmt : Bool)
  | stamp (dr form k : Nat) | rank (an : Nat) | ucall (entry rx : Nat) | mode (ds : Nat) | rdmode (dr : Nat)
  | cplx (f rd ra rb : Nat) (x : Bool)
  | sup (op hi : Nat)
deriving DecidableEq, Repr

/-- A field of n bits read as signed. -/
def sx (n v : Nat) : Int := if v < 2 ^ (n - 1) then v else (v : Int) - 2 ^ n

/-- Is the word a 32-bit instruction? -/
def kWide (w : Word) : Bool := bitsOf w.toNat 14 2 == 3

/-- The length of the instruction in bytes. -/
def kLen (w : Word) : Nat := if kWide w then 4 else 2

/-- The guard field (R104); a 16-bit instruction has none. -/
def kGuard (w : Word) : Nat := if kWide w then bitsOf w.toNat 7 3 else 0

/-- Classes of R100. -/
def isD (n : Nat) : Bool := decide (n < 16)
def isA (n : Nat) : Bool := decide (16 ≤ n) && decide (n < 24)
def isM (n : Nat) : Bool := decide (24 ≤ n) && decide (n < 28)
def isAC (n : Nat) : Bool := decide (28 ≤ n) && decide (n < 32)

/-- A group of k D registers from n. -/
def grpD (n k : Nat) : Bool := decide (n + k ≤ 16)

/-- Keep a decoding only where its fields are allowed. -/
def kWhen (b : Bool) (op : KOp) : Option KOp := if b then some op else none

/-- ALU FUNCTs (R117): unary ones, those marked SAT/OV, and the assigned ones. -/
def aluUnary (f : Nat) : Bool := [0x02, 0x03, 0x0D, 0x14].contains f
def aluSat (f : Nat) : Bool := [0x00, 0x01, 0x02, 0x03, 0x04, 0x07, 0x08, 0x09, 0x18].contains f
def aluAssigned (f : Nat) : Bool :=
  decide (f ≤ 0x0D) || (decide (0x10 ≤ f) && decide (f ≤ 0x14)) || (decide (0x18 ≤ f) && decide (f ≤ 0x1A))
    || (decide (0x20 ≤ f) && decide (f ≤ 0x26))

/-- MAJ 0x0 (R117). -/
def kAlu (f rd ra rb : Nat) (x : Bool) : Option KOp :=
  kWhen (aluAssigned f && isD rd && (if f = 0x0C then (isD ra || isAC ra) && grpD rb 2
      else isD rb && (if aluUnary f then ra == 0 else isD ra)) && (!x || aluSat f))
    (.alu f rd ra rb x)

/-- MAJ 0x1 (R118). -/
def kAcc (f rd ra rb : Nat) (x : Bool) : Option KOp :=
  let ok :=
    if f ≤ 0x0A ∧ f % 4 ≠ 3 then isAC rd && isD ra && isD rb && (!x || decide (f < 8))
    else match f with
      | 0x10 => isAC rd && ra == 0 && rb == 0 && !x
      | 0x11 => isAC rd && isAC ra && isAC rb
      | 0x12 => isAC rd && isAC ra && isAC rb
      | 0x13 => isAC rd && ra == 0 && isAC rb
      | 0x14 => isAC rd && isAC rb
      | 0x18 => isD rd && isAC ra && !x
      | 0x19 => isAC rd && isD ra && rb == 0 && !x
      | 0x1A => isD rd && isAC ra && decide (rb < 3) && !x
      | 0x1B => isAC rd && isD ra && decide (rb < 3) && !x
      | _ => false
  kWhen ok (.acc f rd ra rb x)

/-- MAJ 0x2 (R120). -/
def kAddr (f rd ra rb : Nat) (x : Bool) : Option KOp :=
  kWhen (!x && isA rd && isA ra && (match f with
    | 0 => isD rb | 1 => isD rb | 2 => isA rb | 3 => isM rb | _ => false)) (.addr f rd ra rb)

/-- MAJ 0x3 (R121). -/
def kImm (op rd v : Nat) : Option KOp :=
  kWhen (!isAC rd && !(isA rd && op % 2 == 1)) (.imm op rd v)

/-- Register and width of a load or store (R123). -/
def memReg (rd w : Nat) : Bool :=
  match w with
  | 0 => isD rd
  | 1 => isD rd
  | 2 => !isAC rd
  | _ => isD rd && rd % 2 == 0

/-- MAJ 0x7 (R124). -/
def kBranch (lo hi : Nat) : Option KOp :=
  let off : Int := 2 * sx 21 (bitsOf lo 0 5 * 65536 + hi)
  match bitsOf lo 5 2 with
  | 0 => some (.br off)
  | 1 => some (.call off)
  | 2 => kWhen (!bitOf lo 0 && hi == 0)
      (if bitOf lo 4 then .callr (16 + bitsOf lo 1 3) else .jr (16 + bitsOf lo 1 3))
  | _ => none

/-- MAJ 0x8 (R125, R126). -/
def kQueue (lo hi : Nat) : Option KOp :=
  let op := bitsOf lo 4 3
  let n := bitsOf lo 2 2
  let qsel := bitsOf lo 0 2
  let dr := bitsOf hi 12 4
  let st := bitsOf hi 9 3
  let qv := bitsOf hi 1 8
  let q := match qsel with | 0 => decide (qv < 4) | 1 => true | 2 => decide (qv < 16) | _ => false
  let o := match op with
    | 0 => grpD dr (2 ^ n)
    | 1 => grpD dr (2 ^ n)
    | 2 => decide (dr < 8) && decide (n < 2)
    | 3 => decide (dr < 8) && decide (n < 2)
    | 4 => n == 0
    | _ => false
  kWhen (q && o && (st == 0 || decide (4 ≤ st)) && !bitOf hi 0) (.queue op n qsel dr st qv)

/-- MAJ 0x9 (R128). -/
def kPwd (lo hi : Nat) : Option KOp :=
  let pw := bitsOf lo 1 6
  let mode := bitsOf hi 8 2
  kWhen (!bitOf lo 0 && decide (pw < 48) && decide (mode < 3) && bitsOf hi 0 4 == 0)
    (.pwd pw (bitsOf hi 12 4) (bitsOf hi 10 2) mode (bitsOf hi 5 3) (bitOf hi 4))

/-- MAJ 0xA (R134). -/
def kCplx (f rd ra rb : Nat) (x : Bool) : Option KOp :=
  let ok := match f with
    | 0x00 => (isD rd || isAC rd) && isA ra && isD rb && !x
    | 0x01 => grpD rd 2 && grpD ra 3 && rb == 0 && !x
    | 0x02 => grpD rd 3 && grpD ra 2 && rb == 0 && !x
    | 0x03 => grpD rd 2 && grpD ra 2 && grpD rb 2 && !x
    | 0x04 => grpD rd 2 && grpD ra 2 && grpD rb 2 && !x
    | 0x08 => grpD rd 2 && isD ra && rb == 0 && !x
    | 0x0C => isD rd && isD ra && isD rb && !x
    | 0x0E => isD rd && isD ra && isD rb && !x
    | 0x10 => isD rd && ra == 0 && isD rb
    | 0x18 => isAC rd && isA ra && isA rb && !x
    | _ => false
  kWhen ok (.cplx f rd ra rb x)

/-- MAJ 0xB (R130). -/
def kSystem (lo hi : Nat) : Option KOp :=
  if bitsOf lo 0 2 ≠ 0 then none
  else match bitsOf lo 2 5 with
    | 0 =>
      let dr := bitsOf hi 12 4
      let form := bitsOf hi 10 2
      let k := bitsOf hi 6 4
      kWhen (dr % 2 == 0 && decide (form < 3) && bitsOf hi 0 6 == 0 && (form == 2 || k == 0)) (.stamp dr form k)
    | 1 => kWhen (bitsOf hi 0 4 == 0) (.signal (some (bitsOf hi 12 4)) (bitsOf hi 4 8))
    | 2 => kWhen (bitsOf hi 0 13 == 0) (.rank (16 + bitsOf hi 13 3))
    | 3 => kWhen (bitsOf hi 0 2 == 0) (.ucall (bitsOf hi 7 9) (bitsOf hi 2 5))
    | 4 => kWhen (bitsOf hi 0 12 == 0) (.mode (bitsOf hi 12 4))
    | 5 => kWhen (bitsOf hi 0 12 == 0) (.rdmode (bitsOf hi 12 4))
    | _ => none

/-- MAJ 0xF (R142). -/
def kSuper (lo hi : Nat) : Option KOp :=
  let op := bitsOf lo 2 5
  let ok := match op with
    | 0 => bitsOf hi 0 8 == 0
    | 1 => hi == 0
    | 2 => bitsOf hi 0 6 == 0
    | 3 => bitsOf hi 0 6 == 0
    | 4 => true
    | 5 => true
    | 6 => bitsOf hi 0 14 == 0
    | _ => false
  kWhen (ok && bitsOf lo 0 2 == 0) (.sup op hi)

/-- The 32-bit groups (R115). -/
def kOp32 (n : Nat) : Option KOp :=
  let lo := bitsOf n 0 7
  let hi := bitsOf n 16 16
  let rd := bitsOf n 27 5
  let ra := bitsOf n 22 5
  let rb := bitsOf n 17 5
  let x := bitOf n 16
  let r2 := bitsOf n 2 5
  let w := bitsOf n 0 2
  match bitsOf n 10 4 with
  | 0x0 => kAlu lo rd ra rb x
  | 0x1 => kAcc lo rd ra rb x
  | 0x2 => kAddr lo rd ra rb x
  | 0x3 => kImm w r2 hi
  | 0x4 => kWhen (memReg r2 w) (.mem false false r2 w (16 + bitsOf n 16 3) (sx 13 (bitsOf n 19 13)) .keep)
  | 0x5 => kWhen (memReg r2 w) (.mem true false r2 w (16 + bitsOf n 16 3) (sx 13 (bitsOf n 19 13)) .keep)
  | 0x6 => kWhen (memReg r2 w && bitsOf n 16 10 == 0)
      (.mem (bitOf n 31) true r2 w (16 + bitsOf n 28 3) 0 (.modM (24 + bitsOf n 26 2)))
  | 0x7 => kBranch lo hi
  | 0x8 => kQueue lo hi
  | 0x9 => kPwd lo hi
  | 0xA => kCplx lo rd ra rb x
  | 0xB => kSystem lo hi
  | 0xF => kSuper lo hi
  | _ => none

/-- MOV (R122): the moves of the table. -/
def kMov (rd rs : Nat) : Option KOp :=
  kWhen ((isD rd) || (isD rs) || (isA rd && isA rs) || (isM rd && isM rs) || (isAC rd && isAC rs)) (.mov rd rs)

/-- The 16-bit groups (R113, R114). -/
def kOp16 (n : Nat) : Option KOp :=
  let d3 := bitsOf n 3 3
  let s3 := bitsOf n 0 3
  match bitsOf n 12 4 with
  | 0x0 =>
    let arg := bitsOf n 0 8
    (match bitsOf n 8 4 with
     | 1 => kWhen (arg == 0) .nop
     | 2 => kWhen (arg == 0) .wait
     | 3 => kWhen (arg == 0) .isync
     | 4 => kWhen (arg == 0) .ret
     | 5 => kWhen (arg == 0) .brk
     | 6 => some (.signal none arg)
     | _ => none)
  | 0x1 =>
    let f := bitsOf n 6 6
    kWhen (aluAssigned f) (.alu f d3 (if aluUnary f then 0 else d3) s3 false)
  | 0x2 => some (.alui (bitsOf n 9 3) s3 (bitsOf n 3 6))
  | 0x3 =>
    let an := bitsOf n 7 2
    let mode := bitsOf n 9 2
    kWhen (mode == 3 || s3 == 0) (.mem (bitOf n 11) false (bitsOf n 3 4) 2 (16 + an) (4 * s3)
      (match mode with | 1 => .plus4 | 2 => .modM (24 + an) | _ => .keep))
  | 0x4 =>
    let op := bitsOf n 9 3
    let ac := 28 + bitsOf n 8 1
    let fmt := bitsOf n 6 2
    (match op with
     | 0 => kWhen (fmt != 3) (.acc fmt ac d3 s3 false)
     | 1 => kWhen (fmt != 3) (.acc (4 + fmt) ac d3 s3 false)
     | 2 => kWhen (fmt != 3) (.acc (8 + fmt) ac d3 s3 false)
     | 3 => kWhen (bitsOf n 0 8 == 0) (.acc 0x10 ac 0 0 false)
     | _ => none)
  | 0x5 =>
    let k := bitsOf n 8 2
    let dd := bitsOf n 4 4
    kWhen (k != 3 && bitsOf n 0 4 == 0 && grpD dd (2 ^ k)) (.queue 0 k 0 dd 0 (bitsOf n 10 2))
  | 0x6 => some (.bra (2 * sx 12 (bitsOf n 0 12)))
  | 0x7 => some (.bg (bitOf n 11) (12 + bitsOf n 9 2) (2 * sx 9 (bitsOf n 0 9)))
  | 0x8 => some (.bdec (bitsOf n 9 3) (2 * sx 9 (bitsOf n 0 9)))
  | 0x9 => if bitsOf n 10 2 = 0 then kMov (bitsOf n 5 5) (bitsOf n 0 5) else none
  | _ => none

/-- The decoder: none for an ILLEGAL encoding (R99). -/
def kOp (w : Word) : Option KOp := if kWide w then kOp32 w.toNat else kOp16 (w.toNat % 65536)

/-- Is the word of the supervisor group (MAJ 0xF)? -/
def kIsSuper (w : Word) : Bool := kWide w && bitsOf w.toNat 10 4 == 0xF

/-- What the Shepherd treats as ILLEGAL (R141): with the encodings of R99. -/
def shIllegal : KOp → Bool
  | .pwd .. => true
  | .rank .. => true
  | .ucall .. => true
  | .queue _ _ qsel _ _ _ => qsel == 0
  | .stamp _ form _ => form == 1
  | _ => false

/-! ### The registers of a bank (R71, R100, R103) -/

def Bank.gd (x : Bank) (n : Nat) : Word := tget (fun _ => 0) x.d n
def Bank.ga (x : Bank) (n : Nat) : Addr := tget (fun _ => 0) x.a (n - 16)
def Bank.gm (x : Bank) (n : Nat) : Word := tget (fun _ => 0) x.m (n - 24)
def Bank.gac (x : Bank) (n : Nat) : Acc72 := tget (fun _ => 0) x.ac (n - 28)

/-- The signed value of a D register. -/
def Bank.di (x : Bank) (n : Nat) : Int := (x.gd n).toInt

/-- The signed value of an accumulator. -/
def Bank.aci (x : Bank) (n : Nat) : Int := (x.gac n).toInt

/-- The value of a register as a natural number, by its number. -/
def Bank.get (x : Bank) (n : Nat) : Nat :=
  if n < 16 then (x.gd n).toNat
  else if n < 24 then (x.ga n).toNat
  else if n < 28 then (x.gm n).toNat
  else (x.gac n).toNat

/-- Is the register poisoned? -/
def Bank.pois (x : Bank) (n : Nat) : Bool := bitOf x.poison.toNat n

/-- Is any of the registers poisoned? -/
def Bank.poisAny (x : Bank) (ns : List Nat) : Bool := ns.any x.pois

def Bank.setPois (x : Bank) (n : Nat) (p : Bool) : Bank :=
  { x with poison := BitVec.ofNat 32 (withBits x.poison.toNat n 1 (b2n p)) }

/-- Write a register with its poison bit: the low bits that it holds. -/
def Bank.put (x : Bank) (n v : Nat) (p : Bool) : Bank :=
  let x :=
    if n < 16 then { x with d := tset (fun _ => (0 : Word)) x.d n (.ofNat 32 v) }
    else if n < 24 then { x with a := tset (fun _ => (0 : Addr)) x.a (n - 16) (.ofNat 24 v) }
    else if n < 28 then { x with m := tset (fun _ => (0 : Word)) x.m (n - 24) (.ofNat 32 v) }
    else { x with ac := tset (fun _ => (0 : Acc72)) x.ac (n - 28) (.ofNat 72 v) }
  x.setPois n p

/-- Write a register from an integer. -/
def Bank.putI (x : Bank) (n : Nat) (v : Int) (p : Bool) : Bank := x.put n (v % 2 ^ 72).toNat p

/-- Write consecutive registers, in ascending order (R102). -/
def Bank.putAll (x : Bank) (n : Nat) (p : Bool) : List Int → Bank
  | [] => x
  | v :: t => Bank.putAll (x.putI n v p) (n + 1) p t

/-! ### LE_MODE of a bank (R109) -/

def Bank.rnd (x : Bank) : Nat := bitsOf x.mode.toNat 0 2
def Bank.sat (x : Bank) : Bool := bitOf x.mode.toNat 2

/-- Set the flags of a mask: they are sticky (R108). -/
def Bank.raise (x : Bank) (m : Nat) : Bank := { x with mode := x.mode ||| .ofNat 32 m }

/-- MODE (R110): the flags at once, RND and SAT for the third instruction after it; a RND of 3 stores 2. -/
def Bank.modeWrite (x : Bank) (v : Word) : Bank :=
  { x with
    mode := .ofNat 32 (withBits x.mode.toNat 8 5 (bitsOf v.toNat 8 5))
    modeWait := x.modeWait ++ [(3, .ofNat 32 (modeLow v))] }

/-- RDMODE (R110): RND and SAT as last written, the flags as they stand. -/
def Bank.modeRead (x : Bank) : Word :=
  match x.modeWait.getLast? with
  | some e => .ofNat 32 (withBits x.mode.toNat 0 3 e.2.toNat)
  | none => x.mode

/-! ### Guards (R104) -/

/-- The register that a guard field tests, and the sense. -/
def guardReg (g : Nat) : Option (Nat × Bool) :=
  match g with
  | 1 => some (13, true) | 2 => some (14, true) | 3 => some (15, true) | 4 => some (12, true)
  | 5 => some (13, false) | 6 => some (14, false) | 7 => some (15, false)
  | _ => none

/-- Is the register of the guard poisoned? -/
def Bank.guardPois (x : Bank) (g : Nat) : Bool :=
  match guardReg g with
  | some (r, _) => x.pois r
  | none => false

/-- Does the guard hold? -/
def Bank.guardHolds (x : Bank) (g : Nat) : Bool :=
  match guardReg g with
  | some (r, t) => (x.gd r != 0) == t
  | none => true

/-! ### Circular addressing (R119) -/

/-- The smallest power of two that is at least `n`, for n up to 2^16. -/
def pow2Above (n : Nat) : Nat := forN (fun i p => if n ≤ 2 ^ (16 - i) then 2 ^ (16 - i) else p) 17 65536

/-- The function modify. -/
def modifyA (a : Nat) (m : Word) : Nat :=
  let len := bitsOf m.toNat 16 16
  let step := sx 16 (bitsOf m.toNat 0 16)
  if len = 0 then (((a : Int) + step) % 2 ^ 24).toNat
  else
    let p := pow2Above len
    let base := a - a % p
    (base + ((((a % p : Nat) : Int) + step) % (len : Int)).toNat) % 2 ^ 24

/-- An offset added to an address, modulo 2^24. -/
def addrAdd (a : Nat) (off : Int) : Nat := (((a : Int) + off) % 2 ^ 24).toNat

end Sys2Proof.Machine
end

