-- ==== Sys2Proof/Machine/Flags.lean ====
section
/-!
DEFINITION. The arithmetic of Kamyn and its flags (04_kamyn_instruction_set.md R105 to R108, R117, R118, R136 to R138): exact
results, one rounding, saturation or wrapping, and the flags of LE_MODE they set.
-/

namespace Sys2Proof.Machine

/-- The flags of LE_MODE (R109). -/
def fSV : Nat := 256
def fOV : Nat := 512
def fQE : Nat := 1024
def fQF : Nat := 2048
def fDOM : Nat := 4096

/-! ### Rounding (R107) -/

/-- The exact quotient n / d, d positive, rounded: 0 truncate (floor), 1 half up, 2 convergent. -/
def roundDiv (rnd : Nat) (n d : Int) : Int :=
  let q := n / d
  let r := n % d
  match rnd with
  | 0 => q
  | 1 => if d ≤ 2 * r then q + 1 else q
  | _ => if d < 2 * r then q + 1 else if 2 * r = d ∧ q % 2 ≠ 0 then q + 1 else q

/-- Drop k low bits. -/
def roundShift (rnd : Nat) (x : Int) (k : Nat) : Int := roundDiv rnd x (2 ^ k)

/-! ### Fitting a result to its format (R108) -/

/-- The signed value of the low n bits. -/
def wrapS (n : Nat) (v : Int) : Int := (v + 2 ^ (n - 1)) % 2 ^ n - 2 ^ (n - 1)

/-- An exact result in n signed bits under SAT/OV: value and flags. -/
def fitSO (n : Nat) (sat : Bool) (v : Int) : Int × Nat :=
  if -(2 ^ (n - 1)) ≤ v ∧ v < 2 ^ (n - 1) then (v, 0)
  else if sat then (if v < 0 then -(2 ^ (n - 1)) else 2 ^ (n - 1) - 1, fSV)
  else (wrapS n v, fOV)

/-- An exact result that saturates in every case, marked SV. -/
def fitSV (n : Nat) (v : Int) : Int × Nat := fitSO n true v

/-- The two Q1.15 halves of a word. -/
def halfHi (w : Word) : Int := (w.extractLsb' 16 16).toInt
def halfLo (w : Word) : Int := (w.extractLsb' 0 16).toInt

/-- Two halves joined, each under SAT/OV. -/
def fitHalves (sat : Bool) (h l : Int) : Int × Nat :=
  let a := fitSO 16 sat h
  let b := fitSO 16 sat l
  (a.1 * 65536 + b.1 % 65536, a.2 ||| b.2)

/-- A relation's result (R105). -/
def cmpI (b : Bool) : Int × Nat := (if b then 1 else 0, 0)

/-- Bits below bit 31 equal to it, from bit 30 down (R117 NORM). -/
def normFrom (w : Nat) (s : Bool) : Nat → Nat
  | 0 => 0
  | n + 1 => if bitOf w n = s then normFrom w s n + 1 else 0

def norm32 (w : Word) : Nat := normFrom w.toNat (bitOf w.toNat 31) 31

/-! ### Accumulators (R106, R118) -/

/-- The product p of the format: 0 F, 1 I, 2 D. -/
def macProduct (fmt : Nat) (a b : Word) : Int :=
  match fmt with
  | 0 => a.toInt * b.toInt * 2
  | 1 => a.toInt * b.toInt
  | _ => (halfHi a * halfHi b + halfLo a * halfLo b) * 2 ^ 33

/-- An accumulator brought to Q1.31 after a shift by sh (SAC, CLIP, MOV): rounded once, saturated. -/
def sacValue (rnd : Nat) (ac sh : Int) : Int × Nat :=
  fitSV 32 (roundDiv rnd (ac * 2 ^ (sh + 16).toNat) (2 ^ 48))

/-- A part of an accumulator, and one replaced (ACRD, ACWR). -/
def accGet (a : Acc72) (part : Nat) : Nat := a.toNat / 2 ^ (32 * part) % 2 ^ 32
def accSet (a : Acc72) (part : Nat) (v : Word) : Nat :=
  withBits a.toNat (32 * part) (if part = 2 then 8 else 32) v.toNat

/-! ### Transforms and functions (R136 to R138) -/

def k3 : Int := 0x2AAAAAAB
def kr : Int := 0x49E69D16
def kh : Int := 0x6ED9EBA1

/-- An exact result of 62 fraction bits brought to Q1.31. -/
def q31 (rnd : Nat) (v : Int) : Int × Nat := fitSV 32 (roundShift rnd v 31)

/-- The angles atan(2^-i) in binary angle units (R137). -/
def atanTable : List Int :=
  [536870912, 316933406, 167458907, 85004756, 42667331, 21354465, 10679838, 5340245, 2670163, 1335087, 667544,
   333772, 166886, 83443, 41722, 20861, 10430, 5215, 2608, 1304, 652, 326, 163, 81, 41, 20, 10, 5, 3, 1,
   1]

/-- Iterations of R137 from the i-th on, with the angles they take. -/
def cordic : List Int → Nat → Int × Int × Int → Int × Int × Int
  | [], _, v => v
  | t :: ts, i, (x, y, z) =>
    if 0 ≤ z then cordic ts (i + 1) (x - y / 2 ^ i, y + x / 2 ^ i, z - t)
    else cordic ts (i + 1) (x + y / 2 ^ i, y - x / 2 ^ i, z + t)

/-- The nearest quarter turn of a binary angle, and x, y, z after iteration 15. -/
def sincosHalf (a : Word) : Nat × Int × Int × Int :=
  let q : Nat := (a.toNat + 2 ^ 29) / 2 ^ 30 % 4
  (q, cordic (atanTable.take 16) 0 (0x4DBA76D4 * 256, 0, wrapS 32 ((a.toNat : Int) - (q : Int) * 2 ^ 30)))

/-- Sine and cosine from there, before rounding. -/
def sincosRest (q : Nat) (v : Int × Int × Int) : Int × Int :=
  let (x, y, _) := cordic (atanTable.drop 16) 16 v
  match q with
  | 0 => (y, x)
  | 1 => (x, -y)
  | 2 => (-y, -x)
  | _ => (-x, y)

/-- Sine and cosine of a binary angle, before rounding. -/
def sincosRaw (a : Word) : Int × Int := sincosRest (sincosHalf a).1 (sincosHalf a).2

/-- Integer square root by bits, from bit k - 1 down. -/
def isqrtFrom (n : Nat) : Nat → Nat → Nat
  | 0, r => r
  | k + 1, r => if (r + 2 ^ k) * (r + 2 ^ k) ≤ n then isqrtFrom n k (r + 2 ^ k) else isqrtFrom n k r

/-- The integer square root of a number below 2^64. -/
def isqrt64 (n : Nat) : Nat := isqrtFrom n 32 0

/-- DIV (R138). -/
def divValue (a b : Int) : Int × Nat :=
  if b = 0 then (if 0 ≤ a then 2 ^ 31 - 1 else -(2 ^ 31), fDOM) else fitSV 32 (Int.tdiv a b)

/-- DIVQ (R138). -/
def divqValue (rnd : Nat) (a b : Int) : Int × Nat :=
  if b = 0 then (if 0 ≤ a then 2 ^ 31 - 1 else -(2 ^ 31), fDOM)
  else fitSV 32 (roundDiv rnd ((if b < 0 then -a else a) * 2 ^ 31) (if b < 0 then -b else b))

/-- SQRT (R138). -/
def sqrtValue (rnd : Nat) (x : Bool) (w : Word) : Int × Nat :=
  if x then (isqrt64 w.toNat, 0)
  else if w.toInt < 0 then (0, fDOM)
  else
    let n := w.toNat * 2 ^ 31
    let r := isqrt64 n
    (if rnd ≠ 0 ∧ r * r + r < n then r + 1 else r, 0)

end Sys2Proof.Machine
end

