-- ==== Sys2Proof/Machine/Kamyn.lean ====
section
/-!
DEFINITION. How a core runs one Kamyn instruction (04_kamyn_instruction_set.md R97 to R104, R110, R141, R142): when it may, the
fetch of its parcels, its guard, and what each outcome leaves; the memories it reaches (R64 to R66, R112, R387 to R389,
R393, R407 to R411).
-/

namespace Sys2Proof.Machine

/-- How an instruction ends: completed; a taken branch; a fault with its address, or none that the spec gives; held at its first
word, to be issued again, which is a safe point (R150), with the micro-address of that word where the spec gives it; waiting for a load; at a safe point inside it; or completed with everything in place. -/
inductive KRes
  | ok (s : State) (x : Bank)
  | jump (s : State) (x : Bank) (t : Nat)
  | fault (s : State) (cause : Nat) (addr : Option Nat)
  | hold (s : State) (ua : Option Nat)
  | pend (s : State) (x : Bank)
  | part (s : State) (x : Bank) (p : Partial)
  | done (s : State)

/-- An instruction being executed: the core, the state, its bank, its address and length. -/
structure K where
  c : Core
  s : State
  x : Bank
  pc : Nat
  len : Nat

/-! ### The cores -/

/-- The bank number of the running task. -/
def State.runBank (s : State) (p : Nat) : Nat := s.slotPri p ((s.running p).getD 0)

def State.kBank (s : State) : Core → Bank
  | .eng p => s.bank p (s.runBank p)
  | .shep => s.shBank

/-- Place the bank of the core; a Shepherd that its own store has put into reset keeps what the reset gave it. -/
def State.setKBank (s : State) (c : Core) (x : Bank) : State :=
  match c with
  | .eng p => s.setBank p (s.runBank p) x
  | .shep => if s.pw.mode = .reset then s else s.setShBank x

/-- May the core issue an instruction, or go on with the one it is in? A halt that is due waits only for a safe point (R180); a handler whose
budget has run out goes no further (R398). -/
def State.kReady (s : State) : Core → Bool
  | .eng p => s.live && (s.running p).isSome && !(s.eng p).parked && !(s.eng p).halted
      && (!(s.eng p).haltReq || (s.bank p (s.runBank p)).micro.mid == 2)
  | .shep => s.live && (s.pw.mode == .graze || s.pw.mode == .startup) && !s.flag SH_STAT fSH_STAT_SLEEP
      && !(s.sh.aopen == 1 && s.sh.abudget == 0)

/-- A fault of the core. Where the spec gives the fault no address, its register takes a free value (log entry 1). -/
def State.kFault (s : State) (c : Core) (cause : Nat) (addr : Option Nat) : State :=
  let a := addr.getD (s.freeVal.toNat % 2 ^ 24)
  let s := if addr.isNone then s.tookFree else s
  match c with
  | .eng p => s.engineFault p cause a
  | .shep => s.shFault cause a

/-- A core stands at a safe point: of an engine, the distance counter is zero (R184), a stepped one halts there, and an activation
whose deadline passed ends (R182). -/
def State.atSafe (s : State) : Core → State
  | .eng p => ((s.setDist p 0).stepped p).lateAbandon p
  | .shep => s

/-- The end of an instruction: one more has issued (R110), and nothing of it is left. -/
def State.kEnd (s : State) (c : Core) (x : Bank) : State :=
  (s.setKBank c { x.modeTick with micro := x.micro.ended }).atSafe c

/-- The core stands inside the instruction: at a safe point, or in a wait that is none. -/
def State.kRest (s : State) (k : K) (x : Bank) (safe again : Bool) (part : Option Partial) (ua : Option Nat) : State :=
  let m := { x.micro with mid := if safe then 1 else 2, again := again, part := part, upc := ua, ucaller := .ofNat 24 k.pc }
  let s := s.setKBank k.c { x with micro := m }
  if safe then s.atSafe k.c else s

/-- May code be fetched at an address (R64, R387)? -/
def fetchable (c : Core) (a : Nat) : Bool :=
  match c with
  | .eng _ => engRegion a == .loopBuf || engRegion a == .code
  | .shep => (match shRegion a with
    | .rom _ => true
    | .patch _ => true
    | .flash _ => true
    | _ => false)

/-- A taken branch (R98, R112, R394). It writes out the code-store buffer, line by line (R149, R150). -/
def State.kJump (s : State) (k : K) (x : Bank) (t : Nat) : State :=
  if t % 2 ≠ 0 then k.s.kFault k.c 5 (some t)
  else if !fetchable k.c t then k.s.kFault k.c 3 (some t)
  else
    let x := { x with pc := .ofNat 24 t }
    match k.c with
    | .eng p =>
      let (more, s) := s.codeStep p
      if more then s.kRest k k.x true true none none else s.kEnd k.c x
    | .shep => (s.btbBranch (.ofNat 24 k.pc) (.ofNat 24 t)).kEnd k.c x

/-- What the outcome leaves. A fault inside an instruction leaves nothing of it in progress on the Shepherd, whose fault enters an
exception. -/
def K.finish (k : K) : KRes → State
  | .ok s x => s.kEnd k.c { x with pc := .ofNat 24 (k.pc + k.len) }
  | .jump s x t => s.kJump k x t
  | .fault s cause addr =>
    (match k.c with
     | .shep => (s.setKBank .shep { s.kBank .shep with micro := (s.kBank .shep).micro.cleared }).kFault k.c cause addr
     | .eng _ => s.kFault k.c cause addr)
  | .hold s ua => s.kRest k k.x true true none ua
  | .pend s x => s.kRest k x true true none none
  | .part s x p => s.kRest k x true false (some p) none
  | .done s => s

/-! ### Fetch (R97, R98, R393, R408, R410) -/

/-- The fetch of one parcel by an engine. -/
def State.engParcel (s : State) (c : Core) (p a : Nat) : Option KRes :=
  if !fetchable c a then some (.fault s 3 (some a))
  else if s.poisoned (engPhys p a) then some (.fault s 1 (some a))
  else none

/-- The fetch of one parcel by the Shepherd: what stops it, and the state after it. -/
def State.shParcel (s : State) (a : Nat) : Option KRes × State :=
  if !fetchable .shep a then (some (.fault s 3 (some a)), s)
  else if !s.mpuOk s.shOuter s.shSup a 2 .exec then (some (.fault (s.mpuDeny a 2) 8 (some a)), s)
  else
    match shRegion a with
    | .flash off =>
      let (ok, s) := s.needLine a off true
      (if ok then none else some (.done s), s)
    | .patch off => (if s.poisoned (patchRam + off) then some (.fault s 1 (some a)) else none, s)
    | _ => (match s.remapped true a with
      | some r => if s.poisoned r then some (.fault s 1 (some a)) else none
      | none => none, s)

/-- The debug event of a patch unit in MODE 3 for a parcel that has been fetched (R410). -/
def State.patchEvent (s : State) (a : Nat) : State :=
  match s.patchUnit true a with
  | some (_, 3) => s.shDebugEvent 2
  | _ => s

/-- The debug events of the parcels of an instruction; an instruction that its first word holds is not fetched again. -/
def State.patchEvents (s : State) (x : Bank) (pc : Nat) (wide : Bool) : State :=
  if x.micro.mid != 0 && x.micro.ucaller.toNat == pc then s
  else
    let s := s.patchEvent pc
    if wide then s.patchEvent ((pc + 2) % 2 ^ 24) else s

/-- The fetch of an instruction: what stops it, and the state after it; a stall for a flash line is `done`. -/
def State.kFetch (s : State) (c : Core) (pc : Nat) (wide : Bool) : Option KRes × State :=
  let a2 := (pc + 2) % 2 ^ 24
  match c with
  | .eng p =>
    (match s.engParcel c p pc with
     | some r => (some r, s)
     | none => (if wide then s.engParcel c p a2 else none, s))
  | .shep =>
    (match s.shParcel pc with
     | (some r, s) => (some r, s)
     | (none, s) => if wide then s.shParcel a2 else (none, s))

/-! ### The end of a load that waited (R66, R150) -/

/-- The value of a load in its register: zero-extended bytes, sign-extended halfwords, words, doublewords (R123). -/
def Bank.loadReg (x : Bank) (rd w v : Nat) (m0 m1 : Bool) : Bank :=
  match w with
  | 0 => x.put rd (v % 256) m0
  | 1 => x.putI rd (sx 16 (v % 65536)) m0
  | 2 => x.put rd (v % 2 ^ 32) m0
  | _ => (x.put rd (v % 2 ^ 32) m0).put (rd + 1) (v / 2 ^ 32) m1

/-- The response of a load that waited; the data watch of the Shepherd sees it here. -/
def State.loadEnd (s : State) (c : Core) (lw : LoadWait) (code : Nat) (data : BitVec 64) : State :=
  let x := { s.kBank c with wait := none }
  let (hit, s) := if c = .shep ∧ code = 0 then s.watch lw.addr.toNat lw.width false data.toNat else (false, s)
  if code ≠ 0 then (s.setKBank c x).kFault c 6 (some lw.addr.toNat)
  else if hit then (s.setKBank c x).kFault c 12 (some lw.addr.toNat)
  else
    let w := if lw.width = 1 then 0 else if lw.width = 2 then 1 else if lw.width = 4 then 2 else 3
    let x := x.loadReg lw.dst w data.toNat false false
    let x := match lw.post with
      | some (an, v, p) => x.put an v.toNat p
      | none => x
    s.kEnd c { x with pc := lw.nextPc }

/-! ### Running an instruction -/

/-- Is the instruction at the program counter in progress, past its first word? -/
def Bank.going (x : Bank) : Bool := x.micro.mid != 0 && !x.micro.again && x.micro.ucaller == x.pc

/-- The partial results of the instruction in progress. -/
def K.kept (k : K) : Option Partial := if k.x.going then k.x.micro.part else none

/-- Run an instruction of word w: an outstanding load is waited for first, or ends with the response it has; an instruction in progress
goes on from its safe point (R140). `ill` says that it is ILLEGAL on the core. -/
def State.kRun (s : State) (c : Core) (w : Word) (ill : Bool) (run : K → KRes) : State :=
  if !s.kReady c then s
  else
    let x := s.kBank c
    match x.wait.filter (fun l => l.pc == x.pc && !(l.micro && l.resp.isSome)) with
    | some lw => (match lw.resp with
      | some (code, data) => s.loadEnd c lw code data
      | none => s)
    | none =>
      let x := if x.wait.any (fun l => l.micro) then x else { x with wait := none }
      let pc := x.pc.toNat
      if x.going && !ill then K.finish ⟨c, s, x, pc, kLen w⟩ (run ⟨c, s, x, pc, kLen w⟩)
      else
        let x := if x.going then { x with micro := x.micro.cleared } else x
        let (stop, t) := s.kFetch c pc (kWide w)
        let k : K := ⟨c, t, x, pc, kLen w⟩
        match stop with
        | some (.done u) => u.setKBank c x
        | some r => k.finish r
        | none =>
          let t := if c = .shep then t.patchEvents x pc (kWide w) else t
          let k : K := ⟨c, t, x, pc, kLen w⟩
          if ill then k.finish (.fault t (if kIsSuper w && c != .shep then 9 else 2) none)
          else if x.guardPois (kGuard w) then k.finish (.fault t 1 none)
          else if !x.guardHolds (kGuard w) then k.finish (.ok t x)
          else k.finish (run k)

/-- Is the encoding ILLEGAL on the core, or SUPER (R99, R141, R142)? -/
def kIllegal (c : Core) (w : Word) : Bool :=
  match c, kOp w with
  | _, none => true
  | .eng _, some _ => kIsSuper w
  | .shep, some op => shIllegal op

/-! ### Data memory -/

/-- What a data access gives: a value with the marks of its words; a wait of a kind for a target; a fault; a hold. -/
inductive MemRes
  | val (v : Nat) (m0 m1 : Bool) (s : State)
  | wait (kind target : Nat) (s : State)
  | fault (s : State) (cause : Nat) (addr : Nat)
  | hold (s : State)

/-- The system-memory address of an engine address. -/
def State.bmpAddr (s : State) (p a : Nat) : Nat := s.fld (LE_BMP_BASE p) fLE_BMP_BASE_BASE * 2 ^ 23 + (a - 0x800000)

/-- A load of n bytes by an engine: it sees its own code-store buffer (R112). -/
def State.engLoad (s : State) (p a n : Nat) : MemRes :=
  match engRegion a with
  | .none => .fault s 4 a
  | .window => if n ≠ 4 then .fault s 4 a else if a % 4 ≠ 0 then .fault s 5 a else .wait 0 (a - 0x400000) s
  | .sys => if a % n ≠ 0 then .fault s 5 a else .wait 1 (s.bmpAddr p a) s
  | _ =>
    if a % n ≠ 0 then .fault s 5 a
    else
      let v := (s.codeWriteOut p).seenAt (p % 9) (engPhys p a)
      .val (v.bytesNat (engPhys p a) n) (v.poisoned (engPhys p a)) (v.poisoned (engPhys p a + 4)) s

/-- A store of an engine into its memories: the loop buffer and code RAM through the code-store buffer (R112). -/
def State.engPut (s : State) (p a n v : Nat) (ms : List Bool) : State :=
  if engRegion a == .loopBuf || engRegion a == .code then
    let s := if 16 ≤ (s.eng p).codeBuf.length then s.codeWriteOut p else s
    s.setEng p { s.eng p with codeBuf := (s.eng p).codeBuf ++ [(a, natBytes n v, ms)] }
  else s.engStore p a (natBytes n v) ms

/-- A store of n bytes by an engine; those that leave it pass its Hurdle (R461). A seventeenth code store waits for the implicit ISYNC,
line by line (R112, R149). -/
def State.engStoreTo (s : State) (p pc a n v : Nat) (ms : List Bool) : MemRes :=
  match engRegion a with
  | .none => .fault s 4 a
  | .window =>
    if n ≠ 4 then .fault s 4 a
    else if a % 4 ≠ 0 then .fault s 5 a
    else if ms.any id then .fault s 1 a
    else .val 0 false false (s.hurdle 0 p (fun s =>
      let f := s.leFlock p
      let e : PathStore := { data := .ofNat 32 v, flock := f, inc := s.flockInc f, eaddr := .ofNat 24 a, slot := (s.running p).getD 0, pc := .ofNat 24 pc }
      s.setEng p { s.eng p with path := (s.eng p).path ++ [e] }))
  | .sys =>
    if a % n ≠ 0 then .fault s 5 a
    else if ms.any id then .fault s 1 a
    else if 8 ≤ (s.eng p).stores.length then .hold s
    else .val 0 false false (s.hurdle 0 p (fun s =>
      let e : BufStore := { addr := s.bmpAddr p a, eaddr := .ofNat 24 a, bytes := natBytes n v, slot := (s.running p).getD 0, pc := .ofNat 24 pc, stamp := s.now }
      s.setEng p { s.eng p with stores := (s.eng p).stores ++ [e] }))
  | r =>
    if a % n ≠ 0 then .fault s 5 a
    else if (r == .loopBuf || r == .code) && decide (16 ≤ (s.eng p).codeBuf.length) && (s.codeStep p).1 then .hold (s.codeStep p).2
    else .val 0 false false (s.engPut p a n v ms)

/-! ### The Shepherd's data memory (R387 to R389, R408, R410, R411) -/

/-- The byte of boot ROM or flash at an address, remapped by a patch unit where one acts. -/
def State.codeByte (s : State) (a : Nat) : Byte :=
  match s.remapped false a with
  | some r => s.byte r
  | none => match shRegion a with
    | .rom off => Config.bootRom off
    | .flash off => (match s.sh.lines.find? (fun e => e.1 == s.flashLine off) with
      | some e => e.2.getD (off % 32) 0
      | none => 0)
    | _ => 0

/-- Is the patch-RAM word that replaces a byte of boot ROM or flash poisoned? -/
def State.codeMark (s : State) (a : Nat) : Bool :=
  match s.remapped false a with
  | some r => s.poisoned r
  | none => false

/-- The little-endian value of bytes read one by one. -/
def State.codeValue (s : State) (a : Nat) : Nat → Nat
  | 0 => 0
  | n + 1 => (s.codeByte a).toNat + 256 * State.codeValue s (a + 1) n

/-- The HPP offset or the system-memory address that an offset of window w names; none where the window leads nowhere. -/
def State.shWindow (s : State) (w off : Nat) : Option (Bool × Nat) :=
  let t := s.winTgt w
  let a := s.winBase w * 2 ^ 22 + off
  if t then some (true, a)
  else if 15 < s.winBase w ∨ (0x2000000 ≤ a ∧ a < 0x2800000) then none
  else some (false, a)

/-- The address checks of R405: address, alignment, MPU. -/
def State.shCheck (s : State) (a n : Nat) (write : Bool) : Option MemRes :=
  let bad := match shRegion a with
    | .none => true
    | .rom _ => write
    | .flash _ => write
    | .patch _ => s.shOuter || !s.shSup
    | .window w off => (s.shWindow w off).isNone
    | .tcm _ => false
  if bad then some (.fault s 4 a)
  else if a % n ≠ 0 then some (.fault s 5 a)
  else if !s.mpuOk s.shOuter s.shSup a n (if write then .write else .read) then some (.fault (s.mpuDeny a n) 8 a)
  else none

/-- A value read passes the data watch: on WATCH the access has no effect. `t` is the state with the access done. -/
def State.watched (s t : State) (a n v : Nat) (m0 m1 : Bool) : MemRes :=
  let (hit, u) := s.watch a n false v
  if hit then .fault u 12 a else .val v m0 m1 (t.watch a n false v).2

/-- The fault of a register access that is not answered OKAY (R389). -/
def respFault (code : Nat) : Nat := if code = 3 then 1 else 6

/-- A load of n bytes by the Shepherd. -/
def State.shLoad (s : State) (a n : Nat) : MemRes :=
  match s.shCheck a n false with
  | some r => r
  | none =>
    let mem (b : Nat) : MemRes := s.watched s a n (s.bytesNat b n) (s.poisoned b) (s.poisoned (b + 4))
    match shRegion a with
    | .tcm off => mem (tcmBase + off)
    | .patch off => mem (patchRam + off)
    | .rom _ => s.watched s a n (s.codeValue a n) (s.codeMark a) (s.codeMark (a + 4))
    | .flash off =>
      let (ok, s) := s.needLine a off false
      if ok then s.watched s a n (s.codeValue a n) (s.codeMark a) (s.codeMark (a + 4)) else .hold s
    | .window w off =>
      (match s.shWindow w off with
       | some (true, t) => .wait 1 t s
       | some (false, o) =>
         let (code, v, t) := s.windowRead .shepherd o n
         if code = 0 then s.watched t a n v.toNat false false else .fault t (respFault code) a
       | none => .fault s 4 a)
    | .none => .fault s 4 a

/-- A store of n bytes by the Shepherd. -/
def State.shStoreTo (s : State) (pc a n v : Nat) (ms : List Bool) : MemRes :=
  match s.shCheck a n true with
  | some r => r
  | none =>
    let full : Bool := match shRegion a with
      | .window w off => (s.shWindow w off).any (fun e => e.1) && decide (8 ≤ s.sh.stores.length)
      | _ => false
    let (hit, t) := s.watch a n true v
    if full then .hold s
    else if hit then .fault t 12 a
    else
      let s := t
      match shRegion a with
      | .tcm off => .val 0 false false (s.storeBytes (tcmBase + off) (natBytes n v) ms)
      | .patch off => .val 0 false false (s.storeBytes (patchRam + off) (natBytes n v) ms)
      | .window w off =>
        if ms.any id then .fault s 1 a
        else (match s.shWindow w off with
          | some (true, t) =>
            let e : BufStore := { addr := t, eaddr := .ofNat 24 a, bytes := natBytes n v, pc := .ofNat 24 pc, stamp := s.now }
            .val 0 false false { s with sh.stores := s.sh.stores ++ [e] }
          | some (false, o) =>
            let t := s.windowWrite .shepherd o n (2 ^ n - 1) (.ofNat 64 v)
            let code := (t.lastResp .shepherd).code
            if code = 0 then .val 0 false false t else .fault t (respFault code) a
          | none => .fault s 4 a)
      | _ => .fault s 4 a

/-- A load or a store of a core. -/
def K.load (k : K) (a n : Nat) : MemRes :=
  match k.c with
  | .eng p => k.s.engLoad p a n
  | .shep => k.s.shLoad a n

def K.store (k : K) (a n v : Nat) (ms : List Bool) : MemRes :=
  match k.c with
  | .eng p => k.s.engStoreTo p k.pc a n v ms
  | .shep => k.s.shStoreTo k.pc a n v ms

/-! ### Words in the data memories that memory forms, PIS and FIRK accept (R126, R135, R139) -/

/-- Check one word access: the fault and its address, or none. `wr` is the word to be written. -/
def K.wordCheck (k : K) (s : State) (a : Nat) (wr : Option Nat) : Option (Nat × Nat) × State :=
  match k.c with
  | .eng _ =>
    (match engRegion a with
     | .localRam => (if a % 4 = 0 then none else some (5, a), s)
     | .loopBuf => (if a % 4 = 0 then none else some (5, a), s)
     | .shared => (if a % 4 = 0 then none else some (5, a), s)
     | _ => (some (4, a), s))
  | .shep =>
    (match shRegion a with
     | .tcm off =>
       if a % 4 ≠ 0 then (some (5, a), s)
       else if !s.mpuOk s.shOuter s.shSup a 4 (if wr.isSome then .write else .read) then (some (8, a), s.mpuDeny a 4)
       else
         let (hit, s) := s.watch a 4 wr.isSome (wr.getD (s.bytesNat (tcmBase + off) 4))
         (if hit then some (12, a) else none, s)
     | _ => (some (4, a), s))

/-- Check word accesses in order, up to the first that faults. -/
def K.wordChecks (k : K) (s : State) : List (Nat × Option Nat) → Option (Nat × Nat) × State
  | [] => (none, s)
  | (a, wr) :: t => match k.wordCheck s a wr with
    | (none, s) => K.wordChecks k s t
    | (some e, s) => (some e, s)

/-- A word and its mark. -/
def K.word (k : K) (s : State) (a : Nat) : Word × Bool :=
  match k.c with
  | .eng p =>
    let v := (s.codeWriteOut p).seenAt (p % 9) (engPhys p a)
    (v.mword (engPhys p a), v.poisoned (engPhys p a))
  | .shep => (s.mword (tcmBase + a), s.poisoned (tcmBase + a))

/-- Write a word with its mark. -/
def K.putWord (k : K) (s : State) (a : Nat) (v : Word) (m : Bool) : State :=
  match k.c with
  | .eng p => s.engPut p a 4 v.toNat [m]
  | .shep => s.storeBytes (tcmBase + a) (natBytes 4 v.toNat) [m]

/-- The addresses of n words from a. -/
def wordAddrs (a : Nat) (n : Nat) : List Nat := (List.range n).map (fun i => (a + 4 * i) % 2 ^ 24)

end Sys2Proof.Machine
end

