-- ==== Sys2Proof/Machine/KQueueOps.lean ====
section
/-!
DEFINITION. The queue operations of the cores (04_kamyn_instruction_set.md R125 to R127; 12_queue_fabric.md R325 to R330).
-/

namespace Sys2Proof.Machine

/-- The queue that an instruction names (R125): none where no physical engine carries the logical one. -/
def K.queueNo (k : K) (qsel qv : Nat) : Option Nat :=
  match qsel, k.c with
  | 0, .eng p => some (4 * p.val + qv)
  | 1, _ => (k.s.findUnit 0 (qv / 4)).map (fun p => 4 * p + qv % 4)
  | 2, _ => some ((k.x.gd qv).toNat % 4096)
  | _, _ => none

/-- What an operation on a queue came to: the entry it removed, whether it took place, the level, and whether it was denied. -/
structure QOut where
  ok : Bool := false
  denied : Bool := false
  entry : List QWord := []
  level : Nat := 0

def K.agent (k : K) : QAgent :=
  match k.c with
  | .eng p => .eng p
  | .shep => .shep

/-- An operation of the queue fabric: kind 0 get, 1 put, 2 level. -/
def State.fabric (s : State) (kind n : Nat) (a : QAgent) (e : List QWord) : QOut × State :=
  let inc := s.carriedInc n a
  match kind with
  | 0 =>
    let (r, e, s) := s.qGet n a inc
    ({ ok := r == .done, denied := r == .refused, entry := e }, s)
  | 1 =>
    let (r, s) := s.qPut n a inc e
    ({ ok := r == .done, denied := r == .refused }, s)
  | _ =>
    let l := s.qShown n
    (match s.qCheck n a inc with
     | (some r, s) => ({ denied := r == .refused }, s)
     | (none, s) => ({ ok := true, level := l }, s))

/-- The operation as the core makes it: an engine's passes its Hurdle, behind which a queue looks empty or full (R461); a denied
one of an engine is counted and journalled (R127). -/
def K.queueOp (k : K) (s : State) (kind : Nat) (q : Option Nat) (e : List QWord) : QOut × State :=
  match k.c with
  | .eng p =>
    let slot := (s.running p).getD 0
    if s.underTest 0 p then ({}, s)
    else if s.hurdleDrops 0 p then ({}, s.hurdleCount 0 p)
    else match q with
      | none => ({ denied := true }, s.urpDenied p 6 slot k.pc 0xFFFFFFFF)
      | some n =>
        let (o, s) := s.fabric kind n k.agent e
        (o, if o.denied then s.urpDenied p 6 slot k.pc n else s)
  | .shep => match q with
    | none => ({ denied := true }, s)
    | some n => s.fabric kind n k.agent e

/-- The end of a queue operation: its flag when it did not take place, the address register, the status register. -/
def Bank.queueEnd (x : Bank) (o : QOut) (flag : Nat) (post : Option (Nat × Nat)) (st : Nat) (p : Bool) : Bank :=
  let x := if o.ok then x else x.raise flag
  let x := match post with
    | some (an, v) => if o.ok then x.put an v false else x
    | none => x
  if st = 0 then x else x.put (8 + st) (b2n o.ok) p

/-- The first n words of an entry into registers; beyond the entry, zero. -/
def Bank.putEntry (x : Bank) (dr : Nat) (e : List QWord) : Nat → Bank
  | 0 => x
  | n + 1 =>
    let x := Bank.putEntry x dr e n
    let v := e.getD n (0, false)
    x.put (dr + n) v.1.toNat v.2

/-- Write an entry to memory. -/
def K.putEntry (k : K) (s : State) (a : Nat) : List QWord → State
  | [] => s
  | v :: t => K.putEntry k (k.putWord s a v.1 v.2) ((a + 4) % 2 ^ 24) t

/-- The size in words that a memory form moves. -/
def State.moveWords (s : State) (q : Option Nat) : Nat :=
  match q with
  | some n => s.qWords n
  | none => 2

end Sys2Proof.Machine
end

