-- ==== Sys2Proof/Machine/Microcode.lean ====
section
/-!
DEFINITION. Micro-routines (06_microcode.md R157 to R186): the words of UCALL routines in WCS, of patch RAM and of the ROM, executed up
to the next safe point; when an instruction is carried out by such words; and the rows of the instruction set over both. What the
spec does not state a value for takes free values (log entry 1).
-/

namespace Sys2Proof.Machine

/-! ### The macro latch (R177): what an instruction's fields are to its routine -/

/-- The registers in the destination and the first and second source field (R164); those of a UCALL all name RX. -/
def KOp.regField (op : KOp) (i : Nat) : Option Nat :=
  let pick (d a b : Option Nat) : Option Nat := match i with | 0 => d | 1 => a | _ => b
  match op with
  | .ucall _ rx => some rx
  | .alu _ rd ra rb _ => pick (some rd) (some ra) (some rb)
  | .acc _ rd ra rb _ => pick (some rd) (some ra) (some rb)
  | .cplx _ rd ra rb _ => pick (some rd) (some ra) (some rb)
  | .addr _ rd ra rb => pick (some rd) (some ra) (some rb)
  | .alui _ rd _ => pick (some rd) (some rd) none
  | .imm _ rd _ => pick (some rd) (some rd) none
  | .mov rd rs => pick (some rd) (some rs) none
  | .mem _ _ rd _ _ _ _ => some rd
  | .signal ds _ => pick none ds none
  | .stamp dr _ _ => pick (some dr) none none
  | .mode ds => pick none (some ds) none
  | .rdmode dr => pick (some dr) none none
  | .queue _ _ _ dr _ _ => pick (some dr) (some dr) none
  | .pwd _ ds _ _ tp _ => pick none (some ds) (some (2 * tp))
  | .bg _ g _ => pick none (some g) none
  | .bdec dn _ => pick (some dn) (some dn) none
  | .jr an => pick none (some an) none
  | .callr an => pick none (some an) none
  | .rank an => pick none (some an) none
  | _ => none

/-- The An field and the Mn field (R170), where the instruction has one. -/
def KOp.anField : KOp → Option Nat
  | .mem _ _ _ _ an _ _ => some an
  | .jr an => some an
  | .callr an => some an
  | .rank an => some an
  | .queue op _ _ dr _ _ => if op = 2 ∨ op = 3 then some (16 + dr) else none
  | _ => none

def KOp.mnField : KOp → Option Nat
  | .mem _ _ _ _ _ _ (.modM m) => some m
  | .addr 3 _ _ rb => some rb
  | _ => none

/-- The immediate or offset, sign-extended (source 17 of R164), where the instruction has one. -/
def KOp.immField : KOp → Option Int
  | .alui _ _ v => some (sx 6 v)
  | .imm _ _ v => some (sx 16 v)
  | .mem _ _ _ _ _ off _ => some off
  | .bra off => some off
  | .bg _ _ off => some off
  | .bdec _ off => some off
  | .br off => some off
  | .call off => some off
  | _ => none

/-- The X bit. -/
def KOp.xField : KOp → Bool
  | .alu _ _ _ _ x => x
  | .acc _ _ _ _ x => x
  | .cplx _ _ _ _ x => x
  | _ => false

/-- A number for each instruction whose entry micro-address the spec does not list. -/
def KOp.code : KOp → Nat
  | .nop => 0 | .wait => 1 | .isync => 2 | .ret => 3 | .brk => 4 | .signal _ _ => 5 | .mov _ _ => 6 | .bra _ => 7
  | .bg _ _ _ => 8 | .bdec _ _ => 9 | .br _ => 10 | .call _ => 11 | .jr _ => 12 | .callr _ => 13
  | .alui op _ _ => 16 + op
  | .imm op _ _ => 24 + op
  | .addr f _ _ _ => 32 + f
  | .mem st post _ w _ _ _ => 40 + 8 * b2n st + 4 * b2n post + w
  | .queue op _ _ _ _ _ => 56 + op
  | .alu f _ _ _ _ => 64 + f
  | .acc f _ _ _ _ => 192 + f
  | .cplx f _ _ _ _ => 320 + f
  | _ => 448

/-- The ROM words of an instruction (R178): its entry and how many follow. Where the table gives only a range, the entry is open in it and
the words after it are not known (DESIGN CHOICE, log entry 55). -/
def KOp.rom (op : KOp) : Nat × Nat :=
  match op with
  | .queue 4 _ _ _ _ _ => (0x480, 0x80)
  | .queue o _ _ _ _ _ => (0x400 + 0x20 * o, 0x20)
  | .pwd .. => (0x500, 0x20)
  | .rank _ => (0x520, 0x20)
  | .signal .. => (0x540, 8)
  | .stamp .. => (0x548, 8)
  | .ucall .. => (0x550, 1)
  | .mode _ => (0x558, 4)
  | .rdmode _ => (0x55C, 4)
  | .wait => (0x560, 4)
  | .isync => (0x564, 0x9C)
  | .cplx f _ _ _ _ =>
    (match f with
     | 0x00 => (0x600, 0x40) | 0x01 => (0x640, 0x10) | 0x02 => (0x650, 0x10) | 0x03 => (0x660, 0x10) | 0x04 => (0x670, 0x90)
     | 0x08 => (0x700, 0x80) | 0x0C => (0x780, 0x40) | 0x0E => (0x7C0, 0x40) | 0x10 => (0x800, 0x80) | _ => (0x880, 0x580))
  | _ => (0x100 + Config.csEntry (2 * op.code) % 0x300, 1)

/-- Is any of `n` ROM words from `lo` replaced by a patch word (R186)? -/
def State.csPatched (s : State) (p lo n : Nat) : Bool :=
  s.flag (CS_CTRL p) fCS_CTRL_MATCHEN && (firstIdx (fun i => s.flag (CS_MATCH p i) fCS_MATCH_EN
    && decide (lo ≤ s.fld (CS_MATCH p i) fCS_MATCH_RADDR) && decide (s.fld (CS_MATCH p i) fCS_MATCH_RADDR < lo + n)) 32).isSome

/-- The entry of an instruction whose ROM words are patched: its words are then executed one by one. A 16-bit form has an entry of its
own and shares the routine (R177, R178). -/
def State.patchedEntry (s : State) (p : Nat) (op : KOp) (short : Bool) : Option Nat :=
  let r := op.rom
  let e := Config.csEntry (2 * op.code + 1) % 0x100
  if short then (if s.csPatched p e 1 || s.csPatched p r.1 r.2 then some e else none)
  else if s.csPatched p r.1 r.2 then some r.1 else none

/-! ### The micro-machine -/

/-- A micro-machine: the engine, the state, the bank whose registers the macro-instruction began with, the micro state in it. -/
structure UM where
  p : Fin 72
  k : K
  s : State
  x : Bank

def UM.m (u : UM) : Micro := u.x.micro
def UM.setM (u : UM) (m : Micro) : UM := { u with x := { u.x with micro := m } }

/-- The macro-instruction in the latch, and whether it is a 16-bit form. -/
def UM.op (u : UM) : KOp := (kOp u.m.word).getD .nop
def UM.short (u : UM) : Bool := !kWide u.m.word
def UM.isUcall (u : UM) : Bool := match u.op with | .ucall .. => true | _ => false

/-- A field of a microword (R157). -/
def uf (w : UWord) (lo len : Nat) : Nat := bitsOf w.toNat lo len
def ub (w : UWord) (i : Nat) : Bool := bitOf w.toNat i

/-- A value with its poison mark. -/
abbrev UV := Int × Bool

/-! ### Micro registers (R174) -/

def Micro.uval (m : Micro) (i : Nat) : Int := (tget (fun _ => (0 : BitVec 40)) m.u i).toInt
def Micro.upois (m : Micro) (i : Nat) : Bool := bitOf m.pois i
def Micro.mark (m : Micro) (i : Nat) (p : Bool) : Micro := { m with pois := withBits m.pois i 1 (b2n (p || m.latch)) }
def Micro.setU (m : Micro) (i : Nat) (v : Int) (p : Bool) : Micro :=
  Micro.mark { m with u := tset (fun _ => (0 : BitVec 40)) m.u i (.ofInt 40 v) } i p
def Micro.qbw (m : Micro) (i : Nat) : QWord := tget (fun _ => ((0 : Word), false)) m.qb i
def Micro.setQb (m : Micro) (i : Nat) (e : QWord) : Micro :=
  { m with qb := tset (fun _ => ((0 : Word), false)) m.qb i (e.1, e.2 || m.latch) }

/-- Stage a write (R175): register number, or 32 for the PC. -/
def Micro.stage (m : Micro) (r : Nat) (v : Int) (p : Bool) : Micro :=
  { m with staged := m.staged ++ [(r, BitVec.ofInt 72 v, p || m.latch)] }

/-- The j-th free value of the word being executed. -/
def UM.freeInt (u : UM) (j : Nat) : Int := ((Config.free (u.s.free + j)).setWidth 40).toInt

/-! ### Operands (R164 to R166) -/

/-- The last register of a class. -/
def classEnd (n : Nat) : Nat := if n < 16 then 16 else if n < 24 then 24 else if n < 28 then 28 else 32

/-- OPD, OPA, OPB (0, 1, 2): the register of the field plus the offset of XSEL, inside its class; none where an offset leaves it. A
field that the instruction does not have names none. -/
def UM.opReg (u : UM) (w : UWord) (i : Nat) : Option Nat :=
  (u.op.regField i).filter (fun r => decide (r + uf w (124 - 2 * i) 2 < classEnd r)) |>.map (fun r => r + uf w (124 - 2 * i) 2)

/-- A free register number for a field that the macro-instruction does not have. -/
def UM.freeNat (u : UM) (j n : Nat) : Nat := (Config.free (u.s.free + j)).toNat % n

/-- The An field and the Mn field. -/
def UM.anReg (u : UM) : Nat := u.op.anField.getD (16 + u.freeNat 7 8)
def UM.mnReg (u : UM) : Nat := u.op.mnField.getD (24 + u.freeNat 8 4)

/-- The value of an architectural register on the 40-bit path; that of an accumulator is free. -/
def UM.regVal (u : UM) (r : Nat) : UV :=
  (if isD r then u.x.di r else if isA r then u.x.get r else if isM r then (u.x.gm r).toInt else u.freeInt 0, u.x.pois r)

/-- The accumulator that ACSEL selects: none for UAC, or its register. -/
def UM.acSel (u : UM) (w : UWord) : Option (Option Nat) :=
  match uf w 52 2 with
  | 3 => some none
  | i => ((u.opReg w i).filter isAC).map some

def UM.acVal (u : UM) : Option Nat → UV
  | none => (u.m.uac.toInt, u.m.upois 8)
  | some r => (u.x.aci r, u.x.pois r)

/-- ASRC and BSRC: none where the code or its register is unassigned. -/
def UM.src (u : UM) (w : UWord) (code : Nat) : Option UV :=
  let m := u.m
  if code < 8 then some (m.uval code, m.upois code)
  else match code with
    | 8 => (u.opReg w 0).map u.regVal
    | 9 => (u.opReg w 1).map u.regVal
    | 10 => (u.opReg w 2).map u.regVal
    | 11 => some (sx 32 (uf w 84 32), false)
    | 12 => some (sx 16 (uf w 130 16), false)
    | 13 => some ((m.mdr.extractLsb' 0 32).toInt, m.upois 9)
    | 14 => some ((m.mdr.extractLsb' 32 32).toInt, m.upois 9)
    | 15 => some ((m.extd.extractLsb' 0 32).toInt, m.upois 10)
    | 16 => some ((m.extd.extractLsb' 32 32).toInt, m.upois 10)
    | 17 => some (u.op.immField.getD (u.freeInt 1), false)
    | 18 => some (m.ucnt, false)
    | 19 => some (m.ucaller.toNat, false)
    | 20 => some (u.x.mode.toInt, false)
    | 21 => (u.acSel w).map (fun a =>
        let v := u.acVal a
        (if ub w 60 then roundShift u.x.rnd v.1 32 else v.1 / 2 ^ 32, v.2))
    | 22 => some (0, false)
    | _ => none

/-! ### ALU (R167, R168) -/

/-- The exact ALU result; `g` is the free value of the step operations, whose result beside U2 to U4 the spec does not state. -/
def uAlu (op : Nat) (a b u0 : Int) (ucnt : Nat) (g : Int) : Int :=
  let au := (BitVec.ofInt 40 a).toNat
  let bu := (BitVec.ofInt 40 b).toNat
  let wb : Word := intWord b
  match op with
  | 0x00 => a | 0x01 => b | 0x02 => a + b | 0x03 => a - b | 0x04 => b - a | 0x05 => -b
  | 0x06 => if b < 0 then -b else b
  | 0x07 => if 0 ≤ u0 then a + b else a - b
  | 0x08 => if 0 ≤ u0 then a - b else a + b
  | 0x09 => if a < b then a else b
  | 0x0A => if a < b then b else a
  | 0x0B => wrapS 40 ((au &&& bu : Nat) : Int)
  | 0x0C => wrapS 40 ((au ||| bu : Nat) : Int)
  | 0x0D => wrapS 40 ((au ^^^ bu : Nat) : Int)
  | 0x0E => wrapS 40 ((au &&& (2 ^ 40 - 1 - bu) : Nat) : Int)
  | 0x0F => -b - 1
  | 0x10 => a * 2 ^ (bu % 64)
  | 0x11 => wrapS 40 ((au / 2 ^ (bu % 64) : Nat) : Int)
  | 0x12 => a / 2 ^ (bu % 64)
  | 0x13 => a
  | 0x14 => norm32 wb
  | 0x15 => if a = b then 1 else 0
  | 0x16 => if a = b then 0 else 1
  | 0x17 => if a < b then 1 else 0
  | 0x18 => if a ≤ b then 1 else 0
  | 0x19 => if au < bu then 1 else 0
  | 0x1A => if au ≤ bu then 1 else 0
  | 0x1B => if au &&& bu = 0 then 0 else 1
  | 0x20 => a / 2 ^ ucnt
  | 0x21 => modifyA (au % 2 ^ 24) wb
  | 0x22 => (a + b) % 2 ^ 24
  | 0x23 => sx 16 (bu % 65536)
  | _ => g

/-- Does the ALU operation read A; B? -/
def uReadsA (op : Nat) : Bool := !(([0x01, 0x05, 0x06, 0x0F, 0x14, 0x1E, 0x1F, 0x23] : List Nat).contains op)
def uReadsB (op : Nat) : Bool := !(([0x00, 0x13, 0x20, 0x1F] : List Nat).contains op)

/-- The shift stage. -/
def uShift (rnd sh : Nat) (round : Bool) (v : Int) : Int :=
  let k := sx 6 sh
  if 0 ≤ k then v * 2 ^ k.toNat else if round then roundShift rnd v (-k).toNat else v / 2 ^ (-k).toNat

/-- The ALU stages of a word: result, flags (R108), whether the result lay outside its format, and whether it was saturated.
Only a D or U destination has a format. -/
def UM.aluOut (u : UM) (w : UWord) (a b : Int) (fmt : Bool) : Int × Nat × Bool × Bool :=
  let op := uf w 27 6
  let rule := uf w 61 2
  let sat := rule == 2 || u.x.sat
  let st := uShift u.x.rnd (uf w 54 6) (ub w 60)
  if op = 0x1C ∨ op = 0x1D then
    let f (x y : Int) : Int := st (if op = 0x1C then x + y else x - y)
    let wa : Word := intWord a
    let wb : Word := intWord b
    let h := f (halfHi wa) (halfHi wb)
    let l := f (halfLo wa) (halfLo wb)
    let r := fitHalves (if rule = 0 then false else sat) h l
    let out := (fitSO 16 true h).2 != 0 || (fitSO 16 true l).2 != 0
    (wrapS 32 r.1, if rule = 0 then 0 else r.2, out, out && rule != 0 && sat)
  else
    let v := st (uAlu op a b (u.m.uval 0) u.m.ucnt (u.freeInt 2))
    let r := fitSO 32 sat v
    let out := (fitSO 32 true v).2 != 0
    if rule = 0 ∨ fmt = false then (wrapS 40 v, 0, out && fmt, false) else (r.1, r.2, out, out && sat)

/-- Carry out of a 40-bit addition; of any other operation a free bit. -/
def UM.carry (u : UM) (w : UWord) (a b : Int) : Bool :=
  if uf w 27 6 = 0x02 then decide (2 ^ 40 ≤ (BitVec.ofInt 40 a).toNat + (BitVec.ofInt 40 b).toNat)
  else bitOf (Config.free (u.s.free + 3)).toNat 0

/-! ### Addresses (R170) -/

/-- The base that AGEN[5:3] selects: its value, its poison, the architectural register it is; none where there is none. -/
def UM.base (u : UM) (w : UWord) : Option (Nat × Bool × Option Nat) :=
  let reg (r : Nat) : Nat × Bool × Option Nat := (u.x.get r % 2 ^ 24, u.x.pois r, some r)
  match uf w 70 3 with
  | 1 => some (reg u.anReg)
  | 2 => ((u.opReg w 1).filter (fun r => !isAC r)).map reg
  | 3 => ((u.opReg w 2).filter (fun r => !isAC r)).map reg
  | 4 => some (u.m.mar.toNat, u.m.upois 11, none)
  | 5 => some ((u.m.uval 0 % 2 ^ 24).toNat, u.m.upois 0, none)
  | 6 => some (0, false, none)
  | _ => none

/-- The offset that AGEN[2:0] adds. -/
def UM.agenOff (u : UM) (w : UWord) : Int :=
  match uf w 67 3 with
  | 1 => sx 16 (uf w 130 16)
  | 2 => 4 * u.m.ucnt
  | 3 => 8 * u.m.ucnt
  | 6 => sx 16 (uf w 130 16)
  | _ => 0

def UM.agen (u : UM) (w : UWord) : Option Nat := (u.base w).map (fun b => addrAdd b.1 (u.agenOff w))

/-- The modifier of AGEN[2:0] = 5: M(b mod 4) for OPB naming Ab, else the Mn field. -/
def UM.agenMod (u : UM) (w : UWord) : Nat :=
  if uf w 70 3 = 3 then (match (u.opReg w 2).filter isA with
    | some r => 24 + (r - 16) % 4
    | none => u.mnReg)
  else u.mnReg

/-- The width of a MEM access in bytes. -/
def memWidth (mem : Nat) : Nat :=
  match mem with
  | 1 => 4 | 2 => 8 | 3 => 1 | 4 => 2 | 5 => 4 | 6 => 8 | 7 => 1 | 8 => 2
  | _ => 0

/-! ### Queues (R171) -/

/-- The queue of a word: the macro-instruction's in a ROM routine, that of IMM2 in WCS. -/
def UM.uQueue (u : UM) (ua : Nat) (w : UWord) : Option Nat :=
  match u.op, isWcs ua with
  | .queue _ _ qsel _ _ qv, false => u.k.queueNo qsel qv
  | _, _ => some (if ub w 145 then 4 * u.p.val + uf w 130 2 else uf w 130 12)

/-- n, and the status register that a ROM routine's operation writes (R126). -/
def UM.uCount (u : UM) (ua : Nat) (w : UWord) : Nat × Nat :=
  match u.op, isWcs ua with
  | .queue _ n _ _ st _, false => (2 ^ n, st)
  | _, _ => (2 ^ uf w 142 2, 0)

/-- The fields of EXT PWD: generator, compare, mode, FMT 1. -/
def UM.uPwd (u : UM) (ua : Nat) (w : UWord) : Nat × Nat × Nat × Bool :=
  match u.op, isWcs ua with
  | .pwd pw _ cmp mode _ fmt, false => (pw, cmp, mode, fmt)
  | _, _ => (uf w 130 6, uf w 136 2, uf w 138 2, ub w 140)

/-- CODE of EXT SIGNAL and K of EXT 6. -/
def UM.uSignal (u : UM) (ua : Nat) (w : UWord) : Nat :=
  match u.op, isWcs ua with
  | .signal _ code, false => code
  | _, _ => uf w 130 8

def UM.uBtime (u : UM) (ua : Nat) (w : UWord) : Nat :=
  match u.op, isWcs ua with
  | .stamp _ _ k, false => k
  | _, _ => uf w 130 4

/-! ### Conditions (R162) -/

/-- What a word's conditions may read beside the micro state: its operands and its address. -/
structure UIn where
  a : UV
  b : UV
  addr : Option Nat

/-- The value of a condition and whether it was evaluated on poisoned data. -/
def UM.cond (u : UM) (ua : Nat) (w : UWord) (i : UIn) (c : Nat) : Bool × Bool :=
  let m := u.m
  let s := u.s
  let slot := (s.running u.p).getD 0
  let prev (j poisBit : Nat) : Bool × Bool := (bitOf m.prev j, bitOf m.prev poisBit)
  let names (j : Nat) (f : Nat → Bool) : Bool × Bool := ((u.opReg w j).any f, false)
  let guard (r : Nat) : Bool × Bool := (u.x.gd r != 0, u.x.pois r)
  let reg (f : Region → Bool) : Bool × Bool := (i.addr.any (fun a => f (engRegion a)), false)
  match c with
  | 0 => (true, false)
  | 1 => prev 0 10 | 2 => prev 1 10 | 3 => prev 2 10 | 4 => prev 3 10 | 5 => prev 4 10
  | 6 => prev 5 11 | 7 => prev 6 11
  | 8 => (m.ucnt == 0, false)
  | 9 => (m.ucnt == 1, false)
  | 10 => (decide (m.uval 0 < 0), m.upois 0)
  | 11 => (decide (m.uval 1 < 0), m.upois 1)
  | 12 => (m.mdr.extractLsb' 0 32 == 0, m.upois 9)
  | 13 => (bitOf m.mdr.toNat 31, m.upois 9)
  | 14 => (decide (i.a.1 = 0), i.a.2)
  | 15 => (decide (i.b.1 = 0), i.b.2)
  | 16 => (decide (i.a.1 < 0), i.a.2)
  | 17 => (decide (i.b.1 < 0), i.b.2)
  | 18 => (decide (i.b.1.natAbs ≤ i.a.1.natAbs), i.a.2 || i.b.2)
  | 19 => (i.a.2, false)
  | 20 => (i.b.2, false)
  | 21 => (m.upois 9, false)
  | 22 => (u.op.xField, false)
  | 23 => names 0 isAC
  | 24 => names 0 isA
  | 25 => names 1 isAC
  | 26 => (match u.opReg w 2 with
    | some r => (decide ((u.regVal (r + 1)).1 < (u.regVal r).1), u.x.pois r || u.x.pois (r + 1))
    | none => (false, false))
  | 27 => (u.short, false)
  | 28 => guard 12 | 29 => guard 13 | 30 => guard 14 | 31 => guard 15
  | 32 => (u.x.sat, false)
  | 33 => (u.x.rnd == 0, false)
  | 34 => (u.x.rnd == 2, false)
  | 35 => (bitOf m.prev 7, false)
  | 36 => (bitOf m.prev 8, false)
  | 37 => (bitOf m.prev 9, false)
  | 38 => ((u.uQueue ua w).any (fun q => s.pinnedBy (.eng u.p) q), false)
  | 39 => (!(s.eng u.p).path.isEmpty, false)
  | 40 => (((s.findGen (u.uPwd ua w).1).filter (fun g => s.unitFlock 1 g == s.leFlock u.p)).isSome, false)
  | 41 => ((s.eng u.p).rankOut, false)
  | 42 => (decide (8 ≤ (s.eng u.p).stores.length), false)
  | 43 => (u.x.wait.isNone, false)
  | 44 => ((s.fld (CL_STAT (u.p / 9)) fCL_STAT_PHASE + 1) % 10 == u.p.val % 9, false)
  | 45 => ((s.nextSlot u.p).any (fun k => s.slotState u.p k == 2 && decide (s.slotPri u.p slot < s.slotPri u.p k)), false)
  | 46 => ((s.eng u.p).haltReq, false)
  | 47 => (s.nat (LE_TASK_DL u.p slot) != 0 && reached (s.deadline u.p slot) s.now, false)
  | 48 => (decide (16 ≤ (s.eng u.p).codeBuf.length), false)
  | 49 => (!(s.eng u.p).codeBuf.isEmpty, false)
  | 50 => reg (fun r => r == .none)
  | 51 => (i.addr.any (fun a => memWidth (uf w 63 4) != 0 && a % memWidth (uf w 63 4) != 0), false)
  | 52 => reg (fun r => r == .window)
  | 53 => reg (fun r => r == .sys)
  | 54 => reg (fun r => r == .shared)
  | 55 => reg (fun r => r == .code || r == .loopBuf)
  | 56 => (m.stack.isEmpty, false)
  | 57 => (decide (4 ≤ m.stack.length), false)
  | 58 => (!m.staged.isEmpty, false)
  | 59 => (decide (16 ≤ (s.eng u.p).dist), false)
  | 60 => (m.resumed, false)
  | 61 => (reached (.ofNat 64 ((m.uval 1 % 2 ^ 32).toNat * 2 ^ 32 + (m.uval 0 % 2 ^ 32).toNat)) s.now, m.upois 0 || m.upois 1)
  | 62 => (bitOf (s.nat (DB_TRACE_EN (u.p / 32))) (u.p % 32), false)
  | _ => (false, false)

/-! ### Words that are not executed (R159, R160, R183) -/

/-- The reason why a word is not executed, if there is one: 1 TRAP, 2 UNASSIGNED, 3 STACK, 5 TARGET, 6 WCSEXT, 7 FAULT code. -/
def UM.reject (u : UM) (ua : Nat) (w : UWord) (c : Bool) : Option Nat :=
  let seq := uf w 0 4
  let target := uf w 11 13
  let mem := uf w 63 4
  let base := uf w 70 3
  let mode := uf w 67 3
  let qop := uf w 73 3
  let ext := uf w 76 4
  let macop := uf w 48 4
  let dst := uf w 43 5
  let wb0 := ub w 126
  let fields := uf w 152 16 != 0 || seq == 15 || decide (5 ≤ uf w 146 4) || (u.src w (uf w 33 5)).isNone || (u.src w (uf w 38 5)).isNone
    || decide (14 ≤ dst) || decide (0x24 ≤ uf w 27 6) || decide (14 ≤ macop) || uf w 61 2 == 3
    || base == 7 || mode == 7 || decide (9 ≤ mem) || decide (6 ≤ qop) || decide (12 ≤ ext) || decide (6 ≤ uf w 116 4) || uf w 150 2 == 3
  let addressed := mem != 0 || qop == 4 || qop == 5 || ext == 2
  let n := (u.uCount ua w).1
  let combos := (addressed && (base == 0 || (u.agen w).isNone)) || (mem != 0 && mode == 6)
    || (base == 2 && (u.opReg w 1).isNone) || (base == 3 && (u.opReg w 2).isNone)
    || (base != 0 && decide (4 ≤ mode) && (u.base w).isNone)
    || (base == 6 && (decide (4 ≤ mode) || (addressed && mem == 0)))
    || (base == 6 && mem != 0 && (u.agen w).any (fun a => decide (64 < a + memWidth mem)))
    || (seq == 8 && uf w 116 4 != 0)
    || (macop != 0 && (u.acSel w).isNone)
    || (wb0 && decide (8 ≤ dst) && decide (dst ≤ 10) && (u.opReg w (dst - 8)).isNone)
    || (qop != 0 && isWcs ua && decide (3 < uf w 142 3))
    || (qop == 1 && wb0 && !(u.opReg w 0).any (fun r => grpD r n))
    || (qop == 2 && wb0 && !(u.opReg w 1).any (fun r => grpD r n))
    || (ext == 1 && isWcs ua && (decide (48 ≤ uf w 130 6) || uf w 138 2 == 3 || uf w 141 5 != 0))
    || (!isWcs ua && !isRom ua && (ext == 7 || ext == 8 || seq == 13)) || (seq == 13 && !u.isUcall)
    || (!isWcs ua && seq == 12 && (mem != 0 || qop != 0 || ext != 0 || uf w 126 3 != 0))
  let tgt := if seq = 11 then (match u.src w (uf w 33 5) with
    | some a => (target + (a.1 % 16).toNat) % 8192
    | none => target) else target
  let jumps := ([2, 3, 4, 5, 11] : List Nat).contains seq
  let inRange := isWcs tgt || (decide (0x0F00 ≤ tgt) && decide (tgt < 0x1000))
  if seq = 0 then some 1
  else if fields || combos then some 2
  else if isWcs ua && jumps && !inRange then some 5
  else if isWcs ua && (ext == 7 || ext == 8 || seq == 13
      || (seq == 12 && (mem != 0 || qop != 0 || ext != 0 || uf w 126 3 != 0))) then some 6
  else if seq = 14 && !(([1, 2, 3, 4, 5, 6, 9] : List Nat).contains (uf w 130 4)) then some 7
  else if ((seq = 4 ∨ (seq = 5 ∧ c = true)) ∧ 4 ≤ u.m.stack.length) ∨ ((seq = 6 ∨ (seq = 7 ∧ c = true)) ∧ u.m.stack = []) then some 3
  else none

/-! ### The effects of a word -/

/-- How a word's effects end: done; a fault; a wait in which the word is executed again. -/
inductive UEff
  | done (u : UM)
  | fault (u : UM) (cause : Nat) (addr : Option Nat)
  | stage (u : UM)
  | wait (u : UM)

/-- One stage after another. -/
def UEff.andThen (e : UEff) (f : UM → UEff) : UEff :=
  match e with
  | .done u => f u
  | r => r

/-- A value to a register that ALU, MAC and queue words write: staged where it is architectural; the ninth staged write is a fault
(R175). -/
def UM.stageReg (u : UM) (r : Nat) (v : Int) (p : Bool) : UEff :=
  if 8 ≤ u.m.staged.length then .stage u else .done (u.setM (u.m.stage r v p))

/-- The ALU result to DST (R165). -/
def UM.writeDst (u : UM) (w : UWord) (v : Int) (p : Bool) : UEff :=
  let dst := uf w 43 5
  let reg (i : Nat) : UEff := match u.opReg w i with
    | some r => u.stageReg r (if isAC r then wrapS 40 v * 2 ^ 32 else v) p
    | none => .done u
  if dst < 8 then .done (u.setM (u.m.setU dst v p))
  else match dst with
    | 8 => reg 0
    | 9 => reg 1
    | 10 => reg 2
    | 11 => .done (u.setM (Micro.mark { u.m with mar := .ofInt 24 v } 11 p))
    | 12 => u.stageReg 32 (v % 2 ^ 24) p
    | _ => u.stageReg 23 v p

/-- Has the destination a Q1.31 format? -/
def UM.dstFormat (u : UM) (w : UWord) : Bool :=
  let dst := uf w 43 5
  decide (dst < 8) || ((dst == 8 || dst == 9 || dst == 10) && (u.opReg w (dst - 8)).any isD)

/-- The MAC result (R169): value and flags, and the product. -/
def UM.macOut (u : UM) (w : UWord) (a b res : Int) (ac : Int) : (Int × Nat) × Int :=
  let wa : Word := intWord a
  let wb : Word := intWord b
  let sat := u.x.sat
  let pr (f : Nat) : Int := macProduct f wa wb
  match uf w 48 4 with
  | 1 => ((pr 0, 0), pr 0) | 2 => (fitSO 72 sat (ac + pr 0), pr 0) | 3 => (fitSO 72 sat (ac - pr 0), pr 0)
  | 4 => ((pr 1, 0), pr 1) | 5 => (fitSO 72 sat (ac + pr 1), pr 1) | 6 => (fitSO 72 sat (ac - pr 1), pr 1)
  | 7 => ((pr 2, 0), pr 2) | 8 => (fitSO 72 sat (ac + pr 2), pr 2) | 9 => (fitSO 72 sat (ac - pr 2), pr 2)
  | 10 => (fitSO 72 sat (ac + res * 2 ^ 32), 0)
  | 11 => ((0, 0), 0)
  | 12 => ((wrapS 72 (a * 2 ^ 32), 0), 0)
  | _ => (fitSO 72 sat (ac * 2 ^ (sx 6 (uf w 54 6) + 32).toNat / 2 ^ 32), 0)

/-- Data of a load to MDR (R170). -/
def UM.loaded (u : UM) (w : UWord) (mem v : Nat) (p : Bool) : UM :=
  if ub w 128 then
    let d : BitVec 64 := match mem with
      | 2 => .ofNat 64 v
      | 3 => .ofNat 64 (withBits u.m.mdr.toNat 0 32 (v % 256))
      | 4 => .ofNat 64 (withBits u.m.mdr.toNat 0 32 (sx 16 (v % 65536) % 2 ^ 32).toNat)
      | _ => .ofNat 64 (withBits u.m.mdr.toNat 0 32 v)
    u.setM (Micro.mark { u.m with mdr := d } 9 p)
  else u

/-- Bytes of the queue entry buffer. -/
def UM.qbNat (u : UM) (a n : Nat) : Nat :=
  ((u.m.qbw (a / 4)).1.toNat + (u.m.qbw (a / 4 + 1)).1.toNat * 2 ^ 32) / 2 ^ (8 * (a % 4)) % 2 ^ (8 * n)

def UM.qbPut (u : UM) (a n v : Nat) (p : Bool) : UM :=
  if n = 8 then u.setM ((u.m.setQb (a / 4) (.ofNat 32 v, p)).setQb (a / 4 + 1) (.ofNat 32 (v / 2 ^ 32), p))
  else
    let o := u.m.qbw (a / 4)
    u.setM (u.m.setQb (a / 4) (.ofNat 32 (withBits o.1.toNat (8 * (a % 4)) (8 * n) v), p || (o.2 && n != 4)))

/-- MEM (R170): in the queue entry buffer, or in the engine's memories. -/
def UM.doMem (u : UM) (w : UWord) (i : UIn) : UEff :=
  let mem := uf w 63 4
  let n := memWidth mem
  if mem = 0 then .done u
  else
    let a := i.addr.getD 0
    let mark := u.m.latch || i.b.2 || (mem == 6 && i.a.2)
    let bv := (i.b.1 % 2 ^ 64).toNat
    let v := if mem = 6 then (i.a.1 % 2 ^ 32).toNat + bv % 2 ^ 32 * 2 ^ 32 else bv % 2 ^ (8 * n)
    if uf w 70 3 = 6 then
      (if a % n ≠ 0 then .fault u 5 (some a)
       else if mem ≤ 4 then .done (u.loaded w mem (u.qbNat a n) ((u.m.qbw (a / 4)).2 || (n == 8 && (u.m.qbw (a / 4 + 1)).2)))
       else .done (u.qbPut a n v mark))
    else if mem ≤ 4 then
      (match u.x.wait with
       | some lw => (match lw.resp with
         | some (code, d) =>
           let u := { u with x := { u.x with wait := none } }
           if code ≠ 0 then .fault u 6 (some a) else .done (u.loaded w mem d.toNat false)
         | none => .wait u)
       | none => match u.s.engLoad u.p a n with
         | .val v m0 m1 s => .done ({ u with s := s }.loaded w mem v (m0 || (n == 8 && m1)))
         | .wait kind target s =>
           let lw : LoadWait := { kind := kind, micro := true, addr := .ofNat 24 a, width := n, target := target, pc := u.m.ucaller, nextPc := u.m.ucaller }
           .wait { u with s := s, x := { u.x with wait := some lw } }
         | .fault s c b => .fault { u with s := s } c (some b)
         | .hold s => .wait { u with s := s })
    else match u.s.engStoreTo u.p u.k.pc a n v (if mem = 6 then [u.m.latch || i.a.2, u.m.latch || i.b.2] else [mark]) with
      | .val _ _ _ s => .done { u with s := s }
      | .wait _ _ s => .wait { u with s := s }
      | .fault s c b => .fault { u with s := s } c (some b)
      | .hold s => .wait { u with s := s }

/-- The update of AGEN (R170): modes 4, 5 and 6. -/
def UM.doAgen (u : UM) (w : UWord) (i : UIn) (width : Nat) : UEff :=
  match u.base w with
  | none => .done u
  | some (b, p, r) =>
    let put (v : Nat) (q : Bool) : UEff := match r with
      | some r => u.stageReg r v q
      | none => if uf w 70 3 = 4 then .done (u.setM (Micro.mark { u.m with mar := .ofNat 24 v } 11 q)) else .done (u.setM (u.m.setU 0 v q))
    match uf w 67 3 with
    | 4 => put ((b + width) % 2 ^ 24) p
    | 5 => put (modifyA b (u.x.gm (u.agenMod w))) (p || u.x.pois (u.agenMod w))
    | 6 => .done (u.setM (Micro.mark { u.m with mar := .ofNat 24 (i.addr.getD 0) } 11 p))
    | _ => .done u

/-- Stage the first n words of an entry into registers from r. -/
def UM.stageEntry (u : UM) (r : Nat) (e : List QWord) : Nat → UEff
  | 0 => .done u
  | n + 1 => (UM.stageEntry u r e n).andThen (fun u =>
      let v := e.getD n (0, false)
      u.stageReg (r + n) v.1.toNat v.2)

/-- QB as an entry of n words; an entry into QB. -/
def UM.qbEntry (u : UM) (n : Nat) : List QWord := (List.range n).map (fun i => if i < 16 then u.m.qbw i else (0, false))
def UM.qbLoad (u : UM) (e : List QWord) : UM := (e.zipIdx.take 16).foldl (fun u v => u.setM (u.m.setQb v.2 v.1)) u

/-- The outcome bits 35 to 37 of a queue operation, the flags that FLAGS[1] and FLAGS[2] allow, and the
status register of a ROM routine. -/
def UM.qEnd (u : UM) (w : UWord) (o : QOut) (put : Bool) (st : Nat) : UEff :=
  let refused := !o.ok && o.denied
  let u := u.setM { u.m with prev := withBits u.m.prev 7 3 (b2n (!o.ok && !refused && !put) + 2 * b2n (!o.ok && !refused && put) + 4 * b2n refused) }
  let f := (if !o.ok && !put && ub w 81 then fQE else 0) ||| (if !o.ok && put && ub w 82 then fQF else 0)
  let u := { u with x := u.x.raise f }
  if st = 0 then .done u else u.stageReg (8 + st) (b2n o.ok) false

/-- QOP (R171). An operation of a queue that no physical engine carries is denied (R127). -/
def UM.doQop (u : UM) (ua : Nat) (w : UWord) (i : UIn) : UEff :=
  let qop := uf w 73 3
  if qop = 0 then .done u
  else
    let q := u.uQueue ua w
    let (n, st) := u.uCount ua w
    let wb0 := ub w 126
    let words := u.s.moveWords q
    let k := u.k
    let a := i.addr.getD 0
    match qop with
    | 1 =>
      let (o, s) := k.queueOp u.s 0 q []
      (({ u with s := s }).qEnd w o false st).andThen (fun u =>
        if !o.ok then .done u
        else
          let u := u.qbLoad o.entry
          if wb0 then u.stageEntry ((u.opReg w 0).getD 0) o.entry n else .done u)
    | 2 =>
      let r := (u.opReg w 1).getD 0
      let u := if wb0 then u.qbLoad ((List.range 16).map (fun j => if j < n then (u.x.gd (r + j), u.x.pois (r + j)) else (0, false))) else u
      let (o, s) := k.queueOp u.s 1 q ((u.qbEntry words).map (fun e => (e.1, e.2 || u.m.latch)))
      ({ u with s := s }).qEnd w o true st
    | 3 =>
      let (o, s) := k.queueOp u.s 2 q []
      (({ u with s := s }).qEnd w o false st).andThen (fun u =>
        .done (u.setM (Micro.mark { u.m with extd := .ofNat 64 (withBits u.m.extd.toNat 0 32 o.level) } 10 false)))
    | 4 =>
      (match k.wordChecks u.s ((wordAddrs a words).map (fun b => (b, some 0))) with
       | (some (c, b), s) => .fault { u with s := s } c (some b)
       | (none, s) =>
         let (o, s) := k.queueOp s 0 q []
         let s := if o.ok then k.putEntry s a (o.entry.map (fun e => (e.1, e.2 || u.m.latch))) else s
         ({ u with s := s }).qEnd w o false st)
    | _ =>
      (match k.wordChecks u.s ((wordAddrs a words).map (fun b => (b, none))) with
       | (some (c, b), s) => .fault { u with s := s } c (some b)
       | (none, s) =>
         let e := (wordAddrs a words).map (fun b => ((k.word s b).1, (k.word s b).2 || u.m.latch))
         let (o, s) := k.queueOp s 1 q e
         ({ u with s := s }).qEnd w o true st)

/-- EXTD := v. -/
def UM.setExtd (u : UM) (v : BitVec 64) : UM := u.setM (Micro.mark { u.m with extd := v } 10 false)

/-- EXT (R172); WAIT and ISYNC take effect at commit (R175). -/
def UM.doExt (u : UM) (ua : Nat) (w : UWord) (i : UIn) : UEff :=
  let s := u.s
  let p := u.p.val
  let slot := (s.running p).getD 0
  match uf w 76 4 with
  | 1 =>
    let (pw, cmp, mode, fmt) := u.uPwd ua w
    if !(s.eng p).path.isEmpty then .wait u
    else (match (s.findGen pw).filter (fun g => s.unitFlock 1 g == s.leFlock p) with
      | none => .done { u with s := s.urpDenied p 7 slot u.k.pc pw }
      | some g =>
        let t : Stamp := .ofNat 64 ((u.m.uval 1 % 2 ^ 32).toNat * 2 ^ 32 + (u.m.uval 0 % 2 ^ 32).toNat)
        let d : DutyWrite := { cmp := cmp, value := intWord i.a.1, poison := i.a.2 || u.m.latch, fmt1 := fmt, mode := mode, time := t, inc := s.flockInc (s.leFlock p), mapInc := s.fld (LE_MAP p) fLE_MAP_INC, logical := pw, stamp := s.now, src := 0, pe := p }
        .done { u with s := s.hurdle 0 p (fun s => s.toGen g (fun h s => s.pwdSend h d)) })
  | 2 =>
    let a := i.addr.getD 0
    if engRegion a != .shared then .fault u 4 (some a)
    else if a % 16 ≠ 0 then .fault u 5 (some a)
    else if (s.eng p).rankOut then .wait u
    else .done { u with s := s.hurdle 0 p (fun s => s.rankIssue p (a - 0x80000)) }
  | 3 => .done { u with s := s.leRaise p 3 (i.a.1 % 2 ^ 32).toNat (u.uSignal ua w + slot * 256 + s.leLogical p * 65536) }
  | 4 => .done (u.setExtd s.now)
  | 5 => .done (u.setExtd (s.reg64 (LE_TRIG_STAMP_LO p slot) (LE_TRIG_STAMP_HI p slot)))
  | 6 => .done (u.setExtd (s.reg64 (TL_BTIME_LO (u.uBtime ua w)) (TL_BTIME_HI (u.uBtime ua w))))
  | 7 => .done (u.setM { u.m with atEnd := u.m.atEnd ||| 1 })
  | 8 => .done (u.setM { u.m with atEnd := u.m.atEnd ||| 2 })
  | 9 => .done { u with s := s.engBrk p u.k.pc }
  | 10 =>
    let v : Word := intWord i.a.1
    .done { u with s := if bitsOf v.toNat 13 19 ≠ 0 ∨ bitsOf v.toNat 3 5 ≠ 0 then s.inc RC_RSVD_WRITES else s, x := u.x.modeWrite v }
  | 11 => .done (u.setExtd (.ofNat 64 (withBits u.m.extd.toNat 0 32 u.x.modeRead.toNat)))
  | _ => .done u

/-- CNT (R173). -/
def UM.doCnt (u : UM) (w : UWord) (res : Int) : UM :=
  let n := u.m.ucnt
  let v := match uf w 116 4 with
    | 1 => uf w 130 11
    | 2 => (res % 2048).toNat
    | 3 => (n + 2047) % 2048
    | 4 => (n + 1) % 2048
    | 5 => 0
    | _ => n
  u.setM { u.m with ucnt := v }

/-- The division and square-root steps (R167). The spec names the steps and not their arithmetic: U2:U3 is taken as one number of 80 bits
that is shifted left by one bit, or by two for a root, the remainder standing in U2; U4 takes the new bit from the right (DESIGN CHOICE,
log entry 56). -/
def UM.doStep (u : UM) (w : UWord) (b : UV) : UM :=
  let m := u.m
  let lo := (tget (fun _ => (0 : BitVec 40)) m.u 3).toNat
  let p := m.upois 2 || m.upois 3
  if uf w 27 6 = 0x1E then
    let r := 2 * m.uval 2 + lo / 2 ^ 39
    let r := wrapS 40 (if 0 ≤ m.uval 2 then r - b.1 else r + b.1)
    let q : Nat := if 0 ≤ r then 1 else 0
    u.setM (((m.setU 2 r (p || b.2)).setU 3 (lo * 2 : Nat) p).setU 4 (2 * m.uval 4 + q) (p || b.2 || m.upois 4))
  else if uf w 27 6 = 0x1F then
    let r := 4 * m.uval 2 + lo / 2 ^ 38
    let t := 4 * m.uval 4 + 1
    let q : Nat := if t ≤ r then 1 else 0
    let p := p || m.upois 4
    u.setM (((m.setU 2 (if t ≤ r then r - t else r) p).setU 3 (lo * 4 : Nat) p).setU 4 (2 * m.uval 4 + q) p)
  else u

/-- The datapath effects of a word whose PRED holds. -/
def UM.effects (u : UM) (ua : Nat) (w : UWord) (i : UIn) (cval : Bool) : UEff :=
  let op := uf w 27 6
  let (res, fl, out, satd) := u.aluOut w i.a.1 i.b.1 (u.dstFormat w)
  let cy := u.carry w i.a.1 i.b.1
  let pa := (uReadsA op && i.a.2) || (uReadsB op && i.b.2) || ((op == 7 || op == 8) && u.m.upois 0)
  let macop := uf w 48 4
  let ac := (u.acSel w).getD none
  let av := u.acVal ac
  let (mac, prod) := u.macOut w i.a.1 i.b.1 res av.1
  let pm := (macop != 11 && (i.a.2 || (macop != 12 && macop != 13 && macop != 10 && i.b.2)))
    || (macop != 1 && macop != 4 && macop != 7 && macop != 11 && macop != 12 && av.2) || (macop == 10 && pa)
  let oldPrev := u.m.prev
  let prev := b2n (decide (res = 0)) + 2 * b2n (decide (res < 0)) + 4 * b2n cy + 8 * b2n out + 16 * b2n satd
    + (if macop = 0 then bitsOf oldPrev 5 2 * 32 else 32 * b2n (mac.2 != 0) + 64 * b2n (decide (prod < 0)))
    + 1024 * b2n pa + (if macop = 0 then bitsOf oldPrev 11 1 * 2048 else 2048 * b2n pm)
  let blocked := (uf w 73 3 != 0 && (u.uQueue ua w).any u.s.qBusy) || (uf w 76 4 == 1 && !(u.s.eng u.p).path.isEmpty)
    || (uf w 76 4 == 2 && (u.s.eng u.p).rankOut)
  let word : UEff := if blocked then .wait u else (u.doMem w i).andThen (fun u => (u.doQop ua w i).andThen (fun u => u.doExt ua w i))
  word.andThen (fun u =>
    let qbits := if uf w 73 3 = 0 then bitsOf oldPrev 7 3 else bitsOf u.m.prev 7 3
    let fls := (if ub w 80 then fl ||| (if macop = 0 then 0 else mac.2) else 0) ||| (if ub w 83 && cval then fDOM else 0)
    let u := { u with x := u.x.raise fls }
    let u := (u.doStep w i.b).doCnt w res
    let u := u.setM { u.m with prev := prev + qbits * 128 }
    let width := if uf w 73 3 = 4 ∨ uf w 73 3 = 5 then 4 * u.s.moveWords (u.uQueue ua w) else memWidth (uf w 63 4)
    let first : UEff := if ub w 126 then u.writeDst w res pa else .done u
    first.andThen (fun u =>
      let second : UEff := if ub w 127 && macop != 0 then
          (match ac with
           | none => .done (u.setM (Micro.mark { u.m with uac := .ofInt 72 mac.1 } 8 pm))
           | some r => u.stageReg r mac.1 pm)
        else .done u
      second.andThen (fun u => u.doAgen w i width)))

/-! ### The ROM library (R178): performed as the instructions it names -/

/-- LSAT, LRND, LDIV, LSQRT, LSINCOS: the state after them, their words before and after their safe point, and the room of their ROM words.
The last ones end where the library's range ends. -/
def UM.library (u : UM) (ua : Nat) : Option (UM × Nat × Nat × Nat) :=
  let m := u.m
  let d (i : Nat) : Int := wrapS 32 (m.uval i)
  let put (u : UM) (i : Nat) (r : Int × Nat) (p : Bool) : UM := { u with x := { (u.x.raise r.2) with micro := u.m.setU i r.1 p } }
  match ua with
  | 0xF00 => some (put u 0 (fitSV 32 (m.uval 0)) (m.upois 0), 0, 1, 8)
  | 0xF08 => some (put u 0 (sacValue u.x.rnd m.uac.toInt 0) (m.upois 8), 0, 2, 8)
  | 0xF10 => some (put u 0 (divqValue u.x.rnd (d 0) (d 1)) (m.upois 0 || m.upois 1), 9, 10, 0x30)
  | 0xF40 => some (put u 0 (sqrtValue u.x.rnd false (intWord (d 1))) (m.upois 1), 8, 9, 0x40)
  | 0xF80 =>
    let r := sincosRaw (intWord (d 2))
    let p := m.upois 2
    some (put (put u 0 (fitSV 32 (roundShift u.x.rnd r.1 8)) p) 1 (fitSV 32 (roundShift u.x.rnd r.2 8)) p, 6, 5, 0x80)
  | _ => none

/-! ### Running (R158 to R163, R175, R180, R184) -/

/-- What a word leads to: the next word; the end of the macro-instruction; a safe point or a wait before the word at an address; a
fault. -/
inductive UStep
  | go (u : UM) (ua : Nat)
  | disp (u : UM)
  | rest (u : UM) (ua : Option Nat) (safe : Bool)
  | fault (u : UM) (cause : Nat) (addr : Option Nat)
  | mchk (u : UM) (ua : Nat) (read : Nat)

/-- A micro-level ILLEGAL fault (R159). -/
def UM.illegal (u : UM) (ua reason : Nat) : UStep :=
  .fault { u with s := u.s.setNat (CS_UFAULT u.p) (2 ^ 31 + reason * 65536 + ua) } 2 none

/-- One more word of a UCALL routine counted: none when it is the 24th (R184). -/
def UM.count (u : UM) (n : Nat) : Option UM :=
  if !u.isUcall then some u
  else
    let d := (u.s.eng u.p).dist + n
    if 24 ≤ d then none
    else
      let s := if u.s.fld (CS_DIST_MAX u.p) fCS_DIST_MAX_MAX < d then u.s.setNat (CS_DIST_MAX u.p) d else u.s
      some { u with s := s.setDist u.p d }

/-- After a word with SAFE = 1 the routine stands at a safe point. -/
def UM.after (u : UM) (safe : Bool) (ua : Nat) : UStep := if safe then .rest u (some ua) true else .go u ua

/-- The next word (R160); a WAITU comes here when its condition holds. -/
def UM.seq (u : UM) (ua : Nat) (w : UWord) (c : Bool) (a : UV) : UStep :=
  let t := uf w 11 13
  let inc := (ua + 1) % 8192
  let safe := ub w 26
  let push (u : UM) : UStep := (u.setM { u.m with stack := inc :: u.m.stack }).after safe t
  let pop (u : UM) : UStep := match u.m.stack with
    | r :: rest => (u.setM { u.m with stack := rest }).after safe r
    | [] => u.illegal ua 3
  match uf w 0 4 with
  | 1 => u.after safe inc
  | 2 => u.after safe t
  | 3 => u.after safe (if c then t else inc)
  | 4 => push u
  | 5 => if c then push u else u.after safe inc
  | 6 => pop u
  | 7 => if c then pop u else u.after safe inc
  | 8 => if u.m.ucnt ≠ 0 then (u.setM { u.m with ucnt := u.m.ucnt - 1 }).after safe t else u.after safe inc
  | 9 => .disp u
  | 10 => if c then .disp u else u.after safe inc
  | 11 => u.after safe ((t + (a.1 % 16).toNat) % 8192)
  | 12 => u.after safe inc
  | 13 => u.after safe (match u.op with | .ucall e _ => 0x1800 + e | _ => inc)
  | 14 => .fault u (uf w 130 4) none
  | _ => u.illegal ua 2

/-- Does SEQ, PRED or FLAGS[3] evaluate the condition? -/
def readsCond (w : UWord) : Bool :=
  ([3, 5, 7, 10, 12] : List Nat).contains (uf w 0 4) || uf w 146 4 == 1 || uf w 146 4 == 2 || ub w 83

/-- A library subroutine at its entry (R178): up to its safe point, or from there to its end. -/
def UM.libStep (u : UM) (ua : Nat) (v : UM) (before after : Nat) : UStep :=
  let past := u.m.part == some .lib
  let ret (n : Nat) : UStep := match u.count n with
    | some t =>
      let v := { v with s := t.s }.setM { v.m with part := none }
      (match v.m.stack with
       | r :: st => .go (v.setM { v.m with stack := st }) r
       | [] => v.illegal ua 3)
    | none => .fault u 7 none
  if before = 0 ∨ past = true then ret after
  else match u.count before with
    | some u => .rest (u.setM { u.m with part := some .lib }) none true
    | none => .fault u 7 none

/-- The poison that a word consumes (R176): of an address that it forms, of the apply-time of EXT PWD in MODE 2, of the A operand of EXT 10,
and of its inputs with WB[3] = 1. -/
def UM.consumes (u : UM) (ua : Nat) (w : UWord) (pred condPois : Bool) (a b : UV) : Bool :=
  (pred && ((u.base w).any (fun x => x.2.1) || (uf w 70 3 != 0 && uf w 67 3 == 5 && u.x.pois (u.agenMod w))
    || (uf w 76 4 == 1 && (u.uPwd ua w).2.2.1 == 2 && (u.m.upois 0 || u.m.upois 1)) || (uf w 76 4 == 10 && a.2)))
  || (ub w 129 && (a.2 || b.2 || condPois))

/-- One word at a micro-address. A word that waits has no effect yet and is counted once (R160, R161, R184); TRACE acts whatever PRED
says (R163). -/
def UM.word (u : UM) (ua : Nat) : UStep :=
  let p := u.p.val
  let rd := u.s.csFetchAddr p ua
  match (u.library ua).filter (fun l => !u.s.csPatched p ua l.2.2.2) with
  | some (v, before, after, _) => u.libStep ua v before after
  | none =>
    let w := u.s.csWord p rd
    if !parityOk w then .mchk u ua rd
    else match (if u.m.counted then some u else u.count 1) with
    | none => .fault u 7 none
    | some u =>
      let u := u.setM { u.m with counted := false }
      let a := (u.src w (uf w 33 5)).getD (0, false)
      let b := (u.src w (uf w 38 5)).getD (0, false)
      let i : UIn := ⟨a, b, u.agen w⟩
      let (cv, cp) := u.cond ua w i (uf w 4 6)
      let c := cv != ub w 10
      let wait (v : UM) : UStep := .rest (v.setM { v.m with counted := true }) (some ua) (ub w 26)
      match u.reject ua w c with
      | some r => u.illegal ua r
      | none =>
        let pred := match uf w 146 4 with
          | 0 => true
          | 1 => c
          | 2 => !c
          | 3 => u.m.ucnt == 0
          | _ => u.m.ucnt != 0
        let condPois := readsCond w && cp
        if u.consumes ua w pred condPois a b then .fault u 1 none
        else
          let u := if condPois then u.setM { u.m with latch := true } else u
          let short := (uf w 73 3 != 0 && uf w 24 2 == 0) || (uf w 76 4 == 1 && decide (uf w 24 2 < 2))
          if uf w 0 4 = 12 ∧ c = false then wait u
          else match (if pred then u.effects ua w i c else UEff.done u) with
          | .done v =>
            let res := (u.aluOut w i.a.1 i.b.1 (u.dstFormat w)).1
            let v := if uf w 150 2 = 0 then v else { v with s := v.s.trace p ua (uf w 150 2) (res % 2 ^ 32).toNat }
            let v := if short then { v with s := v.s.inc (CS_STRETCH p) } else v
            ({ v with s := { v.s with free := v.s.free + 16 } }).seq ua w c a
          | .fault v cause addr => .fault v cause addr
          | .stage v => v.illegal ua 4
          | .wait v => wait v

/-- The staged writes are committed (R175): the registers, and the program counter if it was written. -/
def commit (x : Bank) (pc : Option (Nat × Bool)) : List (Nat × BitVec 72 × Bool) → Bank × Option (Nat × Bool)
  | [] => (x, pc)
  | (r, v, p) :: t => if r = 32 then commit x (some (v.toNat % 2 ^ 24, p)) t else commit (x.put r v.toNat p) pc t

/-- The end of a routine, DISP or CEND: the staged writes, then a branch, ISYNC and WAIT (R131, R160, R175). -/
def UM.finish (u : UM) : KRes :=
  let (x, pc) := commit u.x none u.m.staged
  let s := if bitOf u.m.atEnd 1 || (pc.isSome && !pc.any (fun e => e.2)) then u.s.codeWriteOut u.p else u.s
  match pc with
  | some (_, true) => .fault u.s 1 none
  | some (t, false) => .jump s x t
  | none =>
    if bitOf u.m.atEnd 0 then
      let x := { x with pc := .ofNat 24 (u.k.pc + u.k.len) }
      .done ((((s.setBank u.p (s.runBank u.p) x.modeEnd).endActivation u.p ((s.running u.p).getD 0)).setDist u.p 0).stepped u.p)
    else .ok s x

/-- Run words up to the next safe point or the end; a UCALL routine executes at most 24 words between two of them (R184), and a ROM routine
that runs longer goes on with the next command. -/
def UM.run : Nat → UM → Nat → KRes
  | 0, u, ua => .done (u.s.kRest u.k u.x false false u.m.part (some ua))
  | n + 1, u, ua =>
    match u.word ua with
    | .go v t => UM.run n v t
    | .disp v => v.finish
    | .rest v t safe =>
      .done (v.s.kRest v.k v.x safe false v.m.part (t.or (some ua)))
    | .fault v cause addr => .fault (v.s.setKBank v.k.c v.x) cause addr
    | .mchk v t rd =>
      let m := { v.m with mid := 1, again := false, part := none, upc := some t }
      let x := { v.x with micro := { m with ucont := m.contWord 0 } }
      .done ((v.s.setKBank v.k.c x).machineCheck v.p rd)

/-! ### Rows of the instruction set over routines -/

/-- A routine starts at a micro-address, with the instruction in the macro latch (R177). -/
def K.startMicro (k : K) (p : Fin 72) (w : Word) (ua : Nat) : KRes :=
  let m := { k.x.micro.ended with prev := 0, word := w, ucaller := .ofNat 24 k.pc }
  UM.run 64 ⟨p, k, k.s.setDist p 0, { k.x with micro := m }⟩ ua

/-- An instruction past its first word in a routine goes on there; one whose ROM words are patched is carried out by them (R186); any other
has the effect that the instruction set gives it. -/
def K.routed (k : K) (w : Word) (op : KOp) (run : K → KRes) : KRes :=
  match k.c with
  | .shep => run k
  | .eng p =>
    if k.x.going then
      (match k.x.micro.part, k.x.micro.upc with
       | some .lib, some ua => UM.run 64 ⟨p, k, k.s, k.x⟩ ua
       | none, some ua => UM.run 64 ⟨p, k, k.s, k.x⟩ ua
       | _, _ => run k)
    else match k.s.patchedEntry p op (!kWide w) with
      | some ua => k.startMicro p w ua
      | none => run k

/-- The meaning of a row of the instruction set: `f` gives the row's operation on the words that are its encodings. A word that no row
encodes is ILLEGAL (R99); a word of another row is no command of this one and changes nothing (DESIGN CHOICE, log entry 57). -/
def kamyn (c : Core) (w : Word) (s : State) (f : KOp → Option (K → KRes)) : Host.Outcome State Fault Refusal :=
  match kOp w with
  | none => .next (s.kRun c w true (fun k => .fault k.s 2 none))
  | some op => match f op with
    | some run => .next (s.kRun c w (kIllegal c w) (fun k => k.routed w op run))
    | none => .next s

/-- ILLEGAL (R99): the words that no row runs on the core; another word changes nothing. -/
def execIllegal (c : Core) (w : Word) (s : State) : Host.Outcome State Fault Refusal :=
  .next (if kIllegal c w then s.kRun c w true (fun k => .fault k.s 2 none) else s)

/-- UCALL (R133): its entry word, then the routine at 0x1800 + ENTRY. -/
def execUcall (c : Core) (w : Word) (s : State) : Out :=
  kamyn c w s (fun op => match op with
    | .ucall entry _ => some (fun k => match k.c with
        | .shep => .fault k.s 2 none
        | .eng p => k.startMicro p w (0x1800 + entry))
    | _ => none)

end Sys2Proof.Machine
end

