-- ==== Sys2Proof/Machine/KData.lean ====
section
/-!
DEFINITION. Arithmetic, logic, compare, accumulator, address, immediate and move instructions
(04_kamyn_instruction_set.md R114, R117 to R122).
-/

namespace Sys2Proof.Machine

/-- Write a result and its flags: the poison bit is the OR of the sources' (R71). -/
def K.result (k : K) (rd : Nat) (srcs : List Nat) (r : Int × Nat) : KRes :=
  .ok k.s ((k.x.raise r.2).putI rd r.1 (k.x.poisAny srcs))

/-- A row of the ALU table (R117), in its 32-bit and its 16-bit form: `g` gives value and flags from the rounding mode, whether
it saturates, and the operands. -/
def aluRow (f : Nat) (g : Nat → Bool → Word → Word → Int × Nat) (c : Core) (w : Word) (s : State) : Out :=
  kamyn c w s (fun op => match op with
    | .alu f' rd ra rb x => if f' = f then
        some (fun k => k.result rd (if aluUnary f then [rb] else [ra, rb]) (g k.x.rnd (k.x.sat || x) (k.x.gd ra) (k.x.gd rb)))
      else none
    | _ => none)

/-- ADD (R117). -/
def execAdd (c : Core) (w : Word) (s : State) : Out :=
  aluRow 0x00 (fun _ sat a b => fitSO 32 sat (a.toInt + b.toInt)) c w s

/-- SUB (R117). -/
def execSub (c : Core) (w : Word) (s : State) : Out :=
  aluRow 0x01 (fun _ sat a b => fitSO 32 sat (a.toInt - b.toInt)) c w s

/-- NEG (R117). -/
def execNeg (c : Core) (w : Word) (s : State) : Out :=
  aluRow 0x02 (fun _ sat _ b => fitSO 32 sat (-b.toInt)) c w s

/-- ABS (R117). -/
def execAbs (c : Core) (w : Word) (s : State) : Out :=
  aluRow 0x03 (fun _ sat _ b => fitSO 32 sat (if b.toInt < 0 then -b.toInt else b.toInt)) c w s

/-- MUL (R117). -/
def execMul (c : Core) (w : Word) (s : State) : Out :=
  aluRow 0x04 (fun rnd sat a b => fitSO 32 sat (roundShift rnd (a.toInt * b.toInt) 31)) c w s

/-- MULL (R117). -/
def execMull (c : Core) (w : Word) (s : State) : Out :=
  aluRow 0x05 (fun _ _ a b => (a.toInt * b.toInt, 0)) c w s

/-- MULH (R117). -/
def execMulh (c : Core) (w : Word) (s : State) : Out :=
  aluRow 0x06 (fun _ _ a b => (a.toInt * b.toInt / 2 ^ 32, 0)) c w s

/-- ADD2 (R117). -/
def execAdd2 (c : Core) (w : Word) (s : State) : Out :=
  aluRow 0x07 (fun _ sat a b => fitHalves sat (halfHi a + halfHi b) (halfLo a + halfLo b)) c w s

/-- SUB2 (R117). -/
def execSub2 (c : Core) (w : Word) (s : State) : Out :=
  aluRow 0x08 (fun _ sat a b => fitHalves sat (halfHi a - halfHi b) (halfLo a - halfLo b)) c w s

/-- MUL2 (R117). -/
def execMul2 (c : Core) (w : Word) (s : State) : Out :=
  aluRow 0x09 (fun rnd sat a b =>
    fitHalves sat (roundShift rnd (halfHi a * halfHi b) 15) (roundShift rnd (halfLo a * halfLo b) 15)) c w s

/-- MIN (R117). -/
def execMin (c : Core) (w : Word) (s : State) : Out :=
  aluRow 0x0A (fun _ _ a b => (if a.toInt < b.toInt then a.toInt else b.toInt, 0)) c w s

/-- MAX (R117). -/
def execMax (c : Core) (w : Word) (s : State) : Out :=
  aluRow 0x0B (fun _ _ a b => (if a.toInt < b.toInt then b.toInt else a.toInt, 0)) c w s

/-- NORM (R117). -/
def execNorm (c : Core) (w : Word) (s : State) : Out :=
  aluRow 0x0D (fun _ _ _ b => (norm32 b, 0)) c w s

/-- AND (R117). -/
def execAnd (c : Core) (w : Word) (s : State) : Out :=
  aluRow 0x10 (fun _ _ a b => ((a &&& b).toInt, 0)) c w s

/-- OR (R117). -/
def execOr (c : Core) (w : Word) (s : State) : Out :=
  aluRow 0x11 (fun _ _ a b => ((a ||| b).toInt, 0)) c w s

/-- XOR (R117). -/
def execXor (c : Core) (w : Word) (s : State) : Out :=
  aluRow 0x12 (fun _ _ a b => ((a ^^^ b).toInt, 0)) c w s

/-- ANDN (R117). -/
def execAndn (c : Core) (w : Word) (s : State) : Out :=
  aluRow 0x13 (fun _ _ a b => ((a &&& ~~~b).toInt, 0)) c w s

/-- NOT (R117). -/
def execNot (c : Core) (w : Word) (s : State) : Out :=
  aluRow 0x14 (fun _ _ _ b => ((~~~b).toInt, 0)) c w s

/-- SHL (R117). -/
def execShl (c : Core) (w : Word) (s : State) : Out :=
  aluRow 0x18 (fun _ sat a b => fitSO 32 sat (a.toInt * 2 ^ (b.toNat % 64))) c w s

/-- SHR (R117). -/
def execShr (c : Core) (w : Word) (s : State) : Out :=
  aluRow 0x19 (fun _ _ a b => ((a.toNat / 2 ^ (b.toNat % 64) : Nat), 0)) c w s

/-- SAR (R117). -/
def execSar (c : Core) (w : Word) (s : State) : Out :=
  aluRow 0x1A (fun _ _ a b => (a.toInt / 2 ^ (b.toNat % 64), 0)) c w s

/-- CEQ (R117). -/
def execCeq (c : Core) (w : Word) (s : State) : Out :=
  aluRow 0x20 (fun _ _ a b => cmpI (a == b)) c w s

/-- CNE (R117). -/
def execCne (c : Core) (w : Word) (s : State) : Out :=
  aluRow 0x21 (fun _ _ a b => cmpI (a != b)) c w s

/-- CLT (R117). -/
def execClt (c : Core) (w : Word) (s : State) : Out :=
  aluRow 0x22 (fun _ _ a b => cmpI (decide (a.toInt < b.toInt))) c w s

/-- CLE (R117). -/
def execCle (c : Core) (w : Word) (s : State) : Out :=
  aluRow 0x23 (fun _ _ a b => cmpI (decide (a.toInt ≤ b.toInt))) c w s

/-- CLTU (R117). -/
def execCltu (c : Core) (w : Word) (s : State) : Out :=
  aluRow 0x24 (fun _ _ a b => cmpI (decide (a.toNat < b.toNat))) c w s

/-- CLEU (R117). -/
def execCleu (c : Core) (w : Word) (s : State) : Out :=
  aluRow 0x25 (fun _ _ a b => cmpI (decide (a.toNat ≤ b.toNat))) c w s

/-- CTST (R117). -/
def execCtst (c : Core) (w : Word) (s : State) : Out :=
  aluRow 0x26 (fun _ _ a b => cmpI (a &&& b != 0)) c w s

/-- CLIP (R117): an accumulator is rounded and saturated first; RB > RB+1 gives RB+1. -/
def execClip (c : Core) (w : Word) (s : State) : Out :=
  kamyn c w s (fun op => match op with
    | .alu 0x0C rd ra rb _ => some (fun k =>
        let v := if isAC ra then sacValue k.x.rnd (k.x.aci ra) 0 else (k.x.di ra, 0)
        let m := if v.1 < k.x.di rb then k.x.di rb else v.1
        k.result rd [ra, rb, rb + 1] (if k.x.di (rb + 1) < m then k.x.di (rb + 1) else m, v.2))
    | _ => none)

/-! ### 16-bit immediate forms (R114) -/

/-- A row of the 16-bit immediate group: `g` takes whether it saturates, the register, and IMM6. -/
def aluiRow (o : Nat) (g : Bool → Word → Nat → Int × Nat) (c : Core) (w : Word) (s : State) : Out :=
  kamyn c w s (fun op => match op with
    | .alui o' rd imm => if o' = o then some (fun k => k.result rd [rd] (g k.x.sat (k.x.gd rd) imm)) else none
    | _ => none)

/-- SHLI (R114). -/
def execShli (c : Core) (w : Word) (s : State) : Out :=
  aluiRow 2 (fun sat a n => fitSO 32 sat (a.toInt * 2 ^ n)) c w s

/-- SHRI (R114). -/
def execShri (c : Core) (w : Word) (s : State) : Out :=
  aluiRow 3 (fun _ a n => ((a.toNat / 2 ^ n : Nat), 0)) c w s

/-- SARI (R114). -/
def execSari (c : Core) (w : Word) (s : State) : Out :=
  aluiRow 4 (fun _ a n => (a.toInt / 2 ^ n, 0)) c w s

/-- CEQI (R114). -/
def execCeqi (c : Core) (w : Word) (s : State) : Out :=
  aluiRow 5 (fun _ a n => cmpI (decide (a.toInt = sx 6 n))) c w s

/-- CLTI (R114). -/
def execClti (c : Core) (w : Word) (s : State) : Out :=
  aluiRow 6 (fun _ a n => cmpI (decide (a.toInt < sx 6 n))) c w s

/-- ANDI (R114). -/
def execAndi (c : Core) (w : Word) (s : State) : Out :=
  aluiRow 7 (fun _ a n => ((a &&& intWord (sx 6 n)).toInt, 0)) c w s

/-! ### Accumulators (R118) -/

/-- MAC, MSU, MPY of a format: FUNCT `f`, and how the product enters the accumulator. -/
def macRow (f : Nat) (g : Bool → Int → Int → Int × Nat) (keeps : Bool) (c : Core) (w : Word) (s : State) : Out :=
  kamyn c w s (fun op => match op with
    | .acc f' rd ra rb x => if f' = f then
        some (fun k => k.result rd (if keeps then [rd, ra, rb] else [ra, rb])
          (g (k.x.sat || x) (k.x.aci rd) (macProduct (f % 4) (k.x.gd ra) (k.x.gd rb))))
      else none
    | _ => none)

/-- MAC.F (R118). -/
def execMacF (c : Core) (w : Word) (s : State) : Out :=
  macRow 0 (fun sat d p => fitSO 72 sat (d + p)) true c w s

/-- MSU.F (R118). -/
def execMsuF (c : Core) (w : Word) (s : State) : Out :=
  macRow 4 (fun sat d p => fitSO 72 sat (d - p)) true c w s

/-- MPY.F (R118). -/
def execMpyF (c : Core) (w : Word) (s : State) : Out :=
  macRow 8 (fun _ _ p => (p, 0)) false c w s

/-- MAC.I (R118). -/
def execMacI (c : Core) (w : Word) (s : State) : Out :=
  macRow 1 (fun sat d p => fitSO 72 sat (d + p)) true c w s

/-- MSU.I (R118). -/
def execMsuI (c : Core) (w : Word) (s : State) : Out :=
  macRow 5 (fun sat d p => fitSO 72 sat (d - p)) true c w s

/-- MPY.I (R118). -/
def execMpyI (c : Core) (w : Word) (s : State) : Out :=
  macRow 9 (fun _ _ p => (p, 0)) false c w s

/-- MAC.D (R118). -/
def execMacD (c : Core) (w : Word) (s : State) : Out :=
  macRow 2 (fun sat d p => fitSO 72 sat (d + p)) true c w s

/-- MSU.D (R118). -/
def execMsuD (c : Core) (w : Word) (s : State) : Out :=
  macRow 6 (fun sat d p => fitSO 72 sat (d - p)) true c w s

/-- MPY.D (R118). -/
def execMpyD (c : Core) (w : Word) (s : State) : Out :=
  macRow 10 (fun _ _ p => (p, 0)) false c w s

/-- A row of the accumulator table beside the products. -/
def accRow (f : Nat) (srcs : Nat → Nat → Nat → List Nat) (g : Bank → Bool → Nat → Nat → Nat → Int × Nat)
    (c : Core) (w : Word) (s : State) : Out :=
  kamyn c w s (fun op => match op with
    | .acc f' rd ra rb x => if f' = f then
        some (fun k => k.result rd (srcs rd ra rb) (g k.x (k.x.sat || x) rd ra rb))
      else none
    | _ => none)

/-- ACLR (R118). -/
def execAclr (c : Core) (w : Word) (s : State) : Out :=
  accRow 0x10 (fun _ _ _ => []) (fun _ _ _ _ _ => (0, 0)) c w s

/-- ACADD (R118). -/
def execAcadd (c : Core) (w : Word) (s : State) : Out :=
  accRow 0x11 (fun _ a b => [a, b]) (fun x sat _ a b => fitSO 72 sat (x.aci a + x.aci b)) c w s

/-- ACSUB (R118). -/
def execAcsub (c : Core) (w : Word) (s : State) : Out :=
  accRow 0x12 (fun _ a b => [a, b]) (fun x sat _ a b => fitSO 72 sat (x.aci a - x.aci b)) c w s

/-- ACNEG (R118). -/
def execAcneg (c : Core) (w : Word) (s : State) : Out :=
  accRow 0x13 (fun _ _ b => [b]) (fun x sat _ _ b => fitSO 72 sat (-x.aci b)) c w s

/-- ACSH (R118). -/
def execAcsh (c : Core) (w : Word) (s : State) : Out :=
  accRow 0x14 (fun _ _ b => [b]) (fun x sat _ a b => fitSO 72 sat (x.aci b * 2 ^ (sx 5 a + 16).toNat / 2 ^ 16)) c w s

/-- SAC (R118). -/
def execSac (c : Core) (w : Word) (s : State) : Out :=
  accRow 0x18 (fun _ a _ => [a]) (fun x _ _ a b => sacValue x.rnd (x.aci a) (sx 5 b)) c w s

/-- LDAC (R118). -/
def execLdac (c : Core) (w : Word) (s : State) : Out :=
  accRow 0x19 (fun _ a _ => [a]) (fun x _ _ a _ => (x.di a * 2 ^ 32, 0)) c w s

/-- ACRD (R118). -/
def execAcrd (c : Core) (w : Word) (s : State) : Out :=
  accRow 0x1A (fun _ a _ => [a]) (fun x _ _ a b => (accGet (x.gac a) b, 0)) c w s

/-- ACWR (R118). -/
def execAcwr (c : Core) (w : Word) (s : State) : Out :=
  accRow 0x1B (fun d a _ => [d, a]) (fun x _ d a b => (accSet (x.gac d) b (x.gd a), 0)) c w s

/-! ### Addresses, immediates, moves (R120 to R122) -/

/-- A row of the address group: nothing is consumed, the mark passes on. -/
def addrRow (f : Nat) (g : Bank → Nat → Nat → Int) (c : Core) (w : Word) (s : State) : Out :=
  kamyn c w s (fun op => match op with
    | .addr f' rd ra rb => if f' = f then some (fun k => k.result rd [ra, rb] (g k.x ra rb, 0)) else none
    | _ => none)

/-- ADDA (R120). -/
def execAdda (c : Core) (w : Word) (s : State) : Out :=
  addrRow 0 (fun x a b => x.get a + x.get b) c w s

/-- SUBA (R120). -/
def execSuba (c : Core) (w : Word) (s : State) : Out :=
  addrRow 1 (fun x a b => (x.get a : Int) - x.get b) c w s

/-- ADDAA (R120). -/
def execAddaa (c : Core) (w : Word) (s : State) : Out :=
  addrRow 2 (fun x a b => x.get a + x.get b) c w s

/-- MODA (R120). -/
def execModa (c : Core) (w : Word) (s : State) : Out :=
  addrRow 3 (fun x a b => modifyA (x.get a) (x.gm b)) c w s

/-- MOVI (R114, R121). -/
def execMovi (c : Core) (w : Word) (s : State) : Out :=
  kamyn c w s (fun op => match op with
    | .alui 0 rd imm => some (fun k => k.result rd [] (sx 6 imm, 0))
    | .imm 0 rd v => some (fun k => k.result rd [] (sx 16 v, 0))
    | _ => none)

/-- MOVHI (R121). -/
def execMovhi (c : Core) (w : Word) (s : State) : Out :=
  kamyn c w s (fun op => match op with
    | .imm 1 rd v => some (fun k => k.result rd [rd] (v * 65536 + k.x.get rd % 65536, 0))
    | _ => none)

/-- ADDI (R114, R121): SAT/OV for a D register only. -/
def execAddi (c : Core) (w : Word) (s : State) : Out :=
  kamyn c w s (fun op => match op with
    | .alui 1 rd imm => some (fun k => k.result rd [rd] (fitSO 32 k.x.sat (k.x.di rd + sx 6 imm)))
    | .imm 2 rd v => some (fun k => k.result rd [rd]
        (if isD rd then fitSO 32 k.x.sat (k.x.di rd + sx 16 v) else (k.x.get rd + sx 16 v, 0)))
    | _ => none)

/-- ORI (R121). -/
def execOri (c : Core) (w : Word) (s : State) : Out :=
  kamyn c w s (fun op => match op with
    | .imm 3 rd v => some (fun k => k.result rd [rd] ((k.x.get rd ||| v : Nat), 0))
    | _ => none)

/-- MOV (R122): it sets no flag, not even where SAC would. -/
def execMov (c : Core) (w : Word) (s : State) : Out :=
  kamyn c w s (fun op => match op with
    | .mov rd rs => some (fun k => k.result rd [rs]
        (if isD rs && isAC rd then (k.x.di rs * 2 ^ 32, 0)
         else if isAC rs && isD rd then ((sacValue k.x.rnd (k.x.aci rs) 0).1, 0)
         else (k.x.get rs, 0)))
    | _ => none)

end Sys2Proof.Machine
end

