-- ==== Sys2Proof/Machine/KMem.lean ====
section
/-!
DEFINITION. Loads and stores (04_kamyn_instruction_set.md R114, R123), and the response of a load that waits (R66, R150).
-/

namespace Sys2Proof.Machine

/-- The address register after the instruction, where it is modified. -/
def KPost.after (x : Bank) (an : Nat) : KPost → Option Nat
  | .keep => none
  | .plus4 => some ((x.get an + 4) % 2 ^ 24)
  | .modM m => some (modifyA (x.get an) (x.gm m))

/-- The registers consumed as address and modifier (R103). -/
def KPost.uses (an : Nat) : KPost → List Nat
  | .modM m => [an, m]
  | _ => [an]

/-- The modified address register is written last. -/
def Bank.putPost (x : Bank) (an : Nat) : Option Nat → Bank
  | some v => x.put an v false
  | none => x

/-- A load. -/
def K.runLoad (k : K) (rd w an : Nat) (off : Int) (post : KPost) : KRes :=
  if k.x.poisAny (post.uses an) then .fault k.s 1 none
  else
    let a := addrAdd (k.x.get an) off
    let after := post.after k.x an
    match k.load a (2 ^ w) with
    | .val v m0 m1 s => .ok s ((k.x.loadReg rd w v m0 m1).putPost an after)
    | .wait kind target s =>
      let lw : LoadWait := { kind := kind, addr := .ofNat 24 a, width := 2 ^ w, dst := rd, target := target, post := after.map (fun v => (an, .ofNat 24 v, false)), pc := .ofNat 24 k.pc, nextPc := .ofNat 24 (k.pc + k.len) }
      .pend s { k.x with wait := some lw }
    | .fault s c a => .fault s c (some a)
    | .hold s => .hold s none

/-- A store. -/
def K.runStore (k : K) (rd w an : Nat) (off : Int) (post : KPost) : KRes :=
  if k.x.poisAny (post.uses an) then .fault k.s 1 none
  else
    let a := addrAdd (k.x.get an) off
    let after := post.after k.x an
    let v := if w = 3 then (k.x.gd rd).toNat + (k.x.gd (rd + 1)).toNat * 2 ^ 32 else k.x.get rd % 2 ^ (8 * 2 ^ w)
    let ms := if w = 3 then [k.x.pois rd, k.x.pois (rd + 1)] else [k.x.pois rd]
    match k.store a (2 ^ w) v ms with
    | .val _ _ _ s => .ok s (k.x.putPost an after)
    | .wait _ _ s => .hold s none
    | .fault s c a => .fault s c (some a)
    | .hold s => .hold s none

/-- LD (R114, R123): the form with an offset, and the 16-bit forms. -/
def execLd (c : Core) (w : Word) (s : State) : Out :=
  kamyn c w s (fun op => match op with
    | .mem false false rd wd an off post => some (fun k => k.runLoad rd wd an off post)
    | _ => none)

/-- ST (R114, R123). -/
def execSt (c : Core) (w : Word) (s : State) : Out :=
  kamyn c w s (fun op => match op with
    | .mem true false rd wd an off post => some (fun k => k.runStore rd wd an off post)
    | _ => none)

/-- LD with post-modify, MAJ 0x6 (R123). -/
def execLdPostModify (c : Core) (w : Word) (s : State) : Out :=
  kamyn c w s (fun op => match op with
    | .mem false true rd wd an off post => some (fun k => k.runLoad rd wd an off post)
    | _ => none)

/-- ST with post-modify, MAJ 0x6 (R123). -/
def execStPostModify (c : Core) (w : Word) (s : State) : Out :=
  kamyn c w s (fun op => match op with
    | .mem true true rd wd an off post => some (fun k => k.runStore rd wd an off post)
    | _ => none)

/-! ### LOAD_RESPONSE -/

/-- The access of a load through the unit-register window, in program order after the engine's earlier stores (R75). -/
def State.windowAccess (s : State) (p : Fin 72) (lw : LoadWait) : Nat × BitVec 64 × State :=
  let off := s.urpTarget lw.target
  if off.any s.swept then (4, 0, s)
  else
    let (v, t) := s.urpLoad p (s.master (.urp p)) off lw.addr.toNat ((s.running p).getD 0) lw.pc.toNat
    (0, v.setWidth 64, t)

/-- The response to the load of bank b of an engine: the running task ends its wait; a task preempted or halted takes it when
the load is issued again (R150). -/
def State.engResponse (s : State) (p : Fin 72) (b : Nat) (code : Nat) (data : BitVec 64) : State :=
  let x := s.bank p b
  match x.wait with
  | none => s
  | some lw =>
    if !s.live || lw.resp.isSome || (lw.kind == 0 && !(s.eng p).path.isEmpty) then s
    else
      let (code, data, s) := if lw.kind = 0 then s.windowAccess p lw else (code, data, s)
      if s.kReady (.eng p) && s.runBank p == b && !lw.micro then s.loadEnd (.eng p) lw code data
      else s.setBank p b { x with wait := some { lw with resp := some (code, data) } }

/-- The response to a load of the Shepherd. -/
def State.shResponse (s : State) (b : Nat) (code : Nat) (data : BitVec 64) : State :=
  let x := s.shBankAt b
  match x.wait with
  | none => s
  | some lw =>
    if !s.live || lw.resp.isSome then s
    else if s.shBankNo = b then s.loadEnd .shep lw code data
    else s.setShBankAt b { x with wait := some { lw with resp := some (code, data) } }

/-- LOAD_RESPONSE (R66, R85, R387): for the unit-register window the block itself makes the access; for system memory the
response's code and data are the command's operands. -/
def execLoadResponse (c : Core) (bank : Fin 4) (code : Fin 4) (data : BitVec 64) (s : State) : Out :=
  .next (match c with
    | .eng p => s.engResponse p bank code data
    | .shep => s.shResponse bank code data)

/-- UNIT_REGISTER_STORE_ACCEPT (R75): the oldest store in flight enters its register block; one that carries an old flock
incarnation is discarded. -/
def execUnitRegisterStoreAccept (p : Fin 72) (s : State) : Out :=
  .next (match (s.eng p).path with
    | [] => s
    | e :: t =>
      if !s.live then s
      else
        let s := s.setEng p { s.eng p with path := t }
        if e.inc ≠ s.flockInc e.flock then s.inc (FLK_STALE_CNT e.flock)
        else
          let m : Master := { s.master (.urp p) with flock := e.flock, inc := e.inc }
          s.urpStore p m (s.urpTarget (e.eaddr.toNat - 0x400000)) e.eaddr.toNat e.slot e.pc.toNat e.data)

/-- LATE_STORE_ERROR (R85). -/
def execLateStoreError (p : Fin 72) (s : State) : Out := .next (if s.live then s.lateStoreError p else s)

/-- SHEPHERD_LATE_STORE_ERROR (R406). -/
def execShepherdLateStoreError (s : State) : Out := .next (if s.live then s.shLateStore else s)

/-- BUFFERED_STORE_COMPLETE (R524): the oldest buffered store reaches system memory. -/
def execBufferedStoreComplete (c : Core) (s : State) : Out :=
  .next (match c with
    | .eng p => s.storeDone p
    | .shep => s.shStoreDone)

/-- FLASH_LINE_ARRIVAL (R393): 32 bytes, or an error response. -/
def execFlashLineArrival (bytes : Vector Byte 32) (ok : Bool) (s : State) : Out :=
  .next (if s.live then s.lineArrival bytes.toList ok else s)

end Sys2Proof.Machine
end

