-- ==== Sys2Proof/Machine/KFlow.lean ====
section
/-!
DEFINITION. Control flow and the system group on both cores (04_kamyn_instruction_set.md R110 to R114, R124, R130 to R132;
15_shepherd_core.md R402, R406, R413; 20_debug.md R507).
-/

namespace Sys2Proof.Machine

/-- A jump to the address in a register, which it consumes (R103). -/
def K.jumpReg (k : K) (an : Nat) (x : Bank) : KRes :=
  if k.x.pois an then .fault k.s 1 none else .jump k.s x (k.x.get an)

/-- The return address goes to A7. -/
def K.linked (k : K) : Bank := k.x.put 23 ((k.pc + 4) % 2 ^ 24) false

/-- NOP (R114). -/
def execNop (c : Core) (w : Word) (s : State) : Out :=
  kamyn c w s (fun op => match op with
    | .nop => some (fun k => .ok k.s k.x)
    | _ => none)

/-- WAIT (R131, R402): the code-store buffer is written out, line by line (R149), and the activation ends; on the Shepherd, sleep. An
Outer world's WAIT is remembered. -/
def K.runWait (k : K) : KRes :=
  let x := { k.x with pc := .ofNat 24 (k.pc + 2) }
  match k.c with
  | .eng p =>
    let (more, s) := k.s.codeStep p
    if more then .hold s none
    else .done ((((s.setBank p (s.runBank p) x.modeEnd).endActivation p ((s.running p).getD 0)).setDist p 0).stepped p)
  | .shep =>
    let s := k.s.setShBank { x.modeTick with micro := x.micro.ended }
    .done (State.setFlag { s with sh.outerSleep := s.sh.outerSleep || s.shOuter } SH_STAT fSH_STAT_SLEEP true)

def execWait (c : Core) (w : Word) (s : State) : Out :=
  kamyn c w s (fun op => match op with
    | .wait => some K.runWait
    | _ => none)

/-- ISYNC (R131): the code-store buffer is written out; on the Shepherd it waits for the store buffer (R406). -/
def execIsync (c : Core) (w : Word) (s : State) : Out :=
  kamyn c w s (fun op => match op with
    | .isync => some (fun k => match k.c with
        | .eng p => if (k.s.codeStep p).1 then .hold (k.s.codeStep p).2 none else .ok (k.s.codeStep p).2 k.x
        | .shep => if k.s.sh.stores.isEmpty then .ok k.s k.x else .hold k.s none)
    | _ => none)

/-- RET (R114). -/
def execRet (c : Core) (w : Word) (s : State) : Out :=
  kamyn c w s (fun op => match op with
    | .ret => some (fun k => k.jumpReg 23 k.x)
    | _ => none)

/-- BRK (R131, R507). The Shepherd never halts: there BRK raises the event or is a NOP. -/
def execBrk (c : Core) (w : Word) (s : State) : Out :=
  kamyn c w s (fun op => match op with
    | .brk => some (fun k => match k.c with
        | .eng p => .ok (k.s.engBrk p k.pc) k.x
        | .shep => .ok (if k.s.fld DB_POLICY fDB_POLICY_EBRK = 0 then k.s else k.s.raise 960 1 k.pc) k.x)
    | _ => none)

/-- SIGNAL (R130, R347, R413): an engine's event passes its Hurdle. -/
def execSignal (c : Core) (w : Word) (s : State) : Out :=
  kamyn c w s (fun op => match op with
    | .signal ds code => some (fun k =>
        let v := match ds with
          | some d => (k.x.gd d).toNat
          | none => 0
        match k.c with
        | .eng p => .ok (k.s.leRaise p 3 v (code + (k.s.running p).getD 0 * 256 + k.s.leLogical p * 65536)) k.x
        | .shep => .ok (k.s.raise (if k.s.shOuter then 49 else 48) v code) k.x)
    | _ => none)

/-! ### Branches (R114, R124) -/

/-- BRA. -/
def execBra (c : Core) (w : Word) (s : State) : Out :=
  kamyn c w s (fun op => match op with
    | .bra off => some (fun k => .jump k.s k.x (addrAdd k.pc off))
    | _ => none)

/-- BG: the guard register is consumed. -/
def execBg (c : Core) (w : Word) (s : State) : Out :=
  kamyn c w s (fun op => match op with
    | .bg neg g off => some (fun k =>
        if k.x.pois g then .fault k.s 1 none
        else if (k.x.gd g != 0) != neg then .jump k.s k.x (addrAdd k.pc off)
        else .ok k.s k.x)
    | _ => none)

/-- BDEC: the register is consumed. -/
def execBdec (c : Core) (w : Word) (s : State) : Out :=
  kamyn c w s (fun op => match op with
    | .bdec dn off => some (fun k =>
        let v := k.x.gd dn - 1
        let x := k.x.put dn v.toNat false
        if k.x.pois dn then .fault k.s 1 none
        else if v ≠ 0 then .jump k.s x (addrAdd k.pc off)
        else .ok k.s x)
    | _ => none)

/-- BR. -/
def execBr (c : Core) (w : Word) (s : State) : Out :=
  kamyn c w s (fun op => match op with
    | .br off => some (fun k => .jump k.s k.x (addrAdd k.pc off))
    | _ => none)

/-- CALL. -/
def execCall (c : Core) (w : Word) (s : State) : Out :=
  kamyn c w s (fun op => match op with
    | .call off => some (fun k => .jump k.s k.linked (addrAdd k.pc off))
    | _ => none)

/-- JR. -/
def execJr (c : Core) (w : Word) (s : State) : Out :=
  kamyn c w s (fun op => match op with
    | .jr an => some (fun k => k.jumpReg an k.x)
    | _ => none)

/-- CALLR: the target is read before A7 is written. -/
def execCallr (c : Core) (w : Word) (s : State) : Out :=
  kamyn c w s (fun op => match op with
    | .callr an => some (fun k => k.jumpReg an k.linked)
    | _ => none)

/-! ### STAMP, MODE, RDMODE, RANK (R110, R130, R132) -/

/-- The stamp that a form of STAMP reads. -/
def K.stampValue (k : K) (form i : Nat) : Stamp :=
  match form, k.c with
  | 0, _ => k.s.now
  | 1, .eng p => k.s.reg64 (LE_TRIG_STAMP_LO p ((k.s.running p).getD 0)) (LE_TRIG_STAMP_HI p ((k.s.running p).getD 0))
  | _, _ => k.s.reg64 (TL_BTIME_LO i) (TL_BTIME_HI i)

/-- STAMP. -/
def execStamp (c : Core) (w : Word) (s : State) : Out :=
  kamyn c w s (fun op => match op with
    | .stamp dr form i => some (fun k =>
        let t := k.stampValue form i
        .ok k.s ((k.x.put dr (lo32 t) false).put (dr + 1) (hi32 t) false))
    | _ => none)

/-- MODE: a poisoned value is a fault (R72); nonzero reserved bits are counted (R109). -/
def execMode (c : Core) (w : Word) (s : State) : Out :=
  kamyn c w s (fun op => match op with
    | .mode ds => some (fun k =>
        let v := k.x.gd ds
        if k.x.pois ds then .fault k.s 1 none
        else .ok (if bitsOf v.toNat 13 19 ≠ 0 ∨ bitsOf v.toNat 3 5 ≠ 0 then k.s.inc RC_RSVD_WRITES else k.s) (k.x.modeWrite v))
    | _ => none)

/-- RDMODE. -/
def execRdmode (c : Core) (w : Word) (s : State) : Out :=
  kamyn c w s (fun op => match op with
    | .rdmode dr => some (fun k => .ok k.s (k.x.put dr k.x.modeRead.toNat false))
    | _ => none)

/-- RANK: waits while a request of the engine is outstanding; the request passes the Hurdle (R461). -/
def execRank (c : Core) (w : Word) (s : State) : Out :=
  kamyn c w s (fun op => match op with
    | .rank an => some (fun k =>
        let a := k.x.get an
        match k.c with
        | .eng p =>
          if k.x.pois an then .fault k.s 1 none
          else if engRegion a != .shared then .fault k.s 4 (some a)
          else if a % 16 ≠ 0 then .fault k.s 5 (some a)
          else if (k.s.eng p).rankOut then .hold k.s (some 0x520)
          else .ok (k.s.hurdle 0 p (fun s => s.rankIssue p (a - 0x80000))) k.x
        | .shep => .fault k.s 2 none)
    | _ => none)

end Sys2Proof.Machine
end

