-- ==== Sys2Proof/Machine/KQueue.lean ====
section
/-!
DEFINITION. Queue operations and duty writes (04_kamyn_instruction_set.md R125 to R129; 12_queue_fabric.md R325 to R330).
-/

namespace Sys2Proof.Machine

/-- What every queue instruction does first: consumption of the selector, and the wait for a copy or a move, a safe point in every fc
(12_queue_fabric.md R330), from which the operation is issued anew (log entry 68). -/
def K.queueRun (k : K) (qsel qv : Nat) (f : Option Nat → KRes) : KRes :=
  if qsel = 2 ∧ k.x.pois qv = true then .fault k.s 1 none
  else
    let q := k.queueNo qsel qv
    if q.any k.s.qBusy then .hold k.s none else f q

/-- QGET (R126), in its 32-bit and its 16-bit form. -/
def execQget (c : Core) (w : Word) (s : State) : Out :=
  kamyn c w s (fun op => match op with
    | .queue 0 n qsel dr st qv => some (fun k => k.queueRun qsel qv (fun q =>
        let (o, s) := k.queueOp k.s 0 q []
        let x := if o.ok then k.x.putEntry dr o.entry (2 ^ n) else k.x
        .ok s (x.queueEnd o fQE none st false)))
    | _ => none)

/-- QPUT (R126). -/
def execQput (c : Core) (w : Word) (s : State) : Out :=
  kamyn c w s (fun op => match op with
    | .queue 1 n qsel dr st qv => some (fun k => k.queueRun qsel qv (fun q =>
        let rs := (List.range (2 ^ n)).map (fun i => dr + i)
        let e := (rs.map (fun r => (k.x.gd r, k.x.pois r))).take (k.s.moveWords q)
        let (o, s) := k.queueOp k.s 1 q (padWords (k.s.moveWords q) e)
        .ok s (k.x.queueEnd o fQF none st (k.x.poisAny rs))))
    | _ => none)

/-- The memory forms: the address register is consumed, every word they move is checked, then the operation is made. -/
def K.queueMem (k : K) (n dr qsel qv : Nat) (put : Bool) (f : Option Nat → Nat → State → Option (Nat × Nat) → KRes) : KRes :=
  let an := 16 + dr
  if k.x.pois an then .fault k.s 1 none
  else k.queueRun qsel qv (fun q =>
    let a := k.x.get an
    let m := k.s.moveWords q
    let wr : List QWord := if put then [] else (match q with
      | some i => if k.s.qShown i = 0 then [] else k.s.qPeek i
      | none => [])
    match k.wordChecks k.s ((wordAddrs a m).zipIdx.map (fun e =>
        (e.1, if put then none else some ((wr.getD e.2 (0, false)).1.toNat)))) with
    | (some (cause, b), s) => .fault s cause (some b)
    | (none, s) => f q a s (if n = 1 then some (an, (a + 4 * m) % 2 ^ 24) else none))

/-- QGETM (R126). -/
def execQgetm (c : Core) (w : Word) (s : State) : Out :=
  kamyn c w s (fun op => match op with
    | .queue 2 n qsel dr st qv => some (fun k => k.queueMem n dr qsel qv false (fun q a s post =>
        let (o, s) := k.queueOp s 0 q []
        let s := if o.ok then k.putEntry s a o.entry else s
        .ok s (k.x.queueEnd o fQE post st false)))
    | _ => none)

/-- QPUTM (R126). -/
def execQputm (c : Core) (w : Word) (s : State) : Out :=
  kamyn c w s (fun op => match op with
    | .queue 3 n qsel dr st qv => some (fun k => k.queueMem n dr qsel qv true (fun q a s post =>
        let e := (wordAddrs a (s.moveWords q)).map (k.word s)
        let (o, s) := k.queueOp s 1 q e
        .ok s (k.x.queueEnd o fQF post st false)))
    | _ => none)

/-- QLVL (R126): a refused one reads 0 and sets QE. -/
def execQlvl (c : Core) (w : Word) (s : State) : Out :=
  kamyn c w s (fun op => match op with
    | .queue 4 _ qsel dr st qv => some (fun k => k.queueRun qsel qv (fun q =>
        let (o, s) := k.queueOp k.s 2 q []
        .ok s ((k.x.put dr o.level false).queueEnd o fQE none st false)))
    | _ => none)

/-- PWD (R128, R129): waits for the engine's earlier path stores (R75); a generator of another flock is denied; the write passes
the Hurdle. -/
def execPwd (c : Core) (w : Word) (s : State) : Out :=
  kamyn c w s (fun op => match op with
    | .pwd pw ds cmp mode tp fmt => some (fun k =>
        match k.c with
        | .shep => .fault k.s 2 none
        | .eng p =>
          let s := k.s
          if !(s.eng p).path.isEmpty then .hold s (some 0x500)
          else if mode = 2 ∧ k.x.poisAny [2 * tp, 2 * tp + 1] = true then .fault s 1 none
          else match (s.findGen pw).filter (fun g => s.unitFlock 1 g == s.leFlock p) with
            | none => .ok (s.urpDenied p 7 ((s.running p).getD 0) k.pc pw) k.x
            | some g =>
              let t : Stamp := if mode = 2 then k.x.gd (2 * tp + 1) ++ k.x.gd (2 * tp) else 0
              let d : DutyWrite := { cmp := cmp, value := k.x.gd ds, poison := k.x.pois ds, fmt1 := fmt, mode := mode, time := t, inc := s.flockInc (s.leFlock p), mapInc := s.fld (LE_MAP p) fLE_MAP_INC, logical := pw, stamp := s.now, src := 0, pe := p.val }
              .ok (s.hurdle 0 p (fun s => s.toGen g (fun h s => s.pwdSend h d))) k.x)
    | _ => none)

end Sys2Proof.Machine
end

