-- ==== Sys2Proof/Machine/KComplex.lean ====
section
/-!
DEFINITION. The complex instructions (04_kamyn_instruction_set.md R134 to R140). A command carries one on to its next safe point (R140,
05_cycle_timing.md R151): SINCOS after iteration 15, DIV, DIVQ and SQRT at half their iterations, FIRK after every tap.
-/

namespace Sys2Proof.Machine

/-! ### PIS (R135) -/

/-- The result of a PI step: u, the new integrator, STAT. -/
def pisStep (rnd : Nat) (kp ki : Int) (sh : Nat) (umin umax i e : Int) : Int × Int × Nat :=
  let p := roundDiv rnd (kp * e * 2 ^ sh) (2 ^ 31)
  let di := roundShift rnd (ki * e) 31
  let itry := i + di
  let u := p + itry
  let hi := decide (umax < u) || decide (umax < umin)
  let lo := !hi && decide (u < umin)
  let itry := if (hi ∧ 0 < di) ∨ (lo ∧ di < 0) then i else itry
  let u := if hi then umax else if lo then umin else u
  let m := if itry < umin then umin else itry
  (u, if umax < m then umax else m, b2n hi + 2 * b2n lo)

/-- PIS: the block is read, then I and STAT are written back. -/
def execPis (c : Core) (w : Word) (s : State) : Out :=
  kamyn c w s (fun op => match op with
    | .cplx 0x00 rd ra rb _ => some (fun k =>
        if k.x.pois ra then .fault k.s 1 none
        else
          let a := k.x.get ra
          let at' (i : Nat) : Nat := (a + i) % 2 ^ 24
          match k.wordChecks k.s ((wordAddrs a 6).map (fun b => (b, none))) with
          | (some (cause, b), s) => .fault s cause (some b)
          | (none, s) =>
            let ws := (wordAddrs a 6).map (k.word s)
            let v (i : Nat) : Word := (ws.getD i (0, false)).1
            let m := k.x.pois rb || ws.any (fun e => e.2)
            let (u, i, st) := pisStep k.x.rnd (v 0).toInt (v 1).toInt ((v 2).toNat % 16) (v 3).toInt (v 4).toInt (v 5).toInt (k.x.di rb)
            match k.wordChecks s [(at' 0x14, some (intWord i).toNat), (at' 0x18, some st)] with
            | (some (cause, b), s) => .fault s cause (some b)
            | (none, s) =>
              let s := k.putWord (k.putWord s (at' 0x14) (intWord i) m) (at' 0x18) (.ofNat 32 st) m
              .ok s ((k.x.raise (if st = 0 then 0 else fSV)).putI rd (if isAC rd then u * 2 ^ 32 else u) m))
    | _ => none)

/-! ### XFORM (R136), SINCOS (R137) -/

/-- Several results into consecutive registers, with their flags and mark. -/
def K.resultsOf (k : K) (rd : Nat) (mark : Bool) (rs : List (Int × Nat)) : KRes :=
  .ok k.s ((k.x.raise (rs.foldl (fun a r => a ||| r.2) 0)).putAll rd mark (rs.map (fun r => r.1)))

def K.results (k : K) (rd : Nat) (srcs : List Nat) (rs : List (Int × Nat)) : KRes := k.resultsOf rd (k.x.poisAny srcs) rs

/-- XFORM.CL: Clarke. -/
def execXformCl (c : Core) (w : Word) (s : State) : Out :=
  kamyn c w s (fun op => match op with
    | .cplx 0x01 rd ra _ _ => some (fun k =>
        let a := k.x.di ra
        let b := k.x.di (ra + 1)
        let d := k.x.di (ra + 2)
        k.results rd [ra, ra + 1, ra + 2] [q31 k.x.rnd ((2 * a - b - d) * k3), q31 k.x.rnd ((b - d) * kr)])
    | _ => none)

/-- XFORM.ICL: inverse Clarke. -/
def execXformIcl (c : Core) (w : Word) (s : State) : Out :=
  kamyn c w s (fun op => match op with
    | .cplx 0x02 rd ra _ _ => some (fun k =>
        let a := k.x.di ra
        let b := k.x.di (ra + 1)
        k.results rd [ra, ra + 1] [(a, 0), q31 k.x.rnd (-a * 2 ^ 30 + b * kh), q31 k.x.rnd (-a * 2 ^ 30 - b * kh)])
    | _ => none)

/-- XFORM.PK: Park; sin in Db, cos in Db+1. -/
def execXformPk (c : Core) (w : Word) (s : State) : Out :=
  kamyn c w s (fun op => match op with
    | .cplx 0x03 rd ra rb _ => some (fun k =>
        let a := k.x.di ra
        let b := k.x.di (ra + 1)
        let sn := k.x.di rb
        let cs := k.x.di (rb + 1)
        k.results rd [ra, ra + 1, rb, rb + 1] [q31 k.x.rnd (a * cs + b * sn), q31 k.x.rnd (-a * sn + b * cs)])
    | _ => none)

/-- XFORM.IPK: inverse Park. -/
def execXformIpk (c : Core) (w : Word) (s : State) : Out :=
  kamyn c w s (fun op => match op with
    | .cplx 0x04 rd ra rb _ => some (fun k =>
        let d := k.x.di ra
        let q := k.x.di (ra + 1)
        let sn := k.x.di rb
        let cs := k.x.di (rb + 1)
        k.results rd [ra, ra + 1, rb, rb + 1] [q31 k.x.rnd (d * cs - q * sn), q31 k.x.rnd (d * sn + q * cs)])
    | _ => none)

/-- SINCOS. -/
def execSincos (c : Core) (w : Word) (s : State) : Out :=
  kamyn c w s (fun op => match op with
    | .cplx 0x08 rd ra _ _ => some (fun k =>
        match k.kept with
        | some (.cordic q x y z p) =>
          let r := sincosRest q (x, y, z)
          k.resultsOf rd p [fitSV 32 (roundShift k.x.rnd r.1 8), fitSV 32 (roundShift k.x.rnd r.2 8)]
        | _ =>
          let (q, x, y, z) := sincosHalf (k.x.gd ra)
          .part k.s k.x (.cordic q x y z (k.x.pois ra)))
    | _ => none)

/-! ### DIV, DIVQ, SQRT (R138) -/

/-- An instruction with a safe point at half its iterations, on the operands that it read at its start. -/
def K.halved (k : K) (rd ra rb : Nat) (f : Word → Word → Int × Nat) : KRes :=
  match k.kept with
  | some (.half a b p) => k.resultsOf rd p [f a b]
  | _ => .part k.s k.x (.half (k.x.gd ra) (k.x.gd rb) (k.x.poisAny [ra, rb]))

/-- DIV. -/
def execDiv (c : Core) (w : Word) (s : State) : Out :=
  kamyn c w s (fun op => match op with
    | .cplx 0x0C rd ra rb _ => some (fun k => k.halved rd ra rb (fun a b => divValue a.toInt b.toInt))
    | _ => none)

/-- DIVQ. -/
def execDivq (c : Core) (w : Word) (s : State) : Out :=
  kamyn c w s (fun op => match op with
    | .cplx 0x0E rd ra rb _ => some (fun k => k.halved rd ra rb (fun a b => divqValue k.x.rnd a.toInt b.toInt))
    | _ => none)

/-- SQRT. -/
def execSqrt (c : Core) (w : Word) (s : State) : Out :=
  kamyn c w s (fun op => match op with
    | .cplx 0x10 rd _ rb x => some (fun k => k.halved rd rb rb (fun _ b => sqrtValue k.x.rnd x b))
    | _ => none)

/-! ### FIRK (R139) -/

/-- One tap: what stops it, or what is left after it. `a` is the coefficient's address, `b` the sample's. The last tap writes ACd; every other
one ends at a safe point. -/
def K.tap (k : K) (s : State) (rd : Nat) (m : Word) (n a b : Nat) (acc : Int) (flags : Nat) (mark : Bool) : KRes :=
  match k.wordChecks s [(a, none), (b, none)] with
  | (some (cause, e), s) => .fault s cause (some e)
  | (none, s) =>
    let x := k.word s a
    let y := k.word s b
    let r := fitSO 72 k.x.sat (acc + 2 * (x.1.toInt * y.1.toInt))
    let mark := mark || x.2 || y.2
    if n ≤ 1 then .ok s ((k.x.raise (flags ||| r.2)).putI rd r.1 mark)
    else .part s k.x (.taps (n - 1) ((a + 4) % 2 ^ 24) (modifyA b m) r.1 (flags ||| r.2) mark)

/-- FIRK: addresses and modifier are consumed. A poisoned count gives a poisoned ACd too. -/
def execFirk (c : Core) (w : Word) (s : State) : Out :=
  kamyn c w s (fun op => match op with
    | .cplx 0x18 rd ra rb _ => some (fun k =>
        let mr := 24 + (rb - 16) % 4
        match k.kept with
        | some (.taps n a b acc fl p) => k.tap k.s rd (k.x.gm mr) n a b acc fl p
        | _ =>
          if k.x.poisAny [ra, rb, mr] then .fault k.s 1 none
          else
            let a := k.x.get ra
            match k.wordCheck k.s a none with
            | (some (cause, b), s) => .fault s cause (some b)
            | (none, s) =>
              let n := k.word s a
              let kept := k.x.setPois rd (k.x.pois rd || n.2)
              if 1024 < n.1.toNat then .ok s (kept.raise fDOM)
              else if n.1 = 0 then .ok s kept
              else k.tap s rd (k.x.gm mr) n.1.toNat ((a + 4) % 2 ^ 24) (k.x.get rb) (k.x.aci rd) 0 (k.x.pois rd || n.2))
    | _ => none)

end Sys2Proof.Machine
end

