-- ==== Sys2Proof/Machine/KSuper.lean ====
section
/-!
DEFINITION. The supervisor group on the Shepherd (15_shepherd_core.md R392, R397 to R400, R403, R407, R409). On an engine every word of
it takes fault SUPER, which Kamyn.lean gives.
-/

namespace Sys2Proof.Machine

/-- A row of the supervisor group: `f` takes I[31:16]. -/
def supRow (o : Nat) (f : Nat → K → KRes) (c : Core) (w : Word) (s : State) : Out :=
  kamyn c w s (fun op => match op with
    | .sup o' hi => if o' = o then some (f hi) else none
    | _ => none)

/-! ### Gates (R399, R400) -/

/-- The descriptor of a gate and the world of its handler; none for fault GATE. -/
def State.gateDesc (s : State) (x : Nat) : Option (Desc × Bool) :=
  if x < 0x20 then none
  else if s.shOuter && decide (0xF0 ≤ x) then
    let d := s.descriptor false x
    if d.valid && d.type == 3 && bitOf (s.nat SH_XGATE) (x - 0xF0) then some (d, false) else none
  else
    let d := s.descriptor s.shOuter x
    if d.valid && d.type == 2 then some (d, s.shOuter) else none

/-- The pointer argument in Ai: does it fail its check in the caller's context? -/
def State.badPointer (s : State) (x : Bank) (d : Desc) (i : Nat) : Bool :=
  if bitOf d.w3 i then
    let a := x.get (16 + i)
    let len := if bitOf d.w3 (8 + i) then (x.gd (8 + i)).toNat else bitsOf d.w3 12 8 + 1
    len == 0 || decide (2 ^ 24 < a + len) || !s.mpuOk s.shOuter s.shSup a len (if bitOf d.w3 (4 + i) then .write else .read)
  else false

/-- The registers that the checks of a gate consume. -/
def gateUses (d : Desc) : List Nat :=
  7 :: (List.range 4).flatMap (fun i => (if bitOf d.w3 i then [16 + i] else [])
    ++ (if bitOf d.w3 i && bitOf d.w3 (8 + i) then [8 + i] else [])) ++ (if d.stack = 0 then [22] else [])

/-- One word of a frame pushed at the handler's level: none where the stack does not accept it. -/
def State.frameWord (s : State) (pc a v : Nat) (m : Bool) : Option State :=
  match shRegion a with
  | .tcm off => some (s.storeBytes (tcmBase + off) (natBytes 4 v) [m])
  | .patch off => if s.shOuter || !s.shSup then none else some (s.storeBytes (patchRam + off) (natBytes 4 v) [m])
  | .window w off =>
    if m then none
    else (match s.shWindow w off with
      | some (true, t) =>
        some { s with sh.stores := s.sh.stores ++ [{ addr := t, eaddr := .ofNat 24 a, bytes := natBytes 4 v, pc := .ofNat 24 pc, stamp := s.now }] }
      | some (false, o) =>
        let t := s.windowWrite .shepherd o 4 15 (.ofNat 64 v)
        if (t.lastResp .shepherd).code = 0 then some t else none
      | none => none)
  | _ => none

/-- The words of a frame from an address upward. -/
def State.framePush (s : State) (pc a : Nat) : List (Nat × Bool) → Option State
  | [] => some s
  | v :: t => (s.frameWord pc a v.1 v.2).bind (fun s => State.framePush s pc (a + 4) t)

/-- Does a stack lie in system memory? A push waits for room in the store buffer there (R389), a pop for the stores before it. -/
def State.frameInSys (s : State) (a : Nat) : Bool :=
  match shRegion a with
  | .window w off => (s.shWindow w off).any (fun e => e.1)
  | _ => false

/-- A word of a frame read back: its value and mark, none where nothing answers. Of system memory it is what the block last wrote there
(DESIGN CHOICE, log entry 59). -/
def State.frameRead (s : State) (a : Nat) : Option (Nat × Bool) × State :=
  match shRegion a with
  | .tcm off => (some (s.bytesNat (tcmBase + off) 4, s.poisoned (tcmBase + off)), s)
  | .patch off => (some (s.bytesNat (patchRam + off) 4, s.poisoned (patchRam + off)), s)
  | .rom _ => (some (s.codeValue a 4, s.codeMark a), s)
  | .flash _ => (some (s.codeValue a 4, s.codeMark a), s)
  | .window w off => (match s.shWindow w off with
    | some (true, t) => (some (bytesNatOf ((List.range 4).map (fun i => s.sysByte (t + i))), false), s)
    | some (false, o) =>
      let (code, v, t) := s.windowRead .shepherd o 4
      if code = 0 then (some (v.toNat, false), t) else (none, t)
    | none => (none, s))
  | .none => (none, s)

/-- GATE. -/
def K.runGate (k : K) (x : Nat) : KRes :=
  let s := k.s
  match s.gateDesc x with
  | none => .fault s 9 none
  | some (d, outer) =>
    let top := if d.stack = 0 then k.x.get 22 else d.stack.toNat
    let a := (top + 2 ^ 24 - 16) % 2 ^ 24
    if s.shSup && !d.sup then .fault s 7 none
    else if k.x.poisAny (gateUses d) then .fault s 1 none
    else if (k.x.gd 7).toNat ≠ bitsOf d.w3 20 3 then .fault s 10 none
    else if (firstIdx (s.badPointer k.x d) 4).isSome then .fault s 10 none
    else if !(a % 4 == 0 && s.mpuOk outer d.sup a 16 .write) then .fault s 10 none
    else if s.frameInSys a && decide (4 < s.sh.stores.length) then .hold s none
    else match (s.setContext outer d.sup).framePush k.pc a
        [((k.pc + 4) % 2 ^ 24, false), (s.psr.toNat, false), (k.x.get 22, k.x.pois 22), (x, false)] with
    | none => .fault s 10 none
    | some t =>
      let atomic := if s.shOuter && !(decide (0xF0 ≤ x)) then min d.atomic (s.fld SH_OBUDGET fSH_OBUDGET_MAX) else d.atomic
      let t := if atomic = 0 then t else t.openAtomic 2 atomic
      let t := t.btbBranch (.ofNat 24 k.pc) d.handler
      .done (t.kEnd k.c { k.x.put 22 a false with pc := d.handler })

/-- GATE (R399, R400). -/
def execGate (c : Core) (w : Word) (s : State) : Out := supRow 0 (fun hi k => k.runGate (hi / 256)) c w s

/-- RETX: on the base bank it pops the frame of a gate; on the others it returns from the exception. -/
def K.runRetx (k : K) : KRes :=
  let s := k.s
  if s.shBankNo ≠ 0 then .done ((s.setShBank { k.x.modeTick with micro := k.x.micro.ended }).retxBank)
  else
    let a := k.x.get 22
    if k.x.pois 22 then .fault s 1 none
    else if a % 4 ≠ 0 then .fault s 5 (some a)
    else if !s.sh.stores.isEmpty && s.frameInSys a then .hold s none
    else
      let (p, t) := s.frameRead a
      let (q, t) := t.frameRead (a + 4)
      let (r, t) := t.frameRead (a + 8)
      match p, q, r with
      | some p, some q, some r =>
        if p.2 || q.2 then .fault s 1 none
        else
          let t := if t.sh.aopen = 2 then t.closeAtomic else t
          let t := t.kEnd k.c { k.x.put 22 r.1 r.2 with pc := .ofNat 24 p.1 }
          .done (t.setPsr (.ofNat 32 q.1))
      | _, _, _ => .fault s 4 (some a)

/-- RETX (R397, R399, R403). -/
def execRetx (c : Core) (w : Word) (s : State) : Out := supRow 1 (fun _ k => k.runRetx) c w s

/-! ### The MPU's words (R407) -/

/-- The register of word j of region r of the current world. -/
def State.mpuOff (s : State) (r j : Nat) : Nat := (if s.shOuter then SH_MPU_O0 r else SH_MPU_I0 r) + 4 * j

/-- The bits of word j that exist. -/
def mpuMask (j : Nat) : Nat :=
  match j with
  | 2 => 0xFF
  | 3 => 0xFFFF
  | _ => 0xFFFFE0

/-- MPUR. -/
def execMpur (c : Core) (w : Word) (s : State) : Out :=
  supRow 2 (fun hi k =>
    if !k.s.shSup then .fault k.s 7 none
    else .ok k.s (k.x.put (bitsOf hi 12 4) (k.s.nat (k.s.mpuOff (bitsOf hi 8 4) (bitsOf hi 6 2))) false)) c w s

/-- MPUW: a poisoned value is a fault. -/
def execMpuw (c : Core) (w : Word) (s : State) : Out :=
  supRow 3 (fun hi k =>
    let j := bitsOf hi 6 2
    if !k.s.shSup then .fault k.s 7 none
    else if k.x.pois (bitsOf hi 12 4) then .fault k.s 1 none
    else .ok (k.s.setNat (k.s.mpuOff (bitsOf hi 8 4) j) ((k.x.gd (bitsOf hi 12 4)).toNat &&& mpuMask j)) k.x) c w s

/-! ### System registers (R409) -/

/-- The value of a system register: none where the number is not listed. -/
def State.sysReg (s : State) (n : Nat) : Option Nat :=
  match n with
  | 0x000 => some s.psr.toNat
  | 0x001 => some s.sh.epc.toNat
  | 0x002 => some s.sh.epsr.toNat
  | 0x003 => some s.sh.ecause.toNat
  | 0x004 => some s.sh.eaddr.toNat
  | 0x005 => some (lo32 s.sh.estamp)
  | 0x006 => some (hi32 s.sh.estamp)
  | 0x008 => some s.sh.depc.toNat
  | 0x009 => some s.sh.depsr.toNat
  | 0x00A => some s.sh.dcause.toNat
  | 0x00B => some s.sh.daddr.toNat
  | 0x010 => some (if s.sh.aopen = 0 then 0 else s.sh.abudget)
  | 0x011 => some s.sh.imaskO
  | _ => none

/-- Is a system register not permitted in the context? -/
def State.sysDenied (s : State) (n : Nat) (write : Bool) : Bool :=
  (!s.shSup && (write || n != 0)) || (decide (0x008 ≤ n) && decide (n ≤ 0x00B) && s.shBankNo != 2)
    || (n == 0x011 && write && s.shOuter)

/-- A write of a system register; those that the table does not let be written keep their value. -/
def State.sysWriteReg (s : State) (n : Nat) (v : Word) : State :=
  match n with
  | 0x000 => s.setImask s.shOuter (bitsOf v.toNat 4 4)
  | 0x001 => { s with sh.epc := v &&& 0xFFFFFF }
  | 0x002 => { s with sh.epsr := v &&& 0xF3 }
  | 0x011 => s.setImask true v.toNat
  | _ => s

/-- SYSR. -/
def execSysr (c : Core) (w : Word) (s : State) : Out :=
  supRow 4 (fun hi k =>
    match k.s.sysReg (bitsOf hi 0 12) with
    | none => .fault k.s 2 none
    | some v =>
      if k.s.sysDenied (bitsOf hi 0 12) false then .fault k.s 7 none
      else .ok k.s (k.x.put (bitsOf hi 12 4) v false)) c w s

/-- SYSW: a poisoned value is a fault. -/
def execSysw (c : Core) (w : Word) (s : State) : Out :=
  supRow 5 (fun hi k =>
    let n := bitsOf hi 0 12
    let r := bitsOf hi 12 4
    if (k.s.sysReg n).isNone then .fault k.s 2 none
    else if k.s.sysDenied n true then .fault k.s 7 none
    else if k.x.pois r then .fault k.s 1 none
    else .ok (k.s.sysWriteReg n (k.x.gd r)) k.x) c w s

/-! ### WORLD (R392) -/

/-- WORLD: targets 0 IS, 1 IU, 2 OS, 3 OU. From IS any; from OS only to OU. -/
def execWorld (c : Core) (w : Word) (s : State) : Out :=
  supRow 6 (fun hi k =>
    let t := hi / 2 ^ 14
    let s := k.s
    if !s.shSup || (s.shOuter && t != 3) || (!s.shOuter && decide (2 ≤ t) && !s.flag SH_CTRL fSH_CTRL_OENA) then .fault s 7 none
    else .ok (s.setContext (decide (2 ≤ t)) (t % 2 == 0)) k.x) c w s

end Sys2Proof.Machine
end

