-- ==== Sys2Proof/Machine/Cmd.lean ====
section
/-!
DEFINITION. What the meanings of the commands share: a write of a named register, an event of the fast domain, a received
Tally Link frame.
-/

namespace Sys2Proof.Machine

/-- A word with one field replaced. -/
def Fld.put (f : Fld) (v : Word) (x : Nat) : Word := .ofNat 32 (withBits v.toNat f.lo f.len x)

/-- A 32-bit write of a named register by a port, with the checks of the port's view; what follows a command follows it
(19_reset_power_startup.md R484). -/
def regCmd (p : Port) (off : Nat) (v : Word) (s : State) : Out := .next (s.cmdWrite p off v).settle

/-- A 32-bit read of a named register. -/
def regGet (p : Port) (off : Nat) (s : State) : Out := .next (s.cmdRead p off).settle

/-- An event of the fast domain: none comes while its clock is stopped, in Rest and in Fold. -/
def fastEvent (f : State → State) (s : State) : Out := .next (if s.live then f s else s)

/-- A frame of a type, as the ports know it. -/
def frameAs (f : Frame) (kind : Nat) : TlFrame :=
  ⟨f.port.val, kind, f.src.toNat, f.dst.toNat, f.hop.toNat, f.payload, f.crc, f.viol⟩

/-- A word of TB_CTRL. -/
def tbCtrlWord (set resync sel : Bool) : Word :=
  .ofNat 32 (2 * b2n set + 4 * b2n resync + 8 * b2n sel)

/-- An operation of QF_HOP, in register set `m`: 0 of HPP, 1 of the debug access master (12_queue_fabric.md R345). -/
def hopCmd (p : Port) (m : Fin 2) (n : Fin 4096) (op : Nat) (s : State) : Out :=
  regCmd p (QF_HOP m) (.ofNat 32 (op * 2 ^ 30 + n.val)) s

/-- A BCAST frame (02_tally_time.md R57); one that arrives on the UPPORT may arm a reset (19_reset_power_startup.md R473). -/
def State.bcastRx (s : State) (f : TlFrame) : State :=
  let arms := (s.tlCheck f).1 && f.src != s.tlId && f.port == s.upport
  let k := bytesNatOf (f.payload.take 1) % 16
  let t := s.tlBcastRx f
  if arms then (t.armTlcmd k (.ofNat 64 (bytesNatOf (f.payload.drop 1)))).tlcmdDue else t

/-- The ZRO of generator g, when it is due; the shadow of the active generator of a pair takes its state there
(18_reserve_and_service_life.md R460). -/
def State.zroNow (s : State) (g : Nat) : State := if s.genRun g && (s.gen g).zroDue then (s.zro g).scSync g else s

/-- A Chanter sync, when one is due. -/
def State.chanterSync (s : State) : State :=
  match s.syncDue with
  | none => s
  | some e => s.dvChanterSync.chSyncAt e

/-- A wake latch sets: in Graze with the given stamp and a raise, in Rest and Fold under R41 and with its raise held. -/
def State.wakeNow (s : State) (i : Nat) (st : Stamp) : State :=
  (if s.live then s.wakeSet i st true else s.wakeSet i s.wakeStamp false).wakeCheck

/-- An edge on a WAKE pin, at the sense of EC_WAKE_POL, or on DCK or TCK: a latch can set in Graze, Rest and Fold
(13_events_and_journal.md R354). -/
def State.wakeEdge (s : State) (e : WakeEdge) (k : Nat) : State :=
  if s.pw.mode = .reset ∨ s.pw.mode = .startup then s
  else match e with
  | .pin i rising => if rising == bitOf (s.nat EC_WAKE_POL) i then s else s.wakeNow i (s.edgeStamp k)
  | .debug => s.wakeNow 15 (s.edgeStamp k)

end Sys2Proof.Machine
end

