-- ==== Sys2Proof/Machine/CmdAccess.lean ====
section
/-!
DEFINITION. The commands of: Register accesses and Tally (01_ports_and_address_map.md, 02_tally_time.md). Each is one call of what the rule named at it gives.
-/

namespace Sys2Proof.Machine

/-- REGISTER_WRITE: A write of 2^size bytes at an offset of the port (R26): `be` has a bit for each byte from `off` up. -/
def execRegisterWrite (p : Port) (off : Nat) (size : Fin 4) (be : BitVec 8) (data : BitVec 64) (s : State) : Out :=
  .next (s.portWrite p off (2 ^ size.val) be.toNat data).settle

/-- REGISTER_READ: A read of 2^size bytes (R26, R383). -/
def execRegisterRead (p : Port) (off : Nat) (size : Fin 4) (s : State) : Out := .next (s.portRead p off (2 ^ size.val)).settle

/-- MEMORY_WINDOW_WRITE: A write into a memory window (R22); R26 takes it as any other write. -/
def execMemoryWindowWrite (p : Port) (off : Nat) (size : Fin 4) (be : BitVec 8) (data : BitVec 64) (s : State) : Out :=
  .next (s.portWrite p off (2 ^ size.val) be.toNat data).settle

/-- SET: TB_CTRL.SET (R34). -/
def execSetCmd (p : Port) (s : State) : Out := regCmd p (TB_CTRL) (tbCtrlWord true false (s.flag TB_CTRL fTB_CTRL_SEL)) s

/-- RESYNC: TB_CTRL.RESYNC (R44). -/
def execResync (p : Port) (s : State) : Out := regCmd p (TB_CTRL) (tbCtrlWord false true (s.flag TB_CTRL fTB_CTRL_SEL)) s

/-- SEL: A write of TB_CTRL.SEL (R44). -/
def execSel (p : Port) (b : Bool) (s : State) : Out := regCmd p (TB_CTRL) (tbCtrlWord false false b) s

/-- TL_CODE_VIOLATION: A symbol received on a port: counted when it is one (R45, R46; 21_integration_ports.md R532). -/
def execTlCodeViolation (port : Fin 2) (e : RxSymbol) (s : State) : Out :=
  fastEvent (fun s => if codeViolation e.sym e.rd e.valid then s.tlViolation port e.gap else s) s

/-- TL_COMMA_RECEIVED: A K28.5 (R46); in Rest it sets WL11 or WL12 (R354). -/
def execTlCommaReceived (port : Fin 2) (s : State) : Out :=
  .next (if s.live then s.tlComma port else if s.pw.mode = .rest then (s.wakeSet (11 + port) s.wakeStamp false).wakeCheck else s)

/-- TL_ALIGN_COMPLETE: 64 consecutive valid symbols (R46). -/
def execTlAlignComplete (port : Fin 2) (s : State) : Out := fastEvent (fun s => s.tlAligned port) s

/-- SYNC_REQ_SEND: Every 1 ms of Tally time, on each downstream port, departing `k.1` and `k.2` tk before the next edge on TLA and TLB (R48, R53). -/
def execSyncReqSend (k : Nat × Nat) (s : State) : Out :=
  fastEvent (fun s => (s.tlSendReq 0 (s.lineStamp k.1)).tlSendReq 1 (s.lineStamp k.2)) s

/-- TIME_SEND: The master's TIME frame on both ports, departing `k.1` and `k.2` tk before the next edge on TLA and TLB (R48, R51). -/
def execTimeSend (k : Nat × Nat) (s : State) : Out :=
  fastEvent (fun s => (s.tlSendTime 0 (s.lineStamp k.1)).tlSendTime 1 (s.lineStamp k.2)) s

/-- SYNC_REQ: SYNC_REQ is decoded `k` tk before the next edge; the reply departs `dt` tk after that (R48, R53). -/
def execSyncReq (f : Frame) (k : Nat) (dt : Nat) (s : State) : Out :=
  fastEvent (fun s => s.tlSyncReq (frameAs f 1) (s.arrivalStamp k) (s.lineStamp k + .ofNat 64 dt)) s

/-- SYNC_RESP: SYNC_RESP arrives (R53). -/
def execSyncResp (f : Frame) (k : Nat) (s : State) : Out := fastEvent (fun s => s.tlSyncResp (frameAs f 2) (s.arrivalStamp k)) s

/-- SYNC_EXCHANGE_TIMEOUT: 1.5 ms without a SYNC_REQ (R53). -/
def execSyncExchangeTimeout (s : State) : Out := fastEvent (fun s => s.tlTimeout) s

/-- TIME: A TIME frame is decoded `k` tk before the next edge; forwarded, it departs `dt` tk after that (R48, R50, R52, R54, R55). -/
def execTime (f : Frame) (k : Nat) (dt : Nat) (s : State) : Out :=
  fastEvent (fun s => s.tlTime (frameAs f 3) (s.arrivalStamp k) (s.lineStamp k + .ofNat 64 dt)) s

/-- BCAST: A BCAST frame (R57); on the UPPORT it may arm a reset (19_reset_power_startup.md R473). -/
def execBcast (f : Frame) (s : State) : Out := fastEvent (fun s => s.bcastRx (frameAs f 0x10)) s

/-- MBOX: A fragment of a peer message (R58). -/
def execMbox (f : Frame) (s : State) : Out := fastEvent (fun s => s.mboxRx (frameAs f 0x20)) s

/-- MBOX_ACK: MBOX_ACK (R58). -/
def execMboxAck (f : Frame) (s : State) : Out := fastEvent (fun s => s.mboxAck (frameAs f 0x21)) s

/-- MBOX_RETRY: 100 µs have passed since a busy answer (R58). -/
def execMboxRetry (s : State) : Out := fastEvent (fun s => s.mboxRetry) s

end Sys2Proof.Machine
end

