-- ==== Sys2Proof/Machine/CmdChanters.lean ====
section
/-!
DEFINITION. The commands of: Chanters and queues (11_chanters.md, 12_queue_fabric.md). Each is one call of what the rule named at it gives.
-/

namespace Sys2Proof.Machine

/-- ROUND: A divider beat, with the PIO levels as synchronised in this fc (R292). -/
def execRound (n : Fin 36) (pio : BitVec 192) (s : State) : Out := fastEvent (fun s => s.round n pio) s

/-- CAPTURED_EDGE: An edge of a window pin of a channel (R303). -/
def execCapturedEdge (n : Fin 36) (ch : Fin 16) (e : PinEdge) (rising : Bool) (s : State) : Out :=
  fastEvent (fun s => s.chCapture n ch e.pin e.k rising) s

/-- FEEDER: The feeder of a channel (R307). -/
def execFeeder (n : Fin 36) (ch : Fin 16) (s : State) : Out := fastEvent (fun s => s.feeder n ch) s

/-- DRAIN: The drain of a channel (R307). -/
def execDrain (n : Fin 36) (ch : Fin 16) (s : State) : Out := fastEvent (fun s => s.drain n ch) s

/-- SCATTER: The scatter agent (R309). -/
def execScatter (s : State) : Out := fastEvent (fun s => s.scatter) s

/-- CH_TXDATA: A write of CH_TXDATA (R307). -/
def execChTxdata (p : Port) (n : Fin 36) (ch : Fin 16) (data : Word) (s : State) : Out := regCmd p (CH_TXDATA n ch) data s

/-- CH_RXDATA: A read of CH_RXDATA (R307). -/
def execChRxdata (p : Port) (n : Fin 36) (ch : Fin 16) (s : State) : Out := regGet p (CH_RXDATA n ch) s

/-- CHANTER_START: CH_CTRL START (R310). -/
def execChanterStart (p : Port) (n : Fin 36) (s : State) : Out := regCmd p (CH_CTRL n) 1 s

/-- CHANTER_STOP: CH_CTRL STOP (R310). -/
def execChanterStop (p : Port) (n : Fin 36) (s : State) : Out := regCmd p (CH_CTRL n) 2 s

/-- CHANNEL_RESTART: CH_CCTL RESTART (R314). -/
def execChannelRestart (p : Port) (n : Fin 36) (ch : Fin 16) (s : State) : Out := regCmd p (CH_CCTL n ch) 1 s

/-- CHANNEL_HALT: CH_CCTL HALT (R314). -/
def execChannelHalt (p : Port) (n : Fin 36) (ch : Fin 16) (s : State) : Out := regCmd p (CH_CCTL n ch) 2 s

/-- SYNC_START: CH_SYNC_CTRL with OP 1 (R310). -/
def execSyncStart (p : Port) (data : Word) (s : State) : Out := regCmd p (CH_SYNC_CTRL) (fCH_SYNC_CTRL_OP.put data 1) s

/-- SYNC_RESTART: CH_SYNC_CTRL with OP 2 (R310). -/
def execSyncRestart (p : Port) (data : Word) (s : State) : Out := regCmd p (CH_SYNC_CTRL) (fCH_SYNC_CTRL_OP.put data 2) s

/-- SYNC_CANCEL: CH_SYNC_CTRL with OP 0 (R310). -/
def execSyncCancel (p : Port) (data : Word) (s : State) : Out := regCmd p (CH_SYNC_CTRL) (fCH_SYNC_CTRL_OP.put data 0) s

/-- CHANTER_SYNC: A Chanter sync (R310); a Chanter's Drove switches at it (18_reserve_and_service_life.md R457). -/
def execChanterSync (s : State) : Out := fastEvent (fun s => s.chanterSync) s

/-- CH_CMEM_WRITE: A write of one half of a chant word (R294). -/
def execChCmemWrite (p : Port) (n : Fin 36) (a : Fin 256) (hi : Bool) (data : Word) (s : State) : Out :=
  regCmd p (if hi then CH_CMEM_HI n a else CH_CMEM_LO n a) data s

/-- FRAME_START: SEL takes a level: it asserts where the level is that of SELPOL (R312). -/
def execFrameStart (n : Fin 36) (ch : Fin 16) (e : SelEdge) (s : State) : Out :=
  fastEvent (fun s => s.frameStart n ch e.k e.level) s

/-- FRAMED_WORD: A framed word is complete (R312). -/
def execFramedWord (n : Fin 36) (ch : Fin 16) (s : State) : Out := fastEvent (fun s => s.framedWord n ch) s

/-- FRAME_END: SEL of a channel takes a level: it releases where the level is the other than that of SELPOL (R313). -/
def execFrameEnd (n : Fin 36) (e : SelChange) (s : State) : Out := fastEvent (fun s => s.frameEnd n e.ch e.level) s

/-- SCLK_EDGE: An edge of SCLK, with the level of SDI (R312). -/
def execSclkEdge (n : Fin 36) (ch : Fin 16) (rising : Bool) (sdi : Bool) (s : State) : Out :=
  fastEvent (fun s => s.sclkEdge n ch rising sdi) s

/-- QUEUE_ENABLE: A write of QF_QCFG with EN = 1 (R322). -/
def execQueueEnable (p : Port) (n : Fin 4096) (data : Word) (s : State) : Out := regCmd p (QF_QCFG n) (fQF_QCFG_EN.put data 1) s

/-- QUEUE_DISABLE: A write of QF_QCFG with EN = 0 (R323). -/
def execQueueDisable (p : Port) (n : Fin 4096) (data : Word) (s : State) : Out := regCmd p (QF_QCFG n) (fQF_QCFG_EN.put data 0) s

/-- CL_QPIN: A write of CL_QPIN (R329). -/
def execClQpin (p : Port) (cl : Fin 8) (e : Fin 64) (data : Word) (s : State) : Out := regCmd p (CL_QPIN cl e) data s

/-- PIN_COPY_END: The copy of a pin or unpin ends (R330); a Q_PIN that waits completes (16_mailbox_commands.md R431). -/
def execPinCopyEnd (n : Fin 4096) (s : State) : Out := fastEvent (fun s => if s.qBusy n then (s.copyEnd n).pinDone else s) s

/-- CLRCNT: QF_WMN_STAT.CLRCNT (R333). -/
def execClrcnt (p : Port) (n : Fin 4096) (s : State) : Out := regCmd p (QF_WMN_STAT n) (fQF_WMN_STAT_CLRCNT.put 0 1) s

/-- SEED: A write of QF_SEED with GO (R336). -/
def execSeed (p : Port) (data : Word) (s : State) : Out := regCmd p (QF_SEED) (fQF_SEED_GO.put data 1) s

/-- SEED_END: A seed ends (R336); a Q_SEED that waits completes (16_mailbox_commands.md R431). -/
def execSeedEnd (s : State) : Out := fastEvent (fun s => s.seedEnd.seedDone) s

/-- HOP_PUT: QF_HOP PUT (R345). -/
def execHopPut (p : Port) (m : Fin 2) (n : Fin 4096) (s : State) : Out := hopCmd p m n 1 s

/-- HOP_GET: QF_HOP GET (R345). -/
def execHopGet (p : Port) (m : Fin 2) (n : Fin 4096) (s : State) : Out := hopCmd p m n 2 s

/-- HOP_LVL: QF_HOP LVL (R345). -/
def execHopLvl (p : Port) (m : Fin 2) (n : Fin 4096) (s : State) : Out := hopCmd p m n 3 s

/-- RECLAIM_WALK_END: The reclaim walk of a flock ends (R339). -/
def execReclaimWalkEnd (f : Fin 16) (s : State) : Out := fastEvent (fun s => s.reclaimEnd f) s

/-- INBOX_MOVE_END: The move of re-homed inbox entries ends (R340). -/
def execInboxMoveEnd (src : Fin 72) (dst : Fin 72) (s : State) : Out := fastEvent (fun s => s.moveEnd src dst) s

end Sys2Proof.Machine
end

