-- ==== Sys2Proof/Machine/CmdEngines.lean ====
section
/-!
DEFINITION. The commands of: Engines and their control stores (03_loop_engines.md, 06_microcode.md). Each is one call of what the rule named at it gives.
-/

namespace Sys2Proof.Machine

/-- TALLY_TIME_TRIGGER: The trigger of a slot whose LE_TASK_TIME is reached (R77). -/
def execTallyTimeTrigger (pe : Fin 72) (slot : Fin 8) (s : State) : Out := fastEvent (fun s => s.tallyTrigger pe slot) s

/-- TASK_DISPATCH: Dispatch of the first slot in the order of R78. -/
def execTaskDispatch (pe : Fin 72) (s : State) : Out := fastEvent (fun s => s.taskDispatch pe) s

/-- PREEMPTION: Preemption at a safe point (R80). -/
def execPreemption (pe : Fin 72) (s : State) : Out := fastEvent (fun s => s.preempt pe) s

/-- DEADLINE_MISS: The deadline of an activation is reached (R83). -/
def execDeadlineMiss (pe : Fin 72) (slot : Fin 8) (s : State) : Out := fastEvent (fun s => s.deadlineMiss pe slot) s

/-- CLEAR: LE_CMD CLEAR (R88). -/
def execClear (p : Port) (pe : Fin 72) (s : State) : Out := regCmd p (LE_CMD pe) 0x10 s

/-- RESUME: LE_CMD RESUME (R88). -/
def execResume (p : Port) (pe : Fin 72) (slot : Fin 8) (s : State) : Out := regCmd p (LE_CMD pe) (.ofNat 32 (0x20 + slot.val)) s

/-- UNPARK: LE_CMD UNPARK (R88). -/
def execUnpark (p : Port) (pe : Fin 72) (s : State) : Out := regCmd p (LE_CMD pe) 0x30 s

/-- TRIGGER: LE_CMD TRIGGER (R81). -/
def execTrigger (p : Port) (pe : Fin 72) (slot : Fin 8) (s : State) : Out := regCmd p (LE_CMD pe) (.ofNat 32 (0x40 + slot.val)) s

/-- LE_CTRL_EN: A write of LE_CTRL.EN (R79). -/
def execLeCtrlEn (p : Port) (pe : Fin 72) (en : Bool) (s : State) : Out := regCmd p (LE_CTRL pe) (.ofNat 32 (b2n en)) s

/-- LE_TASK_CFG_EN: A write of LE_TASK_CFG with its EN (R81). -/
def execLeTaskCfgEn (p : Port) (pe : Fin 72) (slot : Fin 8) (data : Word) (s : State) : Out :=
  regCmd p (LE_TASK_CFG pe slot) data s

/-- LE_TASK_TIME: A write of one half of LE_TASK_TIME (R77). -/
def execLeTaskTime (p : Port) (pe : Fin 72) (slot : Fin 8) (hi : Bool) (data : Word) (s : State) : Out :=
  regCmd p (if hi then LE_TASK_TIME_HI pe slot else LE_TASK_TIME_LO pe slot) data s

/-- RANK_COMPLETION: The Rank unit of a cluster finishes its request (R91). -/
def execRankCompletion (cl : Fin 8) (s : State) : Out := fastEvent (fun s => s.rankCompletion cl) s

/-- CS_WADDR_GO: A write of CS_WADDR with GO (R185). -/
def execCsWaddrGo (p : Port) (pe : Fin 72) (data : Word) (s : State) : Out := regCmd p (CS_WADDR pe) (fCS_WADDR_GO.put data 1) s

/-- CS_RADDR_GO: A write of CS_RADDR with GO (R193). -/
def execCsRaddrGo (p : Port) (pe : Fin 72) (data : Word) (s : State) : Out := regCmd p (CS_RADDR pe) (fCS_RADDR_GO.put data 1) s

end Sys2Proof.Machine
end

