-- ==== Sys2Proof/Machine/CmdEvents.lean ====
section
/-!
DEFINITION. The commands of: Events, the journal, flocks, the Shepherd and mailboxes (13 to 16). Each is one call of what the rule named at it gives.
-/

namespace Sys2Proof.Machine

/-- EVENT_DELIVERY: Each group out of hold-off delivers (R349). -/
def execEventDelivery (s : State) : Out := fastEvent (fun s => forN (fun g s => s.deliverGroup g) 64 s) s

/-- EC_EOI: A write of EC_EOI (R351). -/
def execEcEoi (p : Port) (data : Word) (s : State) : Out := regCmd p (EC_EOI) data s

/-- PG_EOI: A write of PG_EOI in page f of HUP (R380). -/
def execPgEoi (f : Fin 16) (data : Word) (s : State) : Out := .next (s.portWrite (.hup f) 0x100 4 15 (data.setWidth 64)).settle

/-- EC_SW_RAISE: A write of EC_SW_RAISE (R353). -/
def execEcSwRaise (p : Port) (data : Word) (s : State) : Out := regCmd p (EC_SW_RAISE) data s

/-- EC_TARGET_WRITE: A write of EC_TARGET (R352). -/
def execEcTargetWrite (p : Port) (n : Fin 1024) (data : Word) (s : State) : Out := regCmd p (EC_TARGET n) data s

/-- WAKE_LATCH_SET: An edge of a WAKE pin or of DCK or TCK, `k` tk before the next edge (R354, R355). -/
def execWakeLatchSet (edge : WakeEdge) (k : Nat) (s : State) : Out := .next (s.wakeEdge edge k)

/-- EC_WAKE_TIME: Tally reaches EC_WAKE_TIME (R354). -/
def execEcWakeTime (s : State) : Out :=
  .next (if s.pw.mode != .reset && s.pw.mode != .startup && reached (s.reg64 EC_WAKE_TIME_LO EC_WAKE_TIME_HI) s.now then s.wakeNow 14 s.now else s)

/-- JOURNAL_WRITE: The writer moves one entry into the ring (R360). -/
def execJournalWrite (s : State) : Out := fastEvent (fun s => s.jWrite) s

/-- JOURNAL_REFRESH: The array refreshes a row (R361, 17_memory_integrity.md R440); `errs` names words of it that read with flipped bits. -/
def execJournalRefresh (row : Fin 32768) (errs : List (Nat × BitVec 48)) (s : State) : Out :=
  .next (if s.pw.mode = .fold || s.pw.mode = .reset then s else s.journalRefresh row errs)

/-- DRAIN_PERIOD: JN_DRAIN_PER has passed (R363). -/
def execDrainPeriod (s : State) : Out :=
  fastEvent (fun s => if (s.nat JN_DRAIN_PER : Int) ≤ stampDiff s.now s.jn.per then s.burstStart else s) s

/-- DKICK: JN_CTRL.DKICK (R363); DEN is kept. -/
def execDkick (p : Port) (s : State) : Out := regCmd p (JN_CTRL) (fJN_CTRL_DKICK.put (s.reg JN_CTRL) 1) s

/-- DRESTART: JN_CTRL.DRESTART (R364); DEN is kept. -/
def execDrestart (p : Port) (s : State) : Out := regCmd p (JN_CTRL) (fJN_CTRL_DRESTART.put (s.reg JN_CTRL) 1) s

/-- BURST_END: A drain burst ends (R363). -/
def execBurstEnd (s : State) : Out := fastEvent (fun s => s.burstEnd) s

/-- DERR: BMP answers an error at a byte of the entry after `entries` of the burst (R364). -/
def execDerr (entries : Nat) (byte : Fin 32) (s : State) : Out := fastEvent (fun s => s.drainError entries byte) s

/-- FLOCK_RESET: FLK_CTRL.RESET (R373); EN is kept. -/
def execFlockReset (p : Port) (f : Fin 16) (s : State) : Out :=
  regCmd p (FLK_CTRL f) (fFLK_CTRL_RESET.put (s.reg (FLK_CTRL f)) 1) s

/-- CLEAN: CLEAN sets (R374). -/
def execClean (f : Fin 16) (s : State) : Out := fastEvent (fun s => { s with flkClean := s.flkClean ++ [f.val] }) s

/-- PG_UDATA: An access of PG_UDATA in page f of HUP: a write of a word, or a read (R378). -/
def execPgUdata (f : Fin 16) (wr : Option Word) (s : State) : Out :=
  .next (match wr with | some v => s.portWrite (.hup f) 0x114 4 15 (v.setWidth 64) | none => s.portRead (.hup f) 0x114 4).settle

/-- INTERRUPT_ENTRY: A level is taken at an interrupt point (R402). -/
def execInterruptEntry (s : State) : Out := fastEvent (fun s => s.interruptEntry) s

/-- ATOMIC: The ATOMIC budget has expired (R398). -/
def execAtomic (s : State) : Out := fastEvent (fun s => s.atomicExpired) s

/-- WATCHDOG_WARNING: The watchdog count reaches WARN (R412). -/
def execWatchdogWarning (s : State) : Out := fastEvent (fun s => s.wdgWarning) s

/-- WATCHDOG_TIMEOUT: The watchdog count reaches TIMEOUT (R412). -/
def execWatchdogTimeout (s : State) : Out := fastEvent (fun s => s.wdgTimeout) s

/-- KICK: A write of SH_WDG_KICK (R412). -/
def execKick (p : Port) (key : BitVec 8) (s : State) : Out := regCmd p (SH_WDG_KICK) (key.setWidth 32) s

/-- LBINV: SH_CTRL.LBINV (R414); the other fields are kept. -/
def execLbinv (p : Port) (s : State) : Out := regCmd p (SH_CTRL) (fSH_CTRL_LBINV.put (s.reg SH_CTRL) 1) s

/-- BTBINV: SH_CTRL.BTBINV (R414); the other fields are kept. -/
def execBtbinv (p : Port) (s : State) : Out := regCmd p (SH_CTRL) (fSH_CTRL_BTBINV.put (s.reg SH_CTRL) 1) s

/-- RING: MB_DOORBELL.RING (R418). -/
def execRing (p : Port) (m : Fin 32) (s : State) : Out := regCmd p (MB_DOORBELL m) 1 s

end Sys2Proof.Machine
end

