-- ==== Sys2Proof/Machine/CmdFabric.lean ====
section
/-!
DEFINITION. The commands of: Sample ingress, trips, generators, timers, feedback (07 to 10). Each is one call of what the rule named at it gives.
-/

namespace Sys2Proof.Machine

/-- SAMPLE: A sample on a port (R195 to R204). -/
def execSample (n : Fin 64) (d : BitVec 24) (tag : BitVec 8) (s : State) : Out := fastEvent (fun s => s.sample n d tag.toNat) s

/-- SI_SOC_FIRE: A write of SI_SOC_FIRE (R200). -/
def execSiSocFire (p : Port) (m : Fin 64) (s : State) : Out := regCmd p (SI_SOC_FIRE) (.ofNat 32 m) s

/-- SOC_PULSE_END: SOCm falls (R201). -/
def execSocPulseEnd (m : Fin 64) (s : State) : Out := fastEvent (fun s => s.socEnd m) s

/-- TRIP_EDGE: TRIPn takes its active level `k` tk before the next edge (R205, R206). -/
def execTripEdge (n : Fin 64) (k : Nat) (s : State) : Out := .next (s.tripEdge n k).wakeCheck

/-- TRIP_GLITCH: TRIPn leaves its active level (R207). -/
def execTripGlitch (n : Fin 64) (s : State) : Out := .next (s.tripGlitch n).wakeCheck

/-- QUAL: The filter of an input has run (R207). -/
def execQual (n : Fin 64) (s : State) : Out := fastEvent (fun s => s.qualSet n) s

/-- LATCH_CLEAR: A W1C of TR_STAT.LATCH (R205). -/
def execLatchClear (p : Port) (n : Fin 64) (s : State) : Out := regCmd p (TR_STAT n) 1 s

/-- PREPARE: TR_ARM PREPARE (R215). -/
def execPrepare (p : Port) (entry : Fin 32) (key : BitVec 8) (s : State) : Out :=
  regCmd p (TR_ARM) (.ofNat 32 (1 + entry.val * 2 ^ 16 + key.toNat * 2 ^ 24)) s

/-- ARM: TR_ARM ARM (R215). -/
def execArm (p : Port) (entry : Fin 32) (key : BitVec 8) (s : State) : Out :=
  regCmd p (TR_ARM) (.ofNat 32 (2 + entry.val * 2 ^ 16 + key.toNat * 2 ^ 24)) s

/-- DISARM: TR_ARM DISARM (R215). -/
def execDisarm (p : Port) (entry : Fin 32) (key : BitVec 8) (s : State) : Out :=
  regCmd p (TR_ARM) (.ofNat 32 (3 + entry.val * 2 ^ 16 + key.toNat * 2 ^ 24)) s

/-- RELEASE: TR_ARM RELEASE (R215). -/
def execRelease (p : Port) (entry : Fin 32) (key : BitVec 8) (s : State) : Out :=
  regCmd p (TR_ARM) (.ofNat 32 (4 + entry.val * 2 ^ 16 + key.toNat * 2 ^ 24)) s

/-- PREPARE_WINDOW_EXPIRY: 256 fc after PREPARE (R215). -/
def execPrepareWindowExpiry (s : State) : Out := fastEvent (fun s => s.prepExpiry) s

/-- TR_INJ: TR_INJ.GO (R219). -/
def execTrInj (p : Port) (n : Fin 64) (width : BitVec 8) (s : State) : Out :=
  regCmd p (TR_INJ n) (.ofNat 32 (2 ^ 31 + width.toNat)) s

/-- INJECTION_END: An injected pulse ends (R219). -/
def execInjectionEnd (n : Fin 64) (s : State) : Out := fastEvent (fun s => s.injectEnd n) s

/-- ZRO: The counter has taken 0 (R228); at the ZRO of the active generator of a pair the shadow takes its state (18_reserve_and_service_life.md R460). -/
def execZro (g : Fin 52) (s : State) : Out := fastEvent (fun s => s.zroNow g) s

/-- PRD: The counter has taken PERIOD (R228). -/
def execPrd (g : Fin 52) (s : State) : Out := fastEvent (fun s => s.prd g) s

/-- COMPARE_MATCH: A match of a compare, counting up or down (R230); a ZRO or PRD of the fc that is still due comes first (R233). -/
def execCompareMatch (g : Fin 52) (cmp : Fin 4) (up : Bool) (s : State) : Out :=
  fastEvent (fun s => ((s.zroNow g).prd g).cmpMatch g cmp up) s

/-- DEAD_TIME_EXPIRY: A delayed change of r appears (R234). -/
def execDeadTimeExpiry (g : Fin 52) (out : Fin 2) (s : State) : Out := fastEvent (fun s => s.deadTime g out) s

/-- DUTY_WRITE_ACCEPT: The oldest waiting duty write is accepted (R239). -/
def execDutyWriteAccept (g : Fin 52) (s : State) : Out := fastEvent (fun s => s.dutyAccept g) s

/-- TIMED_TRANSFER: The apply-time of a pending slot (R245). -/
def execTimedTransfer (g : Fin 52) (cmp : Fin 4) (s : State) : Out := fastEvent (fun s => s.timedTransfer g cmp) s

/-- PW_CMP: A write of PW_CMP (R238). -/
def execPwCmp (p : Port) (g : Fin 52) (cmp : Fin 4) (data : Word) (s : State) : Out := regCmd p (PW_CMP g cmp) data s

/-- PW_DW_CTRL_GO: A write of PW_DW_CTRL with GO (R238). -/
def execPwDwCtrlGo (p : Port) (g : Fin 52) (data : Word) (s : State) : Out :=
  regCmd p (PW_DW_CTRL g) (fPW_DW_CTRL_GO.put data 1) s

/-- GENERATOR_START: PW_CTRL START (R251). -/
def execGeneratorStart (p : Port) (g : Fin 52) (s : State) : Out := regCmd p (PW_CTRL g) 1 s

/-- GENERATOR_START_AT_TIME: PW_CTRL START at time (R251). -/
def execGeneratorStartAtTime (p : Port) (g : Fin 52) (s : State) : Out := regCmd p (PW_CTRL g) 2 s

/-- TIMED_START: PW_START_TIME is reached (R251). -/
def execTimedStart (g : Fin 52) (s : State) : Out := fastEvent (fun s => s.genTimedStart g) s

/-- GENERATOR_STOP: PW_CTRL STOP (R251). -/
def execGeneratorStop (p : Port) (g : Fin 52) (s : State) : Out := regCmd p (PW_CTRL g) 3 s

/-- PHG_TIME: PHG_TIME of a phase group is reached (R248). -/
def execPhgTime (j : Fin 16) (s : State) : Out := fastEvent (fun s => s.phgTime j) s

/-- XBAR_WRITE: A write of PW_XBAR (R235). -/
def execXbarWrite (p : Port) (m : Fin 96) (data : Word) (s : State) : Out := regCmd p (PW_XBAR m) data s

/-- TIMER_MATCH: The evaluation of a compare (R261, R264). -/
def execTimerMatch (t : Fin 36) (cmp : Fin 4) (s : State) : Out :=
  .next (if s.pw.mode = .reset then s else (s.timMatch t cmp).wakeCheck)

/-- TIMER_CAPTURE: An edge of a capture source (R262, R264). -/
def execTimerCapture (t : Fin 36) (j : Fin 2) (k : Nat) (rising : Bool) (s : State) : Out :=
  .next (if s.pw.mode = .reset then s else s.captureEdge t j k rising)

/-- TM_CAP_SW: A write of TM_CAP_SW (R262). -/
def execTmCapSw (p : Port) (t : Fin 36) (caps : Fin 4) (s : State) : Out := regCmd p (TM_CAP_SW t) (.ofNat 32 caps) s

/-- TM_CMP: A write of TM_CMP (R260). -/
def execTmCmp (p : Port) (t : Fin 36) (cmp : Fin 4) (data : Word) (s : State) : Out := regCmd p (TM_CMP t cmp) data s

/-- TIMER_START: TM_CTRL START (R266). -/
def execTimerStart (p : Port) (t : Fin 36) (s : State) : Out := regCmd p (TM_CTRL t) (fTM_CTRL_CMD.put (s.reg (TM_CTRL t)) 1) s

/-- TIMER_STOP: TM_CTRL STOP (R266). -/
def execTimerStop (p : Port) (t : Fin 36) (s : State) : Out := regCmd p (TM_CTRL t) (fTM_CTRL_CMD.put (s.reg (TM_CTRL t)) 2) s

/-- TIMER_LOAD: TM_CTRL LOAD (R266). -/
def execTimerLoad (p : Port) (t : Fin 36) (s : State) : Out := regCmd p (TM_CTRL t) (fTM_CTRL_CMD.put (s.reg (TM_CTRL t)) 3) s

/-- GROUP_START: TMG_CTRL GO 1 (R267). -/
def execGroupStart (p : Port) (j : Fin 8) (s : State) : Out := regCmd p (TMG_CTRL j) 1 s

/-- GROUP_START_AT_TIME: TMG_CTRL GO 2 (R267). -/
def execGroupStartAtTime (p : Port) (j : Fin 8) (s : State) : Out := regCmd p (TMG_CTRL j) 2 s

/-- TMG_TIME: TMG_TIME is reached (R267). -/
def execTmgTime (j : Fin 8) (s : State) : Out := .next (if s.pw.fast && s.pw.mode != .reset then s.tmgTime j else s)

/-- GATE_LEVEL_CHANGE: A gate source changes level (R259). -/
def execGateLevelChange (t : Fin 36) (level : Bool) (s : State) : Out :=
  .next (if s.pw.mode = .reset then s else s.gateChange t level)

/-- PULSE_EDGE: An edge of PFINj, `k` tk before the next edge, as the boundary lets it through (R274; 21_integration_ports.md R529; log entry 66). -/
def execPulseEdge (j : Fin 8) (k : Nat) (rising : Bool) (s : State) : Out :=
  .next (if s.pw.mode = .reset then s else s.pulseEdge j k rising)

/-- TOOTH_EVENT: A decided tooth registers in this fc (R275 to R280). -/
def execToothEvent (x : Fin 10) (s : State) : Out := fastEvent (fun s => s.toothEvent x) s

/-- AUX_INDEX_EDGE: A rising edge of the auxiliary line of PFINj (R279; log entry 66). -/
def execAuxIndexEdge (j : Fin 8) (k : Nat) (s : State) : Out := .next (if s.pw.mode = .reset then s else s.auxEdge j k)

/-- OBSERVER_STEP: The step of every running observer (R282). -/
def execObserverStep (s : State) : Out := fastEvent (fun s => s.obsStep) s

/-- PF_MEAS_ANG: A write of PF_MEAS_ANG (R284). -/
def execPfMeasAng (p : Port) (x : Fin 10) (data : Word) (s : State) : Out := regCmd p (PF_MEAS_ANG x) data s

/-- FEEDBACK_START: PF_CTRL START (R286). -/
def execFeedbackStart (p : Port) (x : Fin 10) (s : State) : Out := regCmd p (PF_CTRL x) 1 s

/-- FEEDBACK_STOP: PF_CTRL STOP (R286). -/
def execFeedbackStop (p : Port) (x : Fin 10) (s : State) : Out := regCmd p (PF_CTRL x) 2 s

/-- INIT: PF_CTRL INIT (R286). -/
def execInit (p : Port) (x : Fin 10) (s : State) : Out := regCmd p (PF_CTRL x) 3 s

end Sys2Proof.Machine
end

