-- ==== Sys2Proof/Machine/CmdService.lean ====
section
/-!
DEFINITION. The commands of: Memory integrity, the reserve, reset and power, debug (17 to 20). Each is one call of what the rule named at it gives.
-/

namespace Sys2Proof.Machine

/-- SCRUB_READ: The scrubber of a group reads one word of each instance (R440); `errs` names instances whose word reads with flipped bits. -/
def execScrubRead (g : Fin 10) (errs : List (Nat × BitVec 48)) (s : State) : Out := fastEvent (fun s => s.scrub g errs) s

/-- MI_REMAP: A write of MI_REMAP (R443). -/
def execMiRemap (p : Port) (g : Fin 10) (j : Fin 8) (data : Word) (s : State) : Out := regCmd p (MI_REMAP g j) data s

/-- REMAP_SWITCH: The row copy ends (R444). -/
def execRemapSwitch (g : Fin 10) (s : State) : Out := fastEvent (fun s => s.remapSwitch g) s

/-- MI_SWEEP: MI_SWEEP.GO (R447). -/
def execMiSweep (p : Port) (g : Fin 10) (inst : Fin 128) (s : State) : Out :=
  regCmd p (MI_SWEEP g) (.ofNat 32 (2 ^ 31 + inst.val)) s

/-- SWEEP_END: The sweep of an instance ends (R447). -/
def execSweepEnd (g : Fin 10) (inst : Fin 128) (s : State) : Out := fastEvent (fun s => s.sweepEnd g inst) s

/-- CLRLOG: MI_GCTL.CLRLOG (R449). -/
def execClrlog (p : Port) (g : Fin 10) (s : State) : Out := regCmd p (MI_GCTL g) 1 s

/-- DROVE_GO: RS_DV_CTRL.GO (R456). -/
def execDroveGo (p : Port) (data : Word) (s : State) : Out :=
  regCmd p (RS_DV_CTRL) (fRS_DV_CTRL_CANCEL.put (fRS_DV_CTRL_GO.put data 1) 0) s

/-- PRELOADED: The preload completes (R456). -/
def execPreloaded (s : State) : Out := fastEvent (fun s => s.preloaded) s

/-- DROVE_BOUNDARY: The boundary is met (R457). -/
def execDroveBoundary (s : State) : Out := fastEvent (fun s => s.dvBoundary) s

/-- DROVE_SWITCH: The switch edge (R456). -/
def execDroveSwitch (s : State) : Out := fastEvent (fun s => s.dvSwitch) s

/-- CANCEL: RS_DV_CTRL.CANCEL (R456). -/
def execCancel (p : Port) (s : State) : Out := regCmd p (RS_DV_CTRL) (fRS_DV_CTRL_CANCEL.put (s.reg RS_DV_CTRL) 1) s

/-- SHADOW_PAIRING: A write of RS_SC_CTRL with EN (R460). -/
def execShadowPairing (p : Port) (data : Word) (s : State) : Out := regCmd p (RS_SC_CTRL) (fRS_SC_CTRL_EN.put data 1) s

/-- RING_OSCILLATOR_MEASURE: RS_RO_CTRL.GO (R453). -/
def execRingOscillatorMeasure (p : Port) (data : Word) (s : State) : Out := regCmd p (RS_RO_CTRL) (fRS_RO_CTRL_GO.put data 1) s

/-- RING_OSCILLATOR_END: The window ends with the counts of the eight pairs (R453). -/
def execRingOscillatorEnd (stress : Vector Word 8) (ref : Vector Word 8) (s : State) : Out :=
  fastEvent (fun s => s.roEnd (fun i => stress.get i) (fun i => ref.get i)) s

/-- RCO_MEASUREMENT: The counts of both oscillators over 32 CLK_SLOW cycles (R463). -/
def execRcoMeasurement (a : BitVec 32) (b : BitVec 32) (s : State) : Out :=
  .next (if s.pw.mode = .reset then s else s.rcoMeasure a.toNat b.toNat)

/-- STRESS_HOUR: The hourly accrual of Crook (R454). -/
def execStressHour (s : State) : Out := fastEvent (fun s => s.stressHour) s

/-- SELF_TEST_END: A self-test ends; `step` 0 is a pass (R464). -/
def execSelfTestEnd (kind : Fin 5) (unit : Fin 72) (step : Fin 8) (s : State) : Out :=
  fastEvent (fun s => s.testEnd kind unit step) s

/-- POWER_ON_RESET: POR_N falls (R470). -/
def execPowerOnReset (s : State) : Out := .next s.powerOn

/-- PIN_RESET: RST_N falls (R468). -/
def execPinReset (s : State) : Out := .next (State.assertReset { s with pw.rstLow := true } 1 none)

/-- RC_SWRST: A write of RC_SWRST (R473). -/
def execRcSwrst (p : Port) (data : Word) (s : State) : Out := regCmd p (RC_SWRST) data s

/-- TLCMD: The apply-time of an armed Tally Link reset (R473). -/
def execTlcmd (s : State) : Out := fastEvent (fun s => s.tlcmdDue) s

/-- RESET_RELEASE: An L2 or L3 reset is released, or start-up goes on from the stage in which it stands, up to the stage the release names or to its end: the four strap conversions, and what the boot ROM reads (R471, R475 to R482). -/
def execResetRelease (c0 : Fin 16) (c1 : Fin 16) (c2 : Fin 16) (c3 : Fin 16) (marginal : Bool) (r : Release) (s : State) : Out :=
  .next (s.release [c0.val, c1.val, c2.val, c3.val] marginal r.image r.upto)

/-- HOSTGO: RC_BOOT.HOSTGO (R480), with what the host has loaded. -/
def execHostgo (p : Port) (im : BootImage) (s : State) : Out :=
  regCmd p RC_BOOT (fRC_BOOT_HOSTGO.put 0 1) { s with pw.image := im }

/-- REST_ENTRY: Quiescence after a GO of Rest, and its CLK_SLOW edge (R484). A latch that is set already ends it (R355). -/
def execRestEntry (s : State) : Out := fastEvent (fun s => s.restEntry.wakeCheck) s

/-- FOLD_ENTRY: Quiescence after a GO of Fold (R486). -/
def execFoldEntry (s : State) : Out := fastEvent (fun s => s.foldEntry.wakeCheck) s

/-- ENTRY_TIMEOUT: 1 ms without quiescence (R484). -/
def execEntryTimeout (s : State) : Out := fastEvent (fun s => s.entryTimeout) s

/-- GRAZE_RETURN: PLL_LOCK has risen (R485, R488); debug requests held in Rest are served (R505). -/
def execGrazeReturn (s : State) : Out := .next s.grazeReturn.dbResume.settle

/-- DOMAIN_ACK: An acknowledgement of R520: 0 CORE, 1 MEM, 2 JRN, 3 MEM retention. -/
def execDomainAck (d : Fin 4) (level : Bool) (s : State) : Out := .next (s.domainAck d level)

/-- LOCKLOSS: PLL_LOCK falls (R488). -/
def execLockloss (s : State) : Out := .next s.lockLoss

/-- POWER_FAIL: PWRFAIL_N falls `k` tk before the next edge (R490). -/
def execPowerFail (k : Nat) (s : State) : Out := .next (s.powerFail k).settle

/-- SNAPSHOT: Tally reaches C (R492). -/
def execSnapshot (s : State) : Out := fastEvent (fun s => s.snapshot) s

/-- LAST_GASP_SCAN: 4,096 fc after C (R491). -/
def execLastGaspScan (s : State) : Out := fastEvent (fun s => s.lgScan) s

/-- LAST_GASP_END: The Fold store writes end after `us` µs, all made or not (R490). -/
def execLastGaspEnd (us : BitVec 8) (written : Bool) (s : State) : Out :=
  fastEvent (fun s => s.lgEnd us.toNat (written && decide (us.toNat ≤ 60))) s

/-- PWRF: PWRFAIL_N rises (R493). -/
def execPwrf (s : State) : Out := .next s.failRise

/-- PM_FSDATA: An access of PM_FSDATA: a write of a word, or a read (R498). -/
def execPmFsdata (p : Port) (wr : Option Word) (s : State) : Out :=
  match wr with | some v => regCmd p PM_FSDATA v s | none => regGet p PM_FSDATA s

/-- HALT: DB_ECMD HALT (R508). -/
def execHalt (p : Port) (pe : Fin 128) (s : State) : Out := regCmd p (DB_ECMD) (.ofNat 32 (2 ^ 30 + pe.val)) s

/-- HALT_TAKEN: A safe point of an engine that is to halt (R508). -/
def execHaltTaken (pe : Fin 72) (s : State) : Out := fastEvent (fun s => s.haltTaken pe) s

/-- ENGINE_RESUME: DB_ECMD RESUME (R508). -/
def execEngineResume (p : Port) (pe : Fin 128) (s : State) : Out := regCmd p (DB_ECMD) (.ofNat 32 (2 * 2 ^ 30 + pe.val)) s

/-- STEP: DB_ECMD STEP (R508). -/
def execStep (p : Port) (pe : Fin 128) (s : State) : Out := regCmd p (DB_ECMD) (.ofNat 32 (3 * 2 ^ 30 + pe.val)) s

/-- DB_FREEZE: A write of DB_FREEZE (R509). -/
def execDbFreeze (p : Port) (data : Word) (s : State) : Out := regCmd p (DB_FREEZE) data s

/-- BLOCK_HALT: DB_BHALT.REQ = 1 (R509). -/
def execBlockHalt (p : Port) (s : State) : Out := regCmd p (DB_BHALT) 1 s

/-- BLOCK_HALT_RELEASE: DB_BHALT.REQ = 0 (R509). -/
def execBlockHaltRelease (p : Port) (s : State) : Out := regCmd p (DB_BHALT) 0 s

/-- HOLDREL: DB_BHALT.HOLDREL (R509), with what the boot ROM then reads; REQ is kept. -/
def execHoldrel (p : Port) (im : BootImage) (s : State) : Out :=
  regCmd p DB_BHALT (fDB_BHALT_HOLDREL.put (s.reg DB_BHALT) 1) { s with pw.image := im }

end Sys2Proof.Machine
end

