-- ==== Sys2Proof/Machine/Dispatch.lean ====
section
/-!
DEFINITION. The dispatch: one arm per command, each one direct call of its meaning.
-/

namespace Sys2Proof.Machine

def exec (i : Instr) (s : State) : Host.Outcome State Fault Refusal :=
  match i with
  | .registerWrite p off size be data => Sys2Proof.Machine.execRegisterWrite p off size be data s
  | .tallyAdvance => Sys2Proof.Machine.execTallyAdvance s
  | .setCmd p => Sys2Proof.Machine.execSetCmd p s
  | .resync p => Sys2Proof.Machine.execResync p s
  | .sel p b => Sys2Proof.Machine.execSel p b s
  | .tlCodeViolation port e => Sys2Proof.Machine.execTlCodeViolation port e s
  | .tlCommaReceived port => Sys2Proof.Machine.execTlCommaReceived port s
  | .tlAlignComplete port => Sys2Proof.Machine.execTlAlignComplete port s
  | .syncReqSend k => Sys2Proof.Machine.execSyncReqSend k s
  | .timeSend k => Sys2Proof.Machine.execTimeSend k s
  | .syncReq f k dt => Sys2Proof.Machine.execSyncReq f k dt s
  | .syncResp f k => Sys2Proof.Machine.execSyncResp f k s
  | .syncExchangeTimeout => Sys2Proof.Machine.execSyncExchangeTimeout s
  | .time f k dt => Sys2Proof.Machine.execTime f k dt s
  | .bcast f => Sys2Proof.Machine.execBcast f s
  | .mbox f => Sys2Proof.Machine.execMbox f s
  | .mboxAck f => Sys2Proof.Machine.execMboxAck f s
  | .mboxRetry => Sys2Proof.Machine.execMboxRetry s
  | .tallyTimeTrigger pe slot => Sys2Proof.Machine.execTallyTimeTrigger pe slot s
  | .taskDispatch pe => Sys2Proof.Machine.execTaskDispatch pe s
  | .preemption pe => Sys2Proof.Machine.execPreemption pe s
  | .deadlineMiss pe slot => Sys2Proof.Machine.execDeadlineMiss pe slot s
  | .clear p pe => Sys2Proof.Machine.execClear p pe s
  | .resume p pe slot => Sys2Proof.Machine.execResume p pe slot s
  | .unpark p pe => Sys2Proof.Machine.execUnpark p pe s
  | .trigger p pe slot => Sys2Proof.Machine.execTrigger p pe slot s
  | .leCtrlEn p pe en => Sys2Proof.Machine.execLeCtrlEn p pe en s
  | .leTaskCfgEn p pe slot data => Sys2Proof.Machine.execLeTaskCfgEn p pe slot data s
  | .leTaskTime p pe slot hi data => Sys2Proof.Machine.execLeTaskTime p pe slot hi data s
  | .unitRegisterStoreAccept p => Sys2Proof.Machine.execUnitRegisterStoreAccept p s
  | .lateStoreError p => Sys2Proof.Machine.execLateStoreError p s
  | .rankCompletion cl => Sys2Proof.Machine.execRankCompletion cl s
  | .nop c w => Sys2Proof.Machine.execNop c w s
  | .wait c w => Sys2Proof.Machine.execWait c w s
  | .isync c w => Sys2Proof.Machine.execIsync c w s
  | .ret c w => Sys2Proof.Machine.execRet c w s
  | .brk c w => Sys2Proof.Machine.execBrk c w s
  | .signal c w => Sys2Proof.Machine.execSignal c w s
  | .shli c w => Sys2Proof.Machine.execShli c w s
  | .shri c w => Sys2Proof.Machine.execShri c w s
  | .sari c w => Sys2Proof.Machine.execSari c w s
  | .ceqi c w => Sys2Proof.Machine.execCeqi c w s
  | .clti c w => Sys2Proof.Machine.execClti c w s
  | .andi c w => Sys2Proof.Machine.execAndi c w s
  | .bra c w => Sys2Proof.Machine.execBra c w s
  | .bg c w => Sys2Proof.Machine.execBg c w s
  | .bdec c w => Sys2Proof.Machine.execBdec c w s
  | .mov c w => Sys2Proof.Machine.execMov c w s
  | .add c w => Sys2Proof.Machine.execAdd c w s
  | .sub c w => Sys2Proof.Machine.execSub c w s
  | .neg c w => Sys2Proof.Machine.execNeg c w s
  | .abs c w => Sys2Proof.Machine.execAbs c w s
  | .mul c w => Sys2Proof.Machine.execMul c w s
  | .mull c w => Sys2Proof.Machine.execMull c w s
  | .mulh c w => Sys2Proof.Machine.execMulh c w s
  | .add2 c w => Sys2Proof.Machine.execAdd2 c w s
  | .sub2 c w => Sys2Proof.Machine.execSub2 c w s
  | .mul2 c w => Sys2Proof.Machine.execMul2 c w s
  | .min c w => Sys2Proof.Machine.execMin c w s
  | .max c w => Sys2Proof.Machine.execMax c w s
  | .clip c w => Sys2Proof.Machine.execClip c w s
  | .norm c w => Sys2Proof.Machine.execNorm c w s
  | .and c w => Sys2Proof.Machine.execAnd c w s
  | .or c w => Sys2Proof.Machine.execOr c w s
  | .xor c w => Sys2Proof.Machine.execXor c w s
  | .andn c w => Sys2Proof.Machine.execAndn c w s
  | .not c w => Sys2Proof.Machine.execNot c w s
  | .shl c w => Sys2Proof.Machine.execShl c w s
  | .shr c w => Sys2Proof.Machine.execShr c w s
  | .sar c w => Sys2Proof.Machine.execSar c w s
  | .ceq c w => Sys2Proof.Machine.execCeq c w s
  | .cne c w => Sys2Proof.Machine.execCne c w s
  | .clt c w => Sys2Proof.Machine.execClt c w s
  | .cle c w => Sys2Proof.Machine.execCle c w s
  | .cltu c w => Sys2Proof.Machine.execCltu c w s
  | .cleu c w => Sys2Proof.Machine.execCleu c w s
  | .ctst c w => Sys2Proof.Machine.execCtst c w s
  | .macF c w => Sys2Proof.Machine.execMacF c w s
  | .macI c w => Sys2Proof.Machine.execMacI c w s
  | .macD c w => Sys2Proof.Machine.execMacD c w s
  | .msuF c w => Sys2Proof.Machine.execMsuF c w s
  | .msuI c w => Sys2Proof.Machine.execMsuI c w s
  | .msuD c w => Sys2Proof.Machine.execMsuD c w s
  | .mpyF c w => Sys2Proof.Machine.execMpyF c w s
  | .mpyI c w => Sys2Proof.Machine.execMpyI c w s
  | .mpyD c w => Sys2Proof.Machine.execMpyD c w s
  | .aclr c w => Sys2Proof.Machine.execAclr c w s
  | .acadd c w => Sys2Proof.Machine.execAcadd c w s
  | .acsub c w => Sys2Proof.Machine.execAcsub c w s
  | .acneg c w => Sys2Proof.Machine.execAcneg c w s
  | .acsh c w => Sys2Proof.Machine.execAcsh c w s
  | .sac c w => Sys2Proof.Machine.execSac c w s
  | .ldac c w => Sys2Proof.Machine.execLdac c w s
  | .acrd c w => Sys2Proof.Machine.execAcrd c w s
  | .acwr c w => Sys2Proof.Machine.execAcwr c w s
  | .adda c w => Sys2Proof.Machine.execAdda c w s
  | .suba c w => Sys2Proof.Machine.execSuba c w s
  | .addaa c w => Sys2Proof.Machine.execAddaa c w s
  | .moda c w => Sys2Proof.Machine.execModa c w s
  | .movi c w => Sys2Proof.Machine.execMovi c w s
  | .movhi c w => Sys2Proof.Machine.execMovhi c w s
  | .addi c w => Sys2Proof.Machine.execAddi c w s
  | .ori c w => Sys2Proof.Machine.execOri c w s
  | .ld c w => Sys2Proof.Machine.execLd c w s
  | .st c w => Sys2Proof.Machine.execSt c w s
  | .ldPostModify c w => Sys2Proof.Machine.execLdPostModify c w s
  | .stPostModify c w => Sys2Proof.Machine.execStPostModify c w s
  | .br c w => Sys2Proof.Machine.execBr c w s
  | .call c w => Sys2Proof.Machine.execCall c w s
  | .jr c w => Sys2Proof.Machine.execJr c w s
  | .callr c w => Sys2Proof.Machine.execCallr c w s
  | .qget c w => Sys2Proof.Machine.execQget c w s
  | .qput c w => Sys2Proof.Machine.execQput c w s
  | .qgetm c w => Sys2Proof.Machine.execQgetm c w s
  | .qputm c w => Sys2Proof.Machine.execQputm c w s
  | .qlvl c w => Sys2Proof.Machine.execQlvl c w s
  | .pwd c w => Sys2Proof.Machine.execPwd c w s
  | .stamp c w => Sys2Proof.Machine.execStamp c w s
  | .rank c w => Sys2Proof.Machine.execRank c w s
  | .ucall c w => Sys2Proof.Machine.execUcall c w s
  | .mode c w => Sys2Proof.Machine.execMode c w s
  | .rdmode c w => Sys2Proof.Machine.execRdmode c w s
  | .pis c w => Sys2Proof.Machine.execPis c w s
  | .xformCl c w => Sys2Proof.Machine.execXformCl c w s
  | .xformIcl c w => Sys2Proof.Machine.execXformIcl c w s
  | .xformPk c w => Sys2Proof.Machine.execXformPk c w s
  | .xformIpk c w => Sys2Proof.Machine.execXformIpk c w s
  | .sincos c w => Sys2Proof.Machine.execSincos c w s
  | .div c w => Sys2Proof.Machine.execDiv c w s
  | .divq c w => Sys2Proof.Machine.execDivq c w s
  | .sqrt c w => Sys2Proof.Machine.execSqrt c w s
  | .firk c w => Sys2Proof.Machine.execFirk c w s
  | .gate c w => Sys2Proof.Machine.execGate c w s
  | .retx c w => Sys2Proof.Machine.execRetx c w s
  | .mpur c w => Sys2Proof.Machine.execMpur c w s
  | .mpuw c w => Sys2Proof.Machine.execMpuw c w s
  | .sysr c w => Sys2Proof.Machine.execSysr c w s
  | .sysw c w => Sys2Proof.Machine.execSysw c w s
  | .world c w => Sys2Proof.Machine.execWorld c w s
  | .csWaddrGo p pe data => Sys2Proof.Machine.execCsWaddrGo p pe data s
  | .csRaddrGo p pe data => Sys2Proof.Machine.execCsRaddrGo p pe data s
  | .sample n d tag => Sys2Proof.Machine.execSample n d tag s
  | .siSocFire p m => Sys2Proof.Machine.execSiSocFire p m s
  | .socPulseEnd m => Sys2Proof.Machine.execSocPulseEnd m s
  | .tripEdge n k => Sys2Proof.Machine.execTripEdge n k s
  | .tripGlitch n => Sys2Proof.Machine.execTripGlitch n s
  | .qual n => Sys2Proof.Machine.execQual n s
  | .latchClear p n => Sys2Proof.Machine.execLatchClear p n s
  | .prepare p entry key => Sys2Proof.Machine.execPrepare p entry key s
  | .arm p entry key => Sys2Proof.Machine.execArm p entry key s
  | .disarm p entry key => Sys2Proof.Machine.execDisarm p entry key s
  | .release p entry key => Sys2Proof.Machine.execRelease p entry key s
  | .prepareWindowExpiry => Sys2Proof.Machine.execPrepareWindowExpiry s
  | .trInj p n width => Sys2Proof.Machine.execTrInj p n width s
  | .injectionEnd n => Sys2Proof.Machine.execInjectionEnd n s
  | .zro g => Sys2Proof.Machine.execZro g s
  | .prd g => Sys2Proof.Machine.execPrd g s
  | .compareMatch g cmp up => Sys2Proof.Machine.execCompareMatch g cmp up s
  | .deadTimeExpiry g out => Sys2Proof.Machine.execDeadTimeExpiry g out s
  | .dutyWriteAccept g => Sys2Proof.Machine.execDutyWriteAccept g s
  | .timedTransfer g cmp => Sys2Proof.Machine.execTimedTransfer g cmp s
  | .pwCmp p g cmp data => Sys2Proof.Machine.execPwCmp p g cmp data s
  | .pwDwCtrlGo p g data => Sys2Proof.Machine.execPwDwCtrlGo p g data s
  | .generatorStart p g => Sys2Proof.Machine.execGeneratorStart p g s
  | .generatorStartAtTime p g => Sys2Proof.Machine.execGeneratorStartAtTime p g s
  | .timedStart g => Sys2Proof.Machine.execTimedStart g s
  | .generatorStop p g => Sys2Proof.Machine.execGeneratorStop p g s
  | .phgTime j => Sys2Proof.Machine.execPhgTime j s
  | .xbarWrite p m data => Sys2Proof.Machine.execXbarWrite p m data s
  | .timerMatch t cmp => Sys2Proof.Machine.execTimerMatch t cmp s
  | .timerCapture t j k rising => Sys2Proof.Machine.execTimerCapture t j k rising s
  | .tmCapSw p t caps => Sys2Proof.Machine.execTmCapSw p t caps s
  | .tmCmp p t cmp data => Sys2Proof.Machine.execTmCmp p t cmp data s
  | .timerStart p t => Sys2Proof.Machine.execTimerStart p t s
  | .timerStop p t => Sys2Proof.Machine.execTimerStop p t s
  | .timerLoad p t => Sys2Proof.Machine.execTimerLoad p t s
  | .groupStart p j => Sys2Proof.Machine.execGroupStart p j s
  | .groupStartAtTime p j => Sys2Proof.Machine.execGroupStartAtTime p j s
  | .tmgTime j => Sys2Proof.Machine.execTmgTime j s
  | .pulseEdge j k rising => Sys2Proof.Machine.execPulseEdge j k rising s
  | .toothEvent x => Sys2Proof.Machine.execToothEvent x s
  | .auxIndexEdge j k => Sys2Proof.Machine.execAuxIndexEdge j k s
  | .observerStep => Sys2Proof.Machine.execObserverStep s
  | .pfMeasAng p x data => Sys2Proof.Machine.execPfMeasAng p x data s
  | .feedbackStart p x => Sys2Proof.Machine.execFeedbackStart p x s
  | .feedbackStop p x => Sys2Proof.Machine.execFeedbackStop p x s
  | .init p x => Sys2Proof.Machine.execInit p x s
  | .round n pio => Sys2Proof.Machine.execRound n pio s
  | .capturedEdge n ch e rising => Sys2Proof.Machine.execCapturedEdge n ch e rising s
  | .feeder n ch => Sys2Proof.Machine.execFeeder n ch s
  | .drain n ch => Sys2Proof.Machine.execDrain n ch s
  | .scatter => Sys2Proof.Machine.execScatter s
  | .chTxdata p n ch data => Sys2Proof.Machine.execChTxdata p n ch data s
  | .chRxdata p n ch => Sys2Proof.Machine.execChRxdata p n ch s
  | .chanterStart p n => Sys2Proof.Machine.execChanterStart p n s
  | .chanterStop p n => Sys2Proof.Machine.execChanterStop p n s
  | .channelRestart p n ch => Sys2Proof.Machine.execChannelRestart p n ch s
  | .channelHalt p n ch => Sys2Proof.Machine.execChannelHalt p n ch s
  | .syncStart p data => Sys2Proof.Machine.execSyncStart p data s
  | .syncRestart p data => Sys2Proof.Machine.execSyncRestart p data s
  | .syncCancel p data => Sys2Proof.Machine.execSyncCancel p data s
  | .chanterSync => Sys2Proof.Machine.execChanterSync s
  | .chCmemWrite p n a hi data => Sys2Proof.Machine.execChCmemWrite p n a hi data s
  | .frameStart n ch e => Sys2Proof.Machine.execFrameStart n ch e s
  | .framedWord n ch => Sys2Proof.Machine.execFramedWord n ch s
  | .frameEnd n e => Sys2Proof.Machine.execFrameEnd n e s
  | .queueEnable p n data => Sys2Proof.Machine.execQueueEnable p n data s
  | .queueDisable p n data => Sys2Proof.Machine.execQueueDisable p n data s
  | .clQpin p cl e data => Sys2Proof.Machine.execClQpin p cl e data s
  | .pinCopyEnd n => Sys2Proof.Machine.execPinCopyEnd n s
  | .clrcnt p n => Sys2Proof.Machine.execClrcnt p n s
  | .seed p data => Sys2Proof.Machine.execSeed p data s
  | .seedEnd => Sys2Proof.Machine.execSeedEnd s
  | .hopPut p m n => Sys2Proof.Machine.execHopPut p m n s
  | .hopGet p m n => Sys2Proof.Machine.execHopGet p m n s
  | .hopLvl p m n => Sys2Proof.Machine.execHopLvl p m n s
  | .reclaimWalkEnd f => Sys2Proof.Machine.execReclaimWalkEnd f s
  | .inboxMoveEnd src dst => Sys2Proof.Machine.execInboxMoveEnd src dst s
  | .eventDelivery => Sys2Proof.Machine.execEventDelivery s
  | .ecEoi p data => Sys2Proof.Machine.execEcEoi p data s
  | .pgEoi f data => Sys2Proof.Machine.execPgEoi f data s
  | .ecSwRaise p data => Sys2Proof.Machine.execEcSwRaise p data s
  | .ecTargetWrite p n data => Sys2Proof.Machine.execEcTargetWrite p n data s
  | .wakeLatchSet edge k => Sys2Proof.Machine.execWakeLatchSet edge k s
  | .ecWakeTime => Sys2Proof.Machine.execEcWakeTime s
  | .journalWrite => Sys2Proof.Machine.execJournalWrite s
  | .journalRefresh row errs => Sys2Proof.Machine.execJournalRefresh row errs s
  | .drainPeriod => Sys2Proof.Machine.execDrainPeriod s
  | .dkick p => Sys2Proof.Machine.execDkick p s
  | .drestart p => Sys2Proof.Machine.execDrestart p s
  | .burstEnd => Sys2Proof.Machine.execBurstEnd s
  | .derr entries byte => Sys2Proof.Machine.execDerr entries byte s
  | .flockReset p f => Sys2Proof.Machine.execFlockReset p f s
  | .clean f => Sys2Proof.Machine.execClean f s
  | .pgUdata f wr => Sys2Proof.Machine.execPgUdata f wr s
  | .interruptEntry => Sys2Proof.Machine.execInterruptEntry s
  | .atomic => Sys2Proof.Machine.execAtomic s
  | .shepherdLateStoreError => Sys2Proof.Machine.execShepherdLateStoreError s
  | .watchdogWarning => Sys2Proof.Machine.execWatchdogWarning s
  | .watchdogTimeout => Sys2Proof.Machine.execWatchdogTimeout s
  | .kick p key => Sys2Proof.Machine.execKick p key s
  | .lbinv p => Sys2Proof.Machine.execLbinv p s
  | .btbinv p => Sys2Proof.Machine.execBtbinv p s
  | .ring p m => Sys2Proof.Machine.execRing p m s
  | .ident m => Sys2Proof.Machine.execIdent m s
  | .evtRoute m => Sys2Proof.Machine.execEvtRoute m s
  | .evtHoldoff m => Sys2Proof.Machine.execEvtHoldoff m s
  | .peerEvent m => Sys2Proof.Machine.execPeerEvent m s
  | .flkEnable m => Sys2Proof.Machine.execFlkEnable m s
  | .flkReset m => Sys2Proof.Machine.execFlkReset m s
  | .flkAssign m => Sys2Proof.Machine.execFlkAssign m s
  | .flkStatus m => Sys2Proof.Machine.execFlkStatus m s
  | .unitMap m => Sys2Proof.Machine.execUnitMap m s
  | .mbSetcfg m => Sys2Proof.Machine.execMbSetcfg m s
  | .engLoad m bmp => Sys2Proof.Machine.execEngLoad m bmp s
  | .taskSet m => Sys2Proof.Machine.execTaskSet m s
  | .engCtrl m => Sys2Proof.Machine.execEngCtrl m s
  | .wcsLoad m bmp => Sys2Proof.Machine.execWcsLoad m bmp s
  | .paramWrite m => Sys2Proof.Machine.execParamWrite m s
  | .paramSwap m => Sys2Proof.Machine.execParamSwap m s
  | .paramRead m => Sys2Proof.Machine.execParamRead m s
  | .pwConfig m => Sys2Proof.Machine.execPwConfig m s
  | .pwXbar m => Sys2Proof.Machine.execPwXbar m s
  | .pwStart m => Sys2Proof.Machine.execPwStart m s
  | .pwDuty m => Sys2Proof.Machine.execPwDuty m s
  | .tripConfig m => Sys2Proof.Machine.execTripConfig m s
  | .arWrite m => Sys2Proof.Machine.execArWrite m s
  | .arArm m => Sys2Proof.Machine.execArArm m s
  | .arDisarm m => Sys2Proof.Machine.execArDisarm m s
  | .arRelease m => Sys2Proof.Machine.execArRelease m s
  | .qConfig m => Sys2Proof.Machine.execQConfig m s
  | .qPin m => Sys2Proof.Machine.execQPin m s
  | .qSeed m => Sys2Proof.Machine.execQSeed m s
  | .qWm m => Sys2Proof.Machine.execQWm m s
  | .qNotice m => Sys2Proof.Machine.execQNotice m s
  | .jnConfig m => Sys2Proof.Machine.execJnConfig m s
  | .jnRead m => Sys2Proof.Machine.execJnRead m s
  | .rsDrove m => Sys2Proof.Machine.execRsDrove m s
  | .rsRetire m => Sys2Proof.Machine.execRsRetire m s
  | .rsReadmit m => Sys2Proof.Machine.execRsReadmit m s
  | .rsTest m => Sys2Proof.Machine.execRsTest m s
  | .health m bmpOk => Sys2Proof.Machine.execHealth m bmpOk s
  | .pmRest m => Sys2Proof.Machine.execPmRest m s
  | .pmFold m => Sys2Proof.Machine.execPmFold m s
  | .timeSet m => Sys2Proof.Machine.execTimeSet m s
  | .tlConfig m => Sys2Proof.Machine.execTlConfig m s
  | .tlBcast m => Sys2Proof.Machine.execTlBcast m s
  | .tlStatus m => Sys2Proof.Machine.execTlStatus m s
  | .patchInfo m => Sys2Proof.Machine.execPatchInfo m s
  | .patchCommit m => Sys2Proof.Machine.execPatchCommit m s
  | .dbgPolicy m => Sys2Proof.Machine.execDbgPolicy m s
  | .scrubRead g errs => Sys2Proof.Machine.execScrubRead g errs s
  | .miRemap p g j data => Sys2Proof.Machine.execMiRemap p g j data s
  | .remapSwitch g => Sys2Proof.Machine.execRemapSwitch g s
  | .miSweep p g inst => Sys2Proof.Machine.execMiSweep p g inst s
  | .sweepEnd g inst => Sys2Proof.Machine.execSweepEnd g inst s
  | .clrlog p g => Sys2Proof.Machine.execClrlog p g s
  | .droveGo p data => Sys2Proof.Machine.execDroveGo p data s
  | .preloaded => Sys2Proof.Machine.execPreloaded s
  | .droveBoundary => Sys2Proof.Machine.execDroveBoundary s
  | .droveSwitch => Sys2Proof.Machine.execDroveSwitch s
  | .cancel p => Sys2Proof.Machine.execCancel p s
  | .shadowPairing p data => Sys2Proof.Machine.execShadowPairing p data s
  | .ringOscillatorMeasure p data => Sys2Proof.Machine.execRingOscillatorMeasure p data s
  | .ringOscillatorEnd stress ref => Sys2Proof.Machine.execRingOscillatorEnd stress ref s
  | .rcoMeasurement a b => Sys2Proof.Machine.execRcoMeasurement a b s
  | .stressHour => Sys2Proof.Machine.execStressHour s
  | .powerOnReset => Sys2Proof.Machine.execPowerOnReset s
  | .pinReset => Sys2Proof.Machine.execPinReset s
  | .rcSwrst p data => Sys2Proof.Machine.execRcSwrst p data s
  | .tlcmd => Sys2Proof.Machine.execTlcmd s
  | .resetRelease c0 c1 c2 c3 marginal r => Sys2Proof.Machine.execResetRelease c0 c1 c2 c3 marginal r s
  | .hostgo p im => Sys2Proof.Machine.execHostgo p im s
  | .restEntry => Sys2Proof.Machine.execRestEntry s
  | .foldEntry => Sys2Proof.Machine.execFoldEntry s
  | .entryTimeout => Sys2Proof.Machine.execEntryTimeout s
  | .grazeReturn => Sys2Proof.Machine.execGrazeReturn s
  | .domainAck d level => Sys2Proof.Machine.execDomainAck d level s
  | .lockloss => Sys2Proof.Machine.execLockloss s
  | .powerFail k => Sys2Proof.Machine.execPowerFail k s
  | .snapshot => Sys2Proof.Machine.execSnapshot s
  | .lastGaspScan => Sys2Proof.Machine.execLastGaspScan s
  | .lastGaspEnd us written => Sys2Proof.Machine.execLastGaspEnd us written s
  | .pwrf => Sys2Proof.Machine.execPwrf s
  | .pmFsdata p wr => Sys2Proof.Machine.execPmFsdata p wr s
  | .fippleIdent pl => Sys2Proof.Machine.execFippleIdent pl s
  | .status pl => Sys2Proof.Machine.execStatus pl s
  | .challenge pl => Sys2Proof.Machine.execChallenge pl s
  | .cert pl => Sys2Proof.Machine.execCert pl s
  | .prove pl => Sys2Proof.Machine.execProve pl s
  | .unlockComplete => Sys2Proof.Machine.execUnlockComplete s
  | .lock pl => Sys2Proof.Machine.execLock pl s
  | .read pl sys => Sys2Proof.Machine.execRead pl sys s
  | .write pl sys => Sys2Proof.Machine.execWrite pl sys s
  | .fippleReset pl => Sys2Proof.Machine.execFippleReset pl s
  | .lineReset => Sys2Proof.Machine.execLineReset s
  | .crcerr => Sys2Proof.Machine.execCrcerr s
  | .tapReset => Sys2Proof.Machine.execTapReset s
  | .extest => Sys2Proof.Machine.execExtest s
  | .samplePreload => Sys2Proof.Machine.execSamplePreload s
  | .idcode => Sys2Proof.Machine.execIdcode s
  | .clamp => Sys2Proof.Machine.execClamp s
  | .highz => Sys2Proof.Machine.execHighz s
  | .fipple dr sys => Sys2Proof.Machine.execFipple dr sys s
  | .scanctl enter => Sys2Proof.Machine.execScanctl enter s
  | .bistctl enter => Sys2Proof.Machine.execBistctl enter s
  | .bypass => Sys2Proof.Machine.execBypass s
  | .halt p pe => Sys2Proof.Machine.execHalt p pe s
  | .haltTaken pe => Sys2Proof.Machine.execHaltTaken pe s
  | .engineResume p pe => Sys2Proof.Machine.execEngineResume p pe s
  | .step p pe => Sys2Proof.Machine.execStep p pe s
  | .dbFreeze p data => Sys2Proof.Machine.execDbFreeze p data s
  | .blockHalt p => Sys2Proof.Machine.execBlockHalt p s
  | .blockHaltRelease p => Sys2Proof.Machine.execBlockHaltRelease p s
  | .holdrel p im => Sys2Proof.Machine.execHoldrel p im s
  | .registerRead p off size => Sys2Proof.Machine.execRegisterRead p off size s
  | .memoryWindowWrite p off size be data => Sys2Proof.Machine.execMemoryWindowWrite p off size be data s
  | .loadResponse c bank code data => Sys2Proof.Machine.execLoadResponse c bank code data s
  | .bufferedStoreComplete c => Sys2Proof.Machine.execBufferedStoreComplete c s
  | .flashLineArrival bytes ok => Sys2Proof.Machine.execFlashLineArrival bytes ok s
  | .slowClockEdge => Sys2Proof.Machine.execSlowClockEdge s
  | .delayLineLock => Sys2Proof.Machine.execDelayLineLock s
  | .gateLevelChange t level => Sys2Proof.Machine.execGateLevelChange t level s
  | .sclkEdge n ch rising sdi => Sys2Proof.Machine.execSclkEdge n ch rising sdi s
  | .illegal c w => Sys2Proof.Machine.execIllegal c w s
  | .badop m => Sys2Proof.Machine.execBadop m s
  | .badcmd cmd pl => Sys2Proof.Machine.execBadcmd cmd pl s
  | .selfTestEnd kind unit step => Sys2Proof.Machine.execSelfTestEnd kind unit step s
  | .fuseBlowComplete ok => Sys2Proof.Machine.execFuseBlowComplete ok s

end Sys2Proof.Machine
end

