-- ==== Sys2Proof/Machine/KEncode.lean ====
section
/-!
DEFINITION. The encoder of Kamyn (04_kamyn_instruction_set.md R97, R113 to R130, R134, R142): the word of a decoded
instruction, written from the encoding tables, and which decoded instructions the encodings admit.
-/

namespace Sys2Proof.Machine

/-- A 32-bit instruction: I[15:14] = 3, MAJ in I[13:10], GUARD in I[9:7], the group's fields in I[6:0] and I[31:16]. -/
def kWord (maj g lo hi : Nat) : Word := .ofNat 32 (0xC000 + maj * 1024 + g * 128 + lo + hi * 65536)

/-- The fields RD, RA, RB and X of I[31:16]. -/
def kRegs (rd ra rb : Nat) (x : Bool) : Nat := rd * 2 ^ 11 + ra * 2 ^ 6 + rb * 2 + b2n x

/-- The low n bits of a signed field. -/
def kField (n : Nat) (v : Int) : Nat := (v % 2 ^ n).toNat

/-- The word of a decoded instruction under a guard; a 16-bit instruction has none. Where two forms encode the same operation it is
the 32-bit one. -/
def kEnc (g : Nat) : KOp → Word
  | .nop => 0x0100
  | .wait => 0x0200
  | .isync => 0x0300
  | .ret => 0x0400
  | .brk => 0x0500
  | .signal none code => .ofNat 32 (0x0600 + code)
  | .signal (some d) code => kWord 0xB g 4 (d * 2 ^ 12 + code * 16)
  | .alu f rd ra rb x => kWord 0x0 g f (kRegs rd ra rb x)
  | .alui op rd imm => .ofNat 32 (0x2000 + op * 2 ^ 9 + imm * 8 + rd)
  | .acc f rd ra rb x => kWord 0x1 g f (kRegs rd ra rb x)
  | .addr f rd ra rb => kWord 0x2 g f (kRegs rd ra rb false)
  | .imm op rd v => kWord 0x3 g (rd * 4 + op) v
  | .mov rd rs => .ofNat 32 (0x9000 + rd * 32 + rs)
  | .mem store true rd w an _ (.modM m) => kWord 0x6 g (rd * 4 + w) (b2n store * 2 ^ 15 + (an - 16) * 2 ^ 12 + (m - 24) * 2 ^ 10)
  | .mem store _ rd w an off .keep => kWord (if store then 0x5 else 0x4) g (rd * 4 + w) (kField 13 off * 8 + (an - 16))
  | .mem store _ rd _ an _ .plus4 => .ofNat 32 (0x3000 + b2n store * 2 ^ 11 + 2 ^ 9 + (an - 16) * 2 ^ 7 + rd * 8)
  | .mem store false rd _ an _ (.modM _) => .ofNat 32 (0x3000 + b2n store * 2 ^ 11 + 2 * 2 ^ 9 + (an - 16) * 2 ^ 7 + rd * 8)
  | .bra off => .ofNat 32 (0x6000 + kField 12 (off / 2))
  | .bg neg r off => .ofNat 32 (0x7000 + b2n neg * 2 ^ 11 + (r - 12) * 2 ^ 9 + kField 9 (off / 2))
  | .bdec dn off => .ofNat 32 (0x8000 + dn * 2 ^ 9 + kField 9 (off / 2))
  | .br off => kWord 0x7 g (kField 21 (off / 2) / 65536) (kField 21 (off / 2) % 65536)
  | .call off => kWord 0x7 g (32 + kField 21 (off / 2) / 65536) (kField 21 (off / 2) % 65536)
  | .jr an => kWord 0x7 g (64 + (an - 16) * 2) 0
  | .callr an => kWord 0x7 g (64 + 16 + (an - 16) * 2) 0
  | .queue op n qsel dr st qv => kWord 0x8 g (op * 16 + n * 4 + qsel) (dr * 2 ^ 12 + st * 2 ^ 9 + qv * 2)
  | .pwd pw ds cmp mode tp fmt => kWord 0x9 g (pw * 2) (ds * 2 ^ 12 + cmp * 2 ^ 10 + mode * 2 ^ 8 + tp * 32 + b2n fmt * 16)
  | .cplx f rd ra rb x => kWord 0xA g f (kRegs rd ra rb x)
  | .stamp dr form k => kWord 0xB g 0 (dr * 2 ^ 12 + form * 2 ^ 10 + k * 64)
  | .rank an => kWord 0xB g 8 ((an - 16) * 2 ^ 13)
  | .ucall entry rx => kWord 0xB g 12 (entry * 2 ^ 7 + rx * 4)
  | .mode ds => kWord 0xB g 16 (ds * 2 ^ 12)
  | .rdmode dr => kWord 0xB g 20 (dr * 2 ^ 12)
  | .sup op hi => kWord 0xF g (op * 4) hi

/-- An even offset that fits a signed field of n bits, counted in halfwords. -/
def kOff (n : Nat) (off : Int) : Bool := off % 2 == 0 && decide (-(2 ^ n) ≤ off) && decide (off < 2 ^ n)

/-- The decoded instructions that the encodings admit. -/
def kAdmits : KOp → Bool
  | .nop => true
  | .wait => true
  | .isync => true
  | .ret => true
  | .brk => true
  | .signal ds code => decide (code < 256) && ds.all (fun d => decide (d < 16))
  | .alu f rd ra rb x => (kAlu f rd ra rb x).isSome
  | .alui op rd imm => decide (op < 8) && decide (rd < 8) && decide (imm < 64)
  | .acc f rd ra rb x => (kAcc f rd ra rb x).isSome && decide (ra < 32) && decide (rb < 32)
  | .addr f rd ra rb => (kAddr f rd ra rb false).isSome
  | .imm op rd v => (kImm op rd v).isSome && decide (op < 4) && decide (rd < 32) && decide (v < 2 ^ 16)
  | .mov rd rs => (kMov rd rs).isSome && decide (rd < 32) && decide (rs < 32)
  | .mem _ true rd w an off (.modM m) => memReg rd w && decide (rd < 32) && decide (w < 4) && isA an && isM m && off == 0
  | .mem _ false rd w an off .keep =>
    memReg rd w && decide (rd < 32) && decide (w < 4) && isA an && decide (-4096 ≤ off) && decide (off < 4096)
  | .mem _ false rd w an off .plus4 => isD rd && w == 2 && decide (16 ≤ an) && decide (an < 20) && off == 0
  | .mem _ false rd w an off (.modM m) => isD rd && w == 2 && decide (16 ≤ an) && decide (an < 20) && off == 0 && m == an + 8
  | .mem _ true _ _ _ _ _ => false
  | .bra off => kOff 12 off
  | .bg _ r off => decide (12 ≤ r) && decide (r < 16) && kOff 9 off
  | .bdec dn off => decide (dn < 8) && kOff 9 off
  | .br off => kOff 21 off
  | .call off => kOff 21 off
  | .jr an => isA an
  | .callr an => isA an
  | .queue op n qsel dr st qv =>
    decide (op < 5) && decide (n < 4) && decide (qsel < 3) && decide (dr < 16) && decide (st < 8) && decide (qv < 256)
      && (kQueue (op * 16 + n * 4 + qsel) (dr * 2 ^ 12 + st * 2 ^ 9 + qv * 2)).isSome
  | .pwd pw ds cmp mode tp _ => decide (pw < 48) && isD ds && decide (cmp < 4) && decide (mode < 3) && decide (tp < 8)
  | .cplx f rd ra rb x => (kCplx f rd ra rb x).isSome && decide (rd < 32)
  | .stamp dr form k => isD dr && dr % 2 == 0 && decide (form < 3) && decide (k < 16) && (form == 2 || k == 0)
  | .rank an => isA an
  | .ucall entry rx => decide (entry < 512) && decide (rx < 32)
  | .mode ds => isD ds
  | .rdmode dr => isD dr
  | .sup op hi => decide (op < 32) && decide (hi < 2 ^ 16) && (kSuper (op * 4) hi).isSome

end Sys2Proof.Machine
end

