-- ==== Sys2Proof/Safety.lean ====
section
/-!
DEFINITION. What counts as a safe state, and the words in which the statements speak of commands: every sparse table of the
state that stands for a memory or for the registers is in its canonical form (keys strictly rising, no entry equal to what an
unlisted key reads as), so that equal memories are equal data; when a port's write of a named register goes ahead, and what
surrounds its effect.
-/

namespace Sys2Proof.Machine

/-- The memories, their poison marks and the register file in canonical form. -/
def State.canonical (s : State) : Bool :=
  Memory.wf s.mem && twf markReset s.marks && Memory.wf s.sysMem && twf regReset s.regs

/-- A step is safe: it answers a next state, and that state is canonical. -/
def State.stepSafe (s : State) : Bool :=
  match step s with
  | .next t => t.canonical
  | _ => false

/-! ### A 32-bit write of a named register (01_architecture.md R26, 14_flocks_and_register_views.md R376 to R378) -/

/-- The word that a write of `v` makes of the register: the fields that the master may write take their bits of `v` (R6). -/
def State.merged (s : State) (m : Master) (off : Nat) (t : RegAt) (v : Word) : Word :=
  mergeFields ((s.writableFields m off t).filter (fun f => f.mask &&& beMask 15 ≠ 0)) (s.hotBits off) (s.reg off) v (beMask 15)

/-- Port `p` writes the register `t` at `off` with `v`, and the write goes ahead: the request is served, the view is
open, some field is writable, `v` sets no bit that no field has, and no lock or debug rule stands in its way. -/
def State.admitsAt (s : State) (p : Port) (off : Nat) (t : RegAt) (v : Word) : Bool :=
  let m := s.master p
  s.portOpen p && off % 4 == 0 && s.viewOpen m off t.desc.dam && v &&& ~~~(fieldBits t.desc) == 0
    && !((s.writableFields m off t).filter (fun f => f.mask &&& beMask 15 ≠ 0)).isEmpty
    && (!(decide (0x80000 ≤ off) && decide (off < 0xA0000)) || (m.who == 1 && decide (off < 0x90000)) || (!t.desc.dam && !s.lockOf off t))
    && (match p with
      | .hup f => s.flag (FLK_CTRL f) fFLK_CTRL_EN && off != EC_EOI
          && ((!s.viewDenied m off && !s.swept off) || (decide (0x40000 + (4 + f.val) * 0x800 ≤ off) && decide (off < 0x40000 + (5 + f.val) * 0x800)))
      | .urp _ => !s.viewDenied m off && !s.swept off
      | _ => m.lvl != 0 && hppRegion off == .reg && !s.swept off)

/-- The state with the journal entries of class REGWRITE that a write of HPP makes (R379). -/
def State.logged (s : State) (p : Port) (off : Nat) (v : Word) : State := s.regwriteEntries p off 4 (v.setWidth 64) 15 0

/-- A 32-bit write of `v` by port `p` to the register at `off` goes ahead. -/
def State.admits (s : State) (p : Port) (off : Nat) (v : Word) : Bool :=
  match findReg off regBlocks with
  | some t => s.admitsAt p off t v
  | none => false

/-- The word that the write makes of the register. -/
def State.word (s : State) (p : Port) (off : Nat) (v : Word) : Word :=
  match findReg off regBlocks with
  | some t => s.merged (s.master p) off t v
  | none => 0

/-- The write goes ahead and the register takes the very word. -/
def State.takes (s : State) (p : Port) (off : Nat) (v : Word) : Bool := s.admits p off v && s.word p off v == v

/-- What an admitted write does beside its log entry and its response: the effect of its register, with the word as merged,
the word that the register keeps, and the data; a word of a queue descriptor or of chant memory written whole loses its mark (R438). -/
def State.wrote (s u : State) (p : Port) (off : Nat) (t : RegAt) (v : Word) : State :=
  let w := s.merged (s.master p) off t v
  let r := u.regEffect (s.master p) off t w (w &&& ~~~(woBits t.desc)) (v &&& beMask 15)
  if r.clearsMark off 15 then r.setMark off false else r

/-- What surrounds the effect `f` of an admitted write: the entry of R379 before it, the OKAY response after it (R383), and what
follows a command (R29, R484). -/
def State.after (s : State) (p : Port) (off : Nat) (v : Word) (f : State → State) : State :=
  ((f (s.logged p off v)).respond p 0 0).settle

/-- Port `p` reads the register at `off` and the read goes ahead: the request is served, the register is the port's to read, and no
sweep or poison mark stands in its way (01_architecture.md R26 to R28, 14_flocks_and_register_views.md R376 to R382). -/
def State.reads (s : State) (p : Port) (off : Nat) : Bool :=
  s.portOpen p && off % 4 == 0 && (match p with
    | .hup f => s.flag (FLK_CTRL f) fFLK_CTRL_EN && s.flockOwns f off && !s.swept off
    | .urp e => s.flockOwns (s.leFlock e) off && !s.swept off
    | _ => (s.master p).lvl != 0 && hppRegion off == .reg && !s.swept off && !s.poisoned off)

/-! ### A mailbox command (16_mailbox_commands.md R417 to R423) -/

/-- Crook takes the command `op` of mailbox m, which is no duplicate, and no check that every command shares finds a fault: the
header, the authority, the bits the command does not name, the buffer. The command as accepted, and the state after that. -/
def State.commanded (s : State) (m : Fin 32) (op : Nat) (auth : List CkAuth) (takesBuf : Bool) (named : Nat → Nat) : Option (Ck × State) :=
  let t := (s.mbAccept m).2
  let k : Ck := ⟨m, if t.mbBuf m then 4 else 0, (s.mbAccept m).1⟩
  if s.mbNext = some m.val ∧ s.mbOp m = op ∧ s.mbIsDup m = false ∧ t.ckBadHdr m takesBuf = false ∧ t.ckAuth m auth = true
      ∧ (t.mbBuf m && mbKind m == .peer) = false ∧ t.ckUnnamed k named = none ∧ t.ckBuffer k = none then some (k, t)
  else none

/-! ### An instruction of Kamyn (04_kamyn_instruction_set.md R97 to R104) -/

/-- Core c is ready for an instruction of word w: no load of its bank is outstanding, no instruction of it is in progress at a safe
point (R140) and every parcel is fetched. The state is the one after the fetch, with the debug events that it makes (R410). -/
def State.issued (s : State) (c : Core) (w : Word) : Option State :=
  if s.kReady c && (s.kBank c).wait.isNone && !(s.kBank c).going then
    match s.kFetch c (s.kBank c).pc.toNat (kWide w) with
    | (none, t) => some (if c = .shep then t.patchEvents (s.kBank c) (s.kBank c).pc.toNat (kWide w) else t)
    | _ => none
  else none

/-- No ROM word that carries the instruction out on the core is patched (06_microcode.md R186). -/
def State.unpatched (s : State) (c : Core) (w : Word) : Bool :=
  match c, kOp w with
  | .eng p, some op => (s.patchedEntry p op (!kWide w)).isNone
  | _, _ => true

/-- It issues: its guard is not poisoned and holds (R104); and the words of the ROM carry it out. -/
def State.fetched (s : State) (c : Core) (w : Word) : Option State :=
  if !(s.kBank c).guardPois (kGuard w) && (s.kBank c).guardHolds (kGuard w) then (s.issued c w).filter (fun t => t.unpatched c w) else none

/-- The instruction of word w, issued in s and fetched in t, stands at a safe point before its first word, to be issued again, with the
registers x (05_cycle_timing.md R150). -/
def State.held (s : State) (c : Core) (w : Word) (t : State) (x : Bank) : State :=
  t.kRest ⟨c, t, s.kBank c, (s.kBank c).pc.toNat, kLen w⟩ x true true none none

/-- It stands at a safe point inside, with partial results (R140). -/
def State.partly (s : State) (c : Core) (w : Word) (t : State) (r : Partial) : State :=
  t.kRest ⟨c, t, s.kBank c, (s.kBank c).pc.toNat, kLen w⟩ (s.kBank c) true false (some r) none

/-- The core stands inside the instruction at its program counter, with these partial results, and may go on (R140). -/
def State.goesOn (s : State) (c : Core) (r : Partial) : Bool :=
  s.kReady c && (s.kBank c).wait.isNone && (s.kBank c).going && (s.kBank c).micro.part == some r

/-- The deadline of the running activation has passed, and it is to be abandoned at its next safe point (R84, R182). -/
def State.late (s : State) (p : Nat) : Bool :=
  (s.running p).any (fun k => (s.slot p k).missed && s.flag (LE_TASK_CFG p k) fLE_TASK_CFG_DLACT)

/-- A fault of the Shepherd: nothing of the instruction stays in progress. -/
def State.shFaulted (s : State) (cause addr : Nat) : State :=
  (s.setShBank { s.shBank with micro := s.shBank.micro.cleared }).shFault cause addr

/-- The instruction of word w, issued in s and fetched in t, ends in t with the registers x: the program counter moves past it. -/
def State.ended (s : State) (c : Core) (w : Word) (t : State) (x : Bank) : State :=
  t.kEnd c { x with pc := .ofNat 24 ((s.kBank c).pc.toNat + kLen w) }

/-- It ends with one result and its flags: the poison bit of the destination is the OR of those of the sources (R71). -/
def State.resulted (s : State) (c : Core) (w : Word) (t : State) (rd : Nat) (srcs : List Nat) (r : Int × Nat) : State :=
  s.ended c w t (((s.kBank c).raise r.2).putI rd r.1 ((s.kBank c).poisAny srcs))

/-- It ends with a taken branch to `a`: an engine writes its code-store buffer out line by line (R112, R149), and while a line is left it
waits at a safe point (R150); the Shepherd keeps the branch (R394). -/
def State.landed (s : State) (c : Core) (t : State) (x : Bank) (a : Nat) : State :=
  match c with
  | .eng p =>
    if (t.codeStep p).1 then s.held c 0 (t.codeStep p).2 (s.kBank c)
    else (t.codeStep p).2.kEnd c { x with pc := .ofNat 24 a }
  | .shep => (t.btbBranch (.ofNat 24 (s.kBank c).pc.toNat) (.ofNat 24 a)).kEnd c { x with pc := .ofNat 24 a }

/-- A target that a branch may take on the core (R98, R112). -/
def landsOn (c : Core) (a : Nat) : Bool := a % 2 == 0 && fetchable c a

end Sys2Proof.Machine
end

