-- ==== Sys2Proof/WellFormed.lean ====
section
/-!
DEFINITION. The commands that are well formed. Most operands are so by their types; what is left is that a word carried by an
instruction row is an encoding of that row (04_kamyn_instruction_set.md R99).
-/

namespace Sys2Proof.Machine

/-- The word is an encoding with a FUNCT of its group. -/
def isAlu (f : Nat) (w : Word) : Bool := match kOp w with | some (.alu f' _ _ _ _) => f' == f | _ => false
def isAlui (o : Nat) (w : Word) : Bool := match kOp w with | some (.alui o' _ _) => o' == o | _ => false
def isAcc (f : Nat) (w : Word) : Bool := match kOp w with | some (.acc f' _ _ _ _) => f' == f | _ => false
def isAddr (f : Nat) (w : Word) : Bool := match kOp w with | some (.addr f' _ _ _) => f' == f | _ => false
def isSup (o : Nat) (w : Word) : Bool := match kOp w with | some (.sup o' _) => o' == o | _ => false

end Sys2Proof.Machine

namespace Sys2Proof

open Machine

/-- Is the command well formed? -/
def Instr.wf (i : Instr) : Bool :=
  match i with
  | .registerWrite _ _ _ _ _ => true
  | .tallyAdvance => true
  | .setCmd _ => true
  | .resync _ => true
  | .sel _ _ => true
  | .tlCodeViolation _ _ => true
  | .tlCommaReceived _ => true
  | .tlAlignComplete _ => true
  | .syncReqSend _ => true
  | .timeSend _ => true
  | .syncReq _ _ _ => true
  | .syncResp _ _ => true
  | .syncExchangeTimeout => true
  | .time _ _ _ => true
  | .bcast _ => true
  | .mbox _ => true
  | .mboxAck _ => true
  | .mboxRetry => true
  | .tallyTimeTrigger _ _ => true
  | .taskDispatch _ => true
  | .preemption _ => true
  | .deadlineMiss _ _ => true
  | .clear _ _ => true
  | .resume _ _ _ => true
  | .unpark _ _ => true
  | .trigger _ _ _ => true
  | .leCtrlEn _ _ _ => true
  | .leTaskCfgEn _ _ _ _ => true
  | .leTaskTime _ _ _ _ _ => true
  | .unitRegisterStoreAccept _ => true
  | .lateStoreError _ => true
  | .rankCompletion _ => true
  | .nop _ w => (match kOp w with | some (.nop) => true | _ => false)
  | .wait _ w => (match kOp w with | some (.wait) => true | _ => false)
  | .isync _ w => (match kOp w with | some (.isync) => true | _ => false)
  | .ret _ w => (match kOp w with | some (.ret) => true | _ => false)
  | .brk _ w => (match kOp w with | some (.brk) => true | _ => false)
  | .signal _ w => (match kOp w with | some (.signal _ _) => true | _ => false)
  | .shli _ w => isAlui 2 w
  | .shri _ w => isAlui 3 w
  | .sari _ w => isAlui 4 w
  | .ceqi _ w => isAlui 5 w
  | .clti _ w => isAlui 6 w
  | .andi _ w => isAlui 7 w
  | .bra _ w => (match kOp w with | some (.bra _) => true | _ => false)
  | .bg _ w => (match kOp w with | some (.bg _ _ _) => true | _ => false)
  | .bdec _ w => (match kOp w with | some (.bdec _ _) => true | _ => false)
  | .mov _ w => (match kOp w with | some (.mov _ _) => true | _ => false)
  | .add _ w => isAlu 0x00 w
  | .sub _ w => isAlu 0x01 w
  | .neg _ w => isAlu 0x02 w
  | .abs _ w => isAlu 0x03 w
  | .mul _ w => isAlu 0x04 w
  | .mull _ w => isAlu 0x05 w
  | .mulh _ w => isAlu 0x06 w
  | .add2 _ w => isAlu 0x07 w
  | .sub2 _ w => isAlu 0x08 w
  | .mul2 _ w => isAlu 0x09 w
  | .min _ w => isAlu 0x0A w
  | .max _ w => isAlu 0x0B w
  | .clip _ w => (match kOp w with | some (.alu 0x0C _ _ _ _) => true | _ => false)
  | .norm _ w => isAlu 0x0D w
  | .and _ w => isAlu 0x10 w
  | .or _ w => isAlu 0x11 w
  | .xor _ w => isAlu 0x12 w
  | .andn _ w => isAlu 0x13 w
  | .not _ w => isAlu 0x14 w
  | .shl _ w => isAlu 0x18 w
  | .shr _ w => isAlu 0x19 w
  | .sar _ w => isAlu 0x1A w
  | .ceq _ w => isAlu 0x20 w
  | .cne _ w => isAlu 0x21 w
  | .clt _ w => isAlu 0x22 w
  | .cle _ w => isAlu 0x23 w
  | .cltu _ w => isAlu 0x24 w
  | .cleu _ w => isAlu 0x25 w
  | .ctst _ w => isAlu 0x26 w
  | .macF _ w => isAcc 0 w
  | .macI _ w => isAcc 1 w
  | .macD _ w => isAcc 2 w
  | .msuF _ w => isAcc 4 w
  | .msuI _ w => isAcc 5 w
  | .msuD _ w => isAcc 6 w
  | .mpyF _ w => isAcc 8 w
  | .mpyI _ w => isAcc 9 w
  | .mpyD _ w => isAcc 10 w
  | .aclr _ w => isAcc 0x10 w
  | .acadd _ w => isAcc 0x11 w
  | .acsub _ w => isAcc 0x12 w
  | .acneg _ w => isAcc 0x13 w
  | .acsh _ w => isAcc 0x14 w
  | .sac _ w => isAcc 0x18 w
  | .ldac _ w => isAcc 0x19 w
  | .acrd _ w => isAcc 0x1A w
  | .acwr _ w => isAcc 0x1B w
  | .adda _ w => isAddr 0 w
  | .suba _ w => isAddr 1 w
  | .addaa _ w => isAddr 2 w
  | .moda _ w => isAddr 3 w
  | .movi _ w => (match kOp w with | some (.alui 0 _ _) => true | some (.imm 0 _ _) => true | _ => false)
  | .movhi _ w => (match kOp w with | some (.imm 1 _ _) => true | _ => false)
  | .addi _ w => (match kOp w with | some (.alui 1 _ _) => true | some (.imm 2 _ _) => true | _ => false)
  | .ori _ w => (match kOp w with | some (.imm 3 _ _) => true | _ => false)
  | .ld _ w => (match kOp w with | some (.mem false false _ _ _ _ _) => true | _ => false)
  | .st _ w => (match kOp w with | some (.mem true false _ _ _ _ _) => true | _ => false)
  | .ldPostModify _ w => (match kOp w with | some (.mem false true _ _ _ _ _) => true | _ => false)
  | .stPostModify _ w => (match kOp w with | some (.mem true true _ _ _ _ _) => true | _ => false)
  | .br _ w => (match kOp w with | some (.br _) => true | _ => false)
  | .call _ w => (match kOp w with | some (.call _) => true | _ => false)
  | .jr _ w => (match kOp w with | some (.jr _) => true | _ => false)
  | .callr _ w => (match kOp w with | some (.callr _) => true | _ => false)
  | .qget _ w => (match kOp w with | some (.queue 0 _ _ _ _ _) => true | _ => false)
  | .qput _ w => (match kOp w with | some (.queue 1 _ _ _ _ _) => true | _ => false)
  | .qgetm _ w => (match kOp w with | some (.queue 2 _ _ _ _ _) => true | _ => false)
  | .qputm _ w => (match kOp w with | some (.queue 3 _ _ _ _ _) => true | _ => false)
  | .qlvl _ w => (match kOp w with | some (.queue 4 _ _ _ _ _) => true | _ => false)
  | .pwd _ w => (match kOp w with | some (.pwd _ _ _ _ _ _) => true | _ => false)
  | .stamp _ w => (match kOp w with | some (.stamp _ _ _) => true | _ => false)
  | .rank _ w => (match kOp w with | some (.rank _) => true | _ => false)
  | .ucall _ w => (match kOp w with | some (.ucall _ _) => true | _ => false)
  | .mode _ w => (match kOp w with | some (.mode _) => true | _ => false)
  | .rdmode _ w => (match kOp w with | some (.rdmode _) => true | _ => false)
  | .pis _ w => (match kOp w with | some (.cplx 0x00 _ _ _ _) => true | _ => false)
  | .xformCl _ w => (match kOp w with | some (.cplx 0x01 _ _ _ _) => true | _ => false)
  | .xformIcl _ w => (match kOp w with | some (.cplx 0x02 _ _ _ _) => true | _ => false)
  | .xformPk _ w => (match kOp w with | some (.cplx 0x03 _ _ _ _) => true | _ => false)
  | .xformIpk _ w => (match kOp w with | some (.cplx 0x04 _ _ _ _) => true | _ => false)
  | .sincos _ w => (match kOp w with | some (.cplx 0x08 _ _ _ _) => true | _ => false)
  | .div _ w => (match kOp w with | some (.cplx 0x0C _ _ _ _) => true | _ => false)
  | .divq _ w => (match kOp w with | some (.cplx 0x0E _ _ _ _) => true | _ => false)
  | .sqrt _ w => (match kOp w with | some (.cplx 0x10 _ _ _ _) => true | _ => false)
  | .firk _ w => (match kOp w with | some (.cplx 0x18 _ _ _ _) => true | _ => false)
  | .gate _ w => isSup 0 w
  | .retx _ w => isSup 1 w
  | .mpur _ w => isSup 2 w
  | .mpuw _ w => isSup 3 w
  | .sysr _ w => isSup 4 w
  | .sysw _ w => isSup 5 w
  | .world _ w => isSup 6 w
  | .csWaddrGo _ _ _ => true
  | .csRaddrGo _ _ _ => true
  | .sample _ _ _ => true
  | .siSocFire _ _ => true
  | .socPulseEnd _ => true
  | .tripEdge _ _ => true
  | .tripGlitch _ => true
  | .qual _ => true
  | .latchClear _ _ => true
  | .prepare _ _ _ => true
  | .arm _ _ _ => true
  | .disarm _ _ _ => true
  | .release _ _ _ => true
  | .prepareWindowExpiry => true
  | .trInj _ _ _ => true
  | .injectionEnd _ => true
  | .zro _ => true
  | .prd _ => true
  | .compareMatch _ _ _ => true
  | .deadTimeExpiry _ _ => true
  | .dutyWriteAccept _ => true
  | .timedTransfer _ _ => true
  | .pwCmp _ _ _ _ => true
  | .pwDwCtrlGo _ _ _ => true
  | .generatorStart _ _ => true
  | .generatorStartAtTime _ _ => true
  | .timedStart _ => true
  | .generatorStop _ _ => true
  | .phgTime _ => true
  | .xbarWrite _ _ _ => true
  | .timerMatch _ _ => true
  | .timerCapture _ _ _ _ => true
  | .tmCapSw _ _ _ => true
  | .tmCmp _ _ _ _ => true
  | .timerStart _ _ => true
  | .timerStop _ _ => true
  | .timerLoad _ _ => true
  | .groupStart _ _ => true
  | .groupStartAtTime _ _ => true
  | .tmgTime _ => true
  | .pulseEdge _ _ _ => true
  | .toothEvent _ => true
  | .auxIndexEdge _ _ => true
  | .observerStep => true
  | .pfMeasAng _ _ _ => true
  | .feedbackStart _ _ => true
  | .feedbackStop _ _ => true
  | .init _ _ => true
  | .round _ _ => true
  | .capturedEdge _ _ _ _ => true
  | .feeder _ _ => true
  | .drain _ _ => true
  | .scatter => true
  | .chTxdata _ _ _ _ => true
  | .chRxdata _ _ _ => true
  | .chanterStart _ _ => true
  | .chanterStop _ _ => true
  | .channelRestart _ _ _ => true
  | .channelHalt _ _ _ => true
  | .syncStart _ _ => true
  | .syncRestart _ _ => true
  | .syncCancel _ _ => true
  | .chanterSync => true
  | .chCmemWrite _ _ _ _ _ => true
  | .frameStart _ _ _ => true
  | .framedWord _ _ => true
  | .frameEnd _ _ => true
  | .queueEnable _ _ _ => true
  | .queueDisable _ _ _ => true
  | .clQpin _ _ _ _ => true
  | .pinCopyEnd _ => true
  | .clrcnt _ _ => true
  | .seed _ _ => true
  | .seedEnd => true
  | .hopPut _ _ _ => true
  | .hopGet _ _ _ => true
  | .hopLvl _ _ _ => true
  | .reclaimWalkEnd _ => true
  | .inboxMoveEnd _ _ => true
  | .eventDelivery => true
  | .ecEoi _ _ => true
  | .pgEoi _ _ => true
  | .ecSwRaise _ _ => true
  | .ecTargetWrite _ _ _ => true
  | .wakeLatchSet _ _ => true
  | .ecWakeTime => true
  | .journalWrite => true
  | .journalRefresh _ _ => true
  | .drainPeriod => true
  | .dkick _ => true
  | .drestart _ => true
  | .burstEnd => true
  | .derr _ _ => true
  | .flockReset _ _ => true
  | .clean _ => true
  | .pgUdata _ _ => true
  | .interruptEntry => true
  | .atomic => true
  | .shepherdLateStoreError => true
  | .watchdogWarning => true
  | .watchdogTimeout => true
  | .kick _ _ => true
  | .lbinv _ => true
  | .btbinv _ => true
  | .ring _ _ => true
  | .ident _ => true
  | .evtRoute _ => true
  | .evtHoldoff _ => true
  | .peerEvent _ => true
  | .flkEnable _ => true
  | .flkReset _ => true
  | .flkAssign _ => true
  | .flkStatus _ => true
  | .unitMap _ => true
  | .mbSetcfg _ => true
  | .engLoad _ _ => true
  | .taskSet _ => true
  | .engCtrl _ => true
  | .wcsLoad _ _ => true
  | .paramWrite _ => true
  | .paramSwap _ => true
  | .paramRead _ => true
  | .pwConfig _ => true
  | .pwXbar _ => true
  | .pwStart _ => true
  | .pwDuty _ => true
  | .tripConfig _ => true
  | .arWrite _ => true
  | .arArm _ => true
  | .arDisarm _ => true
  | .arRelease _ => true
  | .qConfig _ => true
  | .qPin _ => true
  | .qSeed _ => true
  | .qWm _ => true
  | .qNotice _ => true
  | .jnConfig _ => true
  | .jnRead _ => true
  | .rsDrove _ => true
  | .rsRetire _ => true
  | .rsReadmit _ => true
  | .rsTest _ => true
  | .health _ _ => true
  | .pmRest _ => true
  | .pmFold _ => true
  | .timeSet _ => true
  | .tlConfig _ => true
  | .tlBcast _ => true
  | .tlStatus _ => true
  | .patchInfo _ => true
  | .patchCommit _ => true
  | .dbgPolicy _ => true
  | .scrubRead _ _ => true
  | .miRemap _ _ _ _ => true
  | .remapSwitch _ => true
  | .miSweep _ _ _ => true
  | .sweepEnd _ _ => true
  | .clrlog _ _ => true
  | .droveGo _ _ => true
  | .preloaded => true
  | .droveBoundary => true
  | .droveSwitch => true
  | .cancel _ => true
  | .shadowPairing _ _ => true
  | .ringOscillatorMeasure _ _ => true
  | .ringOscillatorEnd _ _ => true
  | .rcoMeasurement _ _ => true
  | .stressHour => true
  | .powerOnReset => true
  | .pinReset => true
  | .rcSwrst _ _ => true
  | .tlcmd => true
  | .resetRelease _ _ _ _ _ _ => true
  | .hostgo _ _ => true
  | .restEntry => true
  | .foldEntry => true
  | .entryTimeout => true
  | .grazeReturn => true
  | .domainAck _ _ => true
  | .lockloss => true
  | .powerFail _ => true
  | .snapshot => true
  | .lastGaspScan => true
  | .lastGaspEnd _ _ => true
  | .pwrf => true
  | .pmFsdata _ _ => true
  | .fippleIdent _ => true
  | .status _ => true
  | .challenge _ => true
  | .cert _ => true
  | .prove _ => true
  | .unlockComplete => true
  | .lock _ => true
  | .read _ _ => true
  | .write _ _ => true
  | .fippleReset _ => true
  | .lineReset => true
  | .crcerr => true
  | .tapReset => true
  | .extest => true
  | .samplePreload => true
  | .idcode => true
  | .clamp => true
  | .highz => true
  | .fipple _ _ => true
  | .scanctl _ => true
  | .bistctl _ => true
  | .bypass => true
  | .halt _ _ => true
  | .haltTaken _ => true
  | .engineResume _ _ => true
  | .step _ _ => true
  | .dbFreeze _ _ => true
  | .blockHalt _ => true
  | .blockHaltRelease _ => true
  | .holdrel _ _ => true
  | .registerRead _ _ _ => true
  | .memoryWindowWrite _ _ _ _ _ => true
  | .loadResponse _ _ _ _ => true
  | .bufferedStoreComplete _ => true
  | .flashLineArrival _ _ => true
  | .slowClockEdge => true
  | .delayLineLock => true
  | .gateLevelChange _ _ => true
  | .sclkEdge _ _ _ _ => true
  | .illegal c w => kIllegal c w
  | .badop _ => true
  | .badcmd _ _ => true
  | .selfTestEnd _ _ _ => true
  | .fuseBlowComplete _ => true

end Sys2Proof
end

