-- ==== Sys2Proof/Certificates/Slice0/Obligations.lean ====
section
/-!
DEFINITION. The statements for the provers. `s.takes p R v` says that port `p` writes the register R with `v` and that the
write goes ahead; `s.after p R v f` is what surrounds its effect `f` (Safety.lean). A clause gives the next state that the
rules give, for every state and operands that meet its hypotheses.
-/

open Sys2Proof Sys2Proof.Machine

/-- A step takes the command at the front of the queue and runs it on the state with the rest of the queue; on an empty queue the block idles (the model's choice, log entry 30). -/
def Obligations.StepRunsTheFrontCommand : Prop :=
  (∀ (i : Instr) (rest : List Instr) (s : State), s.pending = i :: rest → step s = exec i { s with pending := rest })
  ∧ (∀ s : State, s.pending = [] → step s = .next s)

/-- Every command with every operand runs to a next state: none faults and none is refused. A row of the instruction set that carries a word which is not an encoding of the row changes nothing when another row encodes the word (the model's choice, log entry 57), and does what ILLEGAL does when no row encodes it (R99). -/
def Obligations.EveryCommandAnswers : Prop :=
  (∀ (i : Instr) (s : State), ∃ t, exec i s = .next t)
  ∧ (∀ (i : Instr) (s : State), i.wf = false →
    exec i s = .next s ∨ ∃ c w, kOp w = none ∧ exec i s = exec (.illegal c w) s)

/-- At power-on every register reads as the reset value of its table, the identity registers their fixed values, Tally is 0 with counter A served, the Shepherd stands in the Inner supervisor context at 0x10_0000, every memory reads zero and clean, no event is pending, no wake latch is set, the journal is empty, HPPW is 1, the reset in force is POR at its level, the queue of commands is empty, and every table of the state is in canonical form. (That an unlisted byte of memory reads zero before any sweep is the model's choice, log entry 31.) -/
def Obligations.PowerOnState : Prop :=
  (∀ off : Nat, State.reset.reg off = regReset off)
  ∧ (∀ a : Nat, State.reset.byte a = 0 ∧ State.reset.poisoned a = false)
  ∧ State.reset.reg ID_PART = 0xD7A10064
  ∧ State.reset.reg ID_REVISION = 0x01000001
  ∧ State.reset.reg ID_ROMCODE = 0x00010000
  ∧ State.reset.now = 0
  ∧ State.reset.flag TB_CTRL fTB_CTRL_SEL = false
  ∧ State.reset.shBank.pc = 0x100000
  ∧ State.reset.shBankNo = 0
  ∧ State.reset.shOuter = false
  ∧ State.reset.fld EC_WAKE_LATCH ⟨0, 16⟩ = 0
  ∧ State.reset.nat JN_BACKLOG = 0
  ∧ State.reset.flag FLK_GCFG fFLK_GCFG_HPPW = true
  ∧ State.reset.reg RC_RST_CAUSE = 0x43000001
  ∧ State.reset.pw.mode = .reset
  ∧ State.reset.pw.level = 4
  ∧ State.reset.pw.source = 0
  ∧ State.reset.pending = []
  ∧ State.reset.canonical = true

/-! ### Accesses of the ports (01_architecture.md R18 to R31, 14_flocks_and_register_views.md R376 to R384) -/

/-- A word write that a port makes to JN_HTAIL and that goes ahead stores it and answers OKAY; one with reserved bits set stores the bits of the field and is counted in RC_RSVD_WRITES (R8). A read returns the register with OKAY. A write into a memory window changes the enabled bytes and no other byte, drops the mark of a word written whole, and is answered OKAY and, from the host, counted in FLK_HPP_MEMW; with the view closed (HPPW = 0) it is ignored and counted in FLK_HPP_IGNORED (R377). A read of a memory window returns its bytes, POISON where a mark stands, BUS during a sweep; a write during a sweep answers BUS and changes nothing. A misaligned access answers ACCESS and is counted in FLK_UNALIGNED (R384). A debug access master that is locked gets ACCESS (R376). In reset the host gets BUS. A page of HUP that is not enabled, and a write to a read-only area of one, answer ACCESS and are denied with their cause (R382); a runtime parameter block stores the bytes written (R381). -/
def Obligations.RegisterAndMemoryAccesses : Prop :=
  (∀ (p : Port) (v : Word) (s : State), p ∈ [Port.hpp, .dam, .shepherd] → s.takes p JN_HTAIL v = true →
    exec (.registerWrite p JN_HTAIL 2 15 (v.setWidth 64)) s = .next (s.after p JN_HTAIL v (fun u => u.setReg JN_HTAIL v)))
  ∧ (∀ (p : Port) (v : Word) (s : State), p ∈ [Port.dam, .shepherd] → s.portOpen p = true → s.viewOpen (s.master p) JN_HTAIL false = true →
    (s.master p).lvl ≠ 0 → v.toNat / 2 ^ 24 ≠ 0 →
    exec (.registerWrite p JN_HTAIL 2 15 (v.setWidth 64)) s = .next (
      (((s.inc RC_RSVD_WRITES).setReg JN_HTAIL ((s.reg JN_HTAIL &&& 0xFF000000) ||| (v &&& 0x00FFFFFF))).respond p 0 0).settle))
  ∧ (∀ (p : Port) (s : State), p ∈ [Port.hpp, .dam, .shepherd] → s.reads p JN_HTAIL = true →
    exec (.registerRead p JN_HTAIL 2) s = .next ((s.respond p 0 ((s.reg JN_HTAIL).setWidth 64)).settle))
  ∧ (∀ (off : Nat) (size : Fin 4) (be : BitVec 8) (data : BitVec 64) (s : State), s.portOpen .hpp = true → off % 2 ^ size.val = 0 →
    be.toNat / 2 ^ 2 ^ size.val = 0 → (0x1000000 ≤ off ∧ off < 0x14C8000 ∨ 0x1500000 ≤ off ∧ off < 0x2000000) → s.swept off = false →
    s.flag FLK_GCFG fFLK_GCFG_HPPW = true →
    exec (.memoryWindowWrite .hpp off size be data) s = .next (
      ((((s.inc FLK_HPP_MEMW).extWait off).extWrite off (2 ^ size.val) data.toNat be.toNat).respond .hpp 0 0).settle))
  ∧ (∀ (off : Nat) (size : Fin 4) (be : BitVec 8) (data : BitVec 64) (s : State), s.portOpen .hpp = true → off % 2 ^ size.val = 0 →
    be.toNat / 2 ^ 2 ^ size.val = 0 → (0x1000000 ≤ off ∧ off < 0x14C8000 ∨ 0x1500000 ≤ off ∧ off < 0x2000000) → s.swept off = false →
    s.flag FLK_GCFG fFLK_GCFG_HPPW = true → s.wakeLatch = none → s.pw.hostHeld = [] → s.lanes = [] → s.laneOld = [] →
    ∃ t, exec (.memoryWindowWrite .hpp off size be data) s = .next t ∧ t.lastResp .hpp = ⟨0, 0⟩
      ∧ (∀ a, t.byte a = if off ≤ a ∧ a < off + 2 ^ size.val ∧ bitOf be.toNat (a - off) = true then .ofNat 8 (data.toNat / 256 ^ (a - off)) else s.byte a)
      ∧ t.regs = ((s.inc FLK_HPP_MEMW).extWait off).regs
      ∧ (∀ a, t.poisoned a = if a / 4 = off / 4 ∧ off % 4 = 0 ∧ 2 ≤ size.val ∧ be.toNat % 16 = 15 ∨ size = 3 ∧ a / 4 = off / 4 + 1 ∧ be.toNat / 16 = 15 then false else s.poisoned a))
  ∧ (∀ (off : Nat) (size : Fin 4) (be : BitVec 8) (data : BitVec 64) (s : State), s.portOpen .hpp = true → off % 2 ^ size.val = 0 →
    be.toNat / 2 ^ 2 ^ size.val = 0 → (0x1000000 ≤ off ∧ off < 0x14C8000 ∨ 0x1500000 ≤ off ∧ off < 0x2000000) → s.swept off = false →
    s.flag FLK_GCFG fFLK_GCFG_HPPW = false →
    exec (.memoryWindowWrite .hpp off size be data) s = .next ((s.inc FLK_HPP_IGNORED).respond .hpp 0 0).settle)
  ∧ (∀ (p : Port) (off : Nat) (size : Fin 4) (be : BitVec 8) (data : BitVec 64) (s : State), p ∈ [Port.hpp, .dam, .shepherd] → s.portOpen p = true →
    (s.master p).lvl ≠ 0 → off % 2 ^ size.val = 0 → be.toNat / 2 ^ 2 ^ size.val = 0 →
    (0x1000000 ≤ off ∧ off < 0x14C8000 ∨ 0x1500000 ≤ off ∧ off < 0x2000000) → s.swept off = true →
    exec (.memoryWindowWrite p off size be data) s = .next (s.respond p 4 0).settle)
  ∧ (∀ (p : Port) (off : Nat) (size : Fin 4) (s : State), p ∈ [Port.hpp, .dam, .shepherd] → s.portOpen p = true → (s.master p).lvl ≠ 0 →
    off % 2 ^ size.val = 0 → (0x1000000 ≤ off ∧ off < 0x14C8000 ∨ 0x1500000 ≤ off ∧ off < 0x2000000) →
    exec (.registerRead p off size) s = .next (
      let v := s.seenAt 9 off
      (if s.swept off then s.respond p 4 0 else if v.poisonedIn off (2 ^ size.val) then (s.extWait off).respond p 3 0
       else (s.extWait off).respond p 0 (.ofNat 64 (v.bytesNat off (2 ^ size.val)))).settle))
  ∧ (∀ (p : Port) (off : Nat) (size : Fin 4) (s : State), p ∈ [Port.hpp, .dam, .shepherd] → s.portOpen p = true → off % 2 ^ size.val ≠ 0 →
    exec (.registerRead p off size) s = .next ((s.inc FLK_UNALIGNED).respond p 2 0).settle)
  ∧ (∀ (off : Nat) (size : Fin 4) (s : State), s.portOpen .dam = true → s.dbLevel = 0 → off % 2 ^ size.val = 0 →
    exec (.registerRead .dam off size) s = .next (s.respond .dam 2 0).settle)
  ∧ (∀ (off : Nat) (size : Fin 4) (s : State), s.pw.mode = .reset → exec (.registerRead .hpp off size) s = .next (s.respond .hpp 4 0).settle)
  ∧ (∀ (f : Fin 16) (off : Nat) (size : Fin 4) (s : State), s.portOpen (.hup f) = true → off < 0x10000 → off % 2 ^ size.val = 0 →
    s.flag (FLK_CTRL f) fFLK_CTRL_EN = false → exec (.registerRead (.hup f) off size) s = .next ((s.hupDeny f off 1).respond (.hup f) 2 0).settle)
  ∧ (∀ (f : Fin 16) (v : Word) (s : State), s.portOpen (.hup f) = true → s.flag (FLK_CTRL f) fFLK_CTRL_EN = true →
    exec (.registerWrite (.hup f) 0 2 15 (v.setWidth 64)) s = .next ((s.hupDeny f 0 2).respond (.hup f) 2 0).settle)
  ∧ (∀ (f : Fin 16) (off : Nat) (v : Word) (s : State), s.portOpen (.hup f) = true → s.flag (FLK_CTRL f) fFLK_CTRL_EN = true → s.unswept = false →
    0x1000 ≤ off → off < 0x8000 → off % 4 = 0 →
    exec (.registerWrite (.hup f) off 2 15 (v.setWidth 64)) s = .next ((s.memWrite (2 ^ 35 + f.val * 0x10000 + off) 4 v.toNat 15).respond (.hup f) 0 0).settle)

/-- A write or a read, aligned to its width, of the host, the Shepherd or the unlocked debug access master to an offset beyond the map, in an unassigned range of it, or in the unassigned range of the memory windows, answers DECODE (code 1) and is counted in RC_DECODE_ERRS; it changes nothing else, beside the REGWRITE entry that R379 makes of a host write below 0x0100_0000. What follows a command is that an enabled wake latch acts and that held host requests are completed. -/
def Obligations.UnassignedOffsetsDecode : Prop :=
  (∀ (p : Port) (off : Nat) (size : Fin 4) (be : BitVec 8) (data : BitVec 64) (s : State), p ∈ [Port.hpp, .dam, .shepherd] → s.portOpen p = true →
    (s.master p).lvl ≠ 0 → off % 2 ^ size.val = 0 → be.toNat / 2 ^ 2 ^ size.val = 0 →
    (0xA0000 ≤ off ∧ off < 0x100000 ∨ 0x290000 ≤ off ∧ off < 0x400000 ∨ 0x800000 ≤ off ∧ off < 0x1000000 ∨ 0x14C8000 ≤ off ∧ off < 0x1500000 ∨ 0x2800000 ≤ off) →
    exec (.registerWrite p off size be data) s = .next (
      ((if p = .hpp ∧ off < 0x1000000 then s.regwriteEntries .hpp off (2 ^ size.val) data be.toNat 2 else s).inc RC_DECODE_ERRS).respond p 1 0).settle)
  ∧ (∀ (p : Port) (off : Nat) (size : Fin 4) (be : BitVec 8) (data : BitVec 64) (s : State), p ∈ [Port.hpp, .dam, .shepherd] → s.portOpen p = true →
    (s.master p).lvl ≠ 0 → off % 2 ^ size.val = 0 → be.toNat / 2 ^ 2 ^ size.val = 0 →
    (0xA0000 ≤ off ∧ off < 0x100000 ∨ 0x290000 ≤ off ∧ off < 0x400000 ∨ 0x800000 ≤ off ∧ off < 0x1000000 ∨ 0x14C8000 ≤ off ∧ off < 0x1500000 ∨ 0x2800000 ≤ off) →
    exec (.memoryWindowWrite p off size be data) s = .next (
      ((if p = .hpp ∧ off < 0x1000000 then s.regwriteEntries .hpp off (2 ^ size.val) data be.toNat 2 else s).inc RC_DECODE_ERRS).respond p 1 0).settle)
  ∧ (∀ (p : Port) (off : Nat) (size : Fin 4) (s : State), p ∈ [Port.hpp, .dam, .shepherd] → s.portOpen p = true →
    (s.master p).lvl ≠ 0 → off % 2 ^ size.val = 0 →
    (0xA0000 ≤ off ∧ off < 0x100000 ∨ 0x290000 ≤ off ∧ off < 0x400000 ∨ 0x800000 ≤ off ∧ off < 0x1000000 ∨ 0x14C8000 ≤ off ∧ off < 0x1500000 ∨ 0x2800000 ≤ off) →
    exec (.registerRead p off size) s = .next ((s.inc RC_DECODE_ERRS).respond p 1 0).settle)

/-! ### Tally and Tally Link (02_tally_time.md) -/

/-- TB_CTRL.SET on a master, RESYNC and SEL wait for the next edge (a SET on a slave is refused and counted, R60). A CLK_FAST edge while the accumulator serves Tally ends the fc: what the units put off to the end of the fc takes place, entries of the fc enter the journal, both counters advance, the next fc begins, the timers step and the units act; in an emulated Rest or Fold only Tally and the timers do; without CLK_FAST or its lock there is no edge. With nothing waiting, the counters of that edge take TB_INCR plus TB_TRIM (R33) and a mismatch of A and B opens no second episode. A CLK_SLOW edge in slow advance adds exactly 2^17 tk to both, but for the first after the fast clock was released, which keeps them (R40); with CLK_FAST running it is the handover edge (R42). A lock of the delay line clears COARSE (R542). -/
def Obligations.TallyCommandsAndEdges : Prop :=
  (∀ (p : Port) (s : State) (w : Word), w = tbCtrlWord true false (s.flag TB_CTRL fTB_CTRL_SEL) → s.takes p TB_CTRL w = true →
    exec (.setCmd p) s = .next (s.after p TB_CTRL w (fun u =>
      { (if s.flag TL_CTRL fTL_CTRL_ROLE then u else u.inc TB_SET_REFUSED) with
        tb := { u.tb with selPend := (s.master p).lvl != 3 && u.tb.selPend, setPend := u.tb.setPend || s.flag TL_CTRL fTL_CTRL_ROLE } })))
  ∧ (∀ (p : Port) (s : State) (w : Word), w = tbCtrlWord false true (s.flag TB_CTRL fTB_CTRL_SEL) → s.takes p TB_CTRL w = true →
    exec (.resync p) s = .next (s.after p TB_CTRL w (fun u => { u with tb := { u.tb with selPend := (s.master p).lvl != 3 && u.tb.selPend, resyncPend := true } })))
  ∧ (∀ (p : Port) (b : Bool) (s : State) (w : Word), w = tbCtrlWord false false b → s.takes p TB_CTRL w = true →
    exec (.sel p b) s = .next (s.after p TB_CTRL w (fun u =>
      { u with tb := { u.tb with selPend := if (s.master p).lvl = 3 then b != s.flag TB_CTRL fTB_CTRL_SEL else u.tb.selPend } })))
  ∧ (∀ s : State, s.pw.pll = true → s.live = true →
    exec .tallyAdvance s = .next (
      let c := s.fc
      let u := (((s.snapEdge.hirqEdge.groupsSettle.samplesEnd c).chsEnd.pfsEnd.scCompare).dvEnd.flkEnd.evEnd.jCommit.jTake)
      let v := u.tallyStep.2
      State.unitsEdge ((State.lanesDone { v with fc := c + 1, hot := [], qf := { v.qf with fresh := [], cross := [], wmOld := [] } }).timsEdge c) c
        u.tallyStep.1))
  ∧ (∀ s : State, s.pw.fast = true → s.pw.pll = true → s.live = false →
    exec .tallyAdvance s = .next (
      let v := s.snapEdge.evEnd.jCommit.tallyStep.2
      (State.lanesDone { v with fc := s.fc + 1, hot := [], qf := { v.qf with fresh := [], cross := [], wmOld := [] } }).timsEdge s.fc))
  ∧ (∀ s : State, (s.pw.fast && s.pw.pll) = false → exec .tallyAdvance s = .next s)
  ∧ (∀ s : State, s.flag TB_STAT fTB_STAT_SRC = true → s.tb.setPend = false → s.tb.resyncPend = false → s.tb.selPend = false →
    s.tl.slew = 0 → (s.tb.a ≠ s.tb.b → s.tb.episode = true) →
    s.tallyStep.2 = { s with tb := { s.tb with a := s.tb.a + s.tallyInc, b := s.tb.b + s.tallyInc, episode := s.tb.episode && decide (s.tb.a ≠ s.tb.b) } })
  ∧ (∀ s : State, s.flag TB_STAT fTB_STAT_SRC = false → s.pw.fast = false → s.tb.setPend = false → s.tb.resyncPend = false →
    s.tb.selPend = false → s.tb.a = s.tb.b → s.tb.hold = false →
    exec .slowClockEdge s = .next (
      let u : State := { s with tb := { s.tb with a := s.tb.a + BitVec.ofNat 96 (2 ^ 49), b := s.tb.b + BitVec.ofNat 96 (2 ^ 49), episode := false } }
      { (u.timsSlowEdge false).roTick.lanesDone with hot := [] }))
  ∧ (∀ s : State, s.flag TB_STAT fTB_STAT_SRC = false → s.pw.fast = false → s.tb.hold = true →
    exec .slowClockEdge s = .next { (({ s with tb.hold := false } : State).timsSlowEdge true).roTick.lanesDone with hot := [] })
  ∧ (∀ s : State, s.flag TB_STAT fTB_STAT_SRC = false → s.pw.fast = true → s.pw.pll = true → s.tb.hold = true →
    exec .slowClockEdge s = .next (
      let u := (({ s with tb.hold := false } : State).timsSlowEdge true).roTick
      u.tallyHandover.timsSlow false))
  ∧ (∀ s : State, s.pw.fast = true → s.pw.pll = true →
    exec .delayLineLock s = .next (s.setFlag TB_STAT fTB_STAT_COARSE false))

/-- On an enabled port: a received symbol that is no symbol of the code at the running disparity is counted and kept; in UP the fourth within 256 symbols takes the port DOWN, in ALIGN the first does, and every data symbol and the four control symbols are no violation (R45, R46); a comma while DOWN brings ALIGN and, in Rest, sets WL11 or WL12; 64 valid symbols bring UP; each change of state raises EV2 or EV3 (R46, R354). The master of two ports of which only TLA is UP sends its SYNC_REQ on it with the departure stamp (its destination byte is a free value, log entry 1), of two UP ports its TIME frame on each with its own departure (its destination and hops are the model's choice, log entry 42; R51, R53); a slave answers a SYNC_REQ on its UPPORT with arrival and departure and keeps the exchange; a SYNC_RESP gives t4; 1.5 ms without a request count a missed exchange, and each further 1 ms another (R53, R55; the latter by inference, log entry 41). A TIME frame makes a master report a second one (R52); on the UPPORT of a slave it is noted before a measurement and gives the hop count and is forwarded with its time rewritten after one (R50). A BCAST frame is forwarded, its apply-time loaded and EV6 raised (R57; a tag above 15 is taken modulo 16, the model's choice, log entry 43), and on the UPPORT it may arm a reset. A fragment for this device that starts a message in a free mailbox, and does not complete it, is stored there and acknowledged as accepted; one that finds every peer mailbox taken is counted and answered busy. A busy answer puts the fragment in flight on the retry list for 100 µs, and MBOX_RETRY sends those whose time has come again (R58). -/
def Obligations.TallyLinkAndPeerMail : Prop :=
  (∀ (port : Fin 2) (sym : BitVec 10) (rd valid : Bool) (gap : Nat) (s : State), s.live = true → s.tlEn = true → s.tlState port = 2 →
    codeViolation sym rd valid = true →
    exec (.tlCodeViolation port ⟨sym, rd, valid, gap⟩) s = .next (
      let x := s.tlp port
      let v := if x.violSeen then gap :: x.viol.take 2 else []
      let u := (s.inc (TL_CV_ERRS port)).setTlp port { x with viol := v, violSeen := true }
      if v.length = 3 ∧ v.sum < 256 then u.tlSetState port 0 else u))
  ∧ (∀ (port : Fin 2) (sym : BitVec 10) (rd valid : Bool) (gap : Nat) (s : State), s.live = true → s.tlEn = true → s.tlState port = 1 →
    codeViolation sym rd valid = true →
    exec (.tlCodeViolation port ⟨sym, rd, valid, gap⟩) s = .next (
      let x := s.tlp port
      State.tlSetState ((s.inc (TL_CV_ERRS port)).setTlp port
        { x with viol := if x.violSeen then gap :: x.viol.take 2 else [], violSeen := true }) port 0))
  ∧ (∀ (port : Fin 2) (sym : BitVec 10) (rd valid : Bool) (gap : Nat) (s : State), codeViolation sym rd valid = false →
    exec (.tlCodeViolation port ⟨sym, rd, valid, gap⟩) s = .next s)
  ∧ (∀ (b : Byte) (rd : Bool), codeViolation (encData b rd).1 rd true = false)
  ∧ (∀ (c : Ctl) (rd : Bool), codeViolation (encCtl c rd).1 rd true = false)
  ∧ (∀ (port : Fin 2) (s : State), s.live = true → s.tlEn = true → s.tlState port = 0 →
    exec (.tlCommaReceived port) s = .next ((s.setFld (TL_PSTAT port) fTL_PSTAT_STATE 1).raise (2 + port) 0 0))
  ∧ (∀ (port : Fin 2) (s : State), s.pw.mode = .rest →
    exec (.tlCommaReceived port) s = .next (s.wakeSet (11 + port) s.wakeStamp false).wakeCheck)
  ∧ (∀ (port : Fin 2) (s : State), s.live = true → s.tlEn = true → s.tlState port = 1 →
    exec (.tlAlignComplete port) s = .next (
      let u := ((s.setTlp port { s.tlp port with viol := [], violSeen := false }).setFld (TL_PSTAT port) fTL_PSTAT_STATE 2).raise (2 + port) 0 0
      if port.val = s.upport ∧ s.tlMaster = false then { u with tl.due := some (s.now + 6442451) } else u))
  ∧ (∀ (k0 k1 : Nat) (s : State), s.live = true → s.tlEn = true → s.tlMaster = true → s.tlState 0 = 2 → s.tlState 1 ≠ 2 →
    exec (.syncReqSend (k0, k1)) s = .next (
      let f := mkFrame 0 1 s.tlId (s.freeVal.extractLsb' 0 8).toNat 0
        (natBytes 8 (s.lineStamp k0).toNat ++ natBytes 8 (if (s.tlp 0).awaiting then (0 : Stamp) else (s.tlp 0).t4).toNat)
      State.setTlp (s.tookFree.tlSend f) 0 { s.tlp 0 with t4 := 0, awaiting := true }))
  ∧ (∀ (k0 k1 : Nat) (s : State), s.live = true → s.tlEn = true → s.tlMaster = true → s.tlState 0 = 2 → s.tlState 1 = 2 →
    exec (.timeSend (k0, k1)) s = .next { s with tl := { s.tl with tx := s.tl.tx ++
      [mkFrame 0 3 s.tlId 0xFF 0 (natBytes 8 (s.lineStamp k0).toNat ++ [0]),
       mkFrame 1 3 s.tlId 0xFF 0 (natBytes 8 (s.lineStamp k1).toNat ++ [0])] } })
  ∧ (∀ (f : Frame) (k dt : Nat) (s : State), s.live = true → s.tlCheck (frameAs f 1) = (true, s) → s.tlEn = true →
    s.tlState f.port = 2 → s.tlMaster = false → f.port.val = s.upport → f.src.toNat ≠ s.tlId → f.dst.toNat = s.tlId → f.dst.toNat ≠ 0xFF → s.tl.exch = none →
    exec (.syncReq f k dt) s = .next (
      let t2 := s.arrivalStamp k
      let t3 := s.lineStamp k + .ofNat 64 dt
      { s with tl := { s.tl with
          tx := s.tl.tx ++ [mkFrame f.port 2 s.tlId f.src.toNat 0 (natBytes 8 t2.toNat ++ natBytes 8 t3.toNat)]
          exch := some (.ofNat 64 (bytesNatOf (f.payload.take 8)), t2, t3)
          due := some (t3 + 6442451) } }))
  ∧ (∀ (f : Frame) (k : Nat) (s : State), s.live = true → s.tlCheck (frameAs f 2) = (true, s) →
    s.downstream f.port = true → f.src.toNat ≠ s.tlId → f.dst.toNat = s.tlId → f.dst.toNat ≠ 0xFF → (s.tlp f.port).awaiting = true →
    exec (.syncResp f k) s = .next (s.setTlp f.port { s.tlp f.port with t4 := s.arrivalStamp k, awaiting := false }))
  ∧ (∀ (s : State) (t : Stamp), s.live = true → s.tl.due = some t → reached t s.now = true → s.tlMaster = false → s.tl.missed < 2 →
    exec .syncExchangeTimeout s = .next
      { s.inc TL_SYNC_MISSED with tl := { s.tl with missed := s.tl.missed + 1, exch := none, due := some (t + 4294967) } })
  ∧ (∀ (f : Frame) (k dt : Nat) (s : State), s.live = true → s.tlCheck (frameAs f 3) = (true, s) →
    f.src.toNat ≠ s.tlId → s.tlMaster = true →
    exec (.time f k dt) s = .next ((s.setFlag TL_STAT fTL_STAT_DUALMASTER true).raise 4 0 0))
  ∧ (∀ (f : Frame) (k dt : Nat) (s : State), s.live = true → s.tlCheck (frameAs f 3) = (true, s) →
    f.src.toNat ≠ s.tlId → s.tlMaster = false → f.port.val = s.upport → s.tl.measured = false →
    exec (.time f k dt) s = .next (s.setTlp f.port { s.tlp f.port with timeSeen := true }))
  ∧ (∀ (f : Frame) (k dt : Nat) (s : State), s.live = true → s.tlCheck (frameAs f 3) = (true, s) →
    f.src.toNat ≠ s.tlId → s.tlMaster = false → f.port.val = s.upport → s.tl.measured = true → s.servo = 1 →
    exec (.time f k dt) s = .next (
      let tin : Stamp := .ofNat 64 (bytesNatOf (f.payload.take 8))
      let hops := bytesNatOf (f.payload.drop 8)
      ((s.setTlp f.port { s.tlp f.port with timeSeen := true }).setFld TL_STAT fTL_STAT_HOPS hops).tlForwardTime (frameAs f 3) tin hops
        (s.arrivalStamp k) (s.lineStamp k + .ofNat 64 dt)))
  ∧ (∀ (f : Frame) (s : State), s.live = true → s.tlCheck (frameAs f 0x10) = (true, s) → f.src.toNat ≠ s.tlId →
    exec (.bcast f) s = .next (
      let t : Stamp := .ofNat 64 (bytesNatOf (f.payload.drop 1))
      let n := bytesNatOf (f.payload.take 1) % 16
      let u := (s.tlForward (frameAs f 0x10)).btime n t
      if f.port.val = s.upport then (u.armTlcmd n t).tlcmdDue else u))
  ∧ (∀ (f : Frame) (s : State) (m : Nat), f.payload.length < 16 → s.live = true →
    s.tlCheck (frameAs f 0x20) = (true, s) → f.src.toNat ≠ s.tlId → f.dst.toNat = s.tlId → f.dst.toNat ≠ 0xFF →
    s.peerOf f.src.toNat = none → s.peerFree = some m → tget (fun _ => 0) s.mb.peerLen m = 0 →
    exec (.mbox f) s = .next (
      let q := bytesNatOf (f.payload.take 2)
      let bs := f.payload.drop 2
      let u := State.peerStore { s with mb.peerFirst := tset (fun _ => 0) s.mb.peerFirst m q } m 0 bs
      State.peerAck { u with mb := { u.mb with
          peerLen := tset (fun _ => 0) u.mb.peerLen m bs.length
          peerSrc := tset (fun _ => 0) u.mb.peerSrc m (f.src.toNat + 256 * f.port)
          peerNext := tset (fun _ => 0) u.mb.peerNext m ((q + 1) % 65536) } } (frameAs f 0x20) q 0))
  ∧ (∀ (f : Frame) (s : State), s.live = true → s.tlCheck (frameAs f 0x20) = (true, s) →
    f.src.toNat ≠ s.tlId → f.dst.toNat = s.tlId → f.dst.toNat ≠ 0xFF → s.peerOf f.src.toNat = none → s.peerFree = none →
    exec (.mbox f) s = .next ((s.inc TL_MBOX_BUSY).peerAck (frameAs f 0x20) (bytesNatOf (f.payload.take 2)) 1))
  ∧ (∀ (f : Frame) (s : State) (g : TlFrame), s.live = true → s.tlCheck (frameAs f 0x21) = (true, s) →
    f.src.toNat ≠ s.tlId → f.dst.toNat = s.tlId → f.dst.toNat ≠ 0xFF → s.flightOf f.src.toNat (bytesNatOf (f.payload.take 2)) = some g →
    bytesNatOf ((f.payload.drop 2).take 1) ≠ 0 →
    exec (.mboxAck f) s = .next { s with tl := { s.tl with
      inFlight := s.tl.inFlight.erase g
      retry := s.tl.retry ++ [({ frame := g, due := s.now + 429497 } : TlRetry)] } })
  ∧ (∀ (s : State) (r : TlRetry), s.live = true → s.tl.retry = [r] → reached r.due s.now = true → s.tlEn = true →
    s.tlState r.frame.port = 2 →
    exec .mboxRetry s = .next { s with tl := { s.tl with
      retry := [], inFlight := s.tl.inFlight ++ [r.frame], tx := s.tl.tx ++ [r.frame] } })

/-! ### Loop Engine tasks (03_loop_engines.md) -/

/-- A periodic Tally-time trigger whose T is reached makes a WAITING slot READY with the stamp T and adds the period to T (R77). A dispatch of a READY slot starts a new activation: the slot is RUNNING, LE_TRIG_STAMP takes its stamp, and the bank of its priority starts at LE_TASK_ENTRY with LE_TASK_ARG in A0 (bit 0 of the entry is not taken, the model's choice, log entry 45); a PREEMPTED slot resumes with its bank as it stands (R71, R78). A READY slot of higher priority preempts the running one at a safe point; between two instructions LE_UCONT.VALID is then 0 (R180), and LE_PREEMPT_MAX keeps the largest latency (R80). A reached deadline sets DLMISS, counts, raises EV(65 + 4p) and is journalled once for the activation; with DLACT clear the task goes on (R83). A software trigger of a WAITING slot makes it READY with the stamp of the write, a second one while it is READY is an overrun (R81). -/
def Obligations.TaskTriggersAndDispatch : Prop :=
  (∀ (pe : Fin 72) (k : Fin 8) (s : State), s.live = true → s.trig pe k = 2 → (s.slot pe k).armed = true → s.slotState pe k = 1 →
    reached (s.reg64 (LE_TASK_TIME_LO pe k) (LE_TASK_TIME_HI pe k)) s.now = true → s.nat (LE_TASK_PERIOD pe k) ≠ 0 →
    exec (.tallyTimeTrigger pe k) s = .next (
      let t := s.reg64 (LE_TASK_TIME_LO pe k) (LE_TASK_TIME_HI pe k)
      State.setSlot (State.setFld (s.setReg64 (LE_TASK_TIME_LO pe k) (LE_TASK_TIME_HI pe k) (t + .ofNat 64 (s.nat (LE_TASK_PERIOD pe k))))
        (LE_TASK_STAT pe k) fLE_TASK_STAT_STATE 2) pe k { s.slot pe k with stamp := t, regFc := s.fc, edge := true, missed := false }))
  ∧ (∀ (pe : Fin 72) (k : Nat) (s : State), s.mayDispatch pe = true → s.nextSlot pe = some k → s.slotState pe k = 2 →
    exec (.taskDispatch pe) s = .next (
      let b := s.slotPri pe k
      let x := s.bank pe b
      (State.setReg64 (s.setBank pe b { x with
          pc := .ofNat 24 (s.fld (LE_TASK_ENTRY pe k) fLE_TASK_ENTRY_VALUE / 2 * 2)
          a := tset (fun _ => 0) x.a 0 (.ofNat 24 (s.fld (LE_TASK_ARG pe k) fLE_TASK_ARG_VALUE))
          poison := x.poison &&& ~~~(1#32 <<< 16)
          wait := none
          micro := x.micro.ended })
        (LE_TRIG_STAMP_LO pe k) (LE_TRIG_STAMP_HI pe k) (s.slot pe k).stamp).setFld (LE_TASK_STAT pe k) fLE_TASK_STAT_STATE 3))
  ∧ (∀ (pe : Fin 72) (k : Nat) (s : State), s.mayDispatch pe = true → s.nextSlot pe = some k → s.slotState pe k = 4 →
    exec (.taskDispatch pe) s = .next (
      let b := s.slotPri pe k
      let x := s.bank pe b
      (s.setBank pe b { x with micro := { x.micro with resumed := x.micro.suspended } }).setFld (LE_TASK_STAT pe k) fLE_TASK_STAT_STATE 3))
  ∧ (∀ (pe : Fin 72) (r k : Nat) (s : State), s.live = true → s.leEn pe = true → (s.eng pe).parked = false → (s.eng pe).halted = false →
    (s.eng pe).haltReq = false → s.running pe = some r → s.nextSlot pe = some k → s.slotState pe k = 2 → s.slotPri pe r < s.slotPri pe k →
    (s.bank pe (s.slotPri pe r)).micro.mid ≠ 2 →
    s.fld (LE_PREEMPT_MAX pe) fLE_PREEMPT_MAX_FC < min 65535 (s.fc + 1 - (s.slot pe k).regFc) →
    exec (.preemption pe) s = .next (((s.suspend pe r).setFld (LE_TASK_STAT pe r) fLE_TASK_STAT_STATE 4).setNat (LE_PREEMPT_MAX pe)
      (min 65535 (s.fc + 1 - (s.slot pe k).regFc))))
  ∧ (∀ (pe : Fin 72) (k : Nat) (s : State), (s.bank pe (s.slotPri pe k)).micro.mid = 0 →
    s.suspend pe k = s.setBank pe (s.slotPri pe k) { s.bank pe (s.slotPri pe k) with
      micro := { (s.bank pe (s.slotPri pe k)).micro with ucont := (s.bank pe (s.slotPri pe k)).micro.ucont &&& 0x7FFFFFFF } })
  ∧ (∀ (pe : Fin 72) (k : Fin 8) (s : State), s.live = true → s.nat (LE_TASK_DL pe k) ≠ 0 → s.slotState pe k = 3 →
    (s.slot pe k).missed = false → reached ((s.slot pe k).stamp + .ofNat 64 (s.nat (LE_TASK_DL pe k))) s.now = true →
    s.flag (LE_TASK_CFG pe k) fLE_TASK_CFG_DLACT = false → s.underTest 0 pe = false → s.hurdleDrops 0 pe = false →
    exec (.deadlineMiss pe k) s = .next (
      let u := State.inc (State.setFlag (s.setSlot pe k { s.slot pe k with missed := true }) (LE_TASK_STAT pe k) fLE_TASK_STAT_DLMISS true)
        (LE_DLMISS_CNT pe k)
      (u.raise (65 + 4 * pe) 0 0).record (65 + 4 * pe) 2 k (lo32 (s.slot pe k).stamp) (hi32 (s.slot pe k).stamp)
        (s.bank pe (s.slotPri pe k)).pc.toNat))
  ∧ (∀ (p : Port) (pe : Fin 72) (k : Fin 8) (s : State), s.takes p (LE_CMD pe) (.ofNat 32 (0x40 + k.val)) = true → s.slotState pe k = 1 →
    exec (.trigger p pe k) s = .next (s.after p (LE_CMD pe) (.ofNat 32 (0x40 + k.val)) (fun u =>
      (u.setFld (LE_TASK_STAT pe k) fLE_TASK_STAT_STATE 2).setSlot pe k
        { s.slot pe k with stamp := s.now, regFc := s.fc, edge := true, missed := false })))
  ∧ (∀ (p : Port) (pe : Fin 72) (k : Fin 8) (s : State), s.takes p (LE_CMD pe) (.ofNat 32 (0x40 + k.val)) = true → s.slotState pe k = 2 →
    exec (.trigger p pe k) s = .next (s.after p (LE_CMD pe) (.ofNat 32 (0x40 + k.val)) (fun u =>
      ((u.setFlag (LE_TASK_STAT pe k) fLE_TASK_STAT_OVR true).inc (LE_OVR_CNT pe k)).hurdle 0 pe (fun v => v.raiseLater (66 + 4 * pe) 0 0))))

/-- CLEAR clears VALID, DOUBLE and both causes of LE_FAULT. RESUME of a FAULTED slot whose EN is set and which has neither a pending trigger nor a level makes it WAITING; on any other slot it is refused and counted. UNPARK of a parked engine with LE_FAULT.VALID = 0 ends the parking, and a suspended routine goes on from LE_UCONT; with VALID = 1 it is refused and counted (R88). LE_CTRL.EN = 1 is taken while the engine's flock is CLEAN and refused while it is not, 0 is taken (R79, R375). LE_TASK_CFG of a DISABLED slot takes the data; EN = 1 makes the slot WAITING, arms a Tally-time trigger and lets a level be seen from the next fc on; any other field of an enabled slot is refused (R81, R544). A half of LE_TASK_TIME written in WAITING is taken and arms the trigger; written in READY or RUNNING with another value it is refused (R77, R81). -/
def Obligations.TaskCommands : Prop :=
  (∀ (p : Port) (pe : Fin 72) (s : State), s.takes p (LE_CMD pe) 0x10 = true →
    exec (.clear p pe) s = .next (s.after p (LE_CMD pe) 0x10 (fun u =>
      u.setNat (LE_FAULT pe) (withBits (withBits (s.nat (LE_FAULT pe)) 0 2 0) 4 8 0))))
  ∧ (∀ (p : Port) (pe : Fin 72) (k : Fin 8) (s : State), s.takes p (LE_CMD pe) (.ofNat 32 (0x20 + k.val)) = true →
    s.slotState pe k = 5 → s.taskEn pe k = true → (s.slot pe k).pend = none → s.trig pe k ≠ 0 → s.trig pe k ≠ 3 →
    exec (.resume p pe k) s = .next (s.after p (LE_CMD pe) (.ofNat 32 (0x20 + k.val)) (fun u =>
      (u.setFld (LE_TASK_STAT pe k) fLE_TASK_STAT_STATE 1).setSlot pe k { s.slot pe k with edge := false, missed := false })))
  ∧ (∀ (p : Port) (pe : Fin 72) (k : Fin 8) (s : State), s.takes p (LE_CMD pe) (.ofNat 32 (0x20 + k.val)) = true → s.slotState pe k ≠ 5 →
    exec (.resume p pe k) s = .next (s.after p (LE_CMD pe) (.ofNat 32 (0x20 + k.val)) (fun u => u.inc (LE_CFG_REFUSED pe))))
  ∧ (∀ (p : Port) (pe : Fin 72) (s : State), s.takes p (LE_CMD pe) 0x30 = true → s.leFaulted pe = false → (s.eng pe).parked = true →
    s.running pe = none →
    exec (.unpark p pe) s = .next (s.after p (LE_CMD pe) 0x30 (fun u => u.setEng pe { s.eng pe with parked := false })))
  ∧ (∀ (p : Port) (pe : Fin 72) (k : Nat) (s : State), s.takes p (LE_CMD pe) 0x30 = true → s.leFaulted pe = false → (s.eng pe).parked = true →
    s.running pe = some k → (s.slot pe k).missed = false →
    exec (.unpark p pe) s = .next (s.after p (LE_CMD pe) 0x30 (fun u =>
      (u.setEng pe { s.eng pe with parked := false }).setBank pe (s.slotPri pe k) { s.bank pe (s.slotPri pe k) with
        micro := { (s.bank pe (s.slotPri pe k)).micro with resumed := (s.bank pe (s.slotPri pe k)).micro.suspended } })))
  ∧ (∀ (p : Port) (pe : Fin 72) (s : State), s.takes p (LE_CMD pe) 0x30 = true → s.leFaulted pe = true →
    exec (.unpark p pe) s = .next (s.after p (LE_CMD pe) 0x30 (fun u => u.inc (LE_CFG_REFUSED pe))))
  ∧ (∀ (p : Port) (pe : Fin 72) (s : State), s.takes p (LE_CTRL pe) 1 = true → s.leEn pe = false → s.notClean (s.leFlock pe) = false →
    exec (.leCtrlEn p pe true) s = .next (s.after p (LE_CTRL pe) 1 (fun u => u.setReg (LE_CTRL pe) 1)))
  ∧ (∀ (p : Port) (pe : Fin 72) (s : State), s.takes p (LE_CTRL pe) 1 = true → s.leEn pe = false → s.notClean (s.leFlock pe) = true →
    exec (.leCtrlEn p pe true) s = .next (s.after p (LE_CTRL pe) 1 (fun u => u.inc (LE_CFG_REFUSED pe))))
  ∧ (∀ (p : Port) (pe : Fin 72) (s : State), s.takes p (LE_CTRL pe) 0 = true →
    exec (.leCtrlEn p pe false) s = .next (s.after p (LE_CTRL pe) 0 (fun u => u.setReg (LE_CTRL pe) 0)))
  ∧ (∀ (p : Port) (pe : Fin 72) (k : Fin 8) (v : Word) (s : State), s.takes p (LE_TASK_CFG pe k) v = true → s.slotState pe k = 0 →
    vbit v 0 = true → vfld v 4 2 = 2 →
    exec (.leTaskCfgEn p pe k v) s = .next (s.after p (LE_TASK_CFG pe k) v (fun u =>
      let t := ((u.setReg (LE_TASK_CFG pe k) v).setFld (LE_TASK_STAT pe k) fLE_TASK_STAT_STATE 1).setSlot pe k { armed := true }
      if s.due.contains (s.fc, .levelEval pe k) then t else t.later s.fc (.levelEval pe k))))
  ∧ (∀ (p : Port) (pe : Fin 72) (k : Fin 8) (v : Word) (s : State), s.takes p (LE_TASK_CFG pe k) v = true → s.slotState pe k ≠ 0 →
    s.nat (LE_TASK_CFG pe k) / 2 ≠ v.toNat / 2 →
    exec (.leTaskCfgEn p pe k v) s = .next (s.after p (LE_TASK_CFG pe k) v (fun u => u.inc (LE_CFG_REFUSED pe))))
  ∧ (∀ (p : Port) (pe : Fin 72) (k : Fin 8) (hi : Bool) (v : Word) (s : State),
    let off := if hi then LE_TASK_TIME_HI pe k else LE_TASK_TIME_LO pe k
    s.takes p off v = true → s.slotState pe k = 1 →
    exec (.leTaskTime p pe k hi v) s = .next (s.after p off v (fun u =>
      (u.setReg off v).setSlot pe k { s.slot pe k with armed := s.trig pe k == 2 })))
  ∧ (∀ (p : Port) (pe : Fin 72) (k : Fin 8) (hi : Bool) (v : Word) (s : State),
    let off := if hi then LE_TASK_TIME_HI pe k else LE_TASK_TIME_LO pe k
    s.takes p off v = true → s.slotState pe k = 3 → v ≠ s.reg off →
    exec (.leTaskTime p pe k hi v) s = .next (s.after p off v (fun u => u.inc (LE_CFG_REFUSED pe))))

/-- The oldest store buffered towards system memory reaches it in order (R66); an error response to it removes it and reports a late-store error, kind 4, without an effect on the task (R85). A response that comes while the task that waits does not run is kept for the load to take when it is issued again (R150); a load of the unit-register window makes its access once the stores before it have left (R75). A store on the unit-register path that carries an old flock incarnation is discarded and counted (R75). A Rank request with STATUS 0 writes the first m of the entries that its read phase took, in rank order; one with another status writes none; both finish by rankFinish, which counts them and puts the completion in the inbox, and a full inbox holds the completion (R89 to R92; that the entries are held with it, and the order of statuses, are the model's choice, log entries 48 and 51). CS_WADDR with GO writes the word of CS_WDATA into a writable place of the control store, with computed parity under GENPAR, and is refused and counted elsewhere (R185); CS_RADDR with GO reads the word and its parity check (R193). -/
def Obligations.EnginePaths : Prop :=
  (∀ (p : Fin 72) (e : BufStore) (t : List BufStore) (s : State), (s.eng p).stores = e :: t →
    exec (.bufferedStoreComplete (.eng p)) s = .next ((s.setEng p { s.eng p with stores := t }).sysWrite e.addr e.bytes))
  ∧ (∀ (e : BufStore) (t : List BufStore) (s : State), s.sh.stores = e :: t →
    exec (.bufferedStoreComplete .shep) s = .next ({ s with sh := { s.sh with stores := t } }.sysWrite e.addr e.bytes))
  ∧ (∀ (p : Fin 72) (e : BufStore) (t : List BufStore) (s : State), s.live = true → (s.eng p).stores = e :: t →
    s.underTest 0 p = false → s.hurdleDrops 0 p = false →
    exec (.lateStoreError p) s = .next (
      let u := s.setEng p { s.eng p with stores := t }
      (u.raise (64 + 4 * p) (4 + e.slot * 256 + s.leLogical p * 65536) e.eaddr.toNat).record (64 + 4 * p) 1 (4 + e.slot * 4096) 0
        e.eaddr.toNat (s.leLogical p)))
  ∧ (∀ (p : Fin 72) (b code : Fin 4) (data : BitVec 64) (lw : LoadWait) (s : State), s.live = true → (s.bank p b).wait = some lw →
    lw.resp = none → lw.kind ≠ 0 → s.kReady (.eng p) = false →
    exec (.loadResponse (.eng p) b code data) s = .next
      (s.setBank p b { s.bank p b with wait := some { lw with resp := some (code.val, data) } }))
  ∧ (∀ (p : Fin 72) (b code : Fin 4) (data : BitVec 64) (lw : LoadWait) (s : State), s.live = true → (s.bank p b).wait = some lw →
    lw.resp = none → lw.kind ≠ 0 → s.kReady (.eng p) = true → s.runBank p = b.val → lw.micro = false →
    exec (.loadResponse (.eng p) b code data) s = .next (s.loadEnd (.eng p) lw code data))
  ∧ (∀ (p : Fin 72) (b code : Fin 4) (data : BitVec 64) (lw : LoadWait) (s : State), s.live = true → (s.bank p b).wait = some lw →
    lw.resp = none → lw.kind = 0 → (s.eng p).path = [] → (s.windowAccess p lw).2.2.kReady (.eng p) = false →
    exec (.loadResponse (.eng p) b code data) s = .next (
      let a := s.windowAccess p lw
      a.2.2.setBank p b { s.bank p b with wait := some { lw with resp := some (a.1, a.2.1) } }))
  ∧ (∀ (p : Fin 72) (b code : Fin 4) (data : BitVec 64) (lw : LoadWait) (s : State), (s.bank p b).wait = some lw →
    lw.kind = 0 → (s.eng p).path ≠ [] → exec (.loadResponse (.eng p) b code data) s = .next s)
  ∧ (∀ (p : Fin 72) (e : PathStore) (t : List PathStore) (s : State), s.live = true → (s.eng p).path = e :: t →
    e.inc ≠ s.flockInc e.flock →
    exec (.unitRegisterStoreAccept p) s = .next ((s.setEng p { s.eng p with path := t }).inc (FLK_STALE_CNT e.flock)))
  ∧ (∀ (p : Fin 72) (e : PathStore) (t : List PathStore) (s : State), s.live = true → (s.eng p).path = e :: t →
    e.inc = s.flockInc e.flock →
    exec (.unitRegisterStoreAccept p) s = .next (
      let u := s.setEng p { s.eng p with path := t }
      u.urpStore p { u.master (.urp p) with flock := e.flock, inc := e.inc } (u.urpTarget (e.eaddr.toNat - 0x400000)) e.eaddr.toNat
        e.slot e.pc.toNat e.data))
  ∧ (∀ (cl : Fin 8) (r : RankReq) (t : List RankReq) (s : State), s.live = true → tget (fun _ => []) s.ranks cl = r :: t →
    let x := s.rankReadAll cl r
    let d := x.got.getD {}
    let q := 4 * x.eng + d.inbox
    let u := s.samplesLeave (fun n => s.routeQueue n == some q)
    u.live = true → u.qBusy q = false → (u.qEn q && decide (u.qDepth q ≤ u.qLevel q)) = false → rankStatus d x.pois = 0 →
    exec (.rankCompletion cl) s = .next ((u.rankWrite (0x1500000 + cl.val * 0x80000 + d.dst)
      ((rankSort d.desc x.entries).take (if d.k = 0 then d.n else d.k))).rankFinish cl x d 0))
  ∧ (∀ (cl : Fin 8) (r : RankReq) (t : List RankReq) (s : State), s.live = true → tget (fun _ => []) s.ranks cl = r :: t →
    let x := s.rankReadAll cl r
    let d := x.got.getD {}
    let q := 4 * x.eng + d.inbox
    let u := s.samplesLeave (fun n => s.routeQueue n == some q)
    u.live = true → u.qBusy q = false → (u.qEn q && decide (u.qDepth q ≤ u.qLevel q)) = false → rankStatus d x.pois ≠ 0 →
    exec (.rankCompletion cl) s = .next (u.rankFinish cl x d (rankStatus d x.pois)))
  ∧ (∀ (cl : Fin 8) (r : RankReq) (t : List RankReq) (s : State), s.live = true → tget (fun _ => []) s.ranks cl = r :: t →
    let x := s.rankReadAll cl r
    let q := 4 * x.eng + (x.got.getD {}).inbox
    let u := s.samplesLeave (fun n => s.routeQueue n == some q)
    u.qEn q = true → u.qDepth q ≤ u.qLevel q →
    exec (.rankCompletion cl) s = .next u)
  ∧ (∀ (p : Port) (pe : Fin 72) (v : Word) (s : State), s.takes p (CS_WADDR pe) (fCS_WADDR_GO.put v 1) = true →
    isWcs (vfld v 0 13) = true → s.leState pe = 0 → vbit v 16 = true →
    exec (.csWaddrGo p pe v) s = .next (s.after p (CS_WADDR pe) (fCS_WADDR_GO.put v 1) (fun u =>
      (u.setNat (CS_WADDR pe) (vfld v 0 13 + 2 ^ 16)).setCsWord pe (vfld v 0 13) (withParity (s.wdata pe)))))
  ∧ (∀ (p : Port) (pe : Fin 72) (v : Word) (s : State), s.takes p (CS_WADDR pe) (fCS_WADDR_GO.put v 1) = true →
    isRom (vfld v 0 13) = true →
    exec (.csWaddrGo p pe v) s = .next (s.after p (CS_WADDR pe) (fCS_WADDR_GO.put v 1) (fun u =>
      (u.setNat (CS_WADDR pe) (vfld v 0 13 + vfld v 16 1 * 2 ^ 16)).inc (CS_WREFUSED pe))))
  ∧ (∀ (p : Port) (pe : Fin 72) (v : Word) (s : State), s.takes p (CS_RADDR pe) (fCS_RADDR_GO.put v 1) = true →
    exec (.csRaddrGo p pe v) s = .next (s.after p (CS_RADDR pe) (fCS_RADDR_GO.put v 1) (fun u =>
      let w := s.csWord pe (vfld v 0 13)
      let u := forN (fun i x => x.setNat (CS_RDATA pe i) (bitsOf w.toNat (32 * i) 32)) 5 (u.setNat (CS_RADDR pe) (vfld v 0 13))
      (u.setNat (CS_RDATA5 pe) (bitsOf w.toNat 160 16)).setFlag (CS_RSTAT pe) fCS_RSTAT_PARERR (!parityOk w))))

/-! ### Kamyn (04_kamyn_instruction_set.md, 06_microcode.md, 15_shepherd_core.md) -/

/-- An issued arithmetic instruction of the ALU group ends with the exact result of its operands fitted to its format, the flags of that fit raised in LE_MODE, the OR of the poison bits of its sources on the destination, and the program counter moved past it; nothing else changes but what ends an instruction (kEnd). With saturation (SAT of LE_MODE or X = 1) a result out of range is clamped and raises SV, without it wraps and raises OV. 16-bit and 32-bit forms are one. -/
def Obligations.KamynArithmetic : Prop :=
  (∀ (c : Core) (w : Word) (s t : State) (rd ra rb : Nat) (x : Bool),
    s.fetched c w = some t →
    kOp w = some (.alu 0x00 rd ra rb x) →
    let b := s.kBank c
    exec (.add c w) s = .next (s.resulted c w t rd [ra, rb] (fitSO 32 (b.sat || x) (b.di ra + b.di rb))))
  ∧ (∀ (c : Core) (w : Word) (s t : State) (rd ra rb : Nat) (x : Bool),
    s.fetched c w = some t →
    kOp w = some (.alu 0x01 rd ra rb x) →
    let b := s.kBank c
    exec (.sub c w) s = .next (s.resulted c w t rd [ra, rb] (fitSO 32 (b.sat || x) (b.di ra - b.di rb))))
  ∧ (∀ (c : Core) (w : Word) (s t : State) (rd ra rb : Nat) (x : Bool),
    s.fetched c w = some t →
    kOp w = some (.alu 0x02 rd ra rb x) →
    let b := s.kBank c
    exec (.neg c w) s = .next (s.resulted c w t rd [rb] (fitSO 32 (b.sat || x) (-b.di rb))))
  ∧ (∀ (c : Core) (w : Word) (s t : State) (rd ra rb : Nat) (x : Bool),
    s.fetched c w = some t →
    kOp w = some (.alu 0x03 rd ra rb x) →
    let b := s.kBank c
    exec (.abs c w) s = .next (s.resulted c w t rd [rb] (fitSO 32 (b.sat || x) (if b.di rb < 0 then -b.di rb else b.di rb))))
  ∧ (∀ (c : Core) (w : Word) (s t : State) (rd ra rb : Nat) (x : Bool),
    s.fetched c w = some t →
    kOp w = some (.alu 0x04 rd ra rb x) →
    let b := s.kBank c
    exec (.mul c w) s = .next (s.resulted c w t rd [ra, rb] (fitSO 32 (b.sat || x) (roundShift b.rnd (b.di ra * b.di rb) 31))))
  ∧ (∀ (c : Core) (w : Word) (s t : State) (rd ra rb : Nat) (x : Bool),
    s.fetched c w = some t →
    kOp w = some (.alu 0x05 rd ra rb x) →
    let b := s.kBank c
    exec (.mull c w) s = .next (s.resulted c w t rd [ra, rb] (b.di ra * b.di rb, 0)))
  ∧ (∀ (c : Core) (w : Word) (s t : State) (rd ra rb : Nat) (x : Bool),
    s.fetched c w = some t →
    kOp w = some (.alu 0x06 rd ra rb x) →
    let b := s.kBank c
    exec (.mulh c w) s = .next (s.resulted c w t rd [ra, rb] (b.di ra * b.di rb / 2 ^ 32, 0)))
  ∧ (∀ (c : Core) (w : Word) (s t : State) (rd ra rb : Nat) (x : Bool),
    s.fetched c w = some t →
    kOp w = some (.alu 0x07 rd ra rb x) →
    let b := s.kBank c
    exec (.add2 c w) s = .next (s.resulted c w t rd [ra, rb] (fitHalves (b.sat || x) (halfHi (b.gd ra) + halfHi (b.gd rb)) (halfLo (b.gd ra) + halfLo (b.gd rb)))))
  ∧ (∀ (c : Core) (w : Word) (s t : State) (rd ra rb : Nat) (x : Bool),
    s.fetched c w = some t →
    kOp w = some (.alu 0x08 rd ra rb x) →
    let b := s.kBank c
    exec (.sub2 c w) s = .next (s.resulted c w t rd [ra, rb] (fitHalves (b.sat || x) (halfHi (b.gd ra) - halfHi (b.gd rb)) (halfLo (b.gd ra) - halfLo (b.gd rb)))))
  ∧ (∀ (c : Core) (w : Word) (s t : State) (rd ra rb : Nat) (x : Bool),
    s.fetched c w = some t →
    kOp w = some (.alu 0x09 rd ra rb x) →
    let b := s.kBank c
    exec (.mul2 c w) s = .next (s.resulted c w t rd [ra, rb] (fitHalves (b.sat || x) (roundShift b.rnd (halfHi (b.gd ra) * halfHi (b.gd rb)) 15) (roundShift b.rnd (halfLo (b.gd ra) * halfLo (b.gd rb)) 15))))
  ∧ (∀ (c : Core) (w : Word) (s t : State) (rd ra rb : Nat) (x : Bool),
    s.fetched c w = some t →
    kOp w = some (.alu 0x0A rd ra rb x) →
    let b := s.kBank c
    exec (.min c w) s = .next (s.resulted c w t rd [ra, rb] (if b.di ra < b.di rb then b.di ra else b.di rb, 0)))
  ∧ (∀ (c : Core) (w : Word) (s t : State) (rd ra rb : Nat) (x : Bool),
    s.fetched c w = some t →
    kOp w = some (.alu 0x0B rd ra rb x) →
    let b := s.kBank c
    exec (.max c w) s = .next (s.resulted c w t rd [ra, rb] (if b.di ra < b.di rb then b.di rb else b.di ra, 0)))
  ∧ (∀ (c : Core) (w : Word) (s t : State) (rd ra rb : Nat) (x : Bool),
    s.fetched c w = some t →
    kOp w = some (.alu 0x0C rd ra rb x) →
    isD ra = true →
    let b := s.kBank c
    exec (.clip c w) s = .next (s.resulted c w t rd [ra, rb, rb + 1]
      (let m := if b.di ra < b.di rb then b.di rb else b.di ra; if b.di (rb + 1) < m then b.di (rb + 1) else m, 0)))
  ∧ (∀ (c : Core) (w : Word) (s t : State) (rd ra rb : Nat) (x : Bool),
    s.fetched c w = some t →
    kOp w = some (.alu 0x0D rd ra rb x) →
    let b := s.kBank c
    exec (.norm c w) s = .next (s.resulted c w t rd [rb] (norm32 (b.gd rb), 0)))

/-- An issued logic or shift instruction ends with the bitwise result or the shifted value (SHL fitted under SAT/OV; shift counts are the low six bits of RB) in the destination, and no flag but those of SHL. -/
def Obligations.KamynLogic : Prop :=
  (∀ (c : Core) (w : Word) (s t : State) (rd ra rb : Nat) (x : Bool),
    s.fetched c w = some t →
    kOp w = some (.alu 0x10 rd ra rb x) →
    let b := s.kBank c
    exec (.and c w) s = .next (s.resulted c w t rd [ra, rb] (BitVec.toInt ((b.gd ra) &&& (b.gd rb)), 0)))
  ∧ (∀ (c : Core) (w : Word) (s t : State) (rd ra rb : Nat) (x : Bool),
    s.fetched c w = some t →
    kOp w = some (.alu 0x11 rd ra rb x) →
    let b := s.kBank c
    exec (.or c w) s = .next (s.resulted c w t rd [ra, rb] (BitVec.toInt ((b.gd ra) ||| (b.gd rb)), 0)))
  ∧ (∀ (c : Core) (w : Word) (s t : State) (rd ra rb : Nat) (x : Bool),
    s.fetched c w = some t →
    kOp w = some (.alu 0x12 rd ra rb x) →
    let b := s.kBank c
    exec (.xor c w) s = .next (s.resulted c w t rd [ra, rb] (BitVec.toInt ((b.gd ra) ^^^ (b.gd rb)), 0)))
  ∧ (∀ (c : Core) (w : Word) (s t : State) (rd ra rb : Nat) (x : Bool),
    s.fetched c w = some t →
    kOp w = some (.alu 0x13 rd ra rb x) →
    let b := s.kBank c
    exec (.andn c w) s = .next (s.resulted c w t rd [ra, rb] (BitVec.toInt ((b.gd ra) &&& ~~~(b.gd rb)), 0)))
  ∧ (∀ (c : Core) (w : Word) (s t : State) (rd ra rb : Nat) (x : Bool),
    s.fetched c w = some t →
    kOp w = some (.alu 0x14 rd ra rb x) →
    let b := s.kBank c
    exec (.not c w) s = .next (s.resulted c w t rd [rb] (BitVec.toInt (~~~(b.gd rb)), 0)))
  ∧ (∀ (c : Core) (w : Word) (s t : State) (rd ra rb : Nat) (x : Bool),
    s.fetched c w = some t →
    kOp w = some (.alu 0x18 rd ra rb x) →
    let b := s.kBank c
    exec (.shl c w) s = .next (s.resulted c w t rd [ra, rb] (fitSO 32 (b.sat || x) (b.di ra * 2 ^ ((b.gd rb).toNat % 64)))))
  ∧ (∀ (c : Core) (w : Word) (s t : State) (rd ra rb : Nat) (x : Bool),
    s.fetched c w = some t →
    kOp w = some (.alu 0x19 rd ra rb x) →
    let b := s.kBank c
    exec (.shr c w) s = .next (s.resulted c w t rd [ra, rb] (((b.gd ra).toNat / 2 ^ ((b.gd rb).toNat % 64) : Nat), 0)))
  ∧ (∀ (c : Core) (w : Word) (s t : State) (rd ra rb : Nat) (x : Bool),
    s.fetched c w = some t →
    kOp w = some (.alu 0x1A rd ra rb x) →
    let b := s.kBank c
    exec (.sar c w) s = .next (s.resulted c w t rd [ra, rb] (b.di ra / 2 ^ ((b.gd rb).toNat % 64), 0)))

/-- A compare (CEQ, CNE, CLT, CLE, CLTU, CLEU, CTST) whose guard holds writes 1 into its destination when its relation holds and 0 otherwise; the bank is otherwise as it was, its flags with it, but for the program counter, which moves past the instruction. The poison bit of the destination is the OR of those of the sources. -/
def Obligations.ComparesWriteOneOrZero : Prop :=
  (∀ (c : Core) (w : Word) (s t : State) (rd ra rb : Nat) (x : Bool),
    s.fetched c w = some t →
    kOp w = some (.alu 0x20 rd ra rb x) →
    let b := s.kBank c
    exec (.ceq c w) s = .next (s.ended c w t (b.putI rd (if b.gd ra = b.gd rb then 1 else 0) (b.poisAny [ra, rb]))))
  ∧ (∀ (c : Core) (w : Word) (s t : State) (rd ra rb : Nat) (x : Bool),
    s.fetched c w = some t →
    kOp w = some (.alu 0x21 rd ra rb x) →
    let b := s.kBank c
    exec (.cne c w) s = .next (s.ended c w t (b.putI rd (if b.gd ra ≠ b.gd rb then 1 else 0) (b.poisAny [ra, rb]))))
  ∧ (∀ (c : Core) (w : Word) (s t : State) (rd ra rb : Nat) (x : Bool),
    s.fetched c w = some t →
    kOp w = some (.alu 0x22 rd ra rb x) →
    let b := s.kBank c
    exec (.clt c w) s = .next (s.ended c w t (b.putI rd (if b.di ra < b.di rb then 1 else 0) (b.poisAny [ra, rb]))))
  ∧ (∀ (c : Core) (w : Word) (s t : State) (rd ra rb : Nat) (x : Bool),
    s.fetched c w = some t →
    kOp w = some (.alu 0x23 rd ra rb x) →
    let b := s.kBank c
    exec (.cle c w) s = .next (s.ended c w t (b.putI rd (if b.di ra ≤ b.di rb then 1 else 0) (b.poisAny [ra, rb]))))
  ∧ (∀ (c : Core) (w : Word) (s t : State) (rd ra rb : Nat) (x : Bool),
    s.fetched c w = some t →
    kOp w = some (.alu 0x24 rd ra rb x) →
    let b := s.kBank c
    exec (.cltu c w) s = .next (s.ended c w t (b.putI rd (if (b.gd ra).toNat < (b.gd rb).toNat then 1 else 0) (b.poisAny [ra, rb]))))
  ∧ (∀ (c : Core) (w : Word) (s t : State) (rd ra rb : Nat) (x : Bool),
    s.fetched c w = some t →
    kOp w = some (.alu 0x25 rd ra rb x) →
    let b := s.kBank c
    exec (.cleu c w) s = .next (s.ended c w t (b.putI rd (if (b.gd ra).toNat ≤ (b.gd rb).toNat then 1 else 0) (b.poisAny [ra, rb]))))
  ∧ (∀ (c : Core) (w : Word) (s t : State) (rd ra rb : Nat) (x : Bool),
    s.fetched c w = some t →
    kOp w = some (.alu 0x26 rd ra rb x) →
    let b := s.kBank c
    exec (.ctst c w) s = .next (s.ended c w t (b.putI rd (if b.gd ra &&& b.gd rb ≠ 0 then 1 else 0) (b.poisAny [ra, rb]))))

/-- The 16-bit immediate forms take IMM6, sign-extended but for shifts; MOVI, MOVHI, ADDI and ORI take a 16-bit value, and ADDI of a D register fits its sum under SAT/OV; a MOV from D to an accumulator places the value at 2^32, one from an accumulator to D rounds once and saturates, every other copies; ADDA, SUBA, ADDAA and MODA work on addresses modulo 2^24 without a flag. -/
def Obligations.KamynImmediatesAndMoves : Prop :=
  (∀ (c : Core) (w : Word) (s t : State) (rd v : Nat),
    s.fetched c w = some t →
    kOp w = some (.alui 2 rd v) →
    let b := s.kBank c
    exec (.shli c w) s = .next (s.resulted c w t rd [rd] (fitSO 32 b.sat (b.di rd * 2 ^ v))))
  ∧ (∀ (c : Core) (w : Word) (s t : State) (rd v : Nat),
    s.fetched c w = some t →
    kOp w = some (.alui 3 rd v) →
    let b := s.kBank c
    exec (.shri c w) s = .next (s.resulted c w t rd [rd] (((b.gd rd).toNat / 2 ^ v : Nat), 0)))
  ∧ (∀ (c : Core) (w : Word) (s t : State) (rd v : Nat),
    s.fetched c w = some t →
    kOp w = some (.alui 4 rd v) →
    let b := s.kBank c
    exec (.sari c w) s = .next (s.resulted c w t rd [rd] (b.di rd / 2 ^ v, 0)))
  ∧ (∀ (c : Core) (w : Word) (s t : State) (rd v : Nat),
    s.fetched c w = some t →
    kOp w = some (.alui 5 rd v) →
    let b := s.kBank c
    exec (.ceqi c w) s = .next (s.resulted c w t rd [rd] (if b.di rd = sx 6 v then 1 else 0, 0)))
  ∧ (∀ (c : Core) (w : Word) (s t : State) (rd v : Nat),
    s.fetched c w = some t →
    kOp w = some (.alui 6 rd v) →
    let b := s.kBank c
    exec (.clti c w) s = .next (s.resulted c w t rd [rd] (if b.di rd < sx 6 v then 1 else 0, 0)))
  ∧ (∀ (c : Core) (w : Word) (s t : State) (rd v : Nat),
    s.fetched c w = some t →
    kOp w = some (.alui 7 rd v) →
    let b := s.kBank c
    exec (.andi c w) s = .next (s.resulted c w t rd [rd] ((b.gd rd &&& intWord (sx 6 v)).toInt, 0)))
  ∧ (∀ (c : Core) (w : Word) (s t : State) (rd v : Nat),
    s.fetched c w = some t →
    kOp w = some (.alui 0 rd v) →
    exec (.movi c w) s = .next (s.resulted c w t rd [] (sx 6 v, 0)))
  ∧ (∀ (c : Core) (w : Word) (s t : State) (rd v : Nat),
    s.fetched c w = some t →
    kOp w = some (.imm 0 rd v) →
    exec (.movi c w) s = .next (s.resulted c w t rd [] (sx 16 v, 0)))
  ∧ (∀ (c : Core) (w : Word) (s t : State) (rd v : Nat),
    s.fetched c w = some t →
    kOp w = some (.imm 1 rd v) →
    let b := s.kBank c
    exec (.movhi c w) s = .next (s.resulted c w t rd [rd] ((v * 65536 + b.get rd % 65536 : Nat), 0)))
  ∧ (∀ (c : Core) (w : Word) (s t : State) (rd v : Nat),
    s.fetched c w = some t →
    kOp w = some (.alui 1 rd v) →
    let b := s.kBank c
    exec (.addi c w) s = .next (s.resulted c w t rd [rd] (fitSO 32 b.sat (b.di rd + sx 6 v))))
  ∧ (∀ (c : Core) (w : Word) (s t : State) (rd v : Nat),
    s.fetched c w = some t →
    kOp w = some (.imm 2 rd v) →
    isD rd = true →
    let b := s.kBank c
    exec (.addi c w) s = .next (s.resulted c w t rd [rd] (fitSO 32 b.sat (b.di rd + sx 16 v))))
  ∧ (∀ (c : Core) (w : Word) (s t : State) (rd v : Nat),
    s.fetched c w = some t →
    kOp w = some (.imm 2 rd v) →
    isD rd = false →
    let b := s.kBank c
    exec (.addi c w) s = .next (s.resulted c w t rd [rd] (b.get rd + sx 16 v, 0)))
  ∧ (∀ (c : Core) (w : Word) (s t : State) (rd v : Nat),
    s.fetched c w = some t →
    kOp w = some (.imm 3 rd v) →
    let b := s.kBank c
    exec (.ori c w) s = .next (s.resulted c w t rd [rd] ((b.get rd ||| v : Nat), 0)))
  ∧ (∀ (c : Core) (w : Word) (s t : State) (rd rs : Nat),
    s.fetched c w = some t →
    kOp w = some (.mov rd rs) →
    isD rs = true →
    isAC rd = true →
    let b := s.kBank c
    exec (.mov c w) s = .next (s.resulted c w t rd [rs] (b.di rs * 2 ^ 32, 0)))
  ∧ (∀ (c : Core) (w : Word) (s t : State) (rd rs : Nat),
    s.fetched c w = some t →
    kOp w = some (.mov rd rs) →
    isAC rs = true →
    isD rd = true →
    let b := s.kBank c
    exec (.mov c w) s = .next (s.resulted c w t rd [rs] ((sacValue b.rnd (b.aci rs) 0).1, 0)))
  ∧ (∀ (c : Core) (w : Word) (s t : State) (rd rs : Nat),
    s.fetched c w = some t →
    kOp w = some (.mov rd rs) →
    isAC rd = isAC rs →
    let b := s.kBank c
    exec (.mov c w) s = .next (s.resulted c w t rd [rs] ((b.get rs : Nat), 0)))
  ∧ (∀ (c : Core) (w : Word) (s t : State) (rd ra rb : Nat),
    s.fetched c w = some t →
    kOp w = some (.addr 0 rd ra rb) →
    let b := s.kBank c
    exec (.adda c w) s = .next (s.resulted c w t rd [ra, rb] (((b.get ra + b.get rb : Nat) : Int), 0)))
  ∧ (∀ (c : Core) (w : Word) (s t : State) (rd ra rb : Nat),
    s.fetched c w = some t →
    kOp w = some (.addr 1 rd ra rb) →
    let b := s.kBank c
    exec (.suba c w) s = .next (s.resulted c w t rd [ra, rb] ((b.get ra : Int) - b.get rb, 0)))
  ∧ (∀ (c : Core) (w : Word) (s t : State) (rd ra rb : Nat),
    s.fetched c w = some t →
    kOp w = some (.addr 2 rd ra rb) →
    let b := s.kBank c
    exec (.addaa c w) s = .next (s.resulted c w t rd [ra, rb] (((b.get ra + b.get rb : Nat) : Int), 0)))
  ∧ (∀ (c : Core) (w : Word) (s t : State) (rd ra rb : Nat),
    s.fetched c w = some t →
    kOp w = some (.addr 3 rd ra rb) →
    let b := s.kBank c
    exec (.moda c w) s = .next (s.resulted c w t rd [ra, rb] (((modifyA (b.get ra) (b.gm rb) : Nat) : Int), 0)))

/-- MAC, MSU and MPY add, subtract or load the product of their format, exact in 72 bits, under SAT/OV; ACLR, ACADD, ACSUB, ACNEG and ACSH do what their names say on whole accumulators; SAC brings a shifted accumulator to Q1.31 with one rounding, saturated; LDAC places a word at 2^32; ACRD and ACWR read and replace a part. -/
def Obligations.KamynAccumulators : Prop :=
  (∀ (c : Core) (w : Word) (s t : State) (rd ra rb : Nat) (x : Bool),
    s.fetched c w = some t →
    kOp w = some (.acc 0x0 rd ra rb x) →
    let b := s.kBank c
    exec (.macF c w) s = .next (s.resulted c w t rd [rd, ra, rb] (fitSO 72 (b.sat || x) (b.aci rd + macProduct 0 (b.gd ra) (b.gd rb)))))
  ∧ (∀ (c : Core) (w : Word) (s t : State) (rd ra rb : Nat) (x : Bool),
    s.fetched c w = some t →
    kOp w = some (.acc 0x4 rd ra rb x) →
    let b := s.kBank c
    exec (.msuF c w) s = .next (s.resulted c w t rd [rd, ra, rb] (fitSO 72 (b.sat || x) (b.aci rd - macProduct 0 (b.gd ra) (b.gd rb)))))
  ∧ (∀ (c : Core) (w : Word) (s t : State) (rd ra rb : Nat) (x : Bool),
    s.fetched c w = some t →
    kOp w = some (.acc 0x8 rd ra rb x) →
    let b := s.kBank c
    exec (.mpyF c w) s = .next (s.resulted c w t rd [ra, rb] (macProduct 0 (b.gd ra) (b.gd rb), 0)))
  ∧ (∀ (c : Core) (w : Word) (s t : State) (rd ra rb : Nat) (x : Bool),
    s.fetched c w = some t →
    kOp w = some (.acc 0x1 rd ra rb x) →
    let b := s.kBank c
    exec (.macI c w) s = .next (s.resulted c w t rd [rd, ra, rb] (fitSO 72 (b.sat || x) (b.aci rd + macProduct 1 (b.gd ra) (b.gd rb)))))
  ∧ (∀ (c : Core) (w : Word) (s t : State) (rd ra rb : Nat) (x : Bool),
    s.fetched c w = some t →
    kOp w = some (.acc 0x5 rd ra rb x) →
    let b := s.kBank c
    exec (.msuI c w) s = .next (s.resulted c w t rd [rd, ra, rb] (fitSO 72 (b.sat || x) (b.aci rd - macProduct 1 (b.gd ra) (b.gd rb)))))
  ∧ (∀ (c : Core) (w : Word) (s t : State) (rd ra rb : Nat) (x : Bool),
    s.fetched c w = some t →
    kOp w = some (.acc 0x9 rd ra rb x) →
    let b := s.kBank c
    exec (.mpyI c w) s = .next (s.resulted c w t rd [ra, rb] (macProduct 1 (b.gd ra) (b.gd rb), 0)))
  ∧ (∀ (c : Core) (w : Word) (s t : State) (rd ra rb : Nat) (x : Bool),
    s.fetched c w = some t →
    kOp w = some (.acc 0x2 rd ra rb x) →
    let b := s.kBank c
    exec (.macD c w) s = .next (s.resulted c w t rd [rd, ra, rb] (fitSO 72 (b.sat || x) (b.aci rd + macProduct 2 (b.gd ra) (b.gd rb)))))
  ∧ (∀ (c : Core) (w : Word) (s t : State) (rd ra rb : Nat) (x : Bool),
    s.fetched c w = some t →
    kOp w = some (.acc 0x6 rd ra rb x) →
    let b := s.kBank c
    exec (.msuD c w) s = .next (s.resulted c w t rd [rd, ra, rb] (fitSO 72 (b.sat || x) (b.aci rd - macProduct 2 (b.gd ra) (b.gd rb)))))
  ∧ (∀ (c : Core) (w : Word) (s t : State) (rd ra rb : Nat) (x : Bool),
    s.fetched c w = some t →
    kOp w = some (.acc 0xa rd ra rb x) →
    let b := s.kBank c
    exec (.mpyD c w) s = .next (s.resulted c w t rd [ra, rb] (macProduct 2 (b.gd ra) (b.gd rb), 0)))
  ∧ (∀ (c : Core) (w : Word) (s t : State) (rd ra rb : Nat) (x : Bool),
    s.fetched c w = some t →
    kOp w = some (.acc 0x10 rd ra rb x) →
    exec (.aclr c w) s = .next (s.resulted c w t rd [] (0, 0)))
  ∧ (∀ (c : Core) (w : Word) (s t : State) (rd ra rb : Nat) (x : Bool),
    s.fetched c w = some t →
    kOp w = some (.acc 0x11 rd ra rb x) →
    let b := s.kBank c
    exec (.acadd c w) s = .next (s.resulted c w t rd [ra, rb] (fitSO 72 (b.sat || x) (b.aci ra + b.aci rb))))
  ∧ (∀ (c : Core) (w : Word) (s t : State) (rd ra rb : Nat) (x : Bool),
    s.fetched c w = some t →
    kOp w = some (.acc 0x12 rd ra rb x) →
    let b := s.kBank c
    exec (.acsub c w) s = .next (s.resulted c w t rd [ra, rb] (fitSO 72 (b.sat || x) (b.aci ra - b.aci rb))))
  ∧ (∀ (c : Core) (w : Word) (s t : State) (rd ra rb : Nat) (x : Bool),
    s.fetched c w = some t →
    kOp w = some (.acc 0x13 rd ra rb x) →
    let b := s.kBank c
    exec (.acneg c w) s = .next (s.resulted c w t rd [rb] (fitSO 72 (b.sat || x) (-b.aci rb))))
  ∧ (∀ (c : Core) (w : Word) (s t : State) (rd ra rb : Nat) (x : Bool),
    s.fetched c w = some t →
    kOp w = some (.acc 0x14 rd ra rb x) →
    let b := s.kBank c
    exec (.acsh c w) s = .next (s.resulted c w t rd [rb] (fitSO 72 (b.sat || x) (b.aci rb * 2 ^ (sx 5 ra + 16).toNat / 2 ^ 16))))
  ∧ (∀ (c : Core) (w : Word) (s t : State) (rd ra rb : Nat) (x : Bool),
    s.fetched c w = some t →
    kOp w = some (.acc 0x18 rd ra rb x) →
    let b := s.kBank c
    exec (.sac c w) s = .next (s.resulted c w t rd [ra] (sacValue b.rnd (b.aci ra) (sx 5 rb))))
  ∧ (∀ (c : Core) (w : Word) (s t : State) (rd ra rb : Nat) (x : Bool),
    s.fetched c w = some t →
    kOp w = some (.acc 0x19 rd ra rb x) →
    let b := s.kBank c
    exec (.ldac c w) s = .next (s.resulted c w t rd [ra] (b.di ra * 2 ^ 32, 0)))
  ∧ (∀ (c : Core) (w : Word) (s t : State) (rd ra rb : Nat) (x : Bool),
    s.fetched c w = some t →
    kOp w = some (.acc 0x1A rd ra rb x) →
    let b := s.kBank c
    exec (.acrd c w) s = .next (s.resulted c w t rd [ra] ((accGet (b.gac ra) rb : Nat), 0)))
  ∧ (∀ (c : Core) (w : Word) (s t : State) (rd ra rb : Nat) (x : Bool),
    s.fetched c w = some t →
    kOp w = some (.acc 0x1B rd ra rb x) →
    let b := s.kBank c
    exec (.acwr c w) s = .next (s.resulted c w t rd [rd, ra] ((accSet (b.gac rd) rb (b.gd ra) : Nat), 0)))

/-- On words of the local RAM PIS reads its block of six words, makes the PI step of R135 and writes I and STAT back with the poison of what it read. The transforms write their results with one rounding each, saturated. SINCOS stands at a safe point after iteration 15, DIV, DIVQ and SQRT at half their iterations, with the operands as they were read at the start (R140); going on, SINCOS writes sine and cosine, rounded once and saturated, and the others give the quotients and the root of R138, with DOM where the spec says so. FIRK with N = 0 leaves its accumulator, above 1024 raises DOM; a tap adds twice the product of the coefficient and the sample, the last one writes the accumulator and every other one ends at a safe point. -/
def Obligations.KamynComplex : Prop :=
  (∀ (p : Fin 72) (w : Word) (s t : State) (rd ra rb : Nat) (x : Bool),
    s.fetched (.eng p) w = some t →
    kOp w = some (.cplx 0x00 rd ra rb x) →
    let b := s.kBank (.eng p)
    let a := b.get ra
    b.pois ra = false → a % 4 = 0 → a + 28 ≤ 0x10000 →
    exec (.pis (.eng p) w) s = .next (
      let z := fun i => (t.codeWriteOut p).mword (engPhys p (a + 4 * i))
      let m := b.pois rb || (List.range 6).any (fun i => (t.codeWriteOut p).poisoned (engPhys p (a + 4 * i)))
      let r := pisStep b.rnd (z 0).toInt (z 1).toInt ((z 2).toNat % 16) (z 3).toInt (z 4).toInt (z 5).toInt (b.di rb)
      let u := (t.engStore p (a + 0x14) (natBytes 4 (intWord r.2.1).toNat) [m]).engStore p (a + 0x18) (natBytes 4 r.2.2) [m]
      s.ended (.eng p) w u ((b.raise (if r.2.2 = 0 then 0 else fSV)).putI rd (if isAC rd then r.1 * 2 ^ 32 else r.1) m)))
  ∧ (∀ (c : Core) (w : Word) (s t : State) (rd ra rb : Nat) (x : Bool),
    s.fetched c w = some t →
    kOp w = some (.cplx 0x01 rd ra rb x) →
    let b := s.kBank c
    exec (.xformCl c w) s = .next (let r := (q31 b.rnd ((2 * b.di ra - b.di (ra + 1) - b.di (ra + 2)) * k3), q31 b.rnd ((b.di (ra + 1) - b.di (ra + 2)) * kr))
      s.ended c w t ((b.raise (0 ||| r.1.2 ||| r.2.2)).putAll rd (b.poisAny [ra, ra + 1, ra + 2]) [r.1.1, r.2.1])))
  ∧ (∀ (c : Core) (w : Word) (s t : State) (rd ra rb : Nat) (x : Bool),
    s.fetched c w = some t →
    kOp w = some (.cplx 0x02 rd ra rb x) →
    let b := s.kBank c
    exec (.xformIcl c w) s = .next (let r := (q31 b.rnd (-b.di ra * 2 ^ 30 + b.di (ra + 1) * kh), q31 b.rnd (-b.di ra * 2 ^ 30 - b.di (ra + 1) * kh))
      s.ended c w t ((b.raise (0 ||| 0 ||| r.1.2 ||| r.2.2)).putAll rd (b.poisAny [ra, ra + 1]) [b.di ra, r.1.1, r.2.1])))
  ∧ (∀ (c : Core) (w : Word) (s t : State) (rd ra rb : Nat) (x : Bool),
    s.fetched c w = some t →
    kOp w = some (.cplx 0x03 rd ra rb x) →
    let b := s.kBank c
    exec (.xformPk c w) s = .next (let r := (q31 b.rnd (b.di ra * b.di (rb + 1) + b.di (ra + 1) * b.di rb), q31 b.rnd (-b.di ra * b.di rb + b.di (ra + 1) * b.di (rb + 1)))
      s.ended c w t ((b.raise (0 ||| r.1.2 ||| r.2.2)).putAll rd (b.poisAny [ra, ra + 1, rb, rb + 1]) [r.1.1, r.2.1])))
  ∧ (∀ (c : Core) (w : Word) (s t : State) (rd ra rb : Nat) (x : Bool),
    s.fetched c w = some t →
    kOp w = some (.cplx 0x04 rd ra rb x) →
    let b := s.kBank c
    exec (.xformIpk c w) s = .next (let r := (q31 b.rnd (b.di ra * b.di (rb + 1) - b.di (ra + 1) * b.di rb), q31 b.rnd (b.di ra * b.di rb + b.di (ra + 1) * b.di (rb + 1)))
      s.ended c w t ((b.raise (0 ||| r.1.2 ||| r.2.2)).putAll rd (b.poisAny [ra, ra + 1, rb, rb + 1]) [r.1.1, r.2.1])))
  ∧ (∀ (c : Core) (w : Word) (s t : State) (rd ra rb : Nat) (x : Bool),
    s.fetched c w = some t →
    kOp w = some (.cplx 0x08 rd ra rb x) →
    let b := s.kBank c
    exec (.sincos c w) s = .next (let h := sincosHalf (b.gd ra)
      s.partly c w t (.cordic h.1 h.2.1 h.2.2.1 h.2.2.2 (b.pois ra))))
  ∧ (∀ (c : Core) (w : Word) (s : State) (rd ra rb q : Nat) (vx vy vz : Int) (x m : Bool),
    s.goesOn c (.cordic q vx vy vz m) →
    kOp w = some (.cplx 0x08 rd ra rb x) →
    let b := s.kBank c
    exec (.sincos c w) s = .next (let z := sincosRest q (vx, vy, vz)
      let r := (fitSV 32 (roundShift b.rnd z.1 8), fitSV 32 (roundShift b.rnd z.2 8))
      s.ended c w s ((b.raise (0 ||| r.1.2 ||| r.2.2)).putAll rd m [r.1.1, r.2.1])))
  ∧ (∀ (c : Core) (w : Word) (s t : State) (rd ra rb : Nat) (x : Bool),
    s.fetched c w = some t →
    kOp w = some (.cplx 0x0C rd ra rb x) →
    let b := s.kBank c
    exec (.div c w) s = .next (s.partly c w t (.half (b.gd ra) (b.gd rb) (b.poisAny [ra, rb]))))
  ∧ (∀ (c : Core) (w : Word) (s t : State) (rd ra rb : Nat) (x : Bool),
    s.fetched c w = some t →
    kOp w = some (.cplx 0x0E rd ra rb x) →
    let b := s.kBank c
    exec (.divq c w) s = .next (s.partly c w t (.half (b.gd ra) (b.gd rb) (b.poisAny [ra, rb]))))
  ∧ (∀ (c : Core) (w : Word) (s t : State) (rd ra rb : Nat) (x : Bool),
    s.fetched c w = some t →
    kOp w = some (.cplx 0x10 rd ra rb x) →
    let b := s.kBank c
    exec (.sqrt c w) s = .next (s.partly c w t (.half (b.gd rb) (b.gd rb) (b.poisAny [rb, rb]))))
  ∧ (∀ (c : Core) (w : Word) (s : State) (rd ra rb : Nat) (x m : Bool) (va vb : Word),
    s.goesOn c (.half va vb m) →
    kOp w = some (.cplx 0x0C rd ra rb x) →
    vb.toInt ≠ 0 →
    exec (.div c w) s = .next (let r : Int × Nat := fitSV 32 (Int.tdiv va.toInt vb.toInt)
      s.ended c w s (((s.kBank c).raise (0 ||| r.2)).putAll rd m [r.1])))
  ∧ (∀ (c : Core) (w : Word) (s : State) (rd ra rb : Nat) (x m : Bool) (va vb : Word),
    s.goesOn c (.half va vb m) →
    kOp w = some (.cplx 0x0C rd ra rb x) →
    vb.toInt = 0 →
    exec (.div c w) s = .next (let r : Int × Nat := (if 0 ≤ va.toInt then 2 ^ 31 - 1 else -(2 ^ 31), fDOM)
      s.ended c w s (((s.kBank c).raise (0 ||| r.2)).putAll rd m [r.1])))
  ∧ (∀ (c : Core) (w : Word) (s : State) (rd ra rb : Nat) (x m : Bool) (va vb : Word),
    s.goesOn c (.half va vb m) →
    kOp w = some (.cplx 0x0E rd ra rb x) →
    0 < vb.toInt →
    exec (.divq c w) s = .next (let r : Int × Nat := fitSV 32 (roundDiv (s.kBank c).rnd (va.toInt * 2 ^ 31) vb.toInt)
      s.ended c w s (((s.kBank c).raise (0 ||| r.2)).putAll rd m [r.1])))
  ∧ (∀ (c : Core) (w : Word) (s : State) (rd ra rb : Nat) (x m : Bool) (va vb : Word),
    s.goesOn c (.half va vb m) →
    kOp w = some (.cplx 0x0E rd ra rb x) →
    vb.toInt < 0 →
    exec (.divq c w) s = .next (let r : Int × Nat := fitSV 32 (roundDiv (s.kBank c).rnd (-va.toInt * 2 ^ 31) (-vb.toInt))
      s.ended c w s (((s.kBank c).raise (0 ||| r.2)).putAll rd m [r.1])))
  ∧ (∀ (c : Core) (w : Word) (s : State) (rd ra rb : Nat) (x m : Bool) (va vb : Word),
    s.goesOn c (.half va vb m) →
    kOp w = some (.cplx 0x0E rd ra rb x) →
    vb.toInt = 0 →
    exec (.divq c w) s = .next (let r : Int × Nat := (if 0 ≤ va.toInt then 2 ^ 31 - 1 else -(2 ^ 31), fDOM)
      s.ended c w s (((s.kBank c).raise (0 ||| r.2)).putAll rd m [r.1])))
  ∧ (∀ (c : Core) (w : Word) (s : State) (rd ra rb : Nat) (x m : Bool) (va vb : Word),
    s.goesOn c (.half va vb m) →
    kOp w = some (.cplx 0x10 rd ra rb x) →
    x = true →
    exec (.sqrt c w) s = .next (let r : Int × Nat := ((isqrt64 vb.toNat : Nat), 0)
      s.ended c w s (((s.kBank c).raise (0 ||| r.2)).putAll rd m [r.1])))
  ∧ (∀ (c : Core) (w : Word) (s : State) (rd ra rb : Nat) (x m : Bool) (va vb : Word),
    s.goesOn c (.half va vb m) →
    kOp w = some (.cplx 0x10 rd ra rb x) →
    x = false → vb.toInt < 0 →
    exec (.sqrt c w) s = .next (let r : Int × Nat := (0, fDOM)
      s.ended c w s (((s.kBank c).raise (0 ||| r.2)).putAll rd m [r.1])))
  ∧ (∀ (c : Core) (w : Word) (s : State) (rd ra rb : Nat) (x m : Bool) (va vb : Word),
    s.goesOn c (.half va vb m) →
    kOp w = some (.cplx 0x10 rd ra rb x) →
    x = false → 0 ≤ vb.toInt →
    exec (.sqrt c w) s = .next (let q := isqrt64 (vb.toNat * 2 ^ 31)
      let r : Int × Nat := (if (s.kBank c).rnd ≠ 0 ∧ q * q + q < vb.toNat * 2 ^ 31 then q + 1 else q, 0)
      s.ended c w s (((s.kBank c).raise (0 ||| r.2)).putAll rd m [r.1])))
  ∧ (∀ (p : Fin 72) (w : Word) (s t : State) (rd ra rb : Nat) (x : Bool),
    s.fetched (.eng p) w = some t →
    kOp w = some (.cplx 0x18 rd ra rb x) →
    let b := s.kBank (.eng p)
    let a := b.get ra
    b.poisAny [ra, rb, 24 + (rb - 16) % 4] = false → a % 4 = 0 → a + 8 ≤ 0x10000 →
    ((t.codeWriteOut p).mword (engPhys p (b.get ra))) = 0 →
    exec (.firk (.eng p) w) s = .next (s.ended (.eng p) w t (b.setPois rd (b.pois rd || (t.codeWriteOut p).poisoned (engPhys p a)))))
  ∧ (∀ (p : Fin 72) (w : Word) (s t : State) (rd ra rb : Nat) (x : Bool),
    s.fetched (.eng p) w = some t →
    kOp w = some (.cplx 0x18 rd ra rb x) →
    let b := s.kBank (.eng p)
    let a := b.get ra
    b.poisAny [ra, rb, 24 + (rb - 16) % 4] = false → a % 4 = 0 → a + 8 ≤ 0x10000 →
    1024 < ((t.codeWriteOut p).mword (engPhys p (b.get ra))).toNat →
    exec (.firk (.eng p) w) s = .next (s.ended (.eng p) w t
      ((b.setPois rd (b.pois rd || (t.codeWriteOut p).poisoned (engPhys p a))).raise fDOM)))
  ∧ (∀ (p : Fin 72) (w : Word) (s t : State) (rd ra rb : Nat) (x : Bool),
    s.fetched (.eng p) w = some t →
    kOp w = some (.cplx 0x18 rd ra rb x) →
    let b := s.kBank (.eng p)
    let a := b.get ra
    b.poisAny [ra, rb, 24 + (rb - 16) % 4] = false → a % 4 = 0 → a + 8 ≤ 0x10000 →
    b.get rb % 4 = 0 → b.get rb + 4 ≤ 0x10000 → ((t.codeWriteOut p).mword (engPhys p (b.get ra))) = 1 →
    exec (.firk (.eng p) w) s = .next (
      let v := t.codeWriteOut p
      let r := fitSO 72 b.sat (b.aci rd + 2 * ((v.mword (engPhys p (a + 4))).toInt * (v.mword (engPhys p (b.get rb))).toInt))
      s.ended (.eng p) w t ((b.raise (0 ||| r.2)).putI rd r.1
        (b.pois rd || v.poisoned (engPhys p a) || v.poisoned (engPhys p (a + 4)) || v.poisoned (engPhys p (b.get rb))))))
  ∧ (∀ (p : Fin 72) (w : Word) (s t : State) (rd ra rb : Nat) (x : Bool),
    s.fetched (.eng p) w = some t →
    kOp w = some (.cplx 0x18 rd ra rb x) →
    let b := s.kBank (.eng p)
    let a := b.get ra
    let v := t.codeWriteOut p
    let n := (v.mword (engPhys p a)).toNat
    b.poisAny [ra, rb, 24 + (rb - 16) % 4] = false → a % 4 = 0 → a + 8 ≤ 0x10000 →
    b.get rb % 4 = 0 → b.get rb + 4 ≤ 0x10000 → 1 < n → n ≤ 1024 →
    exec (.firk (.eng p) w) s = .next (
      let r := fitSO 72 b.sat (b.aci rd + 2 * ((v.mword (engPhys p (a + 4))).toInt * (v.mword (engPhys p (b.get rb))).toInt))
      s.partly (.eng p) w t (.taps (n - 1) (a + 8) (modifyA (b.get rb) (b.gm (24 + (rb - 16) % 4))) r.1 (0 ||| r.2)
        (b.pois rd || v.poisoned (engPhys p a) || v.poisoned (engPhys p (a + 4)) || v.poisoned (engPhys p (b.get rb))))))
  ∧ (∀ (p : Fin 72) (w : Word) (s : State) (rd ra rb n ca sa fl : Nat) (acc : Int) (x m : Bool),
    s.goesOn (.eng p) (.taps n ca sa acc fl m) →
    kOp w = some (.cplx 0x18 rd ra rb x) →
    let b := s.kBank (.eng p)
    let v := s.codeWriteOut p
    ca % 4 = 0 → ca + 4 ≤ 0x10000 → sa % 4 = 0 → sa + 4 ≤ 0x10000 →
    exec (.firk (.eng p) w) s = .next (
      let r := fitSO 72 b.sat (acc + 2 * ((v.mword (engPhys p ca)).toInt * (v.mword (engPhys p sa)).toInt))
      let m := m || v.poisoned (engPhys p ca) || v.poisoned (engPhys p sa)
      if n ≤ 1 then s.ended (.eng p) w s ((b.raise (fl ||| r.2)).putI rd r.1 m)
      else s.partly (.eng p) w s (.taps (n - 1) (ca + 4) (modifyA sa (b.gm (24 + (rb - 16) % 4))) r.1 (fl ||| r.2) m)))

/-- NOP ends with nothing changed. A taken branch, call or return to a target that is even and holds code lands there: an engine writes its code-store buffer out first, one line of code RAM a fc with a safe point before the next line, the Shepherd enters the branch in its BTB; CALL and CALLR put the address after them in A7. BG branches when its guard register has the sense asked for, BDEC decrements and branches while the result is not zero; not taken they end. A 32-bit instruction whose guard does not hold ends without an effect, one whose guard is poisoned is fault POISON (R104); a taken branch to an odd target is fault ALIGN. ISYNC writes the code-store buffer out, line by line too; on the Shepherd it waits at a safe point until no store is buffered. WAIT writes the buffer out and ends the activation of an engine and puts the Shepherd to sleep (R131). -/
def Obligations.KamynControlFlow : Prop :=
  (∀ (c : Core) (w : Word) (s t : State),
    s.fetched c w = some t →
    kOp w = some (.nop) →
    let b := s.kBank c
    exec (.nop c w) s = .next (s.ended c w t b))
  ∧ (∀ (c : Core) (w : Word) (s t : State) (off : Int),
    s.fetched c w = some t →
    kOp w = some (.bra off) →
    let b := s.kBank c
    landsOn c (addrAdd b.pc.toNat off) = true →
    exec (.bra c w) s = .next (s.landed c t b (addrAdd b.pc.toNat off)))
  ∧ (∀ (c : Core) (w : Word) (s t : State) (neg : Bool) (g : Nat) (off : Int),
    s.fetched c w = some t →
    kOp w = some (.bg neg g off) →
    let b := s.kBank c
    b.pois g = false →
    (b.gd g != 0) = !neg →
    landsOn c (addrAdd b.pc.toNat off) = true →
    exec (.bg c w) s = .next (s.landed c t b (addrAdd b.pc.toNat off)))
  ∧ (∀ (c : Core) (w : Word) (s t : State) (neg : Bool) (g : Nat) (off : Int),
    s.fetched c w = some t →
    kOp w = some (.bg neg g off) →
    let b := s.kBank c
    b.pois g = false →
    (b.gd g != 0) = neg →
    exec (.bg c w) s = .next (s.ended c w t b))
  ∧ (∀ (c : Core) (w : Word) (s t : State) (dn : Nat) (off : Int),
    s.fetched c w = some t →
    kOp w = some (.bdec dn off) →
    let b := s.kBank c
    b.pois dn = false →
    b.gd dn ≠ 1 →
    landsOn c (addrAdd b.pc.toNat off) = true →
    exec (.bdec c w) s = .next (s.landed c t (b.put dn (b.gd dn - 1).toNat false) (addrAdd b.pc.toNat off)))
  ∧ (∀ (c : Core) (w : Word) (s t : State) (dn : Nat) (off : Int),
    s.fetched c w = some t →
    kOp w = some (.bdec dn off) →
    let b := s.kBank c
    b.pois dn = false →
    b.gd dn = 1 →
    exec (.bdec c w) s = .next (s.ended c w t (b.put dn 0 false)))
  ∧ (∀ (c : Core) (w : Word) (s t : State) (off : Int),
    s.fetched c w = some t →
    kOp w = some (.br off) →
    let b := s.kBank c
    landsOn c (addrAdd b.pc.toNat off) = true →
    exec (.br c w) s = .next (s.landed c t b (addrAdd b.pc.toNat off)))
  ∧ (∀ (c : Core) (w : Word) (s t : State) (off : Int),
    s.fetched c w = some t →
    kOp w = some (.call off) →
    let b := s.kBank c
    landsOn c (addrAdd b.pc.toNat off) = true →
    exec (.call c w) s = .next (s.landed c t (b.put 23 ((b.pc.toNat + 4) % 2 ^ 24) false) (addrAdd b.pc.toNat off)))
  ∧ (∀ (c : Core) (w : Word) (s t : State) (an : Nat),
    s.fetched c w = some t →
    kOp w = some (.jr an) →
    let b := s.kBank c
    b.pois an = false →
    landsOn c (b.get an) = true →
    exec (.jr c w) s = .next (s.landed c t b (b.get an)))
  ∧ (∀ (c : Core) (w : Word) (s t : State) (an : Nat),
    s.fetched c w = some t →
    kOp w = some (.callr an) →
    let b := s.kBank c
    b.pois an = false →
    landsOn c (b.get an) = true →
    exec (.callr c w) s = .next (s.landed c t (b.put 23 ((b.pc.toNat + 4) % 2 ^ 24) false) (b.get an)))
  ∧ (∀ (c : Core) (w : Word) (s t : State),
    s.fetched c w = some t →
    kOp w = some (.ret) →
    let b := s.kBank c
    b.pois 23 = false →
    landsOn c (b.get 23) = true →
    exec (.ret c w) s = .next (s.landed c t b (b.get 23)))
  ∧ (∀ (p : Fin 72) (w : Word) (s t : State),
    s.fetched (.eng p) w = some t →
    kOp w = some (.isync) →
    let b := s.kBank (.eng p)
    exec (.isync (.eng p) w) s = .next (if (t.codeStep p).1 then s.held (.eng p) w (t.codeStep p).2 b
      else s.ended (.eng p) w (t.codeStep p).2 b))
  ∧ (∀  (w : Word) (s t : State),
    s.fetched (.shep) w = some t →
    kOp w = some (.isync) →
    let b := s.kBank (.shep)
    exec (.isync (.shep) w) s = .next (if t.sh.stores = [] then s.ended .shep w t b else s.held .shep w t b))
  ∧ (∀ (p : Fin 72) (w : Word) (s t : State),
    s.fetched (.eng p) w = some t →
    kOp w = some (.wait) →
    let b := s.kBank (.eng p)
    exec (.wait (.eng p) w) s = .next (
      let u := (t.codeStep p).2
      if (t.codeStep p).1 then s.held (.eng p) w u b
      else State.stepped (State.setDist ((u.setBank p (u.runBank p) (Bank.modeEnd { b with pc := .ofNat 24 (b.pc.toNat + 2) })).endActivation p
        ((u.running p).getD 0)) p 0) p))
  ∧ (∀  (w : Word) (s t : State),
    s.fetched (.shep) w = some t →
    kOp w = some (.wait) →
    let b := s.kBank (.shep)
    exec (.wait (.shep) w) s = .next (
      let x := Bank.modeTick { b with pc := .ofNat 24 (b.pc.toNat + 2) }
      State.setFlag { t.setShBank { x with micro := b.micro.ended } with sh.outerSleep := t.sh.outerSleep || t.shOuter } SH_STAT fSH_STAT_SLEEP true))
  ∧ (∀ (p : Fin 72) (w : Word) (s : State) (an : Nat),
    s.fetched (.eng p) w = some s →
    kOp w = some (.jr an) →
    (s.kBank (.eng p)).pois an = false →
    (s.kBank (.eng p)).get an % 2 = 1 →
    exec (.jr (.eng p) w) s = .next (s.engineFault p 5 ((s.kBank (.eng p)).get an)))
  ∧ (∀ (c : Core) (w : Word) (s t : State) (rd ra rb : Nat) (x : Bool),
    s.issued c w = some t →
    kOp w = some (.alu 0x00 rd ra rb x) →
    (s.kBank c).guardPois (kGuard w) = false →
    (s.kBank c).guardHolds (kGuard w) = false →
    exec (.add c w) s = .next (s.ended c w t (s.kBank c)))
  ∧ (∀ (p : Fin 72) (w : Word) (s t : State) (rd ra rb : Nat) (x : Bool),
    s.issued (.eng p) w = some t →
    kOp w = some (.alu 0x00 rd ra rb x) →
    (s.kBank (.eng p)).guardPois (kGuard w) = true →
    exec (.add (.eng p) w) s = .next (t.tookFree.engineFault p 1 (t.freeVal.toNat % 2 ^ 24)))

/-- SIGNAL of an engine raises its event EV(67 + 4p) with the value and CODE, slot and logical number, past its Hurdle; of the Shepherd EV48 or EV49. BRK is a NOP while DB_POLICY.EBRK = 0, with 1 it raises EV960, with 2 the engine also halts after it. STAMP reads Tally, the trigger stamp or an apply-time into a pair. MODE writes the flags at once and RND, SAT for the third instruction after it, RDMODE reads them. RANK hands the descriptor in shared RAM to the Rank unit of the cluster, behind those of earlier fc and of lower engines of the same fc; it waits at a safe point while a request of the engine is outstanding. UCALL of a routine whose first word, in WCS, only dispatches (SEQ = 9, every other field zero) ends with the micro state idle and every other register as it was; the word counts in the WCS distance (R184). An instruction with a patched ROM word, here SIGNAL of a register, is carried out by its routine from its entry on (R186). -/
def Obligations.KamynSystemGroup : Prop :=
  (∀ (p : Fin 72) (w : Word) (s t : State) (v : Nat),
    s.fetched (.eng p) w = some t →
    kOp w = some (.signal none v) →
    let b := s.kBank (.eng p)
    t.underTest 0 p = false →
    t.hurdleDrops 0 p = false →
    exec (.signal (.eng p) w) s = .next (s.ended (.eng p) w (t.raise (67 + 4 * p) 0 (v + (t.running p).getD 0 * 256 + t.leLogical p * 65536)) b))
  ∧ (∀ (p : Fin 72) (w : Word) (s t : State) (d v : Nat),
    s.fetched (.eng p) w = some t →
    kOp w = some (.signal (some d) v) →
    let b := s.kBank (.eng p)
    t.underTest 0 p = false →
    t.hurdleDrops 0 p = false →
    exec (.signal (.eng p) w) s = .next (s.ended (.eng p) w (t.raise (67 + 4 * p) (b.gd d).toNat (v + (t.running p).getD 0 * 256 + t.leLogical p * 65536)) b))
  ∧ (∀  (w : Word) (s t : State) (v : Nat),
    s.fetched (.shep) w = some t →
    kOp w = some (.signal none v) →
    let b := s.kBank (.shep)
    exec (.signal (.shep) w) s = .next (s.ended .shep w (t.raise (if t.shOuter then 49 else 48) 0 v) b))
  ∧ (∀ (c : Core) (w : Word) (s t : State),
    s.fetched c w = some t →
    kOp w = some (.brk) →
    let b := s.kBank c
    t.fld DB_POLICY fDB_POLICY_EBRK = 0 →
    exec (.brk c w) s = .next (s.ended c w t b))
  ∧ (∀ (p : Fin 72) (w : Word) (s t : State),
    s.fetched (.eng p) w = some t →
    kOp w = some (.brk) →
    let b := s.kBank (.eng p)
    t.fld DB_POLICY fDB_POLICY_EBRK = 1 →
    exec (.brk (.eng p) w) s = .next (s.ended (.eng p) w (t.raise 960 (1 + p * 256) b.pc.toNat) b))
  ∧ (∀ (p : Fin 72) (w : Word) (s t : State),
    s.fetched (.eng p) w = some t →
    kOp w = some (.brk) →
    let b := s.kBank (.eng p)
    t.fld DB_POLICY fDB_POLICY_EBRK = 2 →
    exec (.brk (.eng p) w) s = .next (let u := t.raise 960 (1 + p * 256) b.pc.toNat
      s.ended (.eng p) w (u.setEng p { u.eng p with haltReq := true }) b))
  ∧ (∀ (c : Core) (w : Word) (s t : State) (dr k : Nat),
    s.fetched c w = some t →
    kOp w = some (.stamp dr 0 k) →
    let b := s.kBank c
    exec (.stamp c w) s = .next (s.ended c w t ((b.put dr (lo32 t.now) false).put (dr + 1) (hi32 t.now) false)))
  ∧ (∀ (p : Fin 72) (w : Word) (s t : State) (dr k : Nat),
    s.fetched (.eng p) w = some t →
    kOp w = some (.stamp dr 1 k) →
    let b := s.kBank (.eng p)
    exec (.stamp (.eng p) w) s = .next (let z := t.reg64 (LE_TRIG_STAMP_LO p ((t.running p).getD 0)) (LE_TRIG_STAMP_HI p ((t.running p).getD 0))
      s.ended (.eng p) w t ((b.put dr (lo32 z) false).put (dr + 1) (hi32 z) false)))
  ∧ (∀ (c : Core) (w : Word) (s t : State) (dr k : Nat),
    s.fetched c w = some t →
    kOp w = some (.stamp dr 2 k) →
    let b := s.kBank c
    exec (.stamp c w) s = .next (let z := t.reg64 (TL_BTIME_LO k) (TL_BTIME_HI k)
      s.ended c w t ((b.put dr (lo32 z) false).put (dr + 1) (hi32 z) false)))
  ∧ (∀ (c : Core) (w : Word) (s t : State) (ds : Nat),
    s.fetched c w = some t →
    kOp w = some (.mode ds) →
    let b := s.kBank c
    b.pois ds = false →
    bitsOf (b.gd ds).toNat 13 19 = 0 →
    bitsOf (b.gd ds).toNat 3 5 = 0 →
    exec (.mode c w) s = .next (s.ended c w t { b with mode := .ofNat 32 (withBits b.mode.toNat 8 5 (bitsOf (b.gd ds).toNat 8 5)), modeWait := b.modeWait ++
      [(3, .ofNat 32 (if bitsOf (b.gd ds).toNat 0 2 = 3 then bitsOf (b.gd ds).toNat 2 1 * 4 + 2 else bitsOf (b.gd ds).toNat 0 3))] }))
  ∧ (∀ (c : Core) (w : Word) (s t : State) (dr : Nat),
    s.fetched c w = some t →
    kOp w = some (.rdmode dr) →
    let b := s.kBank c
    b.modeWait = [] →
    exec (.rdmode c w) s = .next (s.ended c w t (b.put dr b.mode.toNat false)))
  ∧ (∀ (p : Fin 72) (w : Word) (s t : State) (an : Nat),
    s.fetched (.eng p) w = some t →
    kOp w = some (.rank an) →
    let b := s.kBank (.eng p)
    b.pois an = false →
    engRegion (b.get an) = .shared →
    b.get an % 16 = 0 →
    (t.eng p).rankOut = false →
    t.underTest 0 p = false →
    t.hurdleDrops 0 p = false →
    exec (.rank (.eng p) w) s = .next (
      let r : RankReq := { eng := p, desc := b.get an - 0x80000, flock := t.leFlock p, inc := t.flockInc (t.leFlock p), fc := t.fc }
      let q := tget (fun _ => []) t.ranks (p / 9)
      s.ended (.eng p) w (State.setEng { t with ranks := tset (fun _ => []) t.ranks (p / 9) (rankQueue r q) } p { t.eng p with rankOut := true }) b))
  ∧ (∀ (p : Fin 72) (w : Word) (s t : State) (an : Nat),
    s.fetched (.eng p) w = some t →
    kOp w = some (.rank an) →
    let b := s.kBank (.eng p)
    b.pois an = false →
    engRegion (b.get an) = .shared →
    b.get an % 16 = 0 →
    (t.eng p).rankOut = true →
    exec (.rank (.eng p) w) s = .next (t.kRest ⟨.eng p, t, b, b.pc.toNat, kLen w⟩ b true true none (some 0x520)))
  ∧ (∀ (p : Fin 72) (w : Word) (s t : State) (entry rx : Nat),
    s.fetched (.eng p) w = some t →
    kOp w = some (.ucall entry rx) →
    isWcs (0x1800 + entry) = true →
    t.csWord p (0x1800 + entry) = withParity 9 →
    let u := if t.fld (CS_DIST_MAX p) fCS_DIST_MAX_MAX < 1 then (t.setDist p 0).setNat (CS_DIST_MAX p) 1 else t.setDist p 0
    ∃ v, exec (.ucall (.eng p) w) s = .next (s.ended (.eng p) w { u.setDist p 1 with free := t.free + 16 }
      { s.kBank (.eng p) with micro := { (s.kBank (.eng p)).micro.ended with prev := v, word := w, ucaller := (s.kBank (.eng p)).pc } }))
  ∧ (∀ (p : Fin 72) (w : Word) (s t : State) (d v ua : Nat),
    s.issued (.eng p) w = some t →
    kOp w = some (.signal (some d) v) →
    (s.kBank (.eng p)).guardPois (kGuard w) = false →
    (s.kBank (.eng p)).guardHolds (kGuard w) = true →
    t.patchedEntry p (.signal (some d) v) (!kWide w) = some ua →
    exec (.signal (.eng p) w) s = .next (
      let k : K := ⟨.eng p, t, s.kBank (.eng p), (s.kBank (.eng p)).pc.toNat, kLen w⟩
      k.finish (k.startMicro p w ua)))

/-- An aligned load of an engine from its local RAM or the shared RAM of its cluster takes the little-endian bytes, of the shared RAM those that earlier fc and its own lane left (R68), zero-extended, sign-extended for a halfword, a pair of registers for a doubleword, with the poison of the words read; then the address register is modified. An aligned store puts the low bytes of its register or pair at the address, with their poison, while no Drove mirrors the engine; a store into the loop buffer or the code RAM waits in the code-store buffer (R112); one to the unit-register window is posted on the path with the incarnation of the flock (R75), one to system memory enters the store buffer (R66), a load from either waits for its response. A misaligned access is fault ALIGN at its address. -/
def Obligations.KamynLoadsAndStores : Prop :=
  (∀ (p : Fin 72) (w : Word) (s t : State) (rd wd an : Nat) (off : Int) (post : KPost),
    s.fetched (.eng p) w = some t →
    kOp w = some (.mem false false rd wd an off post) →
    let b := s.kBank (.eng p)
    let a := addrAdd (b.get an) off
    let z := (t.codeWriteOut p).seenAt (p % 9) (engPhys p a)
    let m0 := z.poisoned (engPhys p a)
    b.poisAny (post.uses an) = false →
    (engRegion a = .localRam ∨ engRegion a = .shared) →
    wd = 0 →
    exec (.ld (.eng p) w) s = .next (s.ended (.eng p) w t ((b.put rd ((z.bytesNat (engPhys p a) 1) % 256) m0).putPost an (post.after b an))))
  ∧ (∀ (p : Fin 72) (w : Word) (s t : State) (rd wd an : Nat) (off : Int) (post : KPost),
    s.fetched (.eng p) w = some t →
    kOp w = some (.mem false false rd wd an off post) →
    let b := s.kBank (.eng p)
    let a := addrAdd (b.get an) off
    let z := (t.codeWriteOut p).seenAt (p % 9) (engPhys p a)
    let m0 := z.poisoned (engPhys p a)
    b.poisAny (post.uses an) = false →
    (engRegion a = .localRam ∨ engRegion a = .shared) →
    wd = 1 →
    a % 2 = 0 →
    exec (.ld (.eng p) w) s = .next (s.ended (.eng p) w t ((b.putI rd (sx 16 ((z.bytesNat (engPhys p a) 2) % 65536)) m0).putPost an (post.after b an))))
  ∧ (∀ (p : Fin 72) (w : Word) (s t : State) (rd wd an : Nat) (off : Int) (post : KPost),
    s.fetched (.eng p) w = some t →
    kOp w = some (.mem false false rd wd an off post) →
    let b := s.kBank (.eng p)
    let a := addrAdd (b.get an) off
    let z := (t.codeWriteOut p).seenAt (p % 9) (engPhys p a)
    let m0 := z.poisoned (engPhys p a)
    b.poisAny (post.uses an) = false →
    (engRegion a = .localRam ∨ engRegion a = .shared) →
    wd = 2 →
    a % 4 = 0 →
    exec (.ld (.eng p) w) s = .next (s.ended (.eng p) w t ((b.put rd ((z.bytesNat (engPhys p a) 4) % 2 ^ 32) m0).putPost an (post.after b an))))
  ∧ (∀ (p : Fin 72) (w : Word) (s t : State) (rd wd an : Nat) (off : Int) (post : KPost),
    s.fetched (.eng p) w = some t →
    kOp w = some (.mem false false rd wd an off post) →
    let b := s.kBank (.eng p)
    let a := addrAdd (b.get an) off
    let z := (t.codeWriteOut p).seenAt (p % 9) (engPhys p a)
    let m0 := z.poisoned (engPhys p a)
    let m1 := z.poisoned (engPhys p a + 4)
    b.poisAny (post.uses an) = false →
    (engRegion a = .localRam ∨ engRegion a = .shared) →
    wd = 3 →
    a % 8 = 0 →
    exec (.ld (.eng p) w) s = .next (s.ended (.eng p) w t (((b.put rd ((z.bytesNat (engPhys p a) 8) % 2 ^ 32) m0).put (rd + 1) ((z.bytesNat (engPhys p a) 8) / 2 ^ 32) m1).putPost an (post.after b an))))
  ∧ (∀ (p : Fin 72) (w : Word) (s t : State) (rd wd an : Nat) (off : Int) (post : KPost),
    s.fetched (.eng p) w = some t →
    kOp w = some (.mem false true rd wd an off post) →
    let b := s.kBank (.eng p)
    let a := addrAdd (b.get an) off
    let z := (t.codeWriteOut p).seenAt (p % 9) (engPhys p a)
    let m0 := z.poisoned (engPhys p a)
    let m1 := z.poisoned (engPhys p a + 4)
    b.poisAny (post.uses an) = false →
    (engRegion a = .localRam ∨ engRegion a = .shared) →
    a % 2 ^ wd = 0 →
    exec (.ldPostModify (.eng p) w) s = .next (s.ended (.eng p) w t ((b.loadReg rd wd (z.bytesNat (engPhys p a) (2 ^ wd)) m0 m1).putPost an (post.after b an))))
  ∧ (∀ (p : Fin 72) (w : Word) (s t : State) (rd wd an : Nat) (off : Int) (post : KPost),
    s.fetched (.eng p) w = some t →
    kOp w = some (.mem true false rd wd an off post) →
    let b := s.kBank (.eng p)
    let a := addrAdd (b.get an) off
    let v := if wd = 3 then (b.gd rd).toNat + (b.gd (rd + 1)).toNat * 2 ^ 32 else b.get rd % 2 ^ (8 * 2 ^ wd)
    let ms := if wd = 3 then [b.pois rd, b.pois (rd + 1)] else [b.pois rd]
    b.poisAny (post.uses an) = false →
    (engRegion a = .localRam ∨ engRegion a = .shared) →
    a % 2 ^ wd = 0 →
    t.mirrorOf p = none →
    exec (.st (.eng p) w) s = .next (s.ended (.eng p) w (t.storeAt (p % 9) (engPhys p a) (natBytes (2 ^ wd) v) ms) (b.putPost an (post.after b an))))
  ∧ (∀ (p : Fin 72) (w : Word) (s t : State) (rd wd an : Nat) (off : Int) (post : KPost),
    s.fetched (.eng p) w = some t →
    kOp w = some (.mem true true rd wd an off post) →
    let b := s.kBank (.eng p)
    let a := addrAdd (b.get an) off
    let v := if wd = 3 then (b.gd rd).toNat + (b.gd (rd + 1)).toNat * 2 ^ 32 else b.get rd % 2 ^ (8 * 2 ^ wd)
    let ms := if wd = 3 then [b.pois rd, b.pois (rd + 1)] else [b.pois rd]
    b.poisAny (post.uses an) = false →
    (engRegion a = .localRam ∨ engRegion a = .shared) →
    a % 2 ^ wd = 0 →
    t.mirrorOf p = none →
    exec (.stPostModify (.eng p) w) s = .next (s.ended (.eng p) w (t.storeAt (p % 9) (engPhys p a) (natBytes (2 ^ wd) v) ms) (b.putPost an (post.after b an))))
  ∧ (∀ (p : Fin 72) (w : Word) (s t : State) (rd wd an : Nat) (off : Int) (post : KPost),
    s.fetched (.eng p) w = some t →
    kOp w = some (.mem true false rd wd an off post) →
    let b := s.kBank (.eng p)
    let a := addrAdd (b.get an) off
    let v := if wd = 3 then (b.gd rd).toNat + (b.gd (rd + 1)).toNat * 2 ^ 32 else b.get rd % 2 ^ (8 * 2 ^ wd)
    let ms := if wd = 3 then [b.pois rd, b.pois (rd + 1)] else [b.pois rd]
    b.poisAny (post.uses an) = false →
    (engRegion a = .loopBuf ∨ engRegion a = .code) →
    a % 2 ^ wd = 0 →
    (t.eng p).codeBuf.length < 16 →
    exec (.st (.eng p) w) s = .next (s.ended (.eng p) w (t.setEng p { t.eng p with codeBuf := (t.eng p).codeBuf ++ [(a, natBytes (2 ^ wd) v, ms)] })
      (b.putPost an (post.after b an))))
  ∧ (∀ (p : Fin 72) (w : Word) (s t : State) (rd wd an : Nat) (off : Int) (post : KPost),
    s.fetched (.eng p) w = some t →
    kOp w = some (.mem true false rd wd an off post) →
    let b := s.kBank (.eng p)
    let a := addrAdd (b.get an) off
    b.poisAny (post.uses an) = false →
    engRegion a = .window →
    wd = 2 →
    a % 4 = 0 →
    b.pois rd = false →
    t.underTest 0 p = false →
    t.hurdleDrops 0 p = false →
    exec (.st (.eng p) w) s = .next (s.ended (.eng p) w (t.setEng p { t.eng p with path := (t.eng p).path ++ [{ data := .ofNat 32 (b.get rd % 2 ^ 32), flock := t.leFlock p, inc := t.flockInc (t.leFlock p), eaddr := .ofNat 24 a, slot := (t.running p).getD 0, pc := .ofNat 24 b.pc.toNat }] })
      (b.putPost an (post.after b an))))
  ∧ (∀ (p : Fin 72) (w : Word) (s t : State) (rd wd an : Nat) (off : Int) (post : KPost),
    s.fetched (.eng p) w = some t →
    kOp w = some (.mem true false rd wd an off post) →
    let b := s.kBank (.eng p)
    let a := addrAdd (b.get an) off
    let v := if wd = 3 then (b.gd rd).toNat + (b.gd (rd + 1)).toNat * 2 ^ 32 else b.get rd % 2 ^ (8 * 2 ^ wd)
    let ms := if wd = 3 then [b.pois rd, b.pois (rd + 1)] else [b.pois rd]
    b.poisAny (post.uses an) = false →
    engRegion a = .sys →
    a % 2 ^ wd = 0 →
    ms.any id = false →
    (t.eng p).stores.length < 8 →
    t.underTest 0 p = false →
    t.hurdleDrops 0 p = false →
    exec (.st (.eng p) w) s = .next (s.ended (.eng p) w (t.setEng p { t.eng p with stores := (t.eng p).stores ++ [{ addr := t.bmpAddr p a, eaddr := .ofNat 24 a, bytes := natBytes (2 ^ wd) v, slot := (t.running p).getD 0, pc := .ofNat 24 b.pc.toNat, stamp := t.now }] })
      (b.putPost an (post.after b an))))
  ∧ (∀ (p : Fin 72) (w : Word) (s t : State) (rd wd an : Nat) (off : Int) (post : KPost),
    s.fetched (.eng p) w = some t →
    kOp w = some (.mem false false rd wd an off post) →
    let b := s.kBank (.eng p)
    let a := addrAdd (b.get an) off
    b.poisAny (post.uses an) = false →
    engRegion a = .sys →
    a % 2 ^ wd = 0 →
    exec (.ld (.eng p) w) s = .next (s.held (.eng p) w t { b with wait := some { kind := 1, addr := .ofNat 24 a, width := 2 ^ wd, dst := rd, target := t.bmpAddr p a, post := (post.after b an).map (fun v => (an, .ofNat 24 v, false)), pc := .ofNat 24 b.pc.toNat, nextPc := .ofNat 24 (b.pc.toNat + kLen w) } }))
  ∧ (∀ (p : Fin 72) (w : Word) (s t : State) (rd wd an : Nat) (off : Int) (post : KPost),
    s.fetched (.eng p) w = some t →
    kOp w = some (.mem false false rd wd an off post) →
    let b := s.kBank (.eng p)
    let a := addrAdd (b.get an) off
    b.poisAny (post.uses an) = false →
    (engRegion a = .localRam ∨ engRegion a = .shared) →
    a % 2 ^ wd ≠ 0 →
    exec (.ld (.eng p) w) s = .next (t.engineFault p 5 a))

/-- An aligned word load or store of the Shepherd in TCM that the MPU allows and no data watch hits takes effect there. MPUR and MPUW read and write a word of an MPU region of the current world, SYSR and SYSW a system register, WORLD changes world and level, GATE builds its frame of four words below the stack and enters the handler in the world and level of its descriptor, RETX pops the frame of a gate on the base bank and returns from an exception on the others. MPUW without supervisor level is fault PRIV; a GATE without a valid descriptor is fault GATE. -/
def Obligations.ShepherdInstructions : Prop :=
  (∀ (w : Word) (s t : State) (rd an : Nat) (off : Int),
    s.fetched .shep w = some t →
    kOp w = some (.mem false false rd 2 an off .keep) →
    let b := s.kBank .shep
    let a := addrAdd (b.get an) off
    b.pois an = false →
    a + 4 ≤ 0x100000 →
    a % 4 = 0 →
    t.mpuOk t.shOuter t.shSup a 4 .read = true →
    t.watch a 4 false (t.bytesNat (tcmBase + a) 4) = (false, t) →
    exec (.ld .shep w) s = .next (s.ended .shep w t (b.put rd (t.bytesNat (tcmBase + a) 4 % 2 ^ 32) (t.poisoned (tcmBase + a)))))
  ∧ (∀ (w : Word) (s t : State) (rd an : Nat) (off : Int),
    s.fetched .shep w = some t →
    kOp w = some (.mem true false rd 2 an off .keep) →
    let b := s.kBank .shep
    let a := addrAdd (b.get an) off
    b.pois an = false →
    a + 4 ≤ 0x100000 →
    a % 4 = 0 →
    t.mpuOk t.shOuter t.shSup a 4 .write = true →
    t.watch a 4 true (b.get rd % 2 ^ 32) = (false, t) →
    exec (.st .shep w) s = .next (s.ended .shep w (t.storeBytes (tcmBase + a) (natBytes 4 (b.get rd % 2 ^ 32)) [b.pois rd]) b))
  ∧ (∀ (w : Word) (s t : State) (hi : Nat),
    s.fetched .shep w = some t →
    kOp w = some (.sup 2 hi) →
    let b := s.kBank .shep
    t.shSup = true →
    exec (.mpur .shep w) s = .next (s.ended .shep w t (b.put (bitsOf hi 12 4) (t.nat (t.mpuOff (bitsOf hi 8 4) (bitsOf hi 6 2))) false)))
  ∧ (∀ (w : Word) (s t : State) (hi : Nat),
    s.fetched .shep w = some t →
    kOp w = some (.sup 3 hi) →
    let b := s.kBank .shep
    t.shSup = true →
    b.pois (bitsOf hi 12 4) = false →
    exec (.mpuw .shep w) s = .next (s.ended .shep w (t.setNat (t.mpuOff (bitsOf hi 8 4) (bitsOf hi 6 2)) ((b.gd (bitsOf hi 12 4)).toNat &&& mpuMask (bitsOf hi 6 2))) b))
  ∧ (∀ (w : Word) (s t : State) (hi : Nat),
    s.fetched .shep w = some t →
    kOp w = some (.sup 3 hi) →
    t.shSup = false →
    exec (.mpuw .shep w) s = .next (t.tookFree.shFaulted 7 (t.freeVal.toNat % 2 ^ 24)))
  ∧ (∀ (w : Word) (s t : State) (hi : Nat) (v : Nat),
    s.fetched .shep w = some t →
    kOp w = some (.sup 4 hi) →
    let b := s.kBank .shep
    t.sysReg (bitsOf hi 0 12) = some v →
    t.sysDenied (bitsOf hi 0 12) false = false →
    exec (.sysr .shep w) s = .next (s.ended .shep w t (b.put (bitsOf hi 12 4) v false)))
  ∧ (∀ (w : Word) (s t : State) (hi : Nat),
    s.fetched .shep w = some t →
    kOp w = some (.sup 5 hi) →
    let b := s.kBank .shep
    (t.sysReg (bitsOf hi 0 12)).isSome = true →
    t.sysDenied (bitsOf hi 0 12) true = false →
    b.pois (bitsOf hi 12 4) = false →
    exec (.sysw .shep w) s = .next (s.ended .shep w (t.sysWriteReg (bitsOf hi 0 12) (b.gd (bitsOf hi 12 4))) b))
  ∧ (∀ (w : Word) (s t : State) (hi : Nat),
    s.fetched .shep w = some t →
    kOp w = some (.sup 6 hi) →
    let b := s.kBank .shep
    t.shSup = true →
    t.shOuter = false →
    2 ≤ hi / 2 ^ 14 →
    t.flag SH_CTRL fSH_CTRL_OENA = true →
    exec (.world .shep w) s = .next (s.ended .shep w (t.setContext true (hi / 2 ^ 14 % 2 == 0)) b))
  ∧ (∀ (w : Word) (s t : State) (hi : Nat),
    s.fetched .shep w = some t →
    kOp w = some (.sup 6 hi) →
    let b := s.kBank .shep
    t.shSup = true →
    hi / 2 ^ 14 = 3 →
    t.shOuter = true →
    exec (.world .shep w) s = .next (s.ended .shep w (t.setContext true false) b))
  ∧ (∀ (w : Word) (s t : State) (hi : Nat) (d : Desc) (outer : Bool),
    s.fetched .shep w = some t →
    kOp w = some (.sup 0 hi) →
    let b := s.kBank .shep
    let a := (b.get 22 + 2 ^ 24 - 16) % 2 ^ 24
    t.gateDesc (hi / 256) = some (d, outer) →
    d.stack = 0 →
    (t.shSup = false ∨ d.sup = true) →
    b.poisAny (gateUses d) = false →
    (b.gd 7).toNat = bitsOf d.w3 20 3 →
    (firstIdx (t.badPointer b d) 4).isSome = false →
    a + 16 ≤ 0x100000 →
    a % 4 = 0 →
    t.mpuOk outer d.sup a 16 .write = true →
    d.atomic = 0 →
    exec (.gate .shep w) s = .next (
      let u := ((((t.setContext outer d.sup).storeBytes (tcmBase + a) (natBytes 4 ((b.pc.toNat + 4) % 2 ^ 24)) [false]).storeBytes (tcmBase + a + 4) (natBytes 4 t.psr.toNat)
        [false]).storeBytes (tcmBase + a + 8) (natBytes 4 (b.get 22)) [b.pois 22]).storeBytes (tcmBase + a + 12) (natBytes 4 (hi / 256)) [false]
      (u.btbBranch b.pc d.handler).kEnd .shep { b.put 22 a false with pc := d.handler }))
  ∧ (∀ (w : Word) (s t : State) (hi : Nat),
    s.fetched .shep w = some t →
    kOp w = some (.sup 0 hi) →
    t.gateDesc (hi / 256) = none →
    exec (.gate .shep w) s = .next (t.tookFree.shFaulted 9 (t.freeVal.toNat % 2 ^ 24)))
  ∧ (∀ (w : Word) (s t : State) (hi : Nat),
    s.fetched .shep w = some t →
    kOp w = some (.sup 1 hi) →
    let b := s.kBank .shep
    let a := b.get 22
    t.shBankNo = 0 →
    b.pois 22 = false →
    a + 16 ≤ 0x100000 →
    a % 4 = 0 →
    t.poisoned (tcmBase + a) = false →
    t.poisoned (tcmBase + a + 4) = false →
    t.sh.aopen = 0 →
    exec (.retx .shep w) s = .next (
      (t.kEnd .shep { b.put 22 (t.bytesNat (tcmBase + a + 8) 4) (t.poisoned (tcmBase + a + 8)) with
        pc := .ofNat 24 (t.bytesNat (tcmBase + a) 4) }).setPsr (.ofNat 32 (t.bytesNat (tcmBase + a + 4) 4))))
  ∧ (∀ (w : Word) (s t : State) (hi : Nat),
    s.fetched .shep w = some t →
    kOp w = some (.sup 1 hi) →
    let b := s.kBank .shep
    t.shBankNo = 1 →
    t.sh.outerSleep = false →
    exec (.retx .shep w) s = .next (
      let u := ((t.setShBank { b.modeTick with micro := b.micro.ended }).closeAtomic).setFld SH_STAT fSH_STAT_BANK 0
      (u.setShBankAt 0 { u.shBankAt 0 with pc := .ofNat 24 t.sh.epc.toNat }).setPsr t.sh.epsr))

/-- Past the Hurdle, a queue instruction of an engine on one of its own inboxes makes the operation of the fabric with the incarnation its flock carries. QGET puts the entry into registers and, where it names one, 1 into its status register; on an empty queue it sets QE and the status 0. QPUT appends registers, on a full queue it sets QF. QGETM and QPUTM move an entry to and from the data memory, and move the address register past it when they ask for it. QLVL reads the level. PWD sends a duty write to the generator that carries the logical number, if it is of the flock of the engine. -/
def Obligations.KamynQueues : Prop :=
  (∀ (p : Fin 72) (w : Word) (s t : State) (n q dr st qv : Nat) (e : List QWord) (u : State),
    s.fetched (.eng p) w = some t →
    kOp w = some (.queue 0 n q dr st qv) →
    let b := s.kBank (.eng p)
    q = 0 →
    t.qBusy (4 * p + qv) = false →
    t.underTest 0 p = false →
    t.hurdleDrops 0 p = false →
    t.qGet (4 * p + qv) (.eng p) (t.carriedInc (4 * p + qv) (.eng p)) = (.done, e, u) →
    exec (.qget (.eng p) w) s = .next (s.ended (.eng p) w u ((b.putEntry dr e (2 ^ n)).queueEnd { ok := true } fQE none st false)))
  ∧ (∀ (p : Fin 72) (w : Word) (s t : State) (n q dr st qv : Nat) (u : State),
    s.fetched (.eng p) w = some t →
    kOp w = some (.queue 0 n q dr st qv) →
    let b := s.kBank (.eng p)
    q = 0 →
    t.qBusy (4 * p + qv) = false →
    t.underTest 0 p = false →
    t.hurdleDrops 0 p = false →
    t.qGet (4 * p + qv) (.eng p) (t.carriedInc (4 * p + qv) (.eng p)) = (.empty, [], u) →
    st = 0 →
    exec (.qget (.eng p) w) s = .next (s.ended (.eng p) w u (b.raise fQE)))
  ∧ (∀ (p : Fin 72) (w : Word) (s t : State) (n q dr st qv : Nat) (u : State),
    s.fetched (.eng p) w = some t →
    kOp w = some (.queue 1 n q dr st qv) →
    let b := s.kBank (.eng p)
    q = 0 →
    t.qBusy (4 * p + qv) = false →
    t.underTest 0 p = false →
    t.hurdleDrops 0 p = false →
    n = 0 →
    t.qWords (4 * p + qv) = 2 →
    t.qPut (4 * p + qv) (.eng p) (t.carriedInc (4 * p + qv) (.eng p)) (padWords 2 [(b.gd dr, b.pois dr)]) = (.done, u) →
    exec (.qput (.eng p) w) s = .next (s.ended (.eng p) w u (b.queueEnd { ok := true } fQF none st (b.poisAny [dr]))))
  ∧ (∀ (p : Fin 72) (w : Word) (s t : State) (n q dr st qv : Nat) (u : State),
    s.fetched (.eng p) w = some t →
    kOp w = some (.queue 1 n q dr st qv) →
    let b := s.kBank (.eng p)
    q = 0 →
    t.qBusy (4 * p + qv) = false →
    t.underTest 0 p = false →
    t.hurdleDrops 0 p = false →
    n = 0 →
    t.qWords (4 * p + qv) = 2 →
    t.qPut (4 * p + qv) (.eng p) (t.carriedInc (4 * p + qv) (.eng p)) (padWords 2 [(b.gd dr, b.pois dr)]) = (.full, u) →
    st = 0 →
    exec (.qput (.eng p) w) s = .next (s.ended (.eng p) w u (b.raise fQF)))
  ∧ (∀ (p : Fin 72) (w : Word) (s t : State) (n q dr st qv : Nat) (v0 v1 : QWord) (u : State),
    s.fetched (.eng p) w = some t →
    kOp w = some (.queue 2 n q dr st qv) →
    let b := s.kBank (.eng p)
    let a := b.get (16 + dr)
    q = 0 →
    t.qBusy (4 * p + qv) = false →
    t.underTest 0 p = false →
    t.hurdleDrops 0 p = false →
    n = 1 →
    b.pois (16 + dr) = false →
    t.qWords (4 * p + qv) = 2 →
    a % 4 = 0 →
    a + 8 ≤ 0x10000 →
    t.qGet (4 * p + qv) (.eng p) (t.carriedInc (4 * p + qv) (.eng p)) = (.done, [v0, v1], u) →
    exec (.qgetm (.eng p) w) s = .next (s.ended (.eng p) w ((u.engStore p a (natBytes 4 v0.1.toNat) [v0.2]).engStore p (a + 4)
      (natBytes 4 v1.1.toNat) [v1.2]) (b.queueEnd { ok := true } fQE (some (16 + dr, a + 8)) st false)))
  ∧ (∀ (p : Fin 72) (w : Word) (s t : State) (n q dr st qv : Nat) (u : State),
    s.fetched (.eng p) w = some t →
    kOp w = some (.queue 3 n q dr st qv) →
    let b := s.kBank (.eng p)
    let a := b.get (16 + dr)
    let v := t.codeWriteOut p
    q = 0 →
    t.qBusy (4 * p + qv) = false →
    t.underTest 0 p = false →
    t.hurdleDrops 0 p = false →
    n = 1 →
    b.pois (16 + dr) = false →
    t.qWords (4 * p + qv) = 2 →
    a % 4 = 0 →
    a + 8 ≤ 0x10000 →
    t.qPut (4 * p + qv) (.eng p) (t.carriedInc (4 * p + qv) (.eng p)) [(v.mword (engPhys p a), v.poisoned (engPhys p a)),
      (v.mword (engPhys p (a + 4)), v.poisoned (engPhys p (a + 4)))] = (.done, u) →
    exec (.qputm (.eng p) w) s = .next (s.ended (.eng p) w u (b.queueEnd { ok := true } fQF (some (16 + dr, a + 8)) st false)))
  ∧ (∀ (p : Fin 72) (w : Word) (s t : State) (n q dr st qv : Nat),
    s.fetched (.eng p) w = some t →
    kOp w = some (.queue 4 n q dr st qv) →
    let b := s.kBank (.eng p)
    q = 0 →
    t.qBusy (4 * p + qv) = false →
    t.underTest 0 p = false →
    t.hurdleDrops 0 p = false →
    t.qCheck (4 * p + qv) (.eng p) (t.carriedInc (4 * p + qv) (.eng p)) = (none, t) →
    exec (.qlvl (.eng p) w) s = .next (s.ended (.eng p) w t ((b.put dr (t.qLevel (4 * p + qv)) false).queueEnd { ok := true } fQE none st false)))
  ∧ (∀ (p : Fin 72) (w : Word) (s t : State) (pw ds cmp mode tp g : Nat) (fmt : Bool),
    s.fetched (.eng p) w = some t →
    kOp w = some (.pwd pw ds cmp mode tp fmt) →
    let b := s.kBank (.eng p)
    let d := ({ cmp := cmp, value := b.gd ds, poison := b.pois ds, fmt1 := fmt, mode := mode, time := 0, inc := t.flockInc (t.leFlock p), mapInc := t.fld (LE_MAP p) fLE_MAP_INC, logical := pw, stamp := t.now, src := 0, pe := p.val } : DutyWrite)
    (t.eng p).path = [] → mode ≠ 2 → t.findGen pw = some g → t.unitFlock 1 g = t.leFlock p → t.shadowOf g = none →
    t.underTest 0 p = false → t.hurdleDrops 0 p = false →
    exec (.pwd (.eng p) w) s = .next (s.ended (.eng p) w (t.pwdSend g d) b))

/-- A fault of the running task with LE_FAULT.VALID = 0 fills LE_FAULT, its PC, ADDR and STAMP, counts, makes the slot FAULTED and drops its pending trigger; LE_FAULT.VALID = 1 makes it a double fault: DOUBLE and CAUSE2 are set and the engine parks. Every word of the supervisor group is fault SUPER (cause 9) on an engine, a word that no row of the set runs is fault ILLEGAL (cause 2); the spec gives these faults no address, LE_FAULT_ADDR takes a free value (log entry 1). -/
def Obligations.EngineFaults : Prop :=
  (∀ (p : Fin 72) (w : Word) (s t : State) (op hi : Nat),
    s.issued (.eng p) w = some t →
    kOp w = some (.sup op hi) →
    let r := Host.Outcome.next (t.tookFree.engineFault p 9 (t.freeVal.toNat % 2 ^ 24))
    (op = 0 → exec (.gate (.eng p) w) s = r) ∧ (op = 1 → exec (.retx (.eng p) w) s = r) ∧ (op = 2 → exec (.mpur (.eng p) w) s = r)
    ∧ (op = 3 → exec (.mpuw (.eng p) w) s = r) ∧ (op = 4 → exec (.sysr (.eng p) w) s = r) ∧ (op = 5 → exec (.sysw (.eng p) w) s = r)
    ∧ (op = 6 → exec (.world (.eng p) w) s = r))
  ∧ (∀ (p : Fin 72) (w : Word) (s t : State),
    s.issued (.eng p) w = some t →
    kOp w = none →
    exec (.illegal (.eng p) w) s = .next (t.tookFree.engineFault p (if kIsSuper w then 9 else 2) (t.freeVal.toNat % 2 ^ 24)))
  ∧ (∀ (w : Word) (s t : State),
    s.issued .shep w = some t →
    kOp w = none →
    exec (.illegal .shep w) s = .next (t.tookFree.shFaulted 2 (t.freeVal.toNat % 2 ^ 24)))
  ∧ (∀ (p : Fin 72) (s : State) (k cause addr : Nat),
    s.running p = some k →
    s.leFaulted p = false →
    (s.slot p k).pend = none →
    s.underTest 0 p = false →
    s.hurdleDrops 0 p = false →
    let pc := (s.bank p (s.slotPri p k)).pc.toNat
    let x := s.bank p (s.slotPri p k)
    s.engineFault p cause addr = (
      let u := ((State.setReg64 (((s.setNat (LE_FAULT p) (1 + cause * 16 + k * 4096)).setNat (LE_FAULT_PC p) pc).setNat (LE_FAULT_ADDR p) addr)
        (LE_FAULT_STAMP_LO p) (LE_FAULT_STAMP_HI p) s.now).inc (LE_FAULT_CNT p)).setFld (LE_TASK_STAT p k) fLE_TASK_STAT_STATE 5
      let u := u.setSlot p k { s.slot p k with pend := none }
      let u := u.setBank p (s.slotPri p k) { x with micro := { x.micro.cleared with resumed := false }, wait := none }
      (u.raise (64 + 4 * p) (1 + cause * 16 + k * 256 + s.leLogical p * 65536) addr).record (64 + 4 * p) 1 (1 + cause * 16 + k * 4096) pc addr
        (s.leLogical p)))
  ∧ (∀ (p : Fin 72) (s : State) (k cause addr : Nat),
    s.running p = some k →
    s.leFaulted p = true →
    ((s.engineFault p cause addr).eng p).parked = true ∧ (s.engineFault p cause addr).flag (LE_FAULT p) fLE_FAULT_DOUBLE = true
    ∧ (s.engineFault p cause addr).reg (LE_FAULT_PC p) = s.reg (LE_FAULT_PC p) ∧ (s.engineFault p cause addr).mem = s.mem)

/-- One word of each group of the instruction set, written out bit by bit from R113 and R115, decodes to its instruction; an odd doubleword register, a nonzero OFF3 without MODE 3 and the unassigned groups are ILLEGAL. -/
def Obligations.KamynWords : Prop :=
  kOp 0x0100 = some .nop ∧ kOp 0x105D = some (.alu 0x01 3 3 5 false) ∧ kOp 0x23EA = some (.alui 1 2 61)
  ∧ kOp 0x36CD = some (.mem false false 9 2 17 20 .keep) ∧ kOp 0x439E = some (.acc 0x06 29 3 6 false)
  ∧ kOp 0x5940 = some (.queue 0 1 0 4 0 2) ∧ kOp 0x6FFF = some (.bra (-2)) ∧ kOp 0x7A04 = some (.bg true 13 8)
  ∧ kOp 0x8BFF = some (.bdec 5 (-2)) ∧ kOp 0x93A2 = some (.mov 29 2)
  ∧ kOp 0x0887C280 = some (.alu 0x00 1 2 3 true) ∧ kGuard 0x0887C280 = 5 ∧ kOp 0xF10AC400 = some (.acc 0x00 30 4 5 false)
  ∧ kOp 0x8CB6C803 = some (.addr 3 17 18 27) ∧ kOp 0x1234CC65 = some (.imm 1 25 0x1234)
  ∧ kOp 0xFFC5D01A = some (.mem false false 6 2 21 (-8) .keep) ∧ kOp 0xA400D80E = some (.mem true true 3 2 18 0 (.modM 25))
  ∧ kOp 0x0001DC21 = some (.call 131074) ∧ kOp 0x3A12E016 = some (.queue 1 1 2 3 5 9)
  ∧ kOp 0x4970E40E = some (.pwd 7 4 2 1 3 true) ∧ kOp 0x0886E80C = some (.cplx 0x0C 1 2 3 false)
  ∧ kOp 0x4A40EC00 = some (.stamp 4 2 9) ∧ kOp 0x01C4EC0C = some (.ucall 3 17) ∧ kOp 0x5010FC10 = some (.sup 4 0x5010)
  ∧ kOp 0xA000 = none ∧ kOp 0xF000 = none ∧ kOp 0xD017 = none ∧ kOp 0x3009 = none

/-- Every instruction that the encodings admit, with every operand at every value its fields hold and under every guard, is what the decoder reads from the word the encoder writes; a 32-bit one keeps its guard; and the decoder reads nothing else: whatever it reads from a word is an instruction that the encodings admit, and encoding it again under the guard of the word gives a word that reads the same. -/
def Obligations.KamynDecodeEncode : Prop :=
  (∀ (op : KOp) (g : Nat), g < 8 → kAdmits op = true → kOp (kEnc g op) = some op)
  ∧ (∀ (op : KOp) (g : Nat), g < 8 → kAdmits op = true → kWide (kEnc g op) = true → kGuard (kEnc g op) = g)
  ∧ (∀ (w : Word) (op : KOp), kOp w = some op → kAdmits op = true ∧ kOp (kEnc (kGuard w) op) = some op)

/-- An arithmetic, logic, compare or accumulator instruction of an engine that issues, in an activation whose deadline has not passed (R182), and answers a next state leaves every byte of memory and its marks, every register of the map, every other engine, the Shepherd and, in its own bank, every register but its destination as they were, with their poison bits. The address, immediate and move groups do the same; so does a load, but for the second register of a doubleword and the address register it modifies. A store of an engine to its local RAM, or as the first of the fc to its shared RAM, which no Drove mirrors, changes no byte of memory but those from the address it computes up, no register of the map, no register of the bank but the address register it modifies, and nothing of another engine. A store to the loop buffer or the code RAM with room in the code-store buffer, to the unit-register window or to system memory changes no byte of memory at all. -/
def Obligations.KamynFrames : Prop :=
  (∀ (i : Core → Word → Instr) (p : Fin 72) (w : Word) (s u : State) (f rd ra rb : Nat) (x : Bool),
    i ∈ [.add, .sub, .neg, .abs, .mul, .mull, .mulh, .add2, .sub2, .mul2, .min, .max, .clip, .norm, .and, .or, .xor, .andn, .not,
      .shl, .shr, .sar, .ceq, .cne, .clt, .cle, .cltu, .cleu, .ctst] →
    s.fetched (.eng p) w = some s → s.late p = false → kOp w = some (.alu f rd ra rb x) → exec (i (.eng p) w) s = .next u →
    (∀ a, u.byte a = s.byte a) ∧ u.marks = s.marks ∧ u.regs = s.regs ∧ u.sh = s.sh ∧ (∀ q, q ≠ p.val → u.eng q = s.eng q)
      ∧ (∀ n, n < 32 → n ≠ rd → (u.kBank (.eng p)).get n = (s.kBank (.eng p)).get n
          ∧ (u.kBank (.eng p)).pois n = (s.kBank (.eng p)).pois n))
  ∧ (∀ (i : Core → Word → Instr) (p : Fin 72) (w : Word) (s u : State) (f rd ra rb : Nat) (x : Bool),
    i ∈ [.macF, .macI, .macD, .msuF, .msuI, .msuD, .mpyF, .mpyI, .mpyD, .aclr, .acadd, .acsub, .acneg, .acsh, .sac, .ldac, .acrd,
      .acwr] →
    s.fetched (.eng p) w = some s → s.late p = false → kOp w = some (.acc f rd ra rb x) → exec (i (.eng p) w) s = .next u →
    (∀ a, u.byte a = s.byte a) ∧ u.marks = s.marks ∧ u.regs = s.regs ∧ u.sh = s.sh ∧ (∀ q, q ≠ p.val → u.eng q = s.eng q)
      ∧ (∀ n, n < 32 → n ≠ rd → (u.kBank (.eng p)).get n = (s.kBank (.eng p)).get n
          ∧ (u.kBank (.eng p)).pois n = (s.kBank (.eng p)).pois n))
  ∧ (∀ (i : Core → Word → Instr) (p : Fin 72) (w : Word) (s u : State) (op : KOp) (rd : Nat),
    i ∈ [.adda, .suba, .addaa, .moda, .movi, .movhi, .addi, .ori, .mov, .shli, .shri, .sari, .ceqi, .clti, .andi] →
    s.fetched (.eng p) w = some s → s.late p = false → kOp w = some op →
    ((∃ f ra rb, op = .addr f rd ra rb) ∨ (∃ f v, op = .imm f rd v) ∨ (∃ f v, op = .alui f rd v) ∨ (∃ rs, op = .mov rd rs)) →
    exec (i (.eng p) w) s = .next u →
    (∀ a, u.byte a = s.byte a) ∧ u.marks = s.marks ∧ u.regs = s.regs ∧ u.sh = s.sh ∧ (∀ q, q ≠ p.val → u.eng q = s.eng q)
      ∧ (∀ n, n < 32 → n ≠ rd → (u.kBank (.eng p)).get n = (s.kBank (.eng p)).get n
          ∧ (u.kBank (.eng p)).pois n = (s.kBank (.eng p)).pois n))
  ∧ (∀ (i : Core → Word → Instr) (p : Fin 72) (w : Word) (s u : State) (post32 : Bool) (rd wd an : Nat) (off : Int) (post : KPost),
    i ∈ [.ld, .ldPostModify] → s.fetched (.eng p) w = some s → s.late p = false → kOp w = some (.mem false post32 rd wd an off post) →
    let b := s.kBank (.eng p)
    let a := addrAdd (b.get an) off
    b.poisAny (post.uses an) = false → (engRegion a = .localRam ∨ engRegion a = .shared) → a % 2 ^ wd = 0 →
    exec (i (.eng p) w) s = .next u →
    (∀ a, u.byte a = s.byte a) ∧ u.marks = s.marks ∧ u.regs = s.regs ∧ u.sh = s.sh ∧ (∀ q, q ≠ p.val → u.eng q = s.eng q)
      ∧ (∀ n, n < 32 → n ≠ rd → (wd = 3 → n ≠ rd + 1) → (post ≠ .keep → n ≠ an) → (u.kBank (.eng p)).get n = b.get n
          ∧ (u.kBank (.eng p)).pois n = b.pois n))
  ∧ (∀ (i : Core → Word → Instr) (p : Fin 72) (w : Word) (s u : State) (post32 : Bool) (rd wd an : Nat) (off : Int) (post : KPost),
    i ∈ [.st, .stPostModify] → s.fetched (.eng p) w = some s → s.late p = false → kOp w = some (.mem true post32 rd wd an off post) →
    let b := s.kBank (.eng p)
    let a := addrAdd (b.get an) off
    b.poisAny (post.uses an) = false → (engRegion a = .localRam ∨ engRegion a = .shared) → a % 2 ^ wd = 0 → s.mirrorOf p = none →
    (engRegion a = .shared → s.lanes = [] ∧ s.laneOld = []) →
    exec (i (.eng p) w) s = .next u →
    (∀ q, (q < engPhys p a ∨ engPhys p a + 2 ^ wd ≤ q) → u.byte q = s.byte q) ∧ u.regs = s.regs ∧ u.sh = s.sh
      ∧ (∀ q, q ≠ p.val → u.eng q = s.eng q)
      ∧ (∀ n, n < 32 → (post ≠ .keep → n ≠ an) → (u.kBank (.eng p)).get n = b.get n ∧ (u.kBank (.eng p)).pois n = b.pois n))
  ∧ (∀ (i : Core → Word → Instr) (p : Fin 72) (w : Word) (s u : State) (post32 : Bool) (rd wd an : Nat) (off : Int) (post : KPost),
    i ∈ [.st, .stPostModify] → s.fetched (.eng p) w = some s → s.late p = false → kOp w = some (.mem true post32 rd wd an off post) →
    let b := s.kBank (.eng p)
    let a := addrAdd (b.get an) off
    b.poisAny (post.uses an) = false → b.pois rd = false → b.pois (rd + 1) = false → a % 2 ^ wd = 0 →
    ((engRegion a = .loopBuf ∨ engRegion a = .code) ∧ (s.eng p).codeBuf.length < 16) ∨ (engRegion a = .window ∧ wd = 2) ∨ engRegion a = .sys →
    s.underTest 0 p = false → s.hurdleDrops 0 p = false →
    exec (i (.eng p) w) s = .next u → ∀ q, u.byte q = s.byte q)

/-! ### Sample ingress and trips (07_sample_ingress_and_trips.md) -/

/-- A sample on an enabled port registers with the SI_ values that its fc found, stamped with the Tally or, paired and with a fresh mark, with the stamp of its SOC output, whose mark it takes (R196, R202); on a disabled port it has no effect (R195). In its fc 2 it is scaled with one rounding, saturated, and classed against the window, and the port's registers take it (R197 to R199). In its fc 3 KIND 0 discards and counts it, another route puts its entry of four words into the queue the route names, counted when it goes in (R203, R204). SI_SOC_FIRE fires an output of KIND other than 0 in the next fc, for KIND 0 nothing happens; a unit that does not exist never fires (R200). A firing rises with the Tally of its fc as its stamp and is counted, and the output falls WIDTH + 1 fc after its rise, with the WIDTH that the rise found (R201). -/
def Obligations.SampleIngress : Prop :=
  (∀ (n : Fin 64) (d : BitVec 24) (tag : BitVec 8) (s : State), s.live = true → bitOf (s.siShown (SI_CFG n)).toNat 0 = false →
    exec (.sample n d tag) s = .next s)
  ∧ (∀ (n : Fin 64) (d : BitVec 24) (tag : BitVec 8) (s : State),
    let c := s.siShown (SI_CFG n)
    s.live = true → bitOf c.toNat 0 = true → bitOf c.toNat 2 = false →
    exec (.sample n d tag) s = .next { s with si.fly := flyInsert { port := n, fc := s.fc, data := d, tag := tag.toNat, stamp := s.now, paired := false, nosoc := false, inc := s.carriedInc 0 (.port n), cfg := c, off := s.siShown (SI_OFFSET n), gain := s.siShown (SI_GAIN n), hi := s.siShown (SI_WHI n), lo := s.siShown (SI_WLO n), route := s.siShown (SI_ROUTE n) } s.si.fly })
  ∧ (∀ (n : Fin 64) (d : BitVec 24) (tag : BitVec 8) (s : State),
    let c := s.siShown (SI_CFG n)
    let fresh := tget (fun _ => false) s.si.mark n
    s.live = true → bitOf c.toNat 0 = true → bitOf c.toNat 2 = true →
    exec (.sample n d tag) s = .next (
      let x : SampleFly := { port := n, fc := s.fc, data := d, tag := tag.toNat, stamp := if fresh then tget (fun _ => (0 : Stamp)) s.si.socStamp (bitsOf c.toNat 4 6) else s.now, paired := fresh, nosoc := !fresh, inc := s.carriedInc 0 (.port n), cfg := c, off := s.siShown (SI_OFFSET n), gain := s.siShown (SI_GAIN n), hi := s.siShown (SI_WHI n), lo := s.siShown (SI_WLO n), route := s.siShown (SI_ROUTE n) }
      let u := if fresh then { s with si.mark := tset (fun _ => false) s.si.mark n false } else s
      { u with si.fly := flyInsert x s.si.fly }))
  ∧ (∀ (x : SampleFly) (s : State),
    let z := scaleY (sampleV (bitOf x.cfg.toNat 1) x.data) (sInt x.off) (sInt x.gain)
    let c := windowClass z (sInt x.hi) (sInt x.lo)
    bitOf x.cfg.toNat 3 = false → bitsOf x.cfg.toNat 10 3 = 0 → sat32 z = z → x.nosoc = false →
    s.sampleScale x = ({ x with entry := [(intWord z, false), (.ofNat 32 (x.tag + x.port * 256 + b2n x.paired * 2 ^ 14 + c * 2 ^ 16), false),
        (.ofNat 32 (lo32 x.stamp), false), (.ofNat 32 (hi32 x.stamp), false)] },
      ((State.setFld { s with si.first := tset (fun _ => false) s.si.first x.port false } (SI_STAT x.port) fSI_STAT_WSTATE c).setReg
        (SI_LAST_VAL x.port) (intWord z)).setReg64 (SI_LAST_STAMP_LO x.port) (SI_LAST_STAMP_HI x.port) x.stamp))
  ∧ (∀ (x : SampleFly) (s : State), bitsOf x.route.toNat 30 2 = 0 → s.sampleRoute x = s.inc (SI_DROP_CNT x.port))
  ∧ (∀ (x : SampleFly) (s v : State) (q : Nat), bitsOf x.route.toNat 30 2 ≠ 0 → s.routeQueue x = some q → s.qBusy q = false →
    s.qPutOne q (.port x.port) x.inc x.entry = (.done, v) → s.sampleRoute x = v.inc (SI_ACCEPT_CNT x.port))
  ∧ (∀ (p : Port) (m : Fin 64) (s : State), s.takes p SI_SOC_FIRE (.ofNat 32 m) = true → s.fld (SI_SOC_SRC m) fSI_SOC_SRC_KIND ≠ 0 →
    s.si.fires = [] →
    exec (.siSocFire p m) s = .next (s.after p SI_SOC_FIRE (.ofNat 32 m) (fun u =>
      { u with si := { u.si with fires := [⟨m, s.fc + 1⟩] } })))
  ∧ (∀ (p : Port) (m : Fin 64) (s : State), s.takes p SI_SOC_FIRE (.ofNat 32 m) = true → s.fld (SI_SOC_SRC m) fSI_SOC_SRC_KIND = 0 →
    exec (.siSocFire p m) s = .next (s.after p SI_SOC_FIRE (.ofNat 32 m) (fun u => u)))
  ∧ (∀ (u sel m : Nat) (s : State), 48 ≤ u → s.socNames 1 u sel m = false)
  ∧ (∀ (f : SocFire) (s : State), s.socRise f = (
      let u := (s.setReg64 (SI_SOC_STAMP_LO f.m) (SI_SOC_STAMP_HI f.m) s.now).inc (SI_SOC_CNT f.m)
      { u with si := { u.si with high := tset (fun _ => 0) u.si.high f.m (f.fc + u.fld (SI_SOC_SRC f.m) fSI_SOC_SRC_WIDTH + 1) } }))
  ∧ (∀ (m : Fin 64) (e : Nat) (s : State), s.live = true → tget (fun _ => 0) s.si.high m = e → e ≠ 0 → e ≤ s.fc →
    exec (.socPulseEnd m) s = .next { s with si := { s.si with high := tset (fun _ => 0) s.si.high m 0 } })

/-- An active edge on an enabled input with its latch clear sets LATCH, takes the stamp of the edge, counts it, starts the filter, and every group follows; one while the latch is set only counts (R205, R206). Leaving the active level within the filter time is a glitch, which three fc later is counted and clears the latch; after 3 + FLT fc QUAL sets and EV(432 + n) is raised (R207, R208). A W1C of LATCH clears LATCH and QUAL (R205), but not a latch that set in the same fc. TR_STAT.PIN and the timers' line follow the pin or the injected pulse (R219). An injected pulse is refused and counted while an armed entry's group names the input, and ends after WIDTH + 1 fc of the WIDTH that GO wrote (R219). PREPARE with key 0x5A on entry 0 to 16 opens its window (PREP) in the present fc and closes any other; ARM and DISARM with key 0xA5 inside the window set and clear ARMED, RELEASE with key 0x3C of an engaged entry whose trigger is no longer asserted clears ENGAGED; each of these three is journalled as record 0x008. ARM while the trigger is asserted engages at once. A wrong key, an entry above 16 or an operation outside the window is refused, counted and journalled, and closes the window. The window closes 256 fc after its PREPARE. -/
def Obligations.TripsAndArming : Prop :=
  (∀ (n : Fin 64) (k : Nat) (s : State), s.pw.fast = true → s.pw.mode = .graze → s.tripEn n = true →
    (s.tripIn n).inj = none → s.tripLatch n = false →
    exec (.tripEdge n k) s = .next (
      let u := (s.setTripIn n { s.tripIn n with pin := !s.flag (TR_CFG n) fTR_CFG_POL }).tripPin n (some (s.edgeStamp k))
      let u := (State.setFlag (u.inc (TR_EDGE_CNT n)) (TR_STAT n) fTR_STAT_LATCH true).setReg64 (TR_STAMP_LO n) (TR_STAMP_HI n) (s.edgeStamp k)
      (State.groupsFollow (u.setTripIn n { u.tripIn n with edge := some s.fc, left := none, latchFc := s.fc + 1 }) (s.edgeStamp k) true).wakeCheck))
  ∧ (∀ (n : Fin 64) (k : Nat) (s : State), s.pw.fast = true → s.tripEn n = true → (s.tripIn n).inj = none → s.tripLatch n = true →
    exec (.tripEdge n k) s = .next (((s.setTripIn n { s.tripIn n with pin := !s.flag (TR_CFG n) fTR_CFG_POL }).tripPin n
      (some (s.edgeStamp k))).inc (TR_EDGE_CNT n)).wakeCheck)
  ∧ (∀ (n : Fin 64) (e : Nat) (s : State), (s.tripIn n).inj = none → (s.tripIn n).edge = some e → s.tripLatch n = true →
    s.tripQual n = false → (s.tripIn n).left = none → s.fc < e + s.fld (TR_CFG n) fTR_CFG_FLT →
    exec (.tripGlitch n) s = .next (
      let u := (s.setTripIn n { s.tripIn n with pin := s.flag (TR_CFG n) fTR_CFG_POL }).tripPin n none
      ((u.setTripIn n { u.tripIn n with left := some s.fc }).later (s.fc + 2) (.tripGlitch n s.fc)).wakeCheck))
  ∧ (∀ (n d : Nat) (s : State), (s.tripIn n).left = some d → s.tripLatch n = true → s.tripEn n = false → s.glitchAct n d = (
      let u := ((s.inc (TR_GLITCH_CNT n)).setFlag (TR_STAT n) fTR_STAT_LATCH false).setFlag (TR_STAT n) fTR_STAT_QUAL false
      (u.setTripIn n { u.tripIn n with edge := none, left := none }).groupsFollow u.now true))
  ∧ (∀ (n : Fin 64) (e : Nat) (s : State), s.live = true → (s.tripIn n).edge = some e → s.tripLatch n = true → (s.tripIn n).left = none →
    e + 3 + s.fld (TR_CFG n) fTR_CFG_FLT ≤ s.fc →
    exec (.qual n) s = .next (
      let u := (s.setFlag (TR_STAT n) fTR_STAT_QUAL true).setTripIn n { s.tripIn n with edge := none, left := none, qualFc := s.fc + 1 }
      let v := u.raiseLive (432 + n) s.now (u.qualPayload n) 0
      v.groupsFollow (v.reg64 (TR_STAMP_LO n) (TR_STAMP_HI n)) true))
  ∧ (∀ (n : Fin 64) (e : Nat) (s : State), s.live = true → (s.tripIn n).edge = some e →
    s.fc < e + 3 + s.fld (TR_CFG n) fTR_CFG_FLT → exec (.qual n) s = .next s)
  ∧ (∀ (p : Port) (n : Fin 64) (s : State), s.admits p (TR_STAT n) 1 = true → s.tripLatch n = true → s.tripEn n = false →
    bitOf (s.hotBits (TR_STAT n)).toNat 0 = false →
    exec (.latchClear p n) s = .next (s.after p (TR_STAT n) 1 (fun u =>
      let v := u.setReg (TR_STAT n) (.ofNat 32 (withBits (s.word p (TR_STAT n) 1).toNat 0 1 1))
      let v := (v.setFlag (TR_STAT n) fTR_STAT_LATCH false).setFlag (TR_STAT n) fTR_STAT_QUAL false
      State.groupsFollow (v.setTripIn n { s.tripIn n with edge := none, left := none }) s.now true)))
  ∧ (∀ (p : Port) (n : Fin 64) (s : State), s.admits p (TR_STAT n) 1 = true → s.tripLatch n = true →
    bitOf (s.hotBits (TR_STAT n)).toNat 0 = true →
    exec (.latchClear p n) s = .next (s.after p (TR_STAT n) 1 (fun u =>
      u.setReg (TR_STAT n) (.ofNat 32 (withBits (s.word p (TR_STAT n) 1).toNat 0 1 1)))))
  ∧ (∀ (p : Port) (n : Fin 64) (width : BitVec 8) (s : State), s.takes p (TR_INJ n) (.ofNat 32 (2 ^ 31 + width.toNat)) = true →
    s.inArmedGroup n = true →
    exec (.trInj p n width) s = .next (s.after p (TR_INJ n) (.ofNat 32 (2 ^ 31 + width.toNat)) (fun u =>
      (u.setNat (TR_INJ n) width.toNat).inc TR_INJ_REFUSED)))
  ∧ (∀ (p : Port) (n : Fin 64) (width : BitVec 8) (s : State), s.takes p (TR_INJ n) (.ofNat 32 (2 ^ 31 + width.toNat)) = true →
    s.inArmedGroup n = false → (s.tripIn n).inj = none → s.tripEn n = false →
    exec (.trInj p n width) s = .next (s.after p (TR_INJ n) (.ofNat 32 (2 ^ 31 + width.toNat)) (fun u =>
      ((u.setNat (TR_INJ n) width.toNat).setTripIn n { s.tripIn n with inj := some (s.fc + width.toNat + 1) }).tripPin n (some s.now))))
  ∧ (∀ (n : Fin 64) (b : Nat) (s : State), s.live = true → (s.tripIn n).inj = some b → b ≤ s.fc →
    (s.tripIn n).pin = !s.flag (TR_CFG n) fTR_CFG_POL →
    exec (.injectionEnd n) s = .next ((s.setTripIn n { s.tripIn n with inj := none }).tripPin n (some s.now)))
  ∧ (∀ (n : Fin 64) (b : Nat) (s : State), s.live = true → (s.tripIn n).inj = some b → s.fc < b → exec (.injectionEnd n) s = .next s)
  ∧ (∀ (n : Nat) (cap : Option Stamp) (s : State), s.tripPin n cap = ((s.setFlag (TR_STAT n) fTR_STAT_PIN (s.tripActive n)).lineSet 2 n
      (s.tripActive n) (if s.tripActive n = s.flag (TR_STAT n) fTR_STAT_PIN then none else cap)))
  ∧ (∀ (p : Port) (r : Fin 32) (s : State) (w : Word), w = .ofNat 32 (1 + r.val * 2 ^ 16 + 0x5A * 2 ^ 24) → s.takes p TR_ARM w = true →
    r.val ≤ 16 → s.si.prep = none →
    exec (.prepare p r 0x5A) s = .next (s.after p TR_ARM w (fun u =>
      { u.setFlag (AR_STAT r) fAR_STAT_PREP true with si := { s.si with prep := some (r.val, s.fc) } })))
  ∧ (∀ (p : Port) (r : Fin 32) (key : BitVec 8) (s : State) (w : Word), w = .ofNat 32 (1 + r.val * 2 ^ 16 + key.toNat * 2 ^ 24) →
    s.takes p TR_ARM w = true → r.val ≤ 16 → key ≠ 0x5A → s.si.prep = none →
    exec (.prepare p r key) s = .next (s.after p TR_ARM w (fun u =>
      (u.inc TR_ARM_REFUSED).record (arSource r) 8 (1 + r * 256 + key.toNat * 65536) 1 (b2n ((s.master p).who == 1)) 0)))
  ∧ (∀ (p : Port) (r : Fin 32) (s : State) (w : Word) (c : Nat), w = .ofNat 32 (2 + r.val * 2 ^ 16 + 0xA5 * 2 ^ 24) → s.takes p TR_ARM w = true →
    s.si.prep = some (r.val, c) → s.fc < c + 256 → r.val ≤ 16 → s.arInjecting r = false → s.arAsserted r = false →
    exec (.arm p r 0xA5) s = .next (s.after p TR_ARM w (fun u =>
      let v := { u.setFlag (AR_STAT r) fAR_STAT_PREP false with si := { s.si with prep := none } }
      (v.record (arSource r) 8 (2 + r * 256 + 0xA5 * 65536 + 2 ^ 31) 0 (b2n ((s.master p).who == 1)) 0).setFlag (AR_STAT r) fAR_STAT_ARMED true)))
  ∧ (∀ (p : Port) (r : Fin 32) (s : State) (w : Word), w = .ofNat 32 (2 + r.val * 2 ^ 16 + 0xA5 * 2 ^ 24) → s.takes p TR_ARM w = true →
    s.si.prep = none → r.val ≤ 16 →
    exec (.arm p r 0xA5) s = .next (s.after p TR_ARM w (fun u =>
      (u.inc TR_ARM_REFUSED).record (arSource r) 8 (2 + r * 256 + 0xA5 * 65536) 4 (b2n ((s.master p).who == 1)) 0)))
  ∧ (∀ (p : Port) (r : Fin 32) (s : State) (w : Word) (c : Nat), w = .ofNat 32 (3 + r.val * 2 ^ 16 + 0xA5 * 2 ^ 24) → s.takes p TR_ARM w = true →
    s.si.prep = some (r.val, c) → s.fc < c + 256 → r.val ≤ 16 → s.engaged r = false →
    exec (.disarm p r 0xA5) s = .next (s.after p TR_ARM w (fun u =>
      let v := { u.setFlag (AR_STAT r) fAR_STAT_PREP false with si := { s.si with prep := none } }
      (v.record (arSource r) 8 (3 + r * 256 + 0xA5 * 65536 + 2 ^ 31) 0 (b2n ((s.master p).who == 1)) 0).setFlag (AR_STAT r) fAR_STAT_ARMED false)))
  ∧ (∀ (p : Port) (r : Fin 32) (s : State) (w : Word), w = .ofNat 32 (4 + r.val * 2 ^ 16 + 0x3C * 2 ^ 24) → s.takes p TR_ARM w = true →
    s.si.prep = none → r.val ≤ 16 → s.engaged r = true → s.arAsserted r = false →
    exec (.release p r 0x3C) s = .next (s.after p TR_ARM w (fun u =>
      (u.record (arSource r) 8 (4 + r * 256 + 0x3C * 65536 + 2 ^ 31) 0 (b2n ((s.master p).who == 1)) 0).setFlag (AR_STAT r) fAR_STAT_ENGAGED false)))
  ∧ (∀ (p : Port) (r : Fin 32) (s : State) (w : Word), w = .ofNat 32 (4 + r.val * 2 ^ 16 + 0x3C * 2 ^ 24) → s.takes p TR_ARM w = true →
    s.si.prep = none → r.val ≤ 16 → s.engaged r = true → s.arAsserted r = true →
    exec (.release p r 0x3C) s = .next (s.after p TR_ARM w (fun u =>
      (u.inc TR_ARM_REFUSED).record (arSource r) 8 (4 + r * 256 + 0x3C * 65536) 6 (b2n ((s.master p).who == 1)) 0)))
  ∧ (∀ (e c : Nat) (s : State), s.live = true → s.si.prep = some (e, c) → c + 256 ≤ s.fc →
    exec .prepareWindowExpiry s = .next { s.setFlag (AR_STAT e) fAR_STAT_PREP false with si := { s.si with prep := none } })
  ∧ (∀ (e c : Nat) (s : State), s.live = true → s.si.prep = some (e, c) → s.fc < c + 256 → exec .prepareWindowExpiry s = .next s)

/-! ### Waveform generators (08_waveform_generators.md) -/

/-- At the ZRO of a running UP generator the active period takes its shadow, the compares reload, the SOC outputs of ZRO fire and the ZRO actions apply at the instant of the edge; then an option-1 freeze takes hold, a group that this member synchronises syncs, and a paired shadow takes the state (R228, R231, R252, R254, R460). In UPDOWN with RLDP alone the period loads and the compares do not (R228). A stopped generator, or one whose counter has not taken 0, has no ZRO. At PRD in DOWN the period loads, the counter takes it and the compares reload; in UP only the PRD actions apply. A match d sixteenths into the fc fires its SOC outputs and applies its actions at that instant, once, before ZRO or PRD where the direction ends there (R231); with BCOMP, B is the complement of A (R234); a value that the position does not take makes none (R230). A delayed change whose due time falls in the fc appears behind the dead time and reaches the boundary 4 fc later (R232, R234). When PHG_TIME of an enabled group with SRC 1 is reached the group syncs at the edge that ends the fc and the time advances by PHG_TPER, or the group waits for a new time where that is zero (R248). -/
def Obligations.GeneratorEvents : Prop :=
  (∀ (g : Fin 52) (s : State), s.live = true → s.genRun g = true → (s.gen g).zroDue = true → (s.gen g).startEdge = false →
    s.genMode g = 0 → s.phen g = false → (s.gen g).perFc ≠ s.fc - 1 + 1 →
    exec (.zro g) s = .next (
      let u := s.setGen g { s.gen g with zroDue := false, startEdge := false }
      let u := State.genReload (u.setReg (PW_PERIOD_ACT g) (s.reg (PW_PERIOD g))) g (s.fc - 1)
      let v := (u.genSoc g 0).genAction g 4 fPW_ACT_A_ZRO.lo (16 * s.fc)
      let v := if (v.gen g).freeze && v.fld (PW_CFG g) fPW_CFG_FRZ == 1 then
          (v.setFlag (PW_STAT g) fPW_STAT_FROZEN true).genStopLevels g (16 * v.fc) else v
      (if v.phen g && v.flag (PHG_CFG (v.phgrp g)) fPHG_CFG_EN && v.fld (PHG_CFG (v.phgrp g)) fPHG_CFG_SRC == 0 && v.phidx g == 0 then
        v.groupSync (v.phgrp g) g true else v).scSync g))
  ∧ (∀ (g : Fin 52) (s : State), s.live = true → s.genRun g = true → (s.gen g).zroDue = true → (s.gen g).startEdge = false →
    s.genMode g = 2 → s.flag (PW_CFG g) fPW_CFG_RLDZ = false → s.flag (PW_CFG g) fPW_CFG_RLDP = true → s.phen g = false →
    (s.gen g).perFc ≠ s.fc - 1 + 1 → s.flag (PW_MAP g) fPW_MAP_LVALID = false → (s.gen g).freeze = false → s.scOn = false →
    exec (.zro g) s = .next (State.genAction (State.setReg (s.setGen g { s.gen g with zroDue := false, startEdge := false })
      (PW_PERIOD_ACT g) (s.reg (PW_PERIOD g))) g 4 fPW_ACT_A_ZRO.lo (16 * s.fc)))
  ∧ (∀ (g : Fin 52) (s : State), s.live = true → (s.genRun g = false ∨ (s.gen g).zroDue = false) → exec (.zro g) s = .next s)
  ∧ (∀ (g : Fin 52) (s : State), s.live = true → s.genRun g = true → (s.gen g).prdDue = true → (s.gen g).startEdge = false →
    s.genMode g = 1 → s.phen g = false → (s.gen g).perFc ≠ s.fc - 1 + 1 →
    exec (.prd g) s = .next (
      let u := s.setGen g { s.gen g with prdDue := false, startEdge := false }
      let u := (u.setReg (PW_PERIOD_ACT g) (s.reg (PW_PERIOD g))).setReg (PW_CNT g) (s.reg (PW_PERIOD g))
      (u.genReload g (s.fc - 1)).genAction g 4 fPW_ACT_A_PRD.lo (16 * s.fc)))
  ∧ (∀ (g : Fin 52) (s : State), s.live = true → s.genRun g = true → (s.gen g).prdDue = true → s.genMode g = 0 →
    exec (.prd g) s = .next (State.genAction (s.setGen g { s.gen g with prdDue := false, startEdge := false }) g
      4 fPW_ACT_A_PRD.lo (16 * s.fc)))
  ∧ (∀ (g : Fin 52) (cmp : Fin 4) (up : Bool) (d : Nat) (s : State), s.live = true → s.genRun g = true →
    (s.gen g).zroDue = false → (s.gen g).prdDue = false →
    s.flag (PW_STAT g) fPW_STAT_FROZEN = false → (cmp.val, up) ∉ (s.gen g).matched → s.matchAt g cmp up = some d →
    exec (.compareMatch g cmp up) s = .next (
      let u := s.setGen g { s.gen g with matched := (cmp.val, up) :: (s.gen g).matched }
      let v := u.genSoc g (2 + cmp)
      v.genAction g (v.matchKey g cmp d up) (matchFld cmp up).lo (16 * s.fc + d)))
  ∧ (∀ (g : Nat) (key lo t : Nat) (s : State), s.flag (PW_CFG g) fPW_CFG_BCOMP = true → (s.gen g).instAt ≠ t + 1 →
    s.genAction g key lo t = (
      let x := s.gen g
      let a := actLevel (bitsOf (s.nat (PW_ACT_A g)) lo 2) x.rA
      ((s.setGen g { x with instAt := t + 1, baseA := x.rA, baseB := x.rB, acts := [(key, lo)] }).setRaw g 0 t a).setRaw g 1 t (!a)))
  ∧ (∀ (g : Fin 52) (cmp : Fin 4) (s : State), (s.gen g).zroDue = false → (s.gen g).prdDue = false →
    s.genMode g = 0 → s.genDown g = false → 16 * s.genPer g + 15 < s.nat (PW_CMP_ACT g cmp) →
    s.genCnt g ≤ s.genPer g → exec (.compareMatch g cmp true) s = .next s)
  ∧ (∀ (g : Fin 52) (out : Fin 2) (e : GenEdge) (s : State), s.live = true →
    (s.gen g).delay.find? (fun d => d.out == out.val && decide (d.due < 16 * (s.fc + 1))) = some e → out = 0 →
    exec (.deadTimeExpiry g out) s = .next (
      let x := s.gen g
      s.setGen g { x with delay := x.delay.filter (fun d => d.out != 0), bound := x.bound ++ [⟨e.due + 64, 0, e.level⟩], stA := e.level }))
  ∧ (∀ (j : Fin 16) (s : State), s.live = true → s.flag (PHG_CFG j) fPHG_CFG_EN = true → s.fld (PHG_CFG j) fPHG_CFG_SRC = 1 →
    reached (s.reg64 (PHG_TIME_LO j) (PHG_TIME_HI j)) s.now = true → tget (fun _ => false) s.phDone j = false → s.nat (PHG_TPER j) ≠ 0 →
    exec (.phgTime j) s = .next { s.setReg64 (PHG_TIME_LO j) (PHG_TIME_HI j)
      (s.reg64 (PHG_TIME_LO j) (PHG_TIME_HI j) + .ofNat 64 (s.nat (PHG_TPER j))) with phDue := s.phDue ++ [j.val] })
  ∧ (∀ (c j : Nat) (s : State), s.listedGens = [] → s.phDue = [j] →
    s.gensEdge c = { s with phDue := [], xbarOld := [] }.groupSync j 52 false)
  ∧ (∀ (j : Fin 16) (s : State), s.live = true → s.flag (PHG_CFG j) fPHG_CFG_EN = true → s.fld (PHG_CFG j) fPHG_CFG_SRC = 1 →
    reached (s.reg64 (PHG_TIME_LO j) (PHG_TIME_HI j)) s.now = true → tget (fun _ => false) s.phDone j = false → s.nat (PHG_TPER j) = 0 →
    exec (.phgTime j) s = .next { s with phDone := tset (fun _ => false) s.phDone j true, phDue := s.phDue ++ [j.val] })
  ∧ (∀ (j : Fin 16) (s : State), s.flag (PHG_CFG j) fPHG_CFG_EN = false → exec (.phgTime j) s = .next s)

/-- A write of PW_CMP sends a next-reload duty write of the generator's own incarnation and logical number; one to a generator without LVALID is stale: discarded and counted, and it raises EV(528 + 2g) when STALE was clear (R238, R240). PW_DW_CTRL.GO with MODE 3 sends nothing and is counted. The oldest write received in an earlier fc is accepted, counted and stamped; next-reload leaves its value in the shadow, immediate sends it on to the active compare at the edge that ends the second fc after, and an apply-time in the future waits in its slot with TPEND (R239, R243 to R245). When the apply-time is reached the active compare takes the value at the edge that ends the fc and TPEND clears (R245). A write of PW_XBAR is for the whole entry and takes effect at the edge that ends its fc: till then the crossbar shows the entry that the fc found (R235). -/
def Obligations.DutyWrites : Prop :=
  (∀ (p : Port) (g : Fin 52) (cmp : Fin 4) (data : Word) (s : State), s.takes p (PW_CMP g cmp) data = true → (s.master p).pe = none →
    s.scOn = false → s.flag (PW_MAP g) fPW_MAP_LVALID = true →
    exec (.pwCmp p g cmp data) s = .next (s.after p (PW_CMP g cmp) data (fun u => u.setGen g { u.gen g with waiting := (u.gen g).waiting ++
      [{ cmp := cmp, value := data, fmt1 := false, mode := 1, time := 0, inc := s.flockInc (s.fld (PW_MAP g) fPW_MAP_FLOCK), logical := s.fld (PW_MAP g) fPW_MAP_LOGICAL, stamp := s.now, src := 2, pe := 0, rcv := s.fc }] })))
  ∧ (∀ (p : Port) (g : Fin 52) (cmp : Fin 4) (data : Word) (s : State), s.takes p (PW_CMP g cmp) data = true → (s.master p).pe = none →
    s.scOn = false → s.flag (PW_MAP g) fPW_MAP_LVALID = false → s.flag (PW_STAT g) fPW_STAT_STALE = false →
    exec (.pwCmp p g cmp data) s = .next (s.after p (PW_CMP g cmp) data (fun u =>
      let v := (u.setFlag (PW_STAT g) fPW_STAT_STALE true).inc (PW_STALE_CNT g)
      v.genRaise g (528 + 2 * g) (4 + (cmp * 16 + 128 + s.fld (PW_MAP g) fPW_MAP_LOGICAL * 65536)) 0)))
  ∧ (∀ (p : Port) (g : Fin 52) (data : Word) (s : State), s.takes p (PW_DW_CTRL g) (fPW_DW_CTRL_GO.put data 1) = true →
    s.scOn = false → bitsOf data.toNat 3 2 = 3 →
    exec (.pwDwCtrlGo p g data) s = .next (s.after p (PW_DW_CTRL g) (fPW_DW_CTRL_GO.put data 1) (fun u =>
      (u.setReg (PW_DW_CTRL g) (fPW_DW_CTRL_GO.put data 0)).inc (PW_CFG_REFUSED g))))
  ∧ (∀ (p : Port) (g : Fin 52) (data : Word) (s : State), s.takes p (PW_DW_CTRL g) (fPW_DW_CTRL_GO.put data 1) = true →
    s.scOn = false → (s.master p).pe = none → s.flag (PW_MAP g) fPW_MAP_LVALID = true → bitsOf data.toNat 3 2 = 2 →
    exec (.pwDwCtrlGo p g data) s = .next (s.after p (PW_DW_CTRL g) (fPW_DW_CTRL_GO.put data 1) (fun u =>
      let v := u.setReg (PW_DW_CTRL g) (fPW_DW_CTRL_GO.put data 0)
      v.setGen g { v.gen g with waiting := (v.gen g).waiting ++ [{ cmp := v.fld (PW_DW_CTRL g) fPW_DW_CTRL_CMP, value := s.reg (PW_DW_VAL g), fmt1 := v.flag (PW_DW_CTRL g) fPW_DW_CTRL_FMT, mode := 2, time := s.reg64 (PW_DW_TIME_LO g) (PW_DW_TIME_HI g), inc := s.flockInc (s.fld (PW_MAP g) fPW_MAP_FLOCK), logical := s.fld (PW_MAP g) fPW_MAP_LOGICAL, stamp := s.now, src := 2, pe := 0, rcv := s.fc }] })))
  ∧ (∀ (g : Fin 52) (w : DutyWrite) (t : List DutyWrite) (s : State), s.live = true → (s.gen g).waiting = w :: t → w.rcv < s.fc →
    (s.gen g).accepted ≠ s.fc + 1 → w.fmt1 = false → w.mode = 1 →
    exec (.dutyWriteAccept g) s = .next (
      let u := s.setGen g { s.gen g with waiting := t, accepted := s.fc + 1 }
      let u := State.setReg64 (u.inc (PW_ACCEPT_CNT g)) (PW_LAST_STAMP_LO g) (PW_LAST_STAMP_HI g) w.stamp
      u.shadowWrite g w w.value true))
  ∧ (∀ (g : Fin 52) (w : DutyWrite) (t : List DutyWrite) (s : State), s.live = true → (s.gen g).waiting = w :: t → w.rcv < s.fc →
    (s.gen g).accepted ≠ s.fc + 1 → w.fmt1 = false → w.mode = 0 →
    exec (.dutyWriteAccept g) s = .next (
      let u := s.setGen g { s.gen g with waiting := t, accepted := s.fc + 1 }
      let u := State.setReg64 (u.inc (PW_ACCEPT_CNT g)) (PW_LAST_STAMP_LO g) (PW_LAST_STAMP_HI g) w.stamp
      let u := u.shadowWrite g w w.value false
      u.setGen g { u.gen g with transfers := (u.gen g).transfers ++ [⟨u.fc + 2, w.cmp, w.value⟩] }))
  ∧ (∀ (g : Fin 52) (w : DutyWrite) (t : List DutyWrite) (s : State), s.live = true → (s.gen g).waiting = w :: t → w.rcv < s.fc →
    (s.gen g).accepted ≠ s.fc + 1 → w.fmt1 = false → w.mode = 2 → w.cmp < 4 → reached w.time s.now = false →
    bitOf (s.fld (PW_STAT g) fPW_STAT_TPEND) w.cmp = false →
    exec (.dutyWriteAccept g) s = .next (
      let u := s.setGen g { s.gen g with waiting := t, accepted := s.fc + 1 }
      let u := State.setReg64 (u.inc (PW_ACCEPT_CNT g)) (PW_LAST_STAMP_LO g) (PW_LAST_STAMP_HI g) w.stamp
      let u := u.setFld (PW_STAT g) fPW_STAT_TPEND (s.fld (PW_STAT g) fPW_STAT_TPEND ||| 2 ^ w.cmp)
      (u.setReg (PW_TPEND_VAL g w.cmp) w.value).setReg64 (PW_TPEND_TIME_LO g w.cmp) (PW_TPEND_TIME_HI g w.cmp) w.time))
  ∧ (∀ (g : Fin 52) (s : State), s.live = true → (s.gen g).waiting = [] → exec (.dutyWriteAccept g) s = .next s)
  ∧ (∀ (g : Fin 52) (cmp : Fin 4) (s : State), s.live = true → bitOf (s.fld (PW_STAT g) fPW_STAT_TPEND) cmp = true →
    reached (s.reg64 (PW_TPEND_TIME_LO g cmp) (PW_TPEND_TIME_HI g cmp)) s.now = true → ((s.gen g).cmpOf cmp).oldFc ≠ s.fc + 1 →
    exec (.timedTransfer g cmp) s = .next (
      let v := s.reg (PW_TPEND_VAL g cmp)
      let u := s.setReg (PW_CMP g cmp) v
      let u := State.setGenCmp u g cmp { (s.gen g).cmpOf cmp with timed := s.fc + 1 }
      let u := State.setGen u g { u.gen g with transfers := (u.gen g).transfers ++ [⟨s.fc, cmp, v⟩] }
      u.setFld (PW_STAT g) fPW_STAT_TPEND (s.fld (PW_STAT g) fPW_STAT_TPEND - 2 ^ cmp.val)))
  ∧ (∀ (g : Fin 52) (cmp : Fin 4) (s : State), bitOf (s.fld (PW_STAT g) fPW_STAT_TPEND) cmp = false →
    exec (.timedTransfer g cmp) s = .next s)
  ∧ (∀ (p : Port) (m : Fin 96) (data : Word) (s : State), s.takes p (PW_XBAR m) data = true →
    s.xbarOld = [] →
    exec (.xbarWrite p m data) s = .next (s.after p (PW_XBAR m) data (fun u =>
      { u with xbarOld := [(m.val, s.reg (PW_XBAR m))] }.setReg (PW_XBAR m) data)))
  ∧ (∀ (m : Fin 96) (w : Word) (s : State), s.xbarOld = [(m.val, w)] → s.xbarShown m = w.toNat)
  ∧ (∀ (m : Fin 96) (s : State), s.xbarOld = [] → s.xbarShown m = s.nat (PW_XBAR m))

/-- PW_CTRL START of a generator whose flock is CLEAN starts it at the edge that ends the fc after the write; a member of a group with an index other than 0 waits for the next sync with TSTART = 1; a flock that is not CLEAN refuses the start and counts it (R251, R375). START at time sets TSTART and waits for PW_START_TIME; a time already reached starts the generator at once and is late with cause 3. At PW_START_TIME the start takes the edge that ends the fc. STOP clears TSTART and cancels a start; at the edge that ends its fc RUN clears and the outputs take their stop levels (R251). -/
def Obligations.GeneratorStartAndStop : Prop :=
  (∀ (p : Port) (g : Fin 52) (s : State), s.takes p (PW_CTRL g) 1 = true → s.scOn = false →
    s.flag (FLK_STAT (s.fld (PW_MAP g) fPW_MAP_FLOCK)) fFLK_STAT_CLEAN = true → (s.phen g = false ∨ s.phidx g = 0) →
    exec (.generatorStart p g) s = .next (s.after p (PW_CTRL g) 1 (fun u => u.setGen g { u.gen g with startAt := some (s.fc + 1) })))
  ∧ (∀ (p : Port) (g : Fin 52) (s : State), s.takes p (PW_CTRL g) 1 = true → s.scOn = false →
    s.flag (FLK_STAT (s.fld (PW_MAP g) fPW_MAP_FLOCK)) fFLK_STAT_CLEAN = true → s.phen g = true → s.phidx g ≠ 0 →
    exec (.generatorStart p g) s = .next (s.after p (PW_CTRL g) 1 (fun u =>
      (u.setFlag (PW_STAT g) fPW_STAT_TSTART true).setGen g { u.gen g with groupStart := true })))
  ∧ (∀ (p : Port) (g : Fin 52) (s : State), s.takes p (PW_CTRL g) 1 = true → s.scOn = false →
    s.flag (FLK_STAT (s.fld (PW_MAP g) fPW_MAP_FLOCK)) fFLK_STAT_CLEAN = false →
    exec (.generatorStart p g) s = .next (s.after p (PW_CTRL g) 1 (fun u => u.inc (PW_CFG_REFUSED g))))
  ∧ (∀ (p : Port) (g : Fin 52) (s : State), s.takes p (PW_CTRL g) 2 = true → s.scOn = false →
    s.flag (FLK_STAT (s.fld (PW_MAP g) fPW_MAP_FLOCK)) fFLK_STAT_CLEAN = true →
    reached (s.reg64 (PW_START_TIME_LO g) (PW_START_TIME_HI g)) s.now = false →
    exec (.generatorStartAtTime p g) s = .next (s.after p (PW_CTRL g) 2 (fun u => u.setFlag (PW_STAT g) fPW_STAT_TSTART true)))
  ∧ (∀ (p : Port) (g : Fin 52) (s : State), s.takes p (PW_CTRL g) 2 = true → s.scOn = false →
    s.flag (FLK_STAT (s.fld (PW_MAP g) fPW_MAP_FLOCK)) fFLK_STAT_CLEAN = true → s.phen g = false →
    reached (s.reg64 (PW_START_TIME_LO g) (PW_START_TIME_HI g)) s.now = true →
    exec (.generatorStartAtTime p g) s = .next (s.after p (PW_CTRL g) 2 (fun u =>
      State.genLate (u.setGen g { u.gen g with startAt := some (s.fc + 1) }) g 3 0 0 (s.fld (PW_MAP g) fPW_MAP_LOGICAL) 0)))
  ∧ (∀ (g : Fin 52) (s : State), s.live = true → s.flag (PW_STAT g) fPW_STAT_TSTART = true → (s.gen g).groupStart = false →
    reached (s.reg64 (PW_START_TIME_LO g) (PW_START_TIME_HI g)) s.now = true → s.phen g = false →
    exec (.timedStart g) s = .next (s.setGen g { s.gen g with startAt := some s.fc }))
  ∧ (∀ (g : Fin 52) (s : State), s.flag (PW_STAT g) fPW_STAT_TSTART = false → exec (.timedStart g) s = .next s)
  ∧ (∀ (p : Port) (g : Fin 52) (s : State), s.takes p (PW_CTRL g) 3 = true → s.scOn = false →
    exec (.generatorStop p g) s = .next (s.after p (PW_CTRL g) 3 (fun u =>
      (u.setFlag (PW_STAT g) fPW_STAT_TSTART false).setGen g { u.gen g with startAt := none, groupStart := false, stopAt := some s.fc })))
  ∧ (∀ (g : Nat) (t : Nat) (s : State), s.genHold g t = (
      let v := s.setFlag (PW_STAT g) fPW_STAT_RUN false
      (v.setGen g { v.gen g with stopAt := none, zroDue := false, prdDue := false, startEdge := false }).genStopLevels g t))

/-! ### Gated timers (09_gated_timers.md) -/

/-- An armed compare of a running timer that is reached matches once in the fc: MATCH is set, the match stamp and count are taken, its SOC outputs and its event follow; with STEP 0 it disarms, else its value advances by STEP (R260, R261). An unarmed compare, and one of a stopped timer, does not match. An edge of a capture's source registers after the latency of its kind, 3 fc for TRIPn; there an edge of the selected sense takes the count and a stamp, the edge's own for KIND 2 and 4, and sets CFULL; a second one while CFULL is set also sets COVR and counts (R262). An edge of the other sense, or of a source that does not exist, captures nothing. In slow advance a capture compares the levels of two CLK_SLOW edges (R264). TM_CAP_SW captures for the captures of KIND 5 whose bit is 1 (R262). A write of TM_CMP arms the compare; the value and the armed state before it stay in force for the evaluation of the same fc (R260, R268). A gate level from a pin decides the count 3 fc later, one of TM_CTRL.SWG 1 fc later; a GIDX that names no source gives an inactive gate; a running timer with its gate active counts at every edge (R259). -/
def Obligations.TimerComparesAndCaptures : Prop :=
  (∀ (t : Fin 36) (cmp : Fin 4) (s : State), s.pw.mode = .graze → s.timRun t = true → s.timSlow t = false → s.timArmed t cmp = true →
    cmpReached (s.reg (TM_CNT t)) (s.reg (TM_CMP t cmp)) = true → (s.timCmp t cmp).wrFc ≠ s.fc + 1 → (s.timCmp t cmp).matchFc ≠ s.fc + 1 →
    s.flag (TM_MAP t) fTM_MAP_LVALID = false → bitOf (s.fld (TM_CMP_CFG t) fTM_CMP_CFG_EVEN) cmp = false → s.reg (TM_CMP_STEP t cmp) = 0 →
    exec (.timerMatch t cmp) s = .next (State.wakeCheck (
      let u := s.setTimCmp t cmp { s.timCmp t cmp with matchFc := s.fc + 1 }
      let u := u.setFlag (TM_STAT t) ⟨fTM_STAT_MATCH.lo + cmp, 1⟩ true
      let u := State.inc (u.setReg64 (TM_MATCH_STAMP_LO t cmp) (TM_MATCH_STAMP_HI t cmp) s.now) (TM_MATCH_CNT t)
      u.setTimArmed t cmp false)))
  ∧ (∀ (t : Fin 36) (cmp : Fin 4) (s : State), s.pw.mode = .graze → s.timRun t = true → s.timSlow t = false → s.timArmed t cmp = true →
    cmpReached (s.reg (TM_CNT t)) (s.reg (TM_CMP t cmp)) = true → (s.timCmp t cmp).wrFc ≠ s.fc + 1 → (s.timCmp t cmp).matchFc ≠ s.fc + 1 →
    s.flag (TM_MAP t) fTM_MAP_LVALID = false → bitOf (s.fld (TM_CMP_CFG t) fTM_CMP_CFG_EVEN) cmp = false → s.reg (TM_CMP_STEP t cmp) ≠ 0 →
    exec (.timerMatch t cmp) s = .next (State.wakeCheck (
      let u := s.setTimCmp t cmp { s.timCmp t cmp with matchFc := s.fc + 1 }
      let u := u.setFlag (TM_STAT t) ⟨fTM_STAT_MATCH.lo + cmp, 1⟩ true
      let u := State.inc (u.setReg64 (TM_MATCH_STAMP_LO t cmp) (TM_MATCH_STAMP_HI t cmp) s.now) (TM_MATCH_CNT t)
      u.setReg (TM_CMP t cmp) (s.reg (TM_CMP t cmp) + s.reg (TM_CMP_STEP t cmp)))))
  ∧ (∀ (t : Fin 36) (cmp : Fin 4) (s : State), s.pw.mode = .graze → s.timRun t = true → s.timArmed t cmp = true →
    cmpReached (s.reg (TM_CNT t)) (s.reg (TM_CMP t cmp)) = true → (s.timCmp t cmp).wrFc ≠ s.fc + 1 → (s.timCmp t cmp).matchFc ≠ s.fc + 1 →
    exec (.timerMatch t cmp) s = .next
      (((s.setTimCmp t cmp { s.timCmp t cmp with matchFc := s.fc + 1 }).matchRecord t cmp).matchStep t cmp).wakeCheck)
  ∧ (∀ (t : Fin 36) (cmp : Fin 4) (s : State), s.wakeLatch = none → (s.timRun t = false ∨ s.timArmed t cmp = false) →
    (s.timCmp t cmp).wrFc ≠ s.fc + 1 → exec (.timerMatch t cmp) s = .next s)
  ∧ (∀ (t : Fin 36) (j : Fin 2) (k idx : Nat) (rising : Bool) (s : State), s.pw.mode = .graze → s.fld (TM_CAP_CFG t j) fTM_CAP_CFG_KIND = 2 →
    s.fld (TM_CAP_CFG t j) fTM_CAP_CFG_IDX = idx → idx < 64 → (s.tripIn idx).inj = none → s.flag TB_STAT fTB_STAT_SRC = true →
    (s.line (lineKey 2 idx)).queue = [] →
    exec (.timerCapture t j k rising) s = .next (s.setLine (lineKey 2 idx)
      { s.line (lineKey 2 idx) with queue := [⟨s.fc + 3, rising, some (s.edgeStamp k)⟩] }))
  ∧ (∀ (t : Fin 36) (j : Fin 2) (k : Nat) (rising : Bool) (s : State), s.fld (TM_CAP_CFG t j) fTM_CAP_CFG_KIND = 2 →
    64 ≤ s.fld (TM_CAP_CFG t j) fTM_CAP_CFG_IDX → exec (.timerCapture t j k rising) s = .next s)
  ∧ (∀ (t j key due : Nat) (level : Bool) (st : Stamp) (s : State), s.capLine t j = some key →
    bitOf (s.fld (TM_CAP_CFG t j) fTM_CAP_CFG_EDGE) (if level then 0 else 1) = true →
    s.captureOf t j (key, ⟨due, level, some st⟩) = s.capture t j (if key / 256 = 2 ∨ key / 256 = 4 then st else s.now))
  ∧ (∀ (t j key due : Nat) (level : Bool) (cap : Option Stamp) (s : State), (s.capLine t j ≠ some key ∨ cap = none
      ∨ bitOf (s.fld (TM_CAP_CFG t j) fTM_CAP_CFG_EDGE) (if level then 0 else 1) = false) →
    s.captureOf t j (key, ⟨due, level, cap⟩) = s)
  ∧ (∀ (t j : Nat) (st : Stamp) (s : State), bitOf (s.fld (TM_STAT t) fTM_STAT_CFULL) j = false →
    s.capture t j st = (
      let u := (s.setReg (TM_CAP_VAL t j) (s.reg (TM_CNT t))).setReg64 (TM_CAP_STAMP_LO t j) (TM_CAP_STAMP_HI t j) st
      (u.setFlag (TM_STAT t) ⟨fTM_STAT_CFULL.lo + j, 1⟩ true).hurdle 2 t (fun v => v.raiseNamed (641 + 2 * t) [j, 0])))
  ∧ (∀ (t j : Nat) (st : Stamp) (s : State), bitOf (s.fld (TM_STAT t) fTM_STAT_CFULL) j = true →
    s.capture t j st = (
      let u := (s.setReg (TM_CAP_VAL t j) (s.reg (TM_CNT t))).setReg64 (TM_CAP_STAMP_LO t j) (TM_CAP_STAMP_HI t j) st
      let u := u.setFlag (TM_STAT t) ⟨fTM_STAT_CFULL.lo + j, 1⟩ true
      let u := State.inc (u.setFlag (TM_STAT t) ⟨fTM_STAT_COVR.lo + j, 1⟩ true) (TM_CAP_OVR_CNT t)
      u.hurdle 2 t (fun v => v.raiseNamed (641 + 2 * t) [j, 1])))
  ∧ (∀ (t j key : Nat) (s : State), s.capLine t j = some key → s.fld (TM_CAP_CFG t j) fTM_CAP_CFG_EDGE = 1 →
    (s.line key).prev = false → (s.line key).raw = true → s.captureSlow t j = s.capture t j s.now)
  ∧ (∀ (p : Port) (t : Fin 36) (caps : Fin 4) (s : State), s.takes p (TM_CAP_SW t) (.ofNat 32 caps.val) = true →
    s.fld (TM_CAP_CFG t 0) fTM_CAP_CFG_KIND = 5 → s.fld (TM_CAP_CFG t 1) fTM_CAP_CFG_KIND ≠ 5 →
    exec (.tmCapSw p t caps) s = .next (s.after p (TM_CAP_SW t) (.ofNat 32 caps.val) (fun u =>
      if caps.val % 2 = 1 then u.capture t 0 s.now else u)))
  ∧ (∀ (p : Port) (t : Fin 36) (cmp : Fin 4) (data : Word) (s : State), s.takes p (TM_CMP t cmp) data = true →
    (s.timCmp t cmp).wrFc ≠ s.fc + 1 →
    exec (.tmCmp p t cmp data) s = .next (s.after p (TM_CMP t cmp) data (fun u =>
      ((u.setTimCmp t cmp { s.timCmp t cmp with wrFc := s.fc + 1, oldVal := s.reg (TM_CMP t cmp), oldArmed := s.timArmed t cmp }).setReg
        (TM_CMP t cmp) data).setTimArmed t cmp true)))
  ∧ (∀ (t : Fin 36) (idx : Nat) (level : Bool) (s : State), s.pw.mode = .graze → s.fld (TM_CFG t) fTM_CFG_GKIND = 2 →
    s.fld (TM_CFG t) fTM_CFG_GIDX = idx → idx < 64 → (s.tripIn idx).inj = none → s.flag TB_STAT fTB_STAT_SRC = true →
    (s.line (lineKey 2 idx)).queue = [] → level ≠ (s.line (lineKey 2 idx)).level →
    exec (.gateLevelChange t level) s = .next (s.setLine (lineKey 2 idx)
      { s.line (lineKey 2 idx) with queue := [⟨s.fc + 3, level, none⟩] }))
  ∧ (∀ (t : Fin 36) (level : Bool) (s : State), s.fld (TM_CFG t) fTM_CFG_GKIND = 5 → exec (.gateLevelChange t level) s = .next s)
  ∧ (∀ (t : Nat) (s : State), s.fld (TM_CFG t) fTM_CFG_GKIND = 0 → s.gateNow t = true)
  ∧ (∀ (t : Nat) (s : State), s.fld (TM_CFG t) fTM_CFG_GKIND = 2 → s.gateNow t = (decide (s.fld (TM_CFG t) fTM_CFG_GIDX < 64)
      && ((s.line (lineKey 2 (s.fld (TM_CFG t) fTM_CFG_GIDX))).level != s.flag (TM_CFG t) fTM_CFG_GPOL)))
  ∧ (∀ (t : Nat) (s : State), s.fld (TM_CFG t) fTM_CFG_GKIND = 5 →
    s.gateNow t = (s.flag (TM_CTRL t) fTM_CTRL_SWG != s.flag (TM_CFG t) fTM_CFG_GPOL))
  ∧ (∀ (t c : Nat) (s : State), (s.tim t).cmds = [] → (s.tim t).startAt = none → s.timEdge c [] t = (
      let u := if s.timRun t && s.flag (TM_STAT t) fTM_STAT_GATE && !s.timSlow t then s.setReg (TM_CNT t) (s.reg (TM_CNT t) + 1) else s
      if u.flag TB_STAT fTB_STAT_SRC then u.gateEdge t else u))

/-- START of a timer whose flock is CLEAN, STOP and LOAD act at the edge that ends the fc of the write: START sets RUN, STOP clears it, LOAD gives the counter TM_LOAD, clears the fraction and no count is added for its fc; a flock that is not CLEAN refuses START and counts it (R266, R375). GO = 1 of an enabled group schedules every member at the edge that ends the fc after; of a disabled one it does nothing. GO = 2 sets TSTART of every member until TMG_TIME, or starts at the edge that ends the fc, late, with LATE and its count, when TMG_TIME is already reached. A member starts with TMG_BASE - floor(TMG_SPAN × MIDX / N). At TMG_TIME the waiting members start at the edge that ends the fc (R267). -/
def Obligations.TimerCommands : Prop :=
  (∀ (p : Port) (t : Fin 36) (s : State) (w : Word), w = fTM_CTRL_CMD.put (s.reg (TM_CTRL t)) 1 → s.takes p (TM_CTRL t) w = true →
    s.flag (FLK_STAT (s.fld (TM_MAP t) fTM_MAP_FLOCK)) fFLK_STAT_CLEAN = true →
    exec (.timerStart p t) s = .next (s.after p (TM_CTRL t) w (fun u =>
      (u.setReg (TM_CTRL t) (fTM_CTRL_CMD.put (s.reg (TM_CTRL t)) 0)).setTim t { s.tim t with cmds := (s.tim t).cmds ++ [(s.fc, 1)] })))
  ∧ (∀ (p : Port) (t : Fin 36) (s : State) (w : Word), w = fTM_CTRL_CMD.put (s.reg (TM_CTRL t)) 1 → s.takes p (TM_CTRL t) w = true →
    s.flag (FLK_STAT (s.fld (TM_MAP t) fTM_MAP_FLOCK)) fFLK_STAT_CLEAN = false →
    exec (.timerStart p t) s = .next (s.after p (TM_CTRL t) w (fun u =>
      (u.setReg (TM_CTRL t) (fTM_CTRL_CMD.put (s.reg (TM_CTRL t)) 0)).inc (TM_CFG_REFUSED t))))
  ∧ (∀ (p : Port) (t : Fin 36) (s : State) (w : Word), w = fTM_CTRL_CMD.put (s.reg (TM_CTRL t)) 2 → s.takes p (TM_CTRL t) w = true →
    exec (.timerStop p t) s = .next (s.after p (TM_CTRL t) w (fun u =>
      (u.setReg (TM_CTRL t) (fTM_CTRL_CMD.put (s.reg (TM_CTRL t)) 0)).setTim t { s.tim t with cmds := (s.tim t).cmds ++ [(s.fc, 2)] })))
  ∧ (∀ (p : Port) (t : Fin 36) (s : State) (w : Word), w = fTM_CTRL_CMD.put (s.reg (TM_CTRL t)) 3 → s.takes p (TM_CTRL t) w = true →
    exec (.timerLoad p t) s = .next (s.after p (TM_CTRL t) w (fun u =>
      (u.setReg (TM_CTRL t) (fTM_CTRL_CMD.put (s.reg (TM_CTRL t)) 0)).setTim t { s.tim t with cmds := (s.tim t).cmds ++ [(s.fc, 3)] })))
  ∧ (∀ (t c cmd : Nat) (s : State), (s.tim t).cmds = [(c, cmd)] → (s.tim t).startAt = none → s.flag TB_STAT fTB_STAT_SRC = false →
    1 ≤ cmd → cmd ≤ 3 → s.timEdge c [] t = (
      let u := if s.timRun t && s.flag (TM_STAT t) fTM_STAT_GATE && !s.timSlow t && cmd != 3 then s.setReg (TM_CNT t) (s.reg (TM_CNT t) + 1) else s
      let u := u.setTim t { s.tim t with cmds := [] }
      if cmd = 1 then u.setFlag (TM_STAT t) fTM_STAT_RUN true else if cmd = 2 then u.setFlag (TM_STAT t) fTM_STAT_RUN false
      else (u.setReg (TM_CNT t) (u.reg (TM_LOAD t))).setNat (TM_CNT_FRAC t) 0))
  ∧ (∀ (p : Port) (j : Fin 8) (s : State), s.takes p (TMG_CTRL j) 1 = true → s.flag (TMG_CFG j) fTMG_CFG_EN = true →
    exec (.groupStart p j) s = .next (s.after p (TMG_CTRL j) 1 (fun u => forN (fun t x => if x.tmgMember j t then
      (if x.flag (FLK_STAT (x.fld (TM_MAP t) fTM_MAP_FLOCK)) fFLK_STAT_CLEAN then x.setTim t { x.tim t with startAt := some (u.fc + 1) }
        else x.inc (TM_CFG_REFUSED t)) else x) 36 u)))
  ∧ (∀ (p : Port) (j : Fin 8) (s : State), s.takes p (TMG_CTRL j) 1 = true → s.flag (TMG_CFG j) fTMG_CFG_EN = false →
    exec (.groupStart p j) s = .next (s.after p (TMG_CTRL j) 1 (fun u => u)))
  ∧ (∀ (p : Port) (j : Fin 8) (s : State), s.takes p (TMG_CTRL j) 2 = true → s.flag (TMG_CFG j) fTMG_CFG_EN = true →
    reached (s.reg64 (TMG_TIME_LO j) (TMG_TIME_HI j)) s.now = false →
    exec (.groupStartAtTime p j) s = .next (s.after p (TMG_CTRL j) 2 (fun u => forN (fun t x => if x.tmgMember j t then
      (if x.flag (FLK_STAT (x.fld (TM_MAP t) fTM_MAP_FLOCK)) fFLK_STAT_CLEAN then x.setFlag (TM_STAT t) fTM_STAT_TSTART true
        else x.inc (TM_CFG_REFUSED t)) else x) 36 { u with tmgPend := tset (fun _ => false) u.tmgPend j true })))
  ∧ (∀ (p : Port) (j : Fin 8) (s : State), s.takes p (TMG_CTRL j) 2 = true → s.flag (TMG_CFG j) fTMG_CFG_EN = true →
    reached (s.reg64 (TMG_TIME_LO j) (TMG_TIME_HI j)) s.now = true →
    exec (.groupStartAtTime p j) s = .next (s.after p (TMG_CTRL j) 2 (fun u =>
      ((u.tmgStart j u.fc).setFlag (TMG_STAT j) fTMG_STAT_LATE true).inc (TMG_LATE_CNT j))))
  ∧ (∀ (j c : Nat) (s : State), s.flag (TMG_CFG j) fTMG_CFG_EN = true → s.tmgStart j c = forN (fun t x => if x.tmgMember j t then
      (if x.flag (FLK_STAT (x.fld (TM_MAP t) fTM_MAP_FLOCK)) fFLK_STAT_CLEAN then x.setTim t { x.tim t with startAt := some c }
        else x.inc (TM_CFG_REFUSED t)) else x) 36 s)
  ∧ (∀ (j t : Nat) (s : State), s.groupLoad j t = (
      let u := (s.setReg (TM_CNT t) (s.reg (TMG_BASE j) - .ofNat 32 (s.nat (TMG_SPAN j) * s.fld (TM_CFG t) fTM_CFG_MIDX /
        s.fld (TMG_CFG j) fTMG_CFG_N))).setNat (TM_CNT_FRAC t) 0
      let u := (u.setFlag (TM_STAT t) fTM_STAT_RUN true).setFlag (TM_STAT t) fTM_STAT_TSTART false
      u.setTim t { u.tim t with startAt := none }))
  ∧ (∀ (j : Fin 8) (s : State), s.live = true → tget (fun _ => false) s.tmgPend j = true → reached (s.reg64 (TMG_TIME_LO j) (TMG_TIME_HI j)) s.now = true →
    exec (.tmgTime j) s = .next (forN (fun t x => if x.tmgMember j t && x.flag (TM_STAT t) fTM_STAT_TSTART then
      x.setTim t { x.tim t with startAt := some x.fc } else x) 36 { s with tmgPend := tset (fun _ => false) s.tmgPend j false }))
  ∧ (∀ (j : Fin 8) (s : State), s.live = true → tget (fun _ => false) s.tmgPend j = false → exec (.tmgTime j) s = .next s)

/-! ### Position and speed feedback (10_position_feedback.md) -/

/-- An edge of PFINi reaches the unit that reads the input (R273) and the timers' line. An active edge of a running unit with DIRMODE 0 and no filter is a tooth with the stamp of the edge; with a filter it waits; an opposite edge within PF_FLT makes it a glitch, both of whose edges are counted (log entry 20), a later one gives the width, which with DIRMODE 1 makes the tooth (R274, R275). With FRZ 2 a frozen unit counts an active edge as lost (R286). A tooth decided at least 3 fc ago registers at the edge that ends the fc, a younger one not yet: the stamp and the width are kept, the tooth is counted, PF_POS moves by 256 and the index steps; from the second tooth on, the interval goes into PF_PERIOD and the average, and four of them set AVGOK (R275 to R278). A rising edge of the auxiliary line is a mark in REFMODE 3, behind the latency of a tooth (log entry 64): REF stamp, teeth since the last mark, REFSEEN and REFOK, the count, the index 0, and EV(720 + 2x) with PF_REF_TEETH and the direction; in another mode it has no effect (R279, R280, R288). -/
def Obligations.FeedbackInputs : Prop :=
  (∀ (i : Fin 8) (x : Fin 10) (k : Nat) (rising : Bool) (s : State), s.live = true →
    (∀ y : Fin 10, s.fld (PF_CFG y) fPF_CFG_INSEL = i ↔ y = x) →
    exec (.pulseEdge i k rising) s = .next ((s.lineSet 4 i rising (some (s.edgeStamp k))).pulseUnit x rising (s.edgeStamp k)))
  ∧ (∀ (i : Fin 8) (k : Nat) (rising : Bool) (s : State), s.live = true → (∀ y : Fin 10, s.fld (PF_CFG y) fPF_CFG_INSEL ≠ i) →
    exec (.pulseEdge i k rising) s = .next (s.lineSet 4 i rising (some (s.edgeStamp k))))
  ∧ (∀ (x : Fin 10) (st : Stamp) (rising : Bool) (s : State), s.pfRun x = true → s.flag (PF_CFG x) fPF_CFG_MSRC = false →
    s.pfDeaf x = false → rising ≠ s.flag (PF_CFG x) fPF_CFG_EDGE → s.flag (PF_CFG x) fPF_CFG_DIRMODE = false → s.fld (PF_FLT x) fPF_FLT_FC = 0 →
    s.pulseUnit x rising st = s.setPfu x { s.pfu x with act := some (st, s.fc), taken := true, teeth := (s.pfu x).teeth ++ [⟨st, none, s.fc⟩] })
  ∧ (∀ (x : Fin 10) (st : Stamp) (rising : Bool) (s : State), s.pfRun x = true → s.flag (PF_CFG x) fPF_CFG_MSRC = false →
    s.pfDeaf x = false → rising ≠ s.flag (PF_CFG x) fPF_CFG_EDGE → s.fld (PF_FLT x) fPF_FLT_FC ≠ 0 →
    s.pulseUnit x rising st = s.setPfu x { s.pfu x with act := some (st, s.fc), taken := false })
  ∧ (∀ (x : Fin 10) (st a : Stamp) (f : Nat) (rising : Bool) (s : State), s.pfRun x = true → s.flag (PF_CFG x) fPF_CFG_MSRC = false →
    s.pfDeaf x = false → rising = s.flag (PF_CFG x) fPF_CFG_EDGE → (s.pfu x).act = some (a, f) → s.fc - f < s.fld (PF_FLT x) fPF_FLT_FC →
    s.pulseUnit x rising st = State.incBy (s.setPfu x { s.pfu x with act := none, taken := false }) (PF_GLITCH_CNT x) 2)
  ∧ (∀ (x : Fin 10) (st a : Stamp) (f : Nat) (rising : Bool) (s : State), s.pfRun x = true → s.flag (PF_CFG x) fPF_CFG_MSRC = false →
    s.pfDeaf x = false → rising = s.flag (PF_CFG x) fPF_CFG_EDGE → (s.pfu x).act = some (a, f) → s.fld (PF_FLT x) fPF_FLT_FC ≤ s.fc - f →
    s.flag (PF_CFG x) fPF_CFG_DIRMODE = true →
    s.pulseUnit x rising st = s.setPfu x { s.pfu x with act := none, taken := false, teeth := (s.pfu x).teeth ++ [⟨a, some (min (st - a).toNat 0xFFFFFFFF), s.fc⟩] })
  ∧ (∀ (x : Fin 10) (st a : Stamp) (f : Nat) (rising : Bool) (s : State), s.pfRun x = true → s.flag (PF_CFG x) fPF_CFG_MSRC = false →
    s.pfDeaf x = false → rising = s.flag (PF_CFG x) fPF_CFG_EDGE → (s.pfu x).act = some (a, f) → s.fld (PF_FLT x) fPF_FLT_FC ≤ s.fc - f →
    s.flag (PF_CFG x) fPF_CFG_DIRMODE = false → (s.pfu x).taken = true →
    s.pulseUnit x rising st = State.setPfu (s.later (s.fc + 3) (.pfWidth x (min (st - a).toNat 0xFFFFFFFF))) x
      { s.pfu x with act := none, taken := false })
  ∧ (∀ (x : Fin 10) (st : Stamp) (rising : Bool) (s : State), s.pfRun x = true → s.flag (PF_CFG x) fPF_CFG_MSRC = false →
    s.pfDeaf x = true → rising ≠ s.flag (PF_CFG x) fPF_CFG_EDGE → s.pulseUnit x rising st = s.inc (PF_FRZ_LOST x))
  ∧ (∀ (x : Fin 10) (st : Stamp) (rising : Bool) (s : State), s.pfRun x = false → s.pulseUnit x rising st = s)
  ∧ (∀ (x : Fin 10) (t : Tooth) (rest : List Tooth) (s : State), s.live = true → (s.pfu x).teeth = t :: rest → t.fc + 3 ≤ s.fc →
    exec (.toothEvent x) s = .next (s.setPfu x { s.pfu x with teeth := rest, reg := (s.pfu x).reg ++ [t] }))
  ∧ (∀ (x : Fin 10) (t : Tooth) (rest : List Tooth) (s : State), (s.pfu x).teeth = t :: rest → s.fc < t.fc + 3 →
    exec (.toothEvent x) s = .next s)
  ∧ (∀ (x : Fin 10) (t : Tooth) (s : State), s.flag (PF_CFG x) fPF_CFG_DIRMODE = false → s.pfRev x = false →
    s.refMode x = 0 → (s.pfu x).last = none → t.width = none →
    s.toothCount x t = (
      let u := State.inc (s.setReg64 (PF_EDGE_STAMP_LO x) (PF_EDGE_STAMP_HI x) t.stamp) (PF_TOOTH_CNT x)
      let u := State.setPfu u x { s.pfu x with last := some t.stamp }
      let u := u.setReg (PF_POS x) (s.reg (PF_POS x) + 256)
      let u := u.setNat (PF_TOOTH_IDX x) ((s.fld (PF_TOOTH_IDX x) fPF_TOOTH_IDX_IDX + 1) % s.pfN x)
      State.setPfu u x { u.pfu x with meas := some ⟨s.reg (PF_POS x) + 256, t.stamp, s.fc⟩ }))
  ∧ (∀ (x : Fin 10) (t : Tooth) (l : Stamp) (w : Nat) (s : State), s.flag (PF_CFG x) fPF_CFG_DIRMODE = true →
    s.widthClass x w = some false → t.width = some w → s.pfRev x = false →
    s.refMode x = 0 → (s.pfu x).last = some l → 3 ≤ (s.pfu x).since →
    s.toothCount x t = (
      let i := min (t.stamp - l).toNat 0xFFFFFFFF
      let u := State.setNat (s.setReg64 (PF_EDGE_STAMP_LO x) (PF_EDGE_STAMP_HI x) t.stamp) (PF_WIDTH x) w
      let u := State.setNat (u.inc (PF_TOOTH_CNT x)) (PF_PERIOD x) i
      let u := State.setPfu u x { u.pfu x with last := some t.stamp }
      let u := u.setReg (PF_POS x) (s.reg (PF_POS x) + 256)
      let u := u.setNat (PF_TOOTH_IDX x) ((s.fld (PF_TOOTH_IDX x) fPF_TOOTH_IDX_IDX + 1) % s.pfN x)
      let iv := i :: (s.pfu x).ivals.take 3
      let u := State.setPfu u x { u.pfu x with ivals := iv, since := (s.pfu x).since + 1 }
      let u := (u.setNat (PF_AVG x) (iv.sum / 4)).setFlag (PF_STAT x) fPF_STAT_AVGOK true
      let u := State.setPfu u x { u.pfu x with sinceMark := (s.pfu x).sinceMark + 1 }
      State.setPfu u x { u.pfu x with meas := some ⟨s.reg (PF_POS x) + 256, t.stamp, s.fc⟩ }))
  ∧ (∀ (i : Fin 8) (x : Fin 10) (k : Nat) (s : State), s.live = true → (∀ y : Fin 10, s.fld (PF_CFG y) fPF_CFG_INSEL = i ↔ y = x) →
    s.pfRun x = true → s.refMode x = 3 → s.pfDeaf x = false →
    exec (.auxIndexEdge i k) s = .next (
      let u := s.lineSet 4 (8 + i) true (some (s.edgeStamp k))
      u.setPfu x { s.pfu x with marks := (s.pfu x).marks ++ [(s.edgeStamp k, s.fc)] }))
  ∧ (∀ (i : Fin 8) (k : Nat) (s : State), s.live = true → (∀ y : Fin 10, s.refMode y ≠ 3) →
    exec (.auxIndexEdge i k) s = .next (s.lineSet 4 (8 + i) true (some (s.edgeStamp k))))
  ∧ (∀ (x : Fin 10) (st : Stamp) (teeth : Nat) (s : State), s.refMode x = 3 → s.fld (PF_CFG x) fPF_CFG_REFACT = 0 →
    s.mark x st teeth = (
      let u := (s.setReg64 (PF_REF_STAMP_LO x) (PF_REF_STAMP_HI x) st).setNat (PF_REF_TEETH x) teeth
      let u := State.inc ((u.setFlag (PF_STAT x) fPF_STAT_REFSEEN true).setFlag (PF_STAT x) fPF_STAT_REFOK true) (PF_REF_CNT x)
      let u := (u.setNat (PF_TOOTH_IDX x) 0).setReg (PF_REF_POS x) (s.reg (PF_POS x))
      (State.setPfu u x { s.pfu x with sinceMark := 0, marked := true }).pfRaise x (720 + 2 * x) [teeth, b2n (s.pfRev x)]))

/-- PF_OBS_DIV fc after the last step the observers step, earlier not (R281): a unit that does not run, or whose START or INIT falls in the fc, does not (R287). A step without a waiting measurement, under MSRC = 1, advances position, speed and acceleration by the prediction of R282 and publishes them with the stamp of the fc (R285); it uses a measurement that registered in an earlier fc, not one of its own fc (R281). A commit of an angle under MSRC = 1 is counted, moves PF_POS to the nearest position of that angle and waits for the next step; under MSRC = 0, or with a stamp in the future, it is refused and counted, and the first refusal raises EV(721 + 2x) (R284). START of a unit whose flock is CLEAN, STOP and INIT act at the edge that ends the fc; a flock that is not CLEAN refuses START (R375). START sets RUN, clears REFOK and AVGOK and sets the observer to PF_POS, STOP clears RUN, INIT sets position from PF_POS and speed and acceleration to 0 (R286). -/
def Obligations.FeedbackObserverAndCommands : Prop :=
  (∀ (s : State), s.live = true → s.fld PF_OBS_DIV fPF_OBS_DIV_FC ≤ s.pfPhase + 1 → exec .observerStep s = .next { s with pfStep := true })
  ∧ (∀ (s : State), s.live = true → s.pfPhase + 1 < s.fld PF_OBS_DIV fPF_OBS_DIV_FC → exec .observerStep s = .next s)
  ∧ (∀ (x : Nat) (s : State), (s.pfStep = false ∨ s.pfRun x = false ∨ (s.pfu x).initFc = s.fc + 1 ∨ 1 ∈ (s.pfu x).cmds ∨ 3 ∈ (s.pfu x).cmds) →
    s.pfSteps x = false)
  ∧ (∀ (x : Fin 10) (s : State), (s.pfu x).meas = none → (s.pfu x).measOld = none → s.flag (PF_CFG x) fPF_CFG_MSRC = true →
    s.obsUnit x = (
      let o := s.pfu x
      let n := { o with p := o.p + .ofInt 48 (o.w + o.a / 512), w := sat32 (o.w + o.a / 256) }
      let u := (State.setNat (s.setPfu x n) (PF_OPOS x) (n.p.toNat / 65536)).setNat (PF_OPOS_FRAC x) (n.p.toNat % 65536)
      ((u.setReg (PF_OSPD x) (intWord n.w)).setReg (PF_OACC x) (intWord n.a)).setReg64 (PF_OSTAMP_LO x) (PF_OSTAMP_HI x) s.now))
  ∧ (∀ (m : PfMeas) (o : Pfu) (fc : Nat), o.measOld = none → o.meas = some m → m.fc < fc → o.takeMeas fc = (some m, { o with meas := none }))
  ∧ (∀ (m : PfMeas) (o : Pfu) (fc : Nat), o.measOld = none → o.meas = some m → fc ≤ m.fc → o.takeMeas fc = (none, o))
  ∧ (∀ (p : Port) (x : Fin 10) (data : Word) (s : State), s.takes p (PF_MEAS_ANG x) data = true → (s.master p).pe = none →
    s.flag (PF_CFG x) fPF_CFG_MSRC = true → stampDiff (s.reg64 (PF_MEAS_STAMP_LO x) (PF_MEAS_STAMP_HI x)) s.now ≤ 0 → (s.pfu x).meas = none →
    exec (.pfMeasAng p x data) s = .next (s.after p (PF_MEAS_ANG x) data (fun u =>
      let r : Int := (s.pfN x * 256 : Nat)
      let d := ((data.toNat : Int) * r / 4294967296 - ((s.pfu x).p.toNat / 65536 : Nat)) % r
      let y := intWord (((s.pfu x).p.toNat / 65536 : Nat) + (if r ≤ 2 * d then d - r else d))
      State.setPfu ((u.inc (PF_MEAS_CNT x)).setReg (PF_POS x) y) x
        { s.pfu x with meas := some ⟨y, s.reg64 (PF_MEAS_STAMP_LO x) (PF_MEAS_STAMP_HI x), s.fc⟩ })))
  ∧ (∀ (p : Port) (x : Fin 10) (data : Word) (s : State), s.takes p (PF_MEAS_ANG x) data = true →
    (s.flag (PF_CFG x) fPF_CFG_MSRC = false ∨ 0 < stampDiff (s.reg64 (PF_MEAS_STAMP_LO x) (PF_MEAS_STAMP_HI x)) s.now) →
    s.flag (PF_STAT x) fPF_STAT_MREF = false →
    exec (.pfMeasAng p x data) s = .next (s.after p (PF_MEAS_ANG x) data (fun u =>
      State.pfRaise ((u.setFlag (PF_STAT x) fPF_STAT_MREF true).inc (PF_MEAS_REFUSED x)) x (721 + 2 * x) [2])))
  ∧ (∀ (p : Port) (x : Fin 10) (s : State), s.takes p (PF_CTRL x) 1 = true →
    s.flag (FLK_STAT (s.fld (PF_MAP x) fPF_MAP_FLOCK)) fFLK_STAT_CLEAN = true →
    exec (.feedbackStart p x) s = .next (s.after p (PF_CTRL x) 1 (fun u => u.setPfu x { s.pfu x with cmds := (s.pfu x).cmds ++ [1] })))
  ∧ (∀ (p : Port) (x : Fin 10) (s : State), s.takes p (PF_CTRL x) 1 = true →
    s.flag (FLK_STAT (s.fld (PF_MAP x) fPF_MAP_FLOCK)) fFLK_STAT_CLEAN = false →
    exec (.feedbackStart p x) s = .next (s.after p (PF_CTRL x) 1 (fun u => u.inc (PF_CFG_REFUSED x))))
  ∧ (∀ (p : Port) (x : Fin 10) (s : State), s.takes p (PF_CTRL x) 2 = true →
    exec (.feedbackStop p x) s = .next (s.after p (PF_CTRL x) 2 (fun u => u.setPfu x { s.pfu x with cmds := (s.pfu x).cmds ++ [2] })))
  ∧ (∀ (p : Port) (x : Fin 10) (s : State), s.takes p (PF_CTRL x) 3 = true →
    exec (.init p x) s = .next (s.after p (PF_CTRL x) 3 (fun u => u.setPfu x { s.pfu x with cmds := (s.pfu x).cmds ++ [3] })))
  ∧ (∀ (x : Fin 10) (s : State), s.pfCmd x 1 = (
      let u := (s.setFlag (PF_STAT x) fPF_STAT_RUN true).setFlag (PF_STAT x) fPF_STAT_REFOK false
      let u := State.setPfu (u.setFlag (PF_STAT x) fPF_STAT_AVGOK false) x { s.pfu x with since := 0 }
      let u := State.setPfu u x { s.pfu x with since := 0, marked := false }
      State.setPfu u x { s.pfu x with since := 0, marked := false, p := .ofNat 48 (s.nat (PF_POS x) * 65536), w := 0, a := 0, initFc := s.fc + 1 }))
  ∧ (∀ (x : Fin 10) (s : State), s.pfCmd x 2 = State.setPfu (s.setFlag (PF_STAT x) fPF_STAT_RUN false) x { s.pfu x with act := none, taken := false })
  ∧ (∀ (x : Fin 10) (s : State), s.pfCmd x 3 = s.setPfu x { s.pfu x with p := .ofNat 48 (s.nat (PF_POS x) * 65536), w := 0, a := 0, initFc := s.fc + 1 })

/-! ### Chanters (11_chanters.md) -/

/-- At its beat a Chanter that runs begins a round with the levels of its pins; before the beat, and in a stopped Chanter, nothing happens (R292, R293). At the end of fc b + i of a round its channels 4i to 4i + 3 execute (R292). A channel in its DLY counts it down; a legal word takes effect in the order in-shift, pins and out-shift, queue action, counter, stamp, condition and next address, with its DLY to follow (R296); a word with an unassigned field, or with the poison mark, faults the channel with cause 1 or 2 (R294, R304). A requested capture takes the stamp of its edge and is over; an edge of the other sense or of another pin takes none (R303). SEL asserts: the frame begins with its stamp and SDO presents the first bit of the next TX word. A sampling edge adds a bit of SDI; one beyond FBITS under EXC is counted and sets its flag. WLEN + 1 bits are a word: it goes to the RX queue at the end of the fc and SDO loads the next word. SEL releases: at the end of the fc the frame is over; a part word is pushed with the tag of a partial word under PART, a frame shorter than FBITS sets its flag (R312, R313). -/
def Obligations.ChanterRoundsAndFrames : Prop :=
  (∀ (n : Fin 36) (pio : BitVec 192) (s : State), s.live = true → s.chRun n = true → s.chFrozen n = false → s.beatFc n ≤ s.fc →
    exec (.round n pio) s = .next ((
      s.setChanter n { s.chanter n with beat := (s.chanter n).beat + 1, rounds := (s.chanter n).rounds ++ [⟨s.fc, s.now, pio⟩] })))
  ∧ (∀ (n : Fin 36) (pio : BitVec 192) (s : State), s.live = true → (s.chRun n = false ∨ s.fc < s.beatFc n) →
    exec (.round n pio) s = .next s)
  ∧ (∀ (n i : Nat) (r : Round) (s : State), (s.chanter n).rounds = [r] → s.fc = r.fc + i → i < 3 →
    s.chExec n = (
      let u := (((s.chanStep n (4 * i) r).chanStep n (4 * i + 1) r).chanStep n (4 * i + 2) r).chanStep n (4 * i + 3) r
      State.setChanter u n { u.chanter n with rounds := [r] }))
  ∧ (∀ (n : Nat) (r : Round) (s : State), (s.chanter n).rounds = [r] → s.fc = r.fc + 3 →
    s.chExec n = (
      let u := (((s.chanStep n 12 r).chanStep n 13 r).chanStep n 14 r).chanStep n 15 r
      State.setChanter u n { u.chanter n with rounds := [] }))
  ∧ (∀ (n k : Nat) (r : Round) (s : State), s.chanRuns n k = true → (s.chanter n).cmds = [] → (s.chan n k).delay ≠ 0 →
    s.chanStep n k r = s.setChan n k { s.chan n k with delay := (s.chan n k).delay - 1 })
  ∧ (∀ (n k w : Nat) (r : Round) (s : State), s.chanRuns n k = true → (s.chanter n).cmds = [] → (s.chan n k).delay = 0 →
    w = s.chantWord n (s.fld (CH_CSTAT n k) fCH_CSTAT_PC) →
    s.poisoned (CH_CMEM_LO n (s.fld (CH_CSTAT n k) fCH_CSTAT_PC)) = false → s.poisoned (CH_CMEM_HI n (s.fld (CH_CSTAT n k) fCH_CSTAT_PC)) = false →
    wordBad w = false → s.wordHolds n k w r.pio = false → s.wordFault n k w = 0 → s.facqHolds n w = false →
    s.chanStep n k r = (
      let pc := s.fld (CH_CSTAT n k) fCH_CSTAT_PC
      let u := ((s.inShift n k w r.pio).pinsAndOut n k w r.fc).chQact n k w s.now
      let u := (State.chCnt u n k w).chStmp n k w r.stamp
      let c := bitsOf w 19 2 == 1 || State.chCond u n k w r.pio
      let u := if bitsOf w 19 2 == 2 && c then State.chRaise u n 1 s.now [k, pc, (State.chan u n k).isr.toNat % 65536] else u
      let u := State.setFld u (CH_CSTAT n k) fCH_CSTAT_PC (if c then bitsOf w 11 8 else pc + 1)
      State.setChan u n k { u.chan n k with delay := bitsOf w 2 6 }))
  ∧ (∀ (n k : Nat) (r : Round) (s : State), s.chanRuns n k = true → (s.chanter n).cmds = [] → (s.chan n k).delay = 0 →
    s.poisoned (CH_CMEM_LO n (s.fld (CH_CSTAT n k) fCH_CSTAT_PC)) = false → s.poisoned (CH_CMEM_HI n (s.fld (CH_CSTAT n k) fCH_CSTAT_PC)) = false →
    wordBad (s.chantWord n (s.fld (CH_CSTAT n k) fCH_CSTAT_PC)) = true →
    s.chanStep n k r = s.chFault n k 1 s.now)
  ∧ (∀ (n k : Nat) (r : Round) (s : State), s.chanRuns n k = true → (s.chanter n).cmds = [] → (s.chan n k).delay = 0 →
    (s.poisoned (CH_CMEM_LO n (s.fld (CH_CSTAT n k) fCH_CSTAT_PC)) = true ∨ s.poisoned (CH_CMEM_HI n (s.fld (CH_CSTAT n k) fCH_CSTAT_PC)) = true) →
    s.chanStep n k r = s.chFault n k 2 s.now)
  ∧ (∀ (n k : Nat) (r : Round) (s : State), s.chanRuns n k = false → s.chanStep n k r = s)
  ∧ (∀ (n : Fin 36) (ch : Fin 16) (w : Fin 4) (k : Nat) (rising : Bool) (s : State), s.live = true → (s.chan n ch).cap = some rising →
    s.fld (CH_CCFG n ch) fCH_CCFG_EPIN = w →
    exec (.capturedEdge n ch ⟨w, k⟩ rising) s = .next ((State.setChan (s.setReg64 (CH_STAMP_LO n ch) (CH_STAMP_HI n ch) (s.edgeStamp k)) n ch
      { s.chan n ch with cap := none })))
  ∧ (∀ (n : Fin 36) (ch : Fin 16) (w : Fin 4) (k : Nat) (rising : Bool) (s : State), s.live = true →
    ((s.chan n ch).cap ≠ some rising ∨ s.fld (CH_CCFG n ch) fCH_CCFG_EPIN ≠ w) →
    exec (.capturedEdge n ch ⟨w, k⟩ rising) s = .next s)
  ∧ (∀ (n : Fin 36) (ch : Fin 16) (k : Nat) (w : QWord) (t : List QWord) (s : State), s.live = true → s.chFramed n ch = true →
    s.chanRuns n ch = true → (s.chan n ch).sel = false → (s.chan n ch).tx = w :: t → w.2 = false →
    exec (.frameStart n ch ⟨s.flag (CH_FRM n ch) fCH_FRM_SELPOL, k⟩) s = .next ((
      let u := s.setChan n ch { s.chan n ch with sel := true, frm := 0, frmN := 0, frmBits := 0 }
      let u := u.setReg64 (CH_STAMP_LO n ch) (CH_STAMP_HI n ch) (s.edgeStamp k)
      (State.setChan u n ch { u.chan n ch with sdo := w.1, tx := t }).sdoDrive n ch 0)))
  ∧ (∀ (n : Fin 36) (ch : Fin 16) (k : Nat) (level : Bool) (s : State), s.live = true →
    (s.chFramed n ch = false ∨ level ≠ s.flag (CH_FRM n ch) fCH_FRM_SELPOL) → exec (.frameStart n ch ⟨level, k⟩) s = .next s)
  ∧ (∀ (n : Fin 36) (ch : Fin 16) (w : QWord) (t : List QWord) (s : State), s.live = true → s.chFramed n ch = true → s.chanRuns n ch = true →
    (s.chan n ch).sel = true → s.fld (CH_FRM n ch) fCH_FRM_WLEN + 1 ≤ (s.chan n ch).frmN → s.flag (CH_FRM n ch) fCH_FRM_FDIR = false →
    (s.chan n ch).tx = w :: t → w.2 = false →
    exec (.framedWord n ch) s = .next ((
      let wlen := s.fld (CH_FRM n ch) fCH_FRM_WLEN
      s.setChan n ch { s.chan n ch with frm := 0, frmN := 0, sdo := w.1, tx := t, frmPush := (s.chan n ch).frmPush ++ [(.ofNat 32 ((s.chan n ch).frm.toNat % 2 ^ (wlen + 1)), wlen)] })))
  ∧ (∀ (n : Fin 36) (ch : Fin 16) (s : State), s.live = true → (s.chan n ch).frmN ≤ s.fld (CH_FRM n ch) fCH_FRM_WLEN →
    exec (.framedWord n ch) s = .next s)
  ∧ (∀ (n k tag : Nat) (v : Word) (s : State), (s.chan n k).release = false → (s.chan n k).frmPush = [(v, tag)] → (s.chan n k).txNext = [] →
    (s.chan n k).rx.length < s.chDepth n k true →
    s.chanEnd n k = s.setChan n k { s.chan n k with frmPush := [], rx := (s.chan n k).rx ++ [⟨v, tag, s.reg64 (CH_STAMP_LO n k) (CH_STAMP_HI n k)⟩] })
  ∧ (∀ (n : Fin 36) (ch : Fin 16) (rising sdi : Bool) (s : State), s.live = true → s.chFramed n ch = true → s.chanRuns n ch = true →
    (s.chan n ch).sel = true → (s.chan n ch).frmN ≤ s.fld (CH_FRM n ch) fCH_FRM_WLEN → rising ≠ s.flag (CH_FRM n ch) fCH_FRM_SEDGE →
    s.frameFull n ch = false →
    exec (.sclkEdge n ch rising sdi) s = .next ((s.setChan n ch { s.chan n ch with frm := shiftIn (s.chan n ch).frm (s.flag (CH_FRM n ch) fCH_FRM_FDIR) sdi, frmN := (s.chan n ch).frmN + 1, frmBits := (s.chan n ch).frmBits + 1 })))
  ∧ (∀ (n : Fin 36) (ch : Fin 16) (rising sdi : Bool) (s : State), s.live = true → s.chFramed n ch = true → s.chanRuns n ch = true →
    (s.chan n ch).sel = true → (s.chan n ch).frmN ≤ s.fld (CH_FRM n ch) fCH_FRM_WLEN → rising = s.flag (CH_FRM n ch) fCH_FRM_SEDGE →
    s.frameFull n ch = false →
    exec (.sclkEdge n ch rising sdi) s = .next (s.sdoDrive n ch (s.chan n ch).frmN))
  ∧ (∀ (n : Fin 36) (ch : Fin 16) (rising sdi : Bool) (s : State), s.live = true → s.chFramed n ch = true → s.chanRuns n ch = true →
    (s.chan n ch).sel = true → (s.chan n ch).frmN ≤ s.fld (CH_FRM n ch) fCH_FRM_WLEN → rising ≠ s.flag (CH_FRM n ch) fCH_FRM_SEDGE →
    s.frameFull n ch = true →
    exec (.sclkEdge n ch rising sdi) s = .next ((s.incSat (CH_CNT_B n ch) fCH_CNT_B_XBITS).chFlag n ch 8 s.now))
  ∧ (∀ (n : Fin 36) (ch : Fin 16) (level : Bool) (s : State), s.live = true → s.chFramed n ch = true → level ≠ s.flag (CH_FRM n ch) fCH_FRM_SELPOL →
    exec (.frameEnd n ⟨ch, level⟩) s = .next ((s.setChan n ch { s.chan n ch with release := true })))
  ∧ (∀ (n : Fin 36) (ch : Fin 16) (level : Bool) (s : State), s.live = true → level = s.flag (CH_FRM n ch) fCH_FRM_SELPOL →
    exec (.frameEnd n ⟨ch, level⟩) s = .next s)
  ∧ (∀ (n k : Nat) (s : State), s.chFramed n k = true → s.chanRuns n k = true →
    (s.chan n k).sel = true → (s.chan n k).frmN ≤ s.fld (CH_FRM n k) fCH_FRM_WLEN → (s.chan n k).frmN ≠ 0 →
    s.flag (CH_FRM n k) fCH_FRM_PART = true → s.flag (CH_FRM n k) fCH_FRM_FDIR = false →
    s.fld (CH_FRM n k) fCH_FRM_FBITS ≤ (s.chan n k).frmBits →
    s.frameRelease n k = (
      let c := s.chan n k
      s.setChan n k { c with sel := false, release := false, frm := 0, frmN := 0, frmPush := c.frmPush ++ [(.ofNat 32 (c.frm.toNat % 2 ^ c.frmN), c.frmN - 1 + 32)] }))
  ∧ (∀ (n k : Nat) (s : State), s.chFramed n k = true → s.chanRuns n k = true →
    (s.chan n k).sel = true → (s.chan n k).frmN = 0 → (s.chan n k).frmBits < s.fld (CH_FRM n k) fCH_FRM_FBITS →
    s.frameRelease n k = (
      let u := s.setChan n k { s.chan n k with sel := false, release := false, frm := 0, frmN := 0 }
      State.chFlag u n k 10 s.now))

/-- The pushes of one fc into a TX queue are taken at its end, the feeder's first, then the scatter agent's, then a register write's; into a full queue the word is lost and its flag is set (R307, R308). A read of CH_RXDATA removes the head and CH_RXTAG takes its tag; of an empty queue it returns 0, CH_RXTAG reads 0 and RUND is set (R307, R308). The feeder moves the head entry of its fabric queue into a TX queue that has room for NW + 1 words; without room, or disabled, it does nothing (R307). The drain puts the head RX word into its fabric queue and removes it when the fabric takes it or sinks it as stale (R307, R327). The scatter agent gives one pair an fc of its entry in hand to the channel that CH_SMAP names; a pair whose index is out of range or not mapped is skipped and counted (R309). -/
def Obligations.ChannelQueues : Prop :=
  (∀ (p : Port) (n : Fin 36) (ch : Fin 16) (data : Word) (s : State), s.takes p (CH_TXDATA n ch) data = true →
    exec (.chTxdata p n ch data) s = .next (s.after p (CH_TXDATA n ch) data (fun u =>
      u.setChan n ch { s.chan n ch with txNext := (s.chan n ch).txNext ++ [(2, (data, false))] })))
  ∧ (∀ (n k : Nat) (a b c : QWord) (s : State), (s.chan n k).txNext = [(2, a), (1, b), (0, c)] → (s.chan n k).tx.length + 3 ≤ s.chDepth n k false →
    s.txTakeAll n k = s.setChan n k { s.chan n k with txNext := [], tx := (s.chan n k).tx ++ [c, b, a] })
  ∧ (∀ (n k : Nat) (w : QWord) (s : State), s.chDepth n k false ≤ (s.chan n k).tx.length →
    s.txTake n k 2 w = s.chFlag n k 6 s.now ∧ s.txTake n k 0 w = s.chFlag n k 6 s.now ∧ s.txTake n k 1 w = (s.inc CH_SCAT_DROP).chFlag n k 6 s.now)
  ∧ (∀ (p : Port) (n : Fin 36) (ch : Fin 16) (e : RxEntry) (t : List RxEntry) (s : State), s.reads p (CH_RXDATA n ch) = true →
    (s.chan n ch).rx = e :: t → s.hiLatch = [] →
    exec (.chRxdata p n ch) s = .next ((State.setChan (s.setNat (CH_RXTAG n ch) e.tag) n ch { s.chan n ch with rx := t }).respond p 0
      (e.data.setWidth 64)).settle)
  ∧ (∀ (p : Port) (n : Fin 36) (ch : Fin 16) (s : State), s.reads p (CH_RXDATA n ch) = true → (s.chan n ch).rx = [] → s.hiLatch = [] →
    exec (.chRxdata p n ch) s = .next (((s.setNat (CH_RXTAG n ch) 0).chFlag n ch 7 s.now).respond p 0 0).settle)
  ∧ (∀ (n : Fin 36) (ch : Fin 16) (e : List QWord) (q : Nat) (s u v : State), s.live = true → s.flag (CH_TXSRC n ch) fCH_TXSRC_EN = true →
    q = s.fld (CH_TXSRC n ch) fCH_TXSRC_QUEUE → s.txRoom n ch (s.fld (CH_TXSRC n ch) fCH_TXSRC_NW + 1) = true → s.qBusy q = false →
    (s.chan n ch).fed ≠ s.fc + 1 → ¬ (s.qEn q = true ∧ s.qShown q = 0) → s.underTest 4 n = false → s.hurdleDrops 4 n = false →
    u = s.setChan n ch { s.chan n ch with fed := s.fc + 1 } →
    u.qGet q (.chan n ch) (u.carriedInc q (.chan n ch)) = (.done, e, v) →
    exec (.feeder n ch) s = .next ((v.setChan n ch { v.chan n ch with
      txNext := (v.chan n ch).txNext ++ (e.take (s.fld (CH_TXSRC n ch) fCH_TXSRC_NW + 1)).map (fun w => (0, w)) })))
  ∧ (∀ (n : Fin 36) (ch : Fin 16) (s : State), s.live = true → (s.flag (CH_TXSRC n ch) fCH_TXSRC_EN = false ∨
      s.txRoom n ch (s.fld (CH_TXSRC n ch) fCH_TXSRC_NW + 1) = false) → exec (.feeder n ch) s = .next s)
  ∧ (∀ (n : Fin 36) (ch : Fin 16) (e : RxEntry) (t : List RxEntry) (q : Nat) (s u v : State), s.live = true → s.flag (CH_RXDST n ch) fCH_RXDST_EN = true →
    q = s.fld (CH_RXDST n ch) fCH_RXDST_QUEUE → s.qBusy q = false → (s.chan n ch).rx = e :: t → (s.chan n ch).drained ≠ s.fc + 1 →
    s.underTest 4 n = false → s.hurdleDrops 4 n = false → s.fld (CH_RXDST n ch) fCH_RXDST_FMT = 0 →
    u = s.setChan n ch { s.chan n ch with drained := s.fc + 1 } →
    (u.qPut q (.chan n ch) (u.carriedInc q (.chan n ch)) [(e.data, false), (.ofNat 32 (s.fld (CH_RXDST n ch) fCH_RXDST_CELL), false)] = (.done, v)
      ∨ u.qPut q (.chan n ch) (u.carriedInc q (.chan n ch)) [(e.data, false), (.ofNat 32 (s.fld (CH_RXDST n ch) fCH_RXDST_CELL), false)] = (.stale, v)) →
    exec (.drain n ch) s = .next ((v.setChan n ch { v.chan n ch with rx := t })))
  ∧ (∀ (n : Fin 36) (ch : Fin 16) (e : RxEntry) (t : List RxEntry) (q : Nat) (s u v : State), s.live = true → s.flag (CH_RXDST n ch) fCH_RXDST_EN = true →
    q = s.fld (CH_RXDST n ch) fCH_RXDST_QUEUE → s.qBusy q = false → (s.chan n ch).rx = e :: t → (s.chan n ch).drained ≠ s.fc + 1 →
    s.underTest 4 n = false → s.hurdleDrops 4 n = false →
    u = s.setChan n ch { s.chan n ch with drained := s.fc + 1 } →
    u.qPut q (.chan n ch) (u.carriedInc q (.chan n ch)) (u.drainEntry n ch e) = (.full, v) → exec (.drain n ch) s = .next v)
  ∧ (∀ (key idx : QWord) (t : List QWord) (n : Nat) (s : State), s.live = true → s.flag CH_SCAT_CFG fCH_SCAT_CFG_EN = true → s.ch.scat = key :: idx :: t →
    s.ch.scatFc ≠ s.fc + 1 →
    idx.1.toNat < 512 → s.flag (CH_SMAP idx.1.toNat) fCH_SMAP_VALID = true → s.findCh (s.fld (CH_SMAP idx.1.toNat) fCH_SMAP_LOGICAL) = some n →
    s.flag CH_SCAT_CFG fCH_SCAT_CFG_WFMT = false →
    exec .scatter s = .next ((
      let k := s.fld (CH_SMAP idx.1.toNat) fCH_SMAP_CHANNEL
      let u := { s with ch.scat := t, ch.scatFc := s.fc + 1, ch.scatPos := (s.ch.scatPos + 1) % (8 * (s.fld CH_SCAT_CFG fCH_SCAT_CFG_BATCH + 1)) }
      State.setChan u n k { s.chan n k with txNext := (s.chan n k).txNext ++ [(1, key)] })))
  ∧ (∀ (key idx : QWord) (t : List QWord) (s : State), s.live = true → s.flag CH_SCAT_CFG fCH_SCAT_CFG_EN = true → s.ch.scat = key :: idx :: t →
    s.ch.scatFc ≠ s.fc + 1 → (512 ≤ idx.1.toNat ∨ s.flag (CH_SMAP idx.1.toNat) fCH_SMAP_VALID = false) →
    exec .scatter s = .next ((State.inc { s with ch.scat := t, ch.scatFc := s.fc + 1, ch.scatPos := (s.ch.scatPos + 1) % (8 * (s.fld CH_SCAT_CFG fCH_SCAT_CFG_BATCH + 1)) }
      CH_SCAT_SKIP)))
  ∧ (∀ (s : State), s.live = true → (s.flag CH_SCAT_CFG fCH_SCAT_CFG_EN = false ∨ s.ch.scatFc = s.fc + 1) → exec .scatter s = .next s)

/-- The commands of a fc act at the edge that ends it. CH_CTRL START sets RUN, restarts the divider there and restarts every enabled channel at its START; STOP clears RUN (R310). RESTART clears the fault and HOLD of a channel and restarts it; HALT holds it (R314). A write of CH_SYNC_CTRL with OP 1 or 2 awaits its sync, OP 0 cancels. A due sync starts every named Chanter under OP 1, and under OP 2 restarts the divider of each that runs; it is counted, and SRC 0 is over after one (R310); with none due nothing happens. Control memory takes a write while RUN = 0 and a whole word loses its poison mark; while RUN = 1 a write that would change it is refused and counted (R294). -/
def Obligations.ChanterCommands : Prop :=
  (∀ (p : Port) (n : Fin 36) (s : State), s.takes p (CH_CTRL n) 1 = true →
    exec (.chanterStart p n) s = .next (s.after p (CH_CTRL n) 1 (fun u => u.setChanter n { u.chanter n with cmds := (u.chanter n).cmds ++ [.start] })))
  ∧ (∀ (p : Port) (n : Fin 36) (s : State), s.takes p (CH_CTRL n) 2 = true →
    exec (.chanterStop p n) s = .next (s.after p (CH_CTRL n) 2 (fun u => u.setChanter n { u.chanter n with cmds := (u.chanter n).cmds ++ [.stop] })))
  ∧ (∀ (p : Port) (n : Fin 36) (ch : Fin 16) (s : State), s.takes p (CH_CCTL n ch) 1 = true →
    exec (.channelRestart p n ch) s = .next (s.after p (CH_CCTL n ch) 1 (fun u => u.setChanter n { u.chanter n with cmds := (u.chanter n).cmds ++ [.restart ch] })))
  ∧ (∀ (p : Port) (n : Fin 36) (ch : Fin 16) (s : State), s.takes p (CH_CCTL n ch) 2 = true →
    exec (.channelHalt p n ch) s = .next (s.after p (CH_CCTL n ch) 2 (fun u => u.setChanter n { u.chanter n with cmds := (u.chanter n).cmds ++ [.halt ch] })))
  ∧ (∀ (n : Nat) (s : State), s.chDo n .start = (
      let u := s.setFlag (CH_STAT n) fCH_STAT_RUN true
      forN (fun k v => v.chanRestart n k) 16 (State.setChanter u n { u.chanter n with origin := s.fc + 1, beat := 0, rounds := [], frozenAt := (u.chanter n).frozenAt.map (fun _ => s.fc + 1) })))
  ∧ (∀ (n : Nat) (s : State), s.chDo n .stop = s.setFlag (CH_STAT n) fCH_STAT_RUN false)
  ∧ (∀ (n k : Nat) (s : State), s.chDo n (.restart k) = (
      let u := (s.setFld (CH_CSTAT n k) fCH_CSTAT_FAULT 0).setFlag (CH_CSTAT n k) fCH_CSTAT_HOLD false
      (u.setFld (CH_STAT n) fCH_STAT_FAULTED (withBits (u.fld (CH_STAT n) fCH_STAT_FAULTED) k 1 0)).chanRestart n k))
  ∧ (∀ (n k : Nat) (s : State), s.chDo n (.halt k) = s.setFlag (CH_CSTAT n k) fCH_CSTAT_HOLD true)
  ∧ (∀ (n : Nat) (c : ChCmd) (s : State), (s.chanter n).cmds = [c] → (s.chanter n).chans = [] →
    s.chEnd n = (s.setChanter n { s.chanter n with cmds := [] }).chDo n c)
  ∧ (∀ (p : Port) (data : Word) (s : State), s.takes p CH_SYNC_CTRL (fCH_SYNC_CTRL_OP.put data 1) = true → bitsOf data.toNat 4 2 ≠ 3 →
    exec (.syncStart p data) s = .next (s.after p CH_SYNC_CTRL (fCH_SYNC_CTRL_OP.put data 1) (fun u =>
      { u.setReg CH_SYNC_CTRL (fCH_SYNC_CTRL_OP.put data 1) with ch.sync := some s.fc })))
  ∧ (∀ (p : Port) (data : Word) (s : State), s.takes p CH_SYNC_CTRL (fCH_SYNC_CTRL_OP.put data 2) = true → bitsOf data.toNat 4 2 ≠ 3 →
    exec (.syncRestart p data) s = .next (s.after p CH_SYNC_CTRL (fCH_SYNC_CTRL_OP.put data 2) (fun u =>
      { u.setReg CH_SYNC_CTRL (fCH_SYNC_CTRL_OP.put data 2) with ch.sync := some s.fc })))
  ∧ (∀ (p : Port) (data : Word) (s : State), s.takes p CH_SYNC_CTRL (fCH_SYNC_CTRL_OP.put data 0) = true → bitsOf data.toNat 4 2 ≠ 3 →
    exec (.syncCancel p data) s = .next (s.after p CH_SYNC_CTRL (fCH_SYNC_CTRL_OP.put data 0) (fun u =>
      { u.setReg CH_SYNC_CTRL (fCH_SYNC_CTRL_OP.put data 0) with ch.sync := none })))
  ∧ (∀ (w : Nat) (s : State), s.live = true → s.ch.sync = some w → w < s.fc → s.fld CH_SYNC_CTRL fCH_SYNC_CTRL_SRC = 0 →
    s.dvPhase ≠ 2 → s.nat CH_SYNC_MASK = 0 →
    exec .chanterSync s = .next ({ s.inc CH_SYNC_CNT with ch.sync := none, ch.syncFc := s.fc + 1 }))
  ∧ (∀ (w : Nat) (s : State), s.live = true → s.ch.sync = some w → w < s.fc → s.fld CH_SYNC_CTRL fCH_SYNC_CTRL_SRC = 0 →
    s.dvPhase ≠ 2 →
    exec .chanterSync s = .next ((State.syncDone (forN (fun l u => if bitOf (u.nat CH_SYNC_MASK) l then
      (match u.findCh l with
        | none => u
        | some n => u.chCmd n (if s.fld CH_SYNC_CTRL fCH_SYNC_CTRL_OP = 1 then .start else .divide)) else u) 32 s))))
  ∧ (∀ (n : Nat) (s : State), s.chDo n .divide = (if s.chRun n then s.divRestart n (s.fc + 1) else s))
  ∧ (∀ (s : State), s.live = true → s.ch.sync = none → exec .chanterSync s = .next s)
  ∧ (∀ (p : Port) (n : Fin 36) (a : Fin 256) (data : Word) (s : State), s.takes p (CH_CMEM_LO n a) data = true → s.chRun n = false →
    exec (.chCmemWrite p n a false data) s = .next (s.after p (CH_CMEM_LO n a) data (fun u =>
      (u.setReg (CH_CMEM_LO n a) data).setMark (CH_CMEM_LO n a) false)))
  ∧ (∀ (p : Port) (n : Fin 36) (a : Fin 256) (data : Word) (s : State), s.takes p (CH_CMEM_HI n a) data = true → s.chRun n = false →
    exec (.chCmemWrite p n a true data) s = .next (s.after p (CH_CMEM_HI n a) data (fun u =>
      (u.setReg (CH_CMEM_HI n a) data).setMark (CH_CMEM_HI n a) false)))
  ∧ (∀ (p : Port) (n : Fin 36) (a : Fin 256) (data : Word) (s : State), s.takes p (CH_CMEM_LO n a) data = true → s.chRun n = true →
    data ≠ s.reg (CH_CMEM_LO n a) →
    exec (.chCmemWrite p n a false data) s = .next (s.after p (CH_CMEM_LO n a) data (fun u => u.inc (CH_CFG_REFUSED n))))

/-! ### The queue fabric (12_queue_fabric.md) -/

/-- A write of QF_QCFG with EN = 1 enables a disabled queue whose storage cells lie in the pool and are UNASSIGNED: they become storage of the queue, pointers and level are 0; else it is refused and counted (R322). EN = 0 disables an unpinned queue: its entries are counted as discarded and its cells become UNASSIGNED; of a pinned queue it is refused (R323). CL_QPIN with VALID pins a queue that may be pinned and starts its copy, else it is refused; VALID = 0 starts the copy back (R329); a copy in progress has moved its entries before another of its queue starts. The end of a copy moves the entries and ends the hold (R330). CLRCNT clears both watermark counts but for what the fc added (R7, R333). A seed is refused while one runs, takes the range and sets BUSY for an enabled pool queue, and at its end the cells of the range are seeded and BUSY clears (R336). The reclaim walk of a flock treats every listed cell and its BUSY bit clears (R339); an inbox move that is not in progress ends nothing, one in progress ends with its entries following and the held operations released (R340). -/
def Obligations.QueueControl : Prop :=
  (∀ (p : Port) (n : Fin 4096) (data : Word) (s : State) (w : Word), w = fQF_QCFG_EN.put data 1 → s.takes p (QF_QCFG n) w = true →
    s.qEn n = false → 0 < bitsOf w.toNat 0 13 → bitsOf w.toNat 0 13 ≤ 4096 → bitsOf w.toNat 20 4 ≤ 8 →
    (s.setReg (QF_QCFG n) w).cellsFree n = true → ¬ (bitsOf w.toNat 30 1 = 1 ∧ bitsOf w.toNat 28 2 ≠ 0) →
    exec (.queueEnable p n data) s = .next (s.after p (QF_QCFG n) w (fun u =>
      let x := u.setReg (QF_QCFG n) w
      let x := x.setTags (x.fld (QF_QBASE n) fQF_QBASE_BASE) (fun _ => (3, x.qFlock n, 0, n)) (x.qCells n)
      State.setMark ((x.setNat (QF_QPTR n) 0).setLevel n 0) (QF_QCFG n) false)))
  ∧ (∀ (p : Port) (n : Fin 4096) (data : Word) (s : State) (w : Word), w = fQF_QCFG_EN.put data 1 → s.takes p (QF_QCFG n) w = true →
    s.qEn n = false → 0 < bitsOf w.toNat 0 13 → bitsOf w.toNat 0 13 ≤ 4096 → bitsOf w.toNat 20 4 ≤ 8 →
    (s.setReg (QF_QCFG n) w).cellsFree n = false →
    exec (.queueEnable p n data) s = .next (s.after p (QF_QCFG n) w (fun u => State.setMark (u.inc QF_CFG_REFUSED) (QF_QCFG n) false)))
  ∧ (∀ (p : Port) (n : Fin 4096) (data : Word) (s : State) (w : Word), w = fQF_QCFG_EN.put data 0 → s.takes p (QF_QCFG n) w = true →
    s.qEn n = true → bitsOf w.toNat 0 31 = bitsOf (s.nat (QF_QCFG n)) 0 31 → 0 < bitsOf w.toNat 0 13 → bitsOf w.toNat 0 13 ≤ 4096 →
    bitsOf w.toNat 20 4 ≤ 8 → s.flag (QF_QPIN n) fQF_QPIN_PINNED = false → s.qPool n = false →
    exec (.queueDisable p n data) s = .next (s.after p (QF_QCFG n) w (fun u =>
      let x := u.incBy QF_DISC_CNT (s.qLevel n)
      let x := x.setTags (s.fld (QF_QBASE n) fQF_QBASE_BASE) (fun _ => (0, 0, 0, 0)) (s.qCells n)
      State.setMark ((x.setReg (QF_QCFG n) w).setLevel n 0) (QF_QCFG n) false)))
  ∧ (∀ (p : Port) (n : Fin 4096) (data : Word) (s : State) (w : Word), w = fQF_QCFG_EN.put data 0 → s.takes p (QF_QCFG n) w = true →
    s.qEn n = true → bitsOf w.toNat 0 31 = bitsOf (s.nat (QF_QCFG n)) 0 31 → 0 < bitsOf w.toNat 0 13 → bitsOf w.toNat 0 13 ≤ 4096 →
    bitsOf w.toNat 20 4 ≤ 8 → s.flag (QF_QPIN n) fQF_QPIN_PINNED = true →
    exec (.queueDisable p n data) s = .next (s.after p (QF_QCFG n) w (fun u => State.setMark (u.inc QF_CFG_REFUSED) (QF_QCFG n) false)))
  ∧ (∀ (p : Port) (cl : Fin 8) (e : Fin 64) (data : Word) (s : State) (q : Nat), s.takes p (CL_QPIN cl e) data = true →
    s.flag (CL_QPIN cl e) fCL_QPIN_VALID = false → bitOf data.toNat 31 = true → q = bitsOf data.toNat 0 12 → s.pinOk q = true →
    exec (.clQpin p cl e data) s = .next (s.after p (CL_QPIN cl e) data (fun u =>
      ((u.setNat (QF_QPIN q) (8 + cl)).startCopy q 1).setReg (CL_QPIN cl e) data)))
  ∧ (∀ (p : Port) (cl : Fin 8) (e : Fin 64) (data : Word) (s : State) (q : Nat), s.takes p (CL_QPIN cl e) data = true →
    s.flag (CL_QPIN cl e) fCL_QPIN_VALID = false → bitOf data.toNat 31 = true → q = bitsOf data.toNat 0 12 → s.pinOk q = false →
    exec (.clQpin p cl e data) s = .next (s.after p (CL_QPIN cl e) data (fun u => (u.setNat (CL_QPIN cl e) q).inc QF_CFG_REFUSED)))
  ∧ (∀ (p : Port) (cl : Fin 8) (e : Fin 64) (data : Word) (s : State) (q : Nat), s.takes p (CL_QPIN cl e) data = true →
    s.flag (CL_QPIN cl e) fCL_QPIN_VALID = true → q = s.fld (CL_QPIN cl e) fCL_QPIN_QUEUE → bitOf data.toNat 31 = false →
    exec (.clQpin p cl e data) s = .next (s.after p (CL_QPIN cl e) data (fun u =>
      ((u.setNat (QF_QPIN q) 0).startCopy q 2).setReg (CL_QPIN cl e) data)))
  ∧ (∀ (n dir : Nat) (s : State), s.qBusy n = false →
    s.startCopy n dir = { s with qf.copying := tset (fun _ => 0) s.qf.copying n dir })
  ∧ (∀ (n dir : Nat) (s : State), tget (fun _ => 0) s.qf.copying n = 1 →
    s.startCopy n dir = (
      let u := s.copySlots n (s.qHead n) true (s.qLevel n)
      { u with qf.cached := tset (fun _ => false) u.qf.cached n true, qf.copying := tset (fun _ => 0) u.qf.copying n dir }))
  ∧ (∀ (n : Fin 4096) (s : State), s.live = true → tget (fun _ => 0) s.qf.copying n = 1 → s.qf.held = [] → s.mbWaiting 0x601 = none →
    exec (.pinCopyEnd n) s = .next (
      let u := s.copySlots n (s.qHead n) true (s.qLevel n)
      { u with qf := { s.qf with cached := tset (fun _ => false) s.qf.cached n true, copying := tset (fun _ => 0) s.qf.copying n 0, held := [] } }))
  ∧ (∀ (n : Fin 4096) (s : State), s.qBusy n = false → exec (.pinCopyEnd n) s = .next s)
  ∧ (∀ (p : Port) (n : Fin 4096) (s : State), s.admits p (QF_WMN_STAT n) (fQF_WMN_STAT_CLRCNT.put 0 1) = true →
    bitOf (s.word p (QF_WMN_STAT n) (fQF_WMN_STAT_CLRCNT.put 0 1)).toNat 31 = true →
    exec (.clrcnt p n) s = .next (s.after p (QF_WMN_STAT n) (fQF_WMN_STAT_CLRCNT.put 0 1) (fun u =>
      let v := u.wmnClear n (fQF_WMN_STAT_CLRCNT.put (s.word p (QF_WMN_STAT n) (fQF_WMN_STAT_CLRCNT.put 0 1)) 0) 0
      State.setReg v (QF_WMN_CNT n) (State.hotBits v (QF_WMN_CNT n) &&& 0x10001#32))))
  ∧ (∀ (n w1c : Nat) (st : Word) (s : State), tget (fun _ => ({} : CrossFc)) s.qf.cross n = {} → s.wmnClear n st w1c = (s.setReg (QF_WMN_STAT n) st).setCross n {})
  ∧ (∀ (p : Port) (data : Word) (s : State), s.takes p QF_SEED (fQF_SEED_GO.put data 1) = true →
    s.flag QF_SEED_STAT fQF_SEED_STAT_BUSY = false → s.qEn (s.fld QF_SEED_Q fQF_SEED_Q_QUEUE) = true →
    s.qPool (s.fld QF_SEED_Q fQF_SEED_Q_QUEUE) = true →
    exec (.seed p data) s = .next (s.after p QF_SEED (fQF_SEED_GO.put data 1) (fun u =>
      let x := u.setReg QF_SEED (fQF_SEED_GO.put data 0)
      { x.setFlag QF_SEED_STAT fQF_SEED_STAT_BUSY true with qf.seedCell := x.fld QF_SEED fQF_SEED_CELL, qf.seedLeft := x.fld QF_SEED fQF_SEED_COUNT + 1 })))
  ∧ (∀ (p : Port) (data : Word) (s : State), s.takes p QF_SEED (fQF_SEED_GO.put data 1) = true →
    s.flag QF_SEED_STAT fQF_SEED_STAT_BUSY = true →
    exec (.seed p data) s = .next (s.after p QF_SEED (fQF_SEED_GO.put data 1) (fun u => u.inc QF_CFG_REFUSED)))
  ∧ (∀ (s : State), s.live = true → s.flag QF_SEED_STAT fQF_SEED_STAT_BUSY = true → s.mbWaiting 0x602 = none →
    exec .seedEnd s = .next (
      let u := s.seedCells (s.fld QF_SEED_Q fQF_SEED_Q_QUEUE) s.qf.seedCell s.qf.seedLeft
      { u.setFlag QF_SEED_STAT fQF_SEED_STAT_BUSY false with qf := { u.qf with seedCell := 0, seedLeft := 0 } }))
  ∧ (∀ (f : Fin 16) (s : State), s.live = true → bitOf (s.nat QF_RECL) f = true →
    exec (.reclaimWalkEnd f) s = .next (
      let w := tget (fun _ => 0) s.qf.walk f
      let u := (s.listedCells.filter (fun c => decide (w ≤ c))).foldl (fun x c => x.reclaimCell f c) s
      State.setNat { u with qf.walk := tset (fun _ => 0) u.qf.walk f 0 } QF_RECL (u.nat QF_RECL - 2 ^ f.val)))
  ∧ (∀ (f : Fin 16) (s : State), bitOf (s.nat QF_RECL) f = false → exec (.reclaimWalkEnd f) s = .next s)
  ∧ (∀ (src dst : Fin 72) (s : State), s.live = true → s.qf.moves = [(src.val, dst.val)] →
    exec (.inboxMoveEnd src dst) s = .next (forN (fun i x =>
      let x := x.followEntries (4 * src + i) (4 * dst + i) (x.qLevel (4 * src + i))
      State.releaseOps { x with qf.copying := tset (fun _ => 0) x.qf.copying (4 * dst + i) 0 } (4 * dst + i)) 4
      { s with qf.moves := [] }))
  ∧ (∀ (src dst : Fin 72) (s : State), (src.val, dst.val) ∉ s.qf.moves → exec (.inboxMoveEnd src dst) s = .next s)

/-- QF_HOP PUT on an enabled queue that is no pool and has room appends the entry of QF_HPUT, counts it, and QF_HSTAT shows the level with result 0; on a full one it counts and shows 1; on a disabled one it is denied, counted and shows 2. GET of a queue that is not empty removes the head, counts it, and QF_HGET takes the words with their marks; of an empty one it counts and shows 1. LVL shows the level. A get and a level read see nothing that the fc has put; a put comes after the samples that reach the queue in the fc (R326). While the queue is in a copy the operation is held (R330, R345). -/
def Obligations.QueueOperationsByRegisters : Prop :=
  (∀ (p : Port) (m : Fin 2) (n : Fin 4096) (s : State), s.takes p (QF_HOP m) (.ofNat 32 (2 ^ 30 + n.val)) = true → s.qBusy n = false →
    s.qEn n = true → s.descPoisoned n = false → s.qPool n = false → s.qLevel n < s.qDepth n →
    (∀ x ∈ s.si.fly, x.fc + 2 ≠ s.fc ∨ s.routeQueue x ≠ some n.val) →
    exec (.hopPut p m n) s = .next (s.after p (QF_HOP m) (.ofNat 32 (2 ^ 30 + n.val)) (fun u =>
      let v := State.inc (u.qAppend n ((List.range 16).map (fun i => (s.reg (QF_HPUT m i), false)))) (QF_QPUT_CNT n)
      let v := { v with qf.fresh := tset (fun _ => 0) v.qf.fresh n (tget (fun _ => 0) v.qf.fresh n + 1) }
      State.setNat v (QF_HSTAT m) (State.qLevel v n * 65536))))
  ∧ (∀ (p : Port) (m : Fin 2) (n : Fin 4096) (s : State), s.takes p (QF_HOP m) (.ofNat 32 (2 ^ 30 + n.val)) = true → s.qBusy n = false →
    s.qEn n = true → s.descPoisoned n = false → s.qPool n = false → s.qDepth n ≤ s.qLevel n →
    (∀ x ∈ s.si.fly, x.fc + 2 ≠ s.fc ∨ s.routeQueue x ≠ some n.val) →
    exec (.hopPut p m n) s = .next (s.after p (QF_HOP m) (.ofNat 32 (2 ^ 30 + n.val)) (fun u =>
      (u.inc (QF_QFULL_CNT n)).setNat (QF_HSTAT m) (s.qLevel n * 65536 + 1))))
  ∧ (∀ (p : Port) (m : Fin 2) (n : Fin 4096) (s : State), s.takes p (QF_HOP m) (.ofNat 32 (2 ^ 30 + n.val)) = true → s.qBusy n = false →
    s.qEn n = false → (∀ x ∈ s.si.fly, x.fc + 2 ≠ s.fc ∨ s.routeQueue x ≠ some n.val) →
    exec (.hopPut p m n) s = .next (s.after p (QF_HOP m) (.ofNat 32 (2 ^ 30 + n.val)) (fun u =>
      (u.inc (QF_QDENIED_CNT n)).setNat (QF_HSTAT m) (s.qLevel n * 65536 + 2))))
  ∧ (∀ (p : Port) (m : Fin 2) (n : Fin 4096) (s : State), s.takes p (QF_HOP m) (.ofNat 32 (2 ^ 30 + n.val)) = true → s.qBusy n = true →
    exec (.hopPut p m n) s = .next (s.after p (QF_HOP m) (.ofNat 32 (2 ^ 30 + n.val)) (fun u =>
      { u with qf.held := u.qf.held ++ [⟨n, .put, hopAgent m, s.flockInc (s.qFlock n), s.hputWords m⟩] })))
  ∧ (∀ (p : Port) (m : Fin 2) (n : Fin 4096) (s : State), s.takes p (QF_HOP m) (.ofNat 32 (2 * 2 ^ 30 + n.val)) = true → s.qBusy n = false →
    s.qEn n = true → s.descPoisoned n = false → s.qPool n = false → s.qShown n ≠ 0 →
    exec (.hopGet p m n) s = .next (s.after p (QF_HOP m) (.ofNat 32 (2 * 2 ^ 30 + n.val)) (fun u =>
      let e := u.qPeek n
      let v := State.inc (u.qRemove n) (QF_QGET_CNT n)
      forN (fun i x => (x.setReg (QF_HGET m i) ((padWords 16 e).getD i (0, false)).1).setMark (QF_HGET m i) ((padWords 16 e).getD i (0, false)).2) 16
        (v.setNat (QF_HSTAT m) (v.qShown n * 65536)))))
  ∧ (∀ (p : Port) (m : Fin 2) (n : Fin 4096) (s : State), s.takes p (QF_HOP m) (.ofNat 32 (2 * 2 ^ 30 + n.val)) = true → s.qBusy n = false →
    s.qEn n = true → s.descPoisoned n = false → s.qShown n = 0 →
    exec (.hopGet p m n) s = .next (s.after p (QF_HOP m) (.ofNat 32 (2 * 2 ^ 30 + n.val)) (fun u =>
      (u.inc (QF_QEMPTY_CNT n)).setNat (QF_HSTAT m) 1)))
  ∧ (∀ (p : Port) (m : Fin 2) (n : Fin 4096) (s : State), s.takes p (QF_HOP m) (.ofNat 32 (3 * 2 ^ 30 + n.val)) = true → s.qBusy n = false →
    s.qEn n = true → s.descPoisoned n = false →
    exec (.hopLvl p m n) s = .next (s.after p (QF_HOP m) (.ofNat 32 (3 * 2 ^ 30 + n.val)) (fun u =>
      u.setNat (QF_HSTAT m) (s.qShown n * 65536))))
  ∧ (∀ (n inc : Nat) (a : QAgent) (e : List QWord) (s : State),
    s.qPut n a inc e = (s.samplesLeave (fun x => s.routeQueue x == some n)).qPutOne n a inc e)

/-! ### Events, the journal, flocks and the pages of HUP (13_events_and_journal.md, 14_flocks_and_register_views.md) -/

/-- When one source alone is eligible and its group is out of hold-off, it is delivered at the edge that ends the fc: delivery clears its PENDING and MERGED, sets ACTIVE, counts the delivery and starts the hold-off (R349); with no source eligible nothing is delivered. A completion written to EC_EOI acts there too, before the deliveries, and these before the raises (R348, R351): of an ACTIVE source it clears ACTIVE, of another it counts a spurious EOI; PG_EOI does the same for a source of the page's flock and is denied with cause 3 for another (R380). EC_SW_RAISE raises EV992 and above with the payload of EC_SW_PAY and refuses and counts a lower source (R353). EC_TARGET of a source that is neither ACTIVE nor PENDING takes the data; of an ACTIVE one a change is refused and counted (R352). An edge at the sense of EC_WAKE_POL on an enabled WAKE pin sets its clear latch with the stamp of the edge and raises EV(32 + i) in Graze; the other sense sets none (R354, R355). EC_WAKE_TIME sets WL14 when Tally has reached it (R354). -/
def Obligations.EventConcentrator : Prop :=
  (∀ (n : Fin 1024) (s : State), s.live = true → s.eligible n = true → (∀ m : Fin 1024, m ≠ n → s.eligible m = false) →
    tget (fun _ => 0) s.ev.next (n / 16) ≤ s.fc → s.ev.delivs = [] →
    exec .eventDelivery s = .next { s with ev.delivs := [n.val] })
  ∧ (∀ (s : State), (∀ m : Fin 1024, s.eligible m = false) → exec .eventDelivery s = .next s)
  ∧ (∀ (n : Nat) (s : State), s.flag (EC_SSTAT n) fEC_SSTAT_PENDING = true →
    s.deliver n = (
      let u := s.setFlag (EC_SSTAT n) fEC_SSTAT_PENDING false
      let u := (u.setFld (EC_SSTAT n) fEC_SSTAT_MERGED 0).setFlag (EC_SSTAT n) fEC_SSTAT_ACTIVE true
      let u := State.inc u (EG_DELIV_CNT (n / 16))
      { u with ev.next := tset (fun _ => 0) s.ev.next (n / 16) (s.fc + 1 + 64 * s.fld (EG_HOLDOFF (n / 16)) fEG_HOLDOFF_HOLD) }))
  ∧ (∀ (p : Port) (data : Word) (s : State), s.takes p EC_EOI data = true →
    exec (.ecEoi p data) s = .next (s.after p EC_EOI data (fun u => { u with ev.eois := u.ev.eois ++ [bitsOf data.toNat 0 10] })))
  ∧ (∀ (n : Nat) (s : State), s.flag (EC_SSTAT n) fEC_SSTAT_ACTIVE = true → s.complete n = s.setFlag (EC_SSTAT n) fEC_SSTAT_ACTIVE false)
  ∧ (∀ (n : Nat) (s : State), s.flag (EC_SSTAT n) fEC_SSTAT_ACTIVE = false → s.complete n = s.inc EC_SPURIOUS_EOI)
  ∧ (∀ (a d : Nat) (r : HeldRaise) (s : State), s.ev.eois = [a] → s.ev.delivs = [d] → s.ev.raises = [r] →
    s.evEnd = (((State.complete { s with ev.eois := [], ev.delivs := [], ev.raises := [] } a).deliver d).raiseAct r.source r.stamp r.p0.toNat r.p1.toNat))
  ∧ (∀ (f : Fin 16) (data : Word) (s : State), s.portOpen (.hup f) = true → s.flag (FLK_CTRL f) fFLK_CTRL_EN = true → data.toNat < 1024 →
    s.fld (EC_TARGET data.toNat) fEC_TARGET_FLOCK = f →
    exec (.pgEoi f data) s = .next (State.respond { s with ev.eois := s.ev.eois ++ [data.toNat] } (.hup f) 0 0).settle)
  ∧ (∀ (f : Fin 16) (data : Word) (s : State), s.portOpen (.hup f) = true → s.flag (FLK_CTRL f) fFLK_CTRL_EN = true → data.toNat < 1024 →
    s.fld (EC_TARGET data.toNat) fEC_TARGET_FLOCK ≠ f →
    exec (.pgEoi f data) s = .next ((s.hupDeny f 0x100 3).respond (.hup f) 2 0).settle)
  ∧ (∀ (p : Port) (data : Word) (s : State), s.takes p EC_SW_RAISE data = true → 992 ≤ bitsOf data.toNat 0 10 →
    exec (.ecSwRaise p data) s = .next (s.after p EC_SW_RAISE data (fun u =>
      u.raise (bitsOf data.toNat 0 10) (s.nat (EC_SW_PAY 0)) (s.nat (EC_SW_PAY 1)))))
  ∧ (∀ (p : Port) (data : Word) (s : State), s.takes p EC_SW_RAISE data = true → bitsOf data.toNat 0 10 < 992 →
    exec (.ecSwRaise p data) s = .next (s.after p EC_SW_RAISE data (fun u => u.inc EC_CFG_REFUSED)))
  ∧ (∀ (p : Port) (n : Fin 1024) (data : Word) (s : State), s.takes p (EC_TARGET n) data = true → bitsOf data.toNat 0 5 < 22 →
    data ≠ s.reg (EC_TARGET n) → s.flag (EC_SSTAT n) fEC_SSTAT_ACTIVE = false → s.flag (EC_SSTAT n) fEC_SSTAT_PENDING = false →
    exec (.ecTargetWrite p n data) s = .next (s.after p (EC_TARGET n) data (fun u => u.setReg (EC_TARGET n) data)))
  ∧ (∀ (p : Port) (n : Fin 1024) (data : Word) (s : State), s.takes p (EC_TARGET n) data = true → bitsOf data.toNat 0 5 < 22 →
    data ≠ s.reg (EC_TARGET n) → s.flag (EC_SSTAT n) fEC_SSTAT_ACTIVE = true →
    exec (.ecTargetWrite p n data) s = .next (s.after p (EC_TARGET n) data (fun u => u.inc EC_CFG_REFUSED)))
  ∧ (∀ (i : Fin 8) (rising : Bool) (k : Nat) (s : State), s.live = true → rising ≠ bitOf (s.nat EC_WAKE_POL) i → bitOf (s.nat EC_WAKE_EN) i = true →
    bitOf (s.nat EC_WAKE_LATCH) i = false →
    exec (.wakeLatchSet (.pin i rising) k) s = .next (
      let u := (s.setFlag EC_WAKE_LATCH ⟨i, 1⟩ true).setReg64 (EC_WAKE_STAMP_LO i) (EC_WAKE_STAMP_HI i) (s.edgeStamp k)
      (State.raiseAt u (32 + i) (s.edgeStamp k) 0 0).wakeCheck))
  ∧ (∀ (i : Fin 8) (k : Nat) (s : State), exec (.wakeLatchSet (.pin i (bitOf (s.nat EC_WAKE_POL) i)) k) s = .next s)
  ∧ (∀ (s : State), s.live = true → reached (s.reg64 EC_WAKE_TIME_LO EC_WAKE_TIME_HI) s.now = true → bitOf (s.nat EC_WAKE_EN) 14 = true →
    bitOf (s.nat EC_WAKE_LATCH) 14 = false →
    exec .ecWakeTime s = .next (
      let u := (s.setFlag EC_WAKE_LATCH ⟨14, 1⟩ true).setReg64 (EC_WAKE_STAMP_LO 14) (EC_WAKE_STAMP_HI 14) s.now
      (State.raiseAt u 46 s.now 0 0).wakeCheck))
  ∧ (∀ (s : State), reached (s.reg64 EC_WAKE_TIME_LO EC_WAKE_TIME_HI) s.now = false → exec .ecWakeTime s = .next s)

/-- The writer moves the oldest entry of the write buffer into the ring at JN_WIDX, which advances modulo 262144; the backlog rises by one; into a full ring it overwrites the oldest entry, counts it, sets LOSS and moves JN_DIDX (R360). A refresh corrects the words of its row that read wrong, and does nothing to a row that reads clean (R361, R440). When JN_DRAIN_PER has passed, and at DKICK, an enabled drain with no error and none in progress starts a burst of the backlog (R363); DRESTART clears DERR and starts one (R364). At the end of a burst the entries are copied to the host ring, the indexes advance, JN_HHEAD is written back where JN_HWB is set, and DBUSY clears (R363). A BMP error ends the burst with DERR, its address and EV17 (R364). -/
def Obligations.JournalRingAndDrain : Prop :=
  (∀ (e : JEntry) (t : List JEntry) (s : State), s.live = true → s.jn.wbuf = e :: t → s.jn.closed = false → s.nat JN_BACKLOG < 262144 →
    s.nat JN_BACKLOG + 1 < s.fld JN_DRAIN_THR fJN_DRAIN_THR_COUNT →
    exec .journalWrite s = .next (
      let u := { s with jn.wbuf := t }
      let u := (u.setByteList (ringBase + 32 * s.nat JN_WIDX) e.bytes).setMarks (ringBase + 32 * s.nat JN_WIDX) false 8
      (u.setNat JN_WIDX ((s.nat JN_WIDX + 1) % 262144)).inc JN_BACKLOG))
  ∧ (∀ (e : JEntry) (t : List JEntry) (s : State), s.live = true → s.jn.wbuf = e :: t → s.jn.closed = false → s.nat JN_BACKLOG = 262144 →
    s.fld JN_DRAIN_THR fJN_DRAIN_THR_COUNT ≤ 262144 → s.flag JN_STAT fJN_STAT_LOSS = true →
    exec .journalWrite s = .next (
      let u := { s with jn.wbuf := t }
      let u := (u.setByteList (ringBase + 32 * s.nat JN_WIDX) e.bytes).setMarks (ringBase + 32 * s.nat JN_WIDX) false 8
      let u := (u.setNat JN_WIDX ((s.nat JN_WIDX + 1) % 262144)).inc JN_OVERWRITE_CNT
      (u.setFlag JN_STAT fJN_STAT_LOSS true).setNat JN_DIDX ((s.nat JN_DIDX + 1) % 262144)))
  ∧ (∀ (s : State), s.jn.wbuf = [] → s.jn.input = [] → exec .journalWrite s = .next s)
  ∧ (∀ (row : Fin 32768) (i : Fin 64) (x : BitVec 48) (s : State), s.pw.mode = .graze →
    exec (.journalRefresh row [(i.val, x)]) s = .next (s.eccError 7 0 (64 * row + i) x.toNat))
  ∧ (∀ (row : Fin 32768) (s : State), exec (.journalRefresh row []) s = .next s)
  ∧ (∀ (s : State), s.live = true → (s.nat JN_DRAIN_PER : Int) ≤ stampDiff s.now s.jn.per → s.flag JN_CTRL fJN_CTRL_DEN = true →
    s.flag JN_STAT fJN_STAT_DERR = false → s.flag JN_STAT fJN_STAT_DBUSY = false →
    exec .drainPeriod s = .next { s.setFlag JN_STAT fJN_STAT_DBUSY true with jn := { s.jn with burst := s.nat JN_BACKLOG, per := s.now } })
  ∧ (∀ (s : State), s.flag JN_CTRL fJN_CTRL_DEN = false → exec .drainPeriod s = .next s)
  ∧ (∀ (p : Port) (s : State), s.reg JN_CTRL = 1 → s.takes p JN_CTRL 3 = true → s.flag JN_STAT fJN_STAT_DERR = false →
    s.flag JN_STAT fJN_STAT_DBUSY = false →
    exec (.dkick p) s = .next (s.after p JN_CTRL 3 (fun u => { (u.setFlag JN_CTRL fJN_CTRL_DEN true).setFlag JN_STAT fJN_STAT_DBUSY true with jn := { u.jn with burst := s.nat JN_BACKLOG, per := s.now } })))
  ∧ (∀ (p : Port) (s : State), s.reg JN_CTRL = 1 → s.takes p JN_CTRL 3 = true → s.flag JN_STAT fJN_STAT_DERR = true →
    exec (.dkick p) s = .next (s.after p JN_CTRL 3 (fun u => u.setFlag JN_CTRL fJN_CTRL_DEN true)))
  ∧ (∀ (p : Port) (s : State), s.reg JN_CTRL = 1 → s.takes p JN_CTRL 5 = true → s.flag JN_STAT fJN_STAT_DBUSY = false →
    exec (.drestart p) s = .next (s.after p JN_CTRL 5 (fun u => { ((u.setFlag JN_CTRL fJN_CTRL_DEN true).setFlag JN_STAT fJN_STAT_DERR false).setFlag JN_STAT fJN_STAT_DBUSY true with jn := { u.jn with burst := s.nat JN_BACKLOG, per := s.now } })))
  ∧ (∀ (s : State), s.live = true → s.flag JN_STAT fJN_STAT_DBUSY = true → s.jn.burst = 1 → s.hostFull = false → s.nat JN_BACKLOG ≠ 0 →
    s.ringPoisoned (s.nat JN_DIDX) = false → s.reg64 JN_HWB_LO JN_HWB_HI = 0 →
    exec .burstEnd s = .next (
      let u := s.sysWrite s.hostAddr (s.byteList (ringBase + 32 * s.nat JN_DIDX) 32)
      let u := (u.setNat JN_DIDX ((s.nat JN_DIDX + 1) % 262144)).setNat JN_BACKLOG (s.nat JN_BACKLOG - 1)
      let u := State.inc (u.setNat JN_HHEAD ((s.nat JN_HHEAD + 1) % s.hostSlots)) JN_DRAINED_CNT
      { u.setFlag JN_STAT fJN_STAT_DBUSY false with jn := { s.jn with burst := 0 } }))
  ∧ (∀ (s : State), s.live = true → s.flag JN_STAT fJN_STAT_DBUSY = true → s.reg64 JN_HWB_LO JN_HWB_HI ≠ 0 → s.jn.burst = 0 →
    exec .burstEnd s = .next (
      let u := s.sysWrite (s.reg64 JN_HWB_LO JN_HWB_HI).toNat (natBytes 4 (s.nat JN_HHEAD))
      { u.setFlag JN_STAT fJN_STAT_DBUSY false with jn := { s.jn with burst := 0 } }))
  ∧ (∀ (byte : Fin 32) (s : State), s.live = true → s.flag JN_STAT fJN_STAT_DBUSY = true →
    exec (.derr 0 byte) s = .next (
      let u := s.setReg64 JN_DERR_ADDR_LO JN_DERR_ADDR_HI (.ofNat 64 (s.hostAddr + byte))
      let u := (u.setFlag JN_STAT fJN_STAT_DBUSY false).setFlag JN_STAT fJN_STAT_DERR true
      State.raise { u with jn := { s.jn with burst := 0 } } 17 0 0))

/-- A reset of a CLEAN flock is done at the edge that ends its fc: it advances its incarnation modulo 256, clears CLEAN, sets RESETTING, counts and stamps it, records 0x040 with its requester, and every unit of the flock acts under its own rule (R372, R373); a reset of a flock that is not CLEAN is refused, counted and recorded as 0x043. CLEAN sets, at the edge that ends a later fc, when nothing holds it back: RESETTING clears, the stamp is taken, EV(880 + f) is raised and 0x041 recorded with the fc since the reset (R374); while something holds it back nothing happens. A write of PG_UDATA writes the register that PG_UADDR names when the flock owns it and some field is writable there, a read reads it; any other is denied with cause 4 (R378, R382). -/
def Obligations.FlocksAndPages : Prop :=
  (∀ (p : Port) (f : Fin 16) (s : State) (w : Word), w = fFLK_CTRL_RESET.put (s.reg (FLK_CTRL f)) 1 → s.takes p (FLK_CTRL f) w = true →
    tget (fun _ => 0) s.flkReq f = 0 → s.flag (FLK_STAT f) fFLK_STAT_CLEAN = true →
    exec (.flockReset p f) s = .next (s.after p (FLK_CTRL f) w (fun u =>
      let u := if (s.master p).lvl = 3 then u.setFlag (FLK_CTRL f) fFLK_CTRL_EN (s.flag (FLK_CTRL f) fFLK_CTRL_EN) else u
      { u with flkReq := tset (fun _ => 0) u.flkReq f (1 + (s.master p).who * 256) })))
  ∧ (∀ (p : Port) (f : Fin 16) (s : State) (w : Word), w = fFLK_CTRL_RESET.put (s.reg (FLK_CTRL f)) 1 → s.takes p (FLK_CTRL f) w = true →
    (s.master p).lvl ≠ 3 → tget (fun _ => 0) s.flkReq f = 0 → s.notClean f = true →
    exec (.flockReset p f) s = .next (s.after p (FLK_CTRL f) w (fun u =>
      (u.inc (FLK_RESET_REFUSED f)).record (880 + f) 0x43 f (s.flockInc f) (1 + (s.master p).who * 256) 0)))
  ∧ (∀ (f who : Nat) (s : State), s.flockResetNow f who = (
      let u := (s.setFld (FLK_STAT f) fFLK_STAT_INC (s.flockInc f + 1)).setFlag (FLK_STAT f) fFLK_STAT_CLEAN false
      let u := State.inc (State.setFlag u (FLK_STAT f) fFLK_STAT_RESETTING true) (FLK_RESET_CNT f)
      let u := State.setReg64 u (FLK_RESET_STAMP_LO f) (FLK_RESET_STAMP_HI f) (State.now u)
      let u := { u with flkFc := tset (fun _ => 0) u.flkFc f (u.fc + 1) }
      ((State.record u (880 + f) 0x40 f (s.flockInc f) who 0).dvFlockReset f).flockUnits f))
  ∧ (∀ (f : Fin 16) (s : State), s.live = true → exec (.clean f) s = .next { s with flkClean := s.flkClean ++ [f.val] })
  ∧ (∀ (f g who : Nat) (s : State), s.flkReq = [(f, who)] → s.flkClean = [g] →
    s.flkEnd = (State.flockResetNow { s with flkReq := [], flkClean := [] } f who).flockClean g)
  ∧ (∀ (f : Nat) (s : State), s.live = true → s.flag (FLK_STAT f) fFLK_STAT_RESETTING = true → s.resetFc f < s.fc → s.flkWaits f = 0 →
    s.mb.waits = [] →
    s.flockClean f = (
      let n := s.fc - s.resetFc f
      let u := (s.setFlag (FLK_STAT f) fFLK_STAT_CLEAN true).setFlag (FLK_STAT f) fFLK_STAT_RESETTING false
      let u := State.setReg64 u (FLK_CLEAN_STAMP_LO f) (FLK_CLEAN_STAMP_HI f) (State.now u)
      let u := { u with flkFc := tset (fun _ => 0) u.flkFc f 0 }
      (State.raise u (880 + f) (1 + State.flockInc u f * 256) n).record (880 + f) 0x41 f n 0 0))
  ∧ (∀ (f : Nat) (s : State), (s.flag (FLK_STAT f) fFLK_STAT_RESETTING = false ∨ s.flkWaits f ≠ 0 ∨ s.fc ≤ s.resetFc f) → s.flockClean f = s)
  ∧ (∀ (f : Fin 16) (v : Word) (o : Nat) (s : State), s.portOpen (.hup f) = true → s.flag (FLK_CTRL f) fFLK_CTRL_EN = true →
    s.urpTarget (s.nat (PG_UADDR f)) = some o → o % 4 = 0 → s.viewDenied (s.master (.hup f)) o = false → s.swept o = false →
    exec (.pgUdata f (some v)) s = .next ((s.regWrite32 (s.master (.hup f)) o v 15).st.respond (.hup f) 0 0).settle)
  ∧ (∀ (f : Fin 16) (v : Word) (s : State), s.portOpen (.hup f) = true → s.flag (FLK_CTRL f) fFLK_CTRL_EN = true →
    s.urpTarget (s.nat (PG_UADDR f)) = none →
    exec (.pgUdata f (some v)) s = .next ((s.hupDeny f 0x114 4).respond (.hup f) 2 0).settle)
  ∧ (∀ (f : Fin 16) (o : Nat) (s : State), s.portOpen (.hup f) = true → s.flag (FLK_CTRL f) fFLK_CTRL_EN = true →
    s.urpTarget (s.nat (PG_UADDR f)) = some o → o % 4 = 0 → s.flockOwns f o = true → s.swept o = false →
    exec (.pgUdata f none) s = .next (
      let r := s.regRead32 (s.master (.hup f)) o true
      (r.2.respond (.hup f) 0 (r.1.setWidth 64)).settle))

/-! ### The Shepherd beside its instructions (15_shepherd_core.md) -/

/-- An interrupt that is due on bank 0 enters through its valid descriptor: EPC, EPSR, ECAUSE and ESTAMP are saved, SLEEP clears, bank 1 vectors to the handler in the descriptor's level and world, and ATOMIC opens; a pending watchdog warning is taken first, through 0x14, and is pending no more. EADDR takes a free value (the model's choice, log entry 1). With nothing due nothing happens (R397, R402). A handler whose ATOMIC budget is spent faults with cause 11 (R398). An error of the oldest buffered store removes it, keeps its address and stamp, counts it, raises EV50 and records 0x051 (R406). An arrived line is installed, unless it comes with an error (R393). The watchdog warns once, with EV51 and record 0x052, when the count reaches WARN, and resets with source 2 once when it reaches TIMEOUT; 0x6E and then 0x91 within 256 fc clear the count, any other key is an error and is counted (R412). LBINV and BTBINV empty the line buffer and the branch-target buffer (R414). -/
def Obligations.ShepherdEvents : Prop :=
  (∀ (x : Nat) (s : State), s.live = true → s.interruptDue = some (x, false) → x ≠ 0x14 → (s.descriptor false x).valid = true →
    (s.descriptor false x).type = 1 →
    exec .interruptEntry s = .next (
      let d := s.descriptor false x
      let u := s.tookFree
      let u := { u with sh := { u.sh with epc := .ofNat 32 s.shBank.pc.toNat, epsr := s.psr, ecause := .ofNat 32 x, eaddr := .ofNat 32 (s.freeVal.toNat % 2 ^ 24), estamp := s.now } }
      ((State.vector (u.setFlag SH_STAT fSH_STAT_SLEEP false) 1 d).setContext false d.sup).openAtomic 1 d.atomic))
  ∧ (∀ (s : State), s.live = true → s.shBankNo = 0 → s.sh.aopen ≠ 2 → s.sh.warnPend = true → (s.descriptor false 0x14).valid = true →
    (s.descriptor false 0x14).type = 1 → (s.descriptor false 0x14).sup = true →
    exec .interruptEntry s = .next (
      let d := s.descriptor false 0x14
      let u := s.tookFree
      let u := { u with sh := { u.sh with warnPend := false, epc := .ofNat 32 s.shBank.pc.toNat, epsr := s.psr, ecause := 0x14, eaddr := .ofNat 32 (s.freeVal.toNat % 2 ^ 24), estamp := s.now } }
      ((State.vector (u.setFlag SH_STAT fSH_STAT_SLEEP false) 1 d).setContext false true).openAtomic 1 d.atomic))
  ∧ (∀ (s : State), (s.shBankNo ≠ 0 ∨ s.sh.aopen = 2) → exec .interruptEntry s = .next s)
  ∧ (∀ (s : State), s.live = true → s.sh.aopen = 1 → s.sh.abudget = 0 →
    exec .atomic s = .next (
      let pc := s.shBank.pc
      let a := s.freeVal.toNat % 2 ^ 24
      let u := State.setNat (s.tookFree.inc SH_FAULT_CNT) SH_LAST_CAUSE 11
      State.exceptionEntry ((u.setNat SH_LAST_PC pc.toNat).setNat SH_LAST_ADDR a) s.shOuter 11 pc a))
  ∧ (∀ (s : State), (s.sh.aopen ≠ 1 ∨ s.sh.abudget ≠ 0) → exec .atomic s = .next s)
  ∧ (∀ (e : BufStore) (t : List BufStore) (s : State), s.live = true → s.sh.stores = e :: t →
    exec .shepherdLateStoreError s = .next (
      let a : Stamp := .ofNat 64 e.addr
      let u := State.setReg64 { s with sh.stores := t } SH_LSE_ADDR_LO SH_LSE_ADDR_HI a
      let u := State.inc (u.setReg64 SH_LSE_STAMP_LO SH_LSE_STAMP_HI e.stamp) SH_LSE_CNT
      (u.raise 50 0 0).record 50 0x51 (lo32 a) (hi32 a) (lo32 e.stamp) (hi32 e.stamp)))
  ∧ (∀ (s : State), s.sh.stores = [] → exec .shepherdLateStoreError s = .next s)
  ∧ (∀ (bytes : Vector Byte 32) (l : Nat) (t : List Nat) (s : State), s.live = true → s.sh.lineReq = l :: t → s.sh.demand = none →
    exec (.flashLineArrival bytes true) s = .next (State.btbFill (State.lineInstall { s with sh.lineReq := t } l bytes.toList) l bytes.toList))
  ∧ (∀ (bytes : Vector Byte 32) (l : Nat) (t : List Nat) (s : State), s.live = true → s.sh.lineReq = l :: t → s.sh.demand = none →
    exec (.flashLineArrival bytes false) s = .next { s with sh.lineReq := t })
  ∧ (∀ (bytes : Vector Byte 32) (l : Nat) (t : List Nat) (s : State), s.live = true → s.sh.lineReq = l :: t → s.sh.demand = some l →
    exec (.flashLineArrival bytes false) s = .next (State.shFault { s with sh.lineReq := t, sh.demand := none } 6 (l * 32 % 2 ^ 24)))
  ∧ (∀ (s : State), s.live = true → s.wdgOn = true → s.sh.warned = false → s.fld SH_WDG_TIME fSH_WDG_TIME_WARN ≤ s.nat SH_WDG_CNT →
    exec .watchdogWarning s = .next (
      let u := { s with sh := { s.sh with warned := true, warnPend := s.flag SH_WDG_CTRL fSH_WDG_CTRL_WARNV } }
      (State.raise u 51 0 0).record 51 0x52 0 0 0 0))
  ∧ (∀ (s : State), (s.wdgOn = false ∨ s.sh.warned = true ∨ s.nat SH_WDG_CNT < s.fld SH_WDG_TIME fSH_WDG_TIME_WARN) →
    exec .watchdogWarning s = .next s)
  ∧ (∀ (s : State), s.live = true → s.wdgOn = true → s.sh.bitten = false → s.fld SH_WDG_TIME fSH_WDG_TIME_TIMEOUT ≤ s.nat SH_WDG_CNT →
    exec .watchdogTimeout s = .next (State.assertReset { s with sh.bitten := true } 2 none))
  ∧ (∀ (s : State), (s.wdgOn = false ∨ s.nat SH_WDG_CNT < s.fld SH_WDG_TIME fSH_WDG_TIME_TIMEOUT) → exec .watchdogTimeout s = .next s)
  ∧ (∀ (p : Port) (s : State), s.takes p SH_WDG_KICK 0x6E = true → s.sh.kick = none →
    exec (.kick p 0x6E) s = .next (s.after p SH_WDG_KICK 0x6E (fun u => { u with sh.kick := some s.fc })))
  ∧ (∀ (p : Port) (f : Nat) (s : State), s.takes p SH_WDG_KICK 0x91 = true → s.sh.kick = some f → s.fc ≤ f + 256 →
    exec (.kick p 0x91) s = .next (s.after p SH_WDG_KICK 0x91 (fun u =>
      State.setNat { u with sh := { u.sh with kick := none, wdgAcc := 0, warned := false, warnPend := false, bitten := false } } SH_WDG_CNT 0)))
  ∧ (∀ (p : Port) (key : BitVec 8) (s : State), s.takes p SH_WDG_KICK (key.setWidth 32) = true → s.sh.kick = none → key ≠ 0x6E →
    exec (.kick p key) s = .next (s.after p SH_WDG_KICK (key.setWidth 32) (fun u => u.inc SH_WDG_KICKERR)))
  ∧ (∀ (p : Port) (s : State) (w : Word), w = fSH_CTRL_LBINV.put (s.reg SH_CTRL) 1 → s.takes p SH_CTRL w = true → bitOf w.toNat 3 = false →
    exec (.lbinv p) s = .next (s.after p SH_CTRL w (fun u => { u.setReg SH_CTRL (fSH_CTRL_LBINV.put w 0) with sh.lines := [] })))
  ∧ (∀ (p : Port) (s : State) (w : Word), w = fSH_CTRL_BTBINV.put (s.reg SH_CTRL) 1 → s.takes p SH_CTRL w = true → bitOf w.toNat 4 = false →
    exec (.btbinv p) s = .next (s.after p SH_CTRL w (fun u => { u.setReg SH_CTRL (fSH_CTRL_BTBINV.put w 0) with sh.btb := [] })))

/-! ### Mailbox commands (16_mailbox_commands.md) -/

/-- A ring of a mailbox that is BUSY is counted as rejected and does nothing else; of another it makes the mailbox BUSY, keeps the authority of a debug ring and is counted, and it remembers whether the mailbox was DONE (R418, R420). A command that is not the one Crook takes next does nothing (R421). A duplicate is answered with the stored reply (R420). Crook answers a bad header with BADHDR (2), a mailbox without the authority with DENIED (4), and a command of an unassigned code with BADOP (1) (R422). -/
def Obligations.MailboxesAndChecks : Prop :=
  (∀ (p : Port) (m : Fin 32) (s : State), s.takes p (MB_DOORBELL m) 1 = true → s.mbState m = 1 →
    exec (.ring p m) s = .next (s.after p (MB_DOORBELL m) 1 (fun u => u.inc (MB_REJ_CNT m))))
  ∧ (∀ (p : Port) (m : Fin 32) (s : State), s.takes p (MB_DOORBELL m) 1 = true → s.pw.mode = .graze → s.mbState m ≠ 1 →
    exec (.ring p m) s = .next (s.after p (MB_DOORBELL m) 1 (fun u =>
      let u := { u with mb.done := tset (fun _ => false) u.mb.done m (s.mbState m == 2) }
      ((State.setFld u (MB_STAT m) fMB_STAT_STATE 1).setFld (MB_STAT m) fMB_STAT_AUTH
        (if (s.master p).who = 1 then (s.master p).lvl - 1 else 0)).inc (MB_CMD_CNT m))))
  ∧ (∀ (m : Fin 32) (s : State), s.mbNext = some m.val → s.mbIsDup m = false → assignedOps.contains (s.mbOp m) = false →
    exec (.badop m) s = .next ((s.mbAccept m).2.mbFinish (s.mbAccept m).1 1 0 []))
  ∧ (∀ (m : Fin 32) (s : State), s.mbNext ≠ some m.val → exec (.badop m) s = .next s)
  ∧ (∀ (m : Fin 32) (s : State), s.mbNext ≠ some m.val → exec (.ident m) s = .next s)
  ∧ (∀ (m : Fin 32) (s : State), s.mbNext = some m.val → s.mbOp m = 1 → s.mbIsDup m = true →
    exec (.ident m) s = .next (s.mbDuplicate m))
  ∧ (∀ (m : Fin 32) (s : State), s.mbNext = some m.val → s.mbOp m = 1 → s.mbIsDup m = false → (s.mbAccept m).2.ckBadHdr m false = true →
    exec (.ident m) s = .next ((s.mbAccept m).2.mbFinish (s.mbAccept m).1 2 0 []))
  ∧ (∀ (m : Fin 32) (s : State), s.mbNext = some m.val → s.mbOp m = 3 → s.mbIsDup m = false → (s.mbAccept m).2.ckBadHdr m false = false →
    (s.mbAccept m).2.ckAuth m [.P] = false → exec (.evtHoldoff m) s = .next ((s.mbAccept m).2.mbFinish (s.mbAccept m).1 4 0 []))

/-- An accepted command that no check refuses has the effect of its table row and completes with status OK and its reply words: IDENT; EVT_ROUTE through EC_TARGET; EVT_HOLDOFF; PEER_EVENT through EC_SW_PAY and EC_SW_RAISE with the sender; FLK_ENABLE; FLK_RESET, which waits for CLEAN; FLK_ASSIGN; FLK_STATUS; UNIT_MAP, whose fence follows LVALID; MB_SETCFG. An argument out of range answers BADARG (3) with its word, an enable of a flock that is not CLEAN BUSY (6), a running unit STATE (7), an event the mailbox may not raise DENIED (4), a refused register write HWREFUSED (8). -/
def Obligations.CrookEventsAndFlocks : Prop :=
  (∀ (m : Fin 32) (k : Ck) (s t : State), s.commanded m 0x001 [.P, .F, .L] false (masks [] 0) = some (k, t) →
    exec (.ident m) s = .next (t.mbFinish k.w 0 0 [t.reg ID_PART, t.reg ID_REVISION, t.reg ID_ROMCODE, ckWord t.tlId, ckWord (k.flock.getD 0xFF)]))
  ∧ (∀ (m : Fin 32) (k : Ck) (s t : State) (u : State), s.commanded m 0x002 [.P, .F] false (masks [0x801F03FF] 0) = some (k, t) →
    k.flock = none →
    bitsOf (k.d t 0) 16 5 < 22 →
    t.ckWrites [EC_CFG_REFUSED] [(0, EC_TARGET (bitsOf (k.d t 0) 0 10), ckWord (withBits (withBits (t.nat (EC_TARGET (bitsOf (k.d t 0) 0 10))) 0 5 (bitsOf (k.d t 0) 16 5)) 31 1 (bitsOf (k.d t 0) 31 1)))] = (none, u) →
    exec (.evtRoute m) s = .next (u.mbFinish k.w 0 0 []))
  ∧ (∀ (m : Fin 32) (k : Ck) (s t : State) (u : State) (d : Nat), s.commanded m 0x002 [.P, .F] false (masks [0x801F03FF] 0) = some (k, t) →
    k.flock = none →
    bitsOf (k.d t 0) 16 5 < 22 →
    t.ckWrites [EC_CFG_REFUSED] [(0, EC_TARGET (bitsOf (k.d t 0) 0 10), ckWord (withBits (withBits (t.nat (EC_TARGET (bitsOf (k.d t 0) 0 10))) 0 5 (bitsOf (k.d t 0) 16 5)) 31 1 (bitsOf (k.d t 0) 31 1)))] = (some d, u) →
    exec (.evtRoute m) s = .next (u.mbFinish k.w 8 0 []))
  ∧ (∀ (m : Fin 32) (k : Ck) (s t : State), s.commanded m 0x002 [.P, .F] false (masks [0x801F03FF] 0) = some (k, t) →
    k.flock = none →
    22 ≤ bitsOf (k.d t 0) 16 5 →
    exec (.evtRoute m) s = .next (t.mbFinish k.w 3 0 []))
  ∧ (∀ (m : Fin 32) (k : Ck) (s t : State), s.commanded m 0x003 [.P] false (masks (words 2) 0) = some (k, t) →
    k.d t 0 < 64 →
    k.d t 1 < 65536 →
    exec (.evtHoldoff m) s = .next ((t.ckPoke (EG_HOLDOFF (k.d t 0)) (ckWord (k.d t 1))).mbFinish k.w 0 0 []))
  ∧ (∀ (m : Fin 32) (k : Ck) (s t : State), s.commanded m 0x004 [.L] false (masks [0x1F, whole] 0) = some (k, t) →
    bitOf (t.nat (MB_CFG m)) (bitsOf (k.d t 0) 0 5) = true →
    exec (.peerEvent m) s = .next ((((t.ckPoke (EC_SW_PAY 0) (ckWord (k.d t 1))).ckPoke (EC_SW_PAY 1) (ckWord (tget (fun _ => 0) t.mb.peerSrc m % 256))).ckPoke EC_SW_RAISE
      (ckWord (992 + bitsOf (k.d t 0) 0 5))).mbFinish k.w 0 0 []))
  ∧ (∀ (m : Fin 32) (k : Ck) (s t : State), s.commanded m 0x004 [.L] false (masks [0x1F, whole] 0) = some (k, t) →
    bitOf (t.nat (MB_CFG m)) (bitsOf (k.d t 0) 0 5) = false →
    exec (.peerEvent m) s = .next (t.mbFinish k.w 4 0 []))
  ∧ (∀ (m : Fin 32) (k : Ck) (s t : State) (u : State), s.commanded m 0x100 [.P] false (masks [0x10F] 0) = some (k, t) →
    bitOf (k.d t 0) 8 = true →
    t.notClean (bitsOf (k.d t 0) 0 4) = false →
    t.ckWrites [FLK_CFG_REFUSED] [(0, FLK_CTRL (bitsOf (k.d t 0) 0 4), 1)] = (none, u) →
    exec (.flkEnable m) s = .next (u.mbFinish k.w 0 0 []))
  ∧ (∀ (m : Fin 32) (k : Ck) (s t : State), s.commanded m 0x100 [.P] false (masks [0x10F] 0) = some (k, t) →
    bitOf (k.d t 0) 8 = true →
    t.notClean (bitsOf (k.d t 0) 0 4) = true →
    exec (.flkEnable m) s = .next (t.mbFinish k.w 6 0 []))
  ∧ (∀ (m : Fin 32) (k : Ck) (s t : State), s.commanded m 0x101 [.P, .F] false (masks [whole] 0) = some (k, t) →
    k.flock.getD (k.d t 0) < 16 →
    (t.notClean (k.flock.getD (k.d t 0)) = false ∨ tget (fun _ => 0) t.flkReq (k.flock.getD (k.d t 0)) ≠ 0) →
    exec (.flkReset m) s = .next (let f := k.flock.getD (k.d t 0)
      let v := t.flockReset f (3 + m * 256)
      { v with mb.waits := v.mb.waits ++ [{ k.w with a := f, b := t.flockInc f }] }))
  ∧ (∀ (m : Fin 32) (k : Ck) (s t : State), s.commanded m 0x101 [.P, .F] false (masks [whole] 0) = some (k, t) →
    k.flock.getD (k.d t 0) < 16 → t.notClean (k.flock.getD (k.d t 0)) = true → tget (fun _ => 0) t.flkReq (k.flock.getD (k.d t 0)) = 0 →
    exec (.flkReset m) s = .next ((t.flockReset (k.flock.getD (k.d t 0)) (3 + m * 256)).mbFinish k.w 6 0 []))
  ∧ (∀ (m : Fin 32) (k : Ck) (s t : State), s.commanded m 0x101 [.P, .F] false (masks [whole] 0) = some (k, t) →
    16 ≤ k.flock.getD (k.d t 0) →
    exec (.flkReset m) s = .next (t.mbFinish k.w 3 0 []))
  ∧ (∀ (m : Fin 32) (k : Ck) (s t : State) (u : State), s.commanded m 0x102 [.P] false (masks [0xF0F, whole, whole] 0) = some (k, t) →
    bitsOf (k.d t 0) 8 4 = 5 →
    k.d t 1 < 4096 →
    k.d t 2 = 1 →
    t.ckWrites [QF_CFG_REFUSED] [(0, QF_QCFG (k.d t 1), ckWord (withBits (t.nat (QF_QCFG (k.d t 1))) 24 4 (bitsOf (k.d t 0) 0 4)))] = (none, u) →
    exec (.flkAssign m) s = .next (u.mbFinish k.w 0 0 [ckWord 1]))
  ∧ (∀ (m : Fin 32) (k : Ck) (s t : State), s.commanded m 0x102 [.P] false (masks [0xF0F, whole, whole] 0) = some (k, t) →
    8 ≤ bitsOf (k.d t 0) 8 4 →
    exec (.flkAssign m) s = .next (t.mbFinish k.w 3 0 []))
  ∧ (∀ (m : Fin 32) (k : Ck) (s t : State) (f : Nat), s.commanded m 0x103 [.P, .F] false (masks [whole] 0) = some (k, t) →
    f = k.flock.getD (k.d t 0) →
    f < 16 →
    exec (.flkStatus m) s = .next (t.mbFinish k.w 0 0 [t.flkStat f, t.reg (FLK_DENIED_CNT f), t.reg (FLK_STALE_CNT f), t.reg (FLK_RESET_CNT f), t.reg (FLK_RESET_REFUSED f), t.reg (MB_CFG (4 + f))]))
  ∧ (∀ (m : Fin 32) (k : Ck) (s t : State) (u : State), s.commanded m 0x104 [.P] false (masks [7, whole, 0x7F] 0) = some (k, t) →
    k.d t 0 = 1 →
    k.d t 1 < 52 →
    bitOf (k.d t 2) 6 = true →
    bitsOf (k.d t 2) 0 6 < 48 →
    t.unitStopped 1 (k.d t 1) = true →
    t.unitRetired 1 (k.d t 1) = false →
    t.ckWrites [PW_CFG_REFUSED (k.d t 1)] [(2, PW_MAP (k.d t 1), ckWord (withBits (t.nat (PW_MAP (k.d t 1))) 0 7 (bitsOf (k.d t 2) 0 7)))] = (none, u) →
    exec (.unitMap m) s = .next (((u.setFence 1 (k.d t 1) false).markIdle 1 (k.d t 1)).mbFinish k.w 0 0 []))
  ∧ (∀ (m : Fin 32) (k : Ck) (s t : State), s.commanded m 0x104 [.P] false (masks [7, whole, 0x7F] 0) = some (k, t) →
    k.d t 0 = 1 →
    k.d t 1 < 52 →
    bitOf (k.d t 2) 6 = false →
    t.unitStopped 1 (k.d t 1) = false →
    exec (.unitMap m) s = .next (t.mbFinish k.w 7 0 []))
  ∧ (∀ (m : Fin 32) (k : Ck) (s t : State), s.commanded m 0x105 [.H, .I] false (masks (words 2) 0) = some (k, t) →
    k.d t 0 < 32 →
    exec (.mbSetcfg m) s = .next ((t.ckPoke (MB_CFG (k.d t 0)) (ckWord (k.d t 1))).mbFinish k.w 0 0 []))

/-- ENG_LOAD stores the bytes of its buffer in the local data RAM of a stopped engine, or answers BUFERR (10) when BMP refuses it and BADHDR (2) without a buffer. TASK_SET writes the registers of a DISABLED slot, LE_TASK_CFG last; ENG_CTRL writes LE_CTRL.EN or an LE_CMD. WCS_LOAD writes one word for each 24 bytes. PARAM_WRITE and PARAM_READ write and read local data RAM; PARAM_SWAP stores the block into the copy that CUR does not name, then T, then NEXT. Wrong arguments answer BADARG (3), a slot in use STATE (7), a marked word POISON (9). A BMP answer of another length than the buffer is no command. -/
def Obligations.CrookEnginesAndParameters : Prop :=
  (∀ (m : Fin 32) (k : Ck) (s t : State) (p : Nat) (bs : List Byte), s.commanded m 0x200 [.P, .F] true (masks [0x33F, whole] 0) = some (k, t) →
    k.flock = none →
    t.mbBuf m = true →
    bs.length = s.mbD m 2 →
    t.findUnit 0 (bitsOf (k.d t 0) 0 6) = some p →
    bitsOf (k.d t 0) 8 2 = 0 →
    k.d t 1 + t.mbD m 2 ≤ 0x10000 →
    t.leState p = 0 →
    exec (.engLoad m (some bs)) s = .next ((t.ckStore (0x1000000 + p * 0x10000 + k.d t 1) bs).mbFinish k.w 0 0 []))
  ∧ (∀ (m : Fin 32) (k : Ck) (s t : State) (p : Nat), s.commanded m 0x200 [.P, .F] true (masks [0x33F, whole] 0) = some (k, t) →
    k.flock = none →
    t.mbBuf m = true →
    t.findUnit 0 (bitsOf (k.d t 0) 0 6) = some p →
    bitsOf (k.d t 0) 8 2 = 0 →
    k.d t 1 + t.mbD m 2 ≤ 0x10000 →
    t.leState p = 0 →
    exec (.engLoad m none) s = .next (t.mbFinish k.w 10 0 []))
  ∧ (∀ (m : Fin 32) (k : Ck) (s t : State), s.commanded m 0x200 [.P, .F] true (masks [0x33F, whole] 0) = some (k, t) →
    t.mbBuf m = false →
    exec (.engLoad m none) s = .next (t.mbFinish k.w 2 0 []))
  ∧ (∀ (m : Fin 32) (k : Ck) (s t : State) (p j : Nat) (u : State), s.commanded m 0x201 [.P, .F] false (masks (0x73F :: words 7) 0) = some (k, t) →
    k.flock = none →
    t.findUnit 0 (bitsOf (k.d t 0) 0 6) = some p →
    j = bitsOf (k.d t 0) 8 3 →
    t.slotState p j = 0 →
    t.notClean (t.leFlock p) = false →
    t.ckWrites [LE_CFG_REFUSED p] [(2, LE_TASK_ENTRY p j, ckWord (k.d t 2)), (3, LE_TASK_ARG p j, ckWord (k.d t 3)), (4, LE_TASK_DL p j, ckWord (k.d t 4)),
      (5, LE_TASK_PERIOD p j, ckWord (k.d t 5)), (6, LE_TASK_TIME_LO p j, ckWord (k.d t 6)), (7, LE_TASK_TIME_HI p j, ckWord (k.d t 7)),
      (1, LE_TASK_CFG p j, ckWord (k.d t 1))] = (none, u) →
    exec (.taskSet m) s = .next (u.mbFinish k.w 0 0 []))
  ∧ (∀ (m : Fin 32) (k : Ck) (s t : State) (p j : Nat), s.commanded m 0x201 [.P, .F] false (masks (0x73F :: words 7) 0) = some (k, t) →
    k.flock = none →
    t.findUnit 0 (bitsOf (k.d t 0) 0 6) = some p →
    j = bitsOf (k.d t 0) 8 3 →
    t.slotState p j ≠ 0 →
    exec (.taskSet m) s = .next (t.mbFinish k.w 7 0 []))
  ∧ (∀ (m : Fin 32) (k : Ck) (s t : State) (p : Nat) (u : State), s.commanded m 0x202 [.P, .F] false (masks [0x3F, whole, whole] 0) = some (k, t) →
    k.flock = none →
    t.findUnit 0 (bitsOf (k.d t 0) 0 6) = some p →
    k.d t 1 = 1 →
    k.d t 2 < 8 →
    t.notClean (t.leFlock p) = false →
    t.ckWrites [LE_CFG_REFUSED p] [(1, LE_CTRL p, 1)] = (none, u) →
    exec (.engCtrl m) s = .next (u.mbFinish k.w 0 0 []))
  ∧ (∀ (m : Fin 32) (k : Ck) (s t : State) (p : Nat) (u : State), s.commanded m 0x202 [.P, .F] false (masks [0x3F, whole, whole] 0) = some (k, t) →
    k.flock = none →
    t.findUnit 0 (bitsOf (k.d t 0) 0 6) = some p →
    2 < k.d t 1 →
    k.d t 1 < 7 →
    k.d t 2 < 8 →
    t.ckWrites [LE_CFG_REFUSED p] [(1, LE_CMD p, ckWord ((k.d t 1 - 2) * 16 + k.d t 2))] = (none, u) →
    exec (.engCtrl m) s = .next (u.mbFinish k.w 0 0 []))
  ∧ (∀ (m : Fin 32) (k : Ck) (s t : State) (p : Nat) (bs : List Byte) (u : State), s.commanded m 0x203 [.P] true (masks [0x3F, whole] 0) = some (k, t) →
    k.flock = none →
    t.mbBuf m = true →
    bs.length = s.mbD m 2 →
    t.mbD m 2 = 24 →
    t.findUnit 0 (bitsOf (k.d t 0) 0 6) = some p →
    k.d t 1 < 512 →
    t.csWritable p 0x1800 = true →
    t.wcsWord p (k.d t 1) (bs.take 24) = (false, u) →
    exec (.wcsLoad m (some bs)) s = .next (u.mbFinish k.w 0 0 [ckWord 1]))
  ∧ (∀ (m : Fin 32) (k : Ck) (s t : State), s.commanded m 0x203 [.P] true (masks [0x3F, whole] 0) = some (k, t) →
    t.mbBuf m = true →
    t.mbD m 2 % 24 ≠ 0 →
    exec (.wcsLoad m none) s = .next (t.mbFinish k.w 3 2 []))
  ∧ (∀ (m : Fin 32) (k : Ck) (s t : State) (p : Nat), s.commanded m 0x300 [.P, .F] false (masks (words 3 ++ [0, 0, 0, 0, 0]) whole) = some (k, t) →
    k.flock = none →
    t.findUnit 0 (k.d t 0) = some p →
    k.d t 1 % 4 = 0 →
    k.d t 1 + k.d t 2 ≤ 0x10000 →
    k.d t 2 % 4 = 0 →
    4 ≤ k.d t 2 →
    k.d t 2 ≤ 912 →
    exec (.paramWrite m) s = .next ((t.ckStore (0x1000000 + p * 0x10000 + k.d t 1) (t.reqBytes m (k.b + 8) (k.d t 2 / 4))).mbFinish k.w 0 0 []))
  ∧ (∀ (m : Fin 32) (k : Ck) (s t : State) (p : Nat), s.commanded m 0x300 [.P, .F] false (masks (words 3 ++ [0, 0, 0, 0, 0]) whole) = some (k, t) →
    k.flock = none →
    t.findUnit 0 (k.d t 0) = some p →
    0x10000 < k.d t 1 + k.d t 2 →
    exec (.paramWrite m) s = .next (t.mbFinish k.w 3 1 []))
  ∧ (∀ (m : Fin 32) (k : Ck) (s t : State) (p ram cur a b : Nat), s.commanded m 0x301 [.P, .F] false (masks [0x3F3F, whole, whole, 0, whole, whole, 0, 0] whole) = some (k, t) →
    k.flock = none →
    t.findUnit 0 (bitsOf (k.d t 0) 0 6) = some p →
    ram = 0x1000000 + p * 0x10000 →
    bitsOf (k.d t 0) 12 2 = 2 →
    k.d t 1 % 32 = 0 →
    k.d t 1 + 32 ≤ 0x10000 →
    k.d t 2 % 4 = 0 →
    4 ≤ k.d t 2 →
    k.d t 2 ≤ 912 →
    t.dvBusy = false →
    cur = (t.mword (ram + k.d t 1)).toNat →
    (t.mword (ram + k.d t 1 + 4)).toNat = cur →
    a = (t.mword (ram + k.d t 1 + 16)).toNat →
    b = (t.mword (ram + k.d t 1 + 20)).toNat →
    cur = a →
    a + k.d t 2 ≤ 0x10000 →
    b + k.d t 2 ≤ 0x10000 →
    (∀ i : Fin 8, t.poisoned (ram + k.d t 1 + 4 * i) = false) →
    exec (.paramSwap m) s = .next (let v := t.ckStore (ram + b) (t.reqBytes m (k.b + 8) (k.d t 2 / 4))
      ((v.ckStore (ram + k.d t 1 + 8) (natBytes 8 t.now.toNat)).ckStore (ram + k.d t 1 + 4) (natBytes 4 b)).mbFinish k.w 0 0 [ckWord cur, ckWord b]))
  ∧ (∀ (m : Fin 32) (k : Ck) (s t : State), s.commanded m 0x301 [.P, .F] false (masks [0x3F3F, whole, whole, 0, whole, whole, 0, 0] whole) = some (k, t) →
    bitsOf (k.d t 0) 12 2 = 3 →
    exec (.paramSwap m) s = .next (t.mbFinish k.w 3 0 []))
  ∧ (∀ (m : Fin 32) (k : Ck) (s t : State) (p : Nat), s.commanded m 0x302 [.P, .F] false (masks (words 3) 0) = some (k, t) →
    k.flock = none →
    t.findUnit 0 (k.d t 0) = some p →
    k.d t 1 + 4 ≤ 0x10000 →
    k.d t 2 = 4 →
    (List.range 4).any (fun i => t.poisoned (0x1000000 + p * 0x10000 + k.d t 1 + i)) = false →
    exec (.paramRead m) s = .next (t.mbFinish k.w 0 0 [ckWord (t.bytesNat (0x1000000 + p * 0x10000 + k.d t 1) 4)] 4))
  ∧ (∀ (m : Fin 32) (k : Ck) (s t : State) (p : Nat), s.commanded m 0x302 [.P, .F] false (masks (words 3) 0) = some (k, t) →
    k.flock = none →
    t.findUnit 0 (k.d t 0) = some p →
    k.d t 1 + 4 ≤ 0x10000 →
    k.d t 2 = 4 →
    (List.range 4).any (fun i => t.poisoned (0x1000000 + p * 0x10000 + k.d t 1 + i)) = true →
    exec (.paramRead m) s = .next (t.mbFinish k.w 9 1 []))

/-- PW_CONFIG, PW_XBAR, PW_START and PW_DUTY write the registers of the generator that carries the logical one named, in the order listed; TRIP_CONFIG and AR_WRITE those of the trip input and of the entry with its group; AR_ARM and AR_DISARM a PREPARE and the operation, AR_RELEASE the operation alone; Q_CONFIG the descriptor of the queue with EN last; Q_PIN waits for the copy it starts, Q_SEED for the seed; Q_WM writes the watermarks; Q_NOTICE replies with the notice and clears it when asked. All completed writes answer OK, a refused one HWREFUSED (8) with its word, a logical unit that no unit carries BADARG (3), a flock that is not CLEAN or a seed in progress BUSY (6), a resource of another flock BADOWNER (5). -/
def Obligations.CrookGeneratorsTripsAndQueues : Prop :=
  (∀ (m : Fin 32) (k : Ck) (s t : State) (g : Nat) (u : State), s.commanded m 0x400 [.P] false (masks (words 7) 0) = some (k, t) →
    t.findUnit 1 (k.d t 0) = some g →
    t.ckWrites [PW_CFG_REFUSED g] [(1, PW_CFG g, ckWord (k.d t 1)), (2, PW_PERIOD g, ckWord (k.d t 2)), (3, PW_ACT_A g, ckWord (k.d t 3)),
      (4, PW_ACT_B g, ckWord (k.d t 4)), (5, PW_DT_A g, ckWord (k.d t 5)), (6, PW_DT_B g, ckWord (k.d t 6))] = (none, u) →
    exec (.pwConfig m) s = .next (u.mbFinish k.w 0 0 []))
  ∧ (∀ (m : Fin 32) (k : Ck) (s t : State), s.commanded m 0x400 [.P] false (masks (words 7) 0) = some (k, t) →
    t.findUnit 1 (k.d t 0) = none →
    exec (.pwConfig m) s = .next (t.mbFinish k.w 3 0 []))
  ∧ (∀ (m : Fin 32) (k : Ck) (s t : State) (g : Nat) (u : State), s.commanded m 0x401 [.P] false (masks (words 2) 0) = some (k, t) →
    k.d t 0 < 96 →
    t.findUnit 1 (bitsOf (k.d t 1) 0 6) = some g →
    t.ckWrites [TR_ARM_REFUSED] [(1, PW_XBAR (k.d t 0), ckWord (withBits (k.d t 1) 0 6 g))] = (none, u) →
    exec (.pwXbar m) s = .next (u.mbFinish k.w 0 0 []))
  ∧ (∀ (m : Fin 32) (k : Ck) (s t : State) (g : Nat) (u : State), s.commanded m 0x402 [.P, .F] false (masks (words 5) 0) = some (k, t) →
    k.flock = none →
    k.d t 0 < 48 →
    t.findUnit 1 (k.d t 0) = some g →
    k.d t 1 = 1 →
    k.d t 2 = 1 →
    t.notClean (t.unitFlock 1 g) = false →
    t.ckWrites [PW_CFG_REFUSED g] [(2, PW_CTRL g, 1)] = (none, u) →
    exec (.pwStart m) s = .next (u.mbFinish k.w 0 0 []))
  ∧ (∀ (m : Fin 32) (k : Ck) (s t : State) (g : Nat), s.commanded m 0x402 [.P, .F] false (masks (words 5) 0) = some (k, t) →
    k.flock = none →
    k.d t 0 < 48 →
    t.findUnit 1 (k.d t 0) = some g →
    k.d t 1 = 1 →
    k.d t 2 = 1 →
    t.notClean (t.unitFlock 1 g) = true →
    exec (.pwStart m) s = .next (t.mbFinish k.w 6 0 []))
  ∧ (∀ (m : Fin 32) (k : Ck) (s t : State) (g : Nat) (u : State), s.commanded m 0x403 [.P, .F] false (masks (0x1F3F :: words 3) 0) = some (k, t) →
    k.flock = none →
    t.findUnit 1 (bitsOf (k.d t 0) 0 6) = some g →
    bitsOf (k.d t 0) 10 2 ≠ 3 →
    (((t.ckPoke (PW_DW_VAL g) (ckWord (k.d t 1))).ckPoke (PW_DW_TIME_LO g) (ckWord (k.d t 2))).ckPoke (PW_DW_TIME_HI g) (ckWord (k.d t 3))).ckWrites [PW_CFG_REFUSED g]
      [(0, PW_DW_CTRL g, ckWord (2 ^ 31 + bitsOf (k.d t 0) 12 1 * 2 ^ 5 + bitsOf (k.d t 0) 10 2 * 2 ^ 3 + bitsOf (k.d t 0) 8 2))] = (none, u) →
    exec (.pwDuty m) s = .next (u.mbFinish k.w 0 0 []))
  ∧ (∀ (m : Fin 32) (k : Ck) (s t : State) (u : State), s.commanded m 0x500 [.H, .I] false (masks (words 2) 0) = some (k, t) →
    k.d t 0 < 64 →
    t.ckWrites [TR_ARM_REFUSED] [(1, TR_CFG (k.d t 0), ckWord (k.d t 1))] = (none, u) →
    exec (.tripConfig m) s = .next (u.mbFinish k.w 0 0 []))
  ∧ (∀ (m : Fin 32) (k : Ck) (s t : State) (r : Nat) (u : State), s.commanded m 0x501 [.H, .I] false (masks (words 11) 0) = some (k, t) →
    r = k.d t 0 →
    r < 16 →
    t.ckWrites [TR_ARM_REFUSED] [(1, AR_OUT r 0, ckWord (k.d t 1)), (2, AR_OUT r 1, ckWord (k.d t 2)), (3, AR_OUT r 2, ckWord (k.d t 3)),
      (4, AR_LVL r 0, ckWord (k.d t 4)), (5, AR_LVL r 1, ckWord (k.d t 5)), (6, AR_LVL r 2, ckWord (k.d t 6)), (7, AR_CFG r, ckWord (k.d t 7)),
      (8, TG_MASK_LO r, ckWord (k.d t 8)), (9, TG_MASK_HI r, ckWord (k.d t 9)), (10, TG_CFG r, ckWord (k.d t 10))] = (none, u) →
    exec (.arWrite m) s = .next (u.mbFinish k.w 0 0 []))
  ∧ (∀ (m : Fin 32) (k : Ck) (s t : State), s.commanded m 0x501 [.H, .I] false (masks (words 11) 0) = some (k, t) →
    17 ≤ k.d t 0 →
    exec (.arWrite m) s = .next (t.mbFinish k.w 3 0 []))
  ∧ (∀ (m : Fin 32) (k : Ck) (s t : State) (u : State), s.commanded m 0x502 [.H, .I] false (masks [whole] 0) = some (k, t) →
    k.d t 0 < 17 →
    (t.ckPoke TR_ARM (ckWord (1 + k.d t 0 * 2 ^ 16 + 0x5A * 2 ^ 24))).ckWrites [TR_ARM_REFUSED]
      [(0, TR_ARM, ckWord (2 + k.d t 0 * 2 ^ 16 + 0xA5 * 2 ^ 24))] = (none, u) →
    exec (.arArm m) s = .next (u.mbFinish k.w 0 0 []))
  ∧ (∀ (m : Fin 32) (k : Ck) (s t : State) (u : State), s.commanded m 0x503 [.H, .I] false (masks [whole] 0) = some (k, t) →
    k.d t 0 < 17 →
    (t.ckPoke TR_ARM (ckWord (1 + k.d t 0 * 2 ^ 16 + 0x5A * 2 ^ 24))).ckWrites [TR_ARM_REFUSED]
      [(0, TR_ARM, ckWord (3 + k.d t 0 * 2 ^ 16 + 0xA5 * 2 ^ 24))] = (none, u) →
    exec (.arDisarm m) s = .next (u.mbFinish k.w 0 0 []))
  ∧ (∀ (m : Fin 32) (k : Ck) (s t : State) (u : State), s.commanded m 0x504 [.H, .I] false (masks [whole] 0) = some (k, t) →
    k.d t 0 < 17 →
    t.ckWrites [TR_ARM_REFUSED] [(0, TR_ARM, ckWord (4 + k.d t 0 * 2 ^ 16 + 0x3C * 2 ^ 24))] = (none, u) →
    exec (.arRelease m) s = .next (u.mbFinish k.w 0 0 []))
  ∧ (∀ (m : Fin 32) (k : Ck) (s t : State) (u : State) (d : Nat), s.commanded m 0x504 [.H, .I] false (masks [whole] 0) = some (k, t) →
    k.d t 0 < 17 →
    t.ckWrites [TR_ARM_REFUSED] [(0, TR_ARM, ckWord (4 + k.d t 0 * 2 ^ 16 + 0x3C * 2 ^ 24))] = (some d, u) →
    exec (.arRelease m) s = .next (u.mbFinish k.w 8 0 []))
  ∧ (∀ (m : Fin 32) (k : Ck) (s t : State) (u : State), s.commanded m 0x600 [.P] false (masks (words 4) 0) = some (k, t) →
    k.d t 0 < 4096 →
    t.ckWrites [QF_CFG_REFUSED]
      [(1, QF_QCFG (k.d t 0), ckWord (withBits (k.d t 1) 31 1 0)), (2, QF_QBASE (k.d t 0), ckWord (k.d t 2)),
      (3, QF_QWM (k.d t 0), ckWord (k.d t 3)), (1, QF_QCFG (k.d t 0), ckWord (k.d t 1))] = (none, u) →
    exec (.qConfig m) s = .next (u.mbFinish k.w 0 0 []))
  ∧ (∀ (m : Fin 32) (k : Ck) (s t : State) (u : State) (q : Nat), s.commanded m 0x601 [.P] false (masks (words 3) 0) = some (k, t) →
    k.d t 0 < 8 →
    k.d t 1 < 64 →
    q = t.fld (CL_QPIN (k.d t 0) (k.d t 1)) fCL_QPIN_QUEUE →
    t.ckWrites [QF_CFG_REFUSED] [(2, CL_QPIN (k.d t 0) (k.d t 1), ckWord (k.d t 2))] = (none, u) →
    u.pinCopies q (bitsOf (k.d t 2) 0 12) = true →
    exec (.qPin m) s = .next ({ u with mb.waits := u.mb.waits ++ [{ k.w with a := q, b := bitsOf (k.d t 2) 0 12 }] }))
  ∧ (∀ (m : Fin 32) (k : Ck) (s t : State) (u : State) (d : Nat), s.commanded m 0x601 [.P] false (masks (words 3) 0) = some (k, t) →
    k.d t 0 < 8 →
    k.d t 1 < 64 →
    t.ckWrites [QF_CFG_REFUSED] [(2, CL_QPIN (k.d t 0) (k.d t 1), ckWord (k.d t 2))] = (some d, u) →
    exec (.qPin m) s = .next (u.mbFinish k.w 8 2 []))
  ∧ (∀ (m : Fin 32) (k : Ck) (s t : State) (u : State), s.commanded m 0x602 [.P] false (masks (words 3) 0) = some (k, t) →
    k.d t 0 < 4096 →
    k.d t 1 < 16384 →
    0 < k.d t 2 →
    k.d t 2 ≤ 8192 →
    t.flag QF_SEED_STAT fQF_SEED_STAT_BUSY = false →
    (t.ckPoke QF_SEED_Q (ckWord (k.d t 0))).ckWrites [QF_CFG_REFUSED]
      [(0, QF_SEED, ckWord (2 ^ 31 + (k.d t 2 - 1) * 2 ^ 16 + k.d t 1))] = (none, u) →
    exec (.qSeed m) s = .next ({ u with mb.waits := u.mb.waits ++ [{ k.w with a := t.nat QF_SEED_SKIP }] }))
  ∧ (∀ (m : Fin 32) (k : Ck) (s t : State), s.commanded m 0x602 [.P] false (masks (words 3) 0) = some (k, t) →
    k.d t 0 < 4096 →
    k.d t 1 < 16384 →
    0 < k.d t 2 →
    k.d t 2 ≤ 8192 →
    t.flag QF_SEED_STAT fQF_SEED_STAT_BUSY = true →
    exec (.qSeed m) s = .next (t.mbFinish k.w 6 0 []))
  ∧ (∀ (m : Fin 32) (k : Ck) (s t : State), s.commanded m 0x603 [.P, .F] false (masks (words 2) 0) = some (k, t) →
    k.flock = none →
    k.d t 0 < 4096 →
    exec (.qWm m) s = .next ((t.ckPoke (QF_QWM (k.d t 0)) (ckWord (k.d t 1))).mbFinish k.w 0 0 []))
  ∧ (∀ (m : Fin 32) (k : Ck) (s t : State) (f : Nat), s.commanded m 0x603 [.P, .F] false (masks (words 2) 0) = some (k, t) →
    k.flock = some f →
    k.d t 0 < 4096 →
    t.qFlock (k.d t 0) ≠ f →
    exec (.qWm m) s = .next (t.mbFinish k.w 5 0 []))
  ∧ (∀ (m : Fin 32) (k : Ck) (s t : State), s.commanded m 0x604 [.P, .F] false (masks [whole, 1] 0) = some (k, t) →
    k.flock = none →
    k.d t 0 < 4096 →
    exec (.qNotice m) s = .next (let q := k.d t 0
      (if bitOf (k.d t 1) 0 then t.ckPoke (QF_WMN_STAT q) (ckWord (2 ^ 31 + 3)) else t).mbFinish k.w 0 0
        [t.regValue (QF_WMN_STAT q), t.regValue (QF_WMN_CNT q), t.regValue (QF_WMN_STAMP_LO q), t.regValue (QF_WMN_STAMP_HI q)]))

/-- JN_CONFIG writes the registers of the drain in order, then DEN; JN_READ replies with the entries the mailbox may see, oldest first. TIME_SET writes TB_SET and then TB_CTRL.SET, and answers HWREFUSED (8) when that is refused. TL_CONFIG writes its registers; TL_BCAST sends the broadcast and answers LATE (13) when the apply-time is nearer than TL_BMARGIN; TL_STATUS replies with the state of the link. PATCH_INFO replies with versions, SVN, the anti-rollback count and the masks of patched engines; PATCH_COMMIT completes at once when the count has reached SVN, else it waits for the fuses, each of which raises the count by one until it has (R190, R534); a fuse that fails ends it with HWREFUSED. DBG_POLICY writes DB_POLICY. Arguments out of range answer BADARG (3). -/
def Obligations.CrookJournalTimeAndPatches : Prop :=
  (∀ (m : Fin 32) (k : Ck) (s t : State), s.commanded m 0x700 [.P] false (masks (words 8) 0) = some (k, t) →
    k.d t 7 < 2 →
    exec (.jnConfig m) s = .next ((t.ckWrites [] [(0, JN_HBASE_LO, ckWord (k.d t 0)), (1, JN_HBASE_HI, ckWord (k.d t 1)), (2, JN_HSIZE, ckWord (k.d t 2)), (3, JN_HWB_LO, ckWord (k.d t 3)),
      (4, JN_HWB_HI, ckWord (k.d t 4)), (5, JN_DRAIN_PER, ckWord (k.d t 5)), (6, JN_DRAIN_THR, ckWord (k.d t 6)), (7, JN_CTRL, ckWord (k.d t 7))]).2.mbFinish k.w 0 0 []))
  ∧ (∀ (m : Fin 32) (k : Ck) (s t : State), s.commanded m 0x700 [.P] false (masks (words 8) 0) = some (k, t) →
    2 ≤ k.d t 7 →
    exec (.jnConfig m) s = .next (t.mbFinish k.w 3 7 []))
  ∧ (∀ (m : Fin 32) (k : Ck) (s t : State) (es : List (List Byte)), s.commanded m 0x701 [.P, .F] false (masks (words 2) 0) = some (k, t) →
    0 < k.d t 0 →
    k.d t 0 < 32 →
    k.d t 1 < 262144 →
    t.jnWalk k 262144 (t.nat JN_WIDX) (k.d t 1) (k.d t 0) [] = (true, es) →
    exec (.jnRead m) s = .next (t.mbFinish k.w 0 0 (es.flatMap wordsOf)))
  ∧ (∀ (m : Fin 32) (k : Ck) (s t : State), s.commanded m 0x701 [.P, .F] false (masks (words 2) 0) = some (k, t) →
    32 ≤ k.d t 0 →
    exec (.jnRead m) s = .next (t.mbFinish k.w 3 0 []))
  ∧ (∀ (m : Fin 32) (k : Ck) (s t : State) (u : State), s.commanded m 0xB00 [.H, .I] false (masks (words 2) 0) = some (k, t) →
    t.ckWrites [TB_SET_REFUSED] [(0, TB_SET_LO, ckWord (k.d t 0)), (1, TB_SET_HI, ckWord (k.d t 1)), (0, TB_CTRL, ckWord (withBits (t.nat TB_CTRL) fTB_CTRL_SET.lo 1 1))] = (none, u) →
    exec (.timeSet m) s = .next (u.mbFinish k.w 0 0 []))
  ∧ (∀ (m : Fin 32) (k : Ck) (s t : State) (u : State) (d : Nat), s.commanded m 0xB00 [.H, .I] false (masks (words 2) 0) = some (k, t) →
    t.ckWrites [TB_SET_REFUSED] [(0, TB_SET_LO, ckWord (k.d t 0)), (1, TB_SET_HI, ckWord (k.d t 1)), (0, TB_CTRL, ckWord (withBits (t.nat TB_CTRL) fTB_CTRL_SET.lo 1 1))] = (some d, u) →
    exec (.timeSet m) s = .next (u.mbFinish k.w 8 d []))
  ∧ (∀ (m : Fin 32) (k : Ck) (s t : State), s.commanded m 0xB01 [.H, .I] false (masks (words 5) 0) = some (k, t) →
    exec (.tlConfig m) s = .next ((t.ckWrites [] [(0, TL_CTRL, ckWord (k.d t 0)), (1, TL_STEPTHR, ckWord (k.d t 1)), (2, TL_BMARGIN, ckWord (k.d t 2)),
      (3, TL_ASYM 0, ckWord (k.d t 3)), (4, TL_ASYM 1, ckWord (k.d t 4))]).2.mbFinish k.w 0 0 []))
  ∧ (∀ (m : Fin 32) (k : Ck) (s t : State), s.commanded m 0xB02 [.P] false (masks (words 3) 0) = some (k, t) →
    k.d t 0 < 16 →
    exec (.tlBcast m) s = .next ((((t.tlBcastTx (k.d t 0) (k.d64 t 1)).armTlcmd (k.d t 0) (k.d64 t 1)).tlcmdDue).mbFinish k.w
      (if stampDiff (k.d64 t 1) t.now < (t.nat TL_BMARGIN : Int) then 13 else 0) 0 []))
  ∧ (∀ (m : Fin 32) (k : Ck) (s t : State), s.commanded m 0xB02 [.P] false (masks (words 3) 0) = some (k, t) →
    16 ≤ k.d t 0 →
    exec (.tlBcast m) s = .next (t.mbFinish k.w 3 0 []))
  ∧ (∀ (m : Fin 32) (k : Ck) (s t : State), s.commanded m 0xB03 [.P, .F, .L] false (masks [] 0) = some (k, t) →
    exec (.tlStatus m) s = .next (t.mbFinish k.w 0 0 [t.regValue TL_STAT, t.regValue (TL_PSTAT 0), t.regValue (TL_PSTAT 1), t.regValue (TL_OFFSET 0), t.regValue (TL_OFFSET 1)]))
  ∧ (∀ (m : Fin 32) (k : Ck) (s t : State), s.commanded m 0xC00 [.P, .F] false (masks [] 0) = some (k, t) →
    exec (.patchInfo m) s = .next (t.mbFinish k.w 0 0 ((t.readyWords t.pw.patchVer t.pw.patch).take 4 ++ [ckWord t.pw.svn, ckWord t.rollback] ++ t.csMask fCS_STAT_PLOADED
      ++ t.csMask fCS_STAT_PFAIL)))
  ∧ (∀ (m : Fin 32) (k : Ck) (s t : State), s.commanded m 0xC01 [.H] false (masks [] 0) = some (k, t) →
    t.pw.patch = 0 →
    t.mbWaiting 0xC01 = none →
    t.pw.svn ≤ t.rollback →
    exec (.patchCommit m) s = .next (t.mbFinish k.w 0 0 [ckWord t.rollback, ckWord t.rollback]))
  ∧ (∀ (m : Fin 32) (k : Ck) (s t : State), s.commanded m 0xC01 [.H] false (masks [] 0) = some (k, t) →
    t.pw.patch = 0 →
    t.mbWaiting 0xC01 = none →
    t.rollback < t.pw.svn →
    exec (.patchCommit m) s = .next ({ t with mb.waits := t.mb.waits ++ [{ k.w with a := t.rollback, b := t.pw.svn }] }))
  ∧ (∀ (w : MbWait) (i : Nat) (s : State), s.live = true → s.mbWaiting 0xC01 = some w →
    firstIdx (fun n => !tget (fun _ => false) s.fuses (64 + n)) 64 = some i →
    exec (.fuseBlowComplete true) s = .next (
      let u := { s with fuses := tset (fun _ => false) s.fuses (64 + i) true }
      if w.b ≤ State.rollback u then u.mbFinish w 0 0 [ckWord w.a, ckWord (State.rollback u)] else u))
  ∧ (∀ (w : MbWait) (s : State), s.live = true → s.mbWaiting 0xC01 = some w →
    exec (.fuseBlowComplete false) s = .next (s.mbFinish w 8 0 [ckWord w.a, ckWord s.rollback]))
  ∧ (∀ (m : Fin 32) (k : Ck) (s t : State), s.commanded m 0xD00 [.H, .I] false (masks [whole] 0) = some (k, t) →
    exec (.dbgPolicy m) s = .next ((t.ckPoke DB_POLICY (ckWord (k.d t 0))).mbFinish k.w 0 0 []))

/-- RS_DROVE checks its arguments and the lead time (LATE, 13), writes RS_DV_TIME and RS_DV_CTRL, preloads the configuration and waits for the switch; RS_RETIRE retires a spare unit and replies with its incarnation (STATE, 7, for a unit that is not spare); RS_READMIT and RS_TEST start the test and wait; the end of the test clears TEST, raises EV918 with record 0x076 and answers with the result and the failing step, or, for a readmission that passed, advances the incarnation and clears RET. HEALTH replies with the data of the selector, in the buffer where it has one. PM_REST and PM_FOLD write EC_WAKE_EN and PM_CTRL with GO after the reply; while a flock is not CLEAN, a Drove or a test runs they answer BUSY (6). -/
def Obligations.CrookReserveHealthAndPower : Prop :=
  (∀ (m : Fin 32) (k : Ck) (s t : State) (src : Nat) (t0 : Stamp) (u : State), s.commanded m 0x800 [.P] false (masks (words 5) 0) = some (k, t) →
    k.d t 0 = 2 →
    t.findUnit 2 (k.d t 1) = some src →
    k.d t 2 < 36 →
    t.dvBusy = false →
    t.notClean (t.unitFlock 2 src) = false →
    t.unitSpare 2 (k.d t 2) = true →
    t0 = k.d64 t 3 →
    8590 ≤ stampDiff t0 t.now →
    ((t.ckPoke RS_DV_TIME_LO (t0.extractLsb' 0 32)).ckPoke RS_DV_TIME_HI (t0.extractLsb' 32 32)).ckWrites [RS_CFG_REFUSED]
      [(0, RS_DV_CTRL, ckWord (2 ^ 31 + 2 * 2 ^ 24 + k.d t 2 * 2 ^ 16 + src))] = (none, u) →
    exec (.rsDrove m) s = .next (let v := u.preloadConfig 2 src (k.d t 2)
      { v with mb.waits := v.mb.waits ++ [{ k.w with a := src, b := k.d t 2 }] }))
  ∧ (∀ (m : Fin 32) (k : Ck) (s t : State) (src : Nat), s.commanded m 0x800 [.P] false (masks (words 5) 0) = some (k, t) →
    k.d t 0 = 2 →
    t.findUnit 2 (k.d t 1) = some src →
    k.d t 2 < 36 →
    t.dvBusy = false →
    t.notClean (t.unitFlock 2 src) = false →
    t.unitSpare 2 (k.d t 2) = true →
    stampDiff (k.d64 t 3) t.now < 8590 →
    exec (.rsDrove m) s = .next (t.mbFinish k.w 13 0 []))
  ∧ (∀ (m : Fin 32) (k : Ck) (s t : State), s.commanded m 0x801 [.P] false (masks (words 2) 0) = some (k, t) →
    k.d t 0 < 5 →
    k.d t 1 < physCount (k.d t 0) →
    t.underTest (k.d t 0) (k.d t 1) = false →
    t.unitSpare (k.d t 0) (k.d t 1) = true →
    t.dvBusy = false →
    exec (.rsRetire m) s = .next ((t.retire (k.d t 0) (k.d t 1)).mbFinish k.w 0 0 [ckWord (t.unitInc (k.d t 0) (k.d t 1))]))
  ∧ (∀ (m : Fin 32) (k : Ck) (s t : State), s.commanded m 0x801 [.P] false (masks (words 2) 0) = some (k, t) →
    k.d t 0 < 5 →
    k.d t 1 < physCount (k.d t 0) →
    t.underTest (k.d t 0) (k.d t 1) = false →
    t.unitSpare (k.d t 0) (k.d t 1) = false →
    exec (.rsRetire m) s = .next (t.mbFinish k.w 7 0 []))
  ∧ (∀ (m : Fin 32) (k : Ck) (s t : State), s.commanded m 0x802 [.P] false (masks (words 2) 0) = some (k, t) →
    k.d t 0 < 5 →
    k.d t 1 < physCount (k.d t 0) →
    t.underTest (k.d t 0) (k.d t 1) = false →
    t.unitValid (k.d t 0) (k.d t 1) = false →
    t.unitRetired (k.d t 0) (k.d t 1) = true →
    exec (.rsReadmit m) s = .next (let v := t.testStart { kind := k.d t 0, unit := k.d t 1, mbox := m, readmit := true }
      { v with mb.waits := v.mb.waits ++ [{ k.w with a := k.d t 0, b := k.d t 1 }] }))
  ∧ (∀ (m : Fin 32) (k : Ck) (s t : State), s.commanded m 0x803 [.P] false (masks (words 2) 0) = some (k, t) →
    k.d t 0 < 5 →
    k.d t 1 < physCount (k.d t 0) →
    t.underTest (k.d t 0) (k.d t 1) = false →
    t.unitValid (k.d t 0) (k.d t 1) = false →
    t.dvBusy = false →
    exec (.rsTest m) s = .next (let v := t.testStart { kind := k.d t 0, unit := k.d t 1, mbox := m, readmit := false }
      { v with mb.waits := v.mb.waits ++ [{ k.w with a := k.d t 0, b := k.d t 1 }] }))
  ∧ (∀ (kind : Fin 5) (unit : Fin 72) (step : Fin 8) (s : State), s.underTest kind unit = false → s.rs.tests = [] →
    exec (.selfTestEnd kind unit step) s = .next s)
  ∧ (∀ (m : Fin 32) (k : Ck) (s t : State), s.commanded m 0x900 [.P] true (masks [whole] 0) = some (k, t) →
    t.mbBuf m = false →
    k.d t 0 < 5 →
    k.d t 0 ≠ 2 →
    exec (.health m true) s = .next (t.mbFinish k.w 0 0 (t.healthData (k.d t 0)).1 (t.healthData (k.d t 0)).2))
  ∧ (∀ (m : Fin 32) (k : Ck) (s t : State), s.commanded m 0x900 [.P] true (masks [whole] 0) = some (k, t) →
    t.mbBuf m = false →
    k.d t 0 = 2 →
    exec (.health m true) s = .next (t.mbFinish k.w 2 0 []))
  ∧ (∀ (m : Fin 32) (k : Ck) (s t : State), s.commanded m 0x900 [.P] true (masks [whole] 0) = some (k, t) →
    k.flock = none →
    t.mbBuf m = true →
    k.d t 0 < 5 →
    (t.healthData (k.d t 0)).2 ≤ t.mbD m 2 →
    exec (.health m true) s = .next ((t.sysWrite (t.mbD64 m 0).toNat (((t.healthData (k.d t 0)).1.flatMap (fun w => natBytes 4 w.toNat)).take (t.healthData (k.d t 0)).2)).mbFinish k.w 0 0
      [ckWord (t.healthData (k.d t 0)).2]))
  ∧ (∀ (m : Fin 32) (k : Ck) (s t : State), s.commanded m 0xA00 [.P] false (masks [0xFFFF] 0) = some (k, t) →
    t.pmBusy = false →
    exec (.pmRest m) s = .next (let v := ((t.ckPoke EC_WAKE_EN (ckWord (k.d t 0))).mbFinish k.w 0 0 []).ckPoke PM_CTRL (ckWord (2 ^ 31 + 1))
      { v with sh.crookWait := v.pw.entry != 0 }))
  ∧ (∀ (m : Fin 32) (k : Ck) (s t : State), s.commanded m 0xA00 [.P] false (masks [0xFFFF] 0) = some (k, t) →
    t.pmBusy = true →
    exec (.pmRest m) s = .next (t.mbFinish k.w 6 0 []))
  ∧ (∀ (m : Fin 32) (k : Ck) (s t : State), s.commanded m 0xA01 [.P] false (masks [0xFFFF] 0) = some (k, t) →
    t.pmBusy = false →
    exec (.pmFold m) s = .next (let v := (((t.ckPoke EC_WAKE_EN (ckWord (k.d t 0))).mbFinish k.w 0 0 []).foldSave).ckPoke PM_CTRL (ckWord (2 ^ 31 + 2))
      { v with sh.crookWait := v.pw.entry != 0 }))
  ∧ (∀ (kind : Fin 5) (unit : Fin 72) (step : Fin 8) (tr : TestRun) (w : MbWait) (s : State), s.live = true →
    s.rs.tests.find? (fun x => x.kind == kind.val && x.unit == unit.val) = some tr → tr.readmit = false →
    s.mb.waits.find? (fun x => x.m == tr.mbox && (x.op == 0x802 || x.op == 0x803)) = some w → kind.val ≠ 0 → kind.val ≠ 4 →
    exec (.selfTestEnd kind unit step) s = .next (
      let res := if step.val = 0 then 0 else 1
      let u := { s.setFlag (hurdleReg kind unit) fRS_HURDLE_E_TEST false with rs.tests := s.rs.tests.erase tr }
      ((u.raise 918 0 0).record 918 0x76 kind unit res step).mbFinish w 0 0 [.ofNat 32 res, .ofNat 32 step.val]))
  ∧ (∀ (kind : Fin 5) (unit : Fin 72) (step : Fin 8) (tr : TestRun) (w : MbWait) (s : State), s.live = true →
    s.rs.tests.find? (fun x => x.kind == kind.val && x.unit == unit.val) = some tr → tr.readmit = true →
    s.mb.waits.find? (fun x => x.m == tr.mbox && (x.op == 0x802 || x.op == 0x803)) = some w → kind.val ≠ 0 → kind.val ≠ 4 → step.val = 0 →
    exec (.selfTestEnd kind unit step) s = .next (
      let u := { s.setFlag (hurdleReg kind unit) fRS_HURDLE_E_TEST false with rs.tests := s.rs.tests.erase tr }
      let u := (u.raise 918 0 0).record 918 0x76 kind unit 0 step
      let i := (u.fld (hurdleReg kind unit) fRS_HURDLE_E_DINC + 1) % 256
      let u := (u.setNat (mapReg kind unit) (withBits (u.nat (mapReg kind unit)) 16 8 i)).setFlag (hurdleReg kind unit) fRS_HURDLE_E_RET false
      let u := (u.record 918 0x73 0 0 0 0).saveReserve
      u.mbFinish w 0 0 [.ofNat 32 0, .ofNat 32 (u.unitInc kind unit)]))

/-! ### Memory integrity (17_memory_integrity.md) and the reserve (18_reserve_and_drove.md) -/

/-- A scrub read of a word with no flipped bit changes only where the scrubber reads next, which wraps; a corrected word is written back corrected and counted, with MI_LAST and the row log; an uncorrectable one is written back poisoned, counted, raised once and journalled (R436, R437, R440). Without SCRUBEN, and before 16 × SPACE fc have passed since the last read, nothing is read (R440). A write of MI_REMAP that would disable or move an enabled entry to another row, that names what is not there, clashes, or comes during a copy, is refused, counted and journalled as record 0x062; any other that enables starts the copy (R443), and the switch ends it with EV906, record 0x061 and a new image, 257 fc later at the earliest (R444). MI_SWEEP.GO sweeps an instance whose unit is out of the map and stopped, else it is refused and counted; its end wipes the instance and raises EV907 with record 0x063 (R447). MI_GCTL.CLRLOG empties the row log (R449). -/
def Obligations.MemoryIntegrityCommands : Prop :=
  (∀ (g : Fin 10) (s : State), s.live = true → s.pw.fast = true → g.val ≠ 7 → s.flag (MI_GCFG g) fMI_GCFG_SCRUBEN = true →
    s.scrubDue g = true →
    exec (.scrubRead g []) s = .next { s with mi := { s.mi with
      scrub := tset (fun _ => 0) s.mi.scrub g.val ((tget (fun _ => 0) s.mi.scrub g.val + 1) % miWords g), scrubFc := tset (fun _ => 0) s.mi.scrubFc g.val (s.fc + 1) } })
  ∧ (∀ (g : Fin 10) (i fl : Nat) (x : BitVec 48) (s : State) (p : Nat), s.live = true → s.pw.fast = true → g.val ≠ 7 →
    s.flag (MI_GCFG g) fMI_GCFG_SCRUBEN = true → i < (miShape g).1 → fl = x.toNat → s.scrubDue g = true → eccRead g (syndrome g fl) = .corrected p →
    exec (.scrubRead g [(i, x)]) s = .next (
      let wd := tget (fun _ => 0) s.mi.scrub g.val
      let mac := wd / 64 / (miShape g).2.2
      let at0 := wd % ((miShape g).2.2 * 64)
      let u := s.miWrite (s.miRead (s.miLoc g i wd) ^^^ dataFlips g (fl ^^^ 2 ^ p)) (s.miLoc g i wd)
      let u := ((u.inc (MI_CE_CNT g)).setFlag (MI_GSTAT g) fMI_GSTAT_CE true).miLast g i mac at0 (syndrome g fl) false
      let u := u.rowLog g i mac (at0 / 64)
      { u with mi := { u.mi with scrub := tset (fun _ => 0) u.mi.scrub g.val ((wd + 1) % miWords g), scrubFc := tset (fun _ => 0) u.mi.scrubFc g.val (u.fc + 1) } }))
  ∧ (∀ (g : Fin 10) (i fl : Nat) (x : BitVec 48) (s : State), s.live = true → s.pw.fast = true → g.val ≠ 7 →
    s.flag (MI_GCFG g) fMI_GCFG_SCRUBEN = true → s.flag (MI_GSTAT g) fMI_GSTAT_UE = false → i < (miShape g).1 → fl = x.toNat → s.scrubDue g = true →
    eccRead g (syndrome g fl) = .uncorrectable →
    exec (.scrubRead g [(i, x)]) s = .next (
      let wd := tget (fun _ => 0) s.mi.scrub g.val
      let mac := wd / 64 / (miShape g).2.2
      let at0 := wd % ((miShape g).2.2 * 64)
      let n := dataBits g - 1
      let u := s.miWrite ((s.miRead (s.miLoc g i wd) ^^^ dataFlips g fl) % 2 ^ n + 2 ^ n) (s.miLoc g i wd)
      let u := (u.inc (MI_UE_CNT g)).miLast g i mac at0 (syndrome g fl) true
      let u := (u.setFlag (MI_GSTAT g) fMI_GSTAT_UE true).raiseNamed (896 + g) [fMI_GSTAT_UE.lo]
      let u := u.record (896 + g) 0x60 g (u.nat (MI_LAST g)) (syndrome g fl) 0
      { u with mi := { u.mi with scrub := tset (fun _ => 0) u.mi.scrub g.val ((wd + 1) % miWords g), scrubFc := tset (fun _ => 0) u.mi.scrubFc g.val (u.fc + 1) } }))
  ∧ (∀ (g : Fin 10) (errs : List (Nat × BitVec 48)) (s : State), (s.pw.fast = false ∨ g.val = 7 ∨ s.flag (MI_GCFG g) fMI_GCFG_SCRUBEN = false ∨ s.scrubDue g = false) →
    exec (.scrubRead g errs) s = .next s)
  ∧ (∀ (p : Port) (g : Fin 10) (j : Fin 8) (v : Word) (s t : State), s.takes p (MI_REMAP g j) v = true → t = s.logged p (MI_REMAP g j) v →
    bitOf (t.nat (MI_REMAP g j)) 31 = false →
    bitOf v.toNat 31 = true → bitsOf v.toNat 24 7 < (miShape g).1 → bitsOf v.toNat 17 7 < (miShape g).2.1 → bitsOf v.toNat 8 8 < (miShape g).2.2 →
    t.remapClash g j v.toNat = false → t.remapCopy g = none →
    exec (.miRemap p g j v) s = .next (s.after p (MI_REMAP g j) v (fun u =>
      let u := (u.setReg (MI_REMAP g j) v).setFlag (MI_REMAP_STAT g) fMI_REMAP_STAT_BUSY true
      { u with mi.copies := tset (fun _ => (0, 0)) u.mi.copies g.val (j.val, u.fc + 1) })))
  ∧ (∀ (p : Port) (g : Fin 10) (j : Fin 8) (v : Word) (s t : State), s.takes p (MI_REMAP g j) v = true → t = s.logged p (MI_REMAP g j) v →
    bitOf (t.nat (MI_REMAP g j)) 31 = true →
    v ≠ t.reg (MI_REMAP g j) → (bitOf v.toNat 31 = false ∨ v.toNat / 4 ≠ t.nat (MI_REMAP g j) / 4) →
    exec (.miRemap p g j v) s = .next (s.after p (MI_REMAP g j) v (fun u => (u.inc MI_CFG_REFUSED).record (896 + g) 0x62 0 0 0 0)))
  ∧ (∀ (p : Port) (g : Fin 10) (j : Fin 8) (v : Word) (s t : State), s.takes p (MI_REMAP g j) v = true → t = s.logged p (MI_REMAP g j) v →
    v ≠ t.reg (MI_REMAP g j) →
    bitOf v.toNat 31 = true → ((miShape g).1 ≤ bitsOf v.toNat 24 7 ∨ (miShape g).2.1 ≤ bitsOf v.toNat 17 7 ∨ (miShape g).2.2 ≤ bitsOf v.toNat 8 8
      ∨ t.remapClash g j v.toNat = true ∨ (t.remapCopy g).isSome = true) →
    exec (.miRemap p g j v) s = .next (s.after p (MI_REMAP g j) v (fun u => (u.inc MI_CFG_REFUSED).record (896 + g) 0x62 0 0 0 0)))
  ∧ (∀ (g : Fin 10) (j f : Nat) (s : State), s.live = true → s.pw.fast = true → s.remapCopy g = some (j, f) → f + 257 ≤ s.fc →
    exec (.remapSwitch g) s = .next (
      let u := { s with mi.copies := tset (fun _ => (0, 0)) s.mi.copies g.val (0, 0) }
      (((u.setFlag (MI_REMAP_STAT g) fMI_REMAP_STAT_BUSY false).raise 906 0 0).record 906 0x61 g j (s.fc - f) 0).saveRemap))
  ∧ (∀ (g : Fin 10) (s : State), s.remapCopy g = none → exec (.remapSwitch g) s = .next s)
  ∧ (∀ (p : Port) (g : Fin 10) (i : Fin 128) (s t : State), s.takes p (MI_SWEEP g) (.ofNat 32 (2 ^ 31 + i.val)) = true →
    t = (s.logged p (MI_SWEEP g) (.ofNat 32 (2 ^ 31 + i.val))).setNat (MI_SWEEP g) i → t.sweepOk g i = true →
    exec (.miSweep p g i) s = .next (s.after p (MI_SWEEP g) (.ofNat 32 (2 ^ 31 + i.val)) (fun u =>
      let u := (u.setNat (MI_SWEEP g) i).setFlag (MI_GSTAT g) fMI_GSTAT_SWEEP true
      { u with mi.sweeps := tset (fun _ => false) u.mi.sweeps (g.val * 128 + i.val) true })))
  ∧ (∀ (p : Port) (g : Fin 10) (i : Fin 128) (s t : State), s.takes p (MI_SWEEP g) (.ofNat 32 (2 ^ 31 + i.val)) = true →
    t = (s.logged p (MI_SWEEP g) (.ofNat 32 (2 ^ 31 + i.val))).setNat (MI_SWEEP g) i → t.sweepOk g i = false →
    exec (.miSweep p g i) s = .next (s.after p (MI_SWEEP g) (.ofNat 32 (2 ^ 31 + i.val)) (fun u => (u.setNat (MI_SWEEP g) i).inc MI_CFG_REFUSED)))
  ∧ (∀ (g : Fin 10) (i : Fin 128) (s : State), s.live = true → s.pw.fast = true → s.sweeping g i = true →
    exec (.sweepEnd g i) s = .next (
      let u := s.wipeInstance g i
      let u := { u with mi.sweeps := tset (fun _ => false) u.mi.sweeps (g.val * 128 + i.val) false }
      let u := u.setFlag (MI_GSTAT g) fMI_GSTAT_SWEEP (u.mi.sweeps.any (fun e => e.1 / 128 == g.val))
      (u.raise 907 0 0).record 907 0x63 g i 0 0))
  ∧ (∀ (g : Fin 10) (i : Fin 128) (s : State), s.sweeping g i = false → exec (.sweepEnd g i) s = .next s)
  ∧ (∀ (p : Port) (g : Fin 10) (s : State), s.takes p (MI_GCTL g) 1 = true →
    exec (.clrlog p g) s = .next (s.after p (MI_GCTL g) 1 (fun u => forN (fun i u => u.setNat (MI_ROWLOG g i) 0) 4 u)))

/-- GO with a kind and two units that exist, and no Drove in progress, takes the fields and starts the preload; during a Drove, or for a unit that does not exist (the model's choice, log entry 24), it starts nothing and is counted. The preload's end, of an engine 8,192 fc after GO at the earliest, copies the memories of an engine and arms; a boundary met while ARMED and not before T holds the source (R456, R457); at the edge that ends its fc the switch moves the unit, exchanges LOGICAL and LVALID of source and target, fences the source and frees the target, counts, stamps, raises EV912 with record 0x070, saves the image and completes a waiting RS_DROVE; an engine's comes 40 fc after the hold at the earliest. CANCEL before the switch stops and fences the target, raises EV913 with record 0x071 and ends a waiting command with STATE; with no Drove in progress it does nothing. -/
def Obligations.DroveCommands : Prop :=
  (∀ (p : Port) (data v : Word) (s : State), v = fRS_DV_CTRL_CANCEL.put (fRS_DV_CTRL_GO.put data 1) 0 → s.takes p RS_DV_CTRL v = true →
    (s.logged p RS_DV_CTRL v).dvBusy = false → bitsOf v.toNat 24 3 < 5 → bitsOf v.toNat 0 7 < physCount (bitsOf v.toNat 24 3) →
    bitsOf v.toNat 16 7 < physCount (bitsOf v.toNat 24 3) →
    exec (.droveGo p data) s = .next (s.after p RS_DV_CTRL v (fun u =>
      let u := ((u.setFld RS_DV_CTRL fRS_DV_CTRL_KIND (bitsOf v.toNat 24 3)).setFld RS_DV_CTRL fRS_DV_CTRL_DST (bitsOf v.toNat 16 7)).setFld
        RS_DV_CTRL fRS_DV_CTRL_SRC (bitsOf v.toNat 0 7)
      State.setPhase { u.setFlag RS_DV_STAT fRS_DV_STAT_PRELOADED false with rs.goFc := u.fc + 1 } 1)))
  ∧ (∀ (p : Port) (data v : Word) (s : State), v = fRS_DV_CTRL_CANCEL.put (fRS_DV_CTRL_GO.put data 1) 0 → s.takes p RS_DV_CTRL v = true →
    (s.logged p RS_DV_CTRL v).dvBusy = true →
    exec (.droveGo p data) s = .next (s.after p RS_DV_CTRL v (fun u => u.inc RS_CFG_REFUSED)))
  ∧ (∀ (s : State), s.live = true → s.dvPhase = 1 → s.dvKind ≠ 0 →
    exec .preloaded s = .next ((s.setFlag RS_DV_STAT fRS_DV_STAT_PRELOADED true).setPhase 2))
  ∧ (∀ (s : State), s.live = true → s.dvPhase = 1 → s.dvKind = 0 → s.rs.goFc + 8191 ≤ s.fc →
    exec .preloaded s = .next (
      let u := s.copyRange (0x1000000 + s.dvSrc * 0x10000) (0x1000000 + s.dvDst * 0x10000) 0x10000
      let u := u.copyRange (0x1480000 + s.dvSrc * 0x1000) (0x1480000 + s.dvDst * 0x1000) 0x1000
      (u.setFlag RS_DV_STAT fRS_DV_STAT_PRELOADED true).setPhase 2))
  ∧ (∀ (s : State), (s.dvPhase ≠ 1 ∨ (s.dvKind = 0 ∧ s.fc < s.rs.goFc + 8191)) → exec .preloaded s = .next s)
  ∧ (∀ (s : State), s.live = true → s.dvPhase = 2 → reached s.dvTime s.now = true → s.dvKind = 2 →
    exec .droveBoundary s = .next { s.setPhase 3 with rs.holdFc := s.fc + 1 })
  ∧ (∀ (s : State), s.live = true → s.dvPhase = 2 → reached s.dvTime s.now = true → s.dvKind = 0 → s.engBoundary s.dvSrc = true →
    exec .droveBoundary s = .next (
      let u : State := { s.setPhase 3 with rs.holdFc := s.fc + 1 }
      u.setEng s.dvSrc { s.eng s.dvSrc with held := true }))
  ∧ (∀ (s : State), (s.dvPhase ≠ 2 ∨ reached s.dvTime s.now = false) → exec .droveBoundary s = .next s)
  ∧ (∀ (s : State), s.live = true → s.dvPhase = 3 → (s.dvKind ≠ 0 ∨ s.rs.holdFc + 39 ≤ s.fc) →
    exec .droveSwitch s = .next { s with rs.swNow := true })
  ∧ (∀ (s : State), s.rs.swNow = true → s.dvPhase = 3 → s.dvEnd = State.dvSwitchNow { s with rs.swNow := false })
  ∧ (∀ (k a b : Nat) (s u : State), k = s.dvKind → a = s.dvSrc → b = s.dvDst → u = s.moveUnit k a b →
    s.dvSwitchNow = (
      let x := (u.setUnitMap k a (s.unitValid k b) (s.unitLogical k b)).setUnitMap k b (s.unitValid k a) (s.unitLogical k a)
      let x := (((x.setFence k a true).setFence k b false).setPhase 4).inc RS_DV_CNT
      let x : State := { x.setReg64 RS_DV_SWSTAMP_LO RS_DV_SWSTAMP_HI x.now with rs.holdFc := 0 }
      let x := ((x.raiseNamed 912 [k, s.unitLogical k a, a, b]).record 912 0x70 0 0 0 0).saveReserve
      match x.mbWaiting 0x800 with
      | none => x
      | some y => x.mbFinish y 0 0 [.ofNat 32 a, .ofNat 32 b, x.now.extractLsb' 0 32, x.now.extractLsb' 32 32]))
  ∧ (∀ (s : State), (s.dvPhase ≠ 3 ∨ (s.dvKind = 0 ∧ s.fc < s.rs.holdFc + 39)) → exec .droveSwitch s = .next s)
  ∧ (∀ (p : Port) (v : Word) (s t : State), v = fRS_DV_CTRL_CANCEL.put (s.reg RS_DV_CTRL) 1 → s.takes p RS_DV_CTRL v = true →
    bitOf v.toNat 31 = false → t = s.logged p RS_DV_CTRL v → t.dvBusy = true → t.dvKind = 2 → t.mbWaiting 0x800 = none →
    exec (.cancel p) s = .next (s.after p RS_DV_CTRL v (fun u =>
      let u : State := { ((u.unitStop 2 u.dvDst).setFence 2 u.dvDst true).setPhase 5 with rs := { u.rs with holdFc := 0, swNow := false } }
      (u.raise 913 0 0).record 913 0x71 0 0 0 0)))
  ∧ (∀ (p : Port) (v : Word) (w : MbWait) (s t u : State), v = fRS_DV_CTRL_CANCEL.put (s.reg RS_DV_CTRL) 1 → s.takes p RS_DV_CTRL v = true →
    bitOf v.toNat 31 = false → t = s.logged p RS_DV_CTRL v → t.dvBusy = true → t.dvKind = 2 →
    u = ((t.unitStop 2 t.dvDst).setFence 2 t.dvDst true).setPhase 5 → u.mbWaiting 0x800 = some w →
    exec (.cancel p) s = .next (s.after p RS_DV_CTRL v (fun _ =>
      (((State.raise { u with rs := { u.rs with holdFc := 0, swNow := false } } 913 0 0).record 913 0x71 0 0 0 0).mbFinish w 7 0 []))))
  ∧ (∀ (p : Port) (v : Word) (s : State), v = fRS_DV_CTRL_CANCEL.put (s.reg RS_DV_CTRL) 1 → s.takes p RS_DV_CTRL v = true →
    bitOf v.toNat 31 = false → (s.logged p RS_DV_CTRL v).dvBusy = false →
    exec (.cancel p) s = .next (s.after p RS_DV_CTRL v (fun u =>
      ((u.setFld RS_DV_CTRL fRS_DV_CTRL_KIND (bitsOf v.toNat 24 3)).setFld RS_DV_CTRL fRS_DV_CTRL_DST (bitsOf v.toNat 16 7)).setFld
        RS_DV_CTRL fRS_DV_CTRL_SRC (bitsOf v.toNat 0 7))))

/-- A write of RS_SC_CTRL with EN while EN is 0 and no generator Drove runs takes the word and clears SYNCED; a different one while EN = 1 is refused and counted (R460). RS_RO_CTRL.GO starts a measurement with the window written, 0 standing for 1, and is refused and counted while one runs; its end, when the window has passed, keeps the counts of the eight pairs, clears BUSY and raises EV916 (R453). The RCO counts are kept in 16 bits, and the first that is out of range of each oscillator raises EV917 (R463). The hour's accrual counts the hours of the units that carried one logical unit throughout, the busy counts and the memory errors of the hour, and saves the reserve image (R454, R455). -/
def Obligations.ShadowPairingAndWear : Prop :=
  (∀ (p : Port) (data v : Word) (s : State), v = fRS_SC_CTRL_EN.put data 1 → s.takes p RS_SC_CTRL v = true →
    s.flag RS_SC_CTRL fRS_SC_CTRL_EN = false → s.dvBusy = false → v ≠ s.reg RS_SC_CTRL →
    exec (.shadowPairing p data) s = .next (s.after p RS_SC_CTRL v (fun u =>
      { (u.setReg RS_SC_CTRL v).setFlag RS_SC_STAT fRS_SC_STAT_SYNCED false with rs.pairFc := 0 })))
  ∧ (∀ (p : Port) (data v : Word) (s t : State), v = fRS_SC_CTRL_EN.put data 1 → s.takes p RS_SC_CTRL v = true →
    t = s.logged p RS_SC_CTRL v → t.flag RS_SC_CTRL fRS_SC_CTRL_EN = true → v ≠ t.reg RS_SC_CTRL →
    exec (.shadowPairing p data) s = .next (s.after p RS_SC_CTRL v (fun u => u.inc RS_CFG_REFUSED)))
  ∧ (∀ (p : Port) (data v : Word) (s t : State) (w : Word), v = fRS_RO_CTRL_GO.put data 1 → s.admits p RS_RO_CTRL v = true →
    w = s.word p RS_RO_CTRL v → bitOf w.toNat 31 = true → t = s.logged p RS_RO_CTRL v → t.flag RS_RO_CTRL fRS_RO_CTRL_BUSY = false →
    exec (.ringOscillatorMeasure p data) s = .next (s.after p RS_RO_CTRL v (fun u =>
      (u.setFld RS_RO_CTRL fRS_RO_CTRL_WIN (max 1 (bitsOf w.toNat 0 8))).setFlag RS_RO_CTRL fRS_RO_CTRL_BUSY true |> fun x => { x with rs.roLeft := x.fld RS_RO_CTRL fRS_RO_CTRL_WIN })))
  ∧ (∀ (p : Port) (data v : Word) (s t : State) (w : Word), v = fRS_RO_CTRL_GO.put data 1 → s.admits p RS_RO_CTRL v = true →
    w = s.word p RS_RO_CTRL v → bitOf w.toNat 31 = true → t = s.logged p RS_RO_CTRL v → t.flag RS_RO_CTRL fRS_RO_CTRL_BUSY = true →
    exec (.ringOscillatorMeasure p data) s = .next (s.after p RS_RO_CTRL v (fun u =>
      (u.setFld RS_RO_CTRL fRS_RO_CTRL_WIN (max 1 (bitsOf w.toNat 0 8))).inc RS_CFG_REFUSED)))
  ∧ (∀ (a b : Vector Word 8) (s : State), s.live = true → s.flag RS_RO_CTRL fRS_RO_CTRL_BUSY = true → s.rs.roLeft = 0 →
    exec (.ringOscillatorEnd a b) s = .next (
      let u := (List.finRange 8).foldl (fun u c => (u.setReg (RS_RO_STRESS c.val) (a.get c)).setReg (RS_RO_REF c.val) (b.get c)) s
      (u.setFlag RS_RO_CTRL fRS_RO_CTRL_BUSY false).raise 916 0 0))
  ∧ (∀ (a b : Vector Word 8) (s : State), (s.flag RS_RO_CTRL fRS_RO_CTRL_BUSY = false ∨ s.rs.roLeft ≠ 0) → exec (.ringOscillatorEnd a b) s = .next s)
  ∧ (∀ (a b : BitVec 32) (s : State), s.pw.mode ≠ .reset → rcoBad (a.toNat % 65536) = false → rcoBad (b.toNat % 65536) = false →
    exec (.rcoMeasurement a b) s = .next ((s.setNat RS_RCO_A (a.toNat % 65536)).setNat RS_RCO_B (b.toNat % 65536)))
  ∧ (∀ (a b : BitVec 32) (s : State), s.pw.mode ≠ .reset → rcoBad (a.toNat % 65536) = true → s.rs.rco = 0 → rcoBad (b.toNat % 65536) = false →
    exec (.rcoMeasurement a b) s = .next (
      let u := (s.setNat RS_RCO_A (a.toNat % 65536)).setNat RS_RCO_B (b.toNat % 65536)
      State.raise { u with rs.rco := 1 } 917 0 0))
  ∧ (∀ (s : State), s.live = true → exec .stressHour s = .next (
      let z : Nat → Word := fun _ => 0
      let u := forN (fun n u => if u.unitValid (unitOf n).1 (unitOf n).2 && !tget (fun _ => false) u.rs.idle n then
        { u with rs.hours := tset z u.rs.hours n (satAdd (tget z u.rs.hours n) 1) } else u) 206 s
      let u := forN (fun n u =>
        let h := u.reg (LE_BUSY_FC_HI n)
        { u with rs.busy := tset z u.rs.busy n (satAdd (tget z u.rs.busy n) (h - tget z u.rs.busyHi n)), rs.busyHi := tset z u.rs.busyHi n h }) 72 u
      let u := forN (fun g u =>
        let c := u.reg (MI_CE_CNT g)
        let e := u.reg (MI_UE_CNT g)
        { u with rs.ceHour := tset z u.rs.ceHour g (c - tget z u.rs.ceAt g), rs.ueHour := tset z u.rs.ueHour g (e - tget z u.rs.ueAt g), rs.ceAt := tset z u.rs.ceAt g c, rs.ueAt := tset z u.rs.ueAt g e }) 10 u
      let u : State := { u with rs.idle := [] }
      (forN (fun n u => if u.unitValid (unitOf n).1 (unitOf n).2 then u else u.markIdle (unitOf n).1 (unitOf n).2) 206 u).saveReserve))

/-! ### Reset, start-up and power (19_reset_power_startup.md) -/

/-- POR gives every register and memory its power-on value; fuses, Fold store, system memory, free values and pins are not its to reset. RST_N counts source 1 and is served at its level: ignored (code 5) it records 0x080, at L0 with an empty mask it is counted as dropped, at L0 and L1 it loads the cause and the stamp, at L2 and L3 it stops the fast side: the reset record's level and source are kept, every field that the level restores takes its reset value and the others keep theirs, the register banks of the engines among them (R82, R109), beside the registers that the reset itself writes. During a last gasp it is held. RC_SWRST with the key asserts HCMD from the host and DCMD from the debug master; any other write is counted as reserved. An armed Tally Link reset asserts source 6 when its apply-time is reached, not before. -/
def Obligations.ResetSourcesAndLevels : Prop :=
  (∀ (s : State), exec .powerOnReset s = .next { State.reset with pending := s.pending, lines := linesReset s.si.trips s.lines, fc := s.fc, free := s.free, fuses := s.fuses, fold := s.fold, sysMem := s.sysMem, si := { trips := tmap (fun _ => ({} : TripIn)) (fun _ t => { pin := t.pin }) s.si.trips }, pw := { failLow := s.pw.failLow, rstLow := s.pw.rstLow } })
  ∧ (∀ (s t : State), t = State.countSource { s with pw.rstLow := true } 1 → t.pw.lg.phase ≠ 0 →
    exec .pinReset s = .next { t with pw.heldRst := t.pw.heldRst ++ [1 + 16 * t.levelCode 1] })
  ∧ (∀ (s t : State), t = State.countSource { s with pw.rstLow := true } 1 → t.pw.lg.phase = 0 → t.levelCode 1 = 5 →
    exec .pinReset s = .next (t.record 950 0x80 1 0 0 0))
  ∧ (∀ (s t : State), t = State.countSource { s with pw.rstLow := true } 1 → t.pw.lg.phase = 0 → t.levelCode 1 = 1 → t.pw.mode = .graze →
    t.fld FLK_GCFG fFLK_GCFG_L0MASK = 0 → exec .pinReset s = .next (t.inc RC_RST_DROPPED))
  ∧ (∀ (s t : State), t = State.countSource { s with pw.rstLow := true } 1 → t.pw.lg.phase = 0 → t.levelCode 1 = 1 → t.pw.mode = .graze →
    t.fld FLK_GCFG fFLK_GCFG_L0MASK ≠ 0 → exec .pinReset s = .next (
      let u := t.setNat RC_RST_CAUSE (1 * 2 ^ 28 + 0 * 2 ^ 24 + 1 * 2 ^ 16 + 2)
      let u := u.setReg64 RC_RST_STAMP_LO RC_RST_STAMP_HI t.now
      forN (fun f u => if bitOf (t.fld FLK_GCFG fFLK_GCFG_L0MASK) f then u.flockReset f (4 + 1 * 256) else u) 16 u))
  ∧ (∀ (s t : State), t = State.countSource { s with pw.rstLow := true } 1 → t.pw.lg.phase = 0 → t.levelCode 1 = 2 → t.pw.mode = .graze →
    exec .pinReset s = .next (
      let u := t.setNat RC_RST_CAUSE (2 * 2 ^ 28 + 1 * 2 ^ 24 + 1 * 2 ^ 16 + 2)
      let u := u.setReg64 RC_RST_STAMP_LO RC_RST_STAMP_HI t.now
      let u := forN (fun p u => (u.leReset p).setEng p { (u.leReset p).eng p with rankOut := false, parked := false, halted := false, haltReq := false, step := false }) 72 u
      let u := forN (fun i u => u.setNat (DB_EHALTED i) 0) 3 u
      let u := State.restoreRegs { u with ranks := [] } 1
      State.resetRecord { u with pw.l1End := some (u.fc + 16, 1) } 1 1))
  ∧ (∀ (l : Nat) (s t : State), s.canonical = true → s.jn.fresh = [] → s.pw.mode = .graze → t = State.countSource { s with pw.rstLow := true } 1 →
    t.pw.lg.phase = 0 → l = t.levelCode 1 - 1 → 2 ≤ l → l ≤ 3 →
    ∃ u, exec .pinReset s = .next u ∧ u.pw.mode = .reset ∧ u.pw.level = l ∧ u.pw.source = 1 ∧ u.pw.fast = false ∧ u.pw.entry = 0 ∧ u.tb.a = s.tb.a
      ∧ u.mem = s.mem ∧ u.engs = s.engs.map (fun e => (e.1, { banks := e.2.keptBanks })) ∧ u.jn.input = [] ∧ u.fuses = s.fuses ∧ u.fold = s.fold
      ∧ u.reg RC_RST_CAUSE = .ofNat 32 ((l + 1) * 2 ^ 28 + l * 2 ^ 24 + 2 ^ 16 + 2)
      ∧ (∀ off, off ∉ [RC_RSTCNT 0, RC_RST_CAUSE, JN_INPUT_LOST, PM_STAT, TB_STAT, RS_RCO] →
        u.reg off = (s.reg off &&& ~~~(resetMask l off)) ||| (regReset off &&& resetMask l off)))
  ∧ (∀ (p : Port) (v : Word) (s : State), s.takes p RC_SWRST v = true → vfld v 16 16 = 0xA5C3 → p = .hpp →
    exec (.rcSwrst p v) s = .next (s.after p RC_SWRST v (fun u => u.assertReset 4 none)))
  ∧ (∀ (p : Port) (v : Word) (s : State), s.takes p RC_SWRST v = true → vfld v 16 16 = 0xA5C3 → p = .dam →
    exec (.rcSwrst p v) s = .next (s.after p RC_SWRST v (fun u => u.assertReset 5 none)))
  ∧ (∀ (p : Port) (v : Word) (s : State), s.takes p RC_SWRST v = true → (vfld v 16 16 ≠ 0xA5C3 ∨ p = .shepherd) →
    exec (.rcSwrst p v) s = .next (s.after p RC_SWRST v (fun u => u.inc RC_RSVD_WRITES)))
  ∧ (∀ (x : Stamp) (s : State), s.live = true → s.pw.tlcmd = some x → reached x s.now = true →
    exec .tlcmd s = .next (State.assertReset { s with pw.tlcmd := none } 6 none))
  ∧ (∀ (s : State), s.pw.tlcmd = none → exec .tlcmd s = .next s)
  ∧ (∀ (x : Stamp) (s : State), s.pw.tlcmd = some x → reached x s.now = false → exec .tlcmd s = .next s)

/-- The release of an L2 reset restarts the clock, stamps it, makes the RESET record and skips option loading and sweep. That of an L3 reset begins option loading on RCO with PLL_REQ high (R475); its end restarts the clock and begins the sweep with the fuses and options loaded, and the sweep's end clears the memories and makes the RESET record. A release command may leave start-up standing in a stage, and another goes on from there (the model's own operand). With the debug hold start-up stops at stage 3; else the boot ROM boots. A boot that fails is answered in the eight mailboxes with STATE and its cause, and waits for a host load (BOOT 3 waits at once); one that does not fail loads the patch and, at L3, remap image and reserve image, answers READY and is in Graze. RC_BOOT.HOSTGO ends the host wait with the images of the host, whose failure is cause 4; outside the wait it does nothing. HOLDREL ends the debug hold. A release with no reset in force and no stage to go on from does nothing. -/
def Obligations.ReleaseAndStartUp : Prop :=
  (∀ (c0 c1 c2 c3 : Fin 16) (mg : Bool) (im : BootImage) (upto : Fin 8) (s : State),
    (s.pw.mode ≠ .reset ∧ (s.pw.mode = .startup → s.db.hold = true ∨ s.flag RC_BOOT fRC_BOOT_HOSTWAIT = true)) →
    exec (.resetRelease c0 c1 c2 c3 mg ⟨im, upto⟩) s = .next s)
  ∧ (∀ (c0 c1 c2 c3 : Fin 16) (mg : Bool) (im : BootImage) (upto : Fin 8) (s t u : State), s.pw.mode = .reset → s.pw.level = 2 →
    t = { s with pw := { s.pw with porLow := false, rstLow := false, pllReq := true, pll := true, fast := true, mode := .startup, image := im } } →
    u = (((((t.setReg64 RC_RST_STAMP_LO RC_RST_STAMP_HI t.now).setFlag TB_STAT fTB_STAT_COARSE true).setStage 0).resetRecord s.pw.source 2).releaseHeld) →
    u.flag RC_OPT fRC_OPT_HOLD = true →
    exec (.resetRelease c0 c1 c2 c3 mg ⟨im, upto⟩) s = .next (State.setStage { u with db.hold := true } 3))
  ∧ (∀ (c0 c1 c2 c3 : Fin 16) (mg : Bool) (im : BootImage) (upto : Fin 8) (s t u : State), s.pw.mode = .reset → s.pw.level = 2 → s.pw.bhalt = false →
    t = { s with pw := { s.pw with porLow := false, rstLow := false, pllReq := true, pll := true, fast := true, mode := .startup, image := im } } →
    u = (((((t.setReg64 RC_RST_STAMP_LO RC_RST_STAMP_HI t.now).setFlag TB_STAT fTB_STAT_COARSE true).setStage 0).resetRecord s.pw.source 2).releaseHeld) →
    u.flag RC_OPT fRC_OPT_HOLD = false → u.fld RC_OPT fRC_OPT_BOOT ≠ 3 → im.fail = 0 → upto.val ∉ [4, 5, 6] →
    exec (.resetRelease c0 c1 c2 c3 mg ⟨im, upto⟩) s = .next (
      let dir := u.fld RC_OPT fRC_OPT_BOOT = 1 ∨ (u.fld RC_OPT fRC_OPT_BOOT = 2 ∧ im.dir = true)
      let x := State.setStage { u with pw.hostBoot := false } 4
      let x := (State.setFlag x RC_BOOT fRC_BOOT_DIR (decide dir)).setStage 5
      let x := (State.patchLoad x im.patch).setStage 6
      let x := State.setStage x 7
      let x := State.bootReply x 0 0 (State.readyWords x x.pw.patchVer x.pw.patch)
      { x with mb.ready := true, pw.mode := .graze }))
  ∧ (∀ (c0 c1 c2 c3 : Fin 16) (mg : Bool) (im : BootImage) (s t : State), s.pw.mode = .reset → 3 ≤ s.pw.level →
    t = { s with pw := { s.pw with porLow := false, rstLow := false, pllReq := true, pll := false, fast := false, mode := .startup, image := im } } →
    exec (.resetRelease c0 c1 c2 c3 mg ⟨im, 1⟩) s = .next
      (((t.setReg64 RC_RST_STAMP_LO RC_RST_STAMP_HI t.now).setFlag TB_STAT fTB_STAT_COARSE true).setStage 1))
  ∧ (∀ (c0 c1 c2 c3 : Fin 16) (mg : Bool) (im : BootImage) (s u : State), s.pw.mode = .startup → s.db.hold = false →
    s.flag RC_BOOT fRC_BOOT_HOSTWAIT = false → s.fld RC_BOOT fRC_BOOT_STAGE = 1 →
    u = { s with pw := { s.pw with image := im, pll := true, fast := !s.pw.bhalt } } →
    (State.loadOptions (u.sweepBegin.loadFuses) [c0.val, c1.val, c2.val, c3.val] mg).pw.mode = .startup →
    exec (.resetRelease c0 c1 c2 c3 mg ⟨im, 2⟩) s = .next ((u.sweepBegin.loadFuses.loadOptions [c0.val, c1.val, c2.val, c3.val] mg).setStage 2))
  ∧ (∀ (c0 c1 c2 c3 : Fin 16) (mg : Bool) (im : BootImage) (s u x : State), s.pw.mode = .startup → s.db.hold = false → s.pw.bhalt = false →
    s.flag RC_BOOT fRC_BOOT_HOSTWAIT = false → s.fld RC_BOOT fRC_BOOT_STAGE = 2 → 3 ≤ s.pw.level →
    u = { s with pw := { s.pw with image := im } } →
    x = ((({ u.sweepAll with cs := [], jn := {} } : State).resetRecord s.pw.source s.pw.level).releaseHeld) →
    x.flag RC_OPT fRC_OPT_HOLD = false → x.flag RC_OPT fRC_OPT_SUNST = false → x.fld RC_OPT fRC_OPT_BOOT = 3 →
    exec (.resetRelease c0 c1 c2 c3 mg ⟨im, 0⟩) s = .next ((x.setFlag RC_BOOT fRC_BOOT_HOSTWAIT true).setStage 8))
  ∧ (∀ (p : Port) (im : BootImage) (s z t : State), z = { s with pw.image := im } → z.admits p RC_BOOT 0x80000000 = true →
    vbit (z.word p RC_BOOT 0x80000000) 31 = true → t = z.logged p RC_BOOT 0x80000000 → t.pw.mode = .startup → t.pw.bhalt = false →
    t.flag RC_BOOT fRC_BOOT_HOSTWAIT = true → im.fail = 0 →
    exec (.hostgo p im) s = .next (z.after p RC_BOOT 0x80000000 (fun u =>
      let x := State.setStage (State.setFlag { u with pw.hostBoot := true } RC_BOOT fRC_BOOT_HOSTWAIT false) 4
      let x := State.setFlag x RC_BOOT fRC_BOOT_DIR false
      let x := State.setStage (if 3 ≤ u.pw.level then State.loadRemap x im.remapOk else x) 5
      let x := (State.patchLoad x im.patch).setStage 6
      let x := State.setStage (if 3 ≤ u.pw.level then State.loadReserve x im.reserveOk else x) 7
      let x := State.bootReply x 0 0 (State.readyWords x x.pw.patchVer x.pw.patch)
      { x with mb.ready := true, pw.mode := .graze })))
  ∧ (∀ (p : Port) (im : BootImage) (s z t : State), z = { s with pw.image := im } → z.admits p RC_BOOT 0x80000000 = true →
    vbit (z.word p RC_BOOT 0x80000000) 31 = true → t = z.logged p RC_BOOT 0x80000000 → t.pw.mode = .startup → t.pw.bhalt = false →
    t.flag RC_BOOT fRC_BOOT_HOSTWAIT = true → im.fail ≠ 0 →
    exec (.hostgo p im) s = .next (z.after p RC_BOOT 0x80000000 (fun u =>
      let x := State.setStage (State.setFlag { u with pw.hostBoot := true } RC_BOOT fRC_BOOT_HOSTWAIT false) 4
      let x := (State.setFld x RC_BOOT fRC_BOOT_FAIL 4).bootReply 7 4 (State.readyWords x 0 0)
      (State.setFlag x RC_BOOT fRC_BOOT_HOSTWAIT true).setStage 8)))
  ∧ (∀ (p : Port) (im : BootImage) (s z : State), z = { s with pw.image := im } → z.admits p RC_BOOT 0x80000000 = true →
    (z.pw.mode ≠ .startup ∨ (z.logged p RC_BOOT 0x80000000).flag RC_BOOT fRC_BOOT_HOSTWAIT = false) →
    exec (.hostgo p im) s = .next (z.after p RC_BOOT 0x80000000 (fun u => u)))
  ∧ (∀ (p : Port) (im : BootImage) (v : Word) (s z t : State), z = { s with pw.image := im } → v = fDB_BHALT_HOLDREL.put (z.reg DB_BHALT) 1 →
    z.takes p DB_BHALT v = true → t = z.logged p DB_BHALT v → t.dbLevel = 2 → bitOf v.toNat 0 = t.flag DB_STAT fDB_STAT_BHALT →
    t.pw.mode = .startup → t.db.hold = true →
    exec (.holdrel p im) s = .next (z.after p DB_BHALT v (fun u => (State.bootGo { u with db.hold := false }).bootRun 0)))
  ∧ (∀ (s : State), s.fld RC_OPT fRC_OPT_BOOT = 3 → s.bootGo = (s.setFlag RC_BOOT fRC_BOOT_HOSTWAIT true).setStage 8)

/-- At quiescence after a GO of Rest the fast side stops, Tally and timers go over to slow advance, and MEM retention is requested; of Fold, isolation is asserted and JRN goes off first; with a debugger attached and EMU set both are emulated and the clocks run on. The stop keeps Tally at its first CLK_SLOW edge, which for an entry is the edge of the stop itself (R40). An entry that is not quiescent a millisecond after GO is abandoned with cause 1, EV946 and a count. Each acknowledgement lets the next step go: retention lets PLL_REQ fall; JRN lets MEM go off, MEM CORE; on the way back CORE lets MEM come on, MEM JRN, and JRN ends the Fold, which is counted and served at L3 as FOLDX or PIN. The return from Rest counts it, clears PM_STAT.STATE, makes the held raises, keeps the latch in PM_WAKE_LAST, raises EV948 and starts Tally Link and the feedback units anew; after a lost lock EV947 comes first and PM_REST_CNT stands; debug requests that were held are then served (R505). A fall of PLL_LOCK stops the fast side and, in Graze, sets LOCKLOSS and counts; a lock that returns in start-up starts the clock again. -/
def Obligations.RestAndFold : Prop :=
  (∀ (s : State), s.live = true → s.pw.entry = 1 → s.pw.down = false → s.pw.mode = .graze → s.quiescent = true → s.emulates = false →
    exec .restEntry s = .next (
      State.wakeCheck (State.setPdwait (State.stopNow { s with pw := { s.pw with mode := .rest, down := true, retReq := true } }))))
  ∧ (∀ (s : State), s.live = true → s.pw.entry = 1 → s.pw.down = false → s.pw.mode = .graze → s.quiescent = true → s.emulates = true →
    exec .restEntry s = .next (
      State.wakeCheck (State.setFld { s with pw := { s.pw with mode := .rest, emu := true, down := true } } DB_EMU fDB_EMU_STATE 1)))
  ∧ (∀ (s : State), s.live = true → s.pw.entry = 2 → s.pw.down = false → s.pw.mode = .graze → s.quiescent = true → s.emulates = false →
    exec .foldEntry s = .next (
      State.wakeCheck (State.setPdwait (State.stopNow { s with pw := { s.pw with mode := .fold, down := true, iso := true, jrnReq := false } }))))
  ∧ (∀ (s : State), s.live = true → s.pw.entry = 2 → s.pw.down = false → s.pw.mode = .graze → s.quiescent = true → s.emulates = true →
    exec .foldEntry s = .next (
      State.wakeCheck (State.setFld { s with pw := { s.pw with mode := .fold, emu := true } } DB_EMU fDB_EMU_STATE 2)))
  ∧ (∀ (s : State), s.stopNow.pw.fast = false ∧ s.stopNow.flag TB_STAT fTB_STAT_SRC = false ∧ s.stopNow.tb.hold = false
    ∧ s.stopNow.tb.a = s.tb.a ∧ s.stopNow.tb.b = s.tb.b)
  ∧ (∀ (s : State), s.stopFast.pw.fast = false ∧ s.stopFast.flag TB_STAT fTB_STAT_SRC = false
    ∧ s.stopFast.tb.hold = (s.flag TB_STAT fTB_STAT_SRC || s.tb.hold) ∧ s.stopFast.tb.a = s.tb.a ∧ s.stopFast.tb.b = s.tb.b)
  ∧ (∀ (s : State), s.live = true → s.pw.entry ≠ 0 → s.pw.down = false → s.pw.mode = .graze → reached (s.pw.goAt + 4294967) s.now = true → s.quiescent = false →
    exec .entryTimeout s = .next (
      let u := (s.inc PM_ABORT_CNT).setFld PM_STAT fPM_STAT_ABCAUSE 1
      let u := (u.setFlag PM_STAT fPM_STAT_ABORT true).setFld PM_STAT fPM_STAT_STATE 0
      State.raiseNamed { u with pw := { u.pw with entry := 0, down := false }, sh.crookWait := false } 946 [1]))
  ∧ (∀ (s : State), (s.pw.entry = 0 ∨ reached (s.pw.goAt + 4294967) s.now = false ∨ s.quiescent = true) → exec .entryTimeout s = .next s)
  ∧ (∀ (s : State), s.pw.mode = .rest → s.pw.up = false → s.pw.retReq = true →
    exec (.domainAck 3 true) s = .next (State.setPdwait { s with pw := { s.pw with retAck := true, pllReq := false } }))
  ∧ (∀ (s : State), s.pw.mode = .rest → s.pw.up = true →
    exec (.domainAck 3 false) s = .next (State.setPdwait { s with pw := { s.pw with retAck := false, pllReq := true } }))
  ∧ (∀ (s : State), s.pw.mode = .fold → s.pw.up = false → s.pw.down = true → s.pw.memReq = true →
    exec (.domainAck 2 false) s = .next (State.setPdwait { s with pw := { s.pw with jrnAck := false, memReq := false } }))
  ∧ (∀ (s : State), s.pw.mode = .fold → s.pw.up = false → s.pw.down = true → s.pw.jrnAck = false → s.pw.memReq = false → s.pw.coreReq = true →
    exec (.domainAck 1 false) s = .next (State.setPdwait { s with pw := { s.pw with memAck := false, coreReq := false } }))
  ∧ (∀ (s : State), s.pw.mode = .fold → s.pw.up = false → s.pw.down = true → s.pw.jrnAck = false → s.pw.memReq = false → s.pw.memAck = false →
    s.pw.coreReq = false →
    exec (.domainAck 0 false) s = .next (State.setPdwait (State.wakeCheck { s with pw := { s.pw with coreAck := false, down := false, pllReq := false } })))
  ∧ (∀ (s : State), s.pw.mode = .fold → s.pw.up = true → s.pw.memReq = false →
    exec (.domainAck 0 true) s = .next (State.setPdwait { s with pw := { s.pw with coreAck := true, memReq := true } }))
  ∧ (∀ (s : State), s.pw.mode = .fold → s.pw.up = true → s.pw.coreAck = true → s.pw.memReq = true → s.pw.jrnReq = false →
    exec (.domainAck 1 true) s = .next (State.setPdwait { s with pw := { s.pw with memAck := true, jrnReq := true } }))
  ∧ (∀ (i : Nat) (s t : State), s.pw.mode = .fold → s.pw.up = true → s.pw.coreAck = true → s.pw.memReq = true → s.pw.memAck = true → s.pw.jrnReq = true →
    s.pw.foldSrc = 7 → s.pw.emu = false → t = State.inc { s with pw := { s.pw with jrnAck := true, iso := false } } PM_FOLD_CNT → t.wakeLatch = some i →
    exec (.domainAck 2 true) s = .next (
      State.setPdwait (((State.countSource { t.setNat PM_WAKE_LAST (2 ^ 31 + i) with engs := [] } 7).setFld DB_EMU fDB_EMU_STATE 0).serveReset 4 7 3)))
  ∧ (∀ (i : Nat) (s t u : State), s.pw.mode = .rest → s.pw.up = true → s.pw.pllReq = true → s.pw.lockLost = false → s.pw.emu = false →
    t = { s with pw := { s.pw with mode := .graze, fast := !s.pw.bhalt, pll := true, up := false, down := false, entry := 0, emu := false, lockLost := false }, sh.crookWait := false } →
    u = ((((t.inc PM_REST_CNT).setFld PM_STAT fPM_STAT_STATE 0).setFlag TB_STAT fTB_STAT_COARSE true).releaseHeld) → u.wakeLatch = some i →
    exec .grazeReturn s = .next (
      let x := (u.setNat PM_WAKE_LAST (2 ^ 31 + i)).raiseNamed 948 [(u.setNat PM_WAKE_LAST (2 ^ 31 + i)).nat PM_WAKE_LAST]
      let x := if x.tlMaster then x else x.acquire
      x.pfInterruptAll.takeHeld.dbResume.settle))
  ∧ (∀ (s t u : State), s.pw.mode = .graze → s.pw.lockLost = true → s.pw.emu = false →
    t = { s with pw := { s.pw with mode := .graze, fast := !s.pw.bhalt, pll := true, up := false, down := false, entry := 0, emu := false, lockLost := false }, sh.crookWait := false } →
    u = (((t.setFld PM_STAT fPM_STAT_STATE 0).setFlag TB_STAT fTB_STAT_COARSE true).releaseHeld).raise 947 0 0 → u.wakeLatch = none →
    exec .grazeReturn s = .next (
      let x := u.raiseNamed 948 [u.nat PM_WAKE_LAST]
      let x := if x.tlMaster then x else x.acquire
      x.pfInterruptAll.takeHeld.dbResume.settle))
  ∧ (∀ (s : State), (s.pw.mode = .rest → s.pw.up = false ∨ s.pw.pllReq = false) → (s.pw.mode = .graze → s.pw.lockLost = false) →
    (s.pw.pll = false → s.pw.mode ≠ .startup ∧ s.pw.emu = false) → exec .grazeReturn s = .next s.dbResume.settle)
  ∧ (∀ (s : State), s.pw.mode = .startup → s.pw.pll = false →
    exec .grazeReturn s = .next (State.setFlag { s with pw := { s.pw with pll := true, fast := !s.pw.bhalt } } TB_STAT fTB_STAT_COARSE true).dbResume.settle)
  ∧ (∀ (s : State), s.pw.mode = .graze → s.pw.lockLost = false →
    exec .lockloss s = .next (
      let u : State := { s with pw.pll := false }
      let u := State.inc (State.setFlag (if s.pw.fast then u.stopFast else u) PM_STAT fPM_STAT_LOCKLOSS true) PM_LOCKLOSS_CNT
      { u with pw.lockLost := true }))
  ∧ (∀ (s : State), s.pw.mode ≠ .graze → s.pw.fast = false → exec .lockloss s = .next { s with pw.pll := false })
  ∧ (∀ (s : State), s.pw.mode ≠ .graze → s.pw.fast = true → (State.stopFast { s with pw.pll := false }).pw.mode ≠ .graze →
    exec .lockloss s = .next (State.stopFast { s with pw.pll := false }))

/-- A fall of PWRFAIL_N in Graze engages AR16, sets PFAIL, keeps the stamp S of the edge, sets LGBUSY, raises EV944 with S and starts the last gasp with C = S + 8,590; during reset or start-up it saves nothing and is counted in PM_LG_SKIP; in Fold, or while the pin is low already, only the pin changes (R489, R490, R493). The snapshot begins when Tally reaches C and reads one word in each fc; the scan closes the ring 4,096 fc later and takes the newest 256 entries not later than C, oldest first (R491, R492); the end writes the area, loads PM_LG (NEXT alternates when the header was written), clears LGBUSY, opens the ring, raises EV945 with record 0x081, and asserts PWRF if the pin has risen; what resets were held are served. A rise clears PFAIL: during a last gasp it is remembered, after one it asserts PWRF, otherwise nothing follows (R493). PM_FSDATA reads and writes the word of the Fold store that PM_FSADDR names (R495, R498), and an image that a write spoils is no longer good; a word of an image whose layout is open reads as a free value (the model's choice, log entry 1). -/
def Obligations.PowerFailAndLastGasp : Prop :=
  (∀ (k : Nat) (s : State), (s.pw.failLow = true ∨ s.pw.mode = .fold) → exec (.powerFail k) s = .next (State.settle { s with pw.failLow := true }))
  ∧ (∀ (k : Nat) (s t : State), s.pw.failLow = false → s.pw.mode ≠ .fold → (t.pw.mode = .reset ∨ t.pw.mode = .startup) →
    t = (State.blockRelease { s with pw.failLow := true }).ar16.setFlag PM_STAT fPM_STAT_PFAIL true →
    exec (.powerFail k) s = .next (t.inc PM_LG_SKIP).settle)
  ∧ (∀ (k : Nat) (s t u : State) (st : Stamp), s.pw.failLow = false → s.pw.mode ≠ .fold →
    t = (State.blockRelease { s with pw.failLow := true }).ar16.setFlag PM_STAT fPM_STAT_PFAIL true → t.pw.mode = .graze → t.pw.lg.phase = 0 →
    t.pw.lg.done = false → t.pw.fast = true → st = t.edgeStamp k →
    u = (if t.pw.entry ≠ 0 then t.abortEntry 4 else t) → u.pw.fast = true →
    (State.raiseAt ((u.setReg64 PM_LG_STAMP_LO PM_LG_STAMP_HI st).setFlag PM_STAT fPM_STAT_LGBUSY true) 944 st 0 0).pw.mode = .graze →
    exec (.powerFail k) s = .next (
      let x := State.raiseAt ((u.setReg64 PM_LG_STAMP_LO PM_LG_STAMP_HI st).setFlag PM_STAT fPM_STAT_LGBUSY true) 944 st 0 0
      State.settle { x with pw.lg := { phase := 1, s := st, c := st + 8590 } }))
  ∧ (∀ (s : State), s.live = true → s.pw.lg.phase = 1 → s.pw.fast = true → reached s.pw.lg.c s.now = true →
    exec .snapshot s = .next { s with pw.lg := { s.pw.lg with phase := 2, snapFc := s.fc, snap := [] } })
  ∧ (∀ (i : Nat) (s : State), s.pw.lg.phase = 2 → s.fc = s.pw.lg.snapFc + i → i < 2032 →
    s.snapEdge = { s with pw.lg := { s.pw.lg with snap := tset (fun _ => (0 : Word)) s.pw.lg.snap i (s.snapWord i) } })
  ∧ (∀ (s : State), (s.pw.lg.phase ≠ 1 ∨ reached s.pw.lg.c s.now = false) → exec .snapshot s = .next s)
  ∧ (∀ (s : State), s.live = true → s.pw.lg.phase = 2 → s.pw.lg.snapFc + 4096 ≤ s.fc →
    exec .lastGaspScan s = .next { s with jn.closed := true, pw.lg := { s.pw.lg with phase := 3, entries := s.scanRing s.pw.lg.c 262144 (s.nat JN_WIDX) 256 [] } })
  ∧ (∀ (s : State), (s.pw.lg.phase ≠ 2 ∨ s.fc < s.pw.lg.snapFc + 4096) → exec .lastGaspScan s = .next s)
  ∧ (∀ (us : BitVec 8) (ok wr : Bool) (s : State), s.live = true → s.pw.lg.phase = 3 → ok = (wr && decide (us.toNat ≤ 60)) → s.pw.lg.rose = false →
    exec (.lastGaspEnd us wr) s = .next (
      let n := s.pw.lg.entries.length
      let a := s.fld PM_LG fPM_LG_NEXT
      let u := (s.writeArea 1 ok).setNat PM_LG (b2n ok * 2 ^ 31 + (if ok then 1 - a else a) * 2 ^ 30 + n * 2 ^ 16 + us.toNat % 65536)
      let u := u.setFlag PM_STAT fPM_STAT_LGBUSY false
      let u := { u with jn.closed := false, pw.lg := { done := true } }
      ((State.raiseNamed u 945 [b2n ok, us.toNat]).record 945 0x81 a n us.toNat 0).takeHeld))
  ∧ (∀ (us : BitVec 8) (ok wr : Bool) (s : State), s.live = true → s.pw.lg.phase = 3 → ok = (wr && decide (us.toNat ≤ 60)) → s.pw.lg.rose = true →
    exec (.lastGaspEnd us wr) s = .next (
      let n := s.pw.lg.entries.length
      let a := s.fld PM_LG fPM_LG_NEXT
      let u := (s.writeArea 1 ok).setNat PM_LG (b2n ok * 2 ^ 31 + (if ok then 1 - a else a) * 2 ^ 30 + n * 2 ^ 16 + us.toNat % 65536)
      let u := u.setFlag PM_STAT fPM_STAT_LGBUSY false
      let u := { u with jn.closed := false, pw.lg := {} }
      (((State.raiseNamed u 945 [b2n ok, us.toNat]).record 945 0x81 a n us.toNat 0).assertReset 8 none).takeHeld))
  ∧ (∀ (us : BitVec 8) (wr : Bool) (s : State), s.pw.lg.phase ≠ 3 → exec (.lastGaspEnd us wr) s = .next s)
  ∧ (∀ (s : State), s.pw.failLow = false → exec .pwrf s = .next s)
  ∧ (∀ (s : State), s.pw.failLow = true → s.pw.lg.phase ≠ 0 →
    exec .pwrf s = .next (
      let u := State.setFlag { s with pw.failLow := false } PM_STAT fPM_STAT_PFAIL false
      { u with pw.lg := { s.pw.lg with rose := true } }))
  ∧ (∀ (s : State), s.pw.failLow = true → s.pw.lg.phase = 0 → s.pw.lg.done = true →
    exec .pwrf s = .next (
      let u := State.setFlag { s with pw.failLow := false } PM_STAT fPM_STAT_PFAIL false
      State.assertReset { u with pw.lg := {} } 8 none))
  ∧ (∀ (s : State), s.pw.failLow = true → s.pw.lg.phase = 0 → s.pw.lg.done = false →
    exec .pwrf s = .next (State.setFlag { s with pw.failLow := false } PM_STAT fPM_STAT_PFAIL false))
  ∧ (∀ (p : Port) (v : Word) (s t : State) (i : Nat), s.takes p PM_FSDATA v = true → t = s.logged p PM_FSDATA v → i = t.fld PM_FSADDR fPM_FSADDR_WORD →
    exec (.pmFsdata p (some v)) s = .next (s.after p PM_FSDATA v (fun u =>
      let u := { u with fold.words := tset (fun _ => (0 : Word)) u.fold.words i v }
      if 0x400 ≤ i ∧ i < 0x800 then { u with fold.remap := none }
      else if 0x800 ≤ i ∧ i < 0x1000 then { u with fold.reserve := none } else u)))
  ∧ (∀ (p : Port) (s : State) (i : Nat), s.reads p PM_FSDATA = true → i = s.fld PM_FSADDR fPM_FSADDR_WORD → s.foldOpen i = false →
    exec (.pmFsdata p none) s = .next (s.respond p 0 ((tget (fun _ => (0 : Word)) s.fold.words i).setWidth 64)).settle)
  ∧ (∀ (p : Port) (s : State), s.reads p PM_FSDATA = true → s.foldOpen (s.fld PM_FSADDR fPM_FSADDR_WORD) = true →
    exec (.pmFsdata p none) s = .next (s.tookFree.respond p 0 ((s.freeVal.extractLsb' 0 32).setWidth 64)).settle)

/-! ### Debug (20_debug.md) -/

/-- While the front ends serve requests and no TAP request is in progress: IDENT answers UID, IDCODE and DB_STAT; STATUS answers DB_STAT, or PENDING during an unlock; LOCK sets the level to locked, with EV961 when it was not; READ and WRITE make their accesses in the HPP window or, with the answers given, in system memory, and answer the data, or RESP with the response of the first access that is not OKAY, and DENIED when locked; RESET asserts DCMD, or is DENIED when locked. A request of wrong length or fields, or of an unassigned code, answers BADCMD; one with a bad CRC answers CRCERR and does nothing else; a line reset drops a response, and a request that waits. While a request of the TAP is in progress a request answers BUSY; a READ waits while a lost lock stops CLK_FAST, and is answered BUS during a reset. In Rest a request sets WL15 and waits, and is served after the return; in Fold it sets WL15 and is lost (R504, R505). -/
def Obligations.FippleRequests : Prop :=
  (∀ (s : State), s.dbAwake = true → s.db.tapReq = [] → s.db.held = [] → exec (.fippleIdent []) s = .next ((s.dbReply 0
    (natBytes 4 (s.nat DB_UID_LO) ++ natBytes 4 (s.nat DB_UID_HI) ++ natBytes 4 (s.fld ID_REVISION fID_REVISION_MAJOR % 16 * 2 ^ 28 + 0x0064 * 2 ^ 12 + s.fuse 770 11 * 2 + 1) ++ natBytes 4 (s.nat DB_STAT))).settle))
  ∧ (∀ (b : Byte) (pl : List Byte) (s : State), s.dbAwake = true → s.db.tapReq = [] → s.db.held = [] → pl.length < 240 → exec (.fippleIdent (b :: pl)) s = .next ((s.dbReply 2 []).settle))
  ∧ (∀ (s : State), s.dbAwake = true → s.db.tapReq = [] → s.db.held = [] → s.db.proof = none → exec (.status []) s = .next ((s.dbReply 0 (natBytes 4 (s.nat DB_STAT))).settle))
  ∧ (∀ (m : List Byte) (s : State), s.dbAwake = true → s.db.tapReq = [] → s.db.held = [] → s.db.proof = some m → exec (.status []) s = .next ((s.dbReply 5 []).settle))
  ∧ (∀ (s : State), s.dbAwake = true → s.db.tapReq = [] → s.db.held = [] → s.dbLevel = 0 → exec (.lock []) s = .next ((s.dbReply 0 []).settle))
  ∧ (∀ (s : State), s.dbAwake = true → s.db.tapReq = [] → s.db.held = [] → s.dbLevel ≠ 0 →
    exec (.lock []) s = .next ((((s.setFld DB_STAT fDB_STAT_LEVEL 0).raise 961 0 0).dbReply 0 []).settle))
  ∧ (∀ (a n : Nat) (v : BitVec 64) (pl : List Byte) (sys : List SysAnswer) (s t : State), s.dbAwake = true → s.db.tapReq = [] → s.db.held = [] → s.dbLevel ≠ 0 → s.portOpen .dam = true →
    damFields false pl = some (0, a, n, n) → s.windowRead .dam a n = (0, v, t) → exec (.read pl sys) s = .next ((t.dbReply 0 (natBytes n v.toNat)).settle))
  ∧ (∀ (a n c : Nat) (v : BitVec 64) (pl : List Byte) (sys : List SysAnswer) (s t : State), s.dbAwake = true → s.db.tapReq = [] → s.db.held = [] → s.dbLevel ≠ 0 → s.portOpen .dam = true →
    damFields false pl = some (0, a, n, n) → s.windowRead .dam a n = (c, v, t) → c ≠ 0 → exec (.read pl sys) s = .next ((t.dbReply 6 [.ofNat 8 c]).settle))
  ∧ (∀ (a n : Nat) (pl : List Byte) (sys : List SysAnswer) (s : State), s.dbAwake = true → s.db.tapReq = [] → s.db.held = [] → s.dbLevel ≠ 0 → s.portOpen .dam = true →
    damFields false pl = some (1, a, n, n * sys.length) → sys.all (fun e => e.1 == 0) = true →
    exec (.read pl sys) s = .next ((s.dbReply 0 (sys.flatMap (fun e => natBytes n e.2.toNat))).settle))
  ∧ (∀ (pl : List Byte) (sys : List SysAnswer) (s : State), s.dbAwake = true → s.db.tapReq = [] → s.db.held = [] → s.dbLevel = 0 → (damFields false pl).isSome = true → exec (.read pl sys) s = .next ((s.dbReply 3 []).settle))
  ∧ (∀ (a n c : Nat) (pl : List Byte) (sys : List SysAnswer) (s t : State), s.dbAwake = true → s.db.tapReq = [] → s.db.held = [] → s.dbLevel ≠ 0 → s.portOpen .dam = true →
    damFields true pl = some (0, a, n, n) → t = s.windowWrite .dam a n (2 ^ n - 1) (.ofNat 64 (bytesNatOf ((pl.drop 10).take n))) → c = (t.lastResp .dam).code →
    exec (.write pl sys) s = .next ((t.dbReply (if c = 0 then 0 else 6) (if c = 0 then [] else [.ofNat 8 c])).settle))
  ∧ (∀ (a n : Nat) (x : BitVec 64) (pl : List Byte) (s : State), s.dbAwake = true → s.db.tapReq = [] → s.db.held = [] → s.dbLevel ≠ 0 → s.portOpen .dam = true →
    damFields true pl = some (1, a, n, n) → exec (.write pl [(0, x)]) s = .next (((s.sysWrite a ((pl.drop 10).take n)).dbReply 0 []).settle))
  ∧ (∀ (pl : List Byte) (sys : List SysAnswer) (s : State), s.dbAwake = true → s.db.tapReq = [] → s.db.held = [] → s.dbLevel = 0 → (damFields true pl).isSome = true →
    exec (.write pl sys) s = .next ((s.dbReply 3 []).settle))
  ∧ (∀ (s : State), s.dbAwake = true → s.db.tapReq = [] → s.db.held = [] → s.dbLevel = 0 → exec (.fippleReset []) s = .next ((s.dbReply 3 []).settle))
  ∧ (∀ (s : State), s.dbAwake = true → s.db.tapReq = [] → s.db.held = [] → s.dbLevel ≠ 0 →
    exec (.fippleReset []) s = .next ((State.assertReset (s.dbReply 0 []) 5 none).settle))
  ∧ (∀ (c : Byte) (pl : List Byte) (s : State), s.dbAwake = true → s.db.tapReq = [] → s.db.held = [] → goodRequest c.toNat pl = false →
    exec (.badcmd c pl) s = .next (s.dbReply 2 []))
  ∧ (∀ (s : State), s.dbAwake = true → s.db.tapReq = [] → s.db.held = [] → exec .crcerr s = .next (s.dbReply 1 []))
  ∧ (∀ (s : State), s.dbAwake = true → s.db.held = [] → exec .lineReset s = .next { s with db := { s.db with status := none, payload := [] } })
  ∧ (∀ (q : DbReq) (s : State), s.dbAwake = false → s.pw.mode = .rest → q.iface = 1 → s.db.held = [q] →
    exec .lineReset s = .next (State.wakeCheck (State.wakeSet { s with db := { s.db with status := none, payload := [], held := [] } } 15 s.wakeStamp false)))
  ∧ (∀ (b : Byte) (q : List Byte) (s : State), s.dbAwake = true → s.db.tapReq = b :: q → exec (.fippleIdent []) s = .next ((s.dbReply 4 []).settle))
  ∧ (∀ (b : Byte) (q : List Byte) (s : State), s.dbAwake = true → s.db.tapReq = b :: q → exec .crcerr s = .next (s.dbReply 4 []))
  ∧ (∀ (s : State), s.dbAwake = false → s.pw.mode = .rest → s.db.tapReq = [] → s.db.held = [] →
    exec (.fippleIdent []) s = .next (State.settle (State.wakeCheck (State.wakeSet { s with db.held := [{ iface := 1, cmd := 1 }] } 15 s.wakeStamp false))))
  ∧ (∀ (q : DbReq) (s : State), s.dbAwake = false → s.pw.mode = .rest → q.iface = 2 → s.db.held = [q] →
    exec (.fippleIdent []) s = .next (State.settle (State.wakeCheck (State.wakeSet { s with db.held := [q, { iface := 1, status := some 4, cmd := 1 }] } 15 s.wakeStamp false))))
  ∧ (∀ (q : DbReq) (s : State), s.dbAwake = true → q.iface = 2 → s.db.held = [q] → exec (.fippleIdent []) s = .next ((s.dbReply 4 []).settle))
  ∧ (∀ (pl : List Byte) (sys : List SysAnswer) (s : State), s.dbAwake = true → s.db.tapReq = [] → s.db.held = [] → s.dbLevel ≠ 0 → s.portOpen .dam = false →
    s.pw.mode = .graze → (damFields false pl).isSome = true →
    exec (.read pl sys) s = .next (State.settle { s with db.held := [{ iface := 1, cmd := 0x20, payload := pl, sys := sys }] }))
  ∧ (∀ (pl : List Byte) (sys : List SysAnswer) (s : State), s.dbAwake = true → s.db.tapReq = [] → s.db.held = [] → s.dbLevel ≠ 0 → s.pw.mode = .reset →
    (damFields true pl).isSome = true → exec (.write pl sys) s = .next ((s.dbReply 6 [4]).settle))
  ∧ (∀ (s : State), s.dbAwake = true → s.portOpen .dam = true → s.db.held = [{ iface := 1, cmd := 1 }] → s.dbResume = State.dbReply { s with db.held := [] } 0 s.identBytes)
  ∧ (∀ (s : State), s.dbAwake = true → s.portOpen .dam = true → s.db.held = [{ iface := 1, status := some 4, cmd := 1 }] → s.dbResume = State.dbReply { s with db.held := [] } 4 [])
  ∧ (∀ (s : State), s.db.held = [] ∨ s.dbAwake = false ∨ s.portOpen .dam = false → s.dbResume = s)
  ∧ (∀ (s : State), s.dbAwake = false → s.pw.mode = .fold → exec (.fippleIdent []) s = .next (State.settle (s.wakeSet 15 s.wakeStamp false).wakeCheck))

/-- CHALLENGE answers fresh free bytes (the model's choice, log entry 1) and starts over, or is DENIED when unlocks are closed or locked out; CERT keeps the certificate; PROVE keeps M and answers PENDING until the certificate unit has finished; while it works, all three answer PENDING. A completed check that finds nothing wrong sets LEVEL and the interface, raises EV961, records 0x090 and clears the failures; one that finds something counts it, raises EV962, records 0x091 with the first check that failed, and the sixteenth in a row locks out (R500, R501). With no proof to check nothing happens. -/
def Obligations.Unlocking : Prop :=
  (∀ (s : State), s.dbAwake = true → s.db.tapReq = [] → s.db.held = [] → s.dbClosed = true → exec (.challenge []) s = .next ((s.dbReply 3 []).settle))
  ∧ (∀ (s : State), s.dbAwake = true → s.db.tapReq = [] → s.db.held = [] → s.dbClosed = false → s.db.proof = none →
    exec (.challenge []) s = .next (State.settle (
      let bs := (List.range 5).flatMap (fun i => natBytes 16 (Config.free (s.free + i)).toNat)
      State.dbReply { s with free := s.free + 5, db := { s.db with chal := true, eph := bs, cert := [], proof := none } } 0 bs)))
  ∧ (∀ (m : List Byte) (s : State), s.dbAwake = true → s.db.tapReq = [] → s.db.held = [] → s.dbClosed = false → s.db.proof = some m →
    exec (.challenge []) s = .next ((s.dbReply 5 []).settle))
  ∧ (∀ (c : List Byte) (s : State), s.dbAwake = true → s.db.tapReq = [] → s.db.held = [] → c.length = 212 → s.dbMode < 2 → s.db.proof = none →
    exec (.cert c) s = .next ((State.dbReply { s with db := { s.db with cert := c } } 0 []).settle))
  ∧ (∀ (c : List Byte) (s : State), s.dbAwake = true → s.db.tapReq = [] → s.db.held = [] → c.length = 212 → 2 ≤ s.dbMode → exec (.cert c) s = .next ((s.dbReply 3 []).settle))
  ∧ (∀ (m : List Byte) (s : State), s.dbAwake = true → s.db.tapReq = [] → s.db.held = [] → m.length = 32 → s.dbMode < 2 → s.db.proof = none →
    exec (.prove m) s = .next ((State.dbReply { s with db := { s.db with proof := some m, iface := 1 } } 5 []).settle))
  ∧ (∀ (m : List Byte) (s : State), s.dbAwake = true → s.db.tapReq = [] → s.db.held = [] → m.length = 32 → 2 ≤ s.dbMode → exec (.prove m) s = .next ((s.dbReply 3 []).settle))
  ∧ (∀ (c m : List Byte) (s : State), s.db.cert = c → s.db.proof = some m →
    exec .unlockComplete s = .next (
      let k := if (Config.digest 0 ((c.drop 0x54).take 64)).toNat ≠ s.fuse 384 256 then 1
        else if Config.verdict 0 c = false then 2
        else if certNat c 8 4 < (s.fuses.filter (fun e => decide (642 ≤ e.1) && decide (e.1 < 706))).length then 3
        else if certNat c 0xC 8 ≠ s.fuse 706 64 ∧ certNat c 0xC 8 ≠ 2 ^ 64 - 1 then 4
        else if certNat c 4 1 ≠ 1 ∧ certNat c 4 1 ≠ 2 then 5
        else if s.db.chal = false ∨ Config.verdict 1 (s.db.eph ++ c ++ m) = false then 6 else 0
      let l := certNat c 4 1
      let a := ((((s.setFld DB_STAT fDB_STAT_LEVEL l).setFld DB_STAT fDB_STAT_IFACE s.db.iface).raise 961 0 0).record 961 0x90 l s.db.iface (certNat c 8 4) 0)
      let b := ((s.inc DB_UNLOCK_FAIL).raise 962 0 0).record 962 0x91 k 0 0 0
      let b' := { b with db := { b.db with proof := none, fails := b.db.fails + 1 } }
      if k = 0 then { a with db := { a.db with chal := false, eph := [], cert := [], proof := none, fails := 0 } }
      else if b.db.fails = 15 then b'.setFlag DB_STAT fDB_STAT_LOCKOUT true else b'))
  ∧ (∀ (s : State), s.db.proof = none → exec .unlockComplete s = .next s)

/-- A TAP reset and IDCODE select the identity, with ID_REVISION.MAJOR, 0x0064, the JEDEC fuses and a last bit 1; EXTEST, SAMPLE/PRELOAD, CLAMP, HIGHZ and BYPASS select their codes. FIPPLE captures the next response byte with valid 1, or 0 when none is due, and an update with valid = 1 passes a byte: one that is not SYNC starts nothing, SYNC begins a request, and the last byte of one with a good CRC is answered in the frame of R503, here IDENT. In DBG_MODE 2 and 3 these instructions are BYPASS. Entry to scan or BIST at Inner or in Development stops the fast clock; leaving asserts DCMD at L3 whatever the map says; without the authority it is DENIED. In Rest and Fold an instruction sets WL15 as well (R354). -/
def Obligations.TapInstructions : Prop :=
  (∀ (i : Nat) (s : State), i = s.fld ID_REVISION fID_REVISION_MAJOR % 16 * 2 ^ 28 + 0x0064 * 2 ^ 12 + s.fuse 770 11 * 2 + 1 →
    exec .tapReset s = .next { s with db := { s.db with ir := 0x02, dr := .ofNat 32 i } })
  ∧ (∀ (i : Nat) (s : State), i = s.fld ID_REVISION fID_REVISION_MAJOR % 16 * 2 ^ 28 + 0x0064 * 2 ^ 12 + s.fuse 770 11 * 2 + 1 → s.dbAwake = true →
    exec .idcode s = .next { s with db := { s.db with ir := 0x02, dr := .ofNat 32 i } })
  ∧ (∀ (s : State), s.dbAwake = true → exec .extest s = .next { s with db := { s.db with ir := 0x00, dr := 0 } })
  ∧ (∀ (s : State), s.dbAwake = true → exec .samplePreload s = .next { s with db := { s.db with ir := 0x01, dr := 0 } })
  ∧ (∀ (s : State), s.dbAwake = true → exec .clamp s = .next { s with db := { s.db with ir := 0x03, dr := 0 } })
  ∧ (∀ (s : State), s.dbAwake = true → exec .highz s = .next { s with db := { s.db with ir := 0x04, dr := 0 } })
  ∧ (∀ (s : State), s.dbAwake = true → exec .bypass s = .next { s with db := { s.db with ir := 0x1F, dr := 0 } })
  ∧ (∀ (s : State), s.dbAwake = false → exec .bypass s = .next (
    State.wakeCheck (State.wakeSet { s with db := { s.db with ir := 0x1F, dr := 0 } } 15 s.wakeStamp false)))
  ∧ (∀ (dr : BitVec 9) (sys : List SysAnswer) (s : State), s.dbAwake = true → 2 ≤ s.dbMode →
    exec (.fipple dr sys) s = .next (State.settle { s with db := { s.db with ir := 0x10, dr := 0 } }))
  ∧ (∀ (dr : BitVec 9) (sys : List SysAnswer) (s : State), s.dbAwake = true → bitOf dr.toNat 8 = false → s.dbMode < 2 → s.db.tapRsp = [] →
    exec (.fipple dr sys) s = .next (State.settle { s with db := { s.db with ir := 0x10, dr := 0 } }))
  ∧ (∀ (dr : BitVec 9) (b : Byte) (q : List Byte) (sys : List SysAnswer) (s : State), s.dbAwake = true → bitOf dr.toNat 8 = false → s.dbMode < 2 → s.db.tapRsp = b :: q →
    exec (.fipple dr sys) s = .next (State.settle { s with db := { s.db with ir := 0x10, dr := .ofNat 32 (256 + b.toNat), tapRsp := q } }))
  ∧ (∀ (dr : BitVec 9) (s : State), s.dbAwake = true → bitOf dr.toNat 8 = true → dr.toNat ≠ 0x1A7 → s.dbMode < 2 → s.db.tapRsp = [] → s.db.tapReq = [] →
    exec (.fipple dr []) s = .next (State.settle { s with db := { s.db with ir := 0x10, dr := 0 } }))
  ∧ (∀ (s : State), s.dbAwake = true → s.dbMode < 2 → s.db.tapRsp = [] → s.db.tapReq = [] →
    exec (.fipple 0x1A7 []) s = .next (State.settle { s with db := { s.db with ir := 0x10, dr := 0, tapReq := [0xA7] } }))
  ∧ (∀ (body : List Byte) (s : State), s.dbMode < 2 → s.db.tapRsp = [] → s.db.tapReq = [0xA7, 0x01, 0x00] → s.db.held = [] → s.dbAwake = true →
    body = [0, 16] ++ s.identBytes →
    exec (.fipple (.ofNat 9 (256 + crc8 [0x01, 0x00])) []) s = .next (State.settle (
      { s with db := { s.db with ir := 0x10, dr := 0, tapReq := [], status := some 0, payload := s.identBytes, tapRsp := [0x5C] ++ (body ++ [.ofNat 8 (crc8 body)]) } })))
  ∧ (∀ (s : State), s.dbAwake = true → s.dbMode < 2 → (s.dbLevel = 2 ∨ s.dbMode = 0) →
    exec (.scanctl true) s = .next { s with db := { s.db with ir := 0x11, dr := 0, scan := true }, pw.fast := false })
  ∧ (∀ (s : State), s.dbAwake = true → s.dbMode < 2 → (s.dbLevel = 2 ∨ s.dbMode = 0) →
    exec (.bistctl true) s = .next { s with db := { s.db with ir := 0x12, dr := 0, bist := true }, pw.fast := false })
  ∧ (∀ (s : State), s.dbAwake = true → s.dbMode < 2 → (s.dbLevel = 2 ∨ s.dbMode = 0) → s.db.scan = true →
    exec (.scanctl false) s = .next (State.assertReset { s with db := { s.db with ir := 0x11, dr := 0, scan := false, bist := false } } 5 (some 4)))
  ∧ (∀ (s : State), s.dbAwake = true → s.dbMode < 2 → (s.dbLevel = 2 ∨ s.dbMode = 0) → s.db.bist = true →
    exec (.bistctl false) s = .next (State.assertReset { s with db := { s.db with ir := 0x12, dr := 0, scan := false, bist := false } } 5 (some 4)))
  ∧ (∀ (dr : BitVec 9) (sys : List SysAnswer) (s u : State), s.dbAwake = false → u = (s.wakeSet 15 s.wakeStamp false).wakeCheck → s.dbMode < 2 →
    u.dbMode < 2 → u.db.tapRsp = [] → bitOf dr.toNat 8 = false →
    exec (.fipple dr sys) s = .next (State.settle { u with db := { u.db with ir := 0x10, dr := 0 } }))
  ∧ (∀ (e : Bool) (s : State), s.dbAwake = true → s.dbMode = 1 → s.dbLevel ≠ 2 →
    exec (.scanctl e) s = .next (State.dbReply { s with db := { s.db with ir := 0x11, dr := 0 } } 3 []))
  ∧ (∀ (e : Bool) (s : State), s.dbAwake = true → s.dbMode = 1 → s.dbLevel ≠ 2 →
    exec (.bistctl e) s = .next (State.dbReply { s with db := { s.db with ir := 0x12, dr := 0 } } 3 []))

/-- With the authority to halt: HALT of an engine that runs a task asks for a halt, of one that runs none halts it at once with EV960 and record 0x093; OFF, PARKED, not there or in a Drove it is refused and counted, and of a halted one it does nothing; the halt is taken at a safe point and suspends the task. RESUME of a halted engine clears its bit and records OP 2; STEP lets it go to the next safe point; of one that is not halted both are refused and counted (the model's choice, the log). A write of DB_FREEZE takes the word and every generator, Chanter and feedback unit follows. DB_BHALT.REQ, where the debugger may, stops the fast side, sets DB_STAT.BHALT and REQ and records 0x092; clearing it lets the fast side run again with the held raises, EV963 and record 0x092. Without authority each is refused and counted in DB_REFUSED. -/
def Obligations.RunControl : Prop :=
  (∀ (p : Port) (pe : Fin 128) (v : Word) (s t : State), v = .ofNat 32 (2 ^ 30 + pe.val) → s.takes p DB_ECMD v = true → t = s.logged p DB_ECMD v →
    t.mayHalt = true → pe.val < 72 → t.leState pe ≠ 0 → t.leState pe ≠ 3 → t.inDrove pe = false → (t.eng pe).halted = false → (t.running pe).isSome = true →
    exec (.halt p pe) s = .next (s.after p DB_ECMD v (fun u => u.setEng pe { u.eng pe with haltReq := true })))
  ∧ (∀ (p : Port) (pe : Fin 128) (v : Word) (s t : State), v = .ofNat 32 (2 ^ 30 + pe.val) → s.takes p DB_ECMD v = true → t = s.logged p DB_ECMD v →
    t.mayHalt = true → pe.val < 72 → t.leState pe ≠ 0 → t.leState pe ≠ 3 → t.inDrove pe = false → (t.eng pe).halted = false → (t.running pe).isSome = false →
    exec (.halt p pe) s = .next (s.after p DB_ECMD v (fun u =>
      let u := u.setEng pe { u.eng pe with halted := true, haltReq := false, step := false }
      (((u.setHalted pe true).raise 960 (4 + pe.val * 256) 0).record 960 0x93 pe 1 0 0).freezeSync)))
  ∧ (∀ (p : Port) (pe : Fin 128) (v : Word) (s t : State), v = .ofNat 32 (2 ^ 30 + pe.val) → s.takes p DB_ECMD v = true → t = s.logged p DB_ECMD v →
    (t.mayHalt = false ∨ 72 ≤ pe.val ∨ t.leState pe = 0 ∨ t.leState pe = 3 ∨ t.inDrove pe = true) →
    exec (.halt p pe) s = .next (s.after p DB_ECMD v (fun u => u.inc DB_REFUSED)))
  ∧ (∀ (pe : Fin 72) (k : Nat) (s : State), s.live = true → (s.eng pe).haltReq = true → s.running pe = some k →
    (s.bank pe (s.slotPri pe k)).micro.mid ≠ 2 →
    exec (.haltTaken pe) s = .next ((s.suspend pe k).haltNow pe (if (s.eng pe).step then 3 else 1)))
  ∧ (∀ (pe : Fin 72) (s : State), s.live = true → (s.eng pe).haltReq = true → s.running pe = none →
    exec (.haltTaken pe) s = .next (
      let u := s.setEng pe { s.eng pe with halted := true, haltReq := false, step := false }
      (((u.setHalted pe true).raise 960 (4 + pe.val * 256) 0).record 960 0x93 pe (if (s.eng pe).step then 3 else 1) 0 0).freezeSync))
  ∧ (∀ (pe : Fin 72) (s : State), (s.eng pe).haltReq = false → exec (.haltTaken pe) s = .next s)
  ∧ (∀ (p : Port) (pe : Fin 128) (v : Word) (s t : State), v = .ofNat 32 (2 * 2 ^ 30 + pe.val) → s.takes p DB_ECMD v = true → t = s.logged p DB_ECMD v →
    t.mayHalt = true → pe.val < 72 → (t.eng pe).halted = true →
    exec (.engineResume p pe) s = .next (s.after p DB_ECMD v (fun u =>
      let c := u.engPc pe
      let u := (u.setEng pe { u.eng pe with halted := false, haltReq := false, step := false }).setHalted pe false
      let u := u.record 960 0x93 pe 2 c 0
      let u := forN (fun k u => if (u.slot pe k).missed && u.flag (LE_TASK_CFG pe k) fLE_TASK_CFG_DLACT && (u.slotState pe k == 3 || u.slotState pe k == 4) then u.abandon pe k else u) 8 u
      (match State.running u pe with
        | some k => u.resumeMark pe k
        | none => u).freezeSync)))
  ∧ (∀ (p : Port) (pe : Fin 128) (v : Word) (s t : State), v = .ofNat 32 (3 * 2 ^ 30 + pe.val) → s.takes p DB_ECMD v = true → t = s.logged p DB_ECMD v →
    t.mayHalt = true → pe.val < 72 → (t.eng pe).halted = true →
    exec (.step p pe) s = .next (s.after p DB_ECMD v (fun u =>
      let u := (u.setEng pe { u.eng pe with halted := false, haltReq := false, step := true }).setHalted pe false
      (match State.running u pe with
        | some k => u.resumeMark pe k
        | none => u).freezeSync)))
  ∧ (∀ (p : Port) (pe : Fin 128) (v : Word) (s t : State), v = .ofNat 32 (3 * 2 ^ 30 + pe.val) → s.takes p DB_ECMD v = true → t = s.logged p DB_ECMD v →
    (t.mayHalt = false ∨ 72 ≤ pe.val ∨ (t.eng pe).halted = false) →
    exec (.step p pe) s = .next (s.after p DB_ECMD v (fun u => u.inc DB_REFUSED)))
  ∧ (∀ (p : Port) (v : Word) (s : State), s.takes p DB_FREEZE v = true → (s.logged p DB_FREEZE v).mayHalt = true →
    exec (.dbFreeze p v) s = .next (s.after p DB_FREEZE v (fun u =>
      let u := u.setReg DB_FREEZE v
      let on := u.freezeOn
      let u := u.setFlag DB_STAT fDB_STAT_FROZEN on
      let u := forN (fun g u => if on && u.freezeNames 0 (u.fld (PW_MAP g) fPW_MAP_FLOCK) then u.genFreeze g
        else if (u.gen g).freeze || u.flag (PW_STAT g) fPW_STAT_FROZEN then u.genUnfreeze g else u) 52 u
      let u := forN (fun n u => if on && u.freezeChanter n then u.chFreeze n else u.chUnfreeze n) 36 u
      forN (fun x u => if on && u.freezeNames 2 (u.fld (PF_MAP x) fPF_MAP_FLOCK) then u.pfFreeze x else u.pfUnfreeze x) 10 u)))
  ∧ (∀ (p : Port) (v : Word) (s : State), s.takes p DB_FREEZE v = true → (s.logged p DB_FREEZE v).mayHalt = false →
    exec (.dbFreeze p v) s = .next (s.after p DB_FREEZE v (fun u => u.inc DB_REFUSED)))
  ∧ (∀ (p : Port) (s t : State), s.takes p DB_BHALT 1 = true → t = s.logged p DB_BHALT 1 → t.flag DB_STAT fDB_STAT_BHALT = false →
    (t.dbLevel = 2 ∨ t.dbMode = 0) → (t.db.hold = true ∨ t.flag DB_POLICY fDB_POLICY_BLKHALT = true ∨
      t.fld RC_BOOT fRC_BOOT_STAGE ∈ [1, 2, 3, 4, 5, 6, 8]) → t.pw.bhalt = false → t.pw.fast = true →
    exec (.blockHalt p) s = .next (s.after p DB_BHALT 1 (fun u =>
      let u := ((u.setFlag DB_STAT fDB_STAT_BHALT true).setFlag DB_BHALT fDB_BHALT_REQ true).record 963 0x92 0 0 0 0
      State.stopFast { u with pw.bhalt := true })))
  ∧ (∀ (p : Port) (s t : State), s.takes p DB_BHALT 1 = true → t = s.logged p DB_BHALT 1 → t.flag DB_STAT fDB_STAT_BHALT = false →
    t.dbLevel ≠ 2 → t.dbMode ≠ 0 → exec (.blockHalt p) s = .next (s.after p DB_BHALT 1 (fun u => u.inc DB_REFUSED)))
  ∧ (∀ (p : Port) (s t : State), s.admits p DB_BHALT 0 = true → t = s.logged p DB_BHALT 0 → t.flag DB_STAT fDB_STAT_BHALT = true → t.pw.bhalt = true →
    s.word p DB_BHALT 0 = 0 → (t.dbLevel = 2 ∨ t.dbMode = 0) →
    exec (.blockHaltRelease p) s = .next (s.after p DB_BHALT 0 (fun u =>
      let u := State.setFlag { u with pw := { u.pw with bhalt := false, fast := u.pw.pll } } DB_STAT fDB_STAT_BHALT false
      let u := (u.setFlag DB_BHALT fDB_BHALT_REQ false).releaseHeld.pfInterruptAll
      (u.raise 963 0 0).record 963 0x92 0 0 0 0)))
  ∧ (∀ (p : Port) (s : State), s.takes p DB_BHALT 0 = true → (s.logged p DB_BHALT 0).flag DB_STAT fDB_STAT_BHALT = false →
    exec (.blockHaltRelease p) s = .next (s.after p DB_BHALT 0 (fun u => u)))
end

