-- ==== Sys2Proof/Laws/Table.lean ====
section
/-!
SUPPORT. Sparse tables: a read after a write, and that every table operation keeps the canonical form. The lemmas the
provers cite instead of unfolding `tget` and `tset`.
-/

namespace Sys2Proof.Machine

variable {α : Type}

@[simp] theorem tget_nil (d : Nat → α) (k : Nat) : tget d [] k = d k := rfl

theorem tget_tins_same (d : Nat → α) (t : List (Nat × α)) (k : Nat) (v : α) : tget d (tins t k v) k = v := by
  induction t with
  | nil => simp [tins, tget]
  | cons e t ih =>
    obtain ⟨a, w⟩ := e
    simp only [tins]
    split
    · simp [tget]
    · split
      · simp [tget]
      · rename_i h; simp [tget, h, ih]

theorem tget_tins_ne (d : Nat → α) (t : List (Nat × α)) {j k : Nat} (v : α) (h : j ≠ k) :
    tget d (tins t k v) j = tget d t j := by
  induction t with
  | nil => simp [tins, tget, Ne.symm h]
  | cons e t ih =>
    obtain ⟨a, w⟩ := e
    simp only [tins]
    split
    · simp [tget, Ne.symm h]
    · split
      · rename_i _ h2; subst h2; simp [tget, Ne.symm h]
      · simp [tget, ih]

theorem tget_tdel_same (d : Nat → α) (t : List (Nat × α)) (k : Nat) : tget d (tdel t k) k = d k := by
  induction t with
  | nil => rfl
  | cons e t ih =>
    obtain ⟨a, w⟩ := e
    simp only [tdel]
    split
    · exact ih
    · rename_i h; simp [tget, h, ih]

theorem tget_tdel_ne (d : Nat → α) (t : List (Nat × α)) {j k : Nat} (h : j ≠ k) :
    tget d (tdel t k) j = tget d t j := by
  induction t with
  | nil => rfl
  | cons e t ih =>
    obtain ⟨a, w⟩ := e
    simp only [tdel]
    split
    · rename_i h2; subst h2; simp [tget, Ne.symm h, ih]
    · simp [tget, ih]

variable [DecidableEq α]

/-- A read after a write of the same key gives the value written. -/
@[simp] theorem tget_tset_same (d : Nat → α) (t : List (Nat × α)) (k : Nat) (v : α) : tget d (tset d t k v) k = v := by
  unfold tset
  split
  · rename_i h; simp [tget_tdel_same, h]
  · exact tget_tins_same d t k v

/-- A write leaves every other key alone. -/
theorem tget_tset_ne (d : Nat → α) (t : List (Nat × α)) {j k : Nat} (v : α) (h : j ≠ k) :
    tget d (tset d t k v) j = tget d t j := by
  unfold tset
  split
  · exact tget_tdel_ne d t h
  · exact tget_tins_ne d t v h

theorem tget_tset (d : Nat → α) (t : List (Nat × α)) (j k : Nat) (v : α) :
    tget d (tset d t k v) j = if j = k then v else tget d t j := by
  split
  · rename_i h; subst h; simp
  · rename_i h; exact tget_tset_ne d t v h

/-! ### The canonical form -/

theorem twfFrom_none (d : Nat → α) (lo : Option Nat) (t : List (Nat × α)) (h : twfFrom d lo t = true) :
    twfFrom d none t = true := by
  cases t with
  | nil => rfl
  | cons e t => obtain ⟨k, v⟩ := e; simp_all [twfFrom]

theorem twfFrom_lower (d : Nat → α) {lo k : Nat} (t : List (Nat × α)) (hk : lo < k)
    (h : twfFrom d (some k) t = true) : twfFrom d (some lo) t = true := by
  cases t with
  | nil => rfl
  | cons e t =>
    obtain ⟨j, v⟩ := e
    simp only [twfFrom, Bool.and_eq_true, decide_eq_true_eq] at h ⊢
    exact ⟨⟨by omega, h.1.2⟩, h.2⟩

theorem twfFrom_tins (d : Nat → α) (t : List (Nat × α)) (k : Nat) (v : α) (hv : v ≠ d k) :
    ∀ lo : Option Nat, (∀ l, lo = some l → l < k) → twfFrom d lo t = true → twfFrom d lo (tins t k v) = true := by
  induction t with
  | nil =>
    intro lo hl _
    cases lo with
    | none => simp [tins, twfFrom, hv]
    | some l => simp [tins, twfFrom, hv, hl l rfl]
  | cons e t ih =>
    obtain ⟨j, w⟩ := e
    intro lo hl h
    simp only [tins]
    simp only [twfFrom, Bool.and_eq_true, decide_eq_true_eq] at h
    split
    · rename_i hkj
      cases lo with
      | none => simp [twfFrom, hv, hkj, h.1.2, h.2]
      | some l => simp [twfFrom, hv, hkj, h.1.2, h.2, hl l rfl]
    · split
      · rename_i _ hjk
        subst hjk
        simp only [twfFrom, Bool.and_eq_true, decide_eq_true_eq]
        exact ⟨⟨h.1.1, hv⟩, h.2⟩
      · rename_i h1 h2
        simp only [twfFrom, Bool.and_eq_true, decide_eq_true_eq]
        exact ⟨h.1, ih (some j) (fun l hl => by cases hl; omega) h.2⟩

theorem twfFrom_tdel (d : Nat → α) (t : List (Nat × α)) (k : Nat) :
    ∀ lo : Option Nat, twfFrom d lo t = true → twfFrom d lo (tdel t k) = true := by
  induction t with
  | nil => intro lo h; exact h
  | cons e t ih =>
    obtain ⟨j, w⟩ := e
    intro lo h
    simp only [twfFrom, Bool.and_eq_true, decide_eq_true_eq] at h
    simp only [tdel]
    split
    · apply ih
      cases lo with
      | none => exact twfFrom_none d _ t h.2
      | some l => exact twfFrom_lower d t (by simpa using h.1.1) h.2
    · simp only [twfFrom, Bool.and_eq_true, decide_eq_true_eq]
      exact ⟨h.1, ih (some j) h.2⟩

/-- A write keeps the canonical form. -/
@[simp] theorem twf_tset (d : Nat → α) (t : List (Nat × α)) (k : Nat) (v : α) (h : twf d t = true) :
    twf d (tset d t k v) = true := by
  unfold tset
  split
  · exact twfFrom_tdel d t k none h
  · rename_i hv; exact twfFrom_tins d t k v hv none (by simp) h

theorem twfFrom_tmap (d : Nat → α) (f : Nat → α → α) (t : List (Nat × α)) :
    ∀ lo : Option Nat, twfFrom d lo t = true → twfFrom d lo (tmap d f t) = true := by
  induction t with
  | nil => intro lo h; exact h
  | cons e t ih =>
    obtain ⟨j, w⟩ := e
    intro lo h
    simp only [twfFrom, Bool.and_eq_true, decide_eq_true_eq] at h
    simp only [tmap]
    split
    · apply ih
      cases lo with
      | none => exact twfFrom_none d _ t h.2
      | some l => exact twfFrom_lower d t (by simpa using h.1.1) h.2
    · rename_i hf
      simp only [twfFrom, Bool.and_eq_true, decide_eq_true_eq]
      exact ⟨⟨h.1.1, hf⟩, ih (some j) h.2⟩

/-- A mapped table is canonical. -/
@[simp] theorem twf_tmap (d : Nat → α) (f : Nat → α → α) (t : List (Nat × α)) (h : twf d t = true) :
    twf d (tmap d f t) = true := twfFrom_tmap d f t none h

@[simp] theorem twf_nil (d : Nat → α) : twf d [] = true := rfl

end Sys2Proof.Machine
end

