-- ==== Sys2Proof/Laws/Access.lean ====
section
/-!
SUPPORT. What a write of a named register does (01_architecture.md R26, 14_flocks_and_register_views.md R376 to R383): an
admitted write is its log entry, the effect of its register, an OKAY response.
-/

namespace Sys2Proof.Machine

theorem regwriteEntries_eq (s : State) (p : Port) (off n : Nat) (d : BitVec 64) (be c : Nat) :
    ∃ j : JnState, s.regwriteEntries p off n d be c = { s with jn := j } := by
  unfold State.regwriteEntries State.regwriteEntry State.jAdd
  split
  · exact ⟨s.jn, rfl⟩
  · split
    · exact ⟨_, rfl⟩
    · exact ⟨_, rfl⟩

/-- The log entry of a write changes nothing but the journal. -/
theorem logged_eq (s : State) (p : Port) (off : Nat) (v : Word) : ∃ j : JnState, s.logged p off v = { s with jn := j } :=
  regwriteEntries_eq ..

theorem parts_word (off : Nat) (h : off % 4 = 0) (v : Word) :
    accessParts off 4 (v.setWidth 64) 15 = [⟨off, v, 15⟩] := by
  have : BitVec.ofNat 32 (v.toNat % 4294967296) = v := by
    apply BitVec.eq_of_toNat_eq
    have := v.isLt
    simp only [BitVec.toNat_ofNat]
    omega
  simp [accessParts, h, this]

/-- A register write whose register is known, whose view is open and that sets no reserved bit. -/
theorem regWrite32_open {s : State} {m : Master} {off : Nat} {t : RegAt} {v : Word}
    (hf : findReg off regBlocks = some t) (ho : s.viewOpen m off t.desc.dam = true)
    (hr : v &&& ~~~(fieldBits t.desc) = 0)
    (hn : (s.writableFields m off t).filter (fun f => f.mask &&& beMask 15 ≠ 0) ≠ [])
    (hd : (decide (0x80000 ≤ off) && decide (off < 0xA0000)) = false ∨ (m.who = 1 ∧ off < 0x90000)
      ∨ (t.desc.dam = false ∧ s.lockOf off t = false)) :
    s.regWrite32 m off v 15 =
      ⟨true, let r := s.regEffect m off t (s.merged m off t v) (s.merged m off t v &&& ~~~(woBits t.desc)) (v &&& beMask 15)
        if r.clearsMark off 15 then r.setMark off false else r⟩ := by
  have hr' : ¬ (v &&& beMask 15 &&& ~~~(fieldBits t.desc) ≠ 0) := by
    have hb : beMask 15 = 0xFFFFFFFF#32 := by decide
    have : v &&& 0xFFFFFFFF#32 = v := by
      apply BitVec.eq_of_getLsbD_eq
      intro i hi
      have : (0xFFFFFFFF#32).getLsbD i = true := by
        have h : ∀ j : Fin 32, (0xFFFFFFFF#32).getLsbD j = true := by decide
        exact h ⟨i, hi⟩
      simp [this]
    rw [hb, this, hr]; simp
  have hdr : (t.desc.dam && m.who != 1 && decide (0x80000 ≤ off) && decide (off < 0x90000)) = false := by
    rcases hd with h | ⟨h, _⟩ | ⟨h, _⟩
    · simp only [Bool.and_eq_false_iff, decide_eq_false_iff_not] at h ⊢
      rcases h with h | h
      · left; right; exact h
      · right; omega
    · simp [h]
    · simp [h]
  have hh : ∀ x : Bool, (s.lockOf off t && decide (0x90000 ≤ off) && decide (off < 0xA0000) && x && decide (2 ≤ m.lvl)) = false := by
    intro x
    rcases hd with h | ⟨_, h⟩ | ⟨_, h⟩
    · simp only [Bool.and_eq_false_iff, decide_eq_false_iff_not] at h ⊢
      rcases h with h | h
      · left; left; left; right; omega
      · left; left; right; exact h
    · have : ¬ 0x90000 ≤ off := by omega
      simp [this]
    · simp [h]
  unfold State.regWrite32
  simp only [hf, ho, hr', hdr, hh, Bool.not_true, if_false, Bool.false_eq_true, hn, State.merged]
  rfl

/-- The write of a word at a register of the window is one register write. -/
theorem writeParts_word (s : State) (m : Master) (off : Nat) (v : Word) :
    (s.writeParts m [⟨off, v, 15⟩]).any = (s.regWrite32 m off v 15).any
      ∧ (s.writeParts m [⟨off, v, 15⟩]).st = (s.regWrite32 m off v 15).st := by
  simp [State.writeParts]

/-- An admitted write: its log entry, the effect of its register, an OKAY response. -/
theorem cmdWrite_admitsAt {s : State} {p : Port} {off : Nat} {t : RegAt} {v : Word}
    (hf : findReg off regBlocks = some t) (h : s.admitsAt p off t v = true) :
    s.cmdWrite p off v = (s.wrote (s.logged p off v) p off t v).respond p 0 0 := by
  simp only [State.admitsAt, Bool.and_eq_true, beq_iff_eq, Bool.not_eq_true', Bool.or_eq_true, decide_eq_true_eq] at h
  obtain ⟨⟨⟨⟨⟨⟨hp, h4⟩, ho⟩, hr⟩, hn⟩, hd⟩, hm⟩ := h
  have hn' : (s.writableFields (s.master p) off t).filter (fun f => f.mask &&& beMask 15 ≠ 0) ≠ [] := by
    intro h; rw [h] at hn; simp at hn
  have hd' : (decide (0x80000 ≤ off) && decide (off < 0xA0000)) = false ∨ ((s.master p).who = 1 ∧ off < 0x90000)
      ∨ (t.desc.dam = false ∧ s.lockOf off t = false) := by
    rcases hd with (hd | hd) | hd
    · exact .inl hd
    · exact .inr (.inl hd)
    · exact .inr (.inr hd)
  have key := regWrite32_open hf ho hr hn' hd'
  obtain ⟨j, hj⟩ := logged_eq s p off v
  have key' : (s.logged p off v).regWrite32 (s.master p) off v 15 = ⟨true, s.wrote (s.logged p off v) p off t v⟩ := by
    rw [hj]
    exact regWrite32_open (s := { s with jn := j }) hf ho hr hn' hd'
  have hbad : badShape off 4 15 = false := by simp [badShape, h4]
  have window : (s.master p).lvl ≠ 0 → hppRegion off = .reg → s.swept off = false →
      s.windowWrite p off 4 15 (v.setWidth 64) = (s.wrote (s.logged p off v) p off t v).respond p 0 0 := by
    intro h1 h2 h3
    have k2 := key'
    simp only [State.logged] at k2
    unfold State.windowWrite
    simp only [hbad, Bool.false_eq_true, if_false, h1, h2, h3, parts_word off h4]
    simp only [List.any_cons, List.any_nil, partialBad, bne_self_eq_false, Bool.and_false, Bool.false_and, Bool.or_false,
      Bool.false_eq_true, if_false, (writeParts_word _ _ _ _).1, (writeParts_word _ _ _ _).2, key, if_true, k2, State.logged]
  have nolog : p ≠ .hpp → s.logged p off v = s := by
    intro hne; simp [State.logged, State.regwriteEntries, hne]
  cases p with
  | hup f =>
    have hl := nolog (by simp)
    simp only [Bool.and_eq_true, Bool.or_eq_true, bne_iff_ne, Bool.not_eq_true', decide_eq_true_eq] at hm
    obtain ⟨⟨hen, heoi⟩, hv⟩ := hm
    unfold State.cmdWrite
    simp only [hp, hen, heoi, Bool.not_true, Bool.false_eq_true, if_false]
    split
    · rename_i hin
      have e1 : 0x800 + off % 0x800 = off - 0x40000 - (4 + f.val) * 0x800 + 0x800 := by omega
      have hlt := f.isLt
      have ho4 : (0x800 + off % 0x800) % 4 = 0 := by omega
      have hb : badShape (0x800 + off % 0x800) 4 15 = false := by simp [badShape, ho4]
      have hmod : (0x800 + off % 0x800) % 0x10000 = 0x800 + off % 0x800 := by omega
      have hdiv : (0x800 + off % 0x800) / 0x10000 = 0 := by omega
      have heq : 0x40000 + (4 + f.val) * 0x800 + (0x800 + off % 0x800 - 0x800) = off := by omega
      unfold State.hupWrite
      simp only [hb, Bool.false_eq_true, if_false, hdiv, Nat.add_zero, hlt, dif_pos, hen, Bool.not_true, hmod,
        parts_word _ ho4, List.filter_cons, List.filter_nil]
      have hpg : s.pageWrite ⟨f.val, hlt⟩ (0x800 + off % 0x800) v 15 = .ok 0 (s.wrote s (.hup f) off t v) := by
        unfold State.pageWrite
        have c1 : ¬ (0x800 + off % 0x800 = 0x100) := by omega
        have c2 : ¬ (0x800 + off % 0x800 = 0x110) := by omega
        have c3 : ¬ (0x800 + off % 0x800 = 0x114) := by omega
        have c4 : ¬ (0x800 + off % 0x800 = 0 ∨ (0x10 ≤ 0x800 + off % 0x800 ∧ 0x800 + off % 0x800 < 0x30)
          ∨ (0x40 ≤ 0x800 + off % 0x800 ∧ 0x800 + off % 0x800 < 0xC0)) := by omega
        have c5 : ¬ (0x800 + off % 0x800 < 0x800) := by omega
        have c6 : 0x800 + off % 0x800 < 0x1000 := by omega
        simp only [c1, c2, c3, c4, c5, c6, if_false, if_true, heq, hf]
        rw [if_neg]
        · have k := key'
          rw [hl] at k
          show PageRes.ok 0 (s.regWrite32 (s.master (.hup f)) off v 15).st = _
          rw [k]
        · intro hc
          apply hn'
          have : s.writableFields (s.master (.hup ⟨f.val, hlt⟩)) off t = [] := by simpa using hc
          rw [show (⟨f.val, hlt⟩ : Fin 16) = f from rfl] at this
          rw [this]; rfl
      simp [State.pagePartial, hpg, hl]
    · rename_i hin
      have hvd : s.viewDenied (s.master (.hup f)) off = false ∧ s.swept off = false := by
        rcases hv with h | h
        · exact h
        · exact absurd h hin
      have k := key'
      rw [hl] at k
      simp only [hvd.1, hvd.2, Bool.false_eq_true, if_false, k, hl]
  | urp e =>
    have hl := nolog (by simp)
    simp only [Bool.and_eq_true, Bool.not_eq_true'] at hm
    have hx : BitVec.extractLsb' 0 32 (BitVec.setWidth 64 v) = v := by
      apply BitVec.eq_of_toNat_eq
      have := v.isLt
      simp only [BitVec.extractLsb'_toNat, BitVec.toNat_setWidth, Nat.shiftRight_zero]
      omega
    unfold State.cmdWrite State.portWrite
    simp only [hp, Bool.not_true, Bool.false_eq_true, if_false, State.urpStore, h4, hm.1, hm.2, bne_self_eq_false, Bool.or_self, hx]
    have k := key'
    rw [hl] at k
    simp only [k, hl]
  | hpp =>
    simp only [Bool.and_eq_true, bne_iff_ne, beq_iff_eq, Bool.not_eq_true'] at hm
    unfold State.cmdWrite State.portWrite
    simp only [hp, Bool.not_true, Bool.false_eq_true, if_false]
    exact window hm.1.1 hm.1.2 hm.2
  | dam =>
    simp only [Bool.and_eq_true, bne_iff_ne, beq_iff_eq, Bool.not_eq_true'] at hm
    unfold State.cmdWrite State.portWrite
    simp only [hp, Bool.not_true, Bool.false_eq_true, if_false]
    exact window hm.1.1 hm.1.2 hm.2
  | shepherd =>
    simp only [Bool.and_eq_true, bne_iff_ne, beq_iff_eq, Bool.not_eq_true'] at hm
    unfold State.cmdWrite State.portWrite
    simp only [hp, Bool.not_true, Bool.false_eq_true, if_false]
    exact window hm.1.1 hm.1.2 hm.2

/-- A command that is an admitted write of a register. -/
theorem regCmd_admits {s : State} {p : Port} {off : Nat} {v : Word} (t : RegAt)
    (hf : findReg off regBlocks = some t) (h : s.admits p off v = true) :
    regCmd p off v s = .next (s.after p off v (fun u => s.wrote u p off t v)) := by
  have h' : s.admitsAt p off t v = true := by simpa [State.admits, hf] using h
  simp only [regCmd, cmdWrite_admitsAt hf h', State.after]

theorem after_congr {s : State} {p : Port} {off : Nat} {v : Word} {f g : State → State}
    (h : f (s.logged p off v) = g (s.logged p off v)) : s.after p off v f = s.after p off v g := by
  simp [State.after, h]

theorem takes_iff {s : State} {p : Port} {off : Nat} {v : Word} :
    s.takes p off v = true ↔ s.admits p off v = true ∧ s.word p off v = v := by
  simp [State.takes]

theorem word_of {s : State} {p : Port} {off : Nat} {v : Word} {t : RegAt} (hf : findReg off regBlocks = some t) :
    s.merged (s.master p) off t v = s.word p off v := by
  simp [State.word, hf]

/-! ### Which word a write makes clean (17_memory_integrity.md R438) -/

theorem clearsMark_out {s : State} {off : Nat}
    (h : off < 0x100000 ∨ (0x140000 ≤ off ∧ (off < 0x260000 ∨ 0x284000 ≤ off ∨ off % 0x1000 < 0x800))) :
    s.clearsMark off 15 = false := by
  have a : ¬ (0x100000 ≤ off ∧ off < 0x140000) := by omega
  have b : ¬ ((0x260000 ≤ off ∧ off < 0x284000) ∧ 0x800 ≤ off % 0x1000) := by omega
  have e : s.clearsMark off 15 = (decide (0x100000 ≤ off ∧ off < 0x140000)
      || (decide ((0x260000 ≤ off ∧ off < 0x284000) ∧ 0x800 ≤ off % 0x1000) && !s.chRun ((off - 0x260000) / 0x1000))) := by
    simp [State.clearsMark, Bool.decide_and]
  rw [e, decide_eq_false a, decide_eq_false b]; rfl

theorem clearsMark_queue {s : State} {off : Nat} (h : 0x100000 ≤ off ∧ off < 0x140000) : s.clearsMark off 15 = true := by
  simp [State.clearsMark, h.1, h.2]

theorem clearsMark_chant {s : State} {off n : Nat} (h : 0x260000 ≤ off ∧ off < 0x284000 ∧ 0x800 ≤ off % 0x1000)
    (hn : (off - 0x260000) / 0x1000 = n) : s.clearsMark off 15 = !s.chRun n := by
  have a : ¬ (off < 0x140000) := by omega
  simp [State.clearsMark, h.1, h.2.1, h.2.2, hn, a]

/-! ### The state that the effect of a write starts from: only the journal has changed -/

section
variable (s : State) (p : Port) (off : Nat) (v : Word)

@[simp] theorem logged_pending : (s.logged p off v).pending = s.pending := by obtain ⟨j, h⟩ := logged_eq s p off v; rw [h]
@[simp] theorem logged_fc : (s.logged p off v).fc = s.fc := by obtain ⟨j, h⟩ := logged_eq s p off v; rw [h]
@[simp] theorem logged_free : (s.logged p off v).free = s.free := by obtain ⟨j, h⟩ := logged_eq s p off v; rw [h]
@[simp] theorem logged_regs : (s.logged p off v).regs = s.regs := by obtain ⟨j, h⟩ := logged_eq s p off v; rw [h]
@[simp] theorem logged_mem : (s.logged p off v).mem = s.mem := by obtain ⟨j, h⟩ := logged_eq s p off v; rw [h]
@[simp] theorem logged_marks : (s.logged p off v).marks = s.marks := by obtain ⟨j, h⟩ := logged_eq s p off v; rw [h]
@[simp] theorem logged_sysMem : (s.logged p off v).sysMem = s.sysMem := by obtain ⟨j, h⟩ := logged_eq s p off v; rw [h]
@[simp] theorem logged_resp : (s.logged p off v).resp = s.resp := by obtain ⟨j, h⟩ := logged_eq s p off v; rw [h]
@[simp] theorem logged_hiLatch : (s.logged p off v).hiLatch = s.hiLatch := by obtain ⟨j, h⟩ := logged_eq s p off v; rw [h]
@[simp] theorem logged_hot : (s.logged p off v).hot = s.hot := by obtain ⟨j, h⟩ := logged_eq s p off v; rw [h]
@[simp] theorem logged_ev : (s.logged p off v).ev = s.ev := by obtain ⟨j, h⟩ := logged_eq s p off v; rw [h]
@[simp] theorem logged_tb : (s.logged p off v).tb = s.tb := by obtain ⟨j, h⟩ := logged_eq s p off v; rw [h]
@[simp] theorem logged_tl : (s.logged p off v).tl = s.tl := by obtain ⟨j, h⟩ := logged_eq s p off v; rw [h]
@[simp] theorem logged_engs : (s.logged p off v).engs = s.engs := by obtain ⟨j, h⟩ := logged_eq s p off v; rw [h]
@[simp] theorem logged_ranks : (s.logged p off v).ranks = s.ranks := by obtain ⟨j, h⟩ := logged_eq s p off v; rw [h]
@[simp] theorem logged_clExt : (s.logged p off v).clExt = s.clExt := by obtain ⟨j, h⟩ := logged_eq s p off v; rw [h]
@[simp] theorem logged_lanes : (s.logged p off v).lanes = s.lanes := by obtain ⟨j, h⟩ := logged_eq s p off v; rw [h]
@[simp] theorem logged_laneOld : (s.logged p off v).laneOld = s.laneOld := by obtain ⟨j, h⟩ := logged_eq s p off v; rw [h]
@[simp] theorem logged_due : (s.logged p off v).due = s.due := by obtain ⟨j, h⟩ := logged_eq s p off v; rw [h]
@[simp] theorem logged_qf : (s.logged p off v).qf = s.qf := by obtain ⟨j, h⟩ := logged_eq s p off v; rw [h]
@[simp] theorem logged_pw : (s.logged p off v).pw = s.pw := by obtain ⟨j, h⟩ := logged_eq s p off v; rw [h]
@[simp] theorem logged_si : (s.logged p off v).si = s.si := by obtain ⟨j, h⟩ := logged_eq s p off v; rw [h]
@[simp] theorem logged_gens : (s.logged p off v).gens = s.gens := by obtain ⟨j, h⟩ := logged_eq s p off v; rw [h]
@[simp] theorem logged_phOld : (s.logged p off v).phOld = s.phOld := by obtain ⟨j, h⟩ := logged_eq s p off v; rw [h]
@[simp] theorem logged_phDone : (s.logged p off v).phDone = s.phDone := by obtain ⟨j, h⟩ := logged_eq s p off v; rw [h]
@[simp] theorem logged_phNew : (s.logged p off v).phNew = s.phNew := by obtain ⟨j, h⟩ := logged_eq s p off v; rw [h]
@[simp] theorem logged_xbarOld : (s.logged p off v).xbarOld = s.xbarOld := by obtain ⟨j, h⟩ := logged_eq s p off v; rw [h]
@[simp] theorem logged_phDue : (s.logged p off v).phDue = s.phDue := by obtain ⟨j, h⟩ := logged_eq s p off v; rw [h]
@[simp] theorem logged_tims : (s.logged p off v).tims = s.tims := by obtain ⟨j, h⟩ := logged_eq s p off v; rw [h]
@[simp] theorem logged_lines : (s.logged p off v).lines = s.lines := by obtain ⟨j, h⟩ := logged_eq s p off v; rw [h]
@[simp] theorem logged_pfus : (s.logged p off v).pfus = s.pfus := by obtain ⟨j, h⟩ := logged_eq s p off v; rw [h]
@[simp] theorem logged_pfPhase : (s.logged p off v).pfPhase = s.pfPhase := by obtain ⟨j, h⟩ := logged_eq s p off v; rw [h]
@[simp] theorem logged_pfStep : (s.logged p off v).pfStep = s.pfStep := by obtain ⟨j, h⟩ := logged_eq s p off v; rw [h]
@[simp] theorem logged_tmgPend : (s.logged p off v).tmgPend = s.tmgPend := by obtain ⟨j, h⟩ := logged_eq s p off v; rw [h]
@[simp] theorem logged_cs : (s.logged p off v).cs = s.cs := by obtain ⟨j, h⟩ := logged_eq s p off v; rw [h]
@[simp] theorem logged_sh : (s.logged p off v).sh = s.sh := by obtain ⟨j, h⟩ := logged_eq s p off v; rw [h]
@[simp] theorem logged_chs : (s.logged p off v).chs = s.chs := by obtain ⟨j, h⟩ := logged_eq s p off v; rw [h]
@[simp] theorem logged_ch : (s.logged p off v).ch = s.ch := by obtain ⟨j, h⟩ := logged_eq s p off v; rw [h]
@[simp] theorem logged_mi : (s.logged p off v).mi = s.mi := by obtain ⟨j, h⟩ := logged_eq s p off v; rw [h]
@[simp] theorem logged_flkFc : (s.logged p off v).flkFc = s.flkFc := by obtain ⟨j, h⟩ := logged_eq s p off v; rw [h]
@[simp] theorem logged_flkReq : (s.logged p off v).flkReq = s.flkReq := by obtain ⟨j, h⟩ := logged_eq s p off v; rw [h]
@[simp] theorem logged_flkClean : (s.logged p off v).flkClean = s.flkClean := by obtain ⟨j, h⟩ := logged_eq s p off v; rw [h]
@[simp] theorem logged_rs : (s.logged p off v).rs = s.rs := by obtain ⟨j, h⟩ := logged_eq s p off v; rw [h]
@[simp] theorem logged_fold : (s.logged p off v).fold = s.fold := by obtain ⟨j, h⟩ := logged_eq s p off v; rw [h]
@[simp] theorem logged_fuses : (s.logged p off v).fuses = s.fuses := by obtain ⟨j, h⟩ := logged_eq s p off v; rw [h]
@[simp] theorem logged_mb : (s.logged p off v).mb = s.mb := by obtain ⟨j, h⟩ := logged_eq s p off v; rw [h]
@[simp] theorem logged_db : (s.logged p off v).db = s.db := by obtain ⟨j, h⟩ := logged_eq s p off v; rw [h]
@[simp] theorem logged_reg (o : Nat) : (s.logged p off v).reg o = s.reg o := by simp [State.reg]
@[simp] theorem logged_fld (o : Nat) (f : Fld) : (s.logged p off v).fld o f = s.fld o f := by simp [State.fld]
@[simp] theorem logged_flag (o : Nat) (f : Fld) : (s.logged p off v).flag o f = s.flag o f := by simp [State.flag]
@[simp] theorem logged_nat (o : Nat) : (s.logged p off v).nat o = s.nat o := by simp [State.nat]
@[simp] theorem logged_now : (s.logged p off v).now = s.now := by simp [State.now]
@[simp] theorem logged_live : (s.logged p off v).live = s.live := by simp [State.live]
end

end Sys2Proof.Machine
end

