-- ==== Sys2Proof/Laws/Kamyn.lean ====
section
/-!
SUPPORT. What an issued instruction of Kamyn does, said once: the row's operation runs on the fetched state and finishes.
-/

namespace Sys2Proof.Machine

/-- The instruction as the row's operation sees it. -/
def State.issue (s : State) (c : Core) (w : Word) (t : State) : K := ⟨c, t, s.kBank c, (s.kBank c).pc.toNat, kLen w⟩

theorem kRun_issued {s t : State} {c : Core} {w : Word} (ill : Bool) (run : K → KRes) (h : s.issued c w = some t) :
    s.kRun c w ill run = (s.issue c w t).finish (
      if ill then .fault t (if kIsSuper w && c != .shep then 9 else 2) none
      else if (s.kBank c).guardPois (kGuard w) then .fault t 1 none
      else if !(s.kBank c).guardHolds (kGuard w) then .ok t (s.kBank c)
      else run (s.issue c w t)) := by
  unfold State.issued at h
  simp only [Bool.and_eq_true, Option.isNone_iff_eq_none, Bool.not_eq_true'] at h
  split at h
  · rename_i hc
    obtain ⟨⟨h1, h2⟩, h3⟩ := hc
    split at h
    · rename_i u hk
      cases h
      have hb : ({ s.kBank c with wait := none } : Bank) = s.kBank c := by rw [← h2]
      simp only [State.kRun, h1, h2, hb, h3, hk, Bool.not_true, Bool.false_eq_true, if_false, Option.filter_none, Option.any_none,
        Bool.false_and]
      split <;> [rfl; (split <;> [rfl; (split <;> rfl)])]
    · cases h
  · cases h

theorem fetched_issued {s t : State} {c : Core} {w : Word} (h : s.fetched c w = some t) :
    s.issued c w = some t ∧ (s.kBank c).guardPois (kGuard w) = false ∧ (s.kBank c).guardHolds (kGuard w) = true
      ∧ t.unpatched c w = true := by
  unfold State.fetched at h
  simp only [Bool.and_eq_true, Bool.not_eq_true'] at h
  split at h
  · rename_i hc
    rw [Option.filter_eq_some_iff] at h
    exact ⟨h.1, hc.1, hc.2, h.2⟩
  · cases h

theorem issued_idle {s t : State} {c : Core} {w : Word} (h : s.issued c w = some t) : (s.kBank c).going = false := by
  unfold State.issued at h
  simp only [Bool.and_eq_true, Bool.not_eq_true'] at h
  split at h
  · rename_i hc; exact hc.2
  · cases h

theorem kRun_fetched {s t : State} {c : Core} {w : Word} (run : K → KRes) (h : s.fetched c w = some t) :
    s.kRun c w false run = (s.issue c w t).finish (run (s.issue c w t)) := by
  obtain ⟨h1, h2, h3, _⟩ := fetched_issued h
  simp [kRun_issued false run h1, h2, h3]

/-- The ROM carries the instruction out: its row's operation runs. -/
theorem routed_fetched {s t : State} {c : Core} {w : Word} {op : KOp} (run : K → KRes) (h : s.fetched c w = some t) (ho : kOp w = some op) :
    (s.issue c w t).routed w op run = run (s.issue c w t) := by
  obtain ⟨h1, _, _, h4⟩ := fetched_issued h
  have hg := issued_idle h1
  cases c with
  | shep => rfl
  | eng p =>
    simp only [State.unpatched, ho, Option.isNone_iff_eq_none] at h4
    simp [K.routed, State.issue, hg, h4]

theorem kOp_not_super {w : Word} {op : KOp} (ho : kOp w = some op) (hs : ∀ o h, op ≠ .sup o h) : kIsSuper w = false := by
  unfold kIsSuper
  cases hw : kWide w
  · rfl
  · simp only [Bool.true_and, beq_eq_false_iff_ne, ne_eq]
    intro hm
    unfold kOp at ho
    rw [hw] at ho
    simp only [if_true, kOp32, hm, kSuper, kWhen, Option.ite_none_right_eq_some, Option.some.injEq] at ho
    exact hs _ _ ho.2.symm

theorem kIllegal_eng {p : Fin 72} {w : Word} {op : KOp} (ho : kOp w = some op) (hs : ∀ o h, op ≠ .sup o h) :
    kIllegal (.eng p) w = false := by
  simp [kIllegal, ho, kOp_not_super ho hs]

theorem kIllegal_shep {w : Word} {op : KOp} (ho : kOp w = some op) : kIllegal .shep w = shIllegal op := by
  simp [kIllegal, ho]

/-- A row's instruction, issued: its operation runs on the fetched state and finishes. -/
theorem kamyn_fetched {c : Core} {w : Word} {s t : State} {f : KOp → Option (K → KRes)} {op : KOp} {run : K → KRes}
    (h : s.fetched c w = some t) (ho : kOp w = some op) (hf : f op = some run) (hi : kIllegal c w = false) :
    kamyn c w s f = .next ((s.issue c w t).finish (run (s.issue c w t))) := by
  simp only [kamyn, ho, hf, hi, kRun_fetched _ h, routed_fetched run h ho]

theorem kIllegal_of {c : Core} {w : Word} {op : KOp} (ho : kOp w = some op) (hs : ∀ o h, op ≠ .sup o h) (hi : shIllegal op = false) :
    kIllegal c w = false := by
  cases c
  · exact kIllegal_eng ho hs
  · rw [kIllegal_shep ho, hi]

@[simp] theorem finish_ok (s t u : State) (c : Core) (w : Word) (x : Bank) :
    (s.issue c w t).finish (.ok u x) = s.ended c w u x := rfl

@[simp] theorem finish_result (s t : State) (c : Core) (w : Word) (rd : Nat) (srcs : List Nat) (r : Int × Nat) :
    (s.issue c w t).finish ((s.issue c w t).result rd srcs r) = s.resulted c w t rd srcs r := rfl

/-- A jump to a target that a branch may take. -/
theorem finish_jump (s t u : State) (c : Core) (w : Word) (x : Bank) (a : Nat) (h : landsOn c a = true) :
    (s.issue c w t).finish (.jump u x a) = s.landed c u x a := by
  simp only [landsOn, Bool.and_eq_true, beq_iff_eq] at h
  cases c <;> simp [K.finish, State.kJump, h.1, h.2, State.landed, State.issue, State.held] <;> rfl

end Sys2Proof.Machine
end

