-- ==== Sys2Proof/Laws/RegEffect.lean ====
section
/-!
SUPPORT. Which block a register write goes to, by the region of its offset (01_architecture.md R18, R19): the provers cite
these instead of unfolding `State.regEffect`.
-/

namespace Sys2Proof.Machine

variable {s : State} {m : Master} {off : Nat} {t : RegAt} {v st d0 : Word}

theorem regEffect_rc (h1 : 0x100 ≤ off) (h2 : off < 0x8000) :
    s.regEffect m off t v st d0 = s.rcWrite m off v st := by
  unfold State.regEffect
  simp (disch := omega) only [if_neg, if_pos, Bool.and_eq_true, decide_eq_true_eq]

theorem regEffect_pm (h1 : 0x8000 ≤ off) (h2 : off < 0x10000) :
    s.regEffect m off t v st d0 = if off = PM_CTRL then (s.pmCtrlWrite v).wakeCheck else if off = PM_FSDATA then s.fsWrite v else s.setReg off st := by
  unfold State.regEffect
  simp (disch := omega) only [if_neg, if_pos, Bool.and_eq_true, decide_eq_true_eq]

theorem regEffect_tb (h1 : 0x10000 ≤ off) (h2 : off < 0x18000) :
    s.regEffect m off t v st d0 = if off = TB_CTRL then s.tbCtrlWrite (if m.lvl = 3 then some (vbit v 3) else none) (vbit v 2) (vbit v 1)
      else if off = TB_INCR_INT then s.incrIntWrite v else s.setReg off st := by
  unfold State.regEffect
  simp (disch := omega) only [if_neg, if_pos, Bool.and_eq_true, decide_eq_true_eq]

theorem regEffect_tl (h1 : 0x18000 ≤ off) (h2 : off < 0x20000) :
    s.regEffect m off t v st d0 = if off = TL_CTRL then s.tlCtrlWrite v else s.setReg off st := by
  unfold State.regEffect
  simp (disch := omega) only [if_neg, if_pos, Bool.and_eq_true, decide_eq_true_eq]

theorem regEffect_ev (h1 : 0x20000 ≤ off) (h2 : off < 0x24000) :
    s.regEffect m off t v st d0 = if t.desc.off = 0 then s.ecTargetWrite t.inst v else s.setReg off st := by
  unfold State.regEffect
  simp (disch := omega) only [if_neg, if_pos, Bool.and_eq_true, decide_eq_true_eq]

theorem regEffect_ec (h1 : 0x2c000 ≤ off) (h2 : off < 0x30000) :
    s.regEffect m off t v st d0 = if off = EC_EOI then s.eoi (vfld v 0 10) else if off = EC_SW_RAISE then s.swRaise (vfld v 0 10) else if off = EC_WAKE_EN then (s.setReg off st).wakeCheck else s.setReg off st := by
  unfold State.regEffect
  simp (disch := omega) only [if_neg, if_pos, Bool.and_eq_true, decide_eq_true_eq]

theorem regEffect_jn (h1 : 0x30000 ≤ off) (h2 : off < 0x40000) :
    s.regEffect m off t v st d0 = if off = JN_CTRL then s.jnCtrlWrite v else if off = JN_HSIZE then s.hsizeWrite v else s.setReg off st := by
  unfold State.regEffect
  simp (disch := omega) only [if_neg, if_pos, Bool.and_eq_true, decide_eq_true_eq]

theorem regEffect_mb (h1 : 0x40000 ≤ off) (h2 : off < 0x50000) :
    s.regEffect m off t v st d0 = if t.desc.off = 0 then (if vbit v 0 then s.mbRing t.inst (if m.who = 1 then m.lvl - 1 else 0) else s) else s.setReg off st := by
  unfold State.regEffect
  simp (disch := omega) only [if_neg, if_pos, Bool.and_eq_true, decide_eq_true_eq]

theorem regEffect_fl (h1 : 0x50000 ≤ off) (h2 : off < 0x54000) :
    s.regEffect m off t v st d0 = if t.desc.off = 0 then s.flkCtrlWrite t.inst m.who (if m.lvl = 3 then some (vbit v 0) else none) (vbit v 1) else s.setReg off st := by
  unfold State.regEffect
  simp (disch := omega) only [if_neg, if_pos, Bool.and_eq_true, decide_eq_true_eq]

theorem regEffect_flg (h1 : 0x54000 ≤ off) (h2 : off < 0x60000) :
    s.regEffect m off t v st d0 = if t.desc.off = 0x40 then s.spownWrite t.elem v else s.setReg off st := by
  unfold State.regEffect
  simp (disch := omega) only [if_neg, if_pos, Bool.and_eq_true, decide_eq_true_eq]

theorem regEffect_rs (h1 : 0x60000 ≤ off) (h2 : off < 0x70000) :
    s.regEffect m off t v st d0 = s.rsWrite off v st := by
  unfold State.regEffect
  simp (disch := omega) only [if_neg, if_pos, Bool.and_eq_true, decide_eq_true_eq]

theorem regEffect_mi (h1 : 0x71000 ≤ off) (h2 : off < 0x80000) :
    s.regEffect m off t v st d0 = s.miGroupWrite t.inst t.desc.off t.elem off v st := by
  unfold State.regEffect
  simp (disch := omega) only [if_neg, if_pos, Bool.and_eq_true, decide_eq_true_eq]

theorem regEffect_db (h1 : 0x80000 ≤ off) (h2 : off < 0x90000) :
    s.regEffect m off t v st d0 = s.dbWrite off v st := by
  unfold State.regEffect
  simp (disch := omega) only [if_neg, if_pos, Bool.and_eq_true, decide_eq_true_eq]

theorem regEffect_sh (h1 : 0x90000 ≤ off) (h2 : off < 0x100000) :
    s.regEffect m off t v st d0 = s.shWrite off v st := by
  unfold State.regEffect
  simp (disch := omega) only [if_neg, if_pos, Bool.and_eq_true, decide_eq_true_eq]

theorem regEffect_qd (h1 : 0x100000 ≤ off) (h2 : off < 0x140000) :
    s.regEffect m off t v st d0 = s.qdWrite t.inst t.desc.off off v st := by
  unfold State.regEffect
  simp (disch := omega) only [if_neg, if_pos, Bool.and_eq_true, decide_eq_true_eq]

theorem regEffect_qw (h1 : 0x140000 ≤ off) (h2 : off < 0x150000) :
    s.regEffect m off t v st d0 = if t.desc.off = 0 then (if vbit v 31 = true then (s.wmnClear t.inst st (vfld d0 0 2)).clrCnt t.inst else s.wmnClear t.inst st (vfld d0 0 2)) else s.setReg off st := by
  unfold State.regEffect
  simp (disch := omega) only [if_neg, if_pos, Bool.and_eq_true, decide_eq_true_eq]

theorem regEffect_qg (h1 : 0x150000 ≤ off) (h2 : off < 0x180100) :
    s.regEffect m off t v st d0 = s.qgWrite off v st := by
  unfold State.regEffect
  simp (disch := omega) only [if_neg, if_pos, Bool.and_eq_true, decide_eq_true_eq]

theorem regEffect_qh (h1 : 0x180100 ≤ off) (h2 : off < 0x200000) :
    s.regEffect m off t v st d0 = s.qhWrite t.inst t.desc.off off v st := by
  unfold State.regEffect
  simp (disch := omega) only [if_neg, if_pos, Bool.and_eq_true, decide_eq_true_eq]

theorem regEffect_sp (h1 : 0x200000 ≤ off) (h2 : off < 0x208000) :
    s.regEffect m off t v st d0 = s.spWrite t.inst t.desc.off off v st := by
  unfold State.regEffect
  simp (disch := omega) only [if_neg, if_pos, Bool.and_eq_true, decide_eq_true_eq]

theorem regEffect_soc (h1 : 0x208000 ≤ off) (h2 : off < 0x210000) :
    s.regEffect m off t v st d0 = if off = SI_SOC_FIRE then s.socSoftware (vfld v 0 6) else s.setReg off st := by
  unfold State.regEffect
  simp (disch := omega) only [if_neg, if_pos, Bool.and_eq_true, decide_eq_true_eq]

theorem regEffect_trg (h1 : 0x218000 ≤ off) (h2 : off < 0x220000) :
    s.regEffect m off t v st d0 = s.trgWrite m off v st := by
  unfold State.regEffect
  simp (disch := omega) only [if_neg, if_pos, Bool.and_eq_true, decide_eq_true_eq]

theorem regEffect_pw (h1 : 0x220000 ≤ off) (h2 : off < 0x23c000) :
    s.regEffect m off t v st d0 = s.pwPair m t.inst t.desc.off t.elem off v st := by
  unfold State.regEffect
  simp (disch := omega) only [if_neg, if_pos, Bool.and_eq_true, decide_eq_true_eq]

theorem regEffect_xb (h1 : 0x23c000 ≤ off) (h2 : off < 0x23c400) :
    s.regEffect m off t v st d0 = s.xbarWrite off t.elem st := by
  unfold State.regEffect
  simp (disch := omega) only [if_neg, if_pos, Bool.and_eq_true, decide_eq_true_eq]

theorem regEffect_ph (h1 : 0x23c400 ≤ off) (h2 : off < 0x240000) :
    s.regEffect m off t v st d0 = s.phWrite t.inst t.desc.off off v st := by
  unfold State.regEffect
  simp (disch := omega) only [if_neg, if_pos, Bool.and_eq_true, decide_eq_true_eq]

theorem regEffect_tm (h1 : 0x240000 ≤ off) (h2 : off < 0x248000) :
    s.regEffect m off t v st d0 = s.tmWrite t.inst t.desc.off t.elem off v st := by
  unfold State.regEffect
  simp (disch := omega) only [if_neg, if_pos, Bool.and_eq_true, decide_eq_true_eq]

theorem regEffect_tmg (h1 : 0x248000 ≤ off) (h2 : off < 0x250000) :
    s.regEffect m off t v st d0 = s.tmgWrite t.desc.off t.elem off v st := by
  unfold State.regEffect
  simp (disch := omega) only [if_neg, if_pos, Bool.and_eq_true, decide_eq_true_eq]

theorem regEffect_pf (h1 : 0x250000 ≤ off) (h2 : off < 0x258000) :
    s.regEffect m off t v st d0 = s.pfWrite m t.inst t.desc.off t.elem off v st := by
  unfold State.regEffect
  simp (disch := omega) only [if_neg, if_pos, Bool.and_eq_true, decide_eq_true_eq]

theorem regEffect_ch (h1 : 0x260000 ≤ off) (h2 : off < 0x288000) :
    s.regEffect m off t v st d0 = s.cpWrite t.inst t.desc.off t.elem off v st := by
  unfold State.regEffect
  simp (disch := omega) only [if_neg, if_pos, Bool.and_eq_true, decide_eq_true_eq]

theorem regEffect_chg (h1 : 0x288000 ≤ off) (h2 : off < 0x400000) :
    s.regEffect m off t v st d0 = s.chgWrite off v st := by
  unfold State.regEffect
  simp (disch := omega) only [if_neg, if_pos, Bool.and_eq_true, decide_eq_true_eq]

theorem regEffect_ti (h1 : 0x210000 ≤ off) (h2 : off < 0x212000) (ha : s.arLocked off = false) :
    s.regEffect m off t v st d0 = s.tiWrite t.inst t.desc.off off v st d0 := by
  unfold State.regEffect
  simp (disch := omega) only [if_neg, if_pos, ha, Bool.false_and, Bool.false_eq_true, if_false]

theorem regEffect_cl (h1 : 0x400000 ≤ off) (h2 : off < 0x800000) (h3 : off % 0x80000 < 0x10000) :
    s.regEffect m off t v st d0 = s.clWrite t.inst t.desc.off t.elem off v st := by
  unfold State.regEffect
  simp (disch := omega) only [if_neg, if_pos, Bool.and_eq_true, decide_eq_true_eq]

theorem regEffect_le (h1 : 0x400000 ≤ off) (h2 : off < 0x800000) (h3 : 0x10000 ≤ off % 0x80000) (h4 : off % 0x4000 < 0x2000) :
    s.regEffect m off t v st d0 = s.leWrite t.inst t.desc.off t.elem off v st := by
  unfold State.regEffect
  simp (disch := omega) only [if_neg, if_pos, Bool.and_eq_true, decide_eq_true_eq]

theorem regEffect_cs (h1 : 0x400000 ≤ off) (h2 : off < 0x800000) (h3 : 0x10000 ≤ off % 0x80000) (h4 : 0x2000 ≤ off % 0x4000) :
    s.regEffect m off t v st d0 = s.csRegWrite t.inst t.desc.off off v st := by
  unfold State.regEffect
  simp (disch := omega) only [if_neg, if_pos, Bool.and_eq_true, decide_eq_true_eq]

end Sys2Proof.Machine
end

