-- ==== Sys2Proof/Laws/Registers.lean ====
section
/-!
SUPPORT. The registers that commands write, found in the register map, and what an admitted write of each does: one lemma
each, cited in place of `findReg` and `State.regEffect`.
-/

set_option Elab.async false

namespace Sys2Proof.Machine

/-- The end of a block's window. -/
def BlockDesc.top (b : BlockDesc) : Nat :=
  if b.gstride = 0 then b.base + b.count * b.stride else b.base + (b.count - 1) / b.grp * b.gstride + b.gstride

theorem locate_out (b : BlockDesc) (off : Nat) (hg : b.gstride = 0) (hs : 0 < b.stride) (h : off < b.base ∨ b.top ≤ off) :
    b.locate off = none := by
  unfold BlockDesc.locate
  rcases h with h | h
  · rw [if_pos h]
  · rw [BlockDesc.top, if_pos hg] at h
    split
    · rfl
    · simp only [hg, if_true]
      rw [if_neg]
      intro hc
      have h1 : b.count * b.stride ≤ off - b.base := by omega
      have h2 : b.count ≤ (off - b.base) / b.stride := (Nat.le_div_iff_mul_le hs).mpr h1
      omega

theorem locate_at {b : BlockDesc} {base count stride i d : Nat} (hb : b.base = base) (hc : b.count = count)
    (hs : b.stride = stride) (hg : b.gstride = 0) (hi : i < count) (hd : d < stride) :
    b.locate (base + i * stride + d) = some (i, d) := by
  subst hb hc hs
  have h0 : b.base + i * b.stride + d - b.base = d + b.stride * i := by rw [Nat.mul_comm]; omega
  have hpos : 0 < b.stride := by omega
  have h1 : (d + b.stride * i) / b.stride = i := by
    rw [Nat.add_mul_div_left _ _ hpos, Nat.div_eq_of_lt hd]; omega
  have h2 : (d + b.stride * i) % b.stride = d := by rw [Nat.add_mul_mod_self_left, Nat.mod_eq_of_lt hd]
  unfold BlockDesc.locate
  rw [if_neg (by omega)]
  simp only [h0, hg, if_true, h1, h2, hi]

theorem locate_grp {b : BlockDesc} {off i d : Nat} (hb : b.count = 72) (hs : b.stride = 0x4000) (hg : b.grp = 9)
    (hgs : b.gstride = 0x80000) (hi : i < 72) (hd : d < 0x4000) (ho : off = b.base + i / 9 * 0x80000 + i % 9 * 0x4000 + d) :
    b.locate off = some (i, d) := by
  have h0 : off - b.base = i / 9 * 0x80000 + i % 9 * 0x4000 + d := by omega
  have h1 : (i / 9 * 0x80000 + i % 9 * 0x4000 + d) / 0x80000 = i / 9 := by omega
  have h2 : (i / 9 * 0x80000 + i % 9 * 0x4000 + d) % 0x80000 / 0x4000 = i % 9 := by omega
  have h3 : (i / 9 * 0x80000 + i % 9 * 0x4000 + d) % 0x80000 % 0x4000 = d := by omega
  have h4 : i / 9 * 9 + i % 9 = i := by omega
  have h5 : i % 9 < 9 := by omega
  unfold BlockDesc.locate
  rw [if_neg (by omega)]
  simp only [h0, hgs, hs, hg, hb, h1, h2, h3, h4, h5, hi, and_self, if_true]
  simp

/-- The blocks in front of a block's own window are passed over. -/
theorem findReg_skips (l : List BlockDesc) {r : List BlockDesc} {off lo hi : Nat} (h1 : lo ≤ off) (h2 : off < hi)
    (h : l.all (fun b => b.gstride == 0 && decide (0 < b.stride) && (decide (hi ≤ b.base) || decide (b.top ≤ lo))) = true) :
    findReg off (l ++ r) = findReg off r := by
  induction l with
  | nil => rfl
  | cons b l ih =>
    simp only [List.all_cons, Bool.and_eq_true, beq_iff_eq, decide_eq_true_eq, Bool.or_eq_true] at h
    have hb : b.locate off = none := locate_out b off h.1.1.1 h.1.1.2 (by omega)
    simp only [List.cons_append, findReg, hb]
    exact ih h.2

theorem findReg_in {b : BlockDesc} {r : List BlockDesc} {off i d : Nat} {t : RegDesc} {k : Nat} (h : b.locate off = some (i, d))
    (he : findElem d b.regs = some (t, k)) : findReg off (b :: r) = some ⟨i, t, k⟩ := by
  simp [findReg, h, he]

theorem findReg_miss {b : BlockDesc} {r : List BlockDesc} {off i d : Nat} (h : b.locate off = some (i, d))
    (he : findElem d b.regs = none) : findReg off (b :: r) = findReg off r := by
  simp [findReg, h, he]

theorem findElem_above (l : List RegDesc) {d : Nat} (hi : Nat) (h : hi ≤ d)
    (hl : l.all (fun r => decide (0 < r.stride) && decide (r.off + r.count * r.stride ≤ hi)) = true) : findElem d l = none := by
  induction l with
  | nil => rfl
  | cons r l ih =>
    simp only [List.all_cons, Bool.and_eq_true, decide_eq_true_eq] at hl
    have : r.elem d = none := by
      unfold RegDesc.elem
      split
      · rfl
      · simp only
        rw [if_neg]
        intro hc
        have h1 : r.count * r.stride ≤ d - r.off := by omega
        have h2 : r.count ≤ (d - r.off) / r.stride := (Nat.le_div_iff_mul_le hl.1.1).mpr h1
        omega
    simp only [findElem, this]
    exact ih hl.2

theorem findReg_blkTB {i d k : Nat} {t : RegDesc} (hi : i < 1) (hd : d < 0x3c) (he : findElem d blkTB.regs = some (t, k)) :
    findReg (0x10000 + i * 0x3c + d) regBlocks = some ⟨i, t, k⟩ := by
  have hl : blkTB.locate (0x10000 + i * 0x3c + d) = some (i, d) := locate_at rfl rfl rfl rfl hi hd
  have : regBlocks = [blkID, blkRC, blkPM] ++ blkTB :: [blkTL, blkEV, blkEG, blkEC, blkJN, blkMB, blkFL, blkFLG, blkRS, blkMIG, blkMI, blkDB, blkSH, blkQD, blkQW, blkBC, blkQG, blkQH, blkSP, blkSOC, blkTI, blkTG, blkAR, blkTRG, blkPG, blkXB, blkPH, blkTM, blkTMG, blkPF, blkPFG, blkCP, blkCHG, blkCL, blkLE, blkCS, blkPAGE] := rfl
  rw [this, findReg_skips _ (lo := 0x10000) (hi := 0x1003c) (by omega) (by omega) (by decide +kernel), findReg_in hl he]

theorem findReg_TB_CTRL  : findReg TB_CTRL regBlocks = some ⟨0, ⟨0x18, 1, 0x4, false, false, false, [⟨3, 3, .RWI, 0, .POR⟩, ⟨2, 2, .WO, 0, .L2⟩, ⟨1, 1, .WO, 0, .L2⟩]⟩, 0⟩ := by
  have he : findElem 0x18 blkTB.regs = some ((⟨0x18, 1, 0x4, false, false, false, [⟨3, 3, .RWI, 0, .POR⟩, ⟨2, 2, .WO, 0, .L2⟩, ⟨1, 1, .WO, 0, .L2⟩]⟩ : RegDesc), 0) := by rfl
  have h := findReg_blkTB (i := 0) (d := 0x18) (by omega) (by omega) he
  have e : TB_CTRL = 0x10000 + 0 * 0x3c + 0x18 := by simp only [TB_CTRL]
  rw [e]; exact h

theorem regCmd_TB_CTRL {s : State} {p : Port} {v : Word}  (h : s.admits p TB_CTRL v = true) :
    regCmd p TB_CTRL v s = .next (s.after p TB_CTRL v (fun u => u.tbCtrlWrite (if (s.master p).lvl = 3 then some (vbit (s.word p TB_CTRL v) 3) else none) (vbit (s.word p TB_CTRL v) 2) (vbit (s.word p TB_CTRL v) 1))) := by
  rw [regCmd_admits _ (findReg_TB_CTRL ) h]
  have hw := word_of (p := p) (v := v) (s := s) (findReg_TB_CTRL )
  have hq : ∀ u : State, u.clearsMark TB_CTRL 15 = false := fun u => clearsMark_out (by simp only [TB_CTRL]; omega)
  have hwo : woBits ⟨0x18, 1, 0x4, false, false, false, [⟨3, 3, .RWI, 0, .POR⟩, ⟨2, 2, .WO, 0, .L2⟩, ⟨1, 1, .WO, 0, .L2⟩]⟩ = 0x6#32 := by decide
  have key : ∀ u : State, s.wrote u p TB_CTRL ⟨0, ⟨0x18, 1, 0x4, false, false, false, [⟨3, 3, .RWI, 0, .POR⟩, ⟨2, 2, .WO, 0, .L2⟩, ⟨1, 1, .WO, 0, .L2⟩]⟩, 0⟩ v = u.tbCtrlWrite (if (s.master p).lvl = 3 then some (vbit (s.word p TB_CTRL v) 3) else none) (vbit (s.word p TB_CTRL v) 2) (vbit (s.word p TB_CTRL v) 1) := by
    intro u
    simp only [State.wrote, hq, Bool.false_eq_true, if_false, hw, hwo]
    refine (regEffect_tb (by simp only [TB_CTRL]; omega) (by simp only [TB_CTRL]; omega)).trans ?_
    simp []
  simp only [key]

theorem findReg_blkLE {i d k : Nat} {t : RegDesc} (hi : i < 72) (hd : d < 0x2000) (he : findElem d blkLE.regs = some (t, k)) :
    findReg (0x410000 + i / 9 * 0x80000 + i % 9 * 0x4000 + d) regBlocks = some ⟨i, t, k⟩ := by
  have hl : blkLE.locate (0x410000 + i / 9 * 0x80000 + i % 9 * 0x4000 + d) = some (i, d) :=
    locate_grp rfl rfl rfl rfl hi (by omega) rfl
  have hm : blkCL.locate (0x410000 + i / 9 * 0x80000 + i % 9 * 0x4000 + d)
      = some (i / 9, 0x10000 + i % 9 * 0x4000 + d) := by
    have h := locate_at (b := blkCL) (base := 0x400000) (count := 8) (stride := 0x80000) (i := i / 9) (d := 0x10000 + i % 9 * 0x4000 + d) rfl rfl rfl rfl (by omega) (by omega)
    have e : 0x410000 + i / 9 * 0x80000 + i % 9 * 0x4000 + d = 0x400000 + i / 9 * 0x80000 + (0x10000 + i % 9 * 0x4000 + d) := by omega
    rw [e]; exact h
  have : regBlocks = [blkID, blkRC, blkPM, blkTB, blkTL, blkEV, blkEG, blkEC, blkJN, blkMB, blkFL, blkFLG, blkRS, blkMIG, blkMI, blkDB, blkSH, blkQD, blkQW, blkBC, blkQG, blkQH, blkSP, blkSOC, blkTI, blkTG, blkAR, blkTRG, blkPG, blkXB, blkPH, blkTM, blkTMG, blkPF, blkPFG, blkCP, blkCHG] ++ blkCL :: [blkLE, blkCS, blkPAGE] := rfl
  rw [this, findReg_skips _ (lo := 0x400000) (hi := 0x800000) (by omega) (by omega) (by decide +kernel),
    findReg_miss hm (findElem_above _ 0x10000 (by omega) (by decide +kernel)), findReg_in hl he]

theorem findReg_LE_CTRL (i0 : Fin 72) : findReg (LE_CTRL i0) regBlocks = some ⟨i0.val, ⟨0x4, 1, 0x4, false, false, false, [⟨0, 0, .RWI, 0, .L1⟩]⟩, 0⟩ := by
  have hb0 := i0.isLt
  have he : findElem 0x4 blkLE.regs = some ((⟨0x4, 1, 0x4, false, false, false, [⟨0, 0, .RWI, 0, .L1⟩]⟩ : RegDesc), 0) := by rfl
  have h := findReg_blkLE (i := i0.val) (d := 0x4) hb0 (by omega) he
  have e : (LE_CTRL i0) = 0x410000 + i0.val / 9 * 0x80000 + i0.val % 9 * 0x4000 + 0x4 := by simp only [LE_CTRL]; omega
  rw [e]; exact h

theorem regCmd_LE_CTRL {s : State} {p : Port} {v : Word} (i0 : Fin 72) (h : s.admits p (LE_CTRL i0) v = true) :
    regCmd p (LE_CTRL i0) v s = .next (s.after p (LE_CTRL i0) v (fun u => u.leCtrlWrite i0 (s.word p (LE_CTRL i0) v))) := by
  have hb0 := i0.isLt
  rw [regCmd_admits _ (findReg_LE_CTRL i0) h]
  have hw := word_of (p := p) (v := v) (s := s) (findReg_LE_CTRL i0)
  have hq : ∀ u : State, u.clearsMark (LE_CTRL i0) 15 = false := fun u => clearsMark_out (by simp only [LE_CTRL]; omega)
  have hwo : woBits ⟨0x4, 1, 0x4, false, false, false, [⟨0, 0, .RWI, 0, .L1⟩]⟩ = 0x0#32 := by decide
  have key : ∀ u : State, s.wrote u p (LE_CTRL i0) ⟨i0.val, ⟨0x4, 1, 0x4, false, false, false, [⟨0, 0, .RWI, 0, .L1⟩]⟩, 0⟩ v = u.leCtrlWrite i0 (s.word p (LE_CTRL i0) v) := by
    intro u
    simp only [State.wrote, hq, Bool.false_eq_true, if_false, hw, hwo]
    refine (regEffect_le (by simp only [LE_CTRL]; omega) (by simp only [LE_CTRL]; omega) (by simp only [LE_CTRL]; omega) (by simp only [LE_CTRL]; omega)).trans ?_
    simp [State.leWrite]
  simp only [key]

theorem findReg_LE_CMD (i0 : Fin 72) : findReg (LE_CMD i0) regBlocks = some ⟨i0.val, ⟨0xC, 1, 0x4, true, false, false, [⟨7, 4, .WO, 0, .L2⟩, ⟨2, 0, .WO, 0, .L2⟩]⟩, 0⟩ := by
  have hb0 := i0.isLt
  have he : findElem 0xc blkLE.regs = some ((⟨0xC, 1, 0x4, true, false, false, [⟨7, 4, .WO, 0, .L2⟩, ⟨2, 0, .WO, 0, .L2⟩]⟩ : RegDesc), 0) := by rfl
  have h := findReg_blkLE (i := i0.val) (d := 0xc) hb0 (by omega) he
  have e : (LE_CMD i0) = 0x410000 + i0.val / 9 * 0x80000 + i0.val % 9 * 0x4000 + 0xc := by simp only [LE_CMD]; omega
  rw [e]; exact h

theorem regCmd_LE_CMD {s : State} {p : Port} {v : Word} (i0 : Fin 72) (h : s.admits p (LE_CMD i0) v = true) :
    regCmd p (LE_CMD i0) v s = .next (s.after p (LE_CMD i0) v (fun u => u.leCmd i0 (vfld (s.word p (LE_CMD i0) v) 4 4) (vfld (s.word p (LE_CMD i0) v) 0 3))) := by
  have hb0 := i0.isLt
  rw [regCmd_admits _ (findReg_LE_CMD i0) h]
  have hw := word_of (p := p) (v := v) (s := s) (findReg_LE_CMD i0)
  have hq : ∀ u : State, u.clearsMark (LE_CMD i0) 15 = false := fun u => clearsMark_out (by simp only [LE_CMD]; omega)
  have hwo : woBits ⟨0xC, 1, 0x4, true, false, false, [⟨7, 4, .WO, 0, .L2⟩, ⟨2, 0, .WO, 0, .L2⟩]⟩ = 0xf7#32 := by decide
  have key : ∀ u : State, s.wrote u p (LE_CMD i0) ⟨i0.val, ⟨0xC, 1, 0x4, true, false, false, [⟨7, 4, .WO, 0, .L2⟩, ⟨2, 0, .WO, 0, .L2⟩]⟩, 0⟩ v = u.leCmd i0 (vfld (s.word p (LE_CMD i0) v) 4 4) (vfld (s.word p (LE_CMD i0) v) 0 3) := by
    intro u
    simp only [State.wrote, hq, Bool.false_eq_true, if_false, hw, hwo]
    refine (regEffect_le (by simp only [LE_CMD]; omega) (by simp only [LE_CMD]; omega) (by simp only [LE_CMD]; omega) (by simp only [LE_CMD]; omega)).trans ?_
    simp [State.leWrite]
  simp only [key]

theorem findReg_LE_TASK_CFG (i0 : Fin 72) (i1 : Fin 8) : findReg (LE_TASK_CFG i0 i1) regBlocks = some ⟨i0.val, ⟨0x100, 8, 0x20, false, false, false, [⟨19, 8, .RW, 0, .L2⟩, ⟨6, 6, .RW, 0, .L2⟩, ⟨5, 4, .RW, 0, .L2⟩, ⟨2, 1, .RW, 0, .L2⟩, ⟨0, 0, .RW, 0, .L1⟩]⟩, i1.val⟩ := by
  have hb0 := i0.isLt
  have hb1 := i1.isLt
  have he : findElem (0x100 + i1.val * 0x20) blkLE.regs = some ((⟨0x100, 8, 0x20, false, false, false, [⟨19, 8, .RW, 0, .L2⟩, ⟨6, 6, .RW, 0, .L2⟩, ⟨5, 4, .RW, 0, .L2⟩, ⟨2, 1, .RW, 0, .L2⟩, ⟨0, 0, .RW, 0, .L1⟩]⟩ : RegDesc), i1.val) := (by decide +kernel : ∀ j : Fin 8, findElem (0x100 + j.val * 0x20) blkLE.regs = some ((⟨0x100, 8, 0x20, false, false, false, [⟨19, 8, .RW, 0, .L2⟩, ⟨6, 6, .RW, 0, .L2⟩, ⟨5, 4, .RW, 0, .L2⟩, ⟨2, 1, .RW, 0, .L2⟩, ⟨0, 0, .RW, 0, .L1⟩]⟩ : RegDesc), j.val)) i1
  have h := findReg_blkLE (i := i0.val) (d := (0x100 + i1.val * 0x20)) hb0 (by omega) he
  have e : (LE_TASK_CFG i0 i1) = 0x410000 + i0.val / 9 * 0x80000 + i0.val % 9 * 0x4000 + (0x100 + i1.val * 0x20) := by simp only [LE_TASK_CFG]; omega
  rw [e]; exact h

theorem regCmd_LE_TASK_CFG {s : State} {p : Port} {v : Word} (i0 : Fin 72) (i1 : Fin 8) (h : s.admits p (LE_TASK_CFG i0 i1) v = true) :
    regCmd p (LE_TASK_CFG i0 i1) v s = .next (s.after p (LE_TASK_CFG i0 i1) v (fun u => u.taskCfgWrite i0 i1 (s.word p (LE_TASK_CFG i0 i1) v))) := by
  have hb0 := i0.isLt
  have hb1 := i1.isLt
  rw [regCmd_admits _ (findReg_LE_TASK_CFG i0 i1) h]
  have hw := word_of (p := p) (v := v) (s := s) (findReg_LE_TASK_CFG i0 i1)
  have hq : ∀ u : State, u.clearsMark (LE_TASK_CFG i0 i1) 15 = false := fun u => clearsMark_out (by simp only [LE_TASK_CFG]; omega)
  have hwo : woBits ⟨0x100, 8, 0x20, false, false, false, [⟨19, 8, .RW, 0, .L2⟩, ⟨6, 6, .RW, 0, .L2⟩, ⟨5, 4, .RW, 0, .L2⟩, ⟨2, 1, .RW, 0, .L2⟩, ⟨0, 0, .RW, 0, .L1⟩]⟩ = 0x0#32 := by decide
  have key : ∀ u : State, s.wrote u p (LE_TASK_CFG i0 i1) ⟨i0.val, ⟨0x100, 8, 0x20, false, false, false, [⟨19, 8, .RW, 0, .L2⟩, ⟨6, 6, .RW, 0, .L2⟩, ⟨5, 4, .RW, 0, .L2⟩, ⟨2, 1, .RW, 0, .L2⟩, ⟨0, 0, .RW, 0, .L1⟩]⟩, i1.val⟩ v = u.taskCfgWrite i0 i1 (s.word p (LE_TASK_CFG i0 i1) v) := by
    intro u
    simp only [State.wrote, hq, Bool.false_eq_true, if_false, hw, hwo]
    refine (regEffect_le (by simp only [LE_TASK_CFG]; omega) (by simp only [LE_TASK_CFG]; omega) (by simp only [LE_TASK_CFG]; omega) (by simp only [LE_TASK_CFG]; omega)).trans ?_
    simp [State.leWrite]
  simp only [key]

theorem findReg_LE_TASK_TIME_LO (i0 : Fin 72) (i1 : Fin 8) : findReg (LE_TASK_TIME_LO i0 i1) regBlocks = some ⟨i0.val, ⟨0x110, 8, 0x20, false, false, false, [⟨31, 0, .RW, 0, .L2⟩]⟩, i1.val⟩ := by
  have hb0 := i0.isLt
  have hb1 := i1.isLt
  have he : findElem (0x110 + i1.val * 0x20) blkLE.regs = some ((⟨0x110, 8, 0x20, false, false, false, [⟨31, 0, .RW, 0, .L2⟩]⟩ : RegDesc), i1.val) := (by decide +kernel : ∀ j : Fin 8, findElem (0x110 + j.val * 0x20) blkLE.regs = some ((⟨0x110, 8, 0x20, false, false, false, [⟨31, 0, .RW, 0, .L2⟩]⟩ : RegDesc), j.val)) i1
  have h := findReg_blkLE (i := i0.val) (d := (0x110 + i1.val * 0x20)) hb0 (by omega) he
  have e : (LE_TASK_TIME_LO i0 i1) = 0x410000 + i0.val / 9 * 0x80000 + i0.val % 9 * 0x4000 + (0x110 + i1.val * 0x20) := by simp only [LE_TASK_TIME_LO]; omega
  rw [e]; exact h

theorem regCmd_LE_TASK_TIME_LO {s : State} {p : Port} {v : Word} (i0 : Fin 72) (i1 : Fin 8) (h : s.admits p (LE_TASK_TIME_LO i0 i1) v = true) :
    regCmd p (LE_TASK_TIME_LO i0 i1) v s = .next (s.after p (LE_TASK_TIME_LO i0 i1) v (fun u => u.taskTimeWrite i0 i1 (LE_TASK_TIME_LO i0 i1) (s.word p (LE_TASK_TIME_LO i0 i1) v))) := by
  have hb0 := i0.isLt
  have hb1 := i1.isLt
  rw [regCmd_admits _ (findReg_LE_TASK_TIME_LO i0 i1) h]
  have hw := word_of (p := p) (v := v) (s := s) (findReg_LE_TASK_TIME_LO i0 i1)
  have hq : ∀ u : State, u.clearsMark (LE_TASK_TIME_LO i0 i1) 15 = false := fun u => clearsMark_out (by simp only [LE_TASK_TIME_LO]; omega)
  have hwo : woBits ⟨0x110, 8, 0x20, false, false, false, [⟨31, 0, .RW, 0, .L2⟩]⟩ = 0x0#32 := by decide
  have key : ∀ u : State, s.wrote u p (LE_TASK_TIME_LO i0 i1) ⟨i0.val, ⟨0x110, 8, 0x20, false, false, false, [⟨31, 0, .RW, 0, .L2⟩]⟩, i1.val⟩ v = u.taskTimeWrite i0 i1 (LE_TASK_TIME_LO i0 i1) (s.word p (LE_TASK_TIME_LO i0 i1) v) := by
    intro u
    simp only [State.wrote, hq, Bool.false_eq_true, if_false, hw, hwo]
    refine (regEffect_le (by simp only [LE_TASK_TIME_LO]; omega) (by simp only [LE_TASK_TIME_LO]; omega) (by simp only [LE_TASK_TIME_LO]; omega) (by simp only [LE_TASK_TIME_LO]; omega)).trans ?_
    simp [State.leWrite]
  simp only [key]

theorem findReg_LE_TASK_TIME_HI (i0 : Fin 72) (i1 : Fin 8) : findReg (LE_TASK_TIME_HI i0 i1) regBlocks = some ⟨i0.val, ⟨0x114, 8, 0x20, false, false, false, [⟨31, 0, .RW, 0, .L2⟩]⟩, i1.val⟩ := by
  have hb0 := i0.isLt
  have hb1 := i1.isLt
  have he : findElem (0x114 + i1.val * 0x20) blkLE.regs = some ((⟨0x114, 8, 0x20, false, false, false, [⟨31, 0, .RW, 0, .L2⟩]⟩ : RegDesc), i1.val) := (by decide +kernel : ∀ j : Fin 8, findElem (0x114 + j.val * 0x20) blkLE.regs = some ((⟨0x114, 8, 0x20, false, false, false, [⟨31, 0, .RW, 0, .L2⟩]⟩ : RegDesc), j.val)) i1
  have h := findReg_blkLE (i := i0.val) (d := (0x114 + i1.val * 0x20)) hb0 (by omega) he
  have e : (LE_TASK_TIME_HI i0 i1) = 0x410000 + i0.val / 9 * 0x80000 + i0.val % 9 * 0x4000 + (0x114 + i1.val * 0x20) := by simp only [LE_TASK_TIME_HI]; omega
  rw [e]; exact h

theorem regCmd_LE_TASK_TIME_HI {s : State} {p : Port} {v : Word} (i0 : Fin 72) (i1 : Fin 8) (h : s.admits p (LE_TASK_TIME_HI i0 i1) v = true) :
    regCmd p (LE_TASK_TIME_HI i0 i1) v s = .next (s.after p (LE_TASK_TIME_HI i0 i1) v (fun u => u.taskTimeWrite i0 i1 (LE_TASK_TIME_HI i0 i1) (s.word p (LE_TASK_TIME_HI i0 i1) v))) := by
  have hb0 := i0.isLt
  have hb1 := i1.isLt
  rw [regCmd_admits _ (findReg_LE_TASK_TIME_HI i0 i1) h]
  have hw := word_of (p := p) (v := v) (s := s) (findReg_LE_TASK_TIME_HI i0 i1)
  have hq : ∀ u : State, u.clearsMark (LE_TASK_TIME_HI i0 i1) 15 = false := fun u => clearsMark_out (by simp only [LE_TASK_TIME_HI]; omega)
  have hwo : woBits ⟨0x114, 8, 0x20, false, false, false, [⟨31, 0, .RW, 0, .L2⟩]⟩ = 0x0#32 := by decide
  have key : ∀ u : State, s.wrote u p (LE_TASK_TIME_HI i0 i1) ⟨i0.val, ⟨0x114, 8, 0x20, false, false, false, [⟨31, 0, .RW, 0, .L2⟩]⟩, i1.val⟩ v = u.taskTimeWrite i0 i1 (LE_TASK_TIME_HI i0 i1) (s.word p (LE_TASK_TIME_HI i0 i1) v) := by
    intro u
    simp only [State.wrote, hq, Bool.false_eq_true, if_false, hw, hwo]
    refine (regEffect_le (by simp only [LE_TASK_TIME_HI]; omega) (by simp only [LE_TASK_TIME_HI]; omega) (by simp only [LE_TASK_TIME_HI]; omega) (by simp only [LE_TASK_TIME_HI]; omega)).trans ?_
    simp [State.leWrite]
  simp only [key]

theorem findReg_blkCS {i d k : Nat} {t : RegDesc} (hi : i < 72) (hd : d < 0x2000) (he : findElem d blkCS.regs = some (t, k)) :
    findReg (0x412000 + i / 9 * 0x80000 + i % 9 * 0x4000 + d) regBlocks = some ⟨i, t, k⟩ := by
  have hl : blkCS.locate (0x412000 + i / 9 * 0x80000 + i % 9 * 0x4000 + d) = some (i, d) :=
    locate_grp rfl rfl rfl rfl hi (by omega) rfl
  have hm : blkCL.locate (0x412000 + i / 9 * 0x80000 + i % 9 * 0x4000 + d)
      = some (i / 9, 0x12000 + i % 9 * 0x4000 + d) := by
    have h := locate_at (b := blkCL) (base := 0x400000) (count := 8) (stride := 0x80000) (i := i / 9) (d := 0x12000 + i % 9 * 0x4000 + d) rfl rfl rfl rfl (by omega) (by omega)
    have e : 0x412000 + i / 9 * 0x80000 + i % 9 * 0x4000 + d = 0x400000 + i / 9 * 0x80000 + (0x12000 + i % 9 * 0x4000 + d) := by omega
    rw [e]; exact h
  have hm2 : blkLE.locate (0x412000 + i / 9 * 0x80000 + i % 9 * 0x4000 + d) = some (i, 0x2000 + d) :=
    locate_grp rfl rfl rfl rfl hi (by omega) (by simp only [show blkLE.base = 0x410000 from rfl]; omega)
  have : regBlocks = [blkID, blkRC, blkPM, blkTB, blkTL, blkEV, blkEG, blkEC, blkJN, blkMB, blkFL, blkFLG, blkRS, blkMIG, blkMI, blkDB, blkSH, blkQD, blkQW, blkBC, blkQG, blkQH, blkSP, blkSOC, blkTI, blkTG, blkAR, blkTRG, blkPG, blkXB, blkPH, blkTM, blkTMG, blkPF, blkPFG, blkCP, blkCHG] ++ blkCL :: [blkLE, blkCS, blkPAGE] := rfl
  rw [this, findReg_skips _ (lo := 0x400000) (hi := 0x800000) (by omega) (by omega) (by decide +kernel),
    findReg_miss hm (findElem_above _ 0x10000 (by omega) (by decide +kernel)),
    findReg_miss hm2 (findElem_above _ 0x2000 (by omega) (by decide +kernel)), findReg_in hl he]

theorem findReg_CS_WADDR (i0 : Fin 72) : findReg (CS_WADDR i0) regBlocks = some ⟨i0.val, ⟨0x10, 1, 0x4, true, false, false, [⟨31, 31, .WO, 0, .L2⟩, ⟨16, 16, .RW, 1, .L2⟩, ⟨12, 0, .RW, 0, .L2⟩]⟩, 0⟩ := by
  have hb0 := i0.isLt
  have he : findElem 0x10 blkCS.regs = some ((⟨0x10, 1, 0x4, true, false, false, [⟨31, 31, .WO, 0, .L2⟩, ⟨16, 16, .RW, 1, .L2⟩, ⟨12, 0, .RW, 0, .L2⟩]⟩ : RegDesc), 0) := by rfl
  have h := findReg_blkCS (i := i0.val) (d := 0x10) hb0 (by omega) he
  have e : (CS_WADDR i0) = 0x412000 + i0.val / 9 * 0x80000 + i0.val % 9 * 0x4000 + 0x10 := by simp only [CS_WADDR]; omega
  rw [e]; exact h

theorem regCmd_CS_WADDR {s : State} {p : Port} {v : Word} (i0 : Fin 72) (h : s.admits p (CS_WADDR i0) v = true) :
    regCmd p (CS_WADDR i0) v s = .next (s.after p (CS_WADDR i0) v (fun u => u.csWaddrWrite i0 (s.word p (CS_WADDR i0) v))) := by
  have hb0 := i0.isLt
  rw [regCmd_admits _ (findReg_CS_WADDR i0) h]
  have hw := word_of (p := p) (v := v) (s := s) (findReg_CS_WADDR i0)
  have hq : ∀ u : State, u.clearsMark (CS_WADDR i0) 15 = false := fun u => clearsMark_out (by simp only [CS_WADDR]; omega)
  have hwo : woBits ⟨0x10, 1, 0x4, true, false, false, [⟨31, 31, .WO, 0, .L2⟩, ⟨16, 16, .RW, 1, .L2⟩, ⟨12, 0, .RW, 0, .L2⟩]⟩ = 0x80000000#32 := by decide
  have key : ∀ u : State, s.wrote u p (CS_WADDR i0) ⟨i0.val, ⟨0x10, 1, 0x4, true, false, false, [⟨31, 31, .WO, 0, .L2⟩, ⟨16, 16, .RW, 1, .L2⟩, ⟨12, 0, .RW, 0, .L2⟩]⟩, 0⟩ v = u.csWaddrWrite i0 (s.word p (CS_WADDR i0) v) := by
    intro u
    simp only [State.wrote, hq, Bool.false_eq_true, if_false, hw, hwo]
    refine (regEffect_cs (by simp only [CS_WADDR]; omega) (by simp only [CS_WADDR]; omega) (by simp only [CS_WADDR]; omega) (by simp only [CS_WADDR]; omega)).trans ?_
    simp [State.csRegWrite]
  simp only [key]

theorem findReg_CS_RADDR (i0 : Fin 72) : findReg (CS_RADDR i0) regBlocks = some ⟨i0.val, ⟨0x40, 1, 0x4, true, false, false, [⟨31, 31, .WO, 0, .L2⟩, ⟨12, 0, .RW, 0, .L2⟩]⟩, 0⟩ := by
  have hb0 := i0.isLt
  have he : findElem 0x40 blkCS.regs = some ((⟨0x40, 1, 0x4, true, false, false, [⟨31, 31, .WO, 0, .L2⟩, ⟨12, 0, .RW, 0, .L2⟩]⟩ : RegDesc), 0) := by rfl
  have h := findReg_blkCS (i := i0.val) (d := 0x40) hb0 (by omega) he
  have e : (CS_RADDR i0) = 0x412000 + i0.val / 9 * 0x80000 + i0.val % 9 * 0x4000 + 0x40 := by simp only [CS_RADDR]; omega
  rw [e]; exact h

theorem regCmd_CS_RADDR {s : State} {p : Port} {v : Word} (i0 : Fin 72) (h : s.admits p (CS_RADDR i0) v = true) :
    regCmd p (CS_RADDR i0) v s = .next (s.after p (CS_RADDR i0) v (fun u => u.csRaddrWrite i0 (s.word p (CS_RADDR i0) v))) := by
  have hb0 := i0.isLt
  rw [regCmd_admits _ (findReg_CS_RADDR i0) h]
  have hw := word_of (p := p) (v := v) (s := s) (findReg_CS_RADDR i0)
  have hq : ∀ u : State, u.clearsMark (CS_RADDR i0) 15 = false := fun u => clearsMark_out (by simp only [CS_RADDR]; omega)
  have hwo : woBits ⟨0x40, 1, 0x4, true, false, false, [⟨31, 31, .WO, 0, .L2⟩, ⟨12, 0, .RW, 0, .L2⟩]⟩ = 0x80000000#32 := by decide
  have key : ∀ u : State, s.wrote u p (CS_RADDR i0) ⟨i0.val, ⟨0x40, 1, 0x4, true, false, false, [⟨31, 31, .WO, 0, .L2⟩, ⟨12, 0, .RW, 0, .L2⟩]⟩, 0⟩ v = u.csRaddrWrite i0 (s.word p (CS_RADDR i0) v) := by
    intro u
    simp only [State.wrote, hq, Bool.false_eq_true, if_false, hw, hwo]
    refine (regEffect_cs (by simp only [CS_RADDR]; omega) (by simp only [CS_RADDR]; omega) (by simp only [CS_RADDR]; omega) (by simp only [CS_RADDR]; omega)).trans ?_
    simp [State.csRegWrite]
  simp only [key]

theorem findReg_blkSOC {i d k : Nat} {t : RegDesc} (hi : i < 1) (hd : d < 0x600) (he : findElem d blkSOC.regs = some (t, k)) :
    findReg (0x208000 + i * 0x600 + d) regBlocks = some ⟨i, t, k⟩ := by
  have hl : blkSOC.locate (0x208000 + i * 0x600 + d) = some (i, d) := locate_at rfl rfl rfl rfl hi hd
  have : regBlocks = [blkID, blkRC, blkPM, blkTB, blkTL, blkEV, blkEG, blkEC, blkJN, blkMB, blkFL, blkFLG, blkRS, blkMIG, blkMI, blkDB, blkSH, blkQD, blkQW, blkBC, blkQG, blkQH, blkSP] ++ blkSOC :: [blkTI, blkTG, blkAR, blkTRG, blkPG, blkXB, blkPH, blkTM, blkTMG, blkPF, blkPFG, blkCP, blkCHG, blkCL, blkLE, blkCS, blkPAGE] := rfl
  rw [this, findReg_skips _ (lo := 0x208000) (hi := 0x208600) (by omega) (by omega) (by decide +kernel), findReg_in hl he]

theorem findReg_SI_SOC_FIRE  : findReg SI_SOC_FIRE regBlocks = some ⟨0, ⟨0x400, 1, 0x4, true, false, false, [⟨5, 0, .WO, 0, .L2⟩]⟩, 0⟩ := by
  have he : findElem 0x400 blkSOC.regs = some ((⟨0x400, 1, 0x4, true, false, false, [⟨5, 0, .WO, 0, .L2⟩]⟩ : RegDesc), 0) := by rfl
  have h := findReg_blkSOC (i := 0) (d := 0x400) (by omega) (by omega) he
  have e : SI_SOC_FIRE = 0x208000 + 0 * 0x600 + 0x400 := by simp only [SI_SOC_FIRE]
  rw [e]; exact h

theorem regCmd_SI_SOC_FIRE {s : State} {p : Port} {v : Word}  (h : s.admits p SI_SOC_FIRE v = true) :
    regCmd p SI_SOC_FIRE v s = .next (s.after p SI_SOC_FIRE v (fun u => u.socSoftware (vfld (s.word p SI_SOC_FIRE v) 0 6))) := by
  rw [regCmd_admits _ (findReg_SI_SOC_FIRE ) h]
  have hw := word_of (p := p) (v := v) (s := s) (findReg_SI_SOC_FIRE )
  have hq : ∀ u : State, u.clearsMark SI_SOC_FIRE 15 = false := fun u => clearsMark_out (by simp only [SI_SOC_FIRE]; omega)
  have hwo : woBits ⟨0x400, 1, 0x4, true, false, false, [⟨5, 0, .WO, 0, .L2⟩]⟩ = 0x3f#32 := by decide
  have key : ∀ u : State, s.wrote u p SI_SOC_FIRE ⟨0, ⟨0x400, 1, 0x4, true, false, false, [⟨5, 0, .WO, 0, .L2⟩]⟩, 0⟩ v = u.socSoftware (vfld (s.word p SI_SOC_FIRE v) 0 6) := by
    intro u
    simp only [State.wrote, hq, Bool.false_eq_true, if_false, hw, hwo]
    refine (regEffect_soc (by simp only [SI_SOC_FIRE]; omega) (by simp only [SI_SOC_FIRE]; omega)).trans ?_
    simp []
  simp only [key]

theorem findReg_blkTRG {i d k : Nat} {t : RegDesc} (hi : i < 1) (hd : d < 0xc) (he : findElem d blkTRG.regs = some (t, k)) :
    findReg (0x218000 + i * 0xc + d) regBlocks = some ⟨i, t, k⟩ := by
  have hl : blkTRG.locate (0x218000 + i * 0xc + d) = some (i, d) := locate_at rfl rfl rfl rfl hi hd
  have : regBlocks = [blkID, blkRC, blkPM, blkTB, blkTL, blkEV, blkEG, blkEC, blkJN, blkMB, blkFL, blkFLG, blkRS, blkMIG, blkMI, blkDB, blkSH, blkQD, blkQW, blkBC, blkQG, blkQH, blkSP, blkSOC, blkTI, blkTG, blkAR] ++ blkTRG :: [blkPG, blkXB, blkPH, blkTM, blkTMG, blkPF, blkPFG, blkCP, blkCHG, blkCL, blkLE, blkCS, blkPAGE] := rfl
  rw [this, findReg_skips _ (lo := 0x218000) (hi := 0x21800c) (by omega) (by omega) (by decide +kernel), findReg_in hl he]

theorem findReg_TR_ARM  : findReg TR_ARM regBlocks = some ⟨0, ⟨0x0, 1, 0x4, true, false, false, [⟨31, 24, .WO, 0, .L2⟩, ⟨20, 16, .WO, 0, .L2⟩, ⟨2, 0, .WO, 0, .L2⟩]⟩, 0⟩ := by
  have he : findElem 0x0 blkTRG.regs = some ((⟨0x0, 1, 0x4, true, false, false, [⟨31, 24, .WO, 0, .L2⟩, ⟨20, 16, .WO, 0, .L2⟩, ⟨2, 0, .WO, 0, .L2⟩]⟩ : RegDesc), 0) := by rfl
  have h := findReg_blkTRG (i := 0) (d := 0x0) (by omega) (by omega) he
  have e : TR_ARM = 0x218000 + 0 * 0xc + 0x0 := by simp only [TR_ARM]
  rw [e]; exact h

theorem regCmd_TR_ARM {s : State} {p : Port} {v : Word}  (h : s.admits p TR_ARM v = true) :
    regCmd p TR_ARM v s = .next (s.after p TR_ARM v (fun u => u.trArm (vfld (s.word p TR_ARM v) 0 3) (vfld (s.word p TR_ARM v) 16 5) (vfld (s.word p TR_ARM v) 24 8) ((s.master p).who == 1))) := by
  rw [regCmd_admits _ (findReg_TR_ARM ) h]
  have hw := word_of (p := p) (v := v) (s := s) (findReg_TR_ARM )
  have hq : ∀ u : State, u.clearsMark TR_ARM 15 = false := fun u => clearsMark_out (by simp only [TR_ARM]; omega)
  have hwo : woBits ⟨0x0, 1, 0x4, true, false, false, [⟨31, 24, .WO, 0, .L2⟩, ⟨20, 16, .WO, 0, .L2⟩, ⟨2, 0, .WO, 0, .L2⟩]⟩ = 0xff1f0007#32 := by decide
  have key : ∀ u : State, s.wrote u p TR_ARM ⟨0, ⟨0x0, 1, 0x4, true, false, false, [⟨31, 24, .WO, 0, .L2⟩, ⟨20, 16, .WO, 0, .L2⟩, ⟨2, 0, .WO, 0, .L2⟩]⟩, 0⟩ v = u.trArm (vfld (s.word p TR_ARM v) 0 3) (vfld (s.word p TR_ARM v) 16 5) (vfld (s.word p TR_ARM v) 24 8) ((s.master p).who == 1) := by
    intro u
    simp only [State.wrote, hq, Bool.false_eq_true, if_false, hw, hwo]
    refine (regEffect_trg (by simp only [TR_ARM]; omega) (by simp only [TR_ARM]; omega)).trans ?_
    simp [State.trgWrite]
  simp only [key]

theorem findReg_blkTI {i d k : Nat} {t : RegDesc} (hi : i < 64) (hd : d < 0x40) (he : findElem d blkTI.regs = some (t, k)) :
    findReg (0x210000 + i * 0x40 + d) regBlocks = some ⟨i, t, k⟩ := by
  have hl : blkTI.locate (0x210000 + i * 0x40 + d) = some (i, d) := locate_at rfl rfl rfl rfl hi hd
  have : regBlocks = [blkID, blkRC, blkPM, blkTB, blkTL, blkEV, blkEG, blkEC, blkJN, blkMB, blkFL, blkFLG, blkRS, blkMIG, blkMI, blkDB, blkSH, blkQD, blkQW, blkBC, blkQG, blkQH, blkSP, blkSOC] ++ blkTI :: [blkTG, blkAR, blkTRG, blkPG, blkXB, blkPH, blkTM, blkTMG, blkPF, blkPFG, blkCP, blkCHG, blkCL, blkLE, blkCS, blkPAGE] := rfl
  rw [this, findReg_skips _ (lo := 0x210000) (hi := 0x211000) (by omega) (by omega) (by decide +kernel), findReg_in hl he]

theorem findReg_TR_INJ (i0 : Fin 64) : findReg (TR_INJ i0) regBlocks = some ⟨i0.val, ⟨0x18, 1, 0x4, false, false, false, [⟨31, 31, .WO, 0, .L2⟩, ⟨7, 0, .RWI, 0, .L2⟩]⟩, 0⟩ := by
  have hb0 := i0.isLt
  have he : findElem 0x18 blkTI.regs = some ((⟨0x18, 1, 0x4, false, false, false, [⟨31, 31, .WO, 0, .L2⟩, ⟨7, 0, .RWI, 0, .L2⟩]⟩ : RegDesc), 0) := by rfl
  have h := findReg_blkTI (i := i0.val) (d := 0x18) hb0 (by omega) he
  have e : (TR_INJ i0) = 0x210000 + i0.val * 0x40 + 0x18 := by simp only [TR_INJ]; omega
  rw [e]; exact h

theorem regCmd_TR_INJ {s : State} {p : Port} {v : Word} (i0 : Fin 64) (h : s.admits p (TR_INJ i0) v = true) :
    regCmd p (TR_INJ i0) v s = .next (s.after p (TR_INJ i0) v (fun u => if vbit (s.word p (TR_INJ i0) v) 31 then (u.setReg (TR_INJ i0) ((s.word p (TR_INJ i0) v) &&& ~~~(0x80000000#32))).inject i0 else u.setReg (TR_INJ i0) ((s.word p (TR_INJ i0) v) &&& ~~~(0x80000000#32)))) := by
  have hb0 := i0.isLt
  rw [regCmd_admits _ (findReg_TR_INJ i0) h]
  have hw := word_of (p := p) (v := v) (s := s) (findReg_TR_INJ i0)
  have hq : ∀ u : State, u.clearsMark (TR_INJ i0) 15 = false := fun u => clearsMark_out (by simp only [TR_INJ]; omega)
  have hwo : woBits ⟨0x18, 1, 0x4, false, false, false, [⟨31, 31, .WO, 0, .L2⟩, ⟨7, 0, .RWI, 0, .L2⟩]⟩ = 0x80000000#32 := by decide
  have key : ∀ u : State, s.wrote u p (TR_INJ i0) ⟨i0.val, ⟨0x18, 1, 0x4, false, false, false, [⟨31, 31, .WO, 0, .L2⟩, ⟨7, 0, .RWI, 0, .L2⟩]⟩, 0⟩ v = if vbit (s.word p (TR_INJ i0) v) 31 then (u.setReg (TR_INJ i0) ((s.word p (TR_INJ i0) v) &&& ~~~(0x80000000#32))).inject i0 else u.setReg (TR_INJ i0) ((s.word p (TR_INJ i0) v) &&& ~~~(0x80000000#32)) := by
    intro u
    have hu' : u.arLocked (TR_INJ i0) = false := by
      unfold State.arLocked
      rw [if_neg (by simp only [TR_INJ]; omega), if_neg (by simp only [TR_INJ]; omega), if_neg (by simp only [TR_INJ]; omega)]
    simp only [State.wrote, hq, Bool.false_eq_true, if_false, hw, hwo]
    rw [regEffect_ti (by simp only [TR_INJ]; omega) (by simp only [TR_INJ]; omega) hu']
    simp [State.tiWrite]
  simp only [key]

theorem findReg_TR_STAT (i0 : Fin 64) : findReg (TR_STAT i0) regBlocks = some ⟨i0.val, ⟨0x4, 1, 0x4, false, false, false, [⟨4, 4, .W1C, 0, .L2⟩, ⟨3, 3, .W1C, 0, .L2⟩, ⟨2, 2, .RO, 0, .L2⟩, ⟨1, 1, .RO, 0, .L2⟩, ⟨0, 0, .W1C, 0, .L2⟩]⟩, 0⟩ := by
  have hb0 := i0.isLt
  have he : findElem 0x4 blkTI.regs = some ((⟨0x4, 1, 0x4, false, false, false, [⟨4, 4, .W1C, 0, .L2⟩, ⟨3, 3, .W1C, 0, .L2⟩, ⟨2, 2, .RO, 0, .L2⟩, ⟨1, 1, .RO, 0, .L2⟩, ⟨0, 0, .W1C, 0, .L2⟩]⟩ : RegDesc), 0) := by rfl
  have h := findReg_blkTI (i := i0.val) (d := 0x4) hb0 (by omega) he
  have e : (TR_STAT i0) = 0x210000 + i0.val * 0x40 + 0x4 := by simp only [TR_STAT]; omega
  rw [e]; exact h

theorem regCmd_TR_STAT {s : State} {p : Port} {v : Word} (i0 : Fin 64) (h : s.admits p (TR_STAT i0) v = true) :
    regCmd p (TR_STAT i0) v s = .next (s.after p (TR_STAT i0) v (fun u => if vbit (v &&& beMask 15) 0 then (u.setReg (TR_STAT i0) (BitVec.ofNat 32 (withBits ((s.word p (TR_STAT i0) v) &&& ~~~(0x0#32)).toNat 0 1 (b2n (u.tripLatch i0))))).latchClear i0 else u.setReg (TR_STAT i0) (BitVec.ofNat 32 (withBits ((s.word p (TR_STAT i0) v) &&& ~~~(0x0#32)).toNat 0 1 (b2n (u.tripLatch i0)))))) := by
  have hb0 := i0.isLt
  rw [regCmd_admits _ (findReg_TR_STAT i0) h]
  have hw := word_of (p := p) (v := v) (s := s) (findReg_TR_STAT i0)
  have hq : ∀ u : State, u.clearsMark (TR_STAT i0) 15 = false := fun u => clearsMark_out (by simp only [TR_STAT]; omega)
  have hwo : woBits ⟨0x4, 1, 0x4, false, false, false, [⟨4, 4, .W1C, 0, .L2⟩, ⟨3, 3, .W1C, 0, .L2⟩, ⟨2, 2, .RO, 0, .L2⟩, ⟨1, 1, .RO, 0, .L2⟩, ⟨0, 0, .W1C, 0, .L2⟩]⟩ = 0x0#32 := by decide
  have key : ∀ u : State, s.wrote u p (TR_STAT i0) ⟨i0.val, ⟨0x4, 1, 0x4, false, false, false, [⟨4, 4, .W1C, 0, .L2⟩, ⟨3, 3, .W1C, 0, .L2⟩, ⟨2, 2, .RO, 0, .L2⟩, ⟨1, 1, .RO, 0, .L2⟩, ⟨0, 0, .W1C, 0, .L2⟩]⟩, 0⟩ v = if vbit (v &&& beMask 15) 0 then (u.setReg (TR_STAT i0) (BitVec.ofNat 32 (withBits ((s.word p (TR_STAT i0) v) &&& ~~~(0x0#32)).toNat 0 1 (b2n (u.tripLatch i0))))).latchClear i0 else u.setReg (TR_STAT i0) (BitVec.ofNat 32 (withBits ((s.word p (TR_STAT i0) v) &&& ~~~(0x0#32)).toNat 0 1 (b2n (u.tripLatch i0)))) := by
    intro u
    have hu' : u.arLocked (TR_STAT i0) = false := by
      unfold State.arLocked
      rw [if_neg (by simp only [TR_STAT]; omega), if_neg (by simp only [TR_STAT]; omega), if_neg (by simp only [TR_STAT]; omega)]
    simp only [State.wrote, hq, Bool.false_eq_true, if_false, hw, hwo]
    rw [regEffect_ti (by simp only [TR_STAT]; omega) (by simp only [TR_STAT]; omega) hu']
    simp [State.tiWrite]
  simp only [key]

theorem findReg_blkPG {i d k : Nat} {t : RegDesc} (hi : i < 52) (hd : d < 0x800) (he : findElem d blkPG.regs = some (t, k)) :
    findReg (0x220000 + i * 0x800 + d) regBlocks = some ⟨i, t, k⟩ := by
  have hl : blkPG.locate (0x220000 + i * 0x800 + d) = some (i, d) := locate_at rfl rfl rfl rfl hi hd
  have : regBlocks = [blkID, blkRC, blkPM, blkTB, blkTL, blkEV, blkEG, blkEC, blkJN, blkMB, blkFL, blkFLG, blkRS, blkMIG, blkMI, blkDB, blkSH, blkQD, blkQW, blkBC, blkQG, blkQH, blkSP, blkSOC, blkTI, blkTG, blkAR, blkTRG] ++ blkPG :: [blkXB, blkPH, blkTM, blkTMG, blkPF, blkPFG, blkCP, blkCHG, blkCL, blkLE, blkCS, blkPAGE] := rfl
  rw [this, findReg_skips _ (lo := 0x220000) (hi := 0x23a000) (by omega) (by omega) (by decide +kernel), findReg_in hl he]

theorem findReg_PW_CTRL (i0 : Fin 52) : findReg (PW_CTRL i0) regBlocks = some ⟨i0.val, ⟨0x8, 1, 0x4, false, true, false, [⟨1, 0, .WO, 0, .L2⟩]⟩, 0⟩ := by
  have hb0 := i0.isLt
  have he : findElem 0x8 blkPG.regs = some ((⟨0x8, 1, 0x4, false, true, false, [⟨1, 0, .WO, 0, .L2⟩]⟩ : RegDesc), 0) := by rfl
  have h := findReg_blkPG (i := i0.val) (d := 0x8) hb0 (by omega) he
  have e : (PW_CTRL i0) = 0x220000 + i0.val * 0x800 + 0x8 := by simp only [PW_CTRL]; omega
  rw [e]; exact h

theorem regCmd_PW_CTRL {s : State} {p : Port} {v : Word} (i0 : Fin 52) (h : s.admits p (PW_CTRL i0) v = true) :
    regCmd p (PW_CTRL i0) v s = .next (s.after p (PW_CTRL i0) v (fun u => u.toGen i0 (fun h x => match vfld (s.word p (PW_CTRL i0) v) 0 2 with | 1 => x.genStartCmd h | 2 => x.genStartTime h | 3 => x.genStop h | _ => x))) := by
  have hb0 := i0.isLt
  rw [regCmd_admits _ (findReg_PW_CTRL i0) h]
  have hw := word_of (p := p) (v := v) (s := s) (findReg_PW_CTRL i0)
  have hq : ∀ u : State, u.clearsMark (PW_CTRL i0) 15 = false := fun u => clearsMark_out (by simp only [PW_CTRL]; omega)
  have hwo : woBits ⟨0x8, 1, 0x4, false, true, false, [⟨1, 0, .WO, 0, .L2⟩]⟩ = 0x3#32 := by decide
  have key : ∀ u : State, s.wrote u p (PW_CTRL i0) ⟨i0.val, ⟨0x8, 1, 0x4, false, true, false, [⟨1, 0, .WO, 0, .L2⟩]⟩, 0⟩ v = u.toGen i0 (fun h x => match vfld (s.word p (PW_CTRL i0) v) 0 2 with | 1 => x.genStartCmd h | 2 => x.genStartTime h | 3 => x.genStop h | _ => x) := by
    intro u
    simp only [State.wrote, hq, Bool.false_eq_true, if_false, hw, hwo]
    refine (regEffect_pw (by simp only [PW_CTRL]; omega) (by simp only [PW_CTRL]; omega)).trans ?_
    simp [State.pwPair, State.pwWrite]
    all_goals rfl
  simp only [key]

theorem findReg_PW_CMP (i0 : Fin 52) (i1 : Fin 4) : findReg (PW_CMP i0 i1) regBlocks = some ⟨i0.val, ⟨0x20, 4, 0x4, false, true, false, [⟨31, 0, .RW, 0, .L2⟩]⟩, i1.val⟩ := by
  have hb0 := i0.isLt
  have hb1 := i1.isLt
  have he : findElem (0x20 + i1.val * 0x4) blkPG.regs = some ((⟨0x20, 4, 0x4, false, true, false, [⟨31, 0, .RW, 0, .L2⟩]⟩ : RegDesc), i1.val) := (by decide +kernel : ∀ j : Fin 4, findElem (0x20 + j.val * 0x4) blkPG.regs = some ((⟨0x20, 4, 0x4, false, true, false, [⟨31, 0, .RW, 0, .L2⟩]⟩ : RegDesc), j.val)) i1
  have h := findReg_blkPG (i := i0.val) (d := (0x20 + i1.val * 0x4)) hb0 (by omega) he
  have e : (PW_CMP i0 i1) = 0x220000 + i0.val * 0x800 + (0x20 + i1.val * 0x4) := by simp only [PW_CMP]; omega
  rw [e]; exact h

theorem regCmd_PW_CMP {s : State} {p : Port} {v : Word} (i0 : Fin 52) (i1 : Fin 4) (h : s.admits p (PW_CMP i0 i1) v = true) :
    regCmd p (PW_CMP i0 i1) v s = .next (s.after p (PW_CMP i0 i1) v (fun u => u.toGen i0 (fun h x => x.regDuty h i1 (s.word p (PW_CMP i0 i1) v) false 1 0 (s.master p).dutySrc (s.master p).dutyPe (x.incOf (s.master p) (x.fld (PW_MAP h) fPW_MAP_FLOCK))))) := by
  have hb0 := i0.isLt
  have hb1 := i1.isLt
  rw [regCmd_admits _ (findReg_PW_CMP i0 i1) h]
  have hw := word_of (p := p) (v := v) (s := s) (findReg_PW_CMP i0 i1)
  have hq : ∀ u : State, u.clearsMark (PW_CMP i0 i1) 15 = false := fun u => clearsMark_out (by simp only [PW_CMP]; omega)
  have hwo : woBits ⟨0x20, 4, 0x4, false, true, false, [⟨31, 0, .RW, 0, .L2⟩]⟩ = 0x0#32 := by decide
  have key : ∀ u : State, s.wrote u p (PW_CMP i0 i1) ⟨i0.val, ⟨0x20, 4, 0x4, false, true, false, [⟨31, 0, .RW, 0, .L2⟩]⟩, i1.val⟩ v = u.toGen i0 (fun h x => x.regDuty h i1 (s.word p (PW_CMP i0 i1) v) false 1 0 (s.master p).dutySrc (s.master p).dutyPe (x.incOf (s.master p) (x.fld (PW_MAP h) fPW_MAP_FLOCK))) := by
    intro u
    simp only [State.wrote, hq, Bool.false_eq_true, if_false, hw, hwo]
    refine (regEffect_pw (by simp only [PW_CMP]; omega) (by simp only [PW_CMP]; omega)).trans ?_
    simp [State.pwPair, State.pwWrite]
  simp only [key]

theorem findReg_PW_DW_CTRL (i0 : Fin 52) : findReg (PW_DW_CTRL i0) regBlocks = some ⟨i0.val, ⟨0x8C, 1, 0x4, false, true, false, [⟨31, 31, .WO, 0, .L2⟩, ⟨5, 5, .RW, 0, .L2⟩, ⟨4, 3, .RW, 0, .L2⟩, ⟨1, 0, .RW, 0, .L2⟩]⟩, 0⟩ := by
  have hb0 := i0.isLt
  have he : findElem 0x8c blkPG.regs = some ((⟨0x8C, 1, 0x4, false, true, false, [⟨31, 31, .WO, 0, .L2⟩, ⟨5, 5, .RW, 0, .L2⟩, ⟨4, 3, .RW, 0, .L2⟩, ⟨1, 0, .RW, 0, .L2⟩]⟩ : RegDesc), 0) := by rfl
  have h := findReg_blkPG (i := i0.val) (d := 0x8c) hb0 (by omega) he
  have e : (PW_DW_CTRL i0) = 0x220000 + i0.val * 0x800 + 0x8c := by simp only [PW_DW_CTRL]; omega
  rw [e]; exact h

theorem regCmd_PW_DW_CTRL {s : State} {p : Port} {v : Word} (i0 : Fin 52) (h : s.admits p (PW_DW_CTRL i0) v = true) :
    regCmd p (PW_DW_CTRL i0) v s = .next (s.after p (PW_DW_CTRL i0) v (fun u => u.toGen i0 (fun h x => if vbit (s.word p (PW_DW_CTRL i0) v) 31 then (x.setReg (PW_DW_CTRL h) ((s.word p (PW_DW_CTRL i0) v) &&& ~~~(0x80000000#32))).dwGo h (s.master p).dutySrc (s.master p).dutyPe (x.incOf (s.master p) (x.fld (PW_MAP h) fPW_MAP_FLOCK)) else x.setReg (PW_DW_CTRL h) ((s.word p (PW_DW_CTRL i0) v) &&& ~~~(0x80000000#32))))) := by
  have hb0 := i0.isLt
  rw [regCmd_admits _ (findReg_PW_DW_CTRL i0) h]
  have hw := word_of (p := p) (v := v) (s := s) (findReg_PW_DW_CTRL i0)
  have hq : ∀ u : State, u.clearsMark (PW_DW_CTRL i0) 15 = false := fun u => clearsMark_out (by simp only [PW_DW_CTRL]; omega)
  have hwo : woBits ⟨0x8C, 1, 0x4, false, true, false, [⟨31, 31, .WO, 0, .L2⟩, ⟨5, 5, .RW, 0, .L2⟩, ⟨4, 3, .RW, 0, .L2⟩, ⟨1, 0, .RW, 0, .L2⟩]⟩ = 0x80000000#32 := by decide
  have key : ∀ u : State, s.wrote u p (PW_DW_CTRL i0) ⟨i0.val, ⟨0x8C, 1, 0x4, false, true, false, [⟨31, 31, .WO, 0, .L2⟩, ⟨5, 5, .RW, 0, .L2⟩, ⟨4, 3, .RW, 0, .L2⟩, ⟨1, 0, .RW, 0, .L2⟩]⟩, 0⟩ v = u.toGen i0 (fun h x => if vbit (s.word p (PW_DW_CTRL i0) v) 31 then (x.setReg (PW_DW_CTRL h) ((s.word p (PW_DW_CTRL i0) v) &&& ~~~(0x80000000#32))).dwGo h (s.master p).dutySrc (s.master p).dutyPe (x.incOf (s.master p) (x.fld (PW_MAP h) fPW_MAP_FLOCK)) else x.setReg (PW_DW_CTRL h) ((s.word p (PW_DW_CTRL i0) v) &&& ~~~(0x80000000#32))) := by
    intro u
    simp only [State.wrote, hq, Bool.false_eq_true, if_false, hw, hwo]
    refine (regEffect_pw (by simp only [PW_DW_CTRL]; omega) (by simp only [PW_DW_CTRL]; omega)).trans ?_
    simp only [State.pwPair, State.pwWrite]
    rw [if_neg (by decide)]
    refine congrArg (State.toGen u i0) ?_
    funext h x
    have : PW_DW_CTRL ↑i0 - PW_MAP ↑i0 + PW_MAP h = PW_DW_CTRL h := by simp only [PW_DW_CTRL, PW_MAP]; omega
    simp [this]
  simp only [key]

theorem findReg_blkXB {i d k : Nat} {t : RegDesc} (hi : i < 1) (hd : d < 0x180) (he : findElem d blkXB.regs = some (t, k)) :
    findReg (0x23c000 + i * 0x180 + d) regBlocks = some ⟨i, t, k⟩ := by
  have hl : blkXB.locate (0x23c000 + i * 0x180 + d) = some (i, d) := locate_at rfl rfl rfl rfl hi hd
  have : regBlocks = [blkID, blkRC, blkPM, blkTB, blkTL, blkEV, blkEG, blkEC, blkJN, blkMB, blkFL, blkFLG, blkRS, blkMIG, blkMI, blkDB, blkSH, blkQD, blkQW, blkBC, blkQG, blkQH, blkSP, blkSOC, blkTI, blkTG, blkAR, blkTRG, blkPG] ++ blkXB :: [blkPH, blkTM, blkTMG, blkPF, blkPFG, blkCP, blkCHG, blkCL, blkLE, blkCS, blkPAGE] := rfl
  rw [this, findReg_skips _ (lo := 0x23c000) (hi := 0x23c180) (by omega) (by omega) (by decide +kernel), findReg_in hl he]

theorem findReg_PW_XBAR (i0 : Fin 96) : findReg (PW_XBAR i0) regBlocks = some ⟨0, ⟨0x0, 96, 0x4, false, false, false, [⟨17, 17, .RWI, 0, .L2⟩, ⟨16, 16, .RWI, 0, .L2⟩, ⟨9, 9, .RWI, 0, .L2⟩, ⟨8, 8, .RWI, 0, .L2⟩, ⟨5, 0, .RWI, 0, .L2⟩]⟩, i0.val⟩ := by
  have hb0 := i0.isLt
  have he : findElem (0x0 + i0.val * 0x4) blkXB.regs = some ((⟨0x0, 96, 0x4, false, false, false, [⟨17, 17, .RWI, 0, .L2⟩, ⟨16, 16, .RWI, 0, .L2⟩, ⟨9, 9, .RWI, 0, .L2⟩, ⟨8, 8, .RWI, 0, .L2⟩, ⟨5, 0, .RWI, 0, .L2⟩]⟩ : RegDesc), i0.val) := (by decide +kernel : ∀ j : Fin 96, findElem (0x0 + j.val * 0x4) blkXB.regs = some ((⟨0x0, 96, 0x4, false, false, false, [⟨17, 17, .RWI, 0, .L2⟩, ⟨16, 16, .RWI, 0, .L2⟩, ⟨9, 9, .RWI, 0, .L2⟩, ⟨8, 8, .RWI, 0, .L2⟩, ⟨5, 0, .RWI, 0, .L2⟩]⟩ : RegDesc), j.val)) i0
  have h := findReg_blkXB (i := 0) (d := (0x0 + i0.val * 0x4)) (by omega) (by omega) he
  have e : (PW_XBAR i0) = 0x23c000 + 0 * 0x180 + (0x0 + i0.val * 0x4) := by simp only [PW_XBAR]; omega
  rw [e]; exact h

theorem regCmd_PW_XBAR {s : State} {p : Port} {v : Word} (i0 : Fin 96) (h : s.admits p (PW_XBAR i0) v = true) :
    regCmd p (PW_XBAR i0) v s = .next (s.after p (PW_XBAR i0) v (fun u => u.xbarWrite (PW_XBAR i0) i0 ((s.word p (PW_XBAR i0) v) &&& ~~~(0x0#32)))) := by
  have hb0 := i0.isLt
  rw [regCmd_admits _ (findReg_PW_XBAR i0) h]
  have hw := word_of (p := p) (v := v) (s := s) (findReg_PW_XBAR i0)
  have hq : ∀ u : State, u.clearsMark (PW_XBAR i0) 15 = false := fun u => clearsMark_out (by simp only [PW_XBAR]; omega)
  have hwo : woBits ⟨0x0, 96, 0x4, false, false, false, [⟨17, 17, .RWI, 0, .L2⟩, ⟨16, 16, .RWI, 0, .L2⟩, ⟨9, 9, .RWI, 0, .L2⟩, ⟨8, 8, .RWI, 0, .L2⟩, ⟨5, 0, .RWI, 0, .L2⟩]⟩ = 0x0#32 := by decide
  have key : ∀ u : State, s.wrote u p (PW_XBAR i0) ⟨0, ⟨0x0, 96, 0x4, false, false, false, [⟨17, 17, .RWI, 0, .L2⟩, ⟨16, 16, .RWI, 0, .L2⟩, ⟨9, 9, .RWI, 0, .L2⟩, ⟨8, 8, .RWI, 0, .L2⟩, ⟨5, 0, .RWI, 0, .L2⟩]⟩, i0.val⟩ v = u.xbarWrite (PW_XBAR i0) i0 ((s.word p (PW_XBAR i0) v) &&& ~~~(0x0#32)) := by
    intro u
    simp only [State.wrote, hq, Bool.false_eq_true, if_false, hw, hwo]
    refine (regEffect_xb (by simp only [PW_XBAR]; omega) (by simp only [PW_XBAR]; omega)).trans ?_
    simp []
  simp only [key]

theorem findReg_blkTM {i d k : Nat} {t : RegDesc} (hi : i < 36) (hd : d < 0x100) (he : findElem d blkTM.regs = some (t, k)) :
    findReg (0x240000 + i * 0x100 + d) regBlocks = some ⟨i, t, k⟩ := by
  have hl : blkTM.locate (0x240000 + i * 0x100 + d) = some (i, d) := locate_at rfl rfl rfl rfl hi hd
  have : regBlocks = [blkID, blkRC, blkPM, blkTB, blkTL, blkEV, blkEG, blkEC, blkJN, blkMB, blkFL, blkFLG, blkRS, blkMIG, blkMI, blkDB, blkSH, blkQD, blkQW, blkBC, blkQG, blkQH, blkSP, blkSOC, blkTI, blkTG, blkAR, blkTRG, blkPG, blkXB, blkPH] ++ blkTM :: [blkTMG, blkPF, blkPFG, blkCP, blkCHG, blkCL, blkLE, blkCS, blkPAGE] := rfl
  rw [this, findReg_skips _ (lo := 0x240000) (hi := 0x242400) (by omega) (by omega) (by decide +kernel), findReg_in hl he]

theorem findReg_TM_CTRL (i0 : Fin 36) : findReg (TM_CTRL i0) regBlocks = some ⟨i0.val, ⟨0x8, 1, 0x4, false, true, false, [⟨8, 8, .RW, 0, .L2⟩, ⟨1, 0, .WO, 0, .L2⟩]⟩, 0⟩ := by
  have hb0 := i0.isLt
  have he : findElem 0x8 blkTM.regs = some ((⟨0x8, 1, 0x4, false, true, false, [⟨8, 8, .RW, 0, .L2⟩, ⟨1, 0, .WO, 0, .L2⟩]⟩ : RegDesc), 0) := by rfl
  have h := findReg_blkTM (i := i0.val) (d := 0x8) hb0 (by omega) he
  have e : (TM_CTRL i0) = 0x240000 + i0.val * 0x100 + 0x8 := by simp only [TM_CTRL]; omega
  rw [e]; exact h

theorem regCmd_TM_CTRL {s : State} {p : Port} {v : Word} (i0 : Fin 36) (h : s.admits p (TM_CTRL i0) v = true) :
    regCmd p (TM_CTRL i0) v s = .next (s.after p (TM_CTRL i0) v (fun u => u.tmCtrlWrite i0 ((s.word p (TM_CTRL i0) v) &&& ~~~(0x3#32)) (vfld (s.word p (TM_CTRL i0) v) 0 2))) := by
  have hb0 := i0.isLt
  rw [regCmd_admits _ (findReg_TM_CTRL i0) h]
  have hw := word_of (p := p) (v := v) (s := s) (findReg_TM_CTRL i0)
  have hq : ∀ u : State, u.clearsMark (TM_CTRL i0) 15 = false := fun u => clearsMark_out (by simp only [TM_CTRL]; omega)
  have hwo : woBits ⟨0x8, 1, 0x4, false, true, false, [⟨8, 8, .RW, 0, .L2⟩, ⟨1, 0, .WO, 0, .L2⟩]⟩ = 0x3#32 := by decide
  have key : ∀ u : State, s.wrote u p (TM_CTRL i0) ⟨i0.val, ⟨0x8, 1, 0x4, false, true, false, [⟨8, 8, .RW, 0, .L2⟩, ⟨1, 0, .WO, 0, .L2⟩]⟩, 0⟩ v = u.tmCtrlWrite i0 ((s.word p (TM_CTRL i0) v) &&& ~~~(0x3#32)) (vfld (s.word p (TM_CTRL i0) v) 0 2) := by
    intro u
    simp only [State.wrote, hq, Bool.false_eq_true, if_false, hw, hwo]
    refine (regEffect_tm (by simp only [TM_CTRL]; omega) (by simp only [TM_CTRL]; omega)).trans ?_
    simp [State.tmWrite]
  simp only [key]

theorem findReg_TM_CMP (i0 : Fin 36) (i1 : Fin 4) : findReg (TM_CMP i0 i1) regBlocks = some ⟨i0.val, ⟨0x20, 4, 0x8, false, true, false, [⟨31, 0, .RW, 0, .L2⟩]⟩, i1.val⟩ := by
  have hb0 := i0.isLt
  have hb1 := i1.isLt
  have he : findElem (0x20 + i1.val * 0x8) blkTM.regs = some ((⟨0x20, 4, 0x8, false, true, false, [⟨31, 0, .RW, 0, .L2⟩]⟩ : RegDesc), i1.val) := (by decide +kernel : ∀ j : Fin 4, findElem (0x20 + j.val * 0x8) blkTM.regs = some ((⟨0x20, 4, 0x8, false, true, false, [⟨31, 0, .RW, 0, .L2⟩]⟩ : RegDesc), j.val)) i1
  have h := findReg_blkTM (i := i0.val) (d := (0x20 + i1.val * 0x8)) hb0 (by omega) he
  have e : (TM_CMP i0 i1) = 0x240000 + i0.val * 0x100 + (0x20 + i1.val * 0x8) := by simp only [TM_CMP]; omega
  rw [e]; exact h

theorem regCmd_TM_CMP {s : State} {p : Port} {v : Word} (i0 : Fin 36) (i1 : Fin 4) (h : s.admits p (TM_CMP i0 i1) v = true) :
    regCmd p (TM_CMP i0 i1) v s = .next (s.after p (TM_CMP i0 i1) v (fun u => u.tmCmpWrite i0 i1 (s.word p (TM_CMP i0 i1) v))) := by
  have hb0 := i0.isLt
  have hb1 := i1.isLt
  rw [regCmd_admits _ (findReg_TM_CMP i0 i1) h]
  have hw := word_of (p := p) (v := v) (s := s) (findReg_TM_CMP i0 i1)
  have hq : ∀ u : State, u.clearsMark (TM_CMP i0 i1) 15 = false := fun u => clearsMark_out (by simp only [TM_CMP]; omega)
  have hwo : woBits ⟨0x20, 4, 0x8, false, true, false, [⟨31, 0, .RW, 0, .L2⟩]⟩ = 0x0#32 := by decide
  have key : ∀ u : State, s.wrote u p (TM_CMP i0 i1) ⟨i0.val, ⟨0x20, 4, 0x8, false, true, false, [⟨31, 0, .RW, 0, .L2⟩]⟩, i1.val⟩ v = u.tmCmpWrite i0 i1 (s.word p (TM_CMP i0 i1) v) := by
    intro u
    simp only [State.wrote, hq, Bool.false_eq_true, if_false, hw, hwo]
    refine (regEffect_tm (by simp only [TM_CMP]; omega) (by simp only [TM_CMP]; omega)).trans ?_
    simp [State.tmWrite]
  simp only [key]

theorem findReg_TM_CAP_SW (i0 : Fin 36) : findReg (TM_CAP_SW i0) regBlocks = some ⟨i0.val, ⟨0x70, 1, 0x4, false, true, false, [⟨1, 0, .WO, 0, .L2⟩]⟩, 0⟩ := by
  have hb0 := i0.isLt
  have he : findElem 0x70 blkTM.regs = some ((⟨0x70, 1, 0x4, false, true, false, [⟨1, 0, .WO, 0, .L2⟩]⟩ : RegDesc), 0) := by rfl
  have h := findReg_blkTM (i := i0.val) (d := 0x70) hb0 (by omega) he
  have e : (TM_CAP_SW i0) = 0x240000 + i0.val * 0x100 + 0x70 := by simp only [TM_CAP_SW]; omega
  rw [e]; exact h

theorem regCmd_TM_CAP_SW {s : State} {p : Port} {v : Word} (i0 : Fin 36) (h : s.admits p (TM_CAP_SW i0) v = true) :
    regCmd p (TM_CAP_SW i0) v s = .next (s.after p (TM_CAP_SW i0) v (fun u => u.capSw i0 (vfld (s.word p (TM_CAP_SW i0) v) 0 2))) := by
  have hb0 := i0.isLt
  rw [regCmd_admits _ (findReg_TM_CAP_SW i0) h]
  have hw := word_of (p := p) (v := v) (s := s) (findReg_TM_CAP_SW i0)
  have hq : ∀ u : State, u.clearsMark (TM_CAP_SW i0) 15 = false := fun u => clearsMark_out (by simp only [TM_CAP_SW]; omega)
  have hwo : woBits ⟨0x70, 1, 0x4, false, true, false, [⟨1, 0, .WO, 0, .L2⟩]⟩ = 0x3#32 := by decide
  have key : ∀ u : State, s.wrote u p (TM_CAP_SW i0) ⟨i0.val, ⟨0x70, 1, 0x4, false, true, false, [⟨1, 0, .WO, 0, .L2⟩]⟩, 0⟩ v = u.capSw i0 (vfld (s.word p (TM_CAP_SW i0) v) 0 2) := by
    intro u
    simp only [State.wrote, hq, Bool.false_eq_true, if_false, hw, hwo]
    refine (regEffect_tm (by simp only [TM_CAP_SW]; omega) (by simp only [TM_CAP_SW]; omega)).trans ?_
    simp [State.tmWrite]
  simp only [key]

theorem findReg_blkTMG {i d k : Nat} {t : RegDesc} (hi : i < 1) (hd : d < 0x200) (he : findElem d blkTMG.regs = some (t, k)) :
    findReg (0x248000 + i * 0x200 + d) regBlocks = some ⟨i, t, k⟩ := by
  have hl : blkTMG.locate (0x248000 + i * 0x200 + d) = some (i, d) := locate_at rfl rfl rfl rfl hi hd
  have : regBlocks = [blkID, blkRC, blkPM, blkTB, blkTL, blkEV, blkEG, blkEC, blkJN, blkMB, blkFL, blkFLG, blkRS, blkMIG, blkMI, blkDB, blkSH, blkQD, blkQW, blkBC, blkQG, blkQH, blkSP, blkSOC, blkTI, blkTG, blkAR, blkTRG, blkPG, blkXB, blkPH, blkTM] ++ blkTMG :: [blkPF, blkPFG, blkCP, blkCHG, blkCL, blkLE, blkCS, blkPAGE] := rfl
  rw [this, findReg_skips _ (lo := 0x248000) (hi := 0x248200) (by omega) (by omega) (by decide +kernel), findReg_in hl he]

theorem findReg_TMG_CTRL (i0 : Fin 8) : findReg (TMG_CTRL i0) regBlocks = some ⟨0, ⟨0x114, 8, 0x20, false, false, false, [⟨1, 0, .WO, 0, .L2⟩]⟩, i0.val⟩ := by
  have hb0 := i0.isLt
  have he : findElem (0x114 + i0.val * 0x20) blkTMG.regs = some ((⟨0x114, 8, 0x20, false, false, false, [⟨1, 0, .WO, 0, .L2⟩]⟩ : RegDesc), i0.val) := (by decide +kernel : ∀ j : Fin 8, findElem (0x114 + j.val * 0x20) blkTMG.regs = some ((⟨0x114, 8, 0x20, false, false, false, [⟨1, 0, .WO, 0, .L2⟩]⟩ : RegDesc), j.val)) i0
  have h := findReg_blkTMG (i := 0) (d := (0x114 + i0.val * 0x20)) (by omega) (by omega) he
  have e : (TMG_CTRL i0) = 0x248000 + 0 * 0x200 + (0x114 + i0.val * 0x20) := by simp only [TMG_CTRL]; omega
  rw [e]; exact h

theorem regCmd_TMG_CTRL {s : State} {p : Port} {v : Word} (i0 : Fin 8) (h : s.admits p (TMG_CTRL i0) v = true) :
    regCmd p (TMG_CTRL i0) v s = .next (s.after p (TMG_CTRL i0) v (fun u => match vfld (s.word p (TMG_CTRL i0) v) 0 2 with | 1 => u.tmgGo i0 | 2 => u.tmgGoTime i0 | 3 => u.tmgBad i0 | _ => u)) := by
  have hb0 := i0.isLt
  rw [regCmd_admits _ (findReg_TMG_CTRL i0) h]
  have hw := word_of (p := p) (v := v) (s := s) (findReg_TMG_CTRL i0)
  have hq : ∀ u : State, u.clearsMark (TMG_CTRL i0) 15 = false := fun u => clearsMark_out (by simp only [TMG_CTRL]; omega)
  have hwo : woBits ⟨0x114, 8, 0x20, false, false, false, [⟨1, 0, .WO, 0, .L2⟩]⟩ = 0x3#32 := by decide
  have key : ∀ u : State, s.wrote u p (TMG_CTRL i0) ⟨0, ⟨0x114, 8, 0x20, false, false, false, [⟨1, 0, .WO, 0, .L2⟩]⟩, i0.val⟩ v = match vfld (s.word p (TMG_CTRL i0) v) 0 2 with | 1 => u.tmgGo i0 | 2 => u.tmgGoTime i0 | 3 => u.tmgBad i0 | _ => u := by
    intro u
    simp only [State.wrote, hq, Bool.false_eq_true, if_false, hw, hwo]
    refine (regEffect_tmg (by simp only [TMG_CTRL]; omega) (by simp only [TMG_CTRL]; omega)).trans ?_
    simp [State.tmgWrite]
    all_goals rfl
  simp only [key]

theorem findReg_blkPF {i d k : Nat} {t : RegDesc} (hi : i < 10) (hd : d < 0x400) (he : findElem d blkPF.regs = some (t, k)) :
    findReg (0x250000 + i * 0x400 + d) regBlocks = some ⟨i, t, k⟩ := by
  have hl : blkPF.locate (0x250000 + i * 0x400 + d) = some (i, d) := locate_at rfl rfl rfl rfl hi hd
  have : regBlocks = [blkID, blkRC, blkPM, blkTB, blkTL, blkEV, blkEG, blkEC, blkJN, blkMB, blkFL, blkFLG, blkRS, blkMIG, blkMI, blkDB, blkSH, blkQD, blkQW, blkBC, blkQG, blkQH, blkSP, blkSOC, blkTI, blkTG, blkAR, blkTRG, blkPG, blkXB, blkPH, blkTM, blkTMG] ++ blkPF :: [blkPFG, blkCP, blkCHG, blkCL, blkLE, blkCS, blkPAGE] := rfl
  rw [this, findReg_skips _ (lo := 0x250000) (hi := 0x252800) (by omega) (by omega) (by decide +kernel), findReg_in hl he]

theorem findReg_PF_CTRL (i0 : Fin 10) : findReg (PF_CTRL i0) regBlocks = some ⟨i0.val, ⟨0x8, 1, 0x4, false, true, false, [⟨1, 0, .WO, 0, .L2⟩]⟩, 0⟩ := by
  have hb0 := i0.isLt
  have he : findElem 0x8 blkPF.regs = some ((⟨0x8, 1, 0x4, false, true, false, [⟨1, 0, .WO, 0, .L2⟩]⟩ : RegDesc), 0) := by rfl
  have h := findReg_blkPF (i := i0.val) (d := 0x8) hb0 (by omega) he
  have e : (PF_CTRL i0) = 0x250000 + i0.val * 0x400 + 0x8 := by simp only [PF_CTRL]; omega
  rw [e]; exact h

theorem regCmd_PF_CTRL {s : State} {p : Port} {v : Word} (i0 : Fin 10) (h : s.admits p (PF_CTRL i0) v = true) :
    regCmd p (PF_CTRL i0) v s = .next (s.after p (PF_CTRL i0) v (fun u => u.pfCtrlWrite i0 (vfld (s.word p (PF_CTRL i0) v) 0 2))) := by
  have hb0 := i0.isLt
  rw [regCmd_admits _ (findReg_PF_CTRL i0) h]
  have hw := word_of (p := p) (v := v) (s := s) (findReg_PF_CTRL i0)
  have hq : ∀ u : State, u.clearsMark (PF_CTRL i0) 15 = false := fun u => clearsMark_out (by simp only [PF_CTRL]; omega)
  have hwo : woBits ⟨0x8, 1, 0x4, false, true, false, [⟨1, 0, .WO, 0, .L2⟩]⟩ = 0x3#32 := by decide
  have key : ∀ u : State, s.wrote u p (PF_CTRL i0) ⟨i0.val, ⟨0x8, 1, 0x4, false, true, false, [⟨1, 0, .WO, 0, .L2⟩]⟩, 0⟩ v = u.pfCtrlWrite i0 (vfld (s.word p (PF_CTRL i0) v) 0 2) := by
    intro u
    simp only [State.wrote, hq, Bool.false_eq_true, if_false, hw, hwo]
    refine (regEffect_pf (by simp only [PF_CTRL]; omega) (by simp only [PF_CTRL]; omega)).trans ?_
    simp [State.pfWrite]
  simp only [key]

theorem findReg_PF_MEAS_ANG (i0 : Fin 10) : findReg (PF_MEAS_ANG i0) regBlocks = some ⟨i0.val, ⟨0x98, 1, 0x4, false, true, false, [⟨31, 0, .WO, 0, .L2⟩]⟩, 0⟩ := by
  have hb0 := i0.isLt
  have he : findElem 0x98 blkPF.regs = some ((⟨0x98, 1, 0x4, false, true, false, [⟨31, 0, .WO, 0, .L2⟩]⟩ : RegDesc), 0) := by rfl
  have h := findReg_blkPF (i := i0.val) (d := 0x98) hb0 (by omega) he
  have e : (PF_MEAS_ANG i0) = 0x250000 + i0.val * 0x400 + 0x98 := by simp only [PF_MEAS_ANG]; omega
  rw [e]; exact h

theorem regCmd_PF_MEAS_ANG {s : State} {p : Port} {v : Word} (i0 : Fin 10) (h : s.admits p (PF_MEAS_ANG i0) v = true) :
    regCmd p (PF_MEAS_ANG i0) v s = .next (s.after p (PF_MEAS_ANG i0) v (fun u => u.measCommit i0 (s.word p (PF_MEAS_ANG i0) v) (u.reg64 (PF_MEAS_STAMP_LO i0) (PF_MEAS_STAMP_HI i0)) false (u.incOf (s.master p) (u.fld (PF_MAP i0) fPF_MAP_FLOCK)))) := by
  have hb0 := i0.isLt
  rw [regCmd_admits _ (findReg_PF_MEAS_ANG i0) h]
  have hw := word_of (p := p) (v := v) (s := s) (findReg_PF_MEAS_ANG i0)
  have hq : ∀ u : State, u.clearsMark (PF_MEAS_ANG i0) 15 = false := fun u => clearsMark_out (by simp only [PF_MEAS_ANG]; omega)
  have hwo : woBits ⟨0x98, 1, 0x4, false, true, false, [⟨31, 0, .WO, 0, .L2⟩]⟩ = 0xffffffff#32 := by decide
  have key : ∀ u : State, s.wrote u p (PF_MEAS_ANG i0) ⟨i0.val, ⟨0x98, 1, 0x4, false, true, false, [⟨31, 0, .WO, 0, .L2⟩]⟩, 0⟩ v = u.measCommit i0 (s.word p (PF_MEAS_ANG i0) v) (u.reg64 (PF_MEAS_STAMP_LO i0) (PF_MEAS_STAMP_HI i0)) false (u.incOf (s.master p) (u.fld (PF_MAP i0) fPF_MAP_FLOCK)) := by
    intro u
    simp only [State.wrote, hq, Bool.false_eq_true, if_false, hw, hwo]
    refine (regEffect_pf (by simp only [PF_MEAS_ANG]; omega) (by simp only [PF_MEAS_ANG]; omega)).trans ?_
    simp [State.pfWrite]
  simp only [key]

theorem findReg_blkCP {i d k : Nat} {t : RegDesc} (hi : i < 36) (hd : d < 0x1000) (he : findElem d blkCP.regs = some (t, k)) :
    findReg (0x260000 + i * 0x1000 + d) regBlocks = some ⟨i, t, k⟩ := by
  have hl : blkCP.locate (0x260000 + i * 0x1000 + d) = some (i, d) := locate_at rfl rfl rfl rfl hi hd
  have : regBlocks = [blkID, blkRC, blkPM, blkTB, blkTL, blkEV, blkEG, blkEC, blkJN, blkMB, blkFL, blkFLG, blkRS, blkMIG, blkMI, blkDB, blkSH, blkQD, blkQW, blkBC, blkQG, blkQH, blkSP, blkSOC, blkTI, blkTG, blkAR, blkTRG, blkPG, blkXB, blkPH, blkTM, blkTMG, blkPF, blkPFG] ++ blkCP :: [blkCHG, blkCL, blkLE, blkCS, blkPAGE] := rfl
  rw [this, findReg_skips _ (lo := 0x260000) (hi := 0x284000) (by omega) (by omega) (by decide +kernel), findReg_in hl he]

theorem findReg_CH_CTRL (i0 : Fin 36) : findReg (CH_CTRL i0) regBlocks = some ⟨i0.val, ⟨0x4, 1, 0x4, false, false, false, [⟨1, 0, .WO, 0, .L2⟩]⟩, 0⟩ := by
  have hb0 := i0.isLt
  have he : findElem 0x4 blkCP.regs = some ((⟨0x4, 1, 0x4, false, false, false, [⟨1, 0, .WO, 0, .L2⟩]⟩ : RegDesc), 0) := by rfl
  have h := findReg_blkCP (i := i0.val) (d := 0x4) hb0 (by omega) he
  have e : (CH_CTRL i0) = 0x260000 + i0.val * 0x1000 + 0x4 := by simp only [CH_CTRL]; omega
  rw [e]; exact h

theorem regCmd_CH_CTRL {s : State} {p : Port} {v : Word} (i0 : Fin 36) (h : s.admits p (CH_CTRL i0) v = true) :
    regCmd p (CH_CTRL i0) v s = .next (s.after p (CH_CTRL i0) v (fun u => match vfld (s.word p (CH_CTRL i0) v) 0 2 with | 1 => u.chCmd i0 .start | 2 => u.chCmd i0 .stop | 3 => u.inc (CH_CFG_REFUSED i0) | _ => u)) := by
  have hb0 := i0.isLt
  rw [regCmd_admits _ (findReg_CH_CTRL i0) h]
  have hw := word_of (p := p) (v := v) (s := s) (findReg_CH_CTRL i0)
  have hq : ∀ u : State, u.clearsMark (CH_CTRL i0) 15 = false := fun u => clearsMark_out (by simp only [CH_CTRL]; omega)
  have hwo : woBits ⟨0x4, 1, 0x4, false, false, false, [⟨1, 0, .WO, 0, .L2⟩]⟩ = 0x3#32 := by decide
  have key : ∀ u : State, s.wrote u p (CH_CTRL i0) ⟨i0.val, ⟨0x4, 1, 0x4, false, false, false, [⟨1, 0, .WO, 0, .L2⟩]⟩, 0⟩ v = match vfld (s.word p (CH_CTRL i0) v) 0 2 with | 1 => u.chCmd i0 .start | 2 => u.chCmd i0 .stop | 3 => u.inc (CH_CFG_REFUSED i0) | _ => u := by
    intro u
    simp only [State.wrote, hq, Bool.false_eq_true, if_false, hw, hwo]
    refine (regEffect_ch (by simp only [CH_CTRL]; omega) (by simp only [CH_CTRL]; omega)).trans ?_
    simp [State.cpWrite]
    all_goals rfl
  simp only [key]

theorem findReg_CH_CCTL (i0 : Fin 36) (i1 : Fin 16) : findReg (CH_CCTL i0 i1) regBlocks = some ⟨i0.val, ⟨0x104, 16, 0x40, false, true, false, [⟨1, 0, .WO, 0, .L2⟩]⟩, i1.val⟩ := by
  have hb0 := i0.isLt
  have hb1 := i1.isLt
  have he : findElem (0x104 + i1.val * 0x40) blkCP.regs = some ((⟨0x104, 16, 0x40, false, true, false, [⟨1, 0, .WO, 0, .L2⟩]⟩ : RegDesc), i1.val) := (by decide +kernel : ∀ j : Fin 16, findElem (0x104 + j.val * 0x40) blkCP.regs = some ((⟨0x104, 16, 0x40, false, true, false, [⟨1, 0, .WO, 0, .L2⟩]⟩ : RegDesc), j.val)) i1
  have h := findReg_blkCP (i := i0.val) (d := (0x104 + i1.val * 0x40)) hb0 (by omega) he
  have e : (CH_CCTL i0 i1) = 0x260000 + i0.val * 0x1000 + (0x104 + i1.val * 0x40) := by simp only [CH_CCTL]; omega
  rw [e]; exact h

theorem regCmd_CH_CCTL {s : State} {p : Port} {v : Word} (i0 : Fin 36) (i1 : Fin 16) (h : s.admits p (CH_CCTL i0 i1) v = true) :
    regCmd p (CH_CCTL i0 i1) v s = .next (s.after p (CH_CCTL i0 i1) v (fun u => match vfld (s.word p (CH_CCTL i0 i1) v) 0 2 with | 1 => u.chCmd i0 (.restart i1) | 2 => u.chCmd i0 (.halt i1) | _ => u)) := by
  have hb0 := i0.isLt
  have hb1 := i1.isLt
  rw [regCmd_admits _ (findReg_CH_CCTL i0 i1) h]
  have hw := word_of (p := p) (v := v) (s := s) (findReg_CH_CCTL i0 i1)
  have hq : ∀ u : State, u.clearsMark (CH_CCTL i0 i1) 15 = false := fun u => clearsMark_out (by simp only [CH_CCTL]; omega)
  have hwo : woBits ⟨0x104, 16, 0x40, false, true, false, [⟨1, 0, .WO, 0, .L2⟩]⟩ = 0x3#32 := by decide
  have key : ∀ u : State, s.wrote u p (CH_CCTL i0 i1) ⟨i0.val, ⟨0x104, 16, 0x40, false, true, false, [⟨1, 0, .WO, 0, .L2⟩]⟩, i1.val⟩ v = match vfld (s.word p (CH_CCTL i0 i1) v) 0 2 with | 1 => u.chCmd i0 (.restart i1) | 2 => u.chCmd i0 (.halt i1) | _ => u := by
    intro u
    simp only [State.wrote, hq, Bool.false_eq_true, if_false, hw, hwo]
    refine (regEffect_ch (by simp only [CH_CCTL]; omega) (by simp only [CH_CCTL]; omega)).trans ?_
    simp [State.cpWrite]
    all_goals rfl
  simp only [key]

theorem findReg_CH_TXDATA (i0 : Fin 36) (i1 : Fin 16) : findReg (CH_TXDATA i0 i1) regBlocks = some ⟨i0.val, ⟨0x114, 16, 0x40, false, true, false, [⟨31, 0, .WO, 0, .L2⟩]⟩, i1.val⟩ := by
  have hb0 := i0.isLt
  have hb1 := i1.isLt
  have he : findElem (0x114 + i1.val * 0x40) blkCP.regs = some ((⟨0x114, 16, 0x40, false, true, false, [⟨31, 0, .WO, 0, .L2⟩]⟩ : RegDesc), i1.val) := (by decide +kernel : ∀ j : Fin 16, findElem (0x114 + j.val * 0x40) blkCP.regs = some ((⟨0x114, 16, 0x40, false, true, false, [⟨31, 0, .WO, 0, .L2⟩]⟩ : RegDesc), j.val)) i1
  have h := findReg_blkCP (i := i0.val) (d := (0x114 + i1.val * 0x40)) hb0 (by omega) he
  have e : (CH_TXDATA i0 i1) = 0x260000 + i0.val * 0x1000 + (0x114 + i1.val * 0x40) := by simp only [CH_TXDATA]; omega
  rw [e]; exact h

theorem regCmd_CH_TXDATA {s : State} {p : Port} {v : Word} (i0 : Fin 36) (i1 : Fin 16) (h : s.admits p (CH_TXDATA i0 i1) v = true) :
    regCmd p (CH_TXDATA i0 i1) v s = .next (s.after p (CH_TXDATA i0 i1) v (fun u => u.txQueue i0 i1 2 [((s.word p (CH_TXDATA i0 i1) v), false)])) := by
  have hb0 := i0.isLt
  have hb1 := i1.isLt
  rw [regCmd_admits _ (findReg_CH_TXDATA i0 i1) h]
  have hw := word_of (p := p) (v := v) (s := s) (findReg_CH_TXDATA i0 i1)
  have hq : ∀ u : State, u.clearsMark (CH_TXDATA i0 i1) 15 = false := fun u => clearsMark_out (by simp only [CH_TXDATA]; omega)
  have hwo : woBits ⟨0x114, 16, 0x40, false, true, false, [⟨31, 0, .WO, 0, .L2⟩]⟩ = 0xffffffff#32 := by decide
  have key : ∀ u : State, s.wrote u p (CH_TXDATA i0 i1) ⟨i0.val, ⟨0x114, 16, 0x40, false, true, false, [⟨31, 0, .WO, 0, .L2⟩]⟩, i1.val⟩ v = u.txQueue i0 i1 2 [((s.word p (CH_TXDATA i0 i1) v), false)] := by
    intro u
    simp only [State.wrote, hq, Bool.false_eq_true, if_false, hw, hwo]
    refine (regEffect_ch (by simp only [CH_TXDATA]; omega) (by simp only [CH_TXDATA]; omega)).trans ?_
    simp [State.cpWrite]
  simp only [key]

theorem findReg_CH_CMEM_LO (i0 : Fin 36) (i1 : Fin 256) : findReg (CH_CMEM_LO i0 i1) regBlocks = some ⟨i0.val, ⟨0x800, 256, 0x8, false, false, false, [⟨31, 0, .RWI, 0, .L3⟩]⟩, i1.val⟩ := by
  have hb0 := i0.isLt
  have hb1 := i1.isLt
  have he : findElem (0x800 + i1.val * 0x8) blkCP.regs = some ((⟨0x800, 256, 0x8, false, false, false, [⟨31, 0, .RWI, 0, .L3⟩]⟩ : RegDesc), i1.val) := (by decide +kernel : ∀ j : Fin 256, findElem (0x800 + j.val * 0x8) blkCP.regs = some ((⟨0x800, 256, 0x8, false, false, false, [⟨31, 0, .RWI, 0, .L3⟩]⟩ : RegDesc), j.val)) i1
  have h := findReg_blkCP (i := i0.val) (d := (0x800 + i1.val * 0x8)) hb0 (by omega) he
  have e : (CH_CMEM_LO i0 i1) = 0x260000 + i0.val * 0x1000 + (0x800 + i1.val * 0x8) := by simp only [CH_CMEM_LO]; omega
  rw [e]; exact h

theorem regCmd_CH_CMEM_LO {s : State} {p : Port} {v : Word} (i0 : Fin 36) (i1 : Fin 256) (h : s.admits p (CH_CMEM_LO i0 i1) v = true) :
    regCmd p (CH_CMEM_LO i0 i1) v s = .next (s.after p (CH_CMEM_LO i0 i1) v (fun u => if (u.cmemWrite i0 (CH_CMEM_LO i0 i1) (s.word p (CH_CMEM_LO i0 i1) v)).chRun i0 = false then (u.cmemWrite i0 (CH_CMEM_LO i0 i1) (s.word p (CH_CMEM_LO i0 i1) v)).setMark (CH_CMEM_LO i0 i1) false else u.cmemWrite i0 (CH_CMEM_LO i0 i1) (s.word p (CH_CMEM_LO i0 i1) v))) := by
  have hb0 := i0.isLt
  have hb1 := i1.isLt
  rw [regCmd_admits _ (findReg_CH_CMEM_LO i0 i1) h]
  have hw := word_of (p := p) (v := v) (s := s) (findReg_CH_CMEM_LO i0 i1)
  have hq : ∀ u : State, u.clearsMark (CH_CMEM_LO i0 i1) 15 = !u.chRun i0 := fun u => clearsMark_chant (by simp only [CH_CMEM_LO]; omega) (by simp only [CH_CMEM_LO]; omega)
  have hwo : woBits ⟨0x800, 256, 0x8, false, false, false, [⟨31, 0, .RWI, 0, .L3⟩]⟩ = 0x0#32 := by decide
  have key : ∀ u : State, s.wrote u p (CH_CMEM_LO i0 i1) ⟨i0.val, ⟨0x800, 256, 0x8, false, false, false, [⟨31, 0, .RWI, 0, .L3⟩]⟩, i1.val⟩ v = if (u.cmemWrite i0 (CH_CMEM_LO i0 i1) (s.word p (CH_CMEM_LO i0 i1) v)).chRun i0 = false then (u.cmemWrite i0 (CH_CMEM_LO i0 i1) (s.word p (CH_CMEM_LO i0 i1) v)).setMark (CH_CMEM_LO i0 i1) false else u.cmemWrite i0 (CH_CMEM_LO i0 i1) (s.word p (CH_CMEM_LO i0 i1) v) := by
    intro u
    simp only [State.wrote, hq, hw, hwo]
    rw [regEffect_ch (by simp only [CH_CMEM_LO]; omega) (by simp only [CH_CMEM_LO]; omega)]
    simp [State.cpWrite]
  simp only [key]

theorem findReg_CH_CMEM_HI (i0 : Fin 36) (i1 : Fin 256) : findReg (CH_CMEM_HI i0 i1) regBlocks = some ⟨i0.val, ⟨0x804, 256, 0x8, false, false, false, [⟨7, 0, .RWI, 0, .L3⟩]⟩, i1.val⟩ := by
  have hb0 := i0.isLt
  have hb1 := i1.isLt
  have he : findElem (0x804 + i1.val * 0x8) blkCP.regs = some ((⟨0x804, 256, 0x8, false, false, false, [⟨7, 0, .RWI, 0, .L3⟩]⟩ : RegDesc), i1.val) := (by decide +kernel : ∀ j : Fin 256, findElem (0x804 + j.val * 0x8) blkCP.regs = some ((⟨0x804, 256, 0x8, false, false, false, [⟨7, 0, .RWI, 0, .L3⟩]⟩ : RegDesc), j.val)) i1
  have h := findReg_blkCP (i := i0.val) (d := (0x804 + i1.val * 0x8)) hb0 (by omega) he
  have e : (CH_CMEM_HI i0 i1) = 0x260000 + i0.val * 0x1000 + (0x804 + i1.val * 0x8) := by simp only [CH_CMEM_HI]; omega
  rw [e]; exact h

theorem regCmd_CH_CMEM_HI {s : State} {p : Port} {v : Word} (i0 : Fin 36) (i1 : Fin 256) (h : s.admits p (CH_CMEM_HI i0 i1) v = true) :
    regCmd p (CH_CMEM_HI i0 i1) v s = .next (s.after p (CH_CMEM_HI i0 i1) v (fun u => if (u.cmemWrite i0 (CH_CMEM_HI i0 i1) (s.word p (CH_CMEM_HI i0 i1) v)).chRun i0 = false then (u.cmemWrite i0 (CH_CMEM_HI i0 i1) (s.word p (CH_CMEM_HI i0 i1) v)).setMark (CH_CMEM_HI i0 i1) false else u.cmemWrite i0 (CH_CMEM_HI i0 i1) (s.word p (CH_CMEM_HI i0 i1) v))) := by
  have hb0 := i0.isLt
  have hb1 := i1.isLt
  rw [regCmd_admits _ (findReg_CH_CMEM_HI i0 i1) h]
  have hw := word_of (p := p) (v := v) (s := s) (findReg_CH_CMEM_HI i0 i1)
  have hq : ∀ u : State, u.clearsMark (CH_CMEM_HI i0 i1) 15 = !u.chRun i0 := fun u => clearsMark_chant (by simp only [CH_CMEM_HI]; omega) (by simp only [CH_CMEM_HI]; omega)
  have hwo : woBits ⟨0x804, 256, 0x8, false, false, false, [⟨7, 0, .RWI, 0, .L3⟩]⟩ = 0x0#32 := by decide
  have key : ∀ u : State, s.wrote u p (CH_CMEM_HI i0 i1) ⟨i0.val, ⟨0x804, 256, 0x8, false, false, false, [⟨7, 0, .RWI, 0, .L3⟩]⟩, i1.val⟩ v = if (u.cmemWrite i0 (CH_CMEM_HI i0 i1) (s.word p (CH_CMEM_HI i0 i1) v)).chRun i0 = false then (u.cmemWrite i0 (CH_CMEM_HI i0 i1) (s.word p (CH_CMEM_HI i0 i1) v)).setMark (CH_CMEM_HI i0 i1) false else u.cmemWrite i0 (CH_CMEM_HI i0 i1) (s.word p (CH_CMEM_HI i0 i1) v) := by
    intro u
    simp only [State.wrote, hq, hw, hwo]
    rw [regEffect_ch (by simp only [CH_CMEM_HI]; omega) (by simp only [CH_CMEM_HI]; omega)]
    simp [State.cpWrite]
  simp only [key]

theorem findReg_blkCHG {i d k : Nat} {t : RegDesc} (hi : i < 1) (hd : d < 0x1000) (he : findElem d blkCHG.regs = some (t, k)) :
    findReg (0x288000 + i * 0x1000 + d) regBlocks = some ⟨i, t, k⟩ := by
  have hl : blkCHG.locate (0x288000 + i * 0x1000 + d) = some (i, d) := locate_at rfl rfl rfl rfl hi hd
  have : regBlocks = [blkID, blkRC, blkPM, blkTB, blkTL, blkEV, blkEG, blkEC, blkJN, blkMB, blkFL, blkFLG, blkRS, blkMIG, blkMI, blkDB, blkSH, blkQD, blkQW, blkBC, blkQG, blkQH, blkSP, blkSOC, blkTI, blkTG, blkAR, blkTRG, blkPG, blkXB, blkPH, blkTM, blkTMG, blkPF, blkPFG, blkCP] ++ blkCHG :: [blkCL, blkLE, blkCS, blkPAGE] := rfl
  rw [this, findReg_skips _ (lo := 0x288000) (hi := 0x289000) (by omega) (by omega) (by decide +kernel), findReg_in hl he]

theorem findReg_CH_SYNC_CTRL  : findReg CH_SYNC_CTRL regBlocks = some ⟨0, ⟨0x404, 1, 0x4, false, false, false, [⟨13, 8, .RWI, 0, .L2⟩, ⟨5, 4, .RWI, 0, .L2⟩, ⟨1, 0, .RWI, 0, .L2⟩]⟩, 0⟩ := by
  have he : findElem 0x404 blkCHG.regs = some ((⟨0x404, 1, 0x4, false, false, false, [⟨13, 8, .RWI, 0, .L2⟩, ⟨5, 4, .RWI, 0, .L2⟩, ⟨1, 0, .RWI, 0, .L2⟩]⟩ : RegDesc), 0) := by rfl
  have h := findReg_blkCHG (i := 0) (d := 0x404) (by omega) (by omega) he
  have e : CH_SYNC_CTRL = 0x288000 + 0 * 0x1000 + 0x404 := by simp only [CH_SYNC_CTRL]
  rw [e]; exact h

theorem regCmd_CH_SYNC_CTRL {s : State} {p : Port} {v : Word}  (h : s.admits p CH_SYNC_CTRL v = true) :
    regCmd p CH_SYNC_CTRL v s = .next (s.after p CH_SYNC_CTRL v (fun u => u.syncCtrlWrite (s.word p CH_SYNC_CTRL v))) := by
  rw [regCmd_admits _ (findReg_CH_SYNC_CTRL ) h]
  have hw := word_of (p := p) (v := v) (s := s) (findReg_CH_SYNC_CTRL )
  have hq : ∀ u : State, u.clearsMark CH_SYNC_CTRL 15 = false := fun u => clearsMark_out (by simp only [CH_SYNC_CTRL]; omega)
  have hwo : woBits ⟨0x404, 1, 0x4, false, false, false, [⟨13, 8, .RWI, 0, .L2⟩, ⟨5, 4, .RWI, 0, .L2⟩, ⟨1, 0, .RWI, 0, .L2⟩]⟩ = 0x0#32 := by decide
  have key : ∀ u : State, s.wrote u p CH_SYNC_CTRL ⟨0, ⟨0x404, 1, 0x4, false, false, false, [⟨13, 8, .RWI, 0, .L2⟩, ⟨5, 4, .RWI, 0, .L2⟩, ⟨1, 0, .RWI, 0, .L2⟩]⟩, 0⟩ v = u.syncCtrlWrite (s.word p CH_SYNC_CTRL v) := by
    intro u
    simp only [State.wrote, hq, Bool.false_eq_true, if_false, hw, hwo]
    refine (regEffect_chg (by simp only [CH_SYNC_CTRL]; omega) (by simp only [CH_SYNC_CTRL]; omega)).trans ?_
    simp [State.chgWrite]
  simp only [key]

theorem findReg_blkQD {i d k : Nat} {t : RegDesc} (hi : i < 4096) (hd : d < 0x40) (he : findElem d blkQD.regs = some (t, k)) :
    findReg (0x100000 + i * 0x40 + d) regBlocks = some ⟨i, t, k⟩ := by
  have hl : blkQD.locate (0x100000 + i * 0x40 + d) = some (i, d) := locate_at rfl rfl rfl rfl hi hd
  have : regBlocks = [blkID, blkRC, blkPM, blkTB, blkTL, blkEV, blkEG, blkEC, blkJN, blkMB, blkFL, blkFLG, blkRS, blkMIG, blkMI, blkDB, blkSH] ++ blkQD :: [blkQW, blkBC, blkQG, blkQH, blkSP, blkSOC, blkTI, blkTG, blkAR, blkTRG, blkPG, blkXB, blkPH, blkTM, blkTMG, blkPF, blkPFG, blkCP, blkCHG, blkCL, blkLE, blkCS, blkPAGE] := rfl
  rw [this, findReg_skips _ (lo := 0x100000) (hi := 0x140000) (by omega) (by omega) (by decide +kernel), findReg_in hl he]

theorem findReg_QF_QCFG (i0 : Fin 4096) : findReg (QF_QCFG i0) regBlocks = some ⟨i0.val, ⟨0x0, 1, 0x4, false, false, false, [⟨31, 31, .RWI, 0, .L2⟩, ⟨30, 30, .RWI, 0, .L2⟩, ⟨29, 28, .RWI, 0, .L2⟩, ⟨27, 24, .RWI, 0, .L2⟩, ⟨23, 20, .RWI, 0, .L2⟩, ⟨12, 0, .RWI, 0x1000, .L2⟩]⟩, 0⟩ := by
  have hb0 := i0.isLt
  have he : findElem 0x0 blkQD.regs = some ((⟨0x0, 1, 0x4, false, false, false, [⟨31, 31, .RWI, 0, .L2⟩, ⟨30, 30, .RWI, 0, .L2⟩, ⟨29, 28, .RWI, 0, .L2⟩, ⟨27, 24, .RWI, 0, .L2⟩, ⟨23, 20, .RWI, 0, .L2⟩, ⟨12, 0, .RWI, 0x1000, .L2⟩]⟩ : RegDesc), 0) := by rfl
  have h := findReg_blkQD (i := i0.val) (d := 0x0) hb0 (by omega) he
  have e : (QF_QCFG i0) = 0x100000 + i0.val * 0x40 + 0x0 := by simp only [QF_QCFG]; omega
  rw [e]; exact h

theorem regCmd_QF_QCFG {s : State} {p : Port} {v : Word} (i0 : Fin 4096) (h : s.admits p (QF_QCFG i0) v = true) :
    regCmd p (QF_QCFG i0) v s = .next (s.after p (QF_QCFG i0) v (fun u => (u.qcfgWrite i0 (s.word p (QF_QCFG i0) v)).setMark (QF_QCFG i0) false)) := by
  have hb0 := i0.isLt
  rw [regCmd_admits _ (findReg_QF_QCFG i0) h]
  have hw := word_of (p := p) (v := v) (s := s) (findReg_QF_QCFG i0)
  have hq : ∀ u : State, u.clearsMark (QF_QCFG i0) 15 = true := fun u => clearsMark_queue (by simp only [QF_QCFG]; omega)
  have hwo : woBits ⟨0x0, 1, 0x4, false, false, false, [⟨31, 31, .RWI, 0, .L2⟩, ⟨30, 30, .RWI, 0, .L2⟩, ⟨29, 28, .RWI, 0, .L2⟩, ⟨27, 24, .RWI, 0, .L2⟩, ⟨23, 20, .RWI, 0, .L2⟩, ⟨12, 0, .RWI, 0x1000, .L2⟩]⟩ = 0x0#32 := by decide
  have key : ∀ u : State, s.wrote u p (QF_QCFG i0) ⟨i0.val, ⟨0x0, 1, 0x4, false, false, false, [⟨31, 31, .RWI, 0, .L2⟩, ⟨30, 30, .RWI, 0, .L2⟩, ⟨29, 28, .RWI, 0, .L2⟩, ⟨27, 24, .RWI, 0, .L2⟩, ⟨23, 20, .RWI, 0, .L2⟩, ⟨12, 0, .RWI, 0x1000, .L2⟩]⟩, 0⟩ v = (u.qcfgWrite i0 (s.word p (QF_QCFG i0) v)).setMark (QF_QCFG i0) false := by
    intro u
    simp only [State.wrote, hq, if_true, hw, hwo]
    rw [regEffect_qd (by simp only [QF_QCFG]; omega) (by simp only [QF_QCFG]; omega)]
    simp [State.qdWrite]
  simp only [key]

theorem findReg_blkCL {i d k : Nat} {t : RegDesc} (hi : i < 8) (hd : d < 0x80000) (he : findElem d blkCL.regs = some (t, k)) :
    findReg (0x400000 + i * 0x80000 + d) regBlocks = some ⟨i, t, k⟩ := by
  have hl : blkCL.locate (0x400000 + i * 0x80000 + d) = some (i, d) := locate_at rfl rfl rfl rfl hi hd
  have : regBlocks = [blkID, blkRC, blkPM, blkTB, blkTL, blkEV, blkEG, blkEC, blkJN, blkMB, blkFL, blkFLG, blkRS, blkMIG, blkMI, blkDB, blkSH, blkQD, blkQW, blkBC, blkQG, blkQH, blkSP, blkSOC, blkTI, blkTG, blkAR, blkTRG, blkPG, blkXB, blkPH, blkTM, blkTMG, blkPF, blkPFG, blkCP, blkCHG] ++ blkCL :: [blkLE, blkCS, blkPAGE] := rfl
  rw [this, findReg_skips _ (lo := 0x400000) (hi := 0x800000) (by omega) (by omega) (by decide +kernel), findReg_in hl he]

theorem findReg_CL_QPIN (i0 : Fin 8) (i1 : Fin 64) : findReg (CL_QPIN i0 i1) regBlocks = some ⟨i0.val, ⟨0x100, 64, 0x4, true, false, false, [⟨31, 31, .RW, 0, .L2⟩, ⟨11, 0, .RW, 0, .L2⟩]⟩, i1.val⟩ := by
  have hb0 := i0.isLt
  have hb1 := i1.isLt
  have he : findElem (0x100 + i1.val * 0x4) blkCL.regs = some ((⟨0x100, 64, 0x4, true, false, false, [⟨31, 31, .RW, 0, .L2⟩, ⟨11, 0, .RW, 0, .L2⟩]⟩ : RegDesc), i1.val) := (by decide +kernel : ∀ j : Fin 64, findElem (0x100 + j.val * 0x4) blkCL.regs = some ((⟨0x100, 64, 0x4, true, false, false, [⟨31, 31, .RW, 0, .L2⟩, ⟨11, 0, .RW, 0, .L2⟩]⟩ : RegDesc), j.val)) i1
  have h := findReg_blkCL (i := i0.val) (d := (0x100 + i1.val * 0x4)) hb0 (by omega) he
  have e : (CL_QPIN i0 i1) = 0x400000 + i0.val * 0x80000 + (0x100 + i1.val * 0x4) := by simp only [CL_QPIN]; omega
  rw [e]; exact h

theorem regCmd_CL_QPIN {s : State} {p : Port} {v : Word} (i0 : Fin 8) (i1 : Fin 64) (h : s.admits p (CL_QPIN i0 i1) v = true) :
    regCmd p (CL_QPIN i0 i1) v s = .next (s.after p (CL_QPIN i0 i1) v (fun u => u.qpinWrite i0 i1 (s.word p (CL_QPIN i0 i1) v))) := by
  have hb0 := i0.isLt
  have hb1 := i1.isLt
  rw [regCmd_admits _ (findReg_CL_QPIN i0 i1) h]
  have hw := word_of (p := p) (v := v) (s := s) (findReg_CL_QPIN i0 i1)
  have hq : ∀ u : State, u.clearsMark (CL_QPIN i0 i1) 15 = false := fun u => clearsMark_out (by simp only [CL_QPIN]; omega)
  have hwo : woBits ⟨0x100, 64, 0x4, true, false, false, [⟨31, 31, .RW, 0, .L2⟩, ⟨11, 0, .RW, 0, .L2⟩]⟩ = 0x0#32 := by decide
  have key : ∀ u : State, s.wrote u p (CL_QPIN i0 i1) ⟨i0.val, ⟨0x100, 64, 0x4, true, false, false, [⟨31, 31, .RW, 0, .L2⟩, ⟨11, 0, .RW, 0, .L2⟩]⟩, i1.val⟩ v = u.qpinWrite i0 i1 (s.word p (CL_QPIN i0 i1) v) := by
    intro u
    simp only [State.wrote, hq, Bool.false_eq_true, if_false, hw, hwo]
    refine (regEffect_cl (by simp only [CL_QPIN]; omega) (by simp only [CL_QPIN]; omega) (by simp only [CL_QPIN]; omega)).trans ?_
    simp [State.clWrite]
  simp only [key]

theorem findReg_blkQW {i d k : Nat} {t : RegDesc} (hi : i < 4096) (hd : d < 0x10) (he : findElem d blkQW.regs = some (t, k)) :
    findReg (0x140000 + i * 0x10 + d) regBlocks = some ⟨i, t, k⟩ := by
  have hl : blkQW.locate (0x140000 + i * 0x10 + d) = some (i, d) := locate_at rfl rfl rfl rfl hi hd
  have : regBlocks = [blkID, blkRC, blkPM, blkTB, blkTL, blkEV, blkEG, blkEC, blkJN, blkMB, blkFL, blkFLG, blkRS, blkMIG, blkMI, blkDB, blkSH, blkQD] ++ blkQW :: [blkBC, blkQG, blkQH, blkSP, blkSOC, blkTI, blkTG, blkAR, blkTRG, blkPG, blkXB, blkPH, blkTM, blkTMG, blkPF, blkPFG, blkCP, blkCHG, blkCL, blkLE, blkCS, blkPAGE] := rfl
  rw [this, findReg_skips _ (lo := 0x140000) (hi := 0x150000) (by omega) (by omega) (by decide +kernel), findReg_in hl he]

theorem findReg_QF_WMN_STAT (i0 : Fin 4096) : findReg (QF_WMN_STAT i0) regBlocks = some ⟨i0.val, ⟨0x0, 1, 0x4, false, true, false, [⟨31, 31, .WO, 0, .L2⟩, ⟨28, 16, .RO, 0, .L2⟩, ⟨2, 2, .RO, 0, .L2⟩, ⟨1, 1, .W1C, 0, .L2⟩, ⟨0, 0, .W1C, 0, .L2⟩]⟩, 0⟩ := by
  have hb0 := i0.isLt
  have he : findElem 0x0 blkQW.regs = some ((⟨0x0, 1, 0x4, false, true, false, [⟨31, 31, .WO, 0, .L2⟩, ⟨28, 16, .RO, 0, .L2⟩, ⟨2, 2, .RO, 0, .L2⟩, ⟨1, 1, .W1C, 0, .L2⟩, ⟨0, 0, .W1C, 0, .L2⟩]⟩ : RegDesc), 0) := by rfl
  have h := findReg_blkQW (i := i0.val) (d := 0x0) hb0 (by omega) he
  have e : (QF_WMN_STAT i0) = 0x140000 + i0.val * 0x10 + 0x0 := by simp only [QF_WMN_STAT]; omega
  rw [e]; exact h

theorem regCmd_QF_WMN_STAT {s : State} {p : Port} {v : Word} (i0 : Fin 4096) (h : s.admits p (QF_WMN_STAT i0) v = true) :
    regCmd p (QF_WMN_STAT i0) v s = .next (s.after p (QF_WMN_STAT i0) v (fun u => if vbit (s.word p (QF_WMN_STAT i0) v) 31 = true then (u.wmnClear i0 ((s.word p (QF_WMN_STAT i0) v) &&& ~~~(0x80000000#32)) (vfld (v &&& beMask 15) 0 2)).clrCnt i0 else u.wmnClear i0 ((s.word p (QF_WMN_STAT i0) v) &&& ~~~(0x80000000#32)) (vfld (v &&& beMask 15) 0 2))) := by
  have hb0 := i0.isLt
  rw [regCmd_admits _ (findReg_QF_WMN_STAT i0) h]
  have hw := word_of (p := p) (v := v) (s := s) (findReg_QF_WMN_STAT i0)
  have hq : ∀ u : State, u.clearsMark (QF_WMN_STAT i0) 15 = false := fun u => clearsMark_out (by simp only [QF_WMN_STAT]; omega)
  have hwo : woBits ⟨0x0, 1, 0x4, false, true, false, [⟨31, 31, .WO, 0, .L2⟩, ⟨28, 16, .RO, 0, .L2⟩, ⟨2, 2, .RO, 0, .L2⟩, ⟨1, 1, .W1C, 0, .L2⟩, ⟨0, 0, .W1C, 0, .L2⟩]⟩ = 0x80000000#32 := by decide
  have key : ∀ u : State, s.wrote u p (QF_WMN_STAT i0) ⟨i0.val, ⟨0x0, 1, 0x4, false, true, false, [⟨31, 31, .WO, 0, .L2⟩, ⟨28, 16, .RO, 0, .L2⟩, ⟨2, 2, .RO, 0, .L2⟩, ⟨1, 1, .W1C, 0, .L2⟩, ⟨0, 0, .W1C, 0, .L2⟩]⟩, 0⟩ v = if vbit (s.word p (QF_WMN_STAT i0) v) 31 = true then (u.wmnClear i0 ((s.word p (QF_WMN_STAT i0) v) &&& ~~~(0x80000000#32)) (vfld (v &&& beMask 15) 0 2)).clrCnt i0 else u.wmnClear i0 ((s.word p (QF_WMN_STAT i0) v) &&& ~~~(0x80000000#32)) (vfld (v &&& beMask 15) 0 2) := by
    intro u
    simp only [State.wrote, hq, Bool.false_eq_true, if_false, hw, hwo]
    refine (regEffect_qw (by simp only [QF_WMN_STAT]; omega) (by simp only [QF_WMN_STAT]; omega)).trans ?_
    simp []
  simp only [key]

theorem findReg_blkQG {i d k : Nat} {t : RegDesc} (hi : i < 1) (hd : d < 0xa0) (he : findElem d blkQG.regs = some (t, k)) :
    findReg (0x180000 + i * 0xa0 + d) regBlocks = some ⟨i, t, k⟩ := by
  have hl : blkQG.locate (0x180000 + i * 0xa0 + d) = some (i, d) := locate_at rfl rfl rfl rfl hi hd
  have : regBlocks = [blkID, blkRC, blkPM, blkTB, blkTL, blkEV, blkEG, blkEC, blkJN, blkMB, blkFL, blkFLG, blkRS, blkMIG, blkMI, blkDB, blkSH, blkQD, blkQW, blkBC] ++ blkQG :: [blkQH, blkSP, blkSOC, blkTI, blkTG, blkAR, blkTRG, blkPG, blkXB, blkPH, blkTM, blkTMG, blkPF, blkPFG, blkCP, blkCHG, blkCL, blkLE, blkCS, blkPAGE] := rfl
  rw [this, findReg_skips _ (lo := 0x180000) (hi := 0x1800a0) (by omega) (by omega) (by decide +kernel), findReg_in hl he]

theorem findReg_QF_SEED  : findReg QF_SEED regBlocks = some ⟨0, ⟨0x40, 1, 0x4, false, false, false, [⟨31, 31, .WO, 0, .L2⟩, ⟨28, 16, .RWI, 0, .L2⟩, ⟨13, 0, .RWI, 0, .L2⟩]⟩, 0⟩ := by
  have he : findElem 0x40 blkQG.regs = some ((⟨0x40, 1, 0x4, false, false, false, [⟨31, 31, .WO, 0, .L2⟩, ⟨28, 16, .RWI, 0, .L2⟩, ⟨13, 0, .RWI, 0, .L2⟩]⟩ : RegDesc), 0) := by rfl
  have h := findReg_blkQG (i := 0) (d := 0x40) (by omega) (by omega) he
  have e : QF_SEED = 0x180000 + 0 * 0xa0 + 0x40 := by simp only [QF_SEED]
  rw [e]; exact h

theorem regCmd_QF_SEED {s : State} {p : Port} {v : Word}  (h : s.admits p QF_SEED v = true) :
    regCmd p QF_SEED v s = .next (s.after p QF_SEED v (fun u => if vbit (s.word p QF_SEED v) 31 then (if u.flag QF_SEED_STAT fQF_SEED_STAT_BUSY then u.inc QF_CFG_REFUSED else (u.setReg QF_SEED ((s.word p QF_SEED v) &&& ~~~(0x80000000#32))).seedGo) else u.setReg QF_SEED ((s.word p QF_SEED v) &&& ~~~(0x80000000#32)))) := by
  rw [regCmd_admits _ (findReg_QF_SEED ) h]
  have hw := word_of (p := p) (v := v) (s := s) (findReg_QF_SEED )
  have hq : ∀ u : State, u.clearsMark QF_SEED 15 = false := fun u => clearsMark_out (by simp only [QF_SEED]; omega)
  have hwo : woBits ⟨0x40, 1, 0x4, false, false, false, [⟨31, 31, .WO, 0, .L2⟩, ⟨28, 16, .RWI, 0, .L2⟩, ⟨13, 0, .RWI, 0, .L2⟩]⟩ = 0x80000000#32 := by decide
  have key : ∀ u : State, s.wrote u p QF_SEED ⟨0, ⟨0x40, 1, 0x4, false, false, false, [⟨31, 31, .WO, 0, .L2⟩, ⟨28, 16, .RWI, 0, .L2⟩, ⟨13, 0, .RWI, 0, .L2⟩]⟩, 0⟩ v = if vbit (s.word p QF_SEED v) 31 then (if u.flag QF_SEED_STAT fQF_SEED_STAT_BUSY then u.inc QF_CFG_REFUSED else (u.setReg QF_SEED ((s.word p QF_SEED v) &&& ~~~(0x80000000#32))).seedGo) else u.setReg QF_SEED ((s.word p QF_SEED v) &&& ~~~(0x80000000#32)) := by
    intro u
    simp only [State.wrote, hq, Bool.false_eq_true, if_false, hw, hwo]
    refine (regEffect_qg (by simp only [QF_SEED]; omega) (by simp only [QF_SEED]; omega)).trans ?_
    simp [State.qgWrite]
  simp only [key]

theorem findReg_blkQH {i d k : Nat} {t : RegDesc} (hi : i < 2) (hd : d < 0x100) (he : findElem d blkQH.regs = some (t, k)) :
    findReg (0x180100 + i * 0x100 + d) regBlocks = some ⟨i, t, k⟩ := by
  have hl : blkQH.locate (0x180100 + i * 0x100 + d) = some (i, d) := locate_at rfl rfl rfl rfl hi hd
  have : regBlocks = [blkID, blkRC, blkPM, blkTB, blkTL, blkEV, blkEG, blkEC, blkJN, blkMB, blkFL, blkFLG, blkRS, blkMIG, blkMI, blkDB, blkSH, blkQD, blkQW, blkBC, blkQG] ++ blkQH :: [blkSP, blkSOC, blkTI, blkTG, blkAR, blkTRG, blkPG, blkXB, blkPH, blkTM, blkTMG, blkPF, blkPFG, blkCP, blkCHG, blkCL, blkLE, blkCS, blkPAGE] := rfl
  rw [this, findReg_skips _ (lo := 0x180100) (hi := 0x180300) (by omega) (by omega) (by decide +kernel), findReg_in hl he]

theorem findReg_QF_HOP (i0 : Fin 2) : findReg (QF_HOP i0) regBlocks = some ⟨i0.val, ⟨0x40, 1, 0x4, false, false, false, [⟨31, 30, .WO, 0, .L2⟩, ⟨11, 0, .WO, 0, .L2⟩]⟩, 0⟩ := by
  have hb0 := i0.isLt
  have he : findElem 0x40 blkQH.regs = some ((⟨0x40, 1, 0x4, false, false, false, [⟨31, 30, .WO, 0, .L2⟩, ⟨11, 0, .WO, 0, .L2⟩]⟩ : RegDesc), 0) := by rfl
  have h := findReg_blkQH (i := i0.val) (d := 0x40) hb0 (by omega) he
  have e : (QF_HOP i0) = 0x180100 + i0.val * 0x100 + 0x40 := by simp only [QF_HOP]; omega
  rw [e]; exact h

theorem regCmd_QF_HOP {s : State} {p : Port} {v : Word} (i0 : Fin 2) (h : s.admits p (QF_HOP i0) v = true) :
    regCmd p (QF_HOP i0) v s = .next (s.after p (QF_HOP i0) v (fun u => match vfld (s.word p (QF_HOP i0) v) 30 2 with | 1 => u.hop i0 (vfld (s.word p (QF_HOP i0) v) 0 12) .put | 2 => u.hop i0 (vfld (s.word p (QF_HOP i0) v) 0 12) .get | 3 => u.hop i0 (vfld (s.word p (QF_HOP i0) v) 0 12) .lvl | _ => u)) := by
  have hb0 := i0.isLt
  rw [regCmd_admits _ (findReg_QF_HOP i0) h]
  have hw := word_of (p := p) (v := v) (s := s) (findReg_QF_HOP i0)
  have hq : ∀ u : State, u.clearsMark (QF_HOP i0) 15 = false := fun u => clearsMark_out (by simp only [QF_HOP]; omega)
  have hwo : woBits ⟨0x40, 1, 0x4, false, false, false, [⟨31, 30, .WO, 0, .L2⟩, ⟨11, 0, .WO, 0, .L2⟩]⟩ = 0xc0000fff#32 := by decide
  have key : ∀ u : State, s.wrote u p (QF_HOP i0) ⟨i0.val, ⟨0x40, 1, 0x4, false, false, false, [⟨31, 30, .WO, 0, .L2⟩, ⟨11, 0, .WO, 0, .L2⟩]⟩, 0⟩ v = match vfld (s.word p (QF_HOP i0) v) 30 2 with | 1 => u.hop i0 (vfld (s.word p (QF_HOP i0) v) 0 12) .put | 2 => u.hop i0 (vfld (s.word p (QF_HOP i0) v) 0 12) .get | 3 => u.hop i0 (vfld (s.word p (QF_HOP i0) v) 0 12) .lvl | _ => u := by
    intro u
    simp only [State.wrote, hq, Bool.false_eq_true, if_false, hw, hwo]
    refine (regEffect_qh (by simp only [QF_HOP]; omega) (by simp only [QF_HOP]; omega)).trans ?_
    simp [State.qhWrite]
    all_goals rfl
  simp only [key]

theorem findReg_blkEC {i d k : Nat} {t : RegDesc} (hi : i < 1) (hd : d < 0x1a0) (he : findElem d blkEC.regs = some (t, k)) :
    findReg (0x2c000 + i * 0x1a0 + d) regBlocks = some ⟨i, t, k⟩ := by
  have hl : blkEC.locate (0x2c000 + i * 0x1a0 + d) = some (i, d) := locate_at rfl rfl rfl rfl hi hd
  have : regBlocks = [blkID, blkRC, blkPM, blkTB, blkTL, blkEV, blkEG] ++ blkEC :: [blkJN, blkMB, blkFL, blkFLG, blkRS, blkMIG, blkMI, blkDB, blkSH, blkQD, blkQW, blkBC, blkQG, blkQH, blkSP, blkSOC, blkTI, blkTG, blkAR, blkTRG, blkPG, blkXB, blkPH, blkTM, blkTMG, blkPF, blkPFG, blkCP, blkCHG, blkCL, blkLE, blkCS, blkPAGE] := rfl
  rw [this, findReg_skips _ (lo := 0x2c000) (hi := 0x2c1a0) (by omega) (by omega) (by decide +kernel), findReg_in hl he]

theorem findReg_EC_EOI  : findReg EC_EOI regBlocks = some ⟨0, ⟨0x0, 1, 0x4, false, false, false, [⟨9, 0, .WO, 0, .L2⟩]⟩, 0⟩ := by
  have he : findElem 0x0 blkEC.regs = some ((⟨0x0, 1, 0x4, false, false, false, [⟨9, 0, .WO, 0, .L2⟩]⟩ : RegDesc), 0) := by rfl
  have h := findReg_blkEC (i := 0) (d := 0x0) (by omega) (by omega) he
  have e : EC_EOI = 0x2c000 + 0 * 0x1a0 + 0x0 := by simp only [EC_EOI]
  rw [e]; exact h

theorem regCmd_EC_EOI {s : State} {p : Port} {v : Word}  (h : s.admits p EC_EOI v = true) :
    regCmd p EC_EOI v s = .next (s.after p EC_EOI v (fun u => u.eoi (vfld (s.word p EC_EOI v) 0 10))) := by
  rw [regCmd_admits _ (findReg_EC_EOI ) h]
  have hw := word_of (p := p) (v := v) (s := s) (findReg_EC_EOI )
  have hq : ∀ u : State, u.clearsMark EC_EOI 15 = false := fun u => clearsMark_out (by simp only [EC_EOI]; omega)
  have hwo : woBits ⟨0x0, 1, 0x4, false, false, false, [⟨9, 0, .WO, 0, .L2⟩]⟩ = 0x3ff#32 := by decide
  have key : ∀ u : State, s.wrote u p EC_EOI ⟨0, ⟨0x0, 1, 0x4, false, false, false, [⟨9, 0, .WO, 0, .L2⟩]⟩, 0⟩ v = u.eoi (vfld (s.word p EC_EOI v) 0 10) := by
    intro u
    simp only [State.wrote, hq, Bool.false_eq_true, if_false, hw, hwo]
    refine (regEffect_ec (by simp only [EC_EOI]; omega) (by simp only [EC_EOI]; omega)).trans ?_
    simp []
  simp only [key]

theorem findReg_EC_SW_RAISE  : findReg EC_SW_RAISE regBlocks = some ⟨0, ⟨0x10, 1, 0x4, true, false, false, [⟨9, 0, .WO, 0, .L2⟩]⟩, 0⟩ := by
  have he : findElem 0x10 blkEC.regs = some ((⟨0x10, 1, 0x4, true, false, false, [⟨9, 0, .WO, 0, .L2⟩]⟩ : RegDesc), 0) := by rfl
  have h := findReg_blkEC (i := 0) (d := 0x10) (by omega) (by omega) he
  have e : EC_SW_RAISE = 0x2c000 + 0 * 0x1a0 + 0x10 := by simp only [EC_SW_RAISE]
  rw [e]; exact h

theorem regCmd_EC_SW_RAISE {s : State} {p : Port} {v : Word}  (h : s.admits p EC_SW_RAISE v = true) :
    regCmd p EC_SW_RAISE v s = .next (s.after p EC_SW_RAISE v (fun u => u.swRaise (vfld (s.word p EC_SW_RAISE v) 0 10))) := by
  rw [regCmd_admits _ (findReg_EC_SW_RAISE ) h]
  have hw := word_of (p := p) (v := v) (s := s) (findReg_EC_SW_RAISE )
  have hq : ∀ u : State, u.clearsMark EC_SW_RAISE 15 = false := fun u => clearsMark_out (by simp only [EC_SW_RAISE]; omega)
  have hwo : woBits ⟨0x10, 1, 0x4, true, false, false, [⟨9, 0, .WO, 0, .L2⟩]⟩ = 0x3ff#32 := by decide
  have key : ∀ u : State, s.wrote u p EC_SW_RAISE ⟨0, ⟨0x10, 1, 0x4, true, false, false, [⟨9, 0, .WO, 0, .L2⟩]⟩, 0⟩ v = u.swRaise (vfld (s.word p EC_SW_RAISE v) 0 10) := by
    intro u
    simp only [State.wrote, hq, Bool.false_eq_true, if_false, hw, hwo]
    refine (regEffect_ec (by simp only [EC_SW_RAISE]; omega) (by simp only [EC_SW_RAISE]; omega)).trans ?_
    simp [(by decide : EC_SW_RAISE ≠ EC_EOI)]
  simp only [key]

theorem findReg_blkEV {i d k : Nat} {t : RegDesc} (hi : i < 1024) (hd : d < 0x10) (he : findElem d blkEV.regs = some (t, k)) :
    findReg (0x20000 + i * 0x10 + d) regBlocks = some ⟨i, t, k⟩ := by
  have hl : blkEV.locate (0x20000 + i * 0x10 + d) = some (i, d) := locate_at rfl rfl rfl rfl hi hd
  have : regBlocks = [blkID, blkRC, blkPM, blkTB, blkTL] ++ blkEV :: [blkEG, blkEC, blkJN, blkMB, blkFL, blkFLG, blkRS, blkMIG, blkMI, blkDB, blkSH, blkQD, blkQW, blkBC, blkQG, blkQH, blkSP, blkSOC, blkTI, blkTG, blkAR, blkTRG, blkPG, blkXB, blkPH, blkTM, blkTMG, blkPF, blkPFG, blkCP, blkCHG, blkCL, blkLE, blkCS, blkPAGE] := rfl
  rw [this, findReg_skips _ (lo := 0x20000) (hi := 0x24000) (by omega) (by omega) (by decide +kernel), findReg_in hl he]

theorem findReg_EC_TARGET (i0 : Fin 1024) : findReg (EC_TARGET i0) regBlocks = some ⟨i0.val, ⟨0x0, 1, 0x4, false, false, false, [⟨31, 31, .RWI, 0, .L2⟩, ⟨27, 24, .RWI, 0, .L3⟩, ⟨4, 0, .RWI, 0x15, .L2⟩]⟩, 0⟩ := by
  have hb0 := i0.isLt
  have he : findElem 0x0 blkEV.regs = some ((⟨0x0, 1, 0x4, false, false, false, [⟨31, 31, .RWI, 0, .L2⟩, ⟨27, 24, .RWI, 0, .L3⟩, ⟨4, 0, .RWI, 0x15, .L2⟩]⟩ : RegDesc), 0) := by rfl
  have h := findReg_blkEV (i := i0.val) (d := 0x0) hb0 (by omega) he
  have e : (EC_TARGET i0) = 0x20000 + i0.val * 0x10 + 0x0 := by simp only [EC_TARGET]; omega
  rw [e]; exact h

theorem regCmd_EC_TARGET {s : State} {p : Port} {v : Word} (i0 : Fin 1024) (h : s.admits p (EC_TARGET i0) v = true) :
    regCmd p (EC_TARGET i0) v s = .next (s.after p (EC_TARGET i0) v (fun u => u.ecTargetWrite i0 (s.word p (EC_TARGET i0) v))) := by
  have hb0 := i0.isLt
  rw [regCmd_admits _ (findReg_EC_TARGET i0) h]
  have hw := word_of (p := p) (v := v) (s := s) (findReg_EC_TARGET i0)
  have hq : ∀ u : State, u.clearsMark (EC_TARGET i0) 15 = false := fun u => clearsMark_out (by simp only [EC_TARGET]; omega)
  have hwo : woBits ⟨0x0, 1, 0x4, false, false, false, [⟨31, 31, .RWI, 0, .L2⟩, ⟨27, 24, .RWI, 0, .L3⟩, ⟨4, 0, .RWI, 0x15, .L2⟩]⟩ = 0x0#32 := by decide
  have key : ∀ u : State, s.wrote u p (EC_TARGET i0) ⟨i0.val, ⟨0x0, 1, 0x4, false, false, false, [⟨31, 31, .RWI, 0, .L2⟩, ⟨27, 24, .RWI, 0, .L3⟩, ⟨4, 0, .RWI, 0x15, .L2⟩]⟩, 0⟩ v = u.ecTargetWrite i0 (s.word p (EC_TARGET i0) v) := by
    intro u
    simp only [State.wrote, hq, Bool.false_eq_true, if_false, hw, hwo]
    refine (regEffect_ev (by simp only [EC_TARGET]; omega) (by simp only [EC_TARGET]; omega)).trans ?_
    simp []
  simp only [key]

theorem findReg_blkJN {i d k : Nat} {t : RegDesc} (hi : i < 1) (hd : d < 0x5c) (he : findElem d blkJN.regs = some (t, k)) :
    findReg (0x30000 + i * 0x5c + d) regBlocks = some ⟨i, t, k⟩ := by
  have hl : blkJN.locate (0x30000 + i * 0x5c + d) = some (i, d) := locate_at rfl rfl rfl rfl hi hd
  have : regBlocks = [blkID, blkRC, blkPM, blkTB, blkTL, blkEV, blkEG, blkEC] ++ blkJN :: [blkMB, blkFL, blkFLG, blkRS, blkMIG, blkMI, blkDB, blkSH, blkQD, blkQW, blkBC, blkQG, blkQH, blkSP, blkSOC, blkTI, blkTG, blkAR, blkTRG, blkPG, blkXB, blkPH, blkTM, blkTMG, blkPF, blkPFG, blkCP, blkCHG, blkCL, blkLE, blkCS, blkPAGE] := rfl
  rw [this, findReg_skips _ (lo := 0x30000) (hi := 0x3005c) (by omega) (by omega) (by decide +kernel), findReg_in hl he]

theorem findReg_JN_CTRL  : findReg JN_CTRL regBlocks = some ⟨0, ⟨0x0, 1, 0x4, false, false, false, [⟨2, 2, .WO, 0, .L2⟩, ⟨1, 1, .WO, 0, .L2⟩, ⟨0, 0, .RWI, 0, .L2⟩]⟩, 0⟩ := by
  have he : findElem 0x0 blkJN.regs = some ((⟨0x0, 1, 0x4, false, false, false, [⟨2, 2, .WO, 0, .L2⟩, ⟨1, 1, .WO, 0, .L2⟩, ⟨0, 0, .RWI, 0, .L2⟩]⟩ : RegDesc), 0) := by rfl
  have h := findReg_blkJN (i := 0) (d := 0x0) (by omega) (by omega) he
  have e : JN_CTRL = 0x30000 + 0 * 0x5c + 0x0 := by simp only [JN_CTRL]
  rw [e]; exact h

theorem regCmd_JN_CTRL {s : State} {p : Port} {v : Word}  (h : s.admits p JN_CTRL v = true) :
    regCmd p JN_CTRL v s = .next (s.after p JN_CTRL v (fun u => u.jnCtrlWrite (s.word p JN_CTRL v))) := by
  rw [regCmd_admits _ (findReg_JN_CTRL ) h]
  have hw := word_of (p := p) (v := v) (s := s) (findReg_JN_CTRL )
  have hq : ∀ u : State, u.clearsMark JN_CTRL 15 = false := fun u => clearsMark_out (by simp only [JN_CTRL]; omega)
  have hwo : woBits ⟨0x0, 1, 0x4, false, false, false, [⟨2, 2, .WO, 0, .L2⟩, ⟨1, 1, .WO, 0, .L2⟩, ⟨0, 0, .RWI, 0, .L2⟩]⟩ = 0x6#32 := by decide
  have key : ∀ u : State, s.wrote u p JN_CTRL ⟨0, ⟨0x0, 1, 0x4, false, false, false, [⟨2, 2, .WO, 0, .L2⟩, ⟨1, 1, .WO, 0, .L2⟩, ⟨0, 0, .RWI, 0, .L2⟩]⟩, 0⟩ v = u.jnCtrlWrite (s.word p JN_CTRL v) := by
    intro u
    simp only [State.wrote, hq, Bool.false_eq_true, if_false, hw, hwo]
    refine (regEffect_jn (by simp only [JN_CTRL]; omega) (by simp only [JN_CTRL]; omega)).trans ?_
    simp []
  simp only [key]

theorem findReg_blkFL {i d k : Nat} {t : RegDesc} (hi : i < 16) (hd : d < 0x400) (he : findElem d blkFL.regs = some (t, k)) :
    findReg (0x50000 + i * 0x400 + d) regBlocks = some ⟨i, t, k⟩ := by
  have hl : blkFL.locate (0x50000 + i * 0x400 + d) = some (i, d) := locate_at rfl rfl rfl rfl hi hd
  have : regBlocks = [blkID, blkRC, blkPM, blkTB, blkTL, blkEV, blkEG, blkEC, blkJN, blkMB] ++ blkFL :: [blkFLG, blkRS, blkMIG, blkMI, blkDB, blkSH, blkQD, blkQW, blkBC, blkQG, blkQH, blkSP, blkSOC, blkTI, blkTG, blkAR, blkTRG, blkPG, blkXB, blkPH, blkTM, blkTMG, blkPF, blkPFG, blkCP, blkCHG, blkCL, blkLE, blkCS, blkPAGE] := rfl
  rw [this, findReg_skips _ (lo := 0x50000) (hi := 0x54000) (by omega) (by omega) (by decide +kernel), findReg_in hl he]

theorem findReg_FLK_CTRL (i0 : Fin 16) : findReg (FLK_CTRL i0) regBlocks = some ⟨i0.val, ⟨0x0, 1, 0x4, false, false, false, [⟨1, 1, .WO, 0, .L2⟩, ⟨0, 0, .RWI, 0, .L2⟩]⟩, 0⟩ := by
  have hb0 := i0.isLt
  have he : findElem 0x0 blkFL.regs = some ((⟨0x0, 1, 0x4, false, false, false, [⟨1, 1, .WO, 0, .L2⟩, ⟨0, 0, .RWI, 0, .L2⟩]⟩ : RegDesc), 0) := by rfl
  have h := findReg_blkFL (i := i0.val) (d := 0x0) hb0 (by omega) he
  have e : (FLK_CTRL i0) = 0x50000 + i0.val * 0x400 + 0x0 := by simp only [FLK_CTRL]; omega
  rw [e]; exact h

theorem regCmd_FLK_CTRL {s : State} {p : Port} {v : Word} (i0 : Fin 16) (h : s.admits p (FLK_CTRL i0) v = true) :
    regCmd p (FLK_CTRL i0) v s = .next (s.after p (FLK_CTRL i0) v (fun u => u.flkCtrlWrite i0 (s.master p).who (if (s.master p).lvl = 3 then some (vbit (s.word p (FLK_CTRL i0) v) 0) else none) (vbit (s.word p (FLK_CTRL i0) v) 1))) := by
  have hb0 := i0.isLt
  rw [regCmd_admits _ (findReg_FLK_CTRL i0) h]
  have hw := word_of (p := p) (v := v) (s := s) (findReg_FLK_CTRL i0)
  have hq : ∀ u : State, u.clearsMark (FLK_CTRL i0) 15 = false := fun u => clearsMark_out (by simp only [FLK_CTRL]; omega)
  have hwo : woBits ⟨0x0, 1, 0x4, false, false, false, [⟨1, 1, .WO, 0, .L2⟩, ⟨0, 0, .RWI, 0, .L2⟩]⟩ = 0x2#32 := by decide
  have key : ∀ u : State, s.wrote u p (FLK_CTRL i0) ⟨i0.val, ⟨0x0, 1, 0x4, false, false, false, [⟨1, 1, .WO, 0, .L2⟩, ⟨0, 0, .RWI, 0, .L2⟩]⟩, 0⟩ v = u.flkCtrlWrite i0 (s.master p).who (if (s.master p).lvl = 3 then some (vbit (s.word p (FLK_CTRL i0) v) 0) else none) (vbit (s.word p (FLK_CTRL i0) v) 1) := by
    intro u
    simp only [State.wrote, hq, Bool.false_eq_true, if_false, hw, hwo]
    refine (regEffect_fl (by simp only [FLK_CTRL]; omega) (by simp only [FLK_CTRL]; omega)).trans ?_
    simp []
  simp only [key]

theorem findReg_blkSH {i d k : Nat} {t : RegDesc} (hi : i < 1) (hd : d < 0x600) (he : findElem d blkSH.regs = some (t, k)) :
    findReg (0x90000 + i * 0x600 + d) regBlocks = some ⟨i, t, k⟩ := by
  have hl : blkSH.locate (0x90000 + i * 0x600 + d) = some (i, d) := locate_at rfl rfl rfl rfl hi hd
  have : regBlocks = [blkID, blkRC, blkPM, blkTB, blkTL, blkEV, blkEG, blkEC, blkJN, blkMB, blkFL, blkFLG, blkRS, blkMIG, blkMI, blkDB] ++ blkSH :: [blkQD, blkQW, blkBC, blkQG, blkQH, blkSP, blkSOC, blkTI, blkTG, blkAR, blkTRG, blkPG, blkXB, blkPH, blkTM, blkTMG, blkPF, blkPFG, blkCP, blkCHG, blkCL, blkLE, blkCS, blkPAGE] := rfl
  rw [this, findReg_skips _ (lo := 0x90000) (hi := 0x90600) (by omega) (by omega) (by decide +kernel), findReg_in hl he]

theorem findReg_SH_WDG_KICK  : findReg SH_WDG_KICK regBlocks = some ⟨0, ⟨0xA8, 1, 0x4, false, false, false, [⟨7, 0, .WO, 0, .L2⟩]⟩, 0⟩ := by
  have he : findElem 0xa8 blkSH.regs = some ((⟨0xA8, 1, 0x4, false, false, false, [⟨7, 0, .WO, 0, .L2⟩]⟩ : RegDesc), 0) := by rfl
  have h := findReg_blkSH (i := 0) (d := 0xa8) (by omega) (by omega) he
  have e : SH_WDG_KICK = 0x90000 + 0 * 0x600 + 0xa8 := by simp only [SH_WDG_KICK]
  rw [e]; exact h

theorem regCmd_SH_WDG_KICK {s : State} {p : Port} {v : Word}  (h : s.admits p SH_WDG_KICK v = true) :
    regCmd p SH_WDG_KICK v s = .next (s.after p SH_WDG_KICK v (fun u => u.wdgKick (vfld (s.word p SH_WDG_KICK v) 0 8))) := by
  rw [regCmd_admits _ (findReg_SH_WDG_KICK ) h]
  have hw := word_of (p := p) (v := v) (s := s) (findReg_SH_WDG_KICK )
  have hq : ∀ u : State, u.clearsMark SH_WDG_KICK 15 = false := fun u => clearsMark_out (by simp only [SH_WDG_KICK]; omega)
  have hwo : woBits ⟨0xA8, 1, 0x4, false, false, false, [⟨7, 0, .WO, 0, .L2⟩]⟩ = 0xff#32 := by decide
  have key : ∀ u : State, s.wrote u p SH_WDG_KICK ⟨0, ⟨0xA8, 1, 0x4, false, false, false, [⟨7, 0, .WO, 0, .L2⟩]⟩, 0⟩ v = u.wdgKick (vfld (s.word p SH_WDG_KICK v) 0 8) := by
    intro u
    simp only [State.wrote, hq, Bool.false_eq_true, if_false, hw, hwo]
    refine (regEffect_sh (by simp only [SH_WDG_KICK]; omega) (by simp only [SH_WDG_KICK]; omega)).trans ?_
    simp [State.shWrite, (by decide : SH_WDG_KICK ≠ SH_CTRL), (by decide : SH_WDG_KICK ≠ SH_OBUDGET)]
  simp only [key]

theorem findReg_SH_CTRL  : findReg SH_CTRL regBlocks = some ⟨0, ⟨0x0, 1, 0x4, false, false, false, [⟨31, 31, .W1S, 0, .L2⟩, ⟨4, 4, .WO, 0, .L2⟩, ⟨3, 3, .WO, 0, .L2⟩, ⟨1, 1, .RWL, 0, .L2⟩, ⟨0, 0, .RWL, 0, .L2⟩]⟩, 0⟩ := by
  have he : findElem 0x0 blkSH.regs = some ((⟨0x0, 1, 0x4, false, false, false, [⟨31, 31, .W1S, 0, .L2⟩, ⟨4, 4, .WO, 0, .L2⟩, ⟨3, 3, .WO, 0, .L2⟩, ⟨1, 1, .RWL, 0, .L2⟩, ⟨0, 0, .RWL, 0, .L2⟩]⟩ : RegDesc), 0) := by rfl
  have h := findReg_blkSH (i := 0) (d := 0x0) (by omega) (by omega) he
  have e : SH_CTRL = 0x90000 + 0 * 0x600 + 0x0 := by simp only [SH_CTRL]
  rw [e]; exact h

theorem regCmd_SH_CTRL {s : State} {p : Port} {v : Word}  (h : s.admits p SH_CTRL v = true) :
    regCmd p SH_CTRL v s = .next (s.after p SH_CTRL v (fun u => u.shWrite SH_CTRL (s.word p SH_CTRL v) ((s.word p SH_CTRL v) &&& ~~~(0x18#32)))) := by
  rw [regCmd_admits _ (findReg_SH_CTRL ) h]
  have hw := word_of (p := p) (v := v) (s := s) (findReg_SH_CTRL )
  have hq : ∀ u : State, u.clearsMark SH_CTRL 15 = false := fun u => clearsMark_out (by simp only [SH_CTRL]; omega)
  have hwo : woBits ⟨0x0, 1, 0x4, false, false, false, [⟨31, 31, .W1S, 0, .L2⟩, ⟨4, 4, .WO, 0, .L2⟩, ⟨3, 3, .WO, 0, .L2⟩, ⟨1, 1, .RWL, 0, .L2⟩, ⟨0, 0, .RWL, 0, .L2⟩]⟩ = 0x18#32 := by decide
  have key : ∀ u : State, s.wrote u p SH_CTRL ⟨0, ⟨0x0, 1, 0x4, false, false, false, [⟨31, 31, .W1S, 0, .L2⟩, ⟨4, 4, .WO, 0, .L2⟩, ⟨3, 3, .WO, 0, .L2⟩, ⟨1, 1, .RWL, 0, .L2⟩, ⟨0, 0, .RWL, 0, .L2⟩]⟩, 0⟩ v = u.shWrite SH_CTRL (s.word p SH_CTRL v) ((s.word p SH_CTRL v) &&& ~~~(0x18#32)) := by
    intro u
    simp only [State.wrote, hq, Bool.false_eq_true, if_false, hw, hwo]
    refine (regEffect_sh (by simp only [SH_CTRL]; omega) (by simp only [SH_CTRL]; omega)).trans ?_
    simp []
  simp only [key]

theorem findReg_blkMB {i d k : Nat} {t : RegDesc} (hi : i < 32) (hd : d < 0x800) (he : findElem d blkMB.regs = some (t, k)) :
    findReg (0x40000 + i * 0x800 + d) regBlocks = some ⟨i, t, k⟩ := by
  have hl : blkMB.locate (0x40000 + i * 0x800 + d) = some (i, d) := locate_at rfl rfl rfl rfl hi hd
  have : regBlocks = [blkID, blkRC, blkPM, blkTB, blkTL, blkEV, blkEG, blkEC, blkJN] ++ blkMB :: [blkFL, blkFLG, blkRS, blkMIG, blkMI, blkDB, blkSH, blkQD, blkQW, blkBC, blkQG, blkQH, blkSP, blkSOC, blkTI, blkTG, blkAR, blkTRG, blkPG, blkXB, blkPH, blkTM, blkTMG, blkPF, blkPFG, blkCP, blkCHG, blkCL, blkLE, blkCS, blkPAGE] := rfl
  rw [this, findReg_skips _ (lo := 0x40000) (hi := 0x50000) (by omega) (by omega) (by decide +kernel), findReg_in hl he]

theorem findReg_MB_DOORBELL (i0 : Fin 32) : findReg (MB_DOORBELL i0) regBlocks = some ⟨i0.val, ⟨0x0, 1, 0x4, false, false, false, [⟨0, 0, .WO, 0, .L2⟩]⟩, 0⟩ := by
  have hb0 := i0.isLt
  have he : findElem 0x0 blkMB.regs = some ((⟨0x0, 1, 0x4, false, false, false, [⟨0, 0, .WO, 0, .L2⟩]⟩ : RegDesc), 0) := by rfl
  have h := findReg_blkMB (i := i0.val) (d := 0x0) hb0 (by omega) he
  have e : (MB_DOORBELL i0) = 0x40000 + i0.val * 0x800 + 0x0 := by simp only [MB_DOORBELL]; omega
  rw [e]; exact h

theorem regCmd_MB_DOORBELL {s : State} {p : Port} {v : Word} (i0 : Fin 32) (h : s.admits p (MB_DOORBELL i0) v = true) :
    regCmd p (MB_DOORBELL i0) v s = .next (s.after p (MB_DOORBELL i0) v (fun u => if vbit (s.word p (MB_DOORBELL i0) v) 0 then u.mbRing i0 (if (s.master p).who = 1 then (s.master p).lvl - 1 else 0) else u)) := by
  have hb0 := i0.isLt
  rw [regCmd_admits _ (findReg_MB_DOORBELL i0) h]
  have hw := word_of (p := p) (v := v) (s := s) (findReg_MB_DOORBELL i0)
  have hq : ∀ u : State, u.clearsMark (MB_DOORBELL i0) 15 = false := fun u => clearsMark_out (by simp only [MB_DOORBELL]; omega)
  have hwo : woBits ⟨0x0, 1, 0x4, false, false, false, [⟨0, 0, .WO, 0, .L2⟩]⟩ = 0x1#32 := by decide
  have key : ∀ u : State, s.wrote u p (MB_DOORBELL i0) ⟨i0.val, ⟨0x0, 1, 0x4, false, false, false, [⟨0, 0, .WO, 0, .L2⟩]⟩, 0⟩ v = if vbit (s.word p (MB_DOORBELL i0) v) 0 then u.mbRing i0 (if (s.master p).who = 1 then (s.master p).lvl - 1 else 0) else u := by
    intro u
    simp only [State.wrote, hq, Bool.false_eq_true, if_false, hw, hwo]
    refine (regEffect_mb (by simp only [MB_DOORBELL]; omega) (by simp only [MB_DOORBELL]; omega)).trans ?_
    simp []
  simp only [key]

theorem findReg_blkMI {i d k : Nat} {t : RegDesc} (hi : i < 10) (hd : d < 0x100) (he : findElem d blkMI.regs = some (t, k)) :
    findReg (0x71000 + i * 0x100 + d) regBlocks = some ⟨i, t, k⟩ := by
  have hl : blkMI.locate (0x71000 + i * 0x100 + d) = some (i, d) := locate_at rfl rfl rfl rfl hi hd
  have : regBlocks = [blkID, blkRC, blkPM, blkTB, blkTL, blkEV, blkEG, blkEC, blkJN, blkMB, blkFL, blkFLG, blkRS, blkMIG] ++ blkMI :: [blkDB, blkSH, blkQD, blkQW, blkBC, blkQG, blkQH, blkSP, blkSOC, blkTI, blkTG, blkAR, blkTRG, blkPG, blkXB, blkPH, blkTM, blkTMG, blkPF, blkPFG, blkCP, blkCHG, blkCL, blkLE, blkCS, blkPAGE] := rfl
  rw [this, findReg_skips _ (lo := 0x71000) (hi := 0x71a00) (by omega) (by omega) (by decide +kernel), findReg_in hl he]

theorem findReg_MI_REMAP (i0 : Fin 10) (i1 : Fin 8) : findReg (MI_REMAP i0 i1) regBlocks = some ⟨i0.val, ⟨0x40, 8, 0x4, false, false, false, [⟨31, 31, .RWI, 0, .L3⟩, ⟨30, 24, .RWI, 0, .L3⟩, ⟨23, 17, .RWI, 0, .L3⟩, ⟨15, 8, .RWI, 0, .L3⟩, ⟨1, 0, .RWI, 0, .L3⟩]⟩, i1.val⟩ := by
  have hb0 := i0.isLt
  have hb1 := i1.isLt
  have he : findElem (0x40 + i1.val * 0x4) blkMI.regs = some ((⟨0x40, 8, 0x4, false, false, false, [⟨31, 31, .RWI, 0, .L3⟩, ⟨30, 24, .RWI, 0, .L3⟩, ⟨23, 17, .RWI, 0, .L3⟩, ⟨15, 8, .RWI, 0, .L3⟩, ⟨1, 0, .RWI, 0, .L3⟩]⟩ : RegDesc), i1.val) := (by decide +kernel : ∀ j : Fin 8, findElem (0x40 + j.val * 0x4) blkMI.regs = some ((⟨0x40, 8, 0x4, false, false, false, [⟨31, 31, .RWI, 0, .L3⟩, ⟨30, 24, .RWI, 0, .L3⟩, ⟨23, 17, .RWI, 0, .L3⟩, ⟨15, 8, .RWI, 0, .L3⟩, ⟨1, 0, .RWI, 0, .L3⟩]⟩ : RegDesc), j.val)) i1
  have h := findReg_blkMI (i := i0.val) (d := (0x40 + i1.val * 0x4)) hb0 (by omega) he
  have e : (MI_REMAP i0 i1) = 0x71000 + i0.val * 0x100 + (0x40 + i1.val * 0x4) := by simp only [MI_REMAP]; omega
  rw [e]; exact h

theorem regCmd_MI_REMAP {s : State} {p : Port} {v : Word} (i0 : Fin 10) (i1 : Fin 8) (h : s.admits p (MI_REMAP i0 i1) v = true) :
    regCmd p (MI_REMAP i0 i1) v s = .next (s.after p (MI_REMAP i0 i1) v (fun u => u.remapWrite i0 i1 (s.word p (MI_REMAP i0 i1) v))) := by
  have hb0 := i0.isLt
  have hb1 := i1.isLt
  rw [regCmd_admits _ (findReg_MI_REMAP i0 i1) h]
  have hw := word_of (p := p) (v := v) (s := s) (findReg_MI_REMAP i0 i1)
  have hq : ∀ u : State, u.clearsMark (MI_REMAP i0 i1) 15 = false := fun u => clearsMark_out (by simp only [MI_REMAP]; omega)
  have hwo : woBits ⟨0x40, 8, 0x4, false, false, false, [⟨31, 31, .RWI, 0, .L3⟩, ⟨30, 24, .RWI, 0, .L3⟩, ⟨23, 17, .RWI, 0, .L3⟩, ⟨15, 8, .RWI, 0, .L3⟩, ⟨1, 0, .RWI, 0, .L3⟩]⟩ = 0x0#32 := by decide
  have key : ∀ u : State, s.wrote u p (MI_REMAP i0 i1) ⟨i0.val, ⟨0x40, 8, 0x4, false, false, false, [⟨31, 31, .RWI, 0, .L3⟩, ⟨30, 24, .RWI, 0, .L3⟩, ⟨23, 17, .RWI, 0, .L3⟩, ⟨15, 8, .RWI, 0, .L3⟩, ⟨1, 0, .RWI, 0, .L3⟩]⟩, i1.val⟩ v = u.remapWrite i0 i1 (s.word p (MI_REMAP i0 i1) v) := by
    intro u
    simp only [State.wrote, hq, Bool.false_eq_true, if_false, hw, hwo]
    refine (regEffect_mi (by simp only [MI_REMAP]; omega) (by simp only [MI_REMAP]; omega)).trans ?_
    simp [State.miGroupWrite]
  simp only [key]

theorem findReg_MI_SWEEP (i0 : Fin 10) : findReg (MI_SWEEP i0) regBlocks = some ⟨i0.val, ⟨0x64, 1, 0x4, false, false, false, [⟨31, 31, .WO, 0, .L2⟩, ⟨6, 0, .RWI, 0, .L2⟩]⟩, 0⟩ := by
  have hb0 := i0.isLt
  have he : findElem 0x64 blkMI.regs = some ((⟨0x64, 1, 0x4, false, false, false, [⟨31, 31, .WO, 0, .L2⟩, ⟨6, 0, .RWI, 0, .L2⟩]⟩ : RegDesc), 0) := by rfl
  have h := findReg_blkMI (i := i0.val) (d := 0x64) hb0 (by omega) he
  have e : (MI_SWEEP i0) = 0x71000 + i0.val * 0x100 + 0x64 := by simp only [MI_SWEEP]; omega
  rw [e]; exact h

theorem regCmd_MI_SWEEP {s : State} {p : Port} {v : Word} (i0 : Fin 10) (h : s.admits p (MI_SWEEP i0) v = true) :
    regCmd p (MI_SWEEP i0) v s = .next (s.after p (MI_SWEEP i0) v (fun u => if vbit (s.word p (MI_SWEEP i0) v) 31 then (u.setReg (MI_SWEEP i0) ((s.word p (MI_SWEEP i0) v) &&& ~~~(0x80000000#32))).sweepGo i0 else u.setReg (MI_SWEEP i0) ((s.word p (MI_SWEEP i0) v) &&& ~~~(0x80000000#32)))) := by
  have hb0 := i0.isLt
  rw [regCmd_admits _ (findReg_MI_SWEEP i0) h]
  have hw := word_of (p := p) (v := v) (s := s) (findReg_MI_SWEEP i0)
  have hq : ∀ u : State, u.clearsMark (MI_SWEEP i0) 15 = false := fun u => clearsMark_out (by simp only [MI_SWEEP]; omega)
  have hwo : woBits ⟨0x64, 1, 0x4, false, false, false, [⟨31, 31, .WO, 0, .L2⟩, ⟨6, 0, .RWI, 0, .L2⟩]⟩ = 0x80000000#32 := by decide
  have key : ∀ u : State, s.wrote u p (MI_SWEEP i0) ⟨i0.val, ⟨0x64, 1, 0x4, false, false, false, [⟨31, 31, .WO, 0, .L2⟩, ⟨6, 0, .RWI, 0, .L2⟩]⟩, 0⟩ v = if vbit (s.word p (MI_SWEEP i0) v) 31 then (u.setReg (MI_SWEEP i0) ((s.word p (MI_SWEEP i0) v) &&& ~~~(0x80000000#32))).sweepGo i0 else u.setReg (MI_SWEEP i0) ((s.word p (MI_SWEEP i0) v) &&& ~~~(0x80000000#32)) := by
    intro u
    simp only [State.wrote, hq, Bool.false_eq_true, if_false, hw, hwo]
    refine (regEffect_mi (by simp only [MI_SWEEP]; omega) (by simp only [MI_SWEEP]; omega)).trans ?_
    simp [State.miGroupWrite]
  simp only [key]

theorem findReg_MI_GCTL (i0 : Fin 10) : findReg (MI_GCTL i0) regBlocks = some ⟨i0.val, ⟨0x8, 1, 0x4, false, false, false, [⟨0, 0, .WO, 0, .L2⟩]⟩, 0⟩ := by
  have hb0 := i0.isLt
  have he : findElem 0x8 blkMI.regs = some ((⟨0x8, 1, 0x4, false, false, false, [⟨0, 0, .WO, 0, .L2⟩]⟩ : RegDesc), 0) := by rfl
  have h := findReg_blkMI (i := i0.val) (d := 0x8) hb0 (by omega) he
  have e : (MI_GCTL i0) = 0x71000 + i0.val * 0x100 + 0x8 := by simp only [MI_GCTL]; omega
  rw [e]; exact h

theorem regCmd_MI_GCTL {s : State} {p : Port} {v : Word} (i0 : Fin 10) (h : s.admits p (MI_GCTL i0) v = true) :
    regCmd p (MI_GCTL i0) v s = .next (s.after p (MI_GCTL i0) v (fun u => if vbit (s.word p (MI_GCTL i0) v) 0 then u.clearRowLog i0 else u)) := by
  have hb0 := i0.isLt
  rw [regCmd_admits _ (findReg_MI_GCTL i0) h]
  have hw := word_of (p := p) (v := v) (s := s) (findReg_MI_GCTL i0)
  have hq : ∀ u : State, u.clearsMark (MI_GCTL i0) 15 = false := fun u => clearsMark_out (by simp only [MI_GCTL]; omega)
  have hwo : woBits ⟨0x8, 1, 0x4, false, false, false, [⟨0, 0, .WO, 0, .L2⟩]⟩ = 0x1#32 := by decide
  have key : ∀ u : State, s.wrote u p (MI_GCTL i0) ⟨i0.val, ⟨0x8, 1, 0x4, false, false, false, [⟨0, 0, .WO, 0, .L2⟩]⟩, 0⟩ v = if vbit (s.word p (MI_GCTL i0) v) 0 then u.clearRowLog i0 else u := by
    intro u
    simp only [State.wrote, hq, Bool.false_eq_true, if_false, hw, hwo]
    refine (regEffect_mi (by simp only [MI_GCTL]; omega) (by simp only [MI_GCTL]; omega)).trans ?_
    simp [State.miGroupWrite]
  simp only [key]

theorem findReg_blkRS {i d k : Nat} {t : RegDesc} (hi : i < 1) (hd : d < 0x1520) (he : findElem d blkRS.regs = some (t, k)) :
    findReg (0x60000 + i * 0x1520 + d) regBlocks = some ⟨i, t, k⟩ := by
  have hl : blkRS.locate (0x60000 + i * 0x1520 + d) = some (i, d) := locate_at rfl rfl rfl rfl hi hd
  have : regBlocks = [blkID, blkRC, blkPM, blkTB, blkTL, blkEV, blkEG, blkEC, blkJN, blkMB, blkFL, blkFLG] ++ blkRS :: [blkMIG, blkMI, blkDB, blkSH, blkQD, blkQW, blkBC, blkQG, blkQH, blkSP, blkSOC, blkTI, blkTG, blkAR, blkTRG, blkPG, blkXB, blkPH, blkTM, blkTMG, blkPF, blkPFG, blkCP, blkCHG, blkCL, blkLE, blkCS, blkPAGE] := rfl
  rw [this, findReg_skips _ (lo := 0x60000) (hi := 0x61520) (by omega) (by omega) (by decide +kernel), findReg_in hl he]

theorem findReg_RS_DV_CTRL  : findReg RS_DV_CTRL regBlocks = some ⟨0, ⟨0x10, 1, 0x4, false, false, false, [⟨31, 31, .WO, 0, .L2⟩, ⟨30, 30, .WO, 0, .L2⟩, ⟨26, 24, .RWI, 0, .L2⟩, ⟨22, 16, .RWI, 0, .L2⟩, ⟨6, 0, .RWI, 0, .L2⟩]⟩, 0⟩ := by
  have he : findElem 0x10 blkRS.regs = some ((⟨0x10, 1, 0x4, false, false, false, [⟨31, 31, .WO, 0, .L2⟩, ⟨30, 30, .WO, 0, .L2⟩, ⟨26, 24, .RWI, 0, .L2⟩, ⟨22, 16, .RWI, 0, .L2⟩, ⟨6, 0, .RWI, 0, .L2⟩]⟩ : RegDesc), 0) := by rfl
  have h := findReg_blkRS (i := 0) (d := 0x10) (by omega) (by omega) he
  have e : RS_DV_CTRL = 0x60000 + 0 * 0x1520 + 0x10 := by simp only [RS_DV_CTRL]
  rw [e]; exact h

theorem regCmd_RS_DV_CTRL {s : State} {p : Port} {v : Word}  (h : s.admits p RS_DV_CTRL v = true) :
    regCmd p RS_DV_CTRL v s = .next (s.after p RS_DV_CTRL v (fun u => u.dvCtrlWrite (s.word p RS_DV_CTRL v))) := by
  rw [regCmd_admits _ (findReg_RS_DV_CTRL ) h]
  have hw := word_of (p := p) (v := v) (s := s) (findReg_RS_DV_CTRL )
  have hq : ∀ u : State, u.clearsMark RS_DV_CTRL 15 = false := fun u => clearsMark_out (by simp only [RS_DV_CTRL]; omega)
  have hwo : woBits ⟨0x10, 1, 0x4, false, false, false, [⟨31, 31, .WO, 0, .L2⟩, ⟨30, 30, .WO, 0, .L2⟩, ⟨26, 24, .RWI, 0, .L2⟩, ⟨22, 16, .RWI, 0, .L2⟩, ⟨6, 0, .RWI, 0, .L2⟩]⟩ = 0xc0000000#32 := by decide
  have key : ∀ u : State, s.wrote u p RS_DV_CTRL ⟨0, ⟨0x10, 1, 0x4, false, false, false, [⟨31, 31, .WO, 0, .L2⟩, ⟨30, 30, .WO, 0, .L2⟩, ⟨26, 24, .RWI, 0, .L2⟩, ⟨22, 16, .RWI, 0, .L2⟩, ⟨6, 0, .RWI, 0, .L2⟩]⟩, 0⟩ v = u.dvCtrlWrite (s.word p RS_DV_CTRL v) := by
    intro u
    simp only [State.wrote, hq, Bool.false_eq_true, if_false, hw, hwo]
    refine (regEffect_rs (by simp only [RS_DV_CTRL]; omega) (by simp only [RS_DV_CTRL]; omega)).trans ?_
    simp [State.rsWrite]
  simp only [key]

theorem findReg_RS_SC_CTRL  : findReg RS_SC_CTRL regBlocks = some ⟨0, ⟨0x40, 1, 0x4, false, false, false, [⟨31, 31, .RWI, 0, .L2⟩, ⟨21, 16, .RWI, 0, .L2⟩, ⟨5, 0, .RWI, 0, .L2⟩]⟩, 0⟩ := by
  have he : findElem 0x40 blkRS.regs = some ((⟨0x40, 1, 0x4, false, false, false, [⟨31, 31, .RWI, 0, .L2⟩, ⟨21, 16, .RWI, 0, .L2⟩, ⟨5, 0, .RWI, 0, .L2⟩]⟩ : RegDesc), 0) := by rfl
  have h := findReg_blkRS (i := 0) (d := 0x40) (by omega) (by omega) he
  have e : RS_SC_CTRL = 0x60000 + 0 * 0x1520 + 0x40 := by simp only [RS_SC_CTRL]
  rw [e]; exact h

theorem regCmd_RS_SC_CTRL {s : State} {p : Port} {v : Word}  (h : s.admits p RS_SC_CTRL v = true) :
    regCmd p RS_SC_CTRL v s = .next (s.after p RS_SC_CTRL v (fun u => u.scCtrlWrite (s.word p RS_SC_CTRL v))) := by
  rw [regCmd_admits _ (findReg_RS_SC_CTRL ) h]
  have hw := word_of (p := p) (v := v) (s := s) (findReg_RS_SC_CTRL )
  have hq : ∀ u : State, u.clearsMark RS_SC_CTRL 15 = false := fun u => clearsMark_out (by simp only [RS_SC_CTRL]; omega)
  have hwo : woBits ⟨0x40, 1, 0x4, false, false, false, [⟨31, 31, .RWI, 0, .L2⟩, ⟨21, 16, .RWI, 0, .L2⟩, ⟨5, 0, .RWI, 0, .L2⟩]⟩ = 0x0#32 := by decide
  have key : ∀ u : State, s.wrote u p RS_SC_CTRL ⟨0, ⟨0x40, 1, 0x4, false, false, false, [⟨31, 31, .RWI, 0, .L2⟩, ⟨21, 16, .RWI, 0, .L2⟩, ⟨5, 0, .RWI, 0, .L2⟩]⟩, 0⟩ v = u.scCtrlWrite (s.word p RS_SC_CTRL v) := by
    intro u
    simp only [State.wrote, hq, Bool.false_eq_true, if_false, hw, hwo]
    refine (regEffect_rs (by simp only [RS_SC_CTRL]; omega) (by simp only [RS_SC_CTRL]; omega)).trans ?_
    simp [State.rsWrite, (by decide : RS_SC_CTRL ≠ RS_DV_CTRL)]
  simp only [key]

theorem findReg_RS_RO_CTRL  : findReg RS_RO_CTRL regBlocks = some ⟨0, ⟨0x60, 1, 0x4, false, false, false, [⟨31, 31, .WO, 0, .L2⟩, ⟨8, 8, .RO, 0, .L2⟩, ⟨7, 0, .RWI, 0x20, .L2⟩]⟩, 0⟩ := by
  have he : findElem 0x60 blkRS.regs = some ((⟨0x60, 1, 0x4, false, false, false, [⟨31, 31, .WO, 0, .L2⟩, ⟨8, 8, .RO, 0, .L2⟩, ⟨7, 0, .RWI, 0x20, .L2⟩]⟩ : RegDesc), 0) := by rfl
  have h := findReg_blkRS (i := 0) (d := 0x60) (by omega) (by omega) he
  have e : RS_RO_CTRL = 0x60000 + 0 * 0x1520 + 0x60 := by simp only [RS_RO_CTRL]
  rw [e]; exact h

theorem regCmd_RS_RO_CTRL {s : State} {p : Port} {v : Word}  (h : s.admits p RS_RO_CTRL v = true) :
    regCmd p RS_RO_CTRL v s = .next (s.after p RS_RO_CTRL v (fun u => u.roCtrlWrite (s.word p RS_RO_CTRL v))) := by
  rw [regCmd_admits _ (findReg_RS_RO_CTRL ) h]
  have hw := word_of (p := p) (v := v) (s := s) (findReg_RS_RO_CTRL )
  have hq : ∀ u : State, u.clearsMark RS_RO_CTRL 15 = false := fun u => clearsMark_out (by simp only [RS_RO_CTRL]; omega)
  have hwo : woBits ⟨0x60, 1, 0x4, false, false, false, [⟨31, 31, .WO, 0, .L2⟩, ⟨8, 8, .RO, 0, .L2⟩, ⟨7, 0, .RWI, 0x20, .L2⟩]⟩ = 0x80000000#32 := by decide
  have key : ∀ u : State, s.wrote u p RS_RO_CTRL ⟨0, ⟨0x60, 1, 0x4, false, false, false, [⟨31, 31, .WO, 0, .L2⟩, ⟨8, 8, .RO, 0, .L2⟩, ⟨7, 0, .RWI, 0x20, .L2⟩]⟩, 0⟩ v = u.roCtrlWrite (s.word p RS_RO_CTRL v) := by
    intro u
    simp only [State.wrote, hq, Bool.false_eq_true, if_false, hw, hwo]
    refine (regEffect_rs (by simp only [RS_RO_CTRL]; omega) (by simp only [RS_RO_CTRL]; omega)).trans ?_
    simp [State.rsWrite, (by decide : RS_RO_CTRL ≠ RS_DV_CTRL), (by decide : RS_RO_CTRL ≠ RS_SC_CTRL)]
  simp only [key]

theorem findReg_blkRC {i d k : Nat} {t : RegDesc} (hi : i < 1) (hd : d < 0x64) (he : findElem d blkRC.regs = some (t, k)) :
    findReg (0x100 + i * 0x64 + d) regBlocks = some ⟨i, t, k⟩ := by
  have hl : blkRC.locate (0x100 + i * 0x64 + d) = some (i, d) := locate_at rfl rfl rfl rfl hi hd
  have : regBlocks = [blkID] ++ blkRC :: [blkPM, blkTB, blkTL, blkEV, blkEG, blkEC, blkJN, blkMB, blkFL, blkFLG, blkRS, blkMIG, blkMI, blkDB, blkSH, blkQD, blkQW, blkBC, blkQG, blkQH, blkSP, blkSOC, blkTI, blkTG, blkAR, blkTRG, blkPG, blkXB, blkPH, blkTM, blkTMG, blkPF, blkPFG, blkCP, blkCHG, blkCL, blkLE, blkCS, blkPAGE] := rfl
  rw [this, findReg_skips _ (lo := 0x100) (hi := 0x164) (by omega) (by omega) (by decide +kernel), findReg_in hl he]

theorem findReg_RC_SWRST  : findReg RC_SWRST regBlocks = some ⟨0, ⟨0x20, 1, 0x4, false, false, false, [⟨31, 16, .WO, 0, .L2⟩]⟩, 0⟩ := by
  have he : findElem 0x20 blkRC.regs = some ((⟨0x20, 1, 0x4, false, false, false, [⟨31, 16, .WO, 0, .L2⟩]⟩ : RegDesc), 0) := by rfl
  have h := findReg_blkRC (i := 0) (d := 0x20) (by omega) (by omega) he
  have e : RC_SWRST = 0x100 + 0 * 0x64 + 0x20 := by simp only [RC_SWRST]
  rw [e]; exact h

theorem regCmd_RC_SWRST {s : State} {p : Port} {v : Word}  (h : s.admits p RC_SWRST v = true) :
    regCmd p RC_SWRST v s = .next (s.after p RC_SWRST v (fun u => u.rcWrite (s.master p) RC_SWRST (s.word p RC_SWRST v) ((s.word p RC_SWRST v) &&& ~~~(0xffff0000#32)))) := by
  rw [regCmd_admits _ (findReg_RC_SWRST ) h]
  have hw := word_of (p := p) (v := v) (s := s) (findReg_RC_SWRST )
  have hq : ∀ u : State, u.clearsMark RC_SWRST 15 = false := fun u => clearsMark_out (by simp only [RC_SWRST]; omega)
  have hwo : woBits ⟨0x20, 1, 0x4, false, false, false, [⟨31, 16, .WO, 0, .L2⟩]⟩ = 0xffff0000#32 := by decide
  have key : ∀ u : State, s.wrote u p RC_SWRST ⟨0, ⟨0x20, 1, 0x4, false, false, false, [⟨31, 16, .WO, 0, .L2⟩]⟩, 0⟩ v = u.rcWrite (s.master p) RC_SWRST (s.word p RC_SWRST v) ((s.word p RC_SWRST v) &&& ~~~(0xffff0000#32)) := by
    intro u
    simp only [State.wrote, hq, Bool.false_eq_true, if_false, hw, hwo]
    refine (regEffect_rc (by simp only [RC_SWRST]; omega) (by simp only [RC_SWRST]; omega)).trans ?_
    simp []
  simp only [key]

theorem findReg_RC_BOOT  : findReg RC_BOOT regBlocks = some ⟨0, ⟨0x40, 1, 0x4, false, false, false, [⟨31, 31, .WO, 0, .L2⟩, ⟨30, 30, .RO, 0, .L2⟩, ⟨27, 24, .RO, 0, .L2⟩, ⟨23, 16, .RO, 0, .L2⟩, ⟨0, 0, .RO, 0, .L2⟩]⟩, 0⟩ := by
  have he : findElem 0x40 blkRC.regs = some ((⟨0x40, 1, 0x4, false, false, false, [⟨31, 31, .WO, 0, .L2⟩, ⟨30, 30, .RO, 0, .L2⟩, ⟨27, 24, .RO, 0, .L2⟩, ⟨23, 16, .RO, 0, .L2⟩, ⟨0, 0, .RO, 0, .L2⟩]⟩ : RegDesc), 0) := by rfl
  have h := findReg_blkRC (i := 0) (d := 0x40) (by omega) (by omega) he
  have e : RC_BOOT = 0x100 + 0 * 0x64 + 0x40 := by simp only [RC_BOOT]
  rw [e]; exact h

theorem regCmd_RC_BOOT {s : State} {p : Port} {v : Word}  (h : s.admits p RC_BOOT v = true) :
    regCmd p RC_BOOT v s = .next (s.after p RC_BOOT v (fun u => if vbit (s.word p RC_BOOT v) 31 then u.hostGo u.pw.image else u)) := by
  rw [regCmd_admits _ (findReg_RC_BOOT ) h]
  have hw := word_of (p := p) (v := v) (s := s) (findReg_RC_BOOT )
  have hq : ∀ u : State, u.clearsMark RC_BOOT 15 = false := fun u => clearsMark_out (by simp only [RC_BOOT]; omega)
  have hwo : woBits ⟨0x40, 1, 0x4, false, false, false, [⟨31, 31, .WO, 0, .L2⟩, ⟨30, 30, .RO, 0, .L2⟩, ⟨27, 24, .RO, 0, .L2⟩, ⟨23, 16, .RO, 0, .L2⟩, ⟨0, 0, .RO, 0, .L2⟩]⟩ = 0x80000000#32 := by decide
  have key : ∀ u : State, s.wrote u p RC_BOOT ⟨0, ⟨0x40, 1, 0x4, false, false, false, [⟨31, 31, .WO, 0, .L2⟩, ⟨30, 30, .RO, 0, .L2⟩, ⟨27, 24, .RO, 0, .L2⟩, ⟨23, 16, .RO, 0, .L2⟩, ⟨0, 0, .RO, 0, .L2⟩]⟩, 0⟩ v = if vbit (s.word p RC_BOOT v) 31 then u.hostGo u.pw.image else u := by
    intro u
    simp only [State.wrote, hq, Bool.false_eq_true, if_false, hw, hwo]
    refine (regEffect_rc (by simp only [RC_BOOT]; omega) (by simp only [RC_BOOT]; omega)).trans ?_
    simp [State.rcWrite, (by decide : RC_BOOT ≠ RC_SWRST)]
  simp only [key]

theorem findReg_blkPM {i d k : Nat} {t : RegDesc} (hi : i < 1) (hd : d < 0x38) (he : findElem d blkPM.regs = some (t, k)) :
    findReg (0x8000 + i * 0x38 + d) regBlocks = some ⟨i, t, k⟩ := by
  have hl : blkPM.locate (0x8000 + i * 0x38 + d) = some (i, d) := locate_at rfl rfl rfl rfl hi hd
  have : regBlocks = [blkID, blkRC] ++ blkPM :: [blkTB, blkTL, blkEV, blkEG, blkEC, blkJN, blkMB, blkFL, blkFLG, blkRS, blkMIG, blkMI, blkDB, blkSH, blkQD, blkQW, blkBC, blkQG, blkQH, blkSP, blkSOC, blkTI, blkTG, blkAR, blkTRG, blkPG, blkXB, blkPH, blkTM, blkTMG, blkPF, blkPFG, blkCP, blkCHG, blkCL, blkLE, blkCS, blkPAGE] := rfl
  rw [this, findReg_skips _ (lo := 0x8000) (hi := 0x8038) (by omega) (by omega) (by decide +kernel), findReg_in hl he]

theorem findReg_PM_FSDATA  : findReg PM_FSDATA regBlocks = some ⟨0, ⟨0x34, 1, 0x4, false, false, false, [⟨31, 0, .RWI, 0, .L2⟩]⟩, 0⟩ := by
  have he : findElem 0x34 blkPM.regs = some ((⟨0x34, 1, 0x4, false, false, false, [⟨31, 0, .RWI, 0, .L2⟩]⟩ : RegDesc), 0) := by rfl
  have h := findReg_blkPM (i := 0) (d := 0x34) (by omega) (by omega) he
  have e : PM_FSDATA = 0x8000 + 0 * 0x38 + 0x34 := by simp only [PM_FSDATA]
  rw [e]; exact h

theorem regCmd_PM_FSDATA {s : State} {p : Port} {v : Word}  (h : s.admits p PM_FSDATA v = true) :
    regCmd p PM_FSDATA v s = .next (s.after p PM_FSDATA v (fun u => u.fsWrite (s.word p PM_FSDATA v))) := by
  rw [regCmd_admits _ (findReg_PM_FSDATA ) h]
  have hw := word_of (p := p) (v := v) (s := s) (findReg_PM_FSDATA )
  have hq : ∀ u : State, u.clearsMark PM_FSDATA 15 = false := fun u => clearsMark_out (by simp only [PM_FSDATA]; omega)
  have hwo : woBits ⟨0x34, 1, 0x4, false, false, false, [⟨31, 0, .RWI, 0, .L2⟩]⟩ = 0x0#32 := by decide
  have key : ∀ u : State, s.wrote u p PM_FSDATA ⟨0, ⟨0x34, 1, 0x4, false, false, false, [⟨31, 0, .RWI, 0, .L2⟩]⟩, 0⟩ v = u.fsWrite (s.word p PM_FSDATA v) := by
    intro u
    simp only [State.wrote, hq, Bool.false_eq_true, if_false, hw, hwo]
    refine (regEffect_pm (by simp only [PM_FSDATA]; omega) (by simp only [PM_FSDATA]; omega)).trans ?_
    simp [(by decide : PM_FSDATA ≠ PM_CTRL)]
  simp only [key]

theorem findReg_blkDB {i d k : Nat} {t : RegDesc} (hi : i < 1) (hd : d < 0x130) (he : findElem d blkDB.regs = some (t, k)) :
    findReg (0x80000 + i * 0x130 + d) regBlocks = some ⟨i, t, k⟩ := by
  have hl : blkDB.locate (0x80000 + i * 0x130 + d) = some (i, d) := locate_at rfl rfl rfl rfl hi hd
  have : regBlocks = [blkID, blkRC, blkPM, blkTB, blkTL, blkEV, blkEG, blkEC, blkJN, blkMB, blkFL, blkFLG, blkRS, blkMIG, blkMI] ++ blkDB :: [blkSH, blkQD, blkQW, blkBC, blkQG, blkQH, blkSP, blkSOC, blkTI, blkTG, blkAR, blkTRG, blkPG, blkXB, blkPH, blkTM, blkTMG, blkPF, blkPFG, blkCP, blkCHG, blkCL, blkLE, blkCS, blkPAGE] := rfl
  rw [this, findReg_skips _ (lo := 0x80000) (hi := 0x80130) (by omega) (by omega) (by decide +kernel), findReg_in hl he]

theorem findReg_DB_ECMD  : findReg DB_ECMD regBlocks = some ⟨0, ⟨0x10, 1, 0x4, false, false, true, [⟨31, 30, .WO, 0, .L2⟩, ⟨6, 0, .WO, 0, .L2⟩]⟩, 0⟩ := by
  have he : findElem 0x10 blkDB.regs = some ((⟨0x10, 1, 0x4, false, false, true, [⟨31, 30, .WO, 0, .L2⟩, ⟨6, 0, .WO, 0, .L2⟩]⟩ : RegDesc), 0) := by rfl
  have h := findReg_blkDB (i := 0) (d := 0x10) (by omega) (by omega) he
  have e : DB_ECMD = 0x80000 + 0 * 0x130 + 0x10 := by simp only [DB_ECMD]
  rw [e]; exact h

theorem regCmd_DB_ECMD {s : State} {p : Port} {v : Word}  (h : s.admits p DB_ECMD v = true) :
    regCmd p DB_ECMD v s = .next (s.after p DB_ECMD v (fun u => u.ecmdWrite (s.word p DB_ECMD v))) := by
  rw [regCmd_admits _ (findReg_DB_ECMD ) h]
  have hw := word_of (p := p) (v := v) (s := s) (findReg_DB_ECMD )
  have hq : ∀ u : State, u.clearsMark DB_ECMD 15 = false := fun u => clearsMark_out (by simp only [DB_ECMD]; omega)
  have hwo : woBits ⟨0x10, 1, 0x4, false, false, true, [⟨31, 30, .WO, 0, .L2⟩, ⟨6, 0, .WO, 0, .L2⟩]⟩ = 0xc000007f#32 := by decide
  have key : ∀ u : State, s.wrote u p DB_ECMD ⟨0, ⟨0x10, 1, 0x4, false, false, true, [⟨31, 30, .WO, 0, .L2⟩, ⟨6, 0, .WO, 0, .L2⟩]⟩, 0⟩ v = u.ecmdWrite (s.word p DB_ECMD v) := by
    intro u
    simp only [State.wrote, hq, Bool.false_eq_true, if_false, hw, hwo]
    refine (regEffect_db (by simp only [DB_ECMD]; omega) (by simp only [DB_ECMD]; omega)).trans ?_
    simp [State.dbWrite, (by decide : DB_ECMD ≠ DB_POLICY), (by decide : DB_ECMD ≠ DB_CTRL)]
  simp only [key]

theorem findReg_DB_FREEZE  : findReg DB_FREEZE regBlocks = some ⟨0, ⟨0x20, 1, 0x4, false, false, true, [⟨31, 16, .RW, 0, .L2⟩, ⟨8, 8, .RW, 0, .L2⟩, ⟨2, 0, .RW, 0, .L2⟩]⟩, 0⟩ := by
  have he : findElem 0x20 blkDB.regs = some ((⟨0x20, 1, 0x4, false, false, true, [⟨31, 16, .RW, 0, .L2⟩, ⟨8, 8, .RW, 0, .L2⟩, ⟨2, 0, .RW, 0, .L2⟩]⟩ : RegDesc), 0) := by rfl
  have h := findReg_blkDB (i := 0) (d := 0x20) (by omega) (by omega) he
  have e : DB_FREEZE = 0x80000 + 0 * 0x130 + 0x20 := by simp only [DB_FREEZE]
  rw [e]; exact h

theorem regCmd_DB_FREEZE {s : State} {p : Port} {v : Word}  (h : s.admits p DB_FREEZE v = true) :
    regCmd p DB_FREEZE v s = .next (s.after p DB_FREEZE v (fun u => if u.mayHalt then (u.setReg DB_FREEZE ((s.word p DB_FREEZE v) &&& ~~~(0x0#32))).freezeSync else u.dbRefuse)) := by
  rw [regCmd_admits _ (findReg_DB_FREEZE ) h]
  have hw := word_of (p := p) (v := v) (s := s) (findReg_DB_FREEZE )
  have hq : ∀ u : State, u.clearsMark DB_FREEZE 15 = false := fun u => clearsMark_out (by simp only [DB_FREEZE]; omega)
  have hwo : woBits ⟨0x20, 1, 0x4, false, false, true, [⟨31, 16, .RW, 0, .L2⟩, ⟨8, 8, .RW, 0, .L2⟩, ⟨2, 0, .RW, 0, .L2⟩]⟩ = 0x0#32 := by decide
  have key : ∀ u : State, s.wrote u p DB_FREEZE ⟨0, ⟨0x20, 1, 0x4, false, false, true, [⟨31, 16, .RW, 0, .L2⟩, ⟨8, 8, .RW, 0, .L2⟩, ⟨2, 0, .RW, 0, .L2⟩]⟩, 0⟩ v = if u.mayHalt then (u.setReg DB_FREEZE ((s.word p DB_FREEZE v) &&& ~~~(0x0#32))).freezeSync else u.dbRefuse := by
    intro u
    simp only [State.wrote, hq, Bool.false_eq_true, if_false, hw, hwo]
    refine (regEffect_db (by simp only [DB_FREEZE]; omega) (by simp only [DB_FREEZE]; omega)).trans ?_
    simp [State.dbWrite, (by decide : DB_FREEZE ≠ DB_POLICY), (by decide : DB_FREEZE ≠ DB_CTRL), (by decide : DB_FREEZE ≠ DB_ECMD)]
  simp only [key]

theorem findReg_DB_BHALT  : findReg DB_BHALT regBlocks = some ⟨0, ⟨0x24, 1, 0x4, false, false, true, [⟨1, 1, .WO, 0, .L2⟩, ⟨0, 0, .RW, 0, .L2⟩]⟩, 0⟩ := by
  have he : findElem 0x24 blkDB.regs = some ((⟨0x24, 1, 0x4, false, false, true, [⟨1, 1, .WO, 0, .L2⟩, ⟨0, 0, .RW, 0, .L2⟩]⟩ : RegDesc), 0) := by rfl
  have h := findReg_blkDB (i := 0) (d := 0x24) (by omega) (by omega) he
  have e : DB_BHALT = 0x80000 + 0 * 0x130 + 0x24 := by simp only [DB_BHALT]
  rw [e]; exact h

theorem regCmd_DB_BHALT {s : State} {p : Port} {v : Word}  (h : s.admits p DB_BHALT v = true) :
    regCmd p DB_BHALT v s = .next (s.after p DB_BHALT v (fun u => u.dbWrite DB_BHALT (s.word p DB_BHALT v) ((s.word p DB_BHALT v) &&& ~~~(0x2#32)))) := by
  rw [regCmd_admits _ (findReg_DB_BHALT ) h]
  have hw := word_of (p := p) (v := v) (s := s) (findReg_DB_BHALT )
  have hq : ∀ u : State, u.clearsMark DB_BHALT 15 = false := fun u => clearsMark_out (by simp only [DB_BHALT]; omega)
  have hwo : woBits ⟨0x24, 1, 0x4, false, false, true, [⟨1, 1, .WO, 0, .L2⟩, ⟨0, 0, .RW, 0, .L2⟩]⟩ = 0x2#32 := by decide
  have key : ∀ u : State, s.wrote u p DB_BHALT ⟨0, ⟨0x24, 1, 0x4, false, false, true, [⟨1, 1, .WO, 0, .L2⟩, ⟨0, 0, .RW, 0, .L2⟩]⟩, 0⟩ v = u.dbWrite DB_BHALT (s.word p DB_BHALT v) ((s.word p DB_BHALT v) &&& ~~~(0x2#32)) := by
    intro u
    simp only [State.wrote, hq, Bool.false_eq_true, if_false, hw, hwo]
    refine (regEffect_db (by simp only [DB_BHALT]; omega) (by simp only [DB_BHALT]; omega)).trans ?_
    simp []
  simp only [key]

end Sys2Proof.Machine
end

