-- ==== Sys2Proof/Laws/State.lean ====
section
/-!
SUPPORT. What each plain update of the state leaves in each field, and what a register, a field, a byte reads after a write
of another or of the same one. No later proof unfolds a record update.
-/

namespace Sys2Proof.Machine

/-! ### One field per update -/

section
variable (s : State)

@[simp] theorem setReg_pending (o : Nat) (v : Word) : (s.setReg o v).pending = s.pending := (rfl)
@[simp] theorem setReg_fc (o : Nat) (v : Word) : (s.setReg o v).fc = s.fc := (rfl)
@[simp] theorem setReg_free (o : Nat) (v : Word) : (s.setReg o v).free = s.free := (rfl)
@[simp] theorem setReg_mem (o : Nat) (v : Word) : (s.setReg o v).mem = s.mem := (rfl)
@[simp] theorem setReg_marks (o : Nat) (v : Word) : (s.setReg o v).marks = s.marks := (rfl)
@[simp] theorem setReg_sysMem (o : Nat) (v : Word) : (s.setReg o v).sysMem = s.sysMem := (rfl)
@[simp] theorem setReg_resp (o : Nat) (v : Word) : (s.setReg o v).resp = s.resp := (rfl)
@[simp] theorem setReg_hiLatch (o : Nat) (v : Word) : (s.setReg o v).hiLatch = s.hiLatch := (rfl)
@[simp] theorem setReg_hot (o : Nat) (v : Word) : (s.setReg o v).hot = s.hot := (rfl)
@[simp] theorem setReg_ev (o : Nat) (v : Word) : (s.setReg o v).ev = s.ev := (rfl)
@[simp] theorem setReg_jn (o : Nat) (v : Word) : (s.setReg o v).jn = s.jn := (rfl)
@[simp] theorem setReg_tb (o : Nat) (v : Word) : (s.setReg o v).tb = s.tb := (rfl)
@[simp] theorem setReg_tl (o : Nat) (v : Word) : (s.setReg o v).tl = s.tl := (rfl)
@[simp] theorem setReg_engs (o : Nat) (v : Word) : (s.setReg o v).engs = s.engs := (rfl)
@[simp] theorem setReg_ranks (o : Nat) (v : Word) : (s.setReg o v).ranks = s.ranks := (rfl)
@[simp] theorem setReg_clExt (o : Nat) (v : Word) : (s.setReg o v).clExt = s.clExt := (rfl)
@[simp] theorem setReg_lanes (o : Nat) (v : Word) : (s.setReg o v).lanes = s.lanes := (rfl)
@[simp] theorem setReg_laneOld (o : Nat) (v : Word) : (s.setReg o v).laneOld = s.laneOld := (rfl)
@[simp] theorem setReg_due (o : Nat) (v : Word) : (s.setReg o v).due = s.due := (rfl)
@[simp] theorem setReg_qf (o : Nat) (v : Word) : (s.setReg o v).qf = s.qf := (rfl)
@[simp] theorem setReg_pw (o : Nat) (v : Word) : (s.setReg o v).pw = s.pw := (rfl)
@[simp] theorem setReg_si (o : Nat) (v : Word) : (s.setReg o v).si = s.si := (rfl)
@[simp] theorem setReg_gens (o : Nat) (v : Word) : (s.setReg o v).gens = s.gens := (rfl)
@[simp] theorem setReg_phOld (o : Nat) (v : Word) : (s.setReg o v).phOld = s.phOld := (rfl)
@[simp] theorem setReg_phDone (o : Nat) (v : Word) : (s.setReg o v).phDone = s.phDone := (rfl)
@[simp] theorem setReg_phNew (o : Nat) (v : Word) : (s.setReg o v).phNew = s.phNew := (rfl)
@[simp] theorem setReg_xbarOld (o : Nat) (v : Word) : (s.setReg o v).xbarOld = s.xbarOld := (rfl)
@[simp] theorem setReg_phDue (o : Nat) (v : Word) : (s.setReg o v).phDue = s.phDue := (rfl)
@[simp] theorem setReg_tims (o : Nat) (v : Word) : (s.setReg o v).tims = s.tims := (rfl)
@[simp] theorem setReg_lines (o : Nat) (v : Word) : (s.setReg o v).lines = s.lines := (rfl)
@[simp] theorem setReg_pfus (o : Nat) (v : Word) : (s.setReg o v).pfus = s.pfus := (rfl)
@[simp] theorem setReg_pfPhase (o : Nat) (v : Word) : (s.setReg o v).pfPhase = s.pfPhase := (rfl)
@[simp] theorem setReg_pfStep (o : Nat) (v : Word) : (s.setReg o v).pfStep = s.pfStep := (rfl)
@[simp] theorem setReg_tmgPend (o : Nat) (v : Word) : (s.setReg o v).tmgPend = s.tmgPend := (rfl)
@[simp] theorem setReg_cs (o : Nat) (v : Word) : (s.setReg o v).cs = s.cs := (rfl)
@[simp] theorem setReg_sh (o : Nat) (v : Word) : (s.setReg o v).sh = s.sh := (rfl)
@[simp] theorem setReg_chs (o : Nat) (v : Word) : (s.setReg o v).chs = s.chs := (rfl)
@[simp] theorem setReg_ch (o : Nat) (v : Word) : (s.setReg o v).ch = s.ch := (rfl)
@[simp] theorem setReg_mi (o : Nat) (v : Word) : (s.setReg o v).mi = s.mi := (rfl)
@[simp] theorem setReg_flkFc (o : Nat) (v : Word) : (s.setReg o v).flkFc = s.flkFc := (rfl)
@[simp] theorem setReg_flkReq (o : Nat) (v : Word) : (s.setReg o v).flkReq = s.flkReq := (rfl)
@[simp] theorem setReg_flkClean (o : Nat) (v : Word) : (s.setReg o v).flkClean = s.flkClean := (rfl)
@[simp] theorem setReg_rs (o : Nat) (v : Word) : (s.setReg o v).rs = s.rs := (rfl)
@[simp] theorem setReg_fold (o : Nat) (v : Word) : (s.setReg o v).fold = s.fold := (rfl)
@[simp] theorem setReg_fuses (o : Nat) (v : Word) : (s.setReg o v).fuses = s.fuses := (rfl)
@[simp] theorem setReg_mb (o : Nat) (v : Word) : (s.setReg o v).mb = s.mb := (rfl)
@[simp] theorem setReg_db (o : Nat) (v : Word) : (s.setReg o v).db = s.db := (rfl)
@[simp] theorem setFld_pending (o : Nat) (f : Fld) (n : Nat) : (s.setFld o f n).pending = s.pending := (rfl)
@[simp] theorem setFld_fc (o : Nat) (f : Fld) (n : Nat) : (s.setFld o f n).fc = s.fc := (rfl)
@[simp] theorem setFld_free (o : Nat) (f : Fld) (n : Nat) : (s.setFld o f n).free = s.free := (rfl)
@[simp] theorem setFld_mem (o : Nat) (f : Fld) (n : Nat) : (s.setFld o f n).mem = s.mem := (rfl)
@[simp] theorem setFld_marks (o : Nat) (f : Fld) (n : Nat) : (s.setFld o f n).marks = s.marks := (rfl)
@[simp] theorem setFld_sysMem (o : Nat) (f : Fld) (n : Nat) : (s.setFld o f n).sysMem = s.sysMem := (rfl)
@[simp] theorem setFld_resp (o : Nat) (f : Fld) (n : Nat) : (s.setFld o f n).resp = s.resp := (rfl)
@[simp] theorem setFld_hiLatch (o : Nat) (f : Fld) (n : Nat) : (s.setFld o f n).hiLatch = s.hiLatch := (rfl)
@[simp] theorem setFld_hot (o : Nat) (f : Fld) (n : Nat) : (s.setFld o f n).hot = s.hot := (rfl)
@[simp] theorem setFld_ev (o : Nat) (f : Fld) (n : Nat) : (s.setFld o f n).ev = s.ev := (rfl)
@[simp] theorem setFld_jn (o : Nat) (f : Fld) (n : Nat) : (s.setFld o f n).jn = s.jn := (rfl)
@[simp] theorem setFld_tb (o : Nat) (f : Fld) (n : Nat) : (s.setFld o f n).tb = s.tb := (rfl)
@[simp] theorem setFld_tl (o : Nat) (f : Fld) (n : Nat) : (s.setFld o f n).tl = s.tl := (rfl)
@[simp] theorem setFld_engs (o : Nat) (f : Fld) (n : Nat) : (s.setFld o f n).engs = s.engs := (rfl)
@[simp] theorem setFld_ranks (o : Nat) (f : Fld) (n : Nat) : (s.setFld o f n).ranks = s.ranks := (rfl)
@[simp] theorem setFld_clExt (o : Nat) (f : Fld) (n : Nat) : (s.setFld o f n).clExt = s.clExt := (rfl)
@[simp] theorem setFld_lanes (o : Nat) (f : Fld) (n : Nat) : (s.setFld o f n).lanes = s.lanes := (rfl)
@[simp] theorem setFld_laneOld (o : Nat) (f : Fld) (n : Nat) : (s.setFld o f n).laneOld = s.laneOld := (rfl)
@[simp] theorem setFld_due (o : Nat) (f : Fld) (n : Nat) : (s.setFld o f n).due = s.due := (rfl)
@[simp] theorem setFld_qf (o : Nat) (f : Fld) (n : Nat) : (s.setFld o f n).qf = s.qf := (rfl)
@[simp] theorem setFld_pw (o : Nat) (f : Fld) (n : Nat) : (s.setFld o f n).pw = s.pw := (rfl)
@[simp] theorem setFld_si (o : Nat) (f : Fld) (n : Nat) : (s.setFld o f n).si = s.si := (rfl)
@[simp] theorem setFld_gens (o : Nat) (f : Fld) (n : Nat) : (s.setFld o f n).gens = s.gens := (rfl)
@[simp] theorem setFld_phOld (o : Nat) (f : Fld) (n : Nat) : (s.setFld o f n).phOld = s.phOld := (rfl)
@[simp] theorem setFld_phDone (o : Nat) (f : Fld) (n : Nat) : (s.setFld o f n).phDone = s.phDone := (rfl)
@[simp] theorem setFld_phNew (o : Nat) (f : Fld) (n : Nat) : (s.setFld o f n).phNew = s.phNew := (rfl)
@[simp] theorem setFld_xbarOld (o : Nat) (f : Fld) (n : Nat) : (s.setFld o f n).xbarOld = s.xbarOld := (rfl)
@[simp] theorem setFld_phDue (o : Nat) (f : Fld) (n : Nat) : (s.setFld o f n).phDue = s.phDue := (rfl)
@[simp] theorem setFld_tims (o : Nat) (f : Fld) (n : Nat) : (s.setFld o f n).tims = s.tims := (rfl)
@[simp] theorem setFld_lines (o : Nat) (f : Fld) (n : Nat) : (s.setFld o f n).lines = s.lines := (rfl)
@[simp] theorem setFld_pfus (o : Nat) (f : Fld) (n : Nat) : (s.setFld o f n).pfus = s.pfus := (rfl)
@[simp] theorem setFld_pfPhase (o : Nat) (f : Fld) (n : Nat) : (s.setFld o f n).pfPhase = s.pfPhase := (rfl)
@[simp] theorem setFld_pfStep (o : Nat) (f : Fld) (n : Nat) : (s.setFld o f n).pfStep = s.pfStep := (rfl)
@[simp] theorem setFld_tmgPend (o : Nat) (f : Fld) (n : Nat) : (s.setFld o f n).tmgPend = s.tmgPend := (rfl)
@[simp] theorem setFld_cs (o : Nat) (f : Fld) (n : Nat) : (s.setFld o f n).cs = s.cs := (rfl)
@[simp] theorem setFld_sh (o : Nat) (f : Fld) (n : Nat) : (s.setFld o f n).sh = s.sh := (rfl)
@[simp] theorem setFld_chs (o : Nat) (f : Fld) (n : Nat) : (s.setFld o f n).chs = s.chs := (rfl)
@[simp] theorem setFld_ch (o : Nat) (f : Fld) (n : Nat) : (s.setFld o f n).ch = s.ch := (rfl)
@[simp] theorem setFld_mi (o : Nat) (f : Fld) (n : Nat) : (s.setFld o f n).mi = s.mi := (rfl)
@[simp] theorem setFld_flkFc (o : Nat) (f : Fld) (n : Nat) : (s.setFld o f n).flkFc = s.flkFc := (rfl)
@[simp] theorem setFld_flkReq (o : Nat) (f : Fld) (n : Nat) : (s.setFld o f n).flkReq = s.flkReq := (rfl)
@[simp] theorem setFld_flkClean (o : Nat) (f : Fld) (n : Nat) : (s.setFld o f n).flkClean = s.flkClean := (rfl)
@[simp] theorem setFld_rs (o : Nat) (f : Fld) (n : Nat) : (s.setFld o f n).rs = s.rs := (rfl)
@[simp] theorem setFld_fold (o : Nat) (f : Fld) (n : Nat) : (s.setFld o f n).fold = s.fold := (rfl)
@[simp] theorem setFld_fuses (o : Nat) (f : Fld) (n : Nat) : (s.setFld o f n).fuses = s.fuses := (rfl)
@[simp] theorem setFld_mb (o : Nat) (f : Fld) (n : Nat) : (s.setFld o f n).mb = s.mb := (rfl)
@[simp] theorem setFld_db (o : Nat) (f : Fld) (n : Nat) : (s.setFld o f n).db = s.db := (rfl)
@[simp] theorem setFlag_pending (o : Nat) (f : Fld) (b : Bool) : (s.setFlag o f b).pending = s.pending := (rfl)
@[simp] theorem setFlag_fc (o : Nat) (f : Fld) (b : Bool) : (s.setFlag o f b).fc = s.fc := (rfl)
@[simp] theorem setFlag_free (o : Nat) (f : Fld) (b : Bool) : (s.setFlag o f b).free = s.free := (rfl)
@[simp] theorem setFlag_mem (o : Nat) (f : Fld) (b : Bool) : (s.setFlag o f b).mem = s.mem := (rfl)
@[simp] theorem setFlag_marks (o : Nat) (f : Fld) (b : Bool) : (s.setFlag o f b).marks = s.marks := (rfl)
@[simp] theorem setFlag_sysMem (o : Nat) (f : Fld) (b : Bool) : (s.setFlag o f b).sysMem = s.sysMem := (rfl)
@[simp] theorem setFlag_resp (o : Nat) (f : Fld) (b : Bool) : (s.setFlag o f b).resp = s.resp := (rfl)
@[simp] theorem setFlag_hiLatch (o : Nat) (f : Fld) (b : Bool) : (s.setFlag o f b).hiLatch = s.hiLatch := (rfl)
@[simp] theorem setFlag_ev (o : Nat) (f : Fld) (b : Bool) : (s.setFlag o f b).ev = s.ev := (rfl)
@[simp] theorem setFlag_jn (o : Nat) (f : Fld) (b : Bool) : (s.setFlag o f b).jn = s.jn := (rfl)
@[simp] theorem setFlag_tb (o : Nat) (f : Fld) (b : Bool) : (s.setFlag o f b).tb = s.tb := (rfl)
@[simp] theorem setFlag_tl (o : Nat) (f : Fld) (b : Bool) : (s.setFlag o f b).tl = s.tl := (rfl)
@[simp] theorem setFlag_engs (o : Nat) (f : Fld) (b : Bool) : (s.setFlag o f b).engs = s.engs := (rfl)
@[simp] theorem setFlag_ranks (o : Nat) (f : Fld) (b : Bool) : (s.setFlag o f b).ranks = s.ranks := (rfl)
@[simp] theorem setFlag_clExt (o : Nat) (f : Fld) (b : Bool) : (s.setFlag o f b).clExt = s.clExt := (rfl)
@[simp] theorem setFlag_lanes (o : Nat) (f : Fld) (b : Bool) : (s.setFlag o f b).lanes = s.lanes := (rfl)
@[simp] theorem setFlag_laneOld (o : Nat) (f : Fld) (b : Bool) : (s.setFlag o f b).laneOld = s.laneOld := (rfl)
@[simp] theorem setFlag_due (o : Nat) (f : Fld) (b : Bool) : (s.setFlag o f b).due = s.due := (rfl)
@[simp] theorem setFlag_qf (o : Nat) (f : Fld) (b : Bool) : (s.setFlag o f b).qf = s.qf := (rfl)
@[simp] theorem setFlag_pw (o : Nat) (f : Fld) (b : Bool) : (s.setFlag o f b).pw = s.pw := (rfl)
@[simp] theorem setFlag_si (o : Nat) (f : Fld) (b : Bool) : (s.setFlag o f b).si = s.si := (rfl)
@[simp] theorem setFlag_gens (o : Nat) (f : Fld) (b : Bool) : (s.setFlag o f b).gens = s.gens := (rfl)
@[simp] theorem setFlag_phOld (o : Nat) (f : Fld) (b : Bool) : (s.setFlag o f b).phOld = s.phOld := (rfl)
@[simp] theorem setFlag_phDone (o : Nat) (f : Fld) (b : Bool) : (s.setFlag o f b).phDone = s.phDone := (rfl)
@[simp] theorem setFlag_phNew (o : Nat) (f : Fld) (b : Bool) : (s.setFlag o f b).phNew = s.phNew := (rfl)
@[simp] theorem setFlag_xbarOld (o : Nat) (f : Fld) (b : Bool) : (s.setFlag o f b).xbarOld = s.xbarOld := (rfl)
@[simp] theorem setFlag_phDue (o : Nat) (f : Fld) (b : Bool) : (s.setFlag o f b).phDue = s.phDue := (rfl)
@[simp] theorem setFlag_tims (o : Nat) (f : Fld) (b : Bool) : (s.setFlag o f b).tims = s.tims := (rfl)
@[simp] theorem setFlag_lines (o : Nat) (f : Fld) (b : Bool) : (s.setFlag o f b).lines = s.lines := (rfl)
@[simp] theorem setFlag_pfus (o : Nat) (f : Fld) (b : Bool) : (s.setFlag o f b).pfus = s.pfus := (rfl)
@[simp] theorem setFlag_pfPhase (o : Nat) (f : Fld) (b : Bool) : (s.setFlag o f b).pfPhase = s.pfPhase := (rfl)
@[simp] theorem setFlag_pfStep (o : Nat) (f : Fld) (b : Bool) : (s.setFlag o f b).pfStep = s.pfStep := (rfl)
@[simp] theorem setFlag_tmgPend (o : Nat) (f : Fld) (b : Bool) : (s.setFlag o f b).tmgPend = s.tmgPend := (rfl)
@[simp] theorem setFlag_cs (o : Nat) (f : Fld) (b : Bool) : (s.setFlag o f b).cs = s.cs := (rfl)
@[simp] theorem setFlag_sh (o : Nat) (f : Fld) (b : Bool) : (s.setFlag o f b).sh = s.sh := (rfl)
@[simp] theorem setFlag_chs (o : Nat) (f : Fld) (b : Bool) : (s.setFlag o f b).chs = s.chs := (rfl)
@[simp] theorem setFlag_ch (o : Nat) (f : Fld) (b : Bool) : (s.setFlag o f b).ch = s.ch := (rfl)
@[simp] theorem setFlag_mi (o : Nat) (f : Fld) (b : Bool) : (s.setFlag o f b).mi = s.mi := (rfl)
@[simp] theorem setFlag_flkFc (o : Nat) (f : Fld) (b : Bool) : (s.setFlag o f b).flkFc = s.flkFc := (rfl)
@[simp] theorem setFlag_flkReq (o : Nat) (f : Fld) (b : Bool) : (s.setFlag o f b).flkReq = s.flkReq := (rfl)
@[simp] theorem setFlag_flkClean (o : Nat) (f : Fld) (b : Bool) : (s.setFlag o f b).flkClean = s.flkClean := (rfl)
@[simp] theorem setFlag_rs (o : Nat) (f : Fld) (b : Bool) : (s.setFlag o f b).rs = s.rs := (rfl)
@[simp] theorem setFlag_fold (o : Nat) (f : Fld) (b : Bool) : (s.setFlag o f b).fold = s.fold := (rfl)
@[simp] theorem setFlag_fuses (o : Nat) (f : Fld) (b : Bool) : (s.setFlag o f b).fuses = s.fuses := (rfl)
@[simp] theorem setFlag_mb (o : Nat) (f : Fld) (b : Bool) : (s.setFlag o f b).mb = s.mb := (rfl)
@[simp] theorem setFlag_db (o : Nat) (f : Fld) (b : Bool) : (s.setFlag o f b).db = s.db := (rfl)
@[simp] theorem setNat_pending (o n : Nat) : (s.setNat o n).pending = s.pending := (rfl)
@[simp] theorem setNat_fc (o n : Nat) : (s.setNat o n).fc = s.fc := (rfl)
@[simp] theorem setNat_free (o n : Nat) : (s.setNat o n).free = s.free := (rfl)
@[simp] theorem setNat_mem (o n : Nat) : (s.setNat o n).mem = s.mem := (rfl)
@[simp] theorem setNat_marks (o n : Nat) : (s.setNat o n).marks = s.marks := (rfl)
@[simp] theorem setNat_sysMem (o n : Nat) : (s.setNat o n).sysMem = s.sysMem := (rfl)
@[simp] theorem setNat_resp (o n : Nat) : (s.setNat o n).resp = s.resp := (rfl)
@[simp] theorem setNat_hiLatch (o n : Nat) : (s.setNat o n).hiLatch = s.hiLatch := (rfl)
@[simp] theorem setNat_hot (o n : Nat) : (s.setNat o n).hot = s.hot := (rfl)
@[simp] theorem setNat_ev (o n : Nat) : (s.setNat o n).ev = s.ev := (rfl)
@[simp] theorem setNat_jn (o n : Nat) : (s.setNat o n).jn = s.jn := (rfl)
@[simp] theorem setNat_tb (o n : Nat) : (s.setNat o n).tb = s.tb := (rfl)
@[simp] theorem setNat_tl (o n : Nat) : (s.setNat o n).tl = s.tl := (rfl)
@[simp] theorem setNat_engs (o n : Nat) : (s.setNat o n).engs = s.engs := (rfl)
@[simp] theorem setNat_ranks (o n : Nat) : (s.setNat o n).ranks = s.ranks := (rfl)
@[simp] theorem setNat_clExt (o n : Nat) : (s.setNat o n).clExt = s.clExt := (rfl)
@[simp] theorem setNat_lanes (o n : Nat) : (s.setNat o n).lanes = s.lanes := (rfl)
@[simp] theorem setNat_laneOld (o n : Nat) : (s.setNat o n).laneOld = s.laneOld := (rfl)
@[simp] theorem setNat_due (o n : Nat) : (s.setNat o n).due = s.due := (rfl)
@[simp] theorem setNat_qf (o n : Nat) : (s.setNat o n).qf = s.qf := (rfl)
@[simp] theorem setNat_pw (o n : Nat) : (s.setNat o n).pw = s.pw := (rfl)
@[simp] theorem setNat_si (o n : Nat) : (s.setNat o n).si = s.si := (rfl)
@[simp] theorem setNat_gens (o n : Nat) : (s.setNat o n).gens = s.gens := (rfl)
@[simp] theorem setNat_phOld (o n : Nat) : (s.setNat o n).phOld = s.phOld := (rfl)
@[simp] theorem setNat_phDone (o n : Nat) : (s.setNat o n).phDone = s.phDone := (rfl)
@[simp] theorem setNat_phNew (o n : Nat) : (s.setNat o n).phNew = s.phNew := (rfl)
@[simp] theorem setNat_xbarOld (o n : Nat) : (s.setNat o n).xbarOld = s.xbarOld := (rfl)
@[simp] theorem setNat_phDue (o n : Nat) : (s.setNat o n).phDue = s.phDue := (rfl)
@[simp] theorem setNat_tims (o n : Nat) : (s.setNat o n).tims = s.tims := (rfl)
@[simp] theorem setNat_lines (o n : Nat) : (s.setNat o n).lines = s.lines := (rfl)
@[simp] theorem setNat_pfus (o n : Nat) : (s.setNat o n).pfus = s.pfus := (rfl)
@[simp] theorem setNat_pfPhase (o n : Nat) : (s.setNat o n).pfPhase = s.pfPhase := (rfl)
@[simp] theorem setNat_pfStep (o n : Nat) : (s.setNat o n).pfStep = s.pfStep := (rfl)
@[simp] theorem setNat_tmgPend (o n : Nat) : (s.setNat o n).tmgPend = s.tmgPend := (rfl)
@[simp] theorem setNat_cs (o n : Nat) : (s.setNat o n).cs = s.cs := (rfl)
@[simp] theorem setNat_sh (o n : Nat) : (s.setNat o n).sh = s.sh := (rfl)
@[simp] theorem setNat_chs (o n : Nat) : (s.setNat o n).chs = s.chs := (rfl)
@[simp] theorem setNat_ch (o n : Nat) : (s.setNat o n).ch = s.ch := (rfl)
@[simp] theorem setNat_mi (o n : Nat) : (s.setNat o n).mi = s.mi := (rfl)
@[simp] theorem setNat_flkFc (o n : Nat) : (s.setNat o n).flkFc = s.flkFc := (rfl)
@[simp] theorem setNat_flkReq (o n : Nat) : (s.setNat o n).flkReq = s.flkReq := (rfl)
@[simp] theorem setNat_flkClean (o n : Nat) : (s.setNat o n).flkClean = s.flkClean := (rfl)
@[simp] theorem setNat_rs (o n : Nat) : (s.setNat o n).rs = s.rs := (rfl)
@[simp] theorem setNat_fold (o n : Nat) : (s.setNat o n).fold = s.fold := (rfl)
@[simp] theorem setNat_fuses (o n : Nat) : (s.setNat o n).fuses = s.fuses := (rfl)
@[simp] theorem setNat_mb (o n : Nat) : (s.setNat o n).mb = s.mb := (rfl)
@[simp] theorem setNat_db (o n : Nat) : (s.setNat o n).db = s.db := (rfl)
@[simp] theorem inc_pending (o : Nat) : (s.inc o).pending = s.pending := (rfl)
@[simp] theorem inc_fc (o : Nat) : (s.inc o).fc = s.fc := (rfl)
@[simp] theorem inc_free (o : Nat) : (s.inc o).free = s.free := (rfl)
@[simp] theorem inc_mem (o : Nat) : (s.inc o).mem = s.mem := (rfl)
@[simp] theorem inc_marks (o : Nat) : (s.inc o).marks = s.marks := (rfl)
@[simp] theorem inc_sysMem (o : Nat) : (s.inc o).sysMem = s.sysMem := (rfl)
@[simp] theorem inc_resp (o : Nat) : (s.inc o).resp = s.resp := (rfl)
@[simp] theorem inc_hiLatch (o : Nat) : (s.inc o).hiLatch = s.hiLatch := (rfl)
@[simp] theorem inc_ev (o : Nat) : (s.inc o).ev = s.ev := (rfl)
@[simp] theorem inc_jn (o : Nat) : (s.inc o).jn = s.jn := (rfl)
@[simp] theorem inc_tb (o : Nat) : (s.inc o).tb = s.tb := (rfl)
@[simp] theorem inc_tl (o : Nat) : (s.inc o).tl = s.tl := (rfl)
@[simp] theorem inc_engs (o : Nat) : (s.inc o).engs = s.engs := (rfl)
@[simp] theorem inc_ranks (o : Nat) : (s.inc o).ranks = s.ranks := (rfl)
@[simp] theorem inc_clExt (o : Nat) : (s.inc o).clExt = s.clExt := (rfl)
@[simp] theorem inc_lanes (o : Nat) : (s.inc o).lanes = s.lanes := (rfl)
@[simp] theorem inc_laneOld (o : Nat) : (s.inc o).laneOld = s.laneOld := (rfl)
@[simp] theorem inc_due (o : Nat) : (s.inc o).due = s.due := (rfl)
@[simp] theorem inc_qf (o : Nat) : (s.inc o).qf = s.qf := (rfl)
@[simp] theorem inc_pw (o : Nat) : (s.inc o).pw = s.pw := (rfl)
@[simp] theorem inc_si (o : Nat) : (s.inc o).si = s.si := (rfl)
@[simp] theorem inc_gens (o : Nat) : (s.inc o).gens = s.gens := (rfl)
@[simp] theorem inc_phOld (o : Nat) : (s.inc o).phOld = s.phOld := (rfl)
@[simp] theorem inc_phDone (o : Nat) : (s.inc o).phDone = s.phDone := (rfl)
@[simp] theorem inc_phNew (o : Nat) : (s.inc o).phNew = s.phNew := (rfl)
@[simp] theorem inc_xbarOld (o : Nat) : (s.inc o).xbarOld = s.xbarOld := (rfl)
@[simp] theorem inc_phDue (o : Nat) : (s.inc o).phDue = s.phDue := (rfl)
@[simp] theorem inc_tims (o : Nat) : (s.inc o).tims = s.tims := (rfl)
@[simp] theorem inc_lines (o : Nat) : (s.inc o).lines = s.lines := (rfl)
@[simp] theorem inc_pfus (o : Nat) : (s.inc o).pfus = s.pfus := (rfl)
@[simp] theorem inc_pfPhase (o : Nat) : (s.inc o).pfPhase = s.pfPhase := (rfl)
@[simp] theorem inc_pfStep (o : Nat) : (s.inc o).pfStep = s.pfStep := (rfl)
@[simp] theorem inc_tmgPend (o : Nat) : (s.inc o).tmgPend = s.tmgPend := (rfl)
@[simp] theorem inc_cs (o : Nat) : (s.inc o).cs = s.cs := (rfl)
@[simp] theorem inc_sh (o : Nat) : (s.inc o).sh = s.sh := (rfl)
@[simp] theorem inc_chs (o : Nat) : (s.inc o).chs = s.chs := (rfl)
@[simp] theorem inc_ch (o : Nat) : (s.inc o).ch = s.ch := (rfl)
@[simp] theorem inc_mi (o : Nat) : (s.inc o).mi = s.mi := (rfl)
@[simp] theorem inc_flkFc (o : Nat) : (s.inc o).flkFc = s.flkFc := (rfl)
@[simp] theorem inc_flkReq (o : Nat) : (s.inc o).flkReq = s.flkReq := (rfl)
@[simp] theorem inc_flkClean (o : Nat) : (s.inc o).flkClean = s.flkClean := (rfl)
@[simp] theorem inc_rs (o : Nat) : (s.inc o).rs = s.rs := (rfl)
@[simp] theorem inc_fold (o : Nat) : (s.inc o).fold = s.fold := (rfl)
@[simp] theorem inc_fuses (o : Nat) : (s.inc o).fuses = s.fuses := (rfl)
@[simp] theorem inc_mb (o : Nat) : (s.inc o).mb = s.mb := (rfl)
@[simp] theorem inc_db (o : Nat) : (s.inc o).db = s.db := (rfl)
@[simp] theorem setReg64_pending (l h : Nat) (t : Stamp) : (s.setReg64 l h t).pending = s.pending := (rfl)
@[simp] theorem setReg64_fc (l h : Nat) (t : Stamp) : (s.setReg64 l h t).fc = s.fc := (rfl)
@[simp] theorem setReg64_free (l h : Nat) (t : Stamp) : (s.setReg64 l h t).free = s.free := (rfl)
@[simp] theorem setReg64_mem (l h : Nat) (t : Stamp) : (s.setReg64 l h t).mem = s.mem := (rfl)
@[simp] theorem setReg64_marks (l h : Nat) (t : Stamp) : (s.setReg64 l h t).marks = s.marks := (rfl)
@[simp] theorem setReg64_sysMem (l h : Nat) (t : Stamp) : (s.setReg64 l h t).sysMem = s.sysMem := (rfl)
@[simp] theorem setReg64_resp (l h : Nat) (t : Stamp) : (s.setReg64 l h t).resp = s.resp := (rfl)
@[simp] theorem setReg64_hiLatch (l h : Nat) (t : Stamp) : (s.setReg64 l h t).hiLatch = s.hiLatch := (rfl)
@[simp] theorem setReg64_hot (l h : Nat) (t : Stamp) : (s.setReg64 l h t).hot = s.hot := (rfl)
@[simp] theorem setReg64_ev (l h : Nat) (t : Stamp) : (s.setReg64 l h t).ev = s.ev := (rfl)
@[simp] theorem setReg64_jn (l h : Nat) (t : Stamp) : (s.setReg64 l h t).jn = s.jn := (rfl)
@[simp] theorem setReg64_tb (l h : Nat) (t : Stamp) : (s.setReg64 l h t).tb = s.tb := (rfl)
@[simp] theorem setReg64_tl (l h : Nat) (t : Stamp) : (s.setReg64 l h t).tl = s.tl := (rfl)
@[simp] theorem setReg64_engs (l h : Nat) (t : Stamp) : (s.setReg64 l h t).engs = s.engs := (rfl)
@[simp] theorem setReg64_ranks (l h : Nat) (t : Stamp) : (s.setReg64 l h t).ranks = s.ranks := (rfl)
@[simp] theorem setReg64_clExt (l h : Nat) (t : Stamp) : (s.setReg64 l h t).clExt = s.clExt := (rfl)
@[simp] theorem setReg64_lanes (l h : Nat) (t : Stamp) : (s.setReg64 l h t).lanes = s.lanes := (rfl)
@[simp] theorem setReg64_laneOld (l h : Nat) (t : Stamp) : (s.setReg64 l h t).laneOld = s.laneOld := (rfl)
@[simp] theorem setReg64_due (l h : Nat) (t : Stamp) : (s.setReg64 l h t).due = s.due := (rfl)
@[simp] theorem setReg64_qf (l h : Nat) (t : Stamp) : (s.setReg64 l h t).qf = s.qf := (rfl)
@[simp] theorem setReg64_pw (l h : Nat) (t : Stamp) : (s.setReg64 l h t).pw = s.pw := (rfl)
@[simp] theorem setReg64_si (l h : Nat) (t : Stamp) : (s.setReg64 l h t).si = s.si := (rfl)
@[simp] theorem setReg64_gens (l h : Nat) (t : Stamp) : (s.setReg64 l h t).gens = s.gens := (rfl)
@[simp] theorem setReg64_phOld (l h : Nat) (t : Stamp) : (s.setReg64 l h t).phOld = s.phOld := (rfl)
@[simp] theorem setReg64_phDone (l h : Nat) (t : Stamp) : (s.setReg64 l h t).phDone = s.phDone := (rfl)
@[simp] theorem setReg64_phNew (l h : Nat) (t : Stamp) : (s.setReg64 l h t).phNew = s.phNew := (rfl)
@[simp] theorem setReg64_xbarOld (l h : Nat) (t : Stamp) : (s.setReg64 l h t).xbarOld = s.xbarOld := (rfl)
@[simp] theorem setReg64_phDue (l h : Nat) (t : Stamp) : (s.setReg64 l h t).phDue = s.phDue := (rfl)
@[simp] theorem setReg64_tims (l h : Nat) (t : Stamp) : (s.setReg64 l h t).tims = s.tims := (rfl)
@[simp] theorem setReg64_lines (l h : Nat) (t : Stamp) : (s.setReg64 l h t).lines = s.lines := (rfl)
@[simp] theorem setReg64_pfus (l h : Nat) (t : Stamp) : (s.setReg64 l h t).pfus = s.pfus := (rfl)
@[simp] theorem setReg64_pfPhase (l h : Nat) (t : Stamp) : (s.setReg64 l h t).pfPhase = s.pfPhase := (rfl)
@[simp] theorem setReg64_pfStep (l h : Nat) (t : Stamp) : (s.setReg64 l h t).pfStep = s.pfStep := (rfl)
@[simp] theorem setReg64_tmgPend (l h : Nat) (t : Stamp) : (s.setReg64 l h t).tmgPend = s.tmgPend := (rfl)
@[simp] theorem setReg64_cs (l h : Nat) (t : Stamp) : (s.setReg64 l h t).cs = s.cs := (rfl)
@[simp] theorem setReg64_sh (l h : Nat) (t : Stamp) : (s.setReg64 l h t).sh = s.sh := (rfl)
@[simp] theorem setReg64_chs (l h : Nat) (t : Stamp) : (s.setReg64 l h t).chs = s.chs := (rfl)
@[simp] theorem setReg64_ch (l h : Nat) (t : Stamp) : (s.setReg64 l h t).ch = s.ch := (rfl)
@[simp] theorem setReg64_mi (l h : Nat) (t : Stamp) : (s.setReg64 l h t).mi = s.mi := (rfl)
@[simp] theorem setReg64_flkFc (l h : Nat) (t : Stamp) : (s.setReg64 l h t).flkFc = s.flkFc := (rfl)
@[simp] theorem setReg64_flkReq (l h : Nat) (t : Stamp) : (s.setReg64 l h t).flkReq = s.flkReq := (rfl)
@[simp] theorem setReg64_flkClean (l h : Nat) (t : Stamp) : (s.setReg64 l h t).flkClean = s.flkClean := (rfl)
@[simp] theorem setReg64_rs (l h : Nat) (t : Stamp) : (s.setReg64 l h t).rs = s.rs := (rfl)
@[simp] theorem setReg64_fold (l h : Nat) (t : Stamp) : (s.setReg64 l h t).fold = s.fold := (rfl)
@[simp] theorem setReg64_fuses (l h : Nat) (t : Stamp) : (s.setReg64 l h t).fuses = s.fuses := (rfl)
@[simp] theorem setReg64_mb (l h : Nat) (t : Stamp) : (s.setReg64 l h t).mb = s.mb := (rfl)
@[simp] theorem setReg64_db (l h : Nat) (t : Stamp) : (s.setReg64 l h t).db = s.db := (rfl)
@[simp] theorem tookFree_pending : (s.tookFree).pending = s.pending := (rfl)
@[simp] theorem tookFree_fc : (s.tookFree).fc = s.fc := (rfl)
@[simp] theorem tookFree_regs : (s.tookFree).regs = s.regs := (rfl)
@[simp] theorem tookFree_mem : (s.tookFree).mem = s.mem := (rfl)
@[simp] theorem tookFree_marks : (s.tookFree).marks = s.marks := (rfl)
@[simp] theorem tookFree_sysMem : (s.tookFree).sysMem = s.sysMem := (rfl)
@[simp] theorem tookFree_resp : (s.tookFree).resp = s.resp := (rfl)
@[simp] theorem tookFree_hiLatch : (s.tookFree).hiLatch = s.hiLatch := (rfl)
@[simp] theorem tookFree_hot : (s.tookFree).hot = s.hot := (rfl)
@[simp] theorem tookFree_ev : (s.tookFree).ev = s.ev := (rfl)
@[simp] theorem tookFree_jn : (s.tookFree).jn = s.jn := (rfl)
@[simp] theorem tookFree_tb : (s.tookFree).tb = s.tb := (rfl)
@[simp] theorem tookFree_tl : (s.tookFree).tl = s.tl := (rfl)
@[simp] theorem tookFree_engs : (s.tookFree).engs = s.engs := (rfl)
@[simp] theorem tookFree_ranks : (s.tookFree).ranks = s.ranks := (rfl)
@[simp] theorem tookFree_clExt : (s.tookFree).clExt = s.clExt := (rfl)
@[simp] theorem tookFree_lanes : (s.tookFree).lanes = s.lanes := (rfl)
@[simp] theorem tookFree_laneOld : (s.tookFree).laneOld = s.laneOld := (rfl)
@[simp] theorem tookFree_due : (s.tookFree).due = s.due := (rfl)
@[simp] theorem tookFree_qf : (s.tookFree).qf = s.qf := (rfl)
@[simp] theorem tookFree_pw : (s.tookFree).pw = s.pw := (rfl)
@[simp] theorem tookFree_si : (s.tookFree).si = s.si := (rfl)
@[simp] theorem tookFree_gens : (s.tookFree).gens = s.gens := (rfl)
@[simp] theorem tookFree_phOld : (s.tookFree).phOld = s.phOld := (rfl)
@[simp] theorem tookFree_phDone : (s.tookFree).phDone = s.phDone := (rfl)
@[simp] theorem tookFree_phNew : (s.tookFree).phNew = s.phNew := (rfl)
@[simp] theorem tookFree_xbarOld : (s.tookFree).xbarOld = s.xbarOld := (rfl)
@[simp] theorem tookFree_phDue : (s.tookFree).phDue = s.phDue := (rfl)
@[simp] theorem tookFree_tims : (s.tookFree).tims = s.tims := (rfl)
@[simp] theorem tookFree_lines : (s.tookFree).lines = s.lines := (rfl)
@[simp] theorem tookFree_pfus : (s.tookFree).pfus = s.pfus := (rfl)
@[simp] theorem tookFree_pfPhase : (s.tookFree).pfPhase = s.pfPhase := (rfl)
@[simp] theorem tookFree_pfStep : (s.tookFree).pfStep = s.pfStep := (rfl)
@[simp] theorem tookFree_tmgPend : (s.tookFree).tmgPend = s.tmgPend := (rfl)
@[simp] theorem tookFree_cs : (s.tookFree).cs = s.cs := (rfl)
@[simp] theorem tookFree_sh : (s.tookFree).sh = s.sh := (rfl)
@[simp] theorem tookFree_chs : (s.tookFree).chs = s.chs := (rfl)
@[simp] theorem tookFree_ch : (s.tookFree).ch = s.ch := (rfl)
@[simp] theorem tookFree_mi : (s.tookFree).mi = s.mi := (rfl)
@[simp] theorem tookFree_flkFc : (s.tookFree).flkFc = s.flkFc := (rfl)
@[simp] theorem tookFree_flkReq : (s.tookFree).flkReq = s.flkReq := (rfl)
@[simp] theorem tookFree_flkClean : (s.tookFree).flkClean = s.flkClean := (rfl)
@[simp] theorem tookFree_rs : (s.tookFree).rs = s.rs := (rfl)
@[simp] theorem tookFree_fold : (s.tookFree).fold = s.fold := (rfl)
@[simp] theorem tookFree_fuses : (s.tookFree).fuses = s.fuses := (rfl)
@[simp] theorem tookFree_mb : (s.tookFree).mb = s.mb := (rfl)
@[simp] theorem tookFree_db : (s.tookFree).db = s.db := (rfl)
@[simp] theorem setByte_pending (a : Nat) (b : Byte) : (s.setByte a b).pending = s.pending := (rfl)
@[simp] theorem setByte_fc (a : Nat) (b : Byte) : (s.setByte a b).fc = s.fc := (rfl)
@[simp] theorem setByte_free (a : Nat) (b : Byte) : (s.setByte a b).free = s.free := (rfl)
@[simp] theorem setByte_regs (a : Nat) (b : Byte) : (s.setByte a b).regs = s.regs := (rfl)
@[simp] theorem setByte_marks (a : Nat) (b : Byte) : (s.setByte a b).marks = s.marks := (rfl)
@[simp] theorem setByte_sysMem (a : Nat) (b : Byte) : (s.setByte a b).sysMem = s.sysMem := (rfl)
@[simp] theorem setByte_resp (a : Nat) (b : Byte) : (s.setByte a b).resp = s.resp := (rfl)
@[simp] theorem setByte_hiLatch (a : Nat) (b : Byte) : (s.setByte a b).hiLatch = s.hiLatch := (rfl)
@[simp] theorem setByte_hot (a : Nat) (b : Byte) : (s.setByte a b).hot = s.hot := (rfl)
@[simp] theorem setByte_ev (a : Nat) (b : Byte) : (s.setByte a b).ev = s.ev := (rfl)
@[simp] theorem setByte_jn (a : Nat) (b : Byte) : (s.setByte a b).jn = s.jn := (rfl)
@[simp] theorem setByte_tb (a : Nat) (b : Byte) : (s.setByte a b).tb = s.tb := (rfl)
@[simp] theorem setByte_tl (a : Nat) (b : Byte) : (s.setByte a b).tl = s.tl := (rfl)
@[simp] theorem setByte_engs (a : Nat) (b : Byte) : (s.setByte a b).engs = s.engs := (rfl)
@[simp] theorem setByte_ranks (a : Nat) (b : Byte) : (s.setByte a b).ranks = s.ranks := (rfl)
@[simp] theorem setByte_clExt (a : Nat) (b : Byte) : (s.setByte a b).clExt = s.clExt := (rfl)
@[simp] theorem setByte_lanes (a : Nat) (b : Byte) : (s.setByte a b).lanes = s.lanes := (rfl)
@[simp] theorem setByte_laneOld (a : Nat) (b : Byte) : (s.setByte a b).laneOld = s.laneOld := (rfl)
@[simp] theorem setByte_due (a : Nat) (b : Byte) : (s.setByte a b).due = s.due := (rfl)
@[simp] theorem setByte_qf (a : Nat) (b : Byte) : (s.setByte a b).qf = s.qf := (rfl)
@[simp] theorem setByte_pw (a : Nat) (b : Byte) : (s.setByte a b).pw = s.pw := (rfl)
@[simp] theorem setByte_si (a : Nat) (b : Byte) : (s.setByte a b).si = s.si := (rfl)
@[simp] theorem setByte_gens (a : Nat) (b : Byte) : (s.setByte a b).gens = s.gens := (rfl)
@[simp] theorem setByte_phOld (a : Nat) (b : Byte) : (s.setByte a b).phOld = s.phOld := (rfl)
@[simp] theorem setByte_phDone (a : Nat) (b : Byte) : (s.setByte a b).phDone = s.phDone := (rfl)
@[simp] theorem setByte_phNew (a : Nat) (b : Byte) : (s.setByte a b).phNew = s.phNew := (rfl)
@[simp] theorem setByte_xbarOld (a : Nat) (b : Byte) : (s.setByte a b).xbarOld = s.xbarOld := (rfl)
@[simp] theorem setByte_phDue (a : Nat) (b : Byte) : (s.setByte a b).phDue = s.phDue := (rfl)
@[simp] theorem setByte_tims (a : Nat) (b : Byte) : (s.setByte a b).tims = s.tims := (rfl)
@[simp] theorem setByte_lines (a : Nat) (b : Byte) : (s.setByte a b).lines = s.lines := (rfl)
@[simp] theorem setByte_pfus (a : Nat) (b : Byte) : (s.setByte a b).pfus = s.pfus := (rfl)
@[simp] theorem setByte_pfPhase (a : Nat) (b : Byte) : (s.setByte a b).pfPhase = s.pfPhase := (rfl)
@[simp] theorem setByte_pfStep (a : Nat) (b : Byte) : (s.setByte a b).pfStep = s.pfStep := (rfl)
@[simp] theorem setByte_tmgPend (a : Nat) (b : Byte) : (s.setByte a b).tmgPend = s.tmgPend := (rfl)
@[simp] theorem setByte_cs (a : Nat) (b : Byte) : (s.setByte a b).cs = s.cs := (rfl)
@[simp] theorem setByte_sh (a : Nat) (b : Byte) : (s.setByte a b).sh = s.sh := (rfl)
@[simp] theorem setByte_chs (a : Nat) (b : Byte) : (s.setByte a b).chs = s.chs := (rfl)
@[simp] theorem setByte_ch (a : Nat) (b : Byte) : (s.setByte a b).ch = s.ch := (rfl)
@[simp] theorem setByte_mi (a : Nat) (b : Byte) : (s.setByte a b).mi = s.mi := (rfl)
@[simp] theorem setByte_flkFc (a : Nat) (b : Byte) : (s.setByte a b).flkFc = s.flkFc := (rfl)
@[simp] theorem setByte_flkReq (a : Nat) (b : Byte) : (s.setByte a b).flkReq = s.flkReq := (rfl)
@[simp] theorem setByte_flkClean (a : Nat) (b : Byte) : (s.setByte a b).flkClean = s.flkClean := (rfl)
@[simp] theorem setByte_rs (a : Nat) (b : Byte) : (s.setByte a b).rs = s.rs := (rfl)
@[simp] theorem setByte_fold (a : Nat) (b : Byte) : (s.setByte a b).fold = s.fold := (rfl)
@[simp] theorem setByte_fuses (a : Nat) (b : Byte) : (s.setByte a b).fuses = s.fuses := (rfl)
@[simp] theorem setByte_mb (a : Nat) (b : Byte) : (s.setByte a b).mb = s.mb := (rfl)
@[simp] theorem setByte_db (a : Nat) (b : Byte) : (s.setByte a b).db = s.db := (rfl)
@[simp] theorem setMark_pending (a : Nat) (b : Bool) : (s.setMark a b).pending = s.pending := (rfl)
@[simp] theorem setMark_fc (a : Nat) (b : Bool) : (s.setMark a b).fc = s.fc := (rfl)
@[simp] theorem setMark_free (a : Nat) (b : Bool) : (s.setMark a b).free = s.free := (rfl)
@[simp] theorem setMark_regs (a : Nat) (b : Bool) : (s.setMark a b).regs = s.regs := (rfl)
@[simp] theorem setMark_mem (a : Nat) (b : Bool) : (s.setMark a b).mem = s.mem := (rfl)
@[simp] theorem setMark_sysMem (a : Nat) (b : Bool) : (s.setMark a b).sysMem = s.sysMem := (rfl)
@[simp] theorem setMark_resp (a : Nat) (b : Bool) : (s.setMark a b).resp = s.resp := (rfl)
@[simp] theorem setMark_hiLatch (a : Nat) (b : Bool) : (s.setMark a b).hiLatch = s.hiLatch := (rfl)
@[simp] theorem setMark_hot (a : Nat) (b : Bool) : (s.setMark a b).hot = s.hot := (rfl)
@[simp] theorem setMark_ev (a : Nat) (b : Bool) : (s.setMark a b).ev = s.ev := (rfl)
@[simp] theorem setMark_jn (a : Nat) (b : Bool) : (s.setMark a b).jn = s.jn := (rfl)
@[simp] theorem setMark_tb (a : Nat) (b : Bool) : (s.setMark a b).tb = s.tb := (rfl)
@[simp] theorem setMark_tl (a : Nat) (b : Bool) : (s.setMark a b).tl = s.tl := (rfl)
@[simp] theorem setMark_engs (a : Nat) (b : Bool) : (s.setMark a b).engs = s.engs := (rfl)
@[simp] theorem setMark_ranks (a : Nat) (b : Bool) : (s.setMark a b).ranks = s.ranks := (rfl)
@[simp] theorem setMark_clExt (a : Nat) (b : Bool) : (s.setMark a b).clExt = s.clExt := (rfl)
@[simp] theorem setMark_lanes (a : Nat) (b : Bool) : (s.setMark a b).lanes = s.lanes := (rfl)
@[simp] theorem setMark_laneOld (a : Nat) (b : Bool) : (s.setMark a b).laneOld = s.laneOld := (rfl)
@[simp] theorem setMark_due (a : Nat) (b : Bool) : (s.setMark a b).due = s.due := (rfl)
@[simp] theorem setMark_qf (a : Nat) (b : Bool) : (s.setMark a b).qf = s.qf := (rfl)
@[simp] theorem setMark_pw (a : Nat) (b : Bool) : (s.setMark a b).pw = s.pw := (rfl)
@[simp] theorem setMark_si (a : Nat) (b : Bool) : (s.setMark a b).si = s.si := (rfl)
@[simp] theorem setMark_gens (a : Nat) (b : Bool) : (s.setMark a b).gens = s.gens := (rfl)
@[simp] theorem setMark_phOld (a : Nat) (b : Bool) : (s.setMark a b).phOld = s.phOld := (rfl)
@[simp] theorem setMark_phDone (a : Nat) (b : Bool) : (s.setMark a b).phDone = s.phDone := (rfl)
@[simp] theorem setMark_phNew (a : Nat) (b : Bool) : (s.setMark a b).phNew = s.phNew := (rfl)
@[simp] theorem setMark_xbarOld (a : Nat) (b : Bool) : (s.setMark a b).xbarOld = s.xbarOld := (rfl)
@[simp] theorem setMark_phDue (a : Nat) (b : Bool) : (s.setMark a b).phDue = s.phDue := (rfl)
@[simp] theorem setMark_tims (a : Nat) (b : Bool) : (s.setMark a b).tims = s.tims := (rfl)
@[simp] theorem setMark_lines (a : Nat) (b : Bool) : (s.setMark a b).lines = s.lines := (rfl)
@[simp] theorem setMark_pfus (a : Nat) (b : Bool) : (s.setMark a b).pfus = s.pfus := (rfl)
@[simp] theorem setMark_pfPhase (a : Nat) (b : Bool) : (s.setMark a b).pfPhase = s.pfPhase := (rfl)
@[simp] theorem setMark_pfStep (a : Nat) (b : Bool) : (s.setMark a b).pfStep = s.pfStep := (rfl)
@[simp] theorem setMark_tmgPend (a : Nat) (b : Bool) : (s.setMark a b).tmgPend = s.tmgPend := (rfl)
@[simp] theorem setMark_cs (a : Nat) (b : Bool) : (s.setMark a b).cs = s.cs := (rfl)
@[simp] theorem setMark_sh (a : Nat) (b : Bool) : (s.setMark a b).sh = s.sh := (rfl)
@[simp] theorem setMark_chs (a : Nat) (b : Bool) : (s.setMark a b).chs = s.chs := (rfl)
@[simp] theorem setMark_ch (a : Nat) (b : Bool) : (s.setMark a b).ch = s.ch := (rfl)
@[simp] theorem setMark_mi (a : Nat) (b : Bool) : (s.setMark a b).mi = s.mi := (rfl)
@[simp] theorem setMark_flkFc (a : Nat) (b : Bool) : (s.setMark a b).flkFc = s.flkFc := (rfl)
@[simp] theorem setMark_flkReq (a : Nat) (b : Bool) : (s.setMark a b).flkReq = s.flkReq := (rfl)
@[simp] theorem setMark_flkClean (a : Nat) (b : Bool) : (s.setMark a b).flkClean = s.flkClean := (rfl)
@[simp] theorem setMark_rs (a : Nat) (b : Bool) : (s.setMark a b).rs = s.rs := (rfl)
@[simp] theorem setMark_fold (a : Nat) (b : Bool) : (s.setMark a b).fold = s.fold := (rfl)
@[simp] theorem setMark_fuses (a : Nat) (b : Bool) : (s.setMark a b).fuses = s.fuses := (rfl)
@[simp] theorem setMark_mb (a : Nat) (b : Bool) : (s.setMark a b).mb = s.mb := (rfl)
@[simp] theorem setMark_db (a : Nat) (b : Bool) : (s.setMark a b).db = s.db := (rfl)
@[simp] theorem later_pending (c : Nat) (a : Act) : (s.later c a).pending = s.pending := (rfl)
@[simp] theorem later_fc (c : Nat) (a : Act) : (s.later c a).fc = s.fc := (rfl)
@[simp] theorem later_free (c : Nat) (a : Act) : (s.later c a).free = s.free := (rfl)
@[simp] theorem later_regs (c : Nat) (a : Act) : (s.later c a).regs = s.regs := (rfl)
@[simp] theorem later_mem (c : Nat) (a : Act) : (s.later c a).mem = s.mem := (rfl)
@[simp] theorem later_marks (c : Nat) (a : Act) : (s.later c a).marks = s.marks := (rfl)
@[simp] theorem later_sysMem (c : Nat) (a : Act) : (s.later c a).sysMem = s.sysMem := (rfl)
@[simp] theorem later_resp (c : Nat) (a : Act) : (s.later c a).resp = s.resp := (rfl)
@[simp] theorem later_hiLatch (c : Nat) (a : Act) : (s.later c a).hiLatch = s.hiLatch := (rfl)
@[simp] theorem later_hot (c : Nat) (a : Act) : (s.later c a).hot = s.hot := (rfl)
@[simp] theorem later_ev (c : Nat) (a : Act) : (s.later c a).ev = s.ev := (rfl)
@[simp] theorem later_jn (c : Nat) (a : Act) : (s.later c a).jn = s.jn := (rfl)
@[simp] theorem later_tb (c : Nat) (a : Act) : (s.later c a).tb = s.tb := (rfl)
@[simp] theorem later_tl (c : Nat) (a : Act) : (s.later c a).tl = s.tl := (rfl)
@[simp] theorem later_engs (c : Nat) (a : Act) : (s.later c a).engs = s.engs := (rfl)
@[simp] theorem later_ranks (c : Nat) (a : Act) : (s.later c a).ranks = s.ranks := (rfl)
@[simp] theorem later_clExt (c : Nat) (a : Act) : (s.later c a).clExt = s.clExt := (rfl)
@[simp] theorem later_lanes (c : Nat) (a : Act) : (s.later c a).lanes = s.lanes := (rfl)
@[simp] theorem later_laneOld (c : Nat) (a : Act) : (s.later c a).laneOld = s.laneOld := (rfl)
@[simp] theorem later_qf (c : Nat) (a : Act) : (s.later c a).qf = s.qf := (rfl)
@[simp] theorem later_pw (c : Nat) (a : Act) : (s.later c a).pw = s.pw := (rfl)
@[simp] theorem later_si (c : Nat) (a : Act) : (s.later c a).si = s.si := (rfl)
@[simp] theorem later_gens (c : Nat) (a : Act) : (s.later c a).gens = s.gens := (rfl)
@[simp] theorem later_phOld (c : Nat) (a : Act) : (s.later c a).phOld = s.phOld := (rfl)
@[simp] theorem later_phDone (c : Nat) (a : Act) : (s.later c a).phDone = s.phDone := (rfl)
@[simp] theorem later_phNew (c : Nat) (a : Act) : (s.later c a).phNew = s.phNew := (rfl)
@[simp] theorem later_xbarOld (c : Nat) (a : Act) : (s.later c a).xbarOld = s.xbarOld := (rfl)
@[simp] theorem later_phDue (c : Nat) (a : Act) : (s.later c a).phDue = s.phDue := (rfl)
@[simp] theorem later_tims (c : Nat) (a : Act) : (s.later c a).tims = s.tims := (rfl)
@[simp] theorem later_lines (c : Nat) (a : Act) : (s.later c a).lines = s.lines := (rfl)
@[simp] theorem later_pfus (c : Nat) (a : Act) : (s.later c a).pfus = s.pfus := (rfl)
@[simp] theorem later_pfPhase (c : Nat) (a : Act) : (s.later c a).pfPhase = s.pfPhase := (rfl)
@[simp] theorem later_pfStep (c : Nat) (a : Act) : (s.later c a).pfStep = s.pfStep := (rfl)
@[simp] theorem later_tmgPend (c : Nat) (a : Act) : (s.later c a).tmgPend = s.tmgPend := (rfl)
@[simp] theorem later_cs (c : Nat) (a : Act) : (s.later c a).cs = s.cs := (rfl)
@[simp] theorem later_sh (c : Nat) (a : Act) : (s.later c a).sh = s.sh := (rfl)
@[simp] theorem later_chs (c : Nat) (a : Act) : (s.later c a).chs = s.chs := (rfl)
@[simp] theorem later_ch (c : Nat) (a : Act) : (s.later c a).ch = s.ch := (rfl)
@[simp] theorem later_mi (c : Nat) (a : Act) : (s.later c a).mi = s.mi := (rfl)
@[simp] theorem later_flkFc (c : Nat) (a : Act) : (s.later c a).flkFc = s.flkFc := (rfl)
@[simp] theorem later_flkReq (c : Nat) (a : Act) : (s.later c a).flkReq = s.flkReq := (rfl)
@[simp] theorem later_flkClean (c : Nat) (a : Act) : (s.later c a).flkClean = s.flkClean := (rfl)
@[simp] theorem later_rs (c : Nat) (a : Act) : (s.later c a).rs = s.rs := (rfl)
@[simp] theorem later_fold (c : Nat) (a : Act) : (s.later c a).fold = s.fold := (rfl)
@[simp] theorem later_fuses (c : Nat) (a : Act) : (s.later c a).fuses = s.fuses := (rfl)
@[simp] theorem later_mb (c : Nat) (a : Act) : (s.later c a).mb = s.mb := (rfl)
@[simp] theorem later_db (c : Nat) (a : Act) : (s.later c a).db = s.db := (rfl)
@[simp] theorem respond_pending (p : Port) (c : Nat) (d : BitVec 64) : (s.respond p c d).pending = s.pending := (rfl)
@[simp] theorem respond_fc (p : Port) (c : Nat) (d : BitVec 64) : (s.respond p c d).fc = s.fc := (rfl)
@[simp] theorem respond_free (p : Port) (c : Nat) (d : BitVec 64) : (s.respond p c d).free = s.free := (rfl)
@[simp] theorem respond_regs (p : Port) (c : Nat) (d : BitVec 64) : (s.respond p c d).regs = s.regs := (rfl)
@[simp] theorem respond_mem (p : Port) (c : Nat) (d : BitVec 64) : (s.respond p c d).mem = s.mem := (rfl)
@[simp] theorem respond_marks (p : Port) (c : Nat) (d : BitVec 64) : (s.respond p c d).marks = s.marks := (rfl)
@[simp] theorem respond_sysMem (p : Port) (c : Nat) (d : BitVec 64) : (s.respond p c d).sysMem = s.sysMem := (rfl)
@[simp] theorem respond_hiLatch (p : Port) (c : Nat) (d : BitVec 64) : (s.respond p c d).hiLatch = s.hiLatch := (rfl)
@[simp] theorem respond_hot (p : Port) (c : Nat) (d : BitVec 64) : (s.respond p c d).hot = s.hot := (rfl)
@[simp] theorem respond_ev (p : Port) (c : Nat) (d : BitVec 64) : (s.respond p c d).ev = s.ev := (rfl)
@[simp] theorem respond_jn (p : Port) (c : Nat) (d : BitVec 64) : (s.respond p c d).jn = s.jn := (rfl)
@[simp] theorem respond_tb (p : Port) (c : Nat) (d : BitVec 64) : (s.respond p c d).tb = s.tb := (rfl)
@[simp] theorem respond_tl (p : Port) (c : Nat) (d : BitVec 64) : (s.respond p c d).tl = s.tl := (rfl)
@[simp] theorem respond_engs (p : Port) (c : Nat) (d : BitVec 64) : (s.respond p c d).engs = s.engs := (rfl)
@[simp] theorem respond_ranks (p : Port) (c : Nat) (d : BitVec 64) : (s.respond p c d).ranks = s.ranks := (rfl)
@[simp] theorem respond_clExt (p : Port) (c : Nat) (d : BitVec 64) : (s.respond p c d).clExt = s.clExt := (rfl)
@[simp] theorem respond_lanes (p : Port) (c : Nat) (d : BitVec 64) : (s.respond p c d).lanes = s.lanes := (rfl)
@[simp] theorem respond_laneOld (p : Port) (c : Nat) (d : BitVec 64) : (s.respond p c d).laneOld = s.laneOld := (rfl)
@[simp] theorem respond_due (p : Port) (c : Nat) (d : BitVec 64) : (s.respond p c d).due = s.due := (rfl)
@[simp] theorem respond_qf (p : Port) (c : Nat) (d : BitVec 64) : (s.respond p c d).qf = s.qf := (rfl)
@[simp] theorem respond_pw (p : Port) (c : Nat) (d : BitVec 64) : (s.respond p c d).pw = s.pw := (rfl)
@[simp] theorem respond_si (p : Port) (c : Nat) (d : BitVec 64) : (s.respond p c d).si = s.si := (rfl)
@[simp] theorem respond_gens (p : Port) (c : Nat) (d : BitVec 64) : (s.respond p c d).gens = s.gens := (rfl)
@[simp] theorem respond_phOld (p : Port) (c : Nat) (d : BitVec 64) : (s.respond p c d).phOld = s.phOld := (rfl)
@[simp] theorem respond_phDone (p : Port) (c : Nat) (d : BitVec 64) : (s.respond p c d).phDone = s.phDone := (rfl)
@[simp] theorem respond_phNew (p : Port) (c : Nat) (d : BitVec 64) : (s.respond p c d).phNew = s.phNew := (rfl)
@[simp] theorem respond_xbarOld (p : Port) (c : Nat) (d : BitVec 64) : (s.respond p c d).xbarOld = s.xbarOld := (rfl)
@[simp] theorem respond_phDue (p : Port) (c : Nat) (d : BitVec 64) : (s.respond p c d).phDue = s.phDue := (rfl)
@[simp] theorem respond_tims (p : Port) (c : Nat) (d : BitVec 64) : (s.respond p c d).tims = s.tims := (rfl)
@[simp] theorem respond_lines (p : Port) (c : Nat) (d : BitVec 64) : (s.respond p c d).lines = s.lines := (rfl)
@[simp] theorem respond_pfus (p : Port) (c : Nat) (d : BitVec 64) : (s.respond p c d).pfus = s.pfus := (rfl)
@[simp] theorem respond_pfPhase (p : Port) (c : Nat) (d : BitVec 64) : (s.respond p c d).pfPhase = s.pfPhase := (rfl)
@[simp] theorem respond_pfStep (p : Port) (c : Nat) (d : BitVec 64) : (s.respond p c d).pfStep = s.pfStep := (rfl)
@[simp] theorem respond_tmgPend (p : Port) (c : Nat) (d : BitVec 64) : (s.respond p c d).tmgPend = s.tmgPend := (rfl)
@[simp] theorem respond_cs (p : Port) (c : Nat) (d : BitVec 64) : (s.respond p c d).cs = s.cs := (rfl)
@[simp] theorem respond_sh (p : Port) (c : Nat) (d : BitVec 64) : (s.respond p c d).sh = s.sh := (rfl)
@[simp] theorem respond_chs (p : Port) (c : Nat) (d : BitVec 64) : (s.respond p c d).chs = s.chs := (rfl)
@[simp] theorem respond_ch (p : Port) (c : Nat) (d : BitVec 64) : (s.respond p c d).ch = s.ch := (rfl)
@[simp] theorem respond_mi (p : Port) (c : Nat) (d : BitVec 64) : (s.respond p c d).mi = s.mi := (rfl)
@[simp] theorem respond_flkFc (p : Port) (c : Nat) (d : BitVec 64) : (s.respond p c d).flkFc = s.flkFc := (rfl)
@[simp] theorem respond_flkReq (p : Port) (c : Nat) (d : BitVec 64) : (s.respond p c d).flkReq = s.flkReq := (rfl)
@[simp] theorem respond_flkClean (p : Port) (c : Nat) (d : BitVec 64) : (s.respond p c d).flkClean = s.flkClean := (rfl)
@[simp] theorem respond_rs (p : Port) (c : Nat) (d : BitVec 64) : (s.respond p c d).rs = s.rs := (rfl)
@[simp] theorem respond_fold (p : Port) (c : Nat) (d : BitVec 64) : (s.respond p c d).fold = s.fold := (rfl)
@[simp] theorem respond_fuses (p : Port) (c : Nat) (d : BitVec 64) : (s.respond p c d).fuses = s.fuses := (rfl)
@[simp] theorem respond_mb (p : Port) (c : Nat) (d : BitVec 64) : (s.respond p c d).mb = s.mb := (rfl)
@[simp] theorem respond_db (p : Port) (c : Nat) (d : BitVec 64) : (s.respond p c d).db = s.db := (rfl)
@[simp] theorem jAdd_pending (e : JEntry) : (s.jAdd e).pending = s.pending := (rfl)
@[simp] theorem jAdd_fc (e : JEntry) : (s.jAdd e).fc = s.fc := (rfl)
@[simp] theorem jAdd_free (e : JEntry) : (s.jAdd e).free = s.free := (rfl)
@[simp] theorem jAdd_regs (e : JEntry) : (s.jAdd e).regs = s.regs := (rfl)
@[simp] theorem jAdd_mem (e : JEntry) : (s.jAdd e).mem = s.mem := (rfl)
@[simp] theorem jAdd_marks (e : JEntry) : (s.jAdd e).marks = s.marks := (rfl)
@[simp] theorem jAdd_sysMem (e : JEntry) : (s.jAdd e).sysMem = s.sysMem := (rfl)
@[simp] theorem jAdd_resp (e : JEntry) : (s.jAdd e).resp = s.resp := (rfl)
@[simp] theorem jAdd_hiLatch (e : JEntry) : (s.jAdd e).hiLatch = s.hiLatch := (rfl)
@[simp] theorem jAdd_hot (e : JEntry) : (s.jAdd e).hot = s.hot := (rfl)
@[simp] theorem jAdd_ev (e : JEntry) : (s.jAdd e).ev = s.ev := (rfl)
@[simp] theorem jAdd_tb (e : JEntry) : (s.jAdd e).tb = s.tb := (rfl)
@[simp] theorem jAdd_tl (e : JEntry) : (s.jAdd e).tl = s.tl := (rfl)
@[simp] theorem jAdd_engs (e : JEntry) : (s.jAdd e).engs = s.engs := (rfl)
@[simp] theorem jAdd_ranks (e : JEntry) : (s.jAdd e).ranks = s.ranks := (rfl)
@[simp] theorem jAdd_clExt (e : JEntry) : (s.jAdd e).clExt = s.clExt := (rfl)
@[simp] theorem jAdd_lanes (e : JEntry) : (s.jAdd e).lanes = s.lanes := (rfl)
@[simp] theorem jAdd_laneOld (e : JEntry) : (s.jAdd e).laneOld = s.laneOld := (rfl)
@[simp] theorem jAdd_due (e : JEntry) : (s.jAdd e).due = s.due := (rfl)
@[simp] theorem jAdd_qf (e : JEntry) : (s.jAdd e).qf = s.qf := (rfl)
@[simp] theorem jAdd_pw (e : JEntry) : (s.jAdd e).pw = s.pw := (rfl)
@[simp] theorem jAdd_si (e : JEntry) : (s.jAdd e).si = s.si := (rfl)
@[simp] theorem jAdd_gens (e : JEntry) : (s.jAdd e).gens = s.gens := (rfl)
@[simp] theorem jAdd_phOld (e : JEntry) : (s.jAdd e).phOld = s.phOld := (rfl)
@[simp] theorem jAdd_phDone (e : JEntry) : (s.jAdd e).phDone = s.phDone := (rfl)
@[simp] theorem jAdd_phNew (e : JEntry) : (s.jAdd e).phNew = s.phNew := (rfl)
@[simp] theorem jAdd_xbarOld (e : JEntry) : (s.jAdd e).xbarOld = s.xbarOld := (rfl)
@[simp] theorem jAdd_phDue (e : JEntry) : (s.jAdd e).phDue = s.phDue := (rfl)
@[simp] theorem jAdd_tims (e : JEntry) : (s.jAdd e).tims = s.tims := (rfl)
@[simp] theorem jAdd_lines (e : JEntry) : (s.jAdd e).lines = s.lines := (rfl)
@[simp] theorem jAdd_pfus (e : JEntry) : (s.jAdd e).pfus = s.pfus := (rfl)
@[simp] theorem jAdd_pfPhase (e : JEntry) : (s.jAdd e).pfPhase = s.pfPhase := (rfl)
@[simp] theorem jAdd_pfStep (e : JEntry) : (s.jAdd e).pfStep = s.pfStep := (rfl)
@[simp] theorem jAdd_tmgPend (e : JEntry) : (s.jAdd e).tmgPend = s.tmgPend := (rfl)
@[simp] theorem jAdd_cs (e : JEntry) : (s.jAdd e).cs = s.cs := (rfl)
@[simp] theorem jAdd_sh (e : JEntry) : (s.jAdd e).sh = s.sh := (rfl)
@[simp] theorem jAdd_chs (e : JEntry) : (s.jAdd e).chs = s.chs := (rfl)
@[simp] theorem jAdd_ch (e : JEntry) : (s.jAdd e).ch = s.ch := (rfl)
@[simp] theorem jAdd_mi (e : JEntry) : (s.jAdd e).mi = s.mi := (rfl)
@[simp] theorem jAdd_flkFc (e : JEntry) : (s.jAdd e).flkFc = s.flkFc := (rfl)
@[simp] theorem jAdd_flkReq (e : JEntry) : (s.jAdd e).flkReq = s.flkReq := (rfl)
@[simp] theorem jAdd_flkClean (e : JEntry) : (s.jAdd e).flkClean = s.flkClean := (rfl)
@[simp] theorem jAdd_rs (e : JEntry) : (s.jAdd e).rs = s.rs := (rfl)
@[simp] theorem jAdd_fold (e : JEntry) : (s.jAdd e).fold = s.fold := (rfl)
@[simp] theorem jAdd_fuses (e : JEntry) : (s.jAdd e).fuses = s.fuses := (rfl)
@[simp] theorem jAdd_mb (e : JEntry) : (s.jAdd e).mb = s.mb := (rfl)
@[simp] theorem jAdd_db (e : JEntry) : (s.jAdd e).db = s.db := (rfl)
@[simp] theorem setTlp_pending (p : Nat) (x : TlPort) : (s.setTlp p x).pending = s.pending := (rfl)
@[simp] theorem setTlp_fc (p : Nat) (x : TlPort) : (s.setTlp p x).fc = s.fc := (rfl)
@[simp] theorem setTlp_free (p : Nat) (x : TlPort) : (s.setTlp p x).free = s.free := (rfl)
@[simp] theorem setTlp_regs (p : Nat) (x : TlPort) : (s.setTlp p x).regs = s.regs := (rfl)
@[simp] theorem setTlp_mem (p : Nat) (x : TlPort) : (s.setTlp p x).mem = s.mem := (rfl)
@[simp] theorem setTlp_marks (p : Nat) (x : TlPort) : (s.setTlp p x).marks = s.marks := (rfl)
@[simp] theorem setTlp_sysMem (p : Nat) (x : TlPort) : (s.setTlp p x).sysMem = s.sysMem := (rfl)
@[simp] theorem setTlp_resp (p : Nat) (x : TlPort) : (s.setTlp p x).resp = s.resp := (rfl)
@[simp] theorem setTlp_hiLatch (p : Nat) (x : TlPort) : (s.setTlp p x).hiLatch = s.hiLatch := (rfl)
@[simp] theorem setTlp_hot (p : Nat) (x : TlPort) : (s.setTlp p x).hot = s.hot := (rfl)
@[simp] theorem setTlp_ev (p : Nat) (x : TlPort) : (s.setTlp p x).ev = s.ev := (rfl)
@[simp] theorem setTlp_jn (p : Nat) (x : TlPort) : (s.setTlp p x).jn = s.jn := (rfl)
@[simp] theorem setTlp_tb (p : Nat) (x : TlPort) : (s.setTlp p x).tb = s.tb := (rfl)
@[simp] theorem setTlp_engs (p : Nat) (x : TlPort) : (s.setTlp p x).engs = s.engs := (rfl)
@[simp] theorem setTlp_ranks (p : Nat) (x : TlPort) : (s.setTlp p x).ranks = s.ranks := (rfl)
@[simp] theorem setTlp_clExt (p : Nat) (x : TlPort) : (s.setTlp p x).clExt = s.clExt := (rfl)
@[simp] theorem setTlp_lanes (p : Nat) (x : TlPort) : (s.setTlp p x).lanes = s.lanes := (rfl)
@[simp] theorem setTlp_laneOld (p : Nat) (x : TlPort) : (s.setTlp p x).laneOld = s.laneOld := (rfl)
@[simp] theorem setTlp_due (p : Nat) (x : TlPort) : (s.setTlp p x).due = s.due := (rfl)
@[simp] theorem setTlp_qf (p : Nat) (x : TlPort) : (s.setTlp p x).qf = s.qf := (rfl)
@[simp] theorem setTlp_pw (p : Nat) (x : TlPort) : (s.setTlp p x).pw = s.pw := (rfl)
@[simp] theorem setTlp_si (p : Nat) (x : TlPort) : (s.setTlp p x).si = s.si := (rfl)
@[simp] theorem setTlp_gens (p : Nat) (x : TlPort) : (s.setTlp p x).gens = s.gens := (rfl)
@[simp] theorem setTlp_phOld (p : Nat) (x : TlPort) : (s.setTlp p x).phOld = s.phOld := (rfl)
@[simp] theorem setTlp_phDone (p : Nat) (x : TlPort) : (s.setTlp p x).phDone = s.phDone := (rfl)
@[simp] theorem setTlp_phNew (p : Nat) (x : TlPort) : (s.setTlp p x).phNew = s.phNew := (rfl)
@[simp] theorem setTlp_xbarOld (p : Nat) (x : TlPort) : (s.setTlp p x).xbarOld = s.xbarOld := (rfl)
@[simp] theorem setTlp_phDue (p : Nat) (x : TlPort) : (s.setTlp p x).phDue = s.phDue := (rfl)
@[simp] theorem setTlp_tims (p : Nat) (x : TlPort) : (s.setTlp p x).tims = s.tims := (rfl)
@[simp] theorem setTlp_lines (p : Nat) (x : TlPort) : (s.setTlp p x).lines = s.lines := (rfl)
@[simp] theorem setTlp_pfus (p : Nat) (x : TlPort) : (s.setTlp p x).pfus = s.pfus := (rfl)
@[simp] theorem setTlp_pfPhase (p : Nat) (x : TlPort) : (s.setTlp p x).pfPhase = s.pfPhase := (rfl)
@[simp] theorem setTlp_pfStep (p : Nat) (x : TlPort) : (s.setTlp p x).pfStep = s.pfStep := (rfl)
@[simp] theorem setTlp_tmgPend (p : Nat) (x : TlPort) : (s.setTlp p x).tmgPend = s.tmgPend := (rfl)
@[simp] theorem setTlp_cs (p : Nat) (x : TlPort) : (s.setTlp p x).cs = s.cs := (rfl)
@[simp] theorem setTlp_sh (p : Nat) (x : TlPort) : (s.setTlp p x).sh = s.sh := (rfl)
@[simp] theorem setTlp_chs (p : Nat) (x : TlPort) : (s.setTlp p x).chs = s.chs := (rfl)
@[simp] theorem setTlp_ch (p : Nat) (x : TlPort) : (s.setTlp p x).ch = s.ch := (rfl)
@[simp] theorem setTlp_mi (p : Nat) (x : TlPort) : (s.setTlp p x).mi = s.mi := (rfl)
@[simp] theorem setTlp_flkFc (p : Nat) (x : TlPort) : (s.setTlp p x).flkFc = s.flkFc := (rfl)
@[simp] theorem setTlp_flkReq (p : Nat) (x : TlPort) : (s.setTlp p x).flkReq = s.flkReq := (rfl)
@[simp] theorem setTlp_flkClean (p : Nat) (x : TlPort) : (s.setTlp p x).flkClean = s.flkClean := (rfl)
@[simp] theorem setTlp_rs (p : Nat) (x : TlPort) : (s.setTlp p x).rs = s.rs := (rfl)
@[simp] theorem setTlp_fold (p : Nat) (x : TlPort) : (s.setTlp p x).fold = s.fold := (rfl)
@[simp] theorem setTlp_fuses (p : Nat) (x : TlPort) : (s.setTlp p x).fuses = s.fuses := (rfl)
@[simp] theorem setTlp_mb (p : Nat) (x : TlPort) : (s.setTlp p x).mb = s.mb := (rfl)
@[simp] theorem setTlp_db (p : Nat) (x : TlPort) : (s.setTlp p x).db = s.db := (rfl)
@[simp] theorem setEng_pending (p : Nat) (e : Eng) : (s.setEng p e).pending = s.pending := (rfl)
@[simp] theorem setEng_fc (p : Nat) (e : Eng) : (s.setEng p e).fc = s.fc := (rfl)
@[simp] theorem setEng_free (p : Nat) (e : Eng) : (s.setEng p e).free = s.free := (rfl)
@[simp] theorem setEng_regs (p : Nat) (e : Eng) : (s.setEng p e).regs = s.regs := (rfl)
@[simp] theorem setEng_mem (p : Nat) (e : Eng) : (s.setEng p e).mem = s.mem := (rfl)
@[simp] theorem setEng_marks (p : Nat) (e : Eng) : (s.setEng p e).marks = s.marks := (rfl)
@[simp] theorem setEng_sysMem (p : Nat) (e : Eng) : (s.setEng p e).sysMem = s.sysMem := (rfl)
@[simp] theorem setEng_resp (p : Nat) (e : Eng) : (s.setEng p e).resp = s.resp := (rfl)
@[simp] theorem setEng_hiLatch (p : Nat) (e : Eng) : (s.setEng p e).hiLatch = s.hiLatch := (rfl)
@[simp] theorem setEng_hot (p : Nat) (e : Eng) : (s.setEng p e).hot = s.hot := (rfl)
@[simp] theorem setEng_ev (p : Nat) (e : Eng) : (s.setEng p e).ev = s.ev := (rfl)
@[simp] theorem setEng_jn (p : Nat) (e : Eng) : (s.setEng p e).jn = s.jn := (rfl)
@[simp] theorem setEng_tb (p : Nat) (e : Eng) : (s.setEng p e).tb = s.tb := (rfl)
@[simp] theorem setEng_tl (p : Nat) (e : Eng) : (s.setEng p e).tl = s.tl := (rfl)
@[simp] theorem setEng_ranks (p : Nat) (e : Eng) : (s.setEng p e).ranks = s.ranks := (rfl)
@[simp] theorem setEng_clExt (p : Nat) (e : Eng) : (s.setEng p e).clExt = s.clExt := (rfl)
@[simp] theorem setEng_lanes (p : Nat) (e : Eng) : (s.setEng p e).lanes = s.lanes := (rfl)
@[simp] theorem setEng_laneOld (p : Nat) (e : Eng) : (s.setEng p e).laneOld = s.laneOld := (rfl)
@[simp] theorem setEng_due (p : Nat) (e : Eng) : (s.setEng p e).due = s.due := (rfl)
@[simp] theorem setEng_qf (p : Nat) (e : Eng) : (s.setEng p e).qf = s.qf := (rfl)
@[simp] theorem setEng_pw (p : Nat) (e : Eng) : (s.setEng p e).pw = s.pw := (rfl)
@[simp] theorem setEng_si (p : Nat) (e : Eng) : (s.setEng p e).si = s.si := (rfl)
@[simp] theorem setEng_gens (p : Nat) (e : Eng) : (s.setEng p e).gens = s.gens := (rfl)
@[simp] theorem setEng_phOld (p : Nat) (e : Eng) : (s.setEng p e).phOld = s.phOld := (rfl)
@[simp] theorem setEng_phDone (p : Nat) (e : Eng) : (s.setEng p e).phDone = s.phDone := (rfl)
@[simp] theorem setEng_phNew (p : Nat) (e : Eng) : (s.setEng p e).phNew = s.phNew := (rfl)
@[simp] theorem setEng_xbarOld (p : Nat) (e : Eng) : (s.setEng p e).xbarOld = s.xbarOld := (rfl)
@[simp] theorem setEng_phDue (p : Nat) (e : Eng) : (s.setEng p e).phDue = s.phDue := (rfl)
@[simp] theorem setEng_tims (p : Nat) (e : Eng) : (s.setEng p e).tims = s.tims := (rfl)
@[simp] theorem setEng_lines (p : Nat) (e : Eng) : (s.setEng p e).lines = s.lines := (rfl)
@[simp] theorem setEng_pfus (p : Nat) (e : Eng) : (s.setEng p e).pfus = s.pfus := (rfl)
@[simp] theorem setEng_pfPhase (p : Nat) (e : Eng) : (s.setEng p e).pfPhase = s.pfPhase := (rfl)
@[simp] theorem setEng_pfStep (p : Nat) (e : Eng) : (s.setEng p e).pfStep = s.pfStep := (rfl)
@[simp] theorem setEng_tmgPend (p : Nat) (e : Eng) : (s.setEng p e).tmgPend = s.tmgPend := (rfl)
@[simp] theorem setEng_cs (p : Nat) (e : Eng) : (s.setEng p e).cs = s.cs := (rfl)
@[simp] theorem setEng_sh (p : Nat) (e : Eng) : (s.setEng p e).sh = s.sh := (rfl)
@[simp] theorem setEng_chs (p : Nat) (e : Eng) : (s.setEng p e).chs = s.chs := (rfl)
@[simp] theorem setEng_ch (p : Nat) (e : Eng) : (s.setEng p e).ch = s.ch := (rfl)
@[simp] theorem setEng_mi (p : Nat) (e : Eng) : (s.setEng p e).mi = s.mi := (rfl)
@[simp] theorem setEng_flkFc (p : Nat) (e : Eng) : (s.setEng p e).flkFc = s.flkFc := (rfl)
@[simp] theorem setEng_flkReq (p : Nat) (e : Eng) : (s.setEng p e).flkReq = s.flkReq := (rfl)
@[simp] theorem setEng_flkClean (p : Nat) (e : Eng) : (s.setEng p e).flkClean = s.flkClean := (rfl)
@[simp] theorem setEng_rs (p : Nat) (e : Eng) : (s.setEng p e).rs = s.rs := (rfl)
@[simp] theorem setEng_fold (p : Nat) (e : Eng) : (s.setEng p e).fold = s.fold := (rfl)
@[simp] theorem setEng_fuses (p : Nat) (e : Eng) : (s.setEng p e).fuses = s.fuses := (rfl)
@[simp] theorem setEng_mb (p : Nat) (e : Eng) : (s.setEng p e).mb = s.mb := (rfl)
@[simp] theorem setEng_db (p : Nat) (e : Eng) : (s.setEng p e).db = s.db := (rfl)
@[simp] theorem setGen_pending (g : Nat) (x : Gen) : (s.setGen g x).pending = s.pending := (rfl)
@[simp] theorem setGen_fc (g : Nat) (x : Gen) : (s.setGen g x).fc = s.fc := (rfl)
@[simp] theorem setGen_free (g : Nat) (x : Gen) : (s.setGen g x).free = s.free := (rfl)
@[simp] theorem setGen_regs (g : Nat) (x : Gen) : (s.setGen g x).regs = s.regs := (rfl)
@[simp] theorem setGen_mem (g : Nat) (x : Gen) : (s.setGen g x).mem = s.mem := (rfl)
@[simp] theorem setGen_marks (g : Nat) (x : Gen) : (s.setGen g x).marks = s.marks := (rfl)
@[simp] theorem setGen_sysMem (g : Nat) (x : Gen) : (s.setGen g x).sysMem = s.sysMem := (rfl)
@[simp] theorem setGen_resp (g : Nat) (x : Gen) : (s.setGen g x).resp = s.resp := (rfl)
@[simp] theorem setGen_hiLatch (g : Nat) (x : Gen) : (s.setGen g x).hiLatch = s.hiLatch := (rfl)
@[simp] theorem setGen_hot (g : Nat) (x : Gen) : (s.setGen g x).hot = s.hot := (rfl)
@[simp] theorem setGen_ev (g : Nat) (x : Gen) : (s.setGen g x).ev = s.ev := (rfl)
@[simp] theorem setGen_jn (g : Nat) (x : Gen) : (s.setGen g x).jn = s.jn := (rfl)
@[simp] theorem setGen_tb (g : Nat) (x : Gen) : (s.setGen g x).tb = s.tb := (rfl)
@[simp] theorem setGen_tl (g : Nat) (x : Gen) : (s.setGen g x).tl = s.tl := (rfl)
@[simp] theorem setGen_engs (g : Nat) (x : Gen) : (s.setGen g x).engs = s.engs := (rfl)
@[simp] theorem setGen_ranks (g : Nat) (x : Gen) : (s.setGen g x).ranks = s.ranks := (rfl)
@[simp] theorem setGen_clExt (g : Nat) (x : Gen) : (s.setGen g x).clExt = s.clExt := (rfl)
@[simp] theorem setGen_lanes (g : Nat) (x : Gen) : (s.setGen g x).lanes = s.lanes := (rfl)
@[simp] theorem setGen_laneOld (g : Nat) (x : Gen) : (s.setGen g x).laneOld = s.laneOld := (rfl)
@[simp] theorem setGen_due (g : Nat) (x : Gen) : (s.setGen g x).due = s.due := (rfl)
@[simp] theorem setGen_qf (g : Nat) (x : Gen) : (s.setGen g x).qf = s.qf := (rfl)
@[simp] theorem setGen_pw (g : Nat) (x : Gen) : (s.setGen g x).pw = s.pw := (rfl)
@[simp] theorem setGen_si (g : Nat) (x : Gen) : (s.setGen g x).si = s.si := (rfl)
@[simp] theorem setGen_phOld (g : Nat) (x : Gen) : (s.setGen g x).phOld = s.phOld := (rfl)
@[simp] theorem setGen_phDone (g : Nat) (x : Gen) : (s.setGen g x).phDone = s.phDone := (rfl)
@[simp] theorem setGen_phNew (g : Nat) (x : Gen) : (s.setGen g x).phNew = s.phNew := (rfl)
@[simp] theorem setGen_xbarOld (g : Nat) (x : Gen) : (s.setGen g x).xbarOld = s.xbarOld := (rfl)
@[simp] theorem setGen_phDue (g : Nat) (x : Gen) : (s.setGen g x).phDue = s.phDue := (rfl)
@[simp] theorem setGen_tims (g : Nat) (x : Gen) : (s.setGen g x).tims = s.tims := (rfl)
@[simp] theorem setGen_lines (g : Nat) (x : Gen) : (s.setGen g x).lines = s.lines := (rfl)
@[simp] theorem setGen_pfus (g : Nat) (x : Gen) : (s.setGen g x).pfus = s.pfus := (rfl)
@[simp] theorem setGen_pfPhase (g : Nat) (x : Gen) : (s.setGen g x).pfPhase = s.pfPhase := (rfl)
@[simp] theorem setGen_pfStep (g : Nat) (x : Gen) : (s.setGen g x).pfStep = s.pfStep := (rfl)
@[simp] theorem setGen_tmgPend (g : Nat) (x : Gen) : (s.setGen g x).tmgPend = s.tmgPend := (rfl)
@[simp] theorem setGen_cs (g : Nat) (x : Gen) : (s.setGen g x).cs = s.cs := (rfl)
@[simp] theorem setGen_sh (g : Nat) (x : Gen) : (s.setGen g x).sh = s.sh := (rfl)
@[simp] theorem setGen_chs (g : Nat) (x : Gen) : (s.setGen g x).chs = s.chs := (rfl)
@[simp] theorem setGen_ch (g : Nat) (x : Gen) : (s.setGen g x).ch = s.ch := (rfl)
@[simp] theorem setGen_mi (g : Nat) (x : Gen) : (s.setGen g x).mi = s.mi := (rfl)
@[simp] theorem setGen_flkFc (g : Nat) (x : Gen) : (s.setGen g x).flkFc = s.flkFc := (rfl)
@[simp] theorem setGen_flkReq (g : Nat) (x : Gen) : (s.setGen g x).flkReq = s.flkReq := (rfl)
@[simp] theorem setGen_flkClean (g : Nat) (x : Gen) : (s.setGen g x).flkClean = s.flkClean := (rfl)
@[simp] theorem setGen_rs (g : Nat) (x : Gen) : (s.setGen g x).rs = s.rs := (rfl)
@[simp] theorem setGen_fold (g : Nat) (x : Gen) : (s.setGen g x).fold = s.fold := (rfl)
@[simp] theorem setGen_fuses (g : Nat) (x : Gen) : (s.setGen g x).fuses = s.fuses := (rfl)
@[simp] theorem setGen_mb (g : Nat) (x : Gen) : (s.setGen g x).mb = s.mb := (rfl)
@[simp] theorem setGen_db (g : Nat) (x : Gen) : (s.setGen g x).db = s.db := (rfl)
@[simp] theorem setTim_pending (t : Nat) (x : Tim) : (s.setTim t x).pending = s.pending := (rfl)
@[simp] theorem setTim_fc (t : Nat) (x : Tim) : (s.setTim t x).fc = s.fc := (rfl)
@[simp] theorem setTim_free (t : Nat) (x : Tim) : (s.setTim t x).free = s.free := (rfl)
@[simp] theorem setTim_regs (t : Nat) (x : Tim) : (s.setTim t x).regs = s.regs := (rfl)
@[simp] theorem setTim_mem (t : Nat) (x : Tim) : (s.setTim t x).mem = s.mem := (rfl)
@[simp] theorem setTim_marks (t : Nat) (x : Tim) : (s.setTim t x).marks = s.marks := (rfl)
@[simp] theorem setTim_sysMem (t : Nat) (x : Tim) : (s.setTim t x).sysMem = s.sysMem := (rfl)
@[simp] theorem setTim_resp (t : Nat) (x : Tim) : (s.setTim t x).resp = s.resp := (rfl)
@[simp] theorem setTim_hiLatch (t : Nat) (x : Tim) : (s.setTim t x).hiLatch = s.hiLatch := (rfl)
@[simp] theorem setTim_hot (t : Nat) (x : Tim) : (s.setTim t x).hot = s.hot := (rfl)
@[simp] theorem setTim_ev (t : Nat) (x : Tim) : (s.setTim t x).ev = s.ev := (rfl)
@[simp] theorem setTim_jn (t : Nat) (x : Tim) : (s.setTim t x).jn = s.jn := (rfl)
@[simp] theorem setTim_tb (t : Nat) (x : Tim) : (s.setTim t x).tb = s.tb := (rfl)
@[simp] theorem setTim_tl (t : Nat) (x : Tim) : (s.setTim t x).tl = s.tl := (rfl)
@[simp] theorem setTim_engs (t : Nat) (x : Tim) : (s.setTim t x).engs = s.engs := (rfl)
@[simp] theorem setTim_ranks (t : Nat) (x : Tim) : (s.setTim t x).ranks = s.ranks := (rfl)
@[simp] theorem setTim_clExt (t : Nat) (x : Tim) : (s.setTim t x).clExt = s.clExt := (rfl)
@[simp] theorem setTim_lanes (t : Nat) (x : Tim) : (s.setTim t x).lanes = s.lanes := (rfl)
@[simp] theorem setTim_laneOld (t : Nat) (x : Tim) : (s.setTim t x).laneOld = s.laneOld := (rfl)
@[simp] theorem setTim_due (t : Nat) (x : Tim) : (s.setTim t x).due = s.due := (rfl)
@[simp] theorem setTim_qf (t : Nat) (x : Tim) : (s.setTim t x).qf = s.qf := (rfl)
@[simp] theorem setTim_pw (t : Nat) (x : Tim) : (s.setTim t x).pw = s.pw := (rfl)
@[simp] theorem setTim_si (t : Nat) (x : Tim) : (s.setTim t x).si = s.si := (rfl)
@[simp] theorem setTim_gens (t : Nat) (x : Tim) : (s.setTim t x).gens = s.gens := (rfl)
@[simp] theorem setTim_phOld (t : Nat) (x : Tim) : (s.setTim t x).phOld = s.phOld := (rfl)
@[simp] theorem setTim_phDone (t : Nat) (x : Tim) : (s.setTim t x).phDone = s.phDone := (rfl)
@[simp] theorem setTim_phNew (t : Nat) (x : Tim) : (s.setTim t x).phNew = s.phNew := (rfl)
@[simp] theorem setTim_xbarOld (t : Nat) (x : Tim) : (s.setTim t x).xbarOld = s.xbarOld := (rfl)
@[simp] theorem setTim_phDue (t : Nat) (x : Tim) : (s.setTim t x).phDue = s.phDue := (rfl)
@[simp] theorem setTim_lines (t : Nat) (x : Tim) : (s.setTim t x).lines = s.lines := (rfl)
@[simp] theorem setTim_pfus (t : Nat) (x : Tim) : (s.setTim t x).pfus = s.pfus := (rfl)
@[simp] theorem setTim_pfPhase (t : Nat) (x : Tim) : (s.setTim t x).pfPhase = s.pfPhase := (rfl)
@[simp] theorem setTim_pfStep (t : Nat) (x : Tim) : (s.setTim t x).pfStep = s.pfStep := (rfl)
@[simp] theorem setTim_tmgPend (t : Nat) (x : Tim) : (s.setTim t x).tmgPend = s.tmgPend := (rfl)
@[simp] theorem setTim_cs (t : Nat) (x : Tim) : (s.setTim t x).cs = s.cs := (rfl)
@[simp] theorem setTim_sh (t : Nat) (x : Tim) : (s.setTim t x).sh = s.sh := (rfl)
@[simp] theorem setTim_chs (t : Nat) (x : Tim) : (s.setTim t x).chs = s.chs := (rfl)
@[simp] theorem setTim_ch (t : Nat) (x : Tim) : (s.setTim t x).ch = s.ch := (rfl)
@[simp] theorem setTim_mi (t : Nat) (x : Tim) : (s.setTim t x).mi = s.mi := (rfl)
@[simp] theorem setTim_flkFc (t : Nat) (x : Tim) : (s.setTim t x).flkFc = s.flkFc := (rfl)
@[simp] theorem setTim_flkReq (t : Nat) (x : Tim) : (s.setTim t x).flkReq = s.flkReq := (rfl)
@[simp] theorem setTim_flkClean (t : Nat) (x : Tim) : (s.setTim t x).flkClean = s.flkClean := (rfl)
@[simp] theorem setTim_rs (t : Nat) (x : Tim) : (s.setTim t x).rs = s.rs := (rfl)
@[simp] theorem setTim_fold (t : Nat) (x : Tim) : (s.setTim t x).fold = s.fold := (rfl)
@[simp] theorem setTim_fuses (t : Nat) (x : Tim) : (s.setTim t x).fuses = s.fuses := (rfl)
@[simp] theorem setTim_mb (t : Nat) (x : Tim) : (s.setTim t x).mb = s.mb := (rfl)
@[simp] theorem setTim_db (t : Nat) (x : Tim) : (s.setTim t x).db = s.db := (rfl)
@[simp] theorem setPfu_pending (x : Nat) (u : Pfu) : (s.setPfu x u).pending = s.pending := (rfl)
@[simp] theorem setPfu_fc (x : Nat) (u : Pfu) : (s.setPfu x u).fc = s.fc := (rfl)
@[simp] theorem setPfu_free (x : Nat) (u : Pfu) : (s.setPfu x u).free = s.free := (rfl)
@[simp] theorem setPfu_regs (x : Nat) (u : Pfu) : (s.setPfu x u).regs = s.regs := (rfl)
@[simp] theorem setPfu_mem (x : Nat) (u : Pfu) : (s.setPfu x u).mem = s.mem := (rfl)
@[simp] theorem setPfu_marks (x : Nat) (u : Pfu) : (s.setPfu x u).marks = s.marks := (rfl)
@[simp] theorem setPfu_sysMem (x : Nat) (u : Pfu) : (s.setPfu x u).sysMem = s.sysMem := (rfl)
@[simp] theorem setPfu_resp (x : Nat) (u : Pfu) : (s.setPfu x u).resp = s.resp := (rfl)
@[simp] theorem setPfu_hiLatch (x : Nat) (u : Pfu) : (s.setPfu x u).hiLatch = s.hiLatch := (rfl)
@[simp] theorem setPfu_hot (x : Nat) (u : Pfu) : (s.setPfu x u).hot = s.hot := (rfl)
@[simp] theorem setPfu_ev (x : Nat) (u : Pfu) : (s.setPfu x u).ev = s.ev := (rfl)
@[simp] theorem setPfu_jn (x : Nat) (u : Pfu) : (s.setPfu x u).jn = s.jn := (rfl)
@[simp] theorem setPfu_tb (x : Nat) (u : Pfu) : (s.setPfu x u).tb = s.tb := (rfl)
@[simp] theorem setPfu_tl (x : Nat) (u : Pfu) : (s.setPfu x u).tl = s.tl := (rfl)
@[simp] theorem setPfu_engs (x : Nat) (u : Pfu) : (s.setPfu x u).engs = s.engs := (rfl)
@[simp] theorem setPfu_ranks (x : Nat) (u : Pfu) : (s.setPfu x u).ranks = s.ranks := (rfl)
@[simp] theorem setPfu_clExt (x : Nat) (u : Pfu) : (s.setPfu x u).clExt = s.clExt := (rfl)
@[simp] theorem setPfu_lanes (x : Nat) (u : Pfu) : (s.setPfu x u).lanes = s.lanes := (rfl)
@[simp] theorem setPfu_laneOld (x : Nat) (u : Pfu) : (s.setPfu x u).laneOld = s.laneOld := (rfl)
@[simp] theorem setPfu_due (x : Nat) (u : Pfu) : (s.setPfu x u).due = s.due := (rfl)
@[simp] theorem setPfu_qf (x : Nat) (u : Pfu) : (s.setPfu x u).qf = s.qf := (rfl)
@[simp] theorem setPfu_pw (x : Nat) (u : Pfu) : (s.setPfu x u).pw = s.pw := (rfl)
@[simp] theorem setPfu_si (x : Nat) (u : Pfu) : (s.setPfu x u).si = s.si := (rfl)
@[simp] theorem setPfu_gens (x : Nat) (u : Pfu) : (s.setPfu x u).gens = s.gens := (rfl)
@[simp] theorem setPfu_phOld (x : Nat) (u : Pfu) : (s.setPfu x u).phOld = s.phOld := (rfl)
@[simp] theorem setPfu_phDone (x : Nat) (u : Pfu) : (s.setPfu x u).phDone = s.phDone := (rfl)
@[simp] theorem setPfu_phNew (x : Nat) (u : Pfu) : (s.setPfu x u).phNew = s.phNew := (rfl)
@[simp] theorem setPfu_xbarOld (x : Nat) (u : Pfu) : (s.setPfu x u).xbarOld = s.xbarOld := (rfl)
@[simp] theorem setPfu_phDue (x : Nat) (u : Pfu) : (s.setPfu x u).phDue = s.phDue := (rfl)
@[simp] theorem setPfu_tims (x : Nat) (u : Pfu) : (s.setPfu x u).tims = s.tims := (rfl)
@[simp] theorem setPfu_lines (x : Nat) (u : Pfu) : (s.setPfu x u).lines = s.lines := (rfl)
@[simp] theorem setPfu_pfPhase (x : Nat) (u : Pfu) : (s.setPfu x u).pfPhase = s.pfPhase := (rfl)
@[simp] theorem setPfu_pfStep (x : Nat) (u : Pfu) : (s.setPfu x u).pfStep = s.pfStep := (rfl)
@[simp] theorem setPfu_tmgPend (x : Nat) (u : Pfu) : (s.setPfu x u).tmgPend = s.tmgPend := (rfl)
@[simp] theorem setPfu_cs (x : Nat) (u : Pfu) : (s.setPfu x u).cs = s.cs := (rfl)
@[simp] theorem setPfu_sh (x : Nat) (u : Pfu) : (s.setPfu x u).sh = s.sh := (rfl)
@[simp] theorem setPfu_chs (x : Nat) (u : Pfu) : (s.setPfu x u).chs = s.chs := (rfl)
@[simp] theorem setPfu_ch (x : Nat) (u : Pfu) : (s.setPfu x u).ch = s.ch := (rfl)
@[simp] theorem setPfu_mi (x : Nat) (u : Pfu) : (s.setPfu x u).mi = s.mi := (rfl)
@[simp] theorem setPfu_flkFc (x : Nat) (u : Pfu) : (s.setPfu x u).flkFc = s.flkFc := (rfl)
@[simp] theorem setPfu_flkReq (x : Nat) (u : Pfu) : (s.setPfu x u).flkReq = s.flkReq := (rfl)
@[simp] theorem setPfu_flkClean (x : Nat) (u : Pfu) : (s.setPfu x u).flkClean = s.flkClean := (rfl)
@[simp] theorem setPfu_rs (x : Nat) (u : Pfu) : (s.setPfu x u).rs = s.rs := (rfl)
@[simp] theorem setPfu_fold (x : Nat) (u : Pfu) : (s.setPfu x u).fold = s.fold := (rfl)
@[simp] theorem setPfu_fuses (x : Nat) (u : Pfu) : (s.setPfu x u).fuses = s.fuses := (rfl)
@[simp] theorem setPfu_mb (x : Nat) (u : Pfu) : (s.setPfu x u).mb = s.mb := (rfl)
@[simp] theorem setPfu_db (x : Nat) (u : Pfu) : (s.setPfu x u).db = s.db := (rfl)
@[simp] theorem setChanter_pending (n : Nat) (x : Chanter) : (s.setChanter n x).pending = s.pending := (rfl)
@[simp] theorem setChanter_fc (n : Nat) (x : Chanter) : (s.setChanter n x).fc = s.fc := (rfl)
@[simp] theorem setChanter_free (n : Nat) (x : Chanter) : (s.setChanter n x).free = s.free := (rfl)
@[simp] theorem setChanter_regs (n : Nat) (x : Chanter) : (s.setChanter n x).regs = s.regs := (rfl)
@[simp] theorem setChanter_mem (n : Nat) (x : Chanter) : (s.setChanter n x).mem = s.mem := (rfl)
@[simp] theorem setChanter_marks (n : Nat) (x : Chanter) : (s.setChanter n x).marks = s.marks := (rfl)
@[simp] theorem setChanter_sysMem (n : Nat) (x : Chanter) : (s.setChanter n x).sysMem = s.sysMem := (rfl)
@[simp] theorem setChanter_resp (n : Nat) (x : Chanter) : (s.setChanter n x).resp = s.resp := (rfl)
@[simp] theorem setChanter_hiLatch (n : Nat) (x : Chanter) : (s.setChanter n x).hiLatch = s.hiLatch := (rfl)
@[simp] theorem setChanter_hot (n : Nat) (x : Chanter) : (s.setChanter n x).hot = s.hot := (rfl)
@[simp] theorem setChanter_ev (n : Nat) (x : Chanter) : (s.setChanter n x).ev = s.ev := (rfl)
@[simp] theorem setChanter_jn (n : Nat) (x : Chanter) : (s.setChanter n x).jn = s.jn := (rfl)
@[simp] theorem setChanter_tb (n : Nat) (x : Chanter) : (s.setChanter n x).tb = s.tb := (rfl)
@[simp] theorem setChanter_tl (n : Nat) (x : Chanter) : (s.setChanter n x).tl = s.tl := (rfl)
@[simp] theorem setChanter_engs (n : Nat) (x : Chanter) : (s.setChanter n x).engs = s.engs := (rfl)
@[simp] theorem setChanter_ranks (n : Nat) (x : Chanter) : (s.setChanter n x).ranks = s.ranks := (rfl)
@[simp] theorem setChanter_clExt (n : Nat) (x : Chanter) : (s.setChanter n x).clExt = s.clExt := (rfl)
@[simp] theorem setChanter_lanes (n : Nat) (x : Chanter) : (s.setChanter n x).lanes = s.lanes := (rfl)
@[simp] theorem setChanter_laneOld (n : Nat) (x : Chanter) : (s.setChanter n x).laneOld = s.laneOld := (rfl)
@[simp] theorem setChanter_due (n : Nat) (x : Chanter) : (s.setChanter n x).due = s.due := (rfl)
@[simp] theorem setChanter_qf (n : Nat) (x : Chanter) : (s.setChanter n x).qf = s.qf := (rfl)
@[simp] theorem setChanter_pw (n : Nat) (x : Chanter) : (s.setChanter n x).pw = s.pw := (rfl)
@[simp] theorem setChanter_si (n : Nat) (x : Chanter) : (s.setChanter n x).si = s.si := (rfl)
@[simp] theorem setChanter_gens (n : Nat) (x : Chanter) : (s.setChanter n x).gens = s.gens := (rfl)
@[simp] theorem setChanter_phOld (n : Nat) (x : Chanter) : (s.setChanter n x).phOld = s.phOld := (rfl)
@[simp] theorem setChanter_phDone (n : Nat) (x : Chanter) : (s.setChanter n x).phDone = s.phDone := (rfl)
@[simp] theorem setChanter_phNew (n : Nat) (x : Chanter) : (s.setChanter n x).phNew = s.phNew := (rfl)
@[simp] theorem setChanter_xbarOld (n : Nat) (x : Chanter) : (s.setChanter n x).xbarOld = s.xbarOld := (rfl)
@[simp] theorem setChanter_phDue (n : Nat) (x : Chanter) : (s.setChanter n x).phDue = s.phDue := (rfl)
@[simp] theorem setChanter_tims (n : Nat) (x : Chanter) : (s.setChanter n x).tims = s.tims := (rfl)
@[simp] theorem setChanter_lines (n : Nat) (x : Chanter) : (s.setChanter n x).lines = s.lines := (rfl)
@[simp] theorem setChanter_pfus (n : Nat) (x : Chanter) : (s.setChanter n x).pfus = s.pfus := (rfl)
@[simp] theorem setChanter_pfPhase (n : Nat) (x : Chanter) : (s.setChanter n x).pfPhase = s.pfPhase := (rfl)
@[simp] theorem setChanter_pfStep (n : Nat) (x : Chanter) : (s.setChanter n x).pfStep = s.pfStep := (rfl)
@[simp] theorem setChanter_tmgPend (n : Nat) (x : Chanter) : (s.setChanter n x).tmgPend = s.tmgPend := (rfl)
@[simp] theorem setChanter_cs (n : Nat) (x : Chanter) : (s.setChanter n x).cs = s.cs := (rfl)
@[simp] theorem setChanter_sh (n : Nat) (x : Chanter) : (s.setChanter n x).sh = s.sh := (rfl)
@[simp] theorem setChanter_ch (n : Nat) (x : Chanter) : (s.setChanter n x).ch = s.ch := (rfl)
@[simp] theorem setChanter_mi (n : Nat) (x : Chanter) : (s.setChanter n x).mi = s.mi := (rfl)
@[simp] theorem setChanter_flkFc (n : Nat) (x : Chanter) : (s.setChanter n x).flkFc = s.flkFc := (rfl)
@[simp] theorem setChanter_flkReq (n : Nat) (x : Chanter) : (s.setChanter n x).flkReq = s.flkReq := (rfl)
@[simp] theorem setChanter_flkClean (n : Nat) (x : Chanter) : (s.setChanter n x).flkClean = s.flkClean := (rfl)
@[simp] theorem setChanter_rs (n : Nat) (x : Chanter) : (s.setChanter n x).rs = s.rs := (rfl)
@[simp] theorem setChanter_fold (n : Nat) (x : Chanter) : (s.setChanter n x).fold = s.fold := (rfl)
@[simp] theorem setChanter_fuses (n : Nat) (x : Chanter) : (s.setChanter n x).fuses = s.fuses := (rfl)
@[simp] theorem setChanter_mb (n : Nat) (x : Chanter) : (s.setChanter n x).mb = s.mb := (rfl)
@[simp] theorem setChanter_db (n : Nat) (x : Chanter) : (s.setChanter n x).db = s.db := (rfl)
@[simp] theorem setTripIn_pending (n : Nat) (x : TripIn) : (s.setTripIn n x).pending = s.pending := (rfl)
@[simp] theorem setTripIn_fc (n : Nat) (x : TripIn) : (s.setTripIn n x).fc = s.fc := (rfl)
@[simp] theorem setTripIn_free (n : Nat) (x : TripIn) : (s.setTripIn n x).free = s.free := (rfl)
@[simp] theorem setTripIn_regs (n : Nat) (x : TripIn) : (s.setTripIn n x).regs = s.regs := (rfl)
@[simp] theorem setTripIn_mem (n : Nat) (x : TripIn) : (s.setTripIn n x).mem = s.mem := (rfl)
@[simp] theorem setTripIn_marks (n : Nat) (x : TripIn) : (s.setTripIn n x).marks = s.marks := (rfl)
@[simp] theorem setTripIn_sysMem (n : Nat) (x : TripIn) : (s.setTripIn n x).sysMem = s.sysMem := (rfl)
@[simp] theorem setTripIn_resp (n : Nat) (x : TripIn) : (s.setTripIn n x).resp = s.resp := (rfl)
@[simp] theorem setTripIn_hiLatch (n : Nat) (x : TripIn) : (s.setTripIn n x).hiLatch = s.hiLatch := (rfl)
@[simp] theorem setTripIn_hot (n : Nat) (x : TripIn) : (s.setTripIn n x).hot = s.hot := (rfl)
@[simp] theorem setTripIn_ev (n : Nat) (x : TripIn) : (s.setTripIn n x).ev = s.ev := (rfl)
@[simp] theorem setTripIn_jn (n : Nat) (x : TripIn) : (s.setTripIn n x).jn = s.jn := (rfl)
@[simp] theorem setTripIn_tb (n : Nat) (x : TripIn) : (s.setTripIn n x).tb = s.tb := (rfl)
@[simp] theorem setTripIn_tl (n : Nat) (x : TripIn) : (s.setTripIn n x).tl = s.tl := (rfl)
@[simp] theorem setTripIn_engs (n : Nat) (x : TripIn) : (s.setTripIn n x).engs = s.engs := (rfl)
@[simp] theorem setTripIn_ranks (n : Nat) (x : TripIn) : (s.setTripIn n x).ranks = s.ranks := (rfl)
@[simp] theorem setTripIn_clExt (n : Nat) (x : TripIn) : (s.setTripIn n x).clExt = s.clExt := (rfl)
@[simp] theorem setTripIn_lanes (n : Nat) (x : TripIn) : (s.setTripIn n x).lanes = s.lanes := (rfl)
@[simp] theorem setTripIn_laneOld (n : Nat) (x : TripIn) : (s.setTripIn n x).laneOld = s.laneOld := (rfl)
@[simp] theorem setTripIn_due (n : Nat) (x : TripIn) : (s.setTripIn n x).due = s.due := (rfl)
@[simp] theorem setTripIn_qf (n : Nat) (x : TripIn) : (s.setTripIn n x).qf = s.qf := (rfl)
@[simp] theorem setTripIn_pw (n : Nat) (x : TripIn) : (s.setTripIn n x).pw = s.pw := (rfl)
@[simp] theorem setTripIn_gens (n : Nat) (x : TripIn) : (s.setTripIn n x).gens = s.gens := (rfl)
@[simp] theorem setTripIn_phOld (n : Nat) (x : TripIn) : (s.setTripIn n x).phOld = s.phOld := (rfl)
@[simp] theorem setTripIn_phDone (n : Nat) (x : TripIn) : (s.setTripIn n x).phDone = s.phDone := (rfl)
@[simp] theorem setTripIn_phNew (n : Nat) (x : TripIn) : (s.setTripIn n x).phNew = s.phNew := (rfl)
@[simp] theorem setTripIn_xbarOld (n : Nat) (x : TripIn) : (s.setTripIn n x).xbarOld = s.xbarOld := (rfl)
@[simp] theorem setTripIn_phDue (n : Nat) (x : TripIn) : (s.setTripIn n x).phDue = s.phDue := (rfl)
@[simp] theorem setTripIn_tims (n : Nat) (x : TripIn) : (s.setTripIn n x).tims = s.tims := (rfl)
@[simp] theorem setTripIn_lines (n : Nat) (x : TripIn) : (s.setTripIn n x).lines = s.lines := (rfl)
@[simp] theorem setTripIn_pfus (n : Nat) (x : TripIn) : (s.setTripIn n x).pfus = s.pfus := (rfl)
@[simp] theorem setTripIn_pfPhase (n : Nat) (x : TripIn) : (s.setTripIn n x).pfPhase = s.pfPhase := (rfl)
@[simp] theorem setTripIn_pfStep (n : Nat) (x : TripIn) : (s.setTripIn n x).pfStep = s.pfStep := (rfl)
@[simp] theorem setTripIn_tmgPend (n : Nat) (x : TripIn) : (s.setTripIn n x).tmgPend = s.tmgPend := (rfl)
@[simp] theorem setTripIn_cs (n : Nat) (x : TripIn) : (s.setTripIn n x).cs = s.cs := (rfl)
@[simp] theorem setTripIn_sh (n : Nat) (x : TripIn) : (s.setTripIn n x).sh = s.sh := (rfl)
@[simp] theorem setTripIn_chs (n : Nat) (x : TripIn) : (s.setTripIn n x).chs = s.chs := (rfl)
@[simp] theorem setTripIn_ch (n : Nat) (x : TripIn) : (s.setTripIn n x).ch = s.ch := (rfl)
@[simp] theorem setTripIn_mi (n : Nat) (x : TripIn) : (s.setTripIn n x).mi = s.mi := (rfl)
@[simp] theorem setTripIn_flkFc (n : Nat) (x : TripIn) : (s.setTripIn n x).flkFc = s.flkFc := (rfl)
@[simp] theorem setTripIn_flkReq (n : Nat) (x : TripIn) : (s.setTripIn n x).flkReq = s.flkReq := (rfl)
@[simp] theorem setTripIn_flkClean (n : Nat) (x : TripIn) : (s.setTripIn n x).flkClean = s.flkClean := (rfl)
@[simp] theorem setTripIn_rs (n : Nat) (x : TripIn) : (s.setTripIn n x).rs = s.rs := (rfl)
@[simp] theorem setTripIn_fold (n : Nat) (x : TripIn) : (s.setTripIn n x).fold = s.fold := (rfl)
@[simp] theorem setTripIn_fuses (n : Nat) (x : TripIn) : (s.setTripIn n x).fuses = s.fuses := (rfl)
@[simp] theorem setTripIn_mb (n : Nat) (x : TripIn) : (s.setTripIn n x).mb = s.mb := (rfl)
@[simp] theorem setTripIn_db (n : Nat) (x : TripIn) : (s.setTripIn n x).db = s.db := (rfl)
end


/-! ### Registers read through an update of something else -/

section
variable (s : State)

@[simp] theorem tookFree_reg (r : Nat) : (s.tookFree).reg r = s.reg r := (rfl)
@[simp] theorem setByte_reg (a : Nat) (b : Byte) (r : Nat) : (s.setByte a b).reg r = s.reg r := (rfl)
@[simp] theorem setMark_reg (a : Nat) (b : Bool) (r : Nat) : (s.setMark a b).reg r = s.reg r := (rfl)
@[simp] theorem later_reg (c : Nat) (a : Act) (r : Nat) : (s.later c a).reg r = s.reg r := (rfl)
@[simp] theorem respond_reg (p : Port) (c : Nat) (d : BitVec 64) (r : Nat) : (s.respond p c d).reg r = s.reg r := (rfl)
@[simp] theorem jAdd_reg (e : JEntry) (r : Nat) : (s.jAdd e).reg r = s.reg r := (rfl)
@[simp] theorem setTlp_reg (p : Nat) (x : TlPort) (r : Nat) : (s.setTlp p x).reg r = s.reg r := (rfl)
@[simp] theorem setEng_reg (p : Nat) (e : Eng) (r : Nat) : (s.setEng p e).reg r = s.reg r := (rfl)
@[simp] theorem setGen_reg (g : Nat) (x : Gen) (r : Nat) : (s.setGen g x).reg r = s.reg r := (rfl)
@[simp] theorem setTim_reg (t : Nat) (x : Tim) (r : Nat) : (s.setTim t x).reg r = s.reg r := (rfl)
@[simp] theorem setPfu_reg (x : Nat) (u : Pfu) (r : Nat) : (s.setPfu x u).reg r = s.reg r := (rfl)
@[simp] theorem setChanter_reg (n : Nat) (x : Chanter) (r : Nat) : (s.setChanter n x).reg r = s.reg r := (rfl)
@[simp] theorem setTripIn_reg (n : Nat) (x : TripIn) (r : Nat) : (s.setTripIn n x).reg r = s.reg r := (rfl)
@[simp] theorem with_pending_reg (u : List Instr) (r : Nat) : State.reg { s with pending := u } r = s.reg r := (rfl)
@[simp] theorem with_fc_reg (u : Nat) (r : Nat) : State.reg { s with fc := u } r = s.reg r := (rfl)
@[simp] theorem with_free_reg (u : Nat) (r : Nat) : State.reg { s with free := u } r = s.reg r := (rfl)
@[simp] theorem with_mem_reg (u : List Host.Cell) (r : Nat) : State.reg { s with mem := u } r = s.reg r := (rfl)
@[simp] theorem with_marks_reg (u : List (Nat × Bool)) (r : Nat) : State.reg { s with marks := u } r = s.reg r := (rfl)
@[simp] theorem with_sysMem_reg (u : List Host.Cell) (r : Nat) : State.reg { s with sysMem := u } r = s.reg r := (rfl)
@[simp] theorem with_resp_reg (u : List (Nat × Resp)) (r : Nat) : State.reg { s with resp := u } r = s.reg r := (rfl)
@[simp] theorem with_hiLatch_reg (u : List (Nat × Word)) (r : Nat) : State.reg { s with hiLatch := u } r = s.reg r := (rfl)
@[simp] theorem with_hot_reg (u : List (Nat × Word)) (r : Nat) : State.reg { s with hot := u } r = s.reg r := (rfl)
@[simp] theorem with_ev_reg (u : EvState) (r : Nat) : State.reg { s with ev := u } r = s.reg r := (rfl)
@[simp] theorem with_jn_reg (u : JnState) (r : Nat) : State.reg { s with jn := u } r = s.reg r := (rfl)
@[simp] theorem with_tb_reg (u : TbState) (r : Nat) : State.reg { s with tb := u } r = s.reg r := (rfl)
@[simp] theorem with_tl_reg (u : TlState) (r : Nat) : State.reg { s with tl := u } r = s.reg r := (rfl)
@[simp] theorem with_engs_reg (u : List (Nat × Eng)) (r : Nat) : State.reg { s with engs := u } r = s.reg r := (rfl)
@[simp] theorem with_ranks_reg (u : List (Nat × List RankReq)) (r : Nat) : State.reg { s with ranks := u } r = s.reg r := (rfl)
@[simp] theorem with_clExt_reg (u : List (Nat × Nat)) (r : Nat) : State.reg { s with clExt := u } r = s.reg r := (rfl)
@[simp] theorem with_lanes_reg (u : List LaneWrite) (r : Nat) : State.reg { s with lanes := u } r = s.reg r := (rfl)
@[simp] theorem with_laneOld_reg (u : List (Nat × Word × Bool)) (r : Nat) : State.reg { s with laneOld := u } r = s.reg r := (rfl)
@[simp] theorem with_due_reg (u : List (Nat × Act)) (r : Nat) : State.reg { s with due := u } r = s.reg r := (rfl)
@[simp] theorem with_qf_reg (u : QfState) (r : Nat) : State.reg { s with qf := u } r = s.reg r := (rfl)
@[simp] theorem with_pw_reg (u : PwState) (r : Nat) : State.reg { s with pw := u } r = s.reg r := (rfl)
@[simp] theorem with_si_reg (u : SiState) (r : Nat) : State.reg { s with si := u } r = s.reg r := (rfl)
@[simp] theorem with_gens_reg (u : List (Nat × Gen)) (r : Nat) : State.reg { s with gens := u } r = s.reg r := (rfl)
@[simp] theorem with_phOld_reg (u : List (Nat × (Nat × Word))) (r : Nat) : State.reg { s with phOld := u } r = s.reg r := (rfl)
@[simp] theorem with_phDone_reg (u : List (Nat × Bool)) (r : Nat) : State.reg { s with phDone := u } r = s.reg r := (rfl)
@[simp] theorem with_phNew_reg (u : List (Nat × Bool)) (r : Nat) : State.reg { s with phNew := u } r = s.reg r := (rfl)
@[simp] theorem with_xbarOld_reg (u : List (Nat × Word)) (r : Nat) : State.reg { s with xbarOld := u } r = s.reg r := (rfl)
@[simp] theorem with_phDue_reg (u : List Nat) (r : Nat) : State.reg { s with phDue := u } r = s.reg r := (rfl)
@[simp] theorem with_tims_reg (u : List (Nat × Tim)) (r : Nat) : State.reg { s with tims := u } r = s.reg r := (rfl)
@[simp] theorem with_lines_reg (u : List (Nat × Line)) (r : Nat) : State.reg { s with lines := u } r = s.reg r := (rfl)
@[simp] theorem with_pfus_reg (u : List (Nat × Pfu)) (r : Nat) : State.reg { s with pfus := u } r = s.reg r := (rfl)
@[simp] theorem with_pfPhase_reg (u : Nat) (r : Nat) : State.reg { s with pfPhase := u } r = s.reg r := (rfl)
@[simp] theorem with_pfStep_reg (u : Bool) (r : Nat) : State.reg { s with pfStep := u } r = s.reg r := (rfl)
@[simp] theorem with_tmgPend_reg (u : List (Nat × Bool)) (r : Nat) : State.reg { s with tmgPend := u } r = s.reg r := (rfl)
@[simp] theorem with_cs_reg (u : List (Nat × UWord)) (r : Nat) : State.reg { s with cs := u } r = s.reg r := (rfl)
@[simp] theorem with_sh_reg (u : Shep) (r : Nat) : State.reg { s with sh := u } r = s.reg r := (rfl)
@[simp] theorem with_chs_reg (u : List (Nat × Chanter)) (r : Nat) : State.reg { s with chs := u } r = s.reg r := (rfl)
@[simp] theorem with_ch_reg (u : ChState) (r : Nat) : State.reg { s with ch := u } r = s.reg r := (rfl)
@[simp] theorem with_mi_reg (u : MiState) (r : Nat) : State.reg { s with mi := u } r = s.reg r := (rfl)
@[simp] theorem with_flkFc_reg (u : List (Nat × Nat)) (r : Nat) : State.reg { s with flkFc := u } r = s.reg r := (rfl)
@[simp] theorem with_flkReq_reg (u : List (Nat × Nat)) (r : Nat) : State.reg { s with flkReq := u } r = s.reg r := (rfl)
@[simp] theorem with_flkClean_reg (u : List Nat) (r : Nat) : State.reg { s with flkClean := u } r = s.reg r := (rfl)
@[simp] theorem with_rs_reg (u : RsState) (r : Nat) : State.reg { s with rs := u } r = s.reg r := (rfl)
@[simp] theorem with_fold_reg (u : FoldStore) (r : Nat) : State.reg { s with fold := u } r = s.reg r := (rfl)
@[simp] theorem with_fuses_reg (u : List (Nat × Bool)) (r : Nat) : State.reg { s with fuses := u } r = s.reg r := (rfl)
@[simp] theorem with_mb_reg (u : MbState) (r : Nat) : State.reg { s with mb := u } r = s.reg r := (rfl)
@[simp] theorem with_db_reg (u : DbState) (r : Nat) : State.reg { s with db := u } r = s.reg r := (rfl)
@[simp] theorem tookFree_fld (r : Nat) (y : Fld) : (s.tookFree).fld r y = s.fld r y := (rfl)
@[simp] theorem setByte_fld (a : Nat) (b : Byte) (r : Nat) (y : Fld) : (s.setByte a b).fld r y = s.fld r y := (rfl)
@[simp] theorem setMark_fld (a : Nat) (b : Bool) (r : Nat) (y : Fld) : (s.setMark a b).fld r y = s.fld r y := (rfl)
@[simp] theorem later_fld (c : Nat) (a : Act) (r : Nat) (y : Fld) : (s.later c a).fld r y = s.fld r y := (rfl)
@[simp] theorem respond_fld (p : Port) (c : Nat) (d : BitVec 64) (r : Nat) (y : Fld) : (s.respond p c d).fld r y = s.fld r y := (rfl)
@[simp] theorem jAdd_fld (e : JEntry) (r : Nat) (y : Fld) : (s.jAdd e).fld r y = s.fld r y := (rfl)
@[simp] theorem setTlp_fld (p : Nat) (x : TlPort) (r : Nat) (y : Fld) : (s.setTlp p x).fld r y = s.fld r y := (rfl)
@[simp] theorem setEng_fld (p : Nat) (e : Eng) (r : Nat) (y : Fld) : (s.setEng p e).fld r y = s.fld r y := (rfl)
@[simp] theorem setGen_fld (g : Nat) (x : Gen) (r : Nat) (y : Fld) : (s.setGen g x).fld r y = s.fld r y := (rfl)
@[simp] theorem setTim_fld (t : Nat) (x : Tim) (r : Nat) (y : Fld) : (s.setTim t x).fld r y = s.fld r y := (rfl)
@[simp] theorem setPfu_fld (x : Nat) (u : Pfu) (r : Nat) (y : Fld) : (s.setPfu x u).fld r y = s.fld r y := (rfl)
@[simp] theorem setChanter_fld (n : Nat) (x : Chanter) (r : Nat) (y : Fld) : (s.setChanter n x).fld r y = s.fld r y := (rfl)
@[simp] theorem setTripIn_fld (n : Nat) (x : TripIn) (r : Nat) (y : Fld) : (s.setTripIn n x).fld r y = s.fld r y := (rfl)
@[simp] theorem with_pending_fld (u : List Instr) (r : Nat) (y : Fld) : State.fld { s with pending := u } r y = s.fld r y := (rfl)
@[simp] theorem with_fc_fld (u : Nat) (r : Nat) (y : Fld) : State.fld { s with fc := u } r y = s.fld r y := (rfl)
@[simp] theorem with_free_fld (u : Nat) (r : Nat) (y : Fld) : State.fld { s with free := u } r y = s.fld r y := (rfl)
@[simp] theorem with_mem_fld (u : List Host.Cell) (r : Nat) (y : Fld) : State.fld { s with mem := u } r y = s.fld r y := (rfl)
@[simp] theorem with_marks_fld (u : List (Nat × Bool)) (r : Nat) (y : Fld) : State.fld { s with marks := u } r y = s.fld r y := (rfl)
@[simp] theorem with_sysMem_fld (u : List Host.Cell) (r : Nat) (y : Fld) : State.fld { s with sysMem := u } r y = s.fld r y := (rfl)
@[simp] theorem with_resp_fld (u : List (Nat × Resp)) (r : Nat) (y : Fld) : State.fld { s with resp := u } r y = s.fld r y := (rfl)
@[simp] theorem with_hiLatch_fld (u : List (Nat × Word)) (r : Nat) (y : Fld) : State.fld { s with hiLatch := u } r y = s.fld r y := (rfl)
@[simp] theorem with_hot_fld (u : List (Nat × Word)) (r : Nat) (y : Fld) : State.fld { s with hot := u } r y = s.fld r y := (rfl)
@[simp] theorem with_ev_fld (u : EvState) (r : Nat) (y : Fld) : State.fld { s with ev := u } r y = s.fld r y := (rfl)
@[simp] theorem with_jn_fld (u : JnState) (r : Nat) (y : Fld) : State.fld { s with jn := u } r y = s.fld r y := (rfl)
@[simp] theorem with_tb_fld (u : TbState) (r : Nat) (y : Fld) : State.fld { s with tb := u } r y = s.fld r y := (rfl)
@[simp] theorem with_tl_fld (u : TlState) (r : Nat) (y : Fld) : State.fld { s with tl := u } r y = s.fld r y := (rfl)
@[simp] theorem with_engs_fld (u : List (Nat × Eng)) (r : Nat) (y : Fld) : State.fld { s with engs := u } r y = s.fld r y := (rfl)
@[simp] theorem with_ranks_fld (u : List (Nat × List RankReq)) (r : Nat) (y : Fld) : State.fld { s with ranks := u } r y = s.fld r y := (rfl)
@[simp] theorem with_clExt_fld (u : List (Nat × Nat)) (r : Nat) (y : Fld) : State.fld { s with clExt := u } r y = s.fld r y := (rfl)
@[simp] theorem with_lanes_fld (u : List LaneWrite) (r : Nat) (y : Fld) : State.fld { s with lanes := u } r y = s.fld r y := (rfl)
@[simp] theorem with_laneOld_fld (u : List (Nat × Word × Bool)) (r : Nat) (y : Fld) : State.fld { s with laneOld := u } r y = s.fld r y := (rfl)
@[simp] theorem with_due_fld (u : List (Nat × Act)) (r : Nat) (y : Fld) : State.fld { s with due := u } r y = s.fld r y := (rfl)
@[simp] theorem with_qf_fld (u : QfState) (r : Nat) (y : Fld) : State.fld { s with qf := u } r y = s.fld r y := (rfl)
@[simp] theorem with_pw_fld (u : PwState) (r : Nat) (y : Fld) : State.fld { s with pw := u } r y = s.fld r y := (rfl)
@[simp] theorem with_si_fld (u : SiState) (r : Nat) (y : Fld) : State.fld { s with si := u } r y = s.fld r y := (rfl)
@[simp] theorem with_gens_fld (u : List (Nat × Gen)) (r : Nat) (y : Fld) : State.fld { s with gens := u } r y = s.fld r y := (rfl)
@[simp] theorem with_phOld_fld (u : List (Nat × (Nat × Word))) (r : Nat) (y : Fld) : State.fld { s with phOld := u } r y = s.fld r y := (rfl)
@[simp] theorem with_phDone_fld (u : List (Nat × Bool)) (r : Nat) (y : Fld) : State.fld { s with phDone := u } r y = s.fld r y := (rfl)
@[simp] theorem with_phNew_fld (u : List (Nat × Bool)) (r : Nat) (y : Fld) : State.fld { s with phNew := u } r y = s.fld r y := (rfl)
@[simp] theorem with_xbarOld_fld (u : List (Nat × Word)) (r : Nat) (y : Fld) : State.fld { s with xbarOld := u } r y = s.fld r y := (rfl)
@[simp] theorem with_phDue_fld (u : List Nat) (r : Nat) (y : Fld) : State.fld { s with phDue := u } r y = s.fld r y := (rfl)
@[simp] theorem with_tims_fld (u : List (Nat × Tim)) (r : Nat) (y : Fld) : State.fld { s with tims := u } r y = s.fld r y := (rfl)
@[simp] theorem with_lines_fld (u : List (Nat × Line)) (r : Nat) (y : Fld) : State.fld { s with lines := u } r y = s.fld r y := (rfl)
@[simp] theorem with_pfus_fld (u : List (Nat × Pfu)) (r : Nat) (y : Fld) : State.fld { s with pfus := u } r y = s.fld r y := (rfl)
@[simp] theorem with_pfPhase_fld (u : Nat) (r : Nat) (y : Fld) : State.fld { s with pfPhase := u } r y = s.fld r y := (rfl)
@[simp] theorem with_pfStep_fld (u : Bool) (r : Nat) (y : Fld) : State.fld { s with pfStep := u } r y = s.fld r y := (rfl)
@[simp] theorem with_tmgPend_fld (u : List (Nat × Bool)) (r : Nat) (y : Fld) : State.fld { s with tmgPend := u } r y = s.fld r y := (rfl)
@[simp] theorem with_cs_fld (u : List (Nat × UWord)) (r : Nat) (y : Fld) : State.fld { s with cs := u } r y = s.fld r y := (rfl)
@[simp] theorem with_sh_fld (u : Shep) (r : Nat) (y : Fld) : State.fld { s with sh := u } r y = s.fld r y := (rfl)
@[simp] theorem with_chs_fld (u : List (Nat × Chanter)) (r : Nat) (y : Fld) : State.fld { s with chs := u } r y = s.fld r y := (rfl)
@[simp] theorem with_ch_fld (u : ChState) (r : Nat) (y : Fld) : State.fld { s with ch := u } r y = s.fld r y := (rfl)
@[simp] theorem with_mi_fld (u : MiState) (r : Nat) (y : Fld) : State.fld { s with mi := u } r y = s.fld r y := (rfl)
@[simp] theorem with_flkFc_fld (u : List (Nat × Nat)) (r : Nat) (y : Fld) : State.fld { s with flkFc := u } r y = s.fld r y := (rfl)
@[simp] theorem with_flkReq_fld (u : List (Nat × Nat)) (r : Nat) (y : Fld) : State.fld { s with flkReq := u } r y = s.fld r y := (rfl)
@[simp] theorem with_flkClean_fld (u : List Nat) (r : Nat) (y : Fld) : State.fld { s with flkClean := u } r y = s.fld r y := (rfl)
@[simp] theorem with_rs_fld (u : RsState) (r : Nat) (y : Fld) : State.fld { s with rs := u } r y = s.fld r y := (rfl)
@[simp] theorem with_fold_fld (u : FoldStore) (r : Nat) (y : Fld) : State.fld { s with fold := u } r y = s.fld r y := (rfl)
@[simp] theorem with_fuses_fld (u : List (Nat × Bool)) (r : Nat) (y : Fld) : State.fld { s with fuses := u } r y = s.fld r y := (rfl)
@[simp] theorem with_mb_fld (u : MbState) (r : Nat) (y : Fld) : State.fld { s with mb := u } r y = s.fld r y := (rfl)
@[simp] theorem with_db_fld (u : DbState) (r : Nat) (y : Fld) : State.fld { s with db := u } r y = s.fld r y := (rfl)
@[simp] theorem tookFree_flag (r : Nat) (y : Fld) : (s.tookFree).flag r y = s.flag r y := (rfl)
@[simp] theorem setByte_flag (a : Nat) (b : Byte) (r : Nat) (y : Fld) : (s.setByte a b).flag r y = s.flag r y := (rfl)
@[simp] theorem setMark_flag (a : Nat) (b : Bool) (r : Nat) (y : Fld) : (s.setMark a b).flag r y = s.flag r y := (rfl)
@[simp] theorem later_flag (c : Nat) (a : Act) (r : Nat) (y : Fld) : (s.later c a).flag r y = s.flag r y := (rfl)
@[simp] theorem respond_flag (p : Port) (c : Nat) (d : BitVec 64) (r : Nat) (y : Fld) : (s.respond p c d).flag r y = s.flag r y := (rfl)
@[simp] theorem jAdd_flag (e : JEntry) (r : Nat) (y : Fld) : (s.jAdd e).flag r y = s.flag r y := (rfl)
@[simp] theorem setTlp_flag (p : Nat) (x : TlPort) (r : Nat) (y : Fld) : (s.setTlp p x).flag r y = s.flag r y := (rfl)
@[simp] theorem setEng_flag (p : Nat) (e : Eng) (r : Nat) (y : Fld) : (s.setEng p e).flag r y = s.flag r y := (rfl)
@[simp] theorem setGen_flag (g : Nat) (x : Gen) (r : Nat) (y : Fld) : (s.setGen g x).flag r y = s.flag r y := (rfl)
@[simp] theorem setTim_flag (t : Nat) (x : Tim) (r : Nat) (y : Fld) : (s.setTim t x).flag r y = s.flag r y := (rfl)
@[simp] theorem setPfu_flag (x : Nat) (u : Pfu) (r : Nat) (y : Fld) : (s.setPfu x u).flag r y = s.flag r y := (rfl)
@[simp] theorem setChanter_flag (n : Nat) (x : Chanter) (r : Nat) (y : Fld) : (s.setChanter n x).flag r y = s.flag r y := (rfl)
@[simp] theorem setTripIn_flag (n : Nat) (x : TripIn) (r : Nat) (y : Fld) : (s.setTripIn n x).flag r y = s.flag r y := (rfl)
@[simp] theorem with_pending_flag (u : List Instr) (r : Nat) (y : Fld) : State.flag { s with pending := u } r y = s.flag r y := (rfl)
@[simp] theorem with_fc_flag (u : Nat) (r : Nat) (y : Fld) : State.flag { s with fc := u } r y = s.flag r y := (rfl)
@[simp] theorem with_free_flag (u : Nat) (r : Nat) (y : Fld) : State.flag { s with free := u } r y = s.flag r y := (rfl)
@[simp] theorem with_mem_flag (u : List Host.Cell) (r : Nat) (y : Fld) : State.flag { s with mem := u } r y = s.flag r y := (rfl)
@[simp] theorem with_marks_flag (u : List (Nat × Bool)) (r : Nat) (y : Fld) : State.flag { s with marks := u } r y = s.flag r y := (rfl)
@[simp] theorem with_sysMem_flag (u : List Host.Cell) (r : Nat) (y : Fld) : State.flag { s with sysMem := u } r y = s.flag r y := (rfl)
@[simp] theorem with_resp_flag (u : List (Nat × Resp)) (r : Nat) (y : Fld) : State.flag { s with resp := u } r y = s.flag r y := (rfl)
@[simp] theorem with_hiLatch_flag (u : List (Nat × Word)) (r : Nat) (y : Fld) : State.flag { s with hiLatch := u } r y = s.flag r y := (rfl)
@[simp] theorem with_hot_flag (u : List (Nat × Word)) (r : Nat) (y : Fld) : State.flag { s with hot := u } r y = s.flag r y := (rfl)
@[simp] theorem with_ev_flag (u : EvState) (r : Nat) (y : Fld) : State.flag { s with ev := u } r y = s.flag r y := (rfl)
@[simp] theorem with_jn_flag (u : JnState) (r : Nat) (y : Fld) : State.flag { s with jn := u } r y = s.flag r y := (rfl)
@[simp] theorem with_tb_flag (u : TbState) (r : Nat) (y : Fld) : State.flag { s with tb := u } r y = s.flag r y := (rfl)
@[simp] theorem with_tl_flag (u : TlState) (r : Nat) (y : Fld) : State.flag { s with tl := u } r y = s.flag r y := (rfl)
@[simp] theorem with_engs_flag (u : List (Nat × Eng)) (r : Nat) (y : Fld) : State.flag { s with engs := u } r y = s.flag r y := (rfl)
@[simp] theorem with_ranks_flag (u : List (Nat × List RankReq)) (r : Nat) (y : Fld) : State.flag { s with ranks := u } r y = s.flag r y := (rfl)
@[simp] theorem with_clExt_flag (u : List (Nat × Nat)) (r : Nat) (y : Fld) : State.flag { s with clExt := u } r y = s.flag r y := (rfl)
@[simp] theorem with_lanes_flag (u : List LaneWrite) (r : Nat) (y : Fld) : State.flag { s with lanes := u } r y = s.flag r y := (rfl)
@[simp] theorem with_laneOld_flag (u : List (Nat × Word × Bool)) (r : Nat) (y : Fld) : State.flag { s with laneOld := u } r y = s.flag r y := (rfl)
@[simp] theorem with_due_flag (u : List (Nat × Act)) (r : Nat) (y : Fld) : State.flag { s with due := u } r y = s.flag r y := (rfl)
@[simp] theorem with_qf_flag (u : QfState) (r : Nat) (y : Fld) : State.flag { s with qf := u } r y = s.flag r y := (rfl)
@[simp] theorem with_pw_flag (u : PwState) (r : Nat) (y : Fld) : State.flag { s with pw := u } r y = s.flag r y := (rfl)
@[simp] theorem with_si_flag (u : SiState) (r : Nat) (y : Fld) : State.flag { s with si := u } r y = s.flag r y := (rfl)
@[simp] theorem with_gens_flag (u : List (Nat × Gen)) (r : Nat) (y : Fld) : State.flag { s with gens := u } r y = s.flag r y := (rfl)
@[simp] theorem with_phOld_flag (u : List (Nat × (Nat × Word))) (r : Nat) (y : Fld) : State.flag { s with phOld := u } r y = s.flag r y := (rfl)
@[simp] theorem with_phDone_flag (u : List (Nat × Bool)) (r : Nat) (y : Fld) : State.flag { s with phDone := u } r y = s.flag r y := (rfl)
@[simp] theorem with_phNew_flag (u : List (Nat × Bool)) (r : Nat) (y : Fld) : State.flag { s with phNew := u } r y = s.flag r y := (rfl)
@[simp] theorem with_xbarOld_flag (u : List (Nat × Word)) (r : Nat) (y : Fld) : State.flag { s with xbarOld := u } r y = s.flag r y := (rfl)
@[simp] theorem with_phDue_flag (u : List Nat) (r : Nat) (y : Fld) : State.flag { s with phDue := u } r y = s.flag r y := (rfl)
@[simp] theorem with_tims_flag (u : List (Nat × Tim)) (r : Nat) (y : Fld) : State.flag { s with tims := u } r y = s.flag r y := (rfl)
@[simp] theorem with_lines_flag (u : List (Nat × Line)) (r : Nat) (y : Fld) : State.flag { s with lines := u } r y = s.flag r y := (rfl)
@[simp] theorem with_pfus_flag (u : List (Nat × Pfu)) (r : Nat) (y : Fld) : State.flag { s with pfus := u } r y = s.flag r y := (rfl)
@[simp] theorem with_pfPhase_flag (u : Nat) (r : Nat) (y : Fld) : State.flag { s with pfPhase := u } r y = s.flag r y := (rfl)
@[simp] theorem with_pfStep_flag (u : Bool) (r : Nat) (y : Fld) : State.flag { s with pfStep := u } r y = s.flag r y := (rfl)
@[simp] theorem with_tmgPend_flag (u : List (Nat × Bool)) (r : Nat) (y : Fld) : State.flag { s with tmgPend := u } r y = s.flag r y := (rfl)
@[simp] theorem with_cs_flag (u : List (Nat × UWord)) (r : Nat) (y : Fld) : State.flag { s with cs := u } r y = s.flag r y := (rfl)
@[simp] theorem with_sh_flag (u : Shep) (r : Nat) (y : Fld) : State.flag { s with sh := u } r y = s.flag r y := (rfl)
@[simp] theorem with_chs_flag (u : List (Nat × Chanter)) (r : Nat) (y : Fld) : State.flag { s with chs := u } r y = s.flag r y := (rfl)
@[simp] theorem with_ch_flag (u : ChState) (r : Nat) (y : Fld) : State.flag { s with ch := u } r y = s.flag r y := (rfl)
@[simp] theorem with_mi_flag (u : MiState) (r : Nat) (y : Fld) : State.flag { s with mi := u } r y = s.flag r y := (rfl)
@[simp] theorem with_flkFc_flag (u : List (Nat × Nat)) (r : Nat) (y : Fld) : State.flag { s with flkFc := u } r y = s.flag r y := (rfl)
@[simp] theorem with_flkReq_flag (u : List (Nat × Nat)) (r : Nat) (y : Fld) : State.flag { s with flkReq := u } r y = s.flag r y := (rfl)
@[simp] theorem with_flkClean_flag (u : List Nat) (r : Nat) (y : Fld) : State.flag { s with flkClean := u } r y = s.flag r y := (rfl)
@[simp] theorem with_rs_flag (u : RsState) (r : Nat) (y : Fld) : State.flag { s with rs := u } r y = s.flag r y := (rfl)
@[simp] theorem with_fold_flag (u : FoldStore) (r : Nat) (y : Fld) : State.flag { s with fold := u } r y = s.flag r y := (rfl)
@[simp] theorem with_fuses_flag (u : List (Nat × Bool)) (r : Nat) (y : Fld) : State.flag { s with fuses := u } r y = s.flag r y := (rfl)
@[simp] theorem with_mb_flag (u : MbState) (r : Nat) (y : Fld) : State.flag { s with mb := u } r y = s.flag r y := (rfl)
@[simp] theorem with_db_flag (u : DbState) (r : Nat) (y : Fld) : State.flag { s with db := u } r y = s.flag r y := (rfl)
@[simp] theorem tookFree_nat (r : Nat) : (s.tookFree).nat r = s.nat r := (rfl)
@[simp] theorem setByte_nat (a : Nat) (b : Byte) (r : Nat) : (s.setByte a b).nat r = s.nat r := (rfl)
@[simp] theorem setMark_nat (a : Nat) (b : Bool) (r : Nat) : (s.setMark a b).nat r = s.nat r := (rfl)
@[simp] theorem later_nat (c : Nat) (a : Act) (r : Nat) : (s.later c a).nat r = s.nat r := (rfl)
@[simp] theorem respond_nat (p : Port) (c : Nat) (d : BitVec 64) (r : Nat) : (s.respond p c d).nat r = s.nat r := (rfl)
@[simp] theorem jAdd_nat (e : JEntry) (r : Nat) : (s.jAdd e).nat r = s.nat r := (rfl)
@[simp] theorem setTlp_nat (p : Nat) (x : TlPort) (r : Nat) : (s.setTlp p x).nat r = s.nat r := (rfl)
@[simp] theorem setEng_nat (p : Nat) (e : Eng) (r : Nat) : (s.setEng p e).nat r = s.nat r := (rfl)
@[simp] theorem setGen_nat (g : Nat) (x : Gen) (r : Nat) : (s.setGen g x).nat r = s.nat r := (rfl)
@[simp] theorem setTim_nat (t : Nat) (x : Tim) (r : Nat) : (s.setTim t x).nat r = s.nat r := (rfl)
@[simp] theorem setPfu_nat (x : Nat) (u : Pfu) (r : Nat) : (s.setPfu x u).nat r = s.nat r := (rfl)
@[simp] theorem setChanter_nat (n : Nat) (x : Chanter) (r : Nat) : (s.setChanter n x).nat r = s.nat r := (rfl)
@[simp] theorem setTripIn_nat (n : Nat) (x : TripIn) (r : Nat) : (s.setTripIn n x).nat r = s.nat r := (rfl)
@[simp] theorem with_pending_nat (u : List Instr) (r : Nat) : State.nat { s with pending := u } r = s.nat r := (rfl)
@[simp] theorem with_fc_nat (u : Nat) (r : Nat) : State.nat { s with fc := u } r = s.nat r := (rfl)
@[simp] theorem with_free_nat (u : Nat) (r : Nat) : State.nat { s with free := u } r = s.nat r := (rfl)
@[simp] theorem with_mem_nat (u : List Host.Cell) (r : Nat) : State.nat { s with mem := u } r = s.nat r := (rfl)
@[simp] theorem with_marks_nat (u : List (Nat × Bool)) (r : Nat) : State.nat { s with marks := u } r = s.nat r := (rfl)
@[simp] theorem with_sysMem_nat (u : List Host.Cell) (r : Nat) : State.nat { s with sysMem := u } r = s.nat r := (rfl)
@[simp] theorem with_resp_nat (u : List (Nat × Resp)) (r : Nat) : State.nat { s with resp := u } r = s.nat r := (rfl)
@[simp] theorem with_hiLatch_nat (u : List (Nat × Word)) (r : Nat) : State.nat { s with hiLatch := u } r = s.nat r := (rfl)
@[simp] theorem with_hot_nat (u : List (Nat × Word)) (r : Nat) : State.nat { s with hot := u } r = s.nat r := (rfl)
@[simp] theorem with_ev_nat (u : EvState) (r : Nat) : State.nat { s with ev := u } r = s.nat r := (rfl)
@[simp] theorem with_jn_nat (u : JnState) (r : Nat) : State.nat { s with jn := u } r = s.nat r := (rfl)
@[simp] theorem with_tb_nat (u : TbState) (r : Nat) : State.nat { s with tb := u } r = s.nat r := (rfl)
@[simp] theorem with_tl_nat (u : TlState) (r : Nat) : State.nat { s with tl := u } r = s.nat r := (rfl)
@[simp] theorem with_engs_nat (u : List (Nat × Eng)) (r : Nat) : State.nat { s with engs := u } r = s.nat r := (rfl)
@[simp] theorem with_ranks_nat (u : List (Nat × List RankReq)) (r : Nat) : State.nat { s with ranks := u } r = s.nat r := (rfl)
@[simp] theorem with_clExt_nat (u : List (Nat × Nat)) (r : Nat) : State.nat { s with clExt := u } r = s.nat r := (rfl)
@[simp] theorem with_lanes_nat (u : List LaneWrite) (r : Nat) : State.nat { s with lanes := u } r = s.nat r := (rfl)
@[simp] theorem with_laneOld_nat (u : List (Nat × Word × Bool)) (r : Nat) : State.nat { s with laneOld := u } r = s.nat r := (rfl)
@[simp] theorem with_due_nat (u : List (Nat × Act)) (r : Nat) : State.nat { s with due := u } r = s.nat r := (rfl)
@[simp] theorem with_qf_nat (u : QfState) (r : Nat) : State.nat { s with qf := u } r = s.nat r := (rfl)
@[simp] theorem with_pw_nat (u : PwState) (r : Nat) : State.nat { s with pw := u } r = s.nat r := (rfl)
@[simp] theorem with_si_nat (u : SiState) (r : Nat) : State.nat { s with si := u } r = s.nat r := (rfl)
@[simp] theorem with_gens_nat (u : List (Nat × Gen)) (r : Nat) : State.nat { s with gens := u } r = s.nat r := (rfl)
@[simp] theorem with_phOld_nat (u : List (Nat × (Nat × Word))) (r : Nat) : State.nat { s with phOld := u } r = s.nat r := (rfl)
@[simp] theorem with_phDone_nat (u : List (Nat × Bool)) (r : Nat) : State.nat { s with phDone := u } r = s.nat r := (rfl)
@[simp] theorem with_phNew_nat (u : List (Nat × Bool)) (r : Nat) : State.nat { s with phNew := u } r = s.nat r := (rfl)
@[simp] theorem with_xbarOld_nat (u : List (Nat × Word)) (r : Nat) : State.nat { s with xbarOld := u } r = s.nat r := (rfl)
@[simp] theorem with_phDue_nat (u : List Nat) (r : Nat) : State.nat { s with phDue := u } r = s.nat r := (rfl)
@[simp] theorem with_tims_nat (u : List (Nat × Tim)) (r : Nat) : State.nat { s with tims := u } r = s.nat r := (rfl)
@[simp] theorem with_lines_nat (u : List (Nat × Line)) (r : Nat) : State.nat { s with lines := u } r = s.nat r := (rfl)
@[simp] theorem with_pfus_nat (u : List (Nat × Pfu)) (r : Nat) : State.nat { s with pfus := u } r = s.nat r := (rfl)
@[simp] theorem with_pfPhase_nat (u : Nat) (r : Nat) : State.nat { s with pfPhase := u } r = s.nat r := (rfl)
@[simp] theorem with_pfStep_nat (u : Bool) (r : Nat) : State.nat { s with pfStep := u } r = s.nat r := (rfl)
@[simp] theorem with_tmgPend_nat (u : List (Nat × Bool)) (r : Nat) : State.nat { s with tmgPend := u } r = s.nat r := (rfl)
@[simp] theorem with_cs_nat (u : List (Nat × UWord)) (r : Nat) : State.nat { s with cs := u } r = s.nat r := (rfl)
@[simp] theorem with_sh_nat (u : Shep) (r : Nat) : State.nat { s with sh := u } r = s.nat r := (rfl)
@[simp] theorem with_chs_nat (u : List (Nat × Chanter)) (r : Nat) : State.nat { s with chs := u } r = s.nat r := (rfl)
@[simp] theorem with_ch_nat (u : ChState) (r : Nat) : State.nat { s with ch := u } r = s.nat r := (rfl)
@[simp] theorem with_mi_nat (u : MiState) (r : Nat) : State.nat { s with mi := u } r = s.nat r := (rfl)
@[simp] theorem with_flkFc_nat (u : List (Nat × Nat)) (r : Nat) : State.nat { s with flkFc := u } r = s.nat r := (rfl)
@[simp] theorem with_flkReq_nat (u : List (Nat × Nat)) (r : Nat) : State.nat { s with flkReq := u } r = s.nat r := (rfl)
@[simp] theorem with_flkClean_nat (u : List Nat) (r : Nat) : State.nat { s with flkClean := u } r = s.nat r := (rfl)
@[simp] theorem with_rs_nat (u : RsState) (r : Nat) : State.nat { s with rs := u } r = s.nat r := (rfl)
@[simp] theorem with_fold_nat (u : FoldStore) (r : Nat) : State.nat { s with fold := u } r = s.nat r := (rfl)
@[simp] theorem with_fuses_nat (u : List (Nat × Bool)) (r : Nat) : State.nat { s with fuses := u } r = s.nat r := (rfl)
@[simp] theorem with_mb_nat (u : MbState) (r : Nat) : State.nat { s with mb := u } r = s.nat r := (rfl)
@[simp] theorem with_db_nat (u : DbState) (r : Nat) : State.nat { s with db := u } r = s.nat r := (rfl)
@[simp] theorem tookFree_reg64 (l r : Nat) : (s.tookFree).reg64 l r = s.reg64 l r := (rfl)
@[simp] theorem setByte_reg64 (a : Nat) (b : Byte) (l r : Nat) : (s.setByte a b).reg64 l r = s.reg64 l r := (rfl)
@[simp] theorem setMark_reg64 (a : Nat) (b : Bool) (l r : Nat) : (s.setMark a b).reg64 l r = s.reg64 l r := (rfl)
@[simp] theorem later_reg64 (c : Nat) (a : Act) (l r : Nat) : (s.later c a).reg64 l r = s.reg64 l r := (rfl)
@[simp] theorem respond_reg64 (p : Port) (c : Nat) (d : BitVec 64) (l r : Nat) : (s.respond p c d).reg64 l r = s.reg64 l r := (rfl)
@[simp] theorem jAdd_reg64 (e : JEntry) (l r : Nat) : (s.jAdd e).reg64 l r = s.reg64 l r := (rfl)
@[simp] theorem setTlp_reg64 (p : Nat) (x : TlPort) (l r : Nat) : (s.setTlp p x).reg64 l r = s.reg64 l r := (rfl)
@[simp] theorem setEng_reg64 (p : Nat) (e : Eng) (l r : Nat) : (s.setEng p e).reg64 l r = s.reg64 l r := (rfl)
@[simp] theorem setGen_reg64 (g : Nat) (x : Gen) (l r : Nat) : (s.setGen g x).reg64 l r = s.reg64 l r := (rfl)
@[simp] theorem setTim_reg64 (t : Nat) (x : Tim) (l r : Nat) : (s.setTim t x).reg64 l r = s.reg64 l r := (rfl)
@[simp] theorem setPfu_reg64 (x : Nat) (u : Pfu) (l r : Nat) : (s.setPfu x u).reg64 l r = s.reg64 l r := (rfl)
@[simp] theorem setChanter_reg64 (n : Nat) (x : Chanter) (l r : Nat) : (s.setChanter n x).reg64 l r = s.reg64 l r := (rfl)
@[simp] theorem setTripIn_reg64 (n : Nat) (x : TripIn) (l r : Nat) : (s.setTripIn n x).reg64 l r = s.reg64 l r := (rfl)
@[simp] theorem with_pending_reg64 (u : List Instr) (l r : Nat) : State.reg64 { s with pending := u } l r = s.reg64 l r := (rfl)
@[simp] theorem with_fc_reg64 (u : Nat) (l r : Nat) : State.reg64 { s with fc := u } l r = s.reg64 l r := (rfl)
@[simp] theorem with_free_reg64 (u : Nat) (l r : Nat) : State.reg64 { s with free := u } l r = s.reg64 l r := (rfl)
@[simp] theorem with_mem_reg64 (u : List Host.Cell) (l r : Nat) : State.reg64 { s with mem := u } l r = s.reg64 l r := (rfl)
@[simp] theorem with_marks_reg64 (u : List (Nat × Bool)) (l r : Nat) : State.reg64 { s with marks := u } l r = s.reg64 l r := (rfl)
@[simp] theorem with_sysMem_reg64 (u : List Host.Cell) (l r : Nat) : State.reg64 { s with sysMem := u } l r = s.reg64 l r := (rfl)
@[simp] theorem with_resp_reg64 (u : List (Nat × Resp)) (l r : Nat) : State.reg64 { s with resp := u } l r = s.reg64 l r := (rfl)
@[simp] theorem with_hiLatch_reg64 (u : List (Nat × Word)) (l r : Nat) : State.reg64 { s with hiLatch := u } l r = s.reg64 l r := (rfl)
@[simp] theorem with_hot_reg64 (u : List (Nat × Word)) (l r : Nat) : State.reg64 { s with hot := u } l r = s.reg64 l r := (rfl)
@[simp] theorem with_ev_reg64 (u : EvState) (l r : Nat) : State.reg64 { s with ev := u } l r = s.reg64 l r := (rfl)
@[simp] theorem with_jn_reg64 (u : JnState) (l r : Nat) : State.reg64 { s with jn := u } l r = s.reg64 l r := (rfl)
@[simp] theorem with_tb_reg64 (u : TbState) (l r : Nat) : State.reg64 { s with tb := u } l r = s.reg64 l r := (rfl)
@[simp] theorem with_tl_reg64 (u : TlState) (l r : Nat) : State.reg64 { s with tl := u } l r = s.reg64 l r := (rfl)
@[simp] theorem with_engs_reg64 (u : List (Nat × Eng)) (l r : Nat) : State.reg64 { s with engs := u } l r = s.reg64 l r := (rfl)
@[simp] theorem with_ranks_reg64 (u : List (Nat × List RankReq)) (l r : Nat) : State.reg64 { s with ranks := u } l r = s.reg64 l r := (rfl)
@[simp] theorem with_clExt_reg64 (u : List (Nat × Nat)) (l r : Nat) : State.reg64 { s with clExt := u } l r = s.reg64 l r := (rfl)
@[simp] theorem with_lanes_reg64 (u : List LaneWrite) (l r : Nat) : State.reg64 { s with lanes := u } l r = s.reg64 l r := (rfl)
@[simp] theorem with_laneOld_reg64 (u : List (Nat × Word × Bool)) (l r : Nat) : State.reg64 { s with laneOld := u } l r = s.reg64 l r := (rfl)
@[simp] theorem with_due_reg64 (u : List (Nat × Act)) (l r : Nat) : State.reg64 { s with due := u } l r = s.reg64 l r := (rfl)
@[simp] theorem with_qf_reg64 (u : QfState) (l r : Nat) : State.reg64 { s with qf := u } l r = s.reg64 l r := (rfl)
@[simp] theorem with_pw_reg64 (u : PwState) (l r : Nat) : State.reg64 { s with pw := u } l r = s.reg64 l r := (rfl)
@[simp] theorem with_si_reg64 (u : SiState) (l r : Nat) : State.reg64 { s with si := u } l r = s.reg64 l r := (rfl)
@[simp] theorem with_gens_reg64 (u : List (Nat × Gen)) (l r : Nat) : State.reg64 { s with gens := u } l r = s.reg64 l r := (rfl)
@[simp] theorem with_phOld_reg64 (u : List (Nat × (Nat × Word))) (l r : Nat) : State.reg64 { s with phOld := u } l r = s.reg64 l r := (rfl)
@[simp] theorem with_phDone_reg64 (u : List (Nat × Bool)) (l r : Nat) : State.reg64 { s with phDone := u } l r = s.reg64 l r := (rfl)
@[simp] theorem with_phNew_reg64 (u : List (Nat × Bool)) (l r : Nat) : State.reg64 { s with phNew := u } l r = s.reg64 l r := (rfl)
@[simp] theorem with_xbarOld_reg64 (u : List (Nat × Word)) (l r : Nat) : State.reg64 { s with xbarOld := u } l r = s.reg64 l r := (rfl)
@[simp] theorem with_phDue_reg64 (u : List Nat) (l r : Nat) : State.reg64 { s with phDue := u } l r = s.reg64 l r := (rfl)
@[simp] theorem with_tims_reg64 (u : List (Nat × Tim)) (l r : Nat) : State.reg64 { s with tims := u } l r = s.reg64 l r := (rfl)
@[simp] theorem with_lines_reg64 (u : List (Nat × Line)) (l r : Nat) : State.reg64 { s with lines := u } l r = s.reg64 l r := (rfl)
@[simp] theorem with_pfus_reg64 (u : List (Nat × Pfu)) (l r : Nat) : State.reg64 { s with pfus := u } l r = s.reg64 l r := (rfl)
@[simp] theorem with_pfPhase_reg64 (u : Nat) (l r : Nat) : State.reg64 { s with pfPhase := u } l r = s.reg64 l r := (rfl)
@[simp] theorem with_pfStep_reg64 (u : Bool) (l r : Nat) : State.reg64 { s with pfStep := u } l r = s.reg64 l r := (rfl)
@[simp] theorem with_tmgPend_reg64 (u : List (Nat × Bool)) (l r : Nat) : State.reg64 { s with tmgPend := u } l r = s.reg64 l r := (rfl)
@[simp] theorem with_cs_reg64 (u : List (Nat × UWord)) (l r : Nat) : State.reg64 { s with cs := u } l r = s.reg64 l r := (rfl)
@[simp] theorem with_sh_reg64 (u : Shep) (l r : Nat) : State.reg64 { s with sh := u } l r = s.reg64 l r := (rfl)
@[simp] theorem with_chs_reg64 (u : List (Nat × Chanter)) (l r : Nat) : State.reg64 { s with chs := u } l r = s.reg64 l r := (rfl)
@[simp] theorem with_ch_reg64 (u : ChState) (l r : Nat) : State.reg64 { s with ch := u } l r = s.reg64 l r := (rfl)
@[simp] theorem with_mi_reg64 (u : MiState) (l r : Nat) : State.reg64 { s with mi := u } l r = s.reg64 l r := (rfl)
@[simp] theorem with_flkFc_reg64 (u : List (Nat × Nat)) (l r : Nat) : State.reg64 { s with flkFc := u } l r = s.reg64 l r := (rfl)
@[simp] theorem with_flkReq_reg64 (u : List (Nat × Nat)) (l r : Nat) : State.reg64 { s with flkReq := u } l r = s.reg64 l r := (rfl)
@[simp] theorem with_flkClean_reg64 (u : List Nat) (l r : Nat) : State.reg64 { s with flkClean := u } l r = s.reg64 l r := (rfl)
@[simp] theorem with_rs_reg64 (u : RsState) (l r : Nat) : State.reg64 { s with rs := u } l r = s.reg64 l r := (rfl)
@[simp] theorem with_fold_reg64 (u : FoldStore) (l r : Nat) : State.reg64 { s with fold := u } l r = s.reg64 l r := (rfl)
@[simp] theorem with_fuses_reg64 (u : List (Nat × Bool)) (l r : Nat) : State.reg64 { s with fuses := u } l r = s.reg64 l r := (rfl)
@[simp] theorem with_mb_reg64 (u : MbState) (l r : Nat) : State.reg64 { s with mb := u } l r = s.reg64 l r := (rfl)
@[simp] theorem with_db_reg64 (u : DbState) (l r : Nat) : State.reg64 { s with db := u } l r = s.reg64 l r := (rfl)
end

/-! ### Registers -/

section
variable (s : State) (o o' : Nat) (v : Word) (f g : Fld) (n : Nat) (b : Bool)

/-- A register reads what was stored. -/
@[simp] theorem reg_setReg_same : (s.setReg o v).reg o = v := by simp [State.reg, State.setReg]

/-- Storing a register leaves every other alone. -/
theorem reg_setReg_ne (h : o' ≠ o) : (s.setReg o v).reg o' = s.reg o' := by
  simp [State.reg, State.setReg, tget_tset_ne _ _ _ h]

theorem reg_setReg : (s.setReg o v).reg o' = if o' = o then v else s.reg o' := by
  simp [State.reg, State.setReg, tget_tset]

theorem reg_setFld_ne (h : o' ≠ o) : (s.setFld o f n).reg o' = s.reg o' := reg_setReg_ne _ _ _ _ h
theorem reg_setFlag_ne (h : o' ≠ o) : (s.setFlag o f b).reg o' = s.reg o' := reg_setReg_ne _ _ _ _ h
theorem reg_setNat_ne (h : o' ≠ o) : (s.setNat o n).reg o' = s.reg o' := reg_setReg_ne _ _ _ _ h
theorem reg_inc_ne (h : o' ≠ o) : (s.inc o).reg o' = s.reg o' := reg_setReg_ne _ _ _ _ h
theorem reg_incFld_ne (h : o' ≠ o) : (s.incFld o f).reg o' = s.reg o' := reg_setReg_ne _ _ _ _ h
theorem reg_incSat_ne (h : o' ≠ o) : (s.incSat o f).reg o' = s.reg o' := by
  unfold State.incSat; split
  · exact reg_setFld_ne _ _ _ _ _ h
  · rfl

@[simp] theorem reg_inc_same : (s.inc o).reg o = s.reg o + 1 := reg_setReg_same _ _ _

theorem fld_of_reg {s t : State} {o : Nat} {f : Fld} (h : t.reg o = s.reg o) : t.fld o f = s.fld o f := by simp [State.fld, h]
theorem flag_of_reg {s t : State} {o : Nat} {f : Fld} (h : t.reg o = s.reg o) : t.flag o f = s.flag o f := by
  simp [State.flag, State.fld, h]

theorem pack_lt {a m b k : Nat} (ha : a < m) (hb : b < k) : a + b * m < m * k := by
  have h : m * (b + 1) ≤ m * k := Nat.mul_le_mul_left _ hb
  rw [Nat.mul_add, Nat.mul_one, Nat.mul_comm] at h
  omega

theorem withBits_eq (n lo len v : Nat) :
    withBits n lo len v = n % 2 ^ lo + (v % 2 ^ len) * 2 ^ lo + n / 2 ^ (lo + len) * 2 ^ (lo + len) := by
  unfold withBits bitsOf
  have e : n = n % 2 ^ lo + (n / 2 ^ lo % 2 ^ len) * 2 ^ lo + n / 2 ^ (lo + len) * 2 ^ (lo + len) := by
    have h1 := Nat.div_add_mod n (2 ^ lo)
    have h2 := Nat.div_add_mod (n / 2 ^ lo) (2 ^ len)
    rw [Nat.div_div_eq_div_mul, ← Nat.pow_add] at h2
    have h3 : n / 2 ^ (lo + len) * 2 ^ (lo + len) = 2 ^ lo * (2 ^ len * (n / 2 ^ (lo + len))) := by
      rw [Nat.pow_add]; ring
    have h4 : 2 ^ lo * (n / 2 ^ lo) = 2 ^ lo * (2 ^ len * (n / 2 ^ (lo + len))) + 2 ^ lo * (n / 2 ^ lo % 2 ^ len) := by
      rw [← Nat.mul_add, h2]
    rw [h3, Nat.mul_comm (n / 2 ^ lo % 2 ^ len)]
    omega
  omega

/-- A field reads what was put in it. -/
theorem bitsOf_withBits_same (n lo len v : Nat) : bitsOf (withBits n lo len v) lo len = v % 2 ^ len := by
  rw [withBits_eq, bitsOf, Nat.pow_add]
  have e : n % 2 ^ lo + v % 2 ^ len * 2 ^ lo + n / (2 ^ lo * 2 ^ len) * (2 ^ lo * 2 ^ len)
      = n % 2 ^ lo + 2 ^ lo * (v % 2 ^ len + 2 ^ len * (n / (2 ^ lo * 2 ^ len))) := by ring
  rw [e, Nat.add_mul_div_left _ _ (Nat.two_pow_pos lo), Nat.div_eq_of_lt (Nat.mod_lt _ (Nat.two_pow_pos lo)), Nat.zero_add,
    Nat.add_mul_mod_self_left, Nat.mod_mod]

/-- A field below or above the one written keeps its value. -/
theorem bitsOf_withBits_below (n lo len v lo' len' : Nat) (h : lo' + len' ≤ lo) :
    bitsOf (withBits n lo len v) lo' len' = bitsOf n lo' len' := by
  obtain ⟨k, rfl⟩ := Nat.le.dest h
  have key : ∀ x y : Nat, x % 2 ^ (lo' + len' + k) = y % 2 ^ (lo' + len' + k) → bitsOf x lo' len' = bitsOf y lo' len' := by
    intro x y hxy
    have h1 : ∀ z : Nat, bitsOf z lo' len' = bitsOf (z % 2 ^ (lo' + len' + k)) lo' len' := by
      intro z
      unfold bitsOf
      rw [show 2 ^ (lo' + len' + k) = 2 ^ lo' * 2 ^ (len' + k) by rw [← Nat.pow_add]; congr 1; omega,
        Nat.mod_mul_right_div_self, Nat.mod_mod_of_dvd _ (Nat.pow_dvd_pow 2 (by omega))]
    rw [h1 x, h1 y, hxy]
  apply key
  rw [withBits_eq, Nat.pow_add 2 _ len]
  have e : n % 2 ^ (lo' + len' + k) + v % 2 ^ len * 2 ^ (lo' + len' + k)
      + n / (2 ^ (lo' + len' + k) * 2 ^ len) * (2 ^ (lo' + len' + k) * 2 ^ len)
      = n % 2 ^ (lo' + len' + k) + 2 ^ (lo' + len' + k) * (v % 2 ^ len + n / (2 ^ (lo' + len' + k) * 2 ^ len) * 2 ^ len) := by ring
  rw [e, Nat.add_mul_mod_self_left, Nat.mod_mod]

theorem bitsOf_withBits_above (n lo len v lo' len' : Nat) (h : lo + len ≤ lo') :
    bitsOf (withBits n lo len v) lo' len' = bitsOf n lo' len' := by
  obtain ⟨k, rfl⟩ := Nat.le.dest h
  unfold bitsOf
  rw [withBits_eq, Nat.pow_add 2 (lo + len) k, ← Nat.div_div_eq_div_mul, ← Nat.div_div_eq_div_mul n]
  have hlt : n % 2 ^ lo + v % 2 ^ len * 2 ^ lo < 2 ^ (lo + len) := by
    have h1 := Nat.mod_lt n (Nat.two_pow_pos lo)
    have h2 := Nat.mod_lt v (Nat.two_pow_pos len)
    rw [Nat.pow_add]
    exact pack_lt h1 h2
  rw [Nat.add_mul_div_right _ _ (Nat.two_pow_pos _), Nat.div_eq_of_lt hlt, Nat.zero_add]

theorem withBits_lt (n lo len v k : Nat) (h : lo + len ≤ k) (hn : n < 2 ^ k) : withBits n lo len v < 2 ^ k := by
  rw [withBits_eq]
  obtain ⟨j, rfl⟩ := Nat.le.dest h
  have h1 := Nat.mod_lt n (Nat.two_pow_pos lo)
  have h2 := Nat.mod_lt v (Nat.two_pow_pos len)
  have h3 : n / 2 ^ (lo + len) < 2 ^ j := by
    rw [Nat.div_lt_iff_lt_mul (Nat.two_pow_pos _)]
    rw [Nat.pow_add, Nat.mul_comm] at hn
    exact hn
  have hlt : n % 2 ^ lo + v % 2 ^ len * 2 ^ lo < 2 ^ (lo + len) := by
    rw [Nat.pow_add]
    exact pack_lt h1 h2
  rw [Nat.pow_add 2 (lo + len) j]
  exact pack_lt hlt h3

/-- What a register holds after one of its fields is stored. -/
theorem toNat_setFld_same (h : f.lo + f.len ≤ 32) :
    ((s.setFld o f n).reg o).toNat = withBits (s.reg o).toNat f.lo f.len n := by
  rw [State.setFld, reg_setReg_same, BitVec.toNat_ofNat]
  exact Nat.mod_eq_of_lt (withBits_lt _ _ _ _ _ h (s.reg o).isLt)

/-- A field reads what was stored in it. -/
theorem fld_setFld_same (h : f.lo + f.len ≤ 32) : (s.setFld o f n).fld o f = n % 2 ^ f.len := by
  rw [State.fld, toNat_setFld_same _ _ _ _ h, bitsOf_withBits_same]

/-- Another field of the register keeps its value. -/
theorem fld_setFld_other (h : f.lo + f.len ≤ 32) (hg : g.lo + g.len ≤ f.lo ∨ f.lo + f.len ≤ g.lo) :
    (s.setFld o f n).fld o g = s.fld o g := by
  rw [State.fld, toNat_setFld_same _ _ _ _ h]
  rcases hg with hg | hg
  · exact bitsOf_withBits_below _ _ _ _ _ _ hg
  · exact bitsOf_withBits_above _ _ _ _ _ _ hg

/-- A field reads after setFlag as after setFld. -/
theorem fld_setFlag (o' : Nat) (g : Fld) : (s.setFlag o f b).fld o' g = (s.setFld o f (b2n b)).fld o' g := (rfl)

theorem flag_setFlag_same (h : f.lo + f.len ≤ 32) (h1 : f.len = 1) : (s.setFlag o f b).flag o f = b := by
  rw [State.flag, fld_setFlag, fld_setFld_same _ _ _ _ h, h1]
  cases b <;> rfl

theorem flag_setFlag_other (h : f.lo + f.len ≤ 32) (hg : g.lo + g.len ≤ f.lo ∨ f.lo + f.len ≤ g.lo) :
    (s.setFlag o f b).flag o g = s.flag o g := by
  rw [State.flag, State.flag, fld_setFlag, fld_setFld_other _ _ _ _ _ h hg]
end

/-! ### Memory -/

section
variable (s : State) (a a' : Nat) (b : Byte)

@[simp] theorem byte_setByte_same : (s.setByte a b).byte a = b := by simp [State.byte, State.setByte]

theorem byte_setByte_ne (h : a' ≠ a) : (s.setByte a b).byte a' = s.byte a' := by
  simp [State.byte, State.setByte, tget_tset_ne _ _ _ h]

/-- A write of n bytes leaves every byte outside them alone. -/
theorem byte_setBytes_out (n v : Nat) (h : a' < a ∨ a + n ≤ a') : (s.setBytes a n v).byte a' = s.byte a' := by
  induction n generalizing s a v with
  | zero => rfl
  | succ n ih =>
    simp only [State.setBytes]
    rw [ih _ _ _ (by omega), byte_setByte_ne _ _ _ _ (by omega)]

theorem byte_setByteList_out (l : List Byte) (h : a' < a ∨ a + l.length ≤ a') : (s.setByteList a l).byte a' = s.byte a' := by
  induction l generalizing s a with
  | nil => rfl
  | cons b l ih =>
    simp only [State.setByteList, List.length_cons] at *
    rw [ih _ _ (by omega), byte_setByte_ne _ _ _ _ (by omega)]
end

/-! ### The memories keep their canonical form -/

section
variable (s : State)

theorem setByte_wf (a : Nat) (b : Byte) (h : Memory.wf s.mem = true) : Memory.wf (s.setByte a b).mem = true := twf_tset _ _ _ _ h

theorem setBytes_wf (a n v : Nat) (h : Memory.wf s.mem = true) : Memory.wf (s.setBytes a n v).mem = true := by
  induction n generalizing s a v with
  | zero => exact h
  | succ n ih => exact ih _ _ _ (setByte_wf _ _ _ h)

theorem setByteList_wf (a : Nat) (l : List Byte) (h : Memory.wf s.mem = true) : Memory.wf (s.setByteList a l).mem = true := by
  induction l generalizing s a with
  | nil => exact h
  | cons b l ih => exact ih _ _ (setByte_wf _ _ _ h)

theorem sysWrite_wf (a : Nat) (l : List Byte) (h : Memory.wf s.sysMem = true) : Memory.wf (s.sysWrite a l).sysMem = true := by
  induction l generalizing s a with
  | nil => exact h
  | cons b l ih => exact ih _ _ (twf_tset _ _ _ _ h)

theorem setMark_wf (a : Nat) (b : Bool) (h : twf markReset s.marks = true) : twf markReset (s.setMark a b).marks = true :=
  twf_tset _ _ _ _ h

theorem setMarks_wf (a : Nat) (b : Bool) (n : Nat) (h : twf markReset s.marks = true) :
    twf markReset (s.setMarks a b n).marks = true := by
  induction n generalizing s a with
  | zero => exact h
  | succ n ih => exact ih _ _ (setMark_wf _ _ _ h)

theorem setReg_wf (o : Nat) (v : Word) (h : twf regReset s.regs = true) : twf regReset (s.setReg o v).regs = true :=
  twf_tset _ _ _ _ h
end

end Sys2Proof.Machine
end

