-- ==== Sys2Proof/Tests/Slice0.lean ====
section
/-!
SUPPORT. Tests: the worked examples of the spec, run; ill-formed commands, refused; and for every statement with hypotheses, states and
operands that meet them.
-/

set_option maxRecDepth 100000
set_option linter.unusedVariables false


namespace Sys2Proof.Tests

set_option Elab.async false

open Sys2Proof Sys2Proof.Machine

/-! ### States for the tests -/

def run : State := { State.reset with pw := { fast := true, pll := true, mode := .graze, porLow := false } }
def kbank : Bank := { d := [(1, 1), (2, 7), (3, 0xFFFFFFF0), (4, 5), (5, 9), (6, 0x80000000)], a := [(1, 0x40), (2, 0x44), (3, 0x100020), (4, 0x21), (5, 0x80010), (6, 0x100), (7, 0x100010)], m := [(1, 4)], ac := [(1, 5), (2, 0x1234567890), (3, 77)], pc := 0x100000 }
def krun : State := (((run.setNat (LE_CTRL 3) 1).setNat (LE_TASK_CFG 3 0) 1).setFld (LE_TASK_STAT 3 0) fLE_TASK_STAT_STATE 3).setBank 3 0 kbank
def krunw : State := krun.setBank 3 0 { kbank with a := [(5, 0x800010), (6, 0x400010)] }
def krung : State := krun.setNat (PW_MAP 4) 0x44
def krune : State := (krun.setNat (QF_QCFG 13) 0).setFld (QF_QCFG 13) fQF_QCFG_DEPTH 4 |>.setFlag (QF_QCFG 13) fQF_QCFG_EN true |>.setNat (QF_QBASE 13) 3
def krunq : State := ((krune.setMword 0x1C00300 9).setMword 0x1C00304 8).setNat (QF_QLVL 13) 1
def krunf : State := krune.setNat (QF_QLVL 13) 4
def srun : State := run.setShBankAt 0 { kbank with d := [(1, 1), (2, 7), (3, 0xF0)] }
def srung : State := srun.setMword (tcmBase + 0x200) 0x12100100
def srunm : State := (forN (fun i s => (s.setNat ([SH_MPU_I0 0, SH_MPU_O0 0].getD i 0 + 4) 0xFFFFE0).setNat ([SH_MPU_I0 0, SH_MPU_O0 0].getD i 0 + 8) 0xFF) 2 srun).setFlag SH_CTRL fSH_CTRL_MPUEN_I true
def krunp : State := krun.setBank 3 0 { kbank with poison := 0x1000 }
def chrun : State := { ((run.setFlag (CH_STAT 7) fCH_STAT_RUN true).setFlag (CH_CCFG 7 0) fCH_CCFG_EN true).setNat (CH_CMEM_LO 7 0) 0x1001 |>.setFlag (CH_CCFG 7 3) fCH_CCFG_EN true |>.setFlag (CH_CCFG 7 3) fCH_CCFG_FRM true |>.setFld (CH_CFG 7) fCH_CFG_NCHM1 3 |>.setFld (CH_FRM 7 3) fCH_FRM_WLEN 7 |>.setFld (CH_FRM 7 3) fCH_FRM_FBITS 16 with fc := 9 }
def ch1 : State := chrun.setFld (CH_CFG 7) fCH_CFG_NCHM1 0
def mbx (m op : Nat) (ws : List Nat) (s : State := run) : State := ws.zipIdx.foldl (fun u e => u.setNat (MB_REQ m (4 + e.2)) e.1) { (((s.setFld (MB_STAT m) fMB_STAT_STATE 1).setFld (MB_STAT m) fMB_STAT_AUTH (if 28 ≤ m then 2 else 0)).setNat (MB_REQ m 0) op).setNat (MB_REQ m 2) (4 * ws.length) with mb := { s.mb with ready := true } }
def runc : State := forN (fun f s => s.setFlag (FLK_STAT f) fFLK_STAT_CLEAN true) 16 run
def tlrun : State := ((run.setNat TL_CTRL 0x70001).setFld (TL_PSTAT 0) fTL_PSTAT_STATE 2).setFld (TL_PSTAT 1) fTL_PSTAT_STATE 2
def tlf (k a b : Nat) (pl : List Byte) (port : Fin 2 := 0) : Frame := { port := port, src := .ofNat 8 a, dst := .ofNat 8 b, hop := 0, payload := pl, crc := .ofNat 16 (crc16 (frameBytes k a b 0 pl)), viol := false }
def g0 : TlFrame := { dst := 5, payload := [0, 0, 1] }

/-- The state that an outcome answers. -/
def nextOf (o : Host.Outcome State Fault Refusal) : State := match o with | .next u => u | _ => run
def isNext (o : Host.Outcome State Fault Refusal) : Bool := match o with | .next _ => true | _ => false
theorem eq_nextOf {o : Host.Outcome State Fault Refusal} (h : isNext o = true) : o = .next (nextOf o) := by cases o <;> simp_all [isNext, nextOf]
def fly0 : SampleFly := { port := 5, fc := 7, data := 0x400077, tag := 3, stamp := 9, paired := false, nosoc := false, inc := 0, cfg := 1, off := 0, gain := 0x20000000, hi := 0x7FFFFFFF, lo := 0x80000000, route := 0x4000000D, entry := [(77, false), (1283, false), (9, false), (0, false)] }

/-! ### Worked examples of the spec -/

/-- The values of R53's worked example (02_tally_time.md): d = 4,300 tk, o = 37 tk. -/
theorem test_sync_exchange : syncDelay16 1000000 1004337 1050037 1054300 = 16 * 4300
    ∧ syncOffset16 1000000 1004337 (16 * 4300) 0 = 16 * 37 := by decide +kernel

/-- The parcels of the EX-2 fast loop (04_kamyn_instruction_set.md). -/
theorem test_ex2_words : kOp 0x5000 = some (.queue 0 0 0 0 0 0) ∧ kOp 0x2080C001 = some (.alu 0x01 4 2 0 false)
    ∧ kOp 0xE408E800 = some (.cplx 0x00 28 16 4 false) ∧ kOp 0xE14CC400 = some (.acc 0x00 28 5 6 false)
    ∧ kOp 0x3F10C00C = some (.alu 0x0C 7 28 8 false) ∧ kOp 0x7010E400 = some (.pwd 0 7 0 0 0 true) ∧ kOp 0x0200 = some .wait := by
  decide +kernel

/-- The bank and the PIS block of the EX-2 fast loop before its SUB. -/
def ex2 : State :=
  let b : Bank := { d := [(0, 0x1C000000), (2, 0x20000000), (4, 0x04000000), (5, 0x20000000), (6, 0x40000000), (8, 0x03333333), (9, 0x73333333)], a := [(0, 0x400)], ac := [(0, BitVec.ofNat 72 (0x18100000 * 2 ^ 32))], pc := 0x010004 }
  let s := krun.setBank 3 0 b
  (((((s.setMword 0x1030400 0x40000000).setMword 0x1030404 0x02000000).setMword 0x1030408 2).setMword 0x103040C 0xA0000000).setMword 0x1030410
    0x60000000).setMword 0x1030414 0x10000000

/-- SUB: D4 = e = 0x0400_0000. -/
theorem test_ex2_sub : ((nextOf (exec (.sub (.eng 3) 0x2080C001) ex2)).bank 3 0).gd 4 = 0x04000000 := by decide +kernel

/-- PIS: I := 0x1010_0000, STAT := 0, AC0 = 0x1810_0000 × 2^32. -/
theorem test_ex2_pis : let t := nextOf (exec (.pis (.eng 3) 0xE408E800) ex2)
    t.mword 0x1030414 = 0x10100000 ∧ t.mword 0x1030418 = 0 ∧ (t.bank 3 0).aci 28 = 0x18100000 * 2 ^ 32 := by decide +kernel

/-- MAC.F: AC0 = 0x2810_0000 × 2^32. -/
theorem test_ex2_mac : ((nextOf (exec (.macF (.eng 3) 0xE14CC400) ex2)).bank 3 0).aci 28 = 0x28100000 * 2 ^ 32 := by decide +kernel

/-- CLIP of AC0 = 0x2810_0000 × 2^32: D7 = 0x2810_0000. -/
theorem test_ex2_clip : ((nextOf (exec (.clip (.eng 3) 0x3F10C00C)
    (ex2.setBank 3 0 { ex2.bank 3 0 with ac := [(0, BitVec.ofNat 72 (0x28100000 * 2 ^ 32))] }))).bank 3 0).gd 7 = 0x28100000 := by decide +kernel

/-- Slow edge 29,492 of the wake timer of EX-2 (09_gated_timers.md): TM_CNT = 0x4B9B_295E, TM_CNT_FRAC = 0x1000. -/
theorem test_slow_edge :
    let s := ((((run.setFlag (TM_STAT 4) fTM_STAT_RUN true).setFlag (TM_STAT 4) fTM_STAT_SLOW true).setNat TM_SLOW_INC_LO 0x77359400).setNat (TM_CNT 4)
      1268429352).setNat (TM_CNT_FRAC 4) 0x7C00
    let t := (s.setFlag (TM_STAT 4) fTM_STAT_GATE true).timSlowEdge false 4
    t.nat (TM_CNT 4) = 0x4B9B295E ∧ t.nat (TM_CNT_FRAC 4) = 0x1000 := by decide +kernel

/-- The third correctable error of the worn row of EX-1 (17_memory_integrity.md): MI_LAST, MI_ROWLOG[0], ROWLIM. -/
theorem test_worn_row :
    let s := (run.setFld (MI_GCFG 0) fMI_GCFG_ROWTHR 3).setNat (MI_ROWLOG 0 0) 0x81002A02
    let t := s.eccError 0 1 0xA92 8
    t.nat (MI_LAST 0) = 0x01000A92 ∧ t.nat (MI_ROWLOG 0 0) = 0x81002A03 ∧ t.flag (MI_GSTAT 0) fMI_GSTAT_ROWLIM = true := by decide +kernel

/-- The last gasp of EX-1 (19_reset_power_startup.md): S = 0x0000_3A00_2000_0000 gives C = 0x0000_3A00_2000_218E. -/
theorem test_last_gasp :
    let s := { run with tb := { run.tb with a := 0x00003A0020000000 * 2 ^ 32 } }
    (nextOf (exec (.powerFail 0) (s.setFlag TB_STAT fTB_STAT_COARSE true))).pw.lg.c = 0x00003A002000218E := by decide +kernel

/-- The gain change of EX-2 (16_mailbox_commands.md): NEXT = 0x440, the reply OK with D0 = 0x400 and D1 = 0x440. -/
theorem test_param_swap :
    let s := { runc.setNat (LE_MAP 0) 0x40 with tb := { run.tb with a := 0x0000020000000000 * 2 ^ 32 } }
    let s := (((s.setMword 0x1000600 0x400).setMword 0x1000604 0x400).setMword 0x1000610 0x400).setMword 0x1000614 0x440
    let s := mbx 4 0x301 [0, 0x600, 0x20, 0, 0x00418937, 0x200, 0, 0, 0x48000000, 0x02000000, 2, 0xA0000000, 0x60000000, 0, 0, 0] s
    let t := nextOf (exec (.paramSwap 4) (s.setNat (MB_REQ 4 1) 0x12))
    t.mword 0x1000604 = 0x440 ∧ t.mword 0x1000440 = 0x48000000 ∧ t.reg (MB_RPL 4 8) = 0x400 ∧ t.reg (MB_RPL 4 9) = 0x440
      ∧ bitsOf (t.nat (MB_RPL 4 0)) 16 8 = 0 := by decide +kernel

/-! ### Ill-formed commands -/

/-- A word that is no instruction is an encoding of none of these rows (R99). -/
theorem test_ill_formed_words_1 : ([.nop, .wait, .isync, .ret, .brk, .signal, .shli, .shri, .sari, .ceqi, .clti, .andi, .bra, .bg, .bdec, .mov, .add, .sub, .neg, .abs, .mul, .mull, .mulh, .add2, .sub2, .mul2, .min, .max, .clip, .norm, .and, .or, .xor, .andn, .not, .shl, .shr, .sar, .ceq, .cne, .clt, .cle, .cltu, .cleu, .ctst, .macF, .macI, .macD, .msuF, .msuI, .msuD, .mpyF, .mpyI, .mpyD, .aclr, .acadd, .acsub, .acneg, .acsh, .sac] : List (Core → Word → Instr)).all
    (fun i => !(i (.eng 3) 0xA000).wf) = true := by decide +kernel

/-- A word that is no instruction is an encoding of none of these rows (R99). -/
theorem test_ill_formed_words_2 : ([.ldac, .acrd, .acwr, .adda, .suba, .addaa, .moda, .movi, .movhi, .addi, .ori, .ld, .st, .ldPostModify, .stPostModify, .br, .call, .jr, .callr, .qget, .qput, .qgetm, .qputm, .qlvl, .pwd, .stamp, .rank, .ucall, .mode, .rdmode, .pis, .xformCl, .xformIcl, .xformPk, .xformIpk, .sincos, .div, .divq, .sqrt, .firk, .gate, .retx, .mpur, .mpuw, .sysr, .sysw, .world] : List (Core → Word → Instr)).all
    (fun i => !(i (.eng 3) 0xA000).wf) = true := by decide +kernel

/-- A word that is an instruction is not ILLEGAL. -/
theorem test_ill_formed_illegal : (Instr.illegal (.eng 3) 0x0100).wf = false := by decide +kernel

/-! ### States that meet the hypotheses of the statements -/

/-- States and operands that meet the hypotheses of each clause of `StepRunsTheFrontCommand`. -/
theorem test_premises_of_step_runs_the_front_command :
    (∃ (i : Instr) (rest : List Instr) (s : State), s.pending = i :: rest)
    ∧ (∃ (s : State), s.pending = []) :=
  ⟨⟨.tallyAdvance, ([.tlcmd]), ({ run with pending := [.tallyAdvance, .tlcmd] }), (by decide +kernel)⟩,
    ⟨run, (by decide +kernel)⟩⟩

/-- States and operands that meet the hypotheses of each clause of `EveryCommandAnswers`. -/
theorem test_premises_of_every_command_answers :
    (∃ (i : Instr) (s : State), i.wf = false) :=
  ⟨(.add (.eng 3) 0x0100), krun, (by decide +kernel)⟩


/-- States and operands that meet the hypotheses of each clause of `RegisterAndMemoryAccesses`. -/
theorem test_premises_of_register_and_memory_accesses :
    (∃ (p : Port) (v : Word) (s : State), p ∈ [Port.hpp, .dam, .shepherd] ∧ s.takes p JN_HTAIL v = true)
    ∧ (∃ (p : Port) (v : Word) (s : State), p ∈ [Port.dam, .shepherd] ∧ s.portOpen p = true ∧ s.viewOpen (s.master p) JN_HTAIL false = true ∧ (s.master p).lvl ≠ 0 ∧ v.toNat / 2 ^ 24 ≠ 0)
    ∧ (∃ (p : Port) (s : State), p ∈ [Port.hpp, .dam, .shepherd] ∧ s.reads p JN_HTAIL = true)
    ∧ (∃ (off : Nat) (size : Fin 4) (be : BitVec 8) (data : BitVec 64) (s : State), s.portOpen .hpp = true ∧ off % 2 ^ size.val = 0 ∧ be.toNat / 2 ^ 2 ^ size.val = 0 ∧ ((0x1000000 ≤ off ∧ off < 0x14C8000 ∨ 0x1500000 ≤ off ∧ off < 0x2000000)) ∧ s.swept off = false ∧ s.flag FLK_GCFG fFLK_GCFG_HPPW = true)
    ∧ (∃ (off : Nat) (size : Fin 4) (be : BitVec 8) (data : BitVec 64) (s : State), s.portOpen .hpp = true ∧ off % 2 ^ size.val = 0 ∧ be.toNat / 2 ^ 2 ^ size.val = 0 ∧ ((0x1000000 ≤ off ∧ off < 0x14C8000 ∨ 0x1500000 ≤ off ∧ off < 0x2000000)) ∧ s.swept off = false ∧ s.flag FLK_GCFG fFLK_GCFG_HPPW = true ∧ s.wakeLatch = none ∧ s.pw.hostHeld = [] ∧ s.lanes = [] ∧ s.laneOld = [])
    ∧ (∃ (off : Nat) (size : Fin 4) (be : BitVec 8) (data : BitVec 64) (s : State), s.portOpen .hpp = true ∧ off % 2 ^ size.val = 0 ∧ be.toNat / 2 ^ 2 ^ size.val = 0 ∧ ((0x1000000 ≤ off ∧ off < 0x14C8000 ∨ 0x1500000 ≤ off ∧ off < 0x2000000)) ∧ s.swept off = false ∧ s.flag FLK_GCFG fFLK_GCFG_HPPW = false)
    ∧ (∃ (p : Port) (off : Nat) (size : Fin 4) (be : BitVec 8) (data : BitVec 64) (s : State), p ∈ [Port.hpp, .dam, .shepherd] ∧ s.portOpen p = true ∧ (s.master p).lvl ≠ 0 ∧ off % 2 ^ size.val = 0 ∧ be.toNat / 2 ^ 2 ^ size.val = 0 ∧ ((0x1000000 ≤ off ∧ off < 0x14C8000 ∨ 0x1500000 ≤ off ∧ off < 0x2000000)) ∧ s.swept off = true)
    ∧ (∃ (p : Port) (off : Nat) (size : Fin 4) (s : State), p ∈ [Port.hpp, .dam, .shepherd] ∧ s.portOpen p = true ∧ (s.master p).lvl ≠ 0 ∧ off % 2 ^ size.val = 0 ∧ ((0x1000000 ≤ off ∧ off < 0x14C8000 ∨ 0x1500000 ≤ off ∧ off < 0x2000000)))
    ∧ (∃ (p : Port) (off : Nat) (size : Fin 4) (s : State), p ∈ [Port.hpp, .dam, .shepherd] ∧ s.portOpen p = true ∧ off % 2 ^ size.val ≠ 0)
    ∧ (∃ (off : Nat) (size : Fin 4) (s : State), s.portOpen .dam = true ∧ s.dbLevel = 0 ∧ off % 2 ^ size.val = 0)
    ∧ (∃ (off : Nat) (size : Fin 4) (s : State), s.pw.mode = .reset)
    ∧ (∃ (f : Fin 16) (off : Nat) (size : Fin 4) (s : State), s.portOpen (.hup f) = true ∧ off < 0x10000 ∧ off % 2 ^ size.val = 0 ∧ s.flag (FLK_CTRL f) fFLK_CTRL_EN = false)
    ∧ (∃ (f : Fin 16) (v : Word) (s : State), s.portOpen (.hup f) = true ∧ s.flag (FLK_CTRL f) fFLK_CTRL_EN = true)
    ∧ (∃ (f : Fin 16) (off : Nat) (v : Word) (s : State), s.portOpen (.hup f) = true ∧ s.flag (FLK_CTRL f) fFLK_CTRL_EN = true ∧ s.unswept = false ∧ 0x1000 ≤ off ∧ off < 0x8000 ∧ off % 4 = 0) :=
  ⟨⟨.hpp, 0x00ABCDEF, run, (by decide +kernel), (by decide +kernel)⟩,
    ⟨.shepherd, 0x01ABCDEF, run, (by decide +kernel), (by decide +kernel), (by decide +kernel), (by decide +kernel), (by decide +kernel)⟩,
    ⟨.hpp, (run.setNat JN_HTAIL 7), (by decide +kernel), (by decide +kernel)⟩,
    ⟨0x1500008, 3, 0xF3, 0x1122334455667788, (run.laneWrite { lane := 10, addr := 0x1500008, bytes := [1,2,3,4] }), (by decide +kernel), (by decide +kernel), (by decide +kernel), (by decide +kernel), (by decide +kernel), (by decide +kernel)⟩,
    ⟨0x1500008, 3, 0xF3, 0x1122334455667788, (run.setMark 0x150000C true), (by decide +kernel), (by decide +kernel), (by decide +kernel), (by decide +kernel), (by decide +kernel), (by decide +kernel), (by decide +kernel), (by decide +kernel), (by decide +kernel), (by decide +kernel)⟩,
    ⟨0x1900008, 3, 0xF3, 0x1122334455667788, (run.setFlag FLK_GCFG fFLK_GCFG_HPPW false), (by decide +kernel), (by decide +kernel), (by decide +kernel), (by decide +kernel), (by decide +kernel), (by decide +kernel)⟩,
    ⟨.hpp, 0x1000008, 2, 15, 5, ({ run with mi := { sweeps := [(0, true)] } }), (by decide +kernel), (by decide +kernel), (by decide +kernel), (by decide +kernel), (by decide +kernel), (by decide +kernel), (by decide +kernel)⟩,
    ⟨.hpp, 0x1900008, 3, (run.setMark 0x190000C true), (by decide +kernel), (by decide +kernel), (by decide +kernel), (by decide +kernel), (by decide +kernel)⟩,
    ⟨.hpp, 0x1900009, 1, run, (by decide +kernel), (by decide +kernel), (by decide +kernel)⟩,
    ⟨0x1900008, 2, (run.setFld DB_STAT fDB_STAT_LEVEL 0), (by decide +kernel), (by decide +kernel), (by decide +kernel)⟩,
    ⟨1, 3, State.reset, (by decide +kernel)⟩,
    ⟨15, 0xFFFC, 2, run, (by decide +kernel), (by decide +kernel), (by decide +kernel), (by decide +kernel)⟩,
    ⟨15, 1, (run.setFlag (FLK_CTRL 15) fFLK_CTRL_EN true), (by decide +kernel), (by decide +kernel)⟩,
    ⟨15, 0x7FFC, 9, (run.setFlag (FLK_CTRL 15) fFLK_CTRL_EN true), (by decide +kernel), (by decide +kernel), (by decide +kernel), (by decide +kernel), (by decide +kernel), (by decide +kernel)⟩⟩

/-- States and operands that meet the hypotheses of each clause of `UnassignedOffsetsDecode`. -/
theorem test_premises_of_unassigned_offsets_decode :
    (∃ (p : Port) (off : Nat) (size : Fin 4) (be : BitVec 8) (data : BitVec 64) (s : State), p ∈ [Port.hpp, .dam, .shepherd] ∧ s.portOpen p = true ∧ (s.master p).lvl ≠ 0 ∧ off % 2 ^ size.val = 0 ∧ be.toNat / 2 ^ 2 ^ size.val = 0 ∧ ((0xA0000 ≤ off ∧ off < 0x100000 ∨ 0x290000 ≤ off ∧ off < 0x400000 ∨ 0x800000 ≤ off ∧ off < 0x1000000 ∨ 0x14C8000 ≤ off ∧ off < 0x1500000 ∨ 0x2800000 ≤ off)))
    ∧ (∃ (p : Port) (off : Nat) (size : Fin 4) (be : BitVec 8) (data : BitVec 64) (s : State), p ∈ [Port.hpp, .dam, .shepherd] ∧ s.portOpen p = true ∧ (s.master p).lvl ≠ 0 ∧ off % 2 ^ size.val = 0 ∧ be.toNat / 2 ^ 2 ^ size.val = 0 ∧ ((0xA0000 ≤ off ∧ off < 0x100000 ∨ 0x290000 ≤ off ∧ off < 0x400000 ∨ 0x800000 ≤ off ∧ off < 0x1000000 ∨ 0x14C8000 ≤ off ∧ off < 0x1500000 ∨ 0x2800000 ≤ off)))
    ∧ (∃ (p : Port) (off : Nat) (size : Fin 4) (s : State), p ∈ [Port.hpp, .dam, .shepherd] ∧ s.portOpen p = true ∧ (s.master p).lvl ≠ 0 ∧ off % 2 ^ size.val = 0 ∧ ((0xA0000 ≤ off ∧ off < 0x100000 ∨ 0x290000 ≤ off ∧ off < 0x400000 ∨ 0x800000 ≤ off ∧ off < 0x1000000 ∨ 0x14C8000 ≤ off ∧ off < 0x1500000 ∨ 0x2800000 ≤ off))) :=
  ⟨⟨.hpp, 0xFFFF8, 3, 255, 5, run, (by decide +kernel), (by decide +kernel), (by decide +kernel), (by decide +kernel), (by decide +kernel), (by decide +kernel)⟩,
    ⟨.shepherd, 0x14C8000, 0, 1, 5, run, (by decide +kernel), (by decide +kernel), (by decide +kernel), (by decide +kernel), (by decide +kernel), (by decide +kernel)⟩,
    ⟨.dam, 0x14FFFFF, 0, run, (by decide +kernel), (by decide +kernel), (by decide +kernel), (by decide +kernel), (by decide +kernel)⟩⟩

/-- States and operands that meet the hypotheses of each clause of `TallyCommandsAndEdges`. -/
theorem test_premises_of_tally_commands_and_edges :
    (∃ (p : Port) (s : State) (w : Word), w = tbCtrlWord true false (s.flag TB_CTRL fTB_CTRL_SEL) ∧ s.takes p TB_CTRL w = true)
    ∧ (∃ (p : Port) (s : State) (w : Word), w = tbCtrlWord false true (s.flag TB_CTRL fTB_CTRL_SEL) ∧ s.takes p TB_CTRL w = true)
    ∧ (∃ (p : Port) (b : Bool) (s : State) (w : Word), w = tbCtrlWord false false b ∧ s.takes p TB_CTRL w = true)
    ∧ (∃ (s : State), s.pw.pll = true ∧ s.live = true)
    ∧ (∃ (s : State), s.pw.fast = true ∧ s.pw.pll = true ∧ s.live = false)
    ∧ (∃ (s : State), (s.pw.fast && s.pw.pll) = false)
    ∧ (∃ (s : State), s.flag TB_STAT fTB_STAT_SRC = true ∧ s.tb.setPend = false ∧ s.tb.resyncPend = false ∧ s.tb.selPend = false ∧ s.tl.slew = 0 ∧ ((s.tb.a ≠ s.tb.b → s.tb.episode = true)))
    ∧ (∃ (s : State), s.flag TB_STAT fTB_STAT_SRC = false ∧ s.pw.fast = false ∧ s.tb.setPend = false ∧ s.tb.resyncPend = false ∧ s.tb.selPend = false ∧ s.tb.a = s.tb.b ∧ s.tb.hold = false)
    ∧ (∃ (s : State), s.flag TB_STAT fTB_STAT_SRC = false ∧ s.pw.fast = false ∧ s.tb.hold = true)
    ∧ (∃ (s : State), s.flag TB_STAT fTB_STAT_SRC = false ∧ s.pw.fast = true ∧ s.pw.pll = true ∧ s.tb.hold = true)
    ∧ (∃ (s : State), s.pw.fast = true ∧ s.pw.pll = true) :=
  ⟨⟨.shepherd, (run.setFld TL_CTRL fTL_CTRL_ROLE 1), (tbCtrlWord true false (((run.setFld TL_CTRL fTL_CTRL_ROLE 1 : State)).flag TB_CTRL fTB_CTRL_SEL)), (by decide +kernel), (by decide +kernel)⟩,
    ⟨.shepherd, run, (tbCtrlWord false true ((run).flag TB_CTRL fTB_CTRL_SEL)), (by decide +kernel), (by decide +kernel)⟩,
    ⟨.shepherd, true, run, (tbCtrlWord false false ((true : Bool))), (by decide +kernel), (by decide +kernel)⟩,
    ⟨(run.setFlag TB_STAT fTB_STAT_SRC true), (by decide +kernel), (by decide +kernel)⟩,
    ⟨({ run with pw := { run.pw with mode := .rest } }), (by decide +kernel), (by decide +kernel), (by decide +kernel)⟩,
    ⟨({ run with pw := { run.pw with pll := false } }), (by decide +kernel)⟩,
    ⟨({ run.setFlag TB_STAT fTB_STAT_SRC true with tb := { run.tb with a := 5, b := 6, episode := true } }), (by decide +kernel), (by decide +kernel), (by decide +kernel), (by decide +kernel), (by decide +kernel), (by decide +kernel)⟩,
    ⟨({ run with pw := { run.pw with mode := .rest, fast := false } }), (by decide +kernel), (by decide +kernel), (by decide +kernel), (by decide +kernel), (by decide +kernel), (by decide +kernel), (by decide +kernel)⟩,
    ⟨({ run with pw := { run.pw with mode := .rest, fast := false }, tb := { run.tb with hold := true } }), (by decide +kernel), (by decide +kernel), (by decide +kernel)⟩,
    ⟨({ run with tb := { run.tb with hold := true } }), (by decide +kernel), (by decide +kernel), (by decide +kernel), (by decide +kernel)⟩,
    ⟨run, (by decide +kernel), (by decide +kernel)⟩⟩

/-- States and operands that meet the hypotheses of each clause of `TallyLinkAndPeerMail`. -/
theorem test_premises_of_tally_link_and_peer_mail :
    (∃ (port : Fin 2) (sym : BitVec 10) (rd : Bool) (valid : Bool) (gap : Nat) (s : State), s.live = true ∧ s.tlEn = true ∧ s.tlState port = 2 ∧ codeViolation sym rd valid = true)
    ∧ (∃ (port : Fin 2) (sym : BitVec 10) (rd : Bool) (valid : Bool) (gap : Nat) (s : State), s.live = true ∧ s.tlEn = true ∧ s.tlState port = 1 ∧ codeViolation sym rd valid = true)
    ∧ (∃ (port : Fin 2) (sym : BitVec 10) (rd : Bool) (valid : Bool) (gap : Nat) (s : State), codeViolation sym rd valid = false)
    ∧ (∃ (port : Fin 2) (s : State), s.live = true ∧ s.tlEn = true ∧ s.tlState port = 0)
    ∧ (∃ (port : Fin 2) (s : State), s.pw.mode = .rest)
    ∧ (∃ (port : Fin 2) (s : State), s.live = true ∧ s.tlEn = true ∧ s.tlState port = 1)
    ∧ (∃ (k0 : Nat) (k1 : Nat) (s : State), s.live = true ∧ s.tlEn = true ∧ s.tlMaster = true ∧ s.tlState 0 = 2 ∧ s.tlState 1 ≠ 2)
    ∧ (∃ (k0 : Nat) (k1 : Nat) (s : State), s.live = true ∧ s.tlEn = true ∧ s.tlMaster = true ∧ s.tlState 0 = 2 ∧ s.tlState 1 = 2)
    ∧ (∃ (f : Frame) (k : Nat) (dt : Nat) (s : State), s.live = true ∧ s.tlCheck (frameAs f 1) = (true, s) ∧ s.tlEn = true ∧ s.tlState f.port = 2 ∧ s.tlMaster = false ∧ f.port.val = s.upport ∧ f.src.toNat ≠ s.tlId ∧ f.dst.toNat = s.tlId ∧ f.dst.toNat ≠ 0xFF ∧ s.tl.exch = none)
    ∧ (∃ (f : Frame) (k : Nat) (s : State), s.live = true ∧ s.tlCheck (frameAs f 2) = (true, s) ∧ s.downstream f.port = true ∧ f.src.toNat ≠ s.tlId ∧ f.dst.toNat = s.tlId ∧ f.dst.toNat ≠ 0xFF ∧ (s.tlp f.port).awaiting = true)
    ∧ (∃ (s : State) (t : Stamp), s.live = true ∧ s.tl.due = some t ∧ reached t s.now = true ∧ s.tlMaster = false ∧ s.tl.missed < 2)
    ∧ (∃ (f : Frame) (k : Nat) (dt : Nat) (s : State), s.live = true ∧ s.tlCheck (frameAs f 3) = (true, s) ∧ f.src.toNat ≠ s.tlId ∧ s.tlMaster = true)
    ∧ (∃ (f : Frame) (k : Nat) (dt : Nat) (s : State), s.live = true ∧ s.tlCheck (frameAs f 3) = (true, s) ∧ f.src.toNat ≠ s.tlId ∧ s.tlMaster = false ∧ f.port.val = s.upport ∧ s.tl.measured = false)
    ∧ (∃ (f : Frame) (k : Nat) (dt : Nat) (s : State), s.live = true ∧ s.tlCheck (frameAs f 3) = (true, s) ∧ f.src.toNat ≠ s.tlId ∧ s.tlMaster = false ∧ f.port.val = s.upport ∧ s.tl.measured = true ∧ s.servo = 1)
    ∧ (∃ (f : Frame) (s : State), s.live = true ∧ s.tlCheck (frameAs f 0x10) = (true, s) ∧ f.src.toNat ≠ s.tlId)
    ∧ (∃ (f : Frame) (s : State) (m : Nat), f.payload.length < 16 ∧ s.live = true ∧ s.tlCheck (frameAs f 0x20) = (true, s) ∧ f.src.toNat ≠ s.tlId ∧ f.dst.toNat = s.tlId ∧ f.dst.toNat ≠ 0xFF ∧ s.peerOf f.src.toNat = none ∧ s.peerFree = some m ∧ tget (fun _ => 0) s.mb.peerLen m = 0)
    ∧ (∃ (f : Frame) (s : State), s.live = true ∧ s.tlCheck (frameAs f 0x20) = (true, s) ∧ f.src.toNat ≠ s.tlId ∧ f.dst.toNat = s.tlId ∧ f.dst.toNat ≠ 0xFF ∧ s.peerOf f.src.toNat = none ∧ s.peerFree = none)
    ∧ (∃ (f : Frame) (s : State) (g : TlFrame), s.live = true ∧ s.tlCheck (frameAs f 0x21) = (true, s) ∧ f.src.toNat ≠ s.tlId ∧ f.dst.toNat = s.tlId ∧ f.dst.toNat ≠ 0xFF ∧ s.flightOf f.src.toNat (bytesNatOf (f.payload.take 2)) = some g ∧ bytesNatOf ((f.payload.drop 2).take 1) ≠ 0)
    ∧ (∃ (s : State) (r : TlRetry), s.live = true ∧ s.tl.retry = [r] ∧ reached r.due s.now = true ∧ s.tlEn = true ∧ s.tlState r.frame.port = 2) :=
  ⟨⟨1, 0, true, true, 255, (tlrun.setTlp 1 { tlrun.tlp 1 with viol := [0, 0], violSeen := true }), (by decide +kernel), (by decide +kernel), (by decide +kernel), (by decide +kernel)⟩,
    ⟨1, 0, true, true, 3, (tlrun.setFld (TL_PSTAT 1) fTL_PSTAT_STATE 1), (by decide +kernel), (by decide +kernel), (by decide +kernel), (by decide +kernel)⟩,
    ⟨1, ((encData 0xBC true).1), true, true, 3, tlrun, (by decide +kernel)⟩,
    ⟨1, (tlrun.setFld (TL_PSTAT 1) fTL_PSTAT_STATE 0), (by decide +kernel), (by decide +kernel), (by decide +kernel)⟩,
    ⟨1, ({ tlrun.setNat EC_WAKE_EN 0x1000 with pw := { run.pw with mode := .rest, fast := false } }), (by decide +kernel)⟩,
    ⟨0, (tlrun.setFld (TL_PSTAT 0) fTL_PSTAT_STATE 1), (by decide +kernel), (by decide +kernel), (by decide +kernel)⟩,
    ⟨3, 4, ((tlrun.setFld TL_CTRL fTL_CTRL_ROLE 1).setFld (TL_PSTAT 1) fTL_PSTAT_STATE 0), (by decide +kernel), (by decide +kernel), (by decide +kernel), (by decide +kernel), (by decide +kernel)⟩,
    ⟨3, 4, (tlrun.setFld TL_CTRL fTL_CTRL_ROLE 1), (by decide +kernel), (by decide +kernel), (by decide +kernel), (by decide +kernel), (by decide +kernel)⟩,
    ⟨(tlf 1 5 7 (List.replicate 16 3)), 3, 9, tlrun, (by decide +kernel), (by decide +kernel), (by decide +kernel), (by decide +kernel), (by decide +kernel), (by decide +kernel), (by decide +kernel), (by decide +kernel), (by decide +kernel), (by decide +kernel)⟩,
    ⟨(tlf 2 5 7 (List.replicate 16 3) 1), 3, (tlrun.setTlp 1 { tlrun.tlp 1 with awaiting := true }), (by decide +kernel), (by decide +kernel), (by decide +kernel), (by decide +kernel), (by decide +kernel), (by decide +kernel), (by decide +kernel)⟩,
    ⟨({ tlrun with tb := { run.tb with a := 6442451 * 2 ^ 32 }, tl := { tlrun.tl with due := some 6442451 } }), 6442451, (by decide +kernel), (by decide +kernel), (by decide +kernel), (by decide +kernel), (by decide +kernel)⟩,
    ⟨(tlf 3 5 0xFF (List.replicate 9 3)), 3, 9, (tlrun.setFld TL_CTRL fTL_CTRL_ROLE 1), (by decide +kernel), (by decide +kernel), (by decide +kernel), (by decide +kernel)⟩,
    ⟨(tlf 3 5 0xFF (List.replicate 9 3)), 3, 9, (tlrun.setFld TL_STAT fTL_STAT_SERVO 1), (by decide +kernel), (by decide +kernel), (by decide +kernel), (by decide +kernel), (by decide +kernel), (by decide +kernel)⟩,
    ⟨(tlf 3 5 0xFF (List.replicate 9 3)), 3, 9, ({ tlrun.setFld TL_STAT fTL_STAT_SERVO 1 with tl := { tlrun.tl with measured := true } }), (by decide +kernel), (by decide +kernel), (by decide +kernel), (by decide +kernel), (by decide +kernel), (by decide +kernel), (by decide +kernel)⟩,
    ⟨(tlf 0x10 5 0xFF (List.replicate 9 3) 0), tlrun, (by decide +kernel), (by decide +kernel), (by decide +kernel)⟩,
    ⟨(tlf 0x20 5 7 [0, 0, 7]), tlrun, 20, (by decide +kernel), (by decide +kernel), (by decide +kernel), (by decide +kernel), (by decide +kernel), (by decide +kernel), (by decide +kernel), (by decide +kernel), (by decide +kernel)⟩,
    ⟨(tlf 0x20 5 7 [0, 0, 7]), (forN (fun i u => u.setFld (MB_STAT (20 + i)) fMB_STAT_STATE 1) 8 tlrun), (by decide +kernel), (by decide +kernel), (by decide +kernel), (by decide +kernel), (by decide +kernel), (by decide +kernel), (by decide +kernel)⟩,
    ⟨(tlf 0x21 5 7 [0, 0, 1]), ({ tlrun with tl := { tlrun.tl with inFlight := [g0] } }), g0, (by decide +kernel), (by decide +kernel), (by decide +kernel), (by decide +kernel), (by decide +kernel), (by decide +kernel), (by decide +kernel)⟩,
    ⟨({ tlrun with tl := { tlrun.tl with retry := [{ frame := g0, due := 0 }] } }), ({ frame := g0, due := 0 }), (by decide +kernel), (by decide +kernel), (by decide +kernel), (by decide +kernel), (by decide +kernel)⟩⟩

/-- States and operands that meet the hypotheses of each clause of `TaskTriggersAndDispatch`. -/
theorem test_premises_of_task_triggers_and_dispatch :
    (∃ (pe : Fin 72) (k : Fin 8) (s : State), s.live = true ∧ s.trig pe k = 2 ∧ (s.slot pe k).armed = true ∧ s.slotState pe k = 1 ∧ reached (s.reg64 (LE_TASK_TIME_LO pe k) (LE_TASK_TIME_HI pe k)) s.now = true ∧ s.nat (LE_TASK_PERIOD pe k) ≠ 0)
    ∧ (∃ (pe : Fin 72) (k : Nat) (s : State), s.mayDispatch pe = true ∧ s.nextSlot pe = some k ∧ s.slotState pe k = 2)
    ∧ (∃ (pe : Fin 72) (k : Nat) (s : State), s.mayDispatch pe = true ∧ s.nextSlot pe = some k ∧ s.slotState pe k = 4)
    ∧ (∃ (pe : Fin 72) (r : Nat) (k : Nat) (s : State), s.live = true ∧ s.leEn pe = true ∧ (s.eng pe).parked = false ∧ (s.eng pe).halted = false ∧ (s.eng pe).haltReq = false ∧ s.running pe = some r ∧ s.nextSlot pe = some k ∧ s.slotState pe k = 2 ∧ s.slotPri pe r < s.slotPri pe k ∧ (s.bank pe (s.slotPri pe r)).micro.mid ≠ 2 ∧ s.fld (LE_PREEMPT_MAX pe) fLE_PREEMPT_MAX_FC < min 65535 (s.fc + 1 - (s.slot pe k).regFc))
    ∧ (∃ (pe : Fin 72) (k : Nat) (s : State), (s.bank pe (s.slotPri pe k)).micro.mid = 0)
    ∧ (∃ (pe : Fin 72) (k : Fin 8) (s : State), s.live = true ∧ s.nat (LE_TASK_DL pe k) ≠ 0 ∧ s.slotState pe k = 3 ∧ (s.slot pe k).missed = false ∧ reached ((s.slot pe k).stamp + .ofNat 64 (s.nat (LE_TASK_DL pe k))) s.now = true ∧ s.flag (LE_TASK_CFG pe k) fLE_TASK_CFG_DLACT = false ∧ s.underTest 0 pe = false ∧ s.hurdleDrops 0 pe = false)
    ∧ (∃ (p : Port) (pe : Fin 72) (k : Fin 8) (s : State), s.takes p (LE_CMD pe) (.ofNat 32 (0x40 + k.val)) = true ∧ s.slotState pe k = 1)
    ∧ (∃ (p : Port) (pe : Fin 72) (k : Fin 8) (s : State), s.takes p (LE_CMD pe) (.ofNat 32 (0x40 + k.val)) = true ∧ s.slotState pe k = 2) :=
  ⟨⟨3, 2, ((((run.setNat (LE_TASK_CFG 3 2) 0x21).setFld (LE_TASK_STAT 3 2) fLE_TASK_STAT_STATE 1).setNat (LE_TASK_PERIOD 3 2) 100).setSlot 3 2 { armed := true }), (by decide +kernel), (by decide +kernel), (by decide +kernel), (by decide +kernel), (by decide +kernel), (by decide +kernel)⟩,
    ⟨3, 2, ((((run.setNat (LE_CTRL 3) 1).setNat (LE_TASK_ENTRY 3 2) 0x100010).setFld (LE_TASK_STAT 3 2) fLE_TASK_STAT_STATE 2).setSlot 3 2 { stamp := 77 }), (by decide +kernel), (by decide +kernel), (by decide +kernel)⟩,
    ⟨3, 2, (((run.setNat (LE_CTRL 3) 1).setFld (LE_TASK_STAT 3 2) fLE_TASK_STAT_STATE 4)), (by decide +kernel), (by decide +kernel), (by decide +kernel)⟩,
    ⟨3, 1, 2, (((((run.setNat (LE_CTRL 3) 1).setFld (LE_TASK_STAT 3 2) fLE_TASK_STAT_STATE 2).setNat (LE_TASK_CFG 3 2) 5).setFld (LE_TASK_STAT 3 1) fLE_TASK_STAT_STATE 3)), (by decide +kernel), (by decide +kernel), (by decide +kernel), (by decide +kernel), (by decide +kernel), (by decide +kernel), (by decide +kernel), (by decide +kernel), (by decide +kernel), (by decide +kernel), (by decide +kernel)⟩,
    ⟨3, 2, run, (by decide +kernel)⟩,
    ⟨3, 2, ((run.setNat (LE_TASK_DL 3 2) 5).setFld (LE_TASK_STAT 3 2) fLE_TASK_STAT_STATE 3 |>.setSlot 3 2 { stamp := (-6 : BitVec 64) }), (by decide +kernel), (by decide +kernel), (by decide +kernel), (by decide +kernel), (by decide +kernel), (by decide +kernel), (by decide +kernel), (by decide +kernel)⟩,
    ⟨.shepherd, 3, 2, (run.setFld (LE_TASK_STAT 3 2) fLE_TASK_STAT_STATE 1), (by decide +kernel), (by decide +kernel)⟩,
    ⟨.shepherd, 3, 2, (run.setFld (LE_TASK_STAT 3 2) fLE_TASK_STAT_STATE 2), (by decide +kernel), (by decide +kernel)⟩⟩

/-- States and operands that meet the hypotheses of each clause of `TaskCommands`. -/
theorem test_premises_of_task_commands :
    (∃ (p : Port) (pe : Fin 72) (s : State), s.takes p (LE_CMD pe) 0x10 = true)
    ∧ (∃ (p : Port) (pe : Fin 72) (k : Fin 8) (s : State), s.takes p (LE_CMD pe) (.ofNat 32 (0x20 + k.val)) = true ∧ s.slotState pe k = 5 ∧ s.taskEn pe k = true ∧ (s.slot pe k).pend = none ∧ s.trig pe k ≠ 0 ∧ s.trig pe k ≠ 3)
    ∧ (∃ (p : Port) (pe : Fin 72) (k : Fin 8) (s : State), s.takes p (LE_CMD pe) (.ofNat 32 (0x20 + k.val)) = true ∧ s.slotState pe k ≠ 5)
    ∧ (∃ (p : Port) (pe : Fin 72) (s : State), s.takes p (LE_CMD pe) 0x30 = true ∧ s.leFaulted pe = false ∧ (s.eng pe).parked = true ∧ s.running pe = none)
    ∧ (∃ (p : Port) (pe : Fin 72) (k : Nat) (s : State), s.takes p (LE_CMD pe) 0x30 = true ∧ s.leFaulted pe = false ∧ (s.eng pe).parked = true ∧ s.running pe = some k ∧ (s.slot pe k).missed = false)
    ∧ (∃ (p : Port) (pe : Fin 72) (s : State), s.takes p (LE_CMD pe) 0x30 = true ∧ s.leFaulted pe = true)
    ∧ (∃ (p : Port) (pe : Fin 72) (s : State), s.takes p (LE_CTRL pe) 1 = true ∧ s.leEn pe = false ∧ s.notClean (s.leFlock pe) = false)
    ∧ (∃ (p : Port) (pe : Fin 72) (s : State), s.takes p (LE_CTRL pe) 1 = true ∧ s.leEn pe = false ∧ s.notClean (s.leFlock pe) = true)
    ∧ (∃ (p : Port) (pe : Fin 72) (s : State), s.takes p (LE_CTRL pe) 0 = true)
    ∧ (∃ (p : Port) (pe : Fin 72) (k : Fin 8) (v : Word) (s : State), s.takes p (LE_TASK_CFG pe k) v = true ∧ s.slotState pe k = 0 ∧ vbit v 0 = true ∧ vfld v 4 2 = 2)
    ∧ (∃ (p : Port) (pe : Fin 72) (k : Fin 8) (v : Word) (s : State), s.takes p (LE_TASK_CFG pe k) v = true ∧ s.slotState pe k ≠ 0 ∧ s.nat (LE_TASK_CFG pe k) / 2 ≠ v.toNat / 2)
    ∧ (∃ (p : Port) (pe : Fin 72) (k : Fin 8) (hi : Bool) (v : Word) (s : State), s.takes p (if hi then LE_TASK_TIME_HI pe k else LE_TASK_TIME_LO pe k) v = true ∧ s.slotState pe k = 1)
    ∧ (∃ (p : Port) (pe : Fin 72) (k : Fin 8) (hi : Bool) (v : Word) (s : State), s.takes p (if hi then LE_TASK_TIME_HI pe k else LE_TASK_TIME_LO pe k) v = true ∧ s.slotState pe k = 3 ∧ v ≠ s.reg (if hi then LE_TASK_TIME_HI pe k else LE_TASK_TIME_LO pe k)) :=
  ⟨⟨.shepherd, 3, (run.setNat (LE_FAULT 3) 0x2011), (by decide +kernel)⟩,
    ⟨.shepherd, 3, 2, (((run.setFld (LE_TASK_STAT 3 2) fLE_TASK_STAT_STATE 5).setNat (LE_TASK_CFG 3 2) 0x11)), (by decide +kernel), (by decide +kernel), (by decide +kernel), (by decide +kernel), (by decide +kernel), (by decide +kernel)⟩,
    ⟨.shepherd, 3, 2, run, (by decide +kernel), (by decide +kernel)⟩,
    ⟨.shepherd, 3, (run.setEng 3 { parked := true }), (by decide +kernel), (by decide +kernel), (by decide +kernel), (by decide +kernel)⟩,
    ⟨.shepherd, 3, 2, ((run.setEng 3 { parked := true }).setFld (LE_TASK_STAT 3 2) fLE_TASK_STAT_STATE 3), (by decide +kernel), (by decide +kernel), (by decide +kernel), (by decide +kernel), (by decide +kernel)⟩,
    ⟨.shepherd, 3, (run.setNat (LE_FAULT 3) 1), (by decide +kernel), (by decide +kernel)⟩,
    ⟨.shepherd, 3, run, (by decide +kernel), (by decide +kernel), (by decide +kernel)⟩,
    ⟨.shepherd, 3, (run.setFlag (FLK_STAT 0) fFLK_STAT_CLEAN false), (by decide +kernel), (by decide +kernel), (by decide +kernel)⟩,
    ⟨.shepherd, 3, (run.setNat (LE_CTRL 3) 1), (by decide +kernel)⟩,
    ⟨.shepherd, 3, 2, 0x21, run, (by decide +kernel), (by decide +kernel), (by decide +kernel), (by decide +kernel)⟩,
    ⟨.shepherd, 3, 2, 0x21, (run.setFld (LE_TASK_STAT 3 2) fLE_TASK_STAT_STATE 1), (by decide +kernel), (by decide +kernel), (by decide +kernel)⟩,
    ⟨.shepherd, 3, 2, true, 5, (run.setFld (LE_TASK_STAT 3 2) fLE_TASK_STAT_STATE 1), (by decide +kernel), (by decide +kernel)⟩,
    ⟨.shepherd, 3, 2, false, 5, (run.setFld (LE_TASK_STAT 3 2) fLE_TASK_STAT_STATE 3), (by decide +kernel), (by decide +kernel), (by decide +kernel)⟩⟩

/-- States and operands that meet the hypotheses of each clause of `EnginePaths`. -/
theorem test_premises_of_engine_paths :
    (∃ (p : Fin 72) (e : BufStore) (t : List BufStore) (s : State), (s.eng p).stores = e :: t)
    ∧ (∃ (e : BufStore) (t : List BufStore) (s : State), s.sh.stores = e :: t)
    ∧ (∃ (p : Fin 72) (e : BufStore) (t : List BufStore) (s : State), s.live = true ∧ (s.eng p).stores = e :: t ∧ s.underTest 0 p = false ∧ s.hurdleDrops 0 p = false)
    ∧ (∃ (p : Fin 72) (b : Fin 4) (code : Fin 4) (data : BitVec 64) (lw : LoadWait) (s : State), s.live = true ∧ (s.bank p b).wait = some lw ∧ lw.resp = none ∧ lw.kind ≠ 0 ∧ s.kReady (.eng p) = false)
    ∧ (∃ (p : Fin 72) (b : Fin 4) (code : Fin 4) (data : BitVec 64) (lw : LoadWait) (s : State), s.live = true ∧ (s.bank p b).wait = some lw ∧ lw.resp = none ∧ lw.kind ≠ 0 ∧ s.kReady (.eng p) = true ∧ s.runBank p = b.val ∧ lw.micro = false)
    ∧ (∃ (p : Fin 72) (b : Fin 4) (code : Fin 4) (data : BitVec 64) (lw : LoadWait) (s : State), s.live = true ∧ (s.bank p b).wait = some lw ∧ lw.resp = none ∧ lw.kind = 0 ∧ (s.eng p).path = [] ∧ (s.windowAccess p lw).2.2.kReady (.eng p) = false)
    ∧ (∃ (p : Fin 72) (b : Fin 4) (code : Fin 4) (data : BitVec 64) (lw : LoadWait) (s : State), (s.bank p b).wait = some lw ∧ lw.kind = 0 ∧ (s.eng p).path ≠ [])
    ∧ (∃ (p : Fin 72) (e : PathStore) (t : List PathStore) (s : State), s.live = true ∧ (s.eng p).path = e :: t ∧ e.inc ≠ s.flockInc e.flock)
    ∧ (∃ (p : Fin 72) (e : PathStore) (t : List PathStore) (s : State), s.live = true ∧ (s.eng p).path = e :: t ∧ e.inc = s.flockInc e.flock)
    ∧ (∃ (cl : Fin 8) (r : RankReq) (t : List RankReq) (s : State), s.live = true ∧ tget (fun _ => []) s.ranks cl = r :: t ∧ (s.samplesLeave (fun n => s.routeQueue n == some (4 * (s.rankReadAll cl r).eng + ((s.rankReadAll cl r).got.getD {}).inbox))).live = true ∧ (s.samplesLeave (fun n => s.routeQueue n == some (4 * (s.rankReadAll cl r).eng + ((s.rankReadAll cl r).got.getD {}).inbox))).qBusy (4 * (s.rankReadAll cl r).eng + ((s.rankReadAll cl r).got.getD {}).inbox) = false ∧ ((s.samplesLeave (fun n => s.routeQueue n == some (4 * (s.rankReadAll cl r).eng + ((s.rankReadAll cl r).got.getD {}).inbox))).qEn (4 * (s.rankReadAll cl r).eng + ((s.rankReadAll cl r).got.getD {}).inbox) && decide ((s.samplesLeave (fun n => s.routeQueue n == some (4 * (s.rankReadAll cl r).eng + ((s.rankReadAll cl r).got.getD {}).inbox))).qDepth (4 * (s.rankReadAll cl r).eng + ((s.rankReadAll cl r).got.getD {}).inbox) ≤ (s.samplesLeave (fun n => s.routeQueue n == some (4 * (s.rankReadAll cl r).eng + ((s.rankReadAll cl r).got.getD {}).inbox))).qLevel (4 * (s.rankReadAll cl r).eng + ((s.rankReadAll cl r).got.getD {}).inbox))) = false ∧ rankStatus ((s.rankReadAll cl r).got.getD {}) (s.rankReadAll cl r).pois = 0)
    ∧ (∃ (cl : Fin 8) (r : RankReq) (t : List RankReq) (s : State), s.live = true ∧ tget (fun _ => []) s.ranks cl = r :: t ∧ (s.samplesLeave (fun n => s.routeQueue n == some (4 * (s.rankReadAll cl r).eng + ((s.rankReadAll cl r).got.getD {}).inbox))).live = true ∧ (s.samplesLeave (fun n => s.routeQueue n == some (4 * (s.rankReadAll cl r).eng + ((s.rankReadAll cl r).got.getD {}).inbox))).qBusy (4 * (s.rankReadAll cl r).eng + ((s.rankReadAll cl r).got.getD {}).inbox) = false ∧ ((s.samplesLeave (fun n => s.routeQueue n == some (4 * (s.rankReadAll cl r).eng + ((s.rankReadAll cl r).got.getD {}).inbox))).qEn (4 * (s.rankReadAll cl r).eng + ((s.rankReadAll cl r).got.getD {}).inbox) && decide ((s.samplesLeave (fun n => s.routeQueue n == some (4 * (s.rankReadAll cl r).eng + ((s.rankReadAll cl r).got.getD {}).inbox))).qDepth (4 * (s.rankReadAll cl r).eng + ((s.rankReadAll cl r).got.getD {}).inbox) ≤ (s.samplesLeave (fun n => s.routeQueue n == some (4 * (s.rankReadAll cl r).eng + ((s.rankReadAll cl r).got.getD {}).inbox))).qLevel (4 * (s.rankReadAll cl r).eng + ((s.rankReadAll cl r).got.getD {}).inbox))) = false ∧ rankStatus ((s.rankReadAll cl r).got.getD {}) (s.rankReadAll cl r).pois ≠ 0)
    ∧ (∃ (cl : Fin 8) (r : RankReq) (t : List RankReq) (s : State), s.live = true ∧ tget (fun _ => []) s.ranks cl = r :: t ∧ (s.samplesLeave (fun n => s.routeQueue n == some (4 * (s.rankReadAll cl r).eng + ((s.rankReadAll cl r).got.getD {}).inbox))).qEn (4 * (s.rankReadAll cl r).eng + ((s.rankReadAll cl r).got.getD {}).inbox) = true ∧ (s.samplesLeave (fun n => s.routeQueue n == some (4 * (s.rankReadAll cl r).eng + ((s.rankReadAll cl r).got.getD {}).inbox))).qDepth (4 * (s.rankReadAll cl r).eng + ((s.rankReadAll cl r).got.getD {}).inbox) ≤ (s.samplesLeave (fun n => s.routeQueue n == some (4 * (s.rankReadAll cl r).eng + ((s.rankReadAll cl r).got.getD {}).inbox))).qLevel (4 * (s.rankReadAll cl r).eng + ((s.rankReadAll cl r).got.getD {}).inbox))
    ∧ (∃ (p : Port) (pe : Fin 72) (v : Word) (s : State), s.takes p (CS_WADDR pe) (fCS_WADDR_GO.put v 1) = true ∧ isWcs (vfld v 0 13) = true ∧ s.leState pe = 0 ∧ vbit v 16 = true)
    ∧ (∃ (p : Port) (pe : Fin 72) (v : Word) (s : State), s.takes p (CS_WADDR pe) (fCS_WADDR_GO.put v 1) = true ∧ isRom (vfld v 0 13) = true)
    ∧ (∃ (p : Port) (pe : Fin 72) (v : Word) (s : State), s.takes p (CS_RADDR pe) (fCS_RADDR_GO.put v 1) = true) :=
  ⟨⟨3, ({ addr := 0x90, bytes := [1, 2, 3, 4] }), ([]), (run.setEng 3 { stores := [{ addr := 0x90, bytes := [1, 2, 3, 4] }] }), (by decide +kernel)⟩,
    ⟨({ addr := 0x90, bytes := [1, 2, 3, 4] }), ([]), ({ run with sh := { run.sh with stores := [{ addr := 0x90, bytes := [1, 2, 3, 4] }] } }), (by decide +kernel)⟩,
    ⟨3, ({ addr := 0x90, bytes := [1, 2, 3, 4], slot := 2, eaddr := 0x800090 }), ([]), (run.setEng 3 { stores := [{ addr := 0x90, bytes := [1, 2, 3, 4], slot := 2, eaddr := 0x800090 }] }), (by decide +kernel), (by decide +kernel), (by decide +kernel), (by decide +kernel)⟩,
    ⟨3, 1, 0, 5, ({ kind := 1 }), (run.setBank 3 1 { wait := some { kind := 1 } }), (by decide +kernel), (by decide +kernel), (by decide +kernel), (by decide +kernel), (by decide +kernel)⟩,
    ⟨3, 1, 0, 5, ({ kind := 1, nextPc := 0x100004 }), (((run.setBank 3 1 { wait := some { kind := 1, nextPc := 0x100004 } }).setFld (LE_TASK_STAT 3 2) fLE_TASK_STAT_STATE 3 |>.setNat (LE_TASK_CFG 3 2) 3).setNat (LE_CTRL 3) 1), (by decide +kernel), (by decide +kernel), (by decide +kernel), (by decide +kernel), (by decide +kernel), (by decide +kernel), (by decide +kernel)⟩,
    ⟨3, 1, 0, 5, ({ kind := 0 }), (run.setBank 3 1 { wait := some { kind := 0 } }), (by decide +kernel), (by decide +kernel), (by decide +kernel), (by decide +kernel), (by decide +kernel), (by decide +kernel)⟩,
    ⟨3, 1, 0, 5, ({ kind := 0 }), ((run.setEng 3 { path := [{ eaddr := 0x400000 }] }).setBank 3 1 { wait := some { kind := 0 } }), (by decide +kernel), (by decide +kernel), (by decide +kernel)⟩,
    ⟨3, ({ inc := 1 }), ([]), (run.setEng 3 { path := [{ inc := 1 }] }), (by decide +kernel), (by decide +kernel), (by decide +kernel)⟩,
    ⟨3, ({ eaddr := 0x400000 }), ([]), (run.setEng 3 { path := [{ eaddr := 0x400000 }] }), (by decide +kernel), (by decide +kernel), (by decide +kernel)⟩,
    ⟨0, ({ eng := 2, desc := 0 }), ([]), ((({ run with ranks := [(0, [{ eng := 2, desc := 0 }])] }.setMword 0x1500008 2).setMword 0x1500000 0x100).setMword 0x1500004 0x200 |>.setMword 0x1500100 5), (by decide +kernel), (by decide +kernel), (by decide +kernel), (by decide +kernel), (by decide +kernel), (by decide +kernel)⟩,
    ⟨0, ({ eng := 2 }), ([]), ({ run with ranks := [(0, [{ eng := 2 }])] }), (by decide +kernel), (by decide +kernel), (by decide +kernel), (by decide +kernel), (by decide +kernel), (by decide +kernel)⟩,
    ⟨0, ({ eng := 2 }), ([]), ((({ run with ranks := [(0, [{ eng := 2 }])] }.setFld (QF_QCFG 8) fQF_QCFG_DEPTH 4).setFlag (QF_QCFG 8) fQF_QCFG_EN true).setNat (QF_QLVL 8) 4), (by decide +kernel), (by decide +kernel), (by decide +kernel), (by decide +kernel)⟩,
    ⟨.shepherd, 3, 0x11800, run, (by decide +kernel), (by decide +kernel), (by decide +kernel), (by decide +kernel)⟩,
    ⟨.shepherd, 3, 0x10000, run, (by decide +kernel), (by decide +kernel)⟩,
    ⟨.shepherd, 3, 0x1800, run, (by decide +kernel)⟩⟩

/-- States and operands that meet the hypotheses of each clause of `KamynArithmetic`. -/
theorem test_premises_of_kamyn_arithmetic :
    (∃ (c : Core) (w : Word) (s : State) (t : State) (rd : Nat) (ra : Nat) (rb : Nat) (x : Bool), s.fetched c w = some t ∧ kOp w = some (.alu 0x00 rd ra rb x))
    ∧ (∃ (c : Core) (w : Word) (s : State) (t : State) (rd : Nat) (ra : Nat) (rb : Nat) (x : Bool), s.fetched c w = some t ∧ kOp w = some (.alu 0x01 rd ra rb x))
    ∧ (∃ (c : Core) (w : Word) (s : State) (t : State) (rd : Nat) (ra : Nat) (rb : Nat) (x : Bool), s.fetched c w = some t ∧ kOp w = some (.alu 0x02 rd ra rb x))
    ∧ (∃ (c : Core) (w : Word) (s : State) (t : State) (rd : Nat) (ra : Nat) (rb : Nat) (x : Bool), s.fetched c w = some t ∧ kOp w = some (.alu 0x03 rd ra rb x))
    ∧ (∃ (c : Core) (w : Word) (s : State) (t : State) (rd : Nat) (ra : Nat) (rb : Nat) (x : Bool), s.fetched c w = some t ∧ kOp w = some (.alu 0x04 rd ra rb x))
    ∧ (∃ (c : Core) (w : Word) (s : State) (t : State) (rd : Nat) (ra : Nat) (rb : Nat) (x : Bool), s.fetched c w = some t ∧ kOp w = some (.alu 0x05 rd ra rb x))
    ∧ (∃ (c : Core) (w : Word) (s : State) (t : State) (rd : Nat) (ra : Nat) (rb : Nat) (x : Bool), s.fetched c w = some t ∧ kOp w = some (.alu 0x06 rd ra rb x))
    ∧ (∃ (c : Core) (w : Word) (s : State) (t : State) (rd : Nat) (ra : Nat) (rb : Nat) (x : Bool), s.fetched c w = some t ∧ kOp w = some (.alu 0x07 rd ra rb x))
    ∧ (∃ (c : Core) (w : Word) (s : State) (t : State) (rd : Nat) (ra : Nat) (rb : Nat) (x : Bool), s.fetched c w = some t ∧ kOp w = some (.alu 0x08 rd ra rb x))
    ∧ (∃ (c : Core) (w : Word) (s : State) (t : State) (rd : Nat) (ra : Nat) (rb : Nat) (x : Bool), s.fetched c w = some t ∧ kOp w = some (.alu 0x09 rd ra rb x))
    ∧ (∃ (c : Core) (w : Word) (s : State) (t : State) (rd : Nat) (ra : Nat) (rb : Nat) (x : Bool), s.fetched c w = some t ∧ kOp w = some (.alu 0x0A rd ra rb x))
    ∧ (∃ (c : Core) (w : Word) (s : State) (t : State) (rd : Nat) (ra : Nat) (rb : Nat) (x : Bool), s.fetched c w = some t ∧ kOp w = some (.alu 0x0B rd ra rb x))
    ∧ (∃ (c : Core) (w : Word) (s : State) (t : State) (rd : Nat) (ra : Nat) (rb : Nat) (x : Bool), s.fetched c w = some t ∧ kOp w = some (.alu 0x0C rd ra rb x) ∧ isD ra = true)
    ∧ (∃ (c : Core) (w : Word) (s : State) (t : State) (rd : Nat) (ra : Nat) (rb : Nat) (x : Bool), s.fetched c w = some t ∧ kOp w = some (.alu 0x0D rd ra rb x)) :=
  ⟨⟨(.eng 3), (kEnc 0 (.alu 0x00 1 2 3 false)), krun, krun, 1, 2, 3, false, (by decide +kernel), (by decide +kernel)⟩,
    ⟨(.eng 3), (kEnc 0 (.alu 0x01 1 2 3 false)), krun, krun, 1, 2, 3, false, (by decide +kernel), (by decide +kernel)⟩,
    ⟨(.eng 3), (kEnc 0 (.alu 0x02 1 0 3 false)), krun, krun, 1, 0, 3, false, (by decide +kernel), (by decide +kernel)⟩,
    ⟨(.eng 3), (kEnc 0 (.alu 0x03 1 0 3 false)), krun, krun, 1, 0, 3, false, (by decide +kernel), (by decide +kernel)⟩,
    ⟨(.eng 3), (kEnc 0 (.alu 0x04 1 2 3 false)), krun, krun, 1, 2, 3, false, (by decide +kernel), (by decide +kernel)⟩,
    ⟨(.eng 3), (kEnc 0 (.alu 0x05 1 2 3 false)), krun, krun, 1, 2, 3, false, (by decide +kernel), (by decide +kernel)⟩,
    ⟨(.eng 3), (kEnc 0 (.alu 0x06 1 2 3 false)), krun, krun, 1, 2, 3, false, (by decide +kernel), (by decide +kernel)⟩,
    ⟨(.eng 3), (kEnc 0 (.alu 0x07 1 2 3 false)), krun, krun, 1, 2, 3, false, (by decide +kernel), (by decide +kernel)⟩,
    ⟨(.eng 3), (kEnc 0 (.alu 0x08 1 2 3 false)), krun, krun, 1, 2, 3, false, (by decide +kernel), (by decide +kernel)⟩,
    ⟨(.eng 3), (kEnc 0 (.alu 0x09 1 2 3 false)), krun, krun, 1, 2, 3, false, (by decide +kernel), (by decide +kernel)⟩,
    ⟨(.eng 3), (kEnc 0 (.alu 0x0A 1 2 3 false)), krun, krun, 1, 2, 3, false, (by decide +kernel), (by decide +kernel)⟩,
    ⟨(.eng 3), (kEnc 0 (.alu 0x0B 1 2 3 false)), krun, krun, 1, 2, 3, false, (by decide +kernel), (by decide +kernel)⟩,
    ⟨(.eng 3), (kEnc 0 (.alu 0x0C 1 2 4 false)), krun, krun, 1, 2, 4, false, (by decide +kernel), (by decide +kernel), (by decide +kernel)⟩,
    ⟨(.eng 3), (kEnc 0 (.alu 0x0D 1 0 3 false)), krun, krun, 1, 0, 3, false, (by decide +kernel), (by decide +kernel)⟩⟩

/-- States and operands that meet the hypotheses of each clause of `KamynLogic`. -/
theorem test_premises_of_kamyn_logic :
    (∃ (c : Core) (w : Word) (s : State) (t : State) (rd : Nat) (ra : Nat) (rb : Nat) (x : Bool), s.fetched c w = some t ∧ kOp w = some (.alu 0x10 rd ra rb x))
    ∧ (∃ (c : Core) (w : Word) (s : State) (t : State) (rd : Nat) (ra : Nat) (rb : Nat) (x : Bool), s.fetched c w = some t ∧ kOp w = some (.alu 0x11 rd ra rb x))
    ∧ (∃ (c : Core) (w : Word) (s : State) (t : State) (rd : Nat) (ra : Nat) (rb : Nat) (x : Bool), s.fetched c w = some t ∧ kOp w = some (.alu 0x12 rd ra rb x))
    ∧ (∃ (c : Core) (w : Word) (s : State) (t : State) (rd : Nat) (ra : Nat) (rb : Nat) (x : Bool), s.fetched c w = some t ∧ kOp w = some (.alu 0x13 rd ra rb x))
    ∧ (∃ (c : Core) (w : Word) (s : State) (t : State) (rd : Nat) (ra : Nat) (rb : Nat) (x : Bool), s.fetched c w = some t ∧ kOp w = some (.alu 0x14 rd ra rb x))
    ∧ (∃ (c : Core) (w : Word) (s : State) (t : State) (rd : Nat) (ra : Nat) (rb : Nat) (x : Bool), s.fetched c w = some t ∧ kOp w = some (.alu 0x18 rd ra rb x))
    ∧ (∃ (c : Core) (w : Word) (s : State) (t : State) (rd : Nat) (ra : Nat) (rb : Nat) (x : Bool), s.fetched c w = some t ∧ kOp w = some (.alu 0x19 rd ra rb x))
    ∧ (∃ (c : Core) (w : Word) (s : State) (t : State) (rd : Nat) (ra : Nat) (rb : Nat) (x : Bool), s.fetched c w = some t ∧ kOp w = some (.alu 0x1A rd ra rb x)) :=
  ⟨⟨(.eng 3), (kEnc 0 (.alu 0x10 1 2 3 false)), krun, krun, 1, 2, 3, false, (by decide +kernel), (by decide +kernel)⟩,
    ⟨(.eng 3), (kEnc 0 (.alu 0x11 1 2 3 false)), krun, krun, 1, 2, 3, false, (by decide +kernel), (by decide +kernel)⟩,
    ⟨(.eng 3), (kEnc 0 (.alu 0x12 1 2 3 false)), krun, krun, 1, 2, 3, false, (by decide +kernel), (by decide +kernel)⟩,
    ⟨(.eng 3), (kEnc 0 (.alu 0x13 1 2 3 false)), krun, krun, 1, 2, 3, false, (by decide +kernel), (by decide +kernel)⟩,
    ⟨(.eng 3), (kEnc 0 (.alu 0x14 1 0 3 false)), krun, krun, 1, 0, 3, false, (by decide +kernel), (by decide +kernel)⟩,
    ⟨(.eng 3), (kEnc 0 (.alu 0x18 1 2 3 false)), krun, krun, 1, 2, 3, false, (by decide +kernel), (by decide +kernel)⟩,
    ⟨(.eng 3), (kEnc 0 (.alu 0x19 1 2 3 false)), krun, krun, 1, 2, 3, false, (by decide +kernel), (by decide +kernel)⟩,
    ⟨(.eng 3), (kEnc 0 (.alu 0x1A 1 2 3 false)), krun, krun, 1, 2, 3, false, (by decide +kernel), (by decide +kernel)⟩⟩

/-- States and operands that meet the hypotheses of each clause of `ComparesWriteOneOrZero`. -/
theorem test_premises_of_compares_write_one_or_zero :
    (∃ (c : Core) (w : Word) (s : State) (t : State) (rd : Nat) (ra : Nat) (rb : Nat) (x : Bool), s.fetched c w = some t ∧ kOp w = some (.alu 0x20 rd ra rb x))
    ∧ (∃ (c : Core) (w : Word) (s : State) (t : State) (rd : Nat) (ra : Nat) (rb : Nat) (x : Bool), s.fetched c w = some t ∧ kOp w = some (.alu 0x21 rd ra rb x))
    ∧ (∃ (c : Core) (w : Word) (s : State) (t : State) (rd : Nat) (ra : Nat) (rb : Nat) (x : Bool), s.fetched c w = some t ∧ kOp w = some (.alu 0x22 rd ra rb x))
    ∧ (∃ (c : Core) (w : Word) (s : State) (t : State) (rd : Nat) (ra : Nat) (rb : Nat) (x : Bool), s.fetched c w = some t ∧ kOp w = some (.alu 0x23 rd ra rb x))
    ∧ (∃ (c : Core) (w : Word) (s : State) (t : State) (rd : Nat) (ra : Nat) (rb : Nat) (x : Bool), s.fetched c w = some t ∧ kOp w = some (.alu 0x24 rd ra rb x))
    ∧ (∃ (c : Core) (w : Word) (s : State) (t : State) (rd : Nat) (ra : Nat) (rb : Nat) (x : Bool), s.fetched c w = some t ∧ kOp w = some (.alu 0x25 rd ra rb x))
    ∧ (∃ (c : Core) (w : Word) (s : State) (t : State) (rd : Nat) (ra : Nat) (rb : Nat) (x : Bool), s.fetched c w = some t ∧ kOp w = some (.alu 0x26 rd ra rb x)) :=
  ⟨⟨(.eng 3), (kEnc 0 (.alu 0x20 1 2 3 false)), krun, krun, 1, 2, 3, false, (by decide +kernel), (by decide +kernel)⟩,
    ⟨(.eng 3), (kEnc 0 (.alu 0x21 1 2 3 false)), krun, krun, 1, 2, 3, false, (by decide +kernel), (by decide +kernel)⟩,
    ⟨(.eng 3), (kEnc 0 (.alu 0x22 1 2 3 false)), krun, krun, 1, 2, 3, false, (by decide +kernel), (by decide +kernel)⟩,
    ⟨(.eng 3), (kEnc 0 (.alu 0x23 1 2 3 false)), krun, krun, 1, 2, 3, false, (by decide +kernel), (by decide +kernel)⟩,
    ⟨(.eng 3), (kEnc 0 (.alu 0x24 1 2 3 false)), krun, krun, 1, 2, 3, false, (by decide +kernel), (by decide +kernel)⟩,
    ⟨(.eng 3), (kEnc 0 (.alu 0x25 1 2 3 false)), krun, krun, 1, 2, 3, false, (by decide +kernel), (by decide +kernel)⟩,
    ⟨(.eng 3), (kEnc 0 (.alu 0x26 1 2 3 false)), krun, krun, 1, 2, 3, false, (by decide +kernel), (by decide +kernel)⟩⟩

/-- States and operands that meet the hypotheses of each clause of `KamynImmediatesAndMoves`. -/
theorem test_premises_of_kamyn_immediates_and_moves :
    (∃ (c : Core) (w : Word) (s : State) (t : State) (rd : Nat) (v : Nat), s.fetched c w = some t ∧ kOp w = some (.alui 2 rd v))
    ∧ (∃ (c : Core) (w : Word) (s : State) (t : State) (rd : Nat) (v : Nat), s.fetched c w = some t ∧ kOp w = some (.alui 3 rd v))
    ∧ (∃ (c : Core) (w : Word) (s : State) (t : State) (rd : Nat) (v : Nat), s.fetched c w = some t ∧ kOp w = some (.alui 4 rd v))
    ∧ (∃ (c : Core) (w : Word) (s : State) (t : State) (rd : Nat) (v : Nat), s.fetched c w = some t ∧ kOp w = some (.alui 5 rd v))
    ∧ (∃ (c : Core) (w : Word) (s : State) (t : State) (rd : Nat) (v : Nat), s.fetched c w = some t ∧ kOp w = some (.alui 6 rd v))
    ∧ (∃ (c : Core) (w : Word) (s : State) (t : State) (rd : Nat) (v : Nat), s.fetched c w = some t ∧ kOp w = some (.alui 7 rd v))
    ∧ (∃ (c : Core) (w : Word) (s : State) (t : State) (rd : Nat) (v : Nat), s.fetched c w = some t ∧ kOp w = some (.alui 0 rd v))
    ∧ (∃ (c : Core) (w : Word) (s : State) (t : State) (rd : Nat) (v : Nat), s.fetched c w = some t ∧ kOp w = some (.imm 0 rd v))
    ∧ (∃ (c : Core) (w : Word) (s : State) (t : State) (rd : Nat) (v : Nat), s.fetched c w = some t ∧ kOp w = some (.imm 1 rd v))
    ∧ (∃ (c : Core) (w : Word) (s : State) (t : State) (rd : Nat) (v : Nat), s.fetched c w = some t ∧ kOp w = some (.alui 1 rd v))
    ∧ (∃ (c : Core) (w : Word) (s : State) (t : State) (rd : Nat) (v : Nat), s.fetched c w = some t ∧ kOp w = some (.imm 2 rd v) ∧ isD rd = true)
    ∧ (∃ (c : Core) (w : Word) (s : State) (t : State) (rd : Nat) (v : Nat), s.fetched c w = some t ∧ kOp w = some (.imm 2 rd v) ∧ isD rd = false)
    ∧ (∃ (c : Core) (w : Word) (s : State) (t : State) (rd : Nat) (v : Nat), s.fetched c w = some t ∧ kOp w = some (.imm 3 rd v))
    ∧ (∃ (c : Core) (w : Word) (s : State) (t : State) (rd : Nat) (rs : Nat), s.fetched c w = some t ∧ kOp w = some (.mov rd rs) ∧ isD rs = true ∧ isAC rd = true)
    ∧ (∃ (c : Core) (w : Word) (s : State) (t : State) (rd : Nat) (rs : Nat), s.fetched c w = some t ∧ kOp w = some (.mov rd rs) ∧ isAC rs = true ∧ isD rd = true)
    ∧ (∃ (c : Core) (w : Word) (s : State) (t : State) (rd : Nat) (rs : Nat), s.fetched c w = some t ∧ kOp w = some (.mov rd rs) ∧ isAC rd = isAC rs)
    ∧ (∃ (c : Core) (w : Word) (s : State) (t : State) (rd : Nat) (ra : Nat) (rb : Nat), s.fetched c w = some t ∧ kOp w = some (.addr 0 rd ra rb))
    ∧ (∃ (c : Core) (w : Word) (s : State) (t : State) (rd : Nat) (ra : Nat) (rb : Nat), s.fetched c w = some t ∧ kOp w = some (.addr 1 rd ra rb))
    ∧ (∃ (c : Core) (w : Word) (s : State) (t : State) (rd : Nat) (ra : Nat) (rb : Nat), s.fetched c w = some t ∧ kOp w = some (.addr 2 rd ra rb))
    ∧ (∃ (c : Core) (w : Word) (s : State) (t : State) (rd : Nat) (ra : Nat) (rb : Nat), s.fetched c w = some t ∧ kOp w = some (.addr 3 rd ra rb)) :=
  ⟨⟨(.eng 3), (kEnc 0 (.alui 2 2 5)), krun, krun, 2, 5, (by decide +kernel), (by decide +kernel)⟩,
    ⟨(.eng 3), (kEnc 0 (.alui 3 2 5)), krun, krun, 2, 5, (by decide +kernel), (by decide +kernel)⟩,
    ⟨(.eng 3), (kEnc 0 (.alui 4 2 5)), krun, krun, 2, 5, (by decide +kernel), (by decide +kernel)⟩,
    ⟨(.eng 3), (kEnc 0 (.alui 5 2 5)), krun, krun, 2, 5, (by decide +kernel), (by decide +kernel)⟩,
    ⟨(.eng 3), (kEnc 0 (.alui 6 2 5)), krun, krun, 2, 5, (by decide +kernel), (by decide +kernel)⟩,
    ⟨(.eng 3), (kEnc 0 (.alui 7 2 5)), krun, krun, 2, 5, (by decide +kernel), (by decide +kernel)⟩,
    ⟨(.eng 3), (kEnc 0 (.alui 0 2 5)), krun, krun, 2, 5, (by decide +kernel), (by decide +kernel)⟩,
    ⟨(.eng 3), (kEnc 0 (.imm 0 2 65000)), krun, krun, 2, 65000, (by decide +kernel), (by decide +kernel)⟩,
    ⟨(.eng 3), (kEnc 0 (.imm 1 2 5)), krun, krun, 2, 5, (by decide +kernel), (by decide +kernel)⟩,
    ⟨(.eng 3), (kEnc 0 (.alui 1 2 5)), krun, krun, 2, 5, (by decide +kernel), (by decide +kernel)⟩,
    ⟨(.eng 3), (kEnc 0 (.imm 2 2 65000)), krun, krun, 2, 65000, (by decide +kernel), (by decide +kernel), (by decide +kernel)⟩,
    ⟨(.eng 3), (kEnc 0 (.imm 2 17 65000)), krun, krun, 17, 65000, (by decide +kernel), (by decide +kernel), (by decide +kernel)⟩,
    ⟨(.eng 3), (kEnc 0 (.imm 3 2 5)), krun, krun, 2, 5, (by decide +kernel), (by decide +kernel)⟩,
    ⟨(.eng 3), (kEnc 0 (.mov 28 3)), krun, krun, 28, 3, (by decide +kernel), (by decide +kernel), (by decide +kernel), (by decide +kernel)⟩,
    ⟨(.eng 3), (kEnc 0 (.mov 3 28)), krun, krun, 3, 28, (by decide +kernel), (by decide +kernel), (by decide +kernel), (by decide +kernel)⟩,
    ⟨(.eng 3), (kEnc 0 (.mov 3 17)), krun, krun, 3, 17, (by decide +kernel), (by decide +kernel), (by decide +kernel)⟩,
    ⟨(.eng 3), (kEnc 0 (.addr 0 17 18 3)), krun, krun, 17, 18, 3, (by decide +kernel), (by decide +kernel)⟩,
    ⟨(.eng 3), (kEnc 0 (.addr 1 17 18 3)), krun, krun, 17, 18, 3, (by decide +kernel), (by decide +kernel)⟩,
    ⟨(.eng 3), (kEnc 0 (.addr 2 17 18 19)), krun, krun, 17, 18, 19, (by decide +kernel), (by decide +kernel)⟩,
    ⟨(.eng 3), (kEnc 0 (.addr 3 17 18 25)), krun, krun, 17, 18, 25, (by decide +kernel), (by decide +kernel)⟩⟩

/-- States and operands that meet the hypotheses of each clause of `KamynAccumulators`. -/
theorem test_premises_of_kamyn_accumulators :
    (∃ (c : Core) (w : Word) (s : State) (t : State) (rd : Nat) (ra : Nat) (rb : Nat) (x : Bool), s.fetched c w = some t ∧ kOp w = some (.acc 0x0 rd ra rb x))
    ∧ (∃ (c : Core) (w : Word) (s : State) (t : State) (rd : Nat) (ra : Nat) (rb : Nat) (x : Bool), s.fetched c w = some t ∧ kOp w = some (.acc 0x4 rd ra rb x))
    ∧ (∃ (c : Core) (w : Word) (s : State) (t : State) (rd : Nat) (ra : Nat) (rb : Nat) (x : Bool), s.fetched c w = some t ∧ kOp w = some (.acc 0x8 rd ra rb x))
    ∧ (∃ (c : Core) (w : Word) (s : State) (t : State) (rd : Nat) (ra : Nat) (rb : Nat) (x : Bool), s.fetched c w = some t ∧ kOp w = some (.acc 0x1 rd ra rb x))
    ∧ (∃ (c : Core) (w : Word) (s : State) (t : State) (rd : Nat) (ra : Nat) (rb : Nat) (x : Bool), s.fetched c w = some t ∧ kOp w = some (.acc 0x5 rd ra rb x))
    ∧ (∃ (c : Core) (w : Word) (s : State) (t : State) (rd : Nat) (ra : Nat) (rb : Nat) (x : Bool), s.fetched c w = some t ∧ kOp w = some (.acc 0x9 rd ra rb x))
    ∧ (∃ (c : Core) (w : Word) (s : State) (t : State) (rd : Nat) (ra : Nat) (rb : Nat) (x : Bool), s.fetched c w = some t ∧ kOp w = some (.acc 0x2 rd ra rb x))
    ∧ (∃ (c : Core) (w : Word) (s : State) (t : State) (rd : Nat) (ra : Nat) (rb : Nat) (x : Bool), s.fetched c w = some t ∧ kOp w = some (.acc 0x6 rd ra rb x))
    ∧ (∃ (c : Core) (w : Word) (s : State) (t : State) (rd : Nat) (ra : Nat) (rb : Nat) (x : Bool), s.fetched c w = some t ∧ kOp w = some (.acc 0xa rd ra rb x))
    ∧ (∃ (c : Core) (w : Word) (s : State) (t : State) (rd : Nat) (ra : Nat) (rb : Nat) (x : Bool), s.fetched c w = some t ∧ kOp w = some (.acc 0x10 rd ra rb x))
    ∧ (∃ (c : Core) (w : Word) (s : State) (t : State) (rd : Nat) (ra : Nat) (rb : Nat) (x : Bool), s.fetched c w = some t ∧ kOp w = some (.acc 0x11 rd ra rb x))
    ∧ (∃ (c : Core) (w : Word) (s : State) (t : State) (rd : Nat) (ra : Nat) (rb : Nat) (x : Bool), s.fetched c w = some t ∧ kOp w = some (.acc 0x12 rd ra rb x))
    ∧ (∃ (c : Core) (w : Word) (s : State) (t : State) (rd : Nat) (ra : Nat) (rb : Nat) (x : Bool), s.fetched c w = some t ∧ kOp w = some (.acc 0x13 rd ra rb x))
    ∧ (∃ (c : Core) (w : Word) (s : State) (t : State) (rd : Nat) (ra : Nat) (rb : Nat) (x : Bool), s.fetched c w = some t ∧ kOp w = some (.acc 0x14 rd ra rb x))
    ∧ (∃ (c : Core) (w : Word) (s : State) (t : State) (rd : Nat) (ra : Nat) (rb : Nat) (x : Bool), s.fetched c w = some t ∧ kOp w = some (.acc 0x18 rd ra rb x))
    ∧ (∃ (c : Core) (w : Word) (s : State) (t : State) (rd : Nat) (ra : Nat) (rb : Nat) (x : Bool), s.fetched c w = some t ∧ kOp w = some (.acc 0x19 rd ra rb x))
    ∧ (∃ (c : Core) (w : Word) (s : State) (t : State) (rd : Nat) (ra : Nat) (rb : Nat) (x : Bool), s.fetched c w = some t ∧ kOp w = some (.acc 0x1A rd ra rb x))
    ∧ (∃ (c : Core) (w : Word) (s : State) (t : State) (rd : Nat) (ra : Nat) (rb : Nat) (x : Bool), s.fetched c w = some t ∧ kOp w = some (.acc 0x1B rd ra rb x)) :=
  ⟨⟨(.eng 3), (kEnc 0 (.acc 0x0 29 2 3 false)), krun, krun, 29, 2, 3, false, (by decide +kernel), (by decide +kernel)⟩,
    ⟨(.eng 3), (kEnc 0 (.acc 0x4 29 2 3 false)), krun, krun, 29, 2, 3, false, (by decide +kernel), (by decide +kernel)⟩,
    ⟨(.eng 3), (kEnc 0 (.acc 0x8 29 2 3 false)), krun, krun, 29, 2, 3, false, (by decide +kernel), (by decide +kernel)⟩,
    ⟨(.eng 3), (kEnc 0 (.acc 0x1 29 2 3 false)), krun, krun, 29, 2, 3, false, (by decide +kernel), (by decide +kernel)⟩,
    ⟨(.eng 3), (kEnc 0 (.acc 0x5 29 2 3 false)), krun, krun, 29, 2, 3, false, (by decide +kernel), (by decide +kernel)⟩,
    ⟨(.eng 3), (kEnc 0 (.acc 0x9 29 2 3 false)), krun, krun, 29, 2, 3, false, (by decide +kernel), (by decide +kernel)⟩,
    ⟨(.eng 3), (kEnc 0 (.acc 0x2 29 2 3 false)), krun, krun, 29, 2, 3, false, (by decide +kernel), (by decide +kernel)⟩,
    ⟨(.eng 3), (kEnc 0 (.acc 0x6 29 2 3 false)), krun, krun, 29, 2, 3, false, (by decide +kernel), (by decide +kernel)⟩,
    ⟨(.eng 3), (kEnc 0 (.acc 0xa 29 2 3 false)), krun, krun, 29, 2, 3, false, (by decide +kernel), (by decide +kernel)⟩,
    ⟨(.eng 3), (kEnc 0 (.acc 0x10 29 0 0 false)), krun, krun, 29, 0, 0, false, (by decide +kernel), (by decide +kernel)⟩,
    ⟨(.eng 3), (kEnc 0 (.acc 0x11 29 30 31 false)), krun, krun, 29, 30, 31, false, (by decide +kernel), (by decide +kernel)⟩,
    ⟨(.eng 3), (kEnc 0 (.acc 0x12 29 30 31 false)), krun, krun, 29, 30, 31, false, (by decide +kernel), (by decide +kernel)⟩,
    ⟨(.eng 3), (kEnc 0 (.acc 0x13 29 0 31 false)), krun, krun, 29, 0, 31, false, (by decide +kernel), (by decide +kernel)⟩,
    ⟨(.eng 3), (kEnc 0 (.acc 0x14 29 3 31 false)), krun, krun, 29, 3, 31, false, (by decide +kernel), (by decide +kernel)⟩,
    ⟨(.eng 3), (kEnc 0 (.acc 0x18 2 30 3 false)), krun, krun, 2, 30, 3, false, (by decide +kernel), (by decide +kernel)⟩,
    ⟨(.eng 3), (kEnc 0 (.acc 0x19 29 3 0 false)), krun, krun, 29, 3, 0, false, (by decide +kernel), (by decide +kernel)⟩,
    ⟨(.eng 3), (kEnc 0 (.acc 0x1A 2 30 1 false)), krun, krun, 2, 30, 1, false, (by decide +kernel), (by decide +kernel)⟩,
    ⟨(.eng 3), (kEnc 0 (.acc 0x1B 30 2 2 false)), krun, krun, 30, 2, 2, false, (by decide +kernel), (by decide +kernel)⟩⟩

/-- States and operands that meet the hypotheses of each clause of `KamynComplex`. -/
theorem test_premises_of_kamyn_complex :
    (∃ (p : Fin 72) (w : Word) (s : State) (t : State) (rd : Nat) (ra : Nat) (rb : Nat) (x : Bool), s.fetched (.eng p) w = some t ∧ kOp w = some (.cplx 0x00 rd ra rb x) ∧ (s.kBank (.eng p)).pois ra = false ∧ ((s.kBank (.eng p)).get ra) % 4 = 0 ∧ ((s.kBank (.eng p)).get ra) + 28 ≤ 0x10000)
    ∧ (∃ (c : Core) (w : Word) (s : State) (t : State) (rd : Nat) (ra : Nat) (rb : Nat) (x : Bool), s.fetched c w = some t ∧ kOp w = some (.cplx 0x01 rd ra rb x))
    ∧ (∃ (c : Core) (w : Word) (s : State) (t : State) (rd : Nat) (ra : Nat) (rb : Nat) (x : Bool), s.fetched c w = some t ∧ kOp w = some (.cplx 0x02 rd ra rb x))
    ∧ (∃ (c : Core) (w : Word) (s : State) (t : State) (rd : Nat) (ra : Nat) (rb : Nat) (x : Bool), s.fetched c w = some t ∧ kOp w = some (.cplx 0x03 rd ra rb x))
    ∧ (∃ (c : Core) (w : Word) (s : State) (t : State) (rd : Nat) (ra : Nat) (rb : Nat) (x : Bool), s.fetched c w = some t ∧ kOp w = some (.cplx 0x04 rd ra rb x))
    ∧ (∃ (c : Core) (w : Word) (s : State) (t : State) (rd : Nat) (ra : Nat) (rb : Nat) (x : Bool), s.fetched c w = some t ∧ kOp w = some (.cplx 0x08 rd ra rb x))
    ∧ (∃ (c : Core) (w : Word) (s : State) (rd : Nat) (ra : Nat) (rb : Nat) (q : Nat) (vx : Int) (vy : Int) (vz : Int) (x : Bool) (m : Bool), s.goesOn c (.cordic q vx vy vz m) ∧ kOp w = some (.cplx 0x08 rd ra rb x))
    ∧ (∃ (c : Core) (w : Word) (s : State) (t : State) (rd : Nat) (ra : Nat) (rb : Nat) (x : Bool), s.fetched c w = some t ∧ kOp w = some (.cplx 0x0C rd ra rb x))
    ∧ (∃ (c : Core) (w : Word) (s : State) (t : State) (rd : Nat) (ra : Nat) (rb : Nat) (x : Bool), s.fetched c w = some t ∧ kOp w = some (.cplx 0x0E rd ra rb x))
    ∧ (∃ (c : Core) (w : Word) (s : State) (t : State) (rd : Nat) (ra : Nat) (rb : Nat) (x : Bool), s.fetched c w = some t ∧ kOp w = some (.cplx 0x10 rd ra rb x))
    ∧ (∃ (c : Core) (w : Word) (s : State) (rd : Nat) (ra : Nat) (rb : Nat) (x : Bool) (m : Bool) (va : Word) (vb : Word), s.goesOn c (.half va vb m) ∧ kOp w = some (.cplx 0x0C rd ra rb x) ∧ vb.toInt ≠ 0)
    ∧ (∃ (c : Core) (w : Word) (s : State) (rd : Nat) (ra : Nat) (rb : Nat) (x : Bool) (m : Bool) (va : Word) (vb : Word), s.goesOn c (.half va vb m) ∧ kOp w = some (.cplx 0x0C rd ra rb x) ∧ vb.toInt = 0)
    ∧ (∃ (c : Core) (w : Word) (s : State) (rd : Nat) (ra : Nat) (rb : Nat) (x : Bool) (m : Bool) (va : Word) (vb : Word), s.goesOn c (.half va vb m) ∧ kOp w = some (.cplx 0x0E rd ra rb x) ∧ 0 < vb.toInt)
    ∧ (∃ (c : Core) (w : Word) (s : State) (rd : Nat) (ra : Nat) (rb : Nat) (x : Bool) (m : Bool) (va : Word) (vb : Word), s.goesOn c (.half va vb m) ∧ kOp w = some (.cplx 0x0E rd ra rb x) ∧ vb.toInt < 0)
    ∧ (∃ (c : Core) (w : Word) (s : State) (rd : Nat) (ra : Nat) (rb : Nat) (x : Bool) (m : Bool) (va : Word) (vb : Word), s.goesOn c (.half va vb m) ∧ kOp w = some (.cplx 0x0E rd ra rb x) ∧ vb.toInt = 0)
    ∧ (∃ (c : Core) (w : Word) (s : State) (rd : Nat) (ra : Nat) (rb : Nat) (x : Bool) (m : Bool) (va : Word) (vb : Word), s.goesOn c (.half va vb m) ∧ kOp w = some (.cplx 0x10 rd ra rb x) ∧ x = true)
    ∧ (∃ (c : Core) (w : Word) (s : State) (rd : Nat) (ra : Nat) (rb : Nat) (x : Bool) (m : Bool) (va : Word) (vb : Word), s.goesOn c (.half va vb m) ∧ kOp w = some (.cplx 0x10 rd ra rb x) ∧ x = false ∧ vb.toInt < 0)
    ∧ (∃ (c : Core) (w : Word) (s : State) (rd : Nat) (ra : Nat) (rb : Nat) (x : Bool) (m : Bool) (va : Word) (vb : Word), s.goesOn c (.half va vb m) ∧ kOp w = some (.cplx 0x10 rd ra rb x) ∧ x = false ∧ 0 ≤ vb.toInt)
    ∧ (∃ (p : Fin 72) (w : Word) (s : State) (t : State) (rd : Nat) (ra : Nat) (rb : Nat) (x : Bool), s.fetched (.eng p) w = some t ∧ kOp w = some (.cplx 0x18 rd ra rb x) ∧ (s.kBank (.eng p)).poisAny [ra, rb, 24 + (rb - 16) % 4] = false ∧ ((s.kBank (.eng p)).get ra) % 4 = 0 ∧ ((s.kBank (.eng p)).get ra) + 8 ≤ 0x10000 ∧ ((t.codeWriteOut p).mword (engPhys p ((s.kBank (.eng p)).get ra))) = 0)
    ∧ (∃ (p : Fin 72) (w : Word) (s : State) (t : State) (rd : Nat) (ra : Nat) (rb : Nat) (x : Bool), s.fetched (.eng p) w = some t ∧ kOp w = some (.cplx 0x18 rd ra rb x) ∧ (s.kBank (.eng p)).poisAny [ra, rb, 24 + (rb - 16) % 4] = false ∧ ((s.kBank (.eng p)).get ra) % 4 = 0 ∧ ((s.kBank (.eng p)).get ra) + 8 ≤ 0x10000 ∧ 1024 < ((t.codeWriteOut p).mword (engPhys p ((s.kBank (.eng p)).get ra))).toNat)
    ∧ (∃ (p : Fin 72) (w : Word) (s : State) (t : State) (rd : Nat) (ra : Nat) (rb : Nat) (x : Bool), s.fetched (.eng p) w = some t ∧ kOp w = some (.cplx 0x18 rd ra rb x) ∧ (s.kBank (.eng p)).poisAny [ra, rb, 24 + (rb - 16) % 4] = false ∧ ((s.kBank (.eng p)).get ra) % 4 = 0 ∧ ((s.kBank (.eng p)).get ra) + 8 ≤ 0x10000 ∧ (s.kBank (.eng p)).get rb % 4 = 0 ∧ (s.kBank (.eng p)).get rb + 4 ≤ 0x10000 ∧ ((t.codeWriteOut p).mword (engPhys p ((s.kBank (.eng p)).get ra))) = 1)
    ∧ (∃ (p : Fin 72) (w : Word) (s : State) (t : State) (rd : Nat) (ra : Nat) (rb : Nat) (x : Bool), s.fetched (.eng p) w = some t ∧ kOp w = some (.cplx 0x18 rd ra rb x) ∧ (s.kBank (.eng p)).poisAny [ra, rb, 24 + (rb - 16) % 4] = false ∧ ((s.kBank (.eng p)).get ra) % 4 = 0 ∧ ((s.kBank (.eng p)).get ra) + 8 ≤ 0x10000 ∧ (s.kBank (.eng p)).get rb % 4 = 0 ∧ (s.kBank (.eng p)).get rb + 4 ≤ 0x10000 ∧ 1 < (((t.codeWriteOut p).mword (engPhys p ((s.kBank (.eng p)).get ra))).toNat) ∧ (((t.codeWriteOut p).mword (engPhys p ((s.kBank (.eng p)).get ra))).toNat) ≤ 1024)
    ∧ (∃ (p : Fin 72) (w : Word) (s : State) (rd : Nat) (ra : Nat) (rb : Nat) (n : Nat) (ca : Nat) (sa : Nat) (fl : Nat) (acc : Int) (x : Bool) (m : Bool), s.goesOn (.eng p) (.taps n ca sa acc fl m) ∧ kOp w = some (.cplx 0x18 rd ra rb x) ∧ ca % 4 = 0 ∧ ca + 4 ≤ 0x10000 ∧ sa % 4 = 0 ∧ sa + 4 ≤ 0x10000) :=
  ⟨⟨3, (kEnc 0 (.cplx 0x00 5 17 3 false)), krun, krun, 5, 17, 3, false, (by decide +kernel), (by decide +kernel), (by decide +kernel), (by decide +kernel), (by decide +kernel)⟩,
    ⟨(.eng 3), (kEnc 0 (.cplx 0x01 2 4 0 false)), krun, krun, 2, 4, 0, false, (by decide +kernel), (by decide +kernel)⟩,
    ⟨(.eng 3), (kEnc 0 (.cplx 0x02 8 2 0 false)), krun, krun, 8, 2, 0, false, (by decide +kernel), (by decide +kernel)⟩,
    ⟨(.eng 3), (kEnc 0 (.cplx 0x03 8 2 4 false)), krun, krun, 8, 2, 4, false, (by decide +kernel), (by decide +kernel)⟩,
    ⟨(.eng 3), (kEnc 0 (.cplx 0x04 8 2 4 false)), krun, krun, 8, 2, 4, false, (by decide +kernel), (by decide +kernel)⟩,
    ⟨(.eng 3), (kEnc 0 (.cplx 0x08 8 2 0 false)), krun, krun, 8, 2, 0, false, (by decide +kernel), (by decide +kernel)⟩,
    ⟨(.eng 3), (kEnc 0 (.cplx 0x08 8 2 0 false)), (krun.setBank 3 0 { kbank with micro := { mid := 1, ucaller := 0x100000, part := some (.cordic 1 5 (-6) 7 true) } }), 8, 2, 0, 1, 5, ((-6)), 7, false, true, (by decide +kernel), (by decide +kernel)⟩,
    ⟨(.eng 3), (kEnc 0 (.cplx 0x0C 8 2 3 false)), krun, krun, 8, 2, 3, false, (by decide +kernel), (by decide +kernel)⟩,
    ⟨(.eng 3), (kEnc 0 (.cplx 0x0E 8 2 4 false)), krun, krun, 8, 2, 4, false, (by decide +kernel), (by decide +kernel)⟩,
    ⟨(.eng 3), (kEnc 0 (.cplx 0x10 8 0 3 false)), krun, krun, 8, 0, 3, false, (by decide +kernel), (by decide +kernel)⟩,
    ⟨(.eng 3), (kEnc 0 (.cplx 0x0C 8 2 3 false)), (krun.setBank 3 0 { kbank with micro := { mid := 1, ucaller := 0x100000, part := some (.half 0x80000000 0xFFFFFFFF false) } }), 8, 2, 3, false, false, 0x80000000, 0xFFFFFFFF, (by decide +kernel), (by decide +kernel), (by decide +kernel)⟩,
    ⟨(.eng 3), (kEnc 0 (.cplx 0x0C 8 2 3 false)), (krun.setBank 3 0 { kbank with micro := { mid := 1, ucaller := 0x100000, part := some (.half 0x80000000 0 false) } }), 8, 2, 3, false, false, 0x80000000, 0, (by decide +kernel), (by decide +kernel), (by decide +kernel)⟩,
    ⟨(.eng 3), (kEnc 0 (.cplx 0x0E 8 2 3 false)), (krun.setBank 3 0 { kbank with micro := { mid := 1, ucaller := 0x100000, part := some (.half 0x12345678 0x23456789 false) } }), 8, 2, 3, false, false, 0x12345678, 0x23456789, (by decide +kernel), (by decide +kernel), (by decide +kernel)⟩,
    ⟨(.eng 3), (kEnc 0 (.cplx 0x0E 8 2 3 false)), (krun.setBank 3 0 { kbank with micro := { mid := 1, ucaller := 0x100000, part := some (.half 0x12345678 0xFFFFFFF3 false) } }), 8, 2, 3, false, false, 0x12345678, 0xFFFFFFF3, (by decide +kernel), (by decide +kernel), (by decide +kernel)⟩,
    ⟨(.eng 3), (kEnc 0 (.cplx 0x0E 8 2 3 false)), (krun.setBank 3 0 { kbank with micro := { mid := 1, ucaller := 0x100000, part := some (.half 5 0 false) } }), 8, 2, 3, false, false, 5, 0, (by decide +kernel), (by decide +kernel), (by decide +kernel)⟩,
    ⟨(.eng 3), (kEnc 0 (.cplx 0x10 8 0 3 true)), (krun.setBank 3 0 { kbank with micro := { mid := 1, ucaller := 0x100000, part := some (.half 5 0xFFFFFFFF false) } }), 8, 0, 3, true, false, 5, 0xFFFFFFFF, (by decide +kernel), (by decide +kernel), (by decide +kernel)⟩,
    ⟨(.eng 3), (kEnc 0 (.cplx 0x10 8 0 3 false)), (krun.setBank 3 0 { kbank with micro := { mid := 1, ucaller := 0x100000, part := some (.half 5 0x80000000 false) } }), 8, 0, 3, false, false, 5, 0x80000000, (by decide +kernel), (by decide +kernel), (by decide +kernel), (by decide +kernel)⟩,
    ⟨(.eng 3), (kEnc 0 (.cplx 0x10 8 0 3 false)), (krun.setBank 3 0 { kbank with micro := { mid := 1, ucaller := 0x100000, part := some (.half 5 0x7FFFFFFF false) } }), 8, 0, 3, false, false, 5, 0x7FFFFFFF, (by decide +kernel), (by decide +kernel), (by decide +kernel), (by decide +kernel)⟩,
    ⟨3, (kEnc 0 (.cplx 0x18 28 17 18 false)), krun, krun, 28, 17, 18, false, (by decide +kernel), (by decide +kernel), (by decide +kernel), (by decide +kernel), (by decide +kernel), (by decide +kernel)⟩,
    ⟨3, (kEnc 0 (.cplx 0x18 28 17 18 false)), (krun.setMword (engPhys 3 0x40) 1025), (krun.setMword (engPhys 3 0x40) 1025), 28, 17, 18, false, (by decide +kernel), (by decide +kernel), (by decide +kernel), (by decide +kernel), (by decide +kernel), (by decide +kernel)⟩,
    ⟨3, (kEnc 0 (.cplx 0x18 28 17 18 false)), (krun.setMword (engPhys 3 0x40) 1), (krun.setMword (engPhys 3 0x40) 1), 28, 17, 18, false, (by decide +kernel), (by decide +kernel), (by decide +kernel), (by decide +kernel), (by decide +kernel), (by decide +kernel), (by decide +kernel), (by decide +kernel)⟩,
    ⟨3, (kEnc 0 (.cplx 0x18 28 17 18 false)), (krun.setMword (engPhys 3 0x40) 1024), (krun.setMword (engPhys 3 0x40) 1024), 28, 17, 18, false, (by decide +kernel), (by decide +kernel), (by decide +kernel), (by decide +kernel), (by decide +kernel), (by decide +kernel), (by decide +kernel), (by decide +kernel), (by decide +kernel)⟩,
    ⟨3, (kEnc 0 (.cplx 0x18 28 17 18 false)), (krun.setBank 3 0 { kbank with micro := { mid := 1, ucaller := 0x100000, part := some (.taps 1 0x48 0x50 5 0 false) } }), 28, 17, 18, 1, 0x48, 0x50, 0, 5, false, false, (by decide +kernel), (by decide +kernel), (by decide +kernel), (by decide +kernel), (by decide +kernel), (by decide +kernel)⟩⟩

/-- States and operands that meet the hypotheses of each clause of `KamynControlFlow`. -/
theorem test_premises_of_kamyn_control_flow :
    (∃ (c : Core) (w : Word) (s : State) (t : State), s.fetched c w = some t ∧ kOp w = some (.nop))
    ∧ (∃ (c : Core) (w : Word) (s : State) (t : State) (off : Int), s.fetched c w = some t ∧ kOp w = some (.bra off) ∧ landsOn c (addrAdd (s.kBank c).pc.toNat off) = true)
    ∧ (∃ (c : Core) (w : Word) (s : State) (t : State) (neg : Bool) (g : Nat) (off : Int), s.fetched c w = some t ∧ kOp w = some (.bg neg g off) ∧ (s.kBank c).pois g = false ∧ ((s.kBank c).gd g != 0) = !neg ∧ landsOn c (addrAdd (s.kBank c).pc.toNat off) = true)
    ∧ (∃ (c : Core) (w : Word) (s : State) (t : State) (neg : Bool) (g : Nat) (off : Int), s.fetched c w = some t ∧ kOp w = some (.bg neg g off) ∧ (s.kBank c).pois g = false ∧ ((s.kBank c).gd g != 0) = neg)
    ∧ (∃ (c : Core) (w : Word) (s : State) (t : State) (dn : Nat) (off : Int), s.fetched c w = some t ∧ kOp w = some (.bdec dn off) ∧ (s.kBank c).pois dn = false ∧ (s.kBank c).gd dn ≠ 1 ∧ landsOn c (addrAdd (s.kBank c).pc.toNat off) = true)
    ∧ (∃ (c : Core) (w : Word) (s : State) (t : State) (dn : Nat) (off : Int), s.fetched c w = some t ∧ kOp w = some (.bdec dn off) ∧ (s.kBank c).pois dn = false ∧ (s.kBank c).gd dn = 1)
    ∧ (∃ (c : Core) (w : Word) (s : State) (t : State) (off : Int), s.fetched c w = some t ∧ kOp w = some (.br off) ∧ landsOn c (addrAdd (s.kBank c).pc.toNat off) = true)
    ∧ (∃ (c : Core) (w : Word) (s : State) (t : State) (off : Int), s.fetched c w = some t ∧ kOp w = some (.call off) ∧ landsOn c (addrAdd (s.kBank c).pc.toNat off) = true)
    ∧ (∃ (c : Core) (w : Word) (s : State) (t : State) (an : Nat), s.fetched c w = some t ∧ kOp w = some (.jr an) ∧ (s.kBank c).pois an = false ∧ landsOn c ((s.kBank c).get an) = true)
    ∧ (∃ (c : Core) (w : Word) (s : State) (t : State) (an : Nat), s.fetched c w = some t ∧ kOp w = some (.callr an) ∧ (s.kBank c).pois an = false ∧ landsOn c ((s.kBank c).get an) = true)
    ∧ (∃ (c : Core) (w : Word) (s : State) (t : State), s.fetched c w = some t ∧ kOp w = some (.ret) ∧ (s.kBank c).pois 23 = false ∧ landsOn c ((s.kBank c).get 23) = true)
    ∧ (∃ (p : Fin 72) (w : Word) (s : State) (t : State), s.fetched (.eng p) w = some t ∧ kOp w = some (.isync))
    ∧ (∃ (w : Word) (s : State) (t : State), s.fetched (.shep) w = some t ∧ kOp w = some (.isync))
    ∧ (∃ (p : Fin 72) (w : Word) (s : State) (t : State), s.fetched (.eng p) w = some t ∧ kOp w = some (.wait))
    ∧ (∃ (w : Word) (s : State) (t : State), s.fetched (.shep) w = some t ∧ kOp w = some (.wait))
    ∧ (∃ (p : Fin 72) (w : Word) (s : State) (an : Nat), s.fetched (.eng p) w = some s ∧ kOp w = some (.jr an) ∧ (s.kBank (.eng p)).pois an = false ∧ (s.kBank (.eng p)).get an % 2 = 1)
    ∧ (∃ (c : Core) (w : Word) (s : State) (t : State) (rd : Nat) (ra : Nat) (rb : Nat) (x : Bool), s.issued c w = some t ∧ kOp w = some (.alu 0x00 rd ra rb x) ∧ (s.kBank c).guardPois (kGuard w) = false ∧ (s.kBank c).guardHolds (kGuard w) = false)
    ∧ (∃ (p : Fin 72) (w : Word) (s : State) (t : State) (rd : Nat) (ra : Nat) (rb : Nat) (x : Bool), s.issued (.eng p) w = some t ∧ kOp w = some (.alu 0x00 rd ra rb x) ∧ (s.kBank (.eng p)).guardPois (kGuard w) = true) :=
  ⟨⟨(.eng 3), (kEnc 0 .nop), krun, krun, (by decide +kernel), (by decide +kernel)⟩,
    ⟨(.eng 3), (kEnc 0 (.bra 16)), krun, krun, 16, (by decide +kernel), (by decide +kernel), (by decide +kernel)⟩,
    ⟨(.eng 3), (kEnc 0 (.bg true 12 16)), krun, krun, true, 12, 16, (by decide +kernel), (by decide +kernel), (by decide +kernel), (by decide +kernel), (by decide +kernel)⟩,
    ⟨(.eng 3), (kEnc 0 (.bg false 12 16)), krun, krun, false, 12, 16, (by decide +kernel), (by decide +kernel), (by decide +kernel), (by decide +kernel)⟩,
    ⟨(.eng 3), (kEnc 0 (.bdec 3 16)), krun, krun, 3, 16, (by decide +kernel), (by decide +kernel), (by decide +kernel), (by decide +kernel), (by decide +kernel)⟩,
    ⟨(.eng 3), (kEnc 0 (.bdec 1 16)), krun, krun, 1, 16, (by decide +kernel), (by decide +kernel), (by decide +kernel), (by decide +kernel)⟩,
    ⟨(.eng 3), (kEnc 0 (.br 16)), krun, krun, 16, (by decide +kernel), (by decide +kernel), (by decide +kernel)⟩,
    ⟨(.eng 3), (kEnc 0 (.call 16)), krun, krun, 16, (by decide +kernel), (by decide +kernel), (by decide +kernel)⟩,
    ⟨(.eng 3), (kEnc 0 (.jr 19)), krun, krun, 19, (by decide +kernel), (by decide +kernel), (by decide +kernel), (by decide +kernel)⟩,
    ⟨(.eng 3), (kEnc 0 (.callr 19)), krun, krun, 19, (by decide +kernel), (by decide +kernel), (by decide +kernel), (by decide +kernel)⟩,
    ⟨(.eng 3), (kEnc 0 .ret), krun, krun, (by decide +kernel), (by decide +kernel), (by decide +kernel), (by decide +kernel)⟩,
    ⟨3, (kEnc 0 .isync), krun, krun, (by decide +kernel), (by decide +kernel)⟩,
    ⟨(kEnc 0 .isync), srun, srun, (by decide +kernel), (by decide +kernel)⟩,
    ⟨3, (kEnc 0 .wait), krun, krun, (by decide +kernel), (by decide +kernel)⟩,
    ⟨(kEnc 0 .wait), srun, srun, (by decide +kernel), (by decide +kernel)⟩,
    ⟨3, (kEnc 0 (.jr 20)), krun, 20, (by decide +kernel), (by decide +kernel), (by decide +kernel), (by decide +kernel)⟩,
    ⟨(.eng 3), (kEnc 4 (.alu 0x00 1 2 3 false)), krun, krun, 1, 2, 3, false, (by decide +kernel), (by decide +kernel), (by decide +kernel), (by decide +kernel)⟩,
    ⟨3, (kEnc 4 (.alu 0x00 1 2 3 false)), krunp, krunp, 1, 2, 3, false, (by decide +kernel), (by decide +kernel), (by decide +kernel)⟩⟩

/-- States and operands that meet the hypotheses of each clause of `KamynSystemGroup`. -/
theorem test_premises_of_kamyn_system_group :
    (∃ (p : Fin 72) (w : Word) (s : State) (t : State) (v : Nat), s.fetched (.eng p) w = some t ∧ kOp w = some (.signal none v) ∧ t.underTest 0 p = false ∧ t.hurdleDrops 0 p = false)
    ∧ (∃ (p : Fin 72) (w : Word) (s : State) (t : State) (d : Nat) (v : Nat), s.fetched (.eng p) w = some t ∧ kOp w = some (.signal (some d) v) ∧ t.underTest 0 p = false ∧ t.hurdleDrops 0 p = false)
    ∧ (∃ (w : Word) (s : State) (t : State) (v : Nat), s.fetched (.shep) w = some t ∧ kOp w = some (.signal none v))
    ∧ (∃ (c : Core) (w : Word) (s : State) (t : State), s.fetched c w = some t ∧ kOp w = some (.brk) ∧ t.fld DB_POLICY fDB_POLICY_EBRK = 0)
    ∧ (∃ (p : Fin 72) (w : Word) (s : State) (t : State), s.fetched (.eng p) w = some t ∧ kOp w = some (.brk) ∧ t.fld DB_POLICY fDB_POLICY_EBRK = 1)
    ∧ (∃ (p : Fin 72) (w : Word) (s : State) (t : State), s.fetched (.eng p) w = some t ∧ kOp w = some (.brk) ∧ t.fld DB_POLICY fDB_POLICY_EBRK = 2)
    ∧ (∃ (c : Core) (w : Word) (s : State) (t : State) (dr : Nat) (k : Nat), s.fetched c w = some t ∧ kOp w = some (.stamp dr 0 k))
    ∧ (∃ (p : Fin 72) (w : Word) (s : State) (t : State) (dr : Nat) (k : Nat), s.fetched (.eng p) w = some t ∧ kOp w = some (.stamp dr 1 k))
    ∧ (∃ (c : Core) (w : Word) (s : State) (t : State) (dr : Nat) (k : Nat), s.fetched c w = some t ∧ kOp w = some (.stamp dr 2 k))
    ∧ (∃ (c : Core) (w : Word) (s : State) (t : State) (ds : Nat), s.fetched c w = some t ∧ kOp w = some (.mode ds) ∧ (s.kBank c).pois ds = false ∧ bitsOf ((s.kBank c).gd ds).toNat 13 19 = 0 ∧ bitsOf ((s.kBank c).gd ds).toNat 3 5 = 0)
    ∧ (∃ (c : Core) (w : Word) (s : State) (t : State) (dr : Nat), s.fetched c w = some t ∧ kOp w = some (.rdmode dr) ∧ (s.kBank c).modeWait = [])
    ∧ (∃ (p : Fin 72) (w : Word) (s : State) (t : State) (an : Nat), s.fetched (.eng p) w = some t ∧ kOp w = some (.rank an) ∧ (s.kBank (.eng p)).pois an = false ∧ engRegion ((s.kBank (.eng p)).get an) = .shared ∧ (s.kBank (.eng p)).get an % 16 = 0 ∧ (t.eng p).rankOut = false ∧ t.underTest 0 p = false ∧ t.hurdleDrops 0 p = false)
    ∧ (∃ (p : Fin 72) (w : Word) (s : State) (t : State) (an : Nat), s.fetched (.eng p) w = some t ∧ kOp w = some (.rank an) ∧ (s.kBank (.eng p)).pois an = false ∧ engRegion ((s.kBank (.eng p)).get an) = .shared ∧ (s.kBank (.eng p)).get an % 16 = 0 ∧ (t.eng p).rankOut = true)
    ∧ (∃ (p : Fin 72) (w : Word) (s : State) (t : State) (entry : Nat) (rx : Nat), s.fetched (.eng p) w = some t ∧ kOp w = some (.ucall entry rx) ∧ isWcs (0x1800 + entry) = true ∧ t.csWord p (0x1800 + entry) = withParity 9)
    ∧ (∃ (p : Fin 72) (w : Word) (s : State) (t : State) (d : Nat) (v : Nat) (ua : Nat), s.issued (.eng p) w = some t ∧ kOp w = some (.signal (some d) v) ∧ (s.kBank (.eng p)).guardPois (kGuard w) = false ∧ (s.kBank (.eng p)).guardHolds (kGuard w) = true ∧ t.patchedEntry p (.signal (some d) v) (!kWide w) = some ua) :=
  ⟨⟨3, (kEnc 0 (.signal none 7)), krun, krun, 7, (by decide +kernel), (by decide +kernel), (by decide +kernel), (by decide +kernel)⟩,
    ⟨3, (kEnc 0 (.signal (some 2) 7)), krun, krun, 2, 7, (by decide +kernel), (by decide +kernel), (by decide +kernel), (by decide +kernel)⟩,
    ⟨(kEnc 0 (.signal none 7)), srun, srun, 7, (by decide +kernel), (by decide +kernel)⟩,
    ⟨(.eng 3), (kEnc 0 .brk), (krun.setFld DB_POLICY fDB_POLICY_EBRK 0), (krun.setFld DB_POLICY fDB_POLICY_EBRK 0), (by decide +kernel), (by decide +kernel), (by decide +kernel)⟩,
    ⟨3, (kEnc 0 .brk), (krun.setFld DB_POLICY fDB_POLICY_EBRK 1), (krun.setFld DB_POLICY fDB_POLICY_EBRK 1), (by decide +kernel), (by decide +kernel), (by decide +kernel)⟩,
    ⟨3, (kEnc 0 .brk), (krun.setFld DB_POLICY fDB_POLICY_EBRK 2), (krun.setFld DB_POLICY fDB_POLICY_EBRK 2), (by decide +kernel), (by decide +kernel), (by decide +kernel)⟩,
    ⟨(.eng 3), (kEnc 0 (.stamp 4 0 0)), krun, krun, 4, 0, (by decide +kernel), (by decide +kernel)⟩,
    ⟨3, (kEnc 0 (.stamp 4 1 0)), krun, krun, 4, 0, (by decide +kernel), (by decide +kernel)⟩,
    ⟨(.eng 3), (kEnc 0 (.stamp 4 2 9)), krun, krun, 4, 9, (by decide +kernel), (by decide +kernel)⟩,
    ⟨(.eng 3), (kEnc 0 (.mode 2)), krun, krun, 2, (by decide +kernel), (by decide +kernel), (by decide +kernel), (by decide +kernel), (by decide +kernel)⟩,
    ⟨(.eng 3), (kEnc 0 (.rdmode 3)), krun, krun, 3, (by decide +kernel), (by decide +kernel), (by decide +kernel)⟩,
    ⟨3, (kEnc 0 (.rank 21)), krun, krun, 21, (by decide +kernel), (by decide +kernel), (by decide +kernel), (by decide +kernel), (by decide +kernel), (by decide +kernel), (by decide +kernel), (by decide +kernel)⟩,
    ⟨3, (kEnc 0 (.rank 21)), (krun.setEng 3 { krun.eng 3 with rankOut := true }), (krun.setEng 3 { krun.eng 3 with rankOut := true }), 21, (by decide +kernel), (by decide +kernel), (by decide +kernel), (by decide +kernel), (by decide +kernel), (by decide +kernel)⟩,
    ⟨3, (kEnc 0 (.ucall 5 17)), (krun.setCsWord 3 0x1805 (withParity 9)), (krun.setCsWord 3 0x1805 (withParity 9)), 5, 17, (by decide +kernel), (by decide +kernel), (by decide +kernel), (by decide +kernel)⟩,
    ⟨3, (kEnc 0 (.signal (some 2) 7)), ((krun.setNat (CS_CTRL 3) 1).setNat (CS_MATCH 3 0) 0x80000541), ((krun.setNat (CS_CTRL 3) 1).setNat (CS_MATCH 3 0) 0x80000541), 2, 7, 0x540, (by decide +kernel), (by decide +kernel), (by decide +kernel), (by decide +kernel), (by decide +kernel)⟩⟩

/-- States and operands that meet the hypotheses of each clause of `KamynLoadsAndStores`. -/
theorem test_premises_of_kamyn_loads_and_stores :
    (∃ (p : Fin 72) (w : Word) (s : State) (t : State) (rd : Nat) (wd : Nat) (an : Nat) (off : Int) (post : KPost), s.fetched (.eng p) w = some t ∧ kOp w = some (.mem false false rd wd an off post) ∧ (s.kBank (.eng p)).poisAny (post.uses an) = false ∧ ((engRegion (addrAdd ((s.kBank (.eng p)).get an) off) = .localRam ∨ engRegion (addrAdd ((s.kBank (.eng p)).get an) off) = .shared)) ∧ wd = 0)
    ∧ (∃ (p : Fin 72) (w : Word) (s : State) (t : State) (rd : Nat) (wd : Nat) (an : Nat) (off : Int) (post : KPost), s.fetched (.eng p) w = some t ∧ kOp w = some (.mem false false rd wd an off post) ∧ (s.kBank (.eng p)).poisAny (post.uses an) = false ∧ ((engRegion (addrAdd ((s.kBank (.eng p)).get an) off) = .localRam ∨ engRegion (addrAdd ((s.kBank (.eng p)).get an) off) = .shared)) ∧ wd = 1 ∧ (addrAdd ((s.kBank (.eng p)).get an) off) % 2 = 0)
    ∧ (∃ (p : Fin 72) (w : Word) (s : State) (t : State) (rd : Nat) (wd : Nat) (an : Nat) (off : Int) (post : KPost), s.fetched (.eng p) w = some t ∧ kOp w = some (.mem false false rd wd an off post) ∧ (s.kBank (.eng p)).poisAny (post.uses an) = false ∧ ((engRegion (addrAdd ((s.kBank (.eng p)).get an) off) = .localRam ∨ engRegion (addrAdd ((s.kBank (.eng p)).get an) off) = .shared)) ∧ wd = 2 ∧ (addrAdd ((s.kBank (.eng p)).get an) off) % 4 = 0)
    ∧ (∃ (p : Fin 72) (w : Word) (s : State) (t : State) (rd : Nat) (wd : Nat) (an : Nat) (off : Int) (post : KPost), s.fetched (.eng p) w = some t ∧ kOp w = some (.mem false false rd wd an off post) ∧ (s.kBank (.eng p)).poisAny (post.uses an) = false ∧ ((engRegion (addrAdd ((s.kBank (.eng p)).get an) off) = .localRam ∨ engRegion (addrAdd ((s.kBank (.eng p)).get an) off) = .shared)) ∧ wd = 3 ∧ (addrAdd ((s.kBank (.eng p)).get an) off) % 8 = 0)
    ∧ (∃ (p : Fin 72) (w : Word) (s : State) (t : State) (rd : Nat) (wd : Nat) (an : Nat) (off : Int) (post : KPost), s.fetched (.eng p) w = some t ∧ kOp w = some (.mem false true rd wd an off post) ∧ (s.kBank (.eng p)).poisAny (post.uses an) = false ∧ ((engRegion (addrAdd ((s.kBank (.eng p)).get an) off) = .localRam ∨ engRegion (addrAdd ((s.kBank (.eng p)).get an) off) = .shared)) ∧ (addrAdd ((s.kBank (.eng p)).get an) off) % 2 ^ wd = 0)
    ∧ (∃ (p : Fin 72) (w : Word) (s : State) (t : State) (rd : Nat) (wd : Nat) (an : Nat) (off : Int) (post : KPost), s.fetched (.eng p) w = some t ∧ kOp w = some (.mem true false rd wd an off post) ∧ (s.kBank (.eng p)).poisAny (post.uses an) = false ∧ ((engRegion (addrAdd ((s.kBank (.eng p)).get an) off) = .localRam ∨ engRegion (addrAdd ((s.kBank (.eng p)).get an) off) = .shared)) ∧ (addrAdd ((s.kBank (.eng p)).get an) off) % 2 ^ wd = 0 ∧ t.mirrorOf p = none)
    ∧ (∃ (p : Fin 72) (w : Word) (s : State) (t : State) (rd : Nat) (wd : Nat) (an : Nat) (off : Int) (post : KPost), s.fetched (.eng p) w = some t ∧ kOp w = some (.mem true true rd wd an off post) ∧ (s.kBank (.eng p)).poisAny (post.uses an) = false ∧ ((engRegion (addrAdd ((s.kBank (.eng p)).get an) off) = .localRam ∨ engRegion (addrAdd ((s.kBank (.eng p)).get an) off) = .shared)) ∧ (addrAdd ((s.kBank (.eng p)).get an) off) % 2 ^ wd = 0 ∧ t.mirrorOf p = none)
    ∧ (∃ (p : Fin 72) (w : Word) (s : State) (t : State) (rd : Nat) (wd : Nat) (an : Nat) (off : Int) (post : KPost), s.fetched (.eng p) w = some t ∧ kOp w = some (.mem true false rd wd an off post) ∧ (s.kBank (.eng p)).poisAny (post.uses an) = false ∧ ((engRegion (addrAdd ((s.kBank (.eng p)).get an) off) = .loopBuf ∨ engRegion (addrAdd ((s.kBank (.eng p)).get an) off) = .code)) ∧ (addrAdd ((s.kBank (.eng p)).get an) off) % 2 ^ wd = 0 ∧ (t.eng p).codeBuf.length < 16)
    ∧ (∃ (p : Fin 72) (w : Word) (s : State) (t : State) (rd : Nat) (wd : Nat) (an : Nat) (off : Int) (post : KPost), s.fetched (.eng p) w = some t ∧ kOp w = some (.mem true false rd wd an off post) ∧ (s.kBank (.eng p)).poisAny (post.uses an) = false ∧ engRegion (addrAdd ((s.kBank (.eng p)).get an) off) = .window ∧ wd = 2 ∧ (addrAdd ((s.kBank (.eng p)).get an) off) % 4 = 0 ∧ (s.kBank (.eng p)).pois rd = false ∧ t.underTest 0 p = false ∧ t.hurdleDrops 0 p = false)
    ∧ (∃ (p : Fin 72) (w : Word) (s : State) (t : State) (rd : Nat) (wd : Nat) (an : Nat) (off : Int) (post : KPost), s.fetched (.eng p) w = some t ∧ kOp w = some (.mem true false rd wd an off post) ∧ (s.kBank (.eng p)).poisAny (post.uses an) = false ∧ engRegion (addrAdd ((s.kBank (.eng p)).get an) off) = .sys ∧ (addrAdd ((s.kBank (.eng p)).get an) off) % 2 ^ wd = 0 ∧ (if wd = 3 then [(s.kBank (.eng p)).pois rd, (s.kBank (.eng p)).pois (rd + 1)] else [(s.kBank (.eng p)).pois rd]).any id = false ∧ (t.eng p).stores.length < 8 ∧ t.underTest 0 p = false ∧ t.hurdleDrops 0 p = false)
    ∧ (∃ (p : Fin 72) (w : Word) (s : State) (t : State) (rd : Nat) (wd : Nat) (an : Nat) (off : Int) (post : KPost), s.fetched (.eng p) w = some t ∧ kOp w = some (.mem false false rd wd an off post) ∧ (s.kBank (.eng p)).poisAny (post.uses an) = false ∧ engRegion (addrAdd ((s.kBank (.eng p)).get an) off) = .sys ∧ (addrAdd ((s.kBank (.eng p)).get an) off) % 2 ^ wd = 0)
    ∧ (∃ (p : Fin 72) (w : Word) (s : State) (t : State) (rd : Nat) (wd : Nat) (an : Nat) (off : Int) (post : KPost), s.fetched (.eng p) w = some t ∧ kOp w = some (.mem false false rd wd an off post) ∧ (s.kBank (.eng p)).poisAny (post.uses an) = false ∧ ((engRegion (addrAdd ((s.kBank (.eng p)).get an) off) = .localRam ∨ engRegion (addrAdd ((s.kBank (.eng p)).get an) off) = .shared)) ∧ (addrAdd ((s.kBank (.eng p)).get an) off) % 2 ^ wd ≠ 0) :=
  ⟨⟨3, (kEnc 0 (.mem false false ((2 : Nat)) ((0 : Nat)) ((17 : Nat)) ((3 : Int)) ((.keep : KPost)))), krun, krun, 2, 0, 17, 3, .keep, (by decide +kernel), (by decide +kernel), (by decide +kernel), (by decide +kernel), (by decide +kernel)⟩,
    ⟨3, (kEnc 0 (.mem false false ((2 : Nat)) ((1 : Nat)) ((17 : Nat)) ((2 : Int)) ((.keep : KPost)))), krun, krun, 2, 1, 17, 2, .keep, (by decide +kernel), (by decide +kernel), (by decide +kernel), (by decide +kernel), (by decide +kernel), (by decide +kernel)⟩,
    ⟨3, (kEnc 0 (.mem false false ((2 : Nat)) ((2 : Nat)) ((17 : Nat)) ((0 : Int)) ((.plus4 : KPost)))), krun, krun, 2, 2, 17, 0, .plus4, (by decide +kernel), (by decide +kernel), (by decide +kernel), (by decide +kernel), (by decide +kernel), (by decide +kernel)⟩,
    ⟨3, (kEnc 0 (.mem false false ((2 : Nat)) ((3 : Nat)) ((17 : Nat)) ((8 : Int)) ((.keep : KPost)))), krun, krun, 2, 3, 17, 8, .keep, (by decide +kernel), (by decide +kernel), (by decide +kernel), (by decide +kernel), (by decide +kernel), (by decide +kernel)⟩,
    ⟨3, (kEnc 0 (.mem false true ((2 : Nat)) ((2 : Nat)) ((17 : Nat)) ((0 : Int)) (((.modM 25) : KPost)))), krun, krun, 2, 2, 17, 0, ((.modM 25)), (by decide +kernel), (by decide +kernel), (by decide +kernel), (by decide +kernel), (by decide +kernel)⟩,
    ⟨3, (kEnc 0 (.mem true false ((2 : Nat)) ((2 : Nat)) ((17 : Nat)) ((8 : Int)) ((.keep : KPost)))), krun, krun, 2, 2, 17, 8, .keep, (by decide +kernel), (by decide +kernel), (by decide +kernel), (by decide +kernel), (by decide +kernel), (by decide +kernel)⟩,
    ⟨3, (kEnc 0 (.mem true true ((2 : Nat)) ((2 : Nat)) ((17 : Nat)) ((0 : Int)) (((.modM 25) : KPost)))), krun, krun, 2, 2, 17, 0, ((.modM 25)), (by decide +kernel), (by decide +kernel), (by decide +kernel), (by decide +kernel), (by decide +kernel), (by decide +kernel)⟩,
    ⟨3, (kEnc 0 (.mem true false ((2 : Nat)) ((2 : Nat)) ((19 : Nat)) ((0 : Int)) ((.keep : KPost)))), krun, krun, 2, 2, 19, 0, .keep, (by decide +kernel), (by decide +kernel), (by decide +kernel), (by decide +kernel), (by decide +kernel), (by decide +kernel)⟩,
    ⟨3, (kEnc 0 (.mem true false ((2 : Nat)) ((2 : Nat)) ((22 : Nat)) ((0 : Int)) ((.keep : KPost)))), krunw, krunw, 2, 2, 22, 0, .keep, (by decide +kernel), (by decide +kernel), (by decide +kernel), (by decide +kernel), (by decide +kernel), (by decide +kernel), (by decide +kernel), (by decide +kernel), (by decide +kernel)⟩,
    ⟨3, (kEnc 0 (.mem true false ((2 : Nat)) ((2 : Nat)) ((21 : Nat)) ((0 : Int)) ((.keep : KPost)))), krunw, krunw, 2, 2, 21, 0, .keep, (by decide +kernel), (by decide +kernel), (by decide +kernel), (by decide +kernel), (by decide +kernel), (by decide +kernel), (by decide +kernel), (by decide +kernel), (by decide +kernel)⟩,
    ⟨3, (kEnc 0 (.mem false false ((2 : Nat)) ((2 : Nat)) ((21 : Nat)) ((0 : Int)) ((.keep : KPost)))), krunw, krunw, 2, 2, 21, 0, .keep, (by decide +kernel), (by decide +kernel), (by decide +kernel), (by decide +kernel), (by decide +kernel)⟩,
    ⟨3, (kEnc 0 (.mem false false ((2 : Nat)) ((2 : Nat)) ((17 : Nat)) ((2 : Int)) ((.keep : KPost)))), krun, krun, 2, 2, 17, 2, .keep, (by decide +kernel), (by decide +kernel), (by decide +kernel), (by decide +kernel), (by decide +kernel)⟩⟩

/-- States and operands that meet the hypotheses of each clause of `ShepherdInstructions`. -/
theorem test_premises_of_shepherd_instructions :
    (∃ (w : Word) (s : State) (t : State) (rd : Nat) (an : Nat) (off : Int), s.fetched .shep w = some t ∧ kOp w = some (.mem false false rd 2 an off .keep) ∧ (s.kBank .shep).pois an = false ∧ (addrAdd ((s.kBank .shep).get an) off) + 4 ≤ 0x100000 ∧ (addrAdd ((s.kBank .shep).get an) off) % 4 = 0 ∧ t.mpuOk t.shOuter t.shSup (addrAdd ((s.kBank .shep).get an) off) 4 .read = true ∧ t.watch (addrAdd ((s.kBank .shep).get an) off) 4 false (t.bytesNat (tcmBase + (addrAdd ((s.kBank .shep).get an) off)) 4) = (false, t))
    ∧ (∃ (w : Word) (s : State) (t : State) (rd : Nat) (an : Nat) (off : Int), s.fetched .shep w = some t ∧ kOp w = some (.mem true false rd 2 an off .keep) ∧ (s.kBank .shep).pois an = false ∧ (addrAdd ((s.kBank .shep).get an) off) + 4 ≤ 0x100000 ∧ (addrAdd ((s.kBank .shep).get an) off) % 4 = 0 ∧ t.mpuOk t.shOuter t.shSup (addrAdd ((s.kBank .shep).get an) off) 4 .write = true ∧ t.watch (addrAdd ((s.kBank .shep).get an) off) 4 true ((s.kBank .shep).get rd % 2 ^ 32) = (false, t))
    ∧ (∃ (w : Word) (s : State) (t : State) (hi : Nat), s.fetched .shep w = some t ∧ kOp w = some (.sup 2 hi) ∧ t.shSup = true)
    ∧ (∃ (w : Word) (s : State) (t : State) (hi : Nat), s.fetched .shep w = some t ∧ kOp w = some (.sup 3 hi) ∧ t.shSup = true ∧ (s.kBank .shep).pois (bitsOf hi 12 4) = false)
    ∧ (∃ (w : Word) (s : State) (t : State) (hi : Nat), s.fetched .shep w = some t ∧ kOp w = some (.sup 3 hi) ∧ t.shSup = false)
    ∧ (∃ (w : Word) (s : State) (t : State) (hi : Nat) (v : Nat), s.fetched .shep w = some t ∧ kOp w = some (.sup 4 hi) ∧ t.sysReg (bitsOf hi 0 12) = some v ∧ t.sysDenied (bitsOf hi 0 12) false = false)
    ∧ (∃ (w : Word) (s : State) (t : State) (hi : Nat), s.fetched .shep w = some t ∧ kOp w = some (.sup 5 hi) ∧ (t.sysReg (bitsOf hi 0 12)).isSome = true ∧ t.sysDenied (bitsOf hi 0 12) true = false ∧ (s.kBank .shep).pois (bitsOf hi 12 4) = false)
    ∧ (∃ (w : Word) (s : State) (t : State) (hi : Nat), s.fetched .shep w = some t ∧ kOp w = some (.sup 6 hi) ∧ t.shSup = true ∧ t.shOuter = false ∧ 2 ≤ hi / 2 ^ 14 ∧ t.flag SH_CTRL fSH_CTRL_OENA = true)
    ∧ (∃ (w : Word) (s : State) (t : State) (hi : Nat), s.fetched .shep w = some t ∧ kOp w = some (.sup 6 hi) ∧ t.shSup = true ∧ hi / 2 ^ 14 = 3 ∧ t.shOuter = true)
    ∧ (∃ (w : Word) (s : State) (t : State) (hi : Nat) (d : Desc) (outer : Bool), s.fetched .shep w = some t ∧ kOp w = some (.sup 0 hi) ∧ t.gateDesc (hi / 256) = some (d, outer) ∧ d.stack = 0 ∧ ((t.shSup = false ∨ d.sup = true)) ∧ (s.kBank .shep).poisAny (gateUses d) = false ∧ ((s.kBank .shep).gd 7).toNat = bitsOf d.w3 20 3 ∧ (firstIdx (t.badPointer (s.kBank .shep) d) 4).isSome = false ∧ (((s.kBank .shep).get 22 + 2 ^ 24 - 16) % 2 ^ 24) + 16 ≤ 0x100000 ∧ (((s.kBank .shep).get 22 + 2 ^ 24 - 16) % 2 ^ 24) % 4 = 0 ∧ t.mpuOk outer d.sup (((s.kBank .shep).get 22 + 2 ^ 24 - 16) % 2 ^ 24) 16 .write = true ∧ d.atomic = 0)
    ∧ (∃ (w : Word) (s : State) (t : State) (hi : Nat), s.fetched .shep w = some t ∧ kOp w = some (.sup 0 hi) ∧ t.gateDesc (hi / 256) = none)
    ∧ (∃ (w : Word) (s : State) (t : State) (hi : Nat), s.fetched .shep w = some t ∧ kOp w = some (.sup 1 hi) ∧ t.shBankNo = 0 ∧ (s.kBank .shep).pois 22 = false ∧ ((s.kBank .shep).get 22) + 16 ≤ 0x100000 ∧ ((s.kBank .shep).get 22) % 4 = 0 ∧ t.poisoned (tcmBase + ((s.kBank .shep).get 22)) = false ∧ t.poisoned (tcmBase + ((s.kBank .shep).get 22) + 4) = false ∧ t.sh.aopen = 0)
    ∧ (∃ (w : Word) (s : State) (t : State) (hi : Nat), s.fetched .shep w = some t ∧ kOp w = some (.sup 1 hi) ∧ t.shBankNo = 1 ∧ t.sh.outerSleep = false) :=
  ⟨⟨(kEnc 0 (.mem false false ((2 : Nat)) 2 ((17 : Nat)) ((4 : Int)) .keep)), srun, srun, 2, 17, 4, (by decide +kernel), (by decide +kernel), (by decide +kernel), (by decide +kernel), (by decide +kernel), (by decide +kernel), (by decide +kernel)⟩,
    ⟨(kEnc 0 (.mem true false ((2 : Nat)) 2 ((17 : Nat)) ((4 : Int)) .keep)), srun, srun, 2, 17, 4, (by decide +kernel), (by decide +kernel), (by decide +kernel), (by decide +kernel), (by decide +kernel), (by decide +kernel), (by decide +kernel)⟩,
    ⟨(kEnc 0 (.sup 2 ((0x5140 : Nat)))), srun, srun, 0x5140, (by decide +kernel), (by decide +kernel), (by decide +kernel)⟩,
    ⟨(kEnc 0 (.sup 3 ((0x3140 : Nat)))), srun, srun, 0x3140, (by decide +kernel), (by decide +kernel), (by decide +kernel), (by decide +kernel)⟩,
    ⟨(kEnc 0 (.sup 3 ((0x5140 : Nat)))), ((srunm.setFlag SH_STAT fSH_STAT_LEVEL false)), ((srunm.setFlag SH_STAT fSH_STAT_LEVEL false)), 0x5140, (by decide +kernel), (by decide +kernel), (by decide +kernel)⟩,
    ⟨(kEnc 0 (.sup 4 ((0x5001 : Nat)))), srun, srun, 0x5001, 0, (by decide +kernel), (by decide +kernel), (by decide +kernel), (by decide +kernel)⟩,
    ⟨(kEnc 0 (.sup 5 ((0x3001 : Nat)))), srun, srun, 0x3001, (by decide +kernel), (by decide +kernel), (by decide +kernel), (by decide +kernel), (by decide +kernel)⟩,
    ⟨(kEnc 0 (.sup 6 ((0xC000 : Nat)))), ((srun.setFlag SH_CTRL fSH_CTRL_OENA true)), ((srun.setFlag SH_CTRL fSH_CTRL_OENA true)), 0xC000, (by decide +kernel), (by decide +kernel), (by decide +kernel), (by decide +kernel), (by decide +kernel), (by decide +kernel)⟩,
    ⟨(kEnc 0 (.sup 6 ((0xC000 : Nat)))), ((srunm.setFlag SH_STAT fSH_STAT_WORLD true)), ((srunm.setFlag SH_STAT fSH_STAT_WORLD true)), 0xC000, (by decide +kernel), (by decide +kernel), (by decide +kernel), (by decide +kernel), (by decide +kernel)⟩,
    ⟨(kEnc 0 (.sup 0 ((0x2000 : Nat)))), srung, srung, 0x2000, ({ valid := true, handler := 0x100100, type := 2, sup := true }), false, (by decide +kernel), (by decide +kernel), (by decide +kernel), (by decide +kernel), (by decide +kernel), (by decide +kernel), (by decide +kernel), (by decide +kernel), (by decide +kernel), (by decide +kernel), (by decide +kernel), (by decide +kernel)⟩,
    ⟨(kEnc 0 (.sup 0 ((0x2000 : Nat)))), srun, srun, 0x2000, (by decide +kernel), (by decide +kernel), (by decide +kernel)⟩,
    ⟨(kEnc 0 (.sup 1 ((0 : Nat)))), srun, srun, 0, (by decide +kernel), (by decide +kernel), (by decide +kernel), (by decide +kernel), (by decide +kernel), (by decide +kernel), (by decide +kernel), (by decide +kernel), (by decide +kernel)⟩,
    ⟨(kEnc 0 (.sup 1 ((0 : Nat)))), (((srun.setFld SH_STAT fSH_STAT_BANK 1).setShBankAt 1 kbank)), (((srun.setFld SH_STAT fSH_STAT_BANK 1).setShBankAt 1 kbank)), 0, (by decide +kernel), (by decide +kernel), (by decide +kernel), (by decide +kernel)⟩⟩

/-- States and operands that meet the hypotheses of each clause of `KamynQueues`. -/
theorem test_premises_of_kamyn_queues :
    (∃ (p : Fin 72) (w : Word) (s : State) (t : State) (n : Nat) (q : Nat) (dr : Nat) (st : Nat) (qv : Nat) (e : List QWord) (u : State), s.fetched (.eng p) w = some t ∧ kOp w = some (.queue 0 n q dr st qv) ∧ q = 0 ∧ t.qBusy (4 * p + qv) = false ∧ t.underTest 0 p = false ∧ t.hurdleDrops 0 p = false ∧ t.qGet (4 * p + qv) (.eng p) (t.carriedInc (4 * p + qv) (.eng p)) = (.done, e, u))
    ∧ (∃ (p : Fin 72) (w : Word) (s : State) (t : State) (n : Nat) (q : Nat) (dr : Nat) (st : Nat) (qv : Nat) (u : State), s.fetched (.eng p) w = some t ∧ kOp w = some (.queue 0 n q dr st qv) ∧ q = 0 ∧ t.qBusy (4 * p + qv) = false ∧ t.underTest 0 p = false ∧ t.hurdleDrops 0 p = false ∧ t.qGet (4 * p + qv) (.eng p) (t.carriedInc (4 * p + qv) (.eng p)) = (.empty, [], u) ∧ st = 0)
    ∧ (∃ (p : Fin 72) (w : Word) (s : State) (t : State) (n : Nat) (q : Nat) (dr : Nat) (st : Nat) (qv : Nat) (u : State), s.fetched (.eng p) w = some t ∧ kOp w = some (.queue 1 n q dr st qv) ∧ q = 0 ∧ t.qBusy (4 * p + qv) = false ∧ t.underTest 0 p = false ∧ t.hurdleDrops 0 p = false ∧ n = 0 ∧ t.qWords (4 * p + qv) = 2 ∧ t.qPut (4 * p + qv) (.eng p) (t.carriedInc (4 * p + qv) (.eng p)) (padWords 2 [((s.kBank (.eng p)).gd dr, (s.kBank (.eng p)).pois dr)]) = (.done, u))
    ∧ (∃ (p : Fin 72) (w : Word) (s : State) (t : State) (n : Nat) (q : Nat) (dr : Nat) (st : Nat) (qv : Nat) (u : State), s.fetched (.eng p) w = some t ∧ kOp w = some (.queue 1 n q dr st qv) ∧ q = 0 ∧ t.qBusy (4 * p + qv) = false ∧ t.underTest 0 p = false ∧ t.hurdleDrops 0 p = false ∧ n = 0 ∧ t.qWords (4 * p + qv) = 2 ∧ t.qPut (4 * p + qv) (.eng p) (t.carriedInc (4 * p + qv) (.eng p)) (padWords 2 [((s.kBank (.eng p)).gd dr, (s.kBank (.eng p)).pois dr)]) = (.full, u) ∧ st = 0)
    ∧ (∃ (p : Fin 72) (w : Word) (s : State) (t : State) (n : Nat) (q : Nat) (dr : Nat) (st : Nat) (qv : Nat) (v0 : QWord) (v1 : QWord) (u : State), s.fetched (.eng p) w = some t ∧ kOp w = some (.queue 2 n q dr st qv) ∧ q = 0 ∧ t.qBusy (4 * p + qv) = false ∧ t.underTest 0 p = false ∧ t.hurdleDrops 0 p = false ∧ n = 1 ∧ (s.kBank (.eng p)).pois (16 + dr) = false ∧ t.qWords (4 * p + qv) = 2 ∧ ((s.kBank (.eng p)).get (16 + dr)) % 4 = 0 ∧ ((s.kBank (.eng p)).get (16 + dr)) + 8 ≤ 0x10000 ∧ t.qGet (4 * p + qv) (.eng p) (t.carriedInc (4 * p + qv) (.eng p)) = (.done, [v0, v1], u))
    ∧ (∃ (p : Fin 72) (w : Word) (s : State) (t : State) (n : Nat) (q : Nat) (dr : Nat) (st : Nat) (qv : Nat) (u : State), s.fetched (.eng p) w = some t ∧ kOp w = some (.queue 3 n q dr st qv) ∧ q = 0 ∧ t.qBusy (4 * p + qv) = false ∧ t.underTest 0 p = false ∧ t.hurdleDrops 0 p = false ∧ n = 1 ∧ (s.kBank (.eng p)).pois (16 + dr) = false ∧ t.qWords (4 * p + qv) = 2 ∧ ((s.kBank (.eng p)).get (16 + dr)) % 4 = 0 ∧ ((s.kBank (.eng p)).get (16 + dr)) + 8 ≤ 0x10000 ∧ t.qPut (4 * p + qv) (.eng p) (t.carriedInc (4 * p + qv) (.eng p)) [((t.codeWriteOut p).mword (engPhys p ((s.kBank (.eng p)).get (16 + dr))), (t.codeWriteOut p).poisoned (engPhys p ((s.kBank (.eng p)).get (16 + dr)))), ((t.codeWriteOut p).mword (engPhys p (((s.kBank (.eng p)).get (16 + dr)) + 4)), (t.codeWriteOut p).poisoned (engPhys p (((s.kBank (.eng p)).get (16 + dr)) + 4)))] = (.done, u))
    ∧ (∃ (p : Fin 72) (w : Word) (s : State) (t : State) (n : Nat) (q : Nat) (dr : Nat) (st : Nat) (qv : Nat), s.fetched (.eng p) w = some t ∧ kOp w = some (.queue 4 n q dr st qv) ∧ q = 0 ∧ t.qBusy (4 * p + qv) = false ∧ t.underTest 0 p = false ∧ t.hurdleDrops 0 p = false ∧ t.qCheck (4 * p + qv) (.eng p) (t.carriedInc (4 * p + qv) (.eng p)) = (none, t))
    ∧ (∃ (p : Fin 72) (w : Word) (s : State) (t : State) (pw : Nat) (ds : Nat) (cmp : Nat) (mode : Nat) (tp : Nat) (g : Nat) (fmt : Bool), s.fetched (.eng p) w = some t ∧ kOp w = some (.pwd pw ds cmp mode tp fmt) ∧ (t.eng p).path = [] ∧ mode ≠ 2 ∧ t.findGen pw = some g ∧ t.unitFlock 1 g = t.leFlock p ∧ t.shadowOf g = none ∧ t.underTest 0 p = false ∧ t.hurdleDrops 0 p = false) :=
  ⟨⟨3, (kEnc 0 (.queue 0 ((0 : Nat)) ((0 : Nat)) ((2 : Nat)) ((5 : Nat)) ((1 : Nat)))), krunq, krunq, 0, 0, 2, 5, 1, ([(9, false), (8, false)]), ((krunq.qGet 13 (.eng 3) 0).2.2), (by decide +kernel), (by decide +kernel), (by decide +kernel), (by decide +kernel), (by decide +kernel), (by decide +kernel), (by decide +kernel)⟩,
    ⟨3, (kEnc 0 (.queue 0 ((0 : Nat)) ((0 : Nat)) ((2 : Nat)) ((0 : Nat)) ((1 : Nat)))), krune, krune, 0, 0, 2, 0, 1, ((krune.qGet 13 (.eng 3) 0).2.2), (by decide +kernel), (by decide +kernel), (by decide +kernel), (by decide +kernel), (by decide +kernel), (by decide +kernel), (by decide +kernel), (by decide +kernel)⟩,
    ⟨3, (kEnc 0 (.queue 1 ((0 : Nat)) ((0 : Nat)) ((2 : Nat)) ((5 : Nat)) ((1 : Nat)))), krune, krune, 0, 0, 2, 5, 1, ((krune.qPut 13 (.eng 3) 0 (padWords 2 [(7, false)])).2), (by decide +kernel), (by decide +kernel), (by decide +kernel), (by decide +kernel), (by decide +kernel), (by decide +kernel), (by decide +kernel), (by decide +kernel), (by decide +kernel)⟩,
    ⟨3, (kEnc 0 (.queue 1 ((0 : Nat)) ((0 : Nat)) ((2 : Nat)) ((0 : Nat)) ((1 : Nat)))), krunf, krunf, 0, 0, 2, 0, 1, ((krunf.qPut 13 (.eng 3) 0 (padWords 2 [(7, false)])).2), (by decide +kernel), (by decide +kernel), (by decide +kernel), (by decide +kernel), (by decide +kernel), (by decide +kernel), (by decide +kernel), (by decide +kernel), (by decide +kernel), (by decide +kernel)⟩,
    ⟨3, (kEnc 0 (.queue 2 ((1 : Nat)) ((0 : Nat)) ((1 : Nat)) ((5 : Nat)) ((1 : Nat)))), krunq, krunq, 1, 0, 1, 5, 1, ((9, false)), ((8, false)), ((krunq.qGet 13 (.eng 3) 0).2.2), (by decide +kernel), (by decide +kernel), (by decide +kernel), (by decide +kernel), (by decide +kernel), (by decide +kernel), (by decide +kernel), (by decide +kernel), (by decide +kernel), (by decide +kernel), (by decide +kernel), (by decide +kernel)⟩,
    ⟨3, (kEnc 0 (.queue 3 ((1 : Nat)) ((0 : Nat)) ((1 : Nat)) ((5 : Nat)) ((1 : Nat)))), krune, krune, 1, 0, 1, 5, 1, ((krune.qPut 13 (.eng 3) 0 [(0, false), (0, false)]).2), (by decide +kernel), (by decide +kernel), (by decide +kernel), (by decide +kernel), (by decide +kernel), (by decide +kernel), (by decide +kernel), (by decide +kernel), (by decide +kernel), (by decide +kernel), (by decide +kernel), (by decide +kernel)⟩,
    ⟨3, (kEnc 0 (.queue 4 ((0 : Nat)) ((0 : Nat)) ((2 : Nat)) ((5 : Nat)) ((1 : Nat)))), krunq, krunq, 0, 0, 2, 5, 1, (by decide +kernel), (by decide +kernel), (by decide +kernel), (by decide +kernel), (by decide +kernel), (by decide +kernel), (by decide +kernel)⟩,
    ⟨3, (kEnc 0 (.pwd ((4 : Nat)) ((2 : Nat)) ((1 : Nat)) ((1 : Nat)) ((0 : Nat)) ((false : Bool)))), krung, krung, 4, 2, 1, 1, 0, 4, false, (by decide +kernel), (by decide +kernel), (by decide +kernel), (by decide +kernel), (by decide +kernel), (by decide +kernel), (by decide +kernel), (by decide +kernel), (by decide +kernel)⟩⟩

/-- States and operands that meet the hypotheses of each clause of `EngineFaults`. -/
theorem test_premises_of_engine_faults :
    (∃ (p : Fin 72) (w : Word) (s : State) (t : State) (op : Nat) (hi : Nat), s.issued (.eng p) w = some t ∧ kOp w = some (.sup op hi))
    ∧ (∃ (p : Fin 72) (w : Word) (s : State) (t : State), s.issued (.eng p) w = some t ∧ kOp w = none)
    ∧ (∃ (w : Word) (s : State) (t : State), s.issued .shep w = some t ∧ kOp w = none)
    ∧ (∃ (p : Fin 72) (s : State) (k : Nat) (cause : Nat) (addr : Nat), s.running p = some k ∧ s.leFaulted p = false ∧ (s.slot p k).pend = none ∧ s.underTest 0 p = false ∧ s.hurdleDrops 0 p = false)
    ∧ (∃ (p : Fin 72) (s : State) (k : Nat) (cause : Nat) (addr : Nat), s.running p = some k ∧ s.leFaulted p = true) :=
  ⟨⟨3, (kEnc 0 (.sup 1 0)), krun, krun, 1, 0, (by decide +kernel), (by decide +kernel)⟩,
    ⟨3, 0xA000, krun, krun, (by decide +kernel), (by decide +kernel)⟩,
    ⟨0xA000, srun, srun, (by decide +kernel), (by decide +kernel)⟩,
    ⟨3, krun, 0, 5, 0x77, (by decide +kernel), (by decide +kernel), (by decide +kernel), (by decide +kernel), (by decide +kernel)⟩,
    ⟨3, (krun.setNat (LE_FAULT 3) 0x21), 0, 5, 0x77, (by decide +kernel), (by decide +kernel)⟩⟩


/-- States and operands that meet the hypotheses of each clause of `KamynDecodeEncode`. -/
theorem test_premises_of_kamyn_decode_encode :
    (∃ (op : KOp) (g : Nat), g < 8 ∧ kAdmits op = true)
    ∧ (∃ (op : KOp) (g : Nat), g < 8 ∧ kAdmits op = true ∧ kWide (kEnc g op) = true)
    ∧ (∃ (w : Word) (op : KOp), kOp w = some op) :=
  ⟨⟨(.alu 0x26 15 15 15 false), 7, (by decide +kernel), (by decide +kernel)⟩,
    ⟨(.alu 0x26 15 15 15 false), 7, (by decide +kernel), (by decide +kernel), (by decide +kernel)⟩,
    ⟨0x3A12E016, (.queue 1 1 2 3 5 9), (by decide +kernel)⟩⟩

/-- States and operands that meet the hypotheses of each clause of `KamynFrames`. -/
theorem test_premises_of_kamyn_frames :
    (∃ (i : Core → Word → Instr) (p : Fin 72) (w : Word) (s : State) (u : State) (f : Nat) (rd : Nat) (ra : Nat) (rb : Nat) (x : Bool), i ∈ [.add, .sub, .neg, .abs, .mul, .mull, .mulh, .add2, .sub2, .mul2, .min, .max, .clip, .norm, .and, .or, .xor, .andn, .not, .shl, .shr, .sar, .ceq, .cne, .clt, .cle, .cltu, .cleu, .ctst] ∧ s.fetched (.eng p) w = some s ∧ s.late p = false ∧ kOp w = some (.alu f rd ra rb x) ∧ exec (i (.eng p) w) s = .next u)
    ∧ (∃ (i : Core → Word → Instr) (p : Fin 72) (w : Word) (s : State) (u : State) (f : Nat) (rd : Nat) (ra : Nat) (rb : Nat) (x : Bool), i ∈ [.macF, .macI, .macD, .msuF, .msuI, .msuD, .mpyF, .mpyI, .mpyD, .aclr, .acadd, .acsub, .acneg, .acsh, .sac, .ldac, .acrd, .acwr] ∧ s.fetched (.eng p) w = some s ∧ s.late p = false ∧ kOp w = some (.acc f rd ra rb x) ∧ exec (i (.eng p) w) s = .next u)
    ∧ (∃ (i : Core → Word → Instr) (p : Fin 72) (w : Word) (s : State) (u : State) (op : KOp) (rd : Nat), i ∈ [.adda, .suba, .addaa, .moda, .movi, .movhi, .addi, .ori, .mov, .shli, .shri, .sari, .ceqi, .clti, .andi] ∧ s.fetched (.eng p) w = some s ∧ s.late p = false ∧ kOp w = some op ∧ (((∃ f ra rb, op = .addr f rd ra rb) ∨ (∃ f v, op = .imm f rd v) ∨ (∃ f v, op = .alui f rd v) ∨ (∃ rs, op = .mov rd rs))) ∧ exec (i (.eng p) w) s = .next u)
    ∧ (∃ (i : Core → Word → Instr) (p : Fin 72) (w : Word) (s : State) (u : State) (post32 : Bool) (rd : Nat) (wd : Nat) (an : Nat) (off : Int) (post : KPost), i ∈ [.ld, .ldPostModify] ∧ s.fetched (.eng p) w = some s ∧ s.late p = false ∧ kOp w = some (.mem false post32 rd wd an off post) ∧ (s.kBank (.eng p)).poisAny (post.uses an) = false ∧ ((engRegion (addrAdd ((s.kBank (.eng p)).get an) off) = .localRam ∨ engRegion (addrAdd ((s.kBank (.eng p)).get an) off) = .shared)) ∧ (addrAdd ((s.kBank (.eng p)).get an) off) % 2 ^ wd = 0 ∧ exec (i (.eng p) w) s = .next u)
    ∧ (∃ (i : Core → Word → Instr) (p : Fin 72) (w : Word) (s : State) (u : State) (post32 : Bool) (rd : Nat) (wd : Nat) (an : Nat) (off : Int) (post : KPost), i ∈ [.st, .stPostModify] ∧ s.fetched (.eng p) w = some s ∧ s.late p = false ∧ kOp w = some (.mem true post32 rd wd an off post) ∧ (s.kBank (.eng p)).poisAny (post.uses an) = false ∧ ((engRegion (addrAdd ((s.kBank (.eng p)).get an) off) = .localRam ∨ engRegion (addrAdd ((s.kBank (.eng p)).get an) off) = .shared)) ∧ (addrAdd ((s.kBank (.eng p)).get an) off) % 2 ^ wd = 0 ∧ s.mirrorOf p = none ∧ ((engRegion (addrAdd ((s.kBank (.eng p)).get an) off) = .shared → s.lanes = [] ∧ s.laneOld = [])) ∧ exec (i (.eng p) w) s = .next u)
    ∧ (∃ (i : Core → Word → Instr) (p : Fin 72) (w : Word) (s : State) (u : State) (post32 : Bool) (rd : Nat) (wd : Nat) (an : Nat) (off : Int) (post : KPost), i ∈ [.st, .stPostModify] ∧ s.fetched (.eng p) w = some s ∧ s.late p = false ∧ kOp w = some (.mem true post32 rd wd an off post) ∧ (s.kBank (.eng p)).poisAny (post.uses an) = false ∧ (s.kBank (.eng p)).pois rd = false ∧ (s.kBank (.eng p)).pois (rd + 1) = false ∧ (addrAdd ((s.kBank (.eng p)).get an) off) % 2 ^ wd = 0 ∧ (((engRegion (addrAdd ((s.kBank (.eng p)).get an) off) = .loopBuf ∨ engRegion (addrAdd ((s.kBank (.eng p)).get an) off) = .code) ∧ (s.eng p).codeBuf.length < 16) ∨ (engRegion (addrAdd ((s.kBank (.eng p)).get an) off) = .window ∧ wd = 2) ∨ engRegion (addrAdd ((s.kBank (.eng p)).get an) off) = .sys) ∧ s.underTest 0 p = false ∧ s.hurdleDrops 0 p = false ∧ exec (i (.eng p) w) s = .next u) :=
  ⟨⟨.add, 3, (kEnc 0 (.alu 0 1 2 3 false)), krun, (nextOf (exec (.add (.eng 3) (kEnc 0 (.alu 0 1 2 3 false))) krun)), 0, 1, 2, 3, false, (by simp), (by decide +kernel), (by decide +kernel), (by decide +kernel), (eq_nextOf (by decide +kernel))⟩,
    ⟨.macI, 3, (kEnc 0 (.acc 1 29 3 6 false)), krun, (nextOf (exec (.macI (.eng 3) (kEnc 0 (.acc 1 29 3 6 false))) krun)), 1, 29, 3, 6, false, (by simp), (by decide +kernel), (by decide +kernel), (by decide +kernel), (eq_nextOf (by decide +kernel))⟩,
    ⟨.mov, 3, (kEnc 0 (.mov 29 2)), krun, (nextOf (exec (.mov (.eng 3) (kEnc 0 (.mov 29 2))) krun)), (.mov 29 2), 29, (by simp), (by decide +kernel), (by decide +kernel), (by decide +kernel), (by simp), (eq_nextOf (by decide +kernel))⟩,
    ⟨.ld, 3, (kEnc 0 (.mem false false 1 2 17 4 .keep)), krun, (nextOf (exec (.ld (.eng 3) (kEnc 0 (.mem false false 1 2 17 4 .keep))) krun)), false, 1, 2, 17, 4, .keep, (by simp), (by decide +kernel), (by decide +kernel), (by decide +kernel), (by decide +kernel), (by decide +kernel), (by decide +kernel), (eq_nextOf (by decide +kernel))⟩,
    ⟨.st, 3, (kEnc 0 (.mem true false 1 2 17 4 .keep)), krun, (nextOf (exec (.st (.eng 3) (kEnc 0 (.mem true false 1 2 17 4 .keep))) krun)), false, 1, 2, 17, 4, .keep, (by simp), (by decide +kernel), (by decide +kernel), (by decide +kernel), (by decide +kernel), (by decide +kernel), (by decide +kernel), (by decide +kernel), (by decide +kernel), (eq_nextOf (by decide +kernel))⟩,
    ⟨.st, 3, (kEnc 0 (.mem true false 1 2 19 4 .keep)), krun, (nextOf (exec (.st (.eng 3) (kEnc 0 (.mem true false 1 2 19 4 .keep))) krun)), false, 1, 2, 19, 4, .keep, (by simp), (by decide +kernel), (by decide +kernel), (by decide +kernel), (by decide +kernel), (by decide +kernel), (by decide +kernel), (by decide +kernel), (by decide +kernel), (by decide +kernel), (by decide +kernel), (eq_nextOf (by decide +kernel))⟩⟩

/-- States and operands that meet the hypotheses of each clause of `SampleIngress`. -/
theorem test_premises_of_sample_ingress :
    (∃ (n : Fin 64) (d : BitVec 24) (tag : BitVec 8) (s : State), s.live = true ∧ bitOf (s.siShown (SI_CFG n)).toNat 0 = false)
    ∧ (∃ (n : Fin 64) (d : BitVec 24) (tag : BitVec 8) (s : State), s.live = true ∧ bitOf (s.siShown (SI_CFG n)).toNat 0 = true ∧ bitOf (s.siShown (SI_CFG n)).toNat 2 = false)
    ∧ (∃ (n : Fin 64) (d : BitVec 24) (tag : BitVec 8) (s : State), s.live = true ∧ bitOf (s.siShown (SI_CFG n)).toNat 0 = true ∧ bitOf (s.siShown (SI_CFG n)).toNat 2 = true)
    ∧ (∃ (x : SampleFly) (s : State), bitOf x.cfg.toNat 3 = false ∧ bitsOf x.cfg.toNat 10 3 = 0 ∧ sat32 (scaleY (sampleV (bitOf x.cfg.toNat 1) x.data) (sInt x.off) (sInt x.gain)) = (scaleY (sampleV (bitOf x.cfg.toNat 1) x.data) (sInt x.off) (sInt x.gain)) ∧ x.nosoc = false)
    ∧ (∃ (x : SampleFly) (s : State), bitsOf x.route.toNat 30 2 = 0)
    ∧ (∃ (x : SampleFly) (s : State) (v : State) (q : Nat), bitsOf x.route.toNat 30 2 ≠ 0 ∧ s.routeQueue x = some q ∧ s.qBusy q = false ∧ s.qPutOne q (.port x.port) x.inc x.entry = (.done, v))
    ∧ (∃ (p : Port) (m : Fin 64) (s : State), s.takes p SI_SOC_FIRE (.ofNat 32 m) = true ∧ s.fld (SI_SOC_SRC m) fSI_SOC_SRC_KIND ≠ 0 ∧ s.si.fires = [])
    ∧ (∃ (p : Port) (m : Fin 64) (s : State), s.takes p SI_SOC_FIRE (.ofNat 32 m) = true ∧ s.fld (SI_SOC_SRC m) fSI_SOC_SRC_KIND = 0)
    ∧ (∃ (u : Nat) (sel : Nat) (m : Nat) (s : State), 48 ≤ u)
    ∧ (∃ (m : Fin 64) (e : Nat) (s : State), s.live = true ∧ tget (fun _ => 0) s.si.high m = e ∧ e ≠ 0 ∧ e ≤ s.fc) :=
  ⟨⟨5, 77, 3, run, (by decide +kernel), (by decide +kernel)⟩,
    ⟨5, 0x400077, 3, (run.setNat (SI_CFG 5) 1 |>.setNat (SI_GAIN 5) 0x20000000), (by decide +kernel), (by decide +kernel), (by decide +kernel)⟩,
    ⟨5, 0x400077, 3, ({ (run.setNat (SI_CFG 5) 0x75).setNat (SI_GAIN 5) 0x20000000 with si := { mark := [(5, true)], socStamp := [(7, 99)], fly := [{ fly0 with port := 9 }] } }), (by decide +kernel), (by decide +kernel), (by decide +kernel)⟩,
    ⟨fly0, run, (by decide +kernel), (by decide +kernel), (by decide +kernel), (by decide +kernel)⟩,
    ⟨({ fly0 with route := 7 }), run, (by decide +kernel)⟩,
    ⟨({ fly0 with route := 0x8000000D }), (krune.setFld (QF_QCFG 13) fQF_QCFG_ESIZE 1), (((krune.setFld (QF_QCFG 13) fQF_QCFG_ESIZE 1).qPutOne 13 (.port 5) 0 fly0.entry).2), 13, (by decide +kernel), (by decide +kernel), (by decide +kernel), (by decide +kernel)⟩,
    ⟨.shepherd, 7, (run.setFld (SI_SOC_SRC 7) fSI_SOC_SRC_KIND 1), (by decide +kernel), (by decide +kernel), (by decide +kernel)⟩,
    ⟨.shepherd, 7, run, (by decide +kernel), (by decide +kernel)⟩,
    ⟨48, 0, 5, run, (by decide +kernel)⟩,
    ⟨7, 4, ({ run with fc := 9, si := { high := [(7, 4)] } }), (by decide +kernel), (by decide +kernel), (by decide +kernel), (by decide +kernel)⟩⟩

/-- States and operands that meet the hypotheses of each clause of `TripsAndArming`. -/
theorem test_premises_of_trips_and_arming :
    (∃ (n : Fin 64) (k : Nat) (s : State), s.pw.fast = true ∧ s.pw.mode = .graze ∧ s.tripEn n = true ∧ (s.tripIn n).inj = none ∧ s.tripLatch n = false)
    ∧ (∃ (n : Fin 64) (k : Nat) (s : State), s.pw.fast = true ∧ s.tripEn n = true ∧ (s.tripIn n).inj = none ∧ s.tripLatch n = true)
    ∧ (∃ (n : Fin 64) (e : Nat) (s : State), (s.tripIn n).inj = none ∧ (s.tripIn n).edge = some e ∧ s.tripLatch n = true ∧ s.tripQual n = false ∧ (s.tripIn n).left = none ∧ s.fc < e + s.fld (TR_CFG n) fTR_CFG_FLT)
    ∧ (∃ (n : Nat) (d : Nat) (s : State), (s.tripIn n).left = some d ∧ s.tripLatch n = true ∧ s.tripEn n = false)
    ∧ (∃ (n : Fin 64) (e : Nat) (s : State), s.live = true ∧ (s.tripIn n).edge = some e ∧ s.tripLatch n = true ∧ (s.tripIn n).left = none ∧ e + 3 + s.fld (TR_CFG n) fTR_CFG_FLT ≤ s.fc)
    ∧ (∃ (n : Fin 64) (e : Nat) (s : State), s.live = true ∧ (s.tripIn n).edge = some e ∧ s.fc < e + 3 + s.fld (TR_CFG n) fTR_CFG_FLT)
    ∧ (∃ (p : Port) (n : Fin 64) (s : State), s.admits p (TR_STAT n) 1 = true ∧ s.tripLatch n = true ∧ s.tripEn n = false ∧ bitOf (s.hotBits (TR_STAT n)).toNat 0 = false)
    ∧ (∃ (p : Port) (n : Fin 64) (s : State), s.admits p (TR_STAT n) 1 = true ∧ s.tripLatch n = true ∧ bitOf (s.hotBits (TR_STAT n)).toNat 0 = true)
    ∧ (∃ (p : Port) (n : Fin 64) (width : BitVec 8) (s : State), s.takes p (TR_INJ n) (.ofNat 32 (2 ^ 31 + width.toNat)) = true ∧ s.inArmedGroup n = true)
    ∧ (∃ (p : Port) (n : Fin 64) (width : BitVec 8) (s : State), s.takes p (TR_INJ n) (.ofNat 32 (2 ^ 31 + width.toNat)) = true ∧ s.inArmedGroup n = false ∧ (s.tripIn n).inj = none ∧ s.tripEn n = false)
    ∧ (∃ (n : Fin 64) (b : Nat) (s : State), s.live = true ∧ (s.tripIn n).inj = some b ∧ b ≤ s.fc ∧ (s.tripIn n).pin = !s.flag (TR_CFG n) fTR_CFG_POL)
    ∧ (∃ (n : Fin 64) (b : Nat) (s : State), s.live = true ∧ (s.tripIn n).inj = some b ∧ s.fc < b)
    ∧ (∃ (p : Port) (r : Fin 32) (s : State) (w : Word), w = .ofNat 32 (1 + r.val * 2 ^ 16 + 0x5A * 2 ^ 24) ∧ s.takes p TR_ARM w = true ∧ r.val ≤ 16 ∧ s.si.prep = none)
    ∧ (∃ (p : Port) (r : Fin 32) (key : BitVec 8) (s : State) (w : Word), w = .ofNat 32 (1 + r.val * 2 ^ 16 + key.toNat * 2 ^ 24) ∧ s.takes p TR_ARM w = true ∧ r.val ≤ 16 ∧ key ≠ 0x5A ∧ s.si.prep = none)
    ∧ (∃ (p : Port) (r : Fin 32) (s : State) (w : Word) (c : Nat), w = .ofNat 32 (2 + r.val * 2 ^ 16 + 0xA5 * 2 ^ 24) ∧ s.takes p TR_ARM w = true ∧ s.si.prep = some (r.val, c) ∧ s.fc < c + 256 ∧ r.val ≤ 16 ∧ s.arInjecting r = false ∧ s.arAsserted r = false)
    ∧ (∃ (p : Port) (r : Fin 32) (s : State) (w : Word), w = .ofNat 32 (2 + r.val * 2 ^ 16 + 0xA5 * 2 ^ 24) ∧ s.takes p TR_ARM w = true ∧ s.si.prep = none ∧ r.val ≤ 16)
    ∧ (∃ (p : Port) (r : Fin 32) (s : State) (w : Word) (c : Nat), w = .ofNat 32 (3 + r.val * 2 ^ 16 + 0xA5 * 2 ^ 24) ∧ s.takes p TR_ARM w = true ∧ s.si.prep = some (r.val, c) ∧ s.fc < c + 256 ∧ r.val ≤ 16 ∧ s.engaged r = false)
    ∧ (∃ (p : Port) (r : Fin 32) (s : State) (w : Word), w = .ofNat 32 (4 + r.val * 2 ^ 16 + 0x3C * 2 ^ 24) ∧ s.takes p TR_ARM w = true ∧ s.si.prep = none ∧ r.val ≤ 16 ∧ s.engaged r = true ∧ s.arAsserted r = false)
    ∧ (∃ (p : Port) (r : Fin 32) (s : State) (w : Word), w = .ofNat 32 (4 + r.val * 2 ^ 16 + 0x3C * 2 ^ 24) ∧ s.takes p TR_ARM w = true ∧ s.si.prep = none ∧ r.val ≤ 16 ∧ s.engaged r = true ∧ s.arAsserted r = true)
    ∧ (∃ (e : Nat) (c : Nat) (s : State), s.live = true ∧ s.si.prep = some (e, c) ∧ c + 256 ≤ s.fc)
    ∧ (∃ (e : Nat) (c : Nat) (s : State), s.live = true ∧ s.si.prep = some (e, c) ∧ s.fc < c + 256) :=
  ⟨⟨5, 3, (run.setFlag (TR_CFG 5) fTR_CFG_EN true), (by decide +kernel), (by decide +kernel), (by decide +kernel), (by decide +kernel), (by decide +kernel)⟩,
    ⟨5, 3, ((run.setFlag (TR_CFG 5) fTR_CFG_EN true).setFlag (TR_STAT 5) fTR_STAT_LATCH true), (by decide +kernel), (by decide +kernel), (by decide +kernel), (by decide +kernel)⟩,
    ⟨5, 4, ({ ((run.setFlag (TR_CFG 5) fTR_CFG_EN true).setFlag (TR_STAT 5) fTR_STAT_LATCH true).setFld (TR_CFG 5) fTR_CFG_FLT 9 with fc := 6, si := { trips := [(5, { edge := some 4 })] } }), (by decide +kernel), (by decide +kernel), (by decide +kernel), (by decide +kernel), (by decide +kernel), (by decide +kernel)⟩,
    ⟨5, 6, ({ run.setFlag (TR_STAT 5) fTR_STAT_LATCH true with fc := 8, si := { trips := [(5, { edge := some 4, left := some 6 })] } }), (by decide +kernel), (by decide +kernel), (by decide +kernel)⟩,
    ⟨5, 4, ({ ((run.setFlag (TR_CFG 5) fTR_CFG_EN true).setFlag (TR_STAT 5) fTR_STAT_LATCH true) with fc := 60, si := { trips := [(5, { edge := some 4 })] } }), (by decide +kernel), (by decide +kernel), (by decide +kernel), (by decide +kernel), (by decide +kernel)⟩,
    ⟨5, 4, ({ ((run.setFlag (TR_CFG 5) fTR_CFG_EN true).setFlag (TR_STAT 5) fTR_STAT_LATCH true) with fc := 6, si := { trips := [(5, { edge := some 4 })] } }), (by decide +kernel), (by decide +kernel), (by decide +kernel)⟩,
    ⟨.shepherd, 5, ({ run.setFlag (TR_STAT 5) fTR_STAT_LATCH true with hot := [] }), (by decide +kernel), (by decide +kernel), (by decide +kernel), (by decide +kernel)⟩,
    ⟨.shepherd, 5, (run.setFlag (TR_STAT 5) fTR_STAT_LATCH true), (by decide +kernel), (by decide +kernel), (by decide +kernel)⟩,
    ⟨.shepherd, 5, 9, ((run.setFlag (AR_STAT 2) fAR_STAT_ARMED true).setNat (TG_MASK_LO 2) 0xFF), (by decide +kernel), (by decide +kernel)⟩,
    ⟨.shepherd, 5, 9, run, (by decide +kernel), (by decide +kernel), (by decide +kernel), (by decide +kernel)⟩,
    ⟨5, 2, ({ run.setFlag (TR_CFG 5) fTR_CFG_POL true with fc := 400, si := { trips := [(5, { inj := some 2, pin := false })] } }), (by decide +kernel), (by decide +kernel), (by decide +kernel), (by decide +kernel)⟩,
    ⟨5, 500, ({ run.setFlag (TR_CFG 5) fTR_CFG_POL true with fc := 400, si := { trips := [(5, { inj := some 500, pin := false })] } }), (by decide +kernel), (by decide +kernel), (by decide +kernel)⟩,
    ⟨.shepherd, 3, run, (.ofNat 32 (1 + 3 * 2 ^ 16 + 0x5A * 2 ^ 24)), (by decide +kernel), (by decide +kernel), (by decide +kernel), (by decide +kernel)⟩,
    ⟨.shepherd, 3, 1, run, (.ofNat 32 (1 + 3 * 2 ^ 16 + 1 * 2 ^ 24)), (by decide +kernel), (by decide +kernel), (by decide +kernel), (by decide +kernel), (by decide +kernel)⟩,
    ⟨.shepherd, 3, ({ run with si := { prep := some (3, 0) } }), (.ofNat 32 (2 + 3 * 2 ^ 16 + 0xA5 * 2 ^ 24)), 0, (by decide +kernel), (by decide +kernel), (by decide +kernel), (by decide +kernel), (by decide +kernel), (by decide +kernel), (by decide +kernel)⟩,
    ⟨.shepherd, 3, run, (.ofNat 32 (2 + 3 * 2 ^ 16 + 0xA5 * 2 ^ 24)), (by decide +kernel), (by decide +kernel), (by decide +kernel), (by decide +kernel)⟩,
    ⟨.shepherd, 3, ({ run with si := { prep := some (3, 0) } }), (.ofNat 32 (3 + 3 * 2 ^ 16 + 0xA5 * 2 ^ 24)), 0, (by decide +kernel), (by decide +kernel), (by decide +kernel), (by decide +kernel), (by decide +kernel), (by decide +kernel)⟩,
    ⟨.shepherd, 3, (run.setFlag (AR_STAT 3) fAR_STAT_ENGAGED true), (.ofNat 32 (4 + 3 * 2 ^ 16 + 0x3C * 2 ^ 24)), (by decide +kernel), (by decide +kernel), (by decide +kernel), (by decide +kernel), (by decide +kernel), (by decide +kernel)⟩,
    ⟨.shepherd, 16, ({ run.setFlag (AR_STAT 16) fAR_STAT_ENGAGED true with pw := { run.pw with failLow := true } }), (.ofNat 32 (4 + 16 * 2 ^ 16 + 0x3C * 2 ^ 24)), (by decide +kernel), (by decide +kernel), (by decide +kernel), (by decide +kernel), (by decide +kernel), (by decide +kernel)⟩,
    ⟨3, 0, ({ run with fc := 300, si := { prep := some (3, 0) } }), (by decide +kernel), (by decide +kernel), (by decide +kernel)⟩,
    ⟨3, 0, ({ run with fc := 30, si := { prep := some (3, 0) } }), (by decide +kernel), (by decide +kernel), (by decide +kernel)⟩⟩

/-- States and operands that meet the hypotheses of each clause of `GeneratorEvents`. -/
theorem test_premises_of_generator_events :
    (∃ (g : Fin 52) (s : State), s.live = true ∧ s.genRun g = true ∧ (s.gen g).zroDue = true ∧ (s.gen g).startEdge = false ∧ s.genMode g = 0 ∧ s.phen g = false ∧ (s.gen g).perFc ≠ s.fc - 1 + 1)
    ∧ (∃ (g : Fin 52) (s : State), s.live = true ∧ s.genRun g = true ∧ (s.gen g).zroDue = true ∧ (s.gen g).startEdge = false ∧ s.genMode g = 2 ∧ s.flag (PW_CFG g) fPW_CFG_RLDZ = false ∧ s.flag (PW_CFG g) fPW_CFG_RLDP = true ∧ s.phen g = false ∧ (s.gen g).perFc ≠ s.fc - 1 + 1 ∧ s.flag (PW_MAP g) fPW_MAP_LVALID = false ∧ (s.gen g).freeze = false ∧ s.scOn = false)
    ∧ (∃ (g : Fin 52) (s : State), s.live = true ∧ ((s.genRun g = false ∨ (s.gen g).zroDue = false)))
    ∧ (∃ (g : Fin 52) (s : State), s.live = true ∧ s.genRun g = true ∧ (s.gen g).prdDue = true ∧ (s.gen g).startEdge = false ∧ s.genMode g = 1 ∧ s.phen g = false ∧ (s.gen g).perFc ≠ s.fc - 1 + 1)
    ∧ (∃ (g : Fin 52) (s : State), s.live = true ∧ s.genRun g = true ∧ (s.gen g).prdDue = true ∧ s.genMode g = 0)
    ∧ (∃ (g : Fin 52) (cmp : Fin 4) (up : Bool) (d : Nat) (s : State), s.live = true ∧ s.genRun g = true ∧ (s.gen g).zroDue = false ∧ (s.gen g).prdDue = false ∧ s.flag (PW_STAT g) fPW_STAT_FROZEN = false ∧ (cmp.val, up) ∉ (s.gen g).matched ∧ s.matchAt g cmp up = some d)
    ∧ (∃ (g : Nat) (key : Nat) (lo : Nat) (t : Nat) (s : State), s.flag (PW_CFG g) fPW_CFG_BCOMP = true ∧ (s.gen g).instAt ≠ t + 1)
    ∧ (∃ (g : Fin 52) (cmp : Fin 4) (s : State), (s.gen g).zroDue = false ∧ (s.gen g).prdDue = false ∧ s.genMode g = 0 ∧ s.genDown g = false ∧ 16 * s.genPer g + 15 < s.nat (PW_CMP_ACT g cmp) ∧ s.genCnt g ≤ s.genPer g)
    ∧ (∃ (g : Fin 52) (out : Fin 2) (e : GenEdge) (s : State), s.live = true ∧ (s.gen g).delay.find? (fun d => d.out == out.val && decide (d.due < 16 * (s.fc + 1))) = some e ∧ out = 0)
    ∧ (∃ (j : Fin 16) (s : State), s.live = true ∧ s.flag (PHG_CFG j) fPHG_CFG_EN = true ∧ s.fld (PHG_CFG j) fPHG_CFG_SRC = 1 ∧ reached (s.reg64 (PHG_TIME_LO j) (PHG_TIME_HI j)) s.now = true ∧ tget (fun _ => false) s.phDone j = false ∧ s.nat (PHG_TPER j) ≠ 0)
    ∧ (∃ (c : Nat) (j : Nat) (s : State), s.listedGens = [] ∧ s.phDue = [j])
    ∧ (∃ (j : Fin 16) (s : State), s.live = true ∧ s.flag (PHG_CFG j) fPHG_CFG_EN = true ∧ s.fld (PHG_CFG j) fPHG_CFG_SRC = 1 ∧ reached (s.reg64 (PHG_TIME_LO j) (PHG_TIME_HI j)) s.now = true ∧ tget (fun _ => false) s.phDone j = false ∧ s.nat (PHG_TPER j) = 0)
    ∧ (∃ (j : Fin 16) (s : State), s.flag (PHG_CFG j) fPHG_CFG_EN = false) :=
  ⟨⟨4, ({ (run.setNat (PW_PERIOD 4) 100).setFlag (PW_STAT 4) fPW_STAT_RUN true |>.setGen 4 { zroDue := true } with fc := 9 }), (by decide +kernel), (by decide +kernel), (by decide +kernel), (by decide +kernel), (by decide +kernel), (by decide +kernel), (by decide +kernel)⟩,
    ⟨4, ({ ((run.setNat (PW_PERIOD 4) 100).setNat (PW_CFG 4) (2 + 0x10 * 0)).setFlag (PW_CFG 4) fPW_CFG_RLDP true |>.setFlag (PW_STAT 4) fPW_STAT_RUN true |>.setGen 4 { zroDue := true } with fc := 9 }), (by decide +kernel), (by decide +kernel), (by decide +kernel), (by decide +kernel), (by decide +kernel), (by decide +kernel), (by decide +kernel), (by decide +kernel), (by decide +kernel), (by decide +kernel), (by decide +kernel), (by decide +kernel)⟩,
    ⟨4, run, (by decide +kernel), (by decide +kernel)⟩,
    ⟨4, ({ ((run.setNat (PW_PERIOD 4) 100).setNat (PW_CFG 4) 1).setFlag (PW_STAT 4) fPW_STAT_RUN true |>.setGen 4 { prdDue := true } with fc := 9 }), (by decide +kernel), (by decide +kernel), (by decide +kernel), (by decide +kernel), (by decide +kernel), (by decide +kernel), (by decide +kernel)⟩,
    ⟨4, ((run.setFlag (PW_STAT 4) fPW_STAT_RUN true).setGen 4 { prdDue := true }), (by decide +kernel), (by decide +kernel), (by decide +kernel), (by decide +kernel)⟩,
    ⟨4, 2, true, 5, (((run.setFlag (PW_STAT 4) fPW_STAT_RUN true).setNat (PW_CNT 4) 3).setNat (PW_CMP_ACT 4 2) 53), (by decide +kernel), (by decide +kernel), (by decide +kernel), (by decide +kernel), (by decide +kernel), (by decide +kernel), (by decide +kernel)⟩,
    ⟨4, 4, 2, 96, ((run.setFlag (PW_CFG 4) fPW_CFG_BCOMP true).setNat (PW_ACT_A 4) 8), (by decide +kernel), (by decide +kernel)⟩,
    ⟨4, 2, (((run.setFlag (PW_STAT 4) fPW_STAT_RUN true).setNat (PW_CMP_ACT 4 2) 116).setNat (PW_PERIOD_ACT 4) 6), (by decide +kernel), (by decide +kernel), (by decide +kernel), (by decide +kernel), (by decide +kernel), (by decide +kernel)⟩,
    ⟨4, 0, (⟨7, 0, true⟩), (run.setGen 4 { delay := [⟨7, 0, true⟩] }), (by decide +kernel), (by decide +kernel), (by decide +kernel)⟩,
    ⟨3, (((run.setFlag (PHG_CFG 3) fPHG_CFG_EN true).setFld (PHG_CFG 3) fPHG_CFG_SRC 1).setNat (PHG_TPER 3) 1000), (by decide +kernel), (by decide +kernel), (by decide +kernel), (by decide +kernel), (by decide +kernel), (by decide +kernel)⟩,
    ⟨3, 5, ({ run.setFlag (PHG_CFG 5) fPHG_CFG_EN true with phDue := [5], xbarOld := [(3, 7)] }), (by decide +kernel), (by decide +kernel)⟩,
    ⟨3, (((run.setFlag (PHG_CFG 3) fPHG_CFG_EN true).setFld (PHG_CFG 3) fPHG_CFG_SRC 1)), (by decide +kernel), (by decide +kernel), (by decide +kernel), (by decide +kernel), (by decide +kernel), (by decide +kernel)⟩,
    ⟨3, run, (by decide +kernel)⟩⟩

/-- States and operands that meet the hypotheses of each clause of `DutyWrites`. -/
theorem test_premises_of_duty_writes :
    (∃ (p : Port) (g : Fin 52) (cmp : Fin 4) (data : Word) (s : State), s.takes p (PW_CMP g cmp) data = true ∧ (s.master p).pe = none ∧ s.scOn = false ∧ s.flag (PW_MAP g) fPW_MAP_LVALID = true)
    ∧ (∃ (p : Port) (g : Fin 52) (cmp : Fin 4) (data : Word) (s : State), s.takes p (PW_CMP g cmp) data = true ∧ (s.master p).pe = none ∧ s.scOn = false ∧ s.flag (PW_MAP g) fPW_MAP_LVALID = false ∧ s.flag (PW_STAT g) fPW_STAT_STALE = false)
    ∧ (∃ (p : Port) (g : Fin 52) (data : Word) (s : State), s.takes p (PW_DW_CTRL g) (fPW_DW_CTRL_GO.put data 1) = true ∧ s.scOn = false ∧ bitsOf data.toNat 3 2 = 3)
    ∧ (∃ (p : Port) (g : Fin 52) (data : Word) (s : State), s.takes p (PW_DW_CTRL g) (fPW_DW_CTRL_GO.put data 1) = true ∧ s.scOn = false ∧ (s.master p).pe = none ∧ s.flag (PW_MAP g) fPW_MAP_LVALID = true ∧ bitsOf data.toNat 3 2 = 2)
    ∧ (∃ (g : Fin 52) (w : DutyWrite) (t : List DutyWrite) (s : State), s.live = true ∧ (s.gen g).waiting = w :: t ∧ w.rcv < s.fc ∧ (s.gen g).accepted ≠ s.fc + 1 ∧ w.fmt1 = false ∧ w.mode = 1)
    ∧ (∃ (g : Fin 52) (w : DutyWrite) (t : List DutyWrite) (s : State), s.live = true ∧ (s.gen g).waiting = w :: t ∧ w.rcv < s.fc ∧ (s.gen g).accepted ≠ s.fc + 1 ∧ w.fmt1 = false ∧ w.mode = 0)
    ∧ (∃ (g : Fin 52) (w : DutyWrite) (t : List DutyWrite) (s : State), s.live = true ∧ (s.gen g).waiting = w :: t ∧ w.rcv < s.fc ∧ (s.gen g).accepted ≠ s.fc + 1 ∧ w.fmt1 = false ∧ w.mode = 2 ∧ w.cmp < 4 ∧ reached w.time s.now = false ∧ bitOf (s.fld (PW_STAT g) fPW_STAT_TPEND) w.cmp = false)
    ∧ (∃ (g : Fin 52) (s : State), s.live = true ∧ (s.gen g).waiting = [])
    ∧ (∃ (g : Fin 52) (cmp : Fin 4) (s : State), s.live = true ∧ bitOf (s.fld (PW_STAT g) fPW_STAT_TPEND) cmp = true ∧ reached (s.reg64 (PW_TPEND_TIME_LO g cmp) (PW_TPEND_TIME_HI g cmp)) s.now = true ∧ ((s.gen g).cmpOf cmp).oldFc ≠ s.fc + 1)
    ∧ (∃ (g : Fin 52) (cmp : Fin 4) (s : State), bitOf (s.fld (PW_STAT g) fPW_STAT_TPEND) cmp = false)
    ∧ (∃ (p : Port) (m : Fin 96) (data : Word) (s : State), s.takes p (PW_XBAR m) data = true ∧ s.xbarOld = [])
    ∧ (∃ (m : Fin 96) (w : Word) (s : State), s.xbarOld = [(m.val, w)])
    ∧ (∃ (m : Fin 96) (s : State), s.xbarOld = []) :=
  ⟨⟨.shepherd, 4, 1, 77, (run.setNat (PW_MAP 4) 0x44), (by decide +kernel), (by decide +kernel), (by decide +kernel), (by decide +kernel)⟩,
    ⟨.shepherd, 4, 1, 77, run, (by decide +kernel), (by decide +kernel), (by decide +kernel), (by decide +kernel), (by decide +kernel)⟩,
    ⟨.shepherd, 4, 0x19, run, (by decide +kernel), (by decide +kernel), (by decide +kernel)⟩,
    ⟨.shepherd, 4, 0x11, (run.setNat (PW_MAP 4) 0x44), (by decide +kernel), (by decide +kernel), (by decide +kernel), (by decide +kernel), (by decide +kernel)⟩,
    ⟨4, ({ cmp := 1, value := 9, mode := 1, rcv := 2 }), ([]), ({ run.setGen 4 { waiting := [{ cmp := 1, value := 9, mode := 1, rcv := 2 }] } with fc := 3 }), (by decide +kernel), (by decide +kernel), (by decide +kernel), (by decide +kernel), (by decide +kernel), (by decide +kernel)⟩,
    ⟨4, ({ cmp := 1, value := 9, mode := 0, rcv := 2 }), ([]), ({ run.setGen 4 { waiting := [{ cmp := 1, value := 9, mode := 0, rcv := 2 }] } with fc := 3 }), (by decide +kernel), (by decide +kernel), (by decide +kernel), (by decide +kernel), (by decide +kernel), (by decide +kernel)⟩,
    ⟨4, ({ cmp := 1, value := 9, mode := 2, rcv := 2, time := 100 }), ([]), ({ run.setGen 4 { waiting := [{ cmp := 1, value := 9, mode := 2, rcv := 2, time := 100 }] } with fc := 3 }), (by decide +kernel), (by decide +kernel), (by decide +kernel), (by decide +kernel), (by decide +kernel), (by decide +kernel), (by decide +kernel), (by decide +kernel), (by decide +kernel)⟩,
    ⟨4, run, (by decide +kernel), (by decide +kernel)⟩,
    ⟨4, 3, ((run.setFld (PW_STAT 4) fPW_STAT_TPEND 8).setNat (PW_TPEND_VAL 4 3) 90), (by decide +kernel), (by decide +kernel), (by decide +kernel), (by decide +kernel)⟩,
    ⟨4, 3, run, (by decide +kernel)⟩,
    ⟨.shepherd, 95, 0x33, run, (by decide +kernel), (by decide +kernel)⟩,
    ⟨95, 0x33, ({ run with xbarOld := [(95, 0x33)] }), (by decide +kernel)⟩,
    ⟨95, (run.setNat (PW_XBAR 95) 7), (by decide +kernel)⟩⟩

/-- States and operands that meet the hypotheses of each clause of `GeneratorStartAndStop`. -/
theorem test_premises_of_generator_start_and_stop :
    (∃ (p : Port) (g : Fin 52) (s : State), s.takes p (PW_CTRL g) 1 = true ∧ s.scOn = false ∧ s.flag (FLK_STAT (s.fld (PW_MAP g) fPW_MAP_FLOCK)) fFLK_STAT_CLEAN = true ∧ ((s.phen g = false ∨ s.phidx g = 0)))
    ∧ (∃ (p : Port) (g : Fin 52) (s : State), s.takes p (PW_CTRL g) 1 = true ∧ s.scOn = false ∧ s.flag (FLK_STAT (s.fld (PW_MAP g) fPW_MAP_FLOCK)) fFLK_STAT_CLEAN = true ∧ s.phen g = true ∧ s.phidx g ≠ 0)
    ∧ (∃ (p : Port) (g : Fin 52) (s : State), s.takes p (PW_CTRL g) 1 = true ∧ s.scOn = false ∧ s.flag (FLK_STAT (s.fld (PW_MAP g) fPW_MAP_FLOCK)) fFLK_STAT_CLEAN = false)
    ∧ (∃ (p : Port) (g : Fin 52) (s : State), s.takes p (PW_CTRL g) 2 = true ∧ s.scOn = false ∧ s.flag (FLK_STAT (s.fld (PW_MAP g) fPW_MAP_FLOCK)) fFLK_STAT_CLEAN = true ∧ reached (s.reg64 (PW_START_TIME_LO g) (PW_START_TIME_HI g)) s.now = false)
    ∧ (∃ (p : Port) (g : Fin 52) (s : State), s.takes p (PW_CTRL g) 2 = true ∧ s.scOn = false ∧ s.flag (FLK_STAT (s.fld (PW_MAP g) fPW_MAP_FLOCK)) fFLK_STAT_CLEAN = true ∧ s.phen g = false ∧ reached (s.reg64 (PW_START_TIME_LO g) (PW_START_TIME_HI g)) s.now = true)
    ∧ (∃ (g : Fin 52) (s : State), s.live = true ∧ s.flag (PW_STAT g) fPW_STAT_TSTART = true ∧ (s.gen g).groupStart = false ∧ reached (s.reg64 (PW_START_TIME_LO g) (PW_START_TIME_HI g)) s.now = true ∧ s.phen g = false)
    ∧ (∃ (g : Fin 52) (s : State), s.flag (PW_STAT g) fPW_STAT_TSTART = false)
    ∧ (∃ (p : Port) (g : Fin 52) (s : State), s.takes p (PW_CTRL g) 3 = true ∧ s.scOn = false) :=
  ⟨⟨.shepherd, 4, (run.setFlag (FLK_STAT 0) fFLK_STAT_CLEAN true), (by decide +kernel), (by decide +kernel), (by decide +kernel), (by decide +kernel)⟩,
    ⟨.shepherd, 4, (((run.setFlag (FLK_STAT 0) fFLK_STAT_CLEAN true).setFlag (PW_CFG 4) fPW_CFG_PHEN true).setFld (PW_CFG 4) fPW_CFG_PHIDX 2), (by decide +kernel), (by decide +kernel), (by decide +kernel), (by decide +kernel), (by decide +kernel)⟩,
    ⟨.shepherd, 4, (run.setFlag (FLK_STAT 0) fFLK_STAT_CLEAN false), (by decide +kernel), (by decide +kernel), (by decide +kernel)⟩,
    ⟨.shepherd, 4, ((run.setFlag (FLK_STAT 0) fFLK_STAT_CLEAN true).setNat (PW_START_TIME_LO 4) 100), (by decide +kernel), (by decide +kernel), (by decide +kernel), (by decide +kernel)⟩,
    ⟨.shepherd, 4, (run.setFlag (FLK_STAT 0) fFLK_STAT_CLEAN true), (by decide +kernel), (by decide +kernel), (by decide +kernel), (by decide +kernel), (by decide +kernel)⟩,
    ⟨4, (run.setFlag (PW_STAT 4) fPW_STAT_TSTART true), (by decide +kernel), (by decide +kernel), (by decide +kernel), (by decide +kernel), (by decide +kernel)⟩,
    ⟨4, run, (by decide +kernel)⟩,
    ⟨.shepherd, 4, (run.setFlag (PW_STAT 4) fPW_STAT_RUN true), (by decide +kernel), (by decide +kernel)⟩⟩

/-- States and operands that meet the hypotheses of each clause of `TimerComparesAndCaptures`. -/
theorem test_premises_of_timer_compares_and_captures :
    (∃ (t : Fin 36) (cmp : Fin 4) (s : State), s.pw.mode = .graze ∧ s.timRun t = true ∧ s.timSlow t = false ∧ s.timArmed t cmp = true ∧ cmpReached (s.reg (TM_CNT t)) (s.reg (TM_CMP t cmp)) = true ∧ (s.timCmp t cmp).wrFc ≠ s.fc + 1 ∧ (s.timCmp t cmp).matchFc ≠ s.fc + 1 ∧ s.flag (TM_MAP t) fTM_MAP_LVALID = false ∧ bitOf (s.fld (TM_CMP_CFG t) fTM_CMP_CFG_EVEN) cmp = false ∧ s.reg (TM_CMP_STEP t cmp) = 0)
    ∧ (∃ (t : Fin 36) (cmp : Fin 4) (s : State), s.pw.mode = .graze ∧ s.timRun t = true ∧ s.timSlow t = false ∧ s.timArmed t cmp = true ∧ cmpReached (s.reg (TM_CNT t)) (s.reg (TM_CMP t cmp)) = true ∧ (s.timCmp t cmp).wrFc ≠ s.fc + 1 ∧ (s.timCmp t cmp).matchFc ≠ s.fc + 1 ∧ s.flag (TM_MAP t) fTM_MAP_LVALID = false ∧ bitOf (s.fld (TM_CMP_CFG t) fTM_CMP_CFG_EVEN) cmp = false ∧ s.reg (TM_CMP_STEP t cmp) ≠ 0)
    ∧ (∃ (t : Fin 36) (cmp : Fin 4) (s : State), s.pw.mode = .graze ∧ s.timRun t = true ∧ s.timArmed t cmp = true ∧ cmpReached (s.reg (TM_CNT t)) (s.reg (TM_CMP t cmp)) = true ∧ (s.timCmp t cmp).wrFc ≠ s.fc + 1 ∧ (s.timCmp t cmp).matchFc ≠ s.fc + 1)
    ∧ (∃ (t : Fin 36) (cmp : Fin 4) (s : State), s.wakeLatch = none ∧ ((s.timRun t = false ∨ s.timArmed t cmp = false)) ∧ (s.timCmp t cmp).wrFc ≠ s.fc + 1)
    ∧ (∃ (t : Fin 36) (j : Fin 2) (k : Nat) (idx : Nat) (rising : Bool) (s : State), s.pw.mode = .graze ∧ s.fld (TM_CAP_CFG t j) fTM_CAP_CFG_KIND = 2 ∧ s.fld (TM_CAP_CFG t j) fTM_CAP_CFG_IDX = idx ∧ idx < 64 ∧ (s.tripIn idx).inj = none ∧ s.flag TB_STAT fTB_STAT_SRC = true ∧ (s.line (lineKey 2 idx)).queue = [])
    ∧ (∃ (t : Fin 36) (j : Fin 2) (k : Nat) (rising : Bool) (s : State), s.fld (TM_CAP_CFG t j) fTM_CAP_CFG_KIND = 2 ∧ 64 ≤ s.fld (TM_CAP_CFG t j) fTM_CAP_CFG_IDX)
    ∧ (∃ (t : Nat) (j : Nat) (key : Nat) (due : Nat) (level : Bool) (st : Stamp) (s : State), s.capLine t j = some key ∧ bitOf (s.fld (TM_CAP_CFG t j) fTM_CAP_CFG_EDGE) (if level then 0 else 1) = true)
    ∧ (∃ (t : Nat) (j : Nat) (key : Nat) (due : Nat) (level : Bool) (cap : Option Stamp) (s : State), ((s.capLine t j ≠ some key ∨ cap = none ∨ bitOf (s.fld (TM_CAP_CFG t j) fTM_CAP_CFG_EDGE) (if level then 0 else 1) = false)))
    ∧ (∃ (t : Nat) (j : Nat) (st : Stamp) (s : State), bitOf (s.fld (TM_STAT t) fTM_STAT_CFULL) j = false)
    ∧ (∃ (t : Nat) (j : Nat) (st : Stamp) (s : State), bitOf (s.fld (TM_STAT t) fTM_STAT_CFULL) j = true)
    ∧ (∃ (t : Nat) (j : Nat) (key : Nat) (s : State), s.capLine t j = some key ∧ s.fld (TM_CAP_CFG t j) fTM_CAP_CFG_EDGE = 1 ∧ (s.line key).prev = false ∧ (s.line key).raw = true)
    ∧ (∃ (p : Port) (t : Fin 36) (caps : Fin 4) (s : State), s.takes p (TM_CAP_SW t) (.ofNat 32 caps.val) = true ∧ s.fld (TM_CAP_CFG t 0) fTM_CAP_CFG_KIND = 5 ∧ s.fld (TM_CAP_CFG t 1) fTM_CAP_CFG_KIND ≠ 5)
    ∧ (∃ (p : Port) (t : Fin 36) (cmp : Fin 4) (data : Word) (s : State), s.takes p (TM_CMP t cmp) data = true ∧ (s.timCmp t cmp).wrFc ≠ s.fc + 1)
    ∧ (∃ (t : Fin 36) (idx : Nat) (level : Bool) (s : State), s.pw.mode = .graze ∧ s.fld (TM_CFG t) fTM_CFG_GKIND = 2 ∧ s.fld (TM_CFG t) fTM_CFG_GIDX = idx ∧ idx < 64 ∧ (s.tripIn idx).inj = none ∧ s.flag TB_STAT fTB_STAT_SRC = true ∧ (s.line (lineKey 2 idx)).queue = [] ∧ level ≠ (s.line (lineKey 2 idx)).level)
    ∧ (∃ (t : Fin 36) (level : Bool) (s : State), s.fld (TM_CFG t) fTM_CFG_GKIND = 5)
    ∧ (∃ (t : Nat) (s : State), s.fld (TM_CFG t) fTM_CFG_GKIND = 0)
    ∧ (∃ (t : Nat) (s : State), s.fld (TM_CFG t) fTM_CFG_GKIND = 2)
    ∧ (∃ (t : Nat) (s : State), s.fld (TM_CFG t) fTM_CFG_GKIND = 5)
    ∧ (∃ (t : Nat) (c : Nat) (s : State), (s.tim t).cmds = [] ∧ (s.tim t).startAt = none) :=
  ⟨⟨5, 2, (((run.setFlag (TM_STAT 5) fTM_STAT_RUN true).setFld (TM_STAT 5) fTM_STAT_ARMED 4).setNat (TM_CNT 5) 9), (by decide +kernel), (by decide +kernel), (by decide +kernel), (by decide +kernel), (by decide +kernel), (by decide +kernel), (by decide +kernel), (by decide +kernel), (by decide +kernel), (by decide +kernel)⟩,
    ⟨5, 2, ((((run.setFlag (TM_STAT 5) fTM_STAT_RUN true).setFld (TM_STAT 5) fTM_STAT_ARMED 4).setNat (TM_CNT 5) 9).setNat (TM_CMP_STEP 5 2) 100), (by decide +kernel), (by decide +kernel), (by decide +kernel), (by decide +kernel), (by decide +kernel), (by decide +kernel), (by decide +kernel), (by decide +kernel), (by decide +kernel), (by decide +kernel)⟩,
    ⟨5, 2, (((((run.setFlag (TM_STAT 5) fTM_STAT_RUN true).setFld (TM_STAT 5) fTM_STAT_ARMED 4).setNat (TM_CNT 5) 9).setNat (TM_CMP_STEP 5 2) 100).setFld (TM_CMP_CFG 5) fTM_CMP_CFG_EVEN 15), (by decide +kernel), (by decide +kernel), (by decide +kernel), (by decide +kernel), (by decide +kernel), (by decide +kernel)⟩,
    ⟨5, 2, run, (by decide +kernel), (by decide +kernel), (by decide +kernel)⟩,
    ⟨5, 1, 3, 3, true, ((run.setNat (TM_CAP_CFG 5 1) 0x10302).setFlag TB_STAT fTB_STAT_SRC true), (by decide +kernel), (by decide +kernel), (by decide +kernel), (by decide +kernel), (by decide +kernel), (by decide +kernel), (by decide +kernel)⟩,
    ⟨5, 1, 3, false, (run.setNat (TM_CAP_CFG 5 1) 0x24002), (by decide +kernel), (by decide +kernel)⟩,
    ⟨5, 1, 0x203, 7, true, 99, (run.setNat (TM_CAP_CFG 5 1) 0x10302), (by decide +kernel), (by decide +kernel)⟩,
    ⟨5, 1, 0x203, 7, false, (some 99), (run.setNat (TM_CAP_CFG 5 1) 0x10302), (by decide +kernel)⟩,
    ⟨5, 1, 99, (run.setNat (TM_CNT 5) 9), (by decide +kernel)⟩,
    ⟨5, 1, 99, (run.setFld (TM_STAT 5) fTM_STAT_CFULL 2), (by decide +kernel)⟩,
    ⟨5, 1, 0x203, ((run.setNat (TM_CAP_CFG 5 1) 0x10302).setLine 0x203 { level := true, prev := false }), (by decide +kernel), (by decide +kernel), (by decide +kernel), (by decide +kernel)⟩,
    ⟨.shepherd, 5, 3, (run.setNat (TM_CAP_CFG 5 0) 5), (by decide +kernel), (by decide +kernel), (by decide +kernel)⟩,
    ⟨.shepherd, 5, 1, 0x80000000, run, (by decide +kernel), (by decide +kernel)⟩,
    ⟨5, 7, true, ((run.setNat (TM_CFG 5) 0x702).setFlag TB_STAT fTB_STAT_SRC true), (by decide +kernel), (by decide +kernel), (by decide +kernel), (by decide +kernel), (by decide +kernel), (by decide +kernel), (by decide +kernel), (by decide +kernel)⟩,
    ⟨5, true, (run.setNat (TM_CFG 5) 5), (by decide +kernel)⟩,
    ⟨5, run, (by decide +kernel)⟩,
    ⟨5, ((run.setNat (TM_CFG 5) 0x3F0A).setLine 0x23F { level := true }), (by decide +kernel)⟩,
    ⟨5, (run.setNat (TM_CFG 5) 5), (by decide +kernel)⟩,
    ⟨5, 9, ({ ((run.setFlag (TM_STAT 5) fTM_STAT_RUN true).setFlag (TM_STAT 5) fTM_STAT_GATE true).setFlag TB_STAT fTB_STAT_SRC true with fc := 9 }), (by decide +kernel), (by decide +kernel)⟩⟩

/-- States and operands that meet the hypotheses of each clause of `TimerCommands`. -/
theorem test_premises_of_timer_commands :
    (∃ (p : Port) (t : Fin 36) (s : State) (w : Word), w = fTM_CTRL_CMD.put (s.reg (TM_CTRL t)) 1 ∧ s.takes p (TM_CTRL t) w = true ∧ s.flag (FLK_STAT (s.fld (TM_MAP t) fTM_MAP_FLOCK)) fFLK_STAT_CLEAN = true)
    ∧ (∃ (p : Port) (t : Fin 36) (s : State) (w : Word), w = fTM_CTRL_CMD.put (s.reg (TM_CTRL t)) 1 ∧ s.takes p (TM_CTRL t) w = true ∧ s.flag (FLK_STAT (s.fld (TM_MAP t) fTM_MAP_FLOCK)) fFLK_STAT_CLEAN = false)
    ∧ (∃ (p : Port) (t : Fin 36) (s : State) (w : Word), w = fTM_CTRL_CMD.put (s.reg (TM_CTRL t)) 2 ∧ s.takes p (TM_CTRL t) w = true)
    ∧ (∃ (p : Port) (t : Fin 36) (s : State) (w : Word), w = fTM_CTRL_CMD.put (s.reg (TM_CTRL t)) 3 ∧ s.takes p (TM_CTRL t) w = true)
    ∧ (∃ (t : Nat) (c : Nat) (cmd : Nat) (s : State), (s.tim t).cmds = [(c, cmd)] ∧ (s.tim t).startAt = none ∧ s.flag TB_STAT fTB_STAT_SRC = false ∧ 1 ≤ cmd ∧ cmd ≤ 3)
    ∧ (∃ (p : Port) (j : Fin 8) (s : State), s.takes p (TMG_CTRL j) 1 = true ∧ s.flag (TMG_CFG j) fTMG_CFG_EN = true)
    ∧ (∃ (p : Port) (j : Fin 8) (s : State), s.takes p (TMG_CTRL j) 1 = true ∧ s.flag (TMG_CFG j) fTMG_CFG_EN = false)
    ∧ (∃ (p : Port) (j : Fin 8) (s : State), s.takes p (TMG_CTRL j) 2 = true ∧ s.flag (TMG_CFG j) fTMG_CFG_EN = true ∧ reached (s.reg64 (TMG_TIME_LO j) (TMG_TIME_HI j)) s.now = false)
    ∧ (∃ (p : Port) (j : Fin 8) (s : State), s.takes p (TMG_CTRL j) 2 = true ∧ s.flag (TMG_CFG j) fTMG_CFG_EN = true ∧ reached (s.reg64 (TMG_TIME_LO j) (TMG_TIME_HI j)) s.now = true)
    ∧ (∃ (j : Nat) (c : Nat) (s : State), s.flag (TMG_CFG j) fTMG_CFG_EN = true)
    ∧ (∃ (j : Fin 8) (s : State), s.live = true ∧ tget (fun _ => false) s.tmgPend j = true ∧ reached (s.reg64 (TMG_TIME_LO j) (TMG_TIME_HI j)) s.now = true)
    ∧ (∃ (j : Fin 8) (s : State), s.live = true ∧ tget (fun _ => false) s.tmgPend j = false) :=
  ⟨⟨.shepherd, 5, (run.setFlag (FLK_STAT 0) fFLK_STAT_CLEAN true), 1, (by decide +kernel), (by decide +kernel), (by decide +kernel)⟩,
    ⟨.shepherd, 5, (run.setFlag (FLK_STAT 0) fFLK_STAT_CLEAN false), 1, (by decide +kernel), (by decide +kernel), (by decide +kernel)⟩,
    ⟨.shepherd, 5, ((run.setFlag (TM_STAT 5) fTM_STAT_RUN true).setNat (TM_CTRL 5) 0x100), 0x102, (by decide +kernel), (by decide +kernel)⟩,
    ⟨.shepherd, 5, (run.setNat (TM_LOAD 5) 77), 3, (by decide +kernel), (by decide +kernel)⟩,
    ⟨5, 9, 2, ({ (run.setFlag (TM_STAT 5) fTM_STAT_RUN true).setFlag (TM_STAT 5) fTM_STAT_GATE true |>.setTim 5 { cmds := [(9, 2)] } with fc := 9 }), (by decide +kernel), (by decide +kernel), (by decide +kernel), (by decide +kernel), (by decide +kernel)⟩,
    ⟨.shepherd, 2, (((run.setFlag (TMG_CFG 2) fTMG_CFG_EN true).setFlag (TM_CFG 4) fTM_CFG_GREN true).setFld (TM_CFG 4) fTM_CFG_GRP 2), (by decide +kernel), (by decide +kernel)⟩,
    ⟨.shepherd, 2, run, (by decide +kernel), (by decide +kernel)⟩,
    ⟨.shepherd, 2, ((((run.setFlag (TMG_CFG 2) fTMG_CFG_EN true).setFlag (TM_CFG 4) fTM_CFG_GREN true).setFld (TM_CFG 4) fTM_CFG_GRP 2).setNat (TMG_TIME_LO 2) 100), (by decide +kernel), (by decide +kernel), (by decide +kernel)⟩,
    ⟨.shepherd, 2, (((run.setFlag (TMG_CFG 2) fTMG_CFG_EN true).setFlag (TM_CFG 4) fTM_CFG_GREN true).setFld (TM_CFG 4) fTM_CFG_GRP 2), (by decide +kernel), (by decide +kernel), (by decide +kernel)⟩,
    ⟨2, 7, (((run.setFlag (TMG_CFG 2) fTMG_CFG_EN true).setFlag (TM_CFG 4) fTM_CFG_GREN true).setFld (TM_CFG 4) fTM_CFG_GRP 2), (by decide +kernel)⟩,
    ⟨2, ({ (((run.setFlag (TMG_CFG 2) fTMG_CFG_EN true).setFlag (TM_CFG 4) fTM_CFG_GREN true).setFld (TM_CFG 4) fTM_CFG_GRP 2).setFlag (TM_STAT 4) fTM_STAT_TSTART true with tmgPend := [(2, true)] }), (by decide +kernel), (by decide +kernel), (by decide +kernel)⟩,
    ⟨2, run, (by decide +kernel), (by decide +kernel)⟩⟩

/-- States and operands that meet the hypotheses of each clause of `FeedbackInputs`. -/
theorem test_premises_of_feedback_inputs :
    (∃ (i : Fin 8) (x : Fin 10) (k : Nat) (rising : Bool) (s : State), s.live = true ∧ ((∀ y : Fin 10, s.fld (PF_CFG y) fPF_CFG_INSEL = i ↔ y = x)))
    ∧ (∃ (i : Fin 8) (k : Nat) (rising : Bool) (s : State), s.live = true ∧ ((∀ y : Fin 10, s.fld (PF_CFG y) fPF_CFG_INSEL ≠ i)))
    ∧ (∃ (x : Fin 10) (st : Stamp) (rising : Bool) (s : State), s.pfRun x = true ∧ s.flag (PF_CFG x) fPF_CFG_MSRC = false ∧ s.pfDeaf x = false ∧ rising ≠ s.flag (PF_CFG x) fPF_CFG_EDGE ∧ s.flag (PF_CFG x) fPF_CFG_DIRMODE = false ∧ s.fld (PF_FLT x) fPF_FLT_FC = 0)
    ∧ (∃ (x : Fin 10) (st : Stamp) (rising : Bool) (s : State), s.pfRun x = true ∧ s.flag (PF_CFG x) fPF_CFG_MSRC = false ∧ s.pfDeaf x = false ∧ rising ≠ s.flag (PF_CFG x) fPF_CFG_EDGE ∧ s.fld (PF_FLT x) fPF_FLT_FC ≠ 0)
    ∧ (∃ (x : Fin 10) (st : Stamp) (a : Stamp) (f : Nat) (rising : Bool) (s : State), s.pfRun x = true ∧ s.flag (PF_CFG x) fPF_CFG_MSRC = false ∧ s.pfDeaf x = false ∧ rising = s.flag (PF_CFG x) fPF_CFG_EDGE ∧ (s.pfu x).act = some (a, f) ∧ s.fc - f < s.fld (PF_FLT x) fPF_FLT_FC)
    ∧ (∃ (x : Fin 10) (st : Stamp) (a : Stamp) (f : Nat) (rising : Bool) (s : State), s.pfRun x = true ∧ s.flag (PF_CFG x) fPF_CFG_MSRC = false ∧ s.pfDeaf x = false ∧ rising = s.flag (PF_CFG x) fPF_CFG_EDGE ∧ (s.pfu x).act = some (a, f) ∧ s.fld (PF_FLT x) fPF_FLT_FC ≤ s.fc - f ∧ s.flag (PF_CFG x) fPF_CFG_DIRMODE = true)
    ∧ (∃ (x : Fin 10) (st : Stamp) (a : Stamp) (f : Nat) (rising : Bool) (s : State), s.pfRun x = true ∧ s.flag (PF_CFG x) fPF_CFG_MSRC = false ∧ s.pfDeaf x = false ∧ rising = s.flag (PF_CFG x) fPF_CFG_EDGE ∧ (s.pfu x).act = some (a, f) ∧ s.fld (PF_FLT x) fPF_FLT_FC ≤ s.fc - f ∧ s.flag (PF_CFG x) fPF_CFG_DIRMODE = false ∧ (s.pfu x).taken = true)
    ∧ (∃ (x : Fin 10) (st : Stamp) (rising : Bool) (s : State), s.pfRun x = true ∧ s.flag (PF_CFG x) fPF_CFG_MSRC = false ∧ s.pfDeaf x = true ∧ rising ≠ s.flag (PF_CFG x) fPF_CFG_EDGE)
    ∧ (∃ (x : Fin 10) (st : Stamp) (rising : Bool) (s : State), s.pfRun x = false)
    ∧ (∃ (x : Fin 10) (t : Tooth) (rest : List Tooth) (s : State), s.live = true ∧ (s.pfu x).teeth = t :: rest ∧ t.fc + 3 ≤ s.fc)
    ∧ (∃ (x : Fin 10) (t : Tooth) (rest : List Tooth) (s : State), (s.pfu x).teeth = t :: rest ∧ s.fc < t.fc + 3)
    ∧ (∃ (x : Fin 10) (t : Tooth) (s : State), s.flag (PF_CFG x) fPF_CFG_DIRMODE = false ∧ s.pfRev x = false ∧ s.refMode x = 0 ∧ (s.pfu x).last = none ∧ t.width = none)
    ∧ (∃ (x : Fin 10) (t : Tooth) (l : Stamp) (w : Nat) (s : State), s.flag (PF_CFG x) fPF_CFG_DIRMODE = true ∧ s.widthClass x w = some false ∧ t.width = some w ∧ s.pfRev x = false ∧ s.refMode x = 0 ∧ (s.pfu x).last = some l ∧ 3 ≤ (s.pfu x).since)
    ∧ (∃ (i : Fin 8) (x : Fin 10) (k : Nat) (s : State), s.live = true ∧ ((∀ y : Fin 10, s.fld (PF_CFG y) fPF_CFG_INSEL = i ↔ y = x)) ∧ s.pfRun x = true ∧ s.refMode x = 3 ∧ s.pfDeaf x = false)
    ∧ (∃ (i : Fin 8) (k : Nat) (s : State), s.live = true ∧ ((∀ y : Fin 10, s.refMode y ≠ 3)))
    ∧ (∃ (x : Fin 10) (st : Stamp) (teeth : Nat) (s : State), s.refMode x = 3 ∧ s.fld (PF_CFG x) fPF_CFG_REFACT = 0) :=
  ⟨⟨2, 3, 2, true, (forN (fun y u => u.setFld (PF_CFG y) fPF_CFG_INSEL (if y = 3 then 2 else 1)) 10 (run.setFlag (PF_STAT 3) fPF_STAT_RUN true)), (by decide +kernel), (by decide +kernel)⟩,
    ⟨7, 2, true, run, (by decide +kernel), (by decide +kernel)⟩,
    ⟨3, 77, true, ({ run.setFlag (PF_STAT 3) fPF_STAT_RUN true with fc := 9 }), (by decide +kernel), (by decide +kernel), (by decide +kernel), (by decide +kernel), (by decide +kernel), (by decide +kernel)⟩,
    ⟨3, 77, true, ((run.setFlag (PF_STAT 3) fPF_STAT_RUN true).setNat (PF_FLT 3) 9), (by decide +kernel), (by decide +kernel), (by decide +kernel), (by decide +kernel), (by decide +kernel)⟩,
    ⟨3, 77, 5, 0, false, ({ ((run.setFlag (PF_STAT 3) fPF_STAT_RUN true).setNat (PF_FLT 3) 9).setPfu 3 { act := some (5, 0) } with fc := 8 }), (by decide +kernel), (by decide +kernel), (by decide +kernel), (by decide +kernel), (by decide +kernel), (by decide +kernel)⟩,
    ⟨3, 77, 5, 0, false, ({ ((run.setFlag (PF_STAT 3) fPF_STAT_RUN true).setNat (PF_FLT 3) 9 |>.setFlag (PF_CFG 3) fPF_CFG_DIRMODE true).setPfu 3 { act := some (5, 0) } with fc := 9 }), (by decide +kernel), (by decide +kernel), (by decide +kernel), (by decide +kernel), (by decide +kernel), (by decide +kernel), (by decide +kernel)⟩,
    ⟨3, 77, 5, 0, false, ((run.setFlag (PF_STAT 3) fPF_STAT_RUN true).setPfu 3 { act := some (5, 0), taken := true }), (by decide +kernel), (by decide +kernel), (by decide +kernel), (by decide +kernel), (by decide +kernel), (by decide +kernel), (by decide +kernel), (by decide +kernel)⟩,
    ⟨3, 77, true, (((run.setFlag (PF_STAT 3) fPF_STAT_RUN true).setFlag (PF_STAT 3) fPF_STAT_FROZEN true).setFld (PF_CFG 3) fPF_CFG_FRZ 2), (by decide +kernel), (by decide +kernel), (by decide +kernel), (by decide +kernel)⟩,
    ⟨3, 77, true, run, (by decide +kernel)⟩,
    ⟨3, (⟨5, none, 1⟩), ([]), ({ (run.setFlag (PF_STAT 3) fPF_STAT_RUN true).setPfu 3 { teeth := [⟨5, none, 1⟩] } with fc := 4 }), (by decide +kernel), (by decide +kernel), (by decide +kernel)⟩,
    ⟨3, (⟨5, none, 1⟩), ([]), ({ (run.setFlag (PF_STAT 3) fPF_STAT_RUN true).setPfu 3 { teeth := [⟨5, none, 1⟩] } with fc := 3 }), (by decide +kernel), (by decide +kernel)⟩,
    ⟨3, (⟨5, none, 1⟩), ((run.setFlag (PF_STAT 3) fPF_STAT_RUN true).setFld (PF_CFG 3) fPF_CFG_TEETH 60), (by decide +kernel), (by decide +kernel), (by decide +kernel), (by decide +kernel), (by decide +kernel)⟩,
    ⟨3, (⟨50, some 9, 1⟩), 20, 9, (((run.setFlag (PF_CFG 3) fPF_CFG_DIRMODE true).setNat (PF_WFWD_MAX 3) 20).setPfu 3 { last := some 20, since := 3, ivals := [10, 11, 12] }), (by decide +kernel), (by decide +kernel), (by decide +kernel), (by decide +kernel), (by decide +kernel), (by decide +kernel), (by decide +kernel)⟩,
    ⟨2, 3, 2, ((forN (fun y u => u.setFld (PF_CFG y) fPF_CFG_INSEL (if y = 3 then 2 else 1)) 10 (run.setFlag (PF_STAT 3) fPF_STAT_RUN true)).setFld (PF_CFG 3) fPF_CFG_REFMODE 3), (by decide +kernel), (by decide +kernel), (by decide +kernel), (by decide +kernel), (by decide +kernel)⟩,
    ⟨2, 2, run, (by decide +kernel), (by decide +kernel)⟩,
    ⟨3, 77, 58, (run.setFld (PF_CFG 3) fPF_CFG_REFMODE 3), (by decide +kernel), (by decide +kernel)⟩⟩

/-- States and operands that meet the hypotheses of each clause of `FeedbackObserverAndCommands`. -/
theorem test_premises_of_feedback_observer_and_commands :
    (∃ (s : State), s.live = true ∧ s.fld PF_OBS_DIV fPF_OBS_DIV_FC ≤ s.pfPhase + 1)
    ∧ (∃ (s : State), s.live = true ∧ s.pfPhase + 1 < s.fld PF_OBS_DIV fPF_OBS_DIV_FC)
    ∧ (∃ (x : Nat) (s : State), ((s.pfStep = false ∨ s.pfRun x = false ∨ (s.pfu x).initFc = s.fc + 1 ∨ 1 ∈ (s.pfu x).cmds ∨ 3 ∈ (s.pfu x).cmds)))
    ∧ (∃ (x : Fin 10) (s : State), (s.pfu x).meas = none ∧ (s.pfu x).measOld = none ∧ s.flag (PF_CFG x) fPF_CFG_MSRC = true)
    ∧ (∃ (m : PfMeas) (o : Pfu) (fc : Nat), o.measOld = none ∧ o.meas = some m ∧ m.fc < fc)
    ∧ (∃ (m : PfMeas) (o : Pfu) (fc : Nat), o.measOld = none ∧ o.meas = some m ∧ fc ≤ m.fc)
    ∧ (∃ (p : Port) (x : Fin 10) (data : Word) (s : State), s.takes p (PF_MEAS_ANG x) data = true ∧ (s.master p).pe = none ∧ s.flag (PF_CFG x) fPF_CFG_MSRC = true ∧ stampDiff (s.reg64 (PF_MEAS_STAMP_LO x) (PF_MEAS_STAMP_HI x)) s.now ≤ 0 ∧ (s.pfu x).meas = none)
    ∧ (∃ (p : Port) (x : Fin 10) (data : Word) (s : State), s.takes p (PF_MEAS_ANG x) data = true ∧ ((s.flag (PF_CFG x) fPF_CFG_MSRC = false ∨ 0 < stampDiff (s.reg64 (PF_MEAS_STAMP_LO x) (PF_MEAS_STAMP_HI x)) s.now)) ∧ s.flag (PF_STAT x) fPF_STAT_MREF = false)
    ∧ (∃ (p : Port) (x : Fin 10) (s : State), s.takes p (PF_CTRL x) 1 = true ∧ s.flag (FLK_STAT (s.fld (PF_MAP x) fPF_MAP_FLOCK)) fFLK_STAT_CLEAN = true)
    ∧ (∃ (p : Port) (x : Fin 10) (s : State), s.takes p (PF_CTRL x) 1 = true ∧ s.flag (FLK_STAT (s.fld (PF_MAP x) fPF_MAP_FLOCK)) fFLK_STAT_CLEAN = false)
    ∧ (∃ (p : Port) (x : Fin 10) (s : State), s.takes p (PF_CTRL x) 2 = true)
    ∧ (∃ (p : Port) (x : Fin 10) (s : State), s.takes p (PF_CTRL x) 3 = true) :=
  ⟨⟨({ run with pfPhase := 1000000 }), (by decide +kernel), (by decide +kernel)⟩,
    ⟨((run.setNat PF_OBS_DIV 9)), (by decide +kernel), (by decide +kernel)⟩,
    ⟨3, run, (by decide +kernel)⟩,
    ⟨3, (((run.setFlag (PF_STAT 3) fPF_STAT_RUN true).setFlag (PF_CFG 3) fPF_CFG_MSRC true).setPfu 3 { p := 0x12345678, w := 70000, a := -900 }), (by decide +kernel), (by decide +kernel), (by decide +kernel)⟩,
    ⟨(⟨5, 9, 3⟩), ({ meas := some ⟨5, 9, 3⟩ }), 4, (by decide +kernel), (by decide +kernel), (by decide +kernel)⟩,
    ⟨(⟨5, 9, 3⟩), ({ meas := some ⟨5, 9, 3⟩ }), 3, (by decide +kernel), (by decide +kernel), (by decide +kernel)⟩,
    ⟨.shepherd, 3, 0x40000000, ((run.setFlag (PF_CFG 3) fPF_CFG_MSRC true).setFld (PF_CFG 3) fPF_CFG_TEETH 60), (by decide +kernel), (by decide +kernel), (by decide +kernel), (by decide +kernel), (by decide +kernel)⟩,
    ⟨.shepherd, 3, 0x40000000, run, (by decide +kernel), (by decide +kernel), (by decide +kernel)⟩,
    ⟨.shepherd, 3, ((run.setFlag (FLK_STAT 0) fFLK_STAT_CLEAN true).setNat (PF_POS 3) 99), (by decide +kernel), (by decide +kernel)⟩,
    ⟨.shepherd, 3, (run.setFlag (FLK_STAT 0) fFLK_STAT_CLEAN false), (by decide +kernel), (by decide +kernel)⟩,
    ⟨.shepherd, 3, (run.setFlag (PF_STAT 3) fPF_STAT_RUN true), (by decide +kernel)⟩,
    ⟨.shepherd, 3, (run.setNat (PF_POS 3) 99), (by decide +kernel)⟩⟩

/-- States and operands that meet the hypotheses of each clause of `ChanterRoundsAndFrames`. -/
theorem test_premises_of_chanter_rounds_and_frames :
    (∃ (n : Fin 36) (pio : BitVec 192) (s : State), s.live = true ∧ s.chRun n = true ∧ s.chFrozen n = false ∧ s.beatFc n ≤ s.fc)
    ∧ (∃ (n : Fin 36) (pio : BitVec 192) (s : State), s.live = true ∧ ((s.chRun n = false ∨ s.fc < s.beatFc n)))
    ∧ (∃ (n : Nat) (i : Nat) (r : Round) (s : State), (s.chanter n).rounds = [r] ∧ s.fc = r.fc + i ∧ i < 3)
    ∧ (∃ (n : Nat) (r : Round) (s : State), (s.chanter n).rounds = [r] ∧ s.fc = r.fc + 3)
    ∧ (∃ (n : Nat) (k : Nat) (r : Round) (s : State), s.chanRuns n k = true ∧ (s.chanter n).cmds = [] ∧ (s.chan n k).delay ≠ 0)
    ∧ (∃ (n : Nat) (k : Nat) (w : Nat) (r : Round) (s : State), s.chanRuns n k = true ∧ (s.chanter n).cmds = [] ∧ (s.chan n k).delay = 0 ∧ w = s.chantWord n (s.fld (CH_CSTAT n k) fCH_CSTAT_PC) ∧ s.poisoned (CH_CMEM_LO n (s.fld (CH_CSTAT n k) fCH_CSTAT_PC)) = false ∧ s.poisoned (CH_CMEM_HI n (s.fld (CH_CSTAT n k) fCH_CSTAT_PC)) = false ∧ wordBad w = false ∧ s.wordHolds n k w r.pio = false ∧ s.wordFault n k w = 0 ∧ s.facqHolds n w = false)
    ∧ (∃ (n : Nat) (k : Nat) (r : Round) (s : State), s.chanRuns n k = true ∧ (s.chanter n).cmds = [] ∧ (s.chan n k).delay = 0 ∧ s.poisoned (CH_CMEM_LO n (s.fld (CH_CSTAT n k) fCH_CSTAT_PC)) = false ∧ s.poisoned (CH_CMEM_HI n (s.fld (CH_CSTAT n k) fCH_CSTAT_PC)) = false ∧ wordBad (s.chantWord n (s.fld (CH_CSTAT n k) fCH_CSTAT_PC)) = true)
    ∧ (∃ (n : Nat) (k : Nat) (r : Round) (s : State), s.chanRuns n k = true ∧ (s.chanter n).cmds = [] ∧ (s.chan n k).delay = 0 ∧ ((s.poisoned (CH_CMEM_LO n (s.fld (CH_CSTAT n k) fCH_CSTAT_PC)) = true ∨ s.poisoned (CH_CMEM_HI n (s.fld (CH_CSTAT n k) fCH_CSTAT_PC)) = true)))
    ∧ (∃ (n : Nat) (k : Nat) (r : Round) (s : State), s.chanRuns n k = false)
    ∧ (∃ (n : Fin 36) (ch : Fin 16) (w : Fin 4) (k : Nat) (rising : Bool) (s : State), s.live = true ∧ (s.chan n ch).cap = some rising ∧ s.fld (CH_CCFG n ch) fCH_CCFG_EPIN = w)
    ∧ (∃ (n : Fin 36) (ch : Fin 16) (w : Fin 4) (k : Nat) (rising : Bool) (s : State), s.live = true ∧ (((s.chan n ch).cap ≠ some rising ∨ s.fld (CH_CCFG n ch) fCH_CCFG_EPIN ≠ w)))
    ∧ (∃ (n : Fin 36) (ch : Fin 16) (k : Nat) (w : QWord) (t : List QWord) (s : State), s.live = true ∧ s.chFramed n ch = true ∧ s.chanRuns n ch = true ∧ (s.chan n ch).sel = false ∧ (s.chan n ch).tx = w :: t ∧ w.2 = false)
    ∧ (∃ (n : Fin 36) (ch : Fin 16) (k : Nat) (level : Bool) (s : State), s.live = true ∧ ((s.chFramed n ch = false ∨ level ≠ s.flag (CH_FRM n ch) fCH_FRM_SELPOL)))
    ∧ (∃ (n : Fin 36) (ch : Fin 16) (w : QWord) (t : List QWord) (s : State), s.live = true ∧ s.chFramed n ch = true ∧ s.chanRuns n ch = true ∧ (s.chan n ch).sel = true ∧ s.fld (CH_FRM n ch) fCH_FRM_WLEN + 1 ≤ (s.chan n ch).frmN ∧ s.flag (CH_FRM n ch) fCH_FRM_FDIR = false ∧ (s.chan n ch).tx = w :: t ∧ w.2 = false)
    ∧ (∃ (n : Fin 36) (ch : Fin 16) (s : State), s.live = true ∧ (s.chan n ch).frmN ≤ s.fld (CH_FRM n ch) fCH_FRM_WLEN)
    ∧ (∃ (n : Nat) (k : Nat) (tag : Nat) (v : Word) (s : State), (s.chan n k).release = false ∧ (s.chan n k).frmPush = [(v, tag)] ∧ (s.chan n k).txNext = [] ∧ (s.chan n k).rx.length < s.chDepth n k true)
    ∧ (∃ (n : Fin 36) (ch : Fin 16) (rising : Bool) (sdi : Bool) (s : State), s.live = true ∧ s.chFramed n ch = true ∧ s.chanRuns n ch = true ∧ (s.chan n ch).sel = true ∧ (s.chan n ch).frmN ≤ s.fld (CH_FRM n ch) fCH_FRM_WLEN ∧ rising ≠ s.flag (CH_FRM n ch) fCH_FRM_SEDGE ∧ s.frameFull n ch = false)
    ∧ (∃ (n : Fin 36) (ch : Fin 16) (rising : Bool) (sdi : Bool) (s : State), s.live = true ∧ s.chFramed n ch = true ∧ s.chanRuns n ch = true ∧ (s.chan n ch).sel = true ∧ (s.chan n ch).frmN ≤ s.fld (CH_FRM n ch) fCH_FRM_WLEN ∧ rising = s.flag (CH_FRM n ch) fCH_FRM_SEDGE ∧ s.frameFull n ch = false)
    ∧ (∃ (n : Fin 36) (ch : Fin 16) (rising : Bool) (sdi : Bool) (s : State), s.live = true ∧ s.chFramed n ch = true ∧ s.chanRuns n ch = true ∧ (s.chan n ch).sel = true ∧ (s.chan n ch).frmN ≤ s.fld (CH_FRM n ch) fCH_FRM_WLEN ∧ rising ≠ s.flag (CH_FRM n ch) fCH_FRM_SEDGE ∧ s.frameFull n ch = true)
    ∧ (∃ (n : Fin 36) (ch : Fin 16) (level : Bool) (s : State), s.live = true ∧ s.chFramed n ch = true ∧ level ≠ s.flag (CH_FRM n ch) fCH_FRM_SELPOL)
    ∧ (∃ (n : Fin 36) (ch : Fin 16) (level : Bool) (s : State), s.live = true ∧ level = s.flag (CH_FRM n ch) fCH_FRM_SELPOL)
    ∧ (∃ (n : Nat) (k : Nat) (s : State), s.chFramed n k = true ∧ s.chanRuns n k = true ∧ (s.chan n k).sel = true ∧ (s.chan n k).frmN ≤ s.fld (CH_FRM n k) fCH_FRM_WLEN ∧ (s.chan n k).frmN ≠ 0 ∧ s.flag (CH_FRM n k) fCH_FRM_PART = true ∧ s.flag (CH_FRM n k) fCH_FRM_FDIR = false ∧ s.fld (CH_FRM n k) fCH_FRM_FBITS ≤ (s.chan n k).frmBits)
    ∧ (∃ (n : Nat) (k : Nat) (s : State), s.chFramed n k = true ∧ s.chanRuns n k = true ∧ (s.chan n k).sel = true ∧ (s.chan n k).frmN = 0 ∧ (s.chan n k).frmBits < s.fld (CH_FRM n k) fCH_FRM_FBITS) :=
  ⟨⟨7, 5, ch1, (by decide +kernel), (by decide +kernel), (by decide +kernel), (by decide +kernel)⟩,
    ⟨7, 5, run, (by decide +kernel), (by decide +kernel)⟩,
    ⟨7, 0, (⟨9, 33, 0⟩), ({ chrun.setChanter 7 { rounds := [⟨9, 33, 0⟩] } with fc := 9 }), (by decide +kernel), (by decide +kernel), (by decide +kernel)⟩,
    ⟨7, (⟨9, 33, 0⟩), ({ chrun.setChanter 7 { rounds := [⟨9, 33, 0⟩] } with fc := 12 }), (by decide +kernel), (by decide +kernel)⟩,
    ⟨7, 0, (⟨9, 33, 0⟩), (ch1.setChan 7 0 { delay := 4 }), (by decide +kernel), (by decide +kernel), (by decide +kernel)⟩,
    ⟨7, 0, 0x1001, (⟨9, 33, 0⟩), ch1, (by decide +kernel), (by decide +kernel), (by decide +kernel), (by decide +kernel), (by decide +kernel), (by decide +kernel), (by decide +kernel), (by decide +kernel), (by decide +kernel), (by decide +kernel)⟩,
    ⟨7, 0, (⟨9, 33, 0⟩), (ch1.setNat (CH_CMEM_LO 7 0) 0x600), (by decide +kernel), (by decide +kernel), (by decide +kernel), (by decide +kernel), (by decide +kernel), (by decide +kernel)⟩,
    ⟨7, 0, (⟨9, 33, 0⟩), (ch1.setMark (CH_CMEM_LO 7 0) true), (by decide +kernel), (by decide +kernel), (by decide +kernel), (by decide +kernel)⟩,
    ⟨7, 0, (⟨9, 33, 0⟩), run, (by decide +kernel)⟩,
    ⟨7, 3, 0, 2, true, (run.setChan 7 3 { cap := some true }), (by decide +kernel), (by decide +kernel), (by decide +kernel)⟩,
    ⟨7, 3, 0, 2, true, run, (by decide +kernel), (by decide +kernel)⟩,
    ⟨7, 3, 2, ((0x80000005, false)), ([]), (chrun.setChan 7 3 { tx := [(0x80000005, false)] }), (by decide +kernel), (by decide +kernel), (by decide +kernel), (by decide +kernel), (by decide +kernel), (by decide +kernel)⟩,
    ⟨7, 3, 2, true, run, (by decide +kernel), (by decide +kernel)⟩,
    ⟨7, 3, ((0x80000005, false)), ([]), (chrun.setChan 7 3 { tx := [(0x80000005, false)], sel := true, frm := 0x15A, frmN := 8 }), (by decide +kernel), (by decide +kernel), (by decide +kernel), (by decide +kernel), (by decide +kernel), (by decide +kernel), (by decide +kernel), (by decide +kernel)⟩,
    ⟨7, 3, run, (by decide +kernel), (by decide +kernel)⟩,
    ⟨7, 3, 7, 5, (chrun.setChan 7 3 { frmPush := [(5, 7)] }), (by decide +kernel), (by decide +kernel), (by decide +kernel), (by decide +kernel)⟩,
    ⟨7, 3, true, true, (chrun.setChan 7 3 { sel := true, frm := 0x15A, frmN := 3 }), (by decide +kernel), (by decide +kernel), (by decide +kernel), (by decide +kernel), (by decide +kernel), (by decide +kernel), (by decide +kernel)⟩,
    ⟨7, 3, false, true, (chrun.setChan 7 3 { sel := true, frm := 0x15A, frmN := 3, sdo := 0x10000000 }), (by decide +kernel), (by decide +kernel), (by decide +kernel), (by decide +kernel), (by decide +kernel), (by decide +kernel), (by decide +kernel)⟩,
    ⟨7, 3, true, true, ((chrun.setFlag (CH_FRM 7 3) fCH_FRM_EXC true).setChan 7 3 { sel := true, frm := 0x15A, frmN := 3, frmBits := 16 }), (by decide +kernel), (by decide +kernel), (by decide +kernel), (by decide +kernel), (by decide +kernel), (by decide +kernel), (by decide +kernel)⟩,
    ⟨7, 3, true, (chrun.setChan 7 3 { sel := true }), (by decide +kernel), (by decide +kernel), (by decide +kernel)⟩,
    ⟨7, 3, false, chrun, (by decide +kernel), (by decide +kernel)⟩,
    ⟨7, 3, ((chrun.setFlag (CH_FRM 7 3) fCH_FRM_PART true).setChan 7 3 { sel := true, frm := 0x15A, frmN := 3, frmBits := 19 }), (by decide +kernel), (by decide +kernel), (by decide +kernel), (by decide +kernel), (by decide +kernel), (by decide +kernel), (by decide +kernel), (by decide +kernel)⟩,
    ⟨7, 3, (chrun.setChan 7 3 { sel := true, frmBits := 8 }), (by decide +kernel), (by decide +kernel), (by decide +kernel), (by decide +kernel), (by decide +kernel)⟩⟩

/-- States and operands that meet the hypotheses of each clause of `ChannelQueues`. -/
theorem test_premises_of_channel_queues :
    (∃ (p : Port) (n : Fin 36) (ch : Fin 16) (data : Word) (s : State), s.takes p (CH_TXDATA n ch) data = true)
    ∧ (∃ (n : Nat) (k : Nat) (a : QWord) (b : QWord) (c : QWord) (s : State), (s.chan n k).txNext = [(2, a), (1, b), (0, c)] ∧ (s.chan n k).tx.length + 3 ≤ s.chDepth n k false)
    ∧ (∃ (n : Nat) (k : Nat) (w : QWord) (s : State), s.chDepth n k false ≤ (s.chan n k).tx.length)
    ∧ (∃ (p : Port) (n : Fin 36) (ch : Fin 16) (e : RxEntry) (t : List RxEntry) (s : State), s.reads p (CH_RXDATA n ch) = true ∧ (s.chan n ch).rx = e :: t ∧ s.hiLatch = [])
    ∧ (∃ (p : Port) (n : Fin 36) (ch : Fin 16) (s : State), s.reads p (CH_RXDATA n ch) = true ∧ (s.chan n ch).rx = [] ∧ s.hiLatch = [])
    ∧ (∃ (n : Fin 36) (ch : Fin 16) (e : List QWord) (q : Nat) (s : State) (u : State) (v : State), s.live = true ∧ s.flag (CH_TXSRC n ch) fCH_TXSRC_EN = true ∧ q = s.fld (CH_TXSRC n ch) fCH_TXSRC_QUEUE ∧ s.txRoom n ch (s.fld (CH_TXSRC n ch) fCH_TXSRC_NW + 1) = true ∧ s.qBusy q = false ∧ (s.chan n ch).fed ≠ s.fc + 1 ∧ ¬ (s.qEn q = true ∧ s.qShown q = 0) ∧ s.underTest 4 n = false ∧ s.hurdleDrops 4 n = false ∧ u = s.setChan n ch { s.chan n ch with fed := s.fc + 1 } ∧ u.qGet q (.chan n ch) (u.carriedInc q (.chan n ch)) = (.done, e, v))
    ∧ (∃ (n : Fin 36) (ch : Fin 16) (s : State), s.live = true ∧ ((s.flag (CH_TXSRC n ch) fCH_TXSRC_EN = false ∨ s.txRoom n ch (s.fld (CH_TXSRC n ch) fCH_TXSRC_NW + 1) = false)))
    ∧ (∃ (n : Fin 36) (ch : Fin 16) (e : RxEntry) (t : List RxEntry) (q : Nat) (s : State) (u : State) (v : State), s.live = true ∧ s.flag (CH_RXDST n ch) fCH_RXDST_EN = true ∧ q = s.fld (CH_RXDST n ch) fCH_RXDST_QUEUE ∧ s.qBusy q = false ∧ (s.chan n ch).rx = e :: t ∧ (s.chan n ch).drained ≠ s.fc + 1 ∧ s.underTest 4 n = false ∧ s.hurdleDrops 4 n = false ∧ s.fld (CH_RXDST n ch) fCH_RXDST_FMT = 0 ∧ u = s.setChan n ch { s.chan n ch with drained := s.fc + 1 } ∧ ((u.qPut q (.chan n ch) (u.carriedInc q (.chan n ch)) [(e.data, false), (.ofNat 32 (s.fld (CH_RXDST n ch) fCH_RXDST_CELL), false)] = (.done, v) ∨ u.qPut q (.chan n ch) (u.carriedInc q (.chan n ch)) [(e.data, false), (.ofNat 32 (s.fld (CH_RXDST n ch) fCH_RXDST_CELL), false)] = (.stale, v))))
    ∧ (∃ (n : Fin 36) (ch : Fin 16) (e : RxEntry) (t : List RxEntry) (q : Nat) (s : State) (u : State) (v : State), s.live = true ∧ s.flag (CH_RXDST n ch) fCH_RXDST_EN = true ∧ q = s.fld (CH_RXDST n ch) fCH_RXDST_QUEUE ∧ s.qBusy q = false ∧ (s.chan n ch).rx = e :: t ∧ (s.chan n ch).drained ≠ s.fc + 1 ∧ s.underTest 4 n = false ∧ s.hurdleDrops 4 n = false ∧ u = s.setChan n ch { s.chan n ch with drained := s.fc + 1 } ∧ u.qPut q (.chan n ch) (u.carriedInc q (.chan n ch)) (u.drainEntry n ch e) = (.full, v))
    ∧ (∃ (key : QWord) (idx : QWord) (t : List QWord) (n : Nat) (s : State), s.live = true ∧ s.flag CH_SCAT_CFG fCH_SCAT_CFG_EN = true ∧ s.ch.scat = key :: idx :: t ∧ s.ch.scatFc ≠ s.fc + 1 ∧ idx.1.toNat < 512 ∧ s.flag (CH_SMAP idx.1.toNat) fCH_SMAP_VALID = true ∧ s.findCh (s.fld (CH_SMAP idx.1.toNat) fCH_SMAP_LOGICAL) = some n ∧ s.flag CH_SCAT_CFG fCH_SCAT_CFG_WFMT = false)
    ∧ (∃ (key : QWord) (idx : QWord) (t : List QWord) (s : State), s.live = true ∧ s.flag CH_SCAT_CFG fCH_SCAT_CFG_EN = true ∧ s.ch.scat = key :: idx :: t ∧ s.ch.scatFc ≠ s.fc + 1 ∧ ((512 ≤ idx.1.toNat ∨ s.flag (CH_SMAP idx.1.toNat) fCH_SMAP_VALID = false)))
    ∧ (∃ (s : State), s.live = true ∧ ((s.flag CH_SCAT_CFG fCH_SCAT_CFG_EN = false ∨ s.ch.scatFc = s.fc + 1))) :=
  ⟨⟨.shepherd, 7, 3, 77, run, (by decide +kernel)⟩,
    ⟨7, 3, ((1, false)), ((2, true)), ((3, false)), (run.setChan 7 3 { txNext := [(2, (1, false)), (1, (2, true)), (0, (3, false))] }), (by decide +kernel), (by decide +kernel)⟩,
    ⟨7, 3, ((5, false)), (run.setChan 7 3 { tx := [(1, false), (2, false), (3, false), (4, false)] }), (by decide +kernel)⟩,
    ⟨.shepherd, 7, 3, (⟨5, 7, 9⟩), ([]), (run.setChan 7 3 { rx := [⟨5, 7, 9⟩] }), (by decide +kernel), (by decide +kernel), (by decide +kernel)⟩,
    ⟨.hpp, 7, 3, run, (by decide +kernel), (by decide +kernel), (by decide +kernel)⟩,
    ⟨7, 3, ([(9, false), (8, false)]), 13, ((krunq.setFlag (CH_TXSRC 7 3) fCH_TXSRC_EN true).setFld (CH_TXSRC 7 3) fCH_TXSRC_QUEUE 13), ((((krunq.setFlag (CH_TXSRC 7 3) fCH_TXSRC_EN true).setFld (CH_TXSRC 7 3) fCH_TXSRC_QUEUE 13 : State)).setChan 7 3 { (((krunq.setFlag (CH_TXSRC 7 3) fCH_TXSRC_EN true).setFld (CH_TXSRC 7 3) fCH_TXSRC_QUEUE 13 : State)).chan 7 3 with fed := (((krunq.setFlag (CH_TXSRC 7 3) fCH_TXSRC_EN true).setFld (CH_TXSRC 7 3) fCH_TXSRC_QUEUE 13 : State)).fc + 1 }), (((((((krunq.setFlag (CH_TXSRC 7 3) fCH_TXSRC_EN true).setFld (CH_TXSRC 7 3) fCH_TXSRC_QUEUE 13 : State)).setChan 7 3 { (((krunq.setFlag (CH_TXSRC 7 3) fCH_TXSRC_EN true).setFld (CH_TXSRC 7 3) fCH_TXSRC_QUEUE 13 : State)).chan 7 3 with fed := (((krunq.setFlag (CH_TXSRC 7 3) fCH_TXSRC_EN true).setFld (CH_TXSRC 7 3) fCH_TXSRC_QUEUE 13 : State)).fc + 1 } : State)).qGet 13 (.chan 7 3) ((((((krunq.setFlag (CH_TXSRC 7 3) fCH_TXSRC_EN true).setFld (CH_TXSRC 7 3) fCH_TXSRC_QUEUE 13 : State)).setChan 7 3 { (((krunq.setFlag (CH_TXSRC 7 3) fCH_TXSRC_EN true).setFld (CH_TXSRC 7 3) fCH_TXSRC_QUEUE 13 : State)).chan 7 3 with fed := (((krunq.setFlag (CH_TXSRC 7 3) fCH_TXSRC_EN true).setFld (CH_TXSRC 7 3) fCH_TXSRC_QUEUE 13 : State)).fc + 1 } : State)).carriedInc 13 (.chan 7 3))).2.2), (by decide +kernel), (by decide +kernel), (by decide +kernel), (by decide +kernel), (by decide +kernel), (by decide +kernel), (by decide +kernel), (by decide +kernel), (by decide +kernel), rfl, (by decide +kernel)⟩,
    ⟨7, 3, run, (by decide +kernel), (by decide +kernel)⟩,
    ⟨7, 3, (⟨5, 7, 9⟩), ([]), 13, (((krune.setFlag (CH_RXDST 7 3) fCH_RXDST_EN true).setFld (CH_RXDST 7 3) fCH_RXDST_QUEUE 13).setChan 7 3 { rx := [⟨5, 7, 9⟩] }), (((((krune.setFlag (CH_RXDST 7 3) fCH_RXDST_EN true).setFld (CH_RXDST 7 3) fCH_RXDST_QUEUE 13).setChan 7 3 { rx := [⟨5, 7, 9⟩] } : State)).setChan 7 3 { ((((krune.setFlag (CH_RXDST 7 3) fCH_RXDST_EN true).setFld (CH_RXDST 7 3) fCH_RXDST_QUEUE 13).setChan 7 3 { rx := [⟨5, 7, 9⟩] } : State)).chan 7 3 with drained := ((((krune.setFlag (CH_RXDST 7 3) fCH_RXDST_EN true).setFld (CH_RXDST 7 3) fCH_RXDST_QUEUE 13).setChan 7 3 { rx := [⟨5, 7, 9⟩] } : State)).fc + 1 }), ((((((((krune.setFlag (CH_RXDST 7 3) fCH_RXDST_EN true).setFld (CH_RXDST 7 3) fCH_RXDST_QUEUE 13).setChan 7 3 { rx := [⟨5, 7, 9⟩] } : State)).setChan 7 3 { ((((krune.setFlag (CH_RXDST 7 3) fCH_RXDST_EN true).setFld (CH_RXDST 7 3) fCH_RXDST_QUEUE 13).setChan 7 3 { rx := [⟨5, 7, 9⟩] } : State)).chan 7 3 with drained := ((((krune.setFlag (CH_RXDST 7 3) fCH_RXDST_EN true).setFld (CH_RXDST 7 3) fCH_RXDST_QUEUE 13).setChan 7 3 { rx := [⟨5, 7, 9⟩] } : State)).fc + 1 } : State)).qPut 13 (.chan 7 3) (((((((krune.setFlag (CH_RXDST 7 3) fCH_RXDST_EN true).setFld (CH_RXDST 7 3) fCH_RXDST_QUEUE 13).setChan 7 3 { rx := [⟨5, 7, 9⟩] } : State)).setChan 7 3 { ((((krune.setFlag (CH_RXDST 7 3) fCH_RXDST_EN true).setFld (CH_RXDST 7 3) fCH_RXDST_QUEUE 13).setChan 7 3 { rx := [⟨5, 7, 9⟩] } : State)).chan 7 3 with drained := ((((krune.setFlag (CH_RXDST 7 3) fCH_RXDST_EN true).setFld (CH_RXDST 7 3) fCH_RXDST_QUEUE 13).setChan 7 3 { rx := [⟨5, 7, 9⟩] } : State)).fc + 1 } : State)).carriedInc 13 (.chan 7 3)) [(5, false), (0, false)]).2), (by decide +kernel), (by decide +kernel), (by decide +kernel), (by decide +kernel), (by decide +kernel), (by decide +kernel), (by decide +kernel), (by decide +kernel), (by decide +kernel), rfl, (by decide +kernel)⟩,
    ⟨7, 3, (⟨5, 7, 9⟩), ([]), 13, (((krunf.setFlag (CH_RXDST 7 3) fCH_RXDST_EN true).setFld (CH_RXDST 7 3) fCH_RXDST_QUEUE 13).setChan 7 3 { rx := [⟨5, 7, 9⟩] }), (((((krunf.setFlag (CH_RXDST 7 3) fCH_RXDST_EN true).setFld (CH_RXDST 7 3) fCH_RXDST_QUEUE 13).setChan 7 3 { rx := [⟨5, 7, 9⟩] } : State)).setChan 7 3 { ((((krunf.setFlag (CH_RXDST 7 3) fCH_RXDST_EN true).setFld (CH_RXDST 7 3) fCH_RXDST_QUEUE 13).setChan 7 3 { rx := [⟨5, 7, 9⟩] } : State)).chan 7 3 with drained := ((((krunf.setFlag (CH_RXDST 7 3) fCH_RXDST_EN true).setFld (CH_RXDST 7 3) fCH_RXDST_QUEUE 13).setChan 7 3 { rx := [⟨5, 7, 9⟩] } : State)).fc + 1 }), ((((((((krunf.setFlag (CH_RXDST 7 3) fCH_RXDST_EN true).setFld (CH_RXDST 7 3) fCH_RXDST_QUEUE 13).setChan 7 3 { rx := [⟨5, 7, 9⟩] } : State)).setChan 7 3 { ((((krunf.setFlag (CH_RXDST 7 3) fCH_RXDST_EN true).setFld (CH_RXDST 7 3) fCH_RXDST_QUEUE 13).setChan 7 3 { rx := [⟨5, 7, 9⟩] } : State)).chan 7 3 with drained := ((((krunf.setFlag (CH_RXDST 7 3) fCH_RXDST_EN true).setFld (CH_RXDST 7 3) fCH_RXDST_QUEUE 13).setChan 7 3 { rx := [⟨5, 7, 9⟩] } : State)).fc + 1 } : State)).qPut 13 (.chan 7 3) (((((((krunf.setFlag (CH_RXDST 7 3) fCH_RXDST_EN true).setFld (CH_RXDST 7 3) fCH_RXDST_QUEUE 13).setChan 7 3 { rx := [⟨5, 7, 9⟩] } : State)).setChan 7 3 { ((((krunf.setFlag (CH_RXDST 7 3) fCH_RXDST_EN true).setFld (CH_RXDST 7 3) fCH_RXDST_QUEUE 13).setChan 7 3 { rx := [⟨5, 7, 9⟩] } : State)).chan 7 3 with drained := ((((krunf.setFlag (CH_RXDST 7 3) fCH_RXDST_EN true).setFld (CH_RXDST 7 3) fCH_RXDST_QUEUE 13).setChan 7 3 { rx := [⟨5, 7, 9⟩] } : State)).fc + 1 } : State)).carriedInc 13 (.chan 7 3)) [(5, false), (0, false)]).2), (by decide +kernel), (by decide +kernel), (by decide +kernel), (by decide +kernel), (by decide +kernel), (by decide +kernel), (by decide +kernel), (by decide +kernel), rfl, (by decide +kernel)⟩,
    ⟨((77, true)), ((3, false)), ([]), 7, ({ ((run.setFlag CH_SCAT_CFG fCH_SCAT_CFG_EN true).setFlag (CH_SMAP 3) fCH_SMAP_VALID true).setFlag (CH_MAP 7) fCH_MAP_LVALID true with ch := { scat := [(77, true), (3, false)] } }), (by decide +kernel), (by decide +kernel), (by decide +kernel), (by decide +kernel), (by decide +kernel), (by decide +kernel), (by decide +kernel), (by decide +kernel)⟩,
    ⟨((77, true)), ((512, false)), ([]), ({ run.setFlag CH_SCAT_CFG fCH_SCAT_CFG_EN true with ch := { scat := [(77, true), (512, false)] } }), (by decide +kernel), (by decide +kernel), (by decide +kernel), (by decide +kernel), (by decide +kernel)⟩,
    ⟨run, (by decide +kernel), (by decide +kernel)⟩⟩

/-- States and operands that meet the hypotheses of each clause of `ChanterCommands`. -/
theorem test_premises_of_chanter_commands :
    (∃ (p : Port) (n : Fin 36) (s : State), s.takes p (CH_CTRL n) 1 = true)
    ∧ (∃ (p : Port) (n : Fin 36) (s : State), s.takes p (CH_CTRL n) 2 = true)
    ∧ (∃ (p : Port) (n : Fin 36) (ch : Fin 16) (s : State), s.takes p (CH_CCTL n ch) 1 = true)
    ∧ (∃ (p : Port) (n : Fin 36) (ch : Fin 16) (s : State), s.takes p (CH_CCTL n ch) 2 = true)
    ∧ (∃ (n : Nat) (c : ChCmd) (s : State), (s.chanter n).cmds = [c] ∧ (s.chanter n).chans = [])
    ∧ (∃ (p : Port) (data : Word) (s : State), s.takes p CH_SYNC_CTRL (fCH_SYNC_CTRL_OP.put data 1) = true ∧ bitsOf data.toNat 4 2 ≠ 3)
    ∧ (∃ (p : Port) (data : Word) (s : State), s.takes p CH_SYNC_CTRL (fCH_SYNC_CTRL_OP.put data 2) = true ∧ bitsOf data.toNat 4 2 ≠ 3)
    ∧ (∃ (p : Port) (data : Word) (s : State), s.takes p CH_SYNC_CTRL (fCH_SYNC_CTRL_OP.put data 0) = true ∧ bitsOf data.toNat 4 2 ≠ 3)
    ∧ (∃ (w : Nat) (s : State), s.live = true ∧ s.ch.sync = some w ∧ w < s.fc ∧ s.fld CH_SYNC_CTRL fCH_SYNC_CTRL_SRC = 0 ∧ s.dvPhase ≠ 2 ∧ s.nat CH_SYNC_MASK = 0)
    ∧ (∃ (w : Nat) (s : State), s.live = true ∧ s.ch.sync = some w ∧ w < s.fc ∧ s.fld CH_SYNC_CTRL fCH_SYNC_CTRL_SRC = 0 ∧ s.dvPhase ≠ 2)
    ∧ (∃ (s : State), s.live = true ∧ s.ch.sync = none)
    ∧ (∃ (p : Port) (n : Fin 36) (a : Fin 256) (data : Word) (s : State), s.takes p (CH_CMEM_LO n a) data = true ∧ s.chRun n = false)
    ∧ (∃ (p : Port) (n : Fin 36) (a : Fin 256) (data : Word) (s : State), s.takes p (CH_CMEM_HI n a) data = true ∧ s.chRun n = false)
    ∧ (∃ (p : Port) (n : Fin 36) (a : Fin 256) (data : Word) (s : State), s.takes p (CH_CMEM_LO n a) data = true ∧ s.chRun n = true ∧ data ≠ s.reg (CH_CMEM_LO n a)) :=
  ⟨⟨.shepherd, 7, chrun, (by decide +kernel)⟩,
    ⟨.shepherd, 7, chrun, (by decide +kernel)⟩,
    ⟨.shepherd, 7, 3, (chrun.setFlag (CH_CSTAT 7 3) fCH_CSTAT_HOLD true), (by decide +kernel)⟩,
    ⟨.shepherd, 7, 3, chrun, (by decide +kernel)⟩,
    ⟨7, (.halt 3), (chrun.setChanter 7 { cmds := [.halt 3] }), (by decide +kernel), (by decide +kernel)⟩,
    ⟨.shepherd, 0x10, run, (by decide +kernel), (by decide +kernel)⟩,
    ⟨.shepherd, 0x10, run, (by decide +kernel), (by decide +kernel)⟩,
    ⟨.shepherd, 0x10, run, (by decide +kernel), (by decide +kernel)⟩,
    ⟨3, ({ run with fc := 9, ch := { sync := some 3 } }), (by decide +kernel), (by decide +kernel), (by decide +kernel), (by decide +kernel), (by decide +kernel), (by decide +kernel)⟩,
    ⟨3, ({ ((chrun.setFlag (CH_MAP 7) fCH_MAP_LVALID true).setNat CH_SYNC_MASK 1).setNat CH_SYNC_CTRL 2 with fc := 9, ch := { sync := some 3 } }), (by decide +kernel), (by decide +kernel), (by decide +kernel), (by decide +kernel), (by decide +kernel)⟩,
    ⟨run, (by decide +kernel), (by decide +kernel)⟩,
    ⟨.shepherd, 7, 255, 0x12345678, run, (by decide +kernel), (by decide +kernel)⟩,
    ⟨.shepherd, 7, 255, 0x12, run, (by decide +kernel), (by decide +kernel)⟩,
    ⟨.shepherd, 7, 255, 0x12345678, chrun, (by decide +kernel), (by decide +kernel), (by decide +kernel)⟩⟩

/-- States and operands that meet the hypotheses of each clause of `QueueControl`. -/
theorem test_premises_of_queue_control :
    (∃ (p : Port) (n : Fin 4096) (data : Word) (s : State) (w : Word), w = fQF_QCFG_EN.put data 1 ∧ s.takes p (QF_QCFG n) w = true ∧ s.qEn n = false ∧ 0 < bitsOf w.toNat 0 13 ∧ bitsOf w.toNat 0 13 ≤ 4096 ∧ bitsOf w.toNat 20 4 ≤ 8 ∧ (s.setReg (QF_QCFG n) w).cellsFree n = true ∧ ¬ (bitsOf w.toNat 30 1 = 1 ∧ bitsOf w.toNat 28 2 ≠ 0))
    ∧ (∃ (p : Port) (n : Fin 4096) (data : Word) (s : State) (w : Word), w = fQF_QCFG_EN.put data 1 ∧ s.takes p (QF_QCFG n) w = true ∧ s.qEn n = false ∧ 0 < bitsOf w.toNat 0 13 ∧ bitsOf w.toNat 0 13 ≤ 4096 ∧ bitsOf w.toNat 20 4 ≤ 8 ∧ (s.setReg (QF_QCFG n) w).cellsFree n = false)
    ∧ (∃ (p : Port) (n : Fin 4096) (data : Word) (s : State) (w : Word), w = fQF_QCFG_EN.put data 0 ∧ s.takes p (QF_QCFG n) w = true ∧ s.qEn n = true ∧ bitsOf w.toNat 0 31 = bitsOf (s.nat (QF_QCFG n)) 0 31 ∧ 0 < bitsOf w.toNat 0 13 ∧ bitsOf w.toNat 0 13 ≤ 4096 ∧ bitsOf w.toNat 20 4 ≤ 8 ∧ s.flag (QF_QPIN n) fQF_QPIN_PINNED = false ∧ s.qPool n = false)
    ∧ (∃ (p : Port) (n : Fin 4096) (data : Word) (s : State) (w : Word), w = fQF_QCFG_EN.put data 0 ∧ s.takes p (QF_QCFG n) w = true ∧ s.qEn n = true ∧ bitsOf w.toNat 0 31 = bitsOf (s.nat (QF_QCFG n)) 0 31 ∧ 0 < bitsOf w.toNat 0 13 ∧ bitsOf w.toNat 0 13 ≤ 4096 ∧ bitsOf w.toNat 20 4 ≤ 8 ∧ s.flag (QF_QPIN n) fQF_QPIN_PINNED = true)
    ∧ (∃ (p : Port) (cl : Fin 8) (e : Fin 64) (data : Word) (s : State) (q : Nat), s.takes p (CL_QPIN cl e) data = true ∧ s.flag (CL_QPIN cl e) fCL_QPIN_VALID = false ∧ bitOf data.toNat 31 = true ∧ q = bitsOf data.toNat 0 12 ∧ s.pinOk q = true)
    ∧ (∃ (p : Port) (cl : Fin 8) (e : Fin 64) (data : Word) (s : State) (q : Nat), s.takes p (CL_QPIN cl e) data = true ∧ s.flag (CL_QPIN cl e) fCL_QPIN_VALID = false ∧ bitOf data.toNat 31 = true ∧ q = bitsOf data.toNat 0 12 ∧ s.pinOk q = false)
    ∧ (∃ (p : Port) (cl : Fin 8) (e : Fin 64) (data : Word) (s : State) (q : Nat), s.takes p (CL_QPIN cl e) data = true ∧ s.flag (CL_QPIN cl e) fCL_QPIN_VALID = true ∧ q = s.fld (CL_QPIN cl e) fCL_QPIN_QUEUE ∧ bitOf data.toNat 31 = false)
    ∧ (∃ (n : Nat) (dir : Nat) (s : State), s.qBusy n = false)
    ∧ (∃ (n : Nat) (dir : Nat) (s : State), tget (fun _ => 0) s.qf.copying n = 1)
    ∧ (∃ (n : Fin 4096) (s : State), s.live = true ∧ tget (fun _ => 0) s.qf.copying n = 1 ∧ s.qf.held = [] ∧ s.mbWaiting 0x601 = none)
    ∧ (∃ (n : Fin 4096) (s : State), s.qBusy n = false)
    ∧ (∃ (p : Port) (n : Fin 4096) (s : State), s.admits p (QF_WMN_STAT n) (fQF_WMN_STAT_CLRCNT.put 0 1) = true ∧ bitOf (s.word p (QF_WMN_STAT n) (fQF_WMN_STAT_CLRCNT.put 0 1)).toNat 31 = true)
    ∧ (∃ (n : Nat) (w1c : Nat) (st : Word) (s : State), tget (fun _ => ({} : CrossFc)) s.qf.cross n = {})
    ∧ (∃ (p : Port) (data : Word) (s : State), s.takes p QF_SEED (fQF_SEED_GO.put data 1) = true ∧ s.flag QF_SEED_STAT fQF_SEED_STAT_BUSY = false ∧ s.qEn (s.fld QF_SEED_Q fQF_SEED_Q_QUEUE) = true ∧ s.qPool (s.fld QF_SEED_Q fQF_SEED_Q_QUEUE) = true)
    ∧ (∃ (p : Port) (data : Word) (s : State), s.takes p QF_SEED (fQF_SEED_GO.put data 1) = true ∧ s.flag QF_SEED_STAT fQF_SEED_STAT_BUSY = true)
    ∧ (∃ (s : State), s.live = true ∧ s.flag QF_SEED_STAT fQF_SEED_STAT_BUSY = true ∧ s.mbWaiting 0x602 = none)
    ∧ (∃ (f : Fin 16) (s : State), s.live = true ∧ bitOf (s.nat QF_RECL) f = true)
    ∧ (∃ (f : Fin 16) (s : State), bitOf (s.nat QF_RECL) f = false)
    ∧ (∃ (src : Fin 72) (dst : Fin 72) (s : State), s.live = true ∧ s.qf.moves = [(src.val, dst.val)])
    ∧ (∃ (src : Fin 72) (dst : Fin 72) (s : State), (src.val, dst.val) ∉ s.qf.moves) :=
  ⟨⟨.shepherd, 13, 0x10, run, 0x80000010, (by decide +kernel), (by decide +kernel), (by decide +kernel), (by decide +kernel), (by decide +kernel), (by decide +kernel), (by decide +kernel), (by decide +kernel)⟩,
    ⟨.shepherd, 13, 0x10, (run.setNat (QF_BCTAG 0) 0xC0000000), 0x80000010, (by decide +kernel), (by decide +kernel), (by decide +kernel), (by decide +kernel), (by decide +kernel), (by decide +kernel), (by decide +kernel)⟩,
    ⟨.shepherd, 13, 4, krunq, 4, (by decide +kernel), (by decide +kernel), (by decide +kernel), (by decide +kernel), (by decide +kernel), (by decide +kernel), (by decide +kernel), (by decide +kernel), (by decide +kernel)⟩,
    ⟨.shepherd, 13, 4, (krunq.setNat (QF_QPIN 13) 9), 4, (by decide +kernel), (by decide +kernel), (by decide +kernel), (by decide +kernel), (by decide +kernel), (by decide +kernel), (by decide +kernel), (by decide +kernel)⟩,
    ⟨.shepherd, 3, 5, 0x8000000D, krunq, 13, (by decide +kernel), (by decide +kernel), (by decide +kernel), (by decide +kernel), (by decide +kernel)⟩,
    ⟨.shepherd, 3, 5, 0x8000000E, krunq, 14, (by decide +kernel), (by decide +kernel), (by decide +kernel), (by decide +kernel), (by decide +kernel)⟩,
    ⟨.shepherd, 3, 5, 0, ((krunq.setNat (CL_QPIN 3 5) 0x8000000D).setNat (QF_QPIN 13) 11), 13, (by decide +kernel), (by decide +kernel), (by decide +kernel), (by decide +kernel)⟩,
    ⟨13, 2, krunq, (by decide +kernel)⟩,
    ⟨13, 2, ({ krunq with qf := { krunq.qf with copying := [(13, 1)] } }), (by decide +kernel)⟩,
    ⟨13, ({ krunq with qf := { krunq.qf with copying := [(13, 1)] } }), (by decide +kernel), (by decide +kernel), (by decide +kernel), (by decide +kernel)⟩,
    ⟨13, krunq, (by decide +kernel)⟩,
    ⟨.shepherd, 13, (run.setNat (QF_WMN_CNT 13) 77), (by decide +kernel), (by decide +kernel)⟩,
    ⟨13, 3, 0x80000000, krunq, (by decide +kernel)⟩,
    ⟨.shepherd, 0x30004, ((run.setFlag (QF_QCFG 0) fQF_QCFG_EN true).setFlag (QF_QCFG 0) fQF_QCFG_POOL true), (by decide +kernel), (by decide +kernel), (by decide +kernel), (by decide +kernel)⟩,
    ⟨.shepherd, 0x30004, (run.setFlag QF_SEED_STAT fQF_SEED_STAT_BUSY true), (by decide +kernel), (by decide +kernel)⟩,
    ⟨({ ((run.setFlag QF_SEED_STAT fQF_SEED_STAT_BUSY true).setNat (QF_QCFG 0) 0xC0000008) with qf := { seedCell := 60, seedLeft := 3 } }), (by decide +kernel), (by decide +kernel), (by decide +kernel)⟩,
    ⟨3, ((run.setNat QF_RECL 8).setNat (QF_BCTAG 9) (2 * 2 ^ 30 + 3 * 2 ^ 24)), (by decide +kernel), (by decide +kernel)⟩,
    ⟨3, run, (by decide +kernel)⟩,
    ⟨3, 4, ({ run with qf := { moves := [(3, 4)] } }), (by decide +kernel), (by decide +kernel)⟩,
    ⟨3, 4, run, (by decide +kernel)⟩⟩

/-- States and operands that meet the hypotheses of each clause of `QueueOperationsByRegisters`. -/
theorem test_premises_of_queue_operations_by_registers :
    (∃ (p : Port) (m : Fin 2) (n : Fin 4096) (s : State), s.takes p (QF_HOP m) (.ofNat 32 (2 ^ 30 + n.val)) = true ∧ s.qBusy n = false ∧ s.qEn n = true ∧ s.descPoisoned n = false ∧ s.qPool n = false ∧ s.qLevel n < s.qDepth n ∧ ((∀ x ∈ s.si.fly, x.fc + 2 ≠ s.fc ∨ s.routeQueue x ≠ some n.val)))
    ∧ (∃ (p : Port) (m : Fin 2) (n : Fin 4096) (s : State), s.takes p (QF_HOP m) (.ofNat 32 (2 ^ 30 + n.val)) = true ∧ s.qBusy n = false ∧ s.qEn n = true ∧ s.descPoisoned n = false ∧ s.qPool n = false ∧ s.qDepth n ≤ s.qLevel n ∧ ((∀ x ∈ s.si.fly, x.fc + 2 ≠ s.fc ∨ s.routeQueue x ≠ some n.val)))
    ∧ (∃ (p : Port) (m : Fin 2) (n : Fin 4096) (s : State), s.takes p (QF_HOP m) (.ofNat 32 (2 ^ 30 + n.val)) = true ∧ s.qBusy n = false ∧ s.qEn n = false ∧ ((∀ x ∈ s.si.fly, x.fc + 2 ≠ s.fc ∨ s.routeQueue x ≠ some n.val)))
    ∧ (∃ (p : Port) (m : Fin 2) (n : Fin 4096) (s : State), s.takes p (QF_HOP m) (.ofNat 32 (2 ^ 30 + n.val)) = true ∧ s.qBusy n = true)
    ∧ (∃ (p : Port) (m : Fin 2) (n : Fin 4096) (s : State), s.takes p (QF_HOP m) (.ofNat 32 (2 * 2 ^ 30 + n.val)) = true ∧ s.qBusy n = false ∧ s.qEn n = true ∧ s.descPoisoned n = false ∧ s.qPool n = false ∧ s.qShown n ≠ 0)
    ∧ (∃ (p : Port) (m : Fin 2) (n : Fin 4096) (s : State), s.takes p (QF_HOP m) (.ofNat 32 (2 * 2 ^ 30 + n.val)) = true ∧ s.qBusy n = false ∧ s.qEn n = true ∧ s.descPoisoned n = false ∧ s.qShown n = 0)
    ∧ (∃ (p : Port) (m : Fin 2) (n : Fin 4096) (s : State), s.takes p (QF_HOP m) (.ofNat 32 (3 * 2 ^ 30 + n.val)) = true ∧ s.qBusy n = false ∧ s.qEn n = true ∧ s.descPoisoned n = false) :=
  ⟨⟨.hpp, 0, 13, (krune.setNat (QF_HPUT 0 0) 77), (by decide +kernel), (by decide +kernel), (by decide +kernel), (by decide +kernel), (by decide +kernel), (by decide +kernel), (by decide +kernel)⟩,
    ⟨.hpp, 0, 13, krunf, (by decide +kernel), (by decide +kernel), (by decide +kernel), (by decide +kernel), (by decide +kernel), (by decide +kernel), (by decide +kernel)⟩,
    ⟨.hpp, 0, 4095, krunf, (by decide +kernel), (by decide +kernel), (by decide +kernel), (by decide +kernel)⟩,
    ⟨.hpp, 0, 13, ({ krunf with qf := { krunf.qf with copying := [(13, 1)] } }), (by decide +kernel), (by decide +kernel)⟩,
    ⟨.hpp, 0, 13, krunq, (by decide +kernel), (by decide +kernel), (by decide +kernel), (by decide +kernel), (by decide +kernel), (by decide +kernel)⟩,
    ⟨.hpp, 0, 13, krune, (by decide +kernel), (by decide +kernel), (by decide +kernel), (by decide +kernel), (by decide +kernel)⟩,
    ⟨.hpp, 0, 13, krunq, (by decide +kernel), (by decide +kernel), (by decide +kernel), (by decide +kernel)⟩⟩

/-- States and operands that meet the hypotheses of each clause of `EventConcentrator`. -/
theorem test_premises_of_event_concentrator :
    (∃ (n : Fin 1024) (s : State), s.live = true ∧ s.eligible n = true ∧ ((∀ m : Fin 1024, m ≠ n → s.eligible m = false)) ∧ tget (fun _ => 0) s.ev.next (n / 16) ≤ s.fc ∧ s.ev.delivs = [])
    ∧ (∃ (s : State), ((∀ m : Fin 1024, s.eligible m = false)))
    ∧ (∃ (n : Nat) (s : State), s.flag (EC_SSTAT n) fEC_SSTAT_PENDING = true)
    ∧ (∃ (p : Port) (data : Word) (s : State), s.takes p EC_EOI data = true)
    ∧ (∃ (n : Nat) (s : State), s.flag (EC_SSTAT n) fEC_SSTAT_ACTIVE = true)
    ∧ (∃ (n : Nat) (s : State), s.flag (EC_SSTAT n) fEC_SSTAT_ACTIVE = false)
    ∧ (∃ (a : Nat) (d : Nat) (r : HeldRaise) (s : State), s.ev.eois = [a] ∧ s.ev.delivs = [d] ∧ s.ev.raises = [r])
    ∧ (∃ (f : Fin 16) (data : Word) (s : State), s.portOpen (.hup f) = true ∧ s.flag (FLK_CTRL f) fFLK_CTRL_EN = true ∧ data.toNat < 1024 ∧ s.fld (EC_TARGET data.toNat) fEC_TARGET_FLOCK = f)
    ∧ (∃ (f : Fin 16) (data : Word) (s : State), s.portOpen (.hup f) = true ∧ s.flag (FLK_CTRL f) fFLK_CTRL_EN = true ∧ data.toNat < 1024 ∧ s.fld (EC_TARGET data.toNat) fEC_TARGET_FLOCK ≠ f)
    ∧ (∃ (p : Port) (data : Word) (s : State), s.takes p EC_SW_RAISE data = true ∧ 992 ≤ bitsOf data.toNat 0 10)
    ∧ (∃ (p : Port) (data : Word) (s : State), s.takes p EC_SW_RAISE data = true ∧ bitsOf data.toNat 0 10 < 992)
    ∧ (∃ (p : Port) (n : Fin 1024) (data : Word) (s : State), s.takes p (EC_TARGET n) data = true ∧ bitsOf data.toNat 0 5 < 22 ∧ data ≠ s.reg (EC_TARGET n) ∧ s.flag (EC_SSTAT n) fEC_SSTAT_ACTIVE = false ∧ s.flag (EC_SSTAT n) fEC_SSTAT_PENDING = false)
    ∧ (∃ (p : Port) (n : Fin 1024) (data : Word) (s : State), s.takes p (EC_TARGET n) data = true ∧ bitsOf data.toNat 0 5 < 22 ∧ data ≠ s.reg (EC_TARGET n) ∧ s.flag (EC_SSTAT n) fEC_SSTAT_ACTIVE = true)
    ∧ (∃ (i : Fin 8) (rising : Bool) (k : Nat) (s : State), s.live = true ∧ rising ≠ bitOf (s.nat EC_WAKE_POL) i ∧ bitOf (s.nat EC_WAKE_EN) i = true ∧ bitOf (s.nat EC_WAKE_LATCH) i = false)
    ∧ (∃ (s : State), s.live = true ∧ reached (s.reg64 EC_WAKE_TIME_LO EC_WAKE_TIME_HI) s.now = true ∧ bitOf (s.nat EC_WAKE_EN) 14 = true ∧ bitOf (s.nat EC_WAKE_LATCH) 14 = false)
    ∧ (∃ (s : State), reached (s.reg64 EC_WAKE_TIME_LO EC_WAKE_TIME_HI) s.now = false) :=
  ⟨⟨930, ({ (run.setFlag (EC_SSTAT 930) fEC_SSTAT_PENDING true).setNat (EG_HOLDOFF 58) 3 with fc := 5 }), (by decide +kernel), (by decide +kernel), (by decide +kernel), (by decide +kernel), (by decide +kernel)⟩,
    ⟨run, (by decide +kernel)⟩,
    ⟨930, ({ (run.setFlag (EC_SSTAT 930) fEC_SSTAT_PENDING true).setNat (EG_HOLDOFF 58) 3 with fc := 5 }), (by decide +kernel)⟩,
    ⟨.shepherd, 930, (run.setFlag (EC_SSTAT 930) fEC_SSTAT_ACTIVE true), (by decide +kernel)⟩,
    ⟨930, (run.setFlag (EC_SSTAT 930) fEC_SSTAT_ACTIVE true), (by decide +kernel)⟩,
    ⟨930, run, (by decide +kernel)⟩,
    ⟨930, 931, ({ source := 932 }), ({ (run.setFlag (EC_SSTAT 930) fEC_SSTAT_ACTIVE true).setFlag (EC_SSTAT 931) fEC_SSTAT_PENDING true with ev := { run.ev with eois := [930], delivs := [931], raises := [{ source := 932 }] } }), (by decide +kernel), (by decide +kernel), (by decide +kernel)⟩,
    ⟨3, 930, (((run.setFlag (EC_SSTAT 930) fEC_SSTAT_ACTIVE true).setFlag (FLK_CTRL 3) fFLK_CTRL_EN true).setFld (EC_TARGET 930) fEC_TARGET_FLOCK 3), (by decide +kernel), (by decide +kernel), (by decide +kernel), (by decide +kernel)⟩,
    ⟨3, 930, (run.setFlag (FLK_CTRL 3) fFLK_CTRL_EN true), (by decide +kernel), (by decide +kernel), (by decide +kernel), (by decide +kernel)⟩,
    ⟨.shepherd, 1023, (run.setNat (EC_SW_PAY 0) 5), (by decide +kernel), (by decide +kernel)⟩,
    ⟨.shepherd, 991, run, (by decide +kernel), (by decide +kernel)⟩,
    ⟨.shepherd, 930, 21, (run.setNat (EC_TARGET 930) 3), (by decide +kernel), (by decide +kernel), (by decide +kernel), (by decide +kernel), (by decide +kernel)⟩,
    ⟨.shepherd, 930, 21, ((run.setNat (EC_TARGET 930) 3).setFlag (EC_SSTAT 930) fEC_SSTAT_ACTIVE true), (by decide +kernel), (by decide +kernel), (by decide +kernel), (by decide +kernel)⟩,
    ⟨5, true, 9, (run.setNat EC_WAKE_EN 32), (by decide +kernel), (by decide +kernel), (by decide +kernel), (by decide +kernel)⟩,
    ⟨(run.setNat EC_WAKE_EN 0x4000), (by decide +kernel), (by decide +kernel), (by decide +kernel), (by decide +kernel)⟩,
    ⟨(run.setNat EC_WAKE_TIME_LO 5), (by decide +kernel)⟩⟩

/-- States and operands that meet the hypotheses of each clause of `JournalRingAndDrain`. -/
theorem test_premises_of_journal_ring_and_drain :
    (∃ (e : JEntry) (t : List JEntry) (s : State), s.live = true ∧ s.jn.wbuf = e :: t ∧ s.jn.closed = false ∧ s.nat JN_BACKLOG < 262144 ∧ s.nat JN_BACKLOG + 1 < s.fld JN_DRAIN_THR fJN_DRAIN_THR_COUNT)
    ∧ (∃ (e : JEntry) (t : List JEntry) (s : State), s.live = true ∧ s.jn.wbuf = e :: t ∧ s.jn.closed = false ∧ s.nat JN_BACKLOG = 262144 ∧ s.fld JN_DRAIN_THR fJN_DRAIN_THR_COUNT ≤ 262144 ∧ s.flag JN_STAT fJN_STAT_LOSS = true)
    ∧ (∃ (s : State), s.jn.wbuf = [] ∧ s.jn.input = [])
    ∧ (∃ (row : Fin 32768) (i : Fin 64) (x : BitVec 48) (s : State), s.pw.mode = .graze)
    ∧ (∃ (s : State), s.live = true ∧ (s.nat JN_DRAIN_PER : Int) ≤ stampDiff s.now s.jn.per ∧ s.flag JN_CTRL fJN_CTRL_DEN = true ∧ s.flag JN_STAT fJN_STAT_DERR = false ∧ s.flag JN_STAT fJN_STAT_DBUSY = false)
    ∧ (∃ (s : State), s.flag JN_CTRL fJN_CTRL_DEN = false)
    ∧ (∃ (p : Port) (s : State), s.reg JN_CTRL = 1 ∧ s.takes p JN_CTRL 3 = true ∧ s.flag JN_STAT fJN_STAT_DERR = false ∧ s.flag JN_STAT fJN_STAT_DBUSY = false)
    ∧ (∃ (p : Port) (s : State), s.reg JN_CTRL = 1 ∧ s.takes p JN_CTRL 3 = true ∧ s.flag JN_STAT fJN_STAT_DERR = true)
    ∧ (∃ (p : Port) (s : State), s.reg JN_CTRL = 1 ∧ s.takes p JN_CTRL 5 = true ∧ s.flag JN_STAT fJN_STAT_DBUSY = false)
    ∧ (∃ (s : State), s.live = true ∧ s.flag JN_STAT fJN_STAT_DBUSY = true ∧ s.jn.burst = 1 ∧ s.hostFull = false ∧ s.nat JN_BACKLOG ≠ 0 ∧ s.ringPoisoned (s.nat JN_DIDX) = false ∧ s.reg64 JN_HWB_LO JN_HWB_HI = 0)
    ∧ (∃ (s : State), s.live = true ∧ s.flag JN_STAT fJN_STAT_DBUSY = true ∧ s.reg64 JN_HWB_LO JN_HWB_HI ≠ 0 ∧ s.jn.burst = 0)
    ∧ (∃ (byte : Fin 32) (s : State), s.live = true ∧ s.flag JN_STAT fJN_STAT_DBUSY = true) :=
  ⟨⟨(⟨5, 930, 0, 0, 9, 1, 2, 3, 4⟩), ([]), ({ run.setNat JN_DRAIN_THR 100 with jn := { run.jn with wbuf := [⟨5, 930, 0, 0, 9, 1, 2, 3, 4⟩] } }), (by decide +kernel), (by decide +kernel), (by decide +kernel), (by decide +kernel), (by decide +kernel)⟩,
    ⟨(⟨5, 930, 0, 0, 9, 1, 2, 3, 4⟩), ([]), ({ ((run.setNat JN_BACKLOG 262144).setNat JN_DRAIN_THR 100).setFlag JN_STAT fJN_STAT_LOSS true with jn := { run.jn with wbuf := [⟨5, 930, 0, 0, 9, 1, 2, 3, 4⟩] } }), (by decide +kernel), (by decide +kernel), (by decide +kernel), (by decide +kernel), (by decide +kernel), (by decide +kernel)⟩,
    ⟨run, (by decide +kernel), (by decide +kernel)⟩,
    ⟨7, 63, 4, run, (by decide +kernel)⟩,
    ⟨((run.setNat JN_CTRL 1).setNat JN_DRAIN_PER 0), (by decide +kernel), (by decide +kernel), (by decide +kernel), (by decide +kernel), (by decide +kernel)⟩,
    ⟨run, (by decide +kernel)⟩,
    ⟨.shepherd, (run.setNat JN_CTRL 1), (by decide +kernel), (by decide +kernel), (by decide +kernel), (by decide +kernel)⟩,
    ⟨.shepherd, ((run.setNat JN_CTRL 1).setFlag JN_STAT fJN_STAT_DERR true), (by decide +kernel), (by decide +kernel), (by decide +kernel)⟩,
    ⟨.shepherd, ((run.setNat JN_CTRL 1).setFlag JN_STAT fJN_STAT_DERR true), (by decide +kernel), (by decide +kernel), (by decide +kernel)⟩,
    ⟨({ ((run.setFlag JN_STAT fJN_STAT_DBUSY true).setNat JN_BACKLOG 1).setNat JN_HSIZE 10 with jn := { run.jn with burst := 1 } }), (by decide +kernel), (by decide +kernel), (by decide +kernel), (by decide +kernel), (by decide +kernel), (by decide +kernel), (by decide +kernel)⟩,
    ⟨((run.setFlag JN_STAT fJN_STAT_DBUSY true).setNat JN_HWB_LO 0x1000), (by decide +kernel), (by decide +kernel), (by decide +kernel), (by decide +kernel)⟩,
    ⟨31, ({ run.setFlag JN_STAT fJN_STAT_DBUSY true with jn := { run.jn with burst := 1 } }), (by decide +kernel), (by decide +kernel)⟩⟩

/-- States and operands that meet the hypotheses of each clause of `FlocksAndPages`. -/
theorem test_premises_of_flocks_and_pages :
    (∃ (p : Port) (f : Fin 16) (s : State) (w : Word), w = fFLK_CTRL_RESET.put (s.reg (FLK_CTRL f)) 1 ∧ s.takes p (FLK_CTRL f) w = true ∧ tget (fun _ => 0) s.flkReq f = 0 ∧ s.flag (FLK_STAT f) fFLK_STAT_CLEAN = true)
    ∧ (∃ (p : Port) (f : Fin 16) (s : State) (w : Word), w = fFLK_CTRL_RESET.put (s.reg (FLK_CTRL f)) 1 ∧ s.takes p (FLK_CTRL f) w = true ∧ (s.master p).lvl ≠ 3 ∧ tget (fun _ => 0) s.flkReq f = 0 ∧ s.notClean f = true)
    ∧ (∃ (f : Fin 16) (s : State), s.live = true)
    ∧ (∃ (f : Nat) (g : Nat) (who : Nat) (s : State), s.flkReq = [(f, who)] ∧ s.flkClean = [g])
    ∧ (∃ (f : Nat) (s : State), s.live = true ∧ s.flag (FLK_STAT f) fFLK_STAT_RESETTING = true ∧ s.resetFc f < s.fc ∧ s.flkWaits f = 0 ∧ s.mb.waits = [])
    ∧ (∃ (f : Nat) (s : State), ((s.flag (FLK_STAT f) fFLK_STAT_RESETTING = false ∨ s.flkWaits f ≠ 0 ∨ s.fc ≤ s.resetFc f)))
    ∧ (∃ (f : Fin 16) (v : Word) (o : Nat) (s : State), s.portOpen (.hup f) = true ∧ s.flag (FLK_CTRL f) fFLK_CTRL_EN = true ∧ s.urpTarget (s.nat (PG_UADDR f)) = some o ∧ o % 4 = 0 ∧ s.viewDenied (s.master (.hup f)) o = false ∧ s.swept o = false)
    ∧ (∃ (f : Fin 16) (v : Word) (s : State), s.portOpen (.hup f) = true ∧ s.flag (FLK_CTRL f) fFLK_CTRL_EN = true ∧ s.urpTarget (s.nat (PG_UADDR f)) = none)
    ∧ (∃ (f : Fin 16) (o : Nat) (s : State), s.portOpen (.hup f) = true ∧ s.flag (FLK_CTRL f) fFLK_CTRL_EN = true ∧ s.urpTarget (s.nat (PG_UADDR f)) = some o ∧ o % 4 = 0 ∧ s.flockOwns f o = true ∧ s.swept o = false) :=
  ⟨⟨.hpp, 3, (run.setFlag (FLK_STAT 3) fFLK_STAT_CLEAN true), 2, (by decide +kernel), (by decide +kernel), (by decide +kernel), (by decide +kernel)⟩,
    ⟨.hpp, 3, (run.setFlag (FLK_STAT 3) fFLK_STAT_CLEAN false), 2, (by decide +kernel), (by decide +kernel), (by decide +kernel), (by decide +kernel), (by decide +kernel)⟩,
    ⟨3, run, (by decide +kernel)⟩,
    ⟨3, 4, 1, ({ (run.setFlag (FLK_STAT 3) fFLK_STAT_CLEAN true) with flkReq := [(3, 1)], flkClean := [4] }), (by decide +kernel), (by decide +kernel)⟩,
    ⟨3, ({ (run.setFlag (FLK_STAT 3) fFLK_STAT_RESETTING true).setFlag (FLK_STAT 3) fFLK_STAT_CLEAN false with fc := 9, flkFc := [(3, 4)] }), (by decide +kernel), (by decide +kernel), (by decide +kernel), (by decide +kernel), (by decide +kernel)⟩,
    ⟨3, run, (by decide +kernel)⟩,
    ⟨3, 9, 0x220020, (((run.setFlag (FLK_CTRL 3) fFLK_CTRL_EN true).setNat (PW_MAP 0) 0x340).setNat (PG_UADDR 3) 0x20), (by decide +kernel), (by decide +kernel), (by decide +kernel), (by decide +kernel), (by decide +kernel), (by decide +kernel)⟩,
    ⟨3, 9, (run.setFlag (FLK_CTRL 3) fFLK_CTRL_EN true), (by decide +kernel), (by decide +kernel), (by decide +kernel)⟩,
    ⟨3, 0x220020, (((run.setFlag (FLK_CTRL 3) fFLK_CTRL_EN true).setNat (PW_MAP 0) 0x340).setNat (PG_UADDR 3) 0x20), (by decide +kernel), (by decide +kernel), (by decide +kernel), (by decide +kernel), (by decide +kernel), (by decide +kernel)⟩⟩

/-- States and operands that meet the hypotheses of each clause of `ShepherdEvents`. -/
theorem test_premises_of_shepherd_events :
    (∃ (x : Nat) (s : State), s.live = true ∧ s.interruptDue = some (x, false) ∧ x ≠ 0x14 ∧ (s.descriptor false x).valid = true ∧ (s.descriptor false x).type = 1)
    ∧ (∃ (s : State), s.live = true ∧ s.shBankNo = 0 ∧ s.sh.aopen ≠ 2 ∧ s.sh.warnPend = true ∧ (s.descriptor false 0x14).valid = true ∧ (s.descriptor false 0x14).type = 1 ∧ (s.descriptor false 0x14).sup = true)
    ∧ (∃ (s : State), ((s.shBankNo ≠ 0 ∨ s.sh.aopen = 2)))
    ∧ (∃ (s : State), s.live = true ∧ s.sh.aopen = 1 ∧ s.sh.abudget = 0)
    ∧ (∃ (s : State), ((s.sh.aopen ≠ 1 ∨ s.sh.abudget ≠ 0)))
    ∧ (∃ (e : BufStore) (t : List BufStore) (s : State), s.live = true ∧ s.sh.stores = e :: t)
    ∧ (∃ (s : State), s.sh.stores = [])
    ∧ (∃ (bytes : Vector Byte 32) (l : Nat) (t : List Nat) (s : State), s.live = true ∧ s.sh.lineReq = l :: t ∧ s.sh.demand = none)
    ∧ (∃ (bytes : Vector Byte 32) (l : Nat) (t : List Nat) (s : State), s.live = true ∧ s.sh.lineReq = l :: t ∧ s.sh.demand = none)
    ∧ (∃ (bytes : Vector Byte 32) (l : Nat) (t : List Nat) (s : State), s.live = true ∧ s.sh.lineReq = l :: t ∧ s.sh.demand = some l)
    ∧ (∃ (s : State), s.live = true ∧ s.wdgOn = true ∧ s.sh.warned = false ∧ s.fld SH_WDG_TIME fSH_WDG_TIME_WARN ≤ s.nat SH_WDG_CNT)
    ∧ (∃ (s : State), ((s.wdgOn = false ∨ s.sh.warned = true ∨ s.nat SH_WDG_CNT < s.fld SH_WDG_TIME fSH_WDG_TIME_WARN)))
    ∧ (∃ (s : State), s.live = true ∧ s.wdgOn = true ∧ s.sh.bitten = false ∧ s.fld SH_WDG_TIME fSH_WDG_TIME_TIMEOUT ≤ s.nat SH_WDG_CNT)
    ∧ (∃ (s : State), ((s.wdgOn = false ∨ s.nat SH_WDG_CNT < s.fld SH_WDG_TIME fSH_WDG_TIME_TIMEOUT)))
    ∧ (∃ (p : Port) (s : State), s.takes p SH_WDG_KICK 0x6E = true ∧ s.sh.kick = none)
    ∧ (∃ (p : Port) (f : Nat) (s : State), s.takes p SH_WDG_KICK 0x91 = true ∧ s.sh.kick = some f ∧ s.fc ≤ f + 256)
    ∧ (∃ (p : Port) (key : BitVec 8) (s : State), s.takes p SH_WDG_KICK (key.setWidth 32) = true ∧ s.sh.kick = none ∧ key ≠ 0x6E)
    ∧ (∃ (p : Port) (s : State) (w : Word), w = fSH_CTRL_LBINV.put (s.reg SH_CTRL) 1 ∧ s.takes p SH_CTRL w = true ∧ bitOf w.toNat 3 = false)
    ∧ (∃ (p : Port) (s : State) (w : Word), w = fSH_CTRL_BTBINV.put (s.reg SH_CTRL) 1 ∧ s.takes p SH_CTRL w = true ∧ bitOf w.toNat 4 = false) :=
  ⟨⟨0x13, ({ (run.setMword (tcmBase + 0x130) 0x11100100).setFlag (EC_SSTAT 930) fEC_SSTAT_ACTIVE true |>.setNat (EC_TARGET 930) 20 with sh := { run.sh with imaskI := 15 } }), (by decide +kernel), (by decide +kernel), (by decide +kernel), (by decide +kernel), (by decide +kernel)⟩,
    ⟨({ run.setMword (tcmBase + 0x140) 0x11100100 with sh := { run.sh with warnPend := true } }), (by decide +kernel), (by decide +kernel), (by decide +kernel), (by decide +kernel), (by decide +kernel), (by decide +kernel), (by decide +kernel)⟩,
    ⟨(run.setFld SH_STAT fSH_STAT_BANK 1), (by decide +kernel)⟩,
    ⟨({ run with sh := { run.sh with aopen := 1 } }), (by decide +kernel), (by decide +kernel), (by decide +kernel)⟩,
    ⟨run, (by decide +kernel)⟩,
    ⟨({ addr := 0x1000, bytes := [5, 6, 7, 8], stamp := 9 }), ([]), ({ run with sh := { run.sh with stores := [{ addr := 0x1000, bytes := [5, 6, 7, 8], stamp := 9 }] } }), (by decide +kernel), (by decide +kernel)⟩,
    ⟨run, (by decide +kernel)⟩,
    ⟨(Vector.replicate 32 7), 40, ([]), ({ run with sh := { run.sh with lineReq := [40] } }), (by decide +kernel), (by decide +kernel), (by decide +kernel)⟩,
    ⟨(Vector.replicate 32 7), 40, ([]), ({ run with sh := { run.sh with lineReq := [40] } }), (by decide +kernel), (by decide +kernel), (by decide +kernel)⟩,
    ⟨(Vector.replicate 32 7), 40, ([]), ({ run with sh := { run.sh with lineReq := [40], demand := some 40 } }), (by decide +kernel), (by decide +kernel), (by decide +kernel)⟩,
    ⟨((run.setFlag SH_WDG_CTRL fSH_WDG_CTRL_EN true).setNat SH_WDG_TIME 0), (by decide +kernel), (by decide +kernel), (by decide +kernel), (by decide +kernel)⟩,
    ⟨run, (by decide +kernel)⟩,
    ⟨((run.setFlag SH_WDG_CTRL fSH_WDG_CTRL_EN true).setNat SH_WDG_TIME 0), (by decide +kernel), (by decide +kernel), (by decide +kernel), (by decide +kernel)⟩,
    ⟨run, (by decide +kernel)⟩,
    ⟨.shepherd, run, (by decide +kernel), (by decide +kernel)⟩,
    ⟨.shepherd, 2, ({ (run.setNat SH_WDG_CNT 9) with fc := 258, sh := { run.sh with kick := some 2 } }), (by decide +kernel), (by decide +kernel), (by decide +kernel)⟩,
    ⟨.shepherd, 0x91, run, (by decide +kernel), (by decide +kernel), (by decide +kernel)⟩,
    ⟨.shepherd, ({ run with sh := { run.sh with lines := [(3, [])] } }), 0x10, (by decide +kernel), (by decide +kernel), (by decide +kernel)⟩,
    ⟨.shepherd, ({ run with sh := { run.sh with btb := [(3, {})] } }), 8, (by decide +kernel), (by decide +kernel), (by decide +kernel)⟩⟩

/-- States and operands that meet the hypotheses of each clause of `MailboxesAndChecks`. -/
theorem test_premises_of_mailboxes_and_checks :
    (∃ (p : Port) (m : Fin 32) (s : State), s.takes p (MB_DOORBELL m) 1 = true ∧ s.mbState m = 1)
    ∧ (∃ (p : Port) (m : Fin 32) (s : State), s.takes p (MB_DOORBELL m) 1 = true ∧ s.pw.mode = .graze ∧ s.mbState m ≠ 1)
    ∧ (∃ (m : Fin 32) (s : State), s.mbNext = some m.val ∧ s.mbIsDup m = false ∧ assignedOps.contains (s.mbOp m) = false)
    ∧ (∃ (m : Fin 32) (s : State), s.mbNext ≠ some m.val)
    ∧ (∃ (m : Fin 32) (s : State), s.mbNext ≠ some m.val)
    ∧ (∃ (m : Fin 32) (s : State), s.mbNext = some m.val ∧ s.mbOp m = 1 ∧ s.mbIsDup m = true)
    ∧ (∃ (m : Fin 32) (s : State), s.mbNext = some m.val ∧ s.mbOp m = 1 ∧ s.mbIsDup m = false ∧ (s.mbAccept m).2.ckBadHdr m false = true)
    ∧ (∃ (m : Fin 32) (s : State), s.mbNext = some m.val ∧ s.mbOp m = 3 ∧ s.mbIsDup m = false ∧ (s.mbAccept m).2.ckBadHdr m false = false ∧ (s.mbAccept m).2.ckAuth m [.P] = false) :=
  ⟨⟨.hpp, 2, (run.setFld (MB_STAT 2) fMB_STAT_STATE 1), (by decide +kernel), (by decide +kernel)⟩,
    ⟨.hpp, 2, run, (by decide +kernel), (by decide +kernel), (by decide +kernel)⟩,
    ⟨2, (mbx 2 5 []), (by decide +kernel), (by decide +kernel), (by decide +kernel)⟩,
    ⟨2, run, (by decide +kernel)⟩,
    ⟨2, run, (by decide +kernel)⟩,
    ⟨2, ({ ((mbx 2 1 []).setFlag (MB_STAT 2) fMB_STAT_SEQV true) with mb := { ready := true, done := [(2, true)] } }), (by decide +kernel), (by decide +kernel), (by decide +kernel)⟩,
    ⟨2, ((mbx 2 1 []).setNat (MB_REQ 2 3) 1), (by decide +kernel), (by decide +kernel), (by decide +kernel), (by decide +kernel)⟩,
    ⟨7, (mbx 7 3 []), (by decide +kernel), (by decide +kernel), (by decide +kernel), (by decide +kernel), (by decide +kernel)⟩⟩

/-- States and operands that meet the hypotheses of each clause of `CrookEventsAndFlocks`. -/
theorem test_premises_of_crook_events_and_flocks :
    (∃ (m : Fin 32) (k : Ck) (s : State) (t : State), s.commanded m 0x001 [.P, .F, .L] false (masks [] 0) = some (k, t))
    ∧ (∃ (m : Fin 32) (k : Ck) (s : State) (t : State) (u : State), s.commanded m 0x002 [.P, .F] false (masks [0x801F03FF] 0) = some (k, t) ∧ k.flock = none ∧ bitsOf (k.d t 0) 16 5 < 22 ∧ t.ckWrites [EC_CFG_REFUSED] [(0, EC_TARGET (bitsOf (k.d t 0) 0 10), ckWord (withBits (withBits (t.nat (EC_TARGET (bitsOf (k.d t 0) 0 10))) 0 5 (bitsOf (k.d t 0) 16 5)) 31 1 (bitsOf (k.d t 0) 31 1)))] = (none, u))
    ∧ (∃ (m : Fin 32) (k : Ck) (s : State) (t : State) (u : State) (d : Nat), s.commanded m 0x002 [.P, .F] false (masks [0x801F03FF] 0) = some (k, t) ∧ k.flock = none ∧ bitsOf (k.d t 0) 16 5 < 22 ∧ t.ckWrites [EC_CFG_REFUSED] [(0, EC_TARGET (bitsOf (k.d t 0) 0 10), ckWord (withBits (withBits (t.nat (EC_TARGET (bitsOf (k.d t 0) 0 10))) 0 5 (bitsOf (k.d t 0) 16 5)) 31 1 (bitsOf (k.d t 0) 31 1)))] = (some d, u))
    ∧ (∃ (m : Fin 32) (k : Ck) (s : State) (t : State), s.commanded m 0x002 [.P, .F] false (masks [0x801F03FF] 0) = some (k, t) ∧ k.flock = none ∧ 22 ≤ bitsOf (k.d t 0) 16 5)
    ∧ (∃ (m : Fin 32) (k : Ck) (s : State) (t : State), s.commanded m 0x003 [.P] false (masks (words 2) 0) = some (k, t) ∧ k.d t 0 < 64 ∧ k.d t 1 < 65536)
    ∧ (∃ (m : Fin 32) (k : Ck) (s : State) (t : State), s.commanded m 0x004 [.L] false (masks [0x1F, whole] 0) = some (k, t) ∧ bitOf (t.nat (MB_CFG m)) (bitsOf (k.d t 0) 0 5) = true)
    ∧ (∃ (m : Fin 32) (k : Ck) (s : State) (t : State), s.commanded m 0x004 [.L] false (masks [0x1F, whole] 0) = some (k, t) ∧ bitOf (t.nat (MB_CFG m)) (bitsOf (k.d t 0) 0 5) = false)
    ∧ (∃ (m : Fin 32) (k : Ck) (s : State) (t : State) (u : State), s.commanded m 0x100 [.P] false (masks [0x10F] 0) = some (k, t) ∧ bitOf (k.d t 0) 8 = true ∧ t.notClean (bitsOf (k.d t 0) 0 4) = false ∧ t.ckWrites [FLK_CFG_REFUSED] [(0, FLK_CTRL (bitsOf (k.d t 0) 0 4), 1)] = (none, u))
    ∧ (∃ (m : Fin 32) (k : Ck) (s : State) (t : State), s.commanded m 0x100 [.P] false (masks [0x10F] 0) = some (k, t) ∧ bitOf (k.d t 0) 8 = true ∧ t.notClean (bitsOf (k.d t 0) 0 4) = true)
    ∧ (∃ (m : Fin 32) (k : Ck) (s : State) (t : State), s.commanded m 0x101 [.P, .F] false (masks [whole] 0) = some (k, t) ∧ k.flock.getD (k.d t 0) < 16 ∧ ((t.notClean (k.flock.getD (k.d t 0)) = false ∨ tget (fun _ => 0) t.flkReq (k.flock.getD (k.d t 0)) ≠ 0)))
    ∧ (∃ (m : Fin 32) (k : Ck) (s : State) (t : State), s.commanded m 0x101 [.P, .F] false (masks [whole] 0) = some (k, t) ∧ k.flock.getD (k.d t 0) < 16 ∧ t.notClean (k.flock.getD (k.d t 0)) = true ∧ tget (fun _ => 0) t.flkReq (k.flock.getD (k.d t 0)) = 0)
    ∧ (∃ (m : Fin 32) (k : Ck) (s : State) (t : State), s.commanded m 0x101 [.P, .F] false (masks [whole] 0) = some (k, t) ∧ 16 ≤ k.flock.getD (k.d t 0))
    ∧ (∃ (m : Fin 32) (k : Ck) (s : State) (t : State) (u : State), s.commanded m 0x102 [.P] false (masks [0xF0F, whole, whole] 0) = some (k, t) ∧ bitsOf (k.d t 0) 8 4 = 5 ∧ k.d t 1 < 4096 ∧ k.d t 2 = 1 ∧ t.ckWrites [QF_CFG_REFUSED] [(0, QF_QCFG (k.d t 1), ckWord (withBits (t.nat (QF_QCFG (k.d t 1))) 24 4 (bitsOf (k.d t 0) 0 4)))] = (none, u))
    ∧ (∃ (m : Fin 32) (k : Ck) (s : State) (t : State), s.commanded m 0x102 [.P] false (masks [0xF0F, whole, whole] 0) = some (k, t) ∧ 8 ≤ bitsOf (k.d t 0) 8 4)
    ∧ (∃ (m : Fin 32) (k : Ck) (s : State) (t : State) (f : Nat), s.commanded m 0x103 [.P, .F] false (masks [whole] 0) = some (k, t) ∧ f = k.flock.getD (k.d t 0) ∧ f < 16)
    ∧ (∃ (m : Fin 32) (k : Ck) (s : State) (t : State) (u : State), s.commanded m 0x104 [.P] false (masks [7, whole, 0x7F] 0) = some (k, t) ∧ k.d t 0 = 1 ∧ k.d t 1 < 52 ∧ bitOf (k.d t 2) 6 = true ∧ bitsOf (k.d t 2) 0 6 < 48 ∧ t.unitStopped 1 (k.d t 1) = true ∧ t.unitRetired 1 (k.d t 1) = false ∧ t.ckWrites [PW_CFG_REFUSED (k.d t 1)] [(2, PW_MAP (k.d t 1), ckWord (withBits (t.nat (PW_MAP (k.d t 1))) 0 7 (bitsOf (k.d t 2) 0 7)))] = (none, u))
    ∧ (∃ (m : Fin 32) (k : Ck) (s : State) (t : State), s.commanded m 0x104 [.P] false (masks [7, whole, 0x7F] 0) = some (k, t) ∧ k.d t 0 = 1 ∧ k.d t 1 < 52 ∧ bitOf (k.d t 2) 6 = false ∧ t.unitStopped 1 (k.d t 1) = false)
    ∧ (∃ (m : Fin 32) (k : Ck) (s : State) (t : State), s.commanded m 0x105 [.H, .I] false (masks (words 2) 0) = some (k, t) ∧ k.d t 0 < 32) :=
  ⟨⟨2, ({ m := 2, b := 0, w := { m := 2, op := 1, inc := 0 } }), (mbx 2 1 []), ((((mbx 2 1 [] : State)).mbAccept 2).2), (by decide +kernel)⟩,
    ⟨2, ({ m := 2, b := 0, w := { m := 2, op := 2, inc := 0 } }), (mbx 2 2 [2148860834]), ((((mbx 2 2 [2148860834] : State)).mbAccept 2).2), (((((((mbx 2 2 [2148860834] : State)).mbAccept 2).2 : State)).ckWrites [EC_CFG_REFUSED] [(0, EC_TARGET (bitsOf ((({ m := 2, b := 0, w := { m := 2, op := 2, inc := 0 } } : Ck)).d (((((mbx 2 2 [2148860834] : State)).mbAccept 2).2 : State)) 0) 0 10), ckWord (withBits (withBits ((((((mbx 2 2 [2148860834] : State)).mbAccept 2).2 : State)).nat (EC_TARGET (bitsOf ((({ m := 2, b := 0, w := { m := 2, op := 2, inc := 0 } } : Ck)).d (((((mbx 2 2 [2148860834] : State)).mbAccept 2).2 : State)) 0) 0 10))) 0 5 (bitsOf ((({ m := 2, b := 0, w := { m := 2, op := 2, inc := 0 } } : Ck)).d (((((mbx 2 2 [2148860834] : State)).mbAccept 2).2 : State)) 0) 16 5)) 31 1 (bitsOf ((({ m := 2, b := 0, w := { m := 2, op := 2, inc := 0 } } : Ck)).d (((((mbx 2 2 [2148860834] : State)).mbAccept 2).2 : State)) 0) 31 1)))]).2), (by decide +kernel), (by decide +kernel), (by decide +kernel), (by decide +kernel)⟩,
    ⟨2, ({ m := 2, b := 0, w := { m := 2, op := 2, inc := 0 } }), ((mbx 2 2 [0x801503A2]).setFlag (EC_SSTAT 930) fEC_SSTAT_ACTIVE true), (((((mbx 2 2 [0x801503A2]).setFlag (EC_SSTAT 930) fEC_SSTAT_ACTIVE true : State)).mbAccept 2).2), ((((((((mbx 2 2 [0x801503A2]).setFlag (EC_SSTAT 930) fEC_SSTAT_ACTIVE true : State)).mbAccept 2).2 : State)).ckWrites [EC_CFG_REFUSED] [(0, EC_TARGET (bitsOf ((({ m := 2, b := 0, w := { m := 2, op := 2, inc := 0 } } : Ck)).d ((((((mbx 2 2 [0x801503A2]).setFlag (EC_SSTAT 930) fEC_SSTAT_ACTIVE true : State)).mbAccept 2).2 : State)) 0) 0 10), ckWord (withBits (withBits (((((((mbx 2 2 [0x801503A2]).setFlag (EC_SSTAT 930) fEC_SSTAT_ACTIVE true : State)).mbAccept 2).2 : State)).nat (EC_TARGET (bitsOf ((({ m := 2, b := 0, w := { m := 2, op := 2, inc := 0 } } : Ck)).d ((((((mbx 2 2 [0x801503A2]).setFlag (EC_SSTAT 930) fEC_SSTAT_ACTIVE true : State)).mbAccept 2).2 : State)) 0) 0 10))) 0 5 (bitsOf ((({ m := 2, b := 0, w := { m := 2, op := 2, inc := 0 } } : Ck)).d ((((((mbx 2 2 [0x801503A2]).setFlag (EC_SSTAT 930) fEC_SSTAT_ACTIVE true : State)).mbAccept 2).2 : State)) 0) 16 5)) 31 1 (bitsOf ((({ m := 2, b := 0, w := { m := 2, op := 2, inc := 0 } } : Ck)).d ((((((mbx 2 2 [0x801503A2]).setFlag (EC_SSTAT 930) fEC_SSTAT_ACTIVE true : State)).mbAccept 2).2 : State)) 0) 31 1)))]).2), 0, (by decide +kernel), (by decide +kernel), (by decide +kernel), (by decide +kernel)⟩,
    ⟨2, ({ m := 2, b := 0, w := { m := 2, op := 2, inc := 0 } }), (mbx 2 2 [2148926370]), ((((mbx 2 2 [2148926370] : State)).mbAccept 2).2), (by decide +kernel), (by decide +kernel), (by decide +kernel)⟩,
    ⟨2, ({ m := 2, b := 0, w := { m := 2, op := 3, inc := 0 } }), (mbx 2 3 [63, 9]), ((((mbx 2 3 [63, 9] : State)).mbAccept 2).2), (by decide +kernel), (by decide +kernel), (by decide +kernel)⟩,
    ⟨21, ({ m := 21, b := 0, w := { m := 21, op := 4, inc := 0 } }), (mbx 21 4 [3, 9] (run.setNat (MB_CFG 21) 8)), ((((mbx 21 4 [3, 9] (run.setNat (MB_CFG 21) 8) : State)).mbAccept 21).2), (by decide +kernel), (by decide +kernel)⟩,
    ⟨21, ({ m := 21, b := 0, w := { m := 21, op := 4, inc := 0 } }), (mbx 21 4 [3, 9]), ((((mbx 21 4 [3, 9] : State)).mbAccept 21).2), (by decide +kernel), (by decide +kernel)⟩,
    ⟨2, ({ m := 2, b := 0, w := { m := 2, op := 0x100, inc := 0 } }), (mbx 2 0x100 [259] (runc)), ((((mbx 2 0x100 [259] (runc) : State)).mbAccept 2).2), (((((((mbx 2 0x100 [259] (runc) : State)).mbAccept 2).2 : State)).ckWrites [FLK_CFG_REFUSED] [(0, FLK_CTRL (bitsOf ((({ m := 2, b := 0, w := { m := 2, op := 0x100, inc := 0 } } : Ck)).d (((((mbx 2 0x100 [259] (runc) : State)).mbAccept 2).2 : State)) 0) 0 4), 1)]).2), (by decide +kernel), (by decide +kernel), (by decide +kernel), (by decide +kernel)⟩,
    ⟨2, ({ m := 2, b := 0, w := { m := 2, op := 0x100, inc := 0 } }), (mbx 2 0x100 [259] (run.setFlag (FLK_STAT 3) fFLK_STAT_CLEAN false)), ((((mbx 2 0x100 [259] (run.setFlag (FLK_STAT 3) fFLK_STAT_CLEAN false) : State)).mbAccept 2).2), (by decide +kernel), (by decide +kernel), (by decide +kernel)⟩,
    ⟨2, ({ m := 2, b := 0, w := { m := 2, op := 0x101, inc := 0 } }), (mbx 2 0x101 [5] (runc)), ((((mbx 2 0x101 [5] (runc) : State)).mbAccept 2).2), (by decide +kernel), (by decide +kernel), (by decide +kernel)⟩,
    ⟨2, ({ m := 2, b := 0, w := { m := 2, op := 0x101, inc := 0 } }), (mbx 2 0x101 [5] (run.setFlag (FLK_STAT 5) fFLK_STAT_CLEAN false)), ((((mbx 2 0x101 [5] (run.setFlag (FLK_STAT 5) fFLK_STAT_CLEAN false) : State)).mbAccept 2).2), (by decide +kernel), (by decide +kernel), (by decide +kernel), (by decide +kernel)⟩,
    ⟨2, ({ m := 2, b := 0, w := { m := 2, op := 0x101, inc := 0 } }), (mbx 2 0x101 [16]), ((((mbx 2 0x101 [16] : State)).mbAccept 2).2), (by decide +kernel), (by decide +kernel)⟩,
    ⟨2, ({ m := 2, b := 0, w := { m := 2, op := 0x102, inc := 0 } }), (mbx 2 0x102 [1283, 77, 1]), ((((mbx 2 0x102 [1283, 77, 1] : State)).mbAccept 2).2), (((((((mbx 2 0x102 [1283, 77, 1] : State)).mbAccept 2).2 : State)).ckWrites [QF_CFG_REFUSED] [(0, QF_QCFG ((({ m := 2, b := 0, w := { m := 2, op := 0x102, inc := 0 } } : Ck)).d (((((mbx 2 0x102 [1283, 77, 1] : State)).mbAccept 2).2 : State)) 1), ckWord (withBits ((((((mbx 2 0x102 [1283, 77, 1] : State)).mbAccept 2).2 : State)).nat (QF_QCFG ((({ m := 2, b := 0, w := { m := 2, op := 0x102, inc := 0 } } : Ck)).d (((((mbx 2 0x102 [1283, 77, 1] : State)).mbAccept 2).2 : State)) 1))) 24 4 (bitsOf ((({ m := 2, b := 0, w := { m := 2, op := 0x102, inc := 0 } } : Ck)).d (((((mbx 2 0x102 [1283, 77, 1] : State)).mbAccept 2).2 : State)) 0) 0 4)))]).2), (by decide +kernel), (by decide +kernel), (by decide +kernel), (by decide +kernel), (by decide +kernel)⟩,
    ⟨2, ({ m := 2, b := 0, w := { m := 2, op := 0x102, inc := 0 } }), (mbx 2 0x102 [2051, 77, 1]), ((((mbx 2 0x102 [2051, 77, 1] : State)).mbAccept 2).2), (by decide +kernel), (by decide +kernel)⟩,
    ⟨2, ({ m := 2, b := 0, w := { m := 2, op := 0x103, inc := 0 } }), (mbx 2 0x103 [5]), ((((mbx 2 0x103 [5] : State)).mbAccept 2).2), 5, (by decide +kernel), (by decide +kernel), (by decide +kernel)⟩,
    ⟨2, ({ m := 2, b := 0, w := { m := 2, op := 0x104, inc := 0 } }), (mbx 2 0x104 [1, 9, 69]), ((((mbx 2 0x104 [1, 9, 69] : State)).mbAccept 2).2), (((((((mbx 2 0x104 [1, 9, 69] : State)).mbAccept 2).2 : State)).ckWrites [PW_CFG_REFUSED ((({ m := 2, b := 0, w := { m := 2, op := 0x104, inc := 0 } } : Ck)).d (((((mbx 2 0x104 [1, 9, 69] : State)).mbAccept 2).2 : State)) 1)] [(2, PW_MAP ((({ m := 2, b := 0, w := { m := 2, op := 0x104, inc := 0 } } : Ck)).d (((((mbx 2 0x104 [1, 9, 69] : State)).mbAccept 2).2 : State)) 1), ckWord (withBits ((((((mbx 2 0x104 [1, 9, 69] : State)).mbAccept 2).2 : State)).nat (PW_MAP ((({ m := 2, b := 0, w := { m := 2, op := 0x104, inc := 0 } } : Ck)).d (((((mbx 2 0x104 [1, 9, 69] : State)).mbAccept 2).2 : State)) 1))) 0 7 (bitsOf ((({ m := 2, b := 0, w := { m := 2, op := 0x104, inc := 0 } } : Ck)).d (((((mbx 2 0x104 [1, 9, 69] : State)).mbAccept 2).2 : State)) 2) 0 7)))]).2), (by decide +kernel), (by decide +kernel), (by decide +kernel), (by decide +kernel), (by decide +kernel), (by decide +kernel), (by decide +kernel), (by decide +kernel)⟩,
    ⟨2, ({ m := 2, b := 0, w := { m := 2, op := 0x104, inc := 0 } }), (mbx 2 0x104 [1, 9, 5] (run.setFlag (PW_STAT 9) fPW_STAT_RUN true)), ((((mbx 2 0x104 [1, 9, 5] (run.setFlag (PW_STAT 9) fPW_STAT_RUN true) : State)).mbAccept 2).2), (by decide +kernel), (by decide +kernel), (by decide +kernel), (by decide +kernel), (by decide +kernel)⟩,
    ⟨28, ({ m := 28, b := 0, w := { m := 28, op := 0x105, inc := 0 } }), (mbx 28 0x105 [5, 9]), ((((mbx 28 0x105 [5, 9] : State)).mbAccept 28).2), (by decide +kernel), (by decide +kernel)⟩⟩

/-- States and operands that meet the hypotheses of each clause of `CrookEnginesAndParameters`. -/
theorem test_premises_of_crook_engines_and_parameters :
    (∃ (m : Fin 32) (k : Ck) (s : State) (t : State) (p : Nat) (bs : List Byte), s.commanded m 0x200 [.P, .F] true (masks [0x33F, whole] 0) = some (k, t) ∧ k.flock = none ∧ t.mbBuf m = true ∧ bs.length = s.mbD m 2 ∧ t.findUnit 0 (bitsOf (k.d t 0) 0 6) = some p ∧ bitsOf (k.d t 0) 8 2 = 0 ∧ k.d t 1 + t.mbD m 2 ≤ 0x10000 ∧ t.leState p = 0)
    ∧ (∃ (m : Fin 32) (k : Ck) (s : State) (t : State) (p : Nat), s.commanded m 0x200 [.P, .F] true (masks [0x33F, whole] 0) = some (k, t) ∧ k.flock = none ∧ t.mbBuf m = true ∧ t.findUnit 0 (bitsOf (k.d t 0) 0 6) = some p ∧ bitsOf (k.d t 0) 8 2 = 0 ∧ k.d t 1 + t.mbD m 2 ≤ 0x10000 ∧ t.leState p = 0)
    ∧ (∃ (m : Fin 32) (k : Ck) (s : State) (t : State), s.commanded m 0x200 [.P, .F] true (masks [0x33F, whole] 0) = some (k, t) ∧ t.mbBuf m = false)
    ∧ (∃ (m : Fin 32) (k : Ck) (s : State) (t : State) (p : Nat) (j : Nat) (u : State), s.commanded m 0x201 [.P, .F] false (masks (0x73F :: words 7) 0) = some (k, t) ∧ k.flock = none ∧ t.findUnit 0 (bitsOf (k.d t 0) 0 6) = some p ∧ j = bitsOf (k.d t 0) 8 3 ∧ t.slotState p j = 0 ∧ t.notClean (t.leFlock p) = false ∧ t.ckWrites [LE_CFG_REFUSED p] [(2, LE_TASK_ENTRY p j, ckWord (k.d t 2)), (3, LE_TASK_ARG p j, ckWord (k.d t 3)), (4, LE_TASK_DL p j, ckWord (k.d t 4)), (5, LE_TASK_PERIOD p j, ckWord (k.d t 5)), (6, LE_TASK_TIME_LO p j, ckWord (k.d t 6)), (7, LE_TASK_TIME_HI p j, ckWord (k.d t 7)), (1, LE_TASK_CFG p j, ckWord (k.d t 1))] = (none, u))
    ∧ (∃ (m : Fin 32) (k : Ck) (s : State) (t : State) (p : Nat) (j : Nat), s.commanded m 0x201 [.P, .F] false (masks (0x73F :: words 7) 0) = some (k, t) ∧ k.flock = none ∧ t.findUnit 0 (bitsOf (k.d t 0) 0 6) = some p ∧ j = bitsOf (k.d t 0) 8 3 ∧ t.slotState p j ≠ 0)
    ∧ (∃ (m : Fin 32) (k : Ck) (s : State) (t : State) (p : Nat) (u : State), s.commanded m 0x202 [.P, .F] false (masks [0x3F, whole, whole] 0) = some (k, t) ∧ k.flock = none ∧ t.findUnit 0 (bitsOf (k.d t 0) 0 6) = some p ∧ k.d t 1 = 1 ∧ k.d t 2 < 8 ∧ t.notClean (t.leFlock p) = false ∧ t.ckWrites [LE_CFG_REFUSED p] [(1, LE_CTRL p, 1)] = (none, u))
    ∧ (∃ (m : Fin 32) (k : Ck) (s : State) (t : State) (p : Nat) (u : State), s.commanded m 0x202 [.P, .F] false (masks [0x3F, whole, whole] 0) = some (k, t) ∧ k.flock = none ∧ t.findUnit 0 (bitsOf (k.d t 0) 0 6) = some p ∧ 2 < k.d t 1 ∧ k.d t 1 < 7 ∧ k.d t 2 < 8 ∧ t.ckWrites [LE_CFG_REFUSED p] [(1, LE_CMD p, ckWord ((k.d t 1 - 2) * 16 + k.d t 2))] = (none, u))
    ∧ (∃ (m : Fin 32) (k : Ck) (s : State) (t : State) (p : Nat) (bs : List Byte) (u : State), s.commanded m 0x203 [.P] true (masks [0x3F, whole] 0) = some (k, t) ∧ k.flock = none ∧ t.mbBuf m = true ∧ bs.length = s.mbD m 2 ∧ t.mbD m 2 = 24 ∧ t.findUnit 0 (bitsOf (k.d t 0) 0 6) = some p ∧ k.d t 1 < 512 ∧ t.csWritable p 0x1800 = true ∧ t.wcsWord p (k.d t 1) (bs.take 24) = (false, u))
    ∧ (∃ (m : Fin 32) (k : Ck) (s : State) (t : State), s.commanded m 0x203 [.P] true (masks [0x3F, whole] 0) = some (k, t) ∧ t.mbBuf m = true ∧ t.mbD m 2 % 24 ≠ 0)
    ∧ (∃ (m : Fin 32) (k : Ck) (s : State) (t : State) (p : Nat), s.commanded m 0x300 [.P, .F] false (masks (words 3 ++ [0, 0, 0, 0, 0]) whole) = some (k, t) ∧ k.flock = none ∧ t.findUnit 0 (k.d t 0) = some p ∧ k.d t 1 % 4 = 0 ∧ k.d t 1 + k.d t 2 ≤ 0x10000 ∧ k.d t 2 % 4 = 0 ∧ 4 ≤ k.d t 2 ∧ k.d t 2 ≤ 912)
    ∧ (∃ (m : Fin 32) (k : Ck) (s : State) (t : State) (p : Nat), s.commanded m 0x300 [.P, .F] false (masks (words 3 ++ [0, 0, 0, 0, 0]) whole) = some (k, t) ∧ k.flock = none ∧ t.findUnit 0 (k.d t 0) = some p ∧ 0x10000 < k.d t 1 + k.d t 2)
    ∧ (∃ (m : Fin 32) (k : Ck) (s : State) (t : State) (p : Nat) (ram : Nat) (cur : Nat) (a : Nat) (b : Nat), s.commanded m 0x301 [.P, .F] false (masks [0x3F3F, whole, whole, 0, whole, whole, 0, 0] whole) = some (k, t) ∧ k.flock = none ∧ t.findUnit 0 (bitsOf (k.d t 0) 0 6) = some p ∧ ram = 0x1000000 + p * 0x10000 ∧ bitsOf (k.d t 0) 12 2 = 2 ∧ k.d t 1 % 32 = 0 ∧ k.d t 1 + 32 ≤ 0x10000 ∧ k.d t 2 % 4 = 0 ∧ 4 ≤ k.d t 2 ∧ k.d t 2 ≤ 912 ∧ t.dvBusy = false ∧ cur = (t.mword (ram + k.d t 1)).toNat ∧ (t.mword (ram + k.d t 1 + 4)).toNat = cur ∧ a = (t.mword (ram + k.d t 1 + 16)).toNat ∧ b = (t.mword (ram + k.d t 1 + 20)).toNat ∧ cur = a ∧ a + k.d t 2 ≤ 0x10000 ∧ b + k.d t 2 ≤ 0x10000 ∧ ((∀ i : Fin 8, t.poisoned (ram + k.d t 1 + 4 * i) = false)))
    ∧ (∃ (m : Fin 32) (k : Ck) (s : State) (t : State), s.commanded m 0x301 [.P, .F] false (masks [0x3F3F, whole, whole, 0, whole, whole, 0, 0] whole) = some (k, t) ∧ bitsOf (k.d t 0) 12 2 = 3)
    ∧ (∃ (m : Fin 32) (k : Ck) (s : State) (t : State) (p : Nat), s.commanded m 0x302 [.P, .F] false (masks (words 3) 0) = some (k, t) ∧ k.flock = none ∧ t.findUnit 0 (k.d t 0) = some p ∧ k.d t 1 + 4 ≤ 0x10000 ∧ k.d t 2 = 4 ∧ (List.range 4).any (fun i => t.poisoned (0x1000000 + p * 0x10000 + k.d t 1 + i)) = false)
    ∧ (∃ (m : Fin 32) (k : Ck) (s : State) (t : State) (p : Nat), s.commanded m 0x302 [.P, .F] false (masks (words 3) 0) = some (k, t) ∧ k.flock = none ∧ t.findUnit 0 (k.d t 0) = some p ∧ k.d t 1 + 4 ≤ 0x10000 ∧ k.d t 2 = 4 ∧ (List.range 4).any (fun i => t.poisoned (0x1000000 + p * 0x10000 + k.d t 1 + i)) = true) :=
  ⟨⟨2, ({ m := 2, b := 4, w := { m := 2, op := 0x200, inc := 0 } }), ((mbx 2 0x10200 [0x1000, 0, 8, 0, 0, 0x40] (runc.setNat (LE_MAP 3) 0x40))), (((((mbx 2 0x10200 [0x1000, 0, 8, 0, 0, 0x40] (runc.setNat (LE_MAP 3) 0x40)) : State)).mbAccept 2).2), 3, ([1, 2, 3, 4, 5, 6, 7, 8]), (by decide +kernel), (by decide +kernel), (by decide +kernel), (by decide +kernel), (by decide +kernel), (by decide +kernel), (by decide +kernel), (by decide +kernel)⟩,
    ⟨2, ({ m := 2, b := 4, w := { m := 2, op := 0x200, inc := 0 } }), ((mbx 2 0x10200 [0x1000, 0, 8, 0, 0, 0x40] (runc.setNat (LE_MAP 3) 0x40))), (((((mbx 2 0x10200 [0x1000, 0, 8, 0, 0, 0x40] (runc.setNat (LE_MAP 3) 0x40)) : State)).mbAccept 2).2), 3, (by decide +kernel), (by decide +kernel), (by decide +kernel), (by decide +kernel), (by decide +kernel), (by decide +kernel), (by decide +kernel)⟩,
    ⟨2, ({ m := 2, b := 0, w := { m := 2, op := 0x200, inc := 0 } }), (mbx 2 0x200 []), ((((mbx 2 0x200 [] : State)).mbAccept 2).2), (by decide +kernel), (by decide +kernel)⟩,
    ⟨2, ({ m := 2, b := 0, w := { m := 2, op := 0x201, inc := 0 } }), (mbx 2 0x201 [512, 1, 1048576, 4, 5, 6, 7, 8] (runc.setNat (LE_MAP 3) 0x40)), ((((mbx 2 0x201 [512, 1, 1048576, 4, 5, 6, 7, 8] (runc.setNat (LE_MAP 3) 0x40) : State)).mbAccept 2).2), 3, 2, (((((((mbx 2 0x201 [512, 1, 1048576, 4, 5, 6, 7, 8] (runc.setNat (LE_MAP 3) 0x40) : State)).mbAccept 2).2 : State)).ckWrites [LE_CFG_REFUSED ((3 : Nat))] [(2, LE_TASK_ENTRY ((3 : Nat)) ((2 : Nat)), ckWord ((({ m := 2, b := 0, w := { m := 2, op := 0x201, inc := 0 } } : Ck)).d (((((mbx 2 0x201 [512, 1, 1048576, 4, 5, 6, 7, 8] (runc.setNat (LE_MAP 3) 0x40) : State)).mbAccept 2).2 : State)) 2)), (3, LE_TASK_ARG ((3 : Nat)) ((2 : Nat)), ckWord ((({ m := 2, b := 0, w := { m := 2, op := 0x201, inc := 0 } } : Ck)).d (((((mbx 2 0x201 [512, 1, 1048576, 4, 5, 6, 7, 8] (runc.setNat (LE_MAP 3) 0x40) : State)).mbAccept 2).2 : State)) 3)), (4, LE_TASK_DL ((3 : Nat)) ((2 : Nat)), ckWord ((({ m := 2, b := 0, w := { m := 2, op := 0x201, inc := 0 } } : Ck)).d (((((mbx 2 0x201 [512, 1, 1048576, 4, 5, 6, 7, 8] (runc.setNat (LE_MAP 3) 0x40) : State)).mbAccept 2).2 : State)) 4)),(5, LE_TASK_PERIOD ((3 : Nat)) ((2 : Nat)), ckWord ((({ m := 2, b := 0, w := { m := 2, op := 0x201, inc := 0 } } : Ck)).d (((((mbx 2 0x201 [512, 1, 1048576, 4, 5, 6, 7, 8] (runc.setNat (LE_MAP 3) 0x40) : State)).mbAccept 2).2 : State)) 5)), (6, LE_TASK_TIME_LO ((3 : Nat)) ((2 : Nat)), ckWord ((({ m := 2, b := 0, w := { m := 2, op := 0x201, inc := 0 } } : Ck)).d (((((mbx 2 0x201 [512, 1, 1048576, 4, 5, 6, 7, 8] (runc.setNat (LE_MAP 3) 0x40) : State)).mbAccept 2).2 : State)) 6)), (7, LE_TASK_TIME_HI ((3 : Nat)) ((2 : Nat)), ckWord ((({ m := 2, b := 0, w := { m := 2, op := 0x201, inc := 0 } } : Ck)).d (((((mbx 2 0x201 [512, 1, 1048576, 4, 5, 6, 7, 8] (runc.setNat (LE_MAP 3) 0x40) : State)).mbAccept 2).2 : State)) 7)),(1, LE_TASK_CFG ((3 : Nat)) ((2 : Nat)), ckWord ((({ m := 2, b := 0, w := { m := 2, op := 0x201, inc := 0 } } : Ck)).d (((((mbx 2 0x201 [512, 1, 1048576, 4, 5, 6, 7, 8] (runc.setNat (LE_MAP 3) 0x40) : State)).mbAccept 2).2 : State)) 1))]).2), (by decide +kernel), (by decide +kernel), (by decide +kernel), (by decide +kernel), (by decide +kernel), (by decide +kernel), (by decide +kernel)⟩,
    ⟨2, ({ m := 2, b := 0, w := { m := 2, op := 0x201, inc := 0 } }), (mbx 2 0x201 [512, 1, 1048576, 4, 5, 6, 7, 8] ((runc.setNat (LE_MAP 3) 0x40).setFld (LE_TASK_STAT 3 2) fLE_TASK_STAT_STATE 1)), ((((mbx 2 0x201 [512, 1, 1048576, 4, 5, 6, 7, 8] ((runc.setNat (LE_MAP 3) 0x40).setFld (LE_TASK_STAT 3 2) fLE_TASK_STAT_STATE 1) : State)).mbAccept 2).2), 3, 2, (by decide +kernel), (by decide +kernel), (by decide +kernel), (by decide +kernel), (by decide +kernel)⟩,
    ⟨2, ({ m := 2, b := 0, w := { m := 2, op := 0x202, inc := 0 } }), (mbx 2 0x202 [0, 1, 0] (runc.setNat (LE_MAP 3) 0x40)), ((((mbx 2 0x202 [0, 1, 0] (runc.setNat (LE_MAP 3) 0x40) : State)).mbAccept 2).2), 3, (((((((mbx 2 0x202 [0, 1, 0] (runc.setNat (LE_MAP 3) 0x40) : State)).mbAccept 2).2 : State)).ckWrites [LE_CFG_REFUSED ((3 : Nat))] [(1, LE_CTRL ((3 : Nat)), 1)]).2), (by decide +kernel), (by decide +kernel), (by decide +kernel), (by decide +kernel), (by decide +kernel), (by decide +kernel), (by decide +kernel)⟩,
    ⟨2, ({ m := 2, b := 0, w := { m := 2, op := 0x202, inc := 0 } }), (mbx 2 0x202 [0, 6, 1] ((runc.setNat (LE_MAP 3) 0x40).setFld (LE_TASK_STAT 3 1) fLE_TASK_STAT_STATE 1)), ((((mbx 2 0x202 [0, 6, 1] ((runc.setNat (LE_MAP 3) 0x40).setFld (LE_TASK_STAT 3 1) fLE_TASK_STAT_STATE 1) : State)).mbAccept 2).2), 3, (((((((mbx 2 0x202 [0, 6, 1] ((runc.setNat (LE_MAP 3) 0x40).setFld (LE_TASK_STAT 3 1) fLE_TASK_STAT_STATE 1) : State)).mbAccept 2).2 : State)).ckWrites [LE_CFG_REFUSED ((3 : Nat))] [(1, LE_CMD ((3 : Nat)), ckWord (((({ m := 2, b := 0, w := { m := 2, op := 0x202, inc := 0 } } : Ck)).d (((((mbx 2 0x202 [0, 6, 1] ((runc.setNat (LE_MAP 3) 0x40).setFld (LE_TASK_STAT 3 1) fLE_TASK_STAT_STATE 1) : State)).mbAccept 2).2 : State)) 1 - 2) * 16 + (({ m := 2, b := 0, w := { m := 2, op := 0x202, inc := 0 } } : Ck)).d (((((mbx 2 0x202 [0, 6, 1] ((runc.setNat (LE_MAP 3) 0x40).setFld (LE_TASK_STAT 3 1) fLE_TASK_STAT_STATE 1) : State)).mbAccept 2).2 : State)) 2))]).2), (by decide +kernel), (by decide +kernel), (by decide +kernel), (by decide +kernel), (by decide +kernel), (by decide +kernel), (by decide +kernel)⟩,
    ⟨2, ({ m := 2, b := 4, w := { m := 2, op := 0x203, inc := 0 } }), ((mbx 2 0x10203 [0x1000, 0, 24, 0, 0, 511] (runc.setNat (LE_MAP 3) 0x40))), (((((mbx 2 0x10203 [0x1000, 0, 24, 0, 0, 511] (runc.setNat (LE_MAP 3) 0x40)) : State)).mbAccept 2).2), 3, (List.replicate 24 7), ((((((((mbx 2 0x10203 [0x1000, 0, 24, 0, 0, 511] (runc.setNat (LE_MAP 3) 0x40)) : State)).mbAccept 2).2 : State)).wcsWord 3 511 (List.replicate 24 7)).2), (by decide +kernel), (by decide +kernel), (by decide +kernel), (by decide +kernel), (by decide +kernel), (by decide +kernel), (by decide +kernel), (by decide +kernel), (by decide +kernel)⟩,
    ⟨2, ({ m := 2, b := 4, w := { m := 2, op := 0x203, inc := 0 } }), ((mbx 2 0x10203 [0x1000, 0, 8, 0, 0, 511] (runc.setNat (LE_MAP 3) 0x40))), (((((mbx 2 0x10203 [0x1000, 0, 8, 0, 0, 511] (runc.setNat (LE_MAP 3) 0x40)) : State)).mbAccept 2).2), (by decide +kernel), (by decide +kernel), (by decide +kernel)⟩,
    ⟨2, ({ m := 2, b := 0, w := { m := 2, op := 0x300, inc := 0 } }), (mbx 2 0x300 [0, 65528, 8, 0, 0, 0, 0, 0, 77, 78] (runc.setNat (LE_MAP 3) 0x40)), ((((mbx 2 0x300 [0, 65528, 8, 0, 0, 0, 0, 0, 77, 78] (runc.setNat (LE_MAP 3) 0x40) : State)).mbAccept 2).2), 3, (by decide +kernel), (by decide +kernel), (by decide +kernel), (by decide +kernel), (by decide +kernel), (by decide +kernel), (by decide +kernel), (by decide +kernel)⟩,
    ⟨2, ({ m := 2, b := 0, w := { m := 2, op := 0x300, inc := 0 } }), (mbx 2 0x300 [0, 65532, 8, 0, 0, 0, 0, 0, 77, 78] (runc.setNat (LE_MAP 3) 0x40)), ((((mbx 2 0x300 [0, 65532, 8, 0, 0, 0, 0, 0, 77, 78] (runc.setNat (LE_MAP 3) 0x40) : State)).mbAccept 2).2), 3, (by decide +kernel), (by decide +kernel), (by decide +kernel), (by decide +kernel)⟩,
    ⟨2, ({ m := 2, b := 0, w := { m := 2, op := 0x301, inc := 0 } }), (mbx 2 0x301 [8192, 32, 4, 0, 0, 0, 0, 0, 77] (((((runc.setNat (LE_MAP 3) 0x40).setMword 0x1030020 0x100).setMword 0x1030024 0x100).setMword 0x1030030 0x100).setMword 0x1030034 0x200)), ((((mbx 2 0x301 [8192, 32, 4, 0, 0, 0, 0, 0, 77] (((((runc.setNat (LE_MAP 3) 0x40).setMword 0x1030020 0x100).setMword 0x1030024 0x100).setMword 0x1030030 0x100).setMword 0x1030034 0x200) : State)).mbAccept 2).2), 3, 0x1030000, 0x100, 0x100, 0x200, (by decide +kernel), (by decide +kernel), (by decide +kernel), (by decide +kernel), (by decide +kernel), (by decide +kernel), (by decide +kernel), (by decide +kernel), (by decide +kernel), (by decide +kernel), (by decide +kernel), (by decide +kernel), (by decide +kernel), (by decide +kernel), (by decide +kernel), (by decide +kernel), (by decide +kernel), (by decide +kernel), (by decide +kernel)⟩,
    ⟨2, ({ m := 2, b := 0, w := { m := 2, op := 0x301, inc := 0 } }), (mbx 2 0x301 [12288, 32, 4, 0, 0, 0, 0, 0, 77]), ((((mbx 2 0x301 [12288, 32, 4, 0, 0, 0, 0, 0, 77] : State)).mbAccept 2).2), (by decide +kernel), (by decide +kernel)⟩,
    ⟨2, ({ m := 2, b := 0, w := { m := 2, op := 0x302, inc := 0 } }), (mbx 2 0x302 [0, 65532, 4] ((runc.setNat (LE_MAP 3) 0x40).setMword 0x103FFFC 77)), ((((mbx 2 0x302 [0, 65532, 4] ((runc.setNat (LE_MAP 3) 0x40).setMword 0x103FFFC 77) : State)).mbAccept 2).2), 3, (by decide +kernel), (by decide +kernel), (by decide +kernel), (by decide +kernel), (by decide +kernel), (by decide +kernel)⟩,
    ⟨2, ({ m := 2, b := 0, w := { m := 2, op := 0x302, inc := 0 } }), (mbx 2 0x302 [0, 65532, 4] ((runc.setNat (LE_MAP 3) 0x40).setMark 0x103FFFC true)), ((((mbx 2 0x302 [0, 65532, 4] ((runc.setNat (LE_MAP 3) 0x40).setMark 0x103FFFC true) : State)).mbAccept 2).2), 3, (by decide +kernel), (by decide +kernel), (by decide +kernel), (by decide +kernel), (by decide +kernel), (by decide +kernel)⟩⟩

/-- States and operands that meet the hypotheses of each clause of `CrookGeneratorsTripsAndQueues`. -/
theorem test_premises_of_crook_generators_trips_and_queues :
    (∃ (m : Fin 32) (k : Ck) (s : State) (t : State) (g : Nat) (u : State), s.commanded m 0x400 [.P] false (masks (words 7) 0) = some (k, t) ∧ t.findUnit 1 (k.d t 0) = some g ∧ t.ckWrites [PW_CFG_REFUSED g] [(1, PW_CFG g, ckWord (k.d t 1)), (2, PW_PERIOD g, ckWord (k.d t 2)), (3, PW_ACT_A g, ckWord (k.d t 3)), (4, PW_ACT_B g, ckWord (k.d t 4)), (5, PW_DT_A g, ckWord (k.d t 5)), (6, PW_DT_B g, ckWord (k.d t 6))] = (none, u))
    ∧ (∃ (m : Fin 32) (k : Ck) (s : State) (t : State), s.commanded m 0x400 [.P] false (masks (words 7) 0) = some (k, t) ∧ t.findUnit 1 (k.d t 0) = none)
    ∧ (∃ (m : Fin 32) (k : Ck) (s : State) (t : State) (g : Nat) (u : State), s.commanded m 0x401 [.P] false (masks (words 2) 0) = some (k, t) ∧ k.d t 0 < 96 ∧ t.findUnit 1 (bitsOf (k.d t 1) 0 6) = some g ∧ t.ckWrites [TR_ARM_REFUSED] [(1, PW_XBAR (k.d t 0), ckWord (withBits (k.d t 1) 0 6 g))] = (none, u))
    ∧ (∃ (m : Fin 32) (k : Ck) (s : State) (t : State) (g : Nat) (u : State), s.commanded m 0x402 [.P, .F] false (masks (words 5) 0) = some (k, t) ∧ k.flock = none ∧ k.d t 0 < 48 ∧ t.findUnit 1 (k.d t 0) = some g ∧ k.d t 1 = 1 ∧ k.d t 2 = 1 ∧ t.notClean (t.unitFlock 1 g) = false ∧ t.ckWrites [PW_CFG_REFUSED g] [(2, PW_CTRL g, 1)] = (none, u))
    ∧ (∃ (m : Fin 32) (k : Ck) (s : State) (t : State) (g : Nat), s.commanded m 0x402 [.P, .F] false (masks (words 5) 0) = some (k, t) ∧ k.flock = none ∧ k.d t 0 < 48 ∧ t.findUnit 1 (k.d t 0) = some g ∧ k.d t 1 = 1 ∧ k.d t 2 = 1 ∧ t.notClean (t.unitFlock 1 g) = true)
    ∧ (∃ (m : Fin 32) (k : Ck) (s : State) (t : State) (g : Nat) (u : State), s.commanded m 0x403 [.P, .F] false (masks (0x1F3F :: words 3) 0) = some (k, t) ∧ k.flock = none ∧ t.findUnit 1 (bitsOf (k.d t 0) 0 6) = some g ∧ bitsOf (k.d t 0) 10 2 ≠ 3 ∧ (((t.ckPoke (PW_DW_VAL g) (ckWord (k.d t 1))).ckPoke (PW_DW_TIME_LO g) (ckWord (k.d t 2))).ckPoke (PW_DW_TIME_HI g) (ckWord (k.d t 3))).ckWrites [PW_CFG_REFUSED g] [(0, PW_DW_CTRL g, ckWord (2 ^ 31 + bitsOf (k.d t 0) 12 1 * 2 ^ 5 + bitsOf (k.d t 0) 10 2 * 2 ^ 3 + bitsOf (k.d t 0) 8 2))] = (none, u))
    ∧ (∃ (m : Fin 32) (k : Ck) (s : State) (t : State) (u : State), s.commanded m 0x500 [.H, .I] false (masks (words 2) 0) = some (k, t) ∧ k.d t 0 < 64 ∧ t.ckWrites [TR_ARM_REFUSED] [(1, TR_CFG (k.d t 0), ckWord (k.d t 1))] = (none, u))
    ∧ (∃ (m : Fin 32) (k : Ck) (s : State) (t : State) (r : Nat) (u : State), s.commanded m 0x501 [.H, .I] false (masks (words 11) 0) = some (k, t) ∧ r = k.d t 0 ∧ r < 16 ∧ t.ckWrites [TR_ARM_REFUSED] [(1, AR_OUT r 0, ckWord (k.d t 1)), (2, AR_OUT r 1, ckWord (k.d t 2)), (3, AR_OUT r 2, ckWord (k.d t 3)), (4, AR_LVL r 0, ckWord (k.d t 4)), (5, AR_LVL r 1, ckWord (k.d t 5)), (6, AR_LVL r 2, ckWord (k.d t 6)), (7, AR_CFG r, ckWord (k.d t 7)), (8, TG_MASK_LO r, ckWord (k.d t 8)), (9, TG_MASK_HI r, ckWord (k.d t 9)), (10, TG_CFG r, ckWord (k.d t 10))] = (none, u))
    ∧ (∃ (m : Fin 32) (k : Ck) (s : State) (t : State), s.commanded m 0x501 [.H, .I] false (masks (words 11) 0) = some (k, t) ∧ 17 ≤ k.d t 0)
    ∧ (∃ (m : Fin 32) (k : Ck) (s : State) (t : State) (u : State), s.commanded m 0x502 [.H, .I] false (masks [whole] 0) = some (k, t) ∧ k.d t 0 < 17 ∧ (t.ckPoke TR_ARM (ckWord (1 + k.d t 0 * 2 ^ 16 + 0x5A * 2 ^ 24))).ckWrites [TR_ARM_REFUSED] [(0, TR_ARM, ckWord (2 + k.d t 0 * 2 ^ 16 + 0xA5 * 2 ^ 24))] = (none, u))
    ∧ (∃ (m : Fin 32) (k : Ck) (s : State) (t : State) (u : State), s.commanded m 0x503 [.H, .I] false (masks [whole] 0) = some (k, t) ∧ k.d t 0 < 17 ∧ (t.ckPoke TR_ARM (ckWord (1 + k.d t 0 * 2 ^ 16 + 0x5A * 2 ^ 24))).ckWrites [TR_ARM_REFUSED] [(0, TR_ARM, ckWord (3 + k.d t 0 * 2 ^ 16 + 0xA5 * 2 ^ 24))] = (none, u))
    ∧ (∃ (m : Fin 32) (k : Ck) (s : State) (t : State) (u : State), s.commanded m 0x504 [.H, .I] false (masks [whole] 0) = some (k, t) ∧ k.d t 0 < 17 ∧ t.ckWrites [TR_ARM_REFUSED] [(0, TR_ARM, ckWord (4 + k.d t 0 * 2 ^ 16 + 0x3C * 2 ^ 24))] = (none, u))
    ∧ (∃ (m : Fin 32) (k : Ck) (s : State) (t : State) (u : State) (d : Nat), s.commanded m 0x504 [.H, .I] false (masks [whole] 0) = some (k, t) ∧ k.d t 0 < 17 ∧ t.ckWrites [TR_ARM_REFUSED] [(0, TR_ARM, ckWord (4 + k.d t 0 * 2 ^ 16 + 0x3C * 2 ^ 24))] = (some d, u))
    ∧ (∃ (m : Fin 32) (k : Ck) (s : State) (t : State) (u : State), s.commanded m 0x600 [.P] false (masks (words 4) 0) = some (k, t) ∧ k.d t 0 < 4096 ∧ t.ckWrites [QF_CFG_REFUSED] [(1, QF_QCFG (k.d t 0), ckWord (withBits (k.d t 1) 31 1 0)), (2, QF_QBASE (k.d t 0), ckWord (k.d t 2)), (3, QF_QWM (k.d t 0), ckWord (k.d t 3)), (1, QF_QCFG (k.d t 0), ckWord (k.d t 1))] = (none, u))
    ∧ (∃ (m : Fin 32) (k : Ck) (s : State) (t : State) (u : State) (q : Nat), s.commanded m 0x601 [.P] false (masks (words 3) 0) = some (k, t) ∧ k.d t 0 < 8 ∧ k.d t 1 < 64 ∧ q = t.fld (CL_QPIN (k.d t 0) (k.d t 1)) fCL_QPIN_QUEUE ∧ t.ckWrites [QF_CFG_REFUSED] [(2, CL_QPIN (k.d t 0) (k.d t 1), ckWord (k.d t 2))] = (none, u) ∧ u.pinCopies q (bitsOf (k.d t 2) 0 12) = true)
    ∧ (∃ (m : Fin 32) (k : Ck) (s : State) (t : State) (u : State) (d : Nat), s.commanded m 0x601 [.P] false (masks (words 3) 0) = some (k, t) ∧ k.d t 0 < 8 ∧ k.d t 1 < 64 ∧ t.ckWrites [QF_CFG_REFUSED] [(2, CL_QPIN (k.d t 0) (k.d t 1), ckWord (k.d t 2))] = (some d, u))
    ∧ (∃ (m : Fin 32) (k : Ck) (s : State) (t : State) (u : State), s.commanded m 0x602 [.P] false (masks (words 3) 0) = some (k, t) ∧ k.d t 0 < 4096 ∧ k.d t 1 < 16384 ∧ 0 < k.d t 2 ∧ k.d t 2 ≤ 8192 ∧ t.flag QF_SEED_STAT fQF_SEED_STAT_BUSY = false ∧ (t.ckPoke QF_SEED_Q (ckWord (k.d t 0))).ckWrites [QF_CFG_REFUSED] [(0, QF_SEED, ckWord (2 ^ 31 + (k.d t 2 - 1) * 2 ^ 16 + k.d t 1))] = (none, u))
    ∧ (∃ (m : Fin 32) (k : Ck) (s : State) (t : State), s.commanded m 0x602 [.P] false (masks (words 3) 0) = some (k, t) ∧ k.d t 0 < 4096 ∧ k.d t 1 < 16384 ∧ 0 < k.d t 2 ∧ k.d t 2 ≤ 8192 ∧ t.flag QF_SEED_STAT fQF_SEED_STAT_BUSY = true)
    ∧ (∃ (m : Fin 32) (k : Ck) (s : State) (t : State), s.commanded m 0x603 [.P, .F] false (masks (words 2) 0) = some (k, t) ∧ k.flock = none ∧ k.d t 0 < 4096)
    ∧ (∃ (m : Fin 32) (k : Ck) (s : State) (t : State) (f : Nat), s.commanded m 0x603 [.P, .F] false (masks (words 2) 0) = some (k, t) ∧ k.flock = some f ∧ k.d t 0 < 4096 ∧ t.qFlock (k.d t 0) ≠ f)
    ∧ (∃ (m : Fin 32) (k : Ck) (s : State) (t : State), s.commanded m 0x604 [.P, .F] false (masks [whole, 1] 0) = some (k, t) ∧ k.flock = none ∧ k.d t 0 < 4096) :=
  ⟨⟨2, ({ m := 2, b := 0, w := { m := 2, op := 0x400, inc := 0 } }), (mbx 2 0x400 [5, 2, 100, 6, 7, 8, 9] (runc.setNat (PW_MAP 7) 0x45)), ((((mbx 2 0x400 [5, 2, 100, 6, 7, 8, 9] (runc.setNat (PW_MAP 7) 0x45) : State)).mbAccept 2).2), 7, (((((((mbx 2 0x400 [5, 2, 100, 6, 7, 8, 9] (runc.setNat (PW_MAP 7) 0x45) : State)).mbAccept 2).2 : State)).ckWrites [PW_CFG_REFUSED ((7 : Nat))] [(1, PW_CFG ((7 : Nat)), ckWord ((({ m := 2, b := 0, w := { m := 2, op := 0x400, inc := 0 } } : Ck)).d (((((mbx 2 0x400 [5, 2, 100, 6, 7, 8, 9] (runc.setNat (PW_MAP 7) 0x45) : State)).mbAccept 2).2 : State)) 1)), (2, PW_PERIOD ((7 : Nat)), ckWord ((({ m := 2, b := 0, w := { m := 2, op := 0x400, inc := 0 } } : Ck)).d (((((mbx 2 0x400 [5, 2, 100, 6, 7, 8, 9] (runc.setNat (PW_MAP 7) 0x45) : State)).mbAccept 2).2 : State)) 2)), (3, PW_ACT_A ((7 : Nat)), ckWord ((({ m := 2, b := 0, w := { m := 2, op := 0x400, inc := 0 } } : Ck)).d (((((mbx 2 0x400 [5, 2, 100, 6, 7, 8, 9] (runc.setNat (PW_MAP 7) 0x45) : State)).mbAccept 2).2 : State)) 3)), (4, PW_ACT_B ((7 : Nat)), ckWord ((({ m := 2, b := 0, w := { m := 2, op := 0x400, inc := 0 } } : Ck)).d (((((mbx 2 0x400 [5, 2, 100, 6, 7, 8, 9] (runc.setNat (PW_MAP 7) 0x45) : State)).mbAccept 2).2 : State)) 4)), (5, PW_DT_A ((7 : Nat)), ckWord ((({ m := 2, b := 0, w := { m := 2, op := 0x400, inc := 0 } } : Ck)).d (((((mbx 2 0x400 [5, 2, 100, 6, 7, 8, 9] (runc.setNat (PW_MAP 7) 0x45) : State)).mbAccept 2).2 : State)) 5)), (6, PW_DT_B ((7 : Nat)), ckWord ((({ m := 2, b := 0, w := { m := 2, op := 0x400, inc := 0 } } : Ck)).d (((((mbx 2 0x400 [5, 2, 100, 6, 7, 8, 9] (runc.setNat (PW_MAP 7) 0x45) : State)).mbAccept 2).2 : State)) 6))]).2), (by decide +kernel), (by decide +kernel), (by decide +kernel)⟩,
    ⟨2, ({ m := 2, b := 0, w := { m := 2, op := 0x400, inc := 0 } }), (mbx 2 0x400 [6, 2, 100, 6, 7, 8, 9] (runc.setNat (PW_MAP 7) 0x45)), ((((mbx 2 0x400 [6, 2, 100, 6, 7, 8, 9] (runc.setNat (PW_MAP 7) 0x45) : State)).mbAccept 2).2), (by decide +kernel), (by decide +kernel)⟩,
    ⟨2, ({ m := 2, b := 0, w := { m := 2, op := 0x401, inc := 0 } }), (mbx 2 0x401 [95, 5] (runc.setNat (PW_MAP 7) 0x45)), ((((mbx 2 0x401 [95, 5] (runc.setNat (PW_MAP 7) 0x45) : State)).mbAccept 2).2), 7, (((((((mbx 2 0x401 [95, 5] (runc.setNat (PW_MAP 7) 0x45) : State)).mbAccept 2).2 : State)).ckWrites [TR_ARM_REFUSED] [(1, PW_XBAR ((({ m := 2, b := 0, w := { m := 2, op := 0x401, inc := 0 } } : Ck)).d (((((mbx 2 0x401 [95, 5] (runc.setNat (PW_MAP 7) 0x45) : State)).mbAccept 2).2 : State)) 0), ckWord (withBits ((({ m := 2, b := 0, w := { m := 2, op := 0x401, inc := 0 } } : Ck)).d (((((mbx 2 0x401 [95, 5] (runc.setNat (PW_MAP 7) 0x45) : State)).mbAccept 2).2 : State)) 1) 0 6 ((7 : Nat))))]).2), (by decide +kernel), (by decide +kernel), (by decide +kernel), (by decide +kernel)⟩,
    ⟨2, ({ m := 2, b := 0, w := { m := 2, op := 0x402, inc := 0 } }), (mbx 2 0x402 [5, 1, 1, 0, 0] (runc.setNat (PW_MAP 7) 0x45)), ((((mbx 2 0x402 [5, 1, 1, 0, 0] (runc.setNat (PW_MAP 7) 0x45) : State)).mbAccept 2).2), 7, (((((((mbx 2 0x402 [5, 1, 1, 0, 0] (runc.setNat (PW_MAP 7) 0x45) : State)).mbAccept 2).2 : State)).ckWrites [PW_CFG_REFUSED ((7 : Nat))] [(2, PW_CTRL ((7 : Nat)), 1)]).2), (by decide +kernel), (by decide +kernel), (by decide +kernel), (by decide +kernel), (by decide +kernel), (by decide +kernel), (by decide +kernel), (by decide +kernel)⟩,
    ⟨2, ({ m := 2, b := 0, w := { m := 2, op := 0x402, inc := 0 } }), (mbx 2 0x402 [5, 1, 1, 0, 0] ((runc.setNat (PW_MAP 7) 0x45).setFlag (FLK_STAT 0) fFLK_STAT_CLEAN false)), ((((mbx 2 0x402 [5, 1, 1, 0, 0] ((runc.setNat (PW_MAP 7) 0x45).setFlag (FLK_STAT 0) fFLK_STAT_CLEAN false) : State)).mbAccept 2).2), 7, (by decide +kernel), (by decide +kernel), (by decide +kernel), (by decide +kernel), (by decide +kernel), (by decide +kernel), (by decide +kernel)⟩,
    ⟨2, ({ m := 2, b := 0, w := { m := 2, op := 0x403, inc := 0 } }), (mbx 2 0x403 [4357, 77, 1, 2] (runc.setNat (PW_MAP 7) 0x45)), ((((mbx 2 0x403 [4357, 77, 1, 2] (runc.setNat (PW_MAP 7) 0x45) : State)).mbAccept 2).2), 7, ((((((((((mbx 2 0x403 [4357, 77, 1, 2] (runc.setNat (PW_MAP 7) 0x45) : State)).mbAccept 2).2 : State)).ckPoke (PW_DW_VAL ((7 : Nat))) (ckWord ((({ m := 2, b := 0, w := { m := 2, op := 0x403, inc := 0 } } : Ck)).d (((((mbx 2 0x403 [4357, 77, 1, 2] (runc.setNat (PW_MAP 7) 0x45) : State)).mbAccept 2).2 : State)) 1))).ckPoke (PW_DW_TIME_LO ((7 : Nat))) (ckWord ((({ m := 2, b := 0, w := { m := 2, op := 0x403, inc := 0 } } : Ck)).d (((((mbx 2 0x403 [4357, 77, 1, 2] (runc.setNat (PW_MAP 7) 0x45) : State)).mbAccept 2).2 : State)) 2))).ckPoke (PW_DW_TIME_HI ((7 : Nat))) (ckWord ((({ m := 2, b := 0, w := { m := 2, op := 0x403, inc := 0 } } : Ck)).d (((((mbx 2 0x403 [4357, 77, 1, 2] (runc.setNat (PW_MAP 7) 0x45) : State)).mbAccept 2).2 : State)) 3))).ckWrites [PW_CFG_REFUSED ((7 : Nat))] [(0, PW_DW_CTRL ((7 : Nat)), ckWord (2 ^ 31 + bitsOf ((({ m := 2, b := 0, w := { m := 2, op := 0x403, inc := 0 } } : Ck)).d (((((mbx 2 0x403 [4357, 77, 1, 2] (runc.setNat (PW_MAP 7) 0x45) : State)).mbAccept 2).2 : State)) 0) 12 1 * 2 ^ 5 + bitsOf ((({ m := 2, b := 0, w := { m := 2, op := 0x403, inc := 0 } } : Ck)).d (((((mbx 2 0x403 [4357, 77, 1, 2] (runc.setNat (PW_MAP 7) 0x45) : State)).mbAccept 2).2 : State)) 0) 10 2 * 2 ^ 3 + bitsOf ((({ m := 2, b := 0, w := { m := 2, op := 0x403, inc := 0 } } : Ck)).d (((((mbx 2 0x403 [4357, 77, 1, 2] (runc.setNat (PW_MAP 7) 0x45) : State)).mbAccept 2).2 : State)) 0) 8 2))]).2), (by decide +kernel), (by decide +kernel), (by decide +kernel), (by decide +kernel), (by decide +kernel)⟩,
    ⟨28, ({ m := 28, b := 0, w := { m := 28, op := 0x500, inc := 0 } }), (mbx 28 0x500 [63, 1]), ((((mbx 28 0x500 [63, 1] : State)).mbAccept 28).2), (((((((mbx 28 0x500 [63, 1] : State)).mbAccept 28).2 : State)).ckWrites [TR_ARM_REFUSED] [(1, TR_CFG ((({ m := 28, b := 0, w := { m := 28, op := 0x500, inc := 0 } } : Ck)).d (((((mbx 28 0x500 [63, 1] : State)).mbAccept 28).2 : State)) 0), ckWord ((({ m := 28, b := 0, w := { m := 28, op := 0x500, inc := 0 } } : Ck)).d (((((mbx 28 0x500 [63, 1] : State)).mbAccept 28).2 : State)) 1))]).2), (by decide +kernel), (by decide +kernel), (by decide +kernel)⟩,
    ⟨28, ({ m := 28, b := 0, w := { m := 28, op := 0x501, inc := 0 } }), (mbx 28 0x501 [15, 1, 2, 3, 4, 5, 6, 0, 8, 9, 0]), ((((mbx 28 0x501 [15, 1, 2, 3, 4, 5, 6, 0, 8, 9, 0] : State)).mbAccept 28).2), 15, (((((((mbx 28 0x501 [15, 1, 2, 3, 4, 5, 6, 0, 8, 9, 0] : State)).mbAccept 28).2 : State)).ckWrites [TR_ARM_REFUSED] [(1, AR_OUT ((15 : Nat)) 0, ckWord ((({ m := 28, b := 0, w := { m := 28, op := 0x501, inc := 0 } } : Ck)).d (((((mbx 28 0x501 [15, 1, 2, 3, 4, 5, 6, 0, 8, 9, 0] : State)).mbAccept 28).2 : State)) 1)), (2, AR_OUT ((15 : Nat)) 1, ckWord ((({ m := 28, b := 0, w := { m := 28, op := 0x501, inc := 0 } } : Ck)).d (((((mbx 28 0x501 [15, 1, 2, 3, 4, 5, 6, 0, 8, 9, 0] : State)).mbAccept 28).2 : State)) 2)), (3, AR_OUT ((15 : Nat)) 2, ckWord ((({ m := 28, b := 0, w := { m := 28, op := 0x501, inc := 0 } } : Ck)).d (((((mbx 28 0x501 [15, 1, 2, 3, 4, 5, 6, 0, 8, 9, 0] : State)).mbAccept 28).2 : State)) 3)), (4, AR_LVL ((15 : Nat)) 0, ckWord ((({ m := 28, b := 0, w := { m := 28, op := 0x501, inc := 0 } } : Ck)).d (((((mbx 28 0x501 [15, 1, 2, 3, 4, 5, 6, 0, 8, 9, 0] : State)).mbAccept 28).2 : State)) 4)), (5, AR_LVL ((15 : Nat)) 1, ckWord ((({ m := 28, b := 0, w := { m := 28, op := 0x501, inc := 0 } } : Ck)).d (((((mbx 28 0x501 [15, 1, 2, 3, 4, 5, 6, 0, 8, 9, 0] : State)).mbAccept 28).2 : State)) 5)), (6, AR_LVL ((15 : Nat)) 2, ckWord ((({ m := 28, b := 0, w := { m := 28, op := 0x501, inc := 0 } } : Ck)).d (((((mbx 28 0x501 [15, 1, 2, 3, 4, 5, 6, 0, 8, 9, 0] : State)).mbAccept 28).2 : State)) 6)), (7, AR_CFG ((15 : Nat)), ckWord ((({ m := 28, b := 0, w := { m := 28, op := 0x501, inc := 0 } } : Ck)).d (((((mbx 28 0x501 [15, 1, 2, 3, 4, 5, 6, 0, 8, 9, 0] : State)).mbAccept 28).2 : State)) 7)), (8, TG_MASK_LO ((15 : Nat)), ckWord ((({ m := 28, b := 0, w := { m := 28, op := 0x501, inc := 0 } } : Ck)).d (((((mbx 28 0x501 [15, 1, 2, 3, 4, 5, 6, 0, 8, 9, 0] : State)).mbAccept 28).2 : State)) 8)), (9, TG_MASK_HI ((15 : Nat)), ckWord ((({ m := 28, b := 0, w := { m := 28, op := 0x501, inc := 0 } } : Ck)).d (((((mbx 28 0x501 [15, 1, 2, 3, 4, 5, 6, 0, 8, 9, 0] : State)).mbAccept 28).2 : State)) 9)), (10, TG_CFG ((15 : Nat)), ckWord ((({ m := 28, b := 0, w := { m := 28, op := 0x501, inc := 0 } } : Ck)).d (((((mbx 28 0x501 [15, 1, 2, 3, 4, 5, 6, 0, 8, 9, 0] : State)).mbAccept 28).2 : State)) 10))]).2), (by decide +kernel), (by decide +kernel), (by decide +kernel), (by decide +kernel)⟩,
    ⟨28, ({ m := 28, b := 0, w := { m := 28, op := 0x501, inc := 0 } }), (mbx 28 0x501 [17, 1, 2, 3, 4, 5, 6, 0, 8, 9, 0]), ((((mbx 28 0x501 [17, 1, 2, 3, 4, 5, 6, 0, 8, 9, 0] : State)).mbAccept 28).2), (by decide +kernel), (by decide +kernel)⟩,
    ⟨28, ({ m := 28, b := 0, w := { m := 28, op := 0x502, inc := 0 } }), (mbx 28 0x502 [16]), ((((mbx 28 0x502 [16] : State)).mbAccept 28).2), ((((((((mbx 28 0x502 [16] : State)).mbAccept 28).2 : State)).ckPoke TR_ARM (ckWord (1 + (({ m := 28, b := 0, w := { m := 28, op := 0x502, inc := 0 } } : Ck)).d (((((mbx 28 0x502 [16] : State)).mbAccept 28).2 : State)) 0 * 2 ^ 16 + 0x5A * 2 ^ 24))).ckWrites [TR_ARM_REFUSED] [(0, TR_ARM, ckWord (2 + (({ m := 28, b := 0, w := { m := 28, op := 0x502, inc := 0 } } : Ck)).d (((((mbx 28 0x502 [16] : State)).mbAccept 28).2 : State)) 0 * 2 ^ 16 + 0xA5 * 2 ^ 24))]).2), (by decide +kernel), (by decide +kernel), (by decide +kernel)⟩,
    ⟨28, ({ m := 28, b := 0, w := { m := 28, op := 0x503, inc := 0 } }), (mbx 28 0x503 [16]), ((((mbx 28 0x503 [16] : State)).mbAccept 28).2), ((((((((mbx 28 0x503 [16] : State)).mbAccept 28).2 : State)).ckPoke TR_ARM (ckWord (1 + (({ m := 28, b := 0, w := { m := 28, op := 0x503, inc := 0 } } : Ck)).d (((((mbx 28 0x503 [16] : State)).mbAccept 28).2 : State)) 0 * 2 ^ 16 + 0x5A * 2 ^ 24))).ckWrites [TR_ARM_REFUSED] [(0, TR_ARM, ckWord (3 + (({ m := 28, b := 0, w := { m := 28, op := 0x503, inc := 0 } } : Ck)).d (((((mbx 28 0x503 [16] : State)).mbAccept 28).2 : State)) 0 * 2 ^ 16 + 0xA5 * 2 ^ 24))]).2), (by decide +kernel), (by decide +kernel), (by decide +kernel)⟩,
    ⟨28, ({ m := 28, b := 0, w := { m := 28, op := 0x504, inc := 0 } }), (mbx 28 0x504 [16] ((run.setFlag (AR_STAT 16) fAR_STAT_ARMED true).setFlag (AR_STAT 16) fAR_STAT_ENGAGED true)), ((((mbx 28 0x504 [16] ((run.setFlag (AR_STAT 16) fAR_STAT_ARMED true).setFlag (AR_STAT 16) fAR_STAT_ENGAGED true) : State)).mbAccept 28).2), (((((((mbx 28 0x504 [16] ((run.setFlag (AR_STAT 16) fAR_STAT_ARMED true).setFlag (AR_STAT 16) fAR_STAT_ENGAGED true) : State)).mbAccept 28).2 : State)).ckWrites [TR_ARM_REFUSED] [(0, TR_ARM, ckWord (4 + (({ m := 28, b := 0, w := { m := 28, op := 0x504, inc := 0 } } : Ck)).d (((((mbx 28 0x504 [16] ((run.setFlag (AR_STAT 16) fAR_STAT_ARMED true).setFlag (AR_STAT 16) fAR_STAT_ENGAGED true) : State)).mbAccept 28).2 : State)) 0 * 2 ^ 16 + 0x3C * 2 ^ 24))]).2), (by decide +kernel), (by decide +kernel), (by decide +kernel)⟩,
    ⟨28, ({ m := 28, b := 0, w := { m := 28, op := 0x504, inc := 0 } }), (mbx 28 0x504 [16]), ((((mbx 28 0x504 [16] : State)).mbAccept 28).2), (((((((mbx 28 0x504 [16] : State)).mbAccept 28).2 : State)).ckWrites [TR_ARM_REFUSED] [(0, TR_ARM, ckWord (4 + (({ m := 28, b := 0, w := { m := 28, op := 0x504, inc := 0 } } : Ck)).d (((((mbx 28 0x504 [16] : State)).mbAccept 28).2 : State)) 0 * 2 ^ 16 + 0x3C * 2 ^ 24))]).2), 0, (by decide +kernel), (by decide +kernel), (by decide +kernel)⟩,
    ⟨2, ({ m := 2, b := 0, w := { m := 2, op := 0x600, inc := 0 } }), (mbx 2 0x600 [13, 2147483652, 3, 0]), ((((mbx 2 0x600 [13, 2147483652, 3, 0] : State)).mbAccept 2).2), (((((((mbx 2 0x600 [13, 2147483652, 3, 0] : State)).mbAccept 2).2 : State)).ckWrites [QF_CFG_REFUSED] [(1, QF_QCFG ((({ m := 2, b := 0, w := { m := 2, op := 0x600, inc := 0 } } : Ck)).d (((((mbx 2 0x600 [13, 2147483652, 3, 0] : State)).mbAccept 2).2 : State)) 0), ckWord (withBits ((({ m := 2, b := 0, w := { m := 2, op := 0x600, inc := 0 } } : Ck)).d (((((mbx 2 0x600 [13, 2147483652, 3, 0] : State)).mbAccept 2).2 : State)) 1) 31 1 0)), (2, QF_QBASE ((({ m := 2, b := 0, w := { m := 2, op := 0x600, inc := 0 } } : Ck)).d (((((mbx 2 0x600 [13, 2147483652, 3, 0] : State)).mbAccept 2).2 : State)) 0), ckWord ((({ m := 2, b := 0, w := { m := 2, op := 0x600, inc := 0 } } : Ck)).d (((((mbx 2 0x600 [13, 2147483652, 3, 0] : State)).mbAccept 2).2 : State)) 2)), (3, QF_QWM ((({ m := 2, b := 0, w := { m := 2, op := 0x600, inc := 0 } } : Ck)).d (((((mbx 2 0x600 [13, 2147483652, 3, 0] : State)).mbAccept 2).2 : State)) 0), ckWord ((({ m := 2, b := 0, w := { m := 2, op := 0x600, inc := 0 } } : Ck)).d (((((mbx 2 0x600 [13, 2147483652, 3, 0] : State)).mbAccept 2).2 : State)) 3)), (1, QF_QCFG ((({ m := 2, b := 0, w := { m := 2, op := 0x600, inc := 0 } } : Ck)).d (((((mbx 2 0x600 [13, 2147483652, 3, 0] : State)).mbAccept 2).2 : State)) 0), ckWord ((({ m := 2, b := 0, w := { m := 2, op := 0x600, inc := 0 } } : Ck)).d (((((mbx 2 0x600 [13, 2147483652, 3, 0] : State)).mbAccept 2).2 : State)) 1))]).2), (by decide +kernel), (by decide +kernel), (by decide +kernel)⟩,
    ⟨2, ({ m := 2, b := 0, w := { m := 2, op := 0x601, inc := 0 } }), (mbx 2 0x601 [3, 5, 2147483661] (krunq)), ((((mbx 2 0x601 [3, 5, 2147483661] (krunq) : State)).mbAccept 2).2), (((((((mbx 2 0x601 [3, 5, 2147483661] (krunq) : State)).mbAccept 2).2 : State)).ckWrites [QF_CFG_REFUSED] [(2, CL_QPIN ((({ m := 2, b := 0, w := { m := 2, op := 0x601, inc := 0 } } : Ck)).d (((((mbx 2 0x601 [3, 5, 2147483661] (krunq) : State)).mbAccept 2).2 : State)) 0) ((({ m := 2, b := 0, w := { m := 2, op := 0x601, inc := 0 } } : Ck)).d (((((mbx 2 0x601 [3, 5, 2147483661] (krunq) : State)).mbAccept 2).2 : State)) 1), ckWord ((({ m := 2, b := 0, w := { m := 2, op := 0x601, inc := 0 } } : Ck)).d (((((mbx 2 0x601 [3, 5, 2147483661] (krunq) : State)).mbAccept 2).2 : State)) 2))]).2), 0, (by decide +kernel), (by decide +kernel), (by decide +kernel), (by decide +kernel), (by decide +kernel), (by decide +kernel)⟩,
    ⟨2, ({ m := 2, b := 0, w := { m := 2, op := 0x601, inc := 0 } }), (mbx 2 0x601 [3, 5, 2147483662] (krunq)), ((((mbx 2 0x601 [3, 5, 2147483662] (krunq) : State)).mbAccept 2).2), (((((((mbx 2 0x601 [3, 5, 2147483662] (krunq) : State)).mbAccept 2).2 : State)).ckWrites [QF_CFG_REFUSED] [(2, CL_QPIN ((({ m := 2, b := 0, w := { m := 2, op := 0x601, inc := 0 } } : Ck)).d (((((mbx 2 0x601 [3, 5, 2147483662] (krunq) : State)).mbAccept 2).2 : State)) 0) ((({ m := 2, b := 0, w := { m := 2, op := 0x601, inc := 0 } } : Ck)).d (((((mbx 2 0x601 [3, 5, 2147483662] (krunq) : State)).mbAccept 2).2 : State)) 1), ckWord ((({ m := 2, b := 0, w := { m := 2, op := 0x601, inc := 0 } } : Ck)).d (((((mbx 2 0x601 [3, 5, 2147483662] (krunq) : State)).mbAccept 2).2 : State)) 2))]).2), 2, (by decide +kernel), (by decide +kernel), (by decide +kernel), (by decide +kernel)⟩,
    ⟨2, ({ m := 2, b := 0, w := { m := 2, op := 0x602, inc := 0 } }), (mbx 2 0x602 [0, 60, 3] (run.setNat (QF_QCFG 0) 0xC0000008)), ((((mbx 2 0x602 [0, 60, 3] (run.setNat (QF_QCFG 0) 0xC0000008) : State)).mbAccept 2).2), ((((((((mbx 2 0x602 [0, 60, 3] (run.setNat (QF_QCFG 0) 0xC0000008) : State)).mbAccept 2).2 : State)).ckPoke QF_SEED_Q (ckWord ((({ m := 2, b := 0, w := { m := 2, op := 0x602, inc := 0 } } : Ck)).d (((((mbx 2 0x602 [0, 60, 3] (run.setNat (QF_QCFG 0) 0xC0000008) : State)).mbAccept 2).2 : State)) 0))).ckWrites [QF_CFG_REFUSED] [(0, QF_SEED, ckWord (2 ^ 31 + ((({ m := 2, b := 0, w := { m := 2, op := 0x602, inc := 0 } } : Ck)).d (((((mbx 2 0x602 [0, 60, 3] (run.setNat (QF_QCFG 0) 0xC0000008) : State)).mbAccept 2).2 : State)) 2 - 1) * 2 ^ 16 + (({ m := 2, b := 0, w := { m := 2, op := 0x602, inc := 0 } } : Ck)).d (((((mbx 2 0x602 [0, 60, 3] (run.setNat (QF_QCFG 0) 0xC0000008) : State)).mbAccept 2).2 : State)) 1))]).2), (by decide +kernel), (by decide +kernel), (by decide +kernel), (by decide +kernel), (by decide +kernel), (by decide +kernel), (by decide +kernel)⟩,
    ⟨2, ({ m := 2, b := 0, w := { m := 2, op := 0x602, inc := 0 } }), (mbx 2 0x602 [0, 60, 3] (run.setFlag QF_SEED_STAT fQF_SEED_STAT_BUSY true)), ((((mbx 2 0x602 [0, 60, 3] (run.setFlag QF_SEED_STAT fQF_SEED_STAT_BUSY true) : State)).mbAccept 2).2), (by decide +kernel), (by decide +kernel), (by decide +kernel), (by decide +kernel), (by decide +kernel), (by decide +kernel)⟩,
    ⟨2, ({ m := 2, b := 0, w := { m := 2, op := 0x603, inc := 0 } }), (mbx 2 0x603 [4095, 1048581]), ((((mbx 2 0x603 [4095, 1048581] : State)).mbAccept 2).2), (by decide +kernel), (by decide +kernel), (by decide +kernel)⟩,
    ⟨7, ({ m := 7, b := 0, w := { m := 7, op := 0x603, inc := 0 } }), (mbx 7 0x603 [4095, 1048581]), ((((mbx 7 0x603 [4095, 1048581] : State)).mbAccept 7).2), 3, (by decide +kernel), (by decide +kernel), (by decide +kernel), (by decide +kernel)⟩,
    ⟨2, ({ m := 2, b := 0, w := { m := 2, op := 0x604, inc := 0 } }), (mbx 2 0x604 [13, 1] (krunq.setNat (QF_WMN_CNT 13) 5)), ((((mbx 2 0x604 [13, 1] (krunq.setNat (QF_WMN_CNT 13) 5) : State)).mbAccept 2).2), (by decide +kernel), (by decide +kernel), (by decide +kernel)⟩⟩

/-- States and operands that meet the hypotheses of each clause of `CrookJournalTimeAndPatches`. -/
theorem test_premises_of_crook_journal_time_and_patches :
    (∃ (m : Fin 32) (k : Ck) (s : State) (t : State), s.commanded m 0x700 [.P] false (masks (words 8) 0) = some (k, t) ∧ k.d t 7 < 2)
    ∧ (∃ (m : Fin 32) (k : Ck) (s : State) (t : State), s.commanded m 0x700 [.P] false (masks (words 8) 0) = some (k, t) ∧ 2 ≤ k.d t 7)
    ∧ (∃ (m : Fin 32) (k : Ck) (s : State) (t : State) (es : List (List Byte)), s.commanded m 0x701 [.P, .F] false (masks (words 2) 0) = some (k, t) ∧ 0 < k.d t 0 ∧ k.d t 0 < 32 ∧ k.d t 1 < 262144 ∧ t.jnWalk k 262144 (t.nat JN_WIDX) (k.d t 1) (k.d t 0) [] = (true, es))
    ∧ (∃ (m : Fin 32) (k : Ck) (s : State) (t : State), s.commanded m 0x701 [.P, .F] false (masks (words 2) 0) = some (k, t) ∧ 32 ≤ k.d t 0)
    ∧ (∃ (m : Fin 32) (k : Ck) (s : State) (t : State) (u : State), s.commanded m 0xB00 [.H, .I] false (masks (words 2) 0) = some (k, t) ∧ t.ckWrites [TB_SET_REFUSED] [(0, TB_SET_LO, ckWord (k.d t 0)), (1, TB_SET_HI, ckWord (k.d t 1)), (0, TB_CTRL, ckWord (withBits (t.nat TB_CTRL) fTB_CTRL_SET.lo 1 1))] = (none, u))
    ∧ (∃ (m : Fin 32) (k : Ck) (s : State) (t : State) (u : State) (d : Nat), s.commanded m 0xB00 [.H, .I] false (masks (words 2) 0) = some (k, t) ∧ t.ckWrites [TB_SET_REFUSED] [(0, TB_SET_LO, ckWord (k.d t 0)), (1, TB_SET_HI, ckWord (k.d t 1)), (0, TB_CTRL, ckWord (withBits (t.nat TB_CTRL) fTB_CTRL_SET.lo 1 1))] = (some d, u))
    ∧ (∃ (m : Fin 32) (k : Ck) (s : State) (t : State), s.commanded m 0xB01 [.H, .I] false (masks (words 5) 0) = some (k, t))
    ∧ (∃ (m : Fin 32) (k : Ck) (s : State) (t : State), s.commanded m 0xB02 [.P] false (masks (words 3) 0) = some (k, t) ∧ k.d t 0 < 16)
    ∧ (∃ (m : Fin 32) (k : Ck) (s : State) (t : State), s.commanded m 0xB02 [.P] false (masks (words 3) 0) = some (k, t) ∧ 16 ≤ k.d t 0)
    ∧ (∃ (m : Fin 32) (k : Ck) (s : State) (t : State), s.commanded m 0xB03 [.P, .F, .L] false (masks [] 0) = some (k, t))
    ∧ (∃ (m : Fin 32) (k : Ck) (s : State) (t : State), s.commanded m 0xC00 [.P, .F] false (masks [] 0) = some (k, t))
    ∧ (∃ (m : Fin 32) (k : Ck) (s : State) (t : State), s.commanded m 0xC01 [.H] false (masks [] 0) = some (k, t) ∧ t.pw.patch = 0 ∧ t.mbWaiting 0xC01 = none ∧ t.pw.svn ≤ t.rollback)
    ∧ (∃ (m : Fin 32) (k : Ck) (s : State) (t : State), s.commanded m 0xC01 [.H] false (masks [] 0) = some (k, t) ∧ t.pw.patch = 0 ∧ t.mbWaiting 0xC01 = none ∧ t.rollback < t.pw.svn)
    ∧ (∃ (w : MbWait) (i : Nat) (s : State), s.live = true ∧ s.mbWaiting 0xC01 = some w ∧ firstIdx (fun n => !tget (fun _ => false) s.fuses (64 + n)) 64 = some i)
    ∧ (∃ (w : MbWait) (s : State), s.live = true ∧ s.mbWaiting 0xC01 = some w)
    ∧ (∃ (m : Fin 32) (k : Ck) (s : State) (t : State), s.commanded m 0xD00 [.H, .I] false (masks [whole] 0) = some (k, t)) :=
  ⟨⟨2, ({ m := 2, b := 0, w := { m := 2, op := 0x700, inc := 0 } }), (mbx 2 0x700 [4096, 0, 10, 0, 0, 9, 8, 1]), ((((mbx 2 0x700 [4096, 0, 10, 0, 0, 9, 8, 1] : State)).mbAccept 2).2), (by decide +kernel), (by decide +kernel)⟩,
    ⟨2, ({ m := 2, b := 0, w := { m := 2, op := 0x700, inc := 0 } }), (mbx 2 0x700 [4096, 0, 10, 0, 0, 9, 8, 2]), ((((mbx 2 0x700 [4096, 0, 10, 0, 0, 9, 8, 2] : State)).mbAccept 2).2), (by decide +kernel), (by decide +kernel)⟩,
    ⟨2, ({ m := 2, b := 0, w := { m := 2, op := 0x701, inc := 0 } }), (mbx 2 0x701 [1, 0] (((run.setMword 0x2000000 5).setMword 0x2000008 930).setNat JN_WIDX 1)), ((((mbx 2 0x701 [1, 0] (((run.setMword 0x2000000 5).setMword 0x2000008 930).setNat JN_WIDX 1) : State)).mbAccept 2).2), ([[5, 0, 0, 0, 0, 0, 0, 0, 0xA2, 3, 0, 0, 0, 0, 0, 0, 0, 0, 0, 0, 0, 0, 0, 0, 0, 0, 0, 0, 0, 0, 0, 0]]), (by decide +kernel), (by decide +kernel), (by decide +kernel), (by decide +kernel), (by decide +kernel)⟩,
    ⟨2, ({ m := 2, b := 0, w := { m := 2, op := 0x701, inc := 0 } }), (mbx 2 0x701 [32, 0]), ((((mbx 2 0x701 [32, 0] : State)).mbAccept 2).2), (by decide +kernel), (by decide +kernel)⟩,
    ⟨28, ({ m := 28, b := 0, w := { m := 28, op := 0xB00, inc := 0 } }), (mbx 28 0xB00 [5, 6] (run.setFld TL_CTRL fTL_CTRL_ROLE 1)), ((((mbx 28 0xB00 [5, 6] (run.setFld TL_CTRL fTL_CTRL_ROLE 1) : State)).mbAccept 28).2), (((((((mbx 28 0xB00 [5, 6] (run.setFld TL_CTRL fTL_CTRL_ROLE 1) : State)).mbAccept 28).2 : State)).ckWrites [TB_SET_REFUSED] [(0, TB_SET_LO, ckWord ((({ m := 28, b := 0, w := { m := 28, op := 0xB00, inc := 0 } } : Ck)).d (((((mbx 28 0xB00 [5, 6] (run.setFld TL_CTRL fTL_CTRL_ROLE 1) : State)).mbAccept 28).2 : State)) 0)), (1, TB_SET_HI, ckWord ((({ m := 28, b := 0, w := { m := 28, op := 0xB00, inc := 0 } } : Ck)).d (((((mbx 28 0xB00 [5, 6] (run.setFld TL_CTRL fTL_CTRL_ROLE 1) : State)).mbAccept 28).2 : State)) 1)), (0, TB_CTRL, ckWord (withBits ((((((mbx 28 0xB00 [5, 6] (run.setFld TL_CTRL fTL_CTRL_ROLE 1) : State)).mbAccept 28).2 : State)).nat TB_CTRL) fTB_CTRL_SET.lo 1 1))]).2), (by decide +kernel), (by decide +kernel)⟩,
    ⟨28, ({ m := 28, b := 0, w := { m := 28, op := 0xB00, inc := 0 } }), (mbx 28 0xB00 [5, 6] (run)), ((((mbx 28 0xB00 [5, 6] (run) : State)).mbAccept 28).2), (((((((mbx 28 0xB00 [5, 6] (run) : State)).mbAccept 28).2 : State)).ckWrites [TB_SET_REFUSED] [(0, TB_SET_LO, ckWord ((({ m := 28, b := 0, w := { m := 28, op := 0xB00, inc := 0 } } : Ck)).d (((((mbx 28 0xB00 [5, 6] (run) : State)).mbAccept 28).2 : State)) 0)), (1, TB_SET_HI, ckWord ((({ m := 28, b := 0, w := { m := 28, op := 0xB00, inc := 0 } } : Ck)).d (((((mbx 28 0xB00 [5, 6] (run) : State)).mbAccept 28).2 : State)) 1)), (0, TB_CTRL, ckWord (withBits ((((((mbx 28 0xB00 [5, 6] (run) : State)).mbAccept 28).2 : State)).nat TB_CTRL) fTB_CTRL_SET.lo 1 1))]).2), 0, (by decide +kernel), (by decide +kernel)⟩,
    ⟨28, ({ m := 28, b := 0, w := { m := 28, op := 0xB01, inc := 0 } }), (mbx 28 0xB01 [1, 2, 3, 4, 5]), ((((mbx 28 0xB01 [1, 2, 3, 4, 5] : State)).mbAccept 28).2), (by decide +kernel)⟩,
    ⟨2, ({ m := 2, b := 0, w := { m := 2, op := 0xB02, inc := 0 } }), (mbx 2 0xB02 [3, 1000, 0]), ((((mbx 2 0xB02 [3, 1000, 0] : State)).mbAccept 2).2), (by decide +kernel), (by decide +kernel)⟩,
    ⟨2, ({ m := 2, b := 0, w := { m := 2, op := 0xB02, inc := 0 } }), (mbx 2 0xB02 [16, 1000, 0]), ((((mbx 2 0xB02 [16, 1000, 0] : State)).mbAccept 2).2), (by decide +kernel), (by decide +kernel)⟩,
    ⟨2, ({ m := 2, b := 0, w := { m := 2, op := 0xB03, inc := 0 } }), (mbx 2 0xB03 []), ((((mbx 2 0xB03 [] : State)).mbAccept 2).2), (by decide +kernel)⟩,
    ⟨2, ({ m := 2, b := 0, w := { m := 2, op := 0xC00, inc := 0 } }), (mbx 2 0xC00 []), ((((mbx 2 0xC00 [] : State)).mbAccept 2).2), (by decide +kernel)⟩,
    ⟨2, ({ m := 2, b := 0, w := { m := 2, op := 0xC01, inc := 0 } }), (mbx 2 0xC01 []), ((((mbx 2 0xC01 [] : State)).mbAccept 2).2), (by decide +kernel), (by decide +kernel), (by decide +kernel), (by decide +kernel)⟩,
    ⟨2, ({ m := 2, b := 0, w := { m := 2, op := 0xC01, inc := 0 } }), (mbx 2 0xC01 [] ({ run with pw := { run.pw with svn := 2 } })), ((((mbx 2 0xC01 [] ({ run with pw := { run.pw with svn := 2 } }) : State)).mbAccept 2).2), (by decide +kernel), (by decide +kernel), (by decide +kernel), (by decide +kernel)⟩,
    ⟨({ m := 2, op := 0xC01, a := 0, b := 1 }), 0, ({ run with mb := { waits := [{ m := 2, op := 0xC01, a := 0, b := 1 }] } }), (by decide +kernel), (by decide +kernel), (by decide +kernel)⟩,
    ⟨({ m := 2, op := 0xC01, a := 0, b := 1 }), ({ run with mb := { waits := [{ m := 2, op := 0xC01, a := 0, b := 1 }] } }), (by decide +kernel), (by decide +kernel)⟩,
    ⟨28, ({ m := 28, b := 0, w := { m := 28, op := 0xD00, inc := 0 } }), (mbx 28 0xD00 [1]), ((((mbx 28 0xD00 [1] : State)).mbAccept 28).2), (by decide +kernel)⟩⟩

/-- States and operands that meet the hypotheses of each clause of `CrookReserveHealthAndPower`. -/
theorem test_premises_of_crook_reserve_health_and_power :
    (∃ (m : Fin 32) (k : Ck) (s : State) (t : State) (src : Nat) (t0 : Stamp) (u : State), s.commanded m 0x800 [.P] false (masks (words 5) 0) = some (k, t) ∧ k.d t 0 = 2 ∧ t.findUnit 2 (k.d t 1) = some src ∧ k.d t 2 < 36 ∧ t.dvBusy = false ∧ t.notClean (t.unitFlock 2 src) = false ∧ t.unitSpare 2 (k.d t 2) = true ∧ t0 = k.d64 t 3 ∧ 8590 ≤ stampDiff t0 t.now ∧ ((t.ckPoke RS_DV_TIME_LO (t0.extractLsb' 0 32)).ckPoke RS_DV_TIME_HI (t0.extractLsb' 32 32)).ckWrites [RS_CFG_REFUSED] [(0, RS_DV_CTRL, ckWord (2 ^ 31 + 2 * 2 ^ 24 + k.d t 2 * 2 ^ 16 + src))] = (none, u))
    ∧ (∃ (m : Fin 32) (k : Ck) (s : State) (t : State) (src : Nat), s.commanded m 0x800 [.P] false (masks (words 5) 0) = some (k, t) ∧ k.d t 0 = 2 ∧ t.findUnit 2 (k.d t 1) = some src ∧ k.d t 2 < 36 ∧ t.dvBusy = false ∧ t.notClean (t.unitFlock 2 src) = false ∧ t.unitSpare 2 (k.d t 2) = true ∧ stampDiff (k.d64 t 3) t.now < 8590)
    ∧ (∃ (m : Fin 32) (k : Ck) (s : State) (t : State), s.commanded m 0x801 [.P] false (masks (words 2) 0) = some (k, t) ∧ k.d t 0 < 5 ∧ k.d t 1 < physCount (k.d t 0) ∧ t.underTest (k.d t 0) (k.d t 1) = false ∧ t.unitSpare (k.d t 0) (k.d t 1) = true ∧ t.dvBusy = false)
    ∧ (∃ (m : Fin 32) (k : Ck) (s : State) (t : State), s.commanded m 0x801 [.P] false (masks (words 2) 0) = some (k, t) ∧ k.d t 0 < 5 ∧ k.d t 1 < physCount (k.d t 0) ∧ t.underTest (k.d t 0) (k.d t 1) = false ∧ t.unitSpare (k.d t 0) (k.d t 1) = false)
    ∧ (∃ (m : Fin 32) (k : Ck) (s : State) (t : State), s.commanded m 0x802 [.P] false (masks (words 2) 0) = some (k, t) ∧ k.d t 0 < 5 ∧ k.d t 1 < physCount (k.d t 0) ∧ t.underTest (k.d t 0) (k.d t 1) = false ∧ t.unitValid (k.d t 0) (k.d t 1) = false ∧ t.unitRetired (k.d t 0) (k.d t 1) = true)
    ∧ (∃ (m : Fin 32) (k : Ck) (s : State) (t : State), s.commanded m 0x803 [.P] false (masks (words 2) 0) = some (k, t) ∧ k.d t 0 < 5 ∧ k.d t 1 < physCount (k.d t 0) ∧ t.underTest (k.d t 0) (k.d t 1) = false ∧ t.unitValid (k.d t 0) (k.d t 1) = false ∧ t.dvBusy = false)
    ∧ (∃ (kind : Fin 5) (unit : Fin 72) (step : Fin 8) (s : State), s.underTest kind unit = false ∧ s.rs.tests = [])
    ∧ (∃ (m : Fin 32) (k : Ck) (s : State) (t : State), s.commanded m 0x900 [.P] true (masks [whole] 0) = some (k, t) ∧ t.mbBuf m = false ∧ k.d t 0 < 5 ∧ k.d t 0 ≠ 2)
    ∧ (∃ (m : Fin 32) (k : Ck) (s : State) (t : State), s.commanded m 0x900 [.P] true (masks [whole] 0) = some (k, t) ∧ t.mbBuf m = false ∧ k.d t 0 = 2)
    ∧ (∃ (m : Fin 32) (k : Ck) (s : State) (t : State), s.commanded m 0x900 [.P] true (masks [whole] 0) = some (k, t) ∧ k.flock = none ∧ t.mbBuf m = true ∧ k.d t 0 < 5 ∧ (t.healthData (k.d t 0)).2 ≤ t.mbD m 2)
    ∧ (∃ (m : Fin 32) (k : Ck) (s : State) (t : State), s.commanded m 0xA00 [.P] false (masks [0xFFFF] 0) = some (k, t) ∧ t.pmBusy = false)
    ∧ (∃ (m : Fin 32) (k : Ck) (s : State) (t : State), s.commanded m 0xA00 [.P] false (masks [0xFFFF] 0) = some (k, t) ∧ t.pmBusy = true)
    ∧ (∃ (m : Fin 32) (k : Ck) (s : State) (t : State), s.commanded m 0xA01 [.P] false (masks [0xFFFF] 0) = some (k, t) ∧ t.pmBusy = false)
    ∧ (∃ (kind : Fin 5) (unit : Fin 72) (step : Fin 8) (tr : TestRun) (w : MbWait) (s : State), s.live = true ∧ s.rs.tests.find? (fun x => x.kind == kind.val && x.unit == unit.val) = some tr ∧ tr.readmit = false ∧ s.mb.waits.find? (fun x => x.m == tr.mbox && (x.op == 0x802 || x.op == 0x803)) = some w ∧ kind.val ≠ 0 ∧ kind.val ≠ 4)
    ∧ (∃ (kind : Fin 5) (unit : Fin 72) (step : Fin 8) (tr : TestRun) (w : MbWait) (s : State), s.live = true ∧ s.rs.tests.find? (fun x => x.kind == kind.val && x.unit == unit.val) = some tr ∧ tr.readmit = true ∧ s.mb.waits.find? (fun x => x.m == tr.mbox && (x.op == 0x802 || x.op == 0x803)) = some w ∧ kind.val ≠ 0 ∧ kind.val ≠ 4 ∧ step.val = 0) :=
  ⟨⟨2, ({ m := 2, b := 0, w := { m := 2, op := 0x800, inc := 0 } }), (mbx 2 0x800 [2, 5, 20, 100000, 0] ((runc.setNat (TM_MAP 7) 0x45).setFlag (RS_HURDLE_T 20) fRS_HURDLE_E_FENCE true)), ((((mbx 2 0x800 [2, 5, 20, 100000, 0] ((runc.setNat (TM_MAP 7) 0x45).setFlag (RS_HURDLE_T 20) fRS_HURDLE_E_FENCE true) : State)).mbAccept 2).2), 7, 100000, (((((((((mbx 2 0x800 [2, 5, 20, 100000, 0] ((runc.setNat (TM_MAP 7) 0x45).setFlag (RS_HURDLE_T 20) fRS_HURDLE_E_FENCE true) : State)).mbAccept 2).2 : State)).ckPoke RS_DV_TIME_LO (((100000 : Stamp)).extractLsb' 0 32)).ckPoke RS_DV_TIME_HI (((100000 : Stamp)).extractLsb' 32 32)).ckWrites [RS_CFG_REFUSED] [(0, RS_DV_CTRL, ckWord (2 ^ 31 + 2 * 2 ^ 24 + (({ m := 2, b := 0, w := { m := 2, op := 0x800, inc := 0 } } : Ck)).d (((((mbx 2 0x800 [2, 5, 20, 100000, 0] ((runc.setNat (TM_MAP 7) 0x45).setFlag (RS_HURDLE_T 20) fRS_HURDLE_E_FENCE true) : State)).mbAccept 2).2 : State)) 2 * 2 ^ 16 + ((7 : Nat))))]).2), (by decide +kernel), (by decide +kernel), (by decide +kernel), (by decide +kernel), (by decide +kernel), (by decide +kernel), (by decide +kernel), (by decide +kernel), (by decide +kernel), (by decide +kernel)⟩,
    ⟨2, ({ m := 2, b := 0, w := { m := 2, op := 0x800, inc := 0 } }), (mbx 2 0x800 [2, 5, 20, 8589, 0] ((runc.setNat (TM_MAP 7) 0x45).setFlag (RS_HURDLE_T 20) fRS_HURDLE_E_FENCE true)), ((((mbx 2 0x800 [2, 5, 20, 8589, 0] ((runc.setNat (TM_MAP 7) 0x45).setFlag (RS_HURDLE_T 20) fRS_HURDLE_E_FENCE true) : State)).mbAccept 2).2), 7, (by decide +kernel), (by decide +kernel), (by decide +kernel), (by decide +kernel), (by decide +kernel), (by decide +kernel), (by decide +kernel), (by decide +kernel)⟩,
    ⟨2, ({ m := 2, b := 0, w := { m := 2, op := 0x801, inc := 0 } }), (mbx 2 0x801 [2, 35] (runc.setFlag (RS_HURDLE_T 35) fRS_HURDLE_E_FENCE true)), ((((mbx 2 0x801 [2, 35] (runc.setFlag (RS_HURDLE_T 35) fRS_HURDLE_E_FENCE true) : State)).mbAccept 2).2), (by decide +kernel), (by decide +kernel), (by decide +kernel), (by decide +kernel), (by decide +kernel), (by decide +kernel)⟩,
    ⟨2, ({ m := 2, b := 0, w := { m := 2, op := 0x801, inc := 0 } }), (mbx 2 0x801 [2, 35] (runc.setNat (TM_MAP 35) 0x45)), ((((mbx 2 0x801 [2, 35] (runc.setNat (TM_MAP 35) 0x45) : State)).mbAccept 2).2), (by decide +kernel), (by decide +kernel), (by decide +kernel), (by decide +kernel), (by decide +kernel)⟩,
    ⟨2, ({ m := 2, b := 0, w := { m := 2, op := 0x802, inc := 0 } }), (mbx 2 0x802 [2, 35] (runc.retire 2 35)), ((((mbx 2 0x802 [2, 35] (runc.retire 2 35) : State)).mbAccept 2).2), (by decide +kernel), (by decide +kernel), (by decide +kernel), (by decide +kernel), (by decide +kernel), (by decide +kernel)⟩,
    ⟨2, ({ m := 2, b := 0, w := { m := 2, op := 0x803, inc := 0 } }), (mbx 2 0x803 [2, 35] (runc)), ((((mbx 2 0x803 [2, 35] (runc) : State)).mbAccept 2).2), (by decide +kernel), (by decide +kernel), (by decide +kernel), (by decide +kernel), (by decide +kernel), (by decide +kernel)⟩,
    ⟨2, 35, 0, run, (by decide +kernel), (by decide +kernel)⟩,
    ⟨2, ({ m := 2, b := 0, w := { m := 2, op := 0x900, inc := 0 } }), (mbx 2 0x900 [1]), ((((mbx 2 0x900 [1] : State)).mbAccept 2).2), (by decide +kernel), (by decide +kernel), (by decide +kernel), (by decide +kernel)⟩,
    ⟨2, ({ m := 2, b := 0, w := { m := 2, op := 0x900, inc := 0 } }), (mbx 2 0x900 [2]), ((((mbx 2 0x900 [2] : State)).mbAccept 2).2), (by decide +kernel), (by decide +kernel), (by decide +kernel)⟩,
    ⟨2, ({ m := 2, b := 4, w := { m := 2, op := 0x900, inc := 0 } }), (mbx 2 0x10900 [0x1000, 0, 80, 0, 3]), ((((mbx 2 0x10900 [0x1000, 0, 80, 0, 3] : State)).mbAccept 2).2), (by decide +kernel), (by decide +kernel), (by decide +kernel), (by decide +kernel), (by decide +kernel)⟩,
    ⟨2, ({ m := 2, b := 0, w := { m := 2, op := 0xA00, inc := 0 } }), (mbx 2 0xA00 [16385] (runc)), ((((mbx 2 0xA00 [16385] (runc) : State)).mbAccept 2).2), (by decide +kernel), (by decide +kernel)⟩,
    ⟨2, ({ m := 2, b := 0, w := { m := 2, op := 0xA00, inc := 0 } }), (mbx 2 0xA00 [16385] (runc.setFlag (FLK_STAT 5) fFLK_STAT_CLEAN false)), ((((mbx 2 0xA00 [16385] (runc.setFlag (FLK_STAT 5) fFLK_STAT_CLEAN false) : State)).mbAccept 2).2), (by decide +kernel), (by decide +kernel)⟩,
    ⟨2, ({ m := 2, b := 0, w := { m := 2, op := 0xA01, inc := 0 } }), (mbx 2 0xA01 [16385] (runc)), ((((mbx 2 0xA01 [16385] (runc) : State)).mbAccept 2).2), (by decide +kernel), (by decide +kernel)⟩,
    ⟨2, 35, 3, ({ kind := 2, unit := 35, mbox := 2, readmit := false }), ({ m := 2, op := 0x803, a := 2, b := 35 }), ({ runc with rs := { tests := [(({ kind := 2, unit := 35, mbox := 2, readmit := false } : TestRun))] }, mb := { waits := [(({ m := 2, op := 0x803, a := 2, b := 35 } : MbWait))] } }), (by decide +kernel), (by decide +kernel), (by decide +kernel), (by decide +kernel), (by decide +kernel), (by decide +kernel)⟩,
    ⟨2, 35, 0, ({ kind := 2, unit := 35, mbox := 2, readmit := true }), ({ m := 2, op := 0x802, a := 2, b := 35 }), ({ runc with rs := { tests := [(({ kind := 2, unit := 35, mbox := 2, readmit := true } : TestRun))] }, mb := { waits := [(({ m := 2, op := 0x802, a := 2, b := 35 } : MbWait))] } }), (by decide +kernel), (by decide +kernel), (by decide +kernel), (by decide +kernel), (by decide +kernel), (by decide +kernel), (by decide +kernel)⟩⟩

/-- States and operands that meet the hypotheses of each clause of `MemoryIntegrityCommands`. -/
theorem test_premises_of_memory_integrity_commands :
    (∃ (g : Fin 10) (s : State), s.live = true ∧ s.pw.fast = true ∧ g.val ≠ 7 ∧ s.flag (MI_GCFG g) fMI_GCFG_SCRUBEN = true ∧ s.scrubDue g = true)
    ∧ (∃ (g : Fin 10) (i : Nat) (fl : Nat) (x : BitVec 48) (s : State) (p : Nat), s.live = true ∧ s.pw.fast = true ∧ g.val ≠ 7 ∧ s.flag (MI_GCFG g) fMI_GCFG_SCRUBEN = true ∧ i < (miShape g).1 ∧ fl = x.toNat ∧ s.scrubDue g = true ∧ eccRead g (syndrome g fl) = .corrected p)
    ∧ (∃ (g : Fin 10) (i : Nat) (fl : Nat) (x : BitVec 48) (s : State), s.live = true ∧ s.pw.fast = true ∧ g.val ≠ 7 ∧ s.flag (MI_GCFG g) fMI_GCFG_SCRUBEN = true ∧ s.flag (MI_GSTAT g) fMI_GSTAT_UE = false ∧ i < (miShape g).1 ∧ fl = x.toNat ∧ s.scrubDue g = true ∧ eccRead g (syndrome g fl) = .uncorrectable)
    ∧ (∃ (g : Fin 10) (errs : List (Nat × BitVec 48)) (s : State), ((s.pw.fast = false ∨ g.val = 7 ∨ s.flag (MI_GCFG g) fMI_GCFG_SCRUBEN = false ∨ s.scrubDue g = false)))
    ∧ (∃ (p : Port) (g : Fin 10) (j : Fin 8) (v : Word) (s : State) (t : State), s.takes p (MI_REMAP g j) v = true ∧ t = s.logged p (MI_REMAP g j) v ∧ bitOf (t.nat (MI_REMAP g j)) 31 = false ∧ bitOf v.toNat 31 = true ∧ bitsOf v.toNat 24 7 < (miShape g).1 ∧ bitsOf v.toNat 17 7 < (miShape g).2.1 ∧ bitsOf v.toNat 8 8 < (miShape g).2.2 ∧ t.remapClash g j v.toNat = false ∧ t.remapCopy g = none)
    ∧ (∃ (p : Port) (g : Fin 10) (j : Fin 8) (v : Word) (s : State) (t : State), s.takes p (MI_REMAP g j) v = true ∧ t = s.logged p (MI_REMAP g j) v ∧ bitOf (t.nat (MI_REMAP g j)) 31 = true ∧ v ≠ t.reg (MI_REMAP g j) ∧ ((bitOf v.toNat 31 = false ∨ v.toNat / 4 ≠ t.nat (MI_REMAP g j) / 4)))
    ∧ (∃ (p : Port) (g : Fin 10) (j : Fin 8) (v : Word) (s : State) (t : State), s.takes p (MI_REMAP g j) v = true ∧ t = s.logged p (MI_REMAP g j) v ∧ v ≠ t.reg (MI_REMAP g j) ∧ bitOf v.toNat 31 = true ∧ (((miShape g).1 ≤ bitsOf v.toNat 24 7 ∨ (miShape g).2.1 ≤ bitsOf v.toNat 17 7 ∨ (miShape g).2.2 ≤ bitsOf v.toNat 8 8 ∨ t.remapClash g j v.toNat = true ∨ (t.remapCopy g).isSome = true)))
    ∧ (∃ (g : Fin 10) (j : Nat) (f : Nat) (s : State), s.live = true ∧ s.pw.fast = true ∧ s.remapCopy g = some (j, f) ∧ f + 257 ≤ s.fc)
    ∧ (∃ (g : Fin 10) (s : State), s.remapCopy g = none)
    ∧ (∃ (p : Port) (g : Fin 10) (i : Fin 128) (s : State) (t : State), s.takes p (MI_SWEEP g) (.ofNat 32 (2 ^ 31 + i.val)) = true ∧ t = (s.logged p (MI_SWEEP g) (.ofNat 32 (2 ^ 31 + i.val))).setNat (MI_SWEEP g) i ∧ t.sweepOk g i = true)
    ∧ (∃ (p : Port) (g : Fin 10) (i : Fin 128) (s : State) (t : State), s.takes p (MI_SWEEP g) (.ofNat 32 (2 ^ 31 + i.val)) = true ∧ t = (s.logged p (MI_SWEEP g) (.ofNat 32 (2 ^ 31 + i.val))).setNat (MI_SWEEP g) i ∧ t.sweepOk g i = false)
    ∧ (∃ (g : Fin 10) (i : Fin 128) (s : State), s.live = true ∧ s.pw.fast = true ∧ s.sweeping g i = true)
    ∧ (∃ (g : Fin 10) (i : Fin 128) (s : State), s.sweeping g i = false)
    ∧ (∃ (p : Port) (g : Fin 10) (s : State), s.takes p (MI_GCTL g) 1 = true) :=
  ⟨⟨0, (run.setFlag (MI_GCFG 0) fMI_GCFG_SCRUBEN true), (by decide +kernel), (by decide +kernel), (by decide +kernel), (by decide +kernel), (by decide +kernel)⟩,
    ⟨0, 71, 8, 8, (run.setFlag (MI_GCFG 0) fMI_GCFG_SCRUBEN true), 3, (by decide +kernel), (by decide +kernel), (by decide +kernel), (by decide +kernel), (by decide +kernel), (by decide +kernel), (by decide +kernel), (by decide +kernel)⟩,
    ⟨0, 71, 24, 24, (run.setFlag (MI_GCFG 0) fMI_GCFG_SCRUBEN true), (by decide +kernel), (by decide +kernel), (by decide +kernel), (by decide +kernel), (by decide +kernel), (by decide +kernel), (by decide +kernel), (by decide +kernel), (by decide +kernel)⟩,
    ⟨7, ([(0, 1)]), run, (by decide +kernel)⟩,
    ⟨.shepherd, 4, 7, 0x8006FF03, run, ((run).logged ((.shepherd : Port)) (MI_REMAP ((4 : Fin 10)) ((7 : Fin 8))) ((0x8006FF03 : Word))), (by decide +kernel), rfl, (by decide +kernel), (by decide +kernel), (by decide +kernel), (by decide +kernel), (by decide +kernel), (by decide +kernel), (by decide +kernel)⟩,
    ⟨.shepherd, 4, 7, 0x8006FE03, (run.setNat (MI_REMAP 4 7) 0x8006FF03), (((run.setNat (MI_REMAP 4 7) 0x8006FF03 : State)).logged ((.shepherd : Port)) (MI_REMAP ((4 : Fin 10)) ((7 : Fin 8))) ((0x8006FE03 : Word))), (by decide +kernel), rfl, (by decide +kernel), (by decide +kernel), (by decide +kernel)⟩,
    ⟨.shepherd, 4, 7, 0x8008FF03, run, ((run).logged ((.shepherd : Port)) (MI_REMAP ((4 : Fin 10)) ((7 : Fin 8))) ((0x8008FF03 : Word))), (by decide +kernel), rfl, (by decide +kernel), (by decide +kernel), (by decide +kernel)⟩,
    ⟨4, 7, 3, ({ run with fc := 260, mi := { copies := [(4, (7, 4))] } }), (by decide +kernel), (by decide +kernel), (by decide +kernel), (by decide +kernel)⟩,
    ⟨4, run, (by decide +kernel)⟩,
    ⟨.shepherd, 0, 71, (run.setNat (LE_MAP 71) 0), ((((run.setNat (LE_MAP 71) 0 : State)).logged ((.shepherd : Port)) (MI_SWEEP ((0 : Fin 10))) (.ofNat 32 (2 ^ 31 + ((71 : Fin 128)).val))).setNat (MI_SWEEP ((0 : Fin 10))) ((71 : Fin 128))), (by decide +kernel), rfl, (by decide +kernel)⟩,
    ⟨.shepherd, 0, 72, run, (((run).logged ((.shepherd : Port)) (MI_SWEEP ((0 : Fin 10))) (.ofNat 32 (2 ^ 31 + ((72 : Fin 128)).val))).setNat (MI_SWEEP ((0 : Fin 10))) ((72 : Fin 128))), (by decide +kernel), rfl, (by decide +kernel)⟩,
    ⟨0, 71, ({ run with mi := { sweeps := [(71, true)] } }), (by decide +kernel), (by decide +kernel), (by decide +kernel)⟩,
    ⟨0, 71, run, (by decide +kernel)⟩,
    ⟨.hpp, 9, (run.setNat (MI_ROWLOG 9 3) 0x80000005), (by decide +kernel)⟩⟩

/-- States and operands that meet the hypotheses of each clause of `DroveCommands`. -/
theorem test_premises_of_drove_commands :
    (∃ (p : Port) (data : Word) (v : Word) (s : State), v = fRS_DV_CTRL_CANCEL.put (fRS_DV_CTRL_GO.put data 1) 0 ∧ s.takes p RS_DV_CTRL v = true ∧ (s.logged p RS_DV_CTRL v).dvBusy = false ∧ bitsOf v.toNat 24 3 < 5 ∧ bitsOf v.toNat 0 7 < physCount (bitsOf v.toNat 24 3) ∧ bitsOf v.toNat 16 7 < physCount (bitsOf v.toNat 24 3))
    ∧ (∃ (p : Port) (data : Word) (v : Word) (s : State), v = fRS_DV_CTRL_CANCEL.put (fRS_DV_CTRL_GO.put data 1) 0 ∧ s.takes p RS_DV_CTRL v = true ∧ (s.logged p RS_DV_CTRL v).dvBusy = true)
    ∧ (∃ (s : State), s.live = true ∧ s.dvPhase = 1 ∧ s.dvKind ≠ 0)
    ∧ (∃ (s : State), s.live = true ∧ s.dvPhase = 1 ∧ s.dvKind = 0 ∧ s.rs.goFc + 8191 ≤ s.fc)
    ∧ (∃ (s : State), ((s.dvPhase ≠ 1 ∨ (s.dvKind = 0 ∧ s.fc < s.rs.goFc + 8191))))
    ∧ (∃ (s : State), s.live = true ∧ s.dvPhase = 2 ∧ reached s.dvTime s.now = true ∧ s.dvKind = 2)
    ∧ (∃ (s : State), s.live = true ∧ s.dvPhase = 2 ∧ reached s.dvTime s.now = true ∧ s.dvKind = 0 ∧ s.engBoundary s.dvSrc = true)
    ∧ (∃ (s : State), ((s.dvPhase ≠ 2 ∨ reached s.dvTime s.now = false)))
    ∧ (∃ (s : State), s.live = true ∧ s.dvPhase = 3 ∧ ((s.dvKind ≠ 0 ∨ s.rs.holdFc + 39 ≤ s.fc)))
    ∧ (∃ (s : State), s.rs.swNow = true ∧ s.dvPhase = 3)
    ∧ (∃ (k : Nat) (a : Nat) (b : Nat) (s : State) (u : State), k = s.dvKind ∧ a = s.dvSrc ∧ b = s.dvDst ∧ u = s.moveUnit k a b)
    ∧ (∃ (s : State), ((s.dvPhase ≠ 3 ∨ (s.dvKind = 0 ∧ s.fc < s.rs.holdFc + 39))))
    ∧ (∃ (p : Port) (v : Word) (s : State) (t : State), v = fRS_DV_CTRL_CANCEL.put (s.reg RS_DV_CTRL) 1 ∧ s.takes p RS_DV_CTRL v = true ∧ bitOf v.toNat 31 = false ∧ t = s.logged p RS_DV_CTRL v ∧ t.dvBusy = true ∧ t.dvKind = 2 ∧ t.mbWaiting 0x800 = none)
    ∧ (∃ (p : Port) (v : Word) (w : MbWait) (s : State) (t : State) (u : State), v = fRS_DV_CTRL_CANCEL.put (s.reg RS_DV_CTRL) 1 ∧ s.takes p RS_DV_CTRL v = true ∧ bitOf v.toNat 31 = false ∧ t = s.logged p RS_DV_CTRL v ∧ t.dvBusy = true ∧ t.dvKind = 2 ∧ u = ((t.unitStop 2 t.dvDst).setFence 2 t.dvDst true).setPhase 5 ∧ u.mbWaiting 0x800 = some w)
    ∧ (∃ (p : Port) (v : Word) (s : State), v = fRS_DV_CTRL_CANCEL.put (s.reg RS_DV_CTRL) 1 ∧ s.takes p RS_DV_CTRL v = true ∧ bitOf v.toNat 31 = false ∧ (s.logged p RS_DV_CTRL v).dvBusy = false) :=
  ⟨⟨.shepherd, 0x02140007, 0x82140007, run, (by decide +kernel), (by decide +kernel), (by decide +kernel), (by decide +kernel), (by decide +kernel), (by decide +kernel)⟩,
    ⟨.shepherd, 0x02140007, 0x82140007, (run.setPhase 2), (by decide +kernel), (by decide +kernel), (by decide +kernel)⟩,
    ⟨((run.setPhase 1).setFld RS_DV_CTRL fRS_DV_CTRL_KIND 2), (by decide +kernel), (by decide +kernel), (by decide +kernel)⟩,
    ⟨({ ((run.setPhase 1).setFld RS_DV_CTRL fRS_DV_CTRL_DST 8) with fc := 9000 }), (by decide +kernel), (by decide +kernel), (by decide +kernel), (by decide +kernel)⟩,
    ⟨run, (by decide +kernel)⟩,
    ⟨((run.setPhase 2).setFld RS_DV_CTRL fRS_DV_CTRL_KIND 2), (by decide +kernel), (by decide +kernel), (by decide +kernel), (by decide +kernel)⟩,
    ⟨((run.setPhase 2).setFld RS_DV_CTRL fRS_DV_CTRL_DST 8 |>.setNat (LE_CTRL 0) 1), (by decide +kernel), (by decide +kernel), (by decide +kernel), (by decide +kernel), (by decide +kernel)⟩,
    ⟨run, (by decide +kernel)⟩,
    ⟨({ (run.setPhase 3).setReg RS_DV_CTRL 0x02140007 with fc := 9000 }), (by decide +kernel), (by decide +kernel), (by decide +kernel)⟩,
    ⟨({ (run.setPhase 3).setReg RS_DV_CTRL 0x02140007 with rs := { swNow := true } }), (by decide +kernel), (by decide +kernel)⟩,
    ⟨2, 7, 20, ((run.setPhase 3).setReg RS_DV_CTRL 0x02140007), ((((run.setPhase 3).setReg RS_DV_CTRL 0x02140007 : State)).moveUnit ((2 : Nat)) ((7 : Nat)) ((20 : Nat))), (by decide +kernel), (by decide +kernel), (by decide +kernel), rfl⟩,
    ⟨run, (by decide +kernel)⟩,
    ⟨.shepherd, 0x42140007, ((run.setPhase 3).setReg RS_DV_CTRL 0x02140007), ((((run.setPhase 3).setReg RS_DV_CTRL 0x02140007 : State)).logged ((.shepherd : Port)) RS_DV_CTRL ((0x42140007 : Word))), (by decide +kernel), (by decide +kernel), (by decide +kernel), rfl, (by decide +kernel), (by decide +kernel), (by decide +kernel)⟩,
    ⟨.shepherd, 0x42140007, ({ m := 2, op := 0x800, a := 7, b := 20, c := 0, astamp := 0, inc := 0 }), ({ (run.setPhase 3).setReg RS_DV_CTRL 0x02140007 with mb := { waits := [(({ m := 2, op := 0x800, a := 7, b := 20, c := 0, astamp := 0, inc := 0 } : MbWait))] } }), ((({ (run.setPhase 3).setReg RS_DV_CTRL 0x02140007 with mb := { waits := [(({ m := 2, op := 0x800, a := 7, b := 20, c := 0, astamp := 0, inc := 0 } : MbWait))] } } : State)).logged ((.shepherd : Port)) RS_DV_CTRL ((0x42140007 : Word))), ((((((({ (run.setPhase 3).setReg RS_DV_CTRL 0x02140007 with mb := { waits := [(({ m := 2, op := 0x800, a := 7, b := 20, c := 0, astamp := 0, inc := 0 } : MbWait))] } } : State)).logged ((.shepherd : Port)) RS_DV_CTRL ((0x42140007 : Word)) : State)).unitStop 2 (((({ (run.setPhase 3).setReg RS_DV_CTRL 0x02140007 with mb := { waits := [(({ m := 2, op := 0x800, a := 7, b := 20, c := 0, astamp := 0, inc := 0 } : MbWait))] } } : State)).logged ((.shepherd : Port)) RS_DV_CTRL ((0x42140007 : Word)) : State)).dvDst).setFence 2 (((({ (run.setPhase 3).setReg RS_DV_CTRL 0x02140007 with mb := { waits := [(({ m := 2, op := 0x800, a := 7, b := 20, c := 0, astamp := 0, inc := 0 } : MbWait))] } } : State)).logged ((.shepherd : Port)) RS_DV_CTRL ((0x42140007 : Word)) : State)).dvDst true).setPhase 5), (by decide +kernel), (by decide +kernel), (by decide +kernel), rfl, (by decide +kernel), (by decide +kernel), rfl, (by decide +kernel)⟩,
    ⟨.shepherd, 0x42140007, (run.setReg RS_DV_CTRL 0x02140007), (by decide +kernel), (by decide +kernel), (by decide +kernel), (by decide +kernel)⟩⟩

/-- States and operands that meet the hypotheses of each clause of `ShadowPairingAndWear`. -/
theorem test_premises_of_shadow_pairing_and_wear :
    (∃ (p : Port) (data : Word) (v : Word) (s : State), v = fRS_SC_CTRL_EN.put data 1 ∧ s.takes p RS_SC_CTRL v = true ∧ s.flag RS_SC_CTRL fRS_SC_CTRL_EN = false ∧ s.dvBusy = false ∧ v ≠ s.reg RS_SC_CTRL)
    ∧ (∃ (p : Port) (data : Word) (v : Word) (s : State) (t : State), v = fRS_SC_CTRL_EN.put data 1 ∧ s.takes p RS_SC_CTRL v = true ∧ t = s.logged p RS_SC_CTRL v ∧ t.flag RS_SC_CTRL fRS_SC_CTRL_EN = true ∧ v ≠ t.reg RS_SC_CTRL)
    ∧ (∃ (p : Port) (data : Word) (v : Word) (s : State) (t : State) (w : Word), v = fRS_RO_CTRL_GO.put data 1 ∧ s.admits p RS_RO_CTRL v = true ∧ w = s.word p RS_RO_CTRL v ∧ bitOf w.toNat 31 = true ∧ t = s.logged p RS_RO_CTRL v ∧ t.flag RS_RO_CTRL fRS_RO_CTRL_BUSY = false)
    ∧ (∃ (p : Port) (data : Word) (v : Word) (s : State) (t : State) (w : Word), v = fRS_RO_CTRL_GO.put data 1 ∧ s.admits p RS_RO_CTRL v = true ∧ w = s.word p RS_RO_CTRL v ∧ bitOf w.toNat 31 = true ∧ t = s.logged p RS_RO_CTRL v ∧ t.flag RS_RO_CTRL fRS_RO_CTRL_BUSY = true)
    ∧ (∃ (a : Vector Word 8) (b : Vector Word 8) (s : State), s.live = true ∧ s.flag RS_RO_CTRL fRS_RO_CTRL_BUSY = true ∧ s.rs.roLeft = 0)
    ∧ (∃ (a : Vector Word 8) (b : Vector Word 8) (s : State), ((s.flag RS_RO_CTRL fRS_RO_CTRL_BUSY = false ∨ s.rs.roLeft ≠ 0)))
    ∧ (∃ (a : BitVec 32) (b : BitVec 32) (s : State), s.pw.mode ≠ .reset ∧ rcoBad (a.toNat % 65536) = false ∧ rcoBad (b.toNat % 65536) = false)
    ∧ (∃ (a : BitVec 32) (b : BitVec 32) (s : State), s.pw.mode ≠ .reset ∧ rcoBad (a.toNat % 65536) = true ∧ s.rs.rco = 0 ∧ rcoBad (b.toNat % 65536) = false)
    ∧ (∃ (s : State), s.live = true) :=
  ⟨⟨.shepherd, 0x00330007, 0x80330007, run, (by decide +kernel), (by decide +kernel), (by decide +kernel), (by decide +kernel), (by decide +kernel)⟩,
    ⟨.shepherd, 0x00330007, 0x80330007, (run.setReg RS_SC_CTRL 0x80330008), (((run.setReg RS_SC_CTRL 0x80330008 : State)).logged ((.shepherd : Port)) RS_SC_CTRL ((0x80330007 : Word))), (by decide +kernel), (by decide +kernel), rfl, (by decide +kernel), (by decide +kernel)⟩,
    ⟨.shepherd, 0, 0x80000000, run, ((run).logged ((.shepherd : Port)) RS_RO_CTRL ((0x80000000 : Word))), ((run).word ((.shepherd : Port)) RS_RO_CTRL ((0x80000000 : Word))), (by decide +kernel), (by decide +kernel), (by decide +kernel), (by decide +kernel), rfl, (by decide +kernel)⟩,
    ⟨.shepherd, 5, 0x80000005, (run.setFlag RS_RO_CTRL fRS_RO_CTRL_BUSY true), (((run.setFlag RS_RO_CTRL fRS_RO_CTRL_BUSY true : State)).logged ((.shepherd : Port)) RS_RO_CTRL ((0x80000005 : Word))), (((run.setFlag RS_RO_CTRL fRS_RO_CTRL_BUSY true : State)).word ((.shepherd : Port)) RS_RO_CTRL ((0x80000005 : Word))), (by decide +kernel), (by decide +kernel), (by decide +kernel), (by decide +kernel), rfl, (by decide +kernel)⟩,
    ⟨(Vector.replicate 8 5), (Vector.replicate 8 6), (run.setFlag RS_RO_CTRL fRS_RO_CTRL_BUSY true), (by decide +kernel), (by decide +kernel), (by decide +kernel)⟩,
    ⟨(Vector.replicate 8 5), (Vector.replicate 8 6), run, (by decide +kernel)⟩,
    ⟨14648, 24414, run, (by decide +kernel), (by decide +kernel), (by decide +kernel)⟩,
    ⟨14647, 24414, run, (by decide +kernel), (by decide +kernel), (by decide +kernel), (by decide +kernel)⟩,
    ⟨run, (by decide +kernel)⟩⟩

/-- States and operands that meet the hypotheses of each clause of `ResetSourcesAndLevels`. -/
theorem test_premises_of_reset_sources_and_levels :
    (∃ (s : State) (t : State), t = State.countSource { s with pw.rstLow := true } 1 ∧ t.pw.lg.phase ≠ 0)
    ∧ (∃ (s : State) (t : State), t = State.countSource { s with pw.rstLow := true } 1 ∧ t.pw.lg.phase = 0 ∧ t.levelCode 1 = 5)
    ∧ (∃ (s : State) (t : State), t = State.countSource { s with pw.rstLow := true } 1 ∧ t.pw.lg.phase = 0 ∧ t.levelCode 1 = 1 ∧ t.pw.mode = .graze ∧ t.fld FLK_GCFG fFLK_GCFG_L0MASK = 0)
    ∧ (∃ (s : State) (t : State), t = State.countSource { s with pw.rstLow := true } 1 ∧ t.pw.lg.phase = 0 ∧ t.levelCode 1 = 1 ∧ t.pw.mode = .graze ∧ t.fld FLK_GCFG fFLK_GCFG_L0MASK ≠ 0)
    ∧ (∃ (s : State) (t : State), t = State.countSource { s with pw.rstLow := true } 1 ∧ t.pw.lg.phase = 0 ∧ t.levelCode 1 = 2 ∧ t.pw.mode = .graze)
    ∧ (∃ (l : Nat) (s : State) (t : State), s.canonical = true ∧ s.jn.fresh = [] ∧ s.pw.mode = .graze ∧ t = State.countSource { s with pw.rstLow := true } 1 ∧ t.pw.lg.phase = 0 ∧ l = t.levelCode 1 - 1 ∧ 2 ≤ l ∧ l ≤ 3)
    ∧ (∃ (p : Port) (v : Word) (s : State), s.takes p RC_SWRST v = true ∧ vfld v 16 16 = 0xA5C3 ∧ p = .hpp)
    ∧ (∃ (p : Port) (v : Word) (s : State), s.takes p RC_SWRST v = true ∧ vfld v 16 16 = 0xA5C3 ∧ p = .dam)
    ∧ (∃ (p : Port) (v : Word) (s : State), s.takes p RC_SWRST v = true ∧ ((vfld v 16 16 ≠ 0xA5C3 ∨ p = .shepherd)))
    ∧ (∃ (x : Stamp) (s : State), s.live = true ∧ s.pw.tlcmd = some x ∧ reached x s.now = true)
    ∧ (∃ (s : State), s.pw.tlcmd = none)
    ∧ (∃ (x : Stamp) (s : State), s.pw.tlcmd = some x ∧ reached x s.now = false) :=
  ⟨⟨({ run with pw := { run.pw with lg := { phase := 1 } } }), (State.countSource { (({ run with pw := { run.pw with lg := { phase := 1 } } } : State)) with pw.rstLow := true } 1), rfl, (by decide +kernel)⟩,
    ⟨(run.setFld RC_RSTMAP0 ⟨4, 4⟩ 5), (State.countSource { ((run.setFld RC_RSTMAP0 ⟨4, 4⟩ 5 : State)) with pw.rstLow := true } 1), rfl, (by decide +kernel), (by decide +kernel)⟩,
    ⟨(run.setFld RC_RSTMAP0 ⟨4, 4⟩ 1), (State.countSource { ((run.setFld RC_RSTMAP0 ⟨4, 4⟩ 1 : State)) with pw.rstLow := true } 1), rfl, (by decide +kernel), (by decide +kernel), (by decide +kernel), (by decide +kernel)⟩,
    ⟨((run.setFld RC_RSTMAP0 ⟨4, 4⟩ 1).setFld FLK_GCFG fFLK_GCFG_L0MASK 3), (State.countSource { (((run.setFld RC_RSTMAP0 ⟨4, 4⟩ 1).setFld FLK_GCFG fFLK_GCFG_L0MASK 3 : State)) with pw.rstLow := true } 1), rfl, (by decide +kernel), (by decide +kernel), (by decide +kernel), (by decide +kernel)⟩,
    ⟨(run.setFld RC_RSTMAP0 ⟨4, 4⟩ 2), (State.countSource { ((run.setFld RC_RSTMAP0 ⟨4, 4⟩ 2 : State)) with pw.rstLow := true } 1), rfl, (by decide +kernel), (by decide +kernel), (by decide +kernel)⟩,
    ⟨2, (run.setFld RC_RSTMAP0 ⟨4, 4⟩ 3), (State.countSource { ((run.setFld RC_RSTMAP0 ⟨4, 4⟩ 3 : State)) with pw.rstLow := true } 1), (by decide +kernel), (by decide +kernel), (by decide +kernel), rfl, (by decide +kernel), (by decide +kernel), (by decide +kernel), (by decide +kernel)⟩,
    ⟨.hpp, 0xA5C30000, run, (by decide +kernel), (by decide +kernel), (by decide +kernel)⟩,
    ⟨.dam, 0xA5C30000, (run.setFld DB_STAT fDB_STAT_LEVEL 2), (by decide +kernel), (by decide +kernel), (by decide +kernel)⟩,
    ⟨.shepherd, 0xA5C30000, run, (by decide +kernel), (by decide +kernel)⟩,
    ⟨0, ({ run with pw := { run.pw with tlcmd := some 0 } }), (by decide +kernel), (by decide +kernel), (by decide +kernel)⟩,
    ⟨run, (by decide +kernel)⟩,
    ⟨1, ({ run with pw := { run.pw with tlcmd := some 1 } }), (by decide +kernel), (by decide +kernel)⟩⟩

/-- States and operands that meet the hypotheses of each clause of `ReleaseAndStartUp`. -/
theorem test_premises_of_release_and_start_up :
    (∃ (c0 : Fin 16) (c1 : Fin 16) (c2 : Fin 16) (c3 : Fin 16) (mg : Bool) (im : BootImage) (upto : Fin 8) (s : State), ((s.pw.mode ≠ .reset ∧ (s.pw.mode = .startup → s.db.hold = true ∨ s.flag RC_BOOT fRC_BOOT_HOSTWAIT = true))))
    ∧ (∃ (c0 : Fin 16) (c1 : Fin 16) (c2 : Fin 16) (c3 : Fin 16) (mg : Bool) (im : BootImage) (upto : Fin 8) (s : State) (t : State) (u : State), s.pw.mode = .reset ∧ s.pw.level = 2 ∧ t = { s with pw := { s.pw with porLow := false, rstLow := false, pllReq := true, pll := true, fast := true, mode := .startup, image := im } } ∧ u = (((((t.setReg64 RC_RST_STAMP_LO RC_RST_STAMP_HI t.now).setFlag TB_STAT fTB_STAT_COARSE true).setStage 0).resetRecord s.pw.source 2).releaseHeld) ∧ u.flag RC_OPT fRC_OPT_HOLD = true)
    ∧ (∃ (c0 : Fin 16) (c1 : Fin 16) (c2 : Fin 16) (c3 : Fin 16) (mg : Bool) (im : BootImage) (upto : Fin 8) (s : State) (t : State) (u : State), s.pw.mode = .reset ∧ s.pw.level = 2 ∧ s.pw.bhalt = false ∧ t = { s with pw := { s.pw with porLow := false, rstLow := false, pllReq := true, pll := true, fast := true, mode := .startup, image := im } } ∧ u = (((((t.setReg64 RC_RST_STAMP_LO RC_RST_STAMP_HI t.now).setFlag TB_STAT fTB_STAT_COARSE true).setStage 0).resetRecord s.pw.source 2).releaseHeld) ∧ u.flag RC_OPT fRC_OPT_HOLD = false ∧ u.fld RC_OPT fRC_OPT_BOOT ≠ 3 ∧ im.fail = 0 ∧ upto.val ∉ [4, 5, 6])
    ∧ (∃ (c0 : Fin 16) (c1 : Fin 16) (c2 : Fin 16) (c3 : Fin 16) (mg : Bool) (im : BootImage) (s : State) (t : State), s.pw.mode = .reset ∧ 3 ≤ s.pw.level ∧ t = { s with pw := { s.pw with porLow := false, rstLow := false, pllReq := true, pll := false, fast := false, mode := .startup, image := im } })
    ∧ (∃ (c0 : Fin 16) (c1 : Fin 16) (c2 : Fin 16) (c3 : Fin 16) (mg : Bool) (im : BootImage) (s : State) (u : State), s.pw.mode = .startup ∧ s.db.hold = false ∧ s.flag RC_BOOT fRC_BOOT_HOSTWAIT = false ∧ s.fld RC_BOOT fRC_BOOT_STAGE = 1 ∧ u = { s with pw := { s.pw with image := im, pll := true, fast := !s.pw.bhalt } } ∧ (State.loadOptions (u.sweepBegin.loadFuses) [c0.val, c1.val, c2.val, c3.val] mg).pw.mode = .startup)
    ∧ (∃ (c0 : Fin 16) (c1 : Fin 16) (c2 : Fin 16) (c3 : Fin 16) (mg : Bool) (im : BootImage) (s : State) (u : State) (x : State), s.pw.mode = .startup ∧ s.db.hold = false ∧ s.pw.bhalt = false ∧ s.flag RC_BOOT fRC_BOOT_HOSTWAIT = false ∧ s.fld RC_BOOT fRC_BOOT_STAGE = 2 ∧ 3 ≤ s.pw.level ∧ u = { s with pw := { s.pw with image := im } } ∧ x = ((({ u.sweepAll with cs := [], jn := {} } : State).resetRecord s.pw.source s.pw.level).releaseHeld) ∧ x.flag RC_OPT fRC_OPT_HOLD = false ∧ x.flag RC_OPT fRC_OPT_SUNST = false ∧ x.fld RC_OPT fRC_OPT_BOOT = 3)
    ∧ (∃ (p : Port) (im : BootImage) (s : State) (z : State) (t : State), z = { s with pw.image := im } ∧ z.admits p RC_BOOT 0x80000000 = true ∧ vbit (z.word p RC_BOOT 0x80000000) 31 = true ∧ t = z.logged p RC_BOOT 0x80000000 ∧ t.pw.mode = .startup ∧ t.pw.bhalt = false ∧ t.flag RC_BOOT fRC_BOOT_HOSTWAIT = true ∧ im.fail = 0)
    ∧ (∃ (p : Port) (im : BootImage) (s : State) (z : State) (t : State), z = { s with pw.image := im } ∧ z.admits p RC_BOOT 0x80000000 = true ∧ vbit (z.word p RC_BOOT 0x80000000) 31 = true ∧ t = z.logged p RC_BOOT 0x80000000 ∧ t.pw.mode = .startup ∧ t.pw.bhalt = false ∧ t.flag RC_BOOT fRC_BOOT_HOSTWAIT = true ∧ im.fail ≠ 0)
    ∧ (∃ (p : Port) (im : BootImage) (s : State) (z : State), z = { s with pw.image := im } ∧ z.admits p RC_BOOT 0x80000000 = true ∧ ((z.pw.mode ≠ .startup ∨ (z.logged p RC_BOOT 0x80000000).flag RC_BOOT fRC_BOOT_HOSTWAIT = false)))
    ∧ (∃ (p : Port) (im : BootImage) (v : Word) (s : State) (z : State) (t : State), z = { s with pw.image := im } ∧ v = fDB_BHALT_HOLDREL.put (z.reg DB_BHALT) 1 ∧ z.takes p DB_BHALT v = true ∧ t = z.logged p DB_BHALT v ∧ t.dbLevel = 2 ∧ bitOf v.toNat 0 = t.flag DB_STAT fDB_STAT_BHALT ∧ t.pw.mode = .startup ∧ t.db.hold = true)
    ∧ (∃ (s : State), s.fld RC_OPT fRC_OPT_BOOT = 3) :=
  ⟨⟨12, 12, 12, 12, false, ({}), 0, run, (by decide +kernel)⟩,
    ⟨12, 12, 12, 12, false, ({}), 0, ({ State.reset.setFlag RC_OPT fRC_OPT_HOLD true with pw := { level := 2 } }), ({ (({ State.reset.setFlag RC_OPT fRC_OPT_HOLD true with pw := { level := 2 } } : State)) with pw := { (({ State.reset.setFlag RC_OPT fRC_OPT_HOLD true with pw := { level := 2 } } : State)).pw with porLow := false, rstLow := false, pllReq := true, pll := true, fast := true, mode := .startup, image := (({} : BootImage)) } }), (((((((({ (({ State.reset.setFlag RC_OPT fRC_OPT_HOLD true with pw := { level := 2 } } : State)) with pw := { (({ State.reset.setFlag RC_OPT fRC_OPT_HOLD true with pw := { level := 2 } } : State)).pw with porLow := false, rstLow := false, pllReq := true, pll := true, fast := true, mode := .startup, image := (({} : BootImage)) } } : State)).setReg64 RC_RST_STAMP_LO RC_RST_STAMP_HI (({ (({ State.reset.setFlag RC_OPT fRC_OPT_HOLD true with pw := { level := 2 } } : State)) with pw := { (({ State.reset.setFlag RC_OPT fRC_OPT_HOLD true with pw := { level := 2 } } : State)).pw with porLow := false, rstLow := false, pllReq := true, pll := true, fast := true, mode := .startup, image := (({} : BootImage)) } } : State)).now).setFlag TB_STAT fTB_STAT_COARSE true).setStage 0).resetRecord (({ State.reset.setFlag RC_OPT fRC_OPT_HOLD true with pw := { level := 2 } } : State)).pw.source 2).releaseHeld)), (by decide +kernel), (by decide +kernel), rfl, rfl, (by decide +kernel)⟩,
    ⟨12, 12, 12, 12, false, ({}), 0, ({ State.reset with pw := { level := 2 } }), ({ (({ State.reset with pw := { level := 2 } } : State)) with pw := { (({ State.reset with pw := { level := 2 } } : State)).pw with porLow := false, rstLow := false, pllReq := true, pll := true, fast := true, mode := .startup, image := (({} : BootImage)) } }), (((((((({ (({ State.reset with pw := { level := 2 } } : State)) with pw := { (({ State.reset with pw := { level := 2 } } : State)).pw with porLow := false, rstLow := false, pllReq := true, pll := true, fast := true, mode := .startup, image := (({} : BootImage)) } } : State)).setReg64 RC_RST_STAMP_LO RC_RST_STAMP_HI (({ (({ State.reset with pw := { level := 2 } } : State)) with pw := { (({ State.reset with pw := { level := 2 } } : State)).pw with porLow := false, rstLow := false, pllReq := true, pll := true, fast := true, mode := .startup, image := (({} : BootImage)) } } : State)).now).setFlag TB_STAT fTB_STAT_COARSE true).setStage 0).resetRecord (({ State.reset with pw := { level := 2 } } : State)).pw.source 2).releaseHeld)), (by decide +kernel), (by decide +kernel), (by decide +kernel), rfl, rfl, (by decide +kernel), (by decide +kernel), (by decide +kernel), (by decide +kernel)⟩,
    ⟨12, 12, 12, 12, false, ({}), State.reset, ({ (State.reset) with pw := { (State.reset).pw with porLow := false, rstLow := false, pllReq := true, pll := false, fast := false, mode := .startup, image := (({} : BootImage)) } }), (by decide +kernel), (by decide +kernel), rfl⟩,
    ⟨12, 12, 12, 12, false, ({}), ({ run.setFld RC_BOOT fRC_BOOT_STAGE 1 with pw := { run.pw with level := 3, mode := .startup } }), ({ (({ run.setFld RC_BOOT fRC_BOOT_STAGE 1 with pw := { run.pw with level := 3, mode := .startup } } : State)) with pw := { (({ run.setFld RC_BOOT fRC_BOOT_STAGE 1 with pw := { run.pw with level := 3, mode := .startup } } : State)).pw with image := (({} : BootImage)), pll := true, fast := !(({ run.setFld RC_BOOT fRC_BOOT_STAGE 1 with pw := { run.pw with level := 3, mode := .startup } } : State)).pw.bhalt } }), (by decide +kernel), (by decide +kernel), (by decide +kernel), (by decide +kernel), rfl, (by decide +kernel)⟩,
    ⟨12, 12, 12, 12, false, ({}), ({ (run.setFld RC_BOOT fRC_BOOT_STAGE 2).setFld RC_OPT fRC_OPT_BOOT 3 with pw := { run.pw with level := 3, mode := .startup } }), ({ (({ (run.setFld RC_BOOT fRC_BOOT_STAGE 2).setFld RC_OPT fRC_OPT_BOOT 3 with pw := { run.pw with level := 3, mode := .startup } } : State)) with pw := { (({ (run.setFld RC_BOOT fRC_BOOT_STAGE 2).setFld RC_OPT fRC_OPT_BOOT 3 with pw := { run.pw with level := 3, mode := .startup } } : State)).pw with image := (({} : BootImage)) } }), (((({ (({ (({ (run.setFld RC_BOOT fRC_BOOT_STAGE 2).setFld RC_OPT fRC_OPT_BOOT 3 with pw := { run.pw with level := 3, mode := .startup } } : State)) with pw := { (({ (run.setFld RC_BOOT fRC_BOOT_STAGE 2).setFld RC_OPT fRC_OPT_BOOT 3 with pw := { run.pw with level := 3, mode := .startup } } : State)).pw with image := (({} : BootImage)) } } : State)).sweepAll with cs := [], jn := {} } : State).resetRecord (({ (run.setFld RC_BOOT fRC_BOOT_STAGE 2).setFld RC_OPT fRC_OPT_BOOT 3 with pw := { run.pw with level := 3, mode := .startup } } : State)).pw.source (({ (run.setFld RC_BOOT fRC_BOOT_STAGE 2).setFld RC_OPT fRC_OPT_BOOT 3 with pw := { run.pw with level := 3, mode := .startup } } : State)).pw.level).releaseHeld)), (by decide +kernel), (by decide +kernel), (by decide +kernel), (by decide +kernel), (by decide +kernel), (by decide +kernel), rfl, rfl, (by decide +kernel), (by decide +kernel), (by decide +kernel)⟩,
    ⟨.hpp, ({}), ({ run.setFlag RC_BOOT fRC_BOOT_HOSTWAIT true with pw := { run.pw with mode := .startup } }), ({ (({ run.setFlag RC_BOOT fRC_BOOT_HOSTWAIT true with pw := { run.pw with mode := .startup } } : State)) with pw.image := (({} : BootImage)) }), ((({ (({ run.setFlag RC_BOOT fRC_BOOT_HOSTWAIT true with pw := { run.pw with mode := .startup } } : State)) with pw.image := (({} : BootImage)) } : State)).logged ((.hpp : Port)) RC_BOOT 0x80000000), rfl, (by decide +kernel), (by decide +kernel), rfl, (by decide +kernel), (by decide +kernel), (by decide +kernel), (by decide +kernel)⟩,
    ⟨.hpp, ({ fail := 3 }), ({ run.setFlag RC_BOOT fRC_BOOT_HOSTWAIT true with pw := { run.pw with mode := .startup } }), ({ (({ run.setFlag RC_BOOT fRC_BOOT_HOSTWAIT true with pw := { run.pw with mode := .startup } } : State)) with pw.image := (({ fail := 3 } : BootImage)) }), ((({ (({ run.setFlag RC_BOOT fRC_BOOT_HOSTWAIT true with pw := { run.pw with mode := .startup } } : State)) with pw.image := (({ fail := 3 } : BootImage)) } : State)).logged ((.hpp : Port)) RC_BOOT 0x80000000), rfl, (by decide +kernel), (by decide +kernel), rfl, (by decide +kernel), (by decide +kernel), (by decide +kernel), (by decide +kernel)⟩,
    ⟨.hpp, ({}), run, ({ (run) with pw.image := (({} : BootImage)) }), rfl, (by decide +kernel), (by decide +kernel)⟩,
    ⟨.dam, ({}), 2, ({ (run.setFld RC_OPT fRC_OPT_BOOT 3).setFld DB_STAT fDB_STAT_LEVEL 2 with pw := { run.pw with mode := .startup }, db := { hold := true } }), ({ (({ (run.setFld RC_OPT fRC_OPT_BOOT 3).setFld DB_STAT fDB_STAT_LEVEL 2 with pw := { run.pw with mode := .startup }, db := { hold := true } } : State)) with pw.image := (({} : BootImage)) }), ((({ (({ (run.setFld RC_OPT fRC_OPT_BOOT 3).setFld DB_STAT fDB_STAT_LEVEL 2 with pw := { run.pw with mode := .startup }, db := { hold := true } } : State)) with pw.image := (({} : BootImage)) } : State)).logged ((.dam : Port)) DB_BHALT ((2 : Word))), rfl, (by decide +kernel), (by decide +kernel), rfl, (by decide +kernel), (by decide +kernel), (by decide +kernel), (by decide +kernel)⟩,
    ⟨(run.setFld RC_OPT fRC_OPT_BOOT 3), (by decide +kernel)⟩⟩

/-- States and operands that meet the hypotheses of each clause of `RestAndFold`. -/
theorem test_premises_of_rest_and_fold :
    (∃ (s : State), s.live = true ∧ s.pw.entry = 1 ∧ s.pw.down = false ∧ s.pw.mode = .graze ∧ s.quiescent = true ∧ s.emulates = false)
    ∧ (∃ (s : State), s.live = true ∧ s.pw.entry = 1 ∧ s.pw.down = false ∧ s.pw.mode = .graze ∧ s.quiescent = true ∧ s.emulates = true)
    ∧ (∃ (s : State), s.live = true ∧ s.pw.entry = 2 ∧ s.pw.down = false ∧ s.pw.mode = .graze ∧ s.quiescent = true ∧ s.emulates = false)
    ∧ (∃ (s : State), s.live = true ∧ s.pw.entry = 2 ∧ s.pw.down = false ∧ s.pw.mode = .graze ∧ s.quiescent = true ∧ s.emulates = true)
    ∧ (∃ (s : State), s.live = true ∧ s.pw.entry ≠ 0 ∧ s.pw.down = false ∧ s.pw.mode = .graze ∧ reached (s.pw.goAt + 4294967) s.now = true ∧ s.quiescent = false)
    ∧ (∃ (s : State), ((s.pw.entry = 0 ∨ reached (s.pw.goAt + 4294967) s.now = false ∨ s.quiescent = true)))
    ∧ (∃ (s : State), s.pw.mode = .rest ∧ s.pw.up = false ∧ s.pw.retReq = true)
    ∧ (∃ (s : State), s.pw.mode = .rest ∧ s.pw.up = true)
    ∧ (∃ (s : State), s.pw.mode = .fold ∧ s.pw.up = false ∧ s.pw.down = true ∧ s.pw.memReq = true)
    ∧ (∃ (s : State), s.pw.mode = .fold ∧ s.pw.up = false ∧ s.pw.down = true ∧ s.pw.jrnAck = false ∧ s.pw.memReq = false ∧ s.pw.coreReq = true)
    ∧ (∃ (s : State), s.pw.mode = .fold ∧ s.pw.up = false ∧ s.pw.down = true ∧ s.pw.jrnAck = false ∧ s.pw.memReq = false ∧ s.pw.memAck = false ∧ s.pw.coreReq = false)
    ∧ (∃ (s : State), s.pw.mode = .fold ∧ s.pw.up = true ∧ s.pw.memReq = false)
    ∧ (∃ (s : State), s.pw.mode = .fold ∧ s.pw.up = true ∧ s.pw.coreAck = true ∧ s.pw.memReq = true ∧ s.pw.jrnReq = false)
    ∧ (∃ (i : Nat) (s : State) (t : State), s.pw.mode = .fold ∧ s.pw.up = true ∧ s.pw.coreAck = true ∧ s.pw.memReq = true ∧ s.pw.memAck = true ∧ s.pw.jrnReq = true ∧ s.pw.foldSrc = 7 ∧ s.pw.emu = false ∧ t = State.inc { s with pw := { s.pw with jrnAck := true, iso := false } } PM_FOLD_CNT ∧ t.wakeLatch = some i)
    ∧ (∃ (i : Nat) (s : State) (t : State) (u : State), s.pw.mode = .rest ∧ s.pw.up = true ∧ s.pw.pllReq = true ∧ s.pw.lockLost = false ∧ s.pw.emu = false ∧ t = { s with pw := { s.pw with mode := .graze, fast := !s.pw.bhalt, pll := true, up := false, down := false, entry := 0, emu := false, lockLost := false }, sh.crookWait := false } ∧ u = ((((t.inc PM_REST_CNT).setFld PM_STAT fPM_STAT_STATE 0).setFlag TB_STAT fTB_STAT_COARSE true).releaseHeld) ∧ u.wakeLatch = some i)
    ∧ (∃ (s : State) (t : State) (u : State), s.pw.mode = .graze ∧ s.pw.lockLost = true ∧ s.pw.emu = false ∧ t = { s with pw := { s.pw with mode := .graze, fast := !s.pw.bhalt, pll := true, up := false, down := false, entry := 0, emu := false, lockLost := false }, sh.crookWait := false } ∧ u = (((t.setFld PM_STAT fPM_STAT_STATE 0).setFlag TB_STAT fTB_STAT_COARSE true).releaseHeld).raise 947 0 0 ∧ u.wakeLatch = none)
    ∧ (∃ (s : State), ((s.pw.mode = .rest → s.pw.up = false ∨ s.pw.pllReq = false)) ∧ ((s.pw.mode = .graze → s.pw.lockLost = false)) ∧ ((s.pw.pll = false → s.pw.mode ≠ .startup ∧ s.pw.emu = false)))
    ∧ (∃ (s : State), s.pw.mode = .startup ∧ s.pw.pll = false)
    ∧ (∃ (s : State), s.pw.mode = .graze ∧ s.pw.lockLost = false)
    ∧ (∃ (s : State), s.pw.mode ≠ .graze ∧ s.pw.fast = false)
    ∧ (∃ (s : State), s.pw.mode ≠ .graze ∧ s.pw.fast = true ∧ (State.stopFast { s with pw.pll := false }).pw.mode ≠ .graze) :=
  ⟨⟨({ run with sh := { run.sh with crookWait := true }, pw := { run.pw with entry := 1 } }), (by decide +kernel), (by decide +kernel), (by decide +kernel), (by decide +kernel), (by decide +kernel), (by decide +kernel)⟩,
    ⟨({ (run.setFlag DB_CTRL fDB_CTRL_ATTACH true).setFlag DB_POLICY fDB_POLICY_EMU true with sh := { run.sh with crookWait := true }, pw := { run.pw with entry := 1 } }), (by decide +kernel), (by decide +kernel), (by decide +kernel), (by decide +kernel), (by decide +kernel), (by decide +kernel)⟩,
    ⟨({ run with sh := { run.sh with crookWait := true }, pw := { run.pw with entry := 2 } }), (by decide +kernel), (by decide +kernel), (by decide +kernel), (by decide +kernel), (by decide +kernel), (by decide +kernel)⟩,
    ⟨({ (run.setFlag DB_CTRL fDB_CTRL_ATTACH true).setFlag DB_POLICY fDB_POLICY_EMU true with sh := { run.sh with crookWait := true }, pw := { run.pw with entry := 2 } }), (by decide +kernel), (by decide +kernel), (by decide +kernel), (by decide +kernel), (by decide +kernel), (by decide +kernel)⟩,
    ⟨({ run with tb := { run.tb with a := 4294967 * 2 ^ 32 }, pw := { run.pw with entry := 2 } }), (by decide +kernel), (by decide +kernel), (by decide +kernel), (by decide +kernel), (by decide +kernel), (by decide +kernel)⟩,
    ⟨run, (by decide +kernel)⟩,
    ⟨({ run with pw := { run.pw with mode := .rest, retReq := true } }), (by decide +kernel), (by decide +kernel), (by decide +kernel)⟩,
    ⟨({ run with pw := { run.pw with mode := .rest, up := true, retAck := true } }), (by decide +kernel), (by decide +kernel)⟩,
    ⟨({ run with pw := { run.pw with mode := .fold, down := true, jrnReq := false } }), (by decide +kernel), (by decide +kernel), (by decide +kernel), (by decide +kernel)⟩,
    ⟨({ run with pw := { run.pw with mode := .fold, down := true, jrnReq := false, jrnAck := false, memReq := false } }), (by decide +kernel), (by decide +kernel), (by decide +kernel), (by decide +kernel), (by decide +kernel), (by decide +kernel)⟩,
    ⟨({ run with pw := { run.pw with mode := .fold, down := true, jrnReq := false, jrnAck := false, memReq := false, memAck := false, coreReq := false } }), (by decide +kernel), (by decide +kernel), (by decide +kernel), (by decide +kernel), (by decide +kernel), (by decide +kernel), (by decide +kernel)⟩,
    ⟨({ run with pw := { run.pw with mode := .fold, up := true, jrnReq := false, jrnAck := false, memReq := false, memAck := false, coreAck := false } }), (by decide +kernel), (by decide +kernel), (by decide +kernel)⟩,
    ⟨({ run with pw := { run.pw with mode := .fold, up := true, jrnReq := false, jrnAck := false, memAck := false } }), (by decide +kernel), (by decide +kernel), (by decide +kernel), (by decide +kernel), (by decide +kernel)⟩,
    ⟨3, ({ (run.setNat EC_WAKE_EN 8).setNat EC_WAKE_LATCH 8 with pw := { run.pw with mode := .fold, up := true, jrnAck := false } }), (State.inc { (({ (run.setNat EC_WAKE_EN 8).setNat EC_WAKE_LATCH 8 with pw := { run.pw with mode := .fold, up := true, jrnAck := false } } : State)) with pw := { (({ (run.setNat EC_WAKE_EN 8).setNat EC_WAKE_LATCH 8 with pw := { run.pw with mode := .fold, up := true, jrnAck := false } } : State)).pw with jrnAck := true, iso := false } } PM_FOLD_CNT), (by decide +kernel), (by decide +kernel), (by decide +kernel), (by decide +kernel), (by decide +kernel), (by decide +kernel), (by decide +kernel), (by decide +kernel), rfl, (by decide +kernel)⟩,
    ⟨3, ({ (run.setNat EC_WAKE_EN 8).setNat EC_WAKE_LATCH 8 with pw := { run.pw with mode := .rest, up := true, pllReq := true } }), ({ (({ (run.setNat EC_WAKE_EN 8).setNat EC_WAKE_LATCH 8 with pw := { run.pw with mode := .rest, up := true, pllReq := true } } : State)) with pw := { (({ (run.setNat EC_WAKE_EN 8).setNat EC_WAKE_LATCH 8 with pw := { run.pw with mode := .rest, up := true, pllReq := true } } : State)).pw with mode := .graze, fast := !(({ (run.setNat EC_WAKE_EN 8).setNat EC_WAKE_LATCH 8 with pw := { run.pw with mode := .rest, up := true, pllReq := true } } : State)).pw.bhalt, pll := true, up := false, down := false, entry := 0, emu := false, lockLost := false }, sh.crookWait := false }), ((((((({ (({ (run.setNat EC_WAKE_EN 8).setNat EC_WAKE_LATCH 8 with pw := { run.pw with mode := .rest, up := true, pllReq := true } } : State)) with pw := { (({ (run.setNat EC_WAKE_EN 8).setNat EC_WAKE_LATCH 8 with pw := { run.pw with mode := .rest, up := true, pllReq := true } } : State)).pw with mode := .graze, fast := !(({ (run.setNat EC_WAKE_EN 8).setNat EC_WAKE_LATCH 8 with pw := { run.pw with mode := .rest, up := true, pllReq := true } } : State)).pw.bhalt, pll := true, up := false, down := false, entry := 0, emu := false, lockLost := false }, sh.crookWait := false } : State)).inc PM_REST_CNT).setFld PM_STAT fPM_STAT_STATE 0).setFlag TB_STAT fTB_STAT_COARSE true).releaseHeld)), (by decide +kernel), (by decide +kernel), (by decide +kernel), (by decide +kernel), (by decide +kernel), rfl, rfl, (by decide +kernel)⟩,
    ⟨({ run with pw := { run.pw with lockLost := true } }), ({ (({ run with pw := { run.pw with lockLost := true } } : State)) with pw := { (({ run with pw := { run.pw with lockLost := true } } : State)).pw with mode := .graze, fast := !(({ run with pw := { run.pw with lockLost := true } } : State)).pw.bhalt, pll := true, up := false, down := false, entry := 0, emu := false, lockLost := false }, sh.crookWait := false }), (((((({ (({ run with pw := { run.pw with lockLost := true } } : State)) with pw := { (({ run with pw := { run.pw with lockLost := true } } : State)).pw with mode := .graze, fast := !(({ run with pw := { run.pw with lockLost := true } } : State)).pw.bhalt, pll := true, up := false, down := false, entry := 0, emu := false, lockLost := false }, sh.crookWait := false } : State)).setFld PM_STAT fPM_STAT_STATE 0).setFlag TB_STAT fTB_STAT_COARSE true).releaseHeld).raise 947 0 0), (by decide +kernel), (by decide +kernel), (by decide +kernel), rfl, rfl, (by decide +kernel)⟩,
    ⟨run, (by decide +kernel), (by decide +kernel), (by decide +kernel)⟩,
    ⟨({ run with pw := { run.pw with mode := .startup, pll := false, fast := false } }), (by decide +kernel), (by decide +kernel)⟩,
    ⟨run, (by decide +kernel), (by decide +kernel)⟩,
    ⟨State.reset, (by decide +kernel), (by decide +kernel)⟩,
    ⟨({ run with pw := { run.pw with mode := .startup } }), (by decide +kernel), (by decide +kernel), (by decide +kernel)⟩⟩

/-- States and operands that meet the hypotheses of each clause of `PowerFailAndLastGasp`. -/
theorem test_premises_of_power_fail_and_last_gasp :
    (∃ (k : Nat) (s : State), ((s.pw.failLow = true ∨ s.pw.mode = .fold)))
    ∧ (∃ (k : Nat) (s : State) (t : State), s.pw.failLow = false ∧ s.pw.mode ≠ .fold ∧ ((t.pw.mode = .reset ∨ t.pw.mode = .startup)) ∧ t = (State.blockRelease { s with pw.failLow := true }).ar16.setFlag PM_STAT fPM_STAT_PFAIL true)
    ∧ (∃ (k : Nat) (s : State) (t : State) (u : State) (st : Stamp), s.pw.failLow = false ∧ s.pw.mode ≠ .fold ∧ t = (State.blockRelease { s with pw.failLow := true }).ar16.setFlag PM_STAT fPM_STAT_PFAIL true ∧ t.pw.mode = .graze ∧ t.pw.lg.phase = 0 ∧ t.pw.lg.done = false ∧ t.pw.fast = true ∧ st = t.edgeStamp k ∧ u = (if t.pw.entry ≠ 0 then t.abortEntry 4 else t) ∧ u.pw.fast = true ∧ (State.raiseAt ((u.setReg64 PM_LG_STAMP_LO PM_LG_STAMP_HI st).setFlag PM_STAT fPM_STAT_LGBUSY true) 944 st 0 0).pw.mode = .graze)
    ∧ (∃ (s : State), s.live = true ∧ s.pw.lg.phase = 1 ∧ s.pw.fast = true ∧ reached s.pw.lg.c s.now = true)
    ∧ (∃ (i : Nat) (s : State), s.pw.lg.phase = 2 ∧ s.fc = s.pw.lg.snapFc + i ∧ i < 2032)
    ∧ (∃ (s : State), ((s.pw.lg.phase ≠ 1 ∨ reached s.pw.lg.c s.now = false)))
    ∧ (∃ (s : State), s.live = true ∧ s.pw.lg.phase = 2 ∧ s.pw.lg.snapFc + 4096 ≤ s.fc)
    ∧ (∃ (s : State), ((s.pw.lg.phase ≠ 2 ∨ s.fc < s.pw.lg.snapFc + 4096)))
    ∧ (∃ (us : BitVec 8) (ok : Bool) (wr : Bool) (s : State), s.live = true ∧ s.pw.lg.phase = 3 ∧ ok = (wr && decide (us.toNat ≤ 60)) ∧ s.pw.lg.rose = false)
    ∧ (∃ (us : BitVec 8) (ok : Bool) (wr : Bool) (s : State), s.live = true ∧ s.pw.lg.phase = 3 ∧ ok = (wr && decide (us.toNat ≤ 60)) ∧ s.pw.lg.rose = true)
    ∧ (∃ (us : BitVec 8) (wr : Bool) (s : State), s.pw.lg.phase ≠ 3)
    ∧ (∃ (s : State), s.pw.failLow = false)
    ∧ (∃ (s : State), s.pw.failLow = true ∧ s.pw.lg.phase ≠ 0)
    ∧ (∃ (s : State), s.pw.failLow = true ∧ s.pw.lg.phase = 0 ∧ s.pw.lg.done = true)
    ∧ (∃ (s : State), s.pw.failLow = true ∧ s.pw.lg.phase = 0 ∧ s.pw.lg.done = false)
    ∧ (∃ (p : Port) (v : Word) (s : State) (t : State) (i : Nat), s.takes p PM_FSDATA v = true ∧ t = s.logged p PM_FSDATA v ∧ i = t.fld PM_FSADDR fPM_FSADDR_WORD)
    ∧ (∃ (p : Port) (s : State) (i : Nat), s.reads p PM_FSDATA = true ∧ i = s.fld PM_FSADDR fPM_FSADDR_WORD ∧ s.foldOpen i = false)
    ∧ (∃ (p : Port) (s : State), s.reads p PM_FSDATA = true ∧ s.foldOpen (s.fld PM_FSADDR fPM_FSADDR_WORD) = true) :=
  ⟨⟨3, ({ run with pw := { run.pw with failLow := true } }), (by decide +kernel)⟩,
    ⟨3, State.reset, ((State.blockRelease { (State.reset) with pw.failLow := true }).ar16.setFlag PM_STAT fPM_STAT_PFAIL true), (by decide +kernel), (by decide +kernel), (by decide +kernel), rfl⟩,
    ⟨3, run, ((State.blockRelease { (run) with pw.failLow := true }).ar16.setFlag PM_STAT fPM_STAT_PFAIL true), ((((State.blockRelease { (run) with pw.failLow := true }).ar16.setFlag PM_STAT fPM_STAT_PFAIL true : State))), ((((State.blockRelease { (run) with pw.failLow := true }).ar16.setFlag PM_STAT fPM_STAT_PFAIL true : State)).edgeStamp ((3 : Nat))), (by decide +kernel), (by decide +kernel), rfl, (by decide +kernel), (by decide +kernel), (by decide +kernel), (by decide +kernel), (by decide +kernel), rfl, (by decide +kernel), (by decide +kernel)⟩,
    ⟨({ run with pw := { run.pw with lg := { phase := 1 } } }), (by decide +kernel), (by decide +kernel), (by decide +kernel), (by decide +kernel)⟩,
    ⟨5, ({ run with fc := 5, pw := { run.pw with lg := { phase := 2 } } }), (by decide +kernel), (by decide +kernel), (by decide +kernel)⟩,
    ⟨run, (by decide +kernel)⟩,
    ⟨({ run with fc := 4096, pw := { run.pw with lg := { phase := 2 } } }), (by decide +kernel), (by decide +kernel), (by decide +kernel)⟩,
    ⟨run, (by decide +kernel)⟩,
    ⟨61, false, true, ({ run with pw := { run.pw with lg := { phase := 3 } } }), (by decide +kernel), (by decide +kernel), (by decide +kernel), (by decide +kernel)⟩,
    ⟨60, true, true, ({ run with pw := { run.pw with lg := { phase := 3, rose := true } } }), (by decide +kernel), (by decide +kernel), (by decide +kernel), (by decide +kernel)⟩,
    ⟨60, true, run, (by decide +kernel)⟩,
    ⟨run, (by decide +kernel)⟩,
    ⟨({ run with pw := { run.pw with failLow := true, lg := { phase := 1 } } }), (by decide +kernel), (by decide +kernel)⟩,
    ⟨({ run with pw := { run.pw with failLow := true, lg := { done := true } } }), (by decide +kernel), (by decide +kernel), (by decide +kernel)⟩,
    ⟨({ run with pw := { run.pw with failLow := true } }), (by decide +kernel), (by decide +kernel), (by decide +kernel)⟩,
    ⟨.shepherd, 7, (run.setNat PM_FSADDR 0x4000), (((run.setNat PM_FSADDR 0x4000 : State)).logged ((.shepherd : Port)) PM_FSDATA ((7 : Word))), 0x1000, (by decide +kernel), rfl, (by decide +kernel)⟩,
    ⟨.hpp, (run.setNat PM_FSADDR 0x4000), 0x1000, (by decide +kernel), (by decide +kernel), (by decide +kernel)⟩,
    ⟨.hpp, ({ run with fold := { started := true } }), (by decide +kernel), (by decide +kernel)⟩⟩

/-- States and operands that meet the hypotheses of each clause of `FippleRequests`. -/
theorem test_premises_of_fipple_requests :
    (∃ (s : State), s.dbAwake = true ∧ s.db.tapReq = [] ∧ s.db.held = [])
    ∧ (∃ (b : Byte) (pl : List Byte) (s : State), s.dbAwake = true ∧ s.db.tapReq = [] ∧ s.db.held = [] ∧ pl.length < 240)
    ∧ (∃ (s : State), s.dbAwake = true ∧ s.db.tapReq = [] ∧ s.db.held = [] ∧ s.db.proof = none)
    ∧ (∃ (m : List Byte) (s : State), s.dbAwake = true ∧ s.db.tapReq = [] ∧ s.db.held = [] ∧ s.db.proof = some m)
    ∧ (∃ (s : State), s.dbAwake = true ∧ s.db.tapReq = [] ∧ s.db.held = [] ∧ s.dbLevel = 0)
    ∧ (∃ (s : State), s.dbAwake = true ∧ s.db.tapReq = [] ∧ s.db.held = [] ∧ s.dbLevel ≠ 0)
    ∧ (∃ (a : Nat) (n : Nat) (v : BitVec 64) (pl : List Byte) (sys : List SysAnswer) (s : State) (t : State), s.dbAwake = true ∧ s.db.tapReq = [] ∧ s.db.held = [] ∧ s.dbLevel ≠ 0 ∧ s.portOpen .dam = true ∧ damFields false pl = some (0, a, n, n) ∧ s.windowRead .dam a n = (0, v, t))
    ∧ (∃ (a : Nat) (n : Nat) (c : Nat) (v : BitVec 64) (pl : List Byte) (sys : List SysAnswer) (s : State) (t : State), s.dbAwake = true ∧ s.db.tapReq = [] ∧ s.db.held = [] ∧ s.dbLevel ≠ 0 ∧ s.portOpen .dam = true ∧ damFields false pl = some (0, a, n, n) ∧ s.windowRead .dam a n = (c, v, t) ∧ c ≠ 0)
    ∧ (∃ (a : Nat) (n : Nat) (pl : List Byte) (sys : List SysAnswer) (s : State), s.dbAwake = true ∧ s.db.tapReq = [] ∧ s.db.held = [] ∧ s.dbLevel ≠ 0 ∧ s.portOpen .dam = true ∧ damFields false pl = some (1, a, n, n * sys.length) ∧ sys.all (fun e => e.1 == 0) = true)
    ∧ (∃ (pl : List Byte) (sys : List SysAnswer) (s : State), s.dbAwake = true ∧ s.db.tapReq = [] ∧ s.db.held = [] ∧ s.dbLevel = 0 ∧ (damFields false pl).isSome = true)
    ∧ (∃ (a : Nat) (n : Nat) (c : Nat) (pl : List Byte) (sys : List SysAnswer) (s : State) (t : State), s.dbAwake = true ∧ s.db.tapReq = [] ∧ s.db.held = [] ∧ s.dbLevel ≠ 0 ∧ s.portOpen .dam = true ∧ damFields true pl = some (0, a, n, n) ∧ t = s.windowWrite .dam a n (2 ^ n - 1) (.ofNat 64 (bytesNatOf ((pl.drop 10).take n))) ∧ c = (t.lastResp .dam).code)
    ∧ (∃ (a : Nat) (n : Nat) (x : BitVec 64) (pl : List Byte) (s : State), s.dbAwake = true ∧ s.db.tapReq = [] ∧ s.db.held = [] ∧ s.dbLevel ≠ 0 ∧ s.portOpen .dam = true ∧ damFields true pl = some (1, a, n, n))
    ∧ (∃ (pl : List Byte) (sys : List SysAnswer) (s : State), s.dbAwake = true ∧ s.db.tapReq = [] ∧ s.db.held = [] ∧ s.dbLevel = 0 ∧ (damFields true pl).isSome = true)
    ∧ (∃ (s : State), s.dbAwake = true ∧ s.db.tapReq = [] ∧ s.db.held = [] ∧ s.dbLevel = 0)
    ∧ (∃ (s : State), s.dbAwake = true ∧ s.db.tapReq = [] ∧ s.db.held = [] ∧ s.dbLevel ≠ 0)
    ∧ (∃ (c : Byte) (pl : List Byte) (s : State), s.dbAwake = true ∧ s.db.tapReq = [] ∧ s.db.held = [] ∧ goodRequest c.toNat pl = false)
    ∧ (∃ (s : State), s.dbAwake = true ∧ s.db.tapReq = [] ∧ s.db.held = [])
    ∧ (∃ (s : State), s.dbAwake = true ∧ s.db.held = [])
    ∧ (∃ (q : DbReq) (s : State), s.dbAwake = false ∧ s.pw.mode = .rest ∧ q.iface = 1 ∧ s.db.held = [q])
    ∧ (∃ (b : Byte) (q : List Byte) (s : State), s.dbAwake = true ∧ s.db.tapReq = b :: q)
    ∧ (∃ (b : Byte) (q : List Byte) (s : State), s.dbAwake = true ∧ s.db.tapReq = b :: q)
    ∧ (∃ (s : State), s.dbAwake = false ∧ s.pw.mode = .rest ∧ s.db.tapReq = [] ∧ s.db.held = [])
    ∧ (∃ (q : DbReq) (s : State), s.dbAwake = false ∧ s.pw.mode = .rest ∧ q.iface = 2 ∧ s.db.held = [q])
    ∧ (∃ (q : DbReq) (s : State), s.dbAwake = true ∧ q.iface = 2 ∧ s.db.held = [q])
    ∧ (∃ (pl : List Byte) (sys : List SysAnswer) (s : State), s.dbAwake = true ∧ s.db.tapReq = [] ∧ s.db.held = [] ∧ s.dbLevel ≠ 0 ∧ s.portOpen .dam = false ∧ s.pw.mode = .graze ∧ (damFields false pl).isSome = true)
    ∧ (∃ (pl : List Byte) (sys : List SysAnswer) (s : State), s.dbAwake = true ∧ s.db.tapReq = [] ∧ s.db.held = [] ∧ s.dbLevel ≠ 0 ∧ s.pw.mode = .reset ∧ (damFields true pl).isSome = true)
    ∧ (∃ (s : State), s.dbAwake = true ∧ s.portOpen .dam = true ∧ s.db.held = [{ iface := 1, cmd := 1 }])
    ∧ (∃ (s : State), s.dbAwake = true ∧ s.portOpen .dam = true ∧ s.db.held = [{ iface := 1, status := some 4, cmd := 1 }])
    ∧ (∃ (s : State), (s.db.held = [] ∨ s.dbAwake = false ∨ s.portOpen .dam = false))
    ∧ (∃ (s : State), s.dbAwake = false ∧ s.pw.mode = .fold) :=
  ⟨⟨run, (by decide +kernel), (by decide +kernel), (by decide +kernel)⟩,
    ⟨5, ([]), run, (by decide +kernel), (by decide +kernel), (by decide +kernel), (by decide +kernel)⟩,
    ⟨run, (by decide +kernel), (by decide +kernel), (by decide +kernel), (by decide +kernel)⟩,
    ⟨([1]), ({ run with db := { proof := some [1] } }), (by decide +kernel), (by decide +kernel), (by decide +kernel), (by decide +kernel)⟩,
    ⟨(run.setFld DB_STAT fDB_STAT_LEVEL 0), (by decide +kernel), (by decide +kernel), (by decide +kernel), (by decide +kernel)⟩,
    ⟨(run.setFld DB_STAT fDB_STAT_LEVEL 1), (by decide +kernel), (by decide +kernel), (by decide +kernel), (by decide +kernel)⟩,
    ⟨0x100, 4, ((((run.setFld DB_STAT fDB_STAT_LEVEL 2 : State)).windowRead .dam 0x100 4).2.1), ([0, 0, 1, 0, 0, 0, 0, 0, 0, 2, 4]), ([]), (run.setFld DB_STAT fDB_STAT_LEVEL 2), ((((run.setFld DB_STAT fDB_STAT_LEVEL 2 : State)).windowRead .dam 0x100 4).2.2), (by decide +kernel), (by decide +kernel), (by decide +kernel), (by decide +kernel), (by decide +kernel), (by decide +kernel), (by decide +kernel)⟩,
    ⟨0x101, 4, 2, 0, ([0, 1, 1, 0, 0, 0, 0, 0, 0, 2, 4]), ([]), (run.setFld DB_STAT fDB_STAT_LEVEL 2), ((((run.setFld DB_STAT fDB_STAT_LEVEL 2 : State)).windowRead .dam 0x101 4).2.2), (by decide +kernel), (by decide +kernel), (by decide +kernel), (by decide +kernel), (by decide +kernel), (by decide +kernel), (by decide +kernel), (by decide +kernel)⟩,
    ⟨0x100, 4, ([1, 0, 1, 0, 0, 0, 0, 0, 0, 2, 8]), ([(0, 5), (0, 6)]), (run.setFld DB_STAT fDB_STAT_LEVEL 2), (by decide +kernel), (by decide +kernel), (by decide +kernel), (by decide +kernel), (by decide +kernel), (by decide +kernel), (by decide +kernel)⟩,
    ⟨([1, 0, 1, 0, 0, 0, 0, 0, 0, 2, 8]), ([(0, 5), (0, 6)]), (run.setFld DB_STAT fDB_STAT_LEVEL 0), (by decide +kernel), (by decide +kernel), (by decide +kernel), (by decide +kernel), (by decide +kernel)⟩,
    ⟨0x8000C, 4, 0, ([0, 12, 0, 8, 0, 0, 0, 0, 0, 2, 1, 0, 0, 0]), ([]), (run.setFld DB_STAT fDB_STAT_LEVEL 2), (((run.setFld DB_STAT fDB_STAT_LEVEL 2 : State)).windowWrite .dam 0x8000C 4 15 (.ofNat 64 (bytesNatOf [1, 0, 0, 0]))), (by decide +kernel), (by decide +kernel), (by decide +kernel), (by decide +kernel), (by decide +kernel), (by decide +kernel), rfl, (by decide +kernel)⟩,
    ⟨0x100, 4, 0, ([1, 0, 1, 0, 0, 0, 0, 0, 0, 2, 1, 2, 3, 4]), (run.setFld DB_STAT fDB_STAT_LEVEL 1), (by decide +kernel), (by decide +kernel), (by decide +kernel), (by decide +kernel), (by decide +kernel), (by decide +kernel)⟩,
    ⟨([0, 0, 1, 0, 0, 0, 0, 0, 0, 2, 1, 2, 3, 4]), ([]), (run.setFld DB_STAT fDB_STAT_LEVEL 0), (by decide +kernel), (by decide +kernel), (by decide +kernel), (by decide +kernel), (by decide +kernel)⟩,
    ⟨(run.setFld DB_STAT fDB_STAT_LEVEL 0), (by decide +kernel), (by decide +kernel), (by decide +kernel), (by decide +kernel)⟩,
    ⟨(run.setFld DB_STAT fDB_STAT_LEVEL 1), (by decide +kernel), (by decide +kernel), (by decide +kernel), (by decide +kernel)⟩,
    ⟨0x31, ([]), run, (by decide +kernel), (by decide +kernel), (by decide +kernel), (by decide +kernel)⟩,
    ⟨run, (by decide +kernel), (by decide +kernel), (by decide +kernel)⟩,
    ⟨({ run with db := { status := some 0, payload := [7] } }), (by decide +kernel), (by decide +kernel)⟩,
    ⟨({ iface := 1, cmd := 1 }), ({ (run.setNat EC_WAKE_EN 0x8000) with pw := { run.pw with mode := .rest, fast := false }, db := { held := [{ iface := 1, cmd := 1 }] } }), (by decide +kernel), (by decide +kernel), (by decide +kernel), (by decide +kernel)⟩,
    ⟨0xA7, ([]), ({ run with db := { tapReq := [0xA7] } }), (by decide +kernel), (by decide +kernel)⟩,
    ⟨0xA7, ([]), ({ run with db := { tapReq := [0xA7] } }), (by decide +kernel), (by decide +kernel)⟩,
    ⟨({ (run.setNat EC_WAKE_EN 0x8000) with pw := { run.pw with mode := .rest, fast := false } }), (by decide +kernel), (by decide +kernel), (by decide +kernel), (by decide +kernel)⟩,
    ⟨({ iface := 2, cmd := 2 }), ({ (run.setNat EC_WAKE_EN 0x8000) with pw := { run.pw with mode := .rest, fast := false }, db := { held := [{ iface := 2, cmd := 2 }] } }), (by decide +kernel), (by decide +kernel), (by decide +kernel), (by decide +kernel)⟩,
    ⟨({ iface := 2, cmd := 2 }), ({ run with db := { held := [{ iface := 2, cmd := 2 }] } }), (by decide +kernel), (by decide +kernel), (by decide +kernel)⟩,
    ⟨([0, 0, 1, 0, 0, 0, 0, 0, 0, 2, 4]), ([]), ({ (run.setFld DB_STAT fDB_STAT_LEVEL 2) with pw := { run.pw with fast := false, pll := false, lockLost := true } }), (by decide +kernel), (by decide +kernel), (by decide +kernel), (by decide +kernel), (by decide +kernel), (by decide +kernel), (by decide +kernel)⟩,
    ⟨([0, 0, 1, 0, 0, 0, 0, 0, 0, 2, 1, 2, 3, 4]), ([]), ({ (run.setFld DB_STAT fDB_STAT_LEVEL 2) with pw := { run.pw with fast := false, mode := .reset } }), (by decide +kernel), (by decide +kernel), (by decide +kernel), (by decide +kernel), (by decide +kernel), (by decide +kernel)⟩,
    ⟨({ run with db := { held := [{ iface := 1, cmd := 1 }] } }), (by decide +kernel), (by decide +kernel), (by decide +kernel)⟩,
    ⟨({ run with db := { held := [{ iface := 1, status := some 4, cmd := 1 }] } }), (by decide +kernel), (by decide +kernel), (by decide +kernel)⟩,
    ⟨run, (by decide +kernel)⟩,
    ⟨({ (run.setNat EC_WAKE_EN 0x8000) with pw := { run.pw with mode := .fold, fast := false } }), (by decide +kernel), (by decide +kernel)⟩⟩

/-- States and operands that meet the hypotheses of each clause of `Unlocking`. -/
theorem test_premises_of_unlocking :
    (∃ (s : State), s.dbAwake = true ∧ s.db.tapReq = [] ∧ s.db.held = [] ∧ s.dbClosed = true)
    ∧ (∃ (s : State), s.dbAwake = true ∧ s.db.tapReq = [] ∧ s.db.held = [] ∧ s.dbClosed = false ∧ s.db.proof = none)
    ∧ (∃ (m : List Byte) (s : State), s.dbAwake = true ∧ s.db.tapReq = [] ∧ s.db.held = [] ∧ s.dbClosed = false ∧ s.db.proof = some m)
    ∧ (∃ (c : List Byte) (s : State), s.dbAwake = true ∧ s.db.tapReq = [] ∧ s.db.held = [] ∧ c.length = 212 ∧ s.dbMode < 2 ∧ s.db.proof = none)
    ∧ (∃ (c : List Byte) (s : State), s.dbAwake = true ∧ s.db.tapReq = [] ∧ s.db.held = [] ∧ c.length = 212 ∧ 2 ≤ s.dbMode)
    ∧ (∃ (m : List Byte) (s : State), s.dbAwake = true ∧ s.db.tapReq = [] ∧ s.db.held = [] ∧ m.length = 32 ∧ s.dbMode < 2 ∧ s.db.proof = none)
    ∧ (∃ (m : List Byte) (s : State), s.dbAwake = true ∧ s.db.tapReq = [] ∧ s.db.held = [] ∧ m.length = 32 ∧ 2 ≤ s.dbMode)
    ∧ (∃ (c : List Byte) (m : List Byte) (s : State), s.db.cert = c ∧ s.db.proof = some m)
    ∧ (∃ (s : State), s.db.proof = none) :=
  ⟨⟨(run.setFlag DB_STAT fDB_STAT_LOCKOUT true), (by decide +kernel), (by decide +kernel), (by decide +kernel), (by decide +kernel)⟩,
    ⟨run, (by decide +kernel), (by decide +kernel), (by decide +kernel), (by decide +kernel), (by decide +kernel)⟩,
    ⟨([1]), ({ run with db := { proof := some [1] } }), (by decide +kernel), (by decide +kernel), (by decide +kernel), (by decide +kernel), (by decide +kernel)⟩,
    ⟨(List.replicate 212 1), run, (by decide +kernel), (by decide +kernel), (by decide +kernel), (by decide +kernel), (by decide +kernel), (by decide +kernel)⟩,
    ⟨(List.replicate 212 1), (run.setFld DB_STAT fDB_STAT_MODE 2), (by decide +kernel), (by decide +kernel), (by decide +kernel), (by decide +kernel), (by decide +kernel)⟩,
    ⟨(List.replicate 32 1), run, (by decide +kernel), (by decide +kernel), (by decide +kernel), (by decide +kernel), (by decide +kernel), (by decide +kernel)⟩,
    ⟨(List.replicate 32 1), (run.setFld DB_STAT fDB_STAT_MODE 3), (by decide +kernel), (by decide +kernel), (by decide +kernel), (by decide +kernel), (by decide +kernel)⟩,
    ⟨([1]), ([1]), ({ run with db := { proof := some [1], cert := [1] } }), (by decide +kernel), (by decide +kernel)⟩,
    ⟨run, (by decide +kernel)⟩⟩

/-- States and operands that meet the hypotheses of each clause of `TapInstructions`. -/
theorem test_premises_of_tap_instructions :
    (∃ (i : Nat) (s : State), i = s.fld ID_REVISION fID_REVISION_MAJOR % 16 * 2 ^ 28 + 0x0064 * 2 ^ 12 + s.fuse 770 11 * 2 + 1)
    ∧ (∃ (i : Nat) (s : State), i = s.fld ID_REVISION fID_REVISION_MAJOR % 16 * 2 ^ 28 + 0x0064 * 2 ^ 12 + s.fuse 770 11 * 2 + 1 ∧ s.dbAwake = true)
    ∧ (∃ (s : State), s.dbAwake = true)
    ∧ (∃ (s : State), s.dbAwake = true)
    ∧ (∃ (s : State), s.dbAwake = true)
    ∧ (∃ (s : State), s.dbAwake = true)
    ∧ (∃ (s : State), s.dbAwake = true)
    ∧ (∃ (s : State), s.dbAwake = false)
    ∧ (∃ (dr : BitVec 9) (sys : List SysAnswer) (s : State), s.dbAwake = true ∧ 2 ≤ s.dbMode)
    ∧ (∃ (dr : BitVec 9) (sys : List SysAnswer) (s : State), s.dbAwake = true ∧ bitOf dr.toNat 8 = false ∧ s.dbMode < 2 ∧ s.db.tapRsp = [])
    ∧ (∃ (dr : BitVec 9) (b : Byte) (q : List Byte) (sys : List SysAnswer) (s : State), s.dbAwake = true ∧ bitOf dr.toNat 8 = false ∧ s.dbMode < 2 ∧ s.db.tapRsp = b :: q)
    ∧ (∃ (dr : BitVec 9) (s : State), s.dbAwake = true ∧ bitOf dr.toNat 8 = true ∧ dr.toNat ≠ 0x1A7 ∧ s.dbMode < 2 ∧ s.db.tapRsp = [] ∧ s.db.tapReq = [])
    ∧ (∃ (s : State), s.dbAwake = true ∧ s.dbMode < 2 ∧ s.db.tapRsp = [] ∧ s.db.tapReq = [])
    ∧ (∃ (body : List Byte) (s : State), s.dbMode < 2 ∧ s.db.tapRsp = [] ∧ s.db.tapReq = [0xA7, 0x01, 0x00] ∧ s.db.held = [] ∧ s.dbAwake = true ∧ body = [0, 16] ++ s.identBytes)
    ∧ (∃ (s : State), s.dbAwake = true ∧ s.dbMode < 2 ∧ ((s.dbLevel = 2 ∨ s.dbMode = 0)))
    ∧ (∃ (s : State), s.dbAwake = true ∧ s.dbMode < 2 ∧ ((s.dbLevel = 2 ∨ s.dbMode = 0)))
    ∧ (∃ (s : State), s.dbAwake = true ∧ s.dbMode < 2 ∧ ((s.dbLevel = 2 ∨ s.dbMode = 0)) ∧ s.db.scan = true)
    ∧ (∃ (s : State), s.dbAwake = true ∧ s.dbMode < 2 ∧ ((s.dbLevel = 2 ∨ s.dbMode = 0)) ∧ s.db.bist = true)
    ∧ (∃ (dr : BitVec 9) (sys : List SysAnswer) (s : State) (u : State), s.dbAwake = false ∧ u = (s.wakeSet 15 s.wakeStamp false).wakeCheck ∧ s.dbMode < 2 ∧ u.dbMode < 2 ∧ u.db.tapRsp = [] ∧ bitOf dr.toNat 8 = false)
    ∧ (∃ (e : Bool) (s : State), s.dbAwake = true ∧ s.dbMode = 1 ∧ s.dbLevel ≠ 2)
    ∧ (∃ (e : Bool) (s : State), s.dbAwake = true ∧ s.dbMode = 1 ∧ s.dbLevel ≠ 2) :=
  ⟨⟨0x64001, (run.setNat ID_REVISION 0), (by decide +kernel)⟩,
    ⟨0x64001, (run.setNat ID_REVISION 0), (by decide +kernel), (by decide +kernel)⟩,
    ⟨run, (by decide +kernel)⟩,
    ⟨run, (by decide +kernel)⟩,
    ⟨run, (by decide +kernel)⟩,
    ⟨run, (by decide +kernel)⟩,
    ⟨run, (by decide +kernel)⟩,
    ⟨({ (run.setNat EC_WAKE_EN 0x8000) with pw := { run.pw with mode := .rest, fast := false } }), (by decide +kernel)⟩,
    ⟨0x1A7, (List.replicate 128 (0, 0)), (run.setFld DB_STAT fDB_STAT_MODE 2), (by decide +kernel), (by decide +kernel)⟩,
    ⟨0xA7, ([]), run, (by decide +kernel), (by decide +kernel), (by decide +kernel), (by decide +kernel)⟩,
    ⟨0xA7, 0x5C, ([1]), ([]), ({ run with db := { tapRsp := [0x5C, 1] } }), (by decide +kernel), (by decide +kernel), (by decide +kernel), (by decide +kernel)⟩,
    ⟨0x1A6, run, (by decide +kernel), (by decide +kernel), (by decide +kernel), (by decide +kernel), (by decide +kernel), (by decide +kernel)⟩,
    ⟨run, (by decide +kernel), (by decide +kernel), (by decide +kernel), (by decide +kernel)⟩,
    ⟨([0, 16] ++ (({ run with db := { tapReq := [0xA7, 0x01, 0x00] } } : State)).identBytes), ({ run with db := { tapReq := [0xA7, 0x01, 0x00] } }), (by decide +kernel), (by decide +kernel), (by decide +kernel), (by decide +kernel), (by decide +kernel), (by decide +kernel)⟩,
    ⟨(run.setFld DB_STAT fDB_STAT_LEVEL 2), (by decide +kernel), (by decide +kernel), (by decide +kernel)⟩,
    ⟨(run.setFld DB_STAT fDB_STAT_LEVEL 2), (by decide +kernel), (by decide +kernel), (by decide +kernel)⟩,
    ⟨({ run with db := { scan := true } }), (by decide +kernel), (by decide +kernel), (by decide +kernel), (by decide +kernel)⟩,
    ⟨({ run with db := { bist := true } }), (by decide +kernel), (by decide +kernel), (by decide +kernel), (by decide +kernel)⟩,
    ⟨0xA7, ([]), ({ (run.setNat EC_WAKE_EN 0x8000) with pw := { run.pw with mode := .rest, fast := false } }), (((({ (run.setNat EC_WAKE_EN 0x8000) with pw := { run.pw with mode := .rest, fast := false } } : State)).wakeSet 15 (({ (run.setNat EC_WAKE_EN 0x8000) with pw := { run.pw with mode := .rest, fast := false } } : State)).wakeStamp false).wakeCheck), (by decide +kernel), rfl, (by decide +kernel), (by decide +kernel), (by decide +kernel), (by decide +kernel)⟩,
    ⟨true, ((run.setFld DB_STAT fDB_STAT_MODE 1).setFld DB_STAT fDB_STAT_LEVEL 0), (by decide +kernel), (by decide +kernel), (by decide +kernel)⟩,
    ⟨true, ((run.setFld DB_STAT fDB_STAT_MODE 1).setFld DB_STAT fDB_STAT_LEVEL 0), (by decide +kernel), (by decide +kernel), (by decide +kernel)⟩⟩

/-- States and operands that meet the hypotheses of each clause of `RunControl`. -/
theorem test_premises_of_run_control :
    (∃ (p : Port) (pe : Fin 128) (v : Word) (s : State) (t : State), v = .ofNat 32 (2 ^ 30 + pe.val) ∧ s.takes p DB_ECMD v = true ∧ t = s.logged p DB_ECMD v ∧ t.mayHalt = true ∧ pe.val < 72 ∧ t.leState pe ≠ 0 ∧ t.leState pe ≠ 3 ∧ t.inDrove pe = false ∧ (t.eng pe).halted = false ∧ (t.running pe).isSome = true)
    ∧ (∃ (p : Port) (pe : Fin 128) (v : Word) (s : State) (t : State), v = .ofNat 32 (2 ^ 30 + pe.val) ∧ s.takes p DB_ECMD v = true ∧ t = s.logged p DB_ECMD v ∧ t.mayHalt = true ∧ pe.val < 72 ∧ t.leState pe ≠ 0 ∧ t.leState pe ≠ 3 ∧ t.inDrove pe = false ∧ (t.eng pe).halted = false ∧ (t.running pe).isSome = false)
    ∧ (∃ (p : Port) (pe : Fin 128) (v : Word) (s : State) (t : State), v = .ofNat 32 (2 ^ 30 + pe.val) ∧ s.takes p DB_ECMD v = true ∧ t = s.logged p DB_ECMD v ∧ ((t.mayHalt = false ∨ 72 ≤ pe.val ∨ t.leState pe = 0 ∨ t.leState pe = 3 ∨ t.inDrove pe = true)))
    ∧ (∃ (pe : Fin 72) (k : Nat) (s : State), s.live = true ∧ (s.eng pe).haltReq = true ∧ s.running pe = some k ∧ (s.bank pe (s.slotPri pe k)).micro.mid ≠ 2)
    ∧ (∃ (pe : Fin 72) (s : State), s.live = true ∧ (s.eng pe).haltReq = true ∧ s.running pe = none)
    ∧ (∃ (pe : Fin 72) (s : State), (s.eng pe).haltReq = false)
    ∧ (∃ (p : Port) (pe : Fin 128) (v : Word) (s : State) (t : State), v = .ofNat 32 (2 * 2 ^ 30 + pe.val) ∧ s.takes p DB_ECMD v = true ∧ t = s.logged p DB_ECMD v ∧ t.mayHalt = true ∧ pe.val < 72 ∧ (t.eng pe).halted = true)
    ∧ (∃ (p : Port) (pe : Fin 128) (v : Word) (s : State) (t : State), v = .ofNat 32 (3 * 2 ^ 30 + pe.val) ∧ s.takes p DB_ECMD v = true ∧ t = s.logged p DB_ECMD v ∧ t.mayHalt = true ∧ pe.val < 72 ∧ (t.eng pe).halted = true)
    ∧ (∃ (p : Port) (pe : Fin 128) (v : Word) (s : State) (t : State), v = .ofNat 32 (3 * 2 ^ 30 + pe.val) ∧ s.takes p DB_ECMD v = true ∧ t = s.logged p DB_ECMD v ∧ ((t.mayHalt = false ∨ 72 ≤ pe.val ∨ (t.eng pe).halted = false)))
    ∧ (∃ (p : Port) (v : Word) (s : State), s.takes p DB_FREEZE v = true ∧ (s.logged p DB_FREEZE v).mayHalt = true)
    ∧ (∃ (p : Port) (v : Word) (s : State), s.takes p DB_FREEZE v = true ∧ (s.logged p DB_FREEZE v).mayHalt = false)
    ∧ (∃ (p : Port) (s : State) (t : State), s.takes p DB_BHALT 1 = true ∧ t = s.logged p DB_BHALT 1 ∧ t.flag DB_STAT fDB_STAT_BHALT = false ∧ ((t.dbLevel = 2 ∨ t.dbMode = 0)) ∧ ((t.db.hold = true ∨ t.flag DB_POLICY fDB_POLICY_BLKHALT = true ∨ t.fld RC_BOOT fRC_BOOT_STAGE ∈ [1, 2, 3, 4, 5, 6, 8])) ∧ t.pw.bhalt = false ∧ t.pw.fast = true)
    ∧ (∃ (p : Port) (s : State) (t : State), s.takes p DB_BHALT 1 = true ∧ t = s.logged p DB_BHALT 1 ∧ t.flag DB_STAT fDB_STAT_BHALT = false ∧ t.dbLevel ≠ 2 ∧ t.dbMode ≠ 0)
    ∧ (∃ (p : Port) (s : State) (t : State), s.admits p DB_BHALT 0 = true ∧ t = s.logged p DB_BHALT 0 ∧ t.flag DB_STAT fDB_STAT_BHALT = true ∧ t.pw.bhalt = true ∧ s.word p DB_BHALT 0 = 0 ∧ ((t.dbLevel = 2 ∨ t.dbMode = 0)))
    ∧ (∃ (p : Port) (s : State), s.takes p DB_BHALT 0 = true ∧ (s.logged p DB_BHALT 0).flag DB_STAT fDB_STAT_BHALT = false) :=
  ⟨⟨.dam, 3, (.ofNat 32 (2 ^ 30 + ((3 : Fin 128)).val)), (krun.setFld DB_STAT fDB_STAT_LEVEL 2), (((krun.setFld DB_STAT fDB_STAT_LEVEL 2 : State)).logged ((.dam : Port)) DB_ECMD ((.ofNat 32 (2 ^ 30 + ((3 : Fin 128)).val) : Word))), (by decide +kernel), (by decide +kernel), rfl, (by decide +kernel), (by decide +kernel), (by decide +kernel), (by decide +kernel), (by decide +kernel), (by decide +kernel), (by decide +kernel)⟩,
    ⟨.dam, 71, (.ofNat 32 (2 ^ 30 + ((71 : Fin 128)).val)), ((run.setFld DB_STAT fDB_STAT_LEVEL 2).setNat (LE_CTRL 71) 1), ((((run.setFld DB_STAT fDB_STAT_LEVEL 2).setNat (LE_CTRL 71) 1 : State)).logged ((.dam : Port)) DB_ECMD ((.ofNat 32 (2 ^ 30 + ((71 : Fin 128)).val) : Word))), (by decide +kernel), (by decide +kernel), rfl, (by decide +kernel), (by decide +kernel), (by decide +kernel), (by decide +kernel), (by decide +kernel), (by decide +kernel), (by decide +kernel)⟩,
    ⟨.dam, 72, (.ofNat 32 (2 ^ 30 + ((72 : Fin 128)).val)), (run.setFld DB_STAT fDB_STAT_LEVEL 2), (((run.setFld DB_STAT fDB_STAT_LEVEL 2 : State)).logged ((.dam : Port)) DB_ECMD ((.ofNat 32 (2 ^ 30 + ((72 : Fin 128)).val) : Word))), (by decide +kernel), (by decide +kernel), rfl, (by decide +kernel)⟩,
    ⟨3, 0, (krun.setEng 3 { krun.eng 3 with haltReq := true }), (by decide +kernel), (by decide +kernel), (by decide +kernel), (by decide +kernel)⟩,
    ⟨4, (krun.setEng 4 { krun.eng 4 with haltReq := true, step := true }), (by decide +kernel), (by decide +kernel), (by decide +kernel)⟩,
    ⟨3, krun, (by decide +kernel)⟩,
    ⟨.dam, 3, (.ofNat 32 (2 * 2 ^ 30 + ((3 : Fin 128)).val)), ((krun.setFld DB_STAT fDB_STAT_LEVEL 2).setEng 3 { krun.eng 3 with halted := true }), ((((krun.setFld DB_STAT fDB_STAT_LEVEL 2).setEng 3 { krun.eng 3 with halted := true } : State)).logged ((.dam : Port)) DB_ECMD ((.ofNat 32 (2 * 2 ^ 30 + ((3 : Fin 128)).val) : Word))), (by decide +kernel), (by decide +kernel), rfl, (by decide +kernel), (by decide +kernel), (by decide +kernel)⟩,
    ⟨.dam, 3, (.ofNat 32 (3 * 2 ^ 30 + ((3 : Fin 128)).val)), ((krun.setFld DB_STAT fDB_STAT_LEVEL 2).setEng 3 { krun.eng 3 with halted := true }), ((((krun.setFld DB_STAT fDB_STAT_LEVEL 2).setEng 3 { krun.eng 3 with halted := true } : State)).logged ((.dam : Port)) DB_ECMD ((.ofNat 32 (3 * 2 ^ 30 + ((3 : Fin 128)).val) : Word))), (by decide +kernel), (by decide +kernel), rfl, (by decide +kernel), (by decide +kernel), (by decide +kernel)⟩,
    ⟨.dam, 3, (.ofNat 32 (3 * 2 ^ 30 + ((3 : Fin 128)).val)), (krun.setFld DB_STAT fDB_STAT_LEVEL 2), (((krun.setFld DB_STAT fDB_STAT_LEVEL 2 : State)).logged ((.dam : Port)) DB_ECMD ((.ofNat 32 (3 * 2 ^ 30 + ((3 : Fin 128)).val) : Word))), (by decide +kernel), (by decide +kernel), rfl, (by decide +kernel)⟩,
    ⟨.dam, 0x80000000, (run.setFld DB_STAT fDB_STAT_LEVEL 2), (by decide +kernel), (by decide +kernel)⟩,
    ⟨.dam, 0x80000000, (run.setFld DB_STAT fDB_STAT_LEVEL 1), (by decide +kernel), (by decide +kernel)⟩,
    ⟨.dam, ((run.setFld DB_STAT fDB_STAT_LEVEL 2).setFlag DB_POLICY fDB_POLICY_BLKHALT true), ((((run.setFld DB_STAT fDB_STAT_LEVEL 2).setFlag DB_POLICY fDB_POLICY_BLKHALT true : State)).logged ((.dam : Port)) DB_BHALT 1), (by decide +kernel), rfl, (by decide +kernel), (by decide +kernel), (by decide +kernel), (by decide +kernel), (by decide +kernel)⟩,
    ⟨.dam, ((run.setFld DB_STAT fDB_STAT_LEVEL 1).setFld DB_STAT fDB_STAT_MODE 1), ((((run.setFld DB_STAT fDB_STAT_LEVEL 1).setFld DB_STAT fDB_STAT_MODE 1 : State)).logged ((.dam : Port)) DB_BHALT 1), (by decide +kernel), rfl, (by decide +kernel), (by decide +kernel), (by decide +kernel)⟩,
    ⟨.dam, ({ ((run.setFld DB_STAT fDB_STAT_LEVEL 2).setFlag DB_STAT fDB_STAT_BHALT true).setFlag DB_BHALT fDB_BHALT_REQ true with pw := { run.pw with fast := false, bhalt := true } }), ((({ ((run.setFld DB_STAT fDB_STAT_LEVEL 2).setFlag DB_STAT fDB_STAT_BHALT true).setFlag DB_BHALT fDB_BHALT_REQ true with pw := { run.pw with fast := false, bhalt := true } } : State)).logged ((.dam : Port)) DB_BHALT 0), (by decide +kernel), rfl, (by decide +kernel), (by decide +kernel), (by decide +kernel), (by decide +kernel)⟩,
    ⟨.dam, (run.setFld DB_STAT fDB_STAT_LEVEL 2), (by decide +kernel), (by decide +kernel)⟩⟩

end Sys2Proof.Tests
end

section
/-!
Proofs about the scope of the block: what a power-on reset leaves (00_scope.md R9), what a read answers while a word is latched
(02_tally_time.md R60), and how the reset sources are counted and served (19_reset_power_startup.md R468 to R473).
-/

namespace Sys2Proof.Machine

/-! ### What a reset restores of the registers (00_scope.md R9) -/

section
variable {α : Type} [DecidableEq α]

theorem tget_of_twfFrom_le (d : Nat → α) (t : List (Nat × α)) {lo k : Nat} (h : twfFrom d (some lo) t = true) (hk : k ≤ lo) :
    tget d t k = d k := by
  induction t generalizing lo with
  | nil => rfl
  | cons e t ih =>
    obtain ⟨j, w⟩ := e
    simp only [twfFrom, Bool.and_eq_true, decide_eq_true_eq] at h
    obtain ⟨⟨hj, -⟩, ht⟩ := h
    rw [tget, if_neg (by omega), ih ht (by omega)]

theorem tget_tmap_from (d : Nat → α) (f : Nat → α → α) (t : List (Nat × α)) {k : Nat} (hd : f k (d k) = d k) {lo : Option Nat}
    (h : twfFrom d lo t = true) : tget d (tmap d f t) k = f k (tget d t k) := by
  induction t generalizing lo with
  | nil => exact hd.symm
  | cons e t ih =>
    obtain ⟨j, w⟩ := e
    simp only [twfFrom, Bool.and_eq_true] at h
    by_cases hjk : j = k
    · subst hjk
      have rest : tget d (tmap d f t) j = d j := tget_of_twfFrom_le d _ (twfFrom_tmap d f t _ h.2) le_rfl
      by_cases hw : f j w = d j
      · simp [tmap, tget, hw, rest]
      · simp [tmap, tget, hw]
    · by_cases hw : f j w = d j <;> simp [tmap, tget, hw, hjk, ih h.2]

/-- A mapped canonical table reads as the map of what the table reads, where the map keeps the default. -/
theorem tget_tmap (d : Nat → α) (f : Nat → α → α) (t : List (Nat × α)) {k : Nat} (hd : f k (d k) = d k) (h : twf d t = true) :
    tget d (tmap d f t) k = f k (tget d t k) := tget_tmap_from d f t hd h
end

/-- A word is made of its bits outside a mask and those in it. -/
theorem and_not_or_and (x m : Word) : (x &&& ~~~m) ||| (x &&& m) = x := by
  ext i hi
  simp only [BitVec.getElem_or, BitVec.getElem_and, BitVec.getElem_not]
  cases x[i] <;> cases m[i] <;> rfl

/-- The restored fields of a register take their reset values and the others keep theirs. -/
theorem reg_restoreRegs (s : State) (l off : Nat) (h : twf regReset s.regs = true) :
    (s.restoreRegs l).reg off = (s.reg off &&& ~~~(resetMask l off)) ||| (regReset off &&& resetMask l off) :=
  tget_tmap regReset _ s.regs (and_not_or_and _ _) h

/-! ### A source is counted (19_reset_power_startup.md R472) -/

/-- A saturating count changes the registers and what the fc remembers of them, and keeps the register table canonical. -/
theorem incSat_eq (s : State) (o : Nat) (f : Fld) : ∃ (r h : List (Nat × Word)), s.incSat o f = { s with regs := r, hot := h }
    ∧ (twf regReset s.regs = true → twf regReset r = true) := by
  unfold State.incSat
  split
  · exact ⟨_, _, rfl, setReg_wf s _ _⟩
  · exact ⟨_, _, rfl, id⟩

theorem countSource_eq (s : State) (src : Nat) : ∃ (r h : List (Nat × Word)), s.countSource src = { s with regs := r, hot := h }
    ∧ (twf regReset s.regs = true → twf regReset r = true) := incSat_eq _ _ _

theorem reg_countSource_ne (s : State) (src : Nat) {off : Nat} (h : off ≠ RC_RSTCNT (src / 2)) :
    (s.countSource src).reg off = s.reg off := reg_incSat_ne _ _ _ _ h

/-! ### A reset served from Graze (R470, R471) -/

theorem optLoading_graze {s : State} (h : s.pw.mode = .graze) : s.optLoading = false := by simp [State.optLoading, h]

/-- With no entry of the present fc there is none to commit. -/
theorem jCommit_idle {s : State} (h : s.jn.fresh = []) : s.jCommit = s := by
  have e : ({ s with jn.fresh := [] } : State) = s := by rw [← h]
  simp [State.jCommit, h, e]

/-- The journal without the entries that have not reached the ring. -/
def State.jEmptied (s : State) : State :=
  { s.incBy JN_INPUT_LOST (s.jn.input.length + s.jn.wbuf.length) with jn := { s.jn with fresh := [], input := [], wbuf := [], burst := 0 } }

theorem jLoseAll_idle {s : State} (h : s.jn.fresh = []) : s.jLoseAll = s.jEmptied := by
  rw [State.jLoseAll, jCommit_idle h]
  rfl

/-- The fast side and the registers as an L2 or L3 reset served from Graze leaves them. -/
def State.resetCleared (s : State) (code src l : Nat) : State :=
  let t := (s.restoreRegs l).jEmptied.clearCore
  let t := (t.setFlag PM_STAT fPM_STAT_PFAIL s.pw.failLow).setFlag TB_STAT fTB_STAT_SRC false
  (t.setFlag RS_RCO fRS_RCO_SEL (t.flag RS_RCO fRS_RCO_AFAIL)).loadCause code l src (2 ^ src)

/-- The reset mode is entered: the clock stops and what the power controller was about ends. -/
def State.enterReset (s : State) (l src : Nat) (hold : Bool) : State :=
  { s with tb.hold := hold, db.held := [], pw := { s.pw with
      mode := .reset, level := l, source := src, fast := false, pllReq := s.pw.pllReq || decide (l < 3)
      coreReq := true, memReq := true, jrnReq := true, retReq := false, iso := false
      entry := 0, emu := false, down := false, up := false, bhalt := false, lockLost := false
      heldRst := [], l1End := none, tlcmd := none, hostHeld := [] } }

/-- A reset served from Graze finds no other in force: it is served at its own level and is the only source that asserted. -/
theorem serveReset_graze {s : State} (code src l : Nat) (hm : s.pw.mode = .graze) (hf : s.jn.fresh = []) (hl : l ≤ 3) :
    s.serveReset code src l = (s.resetCleared code src l).enterReset l src (s.flag TB_STAT fTB_STAT_SRC || s.tb.hold) := by
  unfold State.serveReset
  extract_lets hold inReset busy lv first prev prevCode s1 s2 s3 s4 s5 s6 s7 s8
  have hlv : lv = l := by simp [lv, busy, inReset, hm]
  have hfirst : first = src := by simp [first, inReset, hm]
  have hprev : prev = 0 := by simp [prev, inReset, hm]
  have hs2 : s2 = s := by simp only [s2, s1, optLoading_graze hm, Bool.false_eq_true, if_false, jCommit_idle hf]
  have hs4 : s4 = (s.restoreRegs l).jEmptied.clearCore := by
    have hf' : (s.restoreRegs l).jn.fresh = [] := hf
    simp only [s4, s3, hs2, hlv, Nat.min_eq_left hl, jLoseAll_idle hf']
  have hs8 : s8 = s.resetCleared code src l := by
    have h0 : bitOf 0 src = false := by simp [bitOf]
    simp only [s8, s7, s6, s5, hs4, hlv, hfirst, hprev, h0, if_true, Bool.false_eq_true, if_false, Nat.zero_add]
    rfl
  change s8.enterReset lv first hold = _
  rw [hs8, hlv, hfirst]

theorem reg_resetCleared {s : State} (code src l : Nat) (h : twf regReset s.regs = true) {off : Nat}
    (hoff : off ∉ [RC_RST_CAUSE, JN_INPUT_LOST, PM_STAT, TB_STAT, RS_RCO]) :
    (s.resetCleared code src l).reg off = (s.reg off &&& ~~~(resetMask l off)) ||| (regReset off &&& resetMask l off) := by
  simp only [List.mem_cons, List.not_mem_nil, or_false, not_or] at hoff
  obtain ⟨hcause, hlost, hpm, htb, hrco⟩ := hoff
  unfold State.resetCleared
  extract_lets t u
  calc ((u.setFlag RS_RCO fRS_RCO_SEL (u.flag RS_RCO fRS_RCO_AFAIL)).loadCause code l src (2 ^ src)).reg off
      = u.reg off := by rw [State.loadCause, reg_setNat_ne _ _ _ _ hcause, reg_setFlag_ne _ _ _ _ _ hrco]
    _ = t.reg off := by rw [reg_setFlag_ne _ _ _ _ _ htb, reg_setFlag_ne _ _ _ _ _ hpm]
    _ = (s.restoreRegs l).reg off := reg_setReg_ne _ _ _ _ hlost
    _ = _ := reg_restoreRegs s l off h

theorem reg_resetCleared_cause (s : State) (code src l : Nat) :
    (s.resetCleared code src l).reg RC_RST_CAUSE = .ofNat 32 (code * 2 ^ 28 + min l 3 * 2 ^ 24 + src * 2 ^ 16 + 2 ^ src) :=
  reg_setReg_same _ _ _

/-- What the reset leaves beside the registers. -/
theorem resetCleared_frame (s : State) (code src l : Nat) :
    (s.resetCleared code src l).tb.a = s.tb.a ∧ (s.resetCleared code src l).mem = s.mem
      ∧ (s.resetCleared code src l).engs = s.engs.map (fun e => (e.1, { banks := e.2.keptBanks }))
      ∧ (s.resetCleared code src l).jn.input = [] ∧ (s.resetCleared code src l).fuses = s.fuses
      ∧ (s.resetCleared code src l).fold = s.fold := by
  simp only [State.resetCleared, State.loadCause, setNat_tb, setNat_mem, setNat_engs, setNat_jn, setNat_fuses, setNat_fold,
    setFlag_tb, setFlag_mem, setFlag_engs, setFlag_jn, setFlag_fuses, setFlag_fold]
  exact ⟨rfl, rfl, rfl, rfl, rfl, rfl⟩

theorem reg_enterReset (s : State) (l src : Nat) (hold : Bool) (off : Nat) : (s.enterReset l src hold).reg off = s.reg off := rfl

/-! ### Serving a source in Graze (R470, R472) -/

theorem serveL0_dropped {s : State} (code src : Nat) (h : s.fld FLK_GCFG fFLK_GCFG_L0MASK = 0) :
    s.serveL0 code src = s.inc RC_RST_DROPPED := by
  rw [State.serveL0, if_pos h]

theorem serveL0_flocks {s : State} (code src : Nat) (h : s.fld FLK_GCFG fFLK_GCFG_L0MASK ≠ 0) :
    s.serveL0 code src = forN (fun f u => if bitOf (s.fld FLK_GCFG fFLK_GCFG_L0MASK) f then u.flockReset f (4 + src * 256) else u) 16
      ((s.loadCause code 0 src (2 ^ src)).setReg64 RC_RST_STAMP_LO RC_RST_STAMP_HI s.now) := by
  rw [State.serveL0, if_neg h]

theorem takeReset_graze_L0 {s : State} (src : Nat) (hm : s.pw.mode = .graze) : s.takeReset src 1 = s.serveL0 1 src := by
  simp [State.takeReset, hm]

theorem takeReset_graze_L1 {s : State} (src : Nat) (hm : s.pw.mode = .graze) : s.takeReset src 2 = s.serveL1 2 src := by
  simp [State.takeReset, hm]

theorem takeReset_graze_core {s : State} (src : Nat) (hm : s.pw.mode = .graze) {l : Nat} (h2 : 2 ≤ l) (h3 : l ≤ 3) :
    s.takeReset src (l + 1) = s.serveReset (l + 1) src l := by
  have h5 : l + 1 ≠ 5 := by omega
  have h0 : l ≠ 0 := by omega
  have h1 : l ≠ 1 := by omega
  simp [State.takeReset, hm, h5, h0, h1]

/-! ### RST_N (R468, R472) -/

section
variable {s t : State} (ht : t = State.countSource { s with pw.rstLow := true } 1)
include ht

theorem exec_pinReset_held (h : t.pw.lg.phase ≠ 0) :
    exec .pinReset s = .next { t with pw.heldRst := t.pw.heldRst ++ [1 + 16 * t.levelCode 1] } := by
  subst ht
  exact congrArg Host.Outcome.next (if_pos h)

theorem exec_pinReset_taken (h : t.pw.lg.phase = 0) : exec .pinReset s = .next (t.takeReset 1 (t.levelCode 1)) := by
  subst ht
  exact congrArg Host.Outcome.next (if_neg (not_not_intro h))

/-- RST_N served at L2 or L3 in Graze. -/
theorem exec_pinReset_core {l : Nat} (hm : s.pw.mode = .graze) (hf : s.jn.fresh = [])
    (hp : t.pw.lg.phase = 0) (hl : t.levelCode 1 = l + 1) (h2 : 2 ≤ l) (h3 : l ≤ 3) :
    exec .pinReset s = .next ((t.resetCleared (l + 1) 1 l).enterReset l 1 (t.flag TB_STAT fTB_STAT_SRC || t.tb.hold)) := by
  obtain ⟨r, h, e, -⟩ := countSource_eq { s with pw.rstLow := true } 1
  have hm' : t.pw.mode = .graze := by rw [ht, e]; exact hm
  have hf' : t.jn.fresh = [] := by rw [ht, e]; exact hf
  rw [exec_pinReset_taken ht hp, hl, takeReset_graze_core 1 hm' h2 h3, serveReset_graze _ _ _ hm' hf' h3]

/-- What RST_N served at L2 or L3 leaves: the power controller by `enterReset`, the rest by `resetCleared`. -/
theorem pinReset_core_leaves {l : Nat} (hold : Bool) (hc : twf regReset s.regs = true) (h3 : l ≤ 3) :
    let u := (t.resetCleared (l + 1) 1 l).enterReset l 1 hold
    u.pw.mode = .reset ∧ u.pw.level = l ∧ u.pw.source = 1 ∧ u.pw.fast = false ∧ u.pw.entry = 0 ∧ u.tb.a = s.tb.a
      ∧ u.mem = s.mem ∧ u.engs = s.engs.map (fun e => (e.1, { banks := e.2.keptBanks })) ∧ u.jn.input = [] ∧ u.fuses = s.fuses
      ∧ u.fold = s.fold ∧ u.reg RC_RST_CAUSE = .ofNat 32 ((l + 1) * 2 ^ 28 + l * 2 ^ 24 + 2 ^ 16 + 2)
      ∧ (∀ off, off ∉ [RC_RSTCNT 0, RC_RST_CAUSE, JN_INPUT_LOST, PM_STAT, TB_STAT, RS_RCO] →
        u.reg off = (s.reg off &&& ~~~(resetMask l off)) ||| (regReset off &&& resetMask l off)) := by
  intro u
  obtain ⟨r, h, e, hr⟩ := countSource_eq { s with pw.rstLow := true } 1
  rw [← ht] at e
  obtain ⟨htb, hmem, hengs, hin, hfuses, hfold⟩ := resetCleared_frame t (l + 1) 1 l
  have hreg (off : Nat) : u.reg off = (t.resetCleared (l + 1) 1 l).reg off := reg_enterReset _ _ _ _ _
  have hcause : u.reg RC_RST_CAUSE = .ofNat 32 ((l + 1) * 2 ^ 28 + l * 2 ^ 24 + 2 ^ 16 + 2) := by
    simp only [hreg, reg_resetCleared_cause, Nat.min_eq_left h3, Nat.one_mul, pow_one]
  have hkept (off : Nat) (hoff : off ∉ [RC_RSTCNT 0, RC_RST_CAUSE, JN_INPUT_LOST, PM_STAT, TB_STAT, RS_RCO]) :
      u.reg off = (s.reg off &&& ~~~(resetMask l off)) ||| (regReset off &&& resetMask l off) := by
    have hcnt : off ≠ RC_RSTCNT 0 := List.ne_of_not_mem_cons hoff
    have hrest := List.not_mem_of_not_mem_cons hoff
    have hct : twf regReset t.regs = true := by rw [e]; exact hr hc
    have hcount : t.reg off = s.reg off := by rw [ht]; exact reg_countSource_ne _ 1 hcnt
    rw [hreg, reg_resetCleared _ _ _ hct hrest, hcount]
  exact ⟨rfl, rfl, rfl, rfl, rfl, htb.trans (by rw [e]), hmem.trans (by rw [e]), hengs.trans (by rw [e]), hin,
    hfuses.trans (by rw [e]), hfold.trans (by rw [e]), hcause, hkept⟩
end

/-! ### RC_SWRST (R473) -/

theorem rcWrite_swrst (s : State) (m : Master) (v st : Word) : s.rcWrite m RC_SWRST v st =
    if vfld v 16 16 = 0xA5C3 ∧ m.who = 2 then s.assertReset 4 none
    else if vfld v 16 16 = 0xA5C3 ∧ m.who = 1 then s.assertReset 5 none
    else s.inc RC_RSVD_WRITES := by
  rw [State.rcWrite, if_pos rfl]

theorem exec_rcSwrst {s : State} {p : Port} {v : Word} (h : s.takes p RC_SWRST v = true) :
    exec (.rcSwrst p v) s = .next (s.after p RC_SWRST v (fun u =>
      if vfld v 16 16 = 0xA5C3 ∧ (s.master p).who = 2 then u.assertReset 4 none
      else if vfld v 16 16 = 0xA5C3 ∧ (s.master p).who = 1 then u.assertReset 5 none
      else u.inc RC_RSVD_WRITES)) := by
  obtain ⟨hadm, hword⟩ := takes_iff.mp h
  change regCmd p RC_SWRST v s = _
  simp only [regCmd_RC_SWRST hadm, hword, rcWrite_swrst]

/-! ### The armed Tally Link reset (R473) -/

theorem exec_tlcmd_live {s : State} (h : s.live = true) : exec .tlcmd s = .next s.tlcmdDue :=
  congrArg Host.Outcome.next (if_pos h)

theorem exec_tlcmd_idle {s : State} (h : s.tlcmdDue = s) : exec .tlcmd s = .next s := by
  change Host.Outcome.next (if s.live then s.tlcmdDue else s) = _
  rw [h, ite_self]

/-! ### Power-on (00_scope.md R9, 19_reset_power_startup.md R470) -/

theorem reg_reset (off : Nat) : State.reset.reg off = regReset off := rfl

theorem byte_reset (a : Nat) : State.reset.byte a = 0 := rfl

theorem poisoned_reset (a : Nat) : State.reset.poisoned a = false := rfl

theorem regReset_ID_PART : regReset ID_PART = 0xD7A10064 := by decide +kernel

theorem regReset_ID_REVISION : regReset ID_REVISION = 0x01000001 := by decide +kernel

theorem regReset_ID_ROMCODE : regReset ID_ROMCODE = 0x00010000 := by decide +kernel

theorem regReset_RC_RST_CAUSE : regReset RC_RST_CAUSE = 0x43000001 := by decide +kernel

theorem sel_reset : State.reset.flag TB_CTRL fTB_CTRL_SEL = false := by decide +kernel

theorem now_reset : State.reset.now = 0 := by
  rw [State.now, sel_reset]
  rfl

/-! ### A read of a register whose word a master holds latched (02_tally_time.md R60) -/

/-- A running block in which the Shepherd holds a latched word for JN_HTAIL, which no read of the block latches. -/
def latchedTail : State :=
  { State.reset with pw := { mode := .graze, fast := true }, hiLatch := [(latchKey JN_HTAIL 0, 1)] }

/-- The response that an outcome leaves on a port, when it is a next state. -/
def respOf (p : Port) : Out → Option Resp
  | .next t => some (t.lastResp p)
  | _ => none

theorem reads_latchedTail : latchedTail.reads .shepherd JN_HTAIL = true := by decide +kernel

/-- The read answers the latched word. -/
theorem respOf_read_latchedTail :
    respOf .shepherd (exec (.registerRead .shepherd JN_HTAIL 2) latchedTail) = some ⟨0, 1⟩ := by decide +kernel

/-- The register itself is 0. -/
theorem respOf_tail_latchedTail :
    respOf .shepherd (.next ((latchedTail.respond .shepherd 0 ((latchedTail.reg JN_HTAIL).setWidth 64)).settle)) = some ⟨0, 0⟩ := by
  decide +kernel

/-! ### The obligations -/

/-- Settles O3: a table without entries reads as its default, which for the registers is the reset value of the register map;
what is left is read off the map and off the fields of the reset state. -/
theorem powerOnState : Obligations.PowerOnState := by
  unfold Obligations.PowerOnState
  have shepherd : State.reset.shBank.pc = 0x100000 ∧ State.reset.shBankNo = 0 ∧ State.reset.shOuter = false := by decide +kernel
  obtain ⟨hpc, hbank, hworld⟩ := shepherd
  have wake : State.reset.fld EC_WAKE_LATCH ⟨0, 16⟩ = 0 := by decide +kernel
  have backlog : State.reset.nat JN_BACKLOG = 0 := by decide +kernel
  have hppw : State.reset.flag FLK_GCFG fFLK_GCFG_HPPW = true := by decide +kernel
  exact ⟨reg_reset, fun a => ⟨byte_reset a, poisoned_reset a⟩, regReset_ID_PART, regReset_ID_REVISION, regReset_ID_ROMCODE,
    now_reset, sel_reset, hpc, hbank, hworld, wake, backlog, hppw, regReset_RC_RST_CAUSE, rfl, rfl, rfl, rfl, rfl⟩

/-- Refutes O4: a word read answers the latched word when the master holds one for that very register (R60), and the clause on
reads of JN_HTAIL does not exclude states that hold one. In `latchedTail` the register is 0 and the read answers 1. -/
theorem not_registerAndMemoryAccesses : ¬ Obligations.RegisterAndMemoryAccesses := by
  unfold Obligations.RegisterAndMemoryAccesses
  rintro ⟨-, -, read, -⟩
  have h := congrArg (respOf .shepherd) (read .shepherd latchedTail (by decide) reads_latchedTail)
  rw [respOf_read_latchedTail, respOf_tail_latchedTail] at h
  exact absurd h (by decide)

/-- Settles O53: a source is counted and then served at its level; at L2 and L3 by `serveReset_graze`, whose registers are those
of `reg_restoreRegs` beside the ones that the reset itself writes. -/
theorem resetSourcesAndLevels : Obligations.ResetSourcesAndLevels := by
  unfold Obligations.ResetSourcesAndLevels
  refine ⟨fun s => rfl, ?held, ?ignored, ?dropped, ?flocks, ?engines, ?core, ?host, ?debug, ?reserved, ?due, ?unarmed, ?early⟩
  case held => exact fun s t ht hp => exec_pinReset_held ht hp
  case ignored =>
    intro s t ht hp hl
    rw [exec_pinReset_taken ht hp, hl, State.takeReset, if_pos rfl]
  case dropped =>
    intro s t ht hp hl hm h0
    rw [exec_pinReset_taken ht hp, hl, takeReset_graze_L0 1 hm, serveL0_dropped 1 1 h0]
  case flocks =>
    intro s t ht hp hl hm h0
    rw [exec_pinReset_taken ht hp, hl, takeReset_graze_L0 1 hm, serveL0_flocks 1 1 h0]
    rfl
  case engines =>
    intro s t ht hp hl hm
    rw [exec_pinReset_taken ht hp, hl, takeReset_graze_L1 1 hm]
    rfl
  case core =>
    intro l s t hc hf hm ht hp hl h2 h3
    obtain ⟨-, hregs⟩ := Bool.and_eq_true_iff.mp hc
    exact ⟨_, exec_pinReset_core ht hm hf hp (by omega) h2 h3, pinReset_core_leaves ht _ hregs h3⟩
  case host =>
    rintro p v s h hv rfl
    rw [exec_rcSwrst h]
    simp only [hv, State.master, and_self, if_true]
  case debug =>
    rintro p v s h hv rfl
    rw [exec_rcSwrst h]
    simp [hv, State.master]
  case reserved =>
    intro p v s h hv
    rw [exec_rcSwrst h]
    rcases hv with hv | rfl
    · simp only [hv, false_and, if_false]
    · simp [State.master]
  case due =>
    intro x s hlive harm hnow
    rw [exec_tlcmd_live hlive]
    simp [State.tlcmdDue, harm, hnow]
  case unarmed => exact fun s h => exec_tlcmd_idle (by simp [State.tlcmdDue, h])
  case early => exact fun x s h hnow => exec_tlcmd_idle (by simp [State.tlcmdDue, h, hnow])

end Sys2Proof.Machine
end

section
/-!
Proofs about the address map: what an access that no block and no window takes leaves (01_architecture.md R18, R22, R24).
-/

namespace Sys2Proof.Machine

/-! ### The ranges that the map leaves unassigned (R18, R22) -/

theorem hppRegion_eq_hole_iff (off : Nat) : hppRegion off = .hole ↔
    0xA0000 ≤ off ∧ off < 0x100000 ∨ 0x290000 ≤ off ∧ off < 0x400000 ∨ 0x800000 ≤ off ∧ off < 0x1000000
      ∨ 0x14C8000 ≤ off ∧ off < 0x1500000 ∨ 0x2800000 ≤ off := by
  unfold hppRegion
  repeat' split
  all_goals simp only [reduceCtorEq, false_iff, true_iff]; omega

/-! ### The masters of the HPP window (R26) -/

theorem badShape_eq_false {off n be : Nat} (hoff : off % n = 0) (hbe : be / 2 ^ n = 0) : badShape off n be = false := by
  simp [badShape, hoff, hbe]

/-- An open write of a master of the window is a write of the window. -/
theorem portWrite_window {p : Port} (hp : p ∈ [Port.hpp, .dam, .shepherd]) {s : State} (ho : s.portOpen p = true)
    (off n be : Nat) (data : BitVec 64) : s.portWrite p off n be data = s.windowWrite p off n be data := by
  simp only [List.mem_cons, List.not_mem_nil, or_false] at hp
  obtain rfl | rfl | rfl := hp <;> simp [State.portWrite, ho]

/-- An open read of a master of the window answers what a read of the window gives. -/
theorem portRead_window {p : Port} (hp : p ∈ [Port.hpp, .dam, .shepherd]) {s : State} (ho : s.portOpen p = true) (off n : Nat) :
    s.portRead p off n = (s.windowRead p off n).2.2.respond p (s.windowRead p off n).1 (s.windowRead p off n).2.1 := by
  simp only [List.mem_cons, List.not_mem_nil, or_false] at hp
  obtain rfl | rfl | rfl := hp <;> simp [State.portRead, ho]

/-! ### The journal entry of a write (R379) -/

/-- Only the host's writes below the memory windows make an entry. -/
theorem regwriteEntries_eq_ite (s : State) (p : Port) (off n : Nat) (data : BitVec 64) (be code : Nat) :
    s.regwriteEntries p off n data be code
      = if p = .hpp ∧ off < 0x1000000 then s.regwriteEntries .hpp off n data be code else s := by
  split
  next h => rw [h.1]
  next h =>
    have hnone : p ≠ .hpp ∨ 0x1000000 ≤ off := by rwa [not_and_or, not_lt] at h
    rw [State.regwriteEntries, if_pos hnone]

/-! ### Accesses of an unassigned range (R24) -/

section
variable {p : Port} {off n : Nat} {s : State} (hv : (s.master p).lvl ≠ 0) (ha : off % n = 0) (hh : hppRegion off = .hole)
include hv ha hh

theorem windowWrite_hole {be : Nat} (data : BitVec 64) (hbe : be / 2 ^ n = 0) :
    s.windowWrite p off n be data = ((s.regwriteEntries p off n data be 2).inc RC_DECODE_ERRS).respond p 1 0 := by
  simp [State.windowWrite, badShape_eq_false ha hbe, hv, hh]

theorem windowRead_hole : s.windowRead p off n = (1, 0, s.inc RC_DECODE_ERRS) := by
  simp [State.windowRead, ha, hv, hh]

theorem portWrite_hole {be : Nat} (data : BitVec 64) (hp : p ∈ [Port.hpp, .dam, .shepherd]) (ho : s.portOpen p = true)
    (hbe : be / 2 ^ n = 0) :
    s.portWrite p off n be data
      = ((if p = .hpp ∧ off < 0x1000000 then s.regwriteEntries .hpp off n data be 2 else s).inc RC_DECODE_ERRS).respond p 1 0 := by
  rw [portWrite_window hp ho, windowWrite_hole hv ha hh data hbe, regwriteEntries_eq_ite]

theorem portRead_hole (hp : p ∈ [Port.hpp, .dam, .shepherd]) (ho : s.portOpen p = true) :
    s.portRead p off n = (s.inc RC_DECODE_ERRS).respond p 1 0 := by
  rw [portRead_window hp ho, windowRead_hole hv ha hh]
end

/-! ### The commands -/

/-- R26 takes a write into a memory window as any other write. -/
theorem exec_memoryWindowWrite (p : Port) (off : Nat) (size : Fin 4) (be : BitVec 8) (data : BitVec 64) (s : State) :
    exec (.memoryWindowWrite p off size be data) s = exec (.registerWrite p off size be data) s := rfl

theorem exec_registerWrite (p : Port) (off : Nat) (size : Fin 4) (be : BitVec 8) (data : BitVec 64) (s : State) :
    exec (.registerWrite p off size be data) s = .next (s.portWrite p off (2 ^ size.val) be.toNat data).settle := rfl

theorem exec_registerRead (p : Port) (off : Nat) (size : Fin 4) (s : State) :
    exec (.registerRead p off size) s = .next (s.portRead p off (2 ^ size.val)).settle := rfl

/-! ### The obligation -/

/-- Settles O5: the offsets are those of the holes of the map (`hppRegion_eq_hole_iff`), and at a hole the write and the read of
a port answer DECODE. -/
theorem unassignedOffsetsDecode : Obligations.UnassignedOffsetsDecode := by
  unfold Obligations.UnassignedOffsetsDecode
  simp only [← hppRegion_eq_hole_iff, exec_memoryWindowWrite, and_self_left]
  refine ⟨?write, ?read⟩
  case write =>
    intro p off size be data s hp ho hv ha hbe hh
    rw [exec_registerWrite, portWrite_hole hv ha hh data hp ho hbe]
  case read =>
    intro p off size s hp ho hv ha hh
    rw [exec_registerRead, portRead_hole hv ha hh hp ho]

end Sys2Proof.Machine
end

section
/-!
Proofs about what an update leaves of Tally and Tally Link: a raise with the task slots it triggers, and the timers in slow
advance (02_tally_time.md R40, 03_loop_engines.md R76, 09_gated_timers.md R263, R264).
-/

namespace Sys2Proof.Machine

/-! ### What a raise and the timers leave of Tally -/

/-- `t` differs from `s` neither in Tally, the Tally Link and the power controller nor in a register below those of the reserve,
of the timers and of the engines. -/
structure TallySame (s t : State) : Prop where
  tb : t.tb = s.tb
  tl : t.tl = s.tl
  pw : t.pw = s.pw
  reg : ∀ off, off < RS_GSTAT → t.reg off = s.reg off

namespace TallySame

variable {s t u : State}

theorem refl (s : State) : TallySame s s := ⟨rfl, rfl, rfl, fun _ _ => rfl⟩

theorem trans (h : TallySame s t) (g : TallySame t u) : TallySame s u :=
  ⟨g.tb.trans h.tb, g.tl.trans h.tl, g.pw.trans h.pw, fun off ho => (g.reg off ho).trans (h.reg off ho)⟩

theorem ite {c : Prop} [Decidable c] (ht : TallySame s t) (hu : TallySame s u) : TallySame s (if c then t else u) := by
  split
  · exact ht
  · exact hu

theorem foldl {α : Type} {f : State → α → State} (h : ∀ u a, TallySame u (f u a)) (l : List α) (s : State) :
    TallySame s (l.foldl f s) := by
  induction l generalizing s with
  | nil => exact refl s
  | cons a l ih => exact (h s a).trans (ih (f s a))

theorem forN {f : Nat → State → State} (h : ∀ i u, TallySame u (f i u)) (n : Nat) (s : State) : TallySame s (forN f n s) := by
  induction n with
  | zero => exact refl s
  | succ n ih => exact ih.trans (h n _)

theorem fld (h : TallySame s t) {off : Nat} (ho : off < RS_GSTAT) (f : Fld) : t.fld off f = s.fld off f := fld_of_reg (h.reg off ho)

theorem flag (h : TallySame s t) {off : Nat} (ho : off < RS_GSTAT) (f : Fld) : t.flag off f = s.flag off f :=
  flag_of_reg (h.reg off ho)

theorem now (h : TallySame s t) : t.now = s.now := by
  rw [State.now, State.now, h.tb, h.flag (by decide)]

theorem tlMaster (h : TallySame s t) : t.tlMaster = s.tlMaster := h.flag (by decide) _

theorem upport (h : TallySame s t) : t.upport = s.upport := h.fld (by decide) _

theorem live (h : TallySame s t) : t.live = s.live := by rw [State.live, State.live, h.pw]

/-! #### Registers of the reserve, the timers and the engines -/

theorem setReg (s : State) {off : Nat} (v : Word) (ho : RS_GSTAT ≤ off) : TallySame s (s.setReg off v) :=
  ⟨rfl, rfl, rfl, fun _ h => reg_setReg_ne _ _ _ _ (Nat.ne_of_lt (Nat.lt_of_lt_of_le h ho))⟩

theorem setFld (s : State) {off : Nat} (f : Fld) (v : Nat) (ho : RS_GSTAT ≤ off) : TallySame s (s.setFld off f v) := setReg s _ ho

theorem setNat (s : State) {off : Nat} (v : Nat) (ho : RS_GSTAT ≤ off) : TallySame s (s.setNat off v) := setReg s _ ho

theorem setFlag (s : State) {off : Nat} (f : Fld) (b : Bool) (ho : RS_GSTAT ≤ off) : TallySame s (s.setFlag off f b) :=
  (setFld s f (b2n b) ho).trans ⟨rfl, rfl, rfl, fun _ _ => rfl⟩

theorem inc (s : State) {off : Nat} (ho : RS_GSTAT ≤ off) : TallySame s (s.inc off) :=
  (setReg s _ ho).trans ⟨rfl, rfl, rfl, fun _ _ => rfl⟩

theorem setReg64 (s : State) {lo hi : Nat} (v : Stamp) (hlo : RS_GSTAT ≤ lo) (hhi : RS_GSTAT ≤ hi) :
    TallySame s (s.setReg64 lo hi v) :=
  (setReg s _ hlo).trans (setReg _ _ hhi)

/-! #### Raises and the task slots they trigger (R76, R348, R461) -/

theorem raiseBase (s : State) (n : Nat) (st : Stamp) (p0 p1 : Nat) : TallySame s (s.raiseBase n st p0 p1) :=
  ⟨rfl, rfl, rfl, fun _ _ => rfl⟩

theorem raiseLater (s : State) (n p0 p1 : Nat) : TallySame s (s.raiseLater n p0 p1) := ⟨rfl, rfl, rfl, fun _ _ => rfl⟩

theorem jAdd (s : State) (e : JEntry) : TallySame s (s.jAdd e) := ⟨rfl, rfl, rfl, fun _ _ => rfl⟩

theorem hurdleCount (s : State) (k i : Nat) : TallySame s (s.hurdleCount k i) := by
  unfold State.hurdleCount
  extract_lets s1 s2
  have counted : TallySame s s1 := inc s (by simp only [RS_GSTAT, hurdleCnt, RS_HURDLE_CNT_E]; omega)
  have seen : TallySame s1 s2 := setFlag s1 _ true le_rfl
  have raised : TallySame s2 (s2.raiseLater 914 0 0) := raiseLater s2 914 0 0
  exact ite counted (counted.trans (seen.trans (raised.trans (jAdd _ _))))

theorem hurdle (s : State) (k i : Nat) {act : State → State} (h : TallySame s (act s)) : TallySame s (s.hurdle k i act) :=
  ite (refl s) (ite (hurdleCount s k i) h)

theorem setSlot (s : State) (p k : Nat) (x : Slot) : TallySame s (s.setSlot p k x) := ⟨rfl, rfl, rfl, fun _ _ => rfl⟩

theorem overrun (s : State) (p k : Nat) : TallySame s (s.overrun p k) := by
  unfold State.overrun
  extract_lets s1
  have stat : RS_GSTAT ≤ LE_TASK_STAT p k := by simp only [RS_GSTAT, LE_TASK_STAT]; omega
  have cnt : RS_GSTAT ≤ LE_OVR_CNT p k := by simp only [RS_GSTAT, LE_OVR_CNT]; omega
  have counted : TallySame s s1 := (setFlag s _ true stat).trans (inc _ cnt)
  exact counted.trans (hurdle s1 0 p (raiseLater s1 _ 0 0))

theorem makeReady (s : State) (p k : Nat) (st : Stamp) (edge : Bool) : TallySame s (s.makeReady p k st edge) :=
  (setFld s _ 2 (by simp only [RS_GSTAT, LE_TASK_STAT]; omega)).trans (setSlot _ p k _)

theorem fireEdge (s : State) (p k : Nat) (st : Stamp) : TallySame s (s.fireEdge p k st) := by
  unfold State.fireEdge
  split
  case h_1 => exact makeReady s p k st true
  case h_2 => exact overrun s p k
  case h_3 | h_4 =>
    split
    · exact setSlot s p k _
    · exact overrun s p k
  case h_5 => exact overrun s p k
  case h_6 => exact refl s

theorem raiseAt (s : State) (n : Nat) (st : Stamp) (p0 p1 : Nat) : TallySame s (s.raiseAt n st p0 p1) := by
  unfold State.raiseAt State.fireEvent
  have fired : ∀ (u : State) (x : Nat × Nat), TallySame u (u.fireEdge x.1 x.2 st) := fun u x => fireEdge u x.1 x.2 st
  exact (raiseBase s n st p0 p1).trans (foldl fired _ _)

theorem raise (s : State) (n p0 p1 : Nat) : TallySame s (s.raise n p0 p1) := raiseAt s n s.now p0 p1

theorem raiseNamed (s : State) (n : Nat) (named : List Nat) : TallySame s (s.raiseNamed n named) :=
  ite (raiseAt s n _ _ _) ⟨rfl, rfl, rfl, fun _ _ => rfl⟩

/-! #### The timers at a CLK_SLOW edge (R263, R264) -/

theorem gateEdge (s : State) (t : Nat) : TallySame s (s.gateEdge t) :=
  ite (refl s) (setFlag s _ _ (by simp only [RS_GSTAT, TM_STAT]; omega))

theorem capture (s : State) (t j : Nat) (st : Stamp) : TallySame s (s.capture t j st) := by
  unfold State.capture
  extract_lets full s1 s2 s3
  have loaded : TallySame s s1 :=
    (setReg s _ (by simp only [RS_GSTAT, TM_CAP_VAL]; omega)).trans
      (setReg64 _ st (by simp only [RS_GSTAT, TM_CAP_STAMP_LO]; omega) (by simp only [RS_GSTAT, TM_CAP_STAMP_HI]; omega))
  have stat : RS_GSTAT ≤ TM_STAT t := by simp only [RS_GSTAT, TM_STAT]; omega
  have marked : TallySame s s2 := loaded.trans (setFlag _ _ true stat)
  have counted : TallySame s2 s3 :=
    ite ((setFlag _ _ true stat).trans (inc _ (by simp only [RS_GSTAT, TM_CAP_OVR_CNT]; omega))) (refl s2)
  exact marked.trans (counted.trans (hurdle _ 2 t (raiseNamed _ _ _)))

theorem captureSlow (s : State) (t j : Nat) : TallySame s (s.captureSlow t j) := by
  unfold State.captureSlow
  split
  · exact refl s
  · exact ite (capture s t j s.now) (refl s)

theorem timSlowEdge (s : State) (hold : Bool) (t : Nat) : TallySame s (s.timSlowEdge hold t) := by
  unfold State.timSlowEdge
  extract_lets fresh x s1 s2 inc v s3
  have cnt : RS_GSTAT ≤ TM_CNT t := by simp only [RS_GSTAT, TM_CNT]; omega
  have frac : RS_GSTAT ≤ TM_CNT_FRAC t := by simp only [RS_GSTAT, TM_CNT_FRAC]; omega
  have cleared : TallySame s s1 := ite ⟨rfl, rfl, rfl, fun _ _ => rfl⟩ (refl s)
  have counted : TallySame s2 s3 := ite ((setNat s2 _ cnt).trans (setNat _ _ frac)) (refl s2)
  exact cleared.trans ((gateEdge s1 t).trans (counted.trans ((captureSlow s3 t 0).trans (captureSlow _ t 1))))

theorem timsSlow (s : State) (slow : Bool) : TallySame s (s.timsSlow slow) :=
  forN (fun t u =>
    have stat : RS_GSTAT ≤ TM_STAT t := by simp only [RS_GSTAT, TM_STAT]; omega
    ite (setFlag u _ slow stat) (ite (refl u) (setFlag u _ false stat))) 36 s

theorem timsSlowEdge (s : State) (hold : Bool) : TallySame s (s.timsSlowEdge hold) := by
  unfold State.timsSlowEdge
  extract_lets s1
  have entered : TallySame s s1 := ite (timsSlow s true) (refl s)
  have stepped := forN (fun t u => timSlowEdge u hold t) 36 s1
  exact entered.trans (stepped.trans ⟨rfl, rfl, rfl, fun _ _ => rfl⟩)

theorem roTick (s : State) : TallySame s s.roTick := ite ⟨rfl, rfl, rfl, fun _ _ => rfl⟩ (refl s)

end TallySame

end Sys2Proof.Machine
end

section
/-!
Proofs about Tally (02_tally_time.md R33 to R44, R60): the writes of TB_CTRL that wait for an edge, and the edges of CLK_FAST and
CLK_SLOW.
-/

namespace Sys2Proof.Machine

/-! ### TB_CTRL (R34, R44, R60) -/

theorem vbit_tbCtrlWord (set resync sel : Bool) :
    vbit (tbCtrlWord set resync sel) 1 = set ∧ vbit (tbCtrlWord set resync sel) 2 = resync ∧ vbit (tbCtrlWord set resync sel) 3 = sel := by
  revert set resync sel
  decide

/-- A write of TB_CTRL that goes ahead, by the bits of its word. -/
theorem regCmd_tbCtrlWord {s : State} {p : Port} {w : Word} {set resync sel : Bool} (hw : w = tbCtrlWord set resync sel)
    (h : s.takes p TB_CTRL w = true) :
    regCmd p TB_CTRL w s = .next (s.after p TB_CTRL w
      (fun u => u.tbCtrlWrite (if (s.master p).lvl = 3 then some sel else none) resync set)) := by
  obtain ⟨hadm, hword⟩ := takes_iff.mp h
  obtain ⟨hset, hresync, hsel⟩ := vbit_tbCtrlWord set resync sel
  rw [regCmd_TB_CTRL hadm, hword, hw, hset, hresync, hsel]

theorem exec_setCmd (p : Port) (s : State) :
    exec (.setCmd p) s = regCmd p TB_CTRL (tbCtrlWord true false (s.flag TB_CTRL fTB_CTRL_SEL)) s := rfl

theorem exec_resync (p : Port) (s : State) :
    exec (.resync p) s = regCmd p TB_CTRL (tbCtrlWord false true (s.flag TB_CTRL fTB_CTRL_SEL)) s := rfl

theorem exec_sel (p : Port) (b : Bool) (s : State) : exec (.sel p b) s = regCmd p TB_CTRL (tbCtrlWord false false b) s := rfl

section
variable {u : State} (l : Nat) {now role : Bool}

/-- A SET writes SEL as it stands: it waits on a master, and on a slave it is refused and counted. -/
theorem tbCtrlWrite_set (hnow : u.flag TB_CTRL fTB_CTRL_SEL = now) (hrole : u.flag TL_CTRL fTL_CTRL_ROLE = role) :
    u.tbCtrlWrite (if l = 3 then some now else none) false true =
      { (if role then u else u.inc TB_SET_REFUSED) with
        tb := { u.tb with selPend := l != 3 && u.tb.selPend, setPend := u.tb.setPend || role } } := by
  have hsel : (u.inc TB_SET_REFUSED).flag TB_CTRL fTB_CTRL_SEL = now := (flag_of_reg (reg_inc_ne _ _ _ (by decide))).trans hnow
  by_cases hl : l = 3 <;> cases role <;> simp [State.tbCtrlWrite, hl, hnow, hrole, hsel]

theorem tbCtrlWrite_resync (hnow : u.flag TB_CTRL fTB_CTRL_SEL = now) :
    u.tbCtrlWrite (if l = 3 then some now else none) true false =
      { u with tb := { u.tb with selPend := l != 3 && u.tb.selPend, resyncPend := true } } := by
  by_cases hl : l = 3 <;> simp [State.tbCtrlWrite, hl, hnow]

theorem tbCtrlWrite_sel (b : Bool) (hnow : u.flag TB_CTRL fTB_CTRL_SEL = now) :
    u.tbCtrlWrite (if l = 3 then some b else none) false false =
      { u with tb := { u.tb with selPend := if l = 3 then b != now else u.tb.selPend } } := by
  by_cases hl : l = 3 <;> simp [State.tbCtrlWrite, hl, hnow]
end

/-! ### The edges (R33, R40, R42) -/

theorem exec_tallyAdvance {s : State} (hf : s.pw.fast = true) (hp : s.pw.pll = true) : exec .tallyAdvance s = .next s.fastEdge := by
  change Host.Outcome.next (if s.pw.fast && s.pw.pll then s.fastEdge else s) = _
  rw [hf, hp]
  rfl

theorem fast_of_live {s : State} (h : s.live = true) : s.pw.fast = true := by
  simp only [State.live, Bool.and_eq_true] at h
  exact h.1.1

theorem fastEdge_live {s : State} (h : s.live = true) : s.fastEdge =
      let c := s.fc
      let u := (((s.snapEdge.hirqEdge.groupsSettle.samplesEnd c).chsEnd.pfsEnd.scCompare).dvEnd.flkEnd.evEnd.jCommit.jTake)
      let v := u.tallyStep.2
      State.unitsEdge ((State.lanesDone { v with fc := c + 1, hot := [], qf := { v.qf with fresh := [], cross := [], wmOld := [] } }).timsEdge c) c
        u.tallyStep.1 := by
  unfold State.fastEdge
  simp only [h, if_true]

theorem fastEdge_idle {s : State} (h : s.live = false) : s.fastEdge =
      let v := s.snapEdge.evEnd.jCommit.tallyStep.2
      (State.lanesDone { v with fc := s.fc + 1, hot := [], qf := { v.qf with fresh := [], cross := [], wmOld := [] } }).timsEdge s.fc := by
  unfold State.fastEdge
  simp only [h, Bool.false_eq_true, if_false]

/-- With nothing waiting, nothing takes effect. -/
theorem tallyPending_idle {s : State} (hset : s.tb.setPend = false) (hresync : s.tb.resyncPend = false) (hsel : s.tb.selPend = false) :
    s.tallyPending = s := by
  have htb : ({ s.tb with setPend := false, resyncPend := false, selPend := false } : TbState) = s.tb := by
    rw [TbState.mk.injEq]
    exact ⟨rfl, rfl, hset.symm, hresync.symm, hsel.symm, rfl, rfl⟩
  simp only [State.tallyPending, hset, hresync, hsel, Bool.false_eq_true, if_false, htb]

/-- No episode opens where the counters agree or one is open. -/
theorem tallyCompare_known {s : State} (h : s.tb.a ≠ s.tb.b → s.tb.episode = true) :
    s.tallyCompare = { s with tb.episode := s.tb.episode && decide (s.tb.a ≠ s.tb.b) } := by
  by_cases hab : s.tb.a = s.tb.b
  · simp [State.tallyCompare, hab]
  · have he := h hab
    have htb : ({ s.tb with episode := true } : TbState) = s.tb := by rw [← he]
    simp [State.tallyCompare, hab, he, htb]

/-- Both counters with an increment added: what an edge makes of them before what waits takes effect. -/
def State.tallyAdd (s : State) (i : BitVec 96) : State := { s with tb := { s.tb with a := s.tb.a + i, b := s.tb.b + i } }

/-- With nothing waiting and no episode to open, an edge does no more than add. -/
theorem tallyAdd_idle {s : State} (i : BitVec 96) (hset : s.tb.setPend = false) (hresync : s.tb.resyncPend = false)
    (hsel : s.tb.selPend = false) (hep : s.tb.a ≠ s.tb.b → s.tb.episode = true) :
    (s.tallyAdd i).tallyPending.tallyCompare =
      { s with tb := { s.tb with a := s.tb.a + i, b := s.tb.b + i, episode := s.tb.episode && decide (s.tb.a ≠ s.tb.b) } } := by
  rw [tallyPending_idle (s := s.tallyAdd i) hset hresync hsel,
    tallyCompare_known (s := s.tallyAdd i) (by simpa [State.tallyAdd] using hep)]
  simp [State.tallyAdd]

theorem tallyEdge_noSlew {s : State} (h : s.tl.slew = 0) : s.tallyEdge = (s.tallyAdd s.tallyInc).tallyPending.tallyCompare := by
  have htl : ({ s.tl with slew := 0 } : TlState) = s.tl := by rw [← h]
  simp only [State.tallyEdge, h, lt_self_iff_false, if_false, htl, State.tallyAdd]

theorem tallyStep_idle {s : State} (hsrc : s.flag TB_STAT fTB_STAT_SRC = true) (hset : s.tb.setPend = false)
    (hresync : s.tb.resyncPend = false) (hsel : s.tb.selPend = false) (hslew : s.tl.slew = 0)
    (hep : s.tb.a ≠ s.tb.b → s.tb.episode = true) :
    s.tallyStep.2 = { s with tb := { s.tb with
      a := s.tb.a + s.tallyInc, b := s.tb.b + s.tallyInc, episode := s.tb.episode && decide (s.tb.a ≠ s.tb.b) } } := by
  rw [State.tallyStep, if_pos hsrc, tallyEdge_noSlew hslew, tallyAdd_idle _ hset hresync hsel hep]

theorem tallySlowEdge_idle {s : State} (hset : s.tb.setPend = false) (hresync : s.tb.resyncPend = false) (hsel : s.tb.selPend = false)
    (hab : s.tb.a = s.tb.b) :
    s.tallySlowEdge = { s with tb := { s.tb with
      a := s.tb.a + BitVec.ofNat 96 (2 ^ 49), b := s.tb.b + BitVec.ofNat 96 (2 ^ 49), episode := false } } := by
  change (s.tallyAdd (BitVec.ofNat 96 (2 ^ 49))).tallyPending.tallyCompare = _
  rw [tallyAdd_idle _ hset hresync hsel (fun h => absurd hab h), hab]
  simp

theorem exec_slowClockEdge (s : State) : exec .slowClockEdge s = .next s.slowEdge := rfl

/-- What ends a CLK_SLOW edge in slow advance: the writes of the fc stand where CLK_FAST is stopped, and with CLK_FAST running it is
the handover edge (R42). -/
def State.slowEnd (s : State) : State :=
  let t := if s.pw.fast then s else { s.lanesDone with hot := [] }
  if t.pw.fast && t.pw.pll then t.tallyHandover.timsSlow false else t

theorem slowEnd_stopped {s : State} (hf : s.pw.fast = false) : s.slowEnd = { s.lanesDone with hot := [] } := by
  simp [State.slowEnd, hf, State.lanesDone]

theorem slowEnd_running {s : State} (hf : s.pw.fast = true) (hp : s.pw.pll = true) :
    s.slowEnd = s.tallyHandover.timsSlow false := by
  simp only [State.slowEnd, hf, hp, if_true, Bool.and_self]

/-- The first CLK_SLOW edge after the fast clock was released keeps Tally and the watchdog (R40). -/
theorem slowEdge_hold {s : State} (hsrc : s.flag TB_STAT fTB_STAT_SRC = false) (hhold : s.tb.hold = true) :
    s.slowEdge = (({ s with tb.hold := false } : State).timsSlowEdge true).roTick.slowEnd := by
  unfold State.slowEdge
  rw [hsrc, hhold]
  simp only [Bool.not_false, Bool.and_self, Bool.not_true, Bool.and_false, Bool.and_true, Bool.false_eq_true, if_true, if_false]
  rfl

/-- Every other one advances Tally; with CLK_FAST stopped no watchdog counts (R40). -/
theorem slowEdge_advance {s : State} (hsrc : s.flag TB_STAT fTB_STAT_SRC = false) (hhold : s.tb.hold = false)
    (hlive : s.tallySlowEdge.live = false) : s.slowEdge = (s.tallySlowEdge.timsSlowEdge false).roTick.slowEnd := by
  have htb : ({ s with tb.hold := false } : State) = s := by rw [← hhold]
  have hticks : (s.tallySlowEdge.timsSlowEdge false).live = false := (TallySame.timsSlowEdge _ false).live.trans hlive
  unfold State.slowEdge
  rw [htb, hsrc, hhold]
  simp only [Bool.not_false, Bool.and_false, Bool.and_true, Bool.false_eq_true, if_true, if_false, hticks]
  rfl

/-- The timers and the window of an oscillator's measurement leave the power controller, and with it the clocks, as they are. -/
theorem pw_timsSlowEdge_roTick (s : State) (hold : Bool) : (s.timsSlowEdge hold).roTick.pw = s.pw :=
  ((TallySame.timsSlowEdge s hold).trans (TallySame.roTick _)).pw

/-! ### The obligation on the commands and the edges -/

/-- Settles O6: a write of TB_CTRL by its bits (`regCmd_tbCtrlWord`), an edge of CLK_FAST by whether it clocks the units, an idle edge
by `tallyAdd_idle`, and an edge of CLK_SLOW by whether it holds; the timers move neither Tally nor a clock (`TallySame`). -/
theorem tallyCommandsAndEdges : Obligations.TallyCommandsAndEdges := by
  unfold Obligations.TallyCommandsAndEdges
  refine ⟨?set, ?resync, ?sel, ?live, ?emulated, ?noEdge, ?idle, ?slow, ?slowHold, ?handover, ?lock⟩
  case set =>
    intro p s w hw h
    rw [exec_setCmd, ← hw, regCmd_tbCtrlWord hw h]
    exact congrArg _ (after_congr (tbCtrlWrite_set _ (logged_flag s p TB_CTRL w _ _) (logged_flag s p TB_CTRL w _ _)))
  case resync =>
    intro p s w hw h
    rw [exec_resync, ← hw, regCmd_tbCtrlWord hw h]
    exact congrArg _ (after_congr (tbCtrlWrite_resync _ (logged_flag s p TB_CTRL w _ _)))
  case sel =>
    intro p b s w hw h
    rw [exec_sel, ← hw, regCmd_tbCtrlWord hw h]
    exact congrArg _ (after_congr (tbCtrlWrite_sel _ b (logged_flag s p TB_CTRL w _ _)))
  case live =>
    intro s hp hlive
    rw [exec_tallyAdvance (fast_of_live hlive) hp, fastEdge_live hlive]
  case emulated =>
    intro s hf hp hlive
    rw [exec_tallyAdvance hf hp, fastEdge_idle hlive]
  case noEdge =>
    intro s h
    change Host.Outcome.next (if s.pw.fast && s.pw.pll then s.fastEdge else s) = _
    rw [h, if_neg Bool.false_ne_true]
  case idle => exact fun _ => tallyStep_idle
  case slow =>
    intro s hsrc hf hset hresync hsel hab hhold
    have hadd := tallySlowEdge_idle hset hresync hsel hab
    have hfast : s.tallySlowEdge.pw.fast = false := by rw [hadd]; exact hf
    have hlive : s.tallySlowEdge.live = false := by rw [State.live, hfast, Bool.false_and, Bool.false_and]
    have hstop : (s.tallySlowEdge.timsSlowEdge false).roTick.pw.fast = false := by rw [pw_timsSlowEdge_roTick]; exact hfast
    rw [exec_slowClockEdge, slowEdge_advance hsrc hhold hlive, slowEnd_stopped hstop, hadd]
  case slowHold =>
    intro s hsrc hf hhold
    have hpw := pw_timsSlowEdge_roTick { s with tb.hold := false } true
    rw [exec_slowClockEdge, slowEdge_hold hsrc hhold, slowEnd_stopped (by rw [hpw]; exact hf)]
  case handover =>
    intro s hsrc hf hp hhold
    have hpw := pw_timsSlowEdge_roTick { s with tb.hold := false } true
    rw [exec_slowClockEdge, slowEdge_hold hsrc hhold]
    exact congrArg _ (slowEnd_running (by rw [hpw]; exact hf) (by rw [hpw]; exact hp))
  case lock =>
    intro s hf hp
    change Host.Outcome.next (if s.pw.fast && s.pw.pll then s.setFlag TB_STAT fTB_STAT_COARSE false else s) = _
    rw [hf, hp, Bool.and_self, if_pos rfl]

end Sys2Proof.Machine
end

section
/-!
Proofs about Tally Link (02_tally_time.md R45 to R58): the symbols and states of a port, the frames sent and received, and the
fragments of a peer message.
-/

namespace Sys2Proof.Machine

/-! ### The symbols (R45) -/

/-- Every data symbol is a symbol of the code at its running disparity. -/
theorem codeViolation_encData (b : Byte) (rd : Bool) : codeViolation (encData b rd).1 rd true = false := by
  have hdata : (List.range 256).any (fun n => (encData (.ofNat 8 n) rd).1 == (encData b rd).1) = true :=
    List.any_eq_true.mpr ⟨b.toNat, List.mem_range.mpr b.isLt, by rw [BitVec.ofNat_toNat, BitVec.setWidth_eq, beq_self_eq_true]⟩
  rw [codeViolation, hdata]
  rfl

theorem codeViolation_encCtl (c : Ctl) (rd : Bool) : codeViolation (encCtl c rd).1 rd true = false := by
  have hctl : [Ctl.k28_5, .k27_7, .k29_7, .k28_1].any (fun d => (encCtl d rd).1 == (encCtl c rd).1) = true :=
    List.any_eq_true.mpr ⟨c, by cases c <;> decide, beq_self_eq_true _⟩
  rw [codeViolation, hctl, Bool.or_true]
  rfl

/-! ### The registers of a port -/

/-- The state of a port's link is read off its register. -/
theorem tlState_of_reg {s t : State} {p : Nat} (h : t.reg (TL_PSTAT p) = s.reg (TL_PSTAT p)) : t.tlState p = s.tlState p := fld_of_reg h

/-- The state of a port's link stands in a register of its own. -/
theorem pstat_ne_ctrl (p : Nat) : TL_CTRL ≠ TL_PSTAT p ∧ TB_CTRL ≠ TL_PSTAT p := by
  simp only [TL_CTRL, TB_CTRL, TL_PSTAT]
  omega

theorem reg_tlSend (s : State) (f : TlFrame) (o : Nat) : (s.tlSend f).reg o = s.reg o := by
  unfold State.tlSend
  split
  · rfl
  · rfl

/-- An enabled port that is UP sends. -/
theorem tlSend_up {s : State} {f : TlFrame} (hen : s.tlEn = true) (hup : s.tlState f.port = 2) :
    s.tlSend f = { s with tl.tx := s.tl.tx ++ [f] } := by
  rw [State.tlSend, hen, hup]
  rfl

theorem tlSend_mkFrame_up {s : State} {p : Nat} (kind src dst hop : Nat) (pl : List Byte) (hen : s.tlEn = true) (hup : s.tlState p = 2) :
    s.tlSend (mkFrame p kind src dst hop pl) = { s with tl.tx := s.tl.tx ++ [mkFrame p kind src dst hop pl] } := tlSend_up hen hup

/-! ### Code violations and the states of a link (R46) -/

/-- A violation is counted and kept; it takes a port in ALIGN DOWN, and one in UP when it is the fourth within 256 symbols. -/
theorem tlViolation_enabled {s : State} (p gap : Nat) (hen : s.tlEn = true) : s.tlViolation p gap =
    let x := s.tlp p
    let v := if x.violSeen then gap :: x.viol.take 2 else []
    let u := (s.inc (TL_CV_ERRS p)).setTlp p { x with viol := v, violSeen := true }
    if s.tlState p = 1 then u.tlSetState p 0
    else if s.tlState p = 2 ∧ v.length = 3 ∧ v.sum < 256 then u.tlSetState p 0
    else u := by
  have hne : TL_PSTAT p ≠ TL_CV_ERRS p := by simp only [TL_PSTAT, TL_CV_ERRS]; omega
  have hst (x : TlPort) : ((s.inc (TL_CV_ERRS p)).setTlp p x).tlState p = s.tlState p :=
    tlState_of_reg ((setTlp_reg _ _ _ _).trans (reg_inc_ne _ _ _ hne))
  rw [State.tlViolation, if_pos hen]
  simp only [hst]
  rfl

theorem exec_tlCodeViolation {s : State} (port : Fin 2) (sym : BitVec 10) (rd valid : Bool) (gap : Nat) (h : s.live = true)
    (hv : codeViolation sym rd valid = true) : exec (.tlCodeViolation port ⟨sym, rd, valid, gap⟩) s = .next (s.tlViolation port gap) :=
  congrArg Host.Outcome.next ((if_pos h).trans (if_pos hv))

/-- A symbol of the code changes nothing. -/
theorem exec_tlCodeViolation_none (s : State) (port : Fin 2) (sym : BitVec 10) (rd valid : Bool) (gap : Nat)
    (hv : codeViolation sym rd valid = false) : exec (.tlCodeViolation port ⟨sym, rd, valid, gap⟩) s = .next s := by
  change fastEvent (fun u => if codeViolation sym rd valid then u.tlViolation port gap else u) s = _
  simp only [fastEvent, hv, Bool.false_eq_true, if_false, ite_self]

/-- A link that was DOWN aligns. -/
theorem tlSetState_align {s : State} {p : Nat} (h : s.tlState p = 0) :
    s.tlSetState p 1 = (s.setFld (TL_PSTAT p) fTL_PSTAT_STATE 1).raise (2 + p) 0 0 := by
  simp [State.tlSetState, h]

/-- A link that comes UP; on the UPPORT of a slave the wait for a measurement begins. -/
theorem tlSetState_up {s : State} {p : Nat} (h : s.tlState p ≠ 2) : s.tlSetState p 2 =
    let u := (s.setFld (TL_PSTAT p) fTL_PSTAT_STATE 2).raise (2 + p) 0 0
    if p = s.upport ∧ s.tlMaster = false then { u with tl.due := some (missedAt s.now) } else u := by
  have hraise := TallySame.raise (s.setFld (TL_PSTAT p) fTL_PSTAT_STATE 2) (2 + p) 0 0
  have hctrl : (s.setFld (TL_PSTAT p) fTL_PSTAT_STATE 2).reg TL_CTRL = s.reg TL_CTRL := reg_setFld_ne _ _ _ _ _ (pstat_ne_ctrl p).1
  have hsel : (s.setFld (TL_PSTAT p) fTL_PSTAT_STATE 2).flag TB_CTRL fTB_CTRL_SEL = s.flag TB_CTRL fTB_CTRL_SEL :=
    flag_of_reg (reg_setFld_ne _ _ _ _ _ (pstat_ne_ctrl p).2)
  have hup := hraise.upport.trans (fld_of_reg hctrl)
  have hmaster := hraise.tlMaster.trans (flag_of_reg hctrl)
  have hnow : ((s.setFld (TL_PSTAT p) fTL_PSTAT_STATE 2).raise (2 + p) 0 0).now = s.now := by
    rw [hraise.now, State.now, State.now, hsel, setFld_tb]
  rw [State.tlSetState, if_neg h]
  simp only [OfNat.ofNat_ne_zero, if_false, true_and, hup, hmaster, hnow]
  rfl

theorem tlComma_down {s : State} {p : Nat} (hen : s.tlEn = true) (h : s.tlState p = 0) :
    s.tlComma p = (s.setFld (TL_PSTAT p) fTL_PSTAT_STATE 1).raise (2 + p) 0 0 := by
  rw [State.tlComma, hen, h, ← tlSetState_align h]
  rfl

theorem tlAligned_align {s : State} {p : Nat} (hen : s.tlEn = true) (h : s.tlState p = 1) :
    s.tlAligned p = (s.setTlp p { s.tlp p with viol := [], violSeen := false }).tlSetState p 2 := by
  rw [State.tlAligned, hen, h]
  rfl

/-! ### What a master sends (R51, R53) -/

theorem tlSendReq_up {s : State} {p : Nat} (t1 : Stamp) (hen : s.tlEn = true) (hmaster : s.tlMaster = true) (hup : s.tlState p = 2) :
    s.tlSendReq p t1 = (s.tookFree.tlSend (mkFrame p 1 s.tlId (s.freeVal.extractLsb' 0 8).toNat 0
      (natBytes 8 t1.toNat ++ natBytes 8 (if (s.tlp p).awaiting then (0 : Stamp) else (s.tlp p).t4).toNat))).setTlp p
        { s.tlp p with t4 := 0, awaiting := true } := by
  rw [State.tlSendReq, State.downstream, hen, hmaster, hup]
  rfl

theorem tlSendReq_notUp {s : State} {p : Nat} (t1 : Stamp) (h : s.tlState p ≠ 2) : s.tlSendReq p t1 = s := by
  simp [State.tlSendReq, h]

/-- The frame of one port leaves the state of every link as it is. -/
theorem tlState_tlSendReq (s : State) (p : Nat) (t1 : Stamp) (q : Nat) : (s.tlSendReq p t1).tlState q = s.tlState q := by
  unfold State.tlSendReq
  split
  · exact tlState_of_reg ((setTlp_reg _ _ _ _).trans (reg_tlSend _ _ _))
  · rfl

theorem tlSendTime_up {s : State} {p : Nat} (dep : Stamp) (hen : s.tlEn = true) (hmaster : s.tlMaster = true) (hup : s.tlState p = 2) :
    s.tlSendTime p dep = { s with tl.tx := s.tl.tx ++ [mkFrame p 3 s.tlId 0xFF 0 (natBytes 8 dep.toNat ++ [0])] } := by
  rw [State.tlSendTime, if_pos hmaster, tlSend_mkFrame_up _ _ _ _ _ hen hup]

theorem reg_tlSendTime (s : State) (p : Nat) (dep : Stamp) (o : Nat) : (s.tlSendTime p dep).reg o = s.reg o := by
  unfold State.tlSendTime
  split
  · exact reg_tlSend _ _ _
  · rfl

theorem tlSendTime_both {s : State} (d0 d1 : Stamp) (hen : s.tlEn = true) (hmaster : s.tlMaster = true) (h0 : s.tlState 0 = 2)
    (h1 : s.tlState 1 = 2) :
    (s.tlSendTime 0 d0).tlSendTime 1 d1 = { s with tl := { s.tl with tx := s.tl.tx ++
      [mkFrame 0 3 s.tlId 0xFF 0 (natBytes 8 d0.toNat ++ [0]), mkFrame 1 3 s.tlId 0xFF 0 (natBytes 8 d1.toNat ++ [0])] } } := by
  have hreg (o : Nat) := reg_tlSendTime s 0 d0 o
  have hid : (s.tlSendTime 0 d0).tlId = s.tlId := fld_of_reg (hreg _)
  rw [tlSendTime_up d1 ((flag_of_reg (hreg _)).trans hen) ((flag_of_reg (hreg _)).trans hmaster) ((tlState_of_reg (hreg _)).trans h1),
    hid, tlSendTime_up d0 hen hmaster h0]
  simp

/-! ### Frames received (R47, R49, R50, R52, R53, R57, R58) -/

/-- A slave that tracks makes no step. -/
theorem tlAcquireStep_track {s : State} (f : TlFrame) (tin : Stamp) (h : s.servo = 1) : s.tlAcquireStep f tin = s := by
  simp [State.tlAcquireStep, h]

theorem servo_tlForwardTime (s : State) (f : TlFrame) (tin : Stamp) (hops : Nat) (arr dep : Stamp) :
    (s.tlForwardTime f tin hops arr dep).servo = s.servo := by
  unfold State.tlForwardTime
  split
  · exact fld_of_reg (reg_tlSend _ _ _)
  · rfl

/-- The hop count shares its register with the servo's state. -/
theorem servo_setHops (s : State) (hops : Nat) : (s.setFld TL_STAT fTL_STAT_HOPS hops).servo = s.servo :=
  fld_setFld_other _ _ _ _ _ (by decide) (by decide)

/-- A frame for this device alone is taken and not forwarded. -/
theorem tlForMe_of_dst {s : State} {f : TlFrame} (hsrc : f.src ≠ s.tlId) (hdst : f.dst = s.tlId) (hown : f.dst ≠ 0xFF) :
    s.tlForMe f = true ∧ s.tlForward f = s := by
  constructor
  · rw [State.tlForMe, bne_iff_ne.mpr hsrc, hdst, beq_self_eq_true, Bool.or_true]
    rfl
  · rw [State.tlForward, if_pos (.inr (.inr ⟨hdst, hown⟩))]

section
variable {s : State} {f : TlFrame} (hcheck : s.tlCheck f = (true, s)) (hsrc : f.src ≠ s.tlId)
include hcheck hsrc

theorem tlTime_master (arr dep : Stamp) (hmaster : s.tlMaster = true) :
    s.tlTime f arr dep = (s.setFlag TL_STAT fTL_STAT_DUALMASTER true).raise 4 0 0 := by
  simp only [State.tlTime, hcheck, Bool.true_and, bne_iff_ne.mpr hsrc, hmaster, if_true]

/-- A TIME frame on the UPPORT before a measurement is noted. -/
theorem tlTime_unmeasured (arr dep : Stamp) (hmaster : s.tlMaster = false) (hport : f.port = s.upport) (hm : s.tl.measured = false) :
    s.tlTime f arr dep = s.setTlp f.port { s.tlp f.port with timeSeen := true } := by
  have hup (x : TlPort) : f.port = (s.setTlp f.port x).upport := hport
  have hmeas (x : TlPort) : (s.setTlp f.port x).tl.measured = false := hm
  simp only [State.tlTime, hcheck, Bool.true_and, bne_iff_ne.mpr hsrc, hmaster, Bool.false_eq_true, if_true, if_false]
  rw [if_pos (hup _), hmeas, if_neg Bool.false_ne_true]

/-- A TIME frame on the UPPORT of a slave that tracks gives the hop count and is forwarded. -/
theorem tlTime_track (arr dep : Stamp) (hmaster : s.tlMaster = false) (hport : f.port = s.upport) (hm : s.tl.measured = true)
    (hservo : s.servo = 1) :
    s.tlTime f arr dep =
      (((s.setTlp f.port { s.tlp f.port with timeSeen := true }).setFld TL_STAT fTL_STAT_HOPS (bytesNatOf (f.payload.drop 8))).tlForwardTime f
        (.ofNat 64 (bytesNatOf (f.payload.take 8))) (bytesNatOf (f.payload.drop 8)) arr dep) := by
  have hup (x : TlPort) : f.port = (s.setTlp f.port x).upport := hport
  have hmeas (x : TlPort) : (s.setTlp f.port x).tl.measured = true := hm
  have hserve (x : TlPort) : (s.setTlp f.port x).servo = 1 := hservo
  simp only [State.tlTime, hcheck, Bool.true_and, bne_iff_ne.mpr hsrc, hmaster, Bool.false_eq_true, if_true, if_false]
  rw [if_pos (hup _), if_pos (hmeas _), tlAcquireStep_track]
  rw [servo_tlForwardTime, servo_setHops, hserve]

theorem bcastRx_eq : s.bcastRx f =
    let t : Stamp := .ofNat 64 (bytesNatOf (f.payload.drop 1))
    let n := bytesNatOf (f.payload.take 1) % 16
    let u := (s.tlForward f).btime n t
    if f.port = s.upport then (u.armTlcmd n t).tlcmdDue else u := by
  simp only [State.bcastRx, State.tlBcastRx, hcheck, Bool.true_and, bne_iff_ne.mpr hsrc, if_true, beq_iff_eq]

variable (hdst : f.dst = s.tlId) (hown : f.dst ≠ 0xFF)
include hdst hown

/-- A SYNC_REQ on the UPPORT of a slave that has no exchange to complete. -/
theorem tlSyncReq_first (t2 t3 : Stamp) (hen : s.tlEn = true) (hst : s.tlState f.port = 2) (hmaster : s.tlMaster = false)
    (hport : f.port = s.upport) (hx : s.tl.exch = none) :
    s.tlSyncReq f t2 t3 = { s with tl := { s.tl with
      tx := s.tl.tx ++ [mkFrame f.port 2 s.tlId f.src 0 (natBytes 8 t2.toNat ++ natBytes 8 t3.toNat)]
      exch := some (.ofNat 64 (bytesNatOf (f.payload.take 8)), t2, t3)
      due := some (missedAt t3) } } := by
  obtain ⟨hme, hfwd⟩ := tlForMe_of_dst hsrc hdst hown
  have hcomplete (t4 : Stamp) : s.tlComplete t4 = s := by rw [State.tlComplete, hx]
  simp only [State.tlSyncReq, hcheck, hfwd, hme, hmaster, beq_iff_eq.mpr hport, hcomplete,
    tlSend_mkFrame_up _ _ _ _ _ hen hst, Bool.not_true, Bool.not_false, Bool.and_self, Bool.false_eq_true, if_true, if_false]

theorem tlSyncResp_awaited (t4 : Stamp) (hdown : s.downstream f.port = true) (hwait : (s.tlp f.port).awaiting = true) :
    s.tlSyncResp f t4 = s.setTlp f.port { s.tlp f.port with t4 := t4, awaiting := false } := by
  obtain ⟨hme, hfwd⟩ := tlForMe_of_dst hsrc hdst hown
  simp only [State.tlSyncResp, hcheck, hfwd, hme, hdown, hwait, Bool.not_true, Bool.and_self, Bool.false_eq_true, if_true, if_false]

/-- A fragment that starts a message goes to a free mailbox. -/
theorem mboxRx_free {m : Nat} (hnew : s.peerOf f.src = none) (hfree : s.peerFree = some m) : s.mboxRx f =
    State.peerTake { s with mb.peerFirst := tset (fun _ => 0) s.mb.peerFirst m (bytesNatOf (f.payload.take 2)) } f m
      (bytesNatOf (f.payload.take 2)) (f.payload.drop 2) := by
  obtain ⟨hme, hfwd⟩ := tlForMe_of_dst hsrc hdst hown
  simp only [State.mboxRx, hcheck, hfwd, hme, hnew, hfree, Bool.not_true, Bool.false_eq_true, if_false]

/-- With every peer mailbox taken it is counted and answered busy. -/
theorem mboxRx_busy (hnew : s.peerOf f.src = none) (hfree : s.peerFree = none) :
    s.mboxRx f = (s.inc TL_MBOX_BUSY).peerAck f (bytesNatOf (f.payload.take 2)) 1 := by
  obtain ⟨hme, hfwd⟩ := tlForMe_of_dst hsrc hdst hown
  simp only [State.mboxRx, hcheck, hfwd, hme, hnew, hfree, Bool.not_true, Bool.false_eq_true, if_false]

/-- A busy answer puts the fragment in flight on the retry list. -/
theorem mboxAck_busy {g : TlFrame} (hg : s.flightOf f.src (bytesNatOf (f.payload.take 2)) = some g)
    (hbusy : bytesNatOf ((f.payload.drop 2).take 1) ≠ 0) :
    s.mboxAck f = { s with tl := { s.tl with
      inFlight := s.tl.inFlight.erase g
      retry := s.tl.retry ++ [({ frame := g, due := s.now + 429497 } : TlRetry)] } } := by
  obtain ⟨hme, hfwd⟩ := tlForMe_of_dst hsrc hdst hown
  simp only [State.mboxAck, hcheck, hfwd, hme, hg, hbusy, Bool.not_true, Bool.false_eq_true, if_false]
  rfl
end

/-- Fewer bytes than a header complete no message: the fragment is stored and acknowledged. -/
theorem peerTake_short {s : State} {f : TlFrame} {m : Nat} (seq : Nat) {bs : List Byte} (hlen : tget (fun _ => 0) s.mb.peerLen m = 0)
    (hbs : bs.length < 16) : s.peerTake f m seq bs =
      let u := s.peerStore m 0 bs
      State.peerAck { u with mb := { u.mb with
        peerLen := tset (fun _ => 0) u.mb.peerLen m bs.length
        peerSrc := tset (fun _ => 0) u.mb.peerSrc m (f.src + 256 * f.port)
        peerNext := tset (fun _ => 0) u.mb.peerNext m ((seq + 1) % 65536) } } f seq 0 := by
  simp only [State.peerTake, hlen, Nat.zero_add]
  exact if_neg (fun h => absurd h.1 (Nat.not_le.mpr hbs))

/-- A fragment whose time has come is in flight again and sent. -/
theorem mboxRetry_due {s : State} {r : TlRetry} (hr : s.tl.retry = [r]) (hdue : reached r.due s.now = true) (hen : s.tlEn = true)
    (hup : s.tlState r.frame.port = 2) :
    s.mboxRetry = { s with tl := { s.tl with
      retry := [], inFlight := s.tl.inFlight ++ [r.frame], tx := s.tl.tx ++ [r.frame] } } := by
  have hdueList : [r].filter (fun r => reached r.due s.now) = [r] := by rw [List.filter_singleton, hdue]; rfl
  have hrest : [r].filter (fun r => !reached r.due s.now) = [] := by rw [List.filter_singleton, hdue]; rfl
  simp only [State.mboxRetry, hr, hdueList, hrest, List.map_cons, List.map_nil, List.foldl_cons, List.foldl_nil]
  exact tlSend_up hen hup

/-- Without a SYNC_REQ in time an exchange is missed; below three in a row the servo goes on (R53, R55). -/
theorem tlTimeout_missed {s : State} {t : Stamp} (ht : s.tl.due = some t) (hnow : reached t s.now = true) (hmaster : s.tlMaster = false)
    (hm : s.tl.missed < 2) :
    s.tlTimeout = { s.inc TL_SYNC_MISSED with tl := { s.tl with missed := s.tl.missed + 1, exch := none, due := some (t + 4294967) } } := by
  have hfew : ¬ 3 ≤ s.tl.missed + 1 := by omega
  simp only [State.tlTimeout, ht, hmaster, hnow, Bool.not_false, Bool.and_self, if_true]
  exact if_neg hfew

/-! ### The commands of the link while CLK_FAST clocks the units -/

section
variable {s : State} (h : s.live = true)
include h

theorem exec_tlCommaReceived (port : Fin 2) : exec (.tlCommaReceived port) s = .next (s.tlComma port) :=
  congrArg Host.Outcome.next (if_pos h)

theorem exec_tlAlignComplete (port : Fin 2) : exec (.tlAlignComplete port) s = .next (s.tlAligned port) :=
  congrArg Host.Outcome.next (if_pos h)

theorem exec_syncReqSend (k : Nat × Nat) :
    exec (.syncReqSend k) s = .next ((s.tlSendReq 0 (s.lineStamp k.1)).tlSendReq 1 (s.lineStamp k.2)) :=
  congrArg Host.Outcome.next (if_pos h)

theorem exec_timeSend (k : Nat × Nat) :
    exec (.timeSend k) s = .next ((s.tlSendTime 0 (s.lineStamp k.1)).tlSendTime 1 (s.lineStamp k.2)) :=
  congrArg Host.Outcome.next (if_pos h)

theorem exec_syncReq (f : Frame) (k dt : Nat) :
    exec (.syncReq f k dt) s = .next (s.tlSyncReq (frameAs f 1) (s.arrivalStamp k) (s.lineStamp k + .ofNat 64 dt)) :=
  congrArg Host.Outcome.next (if_pos h)

theorem exec_syncResp (f : Frame) (k : Nat) : exec (.syncResp f k) s = .next (s.tlSyncResp (frameAs f 2) (s.arrivalStamp k)) :=
  congrArg Host.Outcome.next (if_pos h)

theorem exec_syncExchangeTimeout : exec .syncExchangeTimeout s = .next s.tlTimeout := congrArg Host.Outcome.next (if_pos h)

theorem exec_time (f : Frame) (k dt : Nat) :
    exec (.time f k dt) s = .next (s.tlTime (frameAs f 3) (s.arrivalStamp k) (s.lineStamp k + .ofNat 64 dt)) :=
  congrArg Host.Outcome.next (if_pos h)

theorem exec_bcast (f : Frame) : exec (.bcast f) s = .next (s.bcastRx (frameAs f 0x10)) := congrArg Host.Outcome.next (if_pos h)

theorem exec_mbox (f : Frame) : exec (.mbox f) s = .next (s.mboxRx (frameAs f 0x20)) := congrArg Host.Outcome.next (if_pos h)

theorem exec_mboxAck (f : Frame) : exec (.mboxAck f) s = .next (s.mboxAck (frameAs f 0x21)) := congrArg Host.Outcome.next (if_pos h)

theorem exec_mboxRetry : exec .mboxRetry s = .next s.mboxRetry := congrArg Host.Outcome.next (if_pos h)
end

/-! ### The obligation on the link -/

/-- Settles O7: the states of a link by what a change of them raises, a frame by whether it is for this device, and a fragment by
whether a mailbox is free. -/
theorem tallyLinkAndPeerMail : Obligations.TallyLinkAndPeerMail := by
  unfold Obligations.TallyLinkAndPeerMail
  refine ⟨?violUp, ?violAlign, fun port sym rd valid gap s => exec_tlCodeViolation_none s port sym rd valid gap,
    codeViolation_encData, codeViolation_encCtl, ?comma, ?commaRest, ?aligned, ?reqSend, ?timeSend, ?req, ?resp, ?timeout,
    ?timeMaster, ?timeNoted, ?timeForward, ?bcast, ?fragment, ?busy, ?ackBusy, ?retry⟩
  case violUp =>
    intro port sym rd valid gap s hlive hen hst hv
    rw [exec_tlCodeViolation port sym rd valid gap hlive hv, tlViolation_enabled _ _ hen]
    simp only [hst, OfNat.ofNat_ne_one, if_false, true_and]
  case violAlign =>
    intro port sym rd valid gap s hlive hen hst hv
    rw [exec_tlCodeViolation port sym rd valid gap hlive hv, tlViolation_enabled _ _ hen, if_pos hst]
  case comma =>
    intro port s hlive hen hst
    rw [exec_tlCommaReceived hlive, tlComma_down hen hst]
  case commaRest =>
    intro port s hrest
    have hlive : s.live = false := by simp [State.live, hrest]
    change Host.Outcome.next (if s.live then s.tlComma port else if s.pw.mode = .rest then _ else s) = _
    rw [hlive, if_neg Bool.false_ne_true, if_pos hrest]
  case aligned =>
    intro port s hlive hen hst
    rw [exec_tlAlignComplete hlive, tlAligned_align hen hst, tlSetState_up (by rw [tlState_of_reg (setTlp_reg _ _ _ _), hst]; decide)]
    rfl
  case reqSend =>
    intro k0 k1 s hlive hen hmaster h0 h1
    rw [exec_syncReqSend hlive, tlSendReq_notUp (p := 1) _ (by rw [tlState_tlSendReq]; exact h1), tlSendReq_up _ hen hmaster h0]
  case timeSend =>
    intro k0 k1 s hlive hen hmaster h0 h1
    rw [exec_timeSend hlive, tlSendTime_both _ _ hen hmaster h0 h1]
  case req =>
    intro f k dt s hlive hcheck hen hst hmaster hport hsrc hdst hown hx
    exact (exec_syncReq hlive f k dt).trans (congrArg _ (tlSyncReq_first hcheck hsrc hdst hown _ _ hen hst hmaster hport hx))
  case resp =>
    intro f k s hlive hcheck hdown hsrc hdst hown hwait
    exact (exec_syncResp hlive f k).trans (congrArg _ (tlSyncResp_awaited hcheck hsrc hdst hown _ hdown hwait))
  case timeout =>
    intro s t hlive ht hnow hmaster hm
    exact (exec_syncExchangeTimeout hlive).trans (congrArg _ (tlTimeout_missed ht hnow hmaster hm))
  case timeMaster =>
    intro f k dt s hlive hcheck hsrc hmaster
    exact (exec_time hlive f k dt).trans (congrArg _ (tlTime_master hcheck hsrc _ _ hmaster))
  case timeNoted =>
    intro f k dt s hlive hcheck hsrc hmaster hport hm
    exact (exec_time hlive f k dt).trans (congrArg _ (tlTime_unmeasured hcheck hsrc _ _ hmaster hport hm))
  case timeForward =>
    intro f k dt s hlive hcheck hsrc hmaster hport hm hservo
    exact (exec_time hlive f k dt).trans (congrArg _ (tlTime_track hcheck hsrc _ _ hmaster hport hm hservo))
  case bcast =>
    intro f s hlive hcheck hsrc
    exact (exec_bcast hlive f).trans (congrArg _ (bcastRx_eq hcheck hsrc))
  case fragment =>
    intro f s m hshort hlive hcheck hsrc hdst hown hnew hfree hlen
    refine (exec_mbox hlive f).trans (congrArg _ ((mboxRx_free hcheck hsrc hdst hown hnew hfree).trans ?_))
    exact peerTake_short _ hlen (by rw [List.length_drop]; exact Nat.lt_of_le_of_lt (Nat.sub_le _ _) hshort)
  case busy =>
    intro f s hlive hcheck hsrc hdst hown hnew hfree
    exact (exec_mbox hlive f).trans (congrArg _ (mboxRx_busy hcheck hsrc hdst hown hnew hfree))
  case ackBusy =>
    intro f s g hlive hcheck hsrc hdst hown hg hbusy
    exact (exec_mboxAck hlive f).trans (congrArg _ (mboxAck_busy hcheck hsrc hdst hown hg hbusy))
  case retry =>
    intro s r hlive hr hdue hen hup
    exact (exec_mboxRetry hlive).trans (congrArg _ (mboxRetry_due hr hdue hen hup))

end Sys2Proof.Machine
end

section
/-!
Proofs about the data instructions of Kamyn (04_kamyn_instruction_set.md R105 to R108, R117, R118): the rows of the ALU and
accumulator groups, said once for each way a row is built.
-/

namespace Sys2Proof.Machine

/-! ### The rows of the data groups -/

section
variable {c : Core} {w : Word} {s t : State} {f rd ra rb : Nat} {x : Bool} (h : s.fetched c w = some t)
include h

/-- A row of the ALU table, fetched, ends with the value and flags of its operands. -/
theorem aluRow_fetched (g : Nat → Bool → Word → Word → Int × Nat) (ho : kOp w = some (.alu f rd ra rb x)) :
    aluRow f g c w s = .next (s.resulted c w t rd (if aluUnary f then [rb] else [ra, rb])
      (g (s.kBank c).rnd ((s.kBank c).sat || x) ((s.kBank c).gd ra) ((s.kBank c).gd rb))) :=
  (kamyn_fetched h ho (if_pos rfl) (kIllegal_of ho (by simp) rfl)).trans rfl

/-- CLIP of a D register between two others. -/
theorem execClip_fetched (ho : kOp w = some (.alu 0x0C rd ra rb x)) (hra : isAC ra = false) :
    execClip c w s = .next (s.resulted c w t rd [ra, rb, rb + 1]
      (let b := s.kBank c
       let m := if b.di ra < b.di rb then b.di rb else b.di ra
       (if b.di (rb + 1) < m then b.di (rb + 1) else m, 0))) := by
  refine (kamyn_fetched h ho rfl (kIllegal_of ho (by simp) rfl)).trans ?_
  simp only [hra, Bool.false_eq_true, if_false]
  rfl

/-- MAC, MSU and MPY. -/
theorem macRow_fetched (g : Bool → Int → Int → Int × Nat) (keeps : Bool) (ho : kOp w = some (.acc f rd ra rb x)) :
    macRow f g keeps c w s = .next (s.resulted c w t rd (if keeps then [rd, ra, rb] else [ra, rb])
      (g ((s.kBank c).sat || x) ((s.kBank c).aci rd) (macProduct (f % 4) ((s.kBank c).gd ra) ((s.kBank c).gd rb)))) :=
  (kamyn_fetched h ho (if_pos rfl) (kIllegal_of ho (by simp) rfl)).trans rfl

/-- The other rows of the accumulator table. -/
theorem accRow_fetched (srcs : Nat → Nat → Nat → List Nat) (g : Bank → Bool → Nat → Nat → Nat → Int × Nat)
    (ho : kOp w = some (.acc f rd ra rb x)) :
    accRow f srcs g c w s = .next (s.resulted c w t rd (srcs rd ra rb) (g (s.kBank c) ((s.kBank c).sat || x) rd ra rb)) :=
  (kamyn_fetched h ho (if_pos rfl) (kIllegal_of ho (by simp) rfl)).trans rfl
end

theorem isAC_of_isD {n : Nat} (h : isD n = true) : isAC n = false := by
  simp only [isD, decide_eq_true_eq] at h
  simp only [isAC, Bool.and_eq_false_iff, decide_eq_false_iff_not]
  omega

/-! ### The obligations -/

/-- Settles O11: each row gives its value and flags by `aluRow_fetched`; CLIP takes its operand from a D register here. -/
theorem kamynArithmetic : Obligations.KamynArithmetic := by
  unfold Obligations.KamynArithmetic
  refine ⟨?add, ?sub, ?neg, ?abs, ?mul, ?mull, ?mulh, ?add2, ?sub2, ?mul2, ?min, ?max, ?clip, ?norm⟩
  all_goals intro c w s t rd ra rb x h ho
  case add => exact show execAdd c w s = _ from aluRow_fetched h _ ho
  case sub => exact show execSub c w s = _ from aluRow_fetched h _ ho
  case neg => exact show execNeg c w s = _ from aluRow_fetched h _ ho
  case abs => exact show execAbs c w s = _ from aluRow_fetched h _ ho
  case mul => exact show execMul c w s = _ from aluRow_fetched h _ ho
  case mull => exact show execMull c w s = _ from aluRow_fetched h _ ho
  case mulh => exact show execMulh c w s = _ from aluRow_fetched h _ ho
  case add2 => exact show execAdd2 c w s = _ from aluRow_fetched h _ ho
  case sub2 => exact show execSub2 c w s = _ from aluRow_fetched h _ ho
  case mul2 => exact show execMul2 c w s = _ from aluRow_fetched h _ ho
  case min => exact show execMin c w s = _ from aluRow_fetched h _ ho
  case max => exact show execMax c w s = _ from aluRow_fetched h _ ho
  case clip => exact fun hd => show execClip c w s = _ from execClip_fetched h ho (isAC_of_isD hd)
  case norm => exact show execNorm c w s = _ from aluRow_fetched h _ ho

/-- Settles O12: rows of the ALU table, like those of arithmetic. -/
theorem kamynLogic : Obligations.KamynLogic := by
  unfold Obligations.KamynLogic
  refine ⟨?and, ?or, ?xor, ?andn, ?not, ?shl, ?shr, ?sar⟩
  all_goals intro c w s t rd ra rb x h ho
  case and => exact show execAnd c w s = _ from aluRow_fetched h _ ho
  case or => exact show execOr c w s = _ from aluRow_fetched h _ ho
  case xor => exact show execXor c w s = _ from aluRow_fetched h _ ho
  case andn => exact show execAndn c w s = _ from aluRow_fetched h _ ho
  case not => exact show execNot c w s = _ from aluRow_fetched h _ ho
  case shl => exact show execShl c w s = _ from aluRow_fetched h _ ho
  case shr => exact show execShr c w s = _ from aluRow_fetched h _ ho
  case sar => exact show execSar c w s = _ from aluRow_fetched h _ ho

/-- Settles O15: the products by `macRow_fetched`, the whole-accumulator operations by `accRow_fetched`. -/
theorem kamynAccumulators : Obligations.KamynAccumulators := by
  unfold Obligations.KamynAccumulators
  refine ⟨?macF, ?msuF, ?mpyF, ?macI, ?msuI, ?mpyI, ?macD, ?msuD, ?mpyD, ?aclr, ?acadd, ?acsub, ?acneg, ?acsh, ?sac, ?ldac,
    ?acrd, ?acwr⟩
  all_goals intro c w s t rd ra rb x h ho
  case macF => exact show execMacF c w s = _ from macRow_fetched h _ true ho
  case msuF => exact show execMsuF c w s = _ from macRow_fetched h _ true ho
  case mpyF => exact show execMpyF c w s = _ from macRow_fetched h _ false ho
  case macI => exact show execMacI c w s = _ from macRow_fetched h _ true ho
  case msuI => exact show execMsuI c w s = _ from macRow_fetched h _ true ho
  case mpyI => exact show execMpyI c w s = _ from macRow_fetched h _ false ho
  case macD => exact show execMacD c w s = _ from macRow_fetched h _ true ho
  case msuD => exact show execMsuD c w s = _ from macRow_fetched h _ true ho
  case mpyD => exact show execMpyD c w s = _ from macRow_fetched h _ false ho
  case aclr => exact show execAclr c w s = _ from accRow_fetched h _ _ ho
  case acadd => exact show execAcadd c w s = _ from accRow_fetched h _ _ ho
  case acsub => exact show execAcsub c w s = _ from accRow_fetched h _ _ ho
  case acneg => exact show execAcneg c w s = _ from accRow_fetched h _ _ ho
  case acsh => exact show execAcsh c w s = _ from accRow_fetched h _ _ ho
  case sac => exact show execSac c w s = _ from accRow_fetched h _ _ ho
  case ldac => exact show execLdac c w s = _ from accRow_fetched h _ _ ho
  case acrd => exact show execAcrd c w s = _ from accRow_fetched h _ _ ho
  case acwr => exact show execAcwr c w s = _ from accRow_fetched h _ _ ho

end Sys2Proof.Machine
end

section
/-!
Proofs about what Kamyn instructions leave unchanged (04_kamyn_instruction_set.md R71, R100, R108, R112; 03_loop_engines.md R64 to R68,
R75): the registers of a bank, the end of an instruction of an engine, and the stores of an engine.
-/

namespace Sys2Proof.Machine

/-! ### One register of a bank (R71, R100) -/

/-- Two banks hold the same value and the same poison bit in register n. -/
def Bank.Agree (x y : Bank) (n : Nat) : Prop := x.get n = y.get n ∧ x.pois n = y.pois n

theorem Bank.Agree.refl (x : Bank) (n : Nat) : x.Agree x n := ⟨rfl, rfl⟩

theorem Bank.Agree.trans {x y z : Bank} {n : Nat} (h : x.Agree y n) (g : y.Agree z n) : x.Agree z n :=
  ⟨h.1.trans g.1, h.2.trans g.2⟩

theorem pois_setPois_ne (x : Bank) (p : Bool) {n m : Nat} (hn : n < 32) (h : n ≠ m) : (x.setPois m p).pois n = x.pois n := by
  have hbit (v : Nat) : bitOf (v % 2 ^ 32) n = bitOf v n := by
    have := Nat.testBit_mod_two_pow v 32 n
    simp only [Nat.testBit_eq_decide_div_mod_eq, hn, decide_true, Bool.true_and] at this
    simpa only [bitOf, beq_eq_decide] using this
  simp only [Bank.pois, Bank.setPois, BitVec.toNat_ofNat, hbit]
  rcases Nat.lt_or_gt_of_ne h with h | h
  · simpa [bitOf, bitsOf] using congrArg (· == 1) (bitsOf_withBits_below x.poison.toNat m 1 (b2n p) n 1 h)
  · simpa [bitOf, bitsOf] using congrArg (· == 1) (bitsOf_withBits_above x.poison.toNat m 1 (b2n p) n 1 h)

theorem put_agree_ne (x : Bank) (v : Nat) (p : Bool) {n m : Nat} (hn : n < 32) (h : n ≠ m) : (x.put m v p).Agree x n := by
  refine ⟨?get, ?pois⟩
  case pois =>
    rw [Bank.put, pois_setPois_ne _ _ hn h]
    split <;> [skip; (split <;> [skip; split])] <;> rfl
  case get =>
    simp only [Bank.put, Bank.get, Bank.gd, Bank.ga, Bank.gm, Bank.gac, Bank.setPois]
    grind [tget_tset]

theorem putI_agree_ne (x : Bank) (v : Int) (p : Bool) {n m : Nat} (hn : n < 32) (h : n ≠ m) : (x.putI m v p).Agree x n :=
  put_agree_ne x _ p hn h

/-- What an instruction ends with leaves every register of the bank (R110). -/
theorem modeTick_agree (x : Bank) (n : Nat) : x.modeTick.Agree x n := by
  have applied (l : List (Nat × Word)) (y : Bank) : (l.foldl (fun x e => x.applyMode e.2) y).Agree y n := by
    induction l generalizing y with
    | nil => exact .refl y n
    | cons e l ih => exact (ih (y.applyMode e.2)).trans ⟨rfl, rfl⟩
  exact applied _ x

/-! ### What stays with one engine -/

/-- Nothing but engine p and the memories differs, and the slots of the engine stand. -/
structure OwnEngine (p : Nat) (s u : State) : Prop where
  regs : u.regs = s.regs
  sh : u.sh = s.sh
  others : ∀ q, q ≠ p → u.eng q = s.eng q
  slots : (u.eng p).slots = (s.eng p).slots

/-- The bytes of memory and their marks stand. -/
def KeepsMemory (s u : State) : Prop := u.mem = s.mem ∧ u.marks = s.marks

theorem eng_setEng_same (s : State) (p : Nat) (e : Eng) : (s.setEng p e).eng p = e := tget_tset_same _ _ _ _

theorem eng_setEng_ne (s : State) (e : Eng) {p q : Nat} (h : q ≠ p) : (s.setEng p e).eng q = s.eng q := tget_tset_ne _ _ _ h

namespace OwnEngine

variable {p : Nat} {s t u : State}

theorem refl (p : Nat) (s : State) : OwnEngine p s s := ⟨rfl, rfl, fun _ _ => rfl, rfl⟩

theorem trans (h : OwnEngine p s t) (g : OwnEngine p t u) : OwnEngine p s u :=
  ⟨g.regs.trans h.regs, g.sh.trans h.sh, fun q hq => (g.others q hq).trans (h.others q hq), g.slots.trans h.slots⟩

theorem setEng (s : State) {e : Eng} (h : e.slots = (s.eng p).slots) : OwnEngine p s (s.setEng p e) :=
  ⟨rfl, rfl, fun _ hq => eng_setEng_ne s e hq, (congrArg Eng.slots (eng_setEng_same s p e)).trans h⟩

theorem setBank (s : State) (p b : Nat) (x : Bank) : OwnEngine p s (s.setBank p b x) := setEng s rfl

theorem setDist (s : State) (p n : Nat) : OwnEngine p s (s.setDist p n) := setEng s rfl

theorem stepped (s : State) (p : Nat) : OwnEngine p s (s.stepped p) := by
  unfold State.stepped
  split
  · exact setEng s rfl
  · exact refl p s

theorem reg (h : OwnEngine p s u) (off : Nat) : u.reg off = s.reg off := congrArg (tget regReset · off) h.regs

theorem fld (h : OwnEngine p s u) (off : Nat) (f : Fld) : u.fld off f = s.fld off f := fld_of_reg (h.reg off)

theorem running (h : OwnEngine p s u) : u.running p = s.running p := by
  simp only [State.running, State.slotState, h.fld]

theorem runBank (h : OwnEngine p s u) : u.runBank p = s.runBank p := by
  simp only [State.runBank, State.slotPri, h.running, h.fld]

theorem late (h : OwnEngine p s u) : u.late p = s.late p := by
  simp only [State.late, State.slot, State.flag, h.running, h.slots, h.fld]

end OwnEngine

theorem bank_setBank_same (s : State) (p b : Nat) (x : Bank) : (s.setBank p b x).bank p b = x := by
  simp only [State.setBank, State.bank, eng_setEng_same, tget_tset_same]

theorem bank_setDist (s : State) (p n b : Nat) : (s.setDist p n).bank p b = s.bank p b := by
  simp only [State.setDist, State.bank, eng_setEng_same]

theorem bank_stepped (s : State) (p b : Nat) : (s.stepped p).bank p b = s.bank p b := by
  unfold State.stepped
  split
  · simp only [State.bank, eng_setEng_same]
  · rfl

/-! ### A safe point and the end of an instruction (06_microcode.md R182, R184) -/

section
variable {p : Fin 72} {s : State} (hl : s.late p = false)
include hl

theorem lateAbandon_of_not_late : s.lateAbandon p = s := by
  unfold State.late at hl
  unfold State.lateAbandon
  split
  · rename_i k hk
    rw [hk, Option.any_some] at hl
    rw [if_neg (by simp [hl])]
  · rfl

theorem atSafe_of_not_late : s.atSafe (.eng p) = (s.setDist p 0).stepped p :=
  lateAbandon_of_not_late ((((OwnEngine.setDist s p 0).trans (OwnEngine.stepped _ p)).late).trans hl)

theorem atSafe_keeps : OwnEngine p s (s.atSafe (.eng p)) ∧ KeepsMemory s (s.atSafe (.eng p))
    ∧ (s.atSafe (.eng p)).kBank (.eng p) = s.kBank (.eng p) := by
  have own : OwnEngine p s ((s.setDist p 0).stepped p) := (OwnEngine.setDist s p 0).trans (OwnEngine.stepped _ p)
  have mem : KeepsMemory s ((s.setDist p 0).stepped p) := by
    unfold State.stepped
    split <;> exact ⟨rfl, rfl⟩
  rw [atSafe_of_not_late hl]
  refine ⟨own, mem, ?_⟩
  rw [State.kBank, State.kBank, own.runBank, bank_stepped, bank_setDist]

/-- A placed bank, and a safe point after it. -/
theorem atSafe_setKBank (x : Bank) : let u := (s.setKBank (.eng p) x).atSafe (.eng p)
    OwnEngine p s u ∧ KeepsMemory s u ∧ u.kBank (.eng p) = x := by
  intro u
  have own : OwnEngine p s (s.setKBank (.eng p) x) := OwnEngine.setBank s p _ x
  obtain ⟨hown, hmem, hbank⟩ := atSafe_keeps (p := p) (own.late.trans hl)
  refine ⟨own.trans hown, hmem, hbank.trans ?_⟩
  rw [State.kBank, own.runBank]
  exact bank_setBank_same s p _ x

/-- The end of an instruction of an engine: its bank is placed, and nothing else but what stays with the engine. -/
theorem kEnd_keeps (x : Bank) : let u := s.kEnd (.eng p) x
    OwnEngine p s u ∧ KeepsMemory s u ∧ ∀ n, (u.kBank (.eng p)).Agree x n := by
  intro u
  obtain ⟨hown, hmem, hbank⟩ := atSafe_setKBank hl { x.modeTick with micro := x.micro.ended }
  exact ⟨hown, hmem, fun n => (congrArg (Bank.Agree · x n) hbank).mpr (modeTick_agree x n)⟩
end

/-! ### Rows with one result -/

/-- The destination of an instruction that writes one register. -/
def KOp.dest : KOp → Option Nat
  | .alu _ rd _ _ _ | .acc _ rd _ _ _ | .addr _ rd _ _ | .imm _ rd _ | .alui _ rd _ | .mov rd _ => some rd
  | _ => none

theorem kIllegal_of_dest {c : Core} {w : Word} {op : KOp} {rd : Nat} (ho : kOp w = some op) (hd : op.dest = some rd) :
    kIllegal c w = false := by
  cases op with
  | alu | acc | addr | imm | alui | mov => exact kIllegal_of ho (by simp) rfl
  | _ => cases hd

/-- What the row does with an instruction of its own is one result in the destination. -/
def OneResult (f : KOp → Option (K → KRes)) : Prop :=
  ∀ op rd run, op.dest = some rd → f op = some run → ∀ k : K, ∃ srcs r, run k = k.result rd srcs r

/-- A meaning that is a row with one result. -/
def DataRow (e : Core → Word → State → Out) : Prop := ∃ f, OneResult f ∧ ∀ c w s, e c w s = kamyn c w s f

section
variable {c : Core} {w : Word} {s t u : State} {op : KOp} {f : KOp → Option (K → KRes)} (h : s.fetched c w = some t)
include h

/-- A fetched word either is of another row, which does nothing, or its operation runs and finishes. -/
theorem kamyn_fetched_next (ho : kOp w = some op) (hi : kIllegal c w = false) (hu : kamyn c w s f = .next u) :
    u = s ∨ ∃ run, f op = some run ∧ u = (s.issue c w t).finish (run (s.issue c w t)) := by
  cases hf : f op with
  | none =>
    left
    simp only [kamyn, ho, hf, Host.Outcome.next.injEq] at hu
    exact hu.symm
  | some run =>
    right
    rw [kamyn_fetched h ho hf hi, Host.Outcome.next.injEq] at hu
    exact ⟨run, rfl, hu.symm⟩

theorem dataRow_next {e : Core → Word → State → Out} {rd : Nat} (he : DataRow e) (ho : kOp w = some op) (hd : op.dest = some rd)
    (hu : e c w s = .next u) : u = s ∨ ∃ srcs r, u = s.resulted c w t rd srcs r := by
  obtain ⟨f, hf, heq⟩ := he
  refine (kamyn_fetched_next h ho (kIllegal_of_dest ho hd) ((heq c w s).symm.trans hu)).imp id ?_
  rintro ⟨run, hrun, rfl⟩
  obtain ⟨srcs, r, hr⟩ := hf op rd run hd hrun (s.issue c w t)
  exact ⟨srcs, r, by rw [hr, finish_result]⟩
end

/-- What an instruction with one result leaves unchanged. -/
theorem dataRow_frame {e : Core → Word → State → Out} {p : Fin 72} {w : Word} {s u : State} {op : KOp} {rd : Nat} (he : DataRow e)
    (h : s.fetched (.eng p) w = some s) (hl : s.late p = false) (ho : kOp w = some op) (hd : op.dest = some rd)
    (hu : e (.eng p) w s = .next u) :
    (∀ a, u.byte a = s.byte a) ∧ u.marks = s.marks ∧ u.regs = s.regs ∧ u.sh = s.sh ∧ (∀ q, q ≠ p.val → u.eng q = s.eng q)
      ∧ (∀ n, n < 32 → n ≠ rd → (u.kBank (.eng p)).get n = (s.kBank (.eng p)).get n
          ∧ (u.kBank (.eng p)).pois n = (s.kBank (.eng p)).pois n) := by
  rcases dataRow_next h he ho hd hu with rfl | ⟨srcs, r, rfl⟩
  · exact ⟨fun _ => rfl, rfl, rfl, rfl, fun _ _ => rfl, fun _ _ _ => ⟨rfl, rfl⟩⟩
  · obtain ⟨hown, ⟨hmem, hmarks⟩, hbank⟩ := kEnd_keeps hl
      { ((s.kBank (.eng p)).raise r.2).putI rd r.1 ((s.kBank (.eng p)).poisAny srcs) with
        pc := .ofNat 24 ((s.kBank (.eng p)).pc.toNat + kLen w) }
    exact ⟨fun a => congrArg (tget memReset · a) hmem, hmarks, hown.regs, hown.sh, hown.others,
      fun n hn hne => (hbank n).trans (putI_agree_ne _ _ _ hn hne)⟩

/-- A guarded operation with one result is one. -/
theorem run_of_ite {P : Prop} [Decidable P] {rd : Nat} {srcs : K → List Nat} {r : K → Int × Nat} {run : K → KRes}
    (h : (if P then some (fun k : K => k.result rd (srcs k) (r k)) else none) = some run) (k : K) :
    ∃ srcs r, run k = k.result rd srcs r := by
  obtain ⟨-, h⟩ := Option.ite_none_right_eq_some.mp h
  cases h
  exact ⟨_, _, rfl⟩

section
variable {e : Core → Word → State → Out} {f : Nat}

theorem dataRow_aluRow {g : Nat → Bool → Word → Word → Int × Nat} (h : ∀ c w s, e c w s = aluRow f g c w s) : DataRow e := by
  refine ⟨_, fun op rd run hd hr => ?_, h⟩
  cases op with
  | alu => cases hd; exact run_of_ite hr
  | _ => cases hr

theorem dataRow_macRow {g : Bool → Int → Int → Int × Nat} {keeps : Bool}
    (h : ∀ c w s, e c w s = macRow f g keeps c w s) : DataRow e := by
  refine ⟨_, fun op rd run hd hr => ?_, h⟩
  cases op with
  | acc => cases hd; exact run_of_ite hr
  | _ => cases hr

theorem dataRow_accRow {srcs : Nat → Nat → Nat → List Nat} {g : Bank → Bool → Nat → Nat → Nat → Int × Nat}
    (h : ∀ c w s, e c w s = accRow f srcs g c w s) : DataRow e := by
  refine ⟨_, fun op rd run hd hr => ?_, h⟩
  cases op with
  | acc => cases hd; exact run_of_ite hr
  | _ => cases hr

theorem dataRow_addrRow {g : Bank → Nat → Nat → Int} (h : ∀ c w s, e c w s = addrRow f g c w s) : DataRow e := by
  refine ⟨_, fun op rd run hd hr => ?_, h⟩
  cases op with
  | addr => cases hd; exact run_of_ite hr
  | _ => cases hr

theorem dataRow_aluiRow {g : Bool → Word → Nat → Int × Nat} (h : ∀ c w s, e c w s = aluiRow f g c w s) : DataRow e := by
  refine ⟨_, fun op rd run hd hr => ?_, h⟩
  cases op with
  | alui => cases hd; exact run_of_ite hr
  | _ => cases hr
end

/-- The rows that are matched by hand. -/
theorem dataRow_matched : ∀ e ∈ [execClip, execMovi, execMovhi, execAddi, execOri, execMov], DataRow e := by
  repeat' refine List.forall_mem_cons.mpr ⟨?_, ?_⟩
  on_goal -1 => exact List.forall_mem_nil _
  all_goals
    refine ⟨_, fun op rd run hd hr => ?_, fun _ _ _ => rfl⟩
    split at hr <;> cases hr <;> cases hd <;> exact fun k => ⟨_, _, rfl⟩

/-! ### The commands of the rows -/

theorem exec_aluRows : List.map (fun (i : Core → Word → Instr) c w s => exec (i c w) s)
    [.add, .sub, .neg, .abs, .mul, .mull, .mulh, .add2, .sub2, .mul2, .min, .max, .clip, .norm, .and, .or, .xor, .andn, .not,
      .shl, .shr, .sar, .ceq, .cne, .clt, .cle, .cltu, .cleu, .ctst]
    = [execAdd, execSub, execNeg, execAbs, execMul, execMull, execMulh, execAdd2, execSub2, execMul2, execMin, execMax, execClip,
      execNorm, execAnd, execOr, execXor, execAndn, execNot, execShl, execShr, execSar, execCeq, execCne, execClt, execCle, execCltu,
      execCleu, execCtst] := rfl

theorem exec_accRows : List.map (fun (i : Core → Word → Instr) c w s => exec (i c w) s)
    [.macF, .macI, .macD, .msuF, .msuI, .msuD, .mpyF, .mpyI, .mpyD, .aclr, .acadd, .acsub, .acneg, .acsh, .sac, .ldac, .acrd, .acwr]
    = [execMacF, execMacI, execMacD, execMsuF, execMsuI, execMsuD, execMpyF, execMpyI, execMpyD, execAclr, execAcadd, execAcsub,
      execAcneg, execAcsh, execSac, execLdac, execAcrd, execAcwr] := rfl

theorem exec_moveRows : List.map (fun (i : Core → Word → Instr) c w s => exec (i c w) s)
    [.adda, .suba, .addaa, .moda, .movi, .movhi, .addi, .ori, .mov, .shli, .shri, .sari, .ceqi, .clti, .andi]
    = [execAdda, execSuba, execAddaa, execModa, execMovi, execMovhi, execAddi, execOri, execMov, execShli, execShri, execSari,
      execCeqi, execClti, execAndi] := rfl

theorem dataRow_aluRows : ∀ e ∈ [execAdd, execSub, execNeg, execAbs, execMul, execMull, execMulh, execAdd2, execSub2, execMul2,
    execMin, execMax, execClip, execNorm, execAnd, execOr, execXor, execAndn, execNot, execShl, execShr, execSar, execCeq, execCne,
    execClt, execCle, execCltu, execCleu, execCtst], DataRow e := by
  repeat' refine List.forall_mem_cons.mpr ⟨?_, ?_⟩
  on_goal -1 => exact List.forall_mem_nil _
  on_goal 13 => exact dataRow_matched execClip (by simp)
  all_goals exact dataRow_aluRow fun _ _ _ => rfl

theorem dataRow_accRows : ∀ e ∈ [execMacF, execMacI, execMacD, execMsuF, execMsuI, execMsuD, execMpyF, execMpyI, execMpyD, execAclr,
    execAcadd, execAcsub, execAcneg, execAcsh, execSac, execLdac, execAcrd, execAcwr], DataRow e := by
  repeat' refine List.forall_mem_cons.mpr ⟨?_, ?_⟩
  on_goal -1 => exact List.forall_mem_nil _
  iterate 9 (on_goal 1 => exact dataRow_macRow fun _ _ _ => rfl)
  all_goals exact dataRow_accRow fun _ _ _ => rfl

theorem dataRow_moveRows : ∀ e ∈ [execAdda, execSuba, execAddaa, execModa, execMovi, execMovhi, execAddi, execOri, execMov, execShli,
    execShri, execSari, execCeqi, execClti, execAndi], DataRow e := by
  repeat' refine List.forall_mem_cons.mpr ⟨?_, ?_⟩
  on_goal -1 => exact List.forall_mem_nil _
  iterate 4 (on_goal 1 => exact dataRow_addrRow fun _ _ _ => rfl)
  iterate 5 (on_goal 1 => exact dataRow_matched _ (by simp))
  all_goals exact dataRow_aluiRow fun _ _ _ => rfl

/-! ### The encodings of loads and stores (R123) -/

theorem kWhen_eq_some {b : Bool} {op op' : KOp} : kWhen b op = some op' ↔ b = true ∧ op = op' := by
  simp [kWhen]

theorem kOp_mem_width {w : Word} {st p32 : Bool} {rd wd an : Nat} {off : Int} {post : KPost}
    (h : kOp w = some (.mem st p32 rd wd an off post)) : wd < 4 := by
  have two (n : Nat) : bitsOf n 0 2 < 4 := Nat.mod_lt _ (by decide)
  unfold kOp at h
  split at h
  case isTrue =>
    simp only [kOp32, kAlu, kAcc, kAddr, kImm, kBranch, kQueue, kPwd, kCplx, kSystem, kSuper] at h
    repeat' split at h
    all_goals simp [kWhen_eq_some] at h
    all_goals
      obtain ⟨-, -, -, -, rfl, -⟩ := h
      exact two _
  case isFalse =>
    simp only [kOp16, kMov] at h
    repeat' split at h
    all_goals simp [kWhen_eq_some] at h
    all_goals
      obtain ⟨-, -, -, -, rfl, -⟩ := h
      decide

/-! ### The registers of a load and of a store (R123) -/

theorem putPost_agree (x y : Bank) {an n : Nat} {post : KPost} (hn : n < 32) (h : post ≠ .keep → n ≠ an) :
    (x.putPost an (post.after y an)).Agree x n := by
  cases post with
  | keep => exact .refl x n
  | plus4 => exact put_agree_ne x _ _ hn (h (by simp))
  | modM m => exact put_agree_ne x _ _ hn (h (by simp))

theorem loadReg_agree (x : Bank) {rd wd n : Nat} (v : Nat) (m0 m1 : Bool) (hn : n < 32) (hwd : wd < 4) (hrd : n ≠ rd)
    (hrd1 : wd = 3 → n ≠ rd + 1) : (x.loadReg rd wd v m0 m1).Agree x n := by
  match wd, hwd with
  | 0, _ | 2, _ => exact put_agree_ne x _ _ hn hrd
  | 1, _ => exact putI_agree_ne x _ _ hn hrd
  | 3, _ => exact (put_agree_ne _ _ _ hn (hrd1 rfl)).trans (put_agree_ne x _ _ hn hrd)

/-! ### Stores to memory (17_memory_integrity.md R438; 03_loop_engines.md R67, R68) -/

/-- Only the memories and what the fc remembers of the shared RAM differ. -/
def MemoryOnly (s u : State) : Prop := ∃ m k l o, u = { s with mem := m, marks := k, lanes := l, laneOld := o }

namespace MemoryOnly

variable {s t u : State}

theorem refl (s : State) : MemoryOnly s s := ⟨_, _, _, _, rfl⟩

theorem trans (h : MemoryOnly s t) (g : MemoryOnly t u) : MemoryOnly s u := by
  obtain ⟨_, _, _, _, rfl⟩ := h
  obtain ⟨_, _, _, _, rfl⟩ := g
  exact ⟨_, _, _, _, rfl⟩

theorem foldl {α : Type} {f : State → α → State} (h : ∀ u a, MemoryOnly u (f u a)) (l : List α) (s : State) :
    MemoryOnly s (l.foldl f s) := by
  induction l generalizing s with
  | nil => exact refl s
  | cons a l ih => exact (h s a).trans (ih _)

theorem setByteList (a : Nat) (bs : List Byte) (s : State) : MemoryOnly s (s.setByteList a bs) := by
  induction bs generalizing s a with
  | nil => exact refl s
  | cons b bs ih => exact trans ⟨_, _, _, _, rfl⟩ (ih (a + 1) (s.setByte a b))

theorem putMarks (a : Nat) (ms : List Bool) (s : State) : MemoryOnly s (s.putMarks a ms) := by
  induction ms generalizing s a with
  | nil => exact refl s
  | cons m ms ih => exact trans ⟨_, _, _, _, rfl⟩ (ih (a + 4) (s.setMark a m))

theorem setMark (a : Nat) (m : Bool) (s : State) : MemoryOnly s (s.setMark a m) := ⟨_, _, _, _, rfl⟩

theorem storeBytes (a : Nat) (bs : List Byte) (ms : List Bool) (s : State) : MemoryOnly s (s.storeBytes a bs ms) := by
  unfold State.storeBytes
  split
  · exact (setByteList a bs s).trans (setMark _ _ _)
  · exact (setByteList a bs s).trans (putMarks _ _ _)

theorem laneUndo (s : State) : MemoryOnly s s.laneUndo :=
  foldl (fun u _ => (setByteList _ _ u).trans (setMark _ _ _)) _ s

theorem laneKeep (a n : Nat) (s : State) : MemoryOnly s (s.laneKeep a n) := by
  refine foldl (fun u i => ?_) _ s
  split
  · exact refl u
  · exact ⟨_, _, _, _, rfl⟩

theorem ownEngine (h : MemoryOnly s u) (p : Nat) : OwnEngine p s u := by
  obtain ⟨_, _, _, _, rfl⟩ := h
  exact ⟨rfl, rfl, fun _ _ => rfl, rfl⟩

end MemoryOnly

/-! ### The bytes that a store leaves -/

theorem byte_putMarks (s : State) (a : Nat) (ms : List Bool) (q : Nat) : (s.putMarks a ms).byte q = s.byte q := by
  induction ms generalizing s a with
  | nil => rfl
  | cons m ms ih => exact (ih _ _).trans rfl

theorem byte_storeBytes_out (s : State) {a : Nat} {bs : List Byte} (ms : List Bool) {q : Nat} (h : q < a ∨ a + bs.length ≤ q) :
    (s.storeBytes a bs ms).byte q = s.byte q := by
  unfold State.storeBytes
  split
  · exact byte_setByteList_out _ _ _ _ h
  · exact (byte_putMarks _ _ _ _).trans (byte_setByteList_out _ _ _ _ h)

theorem length_natBytes (n v : Nat) : (natBytes n v).length = n := by
  induction n generalizing v with
  | zero => rfl
  | succ n ih => exact congrArg (· + 1) (ih _)

theorem natBytes_bytesNat (s : State) (a n : Nat) : natBytes n (s.bytesNat a n) = s.byteList a n := by
  induction n generalizing a with
  | zero => rfl
  | succ n ih =>
    have hlt := (s.byte a).isLt
    have hlow : BitVec.ofNat 8 (s.bytesNat a (n + 1)) = s.byte a := by
      apply BitVec.eq_of_toNat_eq
      rw [State.bytesNat, BitVec.toNat_ofNat]
      omega
    have hhigh : s.bytesNat a (n + 1) / 256 = s.bytesNat (a + 1) n := by
      rw [State.bytesNat]
      omega
    rw [natBytes, hlow, hhigh, ih, State.byteList]

theorem bytesNat_lt (s : State) (a n : Nat) : s.bytesNat a n < 256 ^ n := by
  induction n generalizing a with
  | zero => exact Nat.one_pos
  | succ n ih =>
    have hlt := (s.byte a).isLt
    have := ih (a + 1)
    rw [State.bytesNat, pow_succ]
    omega

theorem natBytes_mword (s : State) (a : Nat) : natBytes 4 (s.mword a).toNat = s.byteList a 4 := by
  have h : (s.mword a).toNat = s.bytesNat a 4 := by
    rw [State.mword, BitVec.toNat_ofNat]
    exact Nat.mod_eq_of_lt (bytesNat_lt s a 4)
  rw [h, natBytes_bytesNat]

/-- Bytes put back where they came from. -/
theorem byte_setByteList_byteList {s u : State} (h : ∀ q, u.byte q = s.byte q) (a n q : Nat) :
    (u.setByteList a (s.byteList a n)).byte q = s.byte q := by
  induction n generalizing u a with
  | zero => exact h q
  | succ n ih =>
    refine ih (u := u.setByte a (s.byte a)) (fun r => ?_) (a + 1)
    by_cases hr : r = a
    · rw [hr, byte_setByte_same]
    · rw [byte_setByte_ne _ _ _ _ hr, h]

/-- The words remembered are those that the state holds. -/
def LaneOldTrue (s : State) : Prop := ∀ e ∈ s.laneOld, e.2.1 = s.mword (4 * e.1)

theorem byte_laneUndo {s : State} (h : LaneOldTrue s) (q : Nat) : s.laneUndo.byte q = s.byte q := by
  have undone (l : List (Nat × Word × Bool)) (hl : ∀ e ∈ l, e.2.1 = s.mword (4 * e.1)) (u : State) (hu : ∀ q, u.byte q = s.byte q) :
      (l.foldl (fun s e => (s.setByteList (4 * e.1) (natBytes 4 e.2.1.toNat)).setMark (4 * e.1) e.2.2) u).byte q = s.byte q := by
    induction l generalizing u with
    | nil => exact hu q
    | cons e l ih =>
      refine ih (fun f hf => hl f (List.mem_cons_of_mem e hf)) _ (fun r => ?_)
      change (u.setByteList (4 * e.1) (natBytes 4 e.2.1.toNat)).byte r = s.byte r
      rw [hl e List.mem_cons_self, natBytes_mword]
      exact byte_setByteList_byteList hu (4 * e.1) 4 r
  exact undone s.laneOld h s (fun _ => rfl)

theorem laneKeep_true {s : State} (h : LaneOldTrue s) (a n : Nat) :
    LaneOldTrue (s.laneKeep a n) ∧ (s.laneKeep a n).mem = s.mem ∧ (s.laneKeep a n).lanes = s.lanes := by
  unfold State.laneKeep
  generalize laneWords a n = ws
  induction ws generalizing s with
  | nil => exact ⟨h, rfl, rfl⟩
  | cons i ws ih =>
    rw [List.foldl_cons]
    split
    · exact ih h
    · obtain ⟨htrue, hmem, hlanes⟩ := ih (s := { s with laneOld := (i, s.mword (4 * i), s.poisoned (4 * i)) :: s.laneOld })
        (List.forall_mem_cons.mpr ⟨rfl, h⟩)
      exact ⟨htrue, hmem, hlanes⟩

/-- The first write of the fc in the shared RAM. -/
theorem laneWrite_first {s : State} (hlanes : s.lanes = []) (hold : s.laneOld = []) (lane a : Nat) (bs : List Byte) (ms : List Bool) :
    let u := s.laneWrite { lane := lane, addr := a, bytes := bs, marks := some ms }
    MemoryOnly s u ∧ ∀ q, q < a ∨ a + bs.length ≤ q → u.byte q = s.byte q := by
  have hnone : LaneOldTrue s := fun e he => absurd he (by simp [hold])
  obtain ⟨htrue, hmem, hkept⟩ := laneKeep_true hnone a bs.length
  have hlist : (s.laneKeep a bs.length).lanes = [] := hkept.trans hlanes
  simp only [State.laneWrite, hlist, laneInsert, List.foldl_cons, List.foldl_nil, State.laneDo]
  refine ⟨?_, fun q hq => ?_⟩
  · have := ((MemoryOnly.laneKeep a bs.length s).trans (MemoryOnly.laneUndo _)).trans (MemoryOnly.storeBytes a bs ms _)
    exact this.trans ⟨_, _, _, _, rfl⟩
  · have hundo := (byte_storeBytes_out _ ms hq).trans (byte_laneUndo htrue q)
    exact hundo.trans (congrArg (tget memReset · q) hmem)

theorem storeAt_first {s : State} {a : Nat} (h : inShared a = true → s.lanes = [] ∧ s.laneOld = []) (lane : Nat) (bs : List Byte)
    (ms : List Bool) : MemoryOnly s (s.storeAt lane a bs ms)
      ∧ ∀ q, q < a ∨ a + bs.length ≤ q → (s.storeAt lane a bs ms).byte q = s.byte q := by
  unfold State.storeAt
  split
  · rename_i hin
    obtain ⟨hlanes, hold⟩ := h hin
    exact laneWrite_first hlanes hold lane a bs ms
  · exact ⟨MemoryOnly.storeBytes a bs ms s, fun q hq => byte_storeBytes_out s ms hq⟩

/-! ### Where a store of an engine goes (R64 to R66, R75, R112) -/

theorem inShared_engPhys {p : Fin 72} {a : Nat} (h : inShared (engPhys p a) = true) (hr : engRegion a = .localRam ∨ engRegion a = .shared) :
    engRegion a = .shared := by
  rcases hr with hr | hr
  · have ha : a < 0x10000 := by
      unfold engRegion at hr
      split at hr
      · assumption
      · grind
    have hp := p.isLt
    simp only [inShared, engPhys, hr, Bool.and_eq_true, decide_eq_true_eq] at h
    omega
  · exact hr

section
variable {p : Fin 72} {s : State} {a n : Nat}

/-- A load from the local or the shared RAM gives its value at once. -/
theorem engLoad_ram (hr : engRegion a = .localRam ∨ engRegion a = .shared) (ha : a % n = 0) :
    ∃ v m0 m1, s.engLoad p a n = .val v m0 m1 s := by
  rcases hr with hr | hr <;> simp [State.engLoad, hr, ha]

/-- A store to the local or the shared RAM that no Drove mirrors is placed at once. -/
theorem engStoreTo_ram (pc v : Nat) (ms : List Bool) (hr : engRegion a = .localRam ∨ engRegion a = .shared) (ha : a % n = 0)
    (hm : s.mirrorOf p = none) (hst : MemoryOnly s (s.storeAt (p % 9) (engPhys p a) (natBytes n v) ms)) :
    s.engStoreTo p pc a n v ms = .val 0 false false (s.storeAt (p % 9) (engPhys p a) (natBytes n v) ms) := by
  have hm' : (s.storeAt (p % 9) (engPhys p a) (natBytes n v) ms).mirrorOf p = none := by
    obtain ⟨_, _, _, _, he⟩ := hst
    rw [he]
    exact hm
  rcases hr with hr | hr <;> simp [State.engStoreTo, State.engPut, State.engStore, hr, ha, hm']

/-- What the engine does of its own, without a store to memory. -/
def Buffers (p : Nat) (s u : State) : Prop := OwnEngine p s u ∧ u.mem = s.mem

theorem Buffers.setEng {e : Eng} (h : e.slots = (s.eng p).slots) : Buffers p s (s.setEng p e) := ⟨OwnEngine.setEng s h, rfl⟩

/-- A store to the loop buffer, the code RAM, the unit-register window or system memory is buffered, or waits. -/
theorem engStoreTo_buffered (pc v : Nat) (ms : List Bool) (ha : a % n = 0) (hms : ms.any id = false)
    (hr : ((engRegion a = .loopBuf ∨ engRegion a = .code) ∧ (s.eng p).codeBuf.length < 16) ∨ (engRegion a = .window ∧ n = 4)
      ∨ engRegion a = .sys)
    (hut : s.underTest 0 p = false) (hdr : s.hurdleDrops 0 p = false) :
    ∃ u, Buffers p s u ∧ (s.engStoreTo p pc a n v ms = .val 0 false false u ∨ s.engStoreTo p pc a n v ms = .hold u) := by
  rcases hr with ⟨hr, hlen⟩ | ⟨hr, rfl⟩ | hr
  · have hroom : ¬ 16 ≤ (s.eng p).codeBuf.length := by omega
    refine ⟨_, Buffers.setEng (e := { s.eng p with codeBuf := (s.eng p).codeBuf ++ [(a, natBytes n v, ms)] }) rfl, .inl ?_⟩
    rcases hr with hr | hr <;> simp [State.engStoreTo, State.engPut, hr, ha, hroom]
  · refine ⟨_, Buffers.setEng (e := { s.eng p with path := (s.eng p).path ++ [{
      data := .ofNat 32 v, flock := s.leFlock p, inc := s.flockInc (s.leFlock p), eaddr := .ofNat 24 a
      slot := (s.running p).getD 0, pc := .ofNat 24 pc }] }) rfl, .inl ?_⟩
    simp [State.engStoreTo, hr, ha, hms, State.hurdle, hut, hdr]
  · by_cases hfull : 8 ≤ (s.eng p).stores.length
    · exact ⟨s, ⟨.refl p s, rfl⟩, .inr (by simp [State.engStoreTo, hr, ha, hms, hfull])⟩
    · refine ⟨_, Buffers.setEng (e := { s.eng p with stores := (s.eng p).stores ++ [{
        addr := s.bmpAddr p a, eaddr := .ofNat 24 a, bytes := natBytes n v, slot := (s.running p).getD 0, pc := .ofNat 24 pc
        stamp := s.now }] }) rfl, .inl ?_⟩
      simp [State.engStoreTo, hr, ha, hms, State.hurdle, hut, hdr, hfull]
end

/-! ### Loads and stores that issue -/

theorem exec_loads : List.map (fun (i : Core → Word → Instr) c w s => exec (i c w) s) [.ld, .ldPostModify]
    = [execLd, execLdPostModify] := rfl

theorem exec_stores : List.map (fun (i : Core → Word → Instr) c w s => exec (i c w) s) [.st, .stPostModify]
    = [execSt, execStPostModify] := rfl

section
variable {e : Core → Word → State → Out} {c : Core} {w : Word} {s t u : State} {post32 : Bool} {rd wd an : Nat} {off : Int} {post : KPost}
  (h : s.fetched c w = some t)
include h

theorem load_next (he : e ∈ [execLd, execLdPostModify]) (ho : kOp w = some (.mem false post32 rd wd an off post))
    (hu : e c w s = .next u) : u = s ∨ u = (s.issue c w t).finish ((s.issue c w t).runLoad rd wd an off post) := by
  have hi : kIllegal c w = false := kIllegal_of ho (by simp) rfl
  simp only [List.mem_cons, List.not_mem_nil, or_false] at he
  rcases he with rfl | rfl
  all_goals
    refine (kamyn_fetched_next h ho hi hu).imp id ?_
    rintro ⟨run, hrun, rfl⟩
    cases post32 <;> cases hrun
    rfl

theorem store_next (he : e ∈ [execSt, execStPostModify]) (ho : kOp w = some (.mem true post32 rd wd an off post))
    (hu : e c w s = .next u) : u = s ∨ u = (s.issue c w t).finish ((s.issue c w t).runStore rd wd an off post) := by
  have hi : kIllegal c w = false := kIllegal_of ho (by simp) rfl
  simp only [List.mem_cons, List.not_mem_nil, or_false] at he
  rcases he with rfl | rfl
  all_goals
    refine (kamyn_fetched_next h ho hi hu).imp id ?_
    rintro ⟨run, hrun, rfl⟩
    cases post32 <;> cases hrun
    rfl
end

/-- The value and the marks that a store of width w takes from its registers. -/
def Bank.storeValue (x : Bank) (rd w : Nat) : Nat :=
  if w = 3 then (x.gd rd).toNat + (x.gd (rd + 1)).toNat * 2 ^ 32 else x.get rd % 2 ^ (8 * 2 ^ w)
def Bank.storeMarks (x : Bank) (rd w : Nat) : List Bool := if w = 3 then [x.pois rd, x.pois (rd + 1)] else [x.pois rd]

theorem storeMarks_clean {x : Bank} {rd : Nat} (w : Nat) (h : x.pois rd = false) (h1 : x.pois (rd + 1) = false) :
    (x.storeMarks rd w).any id = false := by
  unfold Bank.storeMarks
  split <;> simp [h, h1]

section
variable {p : Fin 72} {w : Word} {s : State} {rd wd an : Nat} {off : Int} {post : KPost}
  (hp : (s.kBank (.eng p)).poisAny (post.uses an) = false)
include hp

theorem runLoad_ram (hr : engRegion (addrAdd ((s.kBank (.eng p)).get an) off) = .localRam
      ∨ engRegion (addrAdd ((s.kBank (.eng p)).get an) off) = .shared) (ha : addrAdd ((s.kBank (.eng p)).get an) off % 2 ^ wd = 0) :
    ∃ v m0 m1, (s.issue (.eng p) w s).runLoad rd wd an off post
      = .ok s (((s.kBank (.eng p)).loadReg rd wd v m0 m1).putPost an (post.after (s.kBank (.eng p)) an)) := by
  obtain ⟨v, m0, m1, hv⟩ := engLoad_ram (p := p) (s := s) hr ha
  refine ⟨v, m0, m1, ?_⟩
  unfold K.runLoad
  simp only [State.issue, hp, K.load, hv, Bool.false_eq_true, if_false]

theorem runStore_eq : (s.issue (.eng p) w s).runStore rd wd an off post =
    match s.engStoreTo p (s.kBank (.eng p)).pc.toNat (addrAdd ((s.kBank (.eng p)).get an) off) (2 ^ wd)
      ((s.kBank (.eng p)).storeValue rd wd) ((s.kBank (.eng p)).storeMarks rd wd) with
    | .val _ _ _ u => .ok u ((s.kBank (.eng p)).putPost an (post.after (s.kBank (.eng p)) an))
    | .wait _ _ u => .hold u none
    | .fault u c a => .fault u c (some a)
    | .hold u => .hold u none := by
  unfold K.runStore
  simp only [State.issue, hp, K.store, Bool.false_eq_true, if_false]
  rfl
end

/-! ### The obligation -/

/-- Settles O25: a row with one result by `dataRow_frame`; a load by the value that `engLoad_ram` gives; a store by the bytes that
`storeAt_first` leaves, or by its buffer; what ends the instruction by `kEnd_keeps`. -/
theorem kamynFrames : Obligations.KamynFrames := by
  unfold Obligations.KamynFrames
  have row {l : List (Core → Word → Instr)} {m : List (Core → Word → State → Out)} {P : (Core → Word → State → Out) → Prop}
      (hl : l.map (fun i c w s => exec (i c w) s) = m) (hm : ∀ e ∈ m, P e) (i : Core → Word → Instr) (hi : i ∈ l) :
      P (fun c w s => exec (i c w) s) :=
    hm _ (hl ▸ List.mem_map_of_mem hi)
  refine ⟨?alu, ?acc, ?move, ?load, ?store, ?buffered⟩
  case alu =>
    intro i p w s u f rd ra rb x hi h hl ho hu
    exact dataRow_frame (row exec_aluRows dataRow_aluRows i hi) h hl ho rfl hu
  case acc =>
    intro i p w s u f rd ra rb x hi h hl ho hu
    exact dataRow_frame (row exec_accRows dataRow_accRows i hi) h hl ho rfl hu
  case move =>
    intro i p w s u op rd hi h hl ho hop hu
    have hd : op.dest = some rd := by
      rcases hop with ⟨_, _, _, rfl⟩ | ⟨_, _, rfl⟩ | ⟨_, _, rfl⟩ | ⟨_, rfl⟩ <;> rfl
    exact dataRow_frame (row exec_moveRows dataRow_moveRows i hi) h hl ho hd hu
  case load =>
    intro i p w s u post32 rd wd an off post hi h hl ho b a hp hr ha hu
    rcases load_next h (exec_loads ▸ List.mem_map_of_mem hi) ho hu with rfl | rfl
    · exact ⟨fun _ => rfl, rfl, rfl, rfl, fun _ _ => rfl, fun _ _ _ _ _ => ⟨rfl, rfl⟩⟩
    · obtain ⟨v, m0, m1, hrun⟩ := runLoad_ram (w := w) (rd := rd) hp hr ha
      rw [hrun, finish_ok]
      obtain ⟨hown, ⟨hmem, hmarks⟩, hbank⟩ := kEnd_keeps hl
        { ((b.loadReg rd wd v m0 m1).putPost an (post.after b an)) with pc := .ofNat 24 (b.pc.toNat + kLen w) }
      refine ⟨fun q => congrArg (tget memReset · q) hmem, hmarks, hown.regs, hown.sh, hown.others, fun n hn hrd hrd1 han => ?_⟩
      exact (hbank n).trans ((putPost_agree _ b hn han).trans (loadReg_agree b v m0 m1 hn (kOp_mem_width ho) hrd hrd1))
  case store =>
    intro i p w s u post32 rd wd an off post hi h hl ho b a hp hr ha hm hlanes hu
    rcases store_next h (exec_stores ▸ List.mem_map_of_mem hi) ho hu with rfl | rfl
    · exact ⟨fun _ _ => rfl, rfl, rfl, fun _ _ => rfl, fun _ _ _ => ⟨rfl, rfl⟩⟩
    · obtain ⟨hst, hbytes⟩ := storeAt_first (fun hin => hlanes (inShared_engPhys hin hr)) (p % 9) (natBytes (2 ^ wd) (b.storeValue rd wd))
        (b.storeMarks rd wd)
      rw [length_natBytes] at hbytes
      rw [runStore_eq hp, engStoreTo_ram _ _ _ hr ha hm hst, finish_ok]
      obtain ⟨hown, ⟨hmem, -⟩, hbank⟩ := kEnd_keeps ((hst.ownEngine p).late.trans hl)
        { (b.putPost an (post.after b an)) with pc := .ofNat 24 (b.pc.toNat + kLen w) }
      have own := (hst.ownEngine p).trans hown
      refine ⟨fun q hq => (congrArg (tget memReset · q) hmem).trans (hbytes q hq), own.regs, own.sh, own.others, fun n hn han => ?_⟩
      exact (hbank n).trans (putPost_agree b b hn han)
  case buffered =>
    intro i p w s u post32 rd wd an off post hi h hl ho b a hp hrd hrd1 ha hr hut hdr hu q
    rcases store_next h (exec_stores ▸ List.mem_map_of_mem hi) ho hu with rfl | rfl
    · rfl
    · have hr' : ((engRegion a = .loopBuf ∨ engRegion a = .code) ∧ (s.eng p).codeBuf.length < 16)
          ∨ (engRegion a = .window ∧ 2 ^ wd = 4) ∨ engRegion a = .sys :=
        hr.imp id (Or.imp (And.imp id (fun h => by rw [h]; rfl)) id)
      obtain ⟨v, ⟨hown, hmem⟩, hres⟩ := engStoreTo_buffered b.pc.toNat (b.storeValue rd wd) (b.storeMarks rd wd) ha
        (storeMarks_clean wd hrd hrd1) hr' hut hdr
      have hkept {x : State} (hx : KeepsMemory v x) : x.byte q = s.byte q := congrArg (tget memReset · q) (hx.1.trans hmem)
      rw [runStore_eq hp]
      rcases hres with hres | hres <;> rw [hres]
      · exact hkept (kEnd_keeps (hown.late.trans hl) _).2.1
      · exact hkept (atSafe_setKBank (hown.late.trans hl) _).2.1

end Sys2Proof.Machine
end

section
/-!
Proofs about the complex instructions of Kamyn (04_kamyn_instruction_set.md R134 to R140): what an instruction finds when it issues
and when it goes on from a safe point, the words it reads in the local RAM, and its results.
-/

namespace Sys2Proof.Machine

/-! ### Issuing and going on (R140) -/

section
variable {c : Core} {w : Word} {s t : State} {op : KOp} {f : KOp → Option (K → KRes)} {run : K → KRes}

/-- An instruction that issues finds nothing of its own in progress. -/
theorem kept_issue (h : s.fetched c w = some t) : (s.issue c w t).kept = none := by
  have hg : (s.issue c w t).x.going = false := issued_idle (fetched_issued h).1
  rw [K.kept, hg, if_neg Bool.false_ne_true]

theorem goesOn_iff {r : Partial} : s.goesOn c r = true ↔
    s.kReady c = true ∧ (s.kBank c).wait = none ∧ (s.kBank c).going = true ∧ (s.kBank c).micro.part = some r := by
  simp only [State.goesOn, Bool.and_eq_true, Option.isNone_iff_eq_none, beq_iff_eq, and_assoc]

/-- An instruction that goes on finds its partial results. -/
theorem kept_goesOn {r : Partial} (h : s.goesOn c r = true) : (s.issue c w s).kept = some r := by
  obtain ⟨-, -, hg, hp⟩ := goesOn_iff.mp h
  have hg' : (s.issue c w s).x.going = true := hg
  rw [K.kept, hg', if_pos rfl]
  exact hp

/-- Outside a routine the operation of the row goes on. -/
theorem routed_goesOn {r : Partial} (hr : r ≠ .lib) (h : s.goesOn c r = true) :
    (s.issue c w s).routed w op run = run (s.issue c w s) := by
  obtain ⟨-, -, hg, hp⟩ := goesOn_iff.mp h
  cases c with
  | shep => rfl
  | eng p =>
    simp only [K.routed, State.issue, hg, hp, if_true]
    split
    · rename_i heq _
      exact absurd (Option.some.inj heq) hr
    · rename_i heq _
      cases heq
    · rfl

/-- A row's instruction goes on from its safe point: its operation runs on the state as it stands and finishes. -/
theorem kamyn_goesOn {r : Partial} (hr : r ≠ .lib) (h : s.goesOn c r = true) (ho : kOp w = some op) (hf : f op = some run)
    (hi : kIllegal c w = false) : kamyn c w s f = .next ((s.issue c w s).finish (run (s.issue c w s))) := by
  obtain ⟨hready, hwait, hg, -⟩ := goesOn_iff.mp h
  have hb : ({ s.kBank c with wait := none } : Bank) = s.kBank c := by rw [← hwait]
  have hk : s.kRun c w false (fun k => k.routed w op run) = (s.issue c w s).finish ((s.issue c w s).routed w op run) := by
    simp only [State.kRun, hready, hwait, hb, hg, Bool.not_true, Bool.false_eq_true, if_false, Option.filter_none, Option.any_none,
      Bool.not_false, Bool.and_true, if_true]
    rfl
  simp only [kamyn, ho, hf, hi, hk, routed_goesOn hr h]

theorem finish_part (s t : State) (c : Core) (w : Word) (r : Partial) :
    (s.issue c w t).finish (.part t (s.kBank c) r) = s.partly c w t r := rfl

theorem finish_resultsOf (s t : State) (c : Core) (w : Word) (rd : Nat) (m : Bool) (rs : List (Int × Nat)) :
    (s.issue c w t).finish ((s.issue c w t).resultsOf rd m rs)
      = s.ended c w t (((s.kBank c).raise (rs.foldl (fun a r => a ||| r.2) 0)).putAll rd m (rs.map (fun r => r.1))) := rfl
end

/-! ### DIV, DIVQ and SQRT (R138) -/

section
variable {c : Core} {w : Word} {s t : State} {rd ra rb : Nat} {g : Word → Word → Int × Nat}

theorem finish_halved_start (h : s.fetched c w = some t) : (s.issue c w t).finish ((s.issue c w t).halved rd ra rb g)
    = s.partly c w t (.half ((s.kBank c).gd ra) ((s.kBank c).gd rb) ((s.kBank c).poisAny [ra, rb])) := by
  rw [K.halved, kept_issue h]
  rfl

theorem finish_halved_end {va vb : Word} {m : Bool} (h : s.goesOn c (.half va vb m) = true) :
    (s.issue c w s).finish ((s.issue c w s).halved rd ra rb g)
      = s.ended c w s (((s.kBank c).raise (0 ||| (g va vb).2)).putAll rd m [(g va vb).1]) := by
  rw [K.halved, kept_goesOn h]
  rfl
end

section
variable {c : Core} {w : Word} {s t : State} {rd ra rb : Nat} {x : Bool}

theorem kIllegal_cplx {f : Nat} (ho : kOp w = some (.cplx f rd ra rb x)) : kIllegal c w = false := kIllegal_of ho (by simp) rfl

/-- SINCOS as it issues. Its first half is any function here, so that it is not computed when the terms are compared. -/
theorem execSincos_start (h : s.fetched c w = some t) (ho : kOp w = some (.cplx 0x08 rd ra rb x)) :
    execSincos c w s = .next (let z := sincosHalf ((s.kBank c).gd ra)
      s.partly c w t (.cordic z.1 z.2.1 z.2.2.1 z.2.2.2 ((s.kBank c).pois ra))) := by
  refine (kamyn_fetched h ho rfl (kIllegal_cplx ho)).trans ?_
  generalize sincosHalf = half
  have hx : (s.issue c w t).x = s.kBank c := rfl
  have hs : (s.issue c w t).s = t := rfl
  rw [kept_issue h, hx, hs]
  rcases half ((s.kBank c).gd ra) with ⟨q, vx, vy, vz⟩
  exact congrArg _ (finish_part s t c w _)

theorem execDiv_goesOn {va vb : Word} {m : Bool} (h : s.goesOn c (.half va vb m) = true) (ho : kOp w = some (.cplx 0x0C rd ra rb x)) :
    execDiv c w s = .next (s.ended c w s (((s.kBank c).raise (0 ||| (divValue va.toInt vb.toInt).2)).putAll rd m
      [(divValue va.toInt vb.toInt).1])) :=
  (kamyn_goesOn (by simp) h ho rfl (kIllegal_cplx ho)).trans (congrArg _ (finish_halved_end h))

theorem execDivq_goesOn {va vb : Word} {m : Bool} (h : s.goesOn c (.half va vb m) = true) (ho : kOp w = some (.cplx 0x0E rd ra rb x)) :
    execDivq c w s = .next (s.ended c w s (((s.kBank c).raise (0 ||| (divqValue (s.kBank c).rnd va.toInt vb.toInt).2)).putAll rd m
      [(divqValue (s.kBank c).rnd va.toInt vb.toInt).1])) :=
  (kamyn_goesOn (by simp) h ho rfl (kIllegal_cplx ho)).trans (congrArg _ (finish_halved_end h))

theorem execSqrt_goesOn {va vb : Word} {m : Bool} (h : s.goesOn c (.half va vb m) = true) (ho : kOp w = some (.cplx 0x10 rd ra rb x)) :
    execSqrt c w s = .next (s.ended c w s (((s.kBank c).raise (0 ||| (sqrtValue (s.kBank c).rnd x vb).2)).putAll rd m
      [(sqrtValue (s.kBank c).rnd x vb).1])) :=
  (kamyn_goesOn (by simp) h ho rfl (kIllegal_cplx ho)).trans (congrArg _ (finish_halved_end h))
end

section
variable {a b : Int} {rnd : Nat} {v : Word}

theorem divValue_of_ne (h : b ≠ 0) : divValue a b = fitSV 32 (Int.tdiv a b) := if_neg h

theorem divValue_zero (h : b = 0) : divValue a b = (if 0 ≤ a then 2 ^ 31 - 1 else -(2 ^ 31), fDOM) := if_pos h

theorem divqValue_zero (h : b = 0) : divqValue rnd a b = (if 0 ≤ a then 2 ^ 31 - 1 else -(2 ^ 31), fDOM) := if_pos h

theorem divqValue_pos (h : 0 < b) : divqValue rnd a b = fitSV 32 (roundDiv rnd (a * 2 ^ 31) b) := by
  rw [divqValue, if_neg h.ne', if_neg h.not_gt, if_neg h.not_gt]

theorem divqValue_neg (h : b < 0) : divqValue rnd a b = fitSV 32 (roundDiv rnd (-a * 2 ^ 31) (-b)) := by
  rw [divqValue, if_neg h.ne, if_pos h, if_pos h]

theorem sqrtValue_int (rnd : Nat) (v : Word) : sqrtValue rnd true v = (((isqrt64 v.toNat : Nat) : Int), 0) := if_pos rfl

theorem sqrtValue_neg (h : v.toInt < 0) : sqrtValue rnd false v = (0, fDOM) := by
  rw [sqrtValue, if_neg Bool.false_ne_true, if_pos h]

theorem sqrtValue_nonneg (h : 0 ≤ v.toInt) : sqrtValue rnd false v = (let q := isqrt64 (v.toNat * 2 ^ 31)
    (if rnd ≠ 0 ∧ q * q + q < v.toNat * 2 ^ 31 then (q : Int) + 1 else q, 0)) := by
  rw [sqrtValue, if_neg Bool.false_ne_true, if_neg h.not_gt]
end

/-! ### Words of the local RAM (R135, R139) -/

section
variable {p : Fin 72} {a : Nat} (h : a + 4 ≤ 0x10000)
include h

theorem engRegion_local : engRegion a = .localRam := if_pos (by omega)

theorem inShared_local : inShared (engPhys p a) = false := by
  have hp := p.isLt
  simp only [inShared, engPhys, engRegion_local h, Bool.and_eq_false_iff, decide_eq_false_iff_not]
  omega

theorem engPut_local (s : State) (v : Nat) (ms : List Bool) : s.engPut p a 4 v ms = s.engStore p a (natBytes 4 v) ms := by
  simp [State.engPut, engRegion_local h]

variable {k : K} (hk : k.c = .eng p)
include hk

theorem wordCheck_local (s : State) (wr : Option Nat) (ha : a % 4 = 0) : k.wordCheck s a wr = (none, s) := by
  simp [K.wordCheck, hk, engRegion_local h, ha]

theorem word_local (s : State) : k.word s a = ((s.codeWriteOut p).mword (engPhys p a), (s.codeWriteOut p).poisoned (engPhys p a)) := by
  simp [K.word, hk, State.seenAt, inShared_local h]

theorem putWord_local (s : State) (v : Word) (m : Bool) : k.putWord s a v m = s.engStore p a (natBytes 4 v.toNat) [m] := by
  simp [K.putWord, hk, engPut_local h]
end

/-- Checks of words of the local RAM find nothing. -/
theorem wordChecks_local {p : Fin 72} {k : K} (hk : k.c = .eng p) (s : State) (l : List (Nat × Option Nat))
    (hl : ∀ e ∈ l, e.1 + 4 ≤ 0x10000 ∧ e.1 % 4 = 0) : k.wordChecks s l = (none, s) := by
  induction l with
  | nil => rfl
  | cons e l ih =>
    obtain ⟨a, wr⟩ := e
    obtain ⟨⟨hlt, ha⟩, hl⟩ := List.forall_mem_cons.mp hl
    rw [K.wordChecks, wordCheck_local hlt hk s wr ha]
    exact ih hl

/-! ### PIS (R135) -/

theorem pisStep_stat_lt (rnd : Nat) (kp ki : Int) (sh : Nat) (umin umax i e : Int) : (pisStep rnd kp ki sh umin umax i e).2.2 < 4 := by
  have bit (b : Bool) : b2n b < 2 := by cases b <;> decide
  have two (b b' : Bool) : b2n b + 2 * b2n b' < 4 := by
    have := bit b
    have := bit b'
    omega
  exact two _ _

theorem toNat_pisStep_stat (rnd : Nat) (kp ki : Int) (sh : Nat) (umin umax i e : Int) :
    (BitVec.ofNat 32 (pisStep rnd kp ki sh umin umax i e).2.2).toNat = (pisStep rnd kp ki sh umin umax i e).2.2 := by
  have := pisStep_stat_lt rnd kp ki sh umin umax i e
  rw [BitVec.toNat_ofNat, Nat.mod_eq_of_lt (by omega)]

/-- The block of six words at an address of the local RAM. -/
theorem wordAddrs_local {a : Nat} (h : a + 28 ≤ 0x10000) : wordAddrs a 6 = [a, a + 4, a + 8, a + 12, a + 16, a + 20] := by
  simp only [wordAddrs, List.range_succ, List.range_zero, List.nil_append, List.cons_append, List.map_cons, List.map_nil,
    List.cons.injEq, and_true]
  omega

section
variable {p : Fin 72} {w : Word} {s t : State} {rd ra rb : Nat} {x : Bool}

theorem execPis_local (hf : s.fetched (.eng p) w = some t) (ho : kOp w = some (.cplx 0x00 rd ra rb x)) :
    let b := s.kBank (.eng p)
    let a := b.get ra
    b.pois ra = false → a % 4 = 0 → a + 28 ≤ 0x10000 →
    execPis (.eng p) w s = .next (
      let z := fun i => (t.codeWriteOut p).mword (engPhys p (a + 4 * i))
      let m := b.pois rb || (List.range 6).any (fun i => (t.codeWriteOut p).poisoned (engPhys p (a + 4 * i)))
      let r := pisStep b.rnd (z 0).toInt (z 1).toInt ((z 2).toNat % 16) (z 3).toInt (z 4).toInt (z 5).toInt (b.di rb)
      let u := (t.engStore p (a + 0x14) (natBytes 4 (intWord r.2.1).toNat) [m]).engStore p (a + 0x18) (natBytes 4 r.2.2) [m]
      s.ended (.eng p) w u ((b.raise (if r.2.2 = 0 then 0 else fSV)).putI rd (if isAC rd then r.1 * 2 ^ 32 else r.1) m)) := by
  intro b a hp ha hlen
  have hk : (s.issue (.eng p) w t).c = .eng p := rfl
  have mod (i : Nat) (hi : i ≤ 24) : (a + i) % 2 ^ 24 = a + i := Nat.mod_eq_of_lt (by omega)
  refine (kamyn_fetched hf ho rfl (kIllegal_cplx ho)).trans ?_
  have hx : (s.issue (.eng p) w t).x = b := rfl
  have hs : (s.issue (.eng p) w t).s = t := rfl
  have hget : b.get ra = a := rfl
  have hread : (s.issue (.eng p) w t).wordChecks t ((wordAddrs a 6).map (fun b => (b, none))) = (none, t) := by
    refine wordChecks_local hk t _ (List.forall_mem_map.mpr ?_)
    rw [wordAddrs_local hlen]
    simp only [List.mem_cons, List.not_mem_nil, or_false, forall_eq_or_imp, forall_eq]
    omega
  have hwrite (u v : Nat) : (s.issue (.eng p) w t).wordChecks t [(a + 0x14, some u), (a + 0x18, some v)] = (none, t) := by
    refine wordChecks_local hk t _ ?_
    simp only [List.mem_cons, List.not_mem_nil, or_false, forall_eq_or_imp, forall_eq]
    omega
  have hwords : (wordAddrs a 6).map ((s.issue (.eng p) w t).word t) = (List.range 6).map (fun i =>
      ((t.codeWriteOut p).mword (engPhys p (a + 4 * i)), (t.codeWriteOut p).poisoned (engPhys p (a + 4 * i)))) := by
    have hword (i : Nat) (hi : i ≤ 24) := word_local (a := a + i) (p := p) (by omega) hk t
    have h0 := hword 0 (by decide)
    simp only [Nat.add_zero] at h0
    simp [wordAddrs_local hlen, List.range_succ, hword, h0]
  have hput (u : State) (i : Nat) (hi : i ≤ 24) (v : Word) (m : Bool) : (s.issue (.eng p) w t).putWord u (a + i) v m
      = u.engStore p (a + i) (natBytes 4 v.toNat) [m] := putWord_local (by omega) hk u v m
  simp only [hx, hs, hp, hget, hread, mod 0x14 (by decide), mod 0x18 (by decide), hwrite, Bool.false_eq_true, if_false, hwords,
    hput _ 0x14 (by decide), hput _ 0x18 (by decide), List.any_map, toNat_pisStep_stat]
  rfl

/-! ### FIRK (R139) -/

/-- One tap on words of the local RAM. -/
theorem tap_local {k : K} (hk : k.c = .eng p) (t : State) (m : Word) (n : Nat) {a b : Nat} (acc : Int) (fl : Nat) (mark : Bool)
    (ha : a % 4 = 0) (hla : a + 4 ≤ 0x10000) (hb : b % 4 = 0) (hlb : b + 4 ≤ 0x10000) :
    k.tap t rd m n a b acc fl mark =
      let v := t.codeWriteOut p
      let r := fitSO 72 k.x.sat (acc + 2 * ((v.mword (engPhys p a)).toInt * (v.mword (engPhys p b)).toInt))
      let mark := mark || v.poisoned (engPhys p a) || v.poisoned (engPhys p b)
      if n ≤ 1 then .ok t ((k.x.raise (fl ||| r.2)).putI rd r.1 mark)
      else .part t k.x (.taps (n - 1) (a + 4) (modifyA b m) r.1 (fl ||| r.2) mark) := by
  have hmod : (a + 4) % 2 ^ 24 = a + 4 := Nat.mod_eq_of_lt (by omega)
  have hread : k.wordChecks t [(a, none), (b, none)] = (none, t) := by
    refine wordChecks_local hk t _ ?_
    simp only [List.mem_cons, List.not_mem_nil, or_false, forall_eq_or_imp, forall_eq]
    exact ⟨⟨hla, ha⟩, hlb, hb⟩
  rw [K.tap, hread]
  simp only [word_local hla hk, word_local hlb hk, hmod]

/-- FIRK as it issues, its count in the local RAM. -/
theorem execFirk_start (hf : s.fetched (.eng p) w = some t) (ho : kOp w = some (.cplx 0x18 rd ra rb x)) :
    let b := s.kBank (.eng p)
    let a := b.get ra
    let n := (t.codeWriteOut p).mword (engPhys p a)
    let m := b.pois rd || (t.codeWriteOut p).poisoned (engPhys p a)
    b.poisAny [ra, rb, 24 + (rb - 16) % 4] = false → a % 4 = 0 → a + 8 ≤ 0x10000 →
    execFirk (.eng p) w s = .next ((s.issue (.eng p) w t).finish (
      if 1024 < n.toNat then .ok t ((b.setPois rd m).raise fDOM)
      else if n = 0 then .ok t (b.setPois rd m)
      else (s.issue (.eng p) w t).tap t rd (b.gm (24 + (rb - 16) % 4)) n.toNat (a + 4) (b.get rb) (b.aci rd) 0 m)) := by
  intro b a n m hp ha hla
  have hk : (s.issue (.eng p) w t).c = .eng p := rfl
  have hla' : a + 4 ≤ 0x10000 := by omega
  have hmod : (a + 4) % 2 ^ 24 = a + 4 := Nat.mod_eq_of_lt (by omega)
  refine (kamyn_fetched hf ho rfl (kIllegal_cplx ho)).trans ?_
  have hx : (s.issue (.eng p) w t).x = b := rfl
  have hs : (s.issue (.eng p) w t).s = t := rfl
  have hget : b.get ra = a := rfl
  simp only [kept_issue hf, hx, hs, hget, hp, wordCheck_local hla' hk t none ha, word_local hla' hk, hmod, Bool.false_eq_true, if_false]
  rfl

/-- FIRK goes on with its next tap. -/
theorem execFirk_goesOn {n ca sa fl : Nat} {acc : Int} {m : Bool} (h : s.goesOn (.eng p) (.taps n ca sa acc fl m) = true)
    (ho : kOp w = some (.cplx 0x18 rd ra rb x)) :
    execFirk (.eng p) w s = .next ((s.issue (.eng p) w s).finish ((s.issue (.eng p) w s).tap s rd
      ((s.kBank (.eng p)).gm (24 + (rb - 16) % 4)) n ca sa acc fl m)) := by
  refine (kamyn_goesOn (by simp) h ho rfl (kIllegal_cplx ho)).trans ?_
  simp only [kept_goesOn h]
  rfl
end

/-! ### The obligation -/

/-- Settles O16: an instruction that issues runs its row's operation on the fetched state (`kamyn_fetched`), one that goes on runs it with
the partial results that it kept (`kamyn_goesOn`); in the local RAM every check of a word passes (`wordChecks_local`). -/
theorem kamynComplex : Obligations.KamynComplex := by
  unfold Obligations.KamynComplex
  refine ⟨?pis, ?cl, ?icl, ?pk, ?ipk, ?sincos, ?sincosEnd, ?div, ?divq, ?sqrt, ?divEnd, ?divZero, ?divqPos, ?divqNeg, ?divqZero,
    ?sqrtInt, ?sqrtDom, ?sqrtEnd, ?firkNone, ?firkMany, ?firkOne, ?firkFirst, ?firkTap⟩
  case pis => exact fun p w s t rd ra rb x h ho => show _ → _ → _ → execPis (.eng p) w s = _ from execPis_local h ho
  case cl =>
    intro c w s t rd ra rb x h ho
    exact show execXformCl c w s = _ from (kamyn_fetched h ho rfl (kIllegal_cplx ho)).trans rfl
  case icl =>
    intro c w s t rd ra rb x h ho
    exact show execXformIcl c w s = _ from (kamyn_fetched h ho rfl (kIllegal_cplx ho)).trans rfl
  case pk =>
    intro c w s t rd ra rb x h ho
    exact show execXformPk c w s = _ from (kamyn_fetched h ho rfl (kIllegal_cplx ho)).trans rfl
  case ipk =>
    intro c w s t rd ra rb x h ho
    exact show execXformIpk c w s = _ from (kamyn_fetched h ho rfl (kIllegal_cplx ho)).trans rfl
  case sincos =>
    intro c w s t rd ra rb x h ho b
    exact show execSincos c w s = _ from execSincos_start h ho
  case sincosEnd =>
    intro c w s rd ra rb q vx vy vz x m h ho b
    refine show execSincos c w s = _ from (kamyn_goesOn (by simp) h ho rfl (kIllegal_cplx ho)).trans ?_
    rw [kept_goesOn h]
    rfl
  case div =>
    intro c w s t rd ra rb x h ho
    exact show execDiv c w s = _ from (kamyn_fetched h ho rfl (kIllegal_cplx ho)).trans (congrArg _ (finish_halved_start h))
  case divq =>
    intro c w s t rd ra rb x h ho
    exact show execDivq c w s = _ from (kamyn_fetched h ho rfl (kIllegal_cplx ho)).trans (congrArg _ (finish_halved_start h))
  case sqrt =>
    intro c w s t rd ra rb x h ho
    exact show execSqrt c w s = _ from (kamyn_fetched h ho rfl (kIllegal_cplx ho)).trans (congrArg _ (finish_halved_start h))
  case divEnd =>
    intro c w s rd ra rb x m va vb h ho hb
    exact show execDiv c w s = _ from divValue_of_ne hb ▸ execDiv_goesOn h ho
  case divZero =>
    intro c w s rd ra rb x m va vb h ho hb
    exact show execDiv c w s = _ from divValue_zero hb ▸ execDiv_goesOn h ho
  case divqPos =>
    intro c w s rd ra rb x m va vb h ho hb
    exact show execDivq c w s = _ from divqValue_pos hb ▸ execDivq_goesOn h ho
  case divqNeg =>
    intro c w s rd ra rb x m va vb h ho hb
    exact show execDivq c w s = _ from divqValue_neg hb ▸ execDivq_goesOn h ho
  case divqZero =>
    intro c w s rd ra rb x m va vb h ho hb
    exact show execDivq c w s = _ from divqValue_zero hb ▸ execDivq_goesOn h ho
  case sqrtInt =>
    rintro c w s rd ra rb x m va vb h ho rfl
    exact show execSqrt c w s = _ from sqrtValue_int _ vb ▸ execSqrt_goesOn h ho
  case sqrtDom =>
    rintro c w s rd ra rb x m va vb h ho rfl hb
    exact show execSqrt c w s = _ from sqrtValue_neg hb ▸ execSqrt_goesOn h ho
  case sqrtEnd =>
    rintro c w s rd ra rb x m va vb h ho rfl hb
    refine show execSqrt c w s = _ from (execSqrt_goesOn h ho).trans ?_
    rw [sqrtValue_nonneg hb]
  case firkNone =>
    intro p w s t rd ra rb x h ho b a hp ha hla hn
    refine show execFirk (.eng p) w s = _ from (execFirk_start h ho hp ha hla).trans ?_
    rw [hn, if_neg (by decide), if_pos rfl]
    rfl
  case firkMany =>
    intro p w s t rd ra rb x h ho b a hp ha hla hn
    refine show execFirk (.eng p) w s = _ from (execFirk_start h ho hp ha hla).trans ?_
    rw [if_pos hn]
    rfl
  case firkOne =>
    intro p w s t rd ra rb x h ho b a hp ha hla hb hlb hn
    refine show execFirk (.eng p) w s = _ from (execFirk_start h ho hp ha hla).trans ?_
    have ha4 : (a + 4) % 4 = 0 := by omega
    rw [hn, if_neg (by decide), if_neg (by decide), tap_local rfl t _ _ _ _ _ ha4 hla hb hlb]
    rfl
  case firkFirst =>
    intro p w s t rd ra rb x h ho b a v n hp ha hla hb hlb hn hn'
    refine show execFirk (.eng p) w s = _ from (execFirk_start h ho hp ha hla).trans ?_
    have ha4 : (a + 4) % 4 = 0 := by omega
    have hne : v.mword (engPhys p a) ≠ 0 := by
      intro h0
      have hn0 : n = 0 := congrArg BitVec.toNat h0
      omega
    rw [if_neg (show ¬ 1024 < n by omega), if_neg hne, tap_local rfl t _ _ _ _ _ ha4 hla hb hlb]
    dsimp only
    rw [if_neg (show ¬ n ≤ 1 by omega)]
    rfl
  case firkTap =>
    intro p w s rd ra rb n ca sa fl acc x m h ho b v hca hlca hsa hlsa
    refine show execFirk (.eng p) w s = _ from (execFirk_goesOn h ho).trans ?_
    rw [tap_local rfl s _ _ _ _ _ hca hlca hsa hlsa]
    dsimp only
    split <;> rfl

end Sys2Proof.Machine
end

section
/-!
Proofs about the system group of Kamyn (04_kamyn_instruction_set.md R109, R110, R130 to R133) and about a routine of one word that only
dispatches (06_microcode.md R158 to R163, R175, R184).
-/

namespace Sys2Proof.Machine

/-- An action of a unit that is neither under test nor fenced off passes its Hurdle (R461, R464). -/
theorem hurdle_passes {s : State} {k i : Nat} {act : State → State} (ht : s.underTest k i = false) (hd : s.hurdleDrops k i = false) :
    s.hurdle k i act = act s := by
  simp only [State.hurdle, ht, hd, Bool.false_eq_true, if_false]

theorem leRaise_passes {s : State} {p src p0 p1 : Nat} (ht : s.underTest 0 p = false) (hd : s.hurdleDrops 0 p = false) :
    s.leRaise p src p0 p1 = s.raise (64 + 4 * p + src) p0 p1 := hurdle_passes ht hd

section
variable {c : Core} {p : Fin 72} {w : Word} {s t : State}

/-! ### SIGNAL, BRK, STAMP, MODE, RDMODE (R110, R130, R131, R507) -/

/-- SIGNAL of an engine that the Hurdle lets pass. -/
theorem execSignal_engine {ds : Option Nat} {v : Nat} (h : s.fetched (.eng p) w = some t) (ho : kOp w = some (.signal ds v))
    (ht : t.underTest 0 p = false) (hd : t.hurdleDrops 0 p = false) :
    execSignal (.eng p) w s = .next (s.ended (.eng p) w (t.raise (67 + 4 * p)
      (ds.elim 0 (fun d => ((s.kBank (.eng p)).gd d).toNat))
      (v + (t.running p).getD 0 * 256 + t.leLogical p * 65536)) (s.kBank (.eng p))) := by
  have hsrc : 64 + 4 * p.val + 3 = 67 + 4 * p.val := by omega
  refine (kamyn_fetched h ho rfl (kIllegal_of ho (by simp) rfl)).trans ?_
  simp only [State.issue, leRaise_passes ht hd, hsrc]
  cases ds <;> rfl

theorem engBrk_off {n : Nat} (he : t.fld DB_POLICY fDB_POLICY_EBRK = 0) : t.engBrk p n = t := by
  simp only [State.engBrk, he]

theorem engBrk_event {n : Nat} (he : t.fld DB_POLICY fDB_POLICY_EBRK = 1) : t.engBrk p n = t.raise 960 (1 + p * 256) n := by
  simp only [State.engBrk, he]

theorem engBrk_halt {n : Nat} (he : t.fld DB_POLICY fDB_POLICY_EBRK = 2) : t.engBrk p n =
    (t.raise 960 (1 + p * 256) n).setEng p { (t.raise 960 (1 + p * 256) n).eng p with haltReq := true } := by
  simp only [State.engBrk, he]

/-- BRK of an engine. -/
theorem execBrk_engine (h : s.fetched (.eng p) w = some t) (ho : kOp w = some .brk) :
    execBrk (.eng p) w s = .next (s.ended (.eng p) w (t.engBrk p (s.kBank (.eng p)).pc.toNat) (s.kBank (.eng p))) :=
  (kamyn_fetched h ho rfl (kIllegal_of ho (by simp) rfl)).trans rfl

/-- BRK while DB_POLICY.EBRK = 0. -/
theorem execBrk_off (h : s.fetched c w = some t) (ho : kOp w = some .brk) (he : t.fld DB_POLICY fDB_POLICY_EBRK = 0) :
    execBrk c w s = .next (s.ended c w t (s.kBank c)) := by
  cases c with
  | eng p => rw [execBrk_engine h ho, engBrk_off he]
  | shep =>
    refine (kamyn_fetched h ho rfl (kIllegal_of ho (by simp) rfl)).trans ?_
    simp only [State.issue, he, if_true]
    rfl

/-- STAMP, by the value of its form. -/
theorem execStamp_fetched {dr form k : Nat} (h : s.fetched c w = some t) (ho : kOp w = some (.stamp dr form k))
    (hi : kIllegal c w = false) : execStamp c w s = .next (let z := (s.issue c w t).stampValue form k
      s.ended c w t (((s.kBank c).put dr (lo32 z) false).put (dr + 1) (hi32 z) false)) :=
  (kamyn_fetched h ho rfl hi).trans rfl

/-- MODE of a clean value without reserved bits. -/
theorem execMode_clean {ds : Nat} (h : s.fetched c w = some t) (ho : kOp w = some (.mode ds)) (hp : (s.kBank c).pois ds = false)
    (hhi : bitsOf ((s.kBank c).gd ds).toNat 13 19 = 0) (hlo : bitsOf ((s.kBank c).gd ds).toNat 3 5 = 0) :
    execMode c w s = .next (s.ended c w t ((s.kBank c).modeWrite ((s.kBank c).gd ds))) := by
  refine (kamyn_fetched h ho rfl (kIllegal_of ho (by simp) rfl)).trans ?_
  simp only [State.issue, hp, hhi, hlo, ne_eq, not_true_eq_false, or_self, Bool.false_eq_true, if_false]
  rfl

/-- RDMODE with no MODE that waits. -/
theorem execRdmode_settled {dr : Nat} (h : s.fetched c w = some t) (ho : kOp w = some (.rdmode dr)) (hw : (s.kBank c).modeWait = []) :
    execRdmode c w s = .next (s.ended c w t ((s.kBank c).put dr (s.kBank c).mode.toNat false)) := by
  have hm : (s.kBank c).modeRead = (s.kBank c).mode := by simp only [Bank.modeRead, hw, List.getLast?_nil]
  refine (kamyn_fetched h ho rfl (kIllegal_of ho (by simp) rfl)).trans ?_
  simp only [State.issue, hm]
  rfl

/-! ### RANK (R89, R132) -/

section
variable {an : Nat} (h : s.fetched (.eng p) w = some t) (ho : kOp w = some (.rank an)) (hp : (s.kBank (.eng p)).pois an = false)
  (hr : engRegion ((s.kBank (.eng p)).get an) = .shared) (ha : (s.kBank (.eng p)).get an % 16 = 0)
include h ho hp hr ha

/-- RANK of an aligned descriptor in shared RAM, with no request outstanding. -/
theorem execRank_issue (hout : (t.eng p).rankOut = false) (ht : t.underTest 0 p = false) (hd : t.hurdleDrops 0 p = false) :
    execRank (.eng p) w s = .next (s.ended (.eng p) w (t.rankIssue p ((s.kBank (.eng p)).get an - 0x80000)) (s.kBank (.eng p))) := by
  refine (kamyn_fetched h ho rfl (kIllegal_eng ho (by simp))).trans ?_
  simp only [State.issue, hp, hr, ha, hout, hurdle_passes ht hd, bne_self_eq_false, ne_eq, not_true_eq_false, Bool.false_eq_true, if_false]
  rfl

/-- RANK while a request is outstanding. -/
theorem execRank_waits (hout : (t.eng p).rankOut = true) :
    execRank (.eng p) w s = .next (t.kRest (s.issue (.eng p) w t) (s.kBank (.eng p)) true true none (some 0x520)) := by
  refine (kamyn_fetched h ho rfl (kIllegal_eng ho (by simp))).trans ?_
  simp only [State.issue, hp, hr, ha, hout, bne_self_eq_false, ne_eq, not_true_eq_false, Bool.false_eq_true, if_false, if_true]
  rfl
end
end

/-! ### A word that only dispatches (R158 to R163) -/

/-- Every field of the word but SEQ is 0. -/
theorem uf_dispatch {lo len : Nat} (hlo : 4 ≤ lo) (hlen : lo + len ≤ 168) : uf (withParity 9) lo len = 0 := by
  have hw : (withParity 9).toNat = 9 + parityOf 9 * 2 ^ 168 := by decide
  have h9 : 9 / 2 ^ lo = 0 := Nat.div_eq_of_lt (lt_of_lt_of_le (by decide) (Nat.pow_le_pow_right (by decide) hlo))
  have hpow : parityOf 9 * 2 ^ 168 = parityOf 9 * 2 ^ (168 - lo - len) * 2 ^ len * 2 ^ lo := by
    rw [Nat.mul_assoc, Nat.mul_assoc, ← Nat.pow_add, ← Nat.pow_add]
    congr 2
    omega
  rw [uf, bitsOf, hw, hpow, Nat.add_mul_div_right _ _ (Nat.two_pow_pos lo), h9, Nat.zero_add, Nat.mul_mod_left]

theorem ub_dispatch {i : Nat} (hi : 4 ≤ i) (hi' : i < 168) : ub (withParity 9) i = false := by
  have h := uf_dispatch hi (show i + 1 ≤ 168 by omega)
  rw [uf, bitsOf, pow_one] at h
  rw [ub, bitOf, h]
  rfl

theorem uf_dispatch_seq : uf (withParity 9) 0 4 = 9 := by decide

theorem parityOk_dispatch : parityOk (withParity 9) = true := by decide

section
variable {u : UM} {ua : Nat}

theorem src_dispatch : u.src (withParity 9) 0 = some (u.m.uval 0, u.m.upois 0) := rfl

theorem base_dispatch : u.base (withParity 9) = none := by
  simp only [UM.base, uf_dispatch (lo := 70) (len := 3) (by decide) (by decide)]

theorem agen_dispatch : u.agen (withParity 9) = none := by rw [UM.agen, base_dispatch, Option.map_none]

theorem cond_dispatch {i : UIn} : u.cond ua (withParity 9) i 0 = (true, false) := rfl

/-- The word is executed in a WCS routine. -/
theorem reject_dispatch (hw : isWcs ua = true) : u.reject ua (withParity 9) true = none := by
  simp [UM.reject, uf_dispatch, ub_dispatch, uf_dispatch_seq, src_dispatch, hw]

theorem consumes_dispatch {pred condPois : Bool} {a b : UV} : u.consumes ua (withParity 9) pred condPois a b = false := by
  simp [UM.consumes, uf_dispatch, ub_dispatch, base_dispatch]

theorem readsCond_dispatch : readsCond (withParity 9) = false := by
  simp [readsCond, uf_dispatch, ub_dispatch, uf_dispatch_seq]

theorem doMem_dispatch {i : UIn} : u.doMem (withParity 9) i = .done u := by simp [UM.doMem, uf_dispatch]

theorem doQop_dispatch {i : UIn} : u.doQop ua (withParity 9) i = .done u := by simp [UM.doQop, uf_dispatch]

theorem doExt_dispatch {i : UIn} : u.doExt ua (withParity 9) i = .done u := by
  simp only [UM.doExt, uf_dispatch (lo := 76) (len := 4) (by decide) (by decide)]

theorem doStep_dispatch {b : UV} : u.doStep (withParity 9) b = u := by simp [UM.doStep, uf_dispatch]

theorem doCnt_dispatch {res : Int} : u.doCnt (withParity 9) res = u := by
  simp only [UM.doCnt, uf_dispatch (lo := 116) (len := 4) (by decide) (by decide)]
  rfl

theorem doAgen_dispatch {i : UIn} {n : Nat} : u.doAgen (withParity 9) i n = .done u := by rw [UM.doAgen, base_dispatch]

theorem Bank.raise_zero (x : Bank) : x.raise 0 = x := by
  have h : x.mode ||| BitVec.ofNat 32 0 = x.mode := BitVec.or_zero
  rw [Bank.raise, h]

/-- All that the word leaves is what the next word's P conditions read. -/
theorem effects_dispatch {i : UIn} {cv : Bool} :
    ∃ v, u.effects ua (withParity 9) i cv = .done (u.setM { u.m with prev := v }) := by
  simp only [UM.effects, uf_dispatch, ub_dispatch, Nat.reduceLeDiff, Nat.reduceAdd, bne_self_eq_false, Bool.false_and, Bool.false_eq_true,
    if_false, if_true, Nat.reduceBEq, Bool.or_self, UEff.andThen, doMem_dispatch, doQop_dispatch, doExt_dispatch, doStep_dispatch,
    doCnt_dispatch, doAgen_dispatch, Nat.or_zero, Bank.raise_zero, Nat.reduceLT]
  exact ⟨_, rfl⟩

theorem library_wcs (hw : isWcs ua = true) : u.library ua = none := by
  have h : 0x1800 ≤ ua := by simp only [isWcs, Bool.and_eq_true, decide_eq_true_eq] at hw; exact hw.1
  unfold UM.library
  split
  case h_6 => rfl
  all_goals omega

theorem csFetchAddr_wcs {s : State} {p : Nat} (hw : isWcs ua = true) : s.csFetchAddr p ua = ua := by
  have h : isRom ua = false := by
    simp only [isWcs, Bool.and_eq_true, decide_eq_true_eq] at hw
    simp only [isRom, decide_eq_false_iff_not]
    omega
  rw [State.csFetchAddr, h, Bool.false_and, if_neg Bool.false_ne_true]

theorem setM_uncounted (h : u.m.counted = false) : u.setM { u.m with counted := false } = u := by
  rw [← h]
  rfl

/-- The word in a WCS routine ends it. -/
theorem word_dispatch {v : UM} (hw : isWcs ua = true) (hcs : u.s.csWord u.p ua = withParity 9) (hm : u.m.counted = false)
    (hc : u.count 1 = some v) (hv : v.m.counted = false) :
    ∃ n, u.word ua = .disp { v.setM { v.m with prev := n } with s := { v.s with free := v.s.free + 16 } } := by
  obtain ⟨n, he⟩ := effects_dispatch (u := v) (ua := ua) (cv := true)
    (i := ⟨(v.m.uval 0, v.m.upois 0), (v.m.uval 0, v.m.upois 0), none⟩)
  refine ⟨n, ?_⟩
  simp only [UM.word, library_wcs hw, Option.filter_none, csFetchAddr_wcs hw, hcs, parityOk_dispatch, Bool.not_true, Bool.false_eq_true,
    if_false, hm, hc, setM_uncounted hv, uf_dispatch, ub_dispatch, Nat.reduceLeDiff, Nat.reduceAdd, src_dispatch, Option.getD_some,
    agen_dispatch, cond_dispatch, Bool.bne_false, reject_dispatch hw, consumes_dispatch, readsCond_dispatch, Bool.false_and,
    uf_dispatch_seq, he, Nat.reduceEqDiff, false_and, if_true, Nat.reduceLT, bne_self_eq_false, Nat.reduceBEq, Bool.or_self]
  rw [UM.seq, uf_dispatch_seq]
  rfl

/-- A routine ends without staged writes and without WAIT or ISYNC. -/
theorem finish_plain (hs : u.m.staged = []) (ha : u.m.atEnd = 0) : u.finish = .ok u.s u.x := by
  rw [UM.finish, hs, ha]
  rfl

theorem run_dispatch {n : Nat} {v : UM} (h : u.word ua = .disp v) : UM.run (n + 1) u ua = v.finish := by rw [UM.run, h]
end

/-! ### UCALL (R133, R184) -/

/-- The WCS distance after the first word of a routine (R184). -/
def State.firstWord (s : State) (p : Nat) : State :=
  (if s.fld (CS_DIST_MAX p) fCS_DIST_MAX_MAX < 1 then (s.setDist p 0).setNat (CS_DIST_MAX p) 1 else s.setDist p 0).setDist p 1

theorem count_first {u : UM} {s : State} {e rx : Nat} (ho : u.op = .ucall e rx) (hs : u.s = s.setDist u.p 0) :
    u.count 1 = some { u with s := s.firstWord u.p } := by
  have hd : ((s.setDist u.p 0).eng u.p).dist = 0 := by rw [State.setDist, eng_setEng_same]
  have hf : (s.setDist u.p 0).fld (CS_DIST_MAX u.p) fCS_DIST_MAX_MAX = s.fld (CS_DIST_MAX u.p) fCS_DIST_MAX_MAX := rfl
  simp only [UM.count, UM.isUcall, ho, hd, hs, hf, Bool.not_true, Bool.false_eq_true, if_false, Nat.reduceAdd, Nat.reduceLeDiff]
  rfl

theorem firstWord_free (s : State) (p : Nat) : (s.firstWord p).free = s.free := by
  have hd (s : State) (n : Nat) : (s.setDist p n).free = s.free := rfl
  have hn (s : State) (a v : Nat) : (s.setNat a v).free = s.free := rfl
  rw [State.firstWord, hd, apply_ite State.free, hn, hd, ite_self]

/-- The micro-machine at the start of a routine. -/
def K.firstUM (k : K) (p : Fin 72) (w : Word) : UM :=
  ⟨p, k, k.s.setDist p 0, { k.x with micro := { k.x.micro.ended with prev := 0, word := w, ucaller := .ofNat 24 k.pc } }⟩

theorem startMicro_run (k : K) (p : Fin 72) (w : Word) (ua : Nat) : k.startMicro p w ua = UM.run 64 (k.firstUM p w) ua := rfl

/-- A UCALL routine of one word that dispatches. -/
theorem startMicro_dispatch {k : K} {p : Fin 72} {w : Word} {e rx ua : Nat} (hw : isWcs ua = true) (ho : kOp w = some (.ucall e rx))
    (hcs : k.s.csWord p ua = withParity 9) :
    ∃ n, k.startMicro p w ua = .ok { k.s.firstWord p with free := k.s.free + 16 }
      { k.x with micro := { k.x.micro.ended with prev := n, word := w, ucaller := .ofNat 24 k.pc } } := by
  have hop : (k.firstUM p w).op = .ucall e rx := congrArg (fun o => Option.getD o KOp.nop) ho
  obtain ⟨n, hn⟩ := word_dispatch (u := k.firstUM p w) hw hcs rfl (count_first hop rfl) rfl
  refine ⟨n, (startMicro_run k p w ua).trans ((run_dispatch hn).trans ?_)⟩
  rw [← firstWord_free k.s p]
  exact finish_plain rfl rfl

/-- UCALL of such a routine. -/
theorem execUcall_dispatch {p : Fin 72} {w : Word} {s t : State} {entry rx : Nat} (h : s.fetched (.eng p) w = some t)
    (ho : kOp w = some (.ucall entry rx)) (hw : isWcs (0x1800 + entry) = true) (hcs : t.csWord p (0x1800 + entry) = withParity 9) :
    ∃ n, execUcall (.eng p) w s = .next (s.ended (.eng p) w { t.firstWord p with free := t.free + 16 }
      { s.kBank (.eng p) with
        micro := { (s.kBank (.eng p)).micro.ended with prev := n, word := w, ucaller := (s.kBank (.eng p)).pc } }) := by
  obtain ⟨n, hn⟩ := startMicro_dispatch (k := s.issue (.eng p) w t) hw ho hcs
  have hpc : BitVec.ofNat 24 (s.issue (.eng p) w t).pc = (s.kBank (.eng p)).pc := (BitVec.ofNat_toNat _ _).trans (BitVec.setWidth_eq _)
  refine ⟨n, (kamyn_fetched h ho rfl (kIllegal_eng ho (by simp))).trans ?_⟩
  have hrun := congrArg (s.issue (.eng p) w t).finish hn
  rw [hpc] at hrun
  exact congrArg _ hrun

/-- An instruction that issues and whose ROM words are patched is carried out by its routine (R186). -/
theorem kamyn_patched {p : Fin 72} {w : Word} {s t : State} {f : KOp → Option (K → KRes)} {op : KOp} {run : K → KRes} {ua : Nat}
    (h : s.issued (.eng p) w = some t) (ho : kOp w = some op) (hf : f op = some run) (hi : kIllegal (.eng p) w = false)
    (hp : (s.kBank (.eng p)).guardPois (kGuard w) = false) (hg : (s.kBank (.eng p)).guardHolds (kGuard w) = true)
    (hu : t.patchedEntry p op (!kWide w) = some ua) :
    kamyn (.eng p) w s f = .next ((s.issue (.eng p) w t).finish ((s.issue (.eng p) w t).startMicro p w ua)) := by
  have hgo : (s.issue (.eng p) w t).x.going = false := issued_idle h
  have hs : (s.issue (.eng p) w t).s = t := rfl
  have hc : (s.issue (.eng p) w t).c = .eng p := rfl
  simp only [kamyn, ho, hf, hi, kRun_issued _ _ h, hp, hg, Bool.not_true, Bool.false_eq_true, if_false, K.routed, hc, hgo, hs, hu]

/-! ### The obligation -/

/-- Settles O18: each row's operation runs on the fetched state (`kamyn_fetched`); of UCALL the word that dispatches is followed field by
field (`word_dispatch`), and a patched instruction starts its routine (`kamyn_patched`). -/
theorem kamynSystemGroup : Obligations.KamynSystemGroup := by
  unfold Obligations.KamynSystemGroup
  refine ⟨?sigNone, ?sigReg, ?sigShep, ?brkOff, ?brkEvent, ?brkHalt, ?stampNow, ?stampTrig, ?stampBtime, ?mode, ?rdmode, ?rank, ?rankWait,
    ?ucall, ?patched⟩
  case sigNone =>
    intro p w s t v h ho b ht hd
    exact show execSignal (.eng p) w s = _ from execSignal_engine (ds := none) h ho ht hd
  case sigReg =>
    intro p w s t d v h ho b ht hd
    exact show execSignal (.eng p) w s = _ from execSignal_engine (ds := some d) h ho ht hd
  case sigShep =>
    intro w s t v h ho b
    exact show execSignal .shep w s = _ from (kamyn_fetched h ho rfl (kIllegal_of ho (by simp) rfl)).trans rfl
  case brkOff =>
    intro c w s t h ho b he
    exact show execBrk c w s = _ from execBrk_off h ho he
  case brkEvent =>
    intro p w s t h ho b he
    exact show execBrk (.eng p) w s = _ from (execBrk_engine h ho).trans (by rw [engBrk_event he])
  case brkHalt =>
    intro p w s t h ho b he
    exact show execBrk (.eng p) w s = _ from (execBrk_engine h ho).trans (by rw [engBrk_halt he])
  case stampNow =>
    intro c w s t dr k h ho b
    exact show execStamp c w s = _ from execStamp_fetched (form := 0) h ho (kIllegal_of ho (by simp) rfl)
  case stampTrig =>
    intro p w s t dr k h ho b
    exact show execStamp (.eng p) w s = _ from execStamp_fetched (form := 1) h ho (kIllegal_eng ho (by simp))
  case stampBtime =>
    intro c w s t dr k h ho b
    exact show execStamp c w s = _ from execStamp_fetched (form := 2) h ho (kIllegal_of ho (by simp) rfl)
  case mode =>
    intro c w s t ds h ho b hp hhi hlo
    exact show execMode c w s = _ from execMode_clean h ho hp hhi hlo
  case rdmode =>
    intro c w s t dr h ho b hw
    exact show execRdmode c w s = _ from execRdmode_settled h ho hw
  case rank =>
    intro p w s t an h ho b hp hr ha hout ht hd
    exact show execRank (.eng p) w s = _ from execRank_issue h ho hp hr ha hout ht hd
  case rankWait =>
    intro p w s t an h ho b hp hr ha hout
    exact show execRank (.eng p) w s = _ from execRank_waits h ho hp hr ha hout
  case ucall =>
    intro p w s t entry rx h ho hw hcs u
    exact show ∃ n, execUcall (.eng p) w s = _ from execUcall_dispatch h ho hw hcs
  case patched =>
    intro p w s t d v ua h ho hp hg hu
    exact show execSignal (.eng p) w s = _ from kamyn_patched h ho rfl (kIllegal_eng ho (by simp)) hp hg hu

end Sys2Proof.Machine
end

section
/-!
Proofs about the paths of an engine to system memory and to the unit registers, about its Rank unit and about its window into the control
store (03_loop_engines.md R66, R75, R85, R89 to R92; 04_kamyn_instruction_set.md R150; 06_microcode.md R185, R193).
-/

namespace Sys2Proof.Machine

/-- An event of the fast domain while its clock runs. -/
theorem fastEvent_live {s : State} {f : State → State} (h : s.live = true) : fastEvent f s = .next (f s) :=
  congrArg _ (if_pos h)

section
variable {p : Fin 72} {s : State}

/-! ### Buffered stores (R66, R85) -/

theorem storeDone_cons {e : BufStore} {t : List BufStore} (h : (s.eng p).stores = e :: t) :
    s.storeDone p = (s.setEng p { s.eng p with stores := t }).sysWrite e.addr e.bytes := by
  simp only [State.storeDone, h]

theorem shStoreDone_cons {e : BufStore} {t : List BufStore} (h : s.sh.stores = e :: t) :
    s.shStoreDone = { s with sh := { s.sh with stores := t } }.sysWrite e.addr e.bytes := by
  simp only [State.shStoreDone, h]

/-- A late-store error, kind 4, that the Hurdle lets pass. -/
theorem lateStoreError_cons {e : BufStore} {t : List BufStore} (h : (s.eng p).stores = e :: t)
    (ht : s.underTest 0 p = false) (hd : s.hurdleDrops 0 p = false) :
    s.lateStoreError p = ((s.setEng p { s.eng p with stores := t }).raise (64 + 4 * p) (4 + e.slot * 256 + s.leLogical p * 65536)
      e.eaddr.toNat).record (64 + 4 * p) 1 (4 + e.slot * 4096) 0 e.eaddr.toNat (s.leLogical p) := by
  have hl : (s.setEng p { s.eng p with stores := t }).leLogical p = s.leLogical p := rfl
  have ht' : (s.setEng p { s.eng p with stores := t }).underTest 0 p = false := ht
  have hd' : (s.setEng p { s.eng p with stores := t }).hurdleDrops 0 p = false := hd
  simp only [State.lateStoreError, h, State.faultEvent, leRaise_passes ht' hd', hl, Nat.zero_mul, Nat.add_zero, if_true, Nat.reduceEqDiff,
    if_false]

/-! ### Responses to loads (R75, R150) -/

section
variable {b : Nat} {code : Nat} {data : BitVec 64} {lw : LoadWait} (hw : (s.bank p b).wait = some lw)
include hw

section
variable (hl : s.live = true) (hr : lw.resp = none)
include hl hr

/-- The response of system memory to a task that does not run is kept. -/
theorem engResponse_kept (hk : lw.kind ≠ 0) (hn : s.kReady (.eng p) = false) :
    s.engResponse p b code data = s.setBank p b { s.bank p b with wait := some { lw with resp := some (code, data) } } := by
  have hk' : (lw.kind == 0) = false := beq_false_of_ne hk
  simp only [State.engResponse, hw, hl, hr, hk, hk', hn, Option.isSome_none, Bool.not_true, Bool.false_and, Bool.or_self,
    Bool.false_eq_true, if_false]

/-- The response of system memory to the running task ends its load. -/
theorem engResponse_ends (hk : lw.kind ≠ 0) (hn : s.kReady (.eng p) = true) (hb : s.runBank p = b) (hm : lw.micro = false) :
    s.engResponse p b code data = s.loadEnd (.eng p) lw code data := by
  have hk' : (lw.kind == 0) = false := beq_false_of_ne hk
  simp only [State.engResponse, hw, hl, hr, hk, hk', hn, hb, hm, Option.isSome_none, Bool.not_true, Bool.not_false, Bool.false_and,
    Bool.true_and, beq_self_eq_true, Bool.or_self, Bool.false_eq_true, if_false, if_true]

/-- A load of the window makes its access once the path is empty. -/
theorem engResponse_window (hk : lw.kind = 0) (hp : (s.eng p).path = []) (hn : (s.windowAccess p lw).2.2.kReady (.eng p) = false) :
    s.engResponse p b code data = (s.windowAccess p lw).2.2.setBank p b
      { s.bank p b with wait := some { lw with resp := some ((s.windowAccess p lw).1, (s.windowAccess p lw).2.1) } } := by
  simp only [State.engResponse, hw, hl, hr, hk, hp, hn, Option.isSome_none, List.isEmpty_nil, Bool.not_true, Bool.and_false, Bool.false_and,
    Bool.or_self, Bool.false_eq_true, if_false, if_true]
end

/-- A load of the window waits for the stores before it. -/
theorem engResponse_blocked (hk : lw.kind = 0) (hp : (s.eng p).path ≠ []) : s.engResponse p b code data = s := by
  have hp' : (s.eng p).path.isEmpty = false := by simpa using hp
  simp only [State.engResponse, hw, hk, hp', beq_self_eq_true, Bool.not_false, Bool.and_self, Bool.or_true, if_true]
end

/-! ### Stores on the unit-register path (R75) -/

section
variable {e : PathStore} {t : List PathStore} (hl : s.live = true) (h : (s.eng p).path = e :: t)
include hl h

theorem pathStore_stale (hi : e.inc ≠ s.flockInc e.flock) :
    execUnitRegisterStoreAccept p s = .next ((s.setEng p { s.eng p with path := t }).inc (FLK_STALE_CNT e.flock)) := by
  have hf : (s.setEng p { s.eng p with path := t }).flockInc e.flock = s.flockInc e.flock := rfl
  simp only [execUnitRegisterStoreAccept, h, hl, hf, hi, Bool.not_true, Bool.false_eq_true, if_false, if_true, ne_eq, not_false_eq_true]

theorem pathStore_enters (hi : e.inc = s.flockInc e.flock) :
    execUnitRegisterStoreAccept p s = .next (
      let u := s.setEng p { s.eng p with path := t }
      u.urpStore p { u.master (.urp p) with flock := e.flock, inc := e.inc } (u.urpTarget (e.eaddr.toNat - 0x400000)) e.eaddr.toNat
        e.slot e.pc.toNat e.data) := by
  have hf : (s.setEng p { s.eng p with path := t }).flockInc e.flock = s.flockInc e.flock := rfl
  simp only [execUnitRegisterStoreAccept, h, hl, hf, ← hi, Bool.not_true, Bool.false_eq_true, if_false, ne_eq, not_true_eq_false]
end
end

/-! ### The Rank unit (R89 to R92) -/

/-- The inbox that a request's completion goes to. -/
def rankInbox (x : RankReq) : Nat := 4 * x.eng + (x.got.getD {}).inbox

/-- The state in which the completion of the request in service is due: the samples that are to leave to its inbox have left. -/
def State.rankDue (s : State) (c : Nat) (r : RankReq) : State :=
  s.samplesLeave (fun n => s.routeQueue n == some (rankInbox (s.rankReadAll c r)))

section
variable {c : Nat} {r : RankReq} {t : List RankReq} {s : State} (h : tget (fun _ => []) s.ranks c = r :: t)
include h

/-- A full inbox holds the completion. -/
theorem rankCompletion_held (he : (s.rankDue c r).qEn (rankInbox (s.rankReadAll c r)) = true)
    (hq : (s.rankDue c r).qDepth (rankInbox (s.rankReadAll c r)) ≤ (s.rankDue c r).qLevel (rankInbox (s.rankReadAll c r))) :
    s.rankCompletion c = s.rankDue c r := by
  have hd := decide_eq_true hq
  rw [State.rankDue, rankInbox] at he hd ⊢
  simp only [State.rankCompletion, h, he, hd, Bool.and_self, Bool.or_true, if_true]

section
variable (hl : (s.rankDue c r).live = true) (hb : (s.rankDue c r).qBusy (rankInbox (s.rankReadAll c r)) = false)
  (hf : ((s.rankDue c r).qEn (rankInbox (s.rankReadAll c r))
    && decide ((s.rankDue c r).qDepth (rankInbox (s.rankReadAll c r)) ≤ (s.rankDue c r).qLevel (rankInbox (s.rankReadAll c r)))) = false)
include hl hb hf

/-- A request with STATUS 0 writes its ranked entries and finishes. -/
theorem rankCompletion_writes (hst : rankStatus ((s.rankReadAll c r).got.getD {}) (s.rankReadAll c r).pois = 0) :
    s.rankCompletion c = (let d := (s.rankReadAll c r).got.getD {}
      ((s.rankDue c r).rankWrite (0x1500000 + c * 0x80000 + d.dst)
        ((rankSort d.desc (s.rankReadAll c r).entries).take (if d.k = 0 then d.n else d.k))).rankFinish c (s.rankReadAll c r) d 0) := by
  rw [State.rankDue, rankInbox] at hl hb hf
  simp only [State.rankCompletion, h, hl, hb, hf, hst, Bool.not_true, Bool.or_self, Bool.false_eq_true, if_false, if_true]
  rfl

/-- A request with another STATUS only finishes. -/
theorem rankCompletion_fails (hst : rankStatus ((s.rankReadAll c r).got.getD {}) (s.rankReadAll c r).pois ≠ 0) :
    s.rankCompletion c = (let d := (s.rankReadAll c r).got.getD {}
      (s.rankDue c r).rankFinish c (s.rankReadAll c r) d (rankStatus d (s.rankReadAll c r).pois)) := by
  rw [State.rankDue, rankInbox] at hl hb hf
  simp only [State.rankCompletion, h, hl, hb, hf, hst, Bool.not_true, Bool.or_self, Bool.false_eq_true, if_false]
  rfl
end
end

/-! ### The control store (R185, R193) -/

section
variable {s t : State} {p : Fin 72}

/-- LE_STAT.STATE is what the slots, LE_CTRL and the engine's own structure make it. -/
theorem leState_congr (he : s.eng p = t.eng p) (hs : s.slotState p = t.slotState p) (hc : s.leEn p = t.leEn p) :
    s.leState p = t.leState p := by
  unfold State.leState State.anySlot
  rw [he, hs, hc]

theorem fld_setNat_ne {o o' n : Nat} {f : Fld} (h : o' ≠ o) : (s.setNat o n).fld o' f = s.fld o' f := by
  simp only [State.fld, reg_setNat_ne _ _ _ _ h]

theorem nat_setNat_ne {o o' n : Nat} (h : o' ≠ o) : (s.setNat o n).nat o' = s.nat o' := by
  simp only [State.nat, reg_setNat_ne _ _ _ _ h]

theorem fld_setNat_same {o n : Nat} {f : Fld} : (s.setNat o n).fld o f = f.of (n % 2 ^ 32) := by
  rw [State.fld, State.setNat, reg_setReg_same, BitVec.toNat_ofNat, Fld.of]

/-- A write of CS_WADDR leaves the state of the engine. -/
theorem leState_setNat_waddr (n : Nat) : (s.setNat (CS_WADDR p) n).leState p = s.leState p := by
  have h1 (k : Nat) : LE_TASK_STAT p k ≠ CS_WADDR p := by simp only [LE_TASK_STAT, CS_WADDR]; omega
  have h2 : LE_CTRL p ≠ CS_WADDR p := by simp only [LE_CTRL, CS_WADDR]; omega
  refine leState_congr (by simp only [State.eng, setNat_engs]) (funext fun k => fld_setNat_ne (h1 k)) ?_
  simp only [State.leEn, State.flag, fld_setNat_ne h2]

theorem wdata_setNat_waddr (n : Nat) : (s.setNat (CS_WADDR p) n).wdata p = s.wdata p := by
  have h1 (i : Nat) : CS_WDATA p i ≠ CS_WADDR p := by simp only [CS_WDATA, CS_WADDR]; omega
  have h2 : CS_WDATA5 p ≠ CS_WADDR p := by simp only [CS_WDATA5, CS_WADDR]; omega
  simp only [State.wdata, nat_setNat_ne (h1 _), nat_setNat_ne h2]

theorem leState_logged {q : Port} {o : Nat} {v : Word} : (s.logged q o v).leState p = s.leState p := by
  refine leState_congr ?_ (funext fun k => logged_fld s q o v _ _) (logged_flag s q o v _ _)
  simp only [State.eng, logged_engs]

theorem wdata_logged {q : Port} {o : Nat} {v : Word} : (s.logged q o v).wdata p = s.wdata p := by
  simp only [State.wdata, logged_nat]

theorem csWord_logged {q : Port} {o a : Nat} {v : Word} : (s.logged q o v).csWord p a = s.csWord p a := by
  simp only [State.csWord, logged_cs]

/-- The fields of a word beside the GO bit put into it. -/
theorem toNat_putGo (f : Fld) (v : Word) (hf : f.lo = 31) (hl : f.len = 1) : (f.put v 1).toNat = withBits v.toNat 31 1 1 := by
  rw [Fld.put, hf, hl, BitVec.toNat_ofNat, Nat.mod_eq_of_lt (withBits_lt _ _ _ _ _ (by decide) v.isLt)]

theorem bitsOf_putGo (f : Fld) (v : Word) (hf : f.lo = 31) (hl : f.len = 1) {lo len : Nat} (h : lo + len ≤ 31) :
    bitsOf (f.put v 1).toNat lo len = vfld v lo len := by
  rw [toNat_putGo f v hf hl, bitsOf_withBits_below _ _ _ _ _ _ h, vfld]

theorem bitOf_putGo (f : Fld) (v : Word) (hf : f.lo = 31) (hl : f.len = 1) : bitOf (f.put v 1).toNat 31 = true := by
  have h := bitsOf_withBits_same v.toNat 31 1 1
  rw [bitsOf, pow_one] at h
  rw [toNat_putGo f v hf hl, bitOf, h]
  rfl

/-- CS_WADDR holds its two fields. -/
theorem fld_waddr {a g : Nat} (ha : a < 2 ^ 13) (hg : g < 2) :
    (s.setNat (CS_WADDR p) (a + g * 2 ^ 16)).fld (CS_WADDR p) fCS_WADDR_ADDR = a
      ∧ (s.setNat (CS_WADDR p) (a + g * 2 ^ 16)).flag (CS_WADDR p) fCS_WADDR_GENPAR = (g == 1) := by
  constructor
  · simp only [fld_setNat_same, Fld.of, bitsOf, fCS_WADDR_ADDR]
    omega
  · have h : (a + g * 2 ^ 16) % 2 ^ 32 / 2 ^ 16 % 2 ^ 1 = g := by omega
    simp only [State.flag, fld_setNat_same, Fld.of, bitsOf, fCS_WADDR_GENPAR, h]

/-- CS_WADDR with GO at a place of WCS while the engine is off: the word of CS_WDATA is written with computed parity. -/
theorem csWrite_wcs {a : Nat} (ha : isWcs a = true) (hs : s.leState p = 0) :
    (s.setNat (CS_WADDR p) (a + 2 ^ 16)).csWrite p = (s.setNat (CS_WADDR p) (a + 2 ^ 16)).setCsWord p a (withParity (s.wdata p)) := by
  have hlt : a < 2 ^ 13 := by
    simp only [isWcs, Bool.and_eq_true, decide_eq_true_eq] at ha
    omega
  obtain ⟨hfld, hflag⟩ := fld_waddr (s := s) (p := p) (g := 1) hlt (by decide)
  rw [Nat.one_mul] at hfld hflag
  simp only [State.csWrite, State.csWritable, hfld, hflag, ha, leState_setNat_waddr, hs, wdata_setNat_waddr, beq_self_eq_true, Bool.true_or,
    if_true]

/-- CS_WADDR with GO at a place of the ROM is refused. -/
theorem csWrite_rom {a g : Nat} (ha : isRom a = true) (hg : g < 2) :
    (s.setNat (CS_WADDR p) (a + g * 2 ^ 16)).csWrite p = (s.setNat (CS_WADDR p) (a + g * 2 ^ 16)).inc (CS_WREFUSED p) := by
  have hlt : a < 0x1000 := by simpa only [isRom, decide_eq_true_eq] using ha
  have hw : isWcs a = false := by simp only [isWcs, Bool.and_eq_false_iff, decide_eq_false_iff_not]; omega
  have hp : isPatch a = false := by simp only [isPatch, Bool.and_eq_false_iff, decide_eq_false_iff_not]; omega
  obtain ⟨hfld, -⟩ := fld_waddr (s := s) (p := p) (lt_trans hlt (by decide)) hg
  simp only [State.csWrite, State.csWritable, hfld, hw, hp, Bool.false_and, Bool.false_eq_true, if_false]

/-- CS_RADDR with GO reads the word and its parity check. -/
theorem csRead_raddr {a : Nat} (ha : a < 2 ^ 13) :
    (s.setNat (CS_RADDR p) a).csRead p = (let w := s.csWord p a
      let u := forN (fun i x => x.setNat (CS_RDATA p i) (bitsOf w.toNat (32 * i) 32)) 5 (s.setNat (CS_RADDR p) a)
      (u.setNat (CS_RDATA5 p) (bitsOf w.toNat 160 16)).setFlag (CS_RSTAT p) fCS_RSTAT_PARERR (!parityOk w)) := by
  have hfld : (s.setNat (CS_RADDR p) a).fld (CS_RADDR p) fCS_RADDR_ADDR = a := by
    simp only [fld_setNat_same, Fld.of, bitsOf, fCS_RADDR_ADDR]
    omega
  have hcs : (s.setNat (CS_RADDR p) a).csWord p a = s.csWord p a := by simp only [State.csWord, setNat_cs]
  rw [State.csRead, hfld, hcs]

theorem vfld_lt (v : Word) (lo n : Nat) : vfld v lo n < 2 ^ n := Nat.mod_lt _ (Nat.two_pow_pos n)

theorem vfld_of_vbit {v : Word} {i : Nat} (h : vbit v i = true) : vfld v i 1 = 1 := by
  simpa only [vfld, bitsOf, pow_one, vbit, bitOf, beq_iff_eq] using h

/-- A write of CS_WADDR with GO. -/
theorem csWaddrWrite_go (v : Word) : s.csWaddrWrite p (fCS_WADDR_GO.put v 1)
    = (s.setNat (CS_WADDR p) (vfld v 0 13 + vfld v 16 1 * 2 ^ 16)).csWrite p := by
  rw [State.csWaddrWrite, bitOf_putGo _ _ rfl rfl, if_pos rfl, bitsOf_putGo _ _ rfl rfl (by decide), bitsOf_putGo _ _ rfl rfl (by decide)]

/-- A write of CS_RADDR with GO. -/
theorem csRaddrWrite_go (v : Word) : s.csRaddrWrite p (fCS_RADDR_GO.put v 1) = (s.setNat (CS_RADDR p) (vfld v 0 13)).csRead p := by
  rw [State.csRaddrWrite, bitOf_putGo _ _ rfl rfl, if_pos rfl, bitsOf_putGo _ _ rfl rfl (by decide)]

theorem exec_csWaddrGo {q : Port} {v : Word} (h : s.takes q (CS_WADDR p) (fCS_WADDR_GO.put v 1) = true) :
    execCsWaddrGo q p v s = .next (s.after q (CS_WADDR p) (fCS_WADDR_GO.put v 1) (fun u =>
      (u.setNat (CS_WADDR p) (vfld v 0 13 + vfld v 16 1 * 2 ^ 16)).csWrite p)) := by
  obtain ⟨hadm, hword⟩ := takes_iff.mp h
  simp only [execCsWaddrGo, regCmd_CS_WADDR p hadm, hword, csWaddrWrite_go]

theorem exec_csRaddrGo {q : Port} {v : Word} (h : s.takes q (CS_RADDR p) (fCS_RADDR_GO.put v 1) = true) :
    execCsRaddrGo q p v s = .next (s.after q (CS_RADDR p) (fCS_RADDR_GO.put v 1) (fun u =>
      (u.setNat (CS_RADDR p) (vfld v 0 13)).csRead p)) := by
  obtain ⟨hadm, hword⟩ := takes_iff.mp h
  simp only [execCsRaddrGo, regCmd_CS_RADDR p hadm, hword, csRaddrWrite_go]
end

/-! ### The obligation -/

/-- Settles O10: a case for each place where a store, a response, a path store, a Rank request or a control-store access can stand. -/
theorem enginePaths : Obligations.EnginePaths := by
  unfold Obligations.EnginePaths
  refine ⟨?stEng, ?stShep, ?late, ?kept, ?ends, ?window, ?blocked, ?stale, ?enters, ?rankOk, ?rankErr, ?rankHeld, ?waddr,
    ?waddrRom, ?raddr⟩
  case stEng =>
    intro p e t s h
    exact show execBufferedStoreComplete (.eng p) s = _ from congrArg _ (storeDone_cons h)
  case stShep =>
    intro e t s h
    exact show execBufferedStoreComplete .shep s = _ from congrArg _ (shStoreDone_cons h)
  case late =>
    intro p e t s hl h ht hd
    exact show execLateStoreError p s = _ from congrArg _ ((if_pos hl).trans (lateStoreError_cons h ht hd))
  case kept =>
    intro p b code data lw s hl hw hr hk hn
    exact show execLoadResponse (.eng p) b code data s = _ from congrArg _ (engResponse_kept hw hl hr hk hn)
  case ends =>
    intro p b code data lw s hl hw hr hk hn hb hm
    exact show execLoadResponse (.eng p) b code data s = _ from congrArg _ (engResponse_ends hw hl hr hk hn hb hm)
  case window =>
    intro p b code data lw s hl hw hr hk hp hn
    exact show execLoadResponse (.eng p) b code data s = _ from congrArg _ (engResponse_window hw hl hr hk hp hn)
  case blocked =>
    intro p b code data lw s hw hk hp
    exact show execLoadResponse (.eng p) b code data s = _ from congrArg _ (engResponse_blocked hw hk hp)
  case stale =>
    intro p e t s hl h hi
    exact show execUnitRegisterStoreAccept p s = _ from pathStore_stale hl h hi
  case enters =>
    intro p e t s hl h hi
    exact show execUnitRegisterStoreAccept p s = _ from pathStore_enters hl h hi
  case rankOk =>
    intro cl r t s hl h x d q u hu hb hf hst
    exact show execRankCompletion cl s = _ from (fastEvent_live hl).trans (congrArg _ (rankCompletion_writes h hu hb hf hst))
  case rankErr =>
    intro cl r t s hl h x d q u hu hb hf hst
    exact show execRankCompletion cl s = _ from (fastEvent_live hl).trans (congrArg _ (rankCompletion_fails h hu hb hf hst))
  case rankHeld =>
    intro cl r t s hl h x q u he hq
    exact show execRankCompletion cl s = _ from (fastEvent_live hl).trans (congrArg _ (rankCompletion_held h he hq))
  case waddr =>
    intro q p v s h ha hs hv
    refine show execCsWaddrGo q p v s = _ from (exec_csWaddrGo h).trans (congrArg _ (after_congr ?_))
    rw [vfld_of_vbit hv, Nat.one_mul, csWrite_wcs ha (leState_logged.trans hs), wdata_logged]
  case waddrRom =>
    intro q p v s h ha
    refine show execCsWaddrGo q p v s = _ from (exec_csWaddrGo h).trans (congrArg _ (after_congr ?_))
    exact csWrite_rom ha (vfld_lt v 16 1)
  case raddr =>
    intro q p v s h
    refine show execCsRaddrGo q p v s = _ from (exec_csRaddrGo h).trans (congrArg _ (after_congr ?_))
    rw [csRead_raddr (vfld_lt v 0 13), csWord_logged]

end Sys2Proof.Machine
end

section
/-!
Proofs about task slots: triggers, dispatch, preemption and deadlines (03_loop_engines.md R76 to R84, 06_microcode.md R180).
-/

namespace Sys2Proof.Machine

/-! ### What a raise leaves of LE_TASK_CFG (R76, R81) -/

/-- `t` holds every LE_TASK_CFG as `s` does. -/
def TaskCfgSame (s t : State) : Prop := ∀ q j, j < 8 → t.reg (LE_TASK_CFG q j) = s.reg (LE_TASK_CFG q j)

namespace TaskCfgSame

variable {s t u : State}

theorem refl (s : State) : TaskCfgSame s s := fun _ _ _ => rfl

theorem trans (h : TaskCfgSame s t) (g : TaskCfgSame t u) : TaskCfgSame s u := fun q j hj => (g q j hj).trans (h q j hj)

theorem ite {c : Prop} [Decidable c] (ht : TaskCfgSame s t) (hu : TaskCfgSame s u) : TaskCfgSame s (if c then t else u) := by
  split
  · exact ht
  · exact hu

theorem foldl {α : Type} {f : State → α → State} (l : List α) (h : ∀ a ∈ l, ∀ u, TaskCfgSame u (f u a)) (s : State) :
    TaskCfgSame s (l.foldl f s) := by
  induction l generalizing s with
  | nil => exact refl s
  | cons a l ih =>
    rw [List.forall_mem_cons] at h
    exact (h.1 s).trans (ih h.2 (f s a))

theorem setReg (s : State) {off : Nat} (v : Word) (h : ∀ q j, j < 8 → LE_TASK_CFG q j ≠ off) : TaskCfgSame s (s.setReg off v) :=
  fun q j hj => reg_setReg_ne _ _ _ _ (h q j hj)

theorem setFlag (s : State) {off : Nat} (f : Fld) (b : Bool) (h : ∀ q j, j < 8 → LE_TASK_CFG q j ≠ off) :
    TaskCfgSame s (s.setFlag off f b) := fun q j hj => reg_setFlag_ne _ _ _ _ _ (h q j hj)

theorem setFld (s : State) {off : Nat} (f : Fld) (n : Nat) (h : ∀ q j, j < 8 → LE_TASK_CFG q j ≠ off) :
    TaskCfgSame s (s.setFld off f n) := fun q j hj => reg_setFld_ne _ _ _ _ _ (h q j hj)

theorem setSlot (s : State) (p k : Nat) (x : Slot) : TaskCfgSame s (s.setSlot p k x) := fun _ _ _ => rfl

theorem raiseLater (s : State) (n p0 p1 : Nat) : TaskCfgSame s (s.raiseLater n p0 p1) := fun _ _ _ => rfl

theorem jAdd (s : State) (e : JEntry) : TaskCfgSame s (s.jAdd e) := fun _ _ _ => rfl

theorem inc (s : State) {off : Nat} (h : ∀ q j, j < 8 → LE_TASK_CFG q j ≠ off) : TaskCfgSame s (s.inc off) :=
  fun q j hj => reg_inc_ne _ _ _ (h q j hj)

theorem stat_ne (p k q j : Nat) : LE_TASK_CFG q j ≠ LE_TASK_STAT p k := by
  simp only [LE_TASK_CFG, LE_TASK_STAT]
  omega

theorem hurdleCount (s : State) (k i : Nat) : TaskCfgSame s (s.hurdleCount k i) := by
  unfold State.hurdleCount
  extract_lets s1 s2
  have counted : TaskCfgSame s s1 := inc s (by simp only [LE_TASK_CFG, hurdleCnt, RS_HURDLE_CNT_E]; omega)
  have seen : TaskCfgSame s1 s2 := setFlag s1 _ true (by simp only [LE_TASK_CFG, RS_GSTAT]; omega)
  exact ite counted (counted.trans (seen.trans ((raiseLater s2 914 0 0).trans (jAdd _ _))))

theorem overrun (s : State) (p : Nat) {k : Nat} (hk : k < 8) : TaskCfgSame s (s.overrun p k) := by
  unfold State.overrun
  extract_lets s1
  have counted : TaskCfgSame s s1 :=
    (setFlag s _ true (fun q j _ => stat_ne p k q j)).trans (inc _ (by simp only [LE_TASK_CFG, LE_OVR_CNT]; omega))
  exact counted.trans (ite (refl s1) (ite (hurdleCount s1 0 p) (raiseLater s1 _ 0 0)))

theorem makeReady (s : State) (p k : Nat) (st : Stamp) (edge : Bool) : TaskCfgSame s (s.makeReady p k st edge) :=
  (setFld s _ 2 (fun q j _ => stat_ne p k q j)).trans (setSlot _ p k _)

theorem fireEdge (s : State) (p : Nat) {k : Nat} (hk : k < 8) (st : Stamp) : TaskCfgSame s (s.fireEdge p k st) := by
  unfold State.fireEdge
  split
  case h_1 => exact makeReady s p k st true
  case h_2 => exact overrun s p hk
  case h_3 | h_4 =>
    split
    · exact setSlot s p k _
    · exact overrun s p hk
  case h_5 => exact overrun s p hk
  case h_6 => exact refl s

theorem slot_lt_of_mem {x : Nat × Nat} (h : x ∈ s.listedTasks) : x.2 < 8 := by
  obtain ⟨e, -, he⟩ := List.mem_filterMap.mp h
  unfold taskAt at he
  split at he
  · cases he
  · extract_lets c d at he
    split at he
    · cases he
    · split at he
      · cases he
        dsimp only
        omega
      · cases he

theorem raise (s : State) (n p0 p1 : Nat) : TaskCfgSame s (s.raise n p0 p1) := by
  have raised : TaskCfgSame s (s.raiseBase n s.now p0 p1) := fun _ _ _ => rfl
  exact raised.trans (foldl _ (fun x hx u => fireEdge u x.1 (slot_lt_of_mem (List.mem_of_mem_filter hx)) s.now) _)

end TaskCfgSame

/-! ### The Hurdle of an engine while its slots change -/

theorem hurdle_congr {s t : State} {p : Nat} (hr : t.reg (hurdleReg 0 p) = s.reg (hurdleReg 0 p))
    (hm : t.reg (LE_MAP p) = s.reg (LE_MAP p)) :
    t.underTest 0 p = s.underTest 0 p ∧ t.hurdleDrops 0 p = s.hurdleDrops 0 p := by
  have hi : t.unitInc 0 p = s.unitInc 0 p := by
    simp only [State.unitInc, mapReg, State.nat, hm]
  exact ⟨flag_of_reg hr, by simp only [State.hurdleDrops, State.fenced, flag_of_reg hr, fld_of_reg hr, hi]⟩

/-! ### Slots and banks -/

section
variable {s : State} {p k : Nat}

theorem slot_of_engs {t : State} (h : t.engs = s.engs) : t.slot p k = s.slot p k := by
  simp only [State.slot, State.eng, h]

theorem slot_setBank (b : Nat) (x : Bank) : (s.setBank p b x).slot p k = s.slot p k := by
  simp only [State.slot, State.setBank, eng_setEng_same]

theorem slot_suspend (r : Nat) : (s.suspend p r).slot p k = s.slot p k := by
  have hf (u : State) : u.tookFree.slot p k = u.slot p k := rfl
  unfold State.suspend
  extract_lets b x m t
  split
  · exact slot_setBank b _
  · have ht : t.slot p k = s.slot p k := slot_setBank b _
    split
    · exact (hf t).trans ht
    · exact ht

theorem reg_suspend (r o : Nat) : (s.suspend p r).reg o = s.reg o := by
  unfold State.suspend
  extract_lets b x m t
  split
  · rfl
  · have ht : t.reg o = s.reg o := rfl
    split
    · exact ht
    · exact ht

theorem fc_suspend (r : Nat) : (s.suspend p r).fc = s.fc := by
  unfold State.suspend
  extract_lets b x m t
  split
  · rfl
  · have ht : t.fc = s.fc := rfl
    split
    · exact ht
    · exact ht

/-- Between two instructions LE_UCONT.VALID of what is suspended is 0 (R180). -/
theorem suspend_between (h : (s.bank p (s.slotPri p k)).micro.mid = 0) :
    s.suspend p k = s.setBank p (s.slotPri p k) { s.bank p (s.slotPri p k) with micro := (s.bank p (s.slotPri p k)).micro.unvalid } :=
  if_pos h

/-! ### Edge triggers (R77, R81) -/

theorem fireEdge_waiting {st : Stamp} (h : s.slotState p k = 1) : s.fireEdge p k st = s.makeReady p k st true := by
  simp only [State.fireEdge, h]

theorem fireEdge_ready {st : Stamp} (h : s.slotState p k = 2) : s.fireEdge p k st = s.overrun p k := by
  simp only [State.fireEdge, h]

/-- A slot becomes READY in a state that differs in neither its slots nor the fc. -/
theorem makeReady_eq {t : State} {st : Stamp} {e : Bool} (he : t.engs = s.engs) (hf : t.fc = s.fc) :
    t.makeReady p k st e = (t.setFld (LE_TASK_STAT p k) fLE_TASK_STAT_STATE 2).setSlot p k
      { s.slot p k with stamp := st, regFc := s.fc, edge := e, missed := false } := by
  rw [State.makeReady, slot_of_engs he, hf]
  rfl

/-- A periodic Tally-time trigger whose T is reached, of a WAITING slot. -/
theorem tallyTrigger_periodic (ht : s.trig p k = 2) (ha : (s.slot p k).armed = true) (hs : s.slotState p k = 1)
    (hr : reached (s.reg64 (LE_TASK_TIME_LO p k) (LE_TASK_TIME_HI p k)) s.now = true) (hp : s.nat (LE_TASK_PERIOD p k) ≠ 0) :
    s.tallyTrigger p k = (let t := s.reg64 (LE_TASK_TIME_LO p k) (LE_TASK_TIME_HI p k)
      (s.setReg64 (LE_TASK_TIME_LO p k) (LE_TASK_TIME_HI p k) (t + .ofNat 64 (s.nat (LE_TASK_PERIOD p k)))).makeReady p k t true) := by
  have hlo : LE_TASK_STAT p k ≠ LE_TASK_TIME_LO p k := by simp only [LE_TASK_STAT, LE_TASK_TIME_LO]; omega
  have hhi : LE_TASK_STAT p k ≠ LE_TASK_TIME_HI p k := by simp only [LE_TASK_STAT, LE_TASK_TIME_HI]; omega
  have hst (v : Stamp) : (s.setReg64 (LE_TASK_TIME_LO p k) (LE_TASK_TIME_HI p k) v).slotState p k = 1 :=
    (fld_of_reg ((reg_setReg_ne _ _ _ _ hhi).trans (reg_setReg_ne _ _ _ _ hlo))).trans hs
  have hs0 : s.slotState p k ≠ 0 := by rw [hs]; decide
  rw [State.tallyTrigger]
  dsimp only
  rw [if_pos ⟨ht, ha, hs0, hr⟩, if_neg hp, fireEdge_waiting (hst _)]

/-! ### Dispatch and preemption (R71, R78, R80) -/

theorem mayDispatch_live (h : s.mayDispatch p = true) : s.live = true := by
  simp only [State.mayDispatch, Bool.and_eq_true, and_assoc] at h
  exact h.1

theorem taskDispatch_ready (hm : s.mayDispatch p = true) (hn : s.nextSlot p = some k) (hs : s.slotState p k = 2) :
    s.taskDispatch p = (s.activate p k).setFld (LE_TASK_STAT p k) fLE_TASK_STAT_STATE 3 := by
  simp only [State.taskDispatch, hm, hn, hs, if_true, State.setSlotState]

theorem taskDispatch_preempted (hm : s.mayDispatch p = true) (hn : s.nextSlot p = some k) (hs : s.slotState p k = 4) :
    s.taskDispatch p = (s.resumeMark p k).setFld (LE_TASK_STAT p k) fLE_TASK_STAT_STATE 3 := by
  simp only [State.taskDispatch, hm, hn, hs, if_true, State.setSlotState, Nat.reduceEqDiff, if_false]

/-- A new activation starts at LE_TASK_ENTRY with LE_TASK_ARG in A0. -/
theorem activate_eq : s.activate p k = (let b := s.slotPri p k
    let x := s.bank p b
    State.setReg64 (s.setBank p b { x with
        pc := .ofNat 24 (s.fld (LE_TASK_ENTRY p k) fLE_TASK_ENTRY_VALUE / 2 * 2)
        a := tset (fun _ => 0) x.a 0 (.ofNat 24 (s.fld (LE_TASK_ARG p k) fLE_TASK_ARG_VALUE))
        poison := x.poison &&& ~~~(1#32 <<< 16)
        wait := none
        micro := x.micro.ended })
      (LE_TRIG_STAMP_LO p k) (LE_TRIG_STAMP_HI p k) (s.slot p k).stamp) := by
  simp only [State.activate, slot_setBank]

/-- A READY slot of higher priority preempts the running one, with the largest latency so far. -/
theorem preempt_higher {r : Nat} (hl : s.live = true) (he : s.leEn p = true) (hp : (s.eng p).parked = false) (hh : (s.eng p).halted = false)
    (hq : (s.eng p).haltReq = false) (hr : s.running p = some r) (hn : s.nextSlot p = some k) (hs : s.slotState p k = 2)
    (hpri : s.slotPri p r < s.slotPri p k) (hm : (s.bank p (s.slotPri p r)).micro.mid ≠ 2)
    (hlat : s.fld (LE_PREEMPT_MAX p) fLE_PREEMPT_MAX_FC < min 65535 (s.fc + 1 - (s.slot p k).regFc)) :
    s.preempt p = ((s.suspend p r).setFld (LE_TASK_STAT p r) fLE_TASK_STAT_STATE 4).setNat (LE_PREEMPT_MAX p)
      (min 65535 (s.fc + 1 - (s.slot p k).regFc)) := by
  have hne : LE_PREEMPT_MAX p ≠ LE_TASK_STAT p r := by simp only [LE_PREEMPT_MAX, LE_TASK_STAT]; omega
  have hm' : ((s.bank p (s.slotPri p r)).micro.mid != 2) = true := bne_iff_ne.mpr hm
  have hfc : ((s.suspend p r).setSlotState p r 4).fc = s.fc := (setFld_fc _ _ _ _).trans (fc_suspend r)
  have hslot : ((s.suspend p r).setSlotState p r 4).slot p k = s.slot p k :=
    (slot_of_engs (setFld_engs _ _ _ _)).trans (slot_suspend r)
  have hmax : ((s.suspend p r).setSlotState p r 4).fld (LE_PREEMPT_MAX p) fLE_PREEMPT_MAX_FC
      = s.fld (LE_PREEMPT_MAX p) fLE_PREEMPT_MAX_FC := fld_of_reg ((reg_setFld_ne _ _ _ _ _ hne).trans (reg_suspend r _))
  simp only [State.preempt, hr, hn, hl, he, hp, hh, hq, hs, hm', decide_eq_true hpri, beq_self_eq_true, Bool.not_false, Bool.and_self,
    if_true, hfc, hslot, hmax, if_pos hlat]
  rfl
end

/-! ### Deadlines (R83) -/

/-- The miss is noted: MISSED of the slot, DLMISS and its counter. -/
def State.missNoted (s : State) (p k : Nat) : State :=
  State.inc (State.setFlag (s.setSlot p k { s.slot p k with missed := true }) (LE_TASK_STAT p k) fLE_TASK_STAT_DLMISS true)
    (LE_DLMISS_CNT p k)

section
variable {s : State} {p : Fin 72} {k : Fin 8}

theorem reg_missNoted {o : Nat} (h1 : o ≠ LE_TASK_STAT p k) (h2 : o ≠ LE_DLMISS_CNT p k) : (s.missNoted p k).reg o = s.reg o :=
  (reg_inc_ne _ _ _ h2).trans (reg_setFlag_ne _ _ _ _ _ h1)

theorem hurdle_missNoted :
    (s.missNoted p k).underTest 0 p = s.underTest 0 p ∧ (s.missNoted p k).hurdleDrops 0 p = s.hurdleDrops 0 p := by
  have hp := p.isLt
  have hk := k.isLt
  refine hurdle_congr (reg_missNoted ?_ ?_) (reg_missNoted ?_ ?_)
  · simp only [hurdleReg, RS_HURDLE_E, LE_TASK_STAT]; omega
  · simp only [hurdleReg, RS_HURDLE_E, LE_DLMISS_CNT]; omega
  · simp only [LE_MAP, LE_TASK_STAT]; omega
  · simp only [LE_MAP, LE_DLMISS_CNT]; omega

theorem taskCfg_missNoted : (s.missNoted p k).reg (LE_TASK_CFG p k) = s.reg (LE_TASK_CFG p k) := by
  have hk := k.isLt
  exact reg_missNoted (TaskCfgSame.stat_ne p k p k) (by simp only [LE_TASK_CFG, LE_DLMISS_CNT]; omega)

/-- A deadline of the running activation is reached. -/
theorem deadlineMiss_reached (hd : s.nat (LE_TASK_DL p k) ≠ 0) (hs : s.slotState p k = 3) (hm : (s.slot p k).missed = false)
    (hr : reached ((s.slot p k).stamp + .ofNat 64 (s.nat (LE_TASK_DL p k))) s.now = true) :
    s.deadlineMiss p k = (
      let t := ((s.missNoted p k).leRaise p 1 0 0).record (65 + 4 * p) 2 k (lo32 (s.slot p k).stamp) (hi32 (s.slot p k).stamp)
        (s.bank p (s.slotPri p k)).pc.toNat
      if t.flag (LE_TASK_CFG p k) fLE_TASK_CFG_DLACT then t.abandon p k else t) := by
  rw [State.deadlineMiss]
  exact if_pos ⟨hd, Or.inr (Or.inl hs), hm, hr⟩

/-- A deadline of the running activation is reached and DLACT is clear: the task goes on. -/
theorem deadlineMiss_goesOn (hd : s.nat (LE_TASK_DL p k) ≠ 0) (hs : s.slotState p k = 3)
    (hm : (s.slot p k).missed = false) (hr : reached ((s.slot p k).stamp + .ofNat 64 (s.nat (LE_TASK_DL p k))) s.now = true)
    (hact : s.flag (LE_TASK_CFG p k) fLE_TASK_CFG_DLACT = false) (ht : s.underTest 0 p = false) (hh : s.hurdleDrops 0 p = false) :
    s.deadlineMiss p k = ((s.missNoted p k).raise (65 + 4 * p) 0 0).record (65 + 4 * p) 2 k (lo32 (s.slot p k).stamp)
      (hi32 (s.slot p k).stamp) (s.bank p (s.slotPri p k)).pc.toNat := by
  obtain ⟨ht', hh'⟩ := hurdle_missNoted (s := s) (p := p) (k := k)
  have hsrc : 64 + 4 * p.val + 1 = 65 + 4 * p.val := by omega
  have hraise : (s.missNoted p k).leRaise p 1 0 0 = (s.missNoted p k).raise (65 + 4 * p) 0 0 := by
    rw [leRaise_passes (ht'.trans ht) (hh'.trans hh), hsrc]
  have hcfg {n w0 w1 w2 w3 : Nat} :
      (((s.missNoted p k).raise n 0 0).record n 2 w0 w1 w2 w3).flag (LE_TASK_CFG p k) fLE_TASK_CFG_DLACT = false :=
    (flag_of_reg (((TaskCfgSame.raise _ n 0 0).trans (TaskCfgSame.jAdd _ _) p k k.isLt).trans taskCfg_missNoted)).trans hact
  rw [deadlineMiss_reached hd hs hm hr, hraise]
  dsimp only
  rw [hcfg, if_neg Bool.false_ne_true]
end

/-! ### Software triggers (R81) -/

/-- The command word of TRIGGER. -/
theorem triggerWord_fields (k : Fin 8) : vfld (.ofNat 32 (0x40 + k.val)) 4 4 = 4 ∧ vfld (.ofNat 32 (0x40 + k.val)) 0 3 = k := by
  revert k
  decide

/-- A write of LE_CMD with TRIGGER fires the edge trigger of its slot, stamped at the write. -/
theorem exec_trigger {p : Port} {pe : Fin 72} {k : Fin 8} {s : State} (h : s.takes p (LE_CMD pe) (.ofNat 32 (0x40 + k.val)) = true) :
    execTrigger p pe k s = .next (s.after p (LE_CMD pe) (.ofNat 32 (0x40 + k.val)) (fun u => u.fireEdge pe k u.now)) := by
  obtain ⟨hadm, hword⟩ := takes_iff.mp h
  obtain ⟨hop, hslot⟩ := triggerWord_fields k
  simp only [execTrigger, regCmd_LE_CMD pe hadm, hword, hop, hslot, State.leCmd, State.leTrigger]

theorem slotState_logged {s : State} {q : Port} {o p k : Nat} {v : Word} : (s.logged q o v).slotState p k = s.slotState p k :=
  logged_fld s q o v _ _

/-! ### The obligation -/

/-- Settles O8: an edge trigger makes a WAITING slot READY (`fireEdge_waiting`), a dispatch activates or resumes the slot chosen, and after
a missed deadline LE_TASK_CFG still says whether the task goes on (`TaskCfgSame.raise`). -/
theorem taskTriggersAndDispatch : Obligations.TaskTriggersAndDispatch := by
  unfold Obligations.TaskTriggersAndDispatch
  refine ⟨?tally, ?ready, ?preempted, ?preempt, ?between, ?deadline, ?trigger, ?overrun⟩
  case tally =>
    intro pe k s hl ht ha hs hr hp
    refine show execTallyTimeTrigger pe k s = _ from (fastEvent_live hl).trans (congrArg _ ?_)
    rw [tallyTrigger_periodic ht ha hs hr hp]
    exact makeReady_eq (setReg64_engs _ _ _ _) (setReg64_fc _ _ _ _)
  case ready =>
    intro pe k s hm hn hs
    refine show execTaskDispatch pe s = _ from (fastEvent_live (mayDispatch_live hm)).trans (congrArg _ ?_)
    rw [taskDispatch_ready hm hn hs, activate_eq]
  case preempted =>
    intro pe k s hm hn hs
    exact show execTaskDispatch pe s = _ from
      (fastEvent_live (mayDispatch_live hm)).trans (congrArg _ (taskDispatch_preempted hm hn hs))
  case preempt =>
    intro pe r k s hl he hp hh hq hr hn hs hpri hm hlat
    exact show execPreemption pe s = _ from
      (fastEvent_live hl).trans (congrArg _ (preempt_higher hl he hp hh hq hr hn hs hpri hm hlat))
  case between =>
    intro pe k s h
    exact suspend_between h
  case deadline =>
    intro pe k s hl hd hs hm hr hact ht hh
    exact show execDeadlineMiss pe k s = _ from (fastEvent_live hl).trans (congrArg _ (deadlineMiss_goesOn hd hs hm hr hact ht hh))
  case trigger =>
    intro p pe k s h hs
    refine show execTrigger p pe k s = _ from (exec_trigger h).trans (congrArg _ (after_congr ?_))
    rw [fireEdge_waiting (slotState_logged.trans hs), makeReady_eq (logged_engs s _ _ _) (logged_fc s _ _ _), logged_now]
  case overrun =>
    intro p pe k s h hs
    refine show execTrigger p pe k s = _ from (exec_trigger h).trans (congrArg _ (after_congr ?_))
    exact fireEdge_ready (slotState_logged.trans hs)

end Sys2Proof.Machine
end

section
/-!
Proofs about the encodings of Kamyn (04_kamyn_instruction_set.md R97 to R100, R104, R113 to R130, R134, R142): the decoder reads back what
the encoder writes, group by group, and reads no word that is not an encoding.
-/

namespace Sys2Proof.Machine

/-! ### Bit fields -/

theorem bitsOf_lt (n lo len : Nat) : bitsOf n lo len < 2 ^ len := Nat.mod_lt _ (Nat.two_pow_pos len)

theorem bitsOf_bitsOf (n : Nat) {lo len lo' len' : Nat} (h : lo + len ≤ len') :
    bitsOf (bitsOf n lo' len') lo len = bitsOf n (lo' + lo) len := by
  obtain ⟨k, rfl⟩ := Nat.exists_eq_add_of_le h
  have hcut : n / 2 ^ lo' % 2 ^ (lo + len + k) / 2 ^ lo = n / 2 ^ lo' / 2 ^ lo % 2 ^ (len + k) := by
    rw [Nat.add_assoc, Nat.pow_add, Nat.mod_mul_right_div_self]
  rw [bitsOf, bitsOf, hcut, Nat.mod_mod_of_dvd _ (Nat.pow_dvd_pow 2 (Nat.le_add_right len k)), Nat.div_div_eq_div_mul,
    ← Nat.pow_add, bitsOf]

theorem bitOf_bitsOf (n : Nat) {i lo' len' : Nat} (h : i < len') : bitOf (bitsOf n lo' len') i = bitOf n (lo' + i) :=
  congrArg (· == 1) (bitsOf_bitsOf (len := 1) n h)

/-! ### A word is read from its fields (R97, R113, R115) -/

/-- The 32-bit groups, from MAJ and the group's fields I[6:0] and I[31:16]. -/
def kGroup (maj lo hi : Nat) : Option KOp :=
  match maj with
  | 0x0 => kAlu lo (bitsOf hi 11 5) (bitsOf hi 6 5) (bitsOf hi 1 5) (bitOf hi 0)
  | 0x1 => kAcc lo (bitsOf hi 11 5) (bitsOf hi 6 5) (bitsOf hi 1 5) (bitOf hi 0)
  | 0x2 => kAddr lo (bitsOf hi 11 5) (bitsOf hi 6 5) (bitsOf hi 1 5) (bitOf hi 0)
  | 0x3 => kImm (bitsOf lo 0 2) (bitsOf lo 2 5) hi
  | 0x4 => kWhen (memReg (bitsOf lo 2 5) (bitsOf lo 0 2))
      (.mem false false (bitsOf lo 2 5) (bitsOf lo 0 2) (16 + bitsOf hi 0 3) (sx 13 (bitsOf hi 3 13)) .keep)
  | 0x5 => kWhen (memReg (bitsOf lo 2 5) (bitsOf lo 0 2))
      (.mem true false (bitsOf lo 2 5) (bitsOf lo 0 2) (16 + bitsOf hi 0 3) (sx 13 (bitsOf hi 3 13)) .keep)
  | 0x6 => kWhen (memReg (bitsOf lo 2 5) (bitsOf lo 0 2) && bitsOf hi 0 10 == 0)
      (.mem (bitOf hi 15) true (bitsOf lo 2 5) (bitsOf lo 0 2) (16 + bitsOf hi 12 3) 0 (.modM (24 + bitsOf hi 10 2)))
  | 0x7 => kBranch lo hi
  | 0x8 => kQueue lo hi
  | 0x9 => kPwd lo hi
  | 0xA => kCplx lo (bitsOf hi 11 5) (bitsOf hi 6 5) (bitsOf hi 1 5) (bitOf hi 0)
  | 0xB => kSystem lo hi
  | 0xF => kSuper lo hi
  | _ => none

theorem kOp32_eq_kGroup (n : Nat) : kOp32 n = kGroup (bitsOf n 10 4) (bitsOf n 0 7) (bitsOf n 16 16) := by
  have hi {lo len : Nat} (h : lo + len ≤ 16) : bitsOf (bitsOf n 16 16) lo len = bitsOf n (16 + lo) len := bitsOf_bitsOf n h
  have hib {i : Nat} (h : i < 16) : bitOf (bitsOf n 16 16) i = bitOf n (16 + i) := bitOf_bitsOf n h
  have hlo {lo len : Nat} (h : lo + len ≤ 7) : bitsOf (bitsOf n 0 7) lo len = bitsOf n lo len :=
    (bitsOf_bitsOf n h).trans (by rw [Nat.zero_add])
  unfold kGroup
  simp (disch := decide) only [hi, hib, hlo, Nat.reduceAdd]
  rfl

/-- The word reads as the instruction, and under the guard where it has one. -/
def ReadsBack (g : Nat) (op : KOp) (w : Word) : Prop := kOp w = some op ∧ (kWide w = true → kGuard w = g)

/-- A 32-bit word is read from its MAJ and the fields of its group. -/
theorem readsBack_kWord {maj g lo hi : Nat} {op : KOp} (hmaj : maj < 16) (hg : g < 8) (hlo : lo < 128) (hhi : hi < 65536)
    (h : kGroup maj lo hi = some op) : ReadsBack g op (kWord maj g lo hi) := by
  generalize hw : kWord maj g lo hi = w
  have hn : w.toNat = 0xC000 + maj * 1024 + g * 128 + lo + hi * 65536 := by
    rw [← hw, kWord, BitVec.toNat_ofNat]
    omega
  have fMaj : bitsOf w.toNat 10 4 = maj := by unfold bitsOf; omega
  have fLo : bitsOf w.toNat 0 7 = lo := by unfold bitsOf; omega
  have fHi : bitsOf w.toNat 16 16 = hi := by unfold bitsOf; omega
  have fG : bitsOf w.toNat 7 3 = g := by unfold bitsOf; omega
  have hwide : kWide w = true := beq_iff_eq.mpr (by unfold bitsOf; omega)
  constructor
  · rw [kOp, hwide, if_pos rfl, kOp32_eq_kGroup, fMaj, fLo, fHi, h]
  · rw [kGuard, hwide, if_pos rfl, fG]
    exact fun _ => rfl

/-- A 16-bit word is read alone. -/
theorem readsBack_ofNat {g n : Nat} {op : KOp} (hn : n < 0xC000) (h : kOp16 n = some op) : ReadsBack g op (.ofNat 32 n) := by
  have hnarrow : kWide (.ofNat 32 n) = false := by
    simp only [kWide, BitVec.toNat_ofNat, bitsOf, beq_eq_false_iff_ne]
    omega
  have hlow : n % 2 ^ 32 % 65536 = n := by omega
  refine ⟨?_, fun hw => absurd hw (by simp [hnarrow])⟩
  rw [kOp, hnarrow, BitVec.toNat_ofNat, hlow]
  exact h

/-! ### Signed fields -/

theorem kField_lt (n : Nat) (v : Int) : kField n v < 2 ^ n := by
  have hpos : (0 : Int) < 2 ^ n := by positivity
  have := Int.emod_lt_of_pos v hpos
  have := Int.emod_nonneg v hpos.ne'
  unfold kField
  zify
  omega

theorem sx_kField {n : Nat} {v : Int} (hlo : -(2 ^ n) ≤ v) (hhi : v < 2 ^ n) : sx (n + 1) (kField (n + 1) v) = v := by
  have hpow : (2 : Int) ^ (n + 1) = 2 * 2 ^ n := by ring
  have hcast : ((2 ^ n : Nat) : Int) = 2 ^ n := by push_cast; rfl
  generalize (2 : Int) ^ n = b at *
  unfold sx kField
  rw [hpow, Nat.add_sub_cancel]
  generalize 2 ^ n = c at *
  rcases lt_or_ge v 0 with hv | hv
  · have : v % (2 * b) = v + 2 * b := by
      rw [← Int.add_emod_right]; exact Int.emod_eq_of_lt (by omega) (by omega)
    rw [this, if_neg (by omega)]
    omega
  · rw [Int.emod_eq_of_lt hv (by omega), if_pos (by omega)]
    omega

theorem sx_bounds {n v : Nat} (h : v < 2 ^ (n + 1)) : -(2 ^ n) ≤ sx (n + 1) v ∧ sx (n + 1) v < 2 ^ n := by
  have hpow : (2 : Int) ^ (n + 1) = 2 * 2 ^ n := by ring
  have hcast : ((2 ^ n : Nat) : Int) = 2 ^ n := by push_cast; rfl
  rw [Nat.pow_succ] at h
  unfold sx
  rw [hpow, Nat.add_sub_cancel]
  generalize (2 : Int) ^ n = b at *
  generalize 2 ^ n = c at *
  split <;> omega

/-- An admitted branch offset is read back from its field, which counts halfwords. -/
theorem branch_offset {n : Nat} {off : Int} (h : kOff (n + 1) off = true) : 2 * sx (n + 1) (kField (n + 1) (off / 2)) = off := by
  have hpow : (2 : Int) ^ (n + 1) = 2 * 2 ^ n := by ring
  simp only [kOff, Bool.and_eq_true, beq_iff_eq, decide_eq_true_eq, hpow] at h
  obtain ⟨⟨heven, hlo⟩, hhi⟩ := h
  rw [sx_kField (by omega) (by omega)]
  omega

theorem kOff_branch {n v : Nat} (h : v < 2 ^ (n + 1)) : kOff (n + 1) (2 * sx (n + 1) v) = true := by
  have hpow : (2 : Int) ^ (n + 1) = 2 * 2 ^ n := by ring
  obtain ⟨hlo, hhi⟩ := sx_bounds h
  simp only [kOff, Bool.and_eq_true, beq_iff_eq, decide_eq_true_eq, hpow]
  omega

/-! ### One bit -/

theorem b2n_lt (x : Bool) : b2n x < 2 := by cases x <;> decide

theorem bitOf_eq {n i : Nat} {x : Bool} (h : n / 2 ^ i % 2 = b2n x) : bitOf n i = x := by
  rw [bitOf, h]
  cases x <;> rfl

theorem b2n_bitOf (n i : Nat) : b2n (bitOf n i) = n / 2 ^ i % 2 := by
  unfold bitOf b2n
  rcases Nat.mod_two_eq_zero_or_one (n / 2 ^ i) with h | h <;> simp [h]

/-! ### The 32-bit groups are read back -/

section
variable {rd ra rb : Nat} (hd : rd < 32) (ha : ra < 32) (hb : rb < 32) (x : Bool)
include hd ha hb

/-- RD, RA, RB and X are read back from I[31:16]. -/
theorem kRegs_fields : kRegs rd ra rb x < 65536 ∧ bitsOf (kRegs rd ra rb x) 11 5 = rd ∧ bitsOf (kRegs rd ra rb x) 6 5 = ra
    ∧ bitsOf (kRegs rd ra rb x) 1 5 = rb ∧ bitOf (kRegs rd ra rb x) 0 = x := by
  have := b2n_lt x
  refine ⟨?_, ?_, ?_, ?_, bitOf_eq ?_⟩ <;> simp only [kRegs, bitsOf] <;> omega

/-- A group with the fields RD, RA, RB and X. -/
theorem readsBack_kRegs {maj g f : Nat} (hmaj : maj < 16) (hg : g < 8) (hf : f < 128) {op : KOp}
    {dec : Nat → Nat → Nat → Nat → Bool → Option KOp}
    (hdec : ∀ hi, kGroup maj f hi = dec f (bitsOf hi 11 5) (bitsOf hi 6 5) (bitsOf hi 1 5) (bitOf hi 0))
    (h : dec f rd ra rb x = some op) : ReadsBack g op (kWord maj g f (kRegs rd ra rb x)) := by
  obtain ⟨hlt, hrd, hra, hrb, hx⟩ := kRegs_fields hd ha hb x
  exact readsBack_kWord hmaj hg hf hlt (by rw [hdec, hrd, hra, hrb, hx, h])
end

theorem kWhen_isSome {b : Bool} {op : KOp} : (kWhen b op).isSome = b := by cases b <;> rfl

theorem kWhen_of_isSome {b : Bool} {op : KOp} (h : (kWhen b op).isSome = true) : kWhen b op = some op := by
  rw [kWhen_isSome] at h; rw [h]; rfl

section
variable {f rd ra rb : Nat} {x : Bool}

theorem kAlu_bounds (h : (kAlu f rd ra rb x).isSome = true) : f < 128 ∧ rd < 32 ∧ ra < 32 ∧ rb < 32 := by
  simp only [kAlu, kWhen_isSome, aluAssigned, isD, isAC, grpD, Bool.and_eq_true, Bool.or_eq_true, decide_eq_true_eq] at h
  obtain ⟨⟨⟨hf, hrd⟩, hr⟩, -⟩ := h
  refine ⟨by omega, by omega, ?_⟩
  split at hr
  · simp only [Bool.and_eq_true, Bool.or_eq_true, decide_eq_true_eq] at hr
    omega
  · split at hr <;> simp only [Bool.and_eq_true, beq_iff_eq, decide_eq_true_eq] at hr <;> omega

theorem kAcc_bounds (h : (kAcc f rd ra rb x).isSome = true) : f < 128 ∧ rd < 32 := by
  simp only [kAcc, kWhen_isSome, isD, isAC] at h
  split at h
  · simp only [Bool.and_eq_true, decide_eq_true_eq] at h
    omega
  · split at h <;> simp at h <;> omega

theorem kAddr_bounds (h : (kAddr f rd ra rb x).isSome = true) : f < 128 ∧ rd < 32 ∧ ra < 32 ∧ rb < 32 := by
  simp only [kAddr, kWhen_isSome, isD, isA, isM] at h
  split at h <;> simp at h <;> omega

theorem kCplx_bounds (h : (kCplx f rd ra rb x).isSome = true) : f < 128 ∧ ra < 32 ∧ rb < 32 := by
  simp only [kCplx, kWhen_isSome, isD, isA, isAC, grpD] at h
  split at h <;> simp at h <;> omega
end

section
variable {g : Nat} (hg : g < 8)
include hg

theorem readsBack_alu {f rd ra rb : Nat} {x : Bool} (h : kAdmits (.alu f rd ra rb x) = true) :
    ReadsBack g (.alu f rd ra rb x) (kEnc g (.alu f rd ra rb x)) := by
  have h : (kAlu f rd ra rb x).isSome = true := h
  obtain ⟨hf, hd, ha, hb⟩ := kAlu_bounds h
  exact readsBack_kRegs hd ha hb x (by decide) hg hf (dec := kAlu) (fun _ => rfl) (kWhen_of_isSome h)

theorem readsBack_acc {f rd ra rb : Nat} {x : Bool} (h : kAdmits (.acc f rd ra rb x) = true) :
    ReadsBack g (.acc f rd ra rb x) (kEnc g (.acc f rd ra rb x)) := by
  simp only [kAdmits, Bool.and_eq_true, decide_eq_true_eq] at h
  obtain ⟨⟨h, ha⟩, hb⟩ := h
  obtain ⟨hf, hd⟩ := kAcc_bounds h
  exact readsBack_kRegs hd ha hb x (by decide) hg hf (dec := kAcc) (fun _ => rfl) (kWhen_of_isSome h)

theorem readsBack_addr {f rd ra rb : Nat} (h : kAdmits (.addr f rd ra rb) = true) :
    ReadsBack g (.addr f rd ra rb) (kEnc g (.addr f rd ra rb)) := by
  have h : (kAddr f rd ra rb false).isSome = true := h
  obtain ⟨hf, hd, ha, hb⟩ := kAddr_bounds h
  exact readsBack_kRegs hd ha hb false (by decide) hg hf (dec := kAddr) (fun _ => rfl) (kWhen_of_isSome h)

theorem readsBack_cplx {f rd ra rb : Nat} {x : Bool} (h : kAdmits (.cplx f rd ra rb x) = true) :
    ReadsBack g (.cplx f rd ra rb x) (kEnc g (.cplx f rd ra rb x)) := by
  simp only [kAdmits, Bool.and_eq_true, decide_eq_true_eq] at h
  obtain ⟨h, hd⟩ := h
  obtain ⟨hf, ha, hb⟩ := kCplx_bounds h
  exact readsBack_kRegs hd ha hb x (by decide) hg hf (dec := kCplx) (fun _ => rfl) (kWhen_of_isSome h)
end

theorem isD_iff {n : Nat} : isD n = true ↔ n < 16 := by simp [isD]

theorem isA_iff {n : Nat} : isA n = true ↔ 16 ≤ n ∧ n < 24 := by simp [isA]

theorem isM_iff {n : Nat} : isM n = true ↔ 24 ≤ n ∧ n < 28 := by simp [isM]

theorem isAC_iff {n : Nat} : isAC n = true ↔ 28 ≤ n ∧ n < 32 := by simp [isAC]

section
variable {g : Nat} (hg : g < 8)
include hg

theorem readsBack_imm {op rd v : Nat} (h : kAdmits (.imm op rd v) = true) : ReadsBack g (.imm op rd v) (kEnc g (.imm op rd v)) := by
  simp only [kAdmits, Bool.and_eq_true, decide_eq_true_eq] at h
  obtain ⟨⟨⟨h, hop⟩, hd⟩, hv⟩ := h
  refine readsBack_kWord (by decide) hg (by omega) (by omega) ?_
  generalize hlo : rd * 4 + op = lo
  have fOp : bitsOf lo 0 2 = op := by unfold bitsOf; omega
  have fRd : bitsOf lo 2 5 = rd := by unfold bitsOf; omega
  rw [kGroup, fOp, fRd]
  exact kWhen_of_isSome h

theorem readsBack_memKeep {store : Bool} {rd w an : Nat} {off : Int} (h : kAdmits (.mem store false rd w an off .keep) = true) :
    ReadsBack g (.mem store false rd w an off .keep) (kEnc g (.mem store false rd w an off .keep)) := by
  simp only [kAdmits, Bool.and_eq_true, decide_eq_true_eq, isA_iff] at h
  obtain ⟨⟨⟨⟨⟨hr, hd⟩, hw⟩, han⟩, hmin⟩, hmax⟩ := h
  have hlt : kField 13 off < 8192 := kField_lt 13 off
  refine readsBack_kWord (by cases store <;> decide) hg (by omega) (by omega) ?_
  generalize hlo : rd * 4 + w = lo
  generalize hhi : kField 13 off * 8 + (an - 16) = hi
  have fW : bitsOf lo 0 2 = w := by unfold bitsOf; omega
  have fRd : bitsOf lo 2 5 = rd := by unfold bitsOf; omega
  have fAn : 16 + bitsOf hi 0 3 = an := by unfold bitsOf; omega
  have fOff : sx 13 (bitsOf hi 3 13) = off := by
    rw [show bitsOf hi 3 13 = kField 13 off by unfold bitsOf; omega]
    exact sx_kField (n := 12) hmin hmax
  cases store <;> simp only [kGroup, fW, fRd, fAn, fOff, hr, kWhen, if_true, Bool.false_eq_true, if_false]

theorem readsBack_memPost {store : Bool} {rd w an m : Nat} {off : Int} (h : kAdmits (.mem store true rd w an off (.modM m)) = true) :
    ReadsBack g (.mem store true rd w an off (.modM m)) (kEnc g (.mem store true rd w an off (.modM m))) := by
  simp only [kAdmits, Bool.and_eq_true, decide_eq_true_eq, beq_iff_eq, isA_iff, isM_iff] at h
  obtain ⟨⟨⟨⟨⟨hr, hd⟩, hw⟩, han⟩, hm⟩, rfl⟩ := h
  have hs := b2n_lt store
  refine readsBack_kWord (by decide) hg (by omega) (by omega) ?_
  generalize hlo : rd * 4 + w = lo
  generalize hhi : b2n store * 2 ^ 15 + (an - 16) * 2 ^ 12 + (m - 24) * 2 ^ 10 = hi
  have fW : bitsOf lo 0 2 = w := by unfold bitsOf; omega
  have fRd : bitsOf lo 2 5 = rd := by unfold bitsOf; omega
  have fZero : bitsOf hi 0 10 = 0 := by unfold bitsOf; omega
  have fAn : 16 + bitsOf hi 12 3 = an := by unfold bitsOf; omega
  have fM : 24 + bitsOf hi 10 2 = m := by unfold bitsOf; omega
  have fStore : bitOf hi 15 = store := bitOf_eq (by omega)
  rw [kGroup, fW, fRd, fZero, fAn, fM, fStore, hr]
  rfl
end

/-- BR and CALL: OFF21 is split between the halves of the word. -/
theorem kBranch_offset {sel : Nat} {off : Int} (hsel : sel < 2) (h : kOff 21 off = true) :
    kBranch (sel * 32 + kField 21 (off / 2) / 65536) (kField 21 (off / 2) % 65536) = some (if sel = 0 then .br off else .call off) := by
  have hlt := kField_lt 21 (off / 2)
  generalize hlo : sel * 32 + kField 21 (off / 2) / 65536 = lo
  have hs : bitsOf lo 5 2 = sel := by unfold bitsOf; omega
  have hv : bitsOf lo 0 5 * 65536 + kField 21 (off / 2) % 65536 = kField 21 (off / 2) := by unfold bitsOf; omega
  simp only [kBranch, hs, hv, branch_offset (n := 20) h]
  interval_cases sel <;> rfl

/-- JR and CALLR: bit 4 of the low field links. -/
theorem kBranch_register {link : Bool} {an : Nat} (h : isA an = true) :
    kBranch (64 + b2n link * 16 + (an - 16) * 2) 0 = some (if link then .callr an else .jr an) := by
  have han := isA_iff.mp h
  have hl := b2n_lt link
  generalize hlo : 64 + b2n link * 16 + (an - 16) * 2 = lo
  have fSel : bitsOf lo 5 2 = 2 := by unfold bitsOf; omega
  have fAn : 16 + bitsOf lo 1 3 = an := by unfold bitsOf; omega
  have fZero : bitOf lo 0 = false := bitOf_eq (show _ = 0 by omega)
  have fLink : bitOf lo 4 = link := bitOf_eq (by omega)
  simp only [kBranch, fSel, fAn, fZero, fLink]
  rfl

/-- The fields of the queue group are read back from the halves of the word. -/
theorem kQueue_fields {op n qsel dr st qv : Nat} (hop : op < 8) (hn : n < 4) (hq : qsel < 4) (hdr : dr < 16) (hst : st < 8)
    (hqv : qv < 256) : let lo := op * 16 + n * 4 + qsel
      let hi := dr * 2 ^ 12 + st * 2 ^ 9 + qv * 2
      bitsOf lo 4 3 = op ∧ bitsOf lo 2 2 = n ∧ bitsOf lo 0 2 = qsel ∧ bitsOf hi 12 4 = dr ∧ bitsOf hi 9 3 = st
        ∧ bitsOf hi 1 8 = qv ∧ bitOf hi 0 = false := by
  refine ⟨?_, ?_, ?_, ?_, ?_, ?_, bitOf_eq (x := false) (show bitsOf _ 0 1 = 0 from ?_)⟩ <;> simp only [bitsOf] <;> omega

/-- The word of MODE and of RDMODE holds one D register. -/
theorem kMode_fields {d : Nat} (hd : d < 16) : bitsOf (d * 2 ^ 12) 0 12 = 0 ∧ bitsOf (d * 2 ^ 12) 12 4 = d := by
  constructor <;> unfold bitsOf <;> omega

section
variable {g : Nat} (hg : g < 8)
include hg

theorem readsBack_br {off : Int} (h : kAdmits (.br off) = true) : ReadsBack g (.br off) (kEnc g (.br off)) := by
  have hlt := kField_lt 21 (off / 2)
  have hb := kBranch_offset (sel := 0) (by decide) h
  rw [Nat.zero_mul, Nat.zero_add] at hb
  exact readsBack_kWord (by decide) hg (by omega) (by omega) hb

theorem readsBack_call {off : Int} (h : kAdmits (.call off) = true) : ReadsBack g (.call off) (kEnc g (.call off)) := by
  have hlt := kField_lt 21 (off / 2)
  exact readsBack_kWord (by decide) hg (by omega) (by omega) (kBranch_offset (sel := 1) (by decide) h)

theorem readsBack_jr {an : Nat} (h : kAdmits (.jr an) = true) : ReadsBack g (.jr an) (kEnc g (.jr an)) := by
  have han := isA_iff.mp h
  exact readsBack_kWord (by decide) hg (by omega) (by omega) (kBranch_register (link := false) h)

theorem readsBack_callr {an : Nat} (h : kAdmits (.callr an) = true) : ReadsBack g (.callr an) (kEnc g (.callr an)) := by
  have han := isA_iff.mp h
  exact readsBack_kWord (by decide) hg (by omega) (by omega) (kBranch_register (link := true) h)

theorem readsBack_queue {op n qsel dr st qv : Nat} (h : kAdmits (.queue op n qsel dr st qv) = true) :
    ReadsBack g (.queue op n qsel dr st qv) (kEnc g (.queue op n qsel dr st qv)) := by
  simp only [kAdmits, Bool.and_eq_true, decide_eq_true_eq] at h
  obtain ⟨⟨⟨⟨⟨⟨hop, hn⟩, hq⟩, hdr⟩, hst⟩, hqv⟩, h⟩ := h
  refine readsBack_kWord (by decide) hg (by omega) (by omega) ?_
  obtain ⟨fOp, fN, fQsel, fDr, fSt, fQv, fZero⟩ := kQueue_fields (by omega : op < 8) hn (by omega : qsel < 4) hdr hst hqv
  simp only [kGroup, kQueue, fOp, fN, fQsel, fDr, fSt, fQv, fZero] at h ⊢
  exact kWhen_of_isSome h

theorem readsBack_pwd {pw ds cmp mode tp : Nat} {fmt : Bool} (h : kAdmits (.pwd pw ds cmp mode tp fmt) = true) :
    ReadsBack g (.pwd pw ds cmp mode tp fmt) (kEnc g (.pwd pw ds cmp mode tp fmt)) := by
  simp only [kAdmits, Bool.and_eq_true, decide_eq_true_eq, isD_iff] at h
  obtain ⟨⟨⟨⟨hpw, hds⟩, hcmp⟩, hmode⟩, htp⟩ := h
  have hf := b2n_lt fmt
  refine readsBack_kWord (by decide) hg (by omega) (by omega) ?_
  generalize hlo : pw * 2 = lo
  generalize hhi : ds * 2 ^ 12 + cmp * 2 ^ 10 + mode * 2 ^ 8 + tp * 32 + b2n fmt * 16 = hi
  have fPw : bitsOf lo 1 6 = pw := by unfold bitsOf; omega
  have fZero : bitOf lo 0 = false := bitOf_eq (show _ = 0 by omega)
  have fDs : bitsOf hi 12 4 = ds := by unfold bitsOf; omega
  have fCmp : bitsOf hi 10 2 = cmp := by unfold bitsOf; omega
  have fMode : bitsOf hi 8 2 = mode := by unfold bitsOf; omega
  have fTp : bitsOf hi 5 3 = tp := by unfold bitsOf; omega
  have fZero' : bitsOf hi 0 4 = 0 := by unfold bitsOf; omega
  have fFmt : bitOf hi 4 = fmt := bitOf_eq (by omega)
  simp [kGroup, kPwd, kWhen, fPw, fZero, fDs, fCmp, fMode, fTp, fZero', fFmt, hpw, hmode]

theorem readsBack_signalReg {d code : Nat} (h : kAdmits (.signal (some d) code) = true) :
    ReadsBack g (.signal (some d) code) (kEnc g (.signal (some d) code)) := by
  simp only [kAdmits, Bool.and_eq_true, decide_eq_true_eq, Option.all_some] at h
  refine readsBack_kWord (by decide) hg (by decide) (by omega) ?_
  generalize hhi : d * 2 ^ 12 + code * 16 = hi
  have fZero : bitsOf hi 0 4 = 0 := by unfold bitsOf; omega
  have fD : bitsOf hi 12 4 = d := by unfold bitsOf; omega
  have fCode : bitsOf hi 4 8 = code := by unfold bitsOf; omega
  change kWhen (bitsOf hi 0 4 == 0) (.signal (some (bitsOf hi 12 4)) (bitsOf hi 4 8)) = _
  rw [fZero, fD, fCode]
  rfl

theorem readsBack_stamp {dr form k : Nat} (h : kAdmits (.stamp dr form k) = true) :
    ReadsBack g (.stamp dr form k) (kEnc g (.stamp dr form k)) := by
  simp only [kAdmits, Bool.and_eq_true, decide_eq_true_eq, isD_iff] at h
  obtain ⟨⟨⟨⟨hdr, heven⟩, hform⟩, hk⟩, hform2⟩ := h
  refine readsBack_kWord (by decide) hg (by decide) (by omega) ?_
  generalize hhi : dr * 2 ^ 12 + form * 2 ^ 10 + k * 64 = hi
  have fDr : bitsOf hi 12 4 = dr := by unfold bitsOf; omega
  have fForm : bitsOf hi 10 2 = form := by unfold bitsOf; omega
  have fK : bitsOf hi 6 4 = k := by unfold bitsOf; omega
  have fZero : bitsOf hi 0 6 = 0 := by unfold bitsOf; omega
  change kWhen (bitsOf hi 12 4 % 2 == 0 && decide (bitsOf hi 10 2 < 3) && bitsOf hi 0 6 == 0 && (bitsOf hi 10 2 == 2 || bitsOf hi 6 4 == 0))
    (.stamp (bitsOf hi 12 4) (bitsOf hi 10 2) (bitsOf hi 6 4)) = _
  rw [fDr, fForm, fK, fZero]
  exact kWhen_eq_some.mpr ⟨by simp [heven, hform, hform2], rfl⟩

theorem readsBack_rank {an : Nat} (h : kAdmits (.rank an) = true) : ReadsBack g (.rank an) (kEnc g (.rank an)) := by
  have han := isA_iff.mp h
  refine readsBack_kWord (by decide) hg (by decide) (by omega) ?_
  generalize hhi : (an - 16) * 2 ^ 13 = hi
  have fZero : bitsOf hi 0 13 = 0 := by unfold bitsOf; omega
  have fAn : 16 + bitsOf hi 13 3 = an := by unfold bitsOf; omega
  change kWhen (bitsOf hi 0 13 == 0) (.rank (16 + bitsOf hi 13 3)) = _
  rw [fZero, fAn]
  rfl

theorem readsBack_ucall {entry rx : Nat} (h : kAdmits (.ucall entry rx) = true) :
    ReadsBack g (.ucall entry rx) (kEnc g (.ucall entry rx)) := by
  simp only [kAdmits, Bool.and_eq_true, decide_eq_true_eq] at h
  refine readsBack_kWord (by decide) hg (by decide) (by omega) ?_
  generalize hhi : entry * 2 ^ 7 + rx * 4 = hi
  have fZero : bitsOf hi 0 2 = 0 := by unfold bitsOf; omega
  have fEntry : bitsOf hi 7 9 = entry := by unfold bitsOf; omega
  have fRx : bitsOf hi 2 5 = rx := by unfold bitsOf; omega
  change kWhen (bitsOf hi 0 2 == 0) (.ucall (bitsOf hi 7 9) (bitsOf hi 2 5)) = _
  rw [fZero, fEntry, fRx]
  rfl

theorem readsBack_mode {d : Nat} (h : kAdmits (.mode d) = true) : ReadsBack g (.mode d) (kEnc g (.mode d)) := by
  have hd := isD_iff.mp h
  obtain ⟨fZero, fD⟩ := kMode_fields hd
  refine readsBack_kWord (by decide) hg (by decide) (by omega) ?_
  change kWhen (bitsOf (d * 2 ^ 12) 0 12 == 0) (.mode (bitsOf (d * 2 ^ 12) 12 4)) = _
  rw [fZero, fD]
  rfl

theorem readsBack_rdmode {d : Nat} (h : kAdmits (.rdmode d) = true) : ReadsBack g (.rdmode d) (kEnc g (.rdmode d)) := by
  have hd := isD_iff.mp h
  obtain ⟨fZero, fD⟩ := kMode_fields hd
  refine readsBack_kWord (by decide) hg (by decide) (by omega) ?_
  change kWhen (bitsOf (d * 2 ^ 12) 0 12 == 0) (.rdmode (bitsOf (d * 2 ^ 12) 12 4)) = _
  rw [fZero, fD]
  rfl

theorem readsBack_sup {op hi : Nat} (h : kAdmits (.sup op hi) = true) : ReadsBack g (.sup op hi) (kEnc g (.sup op hi)) := by
  simp only [kAdmits, Bool.and_eq_true, decide_eq_true_eq] at h
  obtain ⟨⟨hop, hhi⟩, h⟩ := h
  refine readsBack_kWord (by decide) hg (by omega) hhi ?_
  have fOp : bitsOf (op * 4) 2 5 = op := by unfold bitsOf; omega
  refine (kWhen_of_isSome h).trans ?_
  rw [fOp]
end

/-! ### The 16-bit groups are read back -/

theorem readsBack_signal (g : Nat) {code : Nat} (h : kAdmits (.signal none code) = true) :
    ReadsBack g (.signal none code) (kEnc g (.signal none code)) := by
  simp only [kAdmits, Bool.and_eq_true, decide_eq_true_eq, Option.all_none, and_true] at h
  refine readsBack_ofNat (by omega) ?_
  generalize hn : 0x0600 + code = n
  have fGroup : bitsOf n 12 4 = 0 := by unfold bitsOf; omega
  have fSel : bitsOf n 8 4 = 6 := by unfold bitsOf; omega
  have fCode : bitsOf n 0 8 = code := by unfold bitsOf; omega
  simp only [kOp16, fGroup, fSel, fCode]

theorem readsBack_alui (g : Nat) {op rd imm : Nat} (h : kAdmits (.alui op rd imm) = true) :
    ReadsBack g (.alui op rd imm) (kEnc g (.alui op rd imm)) := by
  simp only [kAdmits, Bool.and_eq_true, decide_eq_true_eq] at h
  refine readsBack_ofNat (by omega) ?_
  generalize hn : 0x2000 + op * 2 ^ 9 + imm * 8 + rd = n
  have fGroup : bitsOf n 12 4 = 2 := by unfold bitsOf; omega
  have fOp : bitsOf n 9 3 = op := by unfold bitsOf; omega
  have fRd : bitsOf n 0 3 = rd := by unfold bitsOf; omega
  have fImm : bitsOf n 3 6 = imm := by unfold bitsOf; omega
  simp only [kOp16, fGroup, fOp, fRd, fImm]

theorem readsBack_mov (g : Nat) {rd rs : Nat} (h : kAdmits (.mov rd rs) = true) : ReadsBack g (.mov rd rs) (kEnc g (.mov rd rs)) := by
  simp only [kAdmits, Bool.and_eq_true, decide_eq_true_eq] at h
  refine readsBack_ofNat (by omega) ?_
  generalize hn : 0x9000 + rd * 32 + rs = n
  have fGroup : bitsOf n 12 4 = 9 := by unfold bitsOf; omega
  have fZero : bitsOf n 10 2 = 0 := by unfold bitsOf; omega
  have fRd : bitsOf n 5 5 = rd := by unfold bitsOf; omega
  have fRs : bitsOf n 0 5 = rs := by unfold bitsOf; omega
  simp only [kOp16, fGroup, fZero, fRd, fRs, if_true]
  exact kWhen_of_isSome h.1.1

/-- The fields of a 16-bit load or store that post-modifies. -/
theorem kMem16_fields {store : Bool} {mode rd an n : Nat} (hmode : mode < 4) (hd : rd < 16) (ha : 16 ≤ an ∧ an < 20)
    (hn : 0x3000 + b2n store * 2 ^ 11 + mode * 2 ^ 9 + (an - 16) * 2 ^ 7 + rd * 8 = n) :
    n < 0xC000 ∧ bitsOf n 12 4 = 3 ∧ bitOf n 11 = store ∧ bitsOf n 9 2 = mode ∧ 16 + bitsOf n 7 2 = an ∧ bitsOf n 3 4 = rd
      ∧ bitsOf n 0 3 = 0 := by
  have hs := b2n_lt store
  refine ⟨by omega, ?_, bitOf_eq (show bitsOf n 11 1 = _ from ?_), ?_, ?_, ?_, ?_⟩ <;> unfold bitsOf <;> omega

theorem readsBack_memPlus4 (g : Nat) {store : Bool} {rd w an : Nat} {off : Int} (h : kAdmits (.mem store false rd w an off .plus4) = true) :
    ReadsBack g (.mem store false rd w an off .plus4) (kEnc g (.mem store false rd w an off .plus4)) := by
  simp only [kAdmits, Bool.and_eq_true, decide_eq_true_eq, beq_iff_eq, isD_iff] at h
  obtain ⟨⟨⟨⟨hd, rfl⟩, hmin⟩, hmax⟩, rfl⟩ := h
  obtain ⟨hlt, fGroup, fStore, fMode, fAn, fRd, fZero⟩ := kMem16_fields (store := store) (by decide : 1 < 4) hd ⟨hmin, hmax⟩ rfl
  rw [Nat.one_mul] at hlt fGroup fStore fMode fAn fRd fZero
  refine readsBack_ofNat hlt ?_
  simp only [kOp16, fGroup, fStore, fMode, fAn, fRd, fZero]
  rfl

theorem readsBack_memModM (g : Nat) {store : Bool} {rd w an m : Nat} {off : Int}
    (h : kAdmits (.mem store false rd w an off (.modM m)) = true) :
    ReadsBack g (.mem store false rd w an off (.modM m)) (kEnc g (.mem store false rd w an off (.modM m))) := by
  simp only [kAdmits, Bool.and_eq_true, decide_eq_true_eq, beq_iff_eq, isD_iff] at h
  obtain ⟨⟨⟨⟨⟨hd, rfl⟩, hmin⟩, hmax⟩, rfl⟩, rfl⟩ := h
  obtain ⟨hlt, fGroup, fStore, fMode, fAn, fRd, fZero⟩ := kMem16_fields (store := store) (by decide : 2 < 4) hd ⟨hmin, hmax⟩ rfl
  refine readsBack_ofNat hlt ?_
  have fM : 24 + bitsOf (0x3000 + b2n store * 2 ^ 11 + 2 * 2 ^ 9 + (an - 16) * 2 ^ 7 + rd * 8) 7 2 = an + 8 := by omega
  simp only [kOp16, fGroup, fStore, fMode, fAn, fRd, fZero, fM]
  rfl

theorem readsBack_bra (g : Nat) {off : Int} (h : kAdmits (.bra off) = true) : ReadsBack g (.bra off) (kEnc g (.bra off)) := by
  have hlt := kField_lt 12 (off / 2)
  refine readsBack_ofNat (by omega) ?_
  generalize hn : 0x6000 + kField 12 (off / 2) = n
  have fGroup : bitsOf n 12 4 = 6 := by unfold bitsOf; omega
  have fOff : bitsOf n 0 12 = kField 12 (off / 2) := by unfold bitsOf; omega
  simp only [kOp16, fGroup, fOff, branch_offset (n := 11) h]

theorem readsBack_bg (g : Nat) {neg : Bool} {r : Nat} {off : Int} (h : kAdmits (.bg neg r off) = true) :
    ReadsBack g (.bg neg r off) (kEnc g (.bg neg r off)) := by
  simp only [kAdmits, Bool.and_eq_true, decide_eq_true_eq] at h
  have hlt := kField_lt 9 (off / 2)
  have hs := b2n_lt neg
  refine readsBack_ofNat (by omega) ?_
  generalize hn : 0x7000 + b2n neg * 2 ^ 11 + (r - 12) * 2 ^ 9 + kField 9 (off / 2) = n
  have fGroup : bitsOf n 12 4 = 7 := by unfold bitsOf; omega
  have fNeg : bitOf n 11 = neg := bitOf_eq (by omega)
  have fR : 12 + bitsOf n 9 2 = r := by unfold bitsOf; omega
  have fOff : bitsOf n 0 9 = kField 9 (off / 2) := by unfold bitsOf; omega
  simp only [kOp16, fGroup, fNeg, fR, fOff, branch_offset (n := 8) h.2]

theorem readsBack_bdec (g : Nat) {dn : Nat} {off : Int} (h : kAdmits (.bdec dn off) = true) :
    ReadsBack g (.bdec dn off) (kEnc g (.bdec dn off)) := by
  simp only [kAdmits, Bool.and_eq_true, decide_eq_true_eq] at h
  have hlt := kField_lt 9 (off / 2)
  refine readsBack_ofNat (by omega) ?_
  generalize hn : 0x8000 + dn * 2 ^ 9 + kField 9 (off / 2) = n
  have fGroup : bitsOf n 12 4 = 8 := by unfold bitsOf; omega
  have fDn : bitsOf n 9 3 = dn := by unfold bitsOf; omega
  have fOff : bitsOf n 0 9 = kField 9 (off / 2) := by unfold bitsOf; omega
  simp only [kOp16, fGroup, fDn, fOff, branch_offset (n := 8) h.2]

/-- The decoder reads an admitted instruction from the word that the encoder writes. -/
theorem readsBack_kEnc {op : KOp} {g : Nat} (hg : g < 8) (h : kAdmits op = true) : ReadsBack g op (kEnc g op) := by
  match op with
  | .nop | .wait | .isync | .ret | .brk => exact readsBack_ofNat (by decide) rfl
  | .signal none _ => exact readsBack_signal g h
  | .signal (some _) _ => exact readsBack_signalReg hg h
  | .alu .. => exact readsBack_alu hg h
  | .alui .. => exact readsBack_alui g h
  | .acc .. => exact readsBack_acc hg h
  | .addr .. => exact readsBack_addr hg h
  | .imm .. => exact readsBack_imm hg h
  | .mov .. => exact readsBack_mov g h
  | .mem _ true _ _ _ _ (.modM _) => exact readsBack_memPost hg h
  | .mem _ true _ _ _ _ .keep => cases h
  | .mem _ true _ _ _ _ .plus4 => cases h
  | .mem _ false _ _ _ _ .keep => exact readsBack_memKeep hg h
  | .mem _ false _ _ _ _ .plus4 => exact readsBack_memPlus4 g h
  | .mem _ false _ _ _ _ (.modM _) => exact readsBack_memModM g h
  | .bra _ => exact readsBack_bra g h
  | .bg .. => exact readsBack_bg g h
  | .bdec .. => exact readsBack_bdec g h
  | .br _ => exact readsBack_br hg h
  | .call _ => exact readsBack_call hg h
  | .jr _ => exact readsBack_jr hg h
  | .callr _ => exact readsBack_callr hg h
  | .queue .. => exact readsBack_queue hg h
  | .pwd .. => exact readsBack_pwd hg h
  | .stamp .. => exact readsBack_stamp hg h
  | .rank _ => exact readsBack_rank hg h
  | .ucall .. => exact readsBack_ucall hg h
  | .mode _ => exact readsBack_mode hg h
  | .rdmode _ => exact readsBack_rdmode hg h
  | .cplx .. => exact readsBack_cplx hg h
  | .sup .. => exact readsBack_sup hg h

/-! ### The decoder reads nothing but admitted instructions -/

theorem isSome_of_kWhen {b : Bool} {op op' : KOp} (h : kWhen b op = some op') : op' = op ∧ (kWhen b op).isSome = true := by
  obtain ⟨rfl, rfl⟩ := kWhen_eq_some.mp h
  exact ⟨rfl, rfl⟩

section
variable {f rd ra rb : Nat} {x : Bool} {op : KOp}

theorem kAlu_admits (h : kAlu f rd ra rb x = some op) : kAdmits op = true := by
  obtain ⟨rfl, hok⟩ := isSome_of_kWhen h
  exact hok

theorem kAcc_admits (ha : ra < 32) (hb : rb < 32) (h : kAcc f rd ra rb x = some op) : kAdmits op = true := by
  obtain ⟨rfl, hok⟩ := isSome_of_kWhen h
  simp only [kAdmits, Bool.and_eq_true, decide_eq_true_eq]
  exact ⟨⟨hok, ha⟩, hb⟩

theorem kAddr_admits (h : kAddr f rd ra rb x = some op) : kAdmits op = true := by
  obtain ⟨hok, rfl⟩ := kWhen_eq_some.mp h
  simp only [Bool.and_eq_true, Bool.not_eq_true'] at hok
  obtain ⟨⟨⟨rfl, hd⟩, ha⟩, hb⟩ := hok
  exact kWhen_isSome.trans (by simp only [hd, ha]; exact hb)

theorem kImm_admits {o v : Nat} (ho : o < 4) (hd : rd < 32) (hv : v < 65536) (h : kImm o rd v = some op) : kAdmits op = true := by
  obtain ⟨rfl, hok⟩ := isSome_of_kWhen h
  simp only [kAdmits, Bool.and_eq_true, decide_eq_true_eq]
  exact ⟨⟨⟨hok, ho⟩, hd⟩, hv⟩

theorem kCplx_admits (hd : rd < 32) (h : kCplx f rd ra rb x = some op) : kAdmits op = true := by
  obtain ⟨rfl, hok⟩ := isSome_of_kWhen h
  simp only [kAdmits, Bool.and_eq_true, decide_eq_true_eq]
  exact ⟨hok, hd⟩

theorem kMov_admits (hd : rd < 32) (ha : ra < 32) (h : kMov rd ra = some op) : kAdmits op = true := by
  obtain ⟨rfl, hok⟩ := isSome_of_kWhen h
  simp only [kAdmits, Bool.and_eq_true, decide_eq_true_eq]
  exact ⟨⟨hok, hd⟩, ha⟩
end

/-- A field of three bits names an A register. -/
theorem isA_field (n lo : Nat) : isA (16 + bitsOf n lo 3) = true := by
  have := bitsOf_lt n lo 3
  exact isA_iff.mpr (by omega)

theorem isM_field (n lo : Nat) : isM (24 + bitsOf n lo 2) = true := by
  have := bitsOf_lt n lo 2
  exact isM_iff.mpr (by omega)

theorem isD_field (n lo : Nat) : isD (bitsOf n lo 4) = true := isD_iff.mpr (bitsOf_lt n lo 4)

section
variable {lo hi : Nat} {op : KOp}

theorem memKeep_admits {store : Bool} (h : kWhen (memReg (bitsOf lo 2 5) (bitsOf lo 0 2))
    (.mem store false (bitsOf lo 2 5) (bitsOf lo 0 2) (16 + bitsOf hi 0 3) (sx 13 (bitsOf hi 3 13)) .keep) = some op) :
    kAdmits op = true := by
  obtain ⟨hr, rfl⟩ := kWhen_eq_some.mp h
  simp only [kAdmits, Bool.and_eq_true, decide_eq_true_eq]
  obtain ⟨hmin, hmax⟩ := sx_bounds (n := 12) (bitsOf_lt hi 3 13)
  exact ⟨⟨⟨⟨⟨hr, bitsOf_lt _ _ 5⟩, bitsOf_lt _ _ 2⟩, isA_field _ _⟩, hmin⟩, hmax⟩

theorem kBranch_admits (hhi : hi < 65536) (h : kBranch lo hi = some op) : kAdmits op = true := by
  have hoff : kOff 21 (2 * sx 21 (bitsOf lo 0 5 * 65536 + hi)) = true :=
    kOff_branch (n := 20) (by have := bitsOf_lt lo 0 5; omega)
  simp only [kBranch] at h
  split at h
  · cases h; exact hoff
  · cases h; exact hoff
  · obtain ⟨-, rfl⟩ := kWhen_eq_some.mp h
    split <;> exact isA_field _ _
  · cases h

theorem kQueue_admits (hlo : lo < 128) (hhi : hi < 65536) (h : kQueue lo hi = some op) : kAdmits op = true := by
  have hsome : (kQueue lo hi).isSome = true := by rw [h]; rfl
  obtain ⟨hok, rfl⟩ := kWhen_eq_some.mp h
  simp only [Bool.and_eq_true, Bool.not_eq_true'] at hok
  obtain ⟨⟨⟨hq, ho⟩, -⟩, hbit⟩ := hok
  have hlo' : bitsOf lo 4 3 * 16 + bitsOf lo 2 2 * 4 + bitsOf lo 0 2 = lo := by unfold bitsOf; omega
  have hhi' : bitsOf hi 12 4 * 2 ^ 12 + bitsOf hi 9 3 * 2 ^ 9 + bitsOf hi 1 8 * 2 = hi := by
    have h0 := b2n_bitOf hi 0
    rw [hbit] at h0
    unfold bitsOf
    have : b2n false = 0 := rfl
    omega
  have hqsel : bitsOf lo 0 2 < 3 := by
    split at hq
    case h_4 => cases hq
    all_goals omega
  have hop : bitsOf lo 4 3 < 5 := by
    split at ho
    case h_6 => cases ho
    all_goals omega
  simp only [kAdmits, Bool.and_eq_true, decide_eq_true_eq, hlo', hhi']
  exact ⟨⟨⟨⟨⟨⟨hop, bitsOf_lt _ _ 2⟩, hqsel⟩, bitsOf_lt _ _ 4⟩, bitsOf_lt _ _ 3⟩, bitsOf_lt _ _ 8⟩, hsome⟩

theorem kPwd_admits (h : kPwd lo hi = some op) : kAdmits op = true := by
  obtain ⟨hok, rfl⟩ := kWhen_eq_some.mp h
  simp only [Bool.and_eq_true, decide_eq_true_eq] at hok
  obtain ⟨⟨⟨-, hpw⟩, hmode⟩, -⟩ := hok
  simp only [kAdmits, Bool.and_eq_true, decide_eq_true_eq]
  exact ⟨⟨⟨⟨hpw, isD_field _ _⟩, bitsOf_lt _ _ 2⟩, hmode⟩, bitsOf_lt _ _ 3⟩

theorem kSystem_admits (h : kSystem lo hi = some op) : kAdmits op = true := by
  unfold kSystem at h
  split at h
  · cases h
  split at h
  case h_7 => cases h
  all_goals obtain ⟨hok, rfl⟩ := kWhen_eq_some.mp h
  case h_1 =>
    simp only [Bool.and_eq_true, decide_eq_true_eq] at hok
    obtain ⟨⟨⟨heven, hform⟩, -⟩, hk⟩ := hok
    simp only [kAdmits, Bool.and_eq_true, decide_eq_true_eq]
    exact ⟨⟨⟨⟨isD_field _ _, heven⟩, hform⟩, bitsOf_lt _ _ 4⟩, hk⟩
  case h_2 =>
    simp only [kAdmits, Bool.and_eq_true, decide_eq_true_eq]
    exact ⟨bitsOf_lt _ _ 8, isD_field _ _⟩
  case h_3 => exact isA_field _ _
  case h_4 =>
    simp only [kAdmits, Bool.and_eq_true, decide_eq_true_eq]
    exact ⟨bitsOf_lt _ _ 9, bitsOf_lt _ _ 5⟩
  case h_5 => exact isD_field _ _
  case h_6 => exact isD_field _ _

theorem kSuper_admits (hlo : lo < 128) (hhi : hi < 65536) (h : kSuper lo hi = some op) : kAdmits op = true := by
  have hsome : (kSuper lo hi).isSome = true := by rw [h]; rfl
  obtain ⟨hok, rfl⟩ := kWhen_eq_some.mp h
  simp only [Bool.and_eq_true, beq_iff_eq] at hok
  have hlo' : bitsOf lo 2 5 * 4 = lo := by
    have := hok.2
    unfold bitsOf at *
    omega
  simp only [kAdmits, Bool.and_eq_true, decide_eq_true_eq, hlo']
  exact ⟨⟨bitsOf_lt _ _ 5, hhi⟩, hsome⟩

theorem kGroup_admits {maj : Nat} (hlo : lo < 128) (hhi : hi < 65536) (h : kGroup maj lo hi = some op) : kAdmits op = true := by
  have h5 (n k : Nat) : bitsOf n k 5 < 32 := bitsOf_lt n k 5
  unfold kGroup at h
  split at h
  case h_1 => exact kAlu_admits h
  case h_2 => exact kAcc_admits (h5 _ _) (h5 _ _) h
  case h_3 => exact kAddr_admits h
  case h_4 => exact kImm_admits (bitsOf_lt _ _ 2) (h5 _ _) hhi h
  case h_5 => exact memKeep_admits h
  case h_6 => exact memKeep_admits h
  case h_7 =>
    obtain ⟨hok, rfl⟩ := kWhen_eq_some.mp h
    simp only [Bool.and_eq_true] at hok
    simp only [kAdmits, Bool.and_eq_true, decide_eq_true_eq]
    exact ⟨⟨⟨⟨⟨hok.1, h5 _ _⟩, bitsOf_lt _ _ 2⟩, isA_field _ _⟩, isM_field _ _⟩, rfl⟩
  case h_8 => exact kBranch_admits hhi h
  case h_9 => exact kQueue_admits hlo hhi h
  case h_10 => exact kPwd_admits h
  case h_11 => exact kCplx_admits (h5 _ _) h
  case h_12 => exact kSystem_admits h
  case h_13 => exact kSuper_admits hlo hhi h
  case h_14 => cases h
end

/-! ### The 16-bit groups hold admitted instructions -/

theorem kAlu_narrow {f d s : Nat} (hf : aluAssigned f = true) (hd : d < 8) (hs : s < 8) :
    kAdmits (.alu f d (if aluUnary f then 0 else d) s false) = true := by
  refine kWhen_isSome.trans ?_
  have hD {n : Nat} (h : n < 8) : isD n = true := isD_iff.mpr (by omega)
  by_cases hc : f = 0x0C
  · subst hc
    have hg : grpD s 2 = true := decide_eq_true (by omega)
    simp [hf, hD hd, hg, show aluUnary 12 = false from rfl]
  · cases aluUnary f <;> simp [hf, hc, hD hd, hD hs]

theorem kAcc_narrow {f a d s : Nat} (hf : f ≤ 0x0A ∧ f % 4 ≠ 3) (ha : a < 2) (hd : d < 8) (hs : s < 8) :
    kAdmits (.acc f (28 + a) d s false) = true := by
  have hac : isAC (28 + a) = true := isAC_iff.mpr (by omega)
  have hD {n : Nat} (h : n < 8) : isD n = true := isD_iff.mpr (by omega)
  have hok : (kAcc f (28 + a) d s false).isSome = true := by
    refine kWhen_isSome.trans ?_
    simp only [if_pos hf, hac, hD hd, hD hs]
    rfl
  simp only [kAdmits, Bool.and_eq_true, decide_eq_true_eq]
  exact ⟨⟨hok, by omega⟩, by omega⟩

theorem kQueue_narrow {k d qv : Nat} (hk : k < 4) (hd : d < 16) (hg : grpD d (2 ^ k) = true) (hqv : qv < 4) :
    kAdmits (.queue 0 k 0 d 0 qv) = true := by
  have hok : (kQueue (0 * 16 + k * 4 + 0) (d * 2 ^ 12 + 0 * 2 ^ 9 + qv * 2)).isSome = true := by
    obtain ⟨fOp, fN, fQsel, fDr, fSt, fQv, fZero⟩ :=
      kQueue_fields (by decide : 0 < 8) hk (by decide : 0 < 4) hd (by decide : 0 < 8) (by omega : qv < 256)
    refine kWhen_isSome.trans ?_
    rw [fOp, fN, fQsel, fDr, fSt, fQv, fZero]
    simp [hqv, hg]
  simp only [kAdmits, Bool.and_eq_true, decide_eq_true_eq]
  exact ⟨⟨⟨⟨⟨⟨by decide, hk⟩, by decide⟩, hd⟩, by decide⟩, by omega⟩, hok⟩

theorem kOp16_admits {n : Nat} {op : KOp} (h : kOp16 n = some op) : kAdmits op = true := by
  have h3 (k : Nat) : bitsOf n k 3 < 8 := bitsOf_lt n k 3
  simp only [kOp16] at h
  split at h
  case h_1 =>
    split at h
    case h_6 =>
      cases h
      simp only [kAdmits, Bool.and_eq_true, decide_eq_true_eq]
      exact ⟨bitsOf_lt n 0 8, rfl⟩
    case h_7 => cases h
    all_goals
      obtain ⟨-, rfl⟩ := kWhen_eq_some.mp h
      rfl
  case h_2 =>
    obtain ⟨hok, rfl⟩ := kWhen_eq_some.mp h
    exact kAlu_narrow hok (h3 3) (h3 0)
  case h_3 =>
    cases h
    simp only [kAdmits, Bool.and_eq_true, decide_eq_true_eq]
    exact ⟨⟨h3 9, h3 0⟩, bitsOf_lt n 3 6⟩
  case h_4 =>
    obtain ⟨hok, rfl⟩ := kWhen_eq_some.mp h
    have ha := bitsOf_lt n 7 2
    have hs := h3 0
    split
    case h_1 heq =>
      have hs0 : bitsOf n 0 3 = 0 := by simpa [heq] using hok
      simp only [kAdmits, Bool.and_eq_true, decide_eq_true_eq, beq_iff_eq]
      exact ⟨⟨⟨⟨isD_field n 3, trivial⟩, by omega⟩, by omega⟩, by omega⟩
    case h_2 heq =>
      have hs0 : bitsOf n 0 3 = 0 := by simpa [heq] using hok
      simp only [kAdmits, Bool.and_eq_true, decide_eq_true_eq, beq_iff_eq]
      exact ⟨⟨⟨⟨⟨isD_field n 3, trivial⟩, by omega⟩, by omega⟩, by omega⟩, by omega⟩
    case h_3 =>
      have hd := bitsOf_lt n 3 4
      have hr : memReg (bitsOf n 3 4) 2 = true := by simp [memReg, isAC_of_isD (isD_field n 3)]
      simp only [kAdmits, Bool.and_eq_true, decide_eq_true_eq, isA_iff]
      exact ⟨⟨⟨⟨⟨hr, by omega⟩, by decide⟩, by omega, by omega⟩, by omega⟩, by omega⟩
  case h_5 =>
    have hfmt := bitsOf_lt n 6 2
    have ha := bitsOf_lt n 8 1
    split at h
    case h_5 => cases h
    case h_4 =>
      obtain ⟨-, rfl⟩ := kWhen_eq_some.mp h
      have hac : isAC (28 + bitsOf n 8 1) = true := isAC_iff.mpr (by omega)
      have hok : (kAcc 0x10 (28 + bitsOf n 8 1) 0 0 false).isSome = true := kWhen_isSome.trans (by simp [hac])
      simp only [kAdmits, hok]
      rfl
    all_goals
      obtain ⟨hok, rfl⟩ := kWhen_eq_some.mp h
      simp only [bne_iff_ne] at hok
      exact kAcc_narrow (by omega) ha (h3 3) (h3 0)
  case h_6 =>
    obtain ⟨hok, rfl⟩ := kWhen_eq_some.mp h
    simp only [Bool.and_eq_true] at hok
    exact kQueue_narrow (bitsOf_lt n 8 2) (bitsOf_lt n 4 4) hok.2 (bitsOf_lt n 10 2)
  case h_7 =>
    cases h
    exact kOff_branch (n := 11) (bitsOf_lt n 0 12)
  case h_8 =>
    cases h
    have hg := bitsOf_lt n 9 2
    simp only [kAdmits, Bool.and_eq_true, decide_eq_true_eq]
    exact ⟨⟨by omega, by omega⟩, kOff_branch (n := 8) (bitsOf_lt n 0 9)⟩
  case h_9 =>
    cases h
    simp only [kAdmits, Bool.and_eq_true, decide_eq_true_eq]
    exact ⟨h3 9, kOff_branch (n := 8) (bitsOf_lt n 0 9)⟩
  case h_10 =>
    split at h
    · exact kMov_admits (bitsOf_lt n 5 5) (bitsOf_lt n 0 5) h
    · cases h
  case h_11 => cases h

/-- Whatever the decoder reads is admitted. -/
theorem kOp_admits {w : Word} {op : KOp} (h : kOp w = some op) : kAdmits op = true := by
  unfold kOp at h
  split at h
  · rw [kOp32_eq_kGroup] at h
    exact kGroup_admits (bitsOf_lt _ _ 7) (bitsOf_lt _ _ 16) h
  · exact kOp16_admits h

theorem kGuard_lt (w : Word) : kGuard w < 8 := by
  unfold kGuard
  split
  · exact bitsOf_lt _ _ 3
  · decide

/-! ### The obligations -/

/-- Settles O24: an admitted instruction is read back from its word group by group (`readsBack_kEnc`); what the decoder reads is admitted,
again group by group, so encoding it under the guard of its word reads the same. -/
theorem kamynDecodeEncode : Obligations.KamynDecodeEncode := by
  unfold Obligations.KamynDecodeEncode
  refine ⟨?decode, ?guard, ?admitted⟩
  case decode => exact fun op g hg h => (readsBack_kEnc hg h).1
  case guard => exact fun op g hg h hw => (readsBack_kEnc hg h).2 hw
  case admitted =>
    intro w op h
    have hadm : kAdmits op = true := kOp_admits h
    exact ⟨hadm, (readsBack_kEnc (kGuard_lt w) hadm).1⟩

/-- Settles O23: the decoder evaluated at each word. -/
theorem kamynWords : Obligations.KamynWords := by
  unfold Obligations.KamynWords
  decide

end Sys2Proof.Machine
end

section
/-!
Proofs about the compares, the 16-bit immediate forms, and the address, immediate and move groups of Kamyn
(04_kamyn_instruction_set.md R102, R105, R108, R114, R119 to R122).
-/

namespace Sys2Proof.Machine

section
variable {c : Core} {w : Word} {s t : State} {f rd ra rb : Nat} {x : Bool} (h : s.fetched c w = some t)
include h

/-- A row of the ALU table that compares, fetched: 1 or 0 as the relation holds, and no flag. -/
theorem compareRow_fetched {rel : Word → Word → Bool} {P : Prop} [Decidable P] (ho : kOp w = some (.alu f rd ra rb x))
    (hf : aluUnary f = false) (hrel : rel ((s.kBank c).gd ra) ((s.kBank c).gd rb) = true ↔ P) :
    aluRow f (fun _ _ a b => cmpI (rel a b)) c w s
      = .next (s.ended c w t ((s.kBank c).putI rd (if P then 1 else 0) ((s.kBank c).poisAny [ra, rb]))) := by
  rw [aluRow_fetched h _ ho, hf, State.resulted, cmpI, Bank.raise_zero, if_congr hrel rfl rfl]
  rfl
end

/-- Settles O13: rows of the ALU table whose value is a relation's and whose flags are none (`compareRow_fetched`). -/
theorem comparesWriteOneOrZero : Obligations.ComparesWriteOneOrZero := by
  unfold Obligations.ComparesWriteOneOrZero
  refine ⟨?ceq, ?cne, ?clt, ?cle, ?cltu, ?cleu, ?ctst⟩
  all_goals intro c w s t rd ra rb x h ho
  case ceq => exact show execCeq c w s = _ from compareRow_fetched h ho rfl beq_iff_eq
  case cne => exact show execCne c w s = _ from compareRow_fetched h ho rfl bne_iff_ne
  case clt => exact show execClt c w s = _ from compareRow_fetched h ho rfl decide_eq_true_iff
  case cle => exact show execCle c w s = _ from compareRow_fetched h ho rfl decide_eq_true_iff
  case cltu => exact show execCltu c w s = _ from compareRow_fetched h ho rfl decide_eq_true_iff
  case cleu => exact show execCleu c w s = _ from compareRow_fetched h ho rfl decide_eq_true_iff
  case ctst => exact show execCtst c w s = _ from compareRow_fetched h ho rfl bne_iff_ne

section
variable {c : Core} {w : Word} {s t : State} {f rd ra rb v : Nat} (h : s.fetched c w = some t)
include h

theorem aluiRow_fetched (g : Bool → Word → Nat → Int × Nat) (ho : kOp w = some (.alui f rd v)) :
    aluiRow f g c w s = .next (s.resulted c w t rd [rd] (g (s.kBank c).sat ((s.kBank c).gd rd) v)) :=
  (kamyn_fetched h ho (if_pos rfl) (kIllegal_of ho (by simp) rfl)).trans rfl

/-- CEQI and CLTI. -/
theorem aluiCompare_fetched {rel : Word → Nat → Bool} {P : Prop} [Decidable P] (ho : kOp w = some (.alui f rd v))
    (hrel : rel ((s.kBank c).gd rd) v = true ↔ P) :
    aluiRow f (fun _ a n => cmpI (rel a n)) c w s = .next (s.resulted c w t rd [rd] (if P then 1 else 0, 0)) := by
  rw [aluiRow_fetched h _ ho, cmpI, if_congr hrel rfl rfl]

theorem addrRow_fetched (g : Bank → Nat → Nat → Int) (ho : kOp w = some (.addr f rd ra rb)) :
    addrRow f g c w s = .next (s.resulted c w t rd [ra, rb] (g (s.kBank c) ra rb, 0)) :=
  (kamyn_fetched h ho (if_pos rfl) (kIllegal_of ho (by simp) rfl)).trans rfl

/-- A row with one result that is matched by hand. -/
theorem destRow_fetched {e : KOp → Option (K → KRes)} {op : KOp} {run : K → KRes} (ho : kOp w = some op) (he : e op = some run)
    (hd : op.dest = some rd) : kamyn c w s e = .next ((s.issue c w t).finish (run (s.issue c w t))) :=
  kamyn_fetched h ho he (kIllegal_of_dest ho hd)

/-- ADDI of 16 bits, by the class of its register. -/
theorem execAddi_fetched (ho : kOp w = some (.imm 2 rd v)) :
    execAddi c w s = .next (s.resulted c w t rd [rd]
      (if isD rd then fitSO 32 (s.kBank c).sat ((s.kBank c).di rd + sx 16 v) else ((s.kBank c).get rd + sx 16 v, 0))) :=
  (destRow_fetched h ho rfl rfl).trans rfl

/-- MOV, by the classes of its registers. -/
theorem execMov_fetched {rs : Nat} (ho : kOp w = some (.mov rd rs)) :
    execMov c w s = .next (s.resulted c w t rd [rs]
      (if isD rs && isAC rd then ((s.kBank c).di rs * 2 ^ 32, 0)
       else if isAC rs && isD rd then ((sacValue (s.kBank c).rnd ((s.kBank c).aci rs) 0).1, 0)
       else ((s.kBank c).get rs, 0))) :=
  (destRow_fetched h ho rfl rfl).trans rfl
end

theorem isD_of_isAC {n : Nat} (hn : isAC n = true) : isD n = false :=
  Bool.eq_false_iff.mpr fun hd => by simp [isAC_of_isD hd] at hn

/-- Settles O14: rows of the immediate and address groups, and the instructions matched by hand with the value their operation gives. -/
theorem kamynImmediatesAndMoves : Obligations.KamynImmediatesAndMoves := by
  unfold Obligations.KamynImmediatesAndMoves
  refine ⟨?shli, ?shri, ?sari, ?ceqi, ?clti, ?andi, ?movi6, ?movi16, ?movhi, ?addi6, ?addiD, ?addiOther, ?ori, ?movToAcc, ?movFromAcc,
    ?movCopy, ?adda, ?suba, ?addaa, ?moda⟩
  case shli => exact fun c w s t rd v h ho => show execShli c w s = _ from aluiRow_fetched h _ ho
  case shri => exact fun c w s t rd v h ho => show execShri c w s = _ from aluiRow_fetched h _ ho
  case sari => exact fun c w s t rd v h ho => show execSari c w s = _ from aluiRow_fetched h _ ho
  case ceqi => exact fun c w s t rd v h ho => show execCeqi c w s = _ from aluiCompare_fetched h ho decide_eq_true_iff
  case clti => exact fun c w s t rd v h ho => show execClti c w s = _ from aluiCompare_fetched h ho decide_eq_true_iff
  case andi => exact fun c w s t rd v h ho => show execAndi c w s = _ from aluiRow_fetched h _ ho
  case movi6 => exact fun c w s t rd v h ho => show execMovi c w s = _ from (destRow_fetched h ho rfl rfl).trans rfl
  case movi16 => exact fun c w s t rd v h ho => show execMovi c w s = _ from (destRow_fetched h ho rfl rfl).trans rfl
  case movhi => exact fun c w s t rd v h ho => show execMovhi c w s = _ from (destRow_fetched h ho rfl rfl).trans rfl
  case addi6 => exact fun c w s t rd v h ho => show execAddi c w s = _ from (destRow_fetched h ho rfl rfl).trans rfl
  case addiD =>
    intro c w s t rd v h ho hd b
    exact show execAddi c w s = _ from (execAddi_fetched h ho).trans (by rw [if_pos hd])
  case addiOther =>
    intro c w s t rd v h ho hd b
    exact show execAddi c w s = _ from (execAddi_fetched h ho).trans (by rw [hd]; rfl)
  case ori => exact fun c w s t rd v h ho => show execOri c w s = _ from (destRow_fetched h ho rfl rfl).trans rfl
  case movToAcc =>
    intro c w s t rd rs h ho hs hd b
    exact show execMov c w s = _ from (execMov_fetched h ho).trans (by rw [hs, hd]; rfl)
  case movFromAcc =>
    intro c w s t rd rs h ho hs hd b
    exact show execMov c w s = _ from (execMov_fetched h ho).trans (by rw [hs, hd, isD_of_isAC hs]; rfl)
  case movCopy =>
    intro c w s t rd rs h ho hac b
    refine show execMov c w s = _ from (execMov_fetched h ho).trans ?_
    cases hs : isAC rs with
    | false => rw [hac.trans hs, Bool.and_false]; rfl
    | true => rw [isD_of_isAC hs, isD_of_isAC (hac.trans hs)]; rfl
  case adda => exact fun c w s t rd ra rb h ho => show execAdda c w s = _ from addrRow_fetched h _ ho
  case suba => exact fun c w s t rd ra rb h ho => show execSuba c w s = _ from addrRow_fetched h _ ho
  case addaa => exact fun c w s t rd ra rb h ho => show execAddaa c w s = _ from addrRow_fetched h _ ho
  case moda => exact fun c w s t rd ra rb h ho => show execModa c w s = _ from addrRow_fetched h _ ho

end Sys2Proof.Machine
end

section
/-!
Proofs about the control flow of Kamyn (04_kamyn_instruction_set.md R98, R103, R104, R112, R114, R124, R131; 05_cycle_timing.md R149,
R150).
-/

namespace Sys2Proof.Machine

/-! ### Branches, calls and returns (R98, R112, R114, R124) -/

section
variable {c : Core} {p : Fin 72} {w : Word} {s t : State} {e : KOp → Option (K → KRes)} {op : KOp} {run : K → KRes}
  {x : Bank} {a : Nat}

/-- An instruction that jumps to a target that a branch may take lands there. -/
theorem kamyn_jump (h : s.fetched c w = some t) (ho : kOp w = some op) (he : e op = some run) (hi : kIllegal c w = false)
    (hrun : run (s.issue c w t) = .jump t x a) (ha : landsOn c a = true) : kamyn c w s e = .next (s.landed c t x a) := by
  rw [kamyn_fetched h ho he hi, hrun, finish_jump s t t c w x a ha]

theorem kamyn_ok (h : s.fetched c w = some t) (ho : kOp w = some op) (he : e op = some run) (hi : kIllegal c w = false)
    (hrun : run (s.issue c w t) = .ok t x) : kamyn c w s e = .next (s.ended c w t x) := by
  rw [kamyn_fetched h ho he hi, hrun, finish_ok]

/-- A taken branch to an odd target (R98). -/
theorem finish_jump_odd (ha : a % 2 = 1) :
    (s.issue (.eng p) w t).finish (.jump t x a) = t.engineFault p 5 a := by
  simp only [K.finish, State.kJump, ha, State.issue]
  rfl

theorem kamyn_jump_odd (h : s.fetched (.eng p) w = some t) (ho : kOp w = some op) (he : e op = some run)
    (hi : kIllegal (.eng p) w = false) (hrun : run (s.issue (.eng p) w t) = .jump t x a) (ha : a % 2 = 1) :
    kamyn (.eng p) w s e = .next (t.engineFault p 5 a) := by
  rw [kamyn_fetched h ho he hi, hrun, finish_jump_odd ha]

/-- An instruction whose guard does not hold ends without an effect (R104). -/
theorem kamyn_guard_fails (h : s.issued c w = some t) (ho : kOp w = some op) (he : e op = some run) (hi : kIllegal c w = false)
    (hp : (s.kBank c).guardPois (kGuard w) = false) (hg : (s.kBank c).guardHolds (kGuard w) = false) :
    kamyn c w s e = .next (s.ended c w t (s.kBank c)) := by
  simp only [kamyn, ho, he, hi, kRun_issued _ _ h, hp, hg, Bool.not_false, Bool.false_eq_true, if_false, if_true, finish_ok]

/-- An instruction of an engine whose guard is poisoned (R104). -/
theorem kamyn_guard_poisoned (h : s.issued (.eng p) w = some t) (ho : kOp w = some op) (he : e op = some run)
    (hi : kIllegal (.eng p) w = false) (hp : (s.kBank (.eng p)).guardPois (kGuard w) = true) :
    kamyn (.eng p) w s e = .next (t.tookFree.engineFault p 1 (t.freeVal.toNat % 2 ^ 24)) := by
  simp only [kamyn, ho, he, hi, kRun_issued _ _ h, hp, Bool.false_eq_true, if_false, if_true]
  rfl

section
variable {f rd ra rb : Nat} {y : Bool} {g : Nat → Bool → Word → Word → Int × Nat} (ho : kOp w = some (.alu f rd ra rb y))
include ho

theorem aluRow_guard_fails (h : s.issued c w = some t) (hp : (s.kBank c).guardPois (kGuard w) = false)
    (hg : (s.kBank c).guardHolds (kGuard w) = false) : aluRow f g c w s = .next (s.ended c w t (s.kBank c)) :=
  kamyn_guard_fails h ho (if_pos rfl) (kIllegal_of ho (by simp) rfl) hp hg

theorem aluRow_guard_poisoned (h : s.issued (.eng p) w = some t) (hp : (s.kBank (.eng p)).guardPois (kGuard w) = true) :
    aluRow f g (.eng p) w s = .next (t.tookFree.engineFault p 1 (t.freeVal.toNat % 2 ^ 24)) :=
  kamyn_guard_poisoned h ho (if_pos rfl) (kIllegal_of ho (by simp) rfl) hp
end
end

/-! ### BG, BDEC and the jumps through a register (R103, R124) -/

/-- JR, CALLR and RET go through a clean register. -/
theorem jumpReg_clean {c : Core} {w : Word} {s t : State} {an : Nat} (hp : (s.kBank c).pois an = false) (x : Bank) :
    (s.issue c w t).jumpReg an x = .jump t x ((s.kBank c).get an) := if_neg (Bool.eq_false_iff.mp hp)

section
variable {c : Core} {w : Word} {s t : State} (h : s.fetched c w = some t)
include h

section
variable {neg : Bool} {g : Nat} {off : Int} (ho : kOp w = some (.bg neg g off)) (hp : (s.kBank c).pois g = false)
include ho hp

theorem execBg_taken (hg : ((s.kBank c).gd g != 0) = !neg) (hl : landsOn c (addrAdd (s.kBank c).pc.toNat off) = true) :
    execBg c w s = .next (s.landed c t (s.kBank c) (addrAdd (s.kBank c).pc.toNat off)) := by
  have hsense : (((s.kBank c).gd g != 0) != neg) = true := by rw [hg]; cases neg <;> rfl
  exact kamyn_jump h ho rfl (kIllegal_of ho (by simp) rfl) ((if_neg (Bool.eq_false_iff.mp hp)).trans (if_pos hsense)) hl

theorem execBg_not_taken (hg : ((s.kBank c).gd g != 0) = neg) : execBg c w s = .next (s.ended c w t (s.kBank c)) :=
  kamyn_ok h ho rfl (kIllegal_of ho (by simp) rfl) (by simpa [State.issue, hp] using hg)
end

section
variable {dn : Nat} {off : Int} (ho : kOp w = some (.bdec dn off)) (hp : (s.kBank c).pois dn = false)
include ho hp

theorem execBdec_taken (hd : (s.kBank c).gd dn ≠ 1) (hl : landsOn c (addrAdd (s.kBank c).pc.toNat off) = true) :
    execBdec c w s = .next (s.landed c t ((s.kBank c).put dn ((s.kBank c).gd dn - 1).toNat false) (addrAdd (s.kBank c).pc.toNat off)) :=
  kamyn_jump h ho rfl (kIllegal_of ho (by simp) rfl) (by simpa [State.issue, hp] using sub_ne_zero.mpr hd) hl

theorem execBdec_not_taken (hd : (s.kBank c).gd dn = 1) : execBdec c w s = .next (s.ended c w t ((s.kBank c).put dn 0 false)) :=
  kamyn_ok h ho rfl (kIllegal_of ho (by simp) rfl) (by simp [State.issue, hp, hd])
end
end

/-! ### ISYNC and WAIT (R131, R149, R150) -/

section
variable {p : Fin 72} {w : Word} {s t : State}

theorem execIsync_engine (h : s.fetched (.eng p) w = some t) (ho : kOp w = some .isync) :
    execIsync (.eng p) w s = .next (if (t.codeStep p).1 then s.held (.eng p) w (t.codeStep p).2 (s.kBank (.eng p))
      else s.ended (.eng p) w (t.codeStep p).2 (s.kBank (.eng p))) :=
  (kamyn_fetched h ho rfl (kIllegal_of ho (by simp) rfl)).trans (congrArg _ (apply_ite (s.issue (.eng p) w t).finish _ _ _))

theorem execIsync_shepherd (h : s.fetched .shep w = some t) (ho : kOp w = some .isync) :
    execIsync .shep w s = .next (if t.sh.stores = [] then s.ended .shep w t (s.kBank .shep) else s.held .shep w t (s.kBank .shep)) := by
  refine (kamyn_fetched h ho rfl (kIllegal_of ho (by simp) rfl)).trans (congrArg _ ?_)
  exact (apply_ite (s.issue .shep w t).finish _ _ _).trans (if_congr List.isEmpty_iff rfl rfl)

theorem execWait_engine (h : s.fetched (.eng p) w = some t) (ho : kOp w = some .wait) :
    execWait (.eng p) w s = .next (
      let u := (t.codeStep p).2
      let x := s.kBank (.eng p)
      if (t.codeStep p).1 then s.held (.eng p) w u x
      else ((((u.setBank p (u.runBank p) (Bank.modeEnd { x with pc := .ofNat 24 (x.pc.toNat + 2) })).endActivation p
        ((u.running p).getD 0)).setDist p 0).stepped p)) :=
  (kamyn_fetched h ho rfl (kIllegal_of ho (by simp) rfl)).trans (congrArg _ (apply_ite (s.issue (.eng p) w t).finish _ _ _))
end

/-- Settles O17: an instruction that jumps lands on its target (`kamyn_jump`), one that does not ends (`kamyn_ok`); ISYNC and WAIT hold or
go on as the code-store buffer stands; the guard is tried before the operation (`kamyn_guard_fails`, `kamyn_guard_poisoned`). -/
theorem kamynControlFlow : Obligations.KamynControlFlow := by
  unfold Obligations.KamynControlFlow
  refine ⟨?nop, ?bra, ?bgTaken, ?bgNot, ?bdecTaken, ?bdecNot, ?br, ?call, ?jr, ?callr, ?ret, ?isyncEng, ?isyncShep, ?waitEng, ?waitShep,
    ?jrOdd, ?guardFails, ?guardPoisoned⟩
  case nop =>
    intro c w s t h ho b
    exact show execNop c w s = _ from kamyn_ok h ho rfl (kIllegal_of ho (by simp) rfl) rfl
  case bra =>
    intro c w s t off h ho b hl
    exact show execBra c w s = _ from kamyn_jump h ho rfl (kIllegal_of ho (by simp) rfl) rfl hl
  case bgTaken =>
    intro c w s t neg g off h ho b hp hg hl
    exact show execBg c w s = _ from execBg_taken h ho hp hg hl
  case bgNot =>
    intro c w s t neg g off h ho b hp hg
    exact show execBg c w s = _ from execBg_not_taken h ho hp hg
  case bdecTaken =>
    intro c w s t dn off h ho b hp hd hl
    exact show execBdec c w s = _ from execBdec_taken h ho hp hd hl
  case bdecNot =>
    intro c w s t dn off h ho b hp hd
    exact show execBdec c w s = _ from execBdec_not_taken h ho hp hd
  case br =>
    intro c w s t off h ho b hl
    exact show execBr c w s = _ from kamyn_jump h ho rfl (kIllegal_of ho (by simp) rfl) rfl hl
  case call =>
    intro c w s t off h ho b hl
    exact show execCall c w s = _ from kamyn_jump h ho rfl (kIllegal_of ho (by simp) rfl) rfl hl
  case jr =>
    intro c w s t an h ho b hp hl
    exact show execJr c w s = _ from kamyn_jump h ho rfl (kIllegal_of ho (by simp) rfl) (jumpReg_clean hp _) hl
  case callr =>
    intro c w s t an h ho b hp hl
    exact show execCallr c w s = _ from kamyn_jump h ho rfl (kIllegal_of ho (by simp) rfl) (jumpReg_clean hp _) hl
  case ret =>
    intro c w s t h ho b hp hl
    exact show execRet c w s = _ from kamyn_jump h ho rfl (kIllegal_of ho (by simp) rfl) (jumpReg_clean hp _) hl
  case isyncEng =>
    intro p w s t h ho b
    exact show execIsync (.eng p) w s = _ from execIsync_engine h ho
  case isyncShep =>
    intro w s t h ho b
    exact show execIsync .shep w s = _ from execIsync_shepherd h ho
  case waitEng =>
    intro p w s t h ho b
    exact show execWait (.eng p) w s = _ from execWait_engine h ho
  case waitShep =>
    intro w s t h ho b
    exact show execWait .shep w s = _ from (kamyn_fetched h ho rfl (kIllegal_of ho (by simp) rfl)).trans rfl
  case jrOdd =>
    intro p w s an h ho hp ha
    exact show execJr (.eng p) w s = _ from kamyn_jump_odd h ho rfl (kIllegal_of ho (by simp) rfl) (jumpReg_clean hp _) ha
  case guardFails =>
    intro c w s t rd ra rb x h ho hp hg
    exact show execAdd c w s = _ from aluRow_guard_fails ho h hp hg
  case guardPoisoned =>
    intro p w s t rd ra rb x h ho hp
    exact show execAdd (.eng p) w s = _ from aluRow_guard_poisoned ho h hp

end Sys2Proof.Machine
end

section
/-!
Proofs about the mailbox commands (16_mailbox_commands.md R417 to R423) and about those of the journal, Tally time, the link, the patches and
the debug policy (R190, R424, R432, R534).
-/

namespace Sys2Proof.Machine

/-! ### A command that Crook takes (R420 to R423) -/

section
variable {s t u : State} {m : Fin 32} {op : Nat} {auth : List CkAuth} {buf : Bool} {named : Nat → Nat} {k : Ck} {body : Ck → State → CkOut}
  (h : s.commanded m op auth buf named = some (k, t))
include h

/-- A command that passes the checks all commands share ends as its body says. -/
theorem crook_commanded : s.crook m op auth buf named body = (body k t).finish k.w := by
  obtain ⟨⟨hnext, hop, hdup, hhdr, hauth, hpeer, hnamed, hbuf⟩, hkt⟩ := Option.ite_none_right_eq_some.mp h
  obtain ⟨rfl, rfl⟩ := Prod.mk.inj (Option.some.inj hkt)
  simp [State.crook, hnext, hop, hdup, hhdr, hauth, hpeer, hnamed, hbuf]

theorem crook_replies {st d : Nat} {ws : List Word} (hb : body k t = .reply st d ws u) :
    (.next (s.crook m op auth buf named body) : Out) = .next (u.mbFinish k.w st d ws) := by
  rw [crook_commanded h, hb]; rfl

theorem crook_waits {a b : Nat} (hb : body k t = .wait a b u) :
    (.next (s.crook m op auth buf named body) : Out) = .next { u with mb.waits := u.mb.waits ++ [{ k.w with a := a, b := b }] } := by
  rw [crook_commanded h, hb]; rfl
end

/-! ### The checks of a command's arguments (R422) -/

section
variable {s : State} {cs : List (Bool × Nat × Nat)} {act : State → CkOut} {bad : Bool} {st d : Nat}

theorem ckDo_nil : s.ckDo [] act = act s := rfl

theorem ckDo_fails (h : bad = true) : s.ckDo ((bad, st, d) :: cs) act = .reply st d [] s := by simp only [State.ckDo, ckFirst, h, if_true]

theorem ckDo_passes (h : bad = false) : s.ckDo ((bad, st, d) :: cs) act = s.ckDo cs act := by
  simp only [State.ckDo, ckFirst, h, Bool.false_eq_true, if_false]
end

/-! ### Crook's register writes (R422) -/

section
variable {s u : State} {cnts : List Nat} {ws : List (Nat × Nat × Word)}

/-- Where no counter shows a refusal, every register is written. -/
theorem ckWrites_uncounted : ∀ (s : State) (ws : List (Nat × Nat × Word)), (s.ckWrites [] ws).1 = none
  | _, [] => rfl
  | s, (_, off, v) :: ws => ckWrites_uncounted (s.ckPoke off v) ws

theorem ckSet_writes (h : s.ckWrites cnts ws = (none, u)) : s.ckSet cnts ws = .reply 0 0 [] u := by rw [State.ckSet, h]

theorem ckSet_refused {d : Nat} (h : s.ckWrites cnts ws = (some d, u)) : s.ckSet cnts ws = .reply 8 d [] u := by rw [State.ckSet, h]

theorem ckSet_uncounted : s.ckSet [] ws = .reply 0 0 [] (s.ckWrites [] ws).2 :=
  ckSet_writes (Prod.ext (ckWrites_uncounted s ws) rfl)
end

/-! ### The commands of the journal, the link and the patches (R190, R424, R432) -/

section
variable {s : State} {k : Ck}

theorem ckJnConfig_writes (h : k.d s 7 < 2) : State.ckJnConfig k s = .reply 0 0 [] (s.ckWrites []
    [(0, JN_HBASE_LO, ckWord (k.d s 0)), (1, JN_HBASE_HI, ckWord (k.d s 1)), (2, JN_HSIZE, ckWord (k.d s 2)), (3, JN_HWB_LO, ckWord (k.d s 3)),
      (4, JN_HWB_HI, ckWord (k.d s 4)), (5, JN_DRAIN_PER, ckWord (k.d s 5)), (6, JN_DRAIN_THR, ckWord (k.d s 6)),
      (7, JN_CTRL, ckWord (k.d s 7))]).2 :=
  (ckDo_passes (decide_eq_false (Nat.not_le.mpr h))).trans (ckDo_nil.trans ckSet_uncounted)

theorem ckJnConfig_badarg (h : 2 ≤ k.d s 7) : State.ckJnConfig k s = .reply 3 7 [] s := ckDo_fails (decide_eq_true h)

/-- JN_READ of 1 to 31 entries of the ring replies with the walk's, when it met no poison. -/
theorem ckJnRead_replies {es : List (List Byte)} (h0 : 0 < k.d s 0) (hn : k.d s 0 < 32) (hskip : k.d s 1 < 262144)
    (hw : s.jnWalk k 262144 (s.nat JN_WIDX) (k.d s 1) (k.d s 0) [] = (true, es)) :
    State.ckJnRead k s = .reply 0 0 (es.flatMap wordsOf) s := by
  have hcount : (k.d s 0 == 0 || decide (32 ≤ k.d s 0)) = false := by simp; omega
  have hbound : decide (262144 ≤ k.d s 1) = false := decide_eq_false (Nat.not_le.mpr hskip)
  simp only [State.ckJnRead, ckDo_passes hcount, ckDo_passes hbound, ckDo_nil, hw, if_true]

theorem ckJnRead_badarg (hn : 32 ≤ k.d s 0) : State.ckJnRead k s = .reply 3 0 [] s := by
  have hcount : (k.d s 0 == 0 || decide (32 ≤ k.d s 0)) = true := by rw [decide_eq_true hn, Bool.or_true]
  simp only [State.ckJnRead, ckDo_fails hcount]

/-- TL_BCAST to one of the 16 tags is sent whether or not its apply-time is late. -/
theorem ckTlBcast_sends (h : k.d s 0 < 16) : State.ckTlBcast k s =
    .reply (if stampDiff (k.d64 s 1) s.now < (s.nat TL_BMARGIN : Int) then 13 else 0) 0 []
      ((s.tlBcastTx (k.d s 0) (k.d64 s 1)).armTlcmd (k.d s 0) (k.d64 s 1)).tlcmdDue := by
  have htag : decide (16 ≤ k.d s 0) = false := decide_eq_false (Nat.not_le.mpr h)
  simp only [State.ckTlBcast, ckDo_passes htag, ckDo_nil, decide_eq_true_eq]

theorem ckTlBcast_badarg (h : 16 ≤ k.d s 0) : State.ckTlBcast k s = .reply 3 0 [] s := by
  simp only [State.ckTlBcast, ckDo_fails (decide_eq_true h)]

/-- PATCH_COMMIT after a load in which no step failed (R191), while no other commit waits. -/
theorem ckPatchCommit_admitted (hp : s.pw.patch = 0) (hw : s.mbWaiting 0xC01 = none) : State.ckPatchCommit k s =
    if s.pw.svn ≤ s.rollback then .reply 0 0 [ckWord s.rollback, ckWord s.rollback] s else .wait s.rollback s.pw.svn s := by
  have hstate : (s.pw.patch != 0 && s.pw.patch != 7) = false := by rw [hp]; rfl
  have hfree : (s.mbWaiting 0xC01).isSome = false := by rw [hw]; rfl
  simp only [State.ckPatchCommit, ckDo_passes hstate, ckDo_passes hfree, ckDo_nil]
end

/-! ### The blow of a fuse for a commit that waits (R190, R534) -/

section
variable {s : State} {w : MbWait} (hl : s.live = true) (hw : s.mbWaiting 0xC01 = some w)
include hl hw

theorem fuseBlow_failed : s.fuseBlow false = s.mbFinish w 8 0 [ckWord w.a, ckWord s.rollback] := by
  simp [State.fuseBlow, hw, hl]

/-- A fuse blown raises the count by one fuse, and the commit ends once the count has reached SVN. -/
theorem fuseBlow_done {i : Nat} (hi : firstIdx (fun n => !tget (fun _ => false) s.fuses (64 + n)) 64 = some i) : s.fuseBlow true =
    let u := { s with fuses := tset (fun _ => false) s.fuses (64 + i) true }
    if w.b ≤ State.rollback u then u.mbFinish w 0 0 [ckWord w.a, ckWord (State.rollback u)] else u := by
  simp [State.fuseBlow, hw, hl, hi]
end

/-- Settles O48: a command that Crook takes ends as its body says (`crook_replies`, `crook_waits`); what each body answers follows from its
checks (`ckDo_passes`, `ckDo_fails`) and from the registers it writes (`ckSet_writes`, `ckSet_refused`, `ckSet_uncounted`). -/
theorem crookJournalTimeAndPatches : Obligations.CrookJournalTimeAndPatches := by
  unfold Obligations.CrookJournalTimeAndPatches
  refine ⟨?jnConfig, ?jnConfigBad, ?jnRead, ?jnReadBad, ?timeSet, ?timeSetRefused, ?tlConfig, ?tlBcast, ?tlBcastBad, ?tlStatus, ?patchInfo,
    ?commitDone, ?commitWaits, ?fuseDone, ?fuseFailed, ?dbgPolicy⟩
  case jnConfig =>
    intro m k s t h hd
    exact show execJnConfig m s = _ from crook_replies h (ckJnConfig_writes hd)
  case jnConfigBad =>
    intro m k s t h hd
    exact show execJnConfig m s = _ from crook_replies h (ckJnConfig_badarg hd)
  case jnRead =>
    intro m k s t es h h0 hn hskip hw
    exact show execJnRead m s = _ from crook_replies h (ckJnRead_replies h0 hn hskip hw)
  case jnReadBad =>
    intro m k s t h hn
    exact show execJnRead m s = _ from crook_replies h (ckJnRead_badarg hn)
  case timeSet =>
    intro m k s t u h hset
    exact show execTimeSet m s = _ from crook_replies h (ckSet_writes hset)
  case timeSetRefused =>
    intro m k s t u d h hset
    exact show execTimeSet m s = _ from crook_replies h (ckSet_refused hset)
  case tlConfig =>
    intro m k s t h
    exact show execTlConfig m s = _ from crook_replies h ckSet_uncounted
  case tlBcast =>
    intro m k s t h hk
    exact show execTlBcast m s = _ from crook_replies h (ckTlBcast_sends hk)
  case tlBcastBad =>
    intro m k s t h hk
    exact show execTlBcast m s = _ from crook_replies h (ckTlBcast_badarg hk)
  case tlStatus =>
    intro m k s t h
    exact show execTlStatus m s = _ from crook_replies h rfl
  case patchInfo =>
    intro m k s t h
    exact show execPatchInfo m s = _ from crook_replies h rfl
  case commitDone =>
    intro m k s t h hp hw hr
    exact show execPatchCommit m s = _ from crook_replies h ((ckPatchCommit_admitted hp hw).trans (if_pos hr))
  case commitWaits =>
    intro m k s t h hp hw hr
    exact show execPatchCommit m s = _ from crook_waits h ((ckPatchCommit_admitted hp hw).trans (if_neg (by omega)))
  case fuseDone =>
    intro w i s hl hw hi
    exact show execFuseBlowComplete true s = _ from congrArg _ (fuseBlow_done hl hw hi)
  case fuseFailed =>
    intro w s hl hw
    exact show execFuseBlowComplete false s = _ from congrArg _ (fuseBlow_failed hl hw)
  case dbgPolicy =>
    intro m k s t h
    exact show execDbgPolicy m s = _ from crook_replies h ckSet_uncounted

end Sys2Proof.Machine
end

section
/-!
Proofs about the Fold store as PM_FSDATA shows it (02_tally_time.md R60, 19_reset_power_startup.md R495, R498).
-/

namespace Sys2Proof.Machine

/-! ### A read of PM_FSDATA while a word is latched for it (R60, R498) -/

/-- A running block in which the Shepherd holds a latched word for PM_FSDATA, which no read of the block latches. -/
def latchedFsdata : State := { latchedTail with hiLatch := [(latchKey PM_FSDATA 0, 1)] }

/-- The words latched for the masters in the state that an outcome leaves. -/
def latchesOf : Out → List (Nat × Word)
  | .next t => t.hiLatch
  | _ => []

theorem reads_latchedFsdata : latchedFsdata.reads .shepherd PM_FSDATA = true := by decide +kernel

/-- The word that PM_FSADDR names lies in no image of open layout, so its read is no free value (R498). -/
theorem foldOpen_latchedFsdata : latchedFsdata.foldOpen (latchedFsdata.fld PM_FSADDR fPM_FSADDR_WORD) = false := by decide +kernel

/-- The read takes the word that the Shepherd holds latched for PM_FSDATA. -/
theorem latchesOf_read_latchedFsdata : latchesOf (exec (.pmFsdata .shepherd none) latchedFsdata) = [] := by decide +kernel

/-- In Graze, with no entry begun and no host request held, nothing follows a command (R29, R484). -/
theorem settle_graze_idle {s : State} (hm : s.pw.mode = .graze) (he : s.pw.entry = 0) (hh : s.pw.hostHeld = []) : s.settle = s := by
  have hwake : s.wakeCheck = s := by
    unfold State.wakeCheck
    rw [hm]
    cases s.wakeLatch with
    | none => rfl
    | some i => exact if_neg (fun h => h.1 he)
  simp [State.settle, hwake, hh]

/-- The latched word outlives a response and what follows a command. -/
theorem latchesOf_respond_latchedFsdata (d : BitVec 64) :
    latchesOf (.next (latchedFsdata.respond .shepherd 0 d).settle) = [(latchKey PM_FSDATA 0, 1)] := by
  rw [settle_graze_idle rfl rfl rfl]
  rfl

/-- Refutes O56: a single read drops the word that its master holds latched for that register (R60), and the clause on reads of
PM_FSDATA, which leaves nothing changed but the response, does not exclude states that hold one. In `latchedFsdata` the latched
word is gone after the read. -/
theorem not_powerFailAndLastGasp : ¬ Obligations.PowerFailAndLastGasp := by
  unfold Obligations.PowerFailAndLastGasp
  rintro ⟨-, -, -, -, -, -, -, -, -, -, -, -, -, -, -, -, read, -⟩
  have h := congrArg latchesOf (read .shepherd latchedFsdata _ reads_latchedFsdata rfl foldOpen_latchedFsdata)
  rw [latchesOf_read_latchedFsdata, latchesOf_respond_latchedFsdata] at h
  exact List.cons_ne_nil _ _ h.symm

end Sys2Proof.Machine
end

section
/-!
Proofs about the waveform generators: what a write of a generator's register does while no pairing is on, how a duty write is accepted
and applied, what a crossbar entry shows, and a stop of a generator (08_waveform_generators.md R235 to R245, R251;
18_reserve_and_service_life.md R460).
-/

namespace Sys2Proof.Machine

/-! ### Which registers a raise leaves alone (R76, R348, R461) -/

theorem reg_raiseLater (s : State) (n p0 p1 o : Nat) : (s.raiseLater n p0 p1).reg o = s.reg o := rfl

section
variable {s : State} {o : Nat} (ho : o < RS_HURDLE_CNT_E 0) (hg : o ≠ RS_GSTAT)
include ho

theorem ne_hurdleCnt (k i : Nat) : o ≠ hurdleCnt k i := by
  simp only [hurdleCnt, RS_HURDLE_CNT_E] at ho ⊢
  omega

theorem ne_taskStat (p k : Nat) : o ≠ LE_TASK_STAT p k := by
  simp only [LE_TASK_STAT, RS_HURDLE_CNT_E] at ho ⊢
  omega

theorem ne_ovrCnt (p k : Nat) : o ≠ LE_OVR_CNT p k := by
  simp only [LE_OVR_CNT, RS_HURDLE_CNT_E] at ho ⊢
  omega

theorem reg_makeReady (p k : Nat) (st : Stamp) (e : Bool) : (s.makeReady p k st e).reg o = s.reg o := by
  have slot (u : State) (x : Slot) : (u.setSlot p k x).reg o = u.reg o := rfl
  rw [State.makeReady, slot, State.setSlotState]
  exact reg_setFld_ne _ _ _ _ _ (ne_taskStat ho p k)

include hg

theorem reg_hurdleCount (k i : Nat) : (s.hurdleCount k i).reg o = s.reg o := by
  unfold State.hurdleCount
  extract_lets s1 s2
  have counted : s1.reg o = s.reg o := reg_inc_ne _ _ _ (ne_hurdleCnt ho k i)
  split
  · exact counted
  · exact (reg_setFlag_ne s1 _ _ _ _ hg).trans counted

/-- An action that leaves a register alone leaves it alone behind its Hurdle. -/
theorem reg_hurdle (k i : Nat) {act : State → State} (h : (act s).reg o = s.reg o) : (s.hurdle k i act).reg o = s.reg o := by
  unfold State.hurdle
  split
  · rfl
  · split
    · exact reg_hurdleCount ho hg k i
    · exact h

theorem reg_overrun (p k : Nat) : (s.overrun p k).reg o = s.reg o := by
  unfold State.overrun
  extract_lets s1
  have counted : s1.reg o = s.reg o :=
    (reg_inc_ne _ _ _ (ne_ovrCnt ho p k)).trans (reg_setFlag_ne _ _ _ _ _ (ne_taskStat ho p k))
  exact (reg_hurdle (act := fun u => u.raiseLater (66 + 4 * p) 0 0) ho hg 0 p (reg_raiseLater s1 _ 0 0 o)).trans counted

theorem reg_fireEdge (p k : Nat) (st : Stamp) : (s.fireEdge p k st).reg o = s.reg o := by
  unfold State.fireEdge
  split
  case h_1 => exact reg_makeReady ho p k st true
  case h_2 => exact reg_overrun ho hg p k
  case h_3 | h_4 =>
    split
    · rfl
    · exact reg_overrun ho hg p k
  case h_5 => exact reg_overrun ho hg p k
  case h_6 => rfl

/-- A raise writes registers of the engines it triggers, the Hurdle counters and RS_GSTAT, and no register below those. -/
theorem reg_raise (n p0 p1 : Nat) : (s.raise n p0 p1).reg o = s.reg o :=
  List.foldlRecOn (motive := fun t : State => t.reg o = s.reg o) _ _ rfl
    (fun _ ht x _ => (reg_fireEdge ho hg x.1 x.2 s.now).trans ht)
end

/-! ### The switch of the generator pairing, RS_SC_CTRL.EN (R460) -/

section
variable {s : State} {g : Nat}

theorem scOn_of_reg {t : State} (h : t.reg RS_SC_CTRL = s.reg RS_SC_CTRL) : t.scOn = s.scOn := flag_of_reg h

theorem scOn_logged {p : Port} {o : Nat} {v : Word} : (s.logged p o v).scOn = s.scOn := logged_flag ..

theorem scOn_setReg {o : Nat} (v : Word) (h : RS_SC_CTRL < o) : (s.setReg o v).scOn = s.scOn :=
  scOn_of_reg (reg_setReg_ne _ _ _ _ h.ne)

theorem scOn_setFlag {o : Nat} (f : Fld) (b : Bool) (h : RS_SC_CTRL < o) : (s.setFlag o f b).scOn = s.scOn :=
  scOn_of_reg (reg_setFlag_ne _ _ _ _ _ h.ne)

theorem scOn_inc {o : Nat} (h : RS_SC_CTRL ≠ o) : (s.inc o).scOn = s.scOn := scOn_of_reg (reg_inc_ne _ _ _ h)

theorem scOn_genRaise (n p0 p1 : Nat) : (s.genRaise g n p0 p1).scOn = s.scOn :=
  have below : RS_SC_CTRL < RS_HURDLE_CNT_E 0 := by decide
  have apart : RS_SC_CTRL ≠ RS_GSTAT := by decide
  scOn_of_reg (reg_hurdle below apart 1 g (reg_raise below apart n p0 p1))

theorem lt_genReg {o : Nat} (h : 0x220000 ≤ o) : RS_SC_CTRL < o := Nat.lt_of_lt_of_le (by decide) h

theorem scOn_genStat (f : Fld) (b : Bool) : (s.setFlag (PW_STAT g) f b).scOn = s.scOn :=
  scOn_setFlag f b (lt_genReg (by simp only [PW_STAT]; omega))

theorem scOn_refused : (s.inc (PW_CFG_REFUSED g)).scOn = s.scOn :=
  scOn_inc (lt_genReg (by simp only [PW_CFG_REFUSED]; omega)).ne

theorem scOn_staleFlock : (s.inc (FLK_STALE_CNT (s.fld (PW_MAP g) fPW_MAP_FLOCK))).scOn = s.scOn := by
  have hf : s.fld (PW_MAP g) fPW_MAP_FLOCK < 2 ^ 4 := bitsOf_lt _ _ _
  exact scOn_inc (by simp only [FLK_STALE_CNT, RS_SC_CTRL]; omega)

theorem scOn_dutyReceive (w : DutyWrite) : (s.dutyReceive g w).scOn = s.scOn := by
  unfold State.dutyReceive
  extract_lets src seen s1 s2 s3 s4
  have counted : s1.scOn = s.scOn := (scOn_inc (lt_genReg (by simp only [PW_STALE_CNT]; omega)).ne).trans (scOn_genStat _ true)
  have flock : s2.scOn = s.scOn := by
    unfold s2
    split
    · exact counted
    · exact scOn_staleFlock.trans counted
  have poisoned : s3.scOn = s.scOn := (scOn_inc (lt_genReg (by simp only [PW_POISON_CNT]; omega)).ne).trans (scOn_genStat _ true)
  split
  · split
    · exact flock
    · exact (scOn_genRaise _ _ _).trans flock
  · split
    · exact (scOn_genRaise (s := s3) _ _ _).trans poisoned
    · rfl

theorem scOn_dwGo (src pe inc : Nat) : (s.dwGo g src pe inc).scOn = s.scOn := by
  unfold State.dwGo
  dsimp only
  split
  · exact scOn_refused
  · exact scOn_dutyReceive _

/-- While no pairing is on, an action on a generator reaches no shadow. -/
theorem toGen_unpaired {act : Nat → State → State} (h : (act g s).scOn = false) : s.toGen g act = act g s := by
  simp only [State.toGen, State.shadowOf, h, Bool.false_and, Bool.false_eq_true, if_false]
end

/-! ### Writes of a generator's registers while no pairing is on -/

theorem reg64_logged {s : State} {p : Port} {o : Nat} {v : Word} (l h : Nat) : (s.logged p o v).reg64 l h = s.reg64 l h := by
  simp only [State.reg64, logged_reg]

/-- A master that is no engine sends duty writes of the generator's own incarnation. -/
theorem incOf_own {s : State} {m : Master} (f : Nat) (h : m.pe = none) : s.incOf m f = s.flockInc f := by
  simp only [State.incOf, h, Option.isSome_none, Bool.false_eq_true, if_false]

theorem dutySrc_own {m : Master} (h : m.pe = none) : m.dutySrc = 2 := by
  simp only [Master.dutySrc, h, Option.isSome_none, Bool.false_eq_true, if_false]

theorem dutyPe_own {m : Master} (h : m.pe = none) : m.dutyPe = 0 := by rw [Master.dutyPe, h, Option.getD_none]

section
variable {s : State} {p : Port} {g : Fin 52}

theorem exec_pwCmp (hs : s.scOn = false) {cmp : Fin 4} {data : Word} (h : s.takes p (PW_CMP g cmp) data = true) :
    exec (.pwCmp p g cmp data) s = .next (s.after p (PW_CMP g cmp) data (fun u =>
      u.regDuty g cmp data false 1 0 (s.master p).dutySrc (s.master p).dutyPe
        (u.incOf (s.master p) (u.fld (PW_MAP g) fPW_MAP_FLOCK)))) := by
  obtain ⟨hadm, hword⟩ := takes_iff.mp h
  change regCmd p (PW_CMP g cmp) data s = _
  rw [regCmd_PW_CMP g cmp hadm, hword]
  exact congrArg _ (after_congr (toGen_unpaired ((scOn_dutyReceive _).trans (scOn_logged.trans hs))))

/-! ### PW_DW_CTRL with GO -/

/-- PW_DW_CTRL holds the word without its GO bit. -/
theorem putGo_cleared (v : Word) : fPW_DW_CTRL_GO.put v 1 &&& ~~~(0x80000000#32) = fPW_DW_CTRL_GO.put v 0 := by
  have mask : (~~~(0x80000000#32)).toNat = 2 ^ 31 - 1 := by decide
  have hv := v.isLt
  apply BitVec.eq_of_toNat_eq
  rw [BitVec.toNat_and, mask, Nat.and_two_pow_sub_one_eq_mod, toNat_putGo _ _ rfl rfl, Fld.put, BitVec.toNat_ofNat]
  simp only [withBits, bitsOf, fPW_DW_CTRL_GO]
  omega

theorem bitsOf_putGo_cleared (v : Word) {lo len : Nat} (h : lo + len ≤ 31) :
    bitsOf (fPW_DW_CTRL_GO.put v 0).toNat lo len = bitsOf v.toNat lo len := by
  rw [Fld.put, BitVec.toNat_ofNat, Nat.mod_eq_of_lt (withBits_lt _ _ _ _ _ (by decide) v.isLt)]
  exact bitsOf_withBits_below _ _ _ _ _ _ h

/-- MODE as PW_DW_CTRL keeps it of a word written with GO. -/
theorem dwMode_written (v : Word) :
    (s.setReg (PW_DW_CTRL g) (fPW_DW_CTRL_GO.put v 0)).fld (PW_DW_CTRL g) fPW_DW_CTRL_MODE = bitsOf v.toNat 3 2 := by
  rw [State.fld, reg_setReg_same]
  exact bitsOf_putGo_cleared v (by decide)

theorem exec_pwDwCtrlGo (hs : s.scOn = false) {data : Word} (h : s.takes p (PW_DW_CTRL g) (fPW_DW_CTRL_GO.put data 1) = true) :
    exec (.pwDwCtrlGo p g data) s = .next (s.after p (PW_DW_CTRL g) (fPW_DW_CTRL_GO.put data 1) (fun u =>
      (u.setReg (PW_DW_CTRL g) (fPW_DW_CTRL_GO.put data 0)).dwGo g (s.master p).dutySrc (s.master p).dutyPe
        (u.incOf (s.master p) (u.fld (PW_MAP g) fPW_MAP_FLOCK)))) := by
  obtain ⟨hadm, hword⟩ := takes_iff.mp h
  have go : vbit (fPW_DW_CTRL_GO.put data 1) 31 = true := bitOf_putGo _ _ rfl rfl
  have kept (u : State) : (u.setReg (PW_DW_CTRL g) (fPW_DW_CTRL_GO.put data 0)).scOn = u.scOn :=
    scOn_setReg _ (lt_genReg (by simp only [PW_DW_CTRL]; omega))
  change regCmd p (PW_DW_CTRL g) (fPW_DW_CTRL_GO.put data 1) s = _
  rw [regCmd_PW_DW_CTRL g hadm, hword]
  simp only [go, if_true, putGo_cleared]
  exact congrArg _ (after_congr (toGen_unpaired ((scOn_dwGo _ _ _).trans ((kept _).trans (scOn_logged.trans hs)))))
end

/-! ### A duty write received (R238, R240) -/

section
variable {s : State} {g : Nat} {w : DutyWrite}

/-- A duty write of the unit's own flock incarnation and logical number is left to wait. -/
theorem dutyReceive_waits (hi : w.inc = s.flockInc (s.fld (PW_MAP g) fPW_MAP_FLOCK)) (hl : w.logical = s.fld (PW_MAP g) fPW_MAP_LOGICAL)
    (hv : s.flag (PW_MAP g) fPW_MAP_LVALID = true) (hp : w.poison = false) :
    s.dutyReceive g w = s.setGen g { s.gen g with waiting := (s.gen g).waiting ++ [{ w with rcv := s.fc }] } := by
  simp only [State.dutyReceive, hi, hl, hv, hp, ne_eq, not_true_eq_false, Bool.true_eq_false, or_self, Bool.false_eq_true, if_false]

/-- STALE set and the stale writes counted. -/
def State.staleCounted (s : State) (g : Nat) : State := (s.setFlag (PW_STAT g) fPW_STAT_STALE true).inc (PW_STALE_CNT g)

/-- The flock incarnation of a generator, where neither PW_MAP nor a register of the flocks differs. -/
theorem genInc_congr {t : State} (h : TallySame s t) (hm : t.reg (PW_MAP g) = s.reg (PW_MAP g)) :
    t.flockInc (t.fld (PW_MAP g) fPW_MAP_FLOCK) = s.flockInc (s.fld (PW_MAP g) fPW_MAP_FLOCK) := by
  have hf : s.fld (PW_MAP g) fPW_MAP_FLOCK < 2 ^ 4 := bitsOf_lt _ _ _
  rw [fld_of_reg hm]
  exact h.fld (by simp only [FLK_STAT, RS_GSTAT]; omega) _

theorem genInc_staleCounted :
    (s.staleCounted g).flockInc ((s.staleCounted g).fld (PW_MAP g) fPW_MAP_FLOCK) = s.flockInc (s.fld (PW_MAP g) fPW_MAP_FLOCK) := by
  have same : TallySame s (s.staleCounted g) :=
    (TallySame.setFlag s _ true (by simp only [RS_GSTAT, PW_STAT]; omega)).trans
      (TallySame.inc _ (by simp only [RS_GSTAT, PW_STALE_CNT]; omega))
  exact genInc_congr same ((reg_inc_ne _ _ _ (by simp only [PW_MAP, PW_STALE_CNT]; omega)).trans
    (reg_setFlag_ne _ _ _ _ _ (by simp only [PW_MAP, PW_STAT]; omega)))

/-- PW_DW_CTRL with MODE 2 sends the value and the apply-time of PW_DW_VAL and PW_DW_TIME. -/
theorem dwGo_absolute {v : State} {x : Word} (hx : v = s.setReg (PW_DW_CTRL g) x) (hm : v.fld (PW_DW_CTRL g) fPW_DW_CTRL_MODE = 2)
    (hv : s.flag (PW_MAP g) fPW_MAP_LVALID = true) :
    v.dwGo g 2 0 (s.flockInc (s.fld (PW_MAP g) fPW_MAP_FLOCK)) = v.setGen g { v.gen g with waiting := (v.gen g).waiting ++
      [{ cmp := v.fld (PW_DW_CTRL g) fPW_DW_CTRL_CMP, value := s.reg (PW_DW_VAL g), fmt1 := v.flag (PW_DW_CTRL g) fPW_DW_CTRL_FMT,
         mode := 2, time := s.reg64 (PW_DW_TIME_LO g) (PW_DW_TIME_HI g), inc := s.flockInc (s.fld (PW_MAP g) fPW_MAP_FLOCK),
         logical := s.fld (PW_MAP g) fPW_MAP_LOGICAL, stamp := s.now, src := 2, pe := 0, rcv := s.fc }] } := by
  have same : TallySame s v := hx ▸ TallySame.setReg s x (by simp only [RS_GSTAT, PW_DW_CTRL]; omega)
  have kept {o : Nat} (ho : o ≠ PW_DW_CTRL g) : v.reg o = s.reg o := hx ▸ reg_setReg_ne s _ _ x ho
  have map : v.reg (PW_MAP g) = s.reg (PW_MAP g) := kept (by simp only [PW_MAP, PW_DW_CTRL]; omega)
  have value : v.reg (PW_DW_VAL g) = s.reg (PW_DW_VAL g) := kept (by simp only [PW_DW_VAL, PW_DW_CTRL]; omega)
  have time : v.reg64 (PW_DW_TIME_LO g) (PW_DW_TIME_HI g) = s.reg64 (PW_DW_TIME_LO g) (PW_DW_TIME_HI g) := by
    rw [State.reg64, State.reg64, kept (o := PW_DW_TIME_LO g) (by simp only [PW_DW_TIME_LO, PW_DW_CTRL]; omega),
      kept (o := PW_DW_TIME_HI g) (by simp only [PW_DW_TIME_HI, PW_DW_CTRL]; omega)]
  have fc : v.fc = s.fc := hx ▸ setReg_fc s _ x
  unfold State.dwGo State.regDuty
  rw [hm, if_neg (by decide), dutyReceive_waits (genInc_congr same map).symm rfl ((flag_of_reg map).trans hv) rfl, value, time,
    fld_of_reg map, same.now, fc]

/-- The first stale duty write, of the present incarnation to a generator without LVALID, is counted and raises EV(528 + 2g). -/
theorem dutyReceive_firstStale (hi : w.inc = s.flockInc (s.fld (PW_MAP g) fPW_MAP_FLOCK)) (hv : s.flag (PW_MAP g) fPW_MAP_LVALID = false)
    (hs : s.flag (PW_STAT g) fPW_STAT_STALE = false) :
    s.dutyReceive g w = (s.staleCounted g).genRaise g (528 + 2 * g) (4 + (State.genPayload 0 w.cmp w.src w.logical w.pe).1)
      (State.genPayload 0 w.cmp w.src w.logical w.pe).2 := by
  have same : w.inc = (s.staleCounted g).flockInc ((s.staleCounted g).fld (PW_MAP g) fPW_MAP_FLOCK) := hi.trans genInc_staleCounted.symm
  unfold State.dutyReceive
  rw [if_pos (Or.inr (Or.inr hv))]
  change (if s.flag (PW_STAT g) fPW_STAT_STALE = true then _ else State.genRaise
    (if w.inc = (s.staleCounted g).flockInc ((s.staleCounted g).fld (PW_MAP g) fPW_MAP_FLOCK) then s.staleCounted g else _) g _ _ _) = _
  rw [hs, if_neg Bool.false_ne_true, if_pos same]

/-! ### A duty write accepted (R239, R243 to R245) -/

/-- The oldest waiting write is taken, counted and stamped; `t` still waits. -/
def State.dutyTaken (s : State) (g : Nat) (w : DutyWrite) (t : List DutyWrite) : State :=
  State.setReg64 ((s.setGen g { s.gen g with waiting := t, accepted := s.fc + 1 }).inc (PW_ACCEPT_CNT g))
    (PW_LAST_STAMP_LO g) (PW_LAST_STAMP_HI g) w.stamp

theorem dutyAccept_empty (h : (s.gen g).waiting = []) : s.dutyAccept g = s := by
  simp only [State.dutyAccept, h]

section
variable {t : List DutyWrite}

/-- A write received in an earlier fc with a compare value is applied under its mode. -/
theorem dutyAccept_oldest (h : (s.gen g).waiting = w :: t) (hr : w.rcv < s.fc) (ha : (s.gen g).accepted ≠ s.fc + 1)
    (hf : w.fmt1 = false) : s.dutyAccept g = (s.dutyTaken g w t).dutyApply g w w.value := by
  simp only [State.dutyAccept, h, hr, ha, ne_eq, not_false_eq_true, and_self, if_true, State.dutyValue, hf, Bool.false_eq_true, if_false,
    State.dutyTaken]

theorem tallySame_dutyTaken : TallySame s (s.dutyTaken g w t) := by
  have taken : TallySame s (s.setGen g { s.gen g with waiting := t, accepted := s.fc + 1 }) := ⟨rfl, rfl, rfl, fun _ _ => rfl⟩
  refine (taken.trans (TallySame.inc _ ?_)).trans (TallySame.setReg64 _ _ ?_ ?_)
  · simp only [RS_GSTAT, PW_ACCEPT_CNT]; omega
  · simp only [RS_GSTAT, PW_LAST_STAMP_LO]; omega
  · simp only [RS_GSTAT, PW_LAST_STAMP_HI]; omega

theorem reg_dutyTaken_stat : (s.dutyTaken g w t).reg (PW_STAT g) = s.reg (PW_STAT g) := by
  refine ((reg_setReg_ne _ _ _ _ ?_).trans (reg_setReg_ne _ _ _ _ ?_)).trans (reg_inc_ne _ _ _ ?_)
  · simp only [PW_STAT, PW_LAST_STAMP_HI]; omega
  · simp only [PW_STAT, PW_LAST_STAMP_LO]; omega
  · simp only [PW_STAT, PW_ACCEPT_CNT]; omega
end

theorem dutyApply_immediate {v : Word} (hm : w.mode = 0) : s.dutyApply g w v = (
    let u := s.shadowWrite g w v false
    u.setGen g { u.gen g with transfers := (u.gen g).transfers ++ [⟨u.fc + 2, w.cmp, v⟩] }) := if_pos hm

theorem dutyApply_nextReload {v : Word} (hm : w.mode = 1) : s.dutyApply g w v = s.shadowWrite g w v true := by
  simp only [State.dutyApply, hm, Nat.one_ne_zero, if_false, if_true]

/-- An apply-time to come waits in its slot, where none waits yet. -/
theorem dutyApply_waits {v : Word} (hm : w.mode = 2) (hr : reached w.time s.now = false)
    (ht : bitOf (s.fld (PW_STAT g) fPW_STAT_TPEND) w.cmp = false) :
    s.dutyApply g w v = State.setReg64
      ((s.setFld (PW_STAT g) fPW_STAT_TPEND (s.fld (PW_STAT g) fPW_STAT_TPEND ||| 2 ^ w.cmp)).setReg (PW_TPEND_VAL g w.cmp) v)
      (PW_TPEND_TIME_LO g w.cmp) (PW_TPEND_TIME_HI g w.cmp) w.time := by
  simp only [State.dutyApply, hm, hr, ht, Nat.reduceEqDiff, Bool.false_eq_true, if_false]

/-! ### A pending slot whose apply-time is reached (R245, R246) -/

theorem timedTransfer_reached {i : Nat} (ht : bitOf (s.fld (PW_STAT g) fPW_STAT_TPEND) i = true)
    (hr : reached (s.reg64 (PW_TPEND_TIME_LO g i) (PW_TPEND_TIME_HI g i)) s.now = true) (ho : ((s.gen g).cmpOf i).oldFc ≠ s.fc + 1) :
    s.timedTransfer g i = (
      let v := s.reg (PW_TPEND_VAL g i)
      let u := s.setReg (PW_CMP g i) v
      let u := State.setGenCmp u g i { (s.gen g).cmpOf i with timed := s.fc + 1 }
      let u := State.setGen u g { u.gen g with transfers := (u.gen g).transfers ++ [⟨s.fc, i, v⟩] }
      u.setFld (PW_STAT g) fPW_STAT_TPEND (s.fld (PW_STAT g) fPW_STAT_TPEND - 2 ^ i)) := by
  simp only [State.timedTransfer, ht, hr, Bool.and_self, if_true, if_neg ho]
  rfl

theorem timedTransfer_idle {i : Nat} (ht : bitOf (s.fld (PW_STAT g) fPW_STAT_TPEND) i = false) : s.timedTransfer g i = s := by
  simp only [State.timedTransfer, ht, Bool.false_and, Bool.false_eq_true, if_false]
end

/-! ### The two events as the fast domain runs them -/

/-- An event of the fast domain that would change nothing. -/
theorem fastEvent_idle {s : State} {f : State → State} (h : f s = s) : fastEvent f s = .next s := by
  rw [fastEvent, h, ite_self]

section
variable {s : State} {g : Fin 52}

theorem exec_dutyWriteAccept (h : s.live = true) : exec (.dutyWriteAccept g) s = .next (s.dutyAccept g) :=
  show execDutyWriteAccept g s = _ from fastEvent_live h

theorem exec_timedTransfer {cmp : Fin 4} (h : s.live = true) : exec (.timedTransfer g cmp) s = .next (s.timedTransfer g cmp) :=
  show execTimedTransfer g cmp s = _ from fastEvent_live h
end

/-! ### The crossbar (R235) -/

section
variable {s : State} {m : Fin 96}

theorem exec_xbarWrite {p : Port} {data : Word} (h : s.takes p (PW_XBAR m) data = true) :
    exec (.xbarWrite p m data) s = .next (s.after p (PW_XBAR m) data (fun u => u.xbarWrite (PW_XBAR m) m data)) := by
  obtain ⟨hadm, hword⟩ := takes_iff.mp h
  have whole : data &&& ~~~(0x0#32) = data := by simp only [BitVec.not_zero, BitVec.and_allOnes]
  change regCmd p (PW_XBAR m) data s = _
  rw [regCmd_PW_XBAR m hadm, hword, whole]

/-- The first crossbar entry written in an fc keeps what the fc found. -/
theorem xbarWrite_first {off n : Nat} {v : Word} (h : s.xbarOld = []) :
    s.xbarWrite off n v = { s with xbarOld := [(n, s.reg (PW_XBAR n))] }.setReg off v := by
  simp only [State.xbarWrite, h, List.any_nil, Bool.false_eq_true, if_false, List.nil_append]

theorem xbarShown_written {w : Word} (h : s.xbarOld = [(m.val, w)]) : s.xbarShown m = w.toNat := by
  simp only [State.xbarShown, h, List.find?_cons, beq_self_eq_true]

theorem xbarShown_unwritten (h : s.xbarOld = []) : s.xbarShown m = s.nat (PW_XBAR m) := by
  simp only [State.xbarShown, h, List.find?_nil]
end

/-! ### A stop while the table lists a generator twice -/

/-- A running block whose table of generators is not in canonical form: it lists generator 4 twice, first with a start still due. -/
def listedTwice : State :=
  { State.reset with pw := { mode := .graze, fast := true }, gens := [(4, { startAt := some 0 }), (4, {})] }

/-- The table of generators in the state that an outcome leaves. -/
def gensOf : Out → List (Nat × Gen)
  | .next t => t.gens
  | _ => []

/-- What the clause on STOP lets the write do: one store that cancels the start and sets the stop. -/
def stoppedOnce : State := listedTwice.after .shepherd (PW_CTRL 4) 3 (fun u =>
  (u.setFlag (PW_STAT 4) fPW_STAT_TSTART false).setGen 4
    { u.gen 4 with startAt := none, groupStart := false, stopAt := some listedTwice.fc })

theorem takes_listedTwice : listedTwice.takes .shepherd (PW_CTRL 4) 3 = true := by decide +kernel

theorem scOn_listedTwice : listedTwice.scOn = false := by decide +kernel

/-- The start is cancelled first: generator 4 is then as reset, which takes every entry of it from the table. -/
theorem gensOf_stop_listedTwice : (gensOf (exec (.generatorStop .shepherd 4) listedTwice)).length = 1 := by decide +kernel

/-- One store leaves the second entry. -/
theorem gensOf_stoppedOnce : (gensOf (.next stoppedOnce)).length = 2 := by decide +kernel

/-! ### The obligations -/

/-- Settles O29: a written duty value is a duty write received (`exec_pwCmp`, `exec_pwDwCtrlGo`), which waits or is stale; the oldest
one is taken and applied under its mode (`dutyAccept_oldest`); a slot and a crossbar entry by their one case. -/
theorem dutyWrites : Obligations.DutyWrites := by
  unfold Obligations.DutyWrites
  refine ⟨?cmp, ?stale, ?goRefused, ?go, ?nextReload, ?immediate, ?slot, ?empty, ?reached, ?idle, ?xbar, ?shown, ?unwritten⟩
  case cmp =>
    intro p g cmp data s h hpe hs hv
    rw [exec_pwCmp hs h]
    refine congrArg _ (after_congr ?_)
    dsimp only
    rw [incOf_own _ hpe, dutySrc_own hpe, dutyPe_own hpe, State.regDuty,
      dutyReceive_waits rfl rfl ((logged_flag ..).trans hv) rfl]
    simp only [State.flockInc, logged_fld, logged_now, logged_fc]
  case stale =>
    intro p g cmp data s h hpe hs hv hst
    rw [exec_pwCmp hs h]
    refine congrArg _ (after_congr ?_)
    dsimp only
    rw [incOf_own _ hpe, dutySrc_own hpe, dutyPe_own hpe, State.regDuty,
      dutyReceive_firstStale rfl ((logged_flag ..).trans hv) ((logged_flag ..).trans hst)]
    simp only [State.genPayload, logged_fld, Nat.zero_add, Nat.reduceMul]
    rfl
  case goRefused =>
    intro p g data s h hs hm
    rw [exec_pwDwCtrlGo hs h]
    refine congrArg _ (after_congr ?_)
    exact if_pos ((dwMode_written data).trans hm)
  case go =>
    intro p g data s h hs hpe hv hm
    rw [exec_pwDwCtrlGo hs h]
    refine congrArg _ (after_congr ?_)
    dsimp only
    rw [incOf_own _ hpe, dutySrc_own hpe, dutyPe_own hpe, dwGo_absolute rfl ((dwMode_written data).trans hm) ((logged_flag ..).trans hv)]
    simp only [State.flockInc, logged_fld, logged_now, logged_fc, logged_reg, reg64_logged]
  case nextReload =>
    intro g w t s hl hw hr ha hf hm
    rw [exec_dutyWriteAccept hl]
    exact congrArg _ <| (dutyAccept_oldest hw hr ha hf).trans (dutyApply_nextReload hm)
  case immediate =>
    intro g w t s hl hw hr ha hf hm
    rw [exec_dutyWriteAccept hl]
    exact congrArg _ <| (dutyAccept_oldest hw hr ha hf).trans (dutyApply_immediate hm)
  case slot =>
    intro g w t s hl hw hr ha hf hm _ hn ht
    have stat : (s.dutyTaken g w t).fld (PW_STAT g) fPW_STAT_TPEND = s.fld (PW_STAT g) fPW_STAT_TPEND := fld_of_reg reg_dutyTaken_stat
    rw [exec_dutyWriteAccept hl, dutyAccept_oldest hw hr ha hf,
      dutyApply_waits hm (by rw [tallySame_dutyTaken.now, hn]) (by rw [stat, ht]), stat]
    rfl
  case empty =>
    intro g s _ hw
    exact show execDutyWriteAccept g s = _ from fastEvent_idle (dutyAccept_empty hw)
  case reached =>
    intro g cmp s hl ht hr ho
    rw [exec_timedTransfer hl]
    exact congrArg _ (timedTransfer_reached ht hr ho)
  case idle =>
    intro g cmp s ht
    exact show execTimedTransfer g cmp s = _ from fastEvent_idle (timedTransfer_idle ht)
  case xbar =>
    intro p m data s h hx
    rw [exec_xbarWrite h]
    refine congrArg _ (after_congr ?_)
    rw [xbarWrite_first ((logged_xbarOld ..).trans hx), logged_reg]
  case shown => exact fun m w s h => xbarShown_written h
  case unwritten => exact fun m s h => xbarShown_unwritten h

/-- Refutes O30: STOP cancels the start in one store and sets the stop in a second, and a store of the reset values takes a generator
from the table. The clause on STOP makes one store and does not ask for a table in canonical form: in `listedTwice` the two
differ in the entries of generator 4 that are left. -/
theorem not_generatorStartAndStop : ¬ Obligations.GeneratorStartAndStop := by
  unfold Obligations.GeneratorStartAndStop
  rintro ⟨-, -, -, -, -, -, -, stop, -⟩
  have h : exec (.generatorStop .shepherd 4) listedTwice = .next stoppedOnce :=
    stop .shepherd 4 listedTwice takes_listedTwice scOn_listedTwice
  have entries := gensOf_stop_listedTwice
  rw [h, gensOf_stoppedOnce] at entries
  exact absurd entries (by decide)

end Sys2Proof.Machine
end

section
/-!
Proofs about the gated timers: the evaluation of a compare, the edges and captures of a source line, software captures, a write of a
compare, and the gate of a count (09_gated_timers.md R259 to R264, R268).
-/

namespace Sys2Proof.Machine

/-! ### What a raise leaves of the unit registers (R76, R348, R461)

The registers of the units stand above the Hurdle counters of the reserve and below the engines, which are all that a raise writes. -/

theorem engine_lt_of_mem {s : State} {x : Nat × Nat} (h : x ∈ s.listedTasks) : x.1 < 72 := by
  obtain ⟨e, -, he⟩ := List.mem_filterMap.mp h
  unfold taskAt at he
  split at he
  · cases he
  · extract_lets c d at he
    split at he
    · cases he
    · split at he
      · cases he
        dsimp only
        omega
      · cases he

section
variable {s : State} {o : Nat} (lo : 0x62000 ≤ o) (hi : o < 0x400000)
include lo

theorem reg_hurdleCount_unit {k i : Nat} (hk : k < 5) (h72 : i < 72) : (s.hurdleCount k i).reg o = s.reg o := by
  unfold State.hurdleCount
  extract_lets s1 s2
  have counted : s1.reg o = s.reg o := reg_inc_ne _ _ _ (by simp only [hurdleCnt, RS_HURDLE_CNT_E]; omega)
  split
  · exact counted
  · have seen : s2.reg o = s1.reg o := reg_setFlag_ne _ _ _ _ _ (by simp only [RS_GSTAT]; omega)
    have journalled (u : State) : ((u.raiseLater 914 0 0).record 914 0x74 k i (u.unitInc k i) 0).reg o = u.reg o := rfl
    exact (journalled s2).trans (seen.trans counted)

/-- An action that leaves a register alone leaves it alone behind its Hurdle. -/
theorem reg_hurdle_unit {k i : Nat} (hk : k < 5) (h72 : i < 72) {act : State → State} (h : (act s).reg o = s.reg o) :
    (s.hurdle k i act).reg o = s.reg o := by
  unfold State.hurdle
  split
  · rfl
  · split
    · exact reg_hurdleCount_unit lo hk h72
    · exact h

include hi

theorem reg_overrun_unit {p : Nat} (hp : p < 72) (k : Nat) : (s.overrun p k).reg o = s.reg o := by
  unfold State.overrun
  extract_lets s1
  have counted : s1.reg o = s.reg o :=
    (reg_inc_ne _ _ _ (by simp only [LE_OVR_CNT]; omega)).trans (reg_setFlag_ne _ _ _ _ _ (by simp only [LE_TASK_STAT]; omega))
  exact (reg_hurdle_unit (act := fun u => u.raiseLater (66 + 4 * p) 0 0) lo (by omega) hp (reg_raiseLater s1 _ 0 0 o)).trans counted

theorem reg_fireEdge_unit {p : Nat} (hp : p < 72) (k : Nat) (st : Stamp) : (s.fireEdge p k st).reg o = s.reg o := by
  unfold State.fireEdge
  split
  case h_1 =>
    have state : (s.setSlotState p k 2).reg o = s.reg o := reg_setFld_ne _ _ _ _ _ (by simp only [LE_TASK_STAT]; omega)
    have slot (u : State) (x : Slot) : (u.setSlot p k x).reg o = u.reg o := rfl
    exact (slot _ _).trans state
  case h_2 => exact reg_overrun_unit lo hi hp k
  case h_3 | h_4 =>
    split
    · rfl
    · exact reg_overrun_unit lo hi hp k
  case h_5 => exact reg_overrun_unit lo hi hp k
  case h_6 => rfl

theorem reg_raiseAt_unit (n : Nat) (st : Stamp) (p0 p1 : Nat) : (s.raiseAt n st p0 p1).reg o = s.reg o :=
  List.foldlRecOn (motive := fun t : State => t.reg o = s.reg o) _ _ rfl (fun _ ht _ hx =>
    (reg_fireEdge_unit lo hi (engine_lt_of_mem (List.mem_of_mem_filter hx)) _ st).trans ht)

theorem reg_raiseNamed_unit (n : Nat) (named : List Nat) : (s.raiseNamed n named).reg o = s.reg o := by
  unfold State.raiseNamed State.raiseNamedAt State.raiseLive
  dsimp only
  split
  · exact reg_raiseAt_unit lo hi n _ _ _
  · rfl
end

/-! ### Compares (R260, R261, R268) -/

section
variable {s : State} {t i : Nat}

/-- The fc in which the compare matched is noted. -/
def State.matchNoted (s : State) (t i : Nat) : State := s.setTimCmp t i { s.timCmp t i with matchFc := s.fc + 1 }

/-- A reached compare that was not written in this fc matches once in it. -/
theorem timMatch_reached (hr : s.timRun t = true) (ha : s.timArmed t i = true)
    (hc : cmpReached (s.reg (TM_CNT t)) (s.reg (TM_CMP t i)) = true) (hw : (s.timCmp t i).wrFc ≠ s.fc + 1)
    (hm : (s.timCmp t i).matchFc ≠ s.fc + 1) :
    s.timMatch t i = ((s.matchNoted t i).matchRecord t i).matchStep t i := by
  simp only [State.timMatch, State.matchNoted, hw, hr, ha, hc, bne_iff_ne.mpr hm, Bool.and_self, if_true, if_false]

/-- No compare of a stopped timer matches, and no unarmed one. -/
theorem timMatch_idle (h : s.timRun t = false ∨ s.timArmed t i = false) (hw : (s.timCmp t i).wrFc ≠ s.fc + 1) : s.timMatch t i = s := by
  rcases h with h | h <;>
    simp only [State.timMatch, hw, h, if_false, Bool.false_and, Bool.and_false, Bool.false_eq_true]

/-- MATCH set, the match stamped and counted. -/
def State.matchMarked (s : State) (t i : Nat) : State :=
  State.inc ((s.setFlag (TM_STAT t) ⟨fTM_STAT_MATCH.lo + i, 1⟩ true).setReg64 (TM_MATCH_STAMP_LO t i) (TM_MATCH_STAMP_HI t i) s.now)
    (TM_MATCH_CNT t)

/-- Below the match stamps of its timer a match writes TM_STAT only. -/
theorem reg_matchMarked_below {o : Nat} (h : o < TM_MATCH_STAMP_LO t 0) :
    (s.matchMarked t i).reg o = (s.setFlag (TM_STAT t) ⟨fTM_STAT_MATCH.lo + i, 1⟩ true).reg o := by
  simp only [TM_MATCH_STAMP_LO] at h
  refine (reg_inc_ne _ _ _ ?_).trans ((reg_setReg_ne _ _ _ _ ?_).trans (reg_setReg_ne _ _ _ _ ?_))
  · simp only [TM_MATCH_CNT]; omega
  · simp only [TM_MATCH_STAMP_HI]; omega
  · simp only [TM_MATCH_STAMP_LO]; omega

theorem reg_matchMarked {o : Nat} (h : o < TM_MATCH_STAMP_LO t 0) (hs : o ≠ TM_STAT t) : (s.matchMarked t i).reg o = s.reg o :=
  (reg_matchMarked_below h).trans (reg_setFlag_ne _ _ _ _ _ hs)

theorem reg_matchMarked_step (hi : i < 4) : (s.matchMarked t i).reg (TM_CMP_STEP t i) = s.reg (TM_CMP_STEP t i) :=
  reg_matchMarked (by simp only [TM_CMP_STEP, TM_MATCH_STAMP_LO]; omega) (by simp only [TM_CMP_STEP, TM_STAT]; omega)

theorem reg_matchMarked_cmp (hi : i < 4) : (s.matchMarked t i).reg (TM_CMP t i) = s.reg (TM_CMP t i) :=
  reg_matchMarked (by simp only [TM_CMP, TM_MATCH_STAMP_LO]; omega) (by simp only [TM_CMP, TM_STAT]; omega)

/-- MATCH stands above SLOW in TM_STAT. -/
theorem timSlow_matchMarked (hi : i < 4) : (s.matchMarked t i).timSlow t = s.timSlow t := by
  have marked : (s.matchMarked t i).reg (TM_STAT t) = (s.setFlag (TM_STAT t) ⟨fTM_STAT_MATCH.lo + i, 1⟩ true).reg (TM_STAT t) :=
    reg_matchMarked_below (by simp only [TM_STAT, TM_MATCH_STAMP_LO]; omega)
  have inReg : fTM_STAT_MATCH.lo + i + 1 ≤ 32 := by simp only [fTM_STAT_MATCH]; omega
  have below : fTM_STAT_SLOW.lo + fTM_STAT_SLOW.len ≤ fTM_STAT_MATCH.lo + i := by simp only [fTM_STAT_SLOW, fTM_STAT_MATCH]; omega
  exact (flag_of_reg marked).trans (flag_setFlag_other s (TM_STAT t) ⟨_, 1⟩ fTM_STAT_SLOW true inReg (Or.inl below))

/-- A match in a fast fc that drives no SOC output and raises no event. -/
theorem matchRecord_silent (hi : i < 4) (hs : s.timSlow t = false) (hv : s.flag (TM_MAP t) fTM_MAP_LVALID = false)
    (he : bitOf (s.fld (TM_CMP_CFG t) fTM_CMP_CFG_EVEN) i = false) : s.matchRecord t i = s.matchMarked t i := by
  have slow : (s.matchMarked t i).timSlow t = false := (timSlow_matchMarked hi).trans hs
  have map : (s.matchMarked t i).reg (TM_MAP t) = s.reg (TM_MAP t) :=
    reg_matchMarked (by simp only [TM_MAP, TM_MATCH_STAMP_LO]; omega) (by simp only [TM_MAP, TM_STAT]; omega)
  have cfg : (s.matchMarked t i).reg (TM_CMP_CFG t) = s.reg (TM_CMP_CFG t) :=
    reg_matchMarked (by simp only [TM_CMP_CFG, TM_MATCH_STAMP_LO]; omega) (by simp only [TM_CMP_CFG, TM_STAT]; omega)
  have now : (s.setFlag (TM_STAT t) ⟨fTM_STAT_MATCH.lo + i, 1⟩ true).now = s.now :=
    (TallySame.setFlag s _ true (by simp only [RS_GSTAT, TM_STAT]; omega)).now
  unfold State.matchRecord
  extract_lets s1 s2 s3 s4
  have marked : s2.inc (TM_MATCH_CNT t) = s.matchMarked t i := by
    simp only [s2, s1, now, State.matchMarked]
  have soc : s3 = s.matchMarked t i := by
    simp only [s3, marked, State.timSoc, flag_of_reg map, hv, Bool.false_eq_true, if_false]
  have event : s4 = s.matchMarked t i := by
    simp only [s4, soc, fld_of_reg cfg, he, Bool.false_eq_true, if_false]
  rw [event, slow, Bool.false_and, if_neg Bool.false_ne_true]

/-- What a match without SOC output and event leaves before its STEP. -/
theorem timMatch_silent (hi : i < 4) (hr : s.timRun t = true) (hs : s.timSlow t = false) (ha : s.timArmed t i = true)
    (hc : cmpReached (s.reg (TM_CNT t)) (s.reg (TM_CMP t i)) = true) (hw : (s.timCmp t i).wrFc ≠ s.fc + 1)
    (hm : (s.timCmp t i).matchFc ≠ s.fc + 1) (hv : s.flag (TM_MAP t) fTM_MAP_LVALID = false)
    (he : bitOf (s.fld (TM_CMP_CFG t) fTM_CMP_CFG_EVEN) i = false) :
    s.timMatch t i = ((s.matchNoted t i).matchMarked t i).matchStep t i := by
  rw [timMatch_reached hr ha hc hw hm, matchRecord_silent (s := s.matchNoted t i) hi hs hv he]

theorem matchStep_disarms (h : s.reg (TM_CMP_STEP t i) = 0) : s.matchStep t i = s.setTimArmed t i false := if_pos h

theorem matchStep_advances (h : s.reg (TM_CMP_STEP t i) ≠ 0) :
    s.matchStep t i = s.setReg (TM_CMP t i) (s.reg (TM_CMP t i) + s.reg (TM_CMP_STEP t i)) := if_neg h

/-- The first write of a compare in an fc keeps what the evaluation of that fc sees (R268). -/
theorem tmCmpWrite_first {v : Word} (h : (s.timCmp t i).wrFc ≠ s.fc + 1) : s.tmCmpWrite t i v =
    ((s.setTimCmp t i { s.timCmp t i with wrFc := s.fc + 1, oldVal := s.reg (TM_CMP t i), oldArmed := s.timArmed t i }).setReg
      (TM_CMP t i) v).setTimArmed t i true := by
  rw [State.tmCmpWrite, if_neg h]
end

/-! ### Lines and captures (R262, R264) -/

section
variable {s : State}

theorem lineKey_kind {kind idx : Nat} (h : idx < 256) : lineKey kind idx / 256 = kind := by
  rw [lineKey]
  omega

theorem lineKey_idx {kind idx : Nat} (h : idx < 256) : lineKey kind idx % 256 = idx := by
  rw [lineKey]
  omega

/-- A change at an empty line of a TRIP pin registers 3 fc later. -/
theorem lineSet_trip {idx : Nat} {level : Bool} {cap : Option Stamp} (hc : cap.isSome = true ∨ level ≠ (s.line (lineKey 2 idx)).level)
    (hs : s.flag TB_STAT fTB_STAT_SRC = true) (hq : (s.line (lineKey 2 idx)).queue = []) :
    s.lineSet 2 idx level cap = s.setLine (lineKey 2 idx) { s.line (lineKey 2 idx) with queue := [⟨s.fc + 3, level, cap⟩] } := by
  have raw : (s.line (lineKey 2 idx)).raw = (s.line (lineKey 2 idx)).level := by rw [Line.raw, hq, List.getLast?_nil]
  have change : (cap.isSome || level != (s.line (lineKey 2 idx)).level) = true := by
    rw [Bool.or_eq_true, bne_iff_ne]
    exact hc
  simp only [State.lineSet, raw, change, hs, hq, Bool.not_true, Bool.false_eq_true, if_false, List.getLast?_nil, lineLatency,
    Nat.reduceEqDiff]

variable {t j : Nat}

theorem capLine_trip {idx : Nat} (hk : s.fld (TM_CAP_CFG t j) fTM_CAP_CFG_KIND = 2) (hx : s.fld (TM_CAP_CFG t j) fTM_CAP_CFG_IDX = idx)
    (h : idx < 64) : s.capLine t j = some (lineKey 2 idx) := by
  have ok : gateIndexOk 2 idx = true := decide_eq_true h
  simp only [State.capLine, hk, hx, ok, Nat.one_le_ofNat, Nat.reduceLeDiff, and_self, if_true]

theorem capLine_noTrip (hk : s.fld (TM_CAP_CFG t j) fTM_CAP_CFG_KIND = 2) (h : 64 ≤ s.fld (TM_CAP_CFG t j) fTM_CAP_CFG_IDX) :
    s.capLine t j = none := by
  have no : gateIndexOk 2 (s.fld (TM_CAP_CFG t j) fTM_CAP_CFG_IDX) = false := decide_eq_false (Nat.not_lt.mpr h)
  simp only [State.capLine, hk, no, Bool.false_eq_true, and_false, if_false]

/-- An edge of a TRIP pin that no injection holds reaches its line with its edge stamp. -/
theorem captureEdge_trip {idx k : Nat} {rising : Bool} (hl : s.capLine t j = some (lineKey 2 idx)) (h : idx < 64)
    (hi : (s.tripIn idx).inj = none) : s.captureEdge t j k rising = s.lineSet 2 idx rising (some (s.edgeStamp k)) := by
  have wide : idx < 256 := by omega
  simp only [State.captureEdge, hl, lineKey_kind wide, lineKey_idx wide, hi, Option.isSome_none, Bool.false_eq_true, and_false, if_false]

theorem captureEdge_noLine {k : Nat} {rising : Bool} (h : s.capLine t j = none) : s.captureEdge t j k rising = s := by
  simp only [State.captureEdge, h]

theorem captureOf_selected {key due : Nat} {level : Bool} {st : Stamp} (hl : s.capLine t j = some key)
    (he : bitOf (s.fld (TM_CAP_CFG t j) fTM_CAP_CFG_EDGE) (if level then 0 else 1) = true) :
    s.captureOf t j (key, ⟨due, level, some st⟩) = s.capture t j (if key / 256 = 2 ∨ key / 256 = 4 then st else s.now) :=
  if_pos ⟨hl, he⟩

/-- A change that is no edge for captures, of another line, or of a sense that is not selected. -/
theorem captureOf_unselected {key due : Nat} {level : Bool} {cap : Option Stamp} (h : s.capLine t j ≠ some key ∨ cap = none
    ∨ bitOf (s.fld (TM_CAP_CFG t j) fTM_CAP_CFG_EDGE) (if level then 0 else 1) = false) :
    s.captureOf t j (key, ⟨due, level, cap⟩) = s := by
  cases cap with
  | none => rfl
  | some st =>
    refine if_neg ?_
    rintro ⟨hl, he⟩
    rcases h with h | h | h
    · exact h hl
    · cases h
    · exact Bool.false_ne_true (h.symm.trans he)

/-- Between two CLK_SLOW edges the source of a capture of rising edges rises (R264). -/
theorem captureSlow_rising {key : Nat} (hl : s.capLine t j = some key) (he : s.fld (TM_CAP_CFG t j) fTM_CAP_CFG_EDGE = 1)
    (hp : (s.line key).prev = false) (hr : (s.line key).raw = true) : s.captureSlow t j = s.capture t j s.now := by
  simp only [State.captureSlow, hl, he, hp, hr, Bool.not_false, Bool.and_self, and_self, true_or, if_true]

/-- A capture writes the configuration of neither capture of its timer. -/
theorem reg_capture_cfg (ht : t < 36) (hj : j < 2) {i : Nat} (hi : i < 2) (st : Stamp) :
    (s.capture t j st).reg (TM_CAP_CFG t i) = s.reg (TM_CAP_CFG t i) := by
  unfold State.capture
  extract_lets full s1 s2 s3
  have stat : TM_CAP_CFG t i ≠ TM_STAT t := by simp only [TM_CAP_CFG, TM_STAT]; omega
  have loaded : s1.reg (TM_CAP_CFG t i) = s.reg (TM_CAP_CFG t i) := by
    refine (reg_setReg_ne _ _ _ _ ?_).trans ((reg_setReg_ne _ _ _ _ ?_).trans (reg_setReg_ne _ _ _ _ ?_))
    · simp only [TM_CAP_CFG, TM_CAP_STAMP_HI]; omega
    · simp only [TM_CAP_CFG, TM_CAP_STAMP_LO]; omega
    · simp only [TM_CAP_CFG, TM_CAP_VAL]; omega
  have marked : s2.reg (TM_CAP_CFG t i) = s.reg (TM_CAP_CFG t i) := (reg_setFlag_ne _ _ _ _ _ stat).trans loaded
  have counted : s3.reg (TM_CAP_CFG t i) = s.reg (TM_CAP_CFG t i) := by
    unfold s3
    split
    · exact ((reg_inc_ne _ _ _ (by simp only [TM_CAP_CFG, TM_CAP_OVR_CNT]; omega)).trans (reg_setFlag_ne _ _ _ _ _ stat)).trans marked
    · exact marked
  have lo : 0x62000 ≤ TM_CAP_CFG t i := by simp only [TM_CAP_CFG]; omega
  have hi : TM_CAP_CFG t i < 0x400000 := by simp only [TM_CAP_CFG]; omega
  exact (reg_hurdle_unit lo (by decide) (by omega) (reg_raiseNamed_unit lo hi _ _)).trans counted

/-- A write of TM_CAP_SW while only capture 0 is of KIND 5. -/
theorem capSw_first (ht : t < 36) (h0 : s.fld (TM_CAP_CFG t 0) fTM_CAP_CFG_KIND = 5)
    (h1 : s.fld (TM_CAP_CFG t 1) fTM_CAP_CFG_KIND ≠ 5) (v : Nat) :
    s.capSw t v = if v % 2 = 1 then s.capture t 0 s.now else s := by
  have bit : bitOf v 0 = decide (v % 2 = 1) := by
    rw [bitOf, Nat.pow_zero, Nat.div_one, beq_eq_decide]
  have kept : (s.capture t 0 s.now).fld (TM_CAP_CFG t 1) fTM_CAP_CFG_KIND = s.fld (TM_CAP_CFG t 1) fTM_CAP_CFG_KIND :=
    fld_of_reg (reg_capture_cfg ht (by decide) (by decide) _)
  by_cases hv : v % 2 = 1
  · simp only [State.capSw, forN, bit, hv, h0, kept, beq_eq_false_iff_ne.mpr h1, decide_true, beq_self_eq_true, Bool.and_self,
      Bool.and_false, Bool.false_eq_true, if_true, if_false]
  · simp only [State.capSw, forN, bit, hv, beq_eq_false_iff_ne.mpr h1, decide_false, Bool.false_and, Bool.and_false,
      Bool.false_eq_true, if_false]
end

/-! ### Gates and the edge of a count (R259) -/

section
variable {s : State} {t : Nat}

theorem gateChange_trip {idx : Nat} {level : Bool} (hk : s.fld (TM_CFG t) fTM_CFG_GKIND = 2) (hx : s.fld (TM_CFG t) fTM_CFG_GIDX = idx)
    (h : idx < 64) (hi : (s.tripIn idx).inj = none) : s.gateChange t level = s.lineSet 2 idx level none := by
  have ok : gateIndexOk 2 idx = true := decide_eq_true h
  simp only [State.gateChange, hk, hx, ok, hi, Option.isSome_none, Bool.false_eq_true, and_false, not_false_eq_true, or_true, true_or,
    and_self, if_true]

/-- The software gate has no source line. -/
theorem gateChange_software {level : Bool} (hk : s.fld (TM_CFG t) fTM_CFG_GKIND = 5) : s.gateChange t level = s := by
  simp only [State.gateChange, hk, Nat.reduceEqDiff, or_self, false_and, if_false]

theorem gateNow_none (hk : s.fld (TM_CFG t) fTM_CFG_GKIND = 0) : s.gateNow t = true := if_pos hk

theorem gateNow_trip (hk : s.fld (TM_CFG t) fTM_CFG_GKIND = 2) : s.gateNow t = (decide (s.fld (TM_CFG t) fTM_CFG_GIDX < 64)
    && ((s.line (lineKey 2 (s.fld (TM_CFG t) fTM_CFG_GIDX))).level != s.flag (TM_CFG t) fTM_CFG_GPOL)) := by
  have ok : gateIndexOk 2 (s.fld (TM_CFG t) fTM_CFG_GIDX) = decide (s.fld (TM_CFG t) fTM_CFG_GIDX < 64) := rfl
  by_cases h : s.fld (TM_CFG t) fTM_CFG_GIDX < 64
  · simp only [State.gateNow, hk, ok, h, decide_true, Bool.not_true, Bool.false_eq_true, Nat.reduceEqDiff, if_false, Bool.true_and]
  · simp only [State.gateNow, hk, ok, h, decide_false, Bool.not_false, Nat.reduceEqDiff, if_false, if_true, Bool.false_and]

theorem gateNow_software (hk : s.fld (TM_CFG t) fTM_CFG_GKIND = 5) :
    s.gateNow t = (s.flag (TM_CTRL t) fTM_CTRL_SWG != s.flag (TM_CFG t) fTM_CFG_GPOL) := by
  have ok : gateIndexOk 5 (s.fld (TM_CFG t) fTM_CFG_GIDX) = true := rfl
  simp only [State.gateNow, hk, ok, Bool.not_true, Bool.false_eq_true, Nat.reduceEqDiff, if_false, if_true]

/-- The edge that ends an fc without a command, a group start or an edge of a source. -/
theorem timEdge_plain {c : Nat} (hc : (s.tim t).cmds = []) (hs : (s.tim t).startAt = none) : s.timEdge c [] t = (
    let u := if s.timRun t && s.flag (TM_STAT t) fTM_STAT_GATE && !s.timSlow t then s.setReg (TM_CNT t) (s.reg (TM_CNT t) + 1) else s
    if u.flag TB_STAT fTB_STAT_SRC then u.gateEdge t else u) := by
  have group : ((none : Option Nat) == some c) = false := rfl
  simp only [State.timEdge, hc, hs, group, List.filter_nil, List.any_nil, List.isEmpty_nil, List.foldl_nil, Bool.not_false,
    Bool.and_true, Bool.false_eq_true, if_true, if_false, State.captures]
end

/-! ### The instructions of the timers outside a reset -/

section
variable {s : State} {t : Fin 36}

theorem mode_graze_ne_reset (h : s.pw.mode = .graze) : s.pw.mode ≠ .reset := by simp only [h, ne_eq, reduceCtorEq, not_false_eq_true]

theorem exec_timerMatch {cmp : Fin 4} (h : s.pw.mode = .graze) : exec (.timerMatch t cmp) s = .next (s.timMatch t cmp).wakeCheck :=
  congrArg Host.Outcome.next (if_neg (mode_graze_ne_reset h))

theorem exec_timerCapture {j : Fin 2} {k : Nat} {rising : Bool} (h : s.pw.mode = .graze) :
    exec (.timerCapture t j k rising) s = .next (s.captureEdge t j k rising) :=
  congrArg Host.Outcome.next (if_neg (mode_graze_ne_reset h))

theorem exec_gateLevelChange {level : Bool} (h : s.pw.mode = .graze) :
    exec (.gateLevelChange t level) s = .next (s.gateChange t level) :=
  congrArg Host.Outcome.next (if_neg (mode_graze_ne_reset h))

/-- Nothing wakes while no wake latch stands. -/
theorem wakeCheck_idle (h : s.wakeLatch = none) : s.wakeCheck = s := by
  unfold State.wakeCheck
  rw [h]
  split
  case h_4 => rfl
  all_goals contradiction

/-- A software capture takes the bits of the written word that name the captures. -/
theorem exec_tmCapSw {p : Port} {caps : Fin 4} (h : s.takes p (TM_CAP_SW t) (.ofNat 32 caps.val) = true) :
    exec (.tmCapSw p t caps) s = .next (s.after p (TM_CAP_SW t) (.ofNat 32 caps.val) (fun u => u.capSw t caps)) := by
  obtain ⟨hadm, hword⟩ := takes_iff.mp h
  have bits : vfld (.ofNat 32 caps.val) 0 2 = caps.val := (by decide : ∀ c : Fin 4, vfld (.ofNat 32 c.val) 0 2 = c.val) caps
  change regCmd p (TM_CAP_SW t) (.ofNat 32 caps.val) s = _
  rw [regCmd_TM_CAP_SW t hadm, hword, bits]

theorem exec_tmCmp {p : Port} {cmp : Fin 4} {data : Word} (h : s.takes p (TM_CMP t cmp) data = true) :
    exec (.tmCmp p t cmp data) s = .next (s.after p (TM_CMP t cmp) data (fun u => u.tmCmpWrite t cmp data)) := by
  obtain ⟨hadm, hword⟩ := takes_iff.mp h
  change regCmd p (TM_CMP t cmp) data s = _
  rw [regCmd_TM_CMP t cmp hadm, hword]

theorem timCmp_logged {p : Port} {o : Nat} {v : Word} (u i : Nat) : (s.logged p o v).timCmp u i = s.timCmp u i := by
  simp only [State.timCmp, State.tim, logged_tims]
end

/-! ### The obligation -/

/-- Settles O31: an evaluation matches (`timMatch_reached`) or is idle; an edge of a source enters its line (`lineSet_trip`) and is
captured where it registers (`captureOf_selected`); a software capture by `capSw_first`, whose one obstacle is that the event of
the first capture leaves the KIND of the second (`reg_capture_cfg`); gates and the count by their cases. -/
theorem timerComparesAndCaptures : Obligations.TimerComparesAndCaptures := by
  unfold Obligations.TimerComparesAndCaptures
  refine ⟨?disarms, ?advances, ?matched, ?idle, ?edge, ?noSource, ?captured, ?notCaptured, ?first, ?overrun, ?slow, ?software, ?write,
    ?gateEdge, ?gateSoftware, ?ungated, ?gateTrip, ?gateSwg, ?count⟩
  case disarms =>
    intro t cmp s hg hr hs ha hc hw hm hv he hstep
    have step : ((s.matchNoted t cmp).matchMarked t cmp).reg (TM_CMP_STEP t cmp) = s.reg (TM_CMP_STEP t cmp) :=
      reg_matchMarked_step cmp.isLt
    rw [exec_timerMatch hg, timMatch_silent cmp.isLt hr hs ha hc hw hm hv he, matchStep_disarms (step.trans hstep)]
    rfl
  case advances =>
    intro t cmp s hg hr hs ha hc hw hm hv he hstep
    have step : ((s.matchNoted t cmp).matchMarked t cmp).reg (TM_CMP_STEP t cmp) = s.reg (TM_CMP_STEP t cmp) :=
      reg_matchMarked_step cmp.isLt
    rw [exec_timerMatch hg, timMatch_silent cmp.isLt hr hs ha hc hw hm hv he, matchStep_advances (step.trans_ne hstep), step,
      reg_matchMarked_cmp cmp.isLt]
    rfl
  case matched =>
    intro t cmp s hg hr ha hc hw hm
    rw [exec_timerMatch hg, timMatch_reached hr ha hc hw hm]
    rfl
  case idle =>
    intro t cmp s hwake h hw
    change Host.Outcome.next (if s.pw.mode = .reset then s else (s.timMatch t cmp).wakeCheck) = _
    rw [timMatch_idle h hw, wakeCheck_idle hwake, ite_self]
  case edge =>
    intro t j k idx rising s hg hk hx h hi hs hq
    rw [exec_timerCapture hg, captureEdge_trip (capLine_trip hk hx h) h hi]
    exact congrArg _ (lineSet_trip (Or.inl rfl) hs hq)
  case noSource =>
    intro t j k rising s hk h
    change Host.Outcome.next (if s.pw.mode = .reset then s else s.captureEdge t j k rising) = _
    rw [captureEdge_noLine (capLine_noTrip hk h), ite_self]
  case captured => exact fun t j key due level st s hl he => captureOf_selected hl he
  case notCaptured => exact fun t j key due level cap s h => captureOf_unselected h
  case first =>
    intro t j st s h
    simp only [State.capture, h, Bool.false_eq_true, if_false]
    rfl
  case overrun =>
    intro t j st s h
    simp only [State.capture, h, if_true]
    rfl
  case slow => exact fun t j key s hl he hp hr => captureSlow_rising hl he hp hr
  case software =>
    intro p t caps s h h0 h1
    rw [exec_tmCapSw h]
    refine congrArg _ (after_congr ?_)
    rw [capSw_first t.isLt ((logged_fld ..).trans h0) ((logged_fld ..).trans_ne h1), logged_now]
  case write =>
    intro p t cmp data s h hw
    rw [exec_tmCmp h]
    refine congrArg _ (after_congr ?_)
    rw [tmCmpWrite_first (by rw [timCmp_logged, logged_fc]; exact hw)]
    simp only [timCmp_logged, logged_fc, logged_reg, State.timArmed, logged_fld]
  case gateEdge =>
    intro t idx level s hg hk hx h hi hs hq hl
    rw [exec_gateLevelChange hg, gateChange_trip hk hx h hi]
    exact congrArg _ (lineSet_trip (Or.inr hl) hs hq)
  case gateSoftware =>
    intro t level s hk
    change Host.Outcome.next (if s.pw.mode = .reset then s else s.gateChange t level) = _
    rw [gateChange_software hk, ite_self]
  case ungated => exact fun t s hk => gateNow_none hk
  case gateTrip => exact fun t s hk => gateNow_trip hk
  case gateSwg => exact fun t s hk => gateNow_software hk
  case count => exact fun t c s hc hs => timEdge_plain hc hs

end Sys2Proof.Machine
end

section
/-!
Proofs about position and speed feedback: when an observer steps and what a step without a measurement publishes, commits of angles,
the commands of PF_CTRL, and an edge of an input line in reset (10_position_feedback.md R273, R274, R281 to R287;
14_flocks_and_register_views.md R375).
-/

namespace Sys2Proof.Machine

/-! ### The state of a unit -/

theorem pfu_setPfu_same (s : State) (x : Nat) (o : Pfu) : (s.setPfu x o).pfu x = o := tget_tset_same ..

theorem nat_setPfu (s : State) (x : Nat) (o : Pfu) (off : Nat) : (s.setPfu x o).nat off = s.nat off := rfl

theorem pfu_setFlag (s : State) (off : Nat) (f : Fld) (b : Bool) (x : Nat) : (s.setFlag off f b).pfu x = s.pfu x := rfl

theorem pfu_logged {s : State} {p : Port} {off : Nat} {v : Word} (x : Nat) : (s.logged p off v).pfu x = s.pfu x := by
  simp only [State.pfu, logged_pfus]

theorem tallySame_setPfu (s : State) (x : Nat) (o : Pfu) : TallySame s (s.setPfu x o) := ⟨rfl, rfl, rfl, fun _ _ => rfl⟩

theorem tallySame_pfRaise (s : State) (x n : Nat) (named : List Nat) : TallySame s (s.pfRaise x n named) :=
  TallySame.hurdle s 3 x (TallySame.raiseNamed s n named)

/-! ### The steps of the observers (R281, R282, R285, R287) -/

section
variable {s : State} {x : Nat}

theorem exec_observerStep (h : s.live = true) : exec .observerStep s = .next s.obsStep :=
  show execObserverStep s = _ from fastEvent_live h

theorem obsStep_due (h : s.fld PF_OBS_DIV fPF_OBS_DIV_FC ≤ s.pfPhase + 1) : s.obsStep = { s with pfStep := true } := if_pos h

theorem obsStep_early (h : s.pfPhase + 1 < s.fld PF_OBS_DIV fPF_OBS_DIV_FC) : s.obsStep = s := if_neg (Nat.not_le.mpr h)

/-- A START or an INIT that acts at the end of the fc keeps the unit from its step. -/
theorem pfSteps_commanded {c : Nat} (hc : c ∈ (s.pfu x).cmds) (h : c = 1 ∨ c = 3) : s.pfSteps x = false := by
  have starts : (s.pfu x).cmds.any (fun c => c == 1 || c == 3) = true :=
    List.any_of_mem hc (by rw [Bool.or_eq_true, beq_iff_eq, beq_iff_eq]; exact h)
  rw [State.pfSteps, starts, Bool.not_true, Bool.and_false]

/-- A step advances position and speed by the prediction of R282, saturating the speed. -/
def Pfu.predicted (o : Pfu) : Pfu := { o with p := o.p + .ofInt 48 (o.w + o.a / 512), w := sat32 (o.w + o.a / 256) }

/-- The observer's values in their registers, all but the stamp (R285). -/
def State.obsPublished (s : State) (x : Nat) (n : Pfu) : State :=
  ((((s.setPfu x n).setNat (PF_OPOS x) (n.p.toNat / 65536)).setNat (PF_OPOS_FRAC x) (n.p.toNat % 65536)).setReg (PF_OSPD x)
    (intWord n.w)).setReg (PF_OACC x) (intWord n.a)

theorem tallySame_obsPublished (n : Pfu) : TallySame s (s.obsPublished x n) := by
  refine ((((tallySame_setPfu s x n).trans (TallySame.setNat _ _ ?_)).trans (TallySame.setNat _ _ ?_)).trans
    (TallySame.setReg _ _ ?_)).trans (TallySame.setReg _ _ ?_)
  · simp only [RS_GSTAT, PF_OPOS]; omega
  · simp only [RS_GSTAT, PF_OPOS_FRAC]; omega
  · simp only [RS_GSTAT, PF_OSPD]; omega
  · simp only [RS_GSTAT, PF_OACC]; omega

/-- With measurements as the source and none waiting, a step publishes the prediction, stamped with the Tally of its fc. -/
theorem obsUnit_predicts (hm : (s.pfu x).meas = none) (ho : (s.pfu x).measOld = none) (hs : s.flag (PF_CFG x) fPF_CFG_MSRC = true) :
    s.obsUnit x = (s.obsPublished x (s.pfu x).predicted).setReg64 (PF_OSTAMP_LO x) (PF_OSTAMP_HI x) s.now := by
  have nothing : (s.pfu x).takeMeas s.fc = (none, s.pfu x) := by simp only [Pfu.takeMeas, hm, ho]
  simp only [State.obsUnit, nothing, hs, if_true, Bool.false_eq_true, if_false]
  exact congrArg _ (tallySame_obsPublished (s.pfu x).predicted).now
end

theorem takeMeas_earlier {o : Pfu} {m : PfMeas} {fc : Nat} (ho : o.measOld = none) (hm : o.meas = some m) (h : m.fc < fc) :
    o.takeMeas fc = (some m, { o with meas := none }) := by
  simp only [Pfu.takeMeas, ho, hm, h, if_true]

theorem takeMeas_own {o : Pfu} {m : PfMeas} {fc : Nat} (ho : o.measOld = none) (hm : o.meas = some m) (h : fc ≤ m.fc) :
    o.takeMeas fc = (none, o) := by
  simp only [Pfu.takeMeas, ho, hm, Nat.not_lt.mpr h, if_false]

/-! ### Commits of angles (R284) -/

section
variable {s : State} {x : Nat} {ang : Word} {st : Stamp} {inc : Nat}

/-- The position nearest to the observer's that has a given angle. -/
def State.nearestPos (s : State) (x : Nat) (ang : Word) : Word :=
  let r : Int := (s.pfN x * 256 : Nat)
  let p : Int := ((s.pfu x).p.toNat / 65536 : Nat)
  let d := ((ang.toNat : Int) * r / 4294967296 - p) % r
  intWord (p + (if r ≤ 2 * d then d - r else d))

theorem nearestPos_logged {p : Port} {off : Nat} {v : Word} : (s.logged p off v).nearestPos x ang = s.nearestPos x ang := by
  rw [State.nearestPos, State.nearestPos, State.pfN, State.pfN, logged_fld, pfu_logged]

/-- A commit that finds no measurement waiting. -/
theorem measCommit_first (hs : s.flag (PF_CFG x) fPF_CFG_MSRC = true) (hi : inc = s.flockInc (s.fld (PF_MAP x) fPF_MAP_FLOCK))
    (hst : stampDiff st s.now ≤ 0) (hm : (s.pfu x).meas = none) :
    s.measCommit x ang st false inc = State.setPfu ((s.inc (PF_MEAS_CNT x)).setReg (PF_POS x) (s.nearestPos x ang)) x
      { s.pfu x with meas := some ⟨s.nearestPos x ang, st, s.fc⟩ } := by
  have past : decide (0 < stampDiff st s.now) = false := decide_eq_false (Int.not_lt.mpr hst)
  simp only [State.measCommit, hs, hi, past, hm, Bool.not_true, bne_self_eq_false, Bool.or_self, Bool.false_eq_true, if_false,
    Option.isSome_none, Bool.false_and, Option.filter_none]
  rfl

/-- The flock of a unit has the same incarnation where no register of the flocks differs. -/
theorem pfInc_congr {t : State} (h : TallySame s t) :
    t.flockInc (s.fld (PF_MAP x) fPF_MAP_FLOCK) = s.flockInc (s.fld (PF_MAP x) fPF_MAP_FLOCK) := by
  have hf : s.fld (PF_MAP x) fPF_MAP_FLOCK < 2 ^ 4 := bitsOf_lt _ _ _
  exact h.fld (by simp only [FLK_STAT, RS_GSTAT]; omega) _

/-- MREF set and the refused commits counted. -/
def State.refusalCounted (s : State) (x : Nat) : State := (s.setFlag (PF_STAT x) fPF_STAT_MREF true).inc (PF_MEAS_REFUSED x)

theorem measRefuse_first (h : s.flag (PF_STAT x) fPF_STAT_MREF = false) :
    s.measRefuse x = (s.refusalCounted x).pfRaise x (721 + 2 * x) [2] := by
  simp only [State.measRefuse, h, Bool.false_eq_true, if_false]
  rfl

theorem tallySame_refusalRaised (n : Nat) (named : List Nat) : TallySame s ((s.refusalCounted x).pfRaise x n named) := by
  refine ((TallySame.setFlag s _ true ?_).trans (TallySame.inc _ ?_)).trans (tallySame_pfRaise _ _ _ _)
  · simp only [RS_GSTAT, PF_STAT]; omega
  · simp only [RS_GSTAT, PF_MEAS_REFUSED]; omega

/-- The first refused commit, of the present incarnation of the unit's flock. -/
theorem measCommit_refused (h : s.flag (PF_CFG x) fPF_CFG_MSRC = false ∨ 0 < stampDiff st s.now)
    (hi : inc = s.flockInc (s.fld (PF_MAP x) fPF_MAP_FLOCK)) (hr : s.flag (PF_STAT x) fPF_STAT_MREF = false) :
    s.measCommit x ang st false inc = (s.refusalCounted x).pfRaise x (721 + 2 * x) [2] := by
  have refuses : (!s.flag (PF_CFG x) fPF_CFG_MSRC || false || inc != s.flockInc (s.fld (PF_MAP x) fPF_MAP_FLOCK)
      || decide (0 < stampDiff st s.now)) = true := by
    rcases h with h | h <;> simp only [h, decide_true, Bool.not_false, Bool.true_or, Bool.or_true]
  have same : inc = ((s.refusalCounted x).pfRaise x (721 + 2 * x) [2]).flockInc (s.fld (PF_MAP x) fPF_MAP_FLOCK) :=
    hi.trans (pfInc_congr (tallySame_refusalRaised _ _)).symm
  rw [State.measCommit, if_pos refuses, measRefuse_first hr]
  exact if_pos same
end

section
variable {s : State} {p : Port} {x : Fin 10} {v : Word}

/-- Who may write a register of a unit through the flock view is of the unit's flock (R74). -/
theorem flock_of_owns {f o : Nat} (hlo : PF_MAP x ≤ o) (hhi : o < PF_MAP x + 0x400) (h : s.flockOwns f o = true) :
    s.fld (PF_MAP x) fPF_MAP_FLOCK = f := by
  simp only [PF_MAP] at hlo hhi
  have unit : (o - 0x250000) / 0x400 = x := by omega
  have owned : (s.unitValid 3 x && s.unitFlock 3 x == f) = true := by
    rw [State.flockOwns, if_neg (by omega), if_neg (by omega), if_neg (by omega), if_pos (by omega), unit] at h
    exact h
  exact beq_iff_eq.mp (Bool.and_eq_true_iff.mp owned).2

/-- A commit through any port carries the present incarnation of the unit's flock: an engine commits to units of its flock only. -/
theorem incOf_admitted (h : s.admits p (PF_MEAS_ANG x) v = true) :
    s.incOf (s.master p) (s.fld (PF_MAP x) fPF_MAP_FLOCK) = s.flockInc (s.fld (PF_MAP x) fPF_MAP_FLOCK) := by
  cases p with
  | shepherd | dam | hpp | hup => exact incOf_own _ rfl
  | urp e =>
    have view : s.viewDenied (s.master (.urp e)) (PF_MEAS_ANG x) = false := by
      simp only [State.admits, findReg_PF_MEAS_ANG, State.admitsAt, Bool.and_eq_true, Bool.not_eq_true'] at h
      exact h.2.1
    have owns : s.flockOwns (s.leFlock e) (PF_MEAS_ANG x) = true := by
      rw [State.viewDenied, Bool.or_eq_false_iff, Bool.not_eq_false'] at view
      exact view.1
    rw [flock_of_owns (by simp only [PF_MAP, PF_MEAS_ANG]; omega) (by simp only [PF_MAP, PF_MEAS_ANG]; omega) owns]
    rfl

theorem exec_pfMeasAng (h : s.takes p (PF_MEAS_ANG x) v = true) :
    exec (.pfMeasAng p x v) s = .next (s.after p (PF_MEAS_ANG x) v (fun u =>
      u.measCommit x v (s.reg64 (PF_MEAS_STAMP_LO x) (PF_MEAS_STAMP_HI x)) false (u.flockInc (u.fld (PF_MAP x) fPF_MAP_FLOCK)))) := by
  obtain ⟨hadm, hword⟩ := takes_iff.mp h
  change regCmd p (PF_MEAS_ANG x) v s = _
  rw [regCmd_PF_MEAS_ANG x hadm, hword]
  refine congrArg _ (after_congr ?_)
  have inc : (s.logged p (PF_MEAS_ANG x) v).incOf (s.master p) (s.fld (PF_MAP x) fPF_MAP_FLOCK)
      = s.flockInc (s.fld (PF_MAP x) fPF_MAP_FLOCK) := by
    rw [← incOf_admitted hadm, State.incOf, State.incOf, State.flockInc, State.flockInc, logged_fld]
  simp only [reg64_logged, logged_fld, inc, State.flockInc]

/-! ### The commands of PF_CTRL (R286, R375) -/

theorem regCmd_pfCtrl (h : s.takes p (PF_CTRL x) v = true) :
    regCmd p (PF_CTRL x) v s = .next (s.after p (PF_CTRL x) v (fun u => u.pfCtrlWrite x (vfld v 0 2))) := by
  obtain ⟨hadm, hword⟩ := takes_iff.mp h
  rw [regCmd_PF_CTRL x hadm, hword]

/-- A START for a flock that is not CLEAN. -/
theorem pfCtrlWrite_refused (h : s.flag (FLK_STAT (s.fld (PF_MAP x) fPF_MAP_FLOCK)) fFLK_STAT_CLEAN = false) :
    s.pfCtrlWrite x 1 = s.inc (PF_CFG_REFUSED x) :=
  if_pos ⟨rfl, by rw [State.notClean, h, Bool.not_false]⟩

/-- A command that is not a refused START is left for the edge that ends the fc. -/
theorem pfCtrlWrite_waits {c : Nat} (hc : c ≠ 0)
    (hf : c ≠ 1 ∨ s.flag (FLK_STAT (s.fld (PF_MAP x) fPF_MAP_FLOCK)) fFLK_STAT_CLEAN = true) :
    s.pfCtrlWrite x c = s.setPfu x { s.pfu x with cmds := (s.pfu x).cmds ++ [c] } := by
  have goes : ¬(c = 1 ∧ s.notClean (s.fld (PF_MAP x) fPF_MAP_FLOCK) = true) := by
    rw [State.notClean]
    rintro ⟨start, unclean⟩
    rcases hf with hf | hf
    · exact hf start
    · rw [hf] at unclean
      exact Bool.false_ne_true unclean
  rw [State.pfCtrlWrite, if_neg goes, if_neg hc]

theorem regCmd_pfCtrl_waits (h : s.takes p (PF_CTRL x) v = true) (hc : vfld v 0 2 ≠ 0)
    (hf : vfld v 0 2 ≠ 1 ∨ s.flag (FLK_STAT (s.fld (PF_MAP x) fPF_MAP_FLOCK)) fFLK_STAT_CLEAN = true) :
    regCmd p (PF_CTRL x) v s = .next (s.after p (PF_CTRL x) v (fun u =>
      u.setPfu x { s.pfu x with cmds := (s.pfu x).cmds ++ [vfld v 0 2] })) := by
  refine (regCmd_pfCtrl h).trans (congrArg _ (after_congr ?_))
  rw [pfCtrlWrite_waits hc (by rw [logged_fld, logged_flag]; exact hf), pfu_logged]

/-- RUN set, REFOK and AVGOK cleared. -/
def State.startFlags (s : State) (x : Nat) : State :=
  ((s.setFlag (PF_STAT x) fPF_STAT_RUN true).setFlag (PF_STAT x) fPF_STAT_REFOK false).setFlag (PF_STAT x) fPF_STAT_AVGOK false

theorem nat_startFlags : (s.startFlags x).nat (PF_POS x) = s.nat (PF_POS x) := by
  have apart : PF_POS x ≠ PF_STAT x := by simp only [PF_POS, PF_STAT]; omega
  refine congrArg BitVec.toNat ?_
  rw [State.startFlags, reg_setFlag_ne _ _ _ _ _ apart, reg_setFlag_ne _ _ _ _ _ apart, reg_setFlag_ne _ _ _ _ _ apart]

theorem fc_startFlags : (s.startFlags x).fc = s.fc := by
  rw [State.startFlags, setFlag_fc, setFlag_fc, setFlag_fc]

theorem pfInit_setPfu (o : Pfu) : (s.setPfu x o).pfInit x = (s.setPfu x o).setPfu x
    { o with p := .ofNat 48 (s.nat (PF_POS x) * 65536), w := 0, a := 0, initFc := s.fc + 1 } := by
  rw [State.pfInit, pfu_setPfu_same, nat_setPfu, setPfu_fc]

/-- START sets the observer to PF_POS, which the flags of PF_STAT leave alone. -/
theorem pfStart_eq : s.pfStart x = (
    let o := { s.pfu x with since := 0 }
    (((s.startFlags x).setPfu x o).setPfu x { o with marked := false }).setPfu x
      { o with marked := false, p := .ofNat 48 (s.nat (PF_POS x) * 65536), w := 0, a := 0, initFc := s.fc + 1 }) := by
  have cleared : ((s.setFlag (PF_STAT x) fPF_STAT_RUN true).setFlag (PF_STAT x) fPF_STAT_REFOK false).clearAvg x
      = (s.startFlags x).setPfu x { s.pfu x with since := 0 } := by
    rw [State.clearAvg, pfu_setFlag, pfu_setFlag]
    rfl
  rw [State.pfStart, cleared, pfu_setPfu_same, pfInit_setPfu, nat_setPfu, nat_startFlags, setPfu_fc, fc_startFlags]
end

/-! ### An edge of an input line in reset -/

/-- A block in reset, as at power-on, but with CLK_FAST running: no unit reads PFIN7. -/
def clockedReset : State := { State.reset with pw := { fast := true } }

/-- The source lines in the state that an outcome leaves. -/
def linesOf : Out → List (Nat × Line)
  | .next t => t.lines
  | _ => []

theorem live_clockedReset : clockedReset.live = true := rfl

theorem insel_clockedReset : ∀ y : Fin 10, clockedReset.fld (PF_CFG y) fPF_CFG_INSEL ≠ (7 : Fin 8) := by decide +kernel

/-- In reset the edge is not seen. -/
theorem linesOf_pulseEdge_clockedReset : (linesOf (exec (.pulseEdge 7 0 true) clockedReset)).length = 0 := rfl

/-- The clause on an input that no unit reads lets the edge reach the timers' line. -/
theorem linesOf_lineSet_clockedReset :
    (linesOf (.next (clockedReset.lineSet 4 (7 : Fin 8) true (some (clockedReset.edgeStamp 0))))).length = 1 := by decide +kernel

/-! ### The obligations -/

/-- Refutes O33: the clauses on edges of PFINi and of its auxiliary line ask only that CLK_FAST clock the block outside Rest and Fold,
and the model takes no edge while a reset is in force. In `clockedReset` an edge of PFIN7, which no unit reads, leaves the state as it
is, and the second clause lets it reach the timers' line. -/
theorem not_feedbackInputs : ¬ Obligations.FeedbackInputs := by
  unfold Obligations.FeedbackInputs
  rintro ⟨-, unread, -⟩
  have h := congrArg (List.length ∘ linesOf) (unread 7 0 true clockedReset live_clockedReset insel_clockedReset)
  rw [Function.comp_apply, Function.comp_apply, linesOf_pulseEdge_clockedReset, linesOf_lineSet_clockedReset] at h
  exact absurd h (by decide)

/-- Settles O34: the steps by `obsStep_due` and `obsUnit_predicts`; a commit by `exec_pfMeasAng`, whose incarnation is the present
one through every port (`incOf_admitted`), and then `measCommit_first` or `measCommit_refused`; the commands wait
(`regCmd_pfCtrl_waits`) and act by `pfStart_eq` and by definition. -/
theorem feedbackObserverAndCommands : Obligations.FeedbackObserverAndCommands := by
  unfold Obligations.FeedbackObserverAndCommands
  refine ⟨?due, ?early, ?noStep, ?predicts, ?earlier, ?own, ?commit, ?refused, ?start, ?unclean, ?stop, ?init, ?started,
    ?stopped, ?inited⟩
  case due => exact fun s hl h => (exec_observerStep hl).trans (congrArg _ (obsStep_due h))
  case early => exact fun s hl h => (exec_observerStep hl).trans (congrArg _ (obsStep_early h))
  case noStep =>
    rintro x s (h | h | h | h | h)
    · simp only [State.pfSteps, h, Bool.false_and]
    · simp only [State.pfSteps, h, Bool.and_false, Bool.false_and]
    · simp only [State.pfSteps, h, bne_self_eq_false, Bool.and_false, Bool.false_and]
    · exact pfSteps_commanded h (Or.inl rfl)
    · exact pfSteps_commanded h (Or.inr rfl)
  case predicts => exact fun x s hm ho hs => obsUnit_predicts hm ho hs
  case earlier => exact fun m o fc ho hm h => takeMeas_earlier ho hm h
  case own => exact fun m o fc ho hm h => takeMeas_own ho hm h
  case commit =>
    intro p x data s h _ hs hst hm
    rw [exec_pfMeasAng h]
    refine congrArg _ (after_congr ?_)
    rw [measCommit_first ((logged_flag ..).trans hs) rfl (by rw [logged_now]; exact hst) (by rw [pfu_logged]; exact hm)]
    simp only [nearestPos_logged, pfu_logged, logged_fc]
    rfl
  case refused =>
    intro p x data s h hr hs
    rw [exec_pfMeasAng h]
    refine congrArg _ (after_congr ?_)
    exact measCommit_refused (by rw [logged_flag, logged_now]; exact hr) rfl ((logged_flag ..).trans hs)
  case start => exact fun p x s h hf => regCmd_pfCtrl_waits h (by decide) (Or.inr hf)
  case unclean =>
    intro p x s h hf
    refine (regCmd_pfCtrl h).trans (congrArg _ (after_congr ?_))
    exact pfCtrlWrite_refused (by rw [logged_fld, logged_flag]; exact hf)
  case stop => exact fun p x s h => regCmd_pfCtrl_waits h (by decide) (Or.inl (by decide))
  case init => exact fun p x s h => regCmd_pfCtrl_waits h (by decide) (Or.inl (by decide))
  case started => exact fun x s => pfStart_eq
  case stopped => exact fun x s => rfl
  case inited => exact fun x s => rfl

end Sys2Proof.Machine
end

section
/-!
Proofs about Chanters: their commands and syncs, writes of control memory, and stores to a channel that its table lists twice
(11_chanters.md R294, R307, R310, R312, R314).
-/

namespace Sys2Proof.Machine

/-! ### Two stores to one key of a table -/

section
variable {α : Type} {d : Nat → α} {k : Nat} {v w : α}

theorem tins_tins_same (t : List (Nat × α)) : tins (tins t k v) k w = tins t k w := by
  induction t with
  | nil => simp only [tins, Nat.lt_irrefl, if_false, if_true]
  | cons e t ih =>
    obtain ⟨j, x⟩ := e
    by_cases hlt : k < j
    · simp only [tins, hlt, Nat.lt_irrefl, if_true, if_false]
    · by_cases heq : j = k
      · simp only [tins, heq, Nat.lt_irrefl, if_true, if_false]
      · simp only [tins, hlt, heq, if_false, ih]

theorem tdel_tins_same (t : List (Nat × α)) : tdel (tins t k v) k = tdel t k := by
  induction t with
  | nil => simp only [tins, tdel, if_true]
  | cons e t ih =>
    obtain ⟨j, x⟩ := e
    by_cases hlt : k < j
    · simp only [tins, tdel, hlt, if_true]
    · by_cases heq : j = k
      · simp only [tins, tdel, heq, Nat.lt_irrefl, if_true, if_false]
      · simp only [tins, tdel, hlt, heq, if_false, ih]

/-- The first of two stores to a key is lost, unless it takes the key from the table. -/
theorem tset_tset_same [DecidableEq α] (t : List (Nat × α)) (h : v ≠ d k) : tset d (tset d t k v) k w = tset d t k w := by
  simp only [tset, if_neg h, tins_tins_same, tdel_tins_same]
end

/-! ### A loop over numbers -/

/-- Two loops agree when their steps do on every state that the loop can come to. -/
theorem forN_congr_of_inv {α : Type} {P : α → Prop} {f g : Nat → α → α} {a : α} (ha : P a) (hg : ∀ i u, P u → P (g i u))
    (h : ∀ i u, P u → f i u = g i u) (m : Nat) : forN f m a = forN g m a := by
  have inv : ∀ m, P (forN g m a) := fun m => by
    induction m with
    | zero => exact ha
    | succ m ih => exact hg m _ ih
  induction m with
  | zero => rfl
  | succ m ih => exact (congrArg (f m) ih).trans (h m _ (inv m))

theorem forN_fixed {α : Type} {f : Nat → α → α} {a : α} (h : ∀ i, f i a = a) (m : Nat) : forN f m a = a := by
  induction m with
  | zero => rfl
  | succ m ih => exact (congrArg (f m) ih).trans (h m)

/-! ### The state of a Chanter -/

section
variable {s : State} {n : Nat}

theorem chanter_setChanter_same (s : State) (n : Nat) (x : Chanter) : (s.setChanter n x).chanter n = x := tget_tset_same ..

theorem setChanter_setChanter_same {x : Chanter} (s : State) (n : Nat) (y : Chanter) (h : x ≠ {}) :
    (s.setChanter n x).setChanter n y = s.setChanter n y := by
  simp only [State.setChanter, tset_tset_same (d := fun _ => ({} : Chanter)) s.chs h]

/-! ### Commands (R310, R314) -/

/-- A Chanter whose divider restarts at the edge that begins fc `e`, with no round in progress. -/
def Chanter.restarted (x : Chanter) (e : Nat) : Chanter :=
  { x with origin := e, beat := 0, rounds := [], frozenAt := x.frozenAt.map (fun _ => e) }

/-- START at the edge that ends the fc. -/
theorem chStart_eq : s.chStart n (s.fc + 1) = (
    let u := s.setFlag (CH_STAT n) fCH_STAT_RUN true
    forN (fun k v => v.chanRestart n k) 16 (u.setChanter n ((u.chanter n).restarted (s.fc + 1)))) := by
  have late : ∀ x : Chanter, x.origin = s.fc + 1 → x ≠ {} :=
    fun x ho h => Nat.succ_ne_zero s.fc (ho.symm.trans (congrArg Chanter.origin h))
  rw [State.chStart, State.divRestart, chanter_setChanter_same, setChanter_setChanter_same _ _ _ (late _ rfl)]
  rfl

/-- The edge that ends an fc with one command and no channel to serve. -/
theorem chEnd_command {c : ChCmd} (hc : (s.chanter n).cmds = [c]) (hk : (s.chanter n).chans = []) :
    s.chEnd n = (s.setChanter n { s.chanter n with cmds := [] }).chDo n c := by
  simp only [State.chEnd, hk, List.map_nil, List.foldl_nil, hc, List.cons_ne_nil, if_false, List.foldl_cons]
end

section
variable {s : State} {p : Port} {n : Fin 36} {v : Word}

/-- START and STOP wait for the edge that ends the fc. -/
theorem regCmd_chCtrl {c : ChCmd} (h : s.takes p (CH_CTRL n) v = true)
    (hc : vfld v 0 2 = 1 ∧ c = .start ∨ vfld v 0 2 = 2 ∧ c = .stop) :
    regCmd p (CH_CTRL n) v s = .next (s.after p (CH_CTRL n) v (fun u => u.chCmd n c)) := by
  obtain ⟨hadm, hword⟩ := takes_iff.mp h
  rw [regCmd_CH_CTRL n hadm, hword]
  rcases hc with ⟨hv, rfl⟩ | ⟨hv, rfl⟩
  · rw [hv]; rfl
  · rw [hv]; rfl

/-- So do RESTART and HALT of a channel. -/
theorem regCmd_chCctl {ch : Fin 16} {c : ChCmd} (h : s.takes p (CH_CCTL n ch) v = true)
    (hc : vfld v 0 2 = 1 ∧ c = .restart ch ∨ vfld v 0 2 = 2 ∧ c = .halt ch) :
    regCmd p (CH_CCTL n ch) v s = .next (s.after p (CH_CCTL n ch) v (fun u => u.chCmd n c)) := by
  obtain ⟨hadm, hword⟩ := takes_iff.mp h
  rw [regCmd_CH_CCTL n ch hadm, hword]
  rcases hc with ⟨hv, rfl⟩ | ⟨hv, rfl⟩
  · rw [hv]; rfl
  · rw [hv]; rfl
end

/-! ### Syncs (R310) -/

section
variable {data : Word} {op : Nat}

theorem toNat_putOp : (fCH_SYNC_CTRL_OP.put data op).toNat = withBits data.toNat 0 2 op :=
  (BitVec.toNat_ofNat ..).trans (Nat.mod_eq_of_lt (withBits_lt _ _ _ _ _ (by decide) data.isLt))

theorem bitsOf_putOp : bitsOf (fCH_SYNC_CTRL_OP.put data op).toNat 0 2 = op % 4 :=
  (congrArg (bitsOf · 0 2) toNat_putOp).trans (bitsOf_withBits_same ..)

theorem bitsOf_putOp_above {lo len : Nat} (h : 2 ≤ lo) :
    bitsOf (fCH_SYNC_CTRL_OP.put data op).toNat lo len = bitsOf data.toNat lo len := by
  rw [toNat_putOp, bitsOf_withBits_above _ _ _ _ _ _ h]
end

section
variable {s : State} {v data : Word}

theorem syncCtrlWrite_legal (hs : bitsOf v.toNat 4 2 ≠ 3) (ho : bitsOf v.toNat 0 2 ≠ 3) :
    s.syncCtrlWrite v = { s.setReg CH_SYNC_CTRL v with ch.sync := if bitsOf v.toNat 0 2 = 0 then none else some s.fc } := by
  simp only [State.syncCtrlWrite, hs, ho, if_false, or_self, State.setNat, BitVec.ofNat_toNat, BitVec.setWidth_eq, setReg_fc]

/-- A write with a SRC of 0 to 2 and an OP of 0 to 2. -/
theorem regCmd_syncCtrl {p : Port} {op : Nat} (ho : op < 3)
    (h : s.takes p CH_SYNC_CTRL (fCH_SYNC_CTRL_OP.put data op) = true) (hs : bitsOf data.toNat 4 2 ≠ 3) :
    regCmd p CH_SYNC_CTRL (fCH_SYNC_CTRL_OP.put data op) s = .next (s.after p CH_SYNC_CTRL (fCH_SYNC_CTRL_OP.put data op) (fun u =>
      { u.setReg CH_SYNC_CTRL (fCH_SYNC_CTRL_OP.put data op) with ch.sync := if op = 0 then none else some s.fc })) := by
  obtain ⟨hadm, hword⟩ := takes_iff.mp h
  have small : op % 4 = op := Nat.mod_eq_of_lt (by omega)
  rw [regCmd_CH_SYNC_CTRL hadm, hword]
  refine congrArg _ (after_congr ?_)
  rw [syncCtrlWrite_legal (by rwa [bitsOf_putOp_above (by decide)]) (by rw [bitsOf_putOp, small]; omega), bitsOf_putOp, small, logged_fc]

theorem chanterSync_none (h : s.ch.sync = none) : s.chanterSync = s := by
  simp only [State.chanterSync, State.syncDue, h]

/-- A sync of SRC 0, armed in an earlier fc, is due at the edge that ends the fc; no Drove switches at it unless one is ARMED. -/
theorem chanterSync_due {w : Nat} (h : s.ch.sync = some w) (hw : w < s.fc) (hs : s.fld CH_SYNC_CTRL fCH_SYNC_CTRL_SRC = 0)
    (hd : s.dvPhase ≠ 2) : s.chanterSync = s.chSyncAt (s.fc + 1) := by
  have due : s.syncDue = some (s.fc + 1) := by simp only [State.syncDue, h, hs, hw, if_true]
  have noDrove : s.dvChanterSync = s := if_neg (fun hc => hd hc.1)
  simp only [State.chanterSync, due, noDrove]

/-- One logical Chanter at a sync: named by the mask, it is commanded for the edge that ends the fc. -/
def State.syncOne (op l : Nat) (u : State) : State :=
  if bitOf (u.nat CH_SYNC_MASK) l then
    (match u.findCh l with
      | none => u
      | some n => u.chCmd n (if op = 1 then .start else .divide))
  else u

theorem syncOne_fc (op l : Nat) (u : State) : (u.syncOne op l).fc = u.fc := by
  unfold State.syncOne
  split
  · split <;> rfl
  · rfl

theorem syncOne_unnamed {op l : Nat} (h : s.nat CH_SYNC_MASK = 0) : s.syncOne op l = s := by
  have unnamed : bitOf 0 l = false := by simp only [bitOf, Nat.zero_div]; rfl
  simp only [State.syncOne, h, unnamed, Bool.false_eq_true, if_false]

/-- At a sync for the edge that ends the fc, the Chanters that are named get their commands. -/
theorem chSyncAt_next : s.chSyncAt (s.fc + 1) = (forN (State.syncOne (s.fld CH_SYNC_CTRL fCH_SYNC_CTRL_OP)) 32 s).syncDone := by
  refine congrArg State.syncDone (forN_congr_of_inv (P := fun u => u.fc = s.fc) rfl (fun l u hu => (syncOne_fc _ l u).trans hu) ?_ 32)
  intro l u hu
  have later : s.fc + 1 ≠ u.fc := by omega
  simp only [if_pos later]
  rfl

theorem syncDone_once (h : s.fld CH_SYNC_CTRL fCH_SYNC_CTRL_SRC = 0) :
    s.syncDone = { s.inc CH_SYNC_CNT with ch.sync := none, ch.syncFc := s.fc + 1 } := by
  have src : (s.inc CH_SYNC_CNT).fld CH_SYNC_CTRL fCH_SYNC_CTRL_SRC = 0 := (fld_of_reg (reg_inc_ne s _ _ (by decide))).trans h
  rw [State.syncDone]
  generalize s.inc CH_SYNC_CNT = t at src
  have kept : ({ t with ch.syncFc := s.fc + 1 } : State).fld CH_SYNC_CTRL fCH_SYNC_CTRL_SRC = 0 := src
  simp only [kept]

/-- A sync that no Chanter is named for. -/
theorem chSyncAt_unnamed (h : s.nat CH_SYNC_MASK = 0) : s.chSyncAt (s.fc + 1) = s.syncDone := by
  rw [chSyncAt_next, forN_fixed (fun l => syncOne_unnamed h)]

theorem exec_chanterSync (h : s.live = true) : exec .chanterSync s = .next s.chanterSync :=
  show execChanterSync s = _ from fastEvent_live h
end

/-! ### Writes of control memory (R294) -/

section
variable {s : State} {n off : Nat} {v : Word}

theorem cmemWrite_stopped (h : s.chRun n = false) : s.cmemWrite n off v = s.setReg off v := by
  simp only [State.cmemWrite, h, Bool.false_and, Bool.false_eq_true, if_false]

theorem cmemWrite_running (h : s.chRun n = true) (hv : v ≠ s.reg off) : s.cmemWrite n off v = s.inc (CH_CFG_REFUSED n) := by
  simp only [State.cmemWrite, h, Bool.true_and, bne_iff_ne, ne_eq, hv, not_false_eq_true, if_true]

theorem chRun_setReg_ne (s : State) (v : Word) (h : CH_STAT n ≠ off) : (s.setReg off v).chRun n = s.chRun n :=
  flag_of_reg (reg_setReg_ne _ _ _ _ h)

theorem chRun_inc_ne (s : State) (h : CH_STAT n ≠ off) : (s.inc off).chRun n = s.chRun n :=
  flag_of_reg (reg_inc_ne _ _ _ h)

theorem chRun_logged {p : Port} {o : Nat} : (s.logged p o v).chRun n = s.chRun n := logged_flag ..
end

section
variable {s : State} {p : Port} {n : Fin 36} {a : Fin 256} {hi : Bool} {data : Word}

/-- The half of chant word `a` that a write names. -/
def cmemHalf (n a : Nat) (hi : Bool) : Nat := if hi then CH_CMEM_HI n a else CH_CMEM_LO n a

theorem stat_ne_cmemHalf : CH_STAT n ≠ cmemHalf n a hi := by
  have hn := n.isLt
  have ha := a.isLt
  unfold cmemHalf
  split
  · simp only [CH_STAT, CH_CMEM_HI]; omega
  · simp only [CH_STAT, CH_CMEM_LO]; omega

/-- A write of one half: the mark goes when the Chanter is stopped. -/
theorem exec_chCmemWrite (h : s.takes p (cmemHalf n a hi) data = true) :
    exec (.chCmemWrite p n a hi data) s = .next (s.after p (cmemHalf n a hi) data (fun u =>
      let t := u.cmemWrite n (cmemHalf n a hi) data
      if t.chRun n = false then t.setMark (cmemHalf n a hi) false else t)) := by
  obtain ⟨hadm, hword⟩ := takes_iff.mp h
  cases hi with
  | false => exact (regCmd_CH_CMEM_LO n a hadm).trans (by rw [show s.word p (CH_CMEM_LO n a) data = data from hword]; rfl)
  | true => exact (regCmd_CH_CMEM_HI n a hadm).trans (by rw [show s.word p (CH_CMEM_HI n a) data = data from hword]; rfl)

theorem exec_chCmemWrite_stopped (h : s.takes p (cmemHalf n a hi) data = true) (hr : s.chRun n = false) :
    exec (.chCmemWrite p n a hi data) s = .next (s.after p (cmemHalf n a hi) data (fun u =>
      (u.setReg (cmemHalf n a hi) data).setMark (cmemHalf n a hi) false)) := by
  rw [exec_chCmemWrite h]
  refine congrArg _ (after_congr ?_)
  dsimp only
  rw [cmemWrite_stopped (chRun_logged.trans hr), chRun_setReg_ne _ _ stat_ne_cmemHalf, chRun_logged, if_pos hr]

theorem exec_chCmemWrite_running (h : s.takes p (cmemHalf n a hi) data = true) (hr : s.chRun n = true)
    (hd : data ≠ s.reg (cmemHalf n a hi)) :
    exec (.chCmemWrite p n a hi data) s = .next (s.after p (cmemHalf n a hi) data (fun u => u.inc (CH_CFG_REFUSED n))) := by
  have apart : CH_STAT n ≠ CH_CFG_REFUSED n := by simp only [CH_STAT, CH_CFG_REFUSED]; omega
  rw [exec_chCmemWrite h]
  refine congrArg _ (after_congr ?_)
  dsimp only
  rw [cmemWrite_running (chRun_logged.trans hr) (by rwa [logged_reg]), chRun_inc_ne _ apart, chRun_logged,
    if_neg (by rw [hr]; exact Bool.noConfusion)]
end

/-! ### Stores to a channel that its table lists twice -/

/-- A running block whose tables are not in canonical form: Chanter 7 lists its channel 0 twice, first in state `c`. -/
def channelTwice (c : Chan) : State :=
  { State.reset with pw := { mode := .graze, fast := true }, chs := [(7, { chans := [(0, c), (0, {})] })] }

/-- How many entries Chanter 7 has for its channels. -/
def State.channelEntries (s : State) : Nat := (s.chanter 7).chans.length

/-- Channel 0 with one framed push for the end of the fc, else as reset. -/
def framedChan : Chan := { frmPush := [(5, 2)] }

/-- The framed pushes are cleared first, which takes every entry of the channel from the table. -/
theorem channelEntries_chanEnd : ((channelTwice framedChan).chanEnd 7 0).channelEntries = 1 := by decide +kernel

/-- Channel 0 with a push of each agent into the TX queue for the end of the fc, else as reset. -/
def pushedChan : Chan := { txNext := [(2, (3, false)), (1, (2, false)), (0, (1, false))] }

/-- So it is with the pushes into the TX queue. -/
theorem channelEntries_txTakeAll : ((channelTwice pushedChan).txTakeAll 7 0).channelEntries = 1 := by decide +kernel

/-- One store of a channel that is not as reset leaves the second entry. -/
theorem channelEntries_setChan {b c : Chan} (h : b ≠ {}) : ((channelTwice c).setChan 7 0 b).channelEntries = 2 := by
  have placed : tset (fun _ => ({} : Chan)) [(0, c), (0, {})] 0 b = [(0, b), (0, {})] := if_neg h
  show (State.chanter (State.setChanter _ _ _) 7).chans.length = 2
  rw [chanter_setChanter_same]
  exact congrArg List.length placed

/-! ### The obligations -/

/-- Refutes O35: at the end of an fc a channel's framed pushes are cleared in one store and taken into the RX queue in a second, and a
store of the reset values takes a channel from its table. The clause on a framed word makes one store and does not ask for tables in
canonical form: in `channelTwice framedChan` the two differ in the entries of the channel that are left. -/
theorem not_chanterRoundsAndFrames : ¬ Obligations.ChanterRoundsAndFrames := by
  unfold Obligations.ChanterRoundsAndFrames
  rintro ⟨-, -, -, -, -, -, -, -, -, -, -, -, -, -, -, framed, -⟩
  have entries := channelEntries_chanEnd
  rw [framed 7 0 2 5 (channelTwice framedChan) (by decide +kernel) (by decide +kernel) (by decide +kernel) (by decide +kernel),
    channelEntries_setChan (fun h => List.cons_ne_nil _ _ (congrArg Chan.rx h))] at entries
  exact absurd entries (by decide)

/-- Refutes O36: the pushes of an fc into a TX queue are cleared in one store and taken in others, and a store of the reset values takes
a channel from its table. The clause on the order of the pushes makes one store and does not ask for tables in canonical form: in
`channelTwice pushedChan` the two differ in the entries of the channel that are left. -/
theorem not_channelQueues : ¬ Obligations.ChannelQueues := by
  unfold Obligations.ChannelQueues
  rintro ⟨-, pushes, -⟩
  have entries := channelEntries_txTakeAll
  rw [pushes 7 0 (3, false) (2, false) (1, false) (channelTwice pushedChan) (by decide +kernel) (by decide +kernel),
    channelEntries_setChan (fun h => List.append_ne_nil_of_right_ne_nil _ (List.cons_ne_nil _ _) (congrArg Chan.tx h))] at entries
  exact absurd entries (by decide)

/-- Settles O37: a command waits (`regCmd_chCtrl`, `regCmd_chCctl`) and acts by `chStart_eq` or by definition; a write of CH_SYNC_CTRL by
`regCmd_syncCtrl`; a sync that is due by `chSyncAt_next` or `chSyncAt_unnamed`; control memory by `exec_chCmemWrite_stopped` and
`exec_chCmemWrite_running`. -/
theorem chanterCommands : Obligations.ChanterCommands := by
  unfold Obligations.ChanterCommands
  refine ⟨?start, ?stop, ?restart, ?halt, ?started, ?stopped, ?restarted, ?halted, ?ended, ?syncStart, ?syncRestart, ?syncCancel,
    ?unnamed, ?named, ?divided, ?idle, ?low, ?high, ?refused⟩
  case start => exact fun p n s h => regCmd_chCtrl h (Or.inl ⟨rfl, rfl⟩)
  case stop => exact fun p n s h => regCmd_chCtrl h (Or.inr ⟨rfl, rfl⟩)
  case restart => exact fun p n ch s h => regCmd_chCctl h (Or.inl ⟨rfl, rfl⟩)
  case halt => exact fun p n ch s h => regCmd_chCctl h (Or.inr ⟨rfl, rfl⟩)
  case started => exact fun n s => chStart_eq
  case stopped => exact fun n s => rfl
  case restarted => exact fun n k s => rfl
  case halted => exact fun n k s => rfl
  case ended => exact fun n c s hc hk => chEnd_command hc hk
  case syncStart => exact fun p data s h hs => regCmd_syncCtrl (by decide) h hs
  case syncRestart => exact fun p data s h hs => regCmd_syncCtrl (by decide) h hs
  case syncCancel => exact fun p data s h hs => regCmd_syncCtrl (by decide) h hs
  case unnamed =>
    intro w s hl h hw hs hd hm
    rw [exec_chanterSync hl, chanterSync_due h hw hs hd, chSyncAt_unnamed hm, syncDone_once hs]
  case named =>
    intro w s hl h hw hs hd
    rw [exec_chanterSync hl, chanterSync_due h hw hs hd, chSyncAt_next]
    rfl
  case divided => exact fun n s => rfl
  case idle => exact fun s hl h => (exec_chanterSync hl).trans (congrArg _ (chanterSync_none h))
  case low => exact fun p n a data s h hr => exec_chCmemWrite_stopped (hi := false) h hr
  case high => exact fun p n a data s h hr => exec_chCmemWrite_stopped (hi := true) h hr
  case refused => exact fun p n a data s h hr hd => exec_chCmemWrite_running (hi := false) h hr hd

end Sys2Proof.Machine
end

section
/-!
What a raise and a record leave of the state (03_loop_engines.md R76; 13_events_and_journal.md R348, R361).
-/

namespace Sys2Proof.Machine

/-- `t` differs from `s` in the registers, the engines, the event concentrator and the journal at most: all that a raise and a record
write, with the task slots that the raise triggers. -/
structure RaisedFrom (s t : State) : Prop where
  eq : t = { s with regs := t.regs, hot := t.hot, engs := t.engs, ev := t.ev, jn := t.jn }

namespace RaisedFrom

variable {s t u : State}

theorem refl (s : State) : RaisedFrom s s := ⟨rfl⟩

theorem trans (h : RaisedFrom s t) (g : RaisedFrom t u) : RaisedFrom s u :=
  ⟨g.eq.trans (congrArg (fun x : State => { x with regs := u.regs, hot := u.hot, engs := u.engs, ev := u.ev, jn := u.jn }) h.eq)⟩

theorem ite {c : Prop} [Decidable c] (ht : RaisedFrom s t) (hu : RaisedFrom s u) : RaisedFrom s (if c then t else u) := by
  split
  · exact ht
  · exact hu

theorem foldl {α : Type} {f : State → α → State} (h : ∀ u a, RaisedFrom u (f u a)) (l : List α) (s : State) : RaisedFrom s (l.foldl f s) := by
  induction l generalizing s with
  | nil => exact refl s
  | cons a l ih => exact (h s a).trans (ih (f s a))

theorem forN {f : Nat → State → State} (h : ∀ i u, RaisedFrom u (f i u)) (n : Nat) (s : State) : RaisedFrom s (forN f n s) := by
  induction n with
  | zero => exact refl s
  | succ n ih => exact ih.trans (h n _)

/-! What it leaves: the other parts of the state. -/

theorem pw (h : RaisedFrom s t) : t.pw = s.pw := (congrArg State.pw h.eq).trans rfl
theorem mb (h : RaisedFrom s t) : t.mb = s.mb := (congrArg State.mb h.eq).trans rfl
theorem mi (h : RaisedFrom s t) : t.mi = s.mi := (congrArg State.mi h.eq).trans rfl
theorem rs (h : RaisedFrom s t) : t.rs = s.rs := (congrArg State.rs h.eq).trans rfl
theorem sh (h : RaisedFrom s t) : t.sh = s.sh := (congrArg State.sh h.eq).trans rfl
theorem db (h : RaisedFrom s t) : t.db = s.db := (congrArg State.db h.eq).trans rfl
theorem fc (h : RaisedFrom s t) : t.fc = s.fc := (congrArg State.fc h.eq).trans rfl

/-! Registers. -/

theorem setReg (s : State) (o : Nat) (v : Word) : RaisedFrom s (s.setReg o v) := ⟨rfl⟩
theorem setFld (s : State) (o : Nat) (f : Fld) (n : Nat) : RaisedFrom s (s.setFld o f n) := ⟨rfl⟩
theorem setNat (s : State) (o n : Nat) : RaisedFrom s (s.setNat o n) := ⟨rfl⟩
theorem setFlag (s : State) (o : Nat) (f : Fld) (b : Bool) : RaisedFrom s (s.setFlag o f b) := ⟨rfl⟩
theorem setReg64 (s : State) (l h : Nat) (v : Stamp) : RaisedFrom s (s.setReg64 l h v) := ⟨rfl⟩
theorem inc (s : State) (o : Nat) : RaisedFrom s (s.inc o) := ⟨rfl⟩

/-! Records, raises and the task slots that they trigger (R76, R348, R461). -/

theorem jAdd (s : State) (e : JEntry) : RaisedFrom s (s.jAdd e) := ⟨rfl⟩
theorem record (s : State) (src code w0 w1 w2 w3 : Nat) : RaisedFrom s (s.record src code w0 w1 w2 w3) := ⟨rfl⟩
theorem raiseBase (s : State) (n : Nat) (st : Stamp) (p0 p1 : Nat) : RaisedFrom s (s.raiseBase n st p0 p1) := ⟨rfl⟩
theorem raiseLater (s : State) (n p0 p1 : Nat) : RaisedFrom s (s.raiseLater n p0 p1) := ⟨rfl⟩

theorem setSlot (s : State) (p k : Nat) (x : Slot) : RaisedFrom s (s.setSlot p k x) := ⟨rfl⟩

theorem hurdleCount (s : State) (k i : Nat) : RaisedFrom s (s.hurdleCount k i) := by
  unfold State.hurdleCount
  extract_lets s1 s2
  exact ite (inc s _) ((inc s _).trans ((setFlag s1 _ _ true).trans ((raiseLater s2 914 0 0).trans (record _ 914 0x74 k i _ 0))))

theorem overrun (s : State) (p k : Nat) : RaisedFrom s (s.overrun p k) := by
  unfold State.overrun
  extract_lets s1
  have counted : RaisedFrom s s1 := (setFlag s _ _ true).trans (inc _ _)
  exact counted.trans (ite (refl s1) (ite (hurdleCount s1 0 p) (raiseLater s1 _ 0 0)))

theorem makeReady (s : State) (p k : Nat) (st : Stamp) (edge : Bool) : RaisedFrom s (s.makeReady p k st edge) :=
  (setFld s _ _ 2).trans (setSlot _ p k _)

theorem fireEdge (s : State) (p k : Nat) (st : Stamp) : RaisedFrom s (s.fireEdge p k st) := by
  unfold State.fireEdge
  split
  case h_1 => exact makeReady s p k st true
  case h_2 => exact overrun s p k
  case h_3 | h_4 =>
    split
    · exact setSlot s p k _
    · exact overrun s p k
  case h_5 => exact overrun s p k
  case h_6 => exact refl s

theorem raiseAt (s : State) (n : Nat) (st : Stamp) (p0 p1 : Nat) : RaisedFrom s (s.raiseAt n st p0 p1) :=
  (raiseBase s n st p0 p1).trans (foldl (f := fun u (x : Nat × Nat) => u.fireEdge x.1 x.2 st) (fun u x => fireEdge u x.1 x.2 st) _ _)

theorem raise (s : State) (n p0 p1 : Nat) : RaisedFrom s (s.raise n p0 p1) := raiseAt s n s.now p0 p1

theorem raiseNamed (s : State) (n : Nat) (named : List Nat) : RaisedFrom s (s.raiseNamed n named) := by
  unfold State.raiseNamed State.raiseNamedAt State.raiseLive
  exact ite (raiseAt s n _ _ _) ⟨rfl⟩

end RaisedFrom

end Sys2Proof.Machine
end

section
/-!
Proofs about a step of the block, and the two statements on mailboxes and on the event concentrator that fail in a mode they do not
exclude (13_events_and_journal.md R354, 16_mailbox_commands.md R418).
-/

namespace Sys2Proof.Machine

/-! ### A step (95_what_each_step_holds.md) -/

/-- Settles O1: `step` is the case split on the queue of commands. -/
theorem stepRunsTheFrontCommand : Obligations.StepRunsTheFrontCommand := by
  unfold Obligations.StepRunsTheFrontCommand
  constructor
  · intro i rest s hs
    rw [step, hs]
  · intro s hs
    rw [step, hs]

/-! ### What is set in EC_WAKE_LATCH, and what leaves it (R354) -/

section
variable {s : State} {i : Nat}

theorem flag_eq_bitOf (o : Nat) : s.flag o ⟨i, 1⟩ = bitOf (s.nat o) i := (rfl)

theorem reg_setReg64_ne {o l h : Nat} {x : Stamp} (hl : o ≠ l) (hh : o ≠ h) : (s.setReg64 l h x).reg o = s.reg o := by
  rw [State.setReg64, reg_setReg_ne _ _ _ _ hh, reg_setReg_ne _ _ _ _ hl]

/-- A latch that is set with its stamp reads set. -/
theorem wakeLatch_stamped (hi : i < 16) (st : Stamp) :
    ((s.setFlag EC_WAKE_LATCH ⟨i, 1⟩ true).setReg64 (EC_WAKE_STAMP_LO i) (EC_WAKE_STAMP_HI i) st).flag EC_WAKE_LATCH ⟨i, 1⟩ = true := by
  refine (flag_of_reg (reg_setReg64_ne ?_ ?_)).trans (flag_setFlag_same _ _ _ _ (by simp only; omega) rfl)
  · simp only [EC_WAKE_LATCH, EC_WAKE_STAMP_LO]; omega
  · simp only [EC_WAKE_LATCH, EC_WAKE_STAMP_HI]; omega

theorem wakeLatch_wakeSet (hi : i < 16) (hen : bitOf (s.nat EC_WAKE_EN) i = true) (hclear : bitOf (s.nat EC_WAKE_LATCH) i = false) (st : Stamp) :
    (s.wakeSet i st false).flag EC_WAKE_LATCH ⟨i, 1⟩ = true := by
  simp only [State.wakeSet, hen, hclear, if_true, Bool.false_eq_true, if_false]
  exact wakeLatch_stamped hi st

theorem reg_raiseAt_low {o : Nat} (ho : o < RS_HURDLE_CNT_E 0) (hg : o ≠ RS_GSTAT) (n : Nat) (st : Stamp) (p0 p1 : Nat) :
    (s.raiseAt n st p0 p1).reg o = s.reg o :=
  List.foldlRecOn (motive := fun t : State => t.reg o = s.reg o) _ _ rfl (fun _ ht x _ => (reg_fireEdge ho hg x.1 x.2 st).trans ht)
end

/-! ### A ring during an emulated Rest (R418, R510) -/

section
variable {s : State}

/-- After its wake the ring writes registers of the mailbox alone. -/
theorem wakeLatch_mbRing (hm : s.pw.mode = .rest) (m auth : Nat) :
    (s.mbRing m auth).flag EC_WAKE_LATCH ⟨10, 1⟩ = (s.wakeSet 10 s.wakeStamp false).flag EC_WAKE_LATCH ⟨10, 1⟩ := by
  refine flag_of_reg ?_
  rw [State.mbRing, if_pos hm]
  dsimp only
  split
  · exact reg_inc_ne _ _ _ (by simp only [EC_WAKE_LATCH, MB_REJ_CNT]; omega)
  · rw [reg_inc_ne _ _ _ (by simp only [EC_WAKE_LATCH, MB_CMD_CNT]; omega), reg_setFld_ne _ _ _ _ _ (by simp only [EC_WAKE_LATCH, MB_STAT]; omega),
      reg_setFld_ne _ _ _ _ _ (by simp only [EC_WAKE_LATCH, MB_STAT]; omega)]
    rfl

theorem flag_respond (p : Port) (c : Nat) (d : BitVec 64) (o : Nat) (f : Fld) : (s.respond p c d).flag o f = s.flag o f := (rfl)

theorem wakeSet_raised (i : Nat) (st : Stamp) : RaisedFrom s (s.wakeSet i st false) := by
  unfold State.wakeSet
  extract_lets was u v
  have latched : RaisedFrom s u := RaisedFrom.setFlag s _ _ true
  exact .ite (.ite latched (latched.trans ((RaisedFrom.setReg64 u _ _ st).trans ⟨rfl⟩))) (.refl s)

theorem pw_mbRing (hm : s.pw.mode = .rest) (m auth : Nat) : (s.mbRing m auth).pw = s.pw := by
  refine Eq.trans ?_ (wakeSet_raised 10 s.wakeStamp).pw
  rw [State.mbRing, if_pos hm]
  dsimp only
  split <;> rfl

theorem wakeCheck_rest (hm : s.pw.mode = .rest) : s.wakeCheck = s ∨ s.wakeCheck = s.returnBegin.setPdwait := by
  unfold State.wakeCheck
  rw [hm]
  rcases s.wakeLatch with - | i
  · exact .inl rfl
  · exact ite_eq_or_eq _ _ _

theorem hostHeld_returnBegin : s.returnBegin.setPdwait.pw.hostHeld = s.pw.hostHeld := by
  rw [State.setPdwait, setFld_pw, State.returnBegin, setFld_pw]

/-- The return from Rest that a latch begins writes PM_STAT. -/
theorem wakeLatch_settle (hm : s.pw.mode = .rest) (hh : s.pw.hostHeld = []) :
    s.settle.flag EC_WAKE_LATCH ⟨10, 1⟩ = s.flag EC_WAKE_LATCH ⟨10, 1⟩ := by
  refine flag_of_reg ?_
  rcases wakeCheck_rest hm with h | h
  · rw [State.settle, h]
    exact congrArg (State.reg · EC_WAKE_LATCH) (if_neg (fun hheld => hheld.1 hh))
  · rw [State.settle, h]
    refine (congrArg (State.reg · EC_WAKE_LATCH) (if_neg (fun hheld => hheld.1 (hostHeld_returnBegin.trans hh)))).trans ?_
    rw [State.setPdwait, reg_setFld_ne _ _ _ _ _ (by decide), State.returnBegin, reg_setFld_ne _ _ _ _ _ (by decide)]
    rfl
end

/-- An emulated Rest with WL10 enabled, in which an unlocked debugger finds its mailbox MB28 BUSY. -/
def emulatedRest : State :=
  { State.reset with
    pw := { mode := .rest, fast := true, emu := true }
    regs := [(EC_WAKE_EN, 0x400), (MB_STAT 28, 1), (DB_STAT, 2)] }

theorem emulatedRest_takes : emulatedRest.takes .dam (MB_DOORBELL (28 : Fin 32)) 1 = true := by decide +kernel

/-- Refutes O44: the clause on a ring of a BUSY mailbox allows every mode, and in Rest a ring sets WL10 before anything else. The debug
port is open in an emulated Rest: in `emulatedRest` the rejected ring leaves the latch of WL10 set, where the clause would leave it clear. -/
theorem not_mailboxesAndChecks : ¬ Obligations.MailboxesAndChecks := by
  unfold Obligations.MailboxesAndChecks
  rintro ⟨rejected, -⟩
  obtain ⟨hadm, hword⟩ := takes_iff.mp emulatedRest_takes
  have h := Host.Outcome.next.inj ((regCmd_MB_DOORBELL 28 hadm).symm.trans (rejected .dam 28 emulatedRest emulatedRest_takes (by decide +kernel)))
  rw [hword, show vbit 1 0 = true from rfl] at h
  have hclear : emulatedRest.flag EC_WAKE_LATCH ⟨10, 1⟩ = false := by decide +kernel
  have hen : bitOf (emulatedRest.nat EC_WAKE_EN) 10 = true := by decide +kernel
  have hlatch := congrArg (State.flag · EC_WAKE_LATCH ⟨10, 1⟩) h
  simp only [State.after, if_true] at hlatch
  have hrest : (emulatedRest.logged .dam (MB_DOORBELL (28 : Fin 32)) 1).pw = emulatedRest.pw := logged_pw _ _ _ _
  have hmode : (emulatedRest.logged .dam (MB_DOORBELL (28 : Fin 32)) 1).pw.mode = .rest := congrArg PwState.mode hrest
  rw [wakeLatch_settle (by rw [respond_pw, pw_mbRing hmode]; exact hmode) (by rw [respond_pw, pw_mbRing hmode, hrest]; rfl),
    wakeLatch_settle (by rw [respond_pw, inc_pw]; exact hmode) (by rw [respond_pw, inc_pw, hrest]; rfl), flag_respond, flag_respond,
    wakeLatch_mbRing hmode, wakeLatch_wakeSet (by decide) (by rw [logged_nat]; exact hen) (by rw [← flag_eq_bitOf, logged_flag]; exact hclear),
    flag_of_reg (reg_inc_ne _ _ _ (by decide)), logged_flag, hclear] at hlatch
  exact absurd hlatch (by decide)

/-! ### An edge on a WAKE pin during start-up (R354) -/

theorem wakeCheck_startup {s : State} (hm : s.pw.mode = .startup) : s.wakeCheck = s := by
  unfold State.wakeCheck
  rw [hm]

/-- Start-up with its clock running and WL0 enabled. -/
def wakingStartup : State := { State.reset with pw := { mode := .startup, fast := true }, regs := [(EC_WAKE_EN, 1)] }

/-- Refutes O40: the clause on the edge of a WAKE pin asks only that CLK_FAST clocks the block, which it does in start-up as well, and
there no edge sets a latch. In `wakingStartup` the edge leaves the latch of WL0 clear, where the clause would set it. -/
theorem not_eventConcentrator : ¬ Obligations.EventConcentrator := by
  unfold Obligations.EventConcentrator
  rintro ⟨-, -, -, -, -, -, -, -, -, -, -, -, -, edge, -⟩
  have hclear : bitOf (wakingStartup.nat EC_WAKE_LATCH) 0 = false := by decide +kernel
  have h := edge 0 true 0 wakingStartup rfl (by decide +kernel) (by decide +kernel) hclear
  have hedge : exec (.wakeLatchSet (.pin 0 true) 0) wakingStartup = .next wakingStartup := congrArg Host.Outcome.next (if_pos (Or.inr rfl))
  have hlatch := congrArg (State.flag · EC_WAKE_LATCH ⟨0, 1⟩) (Host.Outcome.next.inj (hedge.symm.trans h))
  have hlatched := wakeLatch_stamped (s := wakingStartup) (i := 0) (by decide) (wakingStartup.edgeStamp 0)
  dsimp only at hlatch
  rw [flag_eq_bitOf, hclear, wakeCheck_startup ((congrArg PwState.mode (RaisedFrom.raiseAt _ _ _ _ _).pw).trans rfl),
    flag_of_reg (reg_raiseAt_low (by decide) (by decide) _ _ _ _)] at hlatch
  exact absurd (hlatch.trans hlatched) (by decide)

end Sys2Proof.Machine
end

section
/-!
Proofs about the mailbox commands on identity, events and flocks (16_mailbox_commands.md R417, R422, R427).
-/

namespace Sys2Proof.Machine

/-! ### What an accepted command holds (R417, R420) -/

section
variable {s t : State} {m : Fin 32} {op : Nat} {auth : List CkAuth} {buf : Bool} {named : Nat → Nat} {k : Ck}
  (h : s.commanded m op auth buf named = some (k, t))
include h

theorem commanded_eq : k = ⟨m, if t.mbBuf m then 4 else 0, (s.mbAccept m).1⟩ := by
  obtain ⟨-, hkt⟩ := Option.ite_none_right_eq_some.mp h
  obtain ⟨rfl, rfl⟩ := Prod.mk.inj (Option.some.inj hkt)
  rfl

theorem commanded_m : k.m = m := by rw [commanded_eq h]

/-- A command just accepted keeps no number for a wait. -/
theorem commanded_wait (a : Nat) : { k.w with a := a } = { k.w with a := a, b := 0 } := by rw [commanded_eq h]; rfl

theorem commanded_b : k.b ≤ 4 := by
  rw [commanded_eq h]
  dsimp only
  split <;> omega
end

/-! ### One register written (R422) -/

section
variable {s u : State} {cnts : List Nat} {d e off : Nat} {v : Word}

theorem ckWrites_single : s.ckWrites cnts [(d, off, v)] = (if (s.ckWrite cnts off v).1 then some d else none, (s.ckWrite cnts off v).2) := by
  simp only [State.ckWrites]
  split <;> rfl

theorem ckWrite_of_written (h : s.ckWrites cnts [(d, off, v)] = (none, u)) : s.ckWrite cnts off v = (false, u) := by
  rw [ckWrites_single] at h
  obtain ⟨hbad, hu⟩ := Prod.mk.inj h
  exact Prod.ext (by simpa using hbad) hu

theorem ckWrite_of_refused (h : s.ckWrites cnts [(d, off, v)] = (some e, u)) : s.ckWrite cnts off v = (true, u) := by
  rw [ckWrites_single] at h
  obtain ⟨hbad, hu⟩ := Prod.mk.inj h
  exact Prod.ext (Option.ite_none_right_eq_some.mp hbad).1 hu

/-- The word at fault of a single refused write is its own. -/
theorem ckSet_single_refused (h : s.ckWrites cnts [(d, off, v)] = (some e, u)) : s.ckSet cnts [(d, off, v)] = .reply 8 d [] u := by
  rw [ckSet_refused h]
  rw [ckWrites_single] at h
  obtain ⟨-, hd⟩ := Option.ite_none_right_eq_some.mp (Prod.mk.inj h).1
  rw [Option.some.inj hd]
end

/-! ### The commands on identity, events and flocks (R427) -/

section
variable {s u : State} {k : Ck}

/-- A mailbox that is no flock's finds no resource foreign. -/
theorem foreign_of_no_flock (hf : k.flock = none) (f : Nat) : k.foreign f = false := by rw [Ck.foreign, hf]

/-- EVT_ROUTE of a mailbox that is no flock's checks the target only. -/
theorem ckEvtRoute_sets (hf : k.flock = none) (ht : bitsOf (k.d s 0) 16 5 < 22) : State.ckEvtRoute k s = s.ckSet [EC_CFG_REFUSED]
    [(0, EC_TARGET (bitsOf (k.d s 0) 0 10),
      ckWord (withBits (withBits (s.nat (EC_TARGET (bitsOf (k.d s 0) 0 10))) 0 5 (bitsOf (k.d s 0) 16 5)) 31 1 (bitsOf (k.d s 0) 31 1)))] := by
  have hline (b : Bool) : (k.flock.isSome && b) = false := by rw [hf]; rfl
  simp only [State.ckEvtRoute, ckDo_passes (hline _), ckDo_passes (decide_eq_false (Nat.not_le.mpr ht)), ckDo_passes (foreign_of_no_flock hf _),
    ckDo_nil]

theorem ckEvtRoute_badarg (hf : k.flock = none) (ht : 22 ≤ bitsOf (k.d s 0) 16 5) : State.ckEvtRoute k s = .reply 3 0 [] s := by
  have hline (b : Bool) : (k.flock.isSome && b) = false := by rw [hf]; rfl
  simp only [State.ckEvtRoute, ckDo_passes (hline _), ckDo_fails (decide_eq_true ht)]

theorem ckEvtHoldoff_writes (hg : k.d s 0 < 64) (hn : k.d s 1 < 65536) :
    State.ckEvtHoldoff k s = .reply 0 0 [] (s.ckPoke (EG_HOLDOFF (k.d s 0)) (ckWord (k.d s 1))) :=
  (ckDo_passes (decide_eq_false (Nat.not_le.mpr hg))).trans
    ((ckDo_passes (decide_eq_false (Nat.not_le.mpr hn))).trans (ckDo_nil.trans ckSet_uncounted))

theorem ckPeerEvent_raises (hb : bitOf (s.nat (MB_CFG k.m)) (bitsOf (k.d s 0) 0 5) = true) : State.ckPeerEvent k s = .reply 0 0 []
    (((s.ckPoke (EC_SW_PAY 0) (ckWord (k.d s 1))).ckPoke (EC_SW_PAY 1) (ckWord (tget (fun _ => 0) s.mb.peerSrc k.m % 256))).ckPoke EC_SW_RAISE
      (ckWord (992 + bitsOf (k.d s 0) 0 5))) := by
  simp only [State.ckPeerEvent, ckDo_passes (congrArg not hb), ckDo_nil]
  exact ckSet_uncounted

theorem ckPeerEvent_denied (hb : bitOf (s.nat (MB_CFG k.m)) (bitsOf (k.d s 0) 0 5) = false) : State.ckPeerEvent k s = .reply 4 0 [] s := by
  simp only [State.ckPeerEvent, ckDo_fails (congrArg not hb)]

theorem ckFlkEnable_enables (he : bitOf (k.d s 0) 8 = true) (hc : s.notClean (bitsOf (k.d s 0) 0 4) = false)
    (hw : s.ckWrites [FLK_CFG_REFUSED] [(0, FLK_CTRL (bitsOf (k.d s 0) 0 4), 1)] = (none, u)) : State.ckFlkEnable k s = .reply 0 0 [] u := by
  simp only [State.ckFlkEnable, he, Bool.true_and]
  exact (ckDo_passes hc).trans (ckSet_writes hw)

theorem ckFlkEnable_busy (he : bitOf (k.d s 0) 8 = true) (hc : s.notClean (bitsOf (k.d s 0) 0 4) = true) :
    State.ckFlkEnable k s = .reply 6 0 [] s := by
  simp only [State.ckFlkEnable, he, Bool.true_and]
  exact ckDo_fails hc

theorem ckFlkReset_badarg (hf : 16 ≤ k.flock.getD (k.d s 0)) : State.ckFlkReset k s = .reply 3 0 [] s := by
  simp only [State.ckFlkReset, ckDo_fails (decide_eq_true hf)]

/-- FLK_RESET of a flock that exists waits, unless the flock is not CLEAN and no reset of it waits already. -/
theorem ckFlkReset_asks (hf : k.flock.getD (k.d s 0) < 16) : State.ckFlkReset k s =
    if (s.notClean (k.flock.getD (k.d s 0)) && tget (fun _ => 0) s.flkReq (k.flock.getD (k.d s 0)) == 0) = true
    then .reply 6 0 [] (s.flockReset (k.flock.getD (k.d s 0)) (3 + k.m * 256))
    else .wait (k.flock.getD (k.d s 0)) (s.flockInc (k.flock.getD (k.d s 0))) (s.flockReset (k.flock.getD (k.d s 0)) (3 + k.m * 256)) := by
  simp only [State.ckFlkReset, ckDo_passes (decide_eq_false (Nat.not_le.mpr hf)), ckDo_nil]

/-- FLK_ASSIGN of one queue writes the owner into its descriptor. -/
theorem ckFlkAssign_queue (hkind : bitsOf (k.d s 0) 8 4 = 5) (hq : k.d s 1 < 4096) (hn : k.d s 2 = 1)
    (hw : s.ckWrites [QF_CFG_REFUSED]
      [(0, QF_QCFG (k.d s 1), ckWord (withBits (s.nat (QF_QCFG (k.d s 1))) 24 4 (bitsOf (k.d s 0) 0 4)))] = (none, u)) :
    State.ckFlkAssign k s = .reply 0 0 [ckWord 1] u := by
  have hsum : decide (4096 < k.d s 1 + 1) = false := by simpa using hq
  simp only [State.ckFlkAssign, hkind, hn, assignCount]
  rw [ckDo_passes (decide_eq_false (by decide : ¬8 ≤ 5)), ckDo_passes (decide_eq_false (Nat.not_le.mpr hq)), ckDo_passes hsum]
  simp only [ckDo_nil, hn, State.assignFrom, assignField, ckWrite_of_written hw, Bool.false_eq_true, if_false]

theorem ckFlkAssign_badarg (hkind : 8 ≤ bitsOf (k.d s 0) 8 4) : State.ckFlkAssign k s = .reply 3 0 [] s := by
  simp only [State.ckFlkAssign, ckDo_fails (decide_eq_true hkind)]

theorem ckFlkStatus_replies (hf : k.flock.getD (k.d s 0) < 16) : State.ckFlkStatus k s =
    let f := k.flock.getD (k.d s 0)
    .reply 0 0 [s.flkStat f, s.reg (FLK_DENIED_CNT f), s.reg (FLK_STALE_CNT f), s.reg (FLK_RESET_CNT f), s.reg (FLK_RESET_REFUSED f),
      s.reg (MB_CFG (4 + f))] s :=
  ckDo_passes (decide_eq_false (Nat.not_le.mpr hf))

/-- UNIT_MAP of a stopped generator that takes a logical number writes its map, and its fence drops. -/
theorem ckUnitMap_maps (hkind : k.d s 0 = 1) (hu : k.d s 1 < 52) (hv : bitOf (k.d s 2) 6 = true) (hl : bitsOf (k.d s 2) 0 6 < 48)
    (hs : s.unitStopped 1 (k.d s 1) = true) (hr : s.unitRetired 1 (k.d s 1) = false)
    (hw : s.ckWrites [PW_CFG_REFUSED (k.d s 1)]
      [(2, PW_MAP (k.d s 1), ckWord (withBits (s.nat (PW_MAP (k.d s 1))) 0 7 (bitsOf (k.d s 2) 0 7)))] = (none, u)) :
    State.ckUnitMap k s = .reply 0 0 [] ((u.setFence 1 (k.d s 1) false).markIdle 1 (k.d s 1)) := by
  have hunit : decide (physCount 1 ≤ k.d s 1) = false := decide_eq_false (Nat.not_le.mpr hu)
  have hlog : (true && decide (activeCount 1 ≤ bitsOf (k.d s 2) 0 6)) = false := decide_eq_false (Nat.not_le.mpr hl)
  have hkind3 : bitsOf 1 0 3 = 1 := rfl
  simp only [State.ckUnitMap, hkind, hv, hkind3]
  rw [ckDo_passes (decide_eq_false (by decide : ¬5 ≤ 1)), ckDo_passes hunit, ckDo_passes hlog, ckDo_passes (congrArg not hs),
    ckDo_passes ((Bool.true_and _).trans hr)]
  simp only [ckDo_nil, mapReg, unitRefused, ckWrite_of_written hw, Bool.false_eq_true, if_false, Bool.not_true]

/-- A unit that runs keeps its map. -/
theorem ckUnitMap_running (hkind : k.d s 0 = 1) (hu : k.d s 1 < 52) (hv : bitOf (k.d s 2) 6 = false)
    (hs : s.unitStopped 1 (k.d s 1) = false) : State.ckUnitMap k s = .reply 7 0 [] s := by
  have hunit : decide (physCount 1 ≤ k.d s 1) = false := decide_eq_false (Nat.not_le.mpr hu)
  have hkind3 : bitsOf 1 0 3 = 1 := rfl
  simp only [State.ckUnitMap, hkind, hv, hkind3]
  rw [ckDo_passes (decide_eq_false (by decide : ¬5 ≤ 1)), ckDo_passes hunit, ckDo_passes (Bool.false_and _), ckDo_fails (congrArg not hs)]

theorem ckMbSetcfg_writes (hm : k.d s 0 < 32) :
    State.ckMbSetcfg k s = .reply 0 0 [] (s.ckPoke (MB_CFG (k.d s 0)) (ckWord (k.d s 1))) :=
  (ckDo_passes (decide_eq_false (Nat.not_le.mpr hm))).trans (ckDo_nil.trans ckSet_uncounted)
end

/-- Settles O45: a command that Crook takes ends as its body says (`crook_replies`, `crook_waits`), and each body as the lemma of its
command above says. -/
theorem crookEventsAndFlocks : Obligations.CrookEventsAndFlocks := by
  unfold Obligations.CrookEventsAndFlocks
  refine ⟨?ident, ?route, ?routeRefused, ?routeBad, ?holdoff, ?peer, ?peerDenied, ?enable, ?enableBusy, ?reset, ?resetBusy, ?resetBad,
    ?assign, ?assignBad, ?status, ?map, ?mapRunning, ?setcfg⟩
  case ident =>
    intro m k s t h
    exact show execIdent m s = _ from crook_replies h rfl
  case route =>
    intro m k s t u h hf ht hw
    exact show execEvtRoute m s = _ from crook_replies h ((ckEvtRoute_sets hf ht).trans (ckSet_writes hw))
  case routeRefused =>
    intro m k s t u d h hf ht hw
    exact show execEvtRoute m s = _ from crook_replies h ((ckEvtRoute_sets hf ht).trans (ckSet_single_refused hw))
  case routeBad =>
    intro m k s t h hf ht
    exact show execEvtRoute m s = _ from crook_replies h (ckEvtRoute_badarg hf ht)
  case holdoff =>
    intro m k s t h hg hn
    exact show execEvtHoldoff m s = _ from crook_replies h (ckEvtHoldoff_writes hg hn)
  case peer =>
    intro m k s t h hb
    rw [← commanded_m h] at hb ⊢
    exact show execPeerEvent m s = _ from crook_replies h (ckPeerEvent_raises hb)
  case peerDenied =>
    intro m k s t h hb
    rw [← commanded_m h] at hb
    exact show execPeerEvent m s = _ from crook_replies h (ckPeerEvent_denied hb)
  case enable =>
    intro m k s t u h he hc hw
    exact show execFlkEnable m s = _ from crook_replies h (ckFlkEnable_enables he hc hw)
  case enableBusy =>
    intro m k s t h he hc
    exact show execFlkEnable m s = _ from crook_replies h (ckFlkEnable_busy he hc)
  case reset =>
    intro m k s t h hf hc
    have hwaits : ¬(t.notClean (k.flock.getD (k.d t 0)) && tget (fun _ => 0) t.flkReq (k.flock.getD (k.d t 0)) == 0) = true := by
      rcases hc with hc | hc <;> simp [hc]
    rw [← commanded_m h]
    exact show execFlkReset m s = _ from crook_waits h ((ckFlkReset_asks hf).trans (if_neg hwaits))
  case resetBusy =>
    intro m k s t h hf hc hq
    have hrefused : (t.notClean (k.flock.getD (k.d t 0)) && tget (fun _ => 0) t.flkReq (k.flock.getD (k.d t 0)) == 0) = true := by
      simp [hc, hq]
    rw [← commanded_m h]
    exact show execFlkReset m s = _ from crook_replies h ((ckFlkReset_asks hf).trans (if_pos hrefused))
  case resetBad =>
    intro m k s t h hf
    exact show execFlkReset m s = _ from crook_replies h (ckFlkReset_badarg hf)
  case assign =>
    intro m k s t u h hkind hq hn hw
    exact show execFlkAssign m s = _ from crook_replies h (ckFlkAssign_queue hkind hq hn hw)
  case assignBad =>
    intro m k s t h hkind
    exact show execFlkAssign m s = _ from crook_replies h (ckFlkAssign_badarg hkind)
  case status =>
    rintro m k s t f h rfl hf
    exact show execFlkStatus m s = _ from crook_replies h (ckFlkStatus_replies hf)
  case map =>
    intro m k s t u h hkind hu hv hl hs hr hw
    exact show execUnitMap m s = _ from crook_replies h (ckUnitMap_maps hkind hu hv hl hs hr hw)
  case mapRunning =>
    intro m k s t h hkind hu hv hs
    exact show execUnitMap m s = _ from crook_replies h (ckUnitMap_running hkind hu hv hs)
  case setcfg =>
    intro m k s t h hm
    exact show execMbSetcfg m s = _ from crook_replies h (ckMbSetcfg_writes hm)

end Sys2Proof.Machine
end

section
/-!
Proofs about the mailbox commands on generators, trips, armed responses and queues (16_mailbox_commands.md R431).
-/

namespace Sys2Proof.Machine

/-! ### The first index that satisfies a condition -/

theorem firstFrom_lt {p : Nat → Bool} : ∀ {a n i : Nat}, firstFrom p a n = some i → i < a + n
  | _, 0, _, h => nomatch h
  | a, n + 1, i, h => by
    unfold firstFrom at h
    split at h
    · cases h; omega
    · have := firstFrom_lt h; omega

theorem firstIdx_lt {p : Nat → Bool} {n i : Nat} (h : firstIdx p n = some i) : i < n := by simpa using firstFrom_lt h

theorem findUnit_lt {s : State} {kind l i : Nat} (h : s.findUnit kind l = some i) : i < physCount kind := firstIdx_lt h

/-! ### Crook's write of PW_DW_VAL (R238, R460) -/

/-- PW_DW_VAL of generator g as the register map has it. -/
def dwValAt (g : Nat) : RegAt := ⟨g, ⟨0x80, 1, 0x4, false, true, false, [⟨31, 0, .RW, 0, .L2⟩]⟩, 0⟩

section
variable {s : State} {g o : Nat} {v : Word}

theorem findReg_dwVal (hg : g < 52) : findReg (PW_DW_VAL g) regBlocks = some (dwValAt g) := by
  rw [show PW_DW_VAL g = 0x220000 + g * 0x800 + 0x80 by simp only [PW_DW_VAL]; omega]
  exact findReg_blkPG hg (by decide) rfl

theorem writableFields_dwVal (hg : g < 52) : s.writableFields crookMaster (PW_DW_VAL g) (dwValAt g) = [⟨31, 0, .RW, 0, .L2⟩] := by
  have hpart : mboxPart (PW_DW_VAL g) = 0 := if_neg (by simp only [PW_DW_VAL]; omega)
  have hlock : s.lockOf (PW_DW_VAL g) (dwValAt g) = false := by
    rw [State.lockOf, if_neg (by simp only [PW_DW_VAL, FLK_GCFG]; omega), if_neg (by simp only [PW_DW_VAL, SH_CTRL]; omega),
      if_neg (by simp only [PW_DW_VAL, SH_WDG_CTRL, SH_WDG_TIME]; omega), if_neg (by simp only [PW_DW_VAL, SH_PU]; omega),
      if_neg (by simp only [PW_DW_VAL]; omega)]
  have heng : decide (0x410000 ≤ PW_DW_VAL g) = false := decide_eq_false (by simp only [PW_DW_VAL]; omega)
  simp only [State.writableFields, hpart, hlock, heng, Bool.false_and]
  rfl

/-- Below the generators' registers a write of PW_DW_VAL, delivered to a shadow as well, writes nothing. -/
theorem reg_pwPair_dwVal (ho : o < 0x220000) : (s.pwPair crookMaster g 0x80 0 (PW_DW_VAL g) v v).reg o = s.reg o := by
  have hset (u : State) (j : Nat) : (u.setReg (PW_DW_VAL g - PW_MAP g + PW_MAP j) v).reg o = u.reg o :=
    reg_setReg_ne _ _ _ _ (by simp only [PW_MAP]; omega)
  simp only [State.pwPair, State.pwWrite, State.toGen]
  split
  · exact absurd ‹_› (by decide)
  · split
    · exact (hset _ _).trans (hset _ _)
    · exact hset _ _

theorem reg_ckPoke_dwVal (hg : g < 52) (ho : o < 0x220000) : (s.ckPoke (PW_DW_VAL g) v).reg o = s.reg o := by
  have hreserved : v &&& ~~~(fieldBits (dwValAt g).desc) = 0 := by
    rw [show ~~~(fieldBits (dwValAt g).desc) = 0#32 from (by decide : ~~~(fieldBits (dwValAt 0).desc) = 0#32)]
    exact BitVec.and_zero
  have hfields : (s.writableFields crookMaster (PW_DW_VAL g) (dwValAt g)).filter (fun f => f.mask &&& beMask 15 ≠ 0) ≠ [] := by
    rw [writableFields_dwVal hg]
    decide
  have hdebug : (decide (0x80000 ≤ PW_DW_VAL g) && decide (PW_DW_VAL g < 0xA0000)) = false := by
    rw [decide_eq_false (show ¬PW_DW_VAL g < 0xA0000 by simp only [PW_DW_VAL]; omega), Bool.and_false]
  have hclears (u : State) : u.clearsMark (PW_DW_VAL g) 15 = false := clearsMark_out (by simp only [PW_DW_VAL]; omega)
  have hwo : ~~~(woBits (dwValAt g).desc) = BitVec.allOnes 32 := by
    exact (by decide : ~~~(woBits (dwValAt 0).desc) = BitVec.allOnes 32)
  show (s.regWrite32 crookMaster (PW_DW_VAL g) v 15).st.reg o = _
  rw [regWrite32_open (findReg_dwVal hg) rfl hreserved hfields (.inl hdebug)]
  simp only [hclears, Bool.false_eq_true, if_false, hwo, BitVec.and_allOnes]
  rw [regEffect_pw (by simp only [PW_DW_VAL]; omega) (by simp only [PW_DW_VAL]; omega)]
  exact reg_pwPair_dwVal ho

/-- The words of a command outlive Crook's write of PW_DW_VAL. -/
theorem d_ckPoke_dwVal {k : Ck} {i : Nat} (hg : g < 52) (hm : k.m < 32) (hb : k.b ≤ 4) (hi : i < 5) :
    k.d (s.ckPoke (PW_DW_VAL g) v) i = k.d s i :=
  congrArg BitVec.toNat (reg_ckPoke_dwVal hg (by simp only [MB_REQ]; omega))
end

/-! ### The commands on generators (R431) -/

section
variable {s u : State} {k : Ck} {g : Nat}

theorem ckGen_of_found {l : Nat} (h : s.findUnit 1 l = some g) : s.ckGen l = g := by rw [State.ckGen, h, Option.getD_some]

/-- A logical unit that a unit carries passes its check. -/
theorem findUnit_isNone_of_found {l : Nat} (h : s.findUnit 1 l = some g) : (s.findUnit 1 l).isNone = false := by rw [h]; rfl

theorem ckPwConfig_writes (hg : s.findUnit 1 (k.d s 0) = some g)
    (hw : s.ckWrites [PW_CFG_REFUSED g] [(1, PW_CFG g, ckWord (k.d s 1)), (2, PW_PERIOD g, ckWord (k.d s 2)), (3, PW_ACT_A g, ckWord (k.d s 3)),
      (4, PW_ACT_B g, ckWord (k.d s 4)), (5, PW_DT_A g, ckWord (k.d s 5)), (6, PW_DT_B g, ckWord (k.d s 6))] = (none, u)) :
    State.ckPwConfig k s = .reply 0 0 [] u := by
  simp only [State.ckPwConfig, State.unitArg, ckDo_passes (findUnit_isNone_of_found hg), ckDo_nil, ckGen_of_found hg, ckSet_writes hw]

theorem ckPwConfig_badarg (hg : s.findUnit 1 (k.d s 0) = none) : State.ckPwConfig k s = .reply 3 0 [] s := by
  have hnone : (s.findUnit 1 (k.d s 0)).isNone = true := by rw [hg]; rfl
  simp only [State.ckPwConfig, State.unitArg, ckDo_fails hnone]

theorem ckPwXbar_writes (hj : k.d s 0 < 96) (hg : s.findUnit 1 (bitsOf (k.d s 1) 0 6) = some g)
    (hw : s.ckWrites [TR_ARM_REFUSED] [(1, PW_XBAR (k.d s 0), ckWord (withBits (k.d s 1) 0 6 g))] = (none, u)) :
    State.ckPwXbar k s = .reply 0 0 [] u := by
  simp only [State.ckPwXbar, State.unitArg, List.cons_append, List.nil_append, ckDo_passes (decide_eq_false (Nat.not_le.mpr hj)),
    ckDo_passes (findUnit_isNone_of_found hg), ckDo_nil, ckGen_of_found hg, ckSet_writes hw]

/-- PW_START of one generator with CMD 1 waits only for its flock. -/
theorem ckPwStart_one (hf : k.flock = none) (hl : k.d s 0 < 48) (hg : s.findUnit 1 (k.d s 0) = some g) (hn : k.d s 1 = 1) (hc : k.d s 2 = 1) :
    State.ckPwStart k s = s.ckDo [(s.notClean (s.unitFlock 1 g), 6, 0)] (fun u => u.startFrom (k.d s 0) 1 (k.d64 u 3) 1) := by
  have hone : List.range (min 1 64) = [0] := rfl
  have hrange : (decide (48 ≤ k.d s 0) || (s.findUnit 1 (k.d s 0)).isNone) = false := by
    rw [decide_eq_false (Nat.not_le.mpr hl), findUnit_isNone_of_found hg, Bool.false_or]
  have hend : decide (48 < k.d s 0 + 1) = false := by simpa using hl
  simp only [State.ckPwStart, hn, hc, hone, List.any_cons, List.any_nil, Nat.add_zero, Bool.or_false, ckDo_passes hrange, ckDo_passes hend,
    ckGen_of_found hg]
  rw [ckDo_passes (by decide), ckDo_passes (foreign_of_no_flock hf _), (by decide : (1 != 3) = true), Bool.true_and]

theorem ckPwStart_starts (hf : k.flock = none) (hl : k.d s 0 < 48) (hg : s.findUnit 1 (k.d s 0) = some g) (hn : k.d s 1 = 1) (hc : k.d s 2 = 1)
    (hq : s.notClean (s.unitFlock 1 g) = false) (hw : s.ckWrites [PW_CFG_REFUSED g] [(2, PW_CTRL g, 1)] = (none, u)) :
    State.ckPwStart k s = .reply 0 0 [] u := by
  have hwrite : s.ckWrite [PW_CFG_REFUSED g] (PW_CTRL g) (ckWord 1) = (false, u) := ckWrite_of_written hw
  rw [ckPwStart_one hf hl hg hn hc, ckDo_passes hq, ckDo_nil]
  simp only [State.startFrom, ckGen_of_found hg, hwrite, Bool.false_eq_true, if_false, (by decide : ¬1 = 2)]

theorem ckPwStart_busy (hf : k.flock = none) (hl : k.d s 0 < 48) (hg : s.findUnit 1 (k.d s 0) = some g) (hn : k.d s 1 = 1) (hc : k.d s 2 = 1)
    (hq : s.notClean (s.unitFlock 1 g) = true) : State.ckPwStart k s = .reply 6 0 [] s := by
  rw [ckPwStart_one hf hl hg hn hc, ckDo_fails hq]

theorem ckPwDuty_writes (hm : k.m < 32) (hb : k.b ≤ 4) (hf : k.flock = none) (hg : s.findUnit 1 (bitsOf (k.d s 0) 0 6) = some g)
    (hmode : bitsOf (k.d s 0) 10 2 ≠ 3)
    (hw : (((s.ckPoke (PW_DW_VAL g) (ckWord (k.d s 1))).ckPoke (PW_DW_TIME_LO g) (ckWord (k.d s 2))).ckPoke (PW_DW_TIME_HI g)
      (ckWord (k.d s 3))).ckWrites [PW_CFG_REFUSED g]
        [(0, PW_DW_CTRL g, ckWord (2 ^ 31 + bitsOf (k.d s 0) 12 1 * 2 ^ 5 + bitsOf (k.d s 0) 10 2 * 2 ^ 3 + bitsOf (k.d s 0) 8 2))] = (none, u)) :
    State.ckPwDuty k s = .reply 0 0 [] u := by
  have hmode3 : (bitsOf (k.d s 0) 10 2 == 3) = false := by simpa using hmode
  have hkept (v : Word) (i : Nat) (hi : i < 5) : k.d (s.ckPoke (PW_DW_VAL g) v) i = k.d s i := d_ckPoke_dwVal (findUnit_lt hg) hm hb hi
  simp only [State.ckPwDuty, State.unitArg, Ck.unitOwn, List.cons_append, List.nil_append, ckDo_passes (findUnit_isNone_of_found hg),
    ckDo_passes hmode3, ckDo_passes (foreign_of_no_flock hf _), ckDo_nil, ckGen_of_found hg, hkept _ 2 (by decide), hkept _ 3 (by decide)]
  exact ckSet_writes hw
end

/-! ### The commands on trips and armed responses (R431) -/

section
variable {s u : State} {k : Ck}

theorem ckTripConfig_writes (hn : k.d s 0 < 64) (hw : s.ckWrites [TR_ARM_REFUSED] [(1, TR_CFG (k.d s 0), ckWord (k.d s 1))] = (none, u)) :
    State.ckTripConfig k s = .reply 0 0 [] u :=
  (ckDo_passes (decide_eq_false (Nat.not_le.mpr hn))).trans (ckDo_nil.trans (ckSet_writes hw))

/-- AR_WRITE of an entry with a trip group writes the group after the entry. -/
theorem ckArWrite_writes {r : Nat} (hr : r = k.d s 0) (hr16 : r < 16)
    (hw : s.ckWrites [TR_ARM_REFUSED] [(1, AR_OUT r 0, ckWord (k.d s 1)), (2, AR_OUT r 1, ckWord (k.d s 2)), (3, AR_OUT r 2, ckWord (k.d s 3)),
      (4, AR_LVL r 0, ckWord (k.d s 4)), (5, AR_LVL r 1, ckWord (k.d s 5)), (6, AR_LVL r 2, ckWord (k.d s 6)), (7, AR_CFG r, ckWord (k.d s 7)),
      (8, TG_MASK_LO r, ckWord (k.d s 8)), (9, TG_MASK_HI r, ckWord (k.d s 9)), (10, TG_CFG r, ckWord (k.d s 10))] = (none, u)) :
    State.ckArWrite k s = .reply 0 0 [] u := by
  have hentry : decide (17 ≤ r) = false := decide_eq_false (by omega)
  have hgroup : ¬r = 16 := by omega
  simp only [State.ckArWrite, ← hr, ckDo_passes hentry, ckDo_nil, hgroup, if_false, List.cons_append, List.nil_append, ckSet_writes hw]

theorem ckArWrite_badarg (hr : 17 ≤ k.d s 0) : State.ckArWrite k s = .reply 3 0 [] s := by
  simp only [State.ckArWrite, ckDo_fails (decide_eq_true hr)]

/-- Arming and disarming: a PREPARE, then the operation. -/
theorem ckArm_prepares {op : Nat} (hop : op ≠ 4) (hr : k.d s 0 < 17) : State.ckArm op k s =
    (s.ckPoke TR_ARM (ckWord (1 + k.d s 0 * 2 ^ 16 + 0x5A * 2 ^ 24))).ckSet [TR_ARM_REFUSED]
      [(0, TR_ARM, ckWord (op + k.d s 0 * 2 ^ 16 + 0xA5 * 2 ^ 24))] := by
  unfold State.ckArm
  rw [ckDo_passes (decide_eq_false (Nat.not_le.mpr hr)), ckDo_nil, if_neg hop, if_neg hop]

theorem ckArm_releases (hr : k.d s 0 < 17) : State.ckArm 4 k s =
    s.ckSet [TR_ARM_REFUSED] [(0, TR_ARM, ckWord (4 + k.d s 0 * 2 ^ 16 + 0x3C * 2 ^ 24))] := by
  unfold State.ckArm
  rw [ckDo_passes (decide_eq_false (Nat.not_le.mpr hr)), ckDo_nil, if_pos rfl, if_pos rfl]
end

/-! ### The commands on queues (R431) -/

section
variable {s u : State} {k : Ck}

theorem ckQConfig_writes (hq : k.d s 0 < 4096)
    (hw : s.ckWrites [QF_CFG_REFUSED] [(1, QF_QCFG (k.d s 0), ckWord (withBits (k.d s 1) 31 1 0)), (2, QF_QBASE (k.d s 0), ckWord (k.d s 2)),
      (3, QF_QWM (k.d s 0), ckWord (k.d s 3)), (1, QF_QCFG (k.d s 0), ckWord (k.d s 1))] = (none, u)) :
    State.ckQConfig k s = .reply 0 0 [] u := by
  simp only [State.ckQConfig, ckDo_passes (decide_eq_false (Nat.not_le.mpr hq)), ckDo_nil, ckSet_writes hw]

/-- Q_PIN writes the entry of CL_QPIN, and then looks for a copy. -/
theorem ckQPin_pins (hc : k.d s 0 < 8) (hi : k.d s 1 < 64) : State.ckQPin k s =
    let r := s.ckWrite [QF_CFG_REFUSED] (CL_QPIN (k.d s 0) (k.d s 1)) (ckWord (k.d s 2))
    let q := s.fld (CL_QPIN (k.d s 0) (k.d s 1)) fCL_QPIN_QUEUE
    let q' := bitsOf (k.d s 2) 0 12
    if r.1 then .reply 8 2 [] r.2 else if r.2.pinCopies q q' then .wait q q' r.2 else .reply 0 0 [] r.2 := by
  unfold State.ckQPin
  refine (ckDo_passes (decide_eq_false (Nat.not_le.mpr hc))).trans ((ckDo_passes (decide_eq_false (Nat.not_le.mpr hi))).trans (ckDo_nil.trans ?_))
  generalize s.ckWrite [QF_CFG_REFUSED] (CL_QPIN (k.d s 0) (k.d s 1)) (ckWord (k.d s 2)) = r
  obtain ⟨bad, u⟩ := r
  rfl

theorem ckQPin_waits (hc : k.d s 0 < 8) (hi : k.d s 1 < 64)
    (hw : s.ckWrites [QF_CFG_REFUSED] [(2, CL_QPIN (k.d s 0) (k.d s 1), ckWord (k.d s 2))] = (none, u))
    (hp : u.pinCopies (s.fld (CL_QPIN (k.d s 0) (k.d s 1)) fCL_QPIN_QUEUE) (bitsOf (k.d s 2) 0 12) = true) :
    State.ckQPin k s = .wait (s.fld (CL_QPIN (k.d s 0) (k.d s 1)) fCL_QPIN_QUEUE) (bitsOf (k.d s 2) 0 12) u := by
  simp only [ckQPin_pins hc hi, ckWrite_of_written hw, hp, Bool.false_eq_true, if_false, if_true]

theorem ckQPin_refused {e : Nat} (hc : k.d s 0 < 8) (hi : k.d s 1 < 64)
    (hw : s.ckWrites [QF_CFG_REFUSED] [(2, CL_QPIN (k.d s 0) (k.d s 1), ckWord (k.d s 2))] = (some e, u)) :
    State.ckQPin k s = .reply 8 2 [] u := by
  simp only [ckQPin_pins hc hi, ckWrite_of_refused hw, if_true]

/-- The checks of Q_SEED up to the seed in progress. -/
theorem ckQSeed_checked (hq : k.d s 0 < 4096) (hc : k.d s 1 < 16384) (h0 : 0 < k.d s 2) (hn : k.d s 2 ≤ 8192) : State.ckQSeed k s =
    s.ckDo [(s.flag QF_SEED_STAT fQF_SEED_STAT_BUSY, 6, 0)] (fun s' =>
      let r := (s'.ckPoke QF_SEED_Q (ckWord (k.d s 0))).ckWrite [QF_CFG_REFUSED] QF_SEED (ckWord (2 ^ 31 + (k.d s 2 - 1) * 2 ^ 16 + k.d s 1))
      if r.1 then .reply 8 0 [] r.2 else .wait (s'.nat QF_SEED_SKIP) 0 r.2) := by
  have hcount : (k.d s 2 == 0 || decide (8192 < k.d s 2)) = false := by simp; omega
  simp only [State.ckQSeed, ckDo_passes (decide_eq_false (Nat.not_le.mpr hq)), ckDo_passes (decide_eq_false (Nat.not_le.mpr hc)),
    ckDo_passes hcount]

theorem ckQWm_writes (hf : k.flock = none) (hq : k.d s 0 < 4096) :
    State.ckQWm k s = .reply 0 0 [] (s.ckPoke (QF_QWM (k.d s 0)) (ckWord (k.d s 1))) := by
  simp only [State.ckQWm, ckDo_passes (decide_eq_false (Nat.not_le.mpr hq)), ckDo_passes (foreign_of_no_flock hf _), ckDo_nil]
  exact ckSet_uncounted

theorem ckQWm_foreign {f : Nat} (hf : k.flock = some f) (hq : k.d s 0 < 4096) (ho : s.qFlock (k.d s 0) ≠ f) :
    State.ckQWm k s = .reply 5 0 [] s := by
  have hforeign : k.foreign (s.qFlock (k.d s 0)) = true := by
    rw [Ck.foreign, hf]
    exact bne_iff_ne.mpr ho.symm
  simp only [State.ckQWm, ckDo_passes (decide_eq_false (Nat.not_le.mpr hq)), ckDo_fails hforeign]

theorem ckQNotice_replies (hf : k.flock = none) (hq : k.d s 0 < 4096) : State.ckQNotice k s =
    let q := k.d s 0
    .reply 0 0 [s.regValue (QF_WMN_STAT q), s.regValue (QF_WMN_CNT q), s.regValue (QF_WMN_STAMP_LO q), s.regValue (QF_WMN_STAMP_HI q)]
      (if bitOf (k.d s 1) 0 then s.ckPoke (QF_WMN_STAT q) (ckWord (2 ^ 31 + 3)) else s) := by
  simp only [State.ckQNotice, ckDo_passes (decide_eq_false (Nat.not_le.mpr hq)), ckDo_passes (foreign_of_no_flock hf _), ckDo_nil]
end

/-- Settles O47: a command that Crook takes ends as its body says (`crook_replies`, `crook_waits`), and each body as the lemma of its
command above says; that PW_DUTY sends the apply-time of the request rests on `d_ckPoke_dwVal`. -/
theorem crookGeneratorsTripsAndQueues : Obligations.CrookGeneratorsTripsAndQueues := by
  unfold Obligations.CrookGeneratorsTripsAndQueues
  refine ⟨?config, ?configBad, ?xbar, ?start, ?startBusy, ?duty, ?trip, ?arWrite, ?arWriteBad, ?arm, ?disarm, ?release, ?releaseRefused,
    ?queue, ?pin, ?pinRefused, ?seed, ?seedBusy, ?wm, ?wmForeign, ?notice⟩
  case config =>
    intro m k s t g u h hg hw
    exact show execPwConfig m s = _ from crook_replies h (ckPwConfig_writes hg hw)
  case configBad =>
    intro m k s t h hg
    exact show execPwConfig m s = _ from crook_replies h (ckPwConfig_badarg hg)
  case xbar =>
    intro m k s t g u h hj hg hw
    exact show execPwXbar m s = _ from crook_replies h (ckPwXbar_writes hj hg hw)
  case start =>
    intro m k s t g u h hf hl hg hn hc hq hw
    exact show execPwStart m s = _ from crook_replies h (ckPwStart_starts hf hl hg hn hc hq hw)
  case startBusy =>
    intro m k s t g h hf hl hg hn hc hq
    exact show execPwStart m s = _ from crook_replies h (ckPwStart_busy hf hl hg hn hc hq)
  case duty =>
    intro m k s t g u h hf hg hmode hw
    have hm : k.m < 32 := by rw [commanded_m h]; exact m.isLt
    exact show execPwDuty m s = _ from crook_replies h (ckPwDuty_writes hm (commanded_b h) hf hg hmode hw)
  case trip =>
    intro m k s t u h hn hw
    exact show execTripConfig m s = _ from crook_replies h (ckTripConfig_writes hn hw)
  case arWrite =>
    intro m k s t r u h hr hr16 hw
    exact show execArWrite m s = _ from crook_replies h (ckArWrite_writes hr hr16 hw)
  case arWriteBad =>
    intro m k s t h hr
    exact show execArWrite m s = _ from crook_replies h (ckArWrite_badarg hr)
  case arm =>
    intro m k s t u h hr hw
    exact show execArArm m s = _ from crook_replies h ((ckArm_prepares (by decide) hr).trans (ckSet_writes hw))
  case disarm =>
    intro m k s t u h hr hw
    exact show execArDisarm m s = _ from crook_replies h ((ckArm_prepares (by decide) hr).trans (ckSet_writes hw))
  case release =>
    intro m k s t u h hr hw
    exact show execArRelease m s = _ from crook_replies h ((ckArm_releases hr).trans (ckSet_writes hw))
  case releaseRefused =>
    intro m k s t u d h hr hw
    exact show execArRelease m s = _ from crook_replies h ((ckArm_releases hr).trans (ckSet_single_refused hw))
  case queue =>
    intro m k s t u h hq hw
    exact show execQConfig m s = _ from crook_replies h (ckQConfig_writes hq hw)
  case pin =>
    rintro m k s t u q h hc hi rfl hw hp
    exact show execQPin m s = _ from crook_waits h (ckQPin_waits hc hi hw hp)
  case pinRefused =>
    intro m k s t u d h hc hi hw
    exact show execQPin m s = _ from crook_replies h (ckQPin_refused hc hi hw)
  case seed =>
    intro m k s t u h hq hc h0 hn hbusy hw
    have hwaits : State.ckQSeed k t = .wait (t.nat QF_SEED_SKIP) 0 u := by
      rw [ckQSeed_checked hq hc h0 hn, ckDo_passes hbusy, ckDo_nil]
      simp only [ckWrite_of_written hw, Bool.false_eq_true, if_false]
    rw [commanded_wait h]
    exact show execQSeed m s = _ from crook_waits h hwaits
  case seedBusy =>
    intro m k s t h hq hc h0 hn hbusy
    exact show execQSeed m s = _ from crook_replies h ((ckQSeed_checked hq hc h0 hn).trans (ckDo_fails hbusy))
  case wm =>
    intro m k s t h hf hq
    exact show execQWm m s = _ from crook_replies h (ckQWm_writes hf hq)
  case wmForeign =>
    intro m k s t f h hf hq ho
    exact show execQWm m s = _ from crook_replies h (ckQWm_foreign hf hq ho)
  case notice =>
    intro m k s t h hf hq
    exact show execQNotice m s = _ from crook_replies h (ckQNotice_replies hf hq)

end Sys2Proof.Machine
end

section
/-!
Proofs about the mailbox commands on the reserve, the self-tests, health and power (16_mailbox_commands.md R432;
18_reserve_and_service_life.md R455 to R464; 19_reset_power_startup.md R484, R486).
-/

namespace Sys2Proof.Machine

/-! ### Other ends of a command (R423, R484) -/

section
variable {s t u : State} {m : Fin 32} {op : Nat} {auth : List CkAuth} {buf : Bool} {named : Nat → Nat} {k : Ck} {body : Ck → State → CkOut}
  (h : s.commanded m op auth buf named = some (k, t))
include h

theorem crook_replies_bytes {ws : List Word} {n : Nat} (hb : body k t = .bytes ws n u) :
    (.next (s.crook m op auth buf named body) : Out) = .next (u.mbFinish k.w 0 0 ws n) := by
  rw [crook_commanded h, hb]; rfl

theorem crook_goes_on {next : State → State} (hb : body k t = .last u next) :
    (.next (s.crook m op auth buf named body) : Out) = .next (next (u.mbFinish k.w 0 0 [])) := by
  rw [crook_commanded h, hb]; rfl

theorem commanded_b_of_no_buffer (hbuf : t.mbBuf m = false) : k.b = 0 := by rw [commanded_eq h, hbuf]; rfl

theorem commanded_b_of_buffer (hbuf : t.mbBuf m = true) : k.b = 4 := by rw [commanded_eq h, hbuf]; rfl
end

/-! ### The commands on the reserve (R432, R456, R462, R464) -/

section
variable {s u : State} {k : Ck}

section
variable {src : Nat} (hkind : k.d s 0 = 2) (hsrc : s.findUnit 2 (k.d s 1) = some src) (hdst : k.d s 2 < 36) (hdv : s.dvBusy = false)
  (hclean : s.notClean (s.unitFlock 2 src) = false) (hspare : s.unitSpare 2 (k.d s 2) = true)
include hkind hsrc hdst hdv hclean hspare

/-- RS_DROVE of a timer to a spare one has only its lead time left to check. -/
theorem ckRsDrove_timer : State.ckRsDrove k s = s.ckDo [(decide (stampDiff (k.d64 s 3) s.now < ((8590 : Nat) : Int)), 13, 0)] (fun v =>
    let w := (v.ckPoke RS_DV_TIME_LO ((k.d64 s 3).extractLsb' 0 32)).ckPoke RS_DV_TIME_HI ((k.d64 s 3).extractLsb' 32 32)
    let r := w.ckWrite [RS_CFG_REFUSED] RS_DV_CTRL (ckWord (2 ^ 31 + 2 * 2 ^ 24 + k.d s 2 * 2 ^ 16 + src))
    if r.1 then .reply 8 0 [] r.2 else .wait src (k.d s 2) (r.2.preloadConfig 2 src (k.d s 2))) := by
  have hfound : (s.findUnit 2 (k.d s 1)).isNone = false := by rw [hsrc]; rfl
  have hname : ¬k.d s 2 = 0xFF := by omega
  have hrange : (k.d s 2 != 0xFF && decide (physCount 2 ≤ k.d s 2)) = false := by
    rw [decide_eq_false (Nat.not_le.mpr hdst : ¬physCount 2 ≤ k.d s 2), Bool.and_false]
  have hany (b : Bool) : (k.d s 2 == 0xFF && b) = false := by rw [beq_eq_false_iff_ne.mpr hname, Bool.false_and]
  have hsync (b : Bool) : (2 == 4 && b) = false := rfl
  have hcl : (2 != 4 && s.notClean (s.unitFlock 2 src)) = false := by rw [hclean]; rfl
  simp only [State.ckRsDrove, hkind, hsrc, Option.getD_some, Option.isNone_some, hname, if_false, ckDo_passes (decide_eq_false (by decide : ¬5 ≤ 2)),
    ckDo_passes hrange, ckDo_passes hdv, ckDo_passes hcl, ckDo_passes (hany _), ckDo_passes (congrArg not hspare), ckDo_passes (hsync _),
    (by decide : ¬2 = 0), (by decide : ¬2 = 1), ckDo_passes (rfl : false = false), Bool.false_eq_true]

theorem ckRsDrove_late (hlate : stampDiff (k.d64 s 3) s.now < ((8590 : Nat) : Int)) : State.ckRsDrove k s = .reply 13 0 [] s := by
  rw [ckRsDrove_timer hkind hsrc hdst hdv hclean hspare, ckDo_fails (decide_eq_true hlate)]

theorem ckRsDrove_waits (hlead : ((8590 : Nat) : Int) ≤ stampDiff (k.d64 s 3) s.now)
    (hw : ((s.ckPoke RS_DV_TIME_LO ((k.d64 s 3).extractLsb' 0 32)).ckPoke RS_DV_TIME_HI ((k.d64 s 3).extractLsb' 32 32)).ckWrites [RS_CFG_REFUSED]
      [(0, RS_DV_CTRL, ckWord (2 ^ 31 + 2 * 2 ^ 24 + k.d s 2 * 2 ^ 16 + src))] = (none, u)) :
    State.ckRsDrove k s = .wait src (k.d s 2) (u.preloadConfig 2 src (k.d s 2)) := by
  rw [ckRsDrove_timer hkind hsrc hdst hdv hclean hspare, ckDo_passes (decide_eq_false (Int.not_lt.mpr hlead)), ckDo_nil]
  simp only [ckWrite_of_written hw, Bool.false_eq_true, if_false]
end

section
variable {kind n : Nat} {ok : Bool} {act : State → CkOut} (hkind : kind < 5) (hn : n < physCount kind) (ht : s.underTest kind n = false)
include hkind hn ht

/-- A command on a physical unit that exists and is not under test. -/
theorem ckDo_physArg : s.ckDo (s.physArg kind n ok) act = if ok then act s else .reply 7 0 [] s := by
  rw [State.physArg, ckDo_passes (decide_eq_false (Nat.not_le.mpr hkind)), ckDo_passes (decide_eq_false (Nat.not_le.mpr hn)), ckDo_passes ht]
  cases ok
  · exact ckDo_fails rfl
  · exact ckDo_passes rfl
end

theorem ckRsRetire_retires (hkind : k.d s 0 < 5) (hn : k.d s 1 < physCount (k.d s 0)) (ht : s.underTest (k.d s 0) (k.d s 1) = false)
    (hspare : s.unitSpare (k.d s 0) (k.d s 1) = true) (hdv : s.dvBusy = false) :
    State.ckRsRetire k s = .reply 0 0 [ckWord (s.unitInc (k.d s 0) (k.d s 1))] (s.retire (k.d s 0) (k.d s 1)) := by
  simp only [State.ckRsRetire, ckDo_physArg hkind hn ht, hspare, hdv, Bool.false_and, Bool.not_false, Bool.and_self, if_true]

theorem ckRsRetire_not_spare (hkind : k.d s 0 < 5) (hn : k.d s 1 < physCount (k.d s 0)) (ht : s.underTest (k.d s 0) (k.d s 1) = false)
    (hspare : s.unitSpare (k.d s 0) (k.d s 1) = false) : State.ckRsRetire k s = .reply 7 0 [] s := by
  simp only [State.ckRsRetire, ckDo_physArg hkind hn ht, hspare, Bool.false_and, Bool.false_eq_true, if_false]

theorem ckRsReadmit_tests (hkind : k.d s 0 < 5) (hn : k.d s 1 < physCount (k.d s 0)) (ht : s.underTest (k.d s 0) (k.d s 1) = false)
    (hv : s.unitValid (k.d s 0) (k.d s 1) = false) (hr : s.unitRetired (k.d s 0) (k.d s 1) = true) :
    State.ckRsReadmit k s = .wait (k.d s 0) (k.d s 1) (s.testStart { kind := k.d s 0, unit := k.d s 1, mbox := k.m, readmit := true }) := by
  simp only [State.ckRsReadmit, ckDo_physArg hkind hn ht, hv, hr, Bool.not_false, Bool.and_self, if_true]

theorem ckRsTest_tests (hkind : k.d s 0 < 5) (hn : k.d s 1 < physCount (k.d s 0)) (ht : s.underTest (k.d s 0) (k.d s 1) = false)
    (hv : s.unitValid (k.d s 0) (k.d s 1) = false) (hdv : s.dvBusy = false) :
    State.ckRsTest k s = .wait (k.d s 0) (k.d s 1) (s.testStart { kind := k.d s 0, unit := k.d s 1, mbox := k.m, readmit := false }) := by
  simp only [State.ckRsTest, ckDo_physArg hkind hn ht, hv, hdv, Bool.false_and, Bool.not_false, Bool.and_self, if_true]

/-! ### HEALTH and the power states (R455, R484, R486) -/

theorem ckHealth_replies (hb : k.b = 0) (hsel : k.d s 0 < 5) (h2 : k.d s 0 ≠ 2) :
    State.ckHealth true k s = .bytes (s.healthData (k.d s 0)).1 (s.healthData (k.d s 0)).2 s := by
  have hlarge : (0 == 0 && k.d s 0 == 2) = false := by simpa using h2
  have hbuf (b : Bool) : (0 != 0 && b) = false := rfl
  simp only [State.ckHealth, hb, ckDo_passes hlarge, ckDo_passes (decide_eq_false (Nat.not_le.mpr hsel)), ckDo_passes (hbuf _), ckDo_nil, if_true]

/-- Selector 2 needs a buffer. -/
theorem ckHealth_badhdr (hb : k.b = 0) (h2 : k.d s 0 = 2) : State.ckHealth true k s = .reply 2 0 [] s := by
  have hlarge : (0 == 0 && 2 == 2) = true := rfl
  simp only [State.ckHealth, hb, h2, ckDo_fails hlarge]

theorem ckHealth_buffered (hb : k.b = 4) (hsel : k.d s 0 < 5) (hn : (s.healthData (k.d s 0)).2 ≤ s.mbD k.m 2) : State.ckHealth true k s =
    .reply 0 0 [ckWord (s.healthData (k.d s 0)).2] (s.sysWrite (s.mbD64 k.m 0).toNat
      (((s.healthData (k.d s 0)).1.flatMap (fun w => natBytes 4 w.toNat)).take (s.healthData (k.d s 0)).2)) := by
  have hlarge : (4 == 0 && k.d s 0 == 2) = false := rfl
  have hfits : (4 != 0 && decide (s.mbD k.m 2 < (s.healthData (k.d s 0)).2)) = false := decide_eq_false (Nat.not_lt.mpr hn)
  have haccepts : (4 != 0 && !true) = false := rfl
  simp only [State.ckHealth, hb, ckDo_passes hlarge, ckDo_passes (decide_eq_false (Nat.not_le.mpr hsel)), ckDo_passes hfits,
    ckDo_passes haccepts, ckDo_nil, (by decide : ¬4 = 0), if_false]
end

section
variable {s : State} {k : Ck}

theorem ckPmRest_rests (h : s.pmBusy = false) : State.ckPmRest k s = .last (s.ckPoke EC_WAKE_EN (ckWord (k.d s 0))) (State.pmGo 1) := by
  rw [State.ckPmRest, ckDo_passes h, ckDo_nil]

theorem ckPmRest_busy (h : s.pmBusy = true) : State.ckPmRest k s = .reply 6 0 [] s := ckDo_fails h

theorem ckPmFold_folds (h : s.pmBusy = false) :
    State.ckPmFold k s = .last (s.ckPoke EC_WAKE_EN (ckWord (k.d s 0))) (fun v => State.pmGo 2 v.foldSave) := by
  rw [State.ckPmFold, ckDo_passes h, ckDo_nil]
end

/-! ### The end of a self-test (R462, R464) -/

section
variable {kind unit step : Nat} {tr : TestRun} {w : MbWait} {s : State}

theorem testEnd_none (h : s.rs.tests = []) : s.testEnd kind unit step = s := by simp [State.testEnd, h]

/-- Of the kinds of unit only engines and Chanters have memories, which a self-test sweeps. -/
theorem testGroups_eq_nil (hkind : kind < 5) (h0 : kind ≠ 0) (h4 : kind ≠ 4) : testGroups kind = [] := by
  interval_cases kind <;> first | rfl | contradiction

theorem mb_raise (s : State) (n p0 p1 : Nat) : (s.raise n p0 p1).mb = s.mb := (RaisedFrom.raise s n p0 p1).mb

theorem mb_record (s : State) (src code w0 w1 w2 w3 : Nat) : (s.record src code w0 w1 w2 w3).mb = s.mb :=
  (RaisedFrom.record s src code w0 w1 w2 w3).mb

theorem mb_withTests (s : State) (l : List TestRun) : ({ s with rs.tests := l } : State).mb = s.mb := (rfl)

theorem mb_saveReserve (s : State) : s.saveReserve.mb = s.mb := (rfl)

/-- A readmission that passed advances the incarnation of the unit and clears RET (R462). -/
def State.readmitUnit (u : State) (kind unit : Nat) : State :=
  (u.setNat (mapReg kind unit) (withBits (u.nat (mapReg kind unit)) 16 8 ((u.fld (hurdleReg kind unit) fRS_HURDLE_E_DINC + 1) % 256))).setFlag
    (hurdleReg kind unit) fRS_HURDLE_E_RET false

/-- What the end of a test, once told, does to the unit: every readmission is journalled and saved. -/
def State.testUnit (u : State) (kind unit step : Nat) (tr : TestRun) : State :=
  if tr.readmit then ((if tr.readmit && step == 0 then u.readmitUnit kind unit else u).record 918 0x73 0 0 0 0).saveReserve
  else if tr.readmit && step == 0 then u.readmitUnit kind unit else u

/-- The answer of the command that waits for the test. -/
def State.testAnswer (u : State) (kind unit res step : Nat) (tr : TestRun) : State :=
  match u.mb.waits.find? (fun w => w.m == tr.mbox && (w.op == 0x802 || w.op == 0x803)) with
  | none => u
  | some w => u.mbFinish w 0 0 [.ofNat 32 res, .ofNat 32 (if tr.readmit then u.unitInc kind unit else step)]

theorem testEnd_found {u : State} (hu : u = { s.setFlag (hurdleReg kind unit) fRS_HURDLE_E_TEST false with rs.tests := s.rs.tests.erase tr })
    (h : s.rs.tests.find? (fun x => x.kind == kind && x.unit == unit && !s.testSweeps kind unit) = some tr) :
    s.testEnd kind unit step =
      ((((u.testWipe kind unit).raise 918 0 0).record 918 0x76 kind unit (if step = 0 then 0 else 1) step).testUnit kind unit step tr).testAnswer
        kind unit (if step = 0 then 0 else 1) step tr := by
  subst hu
  rw [State.testEnd, h]
  rfl

theorem testUnit_test {u : State} (hr : tr.readmit = false) : u.testUnit kind unit step tr = u := by
  have hpassed : ¬(tr.readmit && step == 0) = true := by rw [hr]; exact Bool.false_ne_true
  rw [State.testUnit, if_neg (ne_true_of_eq_false hr), if_neg hpassed]

theorem testUnit_readmit {u : State} (hr : tr.readmit = true) :
    u.testUnit kind unit 0 tr = ((u.readmitUnit kind unit).record 918 0x73 0 0 0 0).saveReserve := by
  have hpassed : (tr.readmit && 0 == 0) = true := by rw [hr]; rfl
  rw [State.testUnit, if_pos hr, if_pos hpassed]

theorem mb_readmitUnit {u : State} : (u.readmitUnit kind unit).mb = u.mb := by rw [State.readmitUnit, setFlag_mb, setNat_mb]

theorem mb_testUnit {u : State} : (u.testUnit kind unit step tr).mb = u.mb := by
  unfold State.testUnit
  split_ifs <;> simp only [mb_saveReserve, mb_record, mb_readmitUnit]

theorem testAnswer_found {u : State} {res : Nat}
    (hw : u.mb.waits.find? (fun x => x.m == tr.mbox && (x.op == 0x802 || x.op == 0x803)) = some w) : u.testAnswer kind unit res step tr =
      u.mbFinish w 0 0 [.ofNat 32 res, .ofNat 32 (if tr.readmit then u.unitInc kind unit else step)] := by
  rw [State.testAnswer, hw]

section
variable (hg : testGroups kind = []) (ht : s.rs.tests.find? (fun x => x.kind == kind && x.unit == unit) = some tr)
  (hw : s.mb.waits.find? (fun x => x.m == tr.mbox && (x.op == 0x802 || x.op == 0x803)) = some w)
include hg ht hw

/-- The end of the test of a unit without memories, which has no sweep to wait for and nothing to wipe. -/
theorem testEnd_answers {u v : State}
    (hu : u = { s.setFlag (hurdleReg kind unit) fRS_HURDLE_E_TEST false with rs.tests := s.rs.tests.erase tr })
    (hv : v = ((u.raise 918 0 0).record 918 0x76 kind unit (if step = 0 then 0 else 1) step).testUnit kind unit step tr) : s.testEnd kind unit step =
      v.mbFinish w 0 0 [.ofNat 32 (if step = 0 then 0 else 1), .ofNat 32 (if tr.readmit then v.unitInc kind unit else step)] := by
  have hwipe : u.testWipe kind unit = u := by rw [State.testWipe, hg, List.foldl_nil]
  have hleft : u.mb = s.mb := (congrArg State.mb hu).trans ((mb_withTests _ _).trans (setFlag_mb s _ _ _))
  have hmb : v.mb = s.mb := by rw [hv, mb_testUnit, mb_record, mb_raise, hleft]
  rw [testEnd_found hu (by simpa [State.testSweeps, hg] using ht), hwipe, ← hv]
  exact testAnswer_found (by rw [hmb]; exact hw)
end
end

/-- Settles O49: the checks and the effects of each command, and the ends of the self-tests. -/
theorem crookReserveHealthAndPower : Obligations.CrookReserveHealthAndPower := by
  unfold Obligations.CrookReserveHealthAndPower
  refine ⟨?drove, ?late, ?retire, ?notSpare, ?readmit, ?test, ?noTest, ?health, ?large, ?buffer, ?rest, ?busy, ?fold, ?tested, ?readmitted⟩
  case drove =>
    intro m k s t src t0 u h hkind hsrc hdst hdv hclean hspare ht0 hlead hw
    subst ht0
    exact crook_waits h (ckRsDrove_waits hkind hsrc hdst hdv hclean hspare hlead hw)
  case late =>
    intro m k s t src h hkind hsrc hdst hdv hclean hspare hlate
    exact crook_replies h (ckRsDrove_late hkind hsrc hdst hdv hclean hspare hlate)
  case retire =>
    intro m k s t h hkind hn ht hspare hdv
    exact crook_replies h (ckRsRetire_retires hkind hn ht hspare hdv)
  case notSpare =>
    intro m k s t h hkind hn ht hspare
    exact crook_replies h (ckRsRetire_not_spare hkind hn ht hspare)
  case readmit =>
    intro m k s t h hkind hn ht hv hr
    rw [← commanded_m h]
    exact crook_waits h (ckRsReadmit_tests hkind hn ht hv hr)
  case test =>
    intro m k s t h hkind hn ht hv hdv
    rw [← commanded_m h]
    exact crook_waits h (ckRsTest_tests hkind hn ht hv hdv)
  case noTest =>
    intro kind unit step s _ hnone
    refine congrArg Host.Outcome.next (?_ : (if s.live then s.testEnd kind unit step else s) = s)
    rw [testEnd_none hnone, ite_self]
  case health =>
    intro m k s t h hbuf hsel h2
    exact crook_replies_bytes h (ckHealth_replies (commanded_b_of_no_buffer h hbuf) hsel h2)
  case large =>
    intro m k s t h hbuf h2
    exact crook_replies h (ckHealth_badhdr (commanded_b_of_no_buffer h hbuf) h2)
  case buffer =>
    intro m k s t h _ hbuf hsel hn
    rw [← commanded_m h] at hn ⊢
    exact crook_replies h (ckHealth_buffered (commanded_b_of_buffer h hbuf) hsel hn)
  case rest =>
    intro m k s t h hidle
    exact crook_goes_on h (ckPmRest_rests hidle)
  case busy =>
    intro m k s t h hbusy
    exact crook_replies h (ckPmRest_busy hbusy)
  case fold =>
    intro m k s t h hidle
    exact crook_goes_on h (ckPmFold_folds hidle)
  case tested =>
    intro kind unit step tr w s hlive ht hr hw h0 h4
    refine (fastEvent_live (f := fun s => s.testEnd kind unit step) hlive).trans (congrArg Host.Outcome.next ?_)
    refine (testEnd_answers (testGroups_eq_nil kind.isLt h0 h4) ht hw rfl rfl).trans ?_
    rw [testUnit_test hr, if_neg (ne_true_of_eq_false hr)]
  case readmitted =>
    intro kind unit step tr w s hlive ht hr hw h0 h4 hstep
    refine (fastEvent_live (f := fun s => s.testEnd kind unit step) hlive).trans (congrArg Host.Outcome.next ?_)
    refine (testEnd_answers (testGroups_eq_nil kind.isLt h0 h4) ht hw rfl rfl).trans ?_
    rw [hstep, testUnit_readmit hr, if_pos hr, if_pos rfl]
    rfl

end Sys2Proof.Machine
end

section
/-!
Proofs about the requests of Fipple (20_debug.md R499 to R505).
-/

namespace Sys2Proof.Machine

/-! ### The arrival of a request (R505) -/

section
variable {s : State} {q : DbReq} {cmd : Nat} {pl : List Byte} {sys : List SysAnswer}

theorem dbBusy_one (ht : s.db.tapReq = []) (hh : s.db.held = []) : s.dbBusy 1 = false := by rw [State.dbBusy, ht, hh]; rfl

/-- A request of the TAP is in progress while its bytes gather. -/
theorem dbBusy_of_gathering {b : Byte} {bs : List Byte} (ht : s.db.tapReq = b :: bs) : s.dbBusy 1 = true := by rw [State.dbBusy, ht]; rfl

/-- A request of the TAP is in progress while it waits. -/
theorem dbBusy_of_held {r : DbReq} (hr : r.iface = 2) (hh : s.db.held = [r]) : s.dbBusy 1 = true := by
  rw [State.dbBusy, hh, List.any_cons, hr]; exact Bool.or_true _

theorem fippleRow_of_arrive {t : State} (h : s.dbArrive { iface := 1, cmd := cmd, payload := pl, sys := sys } = t) :
    s.fippleRow cmd pl sys = .next t.settle := congrArg (fun t : State => Host.Outcome.next t.settle) h

theorem dbServe_fipple : s.dbServe { iface := 1, cmd := cmd, payload := pl, sys := sys } = s.dbRequest 1 cmd pl sys := (rfl)

theorem dbArrive_served (ha : s.dbAwake = true) (hb : s.dbBusy q.iface = false) (hs : s.dbStopped q = false) : s.dbArrive q = s.dbServe q := by
  simp only [State.dbArrive, hb, ha, hs, Bool.false_eq_true, if_false, if_true]

theorem dbArrive_stopped (ha : s.dbAwake = true) (hb : s.dbBusy q.iface = false) (hs : s.dbStopped q = true) :
    s.dbArrive q = { s with db.held := s.db.held ++ [q] } := by
  simp only [State.dbArrive, hb, ha, hs, Bool.false_eq_true, if_false, if_true]

theorem dbArrive_busy (ha : s.dbAwake = true) (hb : s.dbBusy q.iface = true) (hi : q.iface = 1) : s.dbArrive q = s.dbReply 4 [] := by
  have hs : s.dbStopped { q with status := some 4 } = false := rfl
  simp only [State.dbArrive, hb, ha, hs, Bool.false_eq_true, if_false, if_true]
  exact if_neg (by rw [hi]; decide)

theorem dbStopped_other (h0 : cmd ≠ 0x20) (h1 : cmd ≠ 0x21) : s.dbStopped { iface := 1, cmd := cmd, payload := pl, sys := sys } = false := by
  simp [State.dbStopped, h0, h1]

theorem dbStopped_malformed (h : goodRequest cmd pl = false) : s.dbStopped { iface := 1, cmd := cmd, payload := pl, sys := sys } = false := by
  simp [State.dbStopped, h]

theorem dbStopped_locked (h : s.dbLevel = 0) : s.dbStopped { iface := 1, cmd := cmd, payload := pl, sys := sys } = false := by
  simp [State.dbStopped, h]

theorem dbStopped_open (h : s.portOpen .dam = true) : s.dbStopped { iface := 1, cmd := cmd, payload := pl, sys := sys } = false := by
  simp [State.dbStopped, h]

theorem dbStopped_reset (h : s.pw.mode = .reset) : s.dbStopped { iface := 1, cmd := cmd, payload := pl, sys := sys } = false := by
  simp [State.dbStopped, h]

section
variable (ha : s.dbAwake = true) (ht : s.db.tapReq = []) (hh : s.db.held = [])
  (hs : s.dbStopped { iface := 1, cmd := cmd, payload := pl, sys := sys } = false)
include ha ht hh hs

theorem fippleRequest_served : s.fippleRequest cmd pl sys = s.dbRequest 1 cmd pl sys :=
  (dbArrive_served ha (dbBusy_one ht hh) hs).trans dbServe_fipple

theorem fippleRow_served {t : State} (h : s.dbRequest 1 cmd pl sys = t) : s.fippleRow cmd pl sys = .next t.settle := by
  rw [State.fippleRow, fippleRequest_served ha ht hh hs, h]
end

theorem dbRequest_malformed (h : goodRequest cmd pl = false) : s.dbRequest 1 cmd pl sys = s.dbReply 2 [] := by
  unfold State.dbRequest
  exact if_pos (congrArg not h)

theorem dbRequest_status (h : s.dbPending = false) : s.dbRequest 1 0x02 [] sys = s.dbReply 0 (natBytes 4 (s.nat DB_STAT)) :=
  if_neg (ne_true_of_eq_false h)

theorem dbRequest_read (h : (damFields false pl).isSome = true) : s.dbRequest 1 0x20 pl sys = s.dbAccess false pl sys := by
  have hg : goodRequest 0x20 pl = true := h
  rw [State.dbRequest, hg]; rfl

theorem dbRequest_write (h : (damFields true pl).isSome = true) : s.dbRequest 1 0x21 pl sys = s.dbAccess true pl sys := by
  have hg : goodRequest 0x21 pl = true := h
  rw [State.dbRequest, hg]; rfl

/-! ### READ and WRITE (R504) -/

section
variable {w : Bool} {space a n k : Nat}

/-- The size of an access is a power of two. -/
theorem damFields_size_pos (h : damFields w pl = some (space, a, n, k)) : 0 < n := by
  unfold damFields at h
  extract_lets sp size m len at h
  split at h
  · obtain ⟨-, -, rfl, -⟩ : sp = space ∧ _ = a ∧ 2 ^ size = n ∧ m = k := by simpa using h
    exact Nat.two_pow_pos size
  · contradiction

theorem isSome_of_damFields (h : damFields w pl = some (space, a, n, k)) : (damFields w pl).isSome = true := by rw [h]; rfl

theorem dbAccess_locked (h : (damFields w pl).isSome = true) (hl : s.dbLevel = 0) : s.dbAccess w pl sys = s.dbReply 3 [] := by
  obtain ⟨⟨space, a, n, k⟩, h⟩ := Option.isSome_iff_exists.mp h
  simp only [State.dbAccess, h, hl, if_true]

theorem dbAccess_closed (h : (damFields w pl).isSome = true) (hl : s.dbLevel ≠ 0) (ho : s.portOpen .dam = false) :
    s.dbAccess w pl sys = s.dbReply 6 [4] := by
  obtain ⟨⟨space, a, n, k⟩, h⟩ := Option.isSome_iff_exists.mp h
  simp only [State.dbAccess, h, hl, ho, if_false, Bool.not_false, if_true]

section
variable {c j : Nat} {bs : List Byte} {t : State} (hl : s.dbLevel ≠ 0) (ho : s.portOpen .dam = true)
include hl ho

theorem dbAccess_reads (h : damFields false pl = some (space, a, n, k)) (hj : k / n = j)
    (hr : s.damReads space a n sys j [] = (c, bs, t)) :
    s.dbAccess false pl sys = if c = 0 then t.dbReply 0 bs else t.dbReply 6 [.ofNat 8 c] := by
  simp only [State.dbAccess, h, hl, ho, hj, hr, if_false, Bool.not_true, Bool.false_eq_true]

theorem dbAccess_writes (h : damFields true pl = some (space, a, n, k)) (hj : k / n = j)
    (hw : s.damWrites space a n sys (pl.drop 10) j = (c, t)) :
    s.dbAccess true pl sys = if c = 0 then t.dbReply 0 [] else t.dbReply 6 [.ofNat 8 c] := by
  simp only [State.dbAccess, h, hl, ho, hj, hw, if_false, if_true, Bool.not_true, Bool.false_eq_true]
end

/-! The accesses themselves: one in the HPP window, or any number in system memory that are answered OKAY. -/

theorem damReads_window {v : BitVec 64} {t : State} {c : Nat} (h : s.windowRead .dam a n = (c, v, t)) :
    s.damReads 0 a n sys 1 [] = (c, if c = 0 then natBytes n v.toNat else [], t) := by
  simp only [State.damReads, h, if_true, List.nil_append]
  split_ifs <;> simp_all

theorem damReads_system (hok : sys.all (fun e => e.1 == 0) = true) (acc : List Byte) :
    s.damReads 1 a n sys sys.length acc = (0, acc ++ sys.flatMap (fun e => natBytes n e.2.toNat), s) := by
  induction sys generalizing a acc with
  | nil => simp [State.damReads]
  | cons e sys ih =>
    obtain ⟨he, hok⟩ : e.1 = 0 ∧ sys.all (fun e => e.1 == 0) = true := by simpa using hok
    simp only [List.length_cons, State.damReads, State.sysAnswer, he, (by decide : ¬(1 : Nat) = 0), if_false, if_true, ih hok, List.flatMap_cons,
      List.append_assoc]

theorem damWrites_window {bs : List Byte} {t : State} (ht : t = s.windowWrite .dam a n (2 ^ n - 1) (.ofNat 64 (bytesNatOf (bs.take n)))) :
    s.damWrites 0 a n sys bs 1 = ((t.lastResp .dam).code, t) := by
  simp only [State.damWrites, ← ht, if_true]
  split_ifs with h
  · rw [h]
  · rfl

theorem damWrites_system {bs : List Byte} {x : BitVec 64} : s.damWrites 1 a n [(0, x)] bs 1 = (0, s.sysWrite a (bs.take n)) := by
  simp only [State.damWrites, State.sysAnswer, (by decide : ¬(1 : Nat) = 0), if_false, if_true]

/-! ### Requests that wait, and a line reset (R503, R505) -/

theorem with_held_nil (hh : s.db.held = []) : ({ s with db.held := [] } : State) = s :=
  congrArg (fun l => ({ s with db.held := l } : State)) hh.symm

theorem not_fold_of_rest (hm : s.pw.mode = .rest) : ¬s.pw.mode = .fold := by rw [hm]; decide

/-- A request of Fipple in Rest waits, and sets WL15. -/
theorem dbArrive_rest (ha : s.dbAwake = false) (hm : s.pw.mode = .rest) (q : DbReq) :
    s.dbArrive q = State.wakeCheck (State.wakeSet
      { s with db.held := s.db.held ++ [if s.dbBusy q.iface then { q with status := some 4 } else q] } 15 s.wakeStamp false) := by
  have hasleep (l : List DbReq) : State.dbAwake { s with db.held := l } = false := ha
  simp only [State.dbArrive, ha, not_fold_of_rest hm, Bool.false_eq_true, if_false, State.dbEdge, hasleep]
  rfl

theorem dbArrive_fold (ha : s.dbAwake = false) (hm : s.pw.mode = .fold) (q : DbReq) :
    s.dbArrive q = (s.wakeSet 15 s.wakeStamp false).wakeCheck := by
  simp only [State.dbArrive, ha, hm, Bool.false_eq_true, if_false, if_true, State.dbEdge]

/-- A line reset drops the response and the requests of Fipple that wait (R503). -/
theorem lineReset_awake (ha : s.dbAwake = true) (hh : s.db.held = []) :
    (if !s.dbAwake && s.pw.mode == .fold then s.dbEdge
      else State.dbEdge { s with db := { s.db with status := none, payload := [], held := s.db.held.filter (fun q => q.iface != 1) } }) =
    { s with db := { s.db with status := none, payload := [] } } := by
  have hkept : s.db.held.filter (fun q => q.iface != 1) = s.db.held := by rw [hh]; rfl
  rw [hkept, ha]
  exact if_pos ha

theorem lineReset_rest (ha : s.dbAwake = false) (hm : s.pw.mode = .rest) (hq : q.iface = 1) (hh : s.db.held = [q]) :
    (if !s.dbAwake && s.pw.mode == .fold then s.dbEdge
      else State.dbEdge { s with db := { s.db with status := none, payload := [], held := s.db.held.filter (fun q => q.iface != 1) } }) =
    State.wakeCheck (State.wakeSet { s with db := { s.db with status := none, payload := [], held := [] } } 15 s.wakeStamp false) := by
  have hdropped : s.db.held.filter (fun q => q.iface != 1) = [] := by simp [hh, hq]
  rw [hdropped, ha, hm]
  exact if_neg (ne_true_of_eq_false ha)

theorem dbStopped_read (hf : (damFields false pl).isSome = true) (hl : s.dbLevel ≠ 0) (ho : s.portOpen .dam = false) (hm : s.pw.mode = .graze) :
    s.dbStopped { iface := 1, cmd := 0x20, payload := pl, sys := sys } = true := by
  have hg : goodRequest 0x20 pl = true := hf
  simp [State.dbStopped, hg, hl, ho, hm, State.optLoading]

theorem dbResume_serves (ha : s.dbAwake = true) (ho : s.portOpen .dam = true) (hh : s.db.held = [q]) :
    s.dbResume = State.dbServe { s with db.held := [] } q := by
  rw [State.dbResume, ha, ho, hh]; rfl

theorem dbResume_idle (h : s.db.held = [] ∨ s.dbAwake = false ∨ s.portOpen .dam = false) : s.dbResume = s := by
  unfold State.dbResume
  split
  case isFalse => rfl
  case isTrue hon =>
    obtain ⟨ha, ho⟩ : s.dbAwake = true ∧ s.portOpen .dam = true := by simpa using hon
    have hh : s.db.held = [] := by simpa [ha, ho] using h
    rw [hh, List.foldl_nil, with_held_nil hh]
end
end

/-- Settles O57: each request is served as its row says once nothing is in progress, and what waits is served in its order. -/
theorem fippleRequests : Obligations.FippleRequests := by
  unfold Obligations.FippleRequests
  refine ⟨?ident, ?identBad, ?status, ?statusPending, ?locked, ?lock, ?readWindow, ?readResp, ?readSystem, ?readDenied, ?writeWindow,
    ?writeSystem, ?writeDenied, ?resetDenied, ?reset, ?badcmd, ?crcerr, ?lineReset, ?lineResetRest, ?busyIdent, ?busyCrc, ?rest, ?restBusy,
    ?heldBusy, ?stopped, ?inReset, ?resumeIdent, ?resumeBusy, ?resumeIdle, ?fold⟩
  case ident =>
    intro s ha ht hh
    exact fippleRow_served ha ht hh (dbStopped_other (by decide) (by decide)) rfl
  case identBad =>
    intro b pl s ha ht hh _
    exact fippleRow_served ha ht hh (dbStopped_other (by decide) (by decide)) (dbRequest_malformed rfl)
  case status =>
    intro s ha ht hh hp
    have hidle : s.dbPending = false := by rw [State.dbPending, hp]; rfl
    exact fippleRow_served ha ht hh (dbStopped_other (by decide) (by decide)) (dbRequest_status hidle)
  case statusPending =>
    intro m s ha ht hh hp
    have hbusy : s.dbPending = true := by rw [State.dbPending, hp]; rfl
    exact fippleRow_served ha ht hh (dbStopped_other (by decide) (by decide)) (if_pos hbusy)
  case locked =>
    intro s ha ht hh hl
    exact fippleRow_served ha ht hh (dbStopped_other (by decide) (by decide)) (congrArg (State.dbReply · 0 []) (if_pos hl))
  case lock =>
    intro s ha ht hh hl
    exact fippleRow_served ha ht hh (dbStopped_other (by decide) (by decide)) (congrArg (State.dbReply · 0 []) (if_neg hl))
  case readWindow =>
    intro a n v pl sys s t ha ht hh hl ho hf hr
    have hn : n / n = 1 := Nat.div_self (damFields_size_pos hf)
    refine fippleRow_served ha ht hh (dbStopped_open ho) ((dbRequest_read (isSome_of_damFields hf)).trans ?_)
    exact dbAccess_reads hl ho hf hn (damReads_window hr)
  case readResp =>
    intro a n c v pl sys s t ha ht hh hl ho hf hr hc
    have hn : n / n = 1 := Nat.div_self (damFields_size_pos hf)
    refine fippleRow_served ha ht hh (dbStopped_open ho) ((dbRequest_read (isSome_of_damFields hf)).trans ?_)
    exact (dbAccess_reads hl ho hf hn (damReads_window hr)).trans (if_neg hc)
  case readSystem =>
    intro a n pl sys s ha ht hh hl ho hf hok
    have hn : n * sys.length / n = sys.length := Nat.mul_div_cancel_left _ (damFields_size_pos hf)
    refine fippleRow_served ha ht hh (dbStopped_open ho) ((dbRequest_read (isSome_of_damFields hf)).trans ?_)
    exact dbAccess_reads hl ho hf hn (damReads_system hok [])
  case readDenied =>
    intro pl sys s ha ht hh hl hf
    exact fippleRow_served ha ht hh (dbStopped_locked hl) ((dbRequest_read hf).trans (dbAccess_locked hf hl))
  case writeWindow =>
    intro a n c pl sys s t ha ht hh hl ho hf htt hc
    have hn : n / n = 1 := Nat.div_self (damFields_size_pos hf)
    refine fippleRow_served ha ht hh (dbStopped_open ho) ((dbRequest_write (isSome_of_damFields hf)).trans ?_)
    rw [dbAccess_writes hl ho hf hn (damWrites_window htt), ← hc]
    split_ifs <;> rfl
  case writeSystem =>
    intro a n x pl s ha ht hh hl ho hf
    have hn : n / n = 1 := Nat.div_self (damFields_size_pos hf)
    refine fippleRow_served ha ht hh (dbStopped_open ho) ((dbRequest_write (isSome_of_damFields hf)).trans ?_)
    exact dbAccess_writes hl ho hf hn (damWrites_system)
  case writeDenied =>
    intro pl sys s ha ht hh hl hf
    exact fippleRow_served ha ht hh (dbStopped_locked hl) ((dbRequest_write hf).trans (dbAccess_locked hf hl))
  case resetDenied =>
    intro s ha ht hh hl
    exact fippleRow_served ha ht hh (dbStopped_other (by decide) (by decide)) (if_pos hl)
  case reset =>
    intro s ha ht hh hl
    exact fippleRow_served ha ht hh (dbStopped_other (by decide) (by decide)) (if_neg hl)
  case badcmd =>
    intro c pl s ha ht hh hg
    refine (if_neg (by rw [hg]; decide)).trans (congrArg Host.Outcome.next ?_)
    rw [fippleRequest_served ha ht hh (dbStopped_malformed hg), dbRequest_malformed hg]
  case crcerr =>
    intro s ha ht hh
    exact congrArg Host.Outcome.next (dbArrive_served (q := { iface := 1, status := some 1 }) ha (dbBusy_one ht hh) rfl)
  case lineReset =>
    intro s ha hh
    exact congrArg Host.Outcome.next (lineReset_awake ha hh)
  case lineResetRest =>
    intro q s ha hm hq hh
    exact congrArg Host.Outcome.next (lineReset_rest ha hm hq hh)
  case busyIdent =>
    intro b q s ha ht
    exact fippleRow_of_arrive (dbArrive_busy (q := { iface := 1, cmd := 1 }) ha (dbBusy_of_gathering ht) rfl)
  case busyCrc =>
    intro b q s ha ht
    exact congrArg Host.Outcome.next (dbArrive_busy (q := { iface := 1, status := some 1 }) ha (dbBusy_of_gathering ht) rfl)
  case rest =>
    intro s ha hm ht hh
    refine fippleRow_of_arrive ((dbArrive_rest ha hm { iface := 1, cmd := 1 }).trans ?_)
    rw [dbBusy_one ht hh, hh]
    rfl
  case restBusy =>
    intro q s ha hm hq hh
    refine fippleRow_of_arrive ((dbArrive_rest ha hm { iface := 1, cmd := 1 }).trans ?_)
    rw [dbBusy_of_held hq hh, hh]
    rfl
  case heldBusy =>
    intro q s ha hq hh
    exact fippleRow_of_arrive (dbArrive_busy (q := { iface := 1, cmd := 1 }) ha (dbBusy_of_held hq hh) rfl)
  case stopped =>
    intro pl sys s ha ht hh hl ho hm hf
    refine fippleRow_of_arrive ((dbArrive_stopped ha (dbBusy_one ht hh) (dbStopped_read hf hl ho hm)).trans ?_)
    rw [hh]
    rfl
  case inReset =>
    intro pl sys s ha ht hh hl hm hf
    have ho : s.portOpen .dam = false := by simp [State.portOpen, hm]
    exact fippleRow_served ha ht hh (dbStopped_reset hm) ((dbRequest_write hf).trans (dbAccess_closed hf hl ho))
  case resumeIdent =>
    intro s ha ho hh
    exact dbResume_serves ha ho hh
  case resumeBusy =>
    intro s ha ho hh
    exact dbResume_serves ha ho hh
  case resumeIdle =>
    intro s h
    exact dbResume_idle h
  case fold =>
    intro s ha hm
    exact fippleRow_of_arrive (dbArrive_fold ha hm { iface := 1, cmd := 1 })

end Sys2Proof.Machine
end

section
/-!
Proofs about the TAP (20_debug.md R499, R503, R506).
-/

namespace Sys2Proof.Machine

/-! ### The TAP (R499, R503, R506) -/

section
variable {s : State} {dr : BitVec 9} {sys : List SysAnswer} {b : Byte}

theorem dbEdge_awake (ha : s.dbAwake = true) : s.dbEdge = s := if_pos ha

theorem dbEdge_asleep (ha : s.dbAwake = false) : s.dbEdge = (s.wakeSet 15 s.wakeStamp false).wakeCheck := if_neg (ne_true_of_eq_false ha)

theorem tapClosed_open (h : s.dbMode < 2) : s.tapClosed = false := decide_eq_false (Nat.not_le.mpr h)

theorem tapFipple_closed (h : 2 ≤ s.dbMode) : s.tapFipple dr sys = s.tapSelect 0x10 0 := if_pos (decide_eq_true h)

section
variable (h : s.dbMode < 2)
include h

/-- A capture that finds no response byte due; no byte is passed. -/
theorem tapFipple_captures_none (hv : bitOf dr.toNat 8 = false) (hr : s.db.tapRsp = []) : s.tapFipple dr sys = s.tapSelect 0x10 0 := by
  rw [State.tapFipple, tapClosed_open h, hr]
  exact if_neg (ne_true_of_eq_false hv)

theorem tapFipple_captures {bs : List Byte} (hv : bitOf dr.toNat 8 = false) (hr : s.db.tapRsp = b :: bs) :
    s.tapFipple dr sys = State.tapSelect { s with db.tapRsp := bs } 0x10 (256 + b.toNat) := by
  rw [State.tapFipple, tapClosed_open h, hr]
  exact if_neg (ne_true_of_eq_false hv)

theorem tapFipple_passes (hv : bitOf dr.toNat 8 = true) (hr : s.db.tapRsp = []) :
    s.tapFipple dr sys = (s.tapSelect 0x10 0).tapByte (dr.extractLsb' 0 8) sys := by
  rw [State.tapFipple, tapClosed_open h, hr]
  exact if_pos hv
end

/-- A byte before SYNC is hunted over. -/
theorem tapByte_hunts (ht : s.db.tapReq = []) (hb : b ≠ 0xA7) : s.tapByte b sys = s := by
  have hreq : (if s.db.tapReq.isEmpty && b != 0xA7 then [] else s.db.tapReq ++ [b]) = s.db.tapReq := by
    rw [ht]; exact if_pos (by simpa using hb)
  have hshort : s.db.tapReq.length < 3 := by rw [ht]; decide
  unfold State.tapByte
  rw [hreq]
  exact if_pos hshort

theorem tapByte_sync (ht : s.db.tapReq = []) : s.tapByte 0xA7 sys = { s with db.tapReq := [0xA7] } := by
  have hreq : (if s.db.tapReq.isEmpty && (0xA7 : Byte) != 0xA7 then [] else s.db.tapReq ++ [0xA7]) = [0xA7] := by rw [ht]; rfl
  unfold State.tapByte
  rw [hreq]
  rfl

theorem length_identBytes : s.identBytes.length = 16 := by simp only [State.identBytes, List.length_append, length_natBytes]

/-- A byte passed with its valid bit that is not SYNC. -/
theorem extract_ne_sync (hv : bitOf dr.toNat 8 = true) (hd : dr.toNat ≠ 0x1A7) : dr.extractLsb' 0 8 ≠ (0xA7 : Byte) := by
  intro hb
  have hlow : dr.toNat % 256 = 0xA7 := by
    have := congrArg BitVec.toNat hb
    rwa [BitVec.extractLsb'_toNat, Nat.shiftRight_zero] at this
  have hbit : dr.toNat / 256 % 2 = 1 := beq_iff_eq.mp hv
  have := dr.isLt
  omega

/-- The last byte of IDENT, its CRC good, passes the request on. -/
theorem tapByte_ident (ht : s.db.tapReq = [0xA7, 0x01, 0x00]) :
    s.tapByte (.ofNat 8 (crc8 [0x01, 0x00])) sys =
      State.dbArrive { s with db.tapReq := [] } { iface := 2, status := none, cmd := 1, payload := [], sys := sys } := by
  unfold State.tapByte
  rw [ht]
  rfl

theorem dbBusy_two (hh : s.db.held = []) : s.dbBusy 2 = false := by rw [State.dbBusy, hh]; rfl

/-- The answer to IDENT in the frame of R503. -/
theorem tapAnswer_ident (hh : s.db.held = []) (ha : s.dbAwake = true) {body : List Byte} (hbody : body = [0, 16] ++ s.identBytes) :
    s.dbArrive { iface := 2, status := none, cmd := 1, payload := [], sys := sys } =
      { s with db := { s.db with status := some 0, payload := s.identBytes, tapRsp := [0x5C] ++ (body ++ [.ofNat 8 (crc8 body)]) } } := by
  have hlen : [BitVec.ofNat 8 0, BitVec.ofNat 8 s.identBytes.length] ++ s.identBytes = body := by rw [length_identBytes, hbody]; rfl
  rw [dbArrive_served ha (dbBusy_two hh) rfl, ← hlen]
  rfl

theorem identBytes_tapReq (bs : List Byte) : State.identBytes { s with db.tapReq := bs } = s.identBytes := (rfl)

theorem identBytes_tapSelect (ir n : Nat) : (s.tapSelect ir n).identBytes = s.identBytes := (rfl)

section
variable (h : s.dbMode < 2)
include h

theorem tapMode_enters {scan : Bool} (hl : s.dbLevel = 2 ∨ s.dbMode = 0) :
    s.tapMode scan true = (let u := { s.tapSelect (if scan then 0x11 else 0x12) 0 with pw.fast := false }
      if scan then { u with db.scan := true } else { u with db.bist := true }) := by
  have hmay : ¬(s.dbLevel ≠ 2 ∧ s.dbMode ≠ 0) := by tauto
  exact (if_neg (ne_true_of_eq_false (tapClosed_open h))).trans ((if_neg hmay).trans (if_pos rfl))

theorem tapMode_leaves {scan : Bool} (hl : s.dbLevel = 2 ∨ s.dbMode = 0) (hin : (if scan then s.db.scan else s.db.bist) = true) :
    s.tapMode scan false =
      State.assertReset { s.tapSelect (if scan then 0x11 else 0x12) 0 with db.scan := false, db.bist := false } 5 (some 4) := by
  have hmay : ¬(s.dbLevel ≠ 2 ∧ s.dbMode ≠ 0) := by tauto
  exact (if_neg (ne_true_of_eq_false (tapClosed_open h))).trans ((if_neg hmay).trans ((if_neg Bool.false_ne_true).trans (if_pos hin)))

theorem tapMode_denied {scan enter : Bool} (hl : s.dbLevel ≠ 2) (hm : s.dbMode ≠ 0) :
    s.tapMode scan enter = (s.tapSelect (if scan then 0x11 else 0x12) 0).dbReply 3 [] :=
  (if_neg (ne_true_of_eq_false (tapClosed_open h))).trans (if_pos ⟨hl, hm⟩)
end
end

/-- Settles O59: each instruction selects its register, FIPPLE passes and captures its bytes, and scan and BIST take the clocks. -/
theorem tapInstructions : Obligations.TapInstructions := by
  unfold Obligations.TapInstructions
  refine ⟨?reset, ?idcode, ?extest, ?sample, ?clamp, ?highz, ?bypass, ?asleep, ?closed, ?none, ?captures, ?hunts, ?sync, ?ident, ?scan, ?bist,
    ?leaveScan, ?leaveBist, ?fippleAsleep, ?scanDenied, ?bistDenied⟩
  case reset =>
    intro i s hi
    subst hi
    rfl
  case idcode =>
    intro i s hi ha
    subst hi
    exact congrArg Host.Outcome.next (dbEdge_awake ha)
  case extest | sample | clamp | highz | bypass =>
    intro s ha
    exact congrArg Host.Outcome.next (dbEdge_awake ha)
  case asleep =>
    intro s ha
    exact congrArg Host.Outcome.next (dbEdge_asleep ha)
  case closed =>
    intro dr sys s ha hm
    refine congrArg (fun t : State => Host.Outcome.next t.settle) ((congrArg (State.tapFipple · dr sys) (dbEdge_awake ha)).trans ?_)
    exact tapFipple_closed hm
  case none =>
    intro dr sys s ha hv hm hr
    refine congrArg (fun t : State => Host.Outcome.next t.settle) ((congrArg (State.tapFipple · dr sys) (dbEdge_awake ha)).trans ?_)
    exact tapFipple_captures_none hm hv hr
  case captures =>
    intro dr b q sys s ha hv hm hr
    refine congrArg (fun t : State => Host.Outcome.next t.settle) ((congrArg (State.tapFipple · dr sys) (dbEdge_awake ha)).trans ?_)
    exact tapFipple_captures hm hv hr
  case hunts =>
    intro dr s ha hv hd hm hr ht
    refine congrArg (fun t : State => Host.Outcome.next t.settle) ((congrArg (State.tapFipple · dr []) (dbEdge_awake ha)).trans ?_)
    exact (tapFipple_passes hm hv hr).trans (tapByte_hunts ht (extract_ne_sync hv hd))
  case sync =>
    intro s ha hm hr ht
    refine congrArg (fun t : State => Host.Outcome.next t.settle) ((congrArg (State.tapFipple · 0x1A7 []) (dbEdge_awake ha)).trans ?_)
    exact (tapFipple_passes hm rfl hr).trans (tapByte_sync ht)
  case ident =>
    intro body s hm hr ht hh ha hbody
    refine congrArg (fun t : State => Host.Outcome.next t.settle) ((congrArg (State.tapFipple · _ []) (dbEdge_awake ha)).trans ?_)
    have hbyte : (BitVec.ofNat 9 (256 + crc8 [0x01, 0x00])).extractLsb' 0 8 = BitVec.ofNat 8 (crc8 [0x01, 0x00]) := by decide
    rw [tapFipple_passes hm (by decide) hr, hbyte, tapByte_ident (s := s.tapSelect 0x10 0) ht]
    exact tapAnswer_ident (s := { s.tapSelect 0x10 0 with db.tapReq := [] }) hh ha hbody
  case scan =>
    intro s ha hm hl
    exact congrArg Host.Outcome.next ((congrArg (State.tapMode · true true) (dbEdge_awake ha)).trans (tapMode_enters hm hl))
  case bist =>
    intro s ha hm hl
    exact congrArg Host.Outcome.next ((congrArg (State.tapMode · false true) (dbEdge_awake ha)).trans (tapMode_enters hm hl))
  case leaveScan =>
    intro s ha hm hl hin
    exact congrArg Host.Outcome.next ((congrArg (State.tapMode · true false) (dbEdge_awake ha)).trans (tapMode_leaves hm hl hin))
  case leaveBist =>
    intro s ha hm hl hin
    exact congrArg Host.Outcome.next ((congrArg (State.tapMode · false false) (dbEdge_awake ha)).trans (tapMode_leaves hm hl hin))
  case fippleAsleep =>
    intro dr sys s u ha hu _ hm hr hv
    refine congrArg (fun t : State => Host.Outcome.next t.settle) ((congrArg (State.tapFipple · dr sys) ((dbEdge_asleep ha).trans hu.symm)).trans ?_)
    exact tapFipple_captures_none hm hv hr
  case scanDenied =>
    intro e s ha hm hl
    refine congrArg Host.Outcome.next ((congrArg (State.tapMode · true e) (dbEdge_awake ha)).trans ?_)
    exact tapMode_denied (by rw [hm]; decide) hl (by rw [hm]; decide)
  case bistDenied =>
    intro e s ha hm hl
    refine congrArg Host.Outcome.next ((congrArg (State.tapMode · false e) (dbEdge_awake ha)).trans ?_)
    exact tapMode_denied (by rw [hm]; decide) hl (by rw [hm]; decide)

end Sys2Proof.Machine
end

section
/-!
Proofs about memory integrity: scrubbing, remapping, sweeps and the row log (17_memory_integrity.md R436 to R449).
-/

namespace Sys2Proof.Machine

/-! ### Scrubbing (R436, R437, R440) -/

section
variable {s : State} {g : Nat}

/-- The scrubber of a group steps on from word w, and its next read is due 16 × SPACE fc from this one (R440). -/
def State.scrubStep (u : State) (g w : Nat) : State :=
  { u with mi := { u.mi with scrub := tset (fun _ => 0) u.mi.scrub g ((w + 1) % miWords g), scrubFc := tset (fun _ => 0) u.mi.scrubFc g (u.fc + 1) } }

section
variable (hfast : s.pw.fast = true) (hg : g ≠ 7) (hen : s.flag (MI_GCFG g) fMI_GCFG_SCRUBEN = true) (hdue : s.scrubDue g = true)
include hfast hg hen hdue

theorem scrub_due (errs : List (Nat × BitVec 48)) :
    s.scrub g errs =
      ((((errs.filter (fun e => decide (e.1 < (miShape g).1))).map (fun e => (e.1, e.2.toNat))).foldr errInsert []).foldl
        (fun u e => u.eccError g e.1 (tget (fun _ => 0) s.mi.scrub g) e.2) s).scrubStep g (tget (fun _ => 0) s.mi.scrub g) := by
  have hon : (s.pw.fast && g != 7 && s.flag (MI_GCFG g) fMI_GCFG_SCRUBEN && s.scrubDue g) = true := by simp [hfast, hg, hen, hdue]
  exact if_pos hon

/-- A read that finds one word flipped decides that word. -/
theorem scrub_one {i : Nat} {x : BitVec 48} (hi : i < (miShape g).1) :
    s.scrub g [(i, x)] = (s.eccError g i (tget (fun _ => 0) s.mi.scrub g) x.toNat).scrubStep g (tget (fun _ => 0) s.mi.scrub g) := by
  rw [scrub_due hfast hg hen hdue, List.filter_cons_of_pos (by simpa using hi)]
  rfl
end

theorem scrub_idle (h : s.pw.fast = false ∨ g = 7 ∨ s.flag (MI_GCFG g) fMI_GCFG_SCRUBEN = false ∨ s.scrubDue g = false)
    (errs : List (Nat × BitVec 48)) : s.scrub g errs = s := by
  have hoff : ¬(s.pw.fast && g != 7 && s.flag (MI_GCFG g) fMI_GCFG_SCRUBEN && s.scrubDue g) = true := by
    rcases h with h | h | h | h <;> simp [h]
  exact if_neg hoff

theorem eccError_corrected {i w fl p : Nat} (h : eccRead g (syndrome g fl) = .corrected p) :
    s.eccError g i w fl =
      (let mac := w / 64 / (miShape g).2.2
       let at0 := w % ((miShape g).2.2 * 64)
       let u := s.miWrite (s.miRead (s.miLoc g i w) ^^^ dataFlips g (fl ^^^ 2 ^ p)) (s.miLoc g i w)
       let u := ((u.inc (MI_CE_CNT g)).setFlag (MI_GSTAT g) fMI_GSTAT_CE true).miLast g i mac at0 (syndrome g fl) false
       u.rowLog g i mac (at0 / 64)) := by
  simp only [State.eccError, h]

/-! A rewrite and its counts leave MI_GSTAT. -/

theorem reg_setMark (s : State) (a o : Nat) (b : Bool) : (s.setMark a b).reg o = s.reg o := (rfl)

theorem reg_setBytes (s : State) (a n v o : Nat) : (s.setBytes a n v).reg o = s.reg o := by
  induction n generalizing s a v with
  | zero => rfl
  | succ n ih => exact ih (s.setByte a (.ofNat 8 v)) (a + 1) (v / 256)

/-- The scrubber rewrites memory, queue descriptors and chant words: no register below the descriptors. -/
theorem reg_miWrite {o v i w : Nat} (ho : o < 0x100000) : (s.miWrite v (s.miLoc g i w)).reg o = s.reg o := by
  unfold State.miLoc
  split
  case h_5 => rw [State.miWrite, reg_setMark, reg_setNat_ne _ _ _ _ (by simp only [QF_QCFG]; omega)]
  case h_6 =>
    extract_lets e q
    split
    · exact (reg_setMark _ _ _ _).trans ((reg_setMark _ _ _ _).trans (reg_setBytes _ _ _ _ _))
    · rfl
  case h_10 =>
    rw [State.miWrite, reg_setMark, reg_setMark, reg_setNat_ne _ _ _ _ (by simp only [CH_CMEM_HI]; omega),
      reg_setNat_ne _ _ _ _ (by simp only [CH_CMEM_LO]; omega)]
  all_goals exact (reg_setMark _ _ _ _).trans ((reg_setMark _ _ _ _).trans (reg_setBytes _ _ _ _ _))

theorem reg_miLast {i mac word syn : Nat} {ue : Bool} {u : State} : (u.miLast g i mac word syn ue).reg (MI_GSTAT g) = u.reg (MI_GSTAT g) := by
  rw [State.miLast, reg_setReg64_ne (by simp only [MI_GSTAT, MI_LAST_STAMP_LO]; omega) (by simp only [MI_GSTAT, MI_LAST_STAMP_HI]; omega),
    reg_setNat_ne _ _ _ _ (by simp only [MI_GSTAT, MI_LAST_SYN]; omega), reg_setNat_ne _ _ _ _ (by simp only [MI_GSTAT, MI_LAST]; omega)]

theorem eccError_uncorrectable {i w fl : Nat} (hg : g < 10) (hue : s.flag (MI_GSTAT g) fMI_GSTAT_UE = false)
    (h : eccRead g (syndrome g fl) = .uncorrectable) :
    s.eccError g i w fl =
      (let mac := w / 64 / (miShape g).2.2
       let at0 := w % ((miShape g).2.2 * 64)
       let n := dataBits g - 1
       let u := s.miWrite ((s.miRead (s.miLoc g i w) ^^^ dataFlips g fl) % 2 ^ n + 2 ^ n) (s.miLoc g i w)
       let u := (u.inc (MI_UE_CNT g)).miLast g i mac at0 (syndrome g fl) true
       let u := (u.setFlag (MI_GSTAT g) fMI_GSTAT_UE true).raiseNamed (896 + g) [fMI_GSTAT_UE.lo]
       u.record (896 + g) 0x60 g (u.nat (MI_LAST g)) (syndrome g fl) 0) := by
  have hseen (mac word v syn : Nat) :
      (((s.miWrite v (s.miLoc g i w)).inc (MI_UE_CNT g)).miLast g i mac word syn true).flag (MI_GSTAT g) fMI_GSTAT_UE = false := by
    rw [← hue]
    refine flag_of_reg ?_
    rw [reg_miLast, reg_inc_ne _ _ _ (by simp only [MI_GSTAT, MI_UE_CNT]; omega), reg_miWrite (by simp only [MI_GSTAT]; omega)]
  simp only [State.eccError, h, hseen, Bool.false_eq_true, if_false]
end

/-! ### Remapping (R443, R444) -/

section
variable {s : State} {g j : Nat} {v : Word}

theorem bitOf_ne {a b i : Nat} (ha : bitOf a i = true) (hb : bitOf b i = false) : a ≠ b := by
  rintro rfl
  rw [ha] at hb
  contradiction

theorem remapWrite_copies (hold : bitOf (s.nat (MI_REMAP g j)) 31 = false) (hen : bitOf v.toNat 31 = true)
    (hi : bitsOf v.toNat 24 7 < (miShape g).1) (hm : bitsOf v.toNat 17 7 < (miShape g).2.1) (hr : bitsOf v.toNat 8 8 < (miShape g).2.2)
    (hclash : s.remapClash g j v.toNat = false) (hcopy : s.remapCopy g = none) :
    s.remapWrite g j v =
      (let u := (s.setReg (MI_REMAP g j) v).setFlag (MI_REMAP_STAT g) fMI_REMAP_STAT_BUSY true
       { u with mi.copies := tset (fun _ => (0, 0)) u.mi.copies g (j, u.fc + 1) }) := by
  have hfree : ¬(s.remapCopy g).isSome = true := by rw [hcopy]; decide
  have hok : ¬((miShape g).1 ≤ bitsOf v.toNat 24 7 ∨ (miShape g).2.1 ≤ bitsOf v.toNat 17 7 ∨ (miShape g).2.2 ≤ bitsOf v.toNat 8 8
      ∨ s.remapClash g j v.toNat = true ∨ (s.remapCopy g).isSome = true) := by
    rw [hclash]; simp only [not_or]; exact ⟨by omega, by omega, by omega, Bool.false_ne_true, hfree⟩
  simp only [State.remapWrite, bitOf_ne hen hold, hold, hen, hok, Bool.false_and, Bool.not_true, Bool.false_eq_true, if_false]

theorem nat_ne_of_reg_ne (h : v ≠ s.reg (MI_REMAP g j)) : v.toNat ≠ s.nat (MI_REMAP g j) := fun e => h (BitVec.eq_of_toNat_eq e)

/-- An enabled entry is not disabled nor moved to another row. -/
theorem remapWrite_keeps (hold : bitOf (s.nat (MI_REMAP g j)) 31 = true) (hv : v ≠ s.reg (MI_REMAP g j))
    (h : bitOf v.toNat 31 = false ∨ v.toNat / 4 ≠ s.nat (MI_REMAP g j) / 4) :
    s.remapWrite g j v = (s.inc MI_CFG_REFUSED).record (896 + g) 0x62 0 0 0 0 := by
  have hbad : (bitOf (s.nat (MI_REMAP g j)) 31 && (!bitOf v.toNat 31 || v.toNat / 4 != s.nat (MI_REMAP g j) / 4)) = true := by
    rcases h with h | h <;> simp [hold, h]
  simp only [State.remapWrite, nat_ne_of_reg_ne hv, hbad, if_false, if_true]

theorem remapWrite_refused (hv : v ≠ s.reg (MI_REMAP g j)) (hen : bitOf v.toNat 31 = true)
    (h : (miShape g).1 ≤ bitsOf v.toNat 24 7 ∨ (miShape g).2.1 ≤ bitsOf v.toNat 17 7 ∨ (miShape g).2.2 ≤ bitsOf v.toNat 8 8
      ∨ s.remapClash g j v.toNat = true ∨ (s.remapCopy g).isSome = true) :
    s.remapWrite g j v = (s.inc MI_CFG_REFUSED).record (896 + g) 0x62 0 0 0 0 := by
  simp only [State.remapWrite, nat_ne_of_reg_ne hv, hen, h, Bool.not_true, Bool.false_eq_true, if_false, if_true, ite_self]

theorem remapSwitch_switches {f : Nat} (hfast : s.pw.fast = true) (hc : s.remapCopy g = some (j, f)) (hf : f + 257 ≤ s.fc) :
    s.remapSwitch g =
      (let u := { s with mi.copies := tset (fun _ => (0, 0)) s.mi.copies g (0, 0) }
       (((u.setFlag (MI_REMAP_STAT g) fMI_REMAP_STAT_BUSY false).raise 906 0 0).record 906 0x61 g j (s.fc - f) 0).saveRemap) := by
  have hend : ¬(s.fc < f + 257 ∨ s.pw.fast = false) := by rw [hfast]; simp only [not_or]; exact ⟨by omega, by decide⟩
  rw [State.remapSwitch, hc]
  exact if_neg hend

theorem remapSwitch_idle (hc : s.remapCopy g = none) : s.remapSwitch g = s := by rw [State.remapSwitch, hc]
end

/-! ### Sweeps and the row log (R447, R449) -/

section
variable {s : State} {g i : Nat}

theorem sweepGo_of_inst (hi : i < 128) : (s.setNat (MI_SWEEP g) i).sweepGo g = (s.setNat (MI_SWEEP g) i).sweepInst g i := by
  have hinst : (s.setNat (MI_SWEEP g) i).fld (MI_SWEEP g) fMI_SWEEP_INST = i := by
    rw [fld_setNat_same]
    simp only [fMI_SWEEP_INST, Fld.of, bitsOf]
    omega
  rw [State.sweepGo, hinst]

/-- The word of MI_SWEEP that the register keeps: GO reads 0. -/
theorem sweep_kept (hi : i < 128) : BitVec.ofNat 32 (2 ^ 31 + i) &&& ~~~(0x80000000#32) = BitVec.ofNat 32 i :=
  (by decide : ∀ i : Fin 128, BitVec.ofNat 32 (2 ^ 31 + i.val) &&& ~~~(0x80000000#32) = BitVec.ofNat 32 i.val) ⟨i, hi⟩

/-- A write of GO that names an instance sweeps it. -/
theorem exec_miSweep {p : Port} {g : Fin 10} {i : Fin 128} (h : s.takes p (MI_SWEEP g) (.ofNat 32 (2 ^ 31 + i.val)) = true) :
    exec (.miSweep p g i) s = .next (s.after p (MI_SWEEP g) (.ofNat 32 (2 ^ 31 + i.val)) (fun u => (u.setNat (MI_SWEEP g) i).sweepInst g i)) := by
  obtain ⟨hadm, hword⟩ := takes_iff.mp h
  have hgo : vbit (BitVec.ofNat 32 (2 ^ 31 + i.val)) 31 = true :=
    (by decide : ∀ i : Fin 128, vbit (BitVec.ofNat 32 (2 ^ 31 + i.val)) 31 = true) i
  refine (regCmd_MI_SWEEP g hadm).trans (congrArg Host.Outcome.next (after_congr ?_))
  rw [hword, if_pos hgo, sweep_kept i.isLt]
  exact sweepGo_of_inst i.isLt

theorem sweepEnd_ends (hfast : s.pw.fast = true) (h : s.sweeping g i = true) :
    s.sweepEnd g i =
      (let u := s.wipeInstance g i
       let u := { u with mi.sweeps := tset (fun _ => false) u.mi.sweeps (g * 128 + i) false }
       let u := u.setFlag (MI_GSTAT g) fMI_GSTAT_SWEEP (u.mi.sweeps.any (fun e => e.1 / 128 == g))
       (u.raise 907 0 0).record 907 0x63 g i 0 0) := by
  have hon : (s.sweeping g i && s.pw.fast) = true := by rw [h, hfast]; rfl
  exact if_pos hon

theorem sweepEnd_idle (h : s.sweeping g i = false) : s.sweepEnd g i = s := by
  rw [State.sweepEnd, h]; rfl
end

/-- Settles O50: the scrubber's decisions, the checks of a remap and the sweeps, each by its branch. -/
theorem memoryIntegrityCommands : Obligations.MemoryIntegrityCommands := by
  unfold Obligations.MemoryIntegrityCommands
  refine ⟨?clean, ?corrected, ?uncorrectable, ?idle, ?copies, ?keeps, ?refused, ?switches, ?noCopy, ?sweeps, ?noSweep, ?sweepEnds, ?notSweeping, ?clrlog⟩
  case clean =>
    intro g s hlive hfast hg hen hdue
    exact (fastEvent_live (f := fun s => s.scrub g []) hlive).trans (congrArg Host.Outcome.next (scrub_due hfast hg hen hdue []))
  case corrected =>
    intro g i fl x s p hlive hfast hg hen hi hfl hdue hecc
    subst hfl
    refine (fastEvent_live (f := fun s => s.scrub g [(i, x)]) hlive).trans (congrArg Host.Outcome.next ?_)
    exact (scrub_one hfast hg hen hdue hi).trans (congrArg (State.scrubStep · g.val _) (eccError_corrected hecc))
  case uncorrectable =>
    intro g i fl x s hlive hfast hg hen hue hi hfl hdue hecc
    subst hfl
    refine (fastEvent_live (f := fun s => s.scrub g [(i, x)]) hlive).trans (congrArg Host.Outcome.next ?_)
    rw [scrub_one hfast hg hen hdue hi, eccError_uncorrectable g.isLt hue hecc, State.scrubStep]
  case idle =>
    intro g errs s h
    refine congrArg Host.Outcome.next (?_ : (if s.live then s.scrub g errs else s) = s)
    rw [scrub_idle h, ite_self]
  case copies =>
    intro p g j v s t h ht hold hen hi hm hr hclash hcopy
    subst ht
    obtain ⟨hadm, hword⟩ := takes_iff.mp h
    refine (regCmd_MI_REMAP g j hadm).trans (congrArg Host.Outcome.next (after_congr ?_))
    rw [hword]
    exact remapWrite_copies hold hen hi hm hr hclash hcopy
  case keeps =>
    intro p g j v s t h ht hold hv hbad
    subst ht
    obtain ⟨hadm, hword⟩ := takes_iff.mp h
    refine (regCmd_MI_REMAP g j hadm).trans (congrArg Host.Outcome.next (after_congr ?_))
    rw [hword]
    exact remapWrite_keeps hold hv hbad
  case refused =>
    intro p g j v s t h ht hv hen hbad
    subst ht
    obtain ⟨hadm, hword⟩ := takes_iff.mp h
    refine (regCmd_MI_REMAP g j hadm).trans (congrArg Host.Outcome.next (after_congr ?_))
    rw [hword]
    exact remapWrite_refused hv hen hbad
  case switches =>
    intro g j f s hlive hfast hc hf
    exact (fastEvent_live (f := fun s => s.remapSwitch g) hlive).trans (congrArg Host.Outcome.next (remapSwitch_switches hfast hc hf))
  case noCopy =>
    intro g s hc
    refine congrArg Host.Outcome.next (?_ : (if s.live then s.remapSwitch g else s) = s)
    rw [remapSwitch_idle hc, ite_self]
  case sweeps =>
    intro p g i s t h ht hok
    subst ht
    refine (exec_miSweep h).trans (congrArg Host.Outcome.next (after_congr ?_))
    exact if_pos hok
  case noSweep =>
    intro p g i s t h ht hok
    subst ht
    refine (exec_miSweep h).trans (congrArg Host.Outcome.next (after_congr ?_))
    exact if_neg (ne_true_of_eq_false hok)
  case sweepEnds =>
    intro g i s hlive hfast hs
    exact (fastEvent_live (f := fun s => s.sweepEnd g i) hlive).trans (congrArg Host.Outcome.next (sweepEnd_ends hfast hs))
  case notSweeping =>
    intro g i s hs
    refine congrArg Host.Outcome.next (?_ : (if s.live then s.sweepEnd g i else s) = s)
    rw [sweepEnd_idle hs, ite_self]
  case clrlog =>
    intro p g s h
    obtain ⟨hadm, hword⟩ := takes_iff.mp h
    refine (regCmd_MI_GCTL g hadm).trans (congrArg Host.Outcome.next (after_congr ?_))
    rw [hword]
    rfl

end Sys2Proof.Machine
end

section
/-!
Proofs about shadow pairing and the wear monitors (18_reserve_and_service_life.md R453 to R463).
-/

namespace Sys2Proof.Machine

/-! ### Shadow pairing (R460) -/

section
variable {s : State} {v : Word}

theorem scCtrlWrite_pairs (hv : v ≠ s.reg RS_SC_CTRL) (hdv : s.dvBusy = false) (hen : s.flag RS_SC_CTRL fRS_SC_CTRL_EN = false) :
    s.scCtrlWrite v = { (s.setReg RS_SC_CTRL v).setFlag RS_SC_STAT fRS_SC_STAT_SYNCED false with rs.pairFc := 0 } := by
  have hscOn : s.scOn = false := hen
  have hfree : ¬((s.dvBusy && s.dvKind == 1) || (s.scOn && bitOf v.toNat 31)) = true := by rw [hdv, hscOn]; exact Bool.false_ne_true
  exact (if_neg hv).trans (if_neg hfree)

theorem scCtrlWrite_refused (hv : v ≠ s.reg RS_SC_CTRL) (hon : s.flag RS_SC_CTRL fRS_SC_CTRL_EN = true) (hen : bitOf v.toNat 31 = true) :
    s.scCtrlWrite v = s.inc RS_CFG_REFUSED := by
  have hscOn : s.scOn = true := hon
  have hbusy : ((s.dvBusy && s.dvKind == 1) || (s.scOn && bitOf v.toNat 31)) = true := by rw [hscOn, hen]; exact Bool.or_true _
  exact (if_neg hv).trans (if_pos hbusy)

/-! ### The ring oscillators (R453) -/

theorem roCtrlWrite_starts (hgo : bitOf v.toNat 31 = true) (hbusy : s.flag RS_RO_CTRL fRS_RO_CTRL_BUSY = false) :
    s.roCtrlWrite v =
      ((s.setFld RS_RO_CTRL fRS_RO_CTRL_WIN (max 1 (bitsOf v.toNat 0 8))).setFlag RS_RO_CTRL fRS_RO_CTRL_BUSY true |>
        fun x => { x with rs.roLeft := x.fld RS_RO_CTRL fRS_RO_CTRL_WIN }) := by
  have hwin (u : State) : (u.setFlag RS_RO_CTRL fRS_RO_CTRL_BUSY true).fld RS_RO_CTRL fRS_RO_CTRL_WIN = u.fld RS_RO_CTRL fRS_RO_CTRL_WIN := by
    exact (fld_setFlag _ _ _ _ _ _).trans (fld_setFld_other _ _ _ _ _ (by decide) (by decide))
  simp only [State.roCtrlWrite, hgo, hbusy, hwin, if_true, Bool.false_eq_true, if_false]

theorem roCtrlWrite_refused (hgo : bitOf v.toNat 31 = true) (hbusy : s.flag RS_RO_CTRL fRS_RO_CTRL_BUSY = true) :
    s.roCtrlWrite v = (s.setFld RS_RO_CTRL fRS_RO_CTRL_WIN (max 1 (bitsOf v.toNat 0 8))).inc RS_CFG_REFUSED := by
  simp only [State.roCtrlWrite, hgo, hbusy, if_true]

section
variable {stress ref : Fin 8 → Word}

theorem roEnd_ends (hlive : s.live = true) (hbusy : s.flag RS_RO_CTRL fRS_RO_CTRL_BUSY = true) (hleft : s.rs.roLeft = 0) :
    s.roEnd stress ref =
      (let u := (List.finRange 8).foldl (fun u c => (u.setReg (RS_RO_STRESS c.val) (stress c)).setReg (RS_RO_REF c.val) (ref c)) s
       (u.setFlag RS_RO_CTRL fRS_RO_CTRL_BUSY false).raise 916 0 0) := by
  have hend : (s.flag RS_RO_CTRL fRS_RO_CTRL_BUSY && s.live && s.rs.roLeft == 0) = true := by rw [hbusy, hlive, hleft]; rfl
  exact if_pos hend

theorem roEnd_idle (h : s.flag RS_RO_CTRL fRS_RO_CTRL_BUSY = false ∨ s.rs.roLeft ≠ 0) : s.roEnd stress ref = s := by
  have hidle : ¬(s.flag RS_RO_CTRL fRS_RO_CTRL_BUSY && s.live && s.rs.roLeft == 0) = true := by
    rcases h with h | h <;> simp [h]
  exact if_neg hidle
end

/-! ### The RC oscillators (R463) -/

section
variable {a b : Nat} (hb : rcoBad (b % 65536) = false)
include hb

theorem rcoMeasure_good (ha : rcoBad (a % 65536) = false) :
    s.rcoMeasure a b = (s.setNat RS_RCO_A (a % 65536)).setNat RS_RCO_B (b % 65536) := by
  simp only [State.rcoMeasure, ha, hb, Bool.false_and, Bool.false_eq_true, if_false]

/-- The first count of oscillator A out of range. -/
theorem rcoMeasure_bad (ha : rcoBad (a % 65536) = true) (hr : s.rs.rco = 0) :
    s.rcoMeasure a b =
      (let u := (s.setNat RS_RCO_A (a % 65536)).setNat RS_RCO_B (b % 65536)
       State.raise { u with rs.rco := 1 } 917 0 0) := by
  have hfirst : (true && !bitOf 0 0) = true := rfl
  simp only [State.rcoMeasure, ha, hb, setNat_rs, hr, Bool.false_and, hfirst, Bool.false_eq_true, if_false, if_true, Nat.zero_add, pow_zero]
end

end

/-- Settles O52: the pairing, the measurement windows, the counts and the hour, each by its branch. -/
theorem shadowPairingAndWear : Obligations.ShadowPairingAndWear := by
  unfold Obligations.ShadowPairingAndWear
  refine ⟨?pairs, ?refused, ?starts, ?busy, ?ends, ?idle, ?good, ?bad, ?hour⟩
  case pairs =>
    intro p data v s _ h hen hdv hne
    obtain ⟨hadm, hword⟩ := takes_iff.mp h
    subst v
    refine (regCmd_RS_SC_CTRL hadm).trans (congrArg Host.Outcome.next (after_congr ?_))
    rw [hword]
    exact scCtrlWrite_pairs (by rwa [logged_reg]) (by rwa [State.dvBusy, State.dvPhase, logged_fld]) (by rwa [logged_flag])
  case refused =>
    intro p data v s t hv h ht hon hne
    subst hv ht
    obtain ⟨hadm, hword⟩ := takes_iff.mp h
    refine (regCmd_RS_SC_CTRL hadm).trans (congrArg Host.Outcome.next (after_congr ?_))
    rw [hword]
    exact scCtrlWrite_refused hne hon (bitOf_putGo _ data rfl rfl)
  case starts =>
    intro p data v s t w hv h hw hgo ht hbusy
    subst hv ht hw
    exact (regCmd_RS_RO_CTRL h).trans (congrArg Host.Outcome.next (after_congr (roCtrlWrite_starts hgo hbusy)))
  case busy =>
    intro p data v s t w hv h hw hgo ht hbusy
    subst hv ht hw
    exact (regCmd_RS_RO_CTRL h).trans (congrArg Host.Outcome.next (after_congr (roCtrlWrite_refused hgo hbusy)))
  case ends =>
    intro a b s hlive hbusy hleft
    exact (fastEvent_live (f := fun s => s.roEnd a.get b.get) hlive).trans (congrArg Host.Outcome.next (roEnd_ends hlive hbusy hleft))
  case idle =>
    intro a b s h
    refine congrArg Host.Outcome.next (?_ : (if s.live then s.roEnd a.get b.get else s) = s)
    rw [roEnd_idle h, ite_self]
  case good =>
    intro a b s hm ha hb
    exact congrArg Host.Outcome.next ((if_neg hm).trans (rcoMeasure_good hb ha))
  case bad =>
    intro a b s hm ha hr hb
    exact congrArg Host.Outcome.next ((if_neg hm).trans (rcoMeasure_bad hb ha hr))
  case hour =>
    intro s hlive
    exact fastEvent_live (f := State.stressHour) hlive

end Sys2Proof.Machine
end

section
/-!
Proofs about the release of a reset and start-up (19_reset_power_startup.md R471 to R482).
-/

namespace Sys2Proof.Machine

/-! ### What the stages of start-up leave (R478 to R482) -/

/-- `t` differs from `s` in the patch that is loaded at most, as to the power controller, and not in DB_STAT. -/
structure BootKeeps (s t : State) : Prop where
  stat : t.reg DB_STAT = s.reg DB_STAT
  pw : t.pw = { s.pw with patch := t.pw.patch, patchVer := t.pw.patchVer, svn := t.pw.svn }

namespace BootKeeps

variable {s t u : State}

theorem refl (s : State) : BootKeeps s s := ⟨rfl, rfl⟩

theorem trans (h : BootKeeps s t) (g : BootKeeps t u) : BootKeeps s u :=
  ⟨g.stat.trans h.stat, g.pw.trans (congrArg (fun p : PwState => { p with patch := u.pw.patch, patchVer := u.pw.patchVer, svn := u.pw.svn }) h.pw)⟩

theorem ite {c : Prop} [Decidable c] (ht : BootKeeps s t) (hu : BootKeeps s u) : BootKeeps s (if c then t else u) := by
  split
  · exact ht
  · exact hu

theorem foldl {α : Type} {f : State → α → State} {l : List α} (h : ∀ u, ∀ a ∈ l, BootKeeps u (f u a)) (s : State) :
    BootKeeps s (l.foldl f s) := List.foldlRecOn (motive := BootKeeps s) l f (refl s) (fun u hu a ha => hu.trans (h u a ha))

theorem forN {f : Nat → State → State} {n : Nat} (h : ∀ i < n, ∀ u, BootKeeps u (f i u)) (s : State) : BootKeeps s (forN f n s) := by
  induction n with
  | zero => exact refl s
  | succ n ih => exact (ih (fun i hi => h i (Nat.lt_succ_of_lt hi))).trans (h n (Nat.lt_succ_self n) _)

/-! What it leaves of the power controller. -/

theorem mode (h : BootKeeps s t) : t.pw.mode = s.pw.mode := (congrArg PwState.mode h.pw).trans rfl
theorem level (h : BootKeeps s t) : t.pw.level = s.pw.level := (congrArg PwState.level h.pw).trans rfl
theorem image (h : BootKeeps s t) : t.pw.image = s.pw.image := (congrArg PwState.image h.pw).trans rfl

/-- Registers and fields apart from DB_STAT. -/
theorem of_regs (hr : t.reg DB_STAT = s.reg DB_STAT) (hp : t.pw = s.pw) : BootKeeps s t := ⟨hr, by rw [hp]⟩

theorem setReg {o : Nat} (ho : o ≠ DB_STAT) (v : Word) : BootKeeps s (s.setReg o v) := of_regs (reg_setReg_ne _ _ _ _ ho.symm) rfl
theorem setFld {o : Nat} (ho : o ≠ DB_STAT) (f : Fld) (n : Nat) : BootKeeps s (s.setFld o f n) := of_regs (reg_setFld_ne _ _ _ _ _ ho.symm) rfl
theorem setFlag {o : Nat} (ho : o ≠ DB_STAT) (f : Fld) (b : Bool) : BootKeeps s (s.setFlag o f b) := of_regs (reg_setFlag_ne _ _ _ _ _ ho.symm) rfl
theorem setNat {o : Nat} (ho : o ≠ DB_STAT) (n : Nat) : BootKeeps s (s.setNat o n) := of_regs (reg_setNat_ne _ _ _ _ ho.symm) rfl
theorem setReg64 {l h : Nat} (hl : l ≠ DB_STAT) (hh : h ≠ DB_STAT) (x : Stamp) : BootKeeps s (s.setReg64 l h x) :=
  of_regs (reg_setReg64_ne hl.symm hh.symm) rfl

theorem raise (n p0 p1 : Nat) : BootKeeps s (s.raise n p0 p1) :=
  of_regs (reg_raiseAt_unit (by decide) (by decide) _ _ _ _) (RaisedFrom.raise s n p0 p1).pw

theorem record (src code w0 w1 w2 w3 : Nat) : BootKeeps s (s.record src code w0 w1 w2 w3) := of_regs rfl rfl

end BootKeeps

section
variable {s : State}

theorem bootKeeps_setStage (n : Nat) : BootKeeps s (s.setStage n) := .setFld (by decide) _ _

theorem bootKeeps_loadRemap (ok : Bool) : BootKeeps s (s.loadRemap ok) := by
  unfold State.loadRemap
  split
  · exact .refl s
  · refine .ite (.setFlag (by decide) _ _) ((BootKeeps.foldl (fun u e _ => ?_) s).trans (.setReg (by decide) _))
    have entry : BootKeeps u (u.setReg (MI_REMAP (e.1 / 8) (e.1 % 8)) e.2) := .setReg (by simp only [MI_REMAP, DB_STAT]; omega) _
    exact .ite (entry.trans ((BootKeeps.raise 906 0 0).trans (.record _ _ _ _ _ _))) entry

theorem bootKeeps_mbPut {m i : Nat} {ws : List Word} (hi : i + ws.length ≤ 8) : BootKeeps s (s.mbPut m i ws) := by
  induction ws generalizing s i with
  | nil => exact .refl s
  | cons w ws ih =>
    rw [List.length_cons] at hi
    exact (BootKeeps.setReg (by simp only [MB_RPL, DB_STAT]; omega) w).trans (ih (by omega))

theorem bootKeeps_mbPutHeader (m w0 seq len inc : Nat) (ast cst : Stamp) :
    BootKeeps s (s.mbPutHeader m w0 seq len inc ast cst) := by
  have hrpl (j : Nat) (hj : j < 8) : MB_RPL m j ≠ DB_STAT := by simp only [MB_RPL, DB_STAT]; omega
  exact ((BootKeeps.setNat (hrpl 0 (by decide)) _).trans (.setNat (hrpl 1 (by decide)) _)).trans ((BootKeeps.setNat (hrpl 2 (by decide)) _).trans
    ((BootKeeps.setNat (hrpl 3 (by decide)) _).trans ((BootKeeps.setReg64 (hrpl 4 (by decide)) (hrpl 5 (by decide)) _).trans
      (.setReg64 (hrpl 6 (by decide)) (hrpl 7 (by decide)) _))))

theorem bootKeeps_bootReply {ws : List Word} (hws : ws.length = 8) (status detail : Nat) : BootKeeps s (s.bootReply status detail ws) := by
  unfold State.bootReply
  extract_lets w0
  refine BootKeeps.foldl (fun u m _ => ?_) s
  exact ((bootKeeps_mbPut (by omega)).trans (bootKeeps_mbPutHeader _ _ _ _ _ _ _)).trans
    ((BootKeeps.setFld (by simp only [MB_STAT, DB_STAT]; omega) _ _).trans (.raise _ _ _))

theorem bootKeeps_patchWords (p i : Nat) (ws : List UWord) : BootKeeps s (s.patchWords p i ws) := by
  induction ws generalizing s i with
  | nil => exact .refl s
  | cons w ws ih => exact (BootKeeps.of_regs rfl rfl : BootKeeps s (s.setCsWord p (0x1000 + i) w)).trans (ih (i + 1))

theorem bootKeeps_patchMatches (p i : Nat) (ws : List Word) : BootKeeps s (s.patchMatches p i ws) := by
  induction ws generalizing s i with
  | nil => exact .refl s
  | cons w ws ih => exact (BootKeeps.setReg (by simp only [CS_MATCH, DB_STAT]; omega) w).trans (ih (i + 1))

theorem bootKeeps_patchEngine (im : PatchImage) (p : Nat) (bad : Bool) : BootKeeps s (s.patchEngine im p bad) := by
  have hctrl : CS_CTRL p ≠ DB_STAT := by simp only [CS_CTRL, DB_STAT]; omega
  have hstat : CS_STAT p ≠ DB_STAT := by simp only [CS_STAT, DB_STAT]; omega
  have hmatch (i : Nat) : CS_MATCH p i ≠ DB_STAT := by simp only [CS_MATCH, DB_STAT]; omega
  unfold State.patchEngine
  extract_lets body s1 s2 s3 s4 s5
  have loaded : BootKeeps s s3 := (BootKeeps.setFlag hctrl _ _).trans ((bootKeeps_patchWords p 0 _).trans (bootKeeps_patchMatches p 0 _))
  refine loaded.trans (.ite ?_ ?_)
  · exact (BootKeeps.forN (fun i _ u => .setFlag (hmatch i) _ _) s3).trans (.setFlag hstat _ _)
  · exact (BootKeeps.setFlag hctrl _ _).trans ((BootKeeps.setFlag hstat _ _).trans (.setFld hstat _ _))

theorem bootKeeps_patchLoad (im : Option PatchImage) : BootKeeps s (s.patchLoad im) := by
  have locked (u : State) : BootKeeps u (forN (fun p u => u.setFlag (CS_CTRL p) fCS_CTRL_LOCK true) 72 u) :=
    .forN (fun p _ u => .setFlag (by simp only [CS_CTRL, DB_STAT]; omega) _ _) u
  have noted (u : State) (a b c) : BootKeeps u { u with pw := { u.pw with patch := a, patchVer := b, svn := c } } := ⟨rfl, rfl⟩
  unfold State.patchLoad
  refine BootKeeps.trans ?_ (locked _)
  split
  · exact noted _ _ _ _
  · exact .ite (noted _ _ _ _) ((BootKeeps.forN (fun p _ u => bootKeeps_patchEngine _ _ _) s).trans (noted _ _ _ _))

/-! The map of the units (R451, R452). -/

theorem mapReg_unitOf_ne (u : Nat) : mapReg (unitOf u).1 (unitOf u).2 ≠ DB_STAT := by
  unfold mapReg
  split <;> simp only [LE_MAP, PW_MAP, TM_MAP, PF_MAP, CH_MAP, DB_STAT] <;> omega

theorem hurdleReg_unitOf_ne {u : Nat} (hu : u < 206) : hurdleReg (unitOf u).1 (unitOf u).2 ≠ DB_STAT := by
  unfold unitOf
  split_ifs <;> simp only [hurdleReg, RS_HURDLE_E, DB_STAT] <;> omega

theorem bootKeeps_setUnitMap (u : Nat) (valid : Bool) (l : Nat) : BootKeeps s (s.setUnitMap (unitOf u).1 (unitOf u).2 valid l) :=
  (BootKeeps.setNat (mapReg_unitOf_ne u) _).trans (.of_regs rfl rfl)

theorem bootKeeps_defaultMap : BootKeeps s s.defaultMap := by
  refine .forN (fun u _ v => ?_) s
  dsimp only
  split <;> exact bootKeeps_setUnitMap u _ _

theorem bootKeeps_fenceSpares : BootKeeps s s.fenceSpares := by
  refine .forN (fun u hu v => ?_) s
  exact .ite (.refl v) (.setFlag (hurdleReg_unitOf_ne hu) _ _)

theorem bootKeeps_restoreMap (im : ReserveImage) : BootKeeps s (s.restoreMap im) := by
  have counted (t : State) : BootKeeps t { t with rs := { t.rs with hours := im.hours, busy := im.busy } } := .of_regs rfl rfl
  unfold State.restoreMap
  refine BootKeeps.trans (.forN (fun u hu v => ?_) s) (counted _)
  exact (bootKeeps_setUnitMap u _ _).trans ((BootKeeps.setNat (mapReg_unitOf_ne u) _).trans (.setReg (hurdleReg_unitOf_ne hu) _))

theorem bootKeeps_loadReserve (ok : Bool) : BootKeeps s (s.loadReserve ok) := by
  have bad : BootKeeps s (s.defaultMap.setFlag RS_GSTAT fRS_GSTAT_IMGBAD true) := bootKeeps_defaultMap.trans (.setFlag (by decide) _ _)
  have saved (t : State) : BootKeeps t (State.saveReserve { t with fold.started := true }) := .of_regs rfl rfl
  unfold State.loadReserve
  split
  · exact .ite ((bootKeeps_restoreMap _).trans bootKeeps_fenceSpares) bad
  · exact .ite bad ((bootKeeps_defaultMap.trans bootKeeps_fenceSpares).trans (saved _))

theorem bootKeeps_hostWait : BootKeeps s s.hostWait := (BootKeeps.setFlag (by decide) _ _).trans (bootKeeps_setStage 8)

theorem bootKeeps_bootVerify : BootKeeps s s.bootVerify := by
  unfold State.bootVerify
  dsimp only
  split
  · exact ((BootKeeps.setFld (by decide) _ _).trans (bootKeeps_bootReply rfl _ _)).trans bootKeeps_hostWait
  · have found (b : Bool) : BootKeeps s (s.setFlag RC_BOOT fRC_BOOT_DIR b) := .setFlag (by decide) _ _
    exact ((found _).trans (.ite (bootKeeps_loadRemap _) (.refl _))).trans (bootKeeps_setStage 5)

theorem bootKeeps_bootPatch : BootKeeps s s.bootPatch := (bootKeeps_patchLoad _).trans (bootKeeps_setStage 6)

/-! ### The stages of the boot (R478 to R481) -/

theorem pw_setStage (n : Nat) : (s.setStage n).pw = s.pw := setFld_pw _ _ _ _

theorem stage_setStage {n : Nat} (hm : s.pw.mode = .startup) (hn : n < 16) : (s.setStage n).stage = n := by
  have hstage : (s.setStage n).fld RC_BOOT fRC_BOOT_STAGE = n % 16 := fld_setFld_same _ _ _ _ (by decide)
  rw [State.stage, pw_setStage, if_pos hm, hstage, Nat.mod_eq_of_lt hn]

theorem bootRun_idle {upto : Nat} (h4 : s.stage ≠ 4) (h5 : s.stage ≠ 5) (h6 : s.stage ≠ 6) : s.bootRun upto = s := by
  simp only [State.bootRun, h4, h5, h6, false_and, if_false, ite_self]

/-- Outside stages 4 to 6 there is nothing to boot. -/
theorem bootRun_setStage {n upto : Nat} (hn : n < 16) (h : n < 4 ∨ 6 < n) : (s.setStage n).bootRun upto = s.setStage n := by
  have hstage : (s.setStage n).stage < 4 ∨ 6 < (s.setStage n).stage := by
    by_cases hm : s.pw.mode = .startup
    · rwa [stage_setStage hm hn]
    · exact .inl (by rw [State.stage, pw_setStage, if_neg hm]; decide)
  exact bootRun_idle (by omega) (by omega) (by omega)

theorem bootVerify_passes (hf : s.pw.image.fail = 0) :
    s.bootVerify =
      (let dir := s.fld RC_OPT fRC_OPT_BOOT = 1 ∨ (s.fld RC_OPT fRC_OPT_BOOT = 2 ∧ s.pw.image.dir = true)
       let x := s.setFlag RC_BOOT fRC_BOOT_DIR (decide dir && !s.pw.hostBoot)
       (if 3 ≤ s.pw.level then x.loadRemap s.pw.image.remapOk else x).setStage 5) := if_neg (not_not_intro hf)

theorem bootVerify_fails (hf : s.pw.image.fail ≠ 0) (hh : s.pw.hostBoot = true) :
    s.bootVerify = (((s.setFld RC_BOOT fRC_BOOT_FAIL 4).bootReply 7 4 (s.readyWords 0 0)).setFlag RC_BOOT fRC_BOOT_HOSTWAIT true).setStage 8 := by
  simp only [State.bootVerify, hf, hh, ne_eq, not_false_eq_true, if_true, State.hostWait]

theorem readyWords_setStage (n : Nat) (ver : BitVec 64) (out : Nat) : (s.setStage n).readyWords ver out = s.readyWords ver out := by
  simp only [State.readyWords, State.setStage, reg_setFld_ne _ RC_BOOT _ _ _ (by decide : ID_ROMCODE ≠ RC_BOOT),
    reg_setFld_ne _ RC_BOOT _ _ _ (by decide : RC_RST_STAMP_LO ≠ RC_BOOT), reg_setFld_ne _ RC_BOOT _ _ _ (by decide : RC_RST_STAMP_HI ≠ RC_BOOT),
    setFld_pw]

theorem bootReserve_ready {l : Nat} {im : BootImage} (hl : s.pw.level = l) (himage : s.pw.image = im) :
    s.bootReserve =
      (let x := (if 3 ≤ l then s.loadReserve im.reserveOk else s).setStage 7
       let x := x.bootReply 0 0 (x.readyWords x.pw.patchVer x.pw.patch)
       { x with mb.ready := true, pw.mode := .graze }) := by
  simp only [State.bootReserve, readyWords_setStage, pw_setStage, hl, himage]

section
variable {im : BootImage} (hm : s.pw.mode = .startup) (himage : s.pw.image = im) (hf : im.fail = 0)
include hm himage hf

theorem stage_bootVerify : ((s.setStage 4).bootVerify).stage = 5 := by
  have hf' : (s.setStage 4).pw.image.fail = 0 := by rw [pw_setStage, himage, hf]
  rw [bootVerify_passes hf']
  refine stage_setStage ?_ (by decide)
  have found (b : Bool) : BootKeeps s ((s.setStage 4).setFlag RC_BOOT fRC_BOOT_DIR b) := (bootKeeps_setStage 4).trans (.setFlag (by decide) _ _)
  exact ((found _).trans (.ite (bootKeeps_loadRemap _) (.refl _))).mode.trans hm

/-- A boot that does not fail goes through its stages to READY. -/
theorem bootRun_boots {upto : Nat} (hb : s.pw.bhalt = false) (hu : upto ∉ [4, 5, 6]) :
    (s.setStage 4).bootRun upto = ((((s.setStage 4).bootVerify).patchLoad im.patch).setStage 6).bootReserve := by
  obtain ⟨h4, h5, h6⟩ : upto ≠ 4 ∧ upto ≠ 5 ∧ upto ≠ 6 := by simpa using hu
  have verified : BootKeeps s (s.setStage 4).bootVerify := (bootKeeps_setStage 4).trans bootKeeps_bootVerify
  have hpatch : (s.setStage 4).bootVerify.bootPatch = (((s.setStage 4).bootVerify).patchLoad im.patch).setStage 6 := by
    rw [State.bootPatch, verified.image, himage]
  have hstage : ((((s.setStage 4).bootVerify).patchLoad im.patch).setStage 6).stage = 6 :=
    stage_setStage ((verified.trans (bootKeeps_patchLoad _)).mode.trans hm) (by decide)
  simp only [State.bootRun, pw_setStage, hb, Bool.false_eq_true, if_false, stage_setStage hm (by decide : 4 < 16), h4, h5, h6, ne_eq, not_false_eq_true,
    and_self, if_true, stage_bootVerify hm himage hf, hpatch, hstage]
end

/-- The stages of a boot that does not fail, from what it finds to READY (R478, R481). -/
theorem bootRun_ready {s : State} {im : BootImage} {upto l : Nat} {dir : Bool} (hm : s.pw.mode = .startup) (himage : s.pw.image = im) (hf : im.fail = 0)
    (hb : s.pw.bhalt = false) (hu : upto ∉ [4, 5, 6]) (hl : s.pw.level = l)
    (hdir : (decide (s.fld RC_OPT fRC_OPT_BOOT = 1 ∨ (s.fld RC_OPT fRC_OPT_BOOT = 2 ∧ im.dir = true)) && !s.pw.hostBoot) = dir) :
    (s.setStage 4).bootRun upto =
      (let x := (s.setStage 4).setFlag RC_BOOT fRC_BOOT_DIR dir
       let x := (if 3 ≤ l then x.loadRemap im.remapOk else x).setStage 5
       let x := (x.patchLoad im.patch).setStage 6
       let x := (if 3 ≤ l then x.loadReserve im.reserveOk else x).setStage 7
       let x := x.bootReply 0 0 (x.readyWords x.pw.patchVer x.pw.patch)
       { x with mb.ready := true, pw.mode := .graze }) := by
  have hboot : (s.setStage 4).fld RC_OPT fRC_OPT_BOOT = s.fld RC_OPT fRC_OPT_BOOT := fld_of_reg (reg_setFld_ne _ _ _ _ _ (by decide))
  have patched : BootKeeps s ((((s.setStage 4).bootVerify).patchLoad im.patch).setStage 6) :=
    (bootKeeps_setStage 4).trans (bootKeeps_bootVerify.trans ((bootKeeps_patchLoad _).trans (bootKeeps_setStage 6)))
  rw [bootRun_boots hm himage hf hb hu, bootReserve_ready (patched.level.trans hl) (patched.image.trans himage),
    bootVerify_passes (by rw [pw_setStage, himage, hf])]
  simp only [pw_setStage, hboot, himage, hl, hdir]

/-- At L2 the boot loads the patch alone. -/
theorem bootRun_ready_l2 {s : State} {im : BootImage} {upto : Nat} {dir : Bool} (hm : s.pw.mode = .startup) (himage : s.pw.image = im)
    (hf : im.fail = 0) (hb : s.pw.bhalt = false) (hu : upto ∉ [4, 5, 6]) (hl : s.pw.level = 2)
    (hdir : (decide (s.fld RC_OPT fRC_OPT_BOOT = 1 ∨ (s.fld RC_OPT fRC_OPT_BOOT = 2 ∧ im.dir = true)) && !s.pw.hostBoot) = dir) :
    (s.setStage 4).bootRun upto =
      (let x := ((s.setStage 4).setFlag RC_BOOT fRC_BOOT_DIR dir).setStage 5
       let x := (x.patchLoad im.patch).setStage 6
       let x := x.setStage 7
       let x := x.bootReply 0 0 (x.readyWords x.pw.patchVer x.pw.patch)
       { x with mb.ready := true, pw.mode := .graze }) := by
  rw [bootRun_ready hm himage hf hb hu hl hdir]
  simp only [(by decide : ¬3 ≤ 2), if_false]

/-- A boot that fails after a host load is answered and waits for another (R480, R481). -/
theorem bootRun_hostFails {upto : Nat} (hm : s.pw.mode = .startup) (hb : s.pw.bhalt = false) (hf : s.pw.image.fail ≠ 0) (hh : s.pw.hostBoot = true)
    (h4 : upto ≠ 4) :
    (s.setStage 4).bootRun upto =
      ((((s.setStage 4).setFld RC_BOOT fRC_BOOT_FAIL 4).bootReply 7 4 ((s.setStage 4).readyWords 0 0)).setFlag RC_BOOT fRC_BOOT_HOSTWAIT true).setStage 8 := by
  have hfails := bootVerify_fails (s := s.setStage 4) (by rwa [pw_setStage]) (by rwa [pw_setStage])
  have answered : BootKeeps s (((s.setStage 4).setFld RC_BOOT fRC_BOOT_FAIL 4).bootReply 7 4 ((s.setStage 4).readyWords 0 0)) :=
    (bootKeeps_setStage 4).trans ((BootKeeps.setFld (by decide) _ _).trans (bootKeeps_bootReply rfl _ _))
  have waits : BootKeeps s ((((s.setStage 4).setFld RC_BOOT fRC_BOOT_FAIL 4).bootReply 7 4 ((s.setStage 4).readyWords 0 0)).setFlag RC_BOOT
      fRC_BOOT_HOSTWAIT true) := answered.trans (.setFlag (by decide) _ _)
  have hstage := stage_setStage (n := 8) (waits.mode.trans hm) (by decide)
  simp only [State.bootRun, pw_setStage, hb, Bool.false_eq_true, if_false, stage_setStage hm (by decide : 4 < 16), h4, ne_eq, not_false_eq_true,
    and_self, if_true, hfails, hstage, (by decide : ¬8 = 5), (by decide : ¬8 = 6), false_and]
end

/-! ### The stages before the boot (R471 to R477) -/

namespace RaisedFrom

theorem setStage (s : State) (n : Nat) : RaisedFrom s (s.setStage n) := setFld s _ _ n

theorem resetRecord (s : State) (src level : Nat) : RaisedFrom s (s.resetRecord src level) := jAdd s _

theorem releaseHeld (s : State) : RaisedFrom s s.releaseHeld :=
  RaisedFrom.trans ⟨rfl⟩ (foldl (f := fun u (h : HeldRaise) => u.raiseAt h.source h.stamp h.p0.toNat h.p1.toNat) (fun u _ => raiseAt u _ _ _ _) _ _)

end RaisedFrom

section
variable {s : State} {im : BootImage} {codes : List Nat} {mg : Bool} {upto : Nat}

/-- A reset in force ends: the pins are high and start-up begins in stage 0, or at L3 in stage 1 on RCO (R471, R475). -/
theorem releaseHold_eq {l3 : Bool} (h : decide (3 ≤ s.pw.level) = l3) :
    s.releaseHold =
      (let t := { s with pw := { s.pw with porLow := false, rstLow := false, pllReq := true, pll := !l3, fast := !l3, mode := .startup } }
       ((t.setReg64 RC_RST_STAMP_LO RC_RST_STAMP_HI t.now).setFlag TB_STAT fTB_STAT_COARSE true).setStage (b2n l3)) := by
  rw [State.releaseHold, h]

theorem bootGo_waits (h : s.fld RC_OPT fRC_OPT_BOOT = 3) : s.bootGo = (s.setFlag RC_BOOT fRC_BOOT_HOSTWAIT true).setStage 8 := if_pos h

theorem bootGo_boots (h : s.fld RC_OPT fRC_OPT_BOOT ≠ 3) : s.bootGo = State.setStage { s with pw.hostBoot := false } 4 := if_neg h

theorem sweepDone_l2 (hl : ¬3 ≤ s.pw.level) :
    s.sweepDone = (let u := (s.resetRecord s.pw.source s.pw.level).releaseHeld
      if u.flag RC_OPT fRC_OPT_HOLD then State.setStage { u with db.hold := true } 3 else u.bootGo) := by
  simp only [State.sweepDone, hl, decide_false, Bool.false_and, Bool.false_eq_true, if_false]

theorem sweepDone_l3 {x : State} (hl : 3 ≤ s.pw.level)
    (hx : x = (State.resetRecord { s.sweepAll with cs := [], jn := {} } s.sweepAll.pw.source s.sweepAll.pw.level).releaseHeld)
    (hunst : x.flag RC_OPT fRC_OPT_SUNST = false) (hhold : x.flag RC_OPT fRC_OPT_HOLD = false) : s.sweepDone = x.bootGo := by
  simp only [State.sweepDone, hl, decide_true, if_true, ← hx, hunst, hhold, Bool.true_and, Bool.false_eq_true, if_false]

theorem forN_pw {f : Nat → State → State} (h : ∀ i u, (f i u).pw = u.pw) (n : Nat) (u : State) : (forN f n u).pw = u.pw := by
  induction n with
  | zero => rfl
  | succ n ih => exact (h n _).trans ih

theorem pw_withRegs (l : List (Nat × Word)) : ({ s with regs := l } : State).pw = s.pw := (rfl)

theorem pw_sweepAll : s.sweepAll.pw = s.pw := by
  unfold State.sweepAll
  dsimp only
  rw [forN_pw (fun _ _ => setFlag_pw _ _ _ _), forN_pw (fun _ _ => pw_withRegs _)]

/-- A release that finds neither a reset in force nor a stage to go on from. -/
theorem release_idle (hm : s.pw.mode ≠ .reset) (h : s.pw.mode = .startup → s.db.hold = true ∨ s.flag RC_BOOT fRC_BOOT_HOSTWAIT = true) :
    s.release codes mg im upto = s := by
  refine if_neg ?_
  rintro (hr | ⟨hs, hhold, hwait⟩)
  · exact hm hr
  · rcases h hs with h | h
    · rw [hhold] at h; contradiction
    · rw [hwait] at h; contradiction

/-- What a release does after the hold of the reset: the stages, from the one in which start-up stands. -/
def State.startUp (s : State) (codes : List Nat) (mg l2 : Bool) (upto : Nat) : State :=
  let s := if s.stage = 1 ∧ upto ≠ 1 then s.optionsDone codes mg else s
  let s := if (s.stage = 2 ∧ upto ≠ 2 ∧ s.pw.bhalt = false) ∨ l2 = true then s.sweepDone else s
  s.bootRun upto

theorem release_reset (hm : s.pw.mode = .reset) :
    s.release codes mg im upto = (State.releaseHold { s with pw.image := im }).startUp codes mg (decide (s.pw.level < 3)) upto := by
  have h : s.release codes mg im upto =
      (if s.pw.mode = .reset then State.releaseHold { s with pw.image := im } else { s with pw.image := im }).startUp codes mg
        (s.pw.mode == .reset && decide (s.pw.level < 3)) upto := if_pos (.inl hm)
  rw [h, if_pos hm, hm]
  rfl

theorem release_startup (hm : s.pw.mode = .startup) (hhold : s.db.hold = false) (hwait : s.flag RC_BOOT fRC_BOOT_HOSTWAIT = false) :
    s.release codes mg im upto = State.startUp { s with pw.image := im } codes mg false upto := by
  have h : s.release codes mg im upto =
      (if s.pw.mode = .reset then State.releaseHold { s with pw.image := im } else { s with pw.image := im }).startUp codes mg
        (s.pw.mode == .reset && decide (s.pw.level < 3)) upto := if_pos (.inr ⟨hm, hhold, hwait⟩)
  rw [h, if_neg (by rw [hm]; decide), hm]
  rfl

theorem stage_of {n : Nat} (hm : s.pw.mode = .startup) (h : s.fld RC_BOOT fRC_BOOT_STAGE = n) : State.stage { s with pw.image := im } = n :=
  (if_pos hm).trans h

/-- Start-up left standing at the end of the hold. -/
theorem startUp_stands (h : (s.setStage 1).stage = 1) : (s.setStage 1).startUp codes mg false 1 = s.setStage 1 := by
  simp only [State.startUp, h, (by decide : ¬1 = 2), ne_eq, not_true, and_false, false_and, Bool.false_eq_true, or_self, if_false]
  exact bootRun_setStage (by decide) (.inl (by decide))

/-- Option loading ends, and start-up is left standing in the sweep. -/
theorem startUp_options (h : s.stage = 1) : s.startUp codes mg false 2 = s.optionsDone codes mg := by
  simp only [State.startUp, h, (by decide : ¬2 = 1), ne_eq, not_true, not_false_eq_true, and_false, false_and, Bool.false_eq_true, or_self, if_false,
    and_self, if_true]
  exact bootRun_setStage (by decide) (.inl (by decide))

/-- The sweep ends. -/
theorem startUp_sweep (h : s.stage = 2) (hb : s.pw.bhalt = false) : s.startUp codes mg false 0 = s.sweepDone.bootRun 0 := by
  simp only [State.startUp, h, hb, (by decide : ¬2 = 1), (by decide : ¬0 = 2), ne_eq, not_false_eq_true, false_and, and_self, true_or, if_false, if_true]

/-- A release of an L2 reset goes straight to the end of the sweep. -/
theorem startUp_l2 (h : s.stage = 0) : s.startUp codes mg true upto = s.sweepDone.bootRun upto := by
  simp only [State.startUp, h, (by decide : ¬0 = 1), false_and, if_false, or_true, if_true]

section
variable {t u : State} (hm : s.pw.mode = .reset) (hl : s.pw.level = 2)
  (ht : t = { s with pw := { s.pw with porLow := false, rstLow := false, pllReq := true, pll := true, fast := true, mode := .startup, image := im } })
  (hu : u = ((((t.setReg64 RC_RST_STAMP_LO RC_RST_STAMP_HI t.now).setFlag TB_STAT fTB_STAT_COARSE true).setStage 0).resetRecord s.pw.source 2).releaseHeld)

include hu in
theorem pw_released : u.pw = t.pw := by
  rw [hu]
  exact (((RaisedFrom.setReg64 t _ _ _).trans (.setFlag _ _ _ _)).trans ((RaisedFrom.setStage _ 0).trans
    ((RaisedFrom.resetRecord _ _ _).trans (.releaseHeld _)))).pw

include hm hl ht hu

/-- The release of an L2 reset, up to the hold or the boot. -/
theorem release_l2 :
    s.release codes mg im upto =
      (if u.flag RC_OPT fRC_OPT_HOLD then State.setStage { u with db.hold := true } 3 else u.bootGo).bootRun upto := by
  have hl3 : decide (3 ≤ (State.pw { s with pw.image := im }).level) = false := by rw [show (State.pw { s with pw.image := im }).level = 2 from hl]; rfl
  have hhold : State.releaseHold { s with pw.image := im } =
      ((t.setReg64 RC_RST_STAMP_LO RC_RST_STAMP_HI t.now).setFlag TB_STAT fTB_STAT_COARSE true).setStage 0 := by rw [releaseHold_eq hl3, ht]; rfl
  have hpw : (((t.setReg64 RC_RST_STAMP_LO RC_RST_STAMP_HI t.now).setFlag TB_STAT fTB_STAT_COARSE true).setStage 0).pw = t.pw := by
    rw [pw_setStage, setFlag_pw, setReg64_pw]
  have hlevel : t.pw.level = 2 := by rw [ht]; exact hl
  have hsource : t.pw.source = s.pw.source := by rw [ht]
  have hmode : t.pw.mode = .startup := by rw [ht]
  rw [release_reset hm, hl, hhold, show decide (2 < 3) = true from rfl, startUp_l2, sweepDone_l2 (by rw [hpw, hlevel]; decide), hpw, hlevel, hsource, ← hu]
  exact stage_setStage (by rw [setFlag_pw, setReg64_pw, hmode]) (by decide)
end
end

/-! ### The ends of a wait (R480, R482) -/

section
variable {s : State} {im : BootImage}

theorem exec_hostgo {p : Port} (hadm : State.admits { s with pw.image := im } p RC_BOOT 0x80000000 = true) :
    exec (.hostgo p im) s = .next (State.after { s with pw.image := im } p RC_BOOT 0x80000000 (fun u =>
      if vbit (State.word { s with pw.image := im } p RC_BOOT 0x80000000) 31 then u.hostGo u.pw.image else u)) := by
  have hgo : fRC_BOOT_HOSTGO.put 0 1 = 0x80000000 := by decide
  have hexec : exec (.hostgo p im) s = regCmd p RC_BOOT (fRC_BOOT_HOSTGO.put 0 1) { s with pw.image := im } := rfl
  rw [hexec, hgo, regCmd_RC_BOOT hadm]

theorem hostGo_runs (hm : s.pw.mode = .startup) (hwait : s.flag RC_BOOT fRC_BOOT_HOSTWAIT = true) :
    s.hostGo s.pw.image = ((State.setFlag { s with pw.hostBoot := true } RC_BOOT fRC_BOOT_HOSTWAIT false).setStage 4).bootRun 0 := if_pos ⟨hm, hwait⟩

/-- The image of the host whose checks pass boots (R480, R481). -/
theorem hostGo_boots (hm : s.pw.mode = .startup) (hwait : s.flag RC_BOOT fRC_BOOT_HOSTWAIT = true) (hb : s.pw.bhalt = false) (himage : s.pw.image = im)
    (hf : im.fail = 0) :
    s.hostGo s.pw.image =
      (let x := State.setStage (State.setFlag { s with pw.hostBoot := true } RC_BOOT fRC_BOOT_HOSTWAIT false) 4
       let x := State.setFlag x RC_BOOT fRC_BOOT_DIR false
       let x := State.setStage (if 3 ≤ s.pw.level then State.loadRemap x im.remapOk else x) 5
       let x := (State.patchLoad x im.patch).setStage 6
       let x := State.setStage (if 3 ≤ s.pw.level then State.loadReserve x im.reserveOk else x) 7
       let x := State.bootReply x 0 0 (State.readyWords x x.pw.patchVer x.pw.patch)
       { x with mb.ready := true, pw.mode := .graze }) := by
  have hpw := setFlag_pw { s with pw.hostBoot := true } RC_BOOT fRC_BOOT_HOSTWAIT false
  rw [hostGo_runs hm hwait]
  generalize State.setFlag { s with pw.hostBoot := true } RC_BOOT fRC_BOOT_HOSTWAIT false = w at hpw ⊢
  refine bootRun_ready (by rw [hpw]; exact hm) (by rw [hpw]; exact himage) hf (by rw [hpw]; exact hb) (by decide) (by rw [hpw]) ?_
  rw [hpw]
  exact Bool.and_false _

/-- The image of the host that fails a check is answered with cause 4 (R480). -/
theorem hostGo_fails (hm : s.pw.mode = .startup) (hwait : s.flag RC_BOOT fRC_BOOT_HOSTWAIT = true) (hb : s.pw.bhalt = false)
    (hf : s.pw.image.fail ≠ 0) :
    s.hostGo s.pw.image =
      (let x := State.setStage (State.setFlag { s with pw.hostBoot := true } RC_BOOT fRC_BOOT_HOSTWAIT false) 4
       let x := (State.setFld x RC_BOOT fRC_BOOT_FAIL 4).bootReply 7 4 (State.readyWords x 0 0)
       (State.setFlag x RC_BOOT fRC_BOOT_HOSTWAIT true).setStage 8) := by
  have hpw := setFlag_pw { s with pw.hostBoot := true } RC_BOOT fRC_BOOT_HOSTWAIT false
  rw [hostGo_runs hm hwait]
  generalize State.setFlag { s with pw.hostBoot := true } RC_BOOT fRC_BOOT_HOSTWAIT false = w at hpw ⊢
  exact bootRun_hostFails (by rw [hpw]; exact hm) (by rw [hpw]; exact hb) (by rw [hpw]; exact hf) (by rw [hpw]) (by decide)

theorem hostGo_idle (h : s.pw.mode ≠ .startup ∨ s.flag RC_BOOT fRC_BOOT_HOSTWAIT = false) : s.hostGo im = s := by
  refine if_neg ?_
  rintro ⟨hm, hwait⟩
  rcases h with h | h
  · exact h hm
  · rw [hwait] at h; contradiction

theorem reg_ready (o : Nat) : State.reg { s with mb.ready := true, pw.mode := .graze } o = s.reg o := (rfl)

theorem stat_bootReserve : s.bootReserve.reg DB_STAT = s.reg DB_STAT := by
  unfold State.bootReserve
  extract_lets v u
  have loaded : BootKeeps s v := .ite (bootKeeps_loadReserve _) (.refl s)
  have replied : BootKeeps v u := (bootKeeps_setStage 7).trans (bootKeeps_bootReply rfl _ _)
  exact (reg_ready DB_STAT).trans (loaded.trans replied).stat

theorem stat_bootRun (upto : Nat) : (s.bootRun upto).reg DB_STAT = s.reg DB_STAT := by
  unfold State.bootRun
  extract_lets v u
  have verified : BootKeeps s v := .ite bootKeeps_bootVerify (.refl s)
  have patched : BootKeeps v u := .ite bootKeeps_bootPatch (.refl v)
  split_ifs
  · rfl
  · exact stat_bootReserve.trans (verified.trans patched).stat
  · exact (verified.trans patched).stat

theorem stat_bootGo : s.bootGo.reg DB_STAT = s.reg DB_STAT := by
  unfold State.bootGo
  split
  · exact bootKeeps_hostWait.stat
  · exact (bootKeeps_setStage 4).stat

theorem reg_withHold (o : Nat) : State.reg { s with db.hold := false } o = s.reg o := (rfl)

/-- A field of one bit that a word is given reads 1. -/
theorem bitOf_put (f : Fld) (v : Word) (hf : f.lo + f.len ≤ 32) (hl : f.len = 1) : bitOf (f.put v 1).toNat f.lo = true := by
  have hput : (f.put v 1).toNat = withBits v.toNat f.lo f.len 1 :=
    (BitVec.toNat_ofNat ..).trans (Nat.mod_eq_of_lt (withBits_lt _ _ _ _ _ hf v.isLt))
  have h := bitsOf_withBits_same v.toNat f.lo 1 1
  rw [bitsOf, pow_one] at h
  rw [hput, hl, bitOf, h]
  rfl

/-- HOLDREL with BHALT as it stands lets the boot go on (R482, R509). -/
theorem dbWrite_holdRelease {v st : Word} (hrel : vbit v 1 = true) (hl : s.dbLevel = 2) (hbit : bitOf v.toNat 0 = s.flag DB_STAT fDB_STAT_BHALT)
    (hm : s.pw.mode = .startup) (hhold : s.db.hold = true) :
    s.dbWrite DB_BHALT v st = (State.bootGo { s with db.hold := false }).bootRun 0 := by
  have hgo : s.holdRelease s.pw.image = (State.bootGo { s with db.hold := false }).bootRun 0 := if_pos ⟨hm, hhold⟩
  have hstat : vbit v 0 = ((State.bootGo { s with db.hold := false }).bootRun 0).flag DB_STAT fDB_STAT_BHALT :=
    hbit.trans (flag_of_reg (s := s) (((stat_bootRun 0).trans stat_bootGo).trans (reg_withHold DB_STAT))).symm
  simp only [State.dbWrite, (by decide : ¬DB_BHALT = DB_POLICY), (by decide : ¬DB_BHALT = DB_CTRL), (by decide : ¬DB_BHALT = DB_ECMD),
    (by decide : ¬DB_BHALT = DB_FREEZE), hrel, hl, hgo, hstat, if_false, if_true, Bool.and_not_self, Bool.not_and_self, Bool.false_eq_true]

theorem reg_withImage (im : BootImage) (o : Nat) : State.reg { s with pw.image := im } o = s.reg o := (rfl)

theorem exec_holdrel {p : Port} {im : BootImage} {v : Word} (hv : v = fDB_BHALT_HOLDREL.put (s.reg DB_BHALT) 1) :
    exec (.holdrel p im) s = regCmd p DB_BHALT v { s with pw.image := im } := by
  rw [hv]
  exact (rfl : execHoldrel p im s = _)
end

/-- Settles O54: the release of each level, the stages in which start-up may stand, and the two ends of a wait. -/
theorem releaseAndStartUp : Obligations.ReleaseAndStartUp := by
  unfold Obligations.ReleaseAndStartUp
  refine ⟨?idle, ?hold, ?boots, ?options, ?sweep, ?waits, ?hostgo, ?hostFails, ?hostIdle, ?holdrel, ?bootWaits⟩
  case idle =>
    intro c0 c1 c2 c3 mg im upto s h
    exact congrArg Host.Outcome.next (release_idle h.1 h.2)
  case hold =>
    intro c0 c1 c2 c3 mg im upto s t u hm hl ht hu hhold
    refine congrArg Host.Outcome.next ((release_l2 hm hl ht hu).trans ?_)
    rw [if_pos hhold]
    exact bootRun_setStage (by decide) (.inl (by decide))
  case boots =>
    intro c0 c1 c2 c3 mg im upto s t u hm hl hb ht hu hhold hboot hf hupto
    refine congrArg Host.Outcome.next ((release_l2 hm hl ht hu).trans ?_)
    have hpw : u.pw = t.pw := pw_released hu
    have hmode : u.pw.mode = .startup := by rw [hpw, ht]
    have hlevel : u.pw.level = 2 := by rw [hpw, ht]; exact hl
    have hbhalt : u.pw.bhalt = false := by rw [hpw, ht]; exact hb
    have himage : u.pw.image = im := by rw [hpw, ht]
    rw [if_neg (ne_true_of_eq_false hhold), bootGo_boots hboot]
    have hboot' : State.fld { u with pw.hostBoot := false } RC_OPT fRC_OPT_BOOT = u.fld RC_OPT fRC_OPT_BOOT := rfl
    have hpw' : State.pw { u with pw.hostBoot := false } = { u.pw with hostBoot := false } := rfl
    generalize ({ u with pw.hostBoot := false } : State) = w at hboot' hpw' ⊢
    refine bootRun_ready_l2 (by rw [hpw']; exact hmode) (by rw [hpw']; exact himage) hf (by rw [hpw']; exact hbhalt) hupto (by rw [hpw']; exact hlevel) ?_
    rw [hboot', hpw']
    exact Bool.and_true _
  case options =>
    intro c0 c1 c2 c3 mg im s t hm hl ht
    have hl3 : decide (3 ≤ (State.pw { s with pw.image := im }).level) = true := decide_eq_true hl
    have hhold : State.releaseHold { s with pw.image := im } =
        ((t.setReg64 RC_RST_STAMP_LO RC_RST_STAMP_HI t.now).setFlag TB_STAT fTB_STAT_COARSE true).setStage 1 := by rw [releaseHold_eq hl3, ht]; rfl
    have hmode : t.pw.mode = .startup := by rw [ht]
    refine congrArg Host.Outcome.next ((release_reset hm).trans ?_)
    rw [hhold, decide_eq_false (Nat.not_lt.mpr hl)]
    exact startUp_stands (stage_setStage (by rw [setFlag_pw, setReg64_pw, hmode]) (by decide))
  case sweep =>
    intro c0 c1 c2 c3 mg im s u hm hhold hwait hstage hu _
    refine congrArg Host.Outcome.next ((release_startup hm hhold hwait).trans ?_)
    refine (startUp_options (stage_of hm hstage)).trans ?_
    rw [hu]
    rfl
  case waits =>
    intro c0 c1 c2 c3 mg im s u x hm hhold hb hwait hstage hl hu hx hrel hunst hboot
    refine congrArg Host.Outcome.next ((release_startup hm hhold hwait).trans ?_)
    have hsource : u.pw.source = s.pw.source := by rw [hu]
    have hlevel : u.pw.level = s.pw.level := by rw [hu]
    rw [← hu]
    refine (startUp_sweep (s := u) (by rw [hu]; exact stage_of hm hstage) (by rw [hu]; exact hb)).trans ?_
    rw [sweepDone_l3 (by rw [hlevel]; exact hl) (by rw [hx, pw_sweepAll, hsource, hlevel]) hunst hrel, bootGo_waits hboot]
    exact bootRun_setStage (by decide) (.inr (by decide))
  case hostgo =>
    intro p im s z t hz hadm hgo ht hm hb hwait hf
    have himage : t.pw.image = im := by rw [ht, logged_pw, hz]
    subst hz
    refine (exec_hostgo hadm).trans (congrArg Host.Outcome.next (after_congr ?_))
    rw [if_pos hgo, ← ht]
    exact hostGo_boots hm hwait hb himage hf
  case hostFails =>
    intro p im s z t hz hadm hgo ht hm hb hwait hf
    have himage : t.pw.image = im := by rw [ht, logged_pw, hz]
    subst hz
    refine (exec_hostgo hadm).trans (congrArg Host.Outcome.next (after_congr ?_))
    rw [if_pos hgo, ← ht]
    exact hostGo_fails hm hwait hb (by rwa [himage])
  case hostIdle =>
    intro p im s z hz hadm h
    subst hz
    refine (exec_hostgo hadm).trans (congrArg Host.Outcome.next (after_congr ?_))
    rw [hostGo_idle (by rwa [logged_pw]), ite_self]
  case holdrel =>
    intro p im v s z t hz hv h ht hl hbit hm hhold
    subst hz
    obtain ⟨hadm, hword⟩ := takes_iff.mp h
    rw [reg_withImage] at hv
    refine (exec_holdrel hv).trans ((regCmd_DB_BHALT hadm).trans (congrArg Host.Outcome.next (after_congr ?_)))
    rw [hword, ← ht]
    have hrel : vbit v 1 = true := by rw [hv]; exact bitOf_put _ _ (by decide) rfl
    exact dbWrite_holdRelease hrel hl hbit hm hhold
  case bootWaits => exact fun s h => bootGo_waits h

end Sys2Proof.Machine
end

section
/-!
Proofs about the Shepherd beside its instructions (15_shepherd_core.md R393 to R414).
-/

namespace Sys2Proof.Machine

/-! ### Interrupts, ATOMIC and late stores (R397 to R406) -/

section
variable {s : State} {x : Nat}

theorem descriptor_tookFree (outer : Bool) : s.tookFree.descriptor outer x = s.descriptor outer x := (rfl)

theorem descriptor_warnTaken (outer : Bool) :
    (State.tookFree { s with sh := { s.sh with warnPend := false } }).descriptor outer x = s.descriptor outer x := (rfl)

/-- Entry through a valid descriptor of type 1 vectors bank 1 and opens ATOMIC (R397). -/
theorem exceptionEntry_valid {epc : Addr} {addr : Nat} (hb : s.shBankNo = 0) (hv : (s.descriptor false x).valid = true)
    (ht : (s.descriptor false x).type = 1) (hsup : x = 0x14 → (s.descriptor false x).sup = true) :
    s.exceptionEntry false x epc addr =
      (let d := s.descriptor false x
       let u := { s with sh := { s.sh with epc := .ofNat 32 epc.toNat, epsr := s.psr, ecause := .ofNat 32 x, eaddr := .ofNat 32 addr, estamp := s.now } }
       ((State.vector (u.setFlag SH_STAT fSH_STAT_SLEEP false) 1 d).setContext false d.sup).openAtomic 1 d.atomic) := by
  have hlevel : (x != 0x14 || (s.descriptor false x).sup) = true := by
    by_cases h : x = 0x14
    · rw [hsup h, Bool.or_true]
    · rw [bne_iff_ne.mpr h, Bool.true_or]
  have henter : ((s.descriptor false x).valid && (s.descriptor false x).type == 1 && (x != 0x14 || (s.descriptor false x).sup)) = true := by
    rw [hv, ht, hlevel]
    rfl
  unfold State.exceptionEntry
  rw [if_neg (not_not_intro hb)]
  exact if_pos henter

/-- An interrupt is due on bank 0 only. -/
theorem bank_of_interruptDue {r : Nat × Bool} (h : s.interruptDue = some r) : s.shBankNo = 0 := by
  by_contra hb
  rw [State.interruptDue, if_pos (.inl hb)] at h
  contradiction

theorem interruptDue_none (h : s.shBankNo ≠ 0 ∨ s.sh.aopen = 2) : s.interruptDue = none :=
  if_pos (h.imp_right .inl)

/-- The watchdog warning comes before the levels (R402). -/
theorem interruptDue_warning (hl : s.live = true) (hb : s.shBankNo = 0) (ha : s.sh.aopen ≠ 2) (hw : s.sh.warnPend = true) :
    s.interruptDue = some (0x14, false) := by
  have hpoint : ¬(s.shBankNo ≠ 0 ∨ s.sh.aopen = 2 ∨ s.live = false) := by simp [hl, hb, ha]
  rw [State.interruptDue, if_neg hpoint, if_pos hw]

theorem interruptEntry_level (h : s.interruptDue = some (x, false)) (hx : x ≠ 0x14) :
    s.interruptEntry = s.tookFree.exceptionEntry false x s.shBank.pc (s.freeVal.toNat % 2 ^ 24) := by
  simp only [State.interruptEntry, h, Bool.false_eq_true, if_false, if_neg hx]

theorem interruptEntry_warning (h : s.interruptDue = some (0x14, false)) :
    s.interruptEntry = (State.tookFree { s with sh := { s.sh with warnPend := false } }).exceptionEntry false 0x14 s.shBank.pc
      (s.freeVal.toNat % 2 ^ 24) := by
  simp only [State.interruptEntry, h, Bool.false_eq_true, if_false, if_true]
  rfl

theorem shBankNo_warnTaken : (State.tookFree { s with sh := { s.sh with warnPend := false } }).shBankNo = s.shBankNo := (rfl)
theorem psr_warnTaken : (State.tookFree { s with sh := { s.sh with warnPend := false } }).psr = s.psr := (rfl)
theorem now_warnTaken : (State.tookFree { s with sh := { s.sh with warnPend := false } }).now = s.now := (rfl)

/-- The warning's exception, pending no more (R397, R412). -/
theorem exceptionEntry_warning {epc : Addr} {addr : Nat} (hb : s.shBankNo = 0) (hv : (s.descriptor false 0x14).valid = true)
    (ht : (s.descriptor false 0x14).type = 1) (hsup : (s.descriptor false 0x14).sup = true) :
    (State.tookFree { s with sh := { s.sh with warnPend := false } }).exceptionEntry false 0x14 epc addr =
      (let d := s.descriptor false 0x14
       let u := s.tookFree
       let u := { u with sh := { u.sh with warnPend := false, epc := .ofNat 32 epc.toNat, epsr := s.psr, ecause := 0x14, eaddr := .ofNat 32 addr, estamp := s.now } }
       ((State.vector (u.setFlag SH_STAT fSH_STAT_SLEEP false) 1 d).setContext false true).openAtomic 1 d.atomic) := by
  rw [exceptionEntry_valid (shBankNo_warnTaken.trans hb) (by rwa [descriptor_warnTaken]) (by rwa [descriptor_warnTaken])
    (fun _ => by rwa [descriptor_warnTaken])]
  simp only [descriptor_warnTaken, psr_warnTaken, now_warnTaken, hsup]
  rfl

/-- The fault of a spent budget (R398, R405). -/
theorem atomicExpired_faults (hl : s.live = true) (ha : s.sh.aopen = 1) (hb : s.sh.abudget = 0) :
    s.atomicExpired =
      (let pc := s.shBank.pc
       let a := s.freeVal.toNat % 2 ^ 24
       let u := State.setNat (s.tookFree.inc SH_FAULT_CNT) SH_LAST_CAUSE 11
       State.exceptionEntry ((u.setNat SH_LAST_PC pc.toNat).setNat SH_LAST_ADDR a) s.shOuter 11 pc a) := by
  have houter (pc a : Nat) : (((State.setNat (s.tookFree.inc SH_FAULT_CNT) SH_LAST_CAUSE 11).setNat SH_LAST_PC pc).setNat SH_LAST_ADDR a).shOuter =
      s.shOuter := by
    refine flag_of_reg (s := s.tookFree) ?_
    rw [reg_setNat_ne _ _ _ _ (by decide), reg_setNat_ne _ _ _ _ (by decide), reg_setNat_ne _ _ _ _ (by decide), reg_inc_ne _ _ _ (by decide)]
  have hexpired : s.atomicExpired = s.tookFree.shFault 11 (s.freeVal.toNat % 2 ^ 24) := if_pos ⟨ha, hb, hl⟩
  rw [hexpired]
  simp only [State.shFault, houter, Nat.mod_mod]
  rfl

theorem atomicExpired_idle (h : s.sh.aopen ≠ 1 ∨ s.sh.abudget ≠ 0) : s.atomicExpired = s :=
  if_neg fun hopen => h.elim (· hopen.1) (· hopen.2.1)

theorem shLateStore_cons {e : BufStore} {t : List BufStore} (h : s.sh.stores = e :: t) :
    s.shLateStore =
      (let a : Stamp := .ofNat 64 e.addr
       let u := State.setReg64 { s with sh.stores := t } SH_LSE_ADDR_LO SH_LSE_ADDR_HI a
       let u := State.inc (u.setReg64 SH_LSE_STAMP_LO SH_LSE_STAMP_HI e.stamp) SH_LSE_CNT
       (u.raise 50 0 0).record 50 0x51 (lo32 a) (hi32 a) (lo32 e.stamp) (hi32 e.stamp)) := by
  simp only [State.shLateStore, h]

theorem shLateStore_nil (h : s.sh.stores = []) : s.shLateStore = s := by simp only [State.shLateStore, h]
end

/-! ### Flash lines (R393) -/

section
variable {s : State} {bs : List Byte} {l : Nat} {t : List Nat}

theorem lineArrival_installs (h : s.sh.lineReq = l :: t) (hd : s.sh.demand = none) :
    s.lineArrival bs true = (State.lineInstall { s with sh.lineReq := t } l bs).btbFill l bs := by
  simp [State.lineArrival, h, hd]

theorem lineArrival_drops (h : s.sh.lineReq = l :: t) (hd : s.sh.demand = none) : s.lineArrival bs false = { s with sh.lineReq := t } := by
  simp [State.lineArrival, h, hd]

theorem lineArrival_faults (h : s.sh.lineReq = l :: t) (hd : s.sh.demand = some l) :
    s.lineArrival bs false = State.shFault { s with sh.lineReq := t, sh.demand := none } 6 (l * 32 % 2 ^ 24) := by
  simp [State.lineArrival, h, hd]
end

/-! ### The watchdog (R412) -/

section
variable {s : State}

theorem wdgWarning_warns (hl : s.live = true) (hon : s.wdgOn = true) (hw : s.sh.warned = false)
    (hc : s.fld SH_WDG_TIME fSH_WDG_TIME_WARN ≤ s.nat SH_WDG_CNT) :
    s.wdgWarning =
      (State.raise { s with sh := { s.sh with warned := true, warnPend := s.flag SH_WDG_CTRL fSH_WDG_CTRL_WARNV } } 51 0 0).record 51 0x52 0 0 0 0 := by
  simp only [State.wdgWarning, hl, hon, hw, hc, decide_true, Bool.not_false, Bool.and_true, if_true]

theorem wdgWarning_idle (h : s.wdgOn = false ∨ s.sh.warned = true ∨ s.nat SH_WDG_CNT < s.fld SH_WDG_TIME fSH_WDG_TIME_WARN) : s.wdgWarning = s := by
  refine if_neg ?_
  rcases h with h | h | h
  · simp [h]
  · simp [h]
  · simp [Nat.not_le.mpr h]

theorem wdgTimeout_bites (hl : s.live = true) (hon : s.wdgOn = true) (hb : s.sh.bitten = false)
    (hc : s.fld SH_WDG_TIME fSH_WDG_TIME_TIMEOUT ≤ s.nat SH_WDG_CNT) : s.wdgTimeout = State.assertReset { s with sh.bitten := true } 2 none := by
  simp only [State.wdgTimeout, hl, hon, hb, hc, decide_true, Bool.not_false, Bool.and_true, if_true]

theorem wdgTimeout_idle (h : s.wdgOn = false ∨ s.nat SH_WDG_CNT < s.fld SH_WDG_TIME fSH_WDG_TIME_TIMEOUT) : s.wdgTimeout = s := by
  refine if_neg ?_
  rcases h with h | h
  · simp [h]
  · simp [Nat.not_le.mpr h]

theorem kick_logged {p : Port} {off : Nat} {v : Word} : (s.logged p off v).sh.kick = s.sh.kick := by rw [logged_sh]

theorem wdgKick_first (h : s.sh.kick = none) : s.wdgKick 0x6E = { s with sh.kick := some s.fc } := by
  simp only [State.wdgKick, h, if_true]

theorem wdgKick_wrong {v : Nat} (h : s.sh.kick = none) (hv : v ≠ 0x6E) : s.wdgKick v = s.inc SH_WDG_KICKERR := by
  simp only [State.wdgKick, h, if_neg hv]

theorem wdgKick_second {f : Nat} (h : s.sh.kick = some f) (hf : s.fc ≤ f + 256) :
    s.wdgKick 0x91 =
      State.setNat { s with sh := { s.sh with kick := none, wdgAcc := 0, warned := false, warnPend := false, bitten := false } } SH_WDG_CNT 0 := by
  simp only [State.wdgKick, h]
  exact if_pos ⟨trivial, hf⟩
end

/-! ### Invalidation (R414) -/

theorem testBit_eq_bitsOf (n i : Nat) : n.testBit i = decide (bitsOf n i 1 = 1) := Nat.testBit_eq_decide_div_mod_eq

/-- A field of one bit that a word is given at 0 clears that bit. -/
theorem testBit_withBits_zero (n lo i : Nat) : (withBits n lo 1 0).testBit i = (n.testBit i && decide (i ≠ lo)) := by
  rcases Nat.lt_trichotomy i lo with h | h | h
  · rw [testBit_eq_bitsOf, bitsOf_withBits_below _ _ _ _ _ _ h, ← testBit_eq_bitsOf, decide_eq_true (Nat.ne_of_lt h), Bool.and_true]
  · subst h
    rw [testBit_eq_bitsOf, bitsOf_withBits_same]
    simp
  · rw [testBit_eq_bitsOf, bitsOf_withBits_above _ _ _ _ _ _ h, ← testBit_eq_bitsOf, decide_eq_true (Nat.ne_of_gt h), Bool.and_true]

/-- SH_CTRL keeps neither LBINV nor BTBINV: of a word that has one of them, clearing that one clears both. -/
theorem invalidate_cleared {v : Word} {f : Fld} {i j : Nat} (hf : f = ⟨i, 1⟩) (hij : (i = 4 ∧ j = 3) ∨ (i = 3 ∧ j = 4)) (h : bitOf v.toNat j = false) :
    v &&& ~~~(0x18#32) = f.put v 0 := by
  have hmask : ∀ n < 32, (0x18#32).getLsbD n = (decide (n = 3) || decide (n = 4)) := by decide
  have hj : v.getLsbD j = false := by
    rw [BitVec.getLsbD, Nat.testBit_eq_decide_div_mod_eq]
    simpa [bitOf] using h
  refine BitVec.eq_of_getLsbD_eq fun n hn => ?_
  rw [hf, Fld.put, BitVec.getLsbD_ofNat, testBit_withBits_zero, BitVec.getLsbD_and, BitVec.getLsbD_not, hmask n hn, decide_eq_true hn]
  by_cases hnj : n = j
  · rw [hnj, hj, show v.toNat.testBit j = false from hj]
    simp
  · rcases hij with ⟨rfl, rfl⟩ | ⟨rfl, rfl⟩ <;> simp [hnj, BitVec.getLsbD]

section
variable {s : State} {v w : Word}

theorem shWrite_lbinv (hlb : vbit v 4 = true) (hbtb : vbit v 3 = false) : s.shWrite SH_CTRL v w = { s.setReg SH_CTRL w with sh.lines := [] } := by
  simp only [State.shWrite, if_true, hlb, hbtb, Bool.false_eq_true, if_false, State.lbInvalidate]

theorem shWrite_btbinv (hlb : vbit v 4 = false) (hbtb : vbit v 3 = true) : s.shWrite SH_CTRL v w = { s.setReg SH_CTRL w with sh.btb := [] } := by
  simp only [State.shWrite, if_true, hlb, hbtb, Bool.false_eq_true, if_false, State.btbInvalidate]
end

/-- Settles O43: each event of the Shepherd by what its function does on it, and the kicks and invalidations by their registers. -/
theorem shepherdEvents : Obligations.ShepherdEvents := by
  unfold Obligations.ShepherdEvents
  refine ⟨?level, ?warning, ?idle, ?spent, ?budget, ?lateStore, ?noStore, ?line, ?lineError, ?lineFault, ?warns, ?noWarning, ?bites, ?noBite,
    ?kick, ?secondKick, ?wrongKick, ?lbinv, ?btbinv⟩
  case level =>
    intro x s hl hdue hx hv ht
    refine (fastEvent_live hl).trans (congrArg Host.Outcome.next ((interruptEntry_level hdue hx).trans ?_))
    exact exceptionEntry_valid (bank_of_interruptDue (s := s) hdue) hv ht (fun h => absurd h hx)
  case warning =>
    intro s hl hb ha hw hv ht hsup
    refine (fastEvent_live hl).trans (congrArg Host.Outcome.next ((interruptEntry_warning (interruptDue_warning hl hb ha hw)).trans ?_))
    exact exceptionEntry_warning hb hv ht hsup
  case idle => exact fun s h => fastEvent_idle (f := fun s => s.interruptEntry) (by simp only [State.interruptEntry, interruptDue_none h])
  case spent => exact fun s hl ha hb => (fastEvent_live hl).trans (congrArg Host.Outcome.next (atomicExpired_faults hl ha hb))
  case budget => exact fun s h => fastEvent_idle (f := fun s => s.atomicExpired) (atomicExpired_idle h)
  case lateStore => exact fun e t s hl h => (fastEvent_live hl).trans (congrArg Host.Outcome.next (shLateStore_cons h))
  case noStore => exact fun s h => fastEvent_idle (f := fun s => s.shLateStore) (shLateStore_nil h)
  case line => exact fun bytes l t s hl h hd => (fastEvent_live (f := fun s => s.lineArrival bytes.toList _) hl).trans (congrArg Host.Outcome.next (lineArrival_installs h hd))
  case lineError => exact fun bytes l t s hl h hd => (fastEvent_live (f := fun s => s.lineArrival bytes.toList _) hl).trans (congrArg Host.Outcome.next (lineArrival_drops h hd))
  case lineFault => exact fun bytes l t s hl h hd => (fastEvent_live (f := fun s => s.lineArrival bytes.toList _) hl).trans (congrArg Host.Outcome.next (lineArrival_faults h hd))
  case warns => exact fun s hl hon hw hc => (fastEvent_live hl).trans (congrArg Host.Outcome.next (wdgWarning_warns hl hon hw hc))
  case noWarning => exact fun s h => fastEvent_idle (f := fun s => s.wdgWarning) (wdgWarning_idle h)
  case bites => exact fun s hl hon hb hc => (fastEvent_live hl).trans (congrArg Host.Outcome.next (wdgTimeout_bites hl hon hb hc))
  case noBite => exact fun s h => fastEvent_idle (f := fun s => s.wdgTimeout) (wdgTimeout_idle h)
  case kick =>
    intro p s h hk
    obtain ⟨hadm, hword⟩ := takes_iff.mp h
    refine (regCmd_SH_WDG_KICK hadm).trans (congrArg Host.Outcome.next (after_congr ?_))
    have hkey : vfld 0x6E 0 8 = 0x6E := by decide
    rw [hword, hkey, wdgKick_first (kick_logged.trans hk), logged_fc]
  case secondKick =>
    intro p f s h hk hf
    obtain ⟨hadm, hword⟩ := takes_iff.mp h
    refine (regCmd_SH_WDG_KICK hadm).trans (congrArg Host.Outcome.next (after_congr ?_))
    have hkey : vfld 0x91 0 8 = 0x91 := by decide
    rw [hword, hkey]
    exact wdgKick_second (kick_logged.trans hk) ((logged_fc s p _ _).trans_le hf)
  case wrongKick =>
    intro p key s h hk hkey
    obtain ⟨hadm, hword⟩ := takes_iff.mp h
    refine (regCmd_SH_WDG_KICK hadm).trans (congrArg Host.Outcome.next (after_congr ?_))
    rw [hword]
    refine wdgKick_wrong (kick_logged.trans hk) fun hv => hkey (BitVec.eq_of_toNat_eq ?_)
    simpa [vfld, bitsOf, Nat.mod_eq_of_lt key.isLt] using hv
  case lbinv =>
    intro p s w hw h hbtb
    obtain ⟨hadm, hword⟩ := takes_iff.mp h
    have hlb : vbit w 4 = true := by rw [hw]; exact bitOf_put _ _ (by decide) rfl
    have hexec : exec (.lbinv p) s = regCmd p SH_CTRL w s := by rw [hw]; rfl
    refine hexec.trans ((regCmd_SH_CTRL hadm).trans (congrArg Host.Outcome.next (after_congr ?_)))
    rw [hword, invalidate_cleared (f := fSH_CTRL_LBINV) rfl (.inl ⟨rfl, rfl⟩) hbtb]
    exact shWrite_lbinv hlb hbtb
  case btbinv =>
    intro p s w hw h hlb
    obtain ⟨hadm, hword⟩ := takes_iff.mp h
    have hbtb : vbit w 3 = true := by rw [hw]; exact bitOf_put _ _ (by decide) rfl
    have hexec : exec (.btbinv p) s = regCmd p SH_CTRL w s := by rw [hw]; rfl
    refine hexec.trans ((regCmd_SH_CTRL hadm).trans (congrArg Host.Outcome.next (after_congr ?_)))
    rw [hword, invalidate_cleared (f := fSH_CTRL_BTBINV) rfl (.inr ⟨rfl, rfl⟩) hlb]
    exact shWrite_btbinv hlb hbtb

end Sys2Proof.Machine
end

section
/-!
Proofs about the queue operations by registers (12_queue_fabric.md R325 to R330, R345).
-/

namespace Sys2Proof.Machine

/-! ### A change of level leaves the descriptor (R321, R331) -/

section
variable {s : State} {n : Nat}

theorem reg_levelEval {o : Nat} (ho : o < 0x400000) (p k : Nat) : (s.levelEval p k).reg o = s.reg o := by
  have hstate (u : State) (st : Nat) : (u.setSlotState p k st).reg o = u.reg o := reg_setFld_ne _ _ _ _ _ (by simp only [LE_TASK_STAT]; omega)
  have hslot (u : State) (x : Slot) : (u.setSlot p k x).reg o = u.reg o := rfl
  have hready : (s.makeReady p k s.now false).reg o = s.reg o := by rw [State.makeReady, hslot, hstate]
  unfold State.levelEval
  split_ifs
  · rfl
  · exact hready
  · exact hstate s 1
  · rfl

theorem reg_levelChanged {o : Nat} (ho : o < 0x400000) : (s.levelChanged n).reg o = s.reg o :=
  List.foldlRecOn (motive := fun t : State => t.reg o = s.reg o) _ _ rfl (fun _ ht x _ => (reg_levelEval ho x.1 x.2).trans ht)

variable (hn : n < 4096)
include hn

theorem reg_setLevel_cfg (v : Nat) : (s.setLevel n v).reg (QF_QCFG n) = s.reg (QF_QCFG n) := by
  have hset (u : State) (f : Fld) : (u.setFld (QF_QLVL n) f v).reg (QF_QCFG n) = u.reg (QF_QCFG n) :=
    reg_setFld_ne _ _ _ _ _ (by simp only [QF_QCFG, QF_QLVL]; omega)
  unfold State.setLevel
  dsimp only
  rw [reg_levelChanged (by simp only [QF_QCFG]; omega)]
  split
  · exact (hset _ _).trans (hset _ _)
  · exact hset _ _

theorem reg_crossSeen_cfg (seen kind : Nat) : (s.crossSeen n seen kind).reg (QF_QCFG n) = s.reg (QF_QCFG n) := by
  unfold State.crossSeen
  extract_lets wmev x u
  have hstamped : u.reg (QF_QCFG n) = s.reg (QF_QCFG n) := by
    unfold u
    split
    · rw [reg_setFld_ne _ _ _ _ _ (by simp only [QF_QCFG, QF_WMN_STAT]; omega)]
      exact reg_setReg64_ne (by simp only [QF_QCFG, QF_WMN_STAMP_LO]; omega) (by simp only [QF_QCFG, QF_WMN_STAMP_HI]; omega)
    · rfl
  split
  · exact (reg_raiseNamed_unit (by simp only [QF_QCFG]; omega) (by simp only [QF_QCFG]; omega) _ _).trans hstamped
  · exact hstamped

theorem reg_crossing_cfg (kind : Nat) : (s.crossing n kind).reg (QF_QCFG n) = s.reg (QF_QCFG n) := by
  have hstat (u : State) (f : Fld) : (u.setFlag (QF_WMN_STAT n) f true).reg (QF_QCFG n) = u.reg (QF_QCFG n) :=
    reg_setFlag_ne _ _ _ _ _ (by simp only [QF_QCFG, QF_WMN_STAT]; omega)
  have hcount (u : State) (f : Fld) : (u.incSat (QF_WMN_CNT n) f).reg (QF_QCFG n) = u.reg (QF_QCFG n) :=
    reg_incSat_ne _ _ _ _ (by simp only [QF_QCFG, QF_WMN_CNT]; omega)
  unfold State.crossing
  dsimp only
  rw [reg_crossSeen_cfg hn]
  split
  · exact (hcount _ _).trans (hstat _ _)
  · exact (hcount _ _).trans (hstat _ _)

theorem reg_crossings_cfg (old new : Nat) : (s.crossings n old new).reg (QF_QCFG n) = s.reg (QF_QCFG n) := by
  unfold State.crossings
  extract_lets hi lo u
  have high : u.reg (QF_QCFG n) = s.reg (QF_QCFG n) := by
    unfold u
    split
    · exact reg_crossing_cfg hn 0
    · rfl
  split
  · exact (reg_crossing_cfg hn 1).trans high
  · exact high

theorem reg_qRemove_cfg : (s.qRemove n).reg (QF_QCFG n) = s.reg (QF_QCFG n) := by
  unfold State.qRemove State.moveLevel
  dsimp only
  rw [reg_crossings_cfg hn, reg_setLevel_cfg hn]
  exact reg_setFld_ne _ _ _ _ _ (by simp only [QF_QCFG, QF_QPTR]; omega)
end

/-! ### The operations of HPP and of the debug access master (R326, R327, R345) -/

section
variable {s : State} {n inc : Nat} {a : QAgent} {e : List QWord}

theorem passes_hopAgent (m : Nat) : (hopAgent m).passes = true := by
  unfold hopAgent
  split <;> rfl

/-- What a register operation carries goes through the stale check. -/
theorem carriedInc_hopAgent (m : Nat) : s.carriedInc n (hopAgent m) = s.flockInc (s.qFlock n) := if_pos (passes_hopAgent m)

theorem qCheck_passes (hen : s.qEn n = true) (hp : s.descPoisoned n = false) (ha : a.passes = true) (hinc : inc = s.flockInc (s.qFlock n)) :
    s.qCheck n a inc = (none, s) := by
  simp [State.qCheck, hen, hp, ha, hinc]

theorem qCheck_disabled (hen : s.qEn n = false) : s.qCheck n a inc = (some .refused, s.inc (QF_QDENIED_CNT n)) := by
  simp [State.qCheck, hen]

/-- No sample that the filter names leaves its port in this fc. -/
theorem samplesLeave_none {f : SampleFly → Bool} (h : ∀ x ∈ s.si.fly, (x.fc + 2 == s.fc && f x) = false) : s.samplesLeave f = s := by
  have hgo : s.si.fly.filter (fun x => x.fc + 2 == s.fc && f x) = [] := List.filter_eq_nil_iff.mpr fun x hx => by simp [h x hx]
  have hstay : s.si.fly.filter (fun x => !(x.fc + 2 == s.fc && f x)) = s.si.fly := List.filter_eq_self.mpr fun x hx => by rw [h x hx]; rfl
  simp only [State.samplesLeave, hgo, hstay, List.foldl_nil]

/-- Without a sample for the queue in this fc a put is the operation alone (R326). -/
theorem qPut_alone (h : ∀ x ∈ s.si.fly, x.fc + 2 ≠ s.fc ∨ s.routeQueue x ≠ some n) : s.qPut n a inc e = s.qPutOne n a inc e := by
  rw [State.qPut, samplesLeave_none]
  intro x hx
  rcases h x hx with hfc | hroute
  · rw [beq_false_of_ne hfc, Bool.false_and]
  · rw [beq_false_of_ne hroute, Bool.and_false]

section
variable (hen : s.qEn n = true) (hp : s.descPoisoned n = false) (ha : a.passes = true) (hinc : inc = s.flockInc (s.qFlock n))
include hen hp ha hinc

theorem qPutOne_room (hpool : s.qPool n = false) (hroom : s.qLevel n < s.qDepth n) :
    s.qPutOne n a inc e = (.done, ((s.qAppend n e).inc (QF_QPUT_CNT n)).qFresh n) := by
  simp only [State.qPutOne, qCheck_passes hen hp ha hinc, hpool, Bool.false_eq_true, if_false, if_neg (Nat.not_le.mpr hroom)]

theorem qPutOne_full (hpool : s.qPool n = false) (hfull : s.qDepth n ≤ s.qLevel n) : s.qPutOne n a inc e = (.full, s.inc (QF_QFULL_CNT n)) := by
  simp only [State.qPutOne, qCheck_passes hen hp ha hinc, hpool, Bool.false_eq_true, if_false, if_pos hfull]

theorem qGet_empty (h : s.qShown n = 0) : s.qGet n a inc = (.empty, [], s.inc (QF_QEMPTY_CNT n)) := by
  simp only [State.qGet, qCheck_passes hen hp ha hinc, if_pos h]

theorem qGet_head (hn : n < 4096) (hpool : s.qPool n = false) (h : s.qShown n ≠ 0) :
    s.qGet n a inc = (.done, s.qPeek n, (s.qRemove n).inc (QF_QGET_CNT n)) := by
  have hkept : ((s.qRemove n).inc (QF_QGET_CNT n)).qPool n = false :=
    (flag_of_reg ((reg_inc_ne _ _ _ (by simp only [QF_QCFG, QF_QGET_CNT]; omega)).trans (reg_qRemove_cfg hn))).trans hpool
  simp only [State.qGet, qCheck_passes hen hp ha hinc, if_neg h, hkept, Bool.false_eq_true, if_false]
end

theorem hopResult_done (m lvl : Nat) : s.hopResult m lvl .done none = s.setNat (QF_HSTAT m) (lvl * 65536) := by
  simp only [State.hopResult, Nat.add_zero]

theorem hopApply_put {m : Nat} {r : QRes} {u : State} (h : s.qPut n (hopAgent m) inc e = (r, u)) :
    s.hopApply m n .put inc e = u.hopResult m (u.qLevel n) r none := by
  unfold State.hopApply
  rw [h]

theorem qPutOne_disabled (hen : s.qEn n = false) : s.qPutOne n a inc e = (.refused, s.inc (QF_QDENIED_CNT n)) := by
  simp only [State.qPutOne, qCheck_disabled hen]

/-- The counters of an operation leave the level. -/
theorem qLevel_inc {o : Nat} (ho : o ≠ QF_QLVL n) : (s.inc o).qLevel n = s.qLevel n := fld_of_reg (reg_inc_ne _ _ _ ho.symm)

theorem qShown_inc {o : Nat} (ho : o ≠ QF_QLVL n) : (s.inc o).qShown n = s.qShown n := by
  rw [State.qShown, qLevel_inc ho]
  rfl
end

section
variable {s : State} {n m : Nat}

theorem hop_held (op : QOp) (h : s.qBusy n = true) :
    s.hop m n op = { s with qf.held := s.qf.held ++ [⟨n, op, hopAgent m, s.flockInc (s.qFlock n), s.hputWords m⟩] } := by
  rw [State.hop, if_pos h, carriedInc_hopAgent]
  rfl

variable (hb : s.qBusy n = false)
include hb

theorem hop_applies (op : QOp) : s.hop m n op = s.hopApply m n op (s.flockInc (s.qFlock n)) (s.hputWords m) := by
  rw [State.hop, if_neg (ne_true_of_eq_false hb), carriedInc_hopAgent]

theorem hop_put_disabled (hen : s.qEn n = false) (hfly : ∀ x ∈ s.si.fly, x.fc + 2 ≠ s.fc ∨ s.routeQueue x ≠ some n) :
    s.hop m n .put = (s.inc (QF_QDENIED_CNT n)).setNat (QF_HSTAT m) (s.qLevel n * 65536 + 2) := by
  rw [hop_applies hb, hopApply_put ((qPut_alone hfly).trans (qPutOne_disabled hen)), State.hopResult,
    qLevel_inc (show QF_QDENIED_CNT n ≠ QF_QLVL n by simp only [QF_QDENIED_CNT, QF_QLVL]; omega)]

section
variable (hen : s.qEn n = true) (hp : s.descPoisoned n = false)
include hen hp

theorem hop_put_room (hpool : s.qPool n = false) (hroom : s.qLevel n < s.qDepth n)
    (hfly : ∀ x ∈ s.si.fly, x.fc + 2 ≠ s.fc ∨ s.routeQueue x ≠ some n) :
    s.hop m n .put =
      (let v := State.inc (s.qAppend n (s.hputWords m)) (QF_QPUT_CNT n)
       let v := { v with qf.fresh := tset (fun _ => 0) v.qf.fresh n (tget (fun _ => 0) v.qf.fresh n + 1) }
       State.setNat v (QF_HSTAT m) (State.qLevel v n * 65536)) := by
  rw [hop_applies hb, hopApply_put ((qPut_alone hfly).trans (qPutOne_room hen hp (passes_hopAgent m) rfl hpool hroom)), hopResult_done]
  rfl

theorem hop_put_full (hpool : s.qPool n = false) (hfull : s.qDepth n ≤ s.qLevel n)
    (hfly : ∀ x ∈ s.si.fly, x.fc + 2 ≠ s.fc ∨ s.routeQueue x ≠ some n) :
    s.hop m n .put = (s.inc (QF_QFULL_CNT n)).setNat (QF_HSTAT m) (s.qLevel n * 65536 + 1) := by
  rw [hop_applies hb, hopApply_put ((qPut_alone hfly).trans (qPutOne_full hen hp (passes_hopAgent m) rfl hpool hfull)), State.hopResult,
    qLevel_inc (show QF_QFULL_CNT n ≠ QF_QLVL n by simp only [QF_QFULL_CNT, QF_QLVL]; omega)]

theorem hop_get_head (hn : n < 4096) (hpool : s.qPool n = false) (h : s.qShown n ≠ 0) :
    s.hop m n .get =
      (let e := s.qPeek n
       let v := State.inc (s.qRemove n) (QF_QGET_CNT n)
       forN (fun i x => (x.setReg (QF_HGET m i) ((padWords 16 e).getD i (0, false)).1).setMark (QF_HGET m i) ((padWords 16 e).getD i (0, false)).2) 16
         (v.setNat (QF_HSTAT m) (v.qShown n * 65536))) := by
  simp only [hop_applies hb, State.hopApply, qGet_head hen hp (passes_hopAgent m) rfl hn hpool h, if_true, State.hopResult, Nat.add_zero]

theorem hop_get_empty (h : s.qShown n = 0) : s.hop m n .get = (s.inc (QF_QEMPTY_CNT n)).setNat (QF_HSTAT m) 1 := by
  have hshown : (s.inc (QF_QEMPTY_CNT n)).qShown n = 0 :=
    (qShown_inc (show QF_QEMPTY_CNT n ≠ QF_QLVL n by simp only [QF_QEMPTY_CNT, QF_QLVL]; omega)).trans h
  simp only [hop_applies hb, State.hopApply, qGet_empty hen hp (passes_hopAgent m) rfl h, reduceCtorEq, if_false, State.hopResult, hshown,
    Nat.zero_mul, Nat.zero_add]

theorem hop_lvl : s.hop m n .lvl = s.setNat (QF_HSTAT m) (s.qShown n * 65536) := by
  simp only [hop_applies hb, State.hopApply, qCheck_passes hen hp (passes_hopAgent m) rfl, State.hopResult, Option.getD_none, Nat.add_zero]
end
end

/-! ### The operations by QF_HOP -/

section
variable {s : State} {p : Port} {m : Fin 2} {n : Fin 4096}

/-- The entry of the log of HPP leaves the fabric. -/
theorem qf_logged {o : Nat} {v : Word} {n : Nat} :
    (s.logged p o v).qBusy n = s.qBusy n ∧ (s.logged p o v).qEn n = s.qEn n ∧ (s.logged p o v).qPool n = s.qPool n
      ∧ (s.logged p o v).qDepth n = s.qDepth n ∧ (s.logged p o v).qLevel n = s.qLevel n ∧ (s.logged p o v).qShown n = s.qShown n
      ∧ (s.logged p o v).descPoisoned n = s.descPoisoned n ∧ (s.logged p o v).qFlock n = s.qFlock n := by
  obtain ⟨j, h⟩ := logged_eq s p o v
  rw [h]
  exact ⟨rfl, rfl, rfl, rfl, rfl, rfl, rfl, rfl⟩

theorem hputWords_logged {o m : Nat} {v : Word} : (s.logged p o v).hputWords m = s.hputWords m := by
  simp only [State.hputWords, logged_reg]

theorem fly_logged {o n : Nat} {v : Word} (h : ∀ x ∈ s.si.fly, x.fc + 2 ≠ s.fc ∨ s.routeQueue x ≠ some n) :
    ∀ x ∈ (s.logged p o v).si.fly, x.fc + 2 ≠ (s.logged p o v).fc ∨ (s.logged p o v).routeQueue x ≠ some n := by
  obtain ⟨j, hj⟩ := logged_eq s p o v
  rw [hj]
  exact h

/-- A write of QF_HOP is the operation of its code on its queue (R345). -/
theorem hopCmd_runs {code : Nat} {op : QOp} {v : Word} (hop : (code, op) ∈ [(1, QOp.put), (2, QOp.get), (3, QOp.lvl)])
    (hv : v = .ofNat 32 (code * 2 ^ 30 + n.val)) (h : s.takes p (QF_HOP m) v = true) :
    hopCmd p m n code s = .next (s.after p (QF_HOP m) v (fun u => u.hop m n op)) := by
  obtain ⟨hadm, hword⟩ := takes_iff.mp h
  have hn := n.isLt
  have hcode : code < 4 := by
    simp only [List.mem_cons, Prod.mk.injEq, List.not_mem_nil, or_false] at hop
    omega
  have hop' : vfld v 30 2 = code := by
    rw [hv, vfld, BitVec.toNat_ofNat, bitsOf]
    omega
  have hqueue : vfld v 0 12 = n.val := by
    rw [hv, vfld, BitVec.toNat_ofNat, bitsOf]
    omega
  rw [hopCmd, ← hv]
  refine (regCmd_QF_HOP m hadm).trans (congrArg Host.Outcome.next (after_congr ?_))
  rw [hword, hop', hqueue]
  simp only [List.mem_cons, Prod.mk.injEq, List.not_mem_nil, or_false] at hop
  rcases hop with ⟨rfl, rfl⟩ | ⟨rfl, rfl⟩ | ⟨rfl, rfl⟩ <;> rfl

theorem exec_hopPut {v : Word} (hv : v = .ofNat 32 (2 ^ 30 + n.val)) (h : s.takes p (QF_HOP m) v = true) :
    exec (.hopPut p m n) s = .next (s.after p (QF_HOP m) v (fun u => u.hop m n .put)) :=
  hopCmd_runs (by simp) (hv.trans (by rw [Nat.one_mul])) h

theorem exec_hopGet {v : Word} (hv : v = .ofNat 32 (2 * 2 ^ 30 + n.val)) (h : s.takes p (QF_HOP m) v = true) :
    exec (.hopGet p m n) s = .next (s.after p (QF_HOP m) v (fun u => u.hop m n .get)) :=
  hopCmd_runs (by simp) hv h

theorem exec_hopLvl {v : Word} (hv : v = .ofNat 32 (3 * 2 ^ 30 + n.val)) (h : s.takes p (QF_HOP m) v = true) :
    exec (.hopLvl p m n) s = .next (s.after p (QF_HOP m) v (fun u => u.hop m n .lvl)) :=
  hopCmd_runs (by simp) hv h
end

/-- Settles O39: the code of QF_HOP names the operation, and each operation's outcome follows the state of the queue. -/
theorem queueOperationsByRegisters : Obligations.QueueOperationsByRegisters := by
  unfold Obligations.QueueOperationsByRegisters
  refine ⟨?room, ?full, ?disabled, ?held, ?head, ?empty, ?level, fun _ _ _ _ _ => rfl⟩
  case room =>
    intro p m n s
    generalize hv : BitVec.ofNat 32 (2 ^ 30 + n.val) = v
    intro h hb hen hp hpool hroom hfly
    obtain ⟨lb, len, lpool, ldepth, llevel, -, lp, -⟩ := qf_logged (s := s) (p := p) (o := QF_HOP m) (v := v) (n := n)
    refine (exec_hopPut hv.symm h).trans (congrArg Host.Outcome.next (after_congr ?_))
    refine (hop_put_room (lb.trans hb) (len.trans hen) (lp.trans hp) (lpool.trans hpool) ?_ (fly_logged hfly)).trans ?_
    · rwa [llevel, ldepth]
    · rw [hputWords_logged]
      rfl
  case full =>
    intro p m n s
    generalize hv : BitVec.ofNat 32 (2 ^ 30 + n.val) = v
    intro h hb hen hp hpool hfull hfly
    obtain ⟨lb, len, lpool, ldepth, llevel, -, lp, -⟩ := qf_logged (s := s) (p := p) (o := QF_HOP m) (v := v) (n := n)
    refine (exec_hopPut hv.symm h).trans (congrArg Host.Outcome.next (after_congr ?_))
    rw [hop_put_full (lb.trans hb) (len.trans hen) (lp.trans hp) (lpool.trans hpool) (by rwa [llevel, ldepth]) (fly_logged hfly), llevel]
  case disabled =>
    intro p m n s
    generalize hv : BitVec.ofNat 32 (2 ^ 30 + n.val) = v
    intro h hb hen hfly
    obtain ⟨lb, len, -, -, llevel, -, -, -⟩ := qf_logged (s := s) (p := p) (o := QF_HOP m) (v := v) (n := n)
    refine (exec_hopPut hv.symm h).trans (congrArg Host.Outcome.next (after_congr ?_))
    rw [hop_put_disabled (lb.trans hb) (len.trans hen) (fly_logged hfly), llevel]
  case held =>
    intro p m n s
    generalize hv : BitVec.ofNat 32 (2 ^ 30 + n.val) = v
    intro h hb
    obtain ⟨lb, -, -, -, -, -, -, lflock⟩ := qf_logged (s := s) (p := p) (o := QF_HOP m) (v := v) (n := n)
    refine (exec_hopPut hv.symm h).trans (congrArg Host.Outcome.next (after_congr ?_))
    rw [hop_held .put (lb.trans hb), lflock, hputWords_logged, State.flockInc, logged_fld]
    rfl
  case head =>
    intro p m n s
    generalize hv : BitVec.ofNat 32 (2 * 2 ^ 30 + n.val) = v
    intro h hb hen hp hpool hshown
    obtain ⟨lb, len, lpool, -, -, lshown, lp, -⟩ := qf_logged (s := s) (p := p) (o := QF_HOP m) (v := v) (n := n)
    refine (exec_hopGet hv.symm h).trans (congrArg Host.Outcome.next (after_congr ?_))
    exact hop_get_head (lb.trans hb) (len.trans hen) (lp.trans hp) n.isLt (lpool.trans hpool) (by rwa [lshown])
  case empty =>
    intro p m n s
    generalize hv : BitVec.ofNat 32 (2 * 2 ^ 30 + n.val) = v
    intro h hb hen hp hshown
    obtain ⟨lb, len, -, -, -, lshown, lp, -⟩ := qf_logged (s := s) (p := p) (o := QF_HOP m) (v := v) (n := n)
    refine (exec_hopGet hv.symm h).trans (congrArg Host.Outcome.next (after_congr ?_))
    exact hop_get_empty (lb.trans hb) (len.trans hen) (lp.trans hp) (lshown.trans hshown)
  case level =>
    intro p m n s
    generalize hv : BitVec.ofNat 32 (3 * 2 ^ 30 + n.val) = v
    intro h hb hen hp
    obtain ⟨lb, len, -, -, -, lshown, lp, -⟩ := qf_logged (s := s) (p := p) (o := QF_HOP m) (v := v) (n := n)
    refine (exec_hopLvl hv.symm h).trans (congrArg Host.Outcome.next (after_congr ?_))
    rw [hop_lvl (lb.trans hb) (len.trans hen) (lp.trans hp), lshown]

end Sys2Proof.Machine
end
